-- ==== Sys2Proof/Word.lean ====
section
/-! DEFINITION. The word types of the ECL48-M72 model, the block types of the page map and the access types of
register fields. Bit 0 is the least significant bit everywhere (R4); every structure is little-endian unless its
chapter says otherwise (R5). -/

namespace Sys2Proof

/-- One byte. -/
abbrev Byte := BitVec 8

/-- One 32-bit register or dword. -/
abbrev Dword := BitVec 32

/-- One 64-bit quantity (an Ilesh register, a tick count as software reads it). -/
abbrev Qword := BitVec 64

/-- The block types of the global page map (R94). -/
inductive PageType where
  | glb | tick | mss | pwr | feed | rmt | egs | nvme | ftl | ckpt | pair | ciph | intg | perf
  | tile | dec | shp | ten | sramt | link | eth | host | fch | memc | func
  deriving DecidableEq, Repr

/-- One register page: a block type and an instance number (R84, R94). -/
structure Page where
  ty : PageType
  inst : Nat
  deriving DecidableEq, Repr

/-- The access types of register fields (R8). -/
inductive Access where
  | rw | ro | w1c | w1s | wo | rws | rwl | rsv
  deriving DecidableEq, Repr

/-- A field of a register: bits [hi:lo], access type and cold-reset value (R8, R10). -/
structure RegField where
  hi : Nat
  lo : Nat
  ty : Access
  reset : Nat
  deriving DecidableEq, Repr

/-- One register, or an array of `count` registers `stride` bytes apart. -/
structure RegRow where
  name : String
  off : Nat
  stride : Nat
  count : Nat
  fields : List RegField
  deriving DecidableEq, Repr

end Sys2Proof
end

