-- ==== Sys2Proof/Syntax.lean ====
section
/-! DEFINITION. The commands of the block: one constructor of `Instr` per row of the command table, with the operands the
rule of that row needs. Times are in nanoseconds of the model's clock. Data that a command reads from memory outside the
block, and outcomes that come from outside it, are operands. -/

namespace Sys2Proof

/-- A service command in hand, named by function, queue pair and command identifier (R107). -/
structure CmdRef where
  func : Nat
  pair : Nat
  cid : Nat
  deriving DecidableEq, Repr

/-- Who accesses registers: a function, or the MSS (R93), or a core of the device (R58). -/
inductive Agent where
  | func (index : Nat)
  | mss
  | core (index : Nat)
  deriving DecidableEq, Repr

/-- A crop or area: x, y, width, height in luma samples. -/
structure Area where
  x : Nat
  y : Nat
  w : Nat
  h : Nat
  deriving DecidableEq, Repr

/-- A timecode label as a source gives it (R153, R601): source 1 container, 2 video stream; the packed label. -/
structure TcLabel where
  source : Nat
  label : Nat
  deriving DecidableEq, Repr

/-! ### What the headers of a shard say, as the standards of R147 write it -/

/-- An elementary stream in a PMT: PID, stream type, descriptor tags, Layer II (types 0x03 and 0x04) or AAC-LC (type 0x0F)
in it, and the page types its teletext descriptor names (R147, R148). -/
structure TsStream where
  pid : Nat
  ty : Nat
  tags : List Nat
  form : Bool
  pages : List Nat
  deriving DecidableEq, Repr

/-- A program of the PAT with its PMT: PCR PID and streams, in PMT order. -/
structure TsProgram where
  pcrPid : Nat
  streams : List TsStream
  deriving DecidableEq, Repr

/-- A track of an ISO BMFF file: its sample entry, AAC-LC in an mp4a entry, and the edits of its edit list, each the media time
it starts at, none for an empty edit, in 90 kHz units (R147, R151). -/
structure BmffTrack where
  entry : String
  aacLc : Bool
  edits : List (Option Int)
  deriving DecidableEq, Repr

/-- A partition of an MXF file (R147, R152): closed, complete header metadata in it, clip-wrapped essence, an index table,
the codec codes of its picture tracks (1 MPEG-2, 2 AVC, 0 another), whether each sound track is AES3 or BWF PCM, and whether
its system items, or a timecode track, give a timecode. -/
structure MxfPart where
  closed : Bool
  complete : Bool
  clip : Bool
  index : Bool
  video : List Nat
  audio : List Bool
  timecode : Bool
  deriving DecidableEq, Repr

/-- A shard's container: transport packets of a size with the programs in PAT order; ISO BMFF with its largest moov or moof box
in bytes and its tracks in file order; MXF OP1a, or another operational pattern, with its partitions in file order; or none
of them. -/
inductive Layout where
  | unknown
  | ts (packet : Nat) (programs : List TsProgram)
  | bmff (box : Nat) (tracks : List BmffTrack)
  | mxf (op1a : Bool) (parts : List MxfPart)
  deriving DecidableEq, Repr

/-- Profiles of R156, and any other. -/
inductive VideoProfile where
  | mp | p422 | cBaseline | main | high | high10 | high10Intra | high422Intra | main10 | main42210 | other
  deriving DecidableEq, Repr

/-- The sequence-level headers of the selected video stream (R156, R158, R195): profile, level times 10 (MPEG-2: low 10, main
20, high-1440 30, high 40), a tool of FMO, ASO or redundant slices, PROFILE_IDC and LEVEL_IDC as coded, SRC_FMT as R182 codes
it, interlaced or field-coded, decoded width and height. -/
structure VideoHdr where
  profile : VideoProfile
  level : Nat
  baselineTool : Bool
  profileIdc : Nat
  levelIdc : Nat
  srcFmt : Nat
  interlaced : Bool
  width : Nat
  height : Nat
  deriving DecidableEq, Repr

/-- What the headers of a shard say (R147 to R158, R195, R601): its container, the selected video stream's headers, none when
it has none, the declared frame rate, timecode and its drop-frame flag where a source has one, CEA captions present, duration
in 90 kHz units. -/
structure ShardInfo where
  layout : Layout
  video : Option VideoHdr
  rate : Option (Nat × Nat)
  tcDrop : Option Bool
  captions : Bool
  dur : Nat
  deriving DecidableEq, Repr

/-! ### Pictures -/

/-- An active entry of a reference picture list: the picture, by its number in decoding order, as a frame or as one field; a
non-existing frame left by a frame_num gap, or a picture lost entirely, has none (R161). -/
structure RefEntry where
  pic : Option Nat
  frame : Bool
  deriving DecidableEq, Repr

/-- Random access points: AVC IDR, HEVC and VVC IDR, CRA, BLA, VVC GDR, a shown AV1 key frame. -/
inductive RapKind where
  | none | idr | cra | bla | gdr | key
  deriving DecidableEq, Repr

/-- What a picture's headers say of its references (R161, R162): the active entries of the two lists over its slices, as the
standard's marking, initialisation and modification give them; whether temporal prediction is on (AVC direct mode not spatial in
a B slice, slice_temporal_mvp_enabled_flag), from list 0, at which index; the AV1 slots named, refresh_frame_flags and the slot
shown by show_existing_frame; random access; the access point it leads (a RASL picture, or one before a recovery point);
MPEG-2 closed_gop and broken_link of its GOP, whether it precedes the GOP's I picture in display order, and the anchors lost
entirely since the last picture; and whether the end of a sequence precedes it. -/
structure PicRefs where
  list0 : List RefEntry
  list1 : List RefEntry
  temporal : Bool
  fromL0 : Bool
  collocIdx : Nat
  slots : List Nat
  refresh : Nat
  showSlot : Option Nat
  rap : RapKind
  leads : Option Nat
  closedGop : Bool
  brokenLink : Bool
  leadB : Bool
  lostAnchors : Nat
  seqEnd : Bool
  deriving DecidableEq, Repr

/-- A picture's coded data (R176, R177, R181): where it lies in the source cache, the bits of each unit in order, unit
size in luma samples, the first units of its slices, and CAVLC (AVC). -/
structure PicCode where
  addr : Nat
  bits : List Nat
  unit : Nat
  slices : List Nat
  cavlc : Bool
  deriving DecidableEq, Repr

/-- What a picture's headers say of its samples (R157, R182, R186 to R189): decoded size, for a field that of the field; profile
and level as coded; the conformance window or frame cropping; flagged progressive, interlaced, top field first; sample aspect;
AFD code; SRC_FMT, SRC_MATRIX and SRC_RANGE as R182 codes them, BT.2020 constant luminance as 4. -/
structure PicShow where
  width : Nat
  height : Nat
  profileLevel : Nat
  window : Area
  progressive : Bool
  interlaced : Bool
  tff : Bool
  sarN : Nat
  sarD : Nat
  afd : Option Nat
  srcFmt : Nat
  matrix : Nat
  range : Nat
  deriving DecidableEq, Repr

/-- A picture's parsed headers: its number in decoding order, codec code of R181, kind (0 I, 1 P, 2 B; for AV1 0 key or
intra-only), field (0 frame, 1 top, 2 bottom), second field of its frame, shown (AV1 show_frame), 33-bit PTS and DTS, the
nominal frame period in 90 kHz units, the PID that carried it in a transport stream, and the shard offset of the first packet it
lies in. -/
structure PicHdr where
  id : Nat
  codec : Nat
  kind : Nat
  field : Nat
  second : Bool
  shown : Bool
  pts : Nat
  dts : Nat
  period : Nat
  pid : Nat
  pos : Nat
  refs : PicRefs
  code : PicCode
  disp : PicShow
  deriving DecidableEq, Repr

/-! ### Captions and audio -/

/-- A character as a caption service codes it: its code, and the diacritic that goes with it, 0 for none. -/
structure CapChar where
  code : Nat
  mark : Nat
  deriving DecidableEq, Repr

/-- What a caption service does (R154): source as PARAM of R133 codes it (1 CEA-608 CC1, 2 CEA-708 service 1, 3 the chosen
teletext page), time in 90 kHz units after the shard's first presentation time, character set with its national option, and the text that appears, none
when the display is erased; a completed row in roll-up mode stays until `till`. -/
structure CapEvent where
  source : Nat
  time : Nat
  set : Nat
  text : Option (List CapChar)
  till : Option Nat
  deriving DecidableEq, Repr

/-- Audio formats of R147 and R155. -/
inductive AudioFmt where
  | aacLc | heAac | ac3 | layer2 | layer2Dual | pcm
  deriving DecidableEq, Repr

/-- An audio frame as the stream core takes it (R155, R169): format, source rate, channels (6 for 5.1, LFE the fourth), samples for each
channel, presentation time after the shard's first one, the frame's bytes, and whether it decodes without a syntax error. -/
structure AudioFrame where
  fmt : AudioFmt
  rate : Nat
  channels : Nat
  samples : Nat
  time : Nat
  bytes : List Byte
  ok : Bool
  deriving DecidableEq, Repr

/-- What the stream core works on in its ingest of one context (R147 to R169, R176, R223): the next transport packet of its
source cache, or the next `n` bytes of another container; its shard's headers; a change of parameters `dur` after the first
presentation time; a picture's headers with its timecode labels; coded bytes it lays together in the source cache; the end of
the shard's data, `dur` after the first presentation time, and whether it ends inside a picture; a caption event; an audio frame; the planning of the sample; and the issue of the context's next item to the
decode slice, the shaper, and the tensor block: of a visual run, of an audio run, of a caption record, each with its TAG. -/
inductive DemuxItem where
  | packet
  | pass (n : Nat)
  | shard (i : ShardInfo)
  | change (i : ShardInfo) (dur : Nat)
  | picture (h : PicHdr) (labels : List TcLabel)
  | bits (addr : Nat) (bytes : List Byte)
  | shardEnd (dur : Nat) (inside : Bool)
  | caption (e : CapEvent)
  | audio (f : AudioFrame)
  | plan
  | decode (tag : Nat)
  | shape (tag : Nat)
  | visual (tag : Nat)
  | audioRun (tag : Nat)
  | text (tag : Nat)
  deriving DecidableEq, Repr

/-! ### Items -/

/-- Cycles an item took (R71, R72, R183): in the tick's budget, after a tick edge, and how many of them, the earlier first, the
tile ran stretched. -/
structure Cycles where
  used : Nat
  after : Nat
  slow : Nat
  deriving DecidableEq, Repr

/-- How a decode or parse item ended on its own (R183): status (0 OK, 1 SYNTAX, 5 UNSUPPORTED), cycles, and the units in error or
left undecoded, by address. -/
structure ItemEnd where
  status : Nat
  cyc : Cycles
  bad : List Nat
  deriving DecidableEq, Repr

/-- Prediction modes of R173. -/
inductive PredMode where
  | intra | skip | forward | backward | bi
  deriving DecidableEq, Repr

/-- A prediction block (R174): its area, mode, forward and backward vector with the reference each names, in units of
1 / 2^`prec` luma samples, and the distance of each reference in frame periods. -/
structure PredBlock where
  area : Area
  mode : PredMode
  prec : Nat
  fx : Int
  fy : Int
  fd : Nat
  bx : Int
  by_ : Int
  bd : Nat
  deriving DecidableEq, Repr

/-- A transform block (R174): its area, whether it is DCT-II, its DC, first horizontal and first vertical coefficients after
dequantisation, and the sum of squares of all its coefficients under the orthonormal transform. -/
structure TransBlock where
  area : Area
  dct2 : Bool
  dc : Int
  hor : Int
  ver : Int
  energy : Nat
  deriving DecidableEq, Repr

/-- The syntax and motion data a picture codes (R170, R174). -/
structure CodedMotion where
  preds : List PredBlock
  trans : List TransBlock
  deriving DecidableEq, Repr

/-- What SHARD_PROBE found (R195). -/
inductive ProbeEnd where
  | running
  | unreadable
  | report (i : ShardInfo)
  deriving DecidableEq, Repr

/-- What an Ilesh instruction carries beside its operands (R233, R234, R599): the core, the width (0 for 64 bits, 1 W32, 2
W16, 3 W8), the NF, ACQ and REL prefixes, its bytes as fetched, the cycles it takes, how many of them the tile runs stretched (R71),
and whether a register it reads fails its parity check (R262). -/
structure Ilx where
  core : Nat
  width : Nat
  nf : Bool
  acq : Bool
  rel : Bool
  bytes : List Byte
  cycles : Nat
  slow : Nat
  parity : Bool
  deriving DecidableEq, Repr

/-- What a cipher job read (R505, R508): source, additional data, expected tag or MAC; the source bytes before a read that
failed, none when none did; a failed read of the additional data or the tag; a failed write of the output descriptor. -/
structure CipherIn where
  src : List Byte
  aad : List Byte
  tag : List Byte
  failAt : Option Nat
  aadFail : Bool
  outFail : Bool
  deriving DecidableEq, Repr

/-- One redundant copy of an ONFI parameter page, with the fields a qualification record is held against (R415). -/
structure ParamPage where
  signature : List Byte
  crcOk : Bool
  maker : Nat
  model : List Byte
  pageBytes : Nat
  spareBytes : Nat
  pagesPerBlock : Nat
  blocksPerLun : Nat
  luns : Nat
  cellBits : Nat
  lpddr4 : Bool
  deriving DecidableEq, Repr

/-- A die as power-up finds it (R413, R415): its index, the copies of its parameter page, trained, and the blocks it marks
bad. -/
structure DieFound where
  die : Nat
  copies : List ParamPage
  trained : Bool
  bad : Nat
  deriving DecidableEq, Repr


/-- The engine that issued a DMA read (R361, R362): a service queue pair, a work request of a queue pair, an NVMe submission
queue, an NVMe command, or a READ on a feed link. -/
inductive ReadEngine where
  | svc (pair : Nat)
  | rmt (qp wqe : Nat)
  | nvmeQueue
  | nvmeCmd (sq cid : Nat)
  | feed (link tag : Nat)
  deriving DecidableEq, Repr


/-- A checkpoint message as it arrives on a group QP (R441): FORMAT, sender's rank, GROUP_ID, STEP, SRC_RANK, unit index and
stripe. -/
structure CkMsg where
  format : Nat
  sender : Nat
  group : Nat
  step : Nat
  src : Nat
  unit : Nat
  stripe : Nat
  deriving DecidableEq, Repr


/-- What a host's configuration write sets in a function, where given: the completion timeout, ns, 10-Bit and 14-Bit Tag
Requester Enable, and Enable Relaxed Ordering (R353, R359, R360). -/
structure CfgWrite where
  cto : Option Nat
  tag10 : Option Bool
  tag14 : Option Bool
  relaxed : Option Bool
  deriving DecidableEq, Repr

/-- What the READs of a takeover found of one ring (R485): the producer index of its producer record, none where that READ
failed, and the 64-byte headers at the indices read, in order, as far as the READs succeeded. -/
structure AdoptRead where
  ring : Nat
  p : Option Nat
  heads : List (List Byte)
  deriving DecidableEq, Repr

/-- What a mirror record does not carry of a namespace that its writes name: NSID, LBA format, metadata extended, blocks. -/
structure NsForm where
  nsid : Nat
  lbaf : Nat
  ext : Bool
  blocks : Nat
  deriving DecidableEq, Repr

/-- A request for an integrity command (R542): a service command of PF0 in hand, or dwords 4 to 6 of one that the MSS or
deck-core firmware issues through its own queue. -/
inductive IntgReq where
  | svc (k : CmdRef)
  | own (d4 d5 d6 : Nat)
  deriving DecidableEq, Repr

/-- A failing location that memory self-test found (R536): unit, memory of the unit, row, byte offset within the memory, bit
within the 72-bit word. -/
structure MbistFail where
  unit : Nat
  mem : Nat
  row : Nat
  addr : Nat
  bit : Nat
  deriving DecidableEq, Repr

/-- What the signature check of an image or a configuration block found (R561): the trailer verifies against the ROM's root
keys. -/
structure ImgCheck where
  trailer : Bool
  deriving DecidableEq, Repr

/-- A medium of the management interfaces (R549, R550, R578). -/
inductive SideBus where
  | i3c | smbus | pcie | uart | doe
  deriving DecidableEq, Repr

/-- One command per row of the command table. The docstring of each gives the rule and what happens. -/
inductive Instr where
  /-- JUNCTION_SAMPLE, R16. Every 100 µs the device reads its hottest junction sensor and acts on the thermal steps. -/
  | junctionSample (t tj : Nat)
  /-- THERM_STEP_LEAVE, R16. After 100 ms at least 3 °C below the entry temperature, the thermal step is left and THERM3 or ALERT_N are updated. -/
  | thermStepLeave (t : Nat)
  /-- MGMT_POWER_ON, R17. A management power-on command restarts the main domain after a trip or a failed rail retry. -/
  | mgmtPowerOn (t : Nat)
  /-- MGMT_RESET, R38. A management reset command performs a main reset of the main domain. -/
  | mgmtReset (t : Nat)
  /-- MAIN_SAMPLE, R51. Every 10 µs the device samples the main input and applies the sag steps. -/
  | mainSample (t v : Nat)
  /-- SAG_STEP1_LEAVE, R51. After 100 ms continuously at or above 64 V, sag step 1 is left. -/
  | sagStep1Leave (t : Nat)
  /-- QUIESCE_END, R52. When the flash is idle and the power-loss record is written, LPDDR5X and the tiles go off and PWR_OK is deasserted. -/
  | quiesceEnd (t : Nat)
  /-- SHUTDOWN_RAILS_OFF, R54. After the NAND programs and the power-loss record complete, the remaining main rails and the converter go off. -/
  | shutdownRailsOff (t : Nat)
  /-- INPUT_OVERVOLTAGE, R31. A main input above 84 V for 50 µs opens the hot-swap stage and shuts the main domain down. -/
  | inputOvervoltage (t : Nat)
  /-- OVERVOLTAGE_RESTART, R31. After the input has been back between 60 and 80 V for 1 s, the main domain restarts. -/
  | overvoltageRestart (t : Nat)
  /-- MAIN_RESTART, R53. After 1 s with the main input at 62 to 80 V following a quiesce or shutdown, the MSS performs a main reset and powers the main domain up from S. -/
  | mainRestart (t : Nat)
  /-- AUX_SAMPLE, R604. The device samples the auxiliary input and decides whether it is in use. -/
  | auxSample (t v : Nat)
  /-- ALWAYS_ON_START, R34. An input reaching 60 V starts the always-on converter and then the MSS boot ROM. `v`: the main and the auxiliary reading; `refused`: the boot flash refuses the RPMC root key written to it (R558). -/
  | alwaysOnStart (t : Nat) (v : Nat × Nat) (refused : Bool)
  /-- ALWAYS_ON_STOP, R607. After both inputs have been absent for 20 ms, the always-on domain stops. -/
  | alwaysOnStop (t : Nat)
  /-- MAIN_STAGE_ENABLE, R34. At the start event S, when the MSS is ready and the main input has reached 58 V, the MSS starts the main power sequence. -/
  | mainStageEnable (t : Nat)
  /-- RAILS_GOOD, R34. When all rails are in regulation, the MSS asserts PWR_OK. -/
  | railsGood (t : Nat)
  /-- RAIL_FAIL, R37. A rail that misses its window removes all main rails, is logged and asserts ALERT_N. -/
  | railFail (t sensor : Nat)
  /-- RAIL_RETRY, R37. One second after a rail failure, the main power sequence is retried once. -/
  | railRetry (t : Nat)
  /-- RESET_N_LOW, R38. RESET_N held low for at least 10 µs requests a main reset. -/
  | resetNLow (since t : Nat)
  /-- RESET_N_RISE, R35. With PWR_OK asserted and RESET_N high, the main domain leaves reset, takes its first tick edge and starts the power-on self-test. -/
  | resetNRise (t : Nat)
  /-- MAIN_RESET_TAKE_EFFECT, R41. A main reset requested during NAND programs or a quiesce takes effect once the programs or the flash phase have completed. -/
  | mainResetTakeEffect (t : Nat)
  /-- POWER_SAMPLE, R45. Every 100 µs the input power is sampled, the rolling average is updated and held against the effective limit. -/
  | powerSample (t w : Nat)
  /-- CAP_EXCURSION_LIMIT, R47. An excursion reaching the excursion length in force stretches every tile to 50 % until the next tick. -/
  | capExcursionLimit (t : Nat)
  /-- DROOP_TRIP, R42. A droop sensor below its threshold halves the tile clock within 2 cycles. -/
  | droopTrip (t tile mv : Nat)
  /-- DROOP_RELEASE, R42. After 64 consecutive clean stretched cycles, the tile clock returns to full frequency. -/
  | droopRelease (t tile : Nat)
  /-- CONFIG_REQUEST, R36. A host configuration request is answered with Configuration Request Retry Status until the firmware is ready. `bme`: it sets Bus Master Enable to 1. -/
  | configRequest (t link func : Nat) (bme : Bool) (w : CfgWrite)
  /-- TICK_EDGE, R73. At each tick edge the device runs the ordered steps: count, halyard, commits, period or source change, gates, budgets and tick-ruled hand-overs. -/
  | tickEdge (t : Nat)
  /-- ITEM_EXPIRY, R72. An item still running 8 tick edges after it started is stopped and ends with BUDGET. -/
  | itemExpiry (tile eng : Nat) (cyc : Cycles) (left : Nat)
  /-- TICKIN_EDGE, R61. A rising edge on TICK_IN is checked against the predicted edge. -/
  | tickinEdge (t : Nat)
  /-- PTP_MESSAGE, R60. The tick slave consumes a PTP message and updates its servo. -/
  | ptpMessage (t port domain : Nat) (sync : Bool) (offset : Int) (ptpNs : Nat)
  /-- SRC_LOST, R61. The active source loses its edges or Sync messages, which starts holdover and sets SRC_LOST. -/
  | srcLost (t src : Nat)
  /-- HOLDOVER_EXPIRY, R65. After 10 s of holdover, the device sets ALIGN_LOST. -/
  | holdoverExpiry (t : Nat)
  /-- TICK_COUNT_LO_READ, R58. A read of TICK.COUNT_LO latches COUNT_HI for that reader, and so the low half of any other pair (R4). `r`: the reader and the address. -/
  | tickCountLoRead (r : Agent × Nat)
  /-- BLK_COMMIT, R74. A write of 1 to BLK_COMMIT requests that the page's shadows be applied at the next tick edge. -/
  | blkCommit (t : Nat) (p : Page)
  /-- HALYARD_FIRE, R77. A write of 1 to TICK.HALYARD_FIRE raises a source 0 halyard trigger. -/
  | halyardFire (t v : Nat)
  /-- HALYARD_IN, R77. A rising edge on HALYARD_IN raises a source 1 halyard trigger. -/
  | halyardIn (t : Nat)
  /-- HALYARD_MGMT_TRIGGER, R77. A management command from the MSS raises a source 4 halyard trigger. -/
  | halyardMgmtTrigger (t : Nat)
  /-- SNAP_VALID_CLEAR, R81. A write of 1 to SNAP_STAT.VALID clears the snapshot and re-arms the page. -/
  | snapValidClear (p : Page)
  /-- BAD_ACCESS, R91. A misaligned or badly sized access, or an access to a reserved page, completes normally and is recorded in GLB.BAD_ACCESS. -/
  | badAccess (func : Option Nat) (addr size : Nat) (write : Bool)
  /-- REGISTER_WRITE, R8. A write to a register field with no behaviour of its own acts as its access type gives. -/
  | registerWrite (a : Agent) (addr : Nat) (v : Dword) (hi : Option Dword)
  /-- PENNANT_WRITE, R101. A W1C write to PENNANT clears bits and sends an interrupt when enabled bits remain set. -/
  | pennantWrite (a : Agent) (p : Page) (v : Dword)
  /-- PENNANT_FORCE, R100. A write to PENNANT_FORCE sets pennant bits exactly as hardware would, interrupt included. -/
  | pennantForce (a : Agent) (p : Page) (v : Dword)
  /-- GLB_DRV_ABI, R98. A write to GLB.DRV_ABI negotiates PF0's ABI within 10 µs. -/
  | glbDrvAbi (v : Dword)
  /-- FUNC_DRV_ABI, R99. A write to FUNC.DRV_ABI negotiates a function's ABI, and is ignored while any of its service queue pairs exists. -/
  | funcDrvAbi (func : Nat) (v : Dword)
  /-- BLK_ENABLE, R88. A write of ENABLE = 1 moves a DISABLED block to RUNNING and locks its RWL fields. -/
  | blkEnable (t : Nat) (a : Agent) (p : Page)
  /-- BLK_DISABLE, R88. A write of ENABLE = 0 moves a RUNNING block to STOPPING. -/
  | blkDisable (t : Nat) (a : Agent) (p : Page)
  /-- BLK_STOPPED, R88. When the last work item or command in hand completes, a STOPPING block becomes DISABLED. -/
  | blkStopped (t : Nat) (p : Page)
  /-- BLK_FENCE, R88. A write of FENCE = 1 fences the block so that it accepts no work. -/
  | blkFence (t : Nat) (a : Agent) (p : Page)
  /-- BLK_UNFENCE, R88. A write of FENCE = 0 moves a FENCED block to REJOINING, unless NEED_TEST is set. -/
  | blkUnfence (t : Nat) (a : Agent) (p : Page)
  /-- BLK_SOFT_RESET, R90. A write of SRESET = 1 aborts commands, discards the pending commit, resets the fields and clears the snapshot. -/
  | blkSoftReset (t : Nat) (a : Agent) (p : Page)
  /-- SOFT_RESET_DONE, R88. A soft reset completes and the block takes EPOCH + 1 and becomes DISABLED or FENCED. -/
  | softResetDone (t : Nat) (p : Page)
  /-- SQ_TAIL, R105. A service submission queue tail doorbell is accepted, or ignored with DB_ERR. -/
  | sqTail (func pair index : Nat)
  /-- CQ_HEAD, R105. A service completion queue head doorbell releases entries, or is ignored with DB_ERR. -/
  | cqHead (func pair index : Nat)
  /-- COMMAND_FETCH, R105. When a completion entry can be reserved, the device fetches a service command and runs the checks of R114. -/
  | commandFetch (func pair : Nat) (dw : Option (List Dword))
  /-- CMD_NOP, R111. The NOP service command completes with no effect. -/
  | cmdNop (k : CmdRef)
  /-- CREATE_QPAIR, R111. CREATE_QPAIR creates service queue pair 1 to 63. -/
  | createQpair (k : CmdRef)
  /-- DELETE_QPAIR, R112. DELETE_QPAIR moves a pair to DELETING and aborts its unbegun commands. -/
  | deleteQpair (k : CmdRef)
  /-- QPAIR_DELETED, R112. When a pair's last completion has been posted, the pair becomes ABSENT and DELETE_QPAIR completes. -/
  | qpairDeleted (func pair : Nat)
  /-- QUERY_OBJECT, R111. QUERY_OBJECT returns an object's state. -/
  | queryObject (k : CmdRef)
  /-- SSET_CREATE, R142. SSET_CREATE reads and checks a stream set descriptor and defines the set. -/
  | ssetCreate (k : CmdRef) (desc : List Byte)
  /-- SSET_ADD_SHARDS, R142. SSET_ADD_SHARDS reads, checks and appends shard entries to a set. -/
  | ssetAddShards (k : CmdRef) (entries : List (List Byte))
  /-- SSET_START, R140. SSET_START reserves context slots and places the contexts at the next edge. -/
  | ssetStart (k : CmdRef)
  /-- SSET_PAUSE, R139. SSET_PAUSE stops new samples and completes when the set is PAUSED. -/
  | ssetPause (k : CmdRef)
  /-- SSET_RESUME, R144. SSET_RESUME returns a PAUSED set to ACTIVE at the next edge. -/
  | ssetResume (k : CmdRef)
  /-- SSET_DRAIN, R144. SSET_DRAIN lets a set run until every context is IDLE, when it becomes DONE. -/
  | ssetDrain (k : CmdRef)
  /-- SSET_DESTROY, R139. SSET_DESTROY discards samples in progress and, with PURGE, removes the set's undelivered packs. -/
  | ssetDestroy (k : CmdRef)
  /-- CTX_MOVE, R145. CTX_MOVE moves a context to a target tile at the next edge. -/
  | ctxMove (k : CmdRef)
  /-- TILE_VACATE, R140. TILE_VACATE moves a tile's contexts off it and leaves the tile VACANT. -/
  | tileVacate (k : CmdRef)
  /-- TILE_ADMIT, R143. TILE_ADMIT returns a VACANT tile to RUNNING. -/
  | tileAdmit (k : CmdRef)
  /-- RESV_CFG, R137. RESV_CFG sets the reservoir capacity, the residence and the exchange fraction at the next edge. -/
  | resvCfg (k : CmdRef)
  /-- SAMPLE_START, R134. A sample starts when PACK_MAX can be reserved in the reservoir, and is retried the next tick when it cannot. -/
  | sampleStart (num : Nat)
  /-- PACK_SEAL, R129. When a sample's last record is written, the tile DMA seals its pack and returns the unused part of the reservation. -/
  | packSeal (num : Nat)
  /-- SOURCE_READ, R118. A readahead read of a shard completes into the source cache, or its error ends the shard. `bytes`: what stands at the offset, none where the read fails. -/
  | sourceRead (num off : Nat) (bytes : Option (List Byte)) (dur : Option Nat)
  /-- DEMUX_PACKET, R149. The stream core takes a container packet, checking continuity and discarding duplicates. -/
  | demuxPacket (num : Nat) (item : DemuxItem)
  /-- DECODE, R181. The decode slice runs a DECODE descriptor and writes its result. -/
  | decode (tile : Nat) (e : ItemEnd) (motion : CodedMotion)
  /-- PARSE, R170. The decode slice runs a PARSE descriptor for motion data only. -/
  | parse (tile : Nat) (e : ItemEnd) (motion : CodedMotion)
  /-- RELEASE_SLOT, R181. The decode slice runs a RELEASE descriptor and frees a picture pool slot. -/
  | releaseSlot (tile : Nat)
  /-- SHAPE, R185. The frame shaper runs a SHAPE descriptor band: deinterlace, crop, resize, colour and patch output. -/
  | shape (tile : Nat) (cyc : Cycles)
  /-- RUN, R224. The tensor block runs a RUN descriptor's ops and writes an ENGINE 3 result. -/
  | run (tile : Nat) (cyc : Cycles)
  /-- EMIT_TEXT, R222. The tensor block writes a caption record with its CRC. `late`: its cycles after a tick edge, and those the tile ran stretched. -/
  | emitText (tile : Nat) (late : Nat × Nat)
  /-- ITEM_LIMIT, R178. A decode, parse or shaper item reaching twice its estimate is stopped with LIMIT. -/
  | itemLimit (tile eng : Nat) (e : ItemEnd)
  /-- TENSOR_ITEM_LIMIT, R217. A tensor item reaching twice its estimate is stopped with LIMIT and its sample is dropped. `used`: its cycles before a tick edge; `late` as for EMIT_TEXT. -/
  | tensorItemLimit (tile used : Nat) (late : Nat × Nat)
  /-- SHP_PROFILE_LOAD, R193. SHP_PROFILE_LOAD reads and checks a shaper profile and loads it. -/
  | shpProfileLoad (k : CmdRef) (bytes : List Byte)
  /-- SHP_PROFILE_DROP, R193. SHP_PROFILE_DROP removes a loaded shaper profile. -/
  | shpProfileDrop (k : CmdRef)
  /-- SHARD_PROBE, R195. SHARD_PROBE reads a shard's headers and writes a 64-byte report. -/
  | shardProbe (k : CmdRef) (entry : List Byte) (e : ProbeEnd)
  /-- SHARD_PROBE_TIMEOUT, R193. A probe not done 100 ms after it began completes with TIMEOUT. -/
  | shardProbeTimeout (k : CmdRef) (t : Nat)
  /-- GRAPH_LOAD, R219. GRAPH_LOAD copies and checks a graph image and writes its weights to the ready tiles. -/
  | graphLoad (k : CmdRef) (image : List Byte)
  /-- WEIGHT_COPY_DONE, R219. A tile's weight copy completes and the graph's READY bit is set. -/
  | weightCopyDone (tile g : Nat)
  /-- GRAPH_DROP, R218. GRAPH_DROP unloads a graph and frees its weights on every tile. -/
  | graphDrop (k : CmdRef)
  /-- REFILL_END, R219. A weight refill ends and sets TEN.PENNANT.REFILL. -/
  | refillEnd (tile : Nat)
  /-- SRAM_SCRUB, R540. The SRAM scrubber reads and corrects lines in idle or reserved bank cycles. -/
  | sramScrub (tile off : Nat) (pass : Option Nat)
  /-- ILLEGAL, R237. The ILLEGAL instruction raises ILLEGAL. -/
  | illegal (x : Ilx)
  /-- NOP, R237. The NOP instruction does nothing. -/
  | nop (x : Ilx)
  /-- FENCE, R231. The FENCE instruction completes every earlier access before any later one. -/
  | fence (x : Ilx)
  /-- TRAP, R258. The TRAP instruction raises TRAP with EINFO = imm8. -/
  | trap (x : Ilx) (imm : Nat)
  /-- MOV, R237. MOV copies a register. -/
  | mov (x : Ilx) (d r : Nat)
  /-- MOVI, R237. MOVI loads a sign-extended imm32. -/
  | movi (x : Ilx) (d : Nat) (imm : Dword)
  /-- MOVI64, R237. MOVI64 loads an imm64. -/
  | movi64 (x : Ilx) (d : Nat) (imm : Qword)
  /-- ADD, R238. ADD adds two registers and sets the flags. -/
  | add (x : Ilx) (d r : Nat)
  /-- ADC, R238. ADC adds with carry in. -/
  | adc (x : Ilx) (d r : Nat)
  /-- SUB, R238. SUB subtracts and sets the flags. -/
  | sub (x : Ilx) (d r : Nat)
  /-- SBB, R238. SBB subtracts with borrow in. -/
  | sbb (x : Ilx) (d r : Nat)
  /-- AND, R237. AND is a bitwise and. -/
  | and (x : Ilx) (d r : Nat)
  /-- OR, R237. OR is a bitwise or. -/
  | or (x : Ilx) (d r : Nat)
  /-- XOR, R237. XOR is a bitwise exclusive or. -/
  | xor (x : Ilx) (d r : Nat)
  /-- CMP, R238. CMP sets the flags as SUB does, without writing a result. -/
  | cmp (x : Ilx) (d r : Nat)
  /-- TST, R237. TST sets the flags as AND does, without writing a result. -/
  | tst (x : Ilx) (d r : Nat)
  /-- ADDI, R237. ADDI adds an imm32. -/
  | addi (x : Ilx) (d : Nat) (imm : Dword)
  /-- CMPI, R237. CMPI compares with an imm32. -/
  | cmpi (x : Ilx) (d : Nat) (imm : Dword)
  /-- ANDI, R237. ANDI ands with an imm32. -/
  | andi (x : Ilx) (d : Nat) (imm : Dword)
  /-- SHL, R237. SHL shifts left by a register. -/
  | shl (x : Ilx) (d r : Nat)
  /-- SHR, R237. SHR shifts right logically by a register. -/
  | shr (x : Ilx) (d r : Nat)
  /-- SAR, R237. SAR shifts right arithmetically by a register. -/
  | sar (x : Ilx) (d r : Nat)
  /-- ROL, R237. ROL rotates left by a register. -/
  | rol (x : Ilx) (d r : Nat)
  /-- SHLI, R237. SHLI shifts left by imm8. -/
  | shli (x : Ilx) (d k : Nat)
  /-- SHRI, R237. SHRI shifts right logically by imm8. -/
  | shri (x : Ilx) (d k : Nat)
  /-- SARI, R237. SARI shifts right arithmetically by imm8. -/
  | sari (x : Ilx) (d k : Nat)
  /-- ROLI, R237. ROLI rotates left by imm8. -/
  | roli (x : Ilx) (d k : Nat)
  /-- MUL, R237. MUL gives the low half of a product. -/
  | mul (x : Ilx) (d r : Nat)
  /-- MULHU, R237. MULHU gives the unsigned high half of a product. -/
  | mulhu (x : Ilx) (d r : Nat)
  /-- DIVU, R237. DIVU is unsigned division, raising DIV_ZERO on a zero divisor. -/
  | divu (x : Ilx) (d r : Nat)
  /-- REMU, R237. REMU is the unsigned remainder. -/
  | remu (x : Ilx) (d r : Nat)
  /-- DIVS, R237. DIVS is signed truncating division. -/
  | divs (x : Ilx) (d r : Nat)
  /-- REMS, R237. REMS is the signed remainder. -/
  | rems (x : Ilx) (d r : Nat)
  /-- LD, R232. LD is a zero-extended load, checked for alignment, address map and regions. -/
  | ld (x : Ilx) (d b : Nat) (disp : Int)
  /-- ST, R232. ST is a store, checked for alignment, address map and regions. -/
  | st (x : Ilx) (r b : Nat) (disp : Int)
  /-- LDS, R237. LDS is a sign-extended load. -/
  | lds (x : Ilx) (d b : Nat) (disp : Int)
  /-- XCHG, R232. XCHG is an atomic swap with memory. -/
  | xchg (x : Ilx) (d r : Nat)
  /-- CAS, R232. CAS is an atomic compare and swap. -/
  | cas (x : Ilx) (d b r : Nat)
  /-- AMOADD, R232. AMOADD is an atomic add that returns the old value. -/
  | amoadd (x : Ilx) (d r : Nat)
  /-- BR, R235. BR branches unconditionally. -/
  | br (x : Ilx) (disp : Int)
  /-- BC, R236. BC branches when its condition holds. -/
  | bc (x : Ilx) (cond : Nat) (disp : Int)
  /-- JMP, R237. JMP jumps to a register address. -/
  | jmp (x : Ilx) (r : Nat)
  /-- CALL, R246. CALL pushes a return entry and branches. -/
  | call (x : Ilx) (disp : Int)
  /-- CALLR, R246. CALLR pushes a return entry and jumps to a register address. -/
  | callr (x : Ilx) (r : Nat)
  /-- RET, R248. RET pops the return stack and returns. -/
  | ret (x : Ilx)
  /-- DAA, R239. DAA makes the decimal adjust after ADD. -/
  | daa (x : Ilx) (d : Nat)
  /-- DAS, R239. DAS makes the decimal adjust after SUB. -/
  | das (x : Ilx) (d : Nat)
  /-- BCDADD, R240. BCDADD adds packed BCD. -/
  | bcdadd (x : Ilx) (d r : Nat)
  /-- BCDADC, R240. BCDADC adds packed BCD with decimal carry. -/
  | bcdadc (x : Ilx) (d r : Nat)
  /-- BCDSUB, R240. BCDSUB subtracts packed BCD. -/
  | bcdsub (x : Ilx) (d r : Nat)
  /-- BCDSBB, R240. BCDSBB subtracts packed BCD with borrow. -/
  | bcdsbb (x : Ilx) (d r : Nat)
  /-- BCDCMP, R240. BCDCMP compares packed BCD. -/
  | bcdcmp (x : Ilx) (d r : Nat)
  /-- BCDCHK, R237. BCDCHK checks for digits above 9. -/
  | bcdchk (x : Ilx) (r : Nat)
  /-- B2BCD, R241. B2BCD converts binary to packed BCD. -/
  | b2bcd (x : Ilx) (d r : Nat)
  /-- BCD2B, R241. BCD2B converts packed BCD to binary. -/
  | bcd2b (x : Ilx) (d r : Nat)
  /-- TCADD, R245. TCADD adds frames to a timecode label. -/
  | tcadd (x : Ilx) (d r rate : Nat)
  /-- TCSUB, R245. TCSUB gives the frame difference of two labels. -/
  | tcsub (x : Ilx) (d r rate : Nat)
  /-- TC2F, R245. TC2F converts a label to a frame index. -/
  | tc2f (x : Ilx) (d r rate : Nat)
  /-- F2TC, R245. F2TC converts a frame index to a label. -/
  | f2tc (x : Ilx) (d r rate : Nat)
  /-- TCCHK, R243. TCCHK checks a timecode label. -/
  | tcchk (x : Ilx) (r rate : Nat)
  /-- MFS, R228. MFS reads a special register. -/
  | mfs (x : Ilx) (d n : Nat)
  /-- MTS, R228. MTS writes a special register, subject to its write rules. -/
  | mts (x : Ilx) (n r : Nat)
  /-- GCALL, R255. GCALL is a gate call into another compartment. -/
  | gcall (x : Ilx) (k : Nat)
  /-- GRET, R256. GRET is a gate return with a signature check. -/
  | gret (x : Ilx) (v : Nat)
  /-- SIGU, R257. SIGU updates the control-flow signature. -/
  | sigu (x : Ilx) (v : Nat)
  /-- SIGCK, R257. SIGCK checks the control-flow signature. -/
  | sigck (x : Ilx) (v : Nat)
  /-- RSSPILL, R249. RSSPILL spills the oldest return stack entries to memory. -/
  | rsspill (x : Ilx) (k : Nat)
  /-- RSFILL, R249. RSFILL refills return stack entries from memory. -/
  | rsfill (x : Ilx) (k : Nat)
  /-- ERET, R259. ERET returns from an exception. -/
  | eret (x : Ilx)
  /-- WFI, R260. WFI waits for an enabled interrupt. -/
  | wfi (x : Ilx)
  /-- RTSYNC, R252. RTSYNC reloads the current compartment's region table. -/
  | rtsync (x : Ilx)
  /-- ISYNC, R230. ISYNC discards prefetched instructions. -/
  | isync (x : Ilx)
  /-- WDKICK, R261. WDKICK restarts the watchdog count. -/
  | wdkick (x : Ilx)
  /-- DPUSH, R264. DPUSH pushes a descriptor to an engine if the queue has room and the budget allows it. -/
  | dpush (x : Ilx) (eng r : Nat)
  /-- BREAD, R263. BREAD reads an engine's remaining budget. -/
  | bread (x : Ilx) (d eng : Nat)
  /-- RPOP, R265. RPOP pops one engine result. -/
  | rpop (x : Ilx) (d : Nat)
  /-- WAIT, R266. WAIT sleeps until a tick edge, a result or an interrupt. -/
  | wait (x : Ilx) (d m : Nat)
  /-- INTERRUPT_TAKE, R260. A pending enabled interrupt is taken between instructions. -/
  | interruptTake (core : Nat)
  /-- WATCHDOG_EXPIRY, R261. A watchdog count reaching WDT raises WATCHDOG, and reaching 2 × WDT stops the core. -/
  | watchdogExpiry (core : Nat)
  /-- CORE_STOP_RESPONSE, R519. The integrity block acts on a stopped core: it fences the tile, quiesces for a deck core, or resets the MSS. -/
  | coreStopResponse (t core : Nat)
  /-- PHY_TRAIN_DONE, R274. Every enabled lane of a link has finished PHY training, or failed it. -/
  | phyTrainDone (t link passed failed : Nat)
  /-- FLIT_LOCK_DONE, R274. Every trained lane has flit alignment, or has failed. -/
  | flitLockDone (t link passed failed : Nat)
  /-- BRING_UP_LIMIT, R274. A bring-up step exceeds its limit and the link goes to FAILED. -/
  | bringUpLimit (t link : Nat)
  /-- LINK_RETRY, R274. One second after FAILED, the link starts again from PHY_TRAIN. -/
  | linkRetry (t link : Nat)
  /-- PARAM, R281. A PARAM control flit is received and answered with PARAM_ACK. -/
  | param (t link : Nat) (payload : List (Byte))
  /-- PARAM_ACK, R282. A PARAM_ACK is received, versions and roles are agreed, and the link comes up or fails. -/
  | paramAck (t link : Nat)
  /-- FLIT_RECEIVE, R277. A flit is received and checked for CRC, sequence, acknowledgement and credits. -/
  | flitReceive (t link lane corr ucw errs : Nat) (bytes : List (Byte))
  /-- REPLAY_TIMEOUT, R279. With no ACK_SEQ advance for 2 µs, the sender replays. -/
  | replayTimeout (t link : Nat)
  /-- LINK_DOWN, R280. After four replays without progress, or 100 µs with no good flit, the link goes down and retrains. -/
  | linkDown (t link : Nat)
  /-- LANE_FAULT, R283. A lane loses lock for 10 µs or has too many uncorrectable codewords, and LANE_DROP is sent. -/
  | laneFault (t link lane : Nat)
  /-- LANE_DROP, R283. A LANE_DROP message is received and acknowledged. -/
  | laneDrop (t link lane : Nat)
  /-- LANE_DROP_ACK, R283. A LANE_DROP_ACK is received and the link goes on with one lane. -/
  | laneDropAck (t link : Nat)
  /-- RETRAIN, R283. A write of LINK.CTL.RETRAIN = 1 takes the link down and retrains it. -/
  | retrain (t link : Nat)
  /-- PAT_SELECT, R308. A write of LINK.PAT_CTL.PAT enters or leaves pattern TEST. -/
  | patSelect (t link v : Nat)
  /-- PAT_CLEAR, R308. A write of PAT_CTL.CLR = 1 clears the pattern counters. -/
  | patClear (link : Nat)
  /-- LINK_WRITE, R306. A received WRITE packet is translated through the inbound windows and placed, or refused with WINDOW_ERR. -/
  | linkWrite (link addr : Nat) (data : List (Byte))
  /-- LINK_READ, R306. A received READ packet is translated through the inbound windows and answered with READ_RESPs. -/
  | linkRead (link tag addr len : Nat) (host : Option (List Byte))
  /-- READ_RESP, R307. A READ_RESP is received for a capture READ, or discarded as late. -/
  | readResp (t link tag status off : Nat) (data : List (Byte))
  /-- CAPTURE_READ_TIMEOUT, R307. A capture READ not complete after RD_TIMEOUT is reissued once and its tag is quarantined. -/
  | captureReadTimeout (t link tag : Nat)
  /-- PACK_REJECT, R297. A PACK_REJECT message marks a pack for rewrite, or for discard on the second reject. -/
  | packReject (link ring rank id : Nat)
  /-- FEED_DOORBELL, R294. A kind 0 DOORBELL updates a ring's consumer index, or moves the ring to ERROR when it is bad. -/
  | feedDoorbell (link ring value : Nat)
  /-- RMT_ACC_DOORBELL, R338. A kind 1 DOORBELL from an accelerator rings an ACC QP. -/
  | rmtAccDoorbell (link target value : Nat)
  /-- RING_CREATE, R310. RING_CREATE reads a ring descriptor and defines the ring. -/
  | ringCreate (k : CmdRef) (desc : List (Byte))
  /-- RING_START, R302. RING_START chooses the current link and starts drawing at the next edge. -/
  | ringStart (k : CmdRef)
  /-- RING_STOP, R309. RING_STOP stops drawing and completes when every written pack has been committed. -/
  | ringStop (k : CmdRef)
  /-- RING_RESUME, R309. RING_RESUME resumes a STOPPED ring at the next edge. -/
  | ringResume (k : CmdRef)
  /-- RING_DESTROY, R309. RING_DESTROY returns the ring's uncommitted packs to the reservoir. -/
  | ringDestroy (k : CmdRef)
  /-- XCHG_GROUP, R304. XCHG_GROUP sets the exchange group's QP list at the next edge. -/
  | xchgGroup (k : CmdRef) (qps : List Nat)
  /-- PACK_DRAW, R301. The feed draws a random drawable pack for a ring with space and writes it with a producer record. -/
  | packDraw (t ring pick : Nat) (poison : Bool)
  /-- PORT_DOWN_LIMIT, R303. A port down at 40 consecutive edges sends its rings to ERROR. -/
  | portDownLimit (port : Nat)
  /-- XCHG_SEND, R304. A pack chosen for exchange is sent to a random group member as one SEND. -/
  | xchgSend (t rank id member : Nat) (poison : Bool)
  /-- XCHG_FLUSH_DONE, R304. A FLUSH completes on an exchange QP and the sent packs are removed. -/
  | xchgFlushDone (q : Nat)
  /-- RMT_PACKET_RECEIVE, R319. An RMT packet is received and checked step by step, then placed, accepted or refused. -/
  | rmtPacketReceive (t sub : Nat) (ce : Bool) (bytes : List (Byte)) (host : Option (List (Byte)))
  /-- RMT_DB_HI, R323. A write to FUNC.RMT_DB_HI rings an RMT queue doorbell with the value in RMT_DB_LO. -/
  | rmtDbHi (func v : Nat)
  /-- WQE_FETCH, R324. When a CQ entry can be reserved, the device fetches and checks an SQ or RQ entry. -/
  | wqeFetch (t q : Nat) (rq : Bool) (bytes : List (Byte))
  /-- RMT_SEND, R328. A SEND work request transmits its message packets. -/
  | rmtSend (t q : Nat) (host : Option (List Byte))
  /-- RMT_WRITE, R327. A WRITE work request transmits data to a remote address. -/
  | rmtWrite (t q : Nat) (host : Option (List Byte))
  /-- RMT_READ, R327. A READ work request sends a READ_REQ. -/
  | rmtRead (t q : Nat)
  /-- RMT_FLUSH, R329. A FLUSH work request sends a FLUSH_REQ. -/
  | rmtFlush (t q : Nat)
  /-- HITCH, R330. A WAIT entry holds the SQ until another queue's DONE count is reached. -/
  | hitch (t q : Nat)
  /-- HITCH_RELEASE, R330. The named queue's DONE count reaches WAIT_COUNT and the hitch is released. -/
  | hitchRelease (t q : Nat)
  /-- RMT_RECV, R326. A RECV work request posts a receive buffer. -/
  | rmtRecv (t q : Nat)
  /-- RTO_EXPIRY, R334. RTO_US passes without an ACK and the packet is retransmitted. -/
  | rtoExpiry (t q psn : Nat)
  /-- ACK_TIMER, R334. 4 µs after an unacknowledged data packet, the receiver sends an ACK. -/
  | ackTimer (t q : Nat)
  /-- RNR_RETRY_EXPIRY, R335. After the RNR delay, the refused message is sent again from its first packet. -/
  | rnrRetryExpiry (t q : Nat)
  /-- QP_CREATE, R339. QP_CREATE creates an RMT, raw or exchange QP. -/
  | qpCreate (k : CmdRef)
  /-- QP_CONNECT, R339. QP_CONNECT connects a QP and makes it READY at the next edge. -/
  | qpConnect (k : CmdRef)
  /-- QP_MODIFY, R339. QP_MODIFY changes a QP's subscriber, class or port mask at the next edge. -/
  | qpModify (k : CmdRef)
  /-- QP_RESET, R340. QP_RESET flushes a QP and passes through QUIESCING to DEFINED. -/
  | qpReset (k : CmdRef)
  /-- QP_DESTROY, R340. QP_DESTROY passes a QP through QUIESCING to ABSENT. -/
  | qpDestroy (k : CmdRef)
  /-- QUIESCING_END, R322. After ceil(LIFE_US / period) + 1 edges, a QUIESCING QP reaches its target state. -/
  | quiescingEnd (q : Nat)
  /-- EGRESS_TRANSMIT, R344. The egress scheduler chooses and sends the next eligible frame on a sub-port. -/
  | egressTransmit (t sub : Nat)
  /-- GATE_ENTRY, R347. A gate entry's OFFSET is reached and its OPEN mask takes effect. -/
  | gateEntry (t port : Nat)
  /-- ETH_FRAME_RECEIVE, R352. An Ethernet frame is received and goes to RMT, PFC, PTP or the raw path. `levels`: priorities
  of the sub-port with the bytes their receive buffers hold then (R350). -/
  | ethFrameReceive (t sub : Nat) (fec : Nat × Nat) (levels : List (Nat × Nat)) (bytes : List (Byte)) (host : Option (List (Byte)))
  /-- PFC_PAUSE_EXPIRY, R350. A PFC pause time ends and the priority resumes. -/
  | pfcPauseExpiry (t sub prio : Nat)
  /-- SUBPORT_DOWN, R332. An Ethernet sub-port goes down and its queued packets return to their QPs. -/
  | subportDown (t sub : Nat)
  /-- FLR, R369. A Function Level Reset silences DMA, resets configuration state, clears the ABI and orphans the function. -/
  | flr (t func : Nat)
  /-- BUS_MASTER_DISABLE, R368. Bus Master Enable written 0 silences the function's DMA and orphans it. -/
  | busMasterDisable (t func : Nat)
  /-- VF_DISABLE, R369. VF Enable written 0 performs a RESET action on each of the PF's VFs. -/
  | vfDisable (t pf : Nat)
  /-- PERST, R38. PERST_A_N or PERST_B_N low performs a host reset of that link. -/
  | perst (t link : Nat)
  /-- HOST_LINK_DOWN, R370. The host data link goes down and the link's functions enter ORPHAN. -/
  | hostLinkDown (t link : Nat)
  /-- COMPLETION_RECEIVE, R361. A PCIe completion arrives for an outstanding or quarantined tag. -/
  | completionReceive (t link func tag : Nat) (outstanding : Bool) (err : Nat)
  /-- CPL_TIMEOUT, R361. A DMA read incomplete after T times out, is failed and its tag is quarantined. -/
  | cplTimeout (t func tag issued : Nat) (engine : ReadEngine)
  /-- QUARANTINE_EXPIRY, R361. A tag still quarantined T after its timeout is freed. -/
  | quarantineExpiry (t link tag : Nat)
  /-- HOST_WINDOW_ACCESS, R357. A host access to a device-memory window beyond its allotment is dropped with WIN_ERR. -/
  | hostWindowAccess (func off len : Nat) (data : Option (List Byte))
  /-- FUNC_ASSIGN, R364. FUNC_ASSIGN reassigns a function's resources at the next edge. -/
  | funcAssign (k : CmdRef)
  /-- FUNC_FREEZE, R375. FUNC_FREEZE stops fetching at the next edge and drains the function. -/
  | funcFreeze (k : CmdRef)
  /-- FREEZE_DONE, R375. With no work, DMA or unacknowledged packets left, the function and its QPs become FROZEN. -/
  | freezeDone (t func : Nat)
  /-- FREEZE_TIMEOUT, R375. A freeze not done within its limit completes with TIMEOUT and reverts at the next edge. -/
  | freezeTimeout (t func : Nat)
  /-- FUNC_SAVE, R378. FUNC_SAVE writes a frozen function's save blob. -/
  | funcSave (k : CmdRef)
  /-- FUNC_RESTORE, R380. FUNC_RESTORE checks a blob and places its state into a frozen function. -/
  | funcRestore (k : CmdRef) (blob : List Byte)
  /-- FUNC_THAW, R381. FUNC_THAW returns a function and its QPs to their recorded states at the next edge. -/
  | funcThaw (k : CmdRef)
  /-- DIRTY_LOG_START, R377. START clears and activates a dirty-page log over a range. -/
  | dirtyLogStart (k : CmdRef)
  /-- DIRTY_LOG_SYNC, R377. SYNC copies and clears dirty bits atomically. -/
  | dirtyLogSync (k : CmdRef)
  /-- DIRTY_LOG_STOP, R377. STOP frees the bitmap and ends the log. -/
  | dirtyLogStop (k : CmdRef)
  /-- HEARTBEAT, R370. A write to FUNC.HEARTBEAT restarts the heartbeat timer. -/
  | heartbeat (t func : Nat) (v : Dword)
  /-- HEARTBEAT_TIMEOUT, R370. TIMEOUT_MS without a heartbeat puts the function in ORPHAN with cause 1. -/
  | heartbeatTimeout (func : Nat)
  /-- ADOPT, R373. ORPHAN_CTL ACTION 1 adopts an orphaned function, or is refused with ADOPT_FAIL. -/
  | adopt (t func abi : Nat)
  /-- FUNC_RESET, R374. ORPHAN_CTL ACTION 2 starts the RESET action of a function. -/
  | funcReset (t func : Nat)
  /-- FUNC_RESET_DONE, R374. The RESET action ends with the function DISABLED. -/
  | funcResetDone (t func : Nat)
  /-- GRACE_END, R372. PF0's orphan grace expires and stream sets and rings are paused and stopped. -/
  | graceEnd (t : Nat)
  /-- NVME_DOORBELL, R382. An NVMe submission or completion doorbell write is accepted. -/
  | nvmeDoorbell (func queue : Nat) (cq : Bool) (value : Nat)
  /-- NVME_COMMAND_FETCH, R386. The device fetches NVMe commands under in-function and cross-function arbitration. -/
  | nvmeCommandFetch (t func queue : Nat) (sqe : Option (List Nat))
  /-- CONTROLLER_ENABLE, R382. CC.EN written 1 readies the controller within 2 s. -/
  | controllerEnable (t func cc aqa asq acq : Nat)
  /-- CONTROLLER_RESET, R399. CC.EN going from 1 to 0 discards unbegun commands and deletes the I/O queues. -/
  | controllerReset (t func : Nat)
  /-- SHUTDOWN_NOTIFY, R399. CC.SHN shutdown notification reports complete within 10 ms. -/
  | shutdownNotify (t func : Nat)
  /-- CREATE_IO_SQ, R404. The Admin command Create I/O Submission Queue. -/
  | createIoSq (t func sq cid : Nat)
  /-- DELETE_IO_SQ, R404. The Admin command Delete I/O Submission Queue. -/
  | deleteIoSq (t func sq cid : Nat)
  /-- CREATE_IO_CQ, R383. The Admin command Create I/O Completion Queue, with its vector checked. -/
  | createIoCq (t func sq cid : Nat)
  /-- DELETE_IO_CQ, R404. The Admin command Delete I/O Completion Queue. -/
  | deleteIoCq (t func sq cid : Nat)
  /-- GET_LOG_PAGE, R406. Get Log Page returns a supported log page. -/
  | getLogPage (t func sq cid : Nat) (segs : List (Nat × Nat)) (fail : Bool)
  /-- IDENTIFY, R404. Identify returns the supported CNS data. -/
  | identify (t func sq cid : Nat) (segs : List (Nat × Nat)) (fail : Bool)
  /-- ABORT, R388. Abort catches a waiting command, or misses one that has begun. -/
  | abort (t func sq cid : Nat)
  /-- SET_FEATURES, R405. Set Features of a supported feature. -/
  | setFeatures (t func sq cid : Nat)
  /-- GET_FEATURES, R405. Get Features of a supported feature. -/
  | getFeatures (t func sq cid : Nat)
  /-- ASYNC_EVENT_REQUEST, R404. An Asynchronous Event Request waits for an event. -/
  | asyncEventRequest (t func sq cid : Nat)
  /-- NS_CREATE, R400. Namespace Management create allocates a namespace of a given kind. -/
  | nsCreate (t func sq cid : Nat) (data : List Byte) (fail : Bool)
  /-- NS_DELETE, R403. Namespace Management delete removes a namespace. -/
  | nsDelete (t func sq cid : Nat)
  /-- NS_ATTACH, R403. Namespace Attachment attaches a namespace to a controller. -/
  | nsAttach (t func sq cid : Nat) (data : List Byte) (fail : Bool)
  /-- NS_DETACH, R403. Namespace Attachment detaches a namespace. -/
  | nsDetach (t func sq cid : Nat) (data : List Byte) (fail : Bool)
  /-- FIRMWARE_COMMIT, R407. Firmware Commit acts on boot slots, or starts a splice with action 3. -/
  | firmwareCommit (t func sq cid : Nat) (chk : ImgCheck)
  /-- FIRMWARE_IMAGE_DOWNLOAD, R404. Firmware Image Download receives image data in 4 KiB units. -/
  | firmwareImageDownload (t func sq cid : Nat) (data : List Byte) (fail : Bool)
  /-- FORMAT_NVM, R408. Format NVM formats one namespace. -/
  | formatNvm (t func sq cid : Nat)
  /-- FORMAT_DONE, R403. A format ends and the namespace returns to its former state. -/
  | formatDone (t nsid : Nat)
  /-- SANITIZE, R408. Sanitize starts a block or crypto erase of every namespace. -/
  | sanitize (t func sq cid : Nat)
  /-- SANITIZE_DONE, R408. A sanitize ends and SANITIZE_DONE is set. -/
  | sanitizeDone (t : Nat)
  /-- NVME_WRITE, R390. An NVMe Write fetches its data and programs it atomically, with guard generation. -/
  | nvmeWrite (t func sq cid : Nat) (data mdata : List Byte) (fail : Bool) (progs : List (Nat × Nat)) (place : Option (Nat × Nat × Nat))
  /-- WRITE_PROGRAMMED, R390. A write's blocks and mapping are on the medium, or mirrored, and its completion is posted. -/
  | writeProgrammed (t func sq cid : Nat)
  /-- NVME_READ, R394. An NVMe Read reads and checks the guard. -/
  | nvmeRead (t func sq cid : Nat) (segs : List (Nat × Nat)) (fail : Bool) (bad : List (Nat × Nat))
  /-- NVME_FLUSH, R390. Flush completes successfully with no work. -/
  | nvmeFlush (t func sq cid : Nat)
  /-- NVME_COMPARE, R404. The Compare I/O command. -/
  | nvmeCompare (t func sq cid : Nat) (data mdata : List Byte) (fail : Bool) (bad : List (Nat × Nat))
  /-- WRITE_ZEROES, R390. Write Zeroes completes on the same terms as a write. -/
  | writeZeroes (t func sq cid : Nat) (progs : List (Nat × Nat)) (place : Option (Nat × Nat × Nat))
  /-- DATASET_MANAGEMENT, R390. Dataset Management deallocate. -/
  | datasetManagement (t func sq cid : Nat) (ranges : List (Nat × Nat)) (fail : Bool)
  /-- NVME_VERIFY, R404. The Verify I/O command. -/
  | nvmeVerify (t func sq cid : Nat) (bad : List (Nat × Nat))
  /-- MEDIUM_READ, R419. A flash codeword read goes through decode, retries, soft decode and parity recovery. -/
  | mediumRead (t die block step entry bits : Nat) (staged found : Bool)
  /-- DIE_UNRESPONSIVE, R423. A die silent for 10 ms is lost and a rebuild starts. -/
  | dieUnresponsive (t die : Nat)
  /-- REBUILD_DONE, R423. A rebuild of a lost die ends and REBUILD_DONE is set. -/
  | rebuildDone (t die rows : Nat) (full : Bool)
  /-- FOLD, R422. Background folding moves staged data into TLC or QLC stripes and releases staged pages. -/
  | fold (t pos : Nat) (place : Nat × Nat) (step : Nat) (final : Bool) (items : List (Nat × Nat × Nat))
  /-- PATROL_READ, R429. A patrol read of a block triggers a refresh when needed. -/
  | patrolRead (t die block step entry bits : Nat) (found : Bool)
  /-- WL_MOVE, R426. A wear-levelling move relocates the least-worn block's data. -/
  | wlMove (t die block : Nat)
  /-- PROGRAM_FAIL, R427. A program failure retires the block and reprograms the data elsewhere. -/
  | programFail (t die block : Nat)
  /-- ERASE_FAIL, R427. An erase failure retires the block. -/
  | eraseFail (t die block : Nat)
  /-- FTL_RECOVERY, R432. At power-up the FTL recovers from the root records, or by a scan. -/
  | ftlRecovery (t : Nat) (dies : List DieFound) (valid0 valid1 differ : Bool) (clashes ms : Nat)
  /-- GROUP_FORM, R438. GROUP_FORM reads the group descriptor, creates the landing area and sends HELLO. -/
  | groupForm (k : CmdRef) (desc : List Byte)
  /-- GROUP_FORM_TIMEOUT, R438. Ten seconds without every HELLO complete GROUP_FORM with TIMEOUT. -/
  | groupFormTimeout (t : Nat)
  /-- GROUP_SHRINK, R466. GROUP_SHRINK removes one rank at the next edge. -/
  | groupShrink (k : CmdRef)
  /-- GROUP_LEAVE, R468. GROUP_LEAVE leaves the group when no session is in progress. -/
  | groupLeave (k : CmdRef)
  /-- SESSION_OPEN, R461. SESSION_OPEN defines a capture or restore session for a step. -/
  | sessionOpen (k : CmdRef)
  /-- SESSION_START, R447. SESSION_START reserves staging and arms capture at AT, or starts a restore. -/
  | sessionStart (k : CmdRef)
  /-- SESSION_ABORT, R442. SESSION_ABORT fails a session with ABORTED at the next edge. -/
  | sessionAbort (k : CmdRef)
  /-- SESSION_CLOSE, R442. SESSION_CLOSE returns an ended session to ABSENT. -/
  | sessionClose (k : CmdRef)
  /-- RESTORE_SCAN, R462. RESTORE_SCAN exchanges verdicts and selects the newest step that verifies. -/
  | restoreScan (k : CmdRef)
  /-- SHARD_EXPORT, R467. SHARD_EXPORT writes one assembled and checked shard with its header. -/
  | shardExport (k : CmdRef)
  /-- CAPTURE_TIMEOUT, R445. CAPTURE_MS or COMMIT_S expires and the session fails with TIMEOUT. -/
  | captureTimeout (t : Nat)
  /-- HELLO, R438. A HELLO message is received and matched against the group. -/
  | hello (t : Nat) (m : CkMsg) (uid : Nat) (body : List Byte)
  /-- UNIT, R455. A UNIT message is received and written into the landing area. -/
  | unit (t : Nat) (m : CkMsg) (digest data : List Byte)
  /-- UNIT_LAND, R455. A unit reaches the medium, its digest is computed and UNIT_ACK is sent. -/
  | unitLand (t unit : Nat)
  /-- UNIT_ACK, R455. A UNIT_ACK is received and the unit is resent or the session failed. -/
  | unitAck (t : Nat) (m : CkMsg) (code : Nat) (digest : List Byte)
  /-- MANIFEST, R456. A MANIFEST is received, its check verified and landed. -/
  | manifest (t : Nat) (m : CkMsg) (body : List Byte)
  /-- MANIFEST_ACK, R456. A MANIFEST_ACK is received and LANDED is sent when every ack is 0. -/
  | manifestAck (t : Nat) (m : CkMsg) (code : Nat)
  /-- LANDED, R460. A LANDED message from a member is recorded. -/
  | landed (t : Nat) (m : CkMsg)
  /-- FAILED, R444. A FAILED message fails the local session of the step with PEER_FAILED. -/
  | failed (t : Nat) (m : CkMsg) (reason : Nat)
  /-- LOST, R459. A LOST message marks a member as lost. -/
  | lost (t : Nat) (m : CkMsg) (rank : Nat)
  /-- PROGRESS, R456. A PROGRESS message is received. -/
  | progress (t : Nat) (m : CkMsg)
  /-- UNIT_REQ, R465. A UNIT_REQ is answered with UNIT_DATA. -/
  | unitReq (t : Nat) (m : CkMsg)
  /-- UNIT_DATA, R465. A UNIT_DATA reply is received for a restore or scan. -/
  | unitData (t : Nat) (m : CkMsg) (code : Nat) (data : List Byte)
  /-- VERDICT, R462. A VERDICT message with candidate lists and results is received. -/
  | verdict (t : Nat) (m : CkMsg) (reason shard : Nat) (steps : List Nat)
  /-- MIRROR, R479. A MIRROR part is received, and a complete record is applied and acknowledged. -/
  | mirror (t epoch seq part parts : Nat) (data : List Byte) (forms : List NsForm)
  /-- MIRROR_ACK, R479. A MIRROR_ACK completes the mirrored writes of its record. -/
  | mirrorAck (t epoch seq : Nat)
  /-- TICK_FRAME, R472. A hawser TICK frame is received, giving partner edges and leases. -/
  | tickFrame (t epoch count lease echo ofs hold : Nat)
  /-- HAWSER_HALYARD, R82. A hawser HALYARD frame is taken as a source 3 halyard trigger. -/
  | hawserHalyard (t epoch count seq : Nat)
  /-- RESYNC, R491. RESYNC parts are received and the full image replaces the replica. -/
  | resync (t epoch seq part parts : Nat) (data : List Byte) (forms : List NsForm) (kept ties : List Nat)
  /-- RESYNC_ACK, R491. A RESYNC_ACK is received, leading to SYNCED at the next edge. -/
  | resyncAck (t epoch base : Nat)
  /-- JOIN, R475. A JOIN frame is received and the devices' indices are checked. -/
  | join (t uid last state : Nat) (digest : List Byte) (clash : Bool)
  /-- JOIN_SEND, R475. Every 1 ms in JOINING, JOIN is sent on each up hawser link. -/
  | joinSend (t : Nat)
  /-- TAKEOVER_NOTICE, R484. A TAKEOVER notice names the FINAL_SEQ after which takeover follows. -/
  | takeoverNotice (t final : Nat)
  /-- LEAVE_NOTICE, R493. A LEAVE notice sends the receiver to SOLO without a takeover. -/
  | leaveNotice (t : Nat)
  /-- PAIR_JOIN, R494. PAIR_JOIN starts JOINING with an expected partner. -/
  | pairJoin (k : CmdRef)
  /-- PAIR_LEAVE, R493. PAIR_LEAVE sends LEAVE and returns to UNPAIRED. -/
  | pairLeave (k : CmdRef)
  /-- WITNESS, R483. A witness message from the partner MSS is received. -/
  | witness (t uid epoch main seen lease : Nat)
  /-- WITNESS_SEND, R483. Every 1 ms, or on a change, the MSS sends a witness message. -/
  | witnessSend (t : Nat)
  /-- LEASE_EXPIRY, R482. The held lease runs out and the device stops feeding and enters SOLO. -/
  | leaseExpiry (t : Nat)
  /-- TAKEOVER, R485. The device takes over the partner's rings, stream sets and mirrored namespaces. -/
  | takeover (t : Nat) (reads : List AdoptRead)
  /-- SPLIT_ENTRY, R490. With the hawser silent for MISS_TICKS while the witness reports MAIN = 0, the pair enters SPLIT. -/
  | splitEntry (t : Nat)
  /-- KEY_GEN, R509. KEY_GEN fills a key slot from the random source. -/
  | keyGen (k : CmdRef)
  /-- KEY_IMPORT, R509. KEY_IMPORT imports a plain or wrapped key into a slot. -/
  | keyImport (k : CmdRef) (src : Option (List Byte))
  /-- KEY_EXPORT, R509. KEY_EXPORT writes a 96-byte wrapped-key blob. -/
  | keyExport (k : CmdRef)
  /-- KEY_DESTROY, R512. KEY_DESTROY moves a slot to DESTROYING. -/
  | keyDestroy (k : CmdRef)
  /-- KEY_ERASE, R512. When the slot's last job ends, the key is erased and the slot becomes EMPTY. -/
  | keyErase (slot : Nat)
  /-- GCM_ENC, R503. A CIPH_OP job of AES-256-GCM encryption with a device-made IV. -/
  | gcmEnc (k : CmdRef) (job : List Byte) (unit : Nat) (x : CipherIn)
  /-- GCM_DEC, R507. A CIPH_OP job of AES-256-GCM decryption, writing DST even when the tag fails. -/
  | gcmDec (k : CmdRef) (job : List Byte) (unit : Nat) (x : CipherIn)
  /-- XTS_ENC, R496. A CIPH_OP job of AES-256-XTS encryption. -/
  | xtsEnc (k : CmdRef) (job : List Byte) (unit : Nat) (x : CipherIn)
  /-- XTS_DEC, R496. A CIPH_OP job of AES-256-XTS decryption. -/
  | xtsDec (k : CmdRef) (job : List Byte) (unit : Nat) (x : CipherIn)
  /-- GMAC_GEN, R503. A CIPH_OP job of GMAC generation. -/
  | gmacGen (k : CmdRef) (job : List Byte) (unit : Nat) (x : CipherIn)
  /-- GMAC_VER, R507. A CIPH_OP job of GMAC verification. -/
  | gmacVer (k : CmdRef) (job : List Byte) (unit : Nat) (x : CipherIn)
  /-- HMAC_GEN, R496. A CIPH_OP job of HMAC-SHA-256 generation. -/
  | hmacGen (k : CmdRef) (job : List Byte) (unit : Nat) (x : CipherIn)
  /-- HMAC_VER, R507. A CIPH_OP job of HMAC-SHA-256 verification. -/
  | hmacVer (k : CmdRef) (job : List Byte) (unit : Nat) (x : CipherIn)
  /-- SHA256, R496. A CIPH_OP job of a SHA-256 digest. -/
  | sha256 (k : CmdRef) (job : List Byte) (unit : Nat) (x : CipherIn)
  /-- SHA3_256, R496. A CIPH_OP job of a SHA3-256 digest. -/
  | sha3256 (k : CmdRef) (job : List Byte) (unit : Nat) (x : CipherIn)
  /-- LST_RUN, R530. LST_RUN tests all 64 slices of a fenced tile on demand. -/
  | lstRun (q : IntgReq) (t : Nat) (fail : Option (Nat × Nat))
  /-- MBIST_RUN, R538. MBIST_RUN tests a disabled SRAM tier slice. -/
  | mbistRun (q : IntgReq) (t : Nat) (fails : List MbistFail)
  /-- SUSPECT_FORCE, R542. SUSPECT_FORCE issues a suspect interval for a tile without fencing it. -/
  | suspectForce (q : IntgReq)
  /-- INJECT_SRAM_SINGLE, R542. ERR_INJECT type 1 plants a single-bit SRAM tier error. -/
  | injectSramSingle (q : IntgReq)
  /-- INJECT_SRAM_DOUBLE, R542. ERR_INJECT type 2 plants a double-bit SRAM tier error. -/
  | injectSramDouble (q : IntgReq)
  /-- INJECT_DRAM_SINGLE, R542. ERR_INJECT type 3 plants a single-bit LPDDR5X error. -/
  | injectDramSingle (q : IntgReq)
  /-- INJECT_DRAM_DOUBLE, R542. ERR_INJECT type 4 plants a double-bit LPDDR5X error. -/
  | injectDramDouble (q : IntgReq)
  /-- INJECT_SLICE_FAIL, R542. ERR_INJECT type 5 makes the next slice of a tile fail its signature. -/
  | injectSliceFail (q : IntgReq)
  /-- LST_SLICE, R526. Once its unit is idle, a slice saves state, tests, restores and passes or fails. -/
  | lstSlice (t : Nat) (ok verified : Bool)
  /-- LST_DEFER, R524. A unit not idle 50 µs after the edge defers its slice to the next edge. -/
  | lstDefer (t : Nat)
  /-- LST_FORCE, R524. At the ninth edge, running items are stopped and the slice is forced. -/
  | lstForce (t : Nat) (ok verified : Bool) (cycles : List (Nat × Cycles × Nat))
  /-- CHECKED_ERROR, R517. An uncorrectable error from a checked path is reported to the integrity block and triggers the halyard. -/
  | checkedError (t : Nat) (p : Page) (control : Bool)
  /-- DRAM_SCRUB, R541. The LPDDR5X scrubber reads and corrects words, or poisons them. -/
  | dramScrub (t off linkCe retries : Nat) (fail : Bool) (pass : Option Nat)
  /-- MEMC_RECAL, R545. Once per second, each channel's I/O is recalibrated. -/
  | memcRecal (t m ch : Nat)
  /-- MEMC_RETRAIN, R545. A channel is retrained, and a failure leads to the quiesce. -/
  | memcRetrain (t m ch : Nat) (ok : Bool)
  /-- SENSOR_SAMPLE, R551. A sensor is sampled and its thresholds are checked. -/
  | sensorSample (t id : Nat) (v : Int)
  /-- LOG_COMMIT, R553. An event log entry is committed to the boot flash. -/
  | logCommit (t seq : Nat)
  /-- BOOT_READY, R566. The device reaches ready, and ATTEMPTS is cleared and C0 raised where due. -/
  | bootReady (t : Nat)
  /-- MSS_WATCHDOG, R38. The MSS watchdog resets the MSS while the main domain keeps running. -/
  | mssWatchdog (t : Nat)
  /-- MSS_RESET, R38. A management command resets the MSS and its page. -/
  | mssReset (t : Nat)
  /-- SET_ENDPOINT_ID, R550. The MCTP Set Endpoint ID control message assigns the endpoint ID. -/
  | setEndpointId (bus : SideBus) (op eid : Nat)
  /-- GET_VERSION, R578. The SPDM request GET_VERSION. -/
  | getVersion (t : Nat) (bus : SideBus) (sess : Option Nat) (req : List Byte)
  /-- GET_CAPABILITIES, R578. The SPDM request GET_CAPABILITIES. -/
  | getCapabilities (t : Nat) (bus : SideBus) (sess : Option Nat) (req : List Byte)
  /-- NEGOTIATE_ALGORITHMS, R578. The SPDM request NEGOTIATE_ALGORITHMS. -/
  | negotiateAlgorithms (t : Nat) (bus : SideBus) (sess : Option Nat) (req : List Byte)
  /-- GET_DIGESTS, R578. The SPDM request GET_DIGESTS. -/
  | getDigests (t : Nat) (bus : SideBus) (sess : Option Nat) (req : List Byte)
  /-- GET_CERTIFICATE, R578. The SPDM request GET_CERTIFICATE for slot 0. -/
  | getCertificate (t : Nat) (bus : SideBus) (sess : Option Nat) (req : List Byte)
  /-- CHALLENGE, R578. The SPDM request CHALLENGE, signed with the RSA identity key. -/
  | challenge (t : Nat) (bus : SideBus) (sess : Option Nat) (req : List Byte)
  /-- GET_MEASUREMENTS, R579. The SPDM request GET_MEASUREMENTS returns the SHA-384 measurement blocks. -/
  | getMeasurements (t : Nat) (bus : SideBus) (sess : Option Nat) (req : List Byte)
  /-- KEY_EXCHANGE, R578. The SPDM request KEY_EXCHANGE. -/
  | keyExchange (t : Nat) (bus : SideBus) (sess : Option Nat) (req : List Byte)
  /-- FINISH, R578. The SPDM request FINISH. -/
  | finish (t : Nat) (bus : SideBus) (sess : Option Nat) (req : List Byte)
  /-- SPDM_HEARTBEAT, R578. The SPDM request HEARTBEAT. -/
  | spdmHeartbeat (t : Nat) (bus : SideBus) (sess : Option Nat) (req : List Byte)
  /-- KEY_UPDATE, R578. The SPDM request KEY_UPDATE. -/
  | keyUpdate (t : Nat) (bus : SideBus) (sess : Option Nat) (req : List Byte)
  /-- END_SESSION, R578. The SPDM request END_SESSION. -/
  | endSession (t : Nat) (bus : SideBus) (sess : Option Nat) (req : List Byte)
  /-- CHUNK_SEND, R578. The SPDM request CHUNK_SEND. -/
  | chunkSend (t : Nat) (bus : SideBus) (sess : Option Nat) (req : List Byte)
  /-- CHUNK_GET, R578. The SPDM request CHUNK_GET. -/
  | chunkGet (t : Nat) (bus : SideBus) (sess : Option Nat) (req : List Byte)
  /-- PQ_SIG, R580. The vendor-defined PQ_SIG request returns part of an SLH-DSA signature. -/
  | pqSig (t : Nat) (bus : SideBus) (sess : Option Nat) (req : List Byte)
  /-- PQ_CERT, R580. The vendor-defined PQ_CERT request returns the SLH-DSA certificate chain. -/
  | pqCert (t : Nat) (bus : SideBus) (sess : Option Nat) (req : List Byte)
  /-- GET_TID, R582. The PLDM command GetTID. -/
  | getTid (t : Nat) (bus : SideBus) (req : List Byte)
  /-- SET_TID, R582. The PLDM command SetTID. -/
  | setTid (t : Nat) (bus : SideBus) (req : List Byte)
  /-- GET_PLDM_VERSION, R582. The PLDM command GetPLDMVersion. -/
  | getPldmVersion (t : Nat) (bus : SideBus) (req : List Byte)
  /-- GET_PLDM_TYPES, R582. The PLDM command GetPLDMTypes. -/
  | getPldmTypes (t : Nat) (bus : SideBus) (req : List Byte)
  /-- GET_PLDM_COMMANDS, R582. The PLDM command GetPLDMCommands. -/
  | getPldmCommands (t : Nat) (bus : SideBus) (req : List Byte)
  /-- GET_PDR, R582. The PLDM command GetPDR. -/
  | getPdr (t : Nat) (bus : SideBus) (req : List Byte)
  /-- GET_PDR_REPOSITORY_INFO, R582. The PLDM command GetPDRRepositoryInfo. -/
  | getPdrRepositoryInfo (t : Nat) (bus : SideBus) (req : List Byte)
  /-- GET_SENSOR_READING, R582. The PLDM command GetSensorReading. -/
  | getSensorReading (t : Nat) (bus : SideBus) (req : List Byte)
  /-- SET_SENSOR_THRESHOLDS, R582. The PLDM command SetSensorThresholds. -/
  | setSensorThresholds (t : Nat) (bus : SideBus) (req : List Byte)
  /-- GET_SENSOR_THRESHOLDS, R582. The PLDM command GetSensorThresholds. -/
  | getSensorThresholds (t : Nat) (bus : SideBus) (req : List Byte)
  /-- SET_EVENT_RECEIVER, R582. The PLDM command SetEventReceiver. -/
  | setEventReceiver (t : Nat) (bus : SideBus) (req : List Byte)
  /-- POLL_FOR_PLATFORM_EVENT_MESSAGE, R582. The PLDM command PollForPlatformEventMessage. -/
  | pollForPlatformEventMessage (t : Nat) (bus : SideBus) (req : List Byte)
  /-- SET_NUMERIC_EFFECTER_VALUE, R582. The PLDM command SetNumericEffecterValue writes PWR.CAP_MGMT and commits the PWR page. -/
  | setNumericEffecterValue (t : Nat) (bus : SideBus) (req : List Byte)
  /-- GET_NUMERIC_EFFECTER_VALUE, R582. The PLDM command GetNumericEffecterValue. -/
  | getNumericEffecterValue (t : Nat) (bus : SideBus) (req : List Byte)
  /-- REQUEST_UPDATE, R583. The PLDM firmware RequestUpdate starts a single firmware update. -/
  | requestUpdate (t : Nat)
  /-- ACTIVATE_FIRMWARE, R583. The PLDM ActivateFirmware activates a component, by splice when self-contained activation is requested. -/
  | activateFirmware (t : Nat) (self : Bool)
  /-- SPLICE_COMMIT, R577. By edge T + 4 every block has been accepted, and the splice commits. `accepted`: the BLOCK_IDs of the blocks accepted. -/
  | spliceCommit (t : Nat) (accepted : List Nat)
  /-- SPLICE_ROLLBACK, R576. A rejected or missing block, a fault, a sag, a reset or a trip rolls the splice back. -/
  | spliceRollback (t reason core comp : Nat)
  /-- PC_CTL_WRITE, R590. A write to PC_CTL selects a counter event, with BAD_EVENT for an undefined one. -/
  | pcCtlWrite (a : Agent) (p : Page) (idx : Nat) (v : Dword)
  /-- PC_CLEAR, R589. A write of PC_CTL.CLR = 1 clears a counter. -/
  | pcClear (a : Agent) (p : Page) (idx : Nat)
  /-- PC_VAL_LO_READ, R588. A read of PC_VAL_LO latches the high half and stamps the tick. -/
  | pcValLoRead (a : Agent) (p : Page) (idx : Nat)
  /-- COUNTER_WRAP, R586. A 48-bit counter wraps and sets PC_OVF and OVERFLOW. -/
  | counterWrap (p : Page) (idx n : Nat)
  /-- PERF_READ, R594. PERF_READ samples a page's eight counters within one tick and writes the result. -/
  | perfRead (k : CmdRef)
  /-- PREC_CLEAR, R599. A write of PREC_SEL.CLR = 1 empties a deck core's precise record. -/
  | precClear (a : Agent) (v : Dword)
  /-- HOST_LINK_UP, R605. The PCIe data link of a host link trains and comes up, setting DL_UP, WIDTH, RATE and HOST.PENNANT.LINK_UP. -/
  | hostLinkUp (t link rate width : Nat)
  /-- PERST_DEASSERT, R36. PERST_A_N or PERST_B_N rises, ending the host reset and starting the 1,000 ms firmware-readiness bound. -/
  | perstDeassert (t link : Nat)
  /-- HOT_RESET, R354. A PCIe hot reset received on one host link resets that link's functions as a host reset does. -/
  | hotReset (t link : Nat)
  /-- VF_ENABLE, R355. VF Enable or NumVFs written in a PF's SR-IOV capability brings its VFs out of ABSENT. -/
  | vfEnable (t pf num : Nat)
  /-- SUBPORT_UP, R349. An Ethernet sub-port finishes training and comes up, setting ETH.PENNANT.UP and becoming usable by QPs. -/
  | subportUp (t sub : Nat)
  /-- POST_DONE, R539. The power-on self-test completes, holding the main domain or letting the MSS load deck-core and stream-core components and release the deck cores. -/
  | postDone (t : Nat) (tiles : List Nat) (other : Option Nat) (packages : List Nat) (fails : List MbistFail)
  /-- ATS_INVALIDATE, R353. An ATS Invalidation Request from the host is completed once no request in flight uses the translation. -/
  | atsInvalidate (t link itag : Nat)
  /-- DOE_DISCOVERY, R353. A DOE Discovery request on PF0's mailbox is answered with the supported protocols. -/
  | doeDiscovery (index : Nat)
  /-- UPDATE_COMPONENT, R583. A PLDM firmware component is transferred and written to its boot flash region, setting MSS.PENNANT.UPDATE_DONE. -/
  | updateComponent (t comp : Nat) (bytes : List Byte) (chk : ImgCheck)
  /-- PARAM_SEND, R281. Every 1 µs during the PARAM step, the link sends a PARAM control flit. -/
  | paramSend (t link : Nat)
  /-- LANE_DROP_RESEND, R283. Every 1 µs until LANE_DROP_ACK arrives, the end that found the fault sends LANE_DROP again on both lanes. -/
  | laneDropResend (t link : Nat)
  /-- DYNAMIC_ADDRESS_ASSIGN, R549. An I3C SETDASA or ENTDAA assigns the module's dynamic address. -/
  | dynamicAddressAssign (addr : Nat) (static : Bool)
  /-- INTERRUPT_COALESCING_EXPIRY, R405. The NVMe interrupt coalescing aggregation time expires and the held completion interrupt is sent. -/
  | interruptCoalescingExpiry (t func cq : Nat)
  /-- RECOVERY_REQUEST, R570. A sideband request tells the MSS to run the recovery loader. -/
  | recoveryRequest (t : Nat)
  deriving DecidableEq, Repr

end Sys2Proof
end

