-- ==== Sys2Proof/Machine/Maps.lean ====
section
/-! DEFINITION. Finite maps as sorted lists of (key, value) pairs, bit fields of words, and little-endian bytes: the
plain-data operations every other part of the machine is written with. -/

namespace Sys2Proof.Machine

/-- The value held at key `k`, if any. -/
def mget {α : Type} : List (Nat × α) → Nat → Option α
  | [], _ => none
  | (a, v) :: m, k => if a = k then some v else mget m k

/-- Sets key `k` to `v`, keeping the keys strictly rising. -/
def mput {α : Type} : List (Nat × α) → Nat → α → List (Nat × α)
  | [], k, v => [(k, v)]
  | (a, w) :: m, k, v =>
    if k < a then (k, v) :: (a, w) :: m
    else if a = k then (k, v) :: m
    else (a, w) :: mput m k v

/-- Removes key `k`. -/
def mdel {α : Type} : List (Nat × α) → Nat → List (Nat × α)
  | [], _ => []
  | (a, w) :: m, k => if a = k then m else (a, w) :: mdel m k

/-- The value at `k`, or `d` where nothing is listed. -/
def mgetD {α : Type} (m : List (Nat × α)) (k : Nat) (d : α) : α := (mget m k).getD d

/-- Sets key `k` in a map whose unlisted keys read as `d`: writing `d` removes the entry. -/
def mputD {α : Type} [DecidableEq α] (m : List (Nat × α)) (k : Nat) (d v : α) : List (Nat × α) :=
  if v = d then mdel m k else mput m k v

/-- Changes the value at `k`, where one is listed. -/
def mmod {α : Type} (m : List (Nat × α)) (k : Nat) (f : α → α) : List (Nat × α) :=
  m.map fun e => if e.1 = k then (e.1, f e.2) else e

/-- Keys strictly rising: the canonical form of every map of the machine. -/
def mwf {α : Type} : List (Nat × α) → Bool
  | [] => true
  | [_] => true
  | a :: b :: m => decide (a.1 < b.1) && mwf (b :: m)

/-- The elements of a list with their positions. -/
def enumFrom {α : Type} : Nat → List α → List (Nat × α)
  | _, [] => []
  | n, a :: l => (n, a) :: enumFrom (n + 1) l

/-- Inserts into a list ordered by `key`. -/
def insertBy {α : Type} (key : α → Nat) (x : α) : List α → List α
  | [] => [x]
  | y :: l => if key x < key y then x :: y :: l else y :: insertBy key x l

/-- A list in ascending order of `key`, equal keys in the order they stood. -/
def sortBy {α : Type} (key : α → Nat) (l : List α) : List α := l.foldl (fun acc x => insertBy key x acc) []

/-- Bits [lo+n-1:lo] of a natural number. -/
def bitsOf (w lo n : Nat) : Nat := w / 2 ^ lo % 2 ^ n

/-- `w` with bits [lo+n-1:lo] replaced by the low `n` bits of `v`. -/
def withBits (w lo n v : Nat) : Nat := w - bitsOf w lo n * 2 ^ lo + v % 2 ^ n * 2 ^ lo

/-- Bit `i` of a natural number. -/
def bitOf (w i : Nat) : Bool := w / 2 ^ i % 2 == 1

/-- The number of ones among the low `n` bits. -/
def popcount : Nat → Nat → Nat
  | 0, _ => 0
  | n + 1, w => w % 2 + popcount n (w / 2)

/-- Little-endian value of a list of bytes (R5). -/
def leNat : List Byte → Nat
  | [] => 0
  | b :: l => b.toNat + 256 * leNat l

/-- The `n` bytes of `v`, least significant first (R5). -/
def leBytes : Nat → Nat → List Byte
  | 0, _ => []
  | n + 1, v => BitVec.ofNat 8 v :: leBytes n (v / 256)

/-- Big-endian value of a list of bytes (network order, R5). -/
def beNat (l : List Byte) : Nat := leNat l.reverse

/-- The `n` bytes of `v`, most significant first (network order, R5). -/
def beBytes (n v : Nat) : List Byte := (leBytes n v).reverse

/-- The `n` bytes from offset `o`, little-endian; bytes past the end read 0. -/
def leAt (l : List Byte) (o n : Nat) : Nat := leNat ((l.drop o).take n)

/-- The `n` bytes from offset `o`, in network order. -/
def beAt (l : List Byte) (o n : Nat) : Nat := beNat ((l.drop o).take n)

/-- Every byte of a list is 0. -/
def allZero (l : List Byte) : Bool := l.all (· == 0)

/-- The n-th element, or a default. -/
def nthD {α : Type} (l : List α) (n : Nat) (d : α) : α := l.getD n d

/-- Rounded-up division. -/
def ceilDiv (a b : Nat) : Nat := (a + b - 1) / b

/-- Round half up of the quotient a / b. -/
def roundDiv (a b : Nat) : Nat := (2 * a + b) / (2 * b)

/-- Epoch `a` is newer than epoch `b` (R7). -/
def epochNewer (a b : Nat) : Bool :=
  let d := (a + 65536 - b % 65536) % 65536
  decide (1 ≤ d) && decide (d ≤ 32767)

/-- One step of a reflected CRC over one bit. -/
def crcBit (poly c : Nat) : Nat := if c % 2 = 1 then (c / 2) ^^^ poly else c / 2

/-- Eight CRC bit steps. -/
def crcByteSteps (poly : Nat) : Nat → Nat → Nat
  | 0, c => c
  | n + 1, c => crcByteSteps poly n (crcBit poly c)

/-- A reflected CRC-32 with initial value and final XOR 0xFFFF_FFFF over the polynomial `poly` (reflected). -/
def crcWith (poly : Nat) (l : List Byte) : Nat :=
  (l.foldl (fun c b => crcByteSteps poly 8 (c ^^^ b.toNat)) 0xFFFFFFFF) ^^^ 0xFFFFFFFF

/-- CRC-32 of IEEE 802.3 (R96). -/
def crc32 (l : List Byte) : Nat := crcWith 0xEDB88320 l

/-- CRC-32C, the Castagnoli polynomial 0x1EDC_6F41 reflected (R132). -/
def crc32c (l : List Byte) : Nat := crcWith 0x82F63B78 l

end Sys2Proof.Machine
end

