-- ==== Sys2Proof/Machine/Digest.lean ====
section
/-! DEFINITION. SHA-256, SHA-384, HMAC on them and SHA3-256 on byte strings, as FIPS 180-4, FIPS 198-1 and FIPS 202 define
them (R496, R558; PRESUMED: the manual names the standards and does not repeat them). The constants are computed as the
standards define them. -/

namespace Sys2Proof.Machine

/-! ### SHA-2 -/

/-- The greatest `r` below 2^n with `r ^ k` at most `v`, added to the bits found: one bit at a time, highest first. -/
def rootBits (k v : Nat) : Nat → Nat → Nat
  | 0, r => r
  | n + 1, r => rootBits k v n (if (r + 2 ^ n) ^ k ≤ v then r + 2 ^ n else r)

def isPrime (p : Nat) : Bool := decide (2 ≤ p) && (List.range p).all fun d => decide (d < 2) || p % d != 0

/-- The first `n` primes; the eightieth is 409. -/
def firstPrimes (n : Nat) : List Nat := ((List.range 410).filter isPrime).take n

/-- The first `w` bits of the fraction of the `k`-th root of `p`. -/
def rootFraction (w k p : Nat) : BitVec w := BitVec.ofNat w (rootBits k (p * 2 ^ (w * k)) (w + 5) 0)

/-- A function of the SHA-2 family on words of `w` bits: the rotations of its two large and two small sums, the last of a
small sum being a shift, its rounds, its first hash value. -/
structure Sha2 (w : Nat) where
  big0 : Nat × Nat × Nat
  big1 : Nat × Nat × Nat
  small0 : Nat × Nat × Nat
  small1 : Nat × Nat × Nat
  rounds : Nat
  start : List (BitVec w)

def sha256Fn : Sha2 32 := {
  big0 := (2, 13, 22), big1 := (6, 11, 25), small0 := (7, 18, 3), small1 := (17, 19, 10), rounds := 64
  start := (firstPrimes 8).map (rootFraction 32 2) }

def sha384Fn : Sha2 64 := {
  big0 := (28, 34, 39), big1 := (14, 18, 41), small0 := (1, 8, 7), small1 := (19, 61, 6), rounds := 80
  start := ((firstPrimes 16).drop 8).map (rootFraction 64 2) }

/-- The round constants: cube roots of the first primes. -/
def Sha2.consts {w : Nat} (f : Sha2 w) : List (BitVec w) := (firstPrimes f.rounds).map (rootFraction w 3)

def bigSum {w : Nat} (r : Nat × Nat × Nat) (x : BitVec w) : BitVec w :=
  x.rotateRight r.1 ^^^ x.rotateRight r.2.1 ^^^ x.rotateRight r.2.2

def smallSum {w : Nat} (r : Nat × Nat × Nat) (x : BitVec w) : BitVec w :=
  x.rotateRight r.1 ^^^ x.rotateRight r.2.1 ^^^ (x >>> r.2.2)

/-- Splits a list into pieces of `n`; the fuel bounds the number of pieces. -/
def chunksOf {α : Type} (n : Nat) : Nat → List α → List (List α)
  | 0, _ => []
  | k + 1, l => if l.isEmpty then [] else l.take n :: chunksOf n k (l.drop n)

/-- The message schedule, newest word first. -/
def shaExtend {w : Nat} (f : Sha2 w) : Nat → List (BitVec w) → List (BitVec w)
  | 0, l => l
  | n + 1, l => shaExtend f n ((smallSum f.small1 (l.getD 1 0) + l.getD 6 0 + smallSum f.small0 (l.getD 14 0) + l.getD 15 0) :: l)

/-- One round on the eight working variables. -/
def shaRound {w : Nat} (f : Sha2 w) (v : List (BitVec w)) (kw : BitVec w × BitVec w) : List (BitVec w) :=
  match v with
  | [a, b, c, d, e, g, h, i] =>
    let t := i + bigSum f.big1 e + ((e &&& g) ^^^ (~~~e &&& h)) + kw.1 + kw.2
    [t + bigSum f.big0 a + ((a &&& b) ^^^ (a &&& c) ^^^ (b &&& c)), a, b, c, d + t, e, g, h]
  | _ => v

/-- One block of 16 words. -/
def shaBlock {w : Nat} (f : Sha2 w) (h : List (BitVec w)) (b : List Byte) : List (BitVec w) :=
  let first := (List.range 16).map fun i => BitVec.ofNat w (beAt b (w / 8 * i) (w / 8))
  let ws := (shaExtend f (f.rounds - 16) first.reverse).reverse
  List.zipWith (· + ·) h ((f.consts.zip ws).foldl (shaRound f) h)

/-- The message padded to whole blocks: a 1 bit, zeros, and its length in bits in the last two words. -/
def shaPad (w : Nat) (m : List Byte) : List Byte :=
  let block := 2 * w
  let head := 1 + w / 4
  m ++ [0x80] ++ List.replicate ((block - (m.length + head) % block) % block) 0 ++ beBytes (w / 4) (8 * m.length)

/-- The whole hash value of a message. -/
def shaDigest {w : Nat} (f : Sha2 w) (m : List Byte) : List Byte :=
  let l := shaPad w m
  ((chunksOf (2 * w) (l.length / (2 * w)) l).foldl (shaBlock f) f.start).flatMap fun x => beBytes (w / 8) x.toNat

def sha256 (m : List Byte) : List Byte := shaDigest sha256Fn m
def sha384 (m : List Byte) : List Byte := (shaDigest sha384Fn m).take 48

/-- HMAC of a hash with blocks of `block` bytes. -/
def hmacOf (hash : List Byte → List Byte) (block : Nat) (key m : List Byte) : List Byte :=
  let k := if block < key.length then hash key else key
  let k := k ++ List.replicate (block - k.length) 0
  hash (k.map (· ^^^ 0x5C) ++ hash (k.map (· ^^^ 0x36) ++ m))

def hmac256 : List Byte → List Byte → List Byte := hmacOf sha256 64
def hmac384 : List Byte → List Byte → List Byte := hmacOf sha384 128

/-! ### SHA3-256 -/

/-- A plane of five lanes turned by `n` lanes. -/
def turned {α : Type} (n : Nat) (l : List α) : List α := l.drop n ++ l.take n

/-- The register that gives the round constants, one step on: eight bits, what falls out at the top folded back. -/
def rcStep (r : Nat) : Nat := if r < 128 then 2 * r else (2 * r) ^^^ 0x171

/-- The constant of one round from the register's next seven steps: step `j` gives bit 2^j - 1. -/
def rcWord : Nat → Nat → Nat → Nat × Nat
  | 0, r, w => (r, w)
  | n + 1, r, w => rcWord n (rcStep r) (w + rcStep r / 2 % 2 * 2 ^ (2 ^ (6 - n) - 1))

/-- The round constants of `n` rounds. -/
def rcWords : Nat → Nat → List (BitVec 64)
  | 0, _ => []
  | n + 1, r => let (r, w) := rcWord 7 r 0; BitVec.ofNat 64 w :: rcWords n r

/-- Each lane is folded with the parities of two neighbouring columns. -/
def foldColumns (a : List (BitVec 64)) : List (BitVec 64) :=
  let rows := chunksOf 5 5 a
  let parity := rows.foldl (List.zipWith (· ^^^ ·)) (List.replicate 5 0)
  let by_ := List.zipWith (fun u v => u ^^^ v.rotateLeft 1) (turned 4 parity) (turned 1 parity)
  rows.flatMap (List.zipWith (· ^^^ ·) by_)

/-- The lanes move along one walk through the slice, each turned by the triangular number of its step. -/
def walkLanes (a : List (BitVec 64)) : Nat → Nat → Nat → List (BitVec 64) → List (BitVec 64)
  | 0, _, _, b => b
  | n + 1, i, t, b =>
    let x := i % 5
    let y := i / 5
    let dest := y + 5 * ((2 * x + 3 * y) % 5)
    walkLanes a n dest (t + 1) (b.set dest ((a.getD i 0).rotateLeft ((t + 1) * (t + 2) / 2 % 64)))

/-- Each lane of a row is changed by the two that follow it. -/
def mixRow (r : List (BitVec 64)) : List (BitVec 64) :=
  List.zipWith (· ^^^ ·) r (List.zipWith (fun u v => ~~~u &&& v) (turned 1 r) (turned 2 r))

/-- One round on 25 lanes, row after row. -/
def laneRound (a : List (BitVec 64)) (rc : BitVec 64) : List (BitVec 64) :=
  let a := foldColumns a
  ((chunksOf 5 5 (walkLanes a 24 1 0 a)).flatMap mixRow).modify 0 (· ^^^ rc)

/-- One 136-byte block absorbed. -/
def absorb (a : List (BitVec 64)) (b : List Byte) : List (BitVec 64) :=
  let words := (chunksOf 8 17 b).map fun x => BitVec.ofNat 64 (leNat x)
  (rcWords 24 1).foldl laneRound (List.zipWith (· ^^^ ·) a (words ++ List.replicate 8 0))

/-- SHA3-256. -/
def sha3 (m : List Byte) : List Byte :=
  let n := 136 - m.length % 136
  let pad : List Byte := if n = 1 then [0x86] else [0x06] ++ List.replicate (n - 2) 0 ++ [0x80]
  let l := m ++ pad
  ((chunksOf 136 (l.length / 136) l).foldl absorb (List.replicate 25 0)).take 4 |>.flatMap fun w => leBytes 8 w.toNat

end Sys2Proof.Machine
end

