-- ==== Sys2Proof/Machine/Aes.lean ====
section
/-! DEFINITION. AES-256 (FIPS 197) and the modes the cipher engine runs: GCM and GMAC (NIST SP 800-38D), XTS (IEEE 1619) and
key wrap (NIST SP 800-38F) (R496, R500; PRESUMED: the manual names the standards and does not repeat them). -/

namespace Sys2Proof.Machine

def aesSbox0 : List Nat := [
  0x63, 0x7C, 0x77, 0x7B, 0xF2, 0x6B, 0x6F, 0xC5, 0x30, 0x01, 0x67, 0x2B, 0xFE, 0xD7, 0xAB, 0x76,
  0xCA, 0x82, 0xC9, 0x7D, 0xFA, 0x59, 0x47, 0xF0, 0xAD, 0xD4, 0xA2, 0xAF, 0x9C, 0xA4, 0x72, 0xC0,
  0xB7, 0xFD, 0x93, 0x26, 0x36, 0x3F, 0xF7, 0xCC, 0x34, 0xA5, 0xE5, 0xF1, 0x71, 0xD8, 0x31, 0x15,
  0x04, 0xC7, 0x23, 0xC3, 0x18, 0x96, 0x05, 0x9A, 0x07, 0x12, 0x80, 0xE2, 0xEB, 0x27, 0xB2, 0x75]

def aesSbox1 : List Nat := [
  0x09, 0x83, 0x2C, 0x1A, 0x1B, 0x6E, 0x5A, 0xA0, 0x52, 0x3B, 0xD6, 0xB3, 0x29, 0xE3, 0x2F, 0x84,
  0x53, 0xD1, 0x00, 0xED, 0x20, 0xFC, 0xB1, 0x5B, 0x6A, 0xCB, 0xBE, 0x39, 0x4A, 0x4C, 0x58, 0xCF,
  0xD0, 0xEF, 0xAA, 0xFB, 0x43, 0x4D, 0x33, 0x85, 0x45, 0xF9, 0x02, 0x7F, 0x50, 0x3C, 0x9F, 0xA8,
  0x51, 0xA3, 0x40, 0x8F, 0x92, 0x9D, 0x38, 0xF5, 0xBC, 0xB6, 0xDA, 0x21, 0x10, 0xFF, 0xF3, 0xD2]

def aesSbox2 : List Nat := [
  0xCD, 0x0C, 0x13, 0xEC, 0x5F, 0x97, 0x44, 0x17, 0xC4, 0xA7, 0x7E, 0x3D, 0x64, 0x5D, 0x19, 0x73,
  0x60, 0x81, 0x4F, 0xDC, 0x22, 0x2A, 0x90, 0x88, 0x46, 0xEE, 0xB8, 0x14, 0xDE, 0x5E, 0x0B, 0xDB,
  0xE0, 0x32, 0x3A, 0x0A, 0x49, 0x06, 0x24, 0x5C, 0xC2, 0xD3, 0xAC, 0x62, 0x91, 0x95, 0xE4, 0x79,
  0xE7, 0xC8, 0x37, 0x6D, 0x8D, 0xD5, 0x4E, 0xA9, 0x6C, 0x56, 0xF4, 0xEA, 0x65, 0x7A, 0xAE, 0x08]

def aesSbox3 : List Nat := [
  0xBA, 0x78, 0x25, 0x2E, 0x1C, 0xA6, 0xB4, 0xC6, 0xE8, 0xDD, 0x74, 0x1F, 0x4B, 0xBD, 0x8B, 0x8A,
  0x70, 0x3E, 0xB5, 0x66, 0x48, 0x03, 0xF6, 0x0E, 0x61, 0x35, 0x57, 0xB9, 0x86, 0xC1, 0x1D, 0x9E,
  0xE1, 0xF8, 0x98, 0x11, 0x69, 0xD9, 0x8E, 0x94, 0x9B, 0x1E, 0x87, 0xE9, 0xCE, 0x55, 0x28, 0xDF,
  0x8C, 0xA1, 0x89, 0x0D, 0xBF, 0xE6, 0x42, 0x68, 0x41, 0x99, 0x2D, 0x0F, 0xB0, 0x54, 0xBB, 0x16]

def aesSbox : List Nat := aesSbox0 ++ aesSbox1 ++ aesSbox2 ++ aesSbox3

def subByte (b : Byte) : Byte := BitVec.ofNat 8 (aesSbox.getD b.toNat 0)

def invSubByte (b : Byte) : Byte := BitVec.ofNat 8 (aesSbox.findIdx fun v => v == b.toNat)

/-- Multiplication by x in the AES field. -/
def xtime (b : Byte) : Byte := (b <<< 1) ^^^ (if b.msb then 0x1B else 0)

/-- Multiplication by a small constant. -/
def aesMul (k : Nat) (b : Byte) : Byte :=
  let b2 := xtime b
  let b4 := xtime b2
  let b8 := xtime b4
  (if bitOf k 0 then b else 0) ^^^ (if bitOf k 1 then b2 else 0) ^^^ (if bitOf k 2 then b4 else 0) ^^^ (if bitOf k 3 then b8 else 0)

def xorBytes (a b : List Byte) : List Byte := List.zipWith (· ^^^ ·) a b

/-- The key schedule of a 32-byte key: 60 words of 4 bytes, newest first; the first argument counts the words still to
make. -/
def aesExpand : Nat → Nat → List (List Byte) → List (List Byte)
  | 0, _, w => w
  | n + 1, i, w =>
    let t := w.getD 0 []
    let t :=
      if i % 8 = 0 then
        xorBytes ((t.drop 1 ++ t.take 1).map subByte) [BitVec.ofNat 8 (2 ^ (i / 8 - 1)), 0, 0, 0]
      else if i % 8 = 4 then t.map subByte else t
    aesExpand n (i + 1) (xorBytes (w.getD 7 []) t :: w)

/-- Round keys 0 to 14. -/
def aesKeys (key : List Byte) : List (List Byte) :=
  let w := (aesExpand 52 8 (chunksOf 4 8 key).reverse).reverse
  (chunksOf 4 15 w).map (·.flatten)

/-- Byte `i` of a state comes from position `f i`. -/
def permute (f : Nat → Nat) (s : List Byte) : List Byte := (List.range 16).map fun i => s.getD (f i) 0

def mixWith (k : List Nat) (s : List Byte) : List Byte :=
  (List.range 16).map fun i =>
    let c := i / 4 * 4
    (List.range 4).foldl (fun a j => a ^^^ aesMul (k.getD ((j + 4 - i % 4) % 4) 0) (s.getD (c + j) 0)) 0

/-- AES-256 of one block. -/
def aesEnc (ks : List (List Byte)) (b : List Byte) : List Byte :=
  let shift := permute fun i => (i + 4 * (i % 4)) % 16
  let mid := (List.range 13).foldl (fun s r => xorBytes (mixWith [2, 3, 1, 1] (shift (s.map subByte))) (ks.getD (r + 1) []))
    (xorBytes b (ks.getD 0 []))
  xorBytes (shift (mid.map subByte)) (ks.getD 14 [])

/-- Its inverse. -/
def aesDec (ks : List (List Byte)) (b : List Byte) : List Byte :=
  let shift := permute fun i => (i + 12 * (i % 4)) % 16
  let step (s : List Byte) : List Byte := (shift s).map invSubByte
  let mid := (List.range 13).foldl (fun s r => mixWith [14, 11, 13, 9] (xorBytes (step s) (ks.getD (13 - r) [])))
    (xorBytes b (ks.getD 14 []))
  xorBytes (step mid) (ks.getD 0 [])

/-! ### GCM -/

/-- One bit step of the product in GF(2^128), bit 127 of the word being the first bit of the block. -/
def ghashStep (zv : BitVec 128 × BitVec 128) (bit : Bool) : BitVec 128 × BitVec 128 :=
  let z := if bit then zv.1 ^^^ zv.2 else zv.1
  let v := zv.2 >>> 1
  (z, if zv.2.getLsbD 0 then v ^^^ (BitVec.ofNat 128 (0xE1 * 2 ^ 120)) else v)

def ghashMul (x y : BitVec 128) : BitVec 128 :=
  (((List.range 128).map fun i => x.getLsbD (127 - i)).foldl ghashStep (0, y)).1

def padBlock (l : List Byte) : List Byte := l ++ List.replicate ((16 - l.length % 16) % 16) 0

/-- GHASH of additional data and ciphertext. -/
def ghash (h : BitVec 128) (aad c : List Byte) : BitVec 128 :=
  let l := padBlock aad ++ padBlock c ++ beBytes 8 (8 * aad.length) ++ beBytes 8 (8 * c.length)
  (chunksOf 16 (l.length / 16) l).foldl (fun y b => ghashMul (y ^^^ BitVec.ofNat 128 (beNat b)) h) 0

/-- Counter mode from block number `n` on. -/
def gcmCtr (ks : List (List Byte)) (iv : List Byte) (n : Nat) (data : List Byte) : List Byte :=
  (enumFrom 0 (chunksOf 16 (data.length / 16 + 1) data)).flatMap fun e =>
    xorBytes e.2 (aesEnc ks (iv ++ beBytes 4 (n + e.1)))

/-- The 16-byte tag over additional data and ciphertext, 96-bit IV. -/
def gcmTag (key iv aad c : List Byte) : List Byte :=
  let ks := aesKeys key
  let h := BitVec.ofNat 128 (beNat (aesEnc ks (List.replicate 16 0)))
  xorBytes (beBytes 16 (ghash h aad c).toNat) (aesEnc ks (iv ++ beBytes 4 1))

/-- The GCM keystream applied to data: encryption and decryption. -/
def gcmCrypt (key iv data : List Byte) : List Byte := gcmCtr (aesKeys key) iv 2 data

/-! ### XTS -/

/-- Multiplication of a tweak by x. -/
def xtsDouble (t : Nat) : Nat := t * 2 % 2 ^ 128 ^^^ (if 2 ^ 127 ≤ t then 0x87 else 0)

def xtsBlocks (f : List Byte → List Byte) : List (List Byte) → Nat → List Byte
  | [], _ => []
  | b :: l, t =>
    let m := leBytes 16 t
    xorBytes (f (xorBytes b m)) m ++ xtsBlocks f l (xtsDouble t)

/-- AES-256-XTS of data units of `size` bytes from unit number `n`, with a 64-byte key. -/
def xts (enc : Bool) (key : List Byte) (size n : Nat) (data : List Byte) : List Byte :=
  let k1 := aesKeys (key.take 32)
  let k2 := aesKeys (key.drop 32)
  (enumFrom 0 (chunksOf size (data.length / size) data)).flatMap fun e =>
    xtsBlocks (if enc then aesEnc k1 else aesDec k1) (chunksOf 16 (size / 16) e.2)
      (leNat (aesEnc k2 (leBytes 16 ((n + e.1) % 2 ^ 128))))

/-! ### Key wrap -/

/-- One step of KW: `t` its number, the integrity register and the semiblocks, the next one first. -/
def kwStep (ks : List (List Byte)) (st : Nat × List (List Byte)) (t : Nat) : Nat × List (List Byte) :=
  match st.2 with
  | r :: rest =>
    let b := aesEnc ks (beBytes 8 st.1 ++ r)
    (beNat (b.take 8) ^^^ t, rest ++ [b.drop 8])
  | [] => st

/-- KW of a multiple of 8 bytes. -/
def keyWrap (kek p : List Byte) : List Byte :=
  let r := chunksOf 8 (p.length / 8) p
  let w := ((List.range (6 * r.length)).map (· + 1)).foldl (kwStep (aesKeys kek)) (0xA6A6A6A6A6A6A6A6, r)
  beBytes 8 w.1 ++ w.2.flatten

/-- One step back of KW, the last semiblock being the next. -/
def kwBack (ks : List (List Byte)) (st : Nat × List (List Byte)) (t : Nat) : Nat × List (List Byte) :=
  match st.2.reverse with
  | r :: rest =>
    let b := aesDec ks (beBytes 8 (st.1 ^^^ t) ++ r)
    (beNat (b.take 8), b.drop 8 :: rest.reverse)
  | [] => st

/-- The inverse of KW, where the integrity check holds. -/
def keyUnwrap (kek c : List Byte) : Option (List Byte) :=
  let l := c.drop 8
  let r := chunksOf 8 (l.length / 8) l
  let w := ((List.range (6 * r.length)).map fun i => 6 * r.length - i).foldl (kwBack (aesKeys kek)) (beAt c 0 8, r)
  if w.1 = 0xA6A6A6A6A6A6A6A6 then some w.2.flatten else none

end Sys2Proof.Machine
end

