-- ==== Sys2Proof/Config.lean ====
section
/-! DEFINITION. What the signed configuration block and the parts fix (constants an implementation chooses), and the
free values: results the manual leaves open. A free value is an opaque constant with no body, applied to the running
number `State.fresh`, so that nothing can be proved about which value it is. -/

namespace Sys2Proof

/-- A fresh open value of 64 bits. -/
opaque Config.free : Nat → Nat

/-- A fresh open flag. -/
opaque Config.freeBool : Nat → Bool

/-- A fresh open byte string of the asked length is built from these bytes. -/
opaque Config.freeByte : Nat → Nat → BitVec 8

/-- Open numbers by key and index. -/
opaque Config.freeAt : Nat → Nat → Nat

/-- The code -128 of MXINT8 is used for the lowest value (R200 does not say). -/
opaque Config.int8Lowest : Bool

/-- The taps of a convolution run column fastest, then row, then frame; else frame fastest, then row, then column (R212 gives
K as C·KT·KH·KW). -/
opaque Config.tapsByColumn : Bool

/-- PARAM of POOL pairs each window with its stride; else the three windows come first (R212). WATTN's shift moves tokens back (R213). -/
opaque Config.poolPairs : Bool
opaque Config.shiftBack : Bool

/-- The element of a relative bias tensor for an offset along W, H and T, a head, the window and the tensor's dims (R213). -/
opaque Config.biasIndex : Int → Int → Int → Nat → List Nat → List Nat → Nat

/-- Sample (x, y) of plane `p` that a standard's decoding process gives for a picture: codec code, coded bytes, and the planes of
its references (R157). The standards are not part of the manual. -/
opaque Config.decoded : Nat → List (BitVec 8) → List (List (List (List Nat))) → Nat → Nat → Nat → Nat

/-- Sample `i` of channel `c` that an audio format's decoder gives for a frame's bytes, as binary32 bits (R155). -/
opaque Config.audioSample : Nat → List (BitVec 8) → Nat → Nat → Nat

/-- Coefficient of a channel of 5.1 in the mono downmix of ITU-R BS.775, and tap `k` of a phase of the windowed-sinc filter for a
source rate, as binary32 bits (R155). -/
opaque Config.bs775 : Nat → Nat
opaque Config.audioTap : Nat → Nat → Nat → Nat

/-- The Unicode character of a code of a caption character set, the combining mark of one of its diacritics, and the precomposed
character of a base and a mark, where Unicode defines one (R154). -/
opaque Config.capChar : Nat → Nat → Nat
opaque Config.capMark : Nat → Nat → Nat
opaque Config.precomposed : Nat → Nat → Option Nat

/-- GROUP of a caption record: R132 gives it no meaning there. -/
opaque Config.textGroup : Nat

/-- The active area SMPTE ST 2016-1 gives for an AFD code, a coded size and a sample aspect: x, y, width, height; none for a code
it leaves undefined (R187). -/
opaque Config.afdArea : Nat → Nat → Nat → Nat → Nat → Option (Nat × Nat × Nat × Nat)

/-- Where output sample `i` of `n` lies on a crop axis of `m` samples, in 64ths of a sample: R189 gives the ratio and the phases,
not the alignment. -/
opaque Config.resizePos : Nat → Nat → Nat → Int

/-- The Lanczos-3 kernel at a distance in 64ths of a sample, in 2^-20 (R189). -/
opaque Config.lanczos : Nat → Int

/-- Whether the shaper rounds the quotient n / d up: R185 to R190 give no rounding. -/
opaque Config.shapeUp : Int → Nat → Bool

/-- The sample, of `n` on an axis, that stands for one outside the crop or the field: R186 and R189 give none. -/
opaque Config.edgeSample : Int → Nat → Nat

/-- The choice among `n` pairs of equal difference in adaptive deinterlacing (R186). -/
opaque Config.deintTie : Nat → Nat

/-- Sample (x, y) of the residual approximation of a `w` by `h` DCT-II block from its DC, first horizontal and first vertical
coefficients, in 2^-16: R174 names the coefficients, and each standard has its own scale. -/
opaque Config.residualAt : Int → Int → Int → Nat → Nat → Nat → Nat → Int

/-- Where a context's source cache lies in the LPDDR5X: R118 does not say. -/
opaque Config.cacheBase : Nat → Nat

/-- The deficit round robin quantum of a context of WEIGHT 1, less one cycle: R125 gives only its proportion. -/
opaque Config.quantum : Nat

/-- UNIT_ID of the signed configuration block (chapter 17). -/
opaque Config.unitId : Nat

/-- The device key, from the PUF and the helper data of this module (R557), and the fixed input of the key derivation for a label
and a length in bits, whose counter width and context the manual does not give (R558). -/
opaque Config.deviceKey : List (BitVec 8)
opaque Config.kdfInput : List (BitVec 8) → Nat → List (BitVec 8)

/-- Where a function's device-memory window lies in the LPDDR5X: the manual does not say (R357). -/
opaque Config.winBase : Nat → Nat

/-- Blocks that a die's share of the flash layout requires, by family, OP_PCT and STAGE_BLOCKS (R428). -/
opaque Config.dieShare : Nat → Nat → Nat → Nat

/-- Progress of a rebuild, % of its work, by dies to rebuild and bytes the medium has taken (REBUILD_PCT). -/
opaque Config.rebuildProgress : Nat → Nat → Nat

/-- The LDPC parity of a codeword's 4,256 bytes (R418). -/
opaque Config.ldpcParity : List Byte → Vector Byte 352

/-- The LPDDR5X channel that holds an offset: 4 × package + channel. The manual does not give the layout. -/
opaque Config.dramChannel : Nat → Nat

/-- Where the copy of the stream-core component lies in the LPDDR5X: the manual does not say (R567). -/
opaque Config.fwCopy : Nat

/-- Fixed bytes of the device's identity: 0 the RSA certificate chain, 1 the SLH-DSA chain, 2 and 3 the SHA-384 of each, 4 the
value types of the measurement blocks (R578 to R580), and the lengths of 0 and 1. -/
opaque Config.attest : Nat → Nat → BitVec 8
opaque Config.attestLen : Nat → Nat

/-- Bytes of the SHA-384 measurement of an index whose bytes the model does not hold (R579). -/
opaque Config.measure : Nat → Nat → BitVec 8

/-- PLDM's platform data records: the bytes and length of the record of a handle, and the handle after it (R582). -/
opaque Config.pdr : Nat → Nat → BitVec 8
opaque Config.pdrLen : Nat → Nat
opaque Config.pdrNext : Nat → Nat

/-- The tile clock, MHz, at the set frequency: TILE.BLK_CAP1.MAX_MHZ (chapter 04). -/
def Config.tileMhz : Nat := 2200

end Sys2Proof
end

