-- ==== Sys2Proof/Machine/Memory.lean ====
section
/-! DEFINITION. The byte memory of the device: the LPDDR5X, the SRAM slices of the tiles and the local SRAMs of the deck
cores and the MSS in one flat key space, the boot ROMs, and the address maps of the core kinds (R204, R229). Only bytes
that differ from 0 are listed; unwritten memory reads 0, one of the two values
the text under R233 allows (DESIGN CHOICE). -/

namespace Sys2Proof.Machine

/-- Listed bytes, keys rising, none equal to 0. -/
abbrev Memory : Type := List Host.Cell

/-- One byte. -/
def memGet (m : Memory) (a : Nat) : Byte := mgetD m a 0

/-- Writes one byte. -/
def memSet (m : Memory) (a : Nat) (b : Byte) : Memory := mputD m a 0 b

/-- `n` bytes from `a`. -/
def memRead (m : Memory) (a : Nat) : Nat → List Byte
  | 0 => []
  | n + 1 => memGet m a :: memRead m (a + 1) n

/-- Writes a list of bytes from `a` upwards. -/
def memWrite (m : Memory) (a : Nat) : List Byte → Memory
  | [] => m
  | b :: l => memWrite (memSet m a b) (a + 1) l

/-- Clears the bytes from `lo` up to, and not including, `hi`. -/
def memClear (m : Memory) (lo hi : Nat) : Memory := m.filter fun e => !(decide (lo ≤ e.1) && decide (e.1 < hi))

/-- The canonical form: keys strictly rising, no listed zero. -/
def Memory.wf (m : Memory) : Bool := mwf m && m.all fun e => e.2 != 0

/-- The key of LPDDR5X byte `a`. -/
def dramKey (a : Nat) : Nat := a

/-- The key of offset `o` of tile `t`'s SRAM slice. -/
def sliceKey (t o : Nat) : Nat := 2 ^ 40 + t * 2 ^ 28 + o

/-- The key of offset `o` of deck core `d`'s SRAM. -/
def deckKey (d o : Nat) : Nat := 2 ^ 41 + d * 2 ^ 23 + o

/-- The key of offset `o` of the MSS SRAM. -/
def mssKey (o : Nat) : Nat := 2 ^ 42 + o

/-- Bytes in a slice: 192 MiB (R204). -/
abbrev sliceBytes : Nat := 0xC000000

/-- What a core's address reaches (R229). -/
inductive Place where
  /-- Normal memory, with its key. -/
  | normal (key : Nat)
  /-- Boot ROM: 0 of the stream and deck cores, 1 of the MSS, and the offset. -/
  | rom (which off : Nat)
  /-- A register page, by its BAR0 offset. -/
  | device (off : Nat)
  | none
  deriving DecidableEq, Repr

/-- The address map of a core: 0 to 31 stream cores, 32 to 35 deck cores, 36 the MSS (R227, R229). `pages` says whether the
core kind may reach a page at that BAR0 offset. -/
def placeOf (core : Nat) (mainOn : Bool) (pages : Nat → Bool) (a : Nat) : Place :=
  if 2 ^ 48 ≤ a then .none
  else if a < sliceBytes then (if core < 32 then .normal (sliceKey core a) else .none)
  else if 0x10000000 ≤ a ∧ a < 0x10800000 then
    if core < 32 then .none
    else if core < 36 then .normal (deckKey (core - 32) (a - 0x10000000))
    else if a < 0x10200000 then .normal (mssKey (a - 0x10000000)) else .none
  else if 0xFFFC0000 ≤ a ∧ a ≤ 0xFFFFFFFF then .rom (if core = 36 then 1 else 0) (a - 0xFFFC0000)
  else if 0x010000000000 ≤ a ∧ a ≤ 0x01FFFFFFFFFF then
    if core = 36 ∧ ¬ mainOn then .none else .normal (dramKey (a - 0x010000000000))
  else if 0x020000000000 ≤ a ∧ a ≤ 0x020003FFFFFF then
    if pages (a - 0x020000000000) then .device (a - 0x020000000000) else .none
  else .none

/-- A byte of a boot ROM: fixed, and not given by the manual. -/
opaque romByte : Nat → Nat → Byte

end Sys2Proof.Machine
end

