-- ==== Sys2Proof/Machine/RegTable.lean ====
section
/-! DEFINITION. The register map: every register of every page with its fields, access types and cold-reset values, as
the field tables of the chapters give them (R8, R10, R84), and the global page map (R94). Reserved fields are the bits no
row lists. Resets that differ by instance are in `instReset` (Machine/Registers.lean). -/

namespace Sys2Proof.Machine

abbrev R.GLB.BLK_CAP0 : Nat := 0x8
abbrev R.GLB.PENNANT : Nat := 0x18
abbrev R.GLB.DRV_ABI : Nat := 0x40
abbrev R.GLB.ABI_AGREED : Nat := 0x400
abbrev R.GLB.BAD_ACCESS : Nat := 0x404
abbrev R.TICK.BLK_CAP0 : Nat := 0x8
abbrev R.TICK.PENNANT : Nat := 0x18
abbrev R.TICK.HALYARD_CTL : Nat := 0x40
abbrev R.TICK.HALYARD_CTL2 : Nat := 0x44
abbrev R.TICK.HALYARD_FIRE : Nat := 0x48
abbrev R.TICK.HALYARD_AT_LO : Nat := 0x50
abbrev R.TICK.HALYARD_AT_HI : Nat := 0x54
abbrev R.TICK.PTP_CFG : Nat := 0x60
abbrev R.TICK.COUNT_LO : Nat := 0x400
abbrev R.TICK.COUNT_HI : Nat := 0x404
abbrev R.TICK.SRC_STAT : Nat := 0x408
abbrev R.TICK.PHASE_ERR : Nat := 0x40c
abbrev R.TICK.HAL_STAT : Nat := 0x410
abbrev R.TICK.TILE_OVR : Nat := 0x500
abbrev R.TICK.TILE_CARRY : Nat := 0x580
abbrev R.TICK.PERIOD : Nat := 0x800
abbrev R.TICK.PERIOD_AT_LO : Nat := 0x804
abbrev R.TICK.PERIOD_AT_HI : Nat := 0x808
abbrev R.TICK.SRC_PRI : Nat := 0x80c
abbrev R.TICK.ORIGIN_LO : Nat := 0x810
abbrev R.TICK.ORIGIN_HI : Nat := 0x814
abbrev R.MSS.BLK_CAP0 : Nat := 0x8
abbrev R.MSS.PENNANT : Nat := 0x18
abbrev R.MSS.LOG_SEL_LO : Nat := 0x40
abbrev R.MSS.LOG_SEL_HI : Nat := 0x44
abbrev R.MSS.SPLICE_AT_LO : Nat := 0x48
abbrev R.MSS.SPLICE_AT_HI : Nat := 0x4c
abbrev R.MSS.WITNESS_CFG : Nat := 0x50
abbrev R.MSS.SENSOR_SEL : Nat := 0x54
abbrev R.MSS.FW_VER : Nat := 0x400
abbrev R.MSS.FW_SVN : Nat := 0x404
abbrev R.MSS.SVN_FLOOR : Nat := 0x408
abbrev R.MSS.BOOT_STAT : Nat := 0x40c
abbrev R.MSS.BOOT_COUNT : Nat := 0x410
abbrev R.MSS.UNIT_ID_LO : Nat := 0x414
abbrev R.MSS.UNIT_ID_HI : Nat := 0x418
abbrev R.MSS.ALERT_STAT : Nat := 0x41c
abbrev R.MSS.LOG_NEWEST_LO : Nat := 0x420
abbrev R.MSS.LOG_NEWEST_HI : Nat := 0x424
abbrev R.MSS.SPLICE_STAT : Nat := 0x428
abbrev R.MSS.SENSOR_VAL : Nat := 0x42c
abbrev R.MSS.LOG_DATA : Nat := 0x440
abbrev R.PWR.BLK_CAP0 : Nat := 0x8
abbrev R.PWR.PENNANT : Nat := 0x18
abbrev R.PWR.IN_STAT : Nat := 0x400
abbrev R.PWR.AUX_STAT : Nat := 0x404
abbrev R.PWR.IN_POWER : Nat := 0x408
abbrev R.PWR.CAP_STAT : Nat := 0x40c
abbrev R.PWR.THERM_STAT : Nat := 0x410
abbrev R.PWR.STRETCH_ACTIVE : Nat := 0x420
abbrev R.PWR.STRETCH_CYC : Nat := 0x600
abbrev R.PWR.CAP_HOST : Nat := 0x800
abbrev R.PWR.CAP_MGMT : Nat := 0x804
abbrev R.PWR.DROOP_THR : Nat := 0x900
abbrev R.FEED.BLK_CAP0 : Nat := 0x8
abbrev R.FEED.PENNANT : Nat := 0x18
abbrev R.FEED.CFG : Nat := 0x40
abbrev R.FEED.WIN_IDX : Nat := 0x44
abbrev R.FEED.SNAP_PORT : Nat := 0x48
abbrev R.FEED.COUNT : Nat := 0x400
abbrev R.FEED.WIN_ACT : Nat := 0x480
abbrev R.FEED.WIN_SH : Nat := 0x800
abbrev R.RMT.BLK_CAP0 : Nat := 0x8
abbrev R.RMT.BLK_CAP1 : Nat := 0xc
abbrev R.RMT.PENNANT : Nat := 0x18
abbrev R.RMT.CFG : Nat := 0x40
abbrev R.RMT.TIMERS : Nat := 0x44
abbrev R.RMT.STAGE : Nat := 0x48
abbrev R.RMT.KEY_IDX : Nat := 0x4c
abbrev R.RMT.COUNT : Nat := 0x400
abbrev R.RMT.STAGE_STAT : Nat := 0x440
abbrev R.RMT.QP_STAT : Nat := 0x444
abbrev R.RMT.KEY_ACT : Nat := 0x480
abbrev R.RMT.LIFE : Nat := 0x800
abbrev R.RMT.CC : Nat := 0x804
abbrev R.RMT.KEY_SH : Nat := 0x810
abbrev R.EGS.BLK_CAP0 : Nat := 0x8
abbrev R.EGS.BLK_CAP1 : Nat := 0xc
abbrev R.EGS.PENNANT : Nat := 0x18
abbrev R.EGS.SUB_IDX : Nat := 0x40
abbrev R.EGS.COUNT : Nat := 0x400
abbrev R.EGS.SUB_ACT0 : Nat := 0x480
abbrev R.EGS.SUB_SH0 : Nat := 0x800
abbrev R.EGS.SUB_ACT1 : Nat := 0x484
abbrev R.EGS.SUB_SH1 : Nat := 0x804
abbrev R.EGS.CLASS_SH : Nat := 0x810
abbrev R.EGS.PORT_SH : Nat := 0x830
abbrev R.EGS.GATE_CFG : Nat := 0x840
abbrev R.EGS.GATE_SH : Nat := 0x880
abbrev R.EGS.GATE_ACT : Nat := 0x500
abbrev R.EGS.GATE_STAT : Nat := 0x490
abbrev R.NVME.BLK_CAP0 : Nat := 0x8
abbrev R.NVME.BLK_CAP1 : Nat := 0xc
abbrev R.NVME.PENNANT : Nat := 0x18
abbrev R.NVME.SHARE_IDX : Nat := 0x40
abbrev R.NVME.COUNT : Nat := 0x400
abbrev R.NVME.SHARE_ACT : Nat := 0x480
abbrev R.NVME.SHARE_SH : Nat := 0x800
abbrev R.FTL.BLK_CAP0 : Nat := 0x8
abbrev R.FTL.BLK_CAP1 : Nat := 0xc
abbrev R.FTL.PENNANT : Nat := 0x18
abbrev R.FTL.CTL : Nat := 0x40
abbrev R.FTL.WL : Nat := 0x44
abbrev R.FTL.LAYOUT : Nat := 0x48
abbrev R.FTL.STAT : Nat := 0x400
abbrev R.FTL.CAP : Nat := 0x404
abbrev R.FTL.FREE : Nat := 0x408
abbrev R.FTL.COUNT : Nat := 0x410
abbrev R.CKPT.BLK_CAP0 : Nat := 0x8
abbrev R.CKPT.BLK_CAP1 : Nat := 0xc
abbrev R.CKPT.PENNANT : Nat := 0x18
abbrev R.CKPT.CFG : Nat := 0x40
abbrev R.CKPT.AREA : Nat := 0x44
abbrev R.CKPT.LIMITS : Nat := 0x48
abbrev R.CKPT.GROUP_STAT : Nat := 0x400
abbrev R.CKPT.GROUP_ID : Nat := 0x404
abbrev R.CKPT.LAST_COMMIT_LO : Nat := 0x408
abbrev R.CKPT.LAST_COMMIT_HI : Nat := 0x40c
abbrev R.CKPT.STAGE_STAT : Nat := 0x410
abbrev R.CKPT.AREA_STAT : Nat := 0x414
abbrev R.CKPT.PF0_WIN_BASE_LO : Nat := 0x418
abbrev R.CKPT.PF0_WIN_BASE_HI : Nat := 0x41c
abbrev R.CKPT.COUNT : Nat := 0x420
abbrev R.CKPT.SESS_STAT : Nat := 0x480
abbrev R.CKPT.LOST_MAP : Nat := 0x500
abbrev R.PAIR.BLK_CAP0 : Nat := 0x8
abbrev R.PAIR.PENNANT : Nat := 0x18
abbrev R.PAIR.CFG : Nat := 0x40
abbrev R.PAIR.REPLICA : Nat := 0x44
abbrev R.PAIR.STAT : Nat := 0x400
abbrev R.PAIR.PARTNER_ID_LO : Nat := 0x404
abbrev R.PAIR.PARTNER_ID_HI : Nat := 0x408
abbrev R.PAIR.LAST_ACK_LO : Nat := 0x40c
abbrev R.PAIR.LAST_ACK_HI : Nat := 0x410
abbrev R.PAIR.LEASE_OUT_LO : Nat := 0x414
abbrev R.PAIR.LEASE_OUT_HI : Nat := 0x418
abbrev R.PAIR.LEASE_IN : Nat := 0x41c
abbrev R.PAIR.COUNT : Nat := 0x420
abbrev R.PAIR.HAWSER_MAP_LO : Nat := 0x448
abbrev R.PAIR.HAWSER_MAP_HI : Nat := 0x44c
abbrev R.CIPH.BLK_CAP0 : Nat := 0x8
abbrev R.CIPH.BLK_CAP1 : Nat := 0xc
abbrev R.CIPH.PENNANT : Nat := 0x18
abbrev R.CIPH.CFG : Nat := 0x40
abbrev R.CIPH.SLOT_STAT : Nat := 0x400
abbrev R.CIPH.BOOT : Nat := 0x404
abbrev R.CIPH.COUNT : Nat := 0x410
abbrev R.CIPH.SHARE : Nat := 0x800
abbrev R.INTG.BLK_CAP0 : Nat := 0x8
abbrev R.INTG.BLK_CAP1 : Nat := 0xc
abbrev R.INTG.PENNANT : Nat := 0x18
abbrev R.INTG.STAT : Nat := 0x400
abbrev R.INTG.LST_STAT : Nat := 0x404
abbrev R.INTG.LAST_CYCLE : Nat := 0x408
abbrev R.INTG.SUSP_ID : Nat := 0x40c
abbrev R.INTG.SUSP_FROM_LO : Nat := 0x410
abbrev R.INTG.SUSP_FROM_HI : Nat := 0x414
abbrev R.INTG.SUSP_TO_LO : Nat := 0x418
abbrev R.INTG.SUSP_TO_HI : Nat := 0x41c
abbrev R.INTG.SUSP_SEQ : Nat := 0x420
abbrev R.INTG.LST_LAST : Nat := 0x424
abbrev R.INTG.MBIST_FAIL_UNIT : Nat := 0x428
abbrev R.INTG.MBIST_FAIL_ADDR : Nat := 0x42c
abbrev R.INTG.POST_STAT : Nat := 0x430
abbrev R.INTG.COUNT : Nat := 0x440
abbrev R.INTG.TILE_STAT : Nat := 0x480
abbrev R.INTG.TILE_PASS : Nat := 0x500
abbrev R.INTG.LST_CFG : Nat := 0x800
abbrev R.INTG.SCRUB_CFG : Nat := 0x804
abbrev R.PERF.BLK_CAP0 : Nat := 0x8
abbrev R.PERF.PENNANT : Nat := 0x18
abbrev R.PERF.TAG_CFG : Nat := 0x40
abbrev R.PERF.TAG_SEED : Nat := 0x44
abbrev R.PERF.RING_BASE_LO : Nat := 0x48
abbrev R.PERF.RING_BASE_HI : Nat := 0x4c
abbrev R.PERF.RING_CFG : Nat := 0x50
abbrev R.PERF.RING_CI : Nat := 0x54
abbrev R.PERF.PREC_CFG : Nat := 0x58
abbrev R.PERF.PREC_SEL : Nat := 0x5c
abbrev R.PERF.RING_PI : Nat := 0x400
abbrev R.PERF.RING_LOST : Nat := 0x404
abbrev R.PERF.PREC_FILL : Nat := 0x410
abbrev R.PERF.PREC_DATA : Nat := 0x420
abbrev R.PERF.GATE : Nat := 0x800
abbrev R.TILE.BLK_CAP0 : Nat := 0x8
abbrev R.TILE.BLK_CAP1 : Nat := 0xc
abbrev R.TILE.PENNANT : Nat := 0x18
abbrev R.TILE.CTX_STAT : Nat := 0x400
abbrev R.TILE.SEALED_LO : Nat := 0x404
abbrev R.TILE.SEALED_HI : Nat := 0x408
abbrev R.TILE.DROPPED : Nat := 0x40c
abbrev R.TILE.STALLS : Nat := 0x410
abbrev R.DEC.BLK_CAP0 : Nat := 0x8
abbrev R.DEC.BLK_CAP1 : Nat := 0xc
abbrev R.DEC.PENNANT : Nat := 0x18
abbrev R.DEC.POOL_CFG : Nat := 0x40
abbrev R.DEC.COUNT : Nat := 0x400
abbrev R.DEC.POOL_STAT : Nat := 0x440
abbrev R.SHP.BLK_CAP0 : Nat := 0x8
abbrev R.SHP.PENNANT : Nat := 0x18
abbrev R.SHP.COUNT : Nat := 0x400
abbrev R.SHP.PROFILE_MAP : Nat := 0x480
abbrev R.TEN.BLK_CAP0 : Nat := 0x8
abbrev R.TEN.BLK_CAP1 : Nat := 0xc
abbrev R.TEN.PENNANT : Nat := 0x18
abbrev R.TEN.COUNT : Nat := 0x400
abbrev R.TEN.GRAPH_MAP : Nat := 0x480
abbrev R.TEN.GRAPH_READY : Nat := 0x500
abbrev R.SRAMT.BLK_CAP0 : Nat := 0x8
abbrev R.SRAMT.BLK_CAP1 : Nat := 0xc
abbrev R.SRAMT.PENNANT : Nat := 0x18
abbrev R.SRAMT.PART0 : Nat := 0x40
abbrev R.SRAMT.PART1 : Nat := 0x44
abbrev R.SRAMT.CE_COUNT : Nat := 0x400
abbrev R.SRAMT.UE_COUNT : Nat := 0x404
abbrev R.SRAMT.UE_ADDR : Nat := 0x408
abbrev R.SRAMT.REGION_BASE : Nat := 0x410
abbrev R.SRAMT.SCRUB_STAT : Nat := 0x430
abbrev R.LINK.BLK_CAP0 : Nat := 0x8
abbrev R.LINK.PENNANT : Nat := 0x18
abbrev R.LINK.CTL : Nat := 0x40
abbrev R.LINK.PAT_CTL : Nat := 0x44
abbrev R.LINK.STAT : Nat := 0x400
abbrev R.LINK.VER : Nat := 0x404
abbrev R.LINK.PEER_ID_LO : Nat := 0x408
abbrev R.LINK.PEER_ID_HI : Nat := 0x40c
abbrev R.LINK.COUNT : Nat := 0x410
abbrev R.LINK.CFG : Nat := 0x800
abbrev R.ETH.BLK_CAP0 : Nat := 0x8
abbrev R.ETH.PENNANT : Nat := 0x18
abbrev R.ETH.ADDR_MAC_LO : Nat := 0x80
abbrev R.ETH.ADDR_MAC_HI : Nat := 0x84
abbrev R.ETH.ADDR_IPV4 : Nat := 0x88
abbrev R.ETH.ADDR_IPV6_0 : Nat := 0x8c
abbrev R.ETH.ADDR_IPV6_1 : Nat := 0x90
abbrev R.ETH.ADDR_IPV6_2 : Nat := 0x94
abbrev R.ETH.ADDR_IPV6_3 : Nat := 0x98
abbrev R.ETH.ADDR_NH_LO : Nat := 0x9c
abbrev R.ETH.ADDR_NH_HI : Nat := 0xa0
abbrev R.ETH.STAT : Nat := 0x400
abbrev R.ETH.COUNT : Nat := 0x410
abbrev R.ETH.CFG : Nat := 0x800
abbrev R.HOST.BLK_CAP0 : Nat := 0x8
abbrev R.HOST.BLK_CAP1 : Nat := 0xc
abbrev R.HOST.PENNANT : Nat := 0x18
abbrev R.HOST.LINK_STAT : Nat := 0x400
abbrev R.HOST.TAG_STAT : Nat := 0x404
abbrev R.HOST.COUNT : Nat := 0x410
abbrev R.HOST.ORPHAN_MAP : Nat := 0x480
abbrev R.FCH.BLK_CAP0 : Nat := 0x8
abbrev R.FCH.BLK_CAP1 : Nat := 0xc
abbrev R.FCH.PENNANT : Nat := 0x18
abbrev R.FCH.CFG : Nat := 0x40
abbrev R.FCH.STAT : Nat := 0x400
abbrev R.FCH.COUNT : Nat := 0x410
abbrev R.FCH.DIE_STAT : Nat := 0x480
abbrev R.MEMC.BLK_CAP0 : Nat := 0x8
abbrev R.MEMC.BLK_CAP1 : Nat := 0xc
abbrev R.MEMC.PENNANT : Nat := 0x18
abbrev R.MEMC.STAT : Nat := 0x400
abbrev R.MEMC.CE_COUNT : Nat := 0x404
abbrev R.MEMC.UE_COUNT : Nat := 0x408
abbrev R.MEMC.LINK_CE : Nat := 0x40c
abbrev R.MEMC.LINK_RETRY : Nat := 0x410
abbrev R.MEMC.RETRAINS : Nat := 0x414
abbrev R.MEMC.UE_ADDR_LO : Nat := 0x418
abbrev R.MEMC.UE_ADDR_HI : Nat := 0x41c
abbrev R.MEMC.SCRUB_STAT : Nat := 0x420
abbrev R.FUNC.SQ0_BASE_LO : Nat := 0x40
abbrev R.FUNC.SQ0_BASE_HI : Nat := 0x44
abbrev R.FUNC.CQ0_BASE_LO : Nat := 0x48
abbrev R.FUNC.CQ0_BASE_HI : Nat := 0x4c
abbrev R.FUNC.Q0_CFG : Nat := 0x50
abbrev R.FUNC.SQ_TAIL : Nat := 0x100
abbrev R.FUNC.CQ_HEAD : Nat := 0x104
abbrev R.FUNC.BLK_CAP0 : Nat := 0x8
abbrev R.FUNC.BLK_CAP1 : Nat := 0xc
abbrev R.FUNC.PENNANT : Nat := 0x18
abbrev R.FUNC.DRV_ABI : Nat := 0x60
abbrev R.FUNC.HEARTBEAT : Nat := 0x64
abbrev R.FUNC.HB_CFG : Nat := 0x68
abbrev R.FUNC.ORPHAN_CTL : Nat := 0x6c
abbrev R.FUNC.ABI_AGREED : Nat := 0x400
abbrev R.FUNC.ORPHAN_STAT : Nat := 0x404
abbrev R.FUNC.ORPHAN_TICK_LO : Nat := 0x408
abbrev R.FUNC.ORPHAN_TICK_HI : Nat := 0x40c
abbrev R.FUNC.HELD : Nat := 0x410
abbrev R.FUNC.RES_QP : Nat := 0x414
abbrev R.FUNC.RES_SUB : Nat := 0x418
abbrev R.FUNC.RES_WIN : Nat := 0x41c
abbrev R.FUNC.RES_SVC : Nat := 0x420
abbrev R.FUNC.DIRTY_STAT : Nat := 0x424
abbrev R.FUNC.DMA_STAT : Nat := 0x428

/-- The header registers every page has (R84 to R90), the snapshot header (R83) and the performance counter bank. The
PENNANT, PENNANT_EN and PENNANT_FORCE rows are made from the block's own PENNANT row. -/
def commonRows : List RegRow := [
  ⟨"BLK_ID", 0x000, 0, 1, [⟨31, 0, .ro, 0⟩]⟩,
  ⟨"BLK_VER", 0x004, 0, 1, [⟨31, 24, .ro, 1⟩, ⟨23, 16, .ro, 1⟩, ⟨15, 8, .ro, 0⟩]⟩,
  ⟨"BLK_CTL", 0x010, 0, 1, [⟨17, 16, .rw, 2⟩, ⟨4, 4, .rw, 0⟩, ⟨2, 2, .wo, 0⟩, ⟨1, 1, .rw, 0⟩, ⟨0, 0, .rw, 0⟩]⟩,
  ⟨"BLK_STAT", 0x014, 0, 1, [⟨31, 16, .ro, 0⟩, ⟨7, 0, .ro, 0⟩]⟩,
  ⟨"ERR_INFO", 0x024, 0, 1, [⟨31, 31, .w1c, 0⟩, ⟨23, 16, .ro, 0⟩, ⟨15, 0, .ro, 0⟩]⟩,
  ⟨"BLK_COMMIT", 0x028, 0, 1, [⟨0, 0, .w1s, 0⟩]⟩,
  ⟨"COMMIT_TICK", 0x02c, 0, 1, [⟨31, 0, .ro, 0⟩]⟩,
  ⟨"SNAP_STAT", 0xc00, 0, 1, [⟨31, 31, .w1c, 0⟩, ⟨30, 30, .ro, 0⟩, ⟨29, 26, .ro, 0⟩, ⟨15, 0, .ro, 0⟩]⟩,
  ⟨"SNAP", 0xc04, 4, 8, [⟨31, 0, .ro, 0⟩]⟩,
  ⟨"SNAP_BLOCK", 0xc40, 4, 176, [⟨31, 0, .ro, 0⟩]⟩,
  ⟨"PC_CTL", 0xf00, 4, 8, [⟨31, 31, .rw, 0⟩, ⟨30, 30, .rw, 0⟩, ⟨29, 29, .wo, 0⟩, ⟨23, 16, .rw, 0xff⟩, ⟨15, 0, .rw, 0⟩]⟩,
  ⟨"PC_VAL_LO", 0xf20, 8, 8, [⟨31, 0, .ro, 0⟩]⟩,
  ⟨"PC_VAL_HI", 0xf24, 8, 8, [⟨15, 0, .ro, 0⟩]⟩,
  ⟨"PC_OVF", 0xf60, 0, 1, [⟨7, 0, .w1c, 0⟩]⟩,
  ⟨"PC_STAMP_LO", 0xf64, 0, 1, [⟨31, 0, .ro, 0⟩]⟩,
  ⟨"PC_STAMP_OFS", 0xf68, 0, 1, [⟨31, 0, .ro, 0⟩]⟩]

abbrev R.BLK_ID : Nat := 0x000
abbrev R.BLK_VER : Nat := 0x004
abbrev R.BLK_CAP0 : Nat := 0x008
abbrev R.BLK_CAP1 : Nat := 0x00c
abbrev R.BLK_CTL : Nat := 0x010
abbrev R.BLK_STAT : Nat := 0x014
abbrev R.PENNANT : Nat := 0x018
abbrev R.PENNANT_EN : Nat := 0x01c
abbrev R.PENNANT_FORCE : Nat := 0x020
abbrev R.ERR_INFO : Nat := 0x024
abbrev R.BLK_COMMIT : Nat := 0x028
abbrev R.COMMIT_TICK : Nat := 0x02c
abbrev R.SNAP_STAT : Nat := 0xc00
abbrev R.PC_CTL : Nat := 0xf00
abbrev R.PC_VAL_LO : Nat := 0xf20
abbrev R.PC_VAL_HI : Nat := 0xf24
abbrev R.PC_OVF : Nat := 0xf60
abbrev R.PC_STAMP_LO : Nat := 0xf64
abbrev R.PC_STAMP_OFS : Nat := 0xf68

/-- The GLB page's own registers (chapter 03). -/
def rowsGLB : List RegRow := [
  ⟨"BLK_CAP0", 0x8, 0, 1, [⟨31, 28, .ro, 0⟩]⟩,
  ⟨"PENNANT", 0x18, 0, 1, [⟨1, 1, .w1c, 0⟩, ⟨0, 0, .w1c, 0⟩]⟩,
  ⟨"DRV_ABI", 0x40, 0, 1, [⟨31, 16, .rw, 0⟩, ⟨15, 0, .rw, 0⟩]⟩,
  ⟨"ABI_AGREED", 0x400, 0, 1, [⟨31, 31, .ro, 0⟩, ⟨30, 30, .ro, 0⟩, ⟨15, 0, .ro, 0⟩]⟩,
  ⟨"BAD_ACCESS", 0x404, 0, 1, [⟨31, 31, .ro, 0⟩, ⟨25, 0, .ro, 0⟩]⟩]

/-- The TICK page's own registers (chapter 02). -/
def rowsTICK : List RegRow := [
  ⟨"BLK_CAP0", 0x8, 0, 1, [⟨31, 28, .ro, 1⟩]⟩,
  ⟨"PENNANT", 0x18, 0, 1, [⟨9, 9, .w1c, 0⟩, ⟨8, 8, .w1c, 0⟩, ⟨7, 7, .w1c, 0⟩, ⟨6, 6, .w1c, 0⟩, ⟨5, 5, .w1c, 0⟩, ⟨4, 4, .w1c, 0⟩, ⟨3, 3, .w1c, 0⟩, ⟨2, 2, .w1c, 0⟩, ⟨1, 1, .w1c, 0⟩, ⟨0, 0, .w1c, 0⟩]⟩,
  ⟨"HALYARD_CTL", 0x40, 0, 1, [⟨9, 4, .rw, 0⟩, ⟨3, 3, .rw, 0⟩, ⟨2, 2, .rw, 0⟩, ⟨1, 1, .rw, 0⟩, ⟨0, 0, .rw, 0⟩]⟩,
  ⟨"HALYARD_CTL2", 0x44, 0, 1, [⟨0, 0, .rw, 1⟩]⟩,
  ⟨"HALYARD_FIRE", 0x48, 0, 1, [⟨0, 0, .wo, 0⟩]⟩,
  ⟨"HALYARD_AT_LO", 0x50, 0, 1, [⟨31, 0, .rw, 0⟩]⟩,
  ⟨"HALYARD_AT_HI", 0x54, 0, 1, [⟨31, 0, .rw, 0⟩]⟩,
  ⟨"PTP_CFG", 0x60, 0, 1, [⟨31, 24, .rw, 0⟩, ⟨23, 16, .rw, 0⟩, ⟨5, 5, .rw, 1⟩, ⟨4, 4, .rw, 0⟩, ⟨3, 2, .rw, 0⟩, ⟨1, 0, .rw, 0⟩]⟩,
  ⟨"COUNT_LO", 0x400, 0, 1, [⟨31, 0, .ro, 0⟩]⟩,
  ⟨"COUNT_HI", 0x404, 0, 1, [⟨31, 0, .ro, 0⟩]⟩,
  ⟨"SRC_STAT", 0x408, 0, 1, [⟨31, 16, .ro, 0⟩, ⟨8, 8, .ro, 0⟩, ⟨7, 4, .ro, 1⟩, ⟨1, 0, .ro, 0⟩]⟩,
  ⟨"PHASE_ERR", 0x40c, 0, 1, [⟨31, 0, .ro, 0⟩]⟩,
  ⟨"HAL_STAT", 0x410, 0, 1, [⟨31, 16, .ro, 0⟩, ⟨15, 0, .ro, 0⟩]⟩,
  ⟨"TILE_OVR", 0x500, 4, 32, [⟨31, 0, .ro, 0⟩]⟩,
  ⟨"TILE_CARRY", 0x580, 4, 32, [⟨31, 0, .ro, 0⟩]⟩,
  ⟨"PERIOD", 0x800, 0, 1, [⟨22, 16, .rws, 90⟩, ⟨12, 0, .rws, 250⟩]⟩,
  ⟨"PERIOD_AT_LO", 0x804, 0, 1, [⟨31, 0, .rws, 0⟩]⟩,
  ⟨"PERIOD_AT_HI", 0x808, 0, 1, [⟨31, 0, .rws, 0⟩]⟩,
  ⟨"SRC_PRI", 0x80c, 0, 1, [⟨16, 16, .rws, 0⟩, ⟨15, 12, .rws, 15⟩, ⟨11, 8, .rws, 15⟩, ⟨7, 4, .rws, 15⟩, ⟨3, 0, .rws, 15⟩]⟩,
  ⟨"ORIGIN_LO", 0x810, 0, 1, [⟨31, 0, .rws, 0⟩]⟩,
  ⟨"ORIGIN_HI", 0x814, 0, 1, [⟨15, 0, .rws, 0⟩]⟩]

/-- The MSS page's own registers (chapter 17). -/
def rowsMSS : List RegRow := [
  ⟨"BLK_CAP0", 0x8, 0, 1, [⟨31, 28, .ro, 2⟩]⟩,
  ⟨"PENNANT", 0x18, 0, 1, [⟨8, 8, .w1c, 0⟩, ⟨7, 7, .w1c, 0⟩, ⟨6, 6, .w1c, 0⟩, ⟨5, 5, .w1c, 0⟩, ⟨4, 4, .w1c, 0⟩, ⟨3, 3, .w1c, 0⟩, ⟨2, 2, .w1c, 0⟩, ⟨1, 1, .w1c, 0⟩, ⟨0, 0, .w1c, 0⟩]⟩,
  ⟨"LOG_SEL_LO", 0x40, 0, 1, [⟨31, 0, .rw, 0⟩]⟩,
  ⟨"LOG_SEL_HI", 0x44, 0, 1, [⟨31, 0, .rw, 0⟩]⟩,
  ⟨"SPLICE_AT_LO", 0x48, 0, 1, [⟨31, 0, .rw, 0⟩]⟩,
  ⟨"SPLICE_AT_HI", 0x4c, 0, 1, [⟨31, 0, .rw, 0⟩]⟩,
  ⟨"WITNESS_CFG", 0x50, 0, 1, [⟨31, 31, .rw, 0⟩, ⟨30, 30, .rw, 0⟩, ⟨7, 0, .rw, 0⟩]⟩,
  ⟨"SENSOR_SEL", 0x54, 0, 1, [⟨7, 0, .rw, 0⟩]⟩,
  ⟨"FW_VER", 0x400, 0, 1, [⟨31, 0, .ro, 0⟩]⟩,
  ⟨"FW_SVN", 0x404, 0, 1, [⟨31, 0, .ro, 0⟩]⟩,
  ⟨"SVN_FLOOR", 0x408, 0, 1, [⟨31, 0, .ro, 0⟩]⟩,
  ⟨"BOOT_STAT", 0x40c, 0, 1, [⟨4, 4, .ro, 0⟩, ⟨3, 3, .ro, 0⟩, ⟨2, 2, .ro, 0⟩, ⟨1, 0, .ro, 0⟩]⟩,
  ⟨"BOOT_COUNT", 0x410, 0, 1, [⟨31, 0, .ro, 0⟩]⟩,
  ⟨"UNIT_ID_LO", 0x414, 0, 1, [⟨31, 0, .ro, 0⟩]⟩,
  ⟨"UNIT_ID_HI", 0x418, 0, 1, [⟨31, 0, .ro, 0⟩]⟩,
  ⟨"ALERT_STAT", 0x41c, 0, 1, [⟨6, 6, .ro, 0⟩, ⟨5, 5, .ro, 0⟩, ⟨4, 4, .ro, 0⟩, ⟨3, 3, .ro, 0⟩, ⟨2, 2, .ro, 0⟩, ⟨1, 1, .ro, 0⟩, ⟨0, 0, .ro, 0⟩]⟩,
  ⟨"LOG_NEWEST_LO", 0x420, 0, 1, [⟨31, 0, .ro, 0⟩]⟩,
  ⟨"LOG_NEWEST_HI", 0x424, 0, 1, [⟨31, 0, .ro, 0⟩]⟩,
  ⟨"SPLICE_STAT", 0x428, 0, 1, [⟨31, 24, .ro, 0⟩, ⟨23, 16, .ro, 0⟩, ⟨15, 8, .ro, 0⟩, ⟨7, 0, .ro, 0⟩]⟩,
  ⟨"SENSOR_VAL", 0x42c, 0, 1, [⟨31, 31, .ro, 0⟩, ⟨23, 0, .ro, 0⟩]⟩,
  ⟨"LOG_DATA", 0x440, 4, 16, [⟨31, 0, .ro, 0⟩]⟩]

/-- The PWR page's own registers (chapter 01). -/
def rowsPWR : List RegRow := [
  ⟨"BLK_CAP0", 0x8, 0, 1, [⟨31, 28, .ro, 1⟩]⟩,
  ⟨"PENNANT", 0x18, 0, 1, [⟨10, 10, .w1c, 0⟩, ⟨9, 9, .w1c, 0⟩, ⟨8, 8, .w1c, 0⟩, ⟨7, 7, .w1c, 0⟩, ⟨6, 6, .w1c, 0⟩, ⟨5, 5, .w1c, 0⟩, ⟨4, 4, .w1c, 0⟩, ⟨3, 3, .w1c, 0⟩, ⟨2, 2, .w1c, 0⟩, ⟨1, 1, .w1c, 0⟩, ⟨0, 0, .w1c, 0⟩]⟩,
  ⟨"IN_STAT", 0x400, 0, 1, [⟨17, 16, .ro, 0⟩, ⟨15, 0, .ro, 0⟩]⟩,
  ⟨"AUX_STAT", 0x404, 0, 1, [⟨15, 0, .ro, 0⟩]⟩,
  ⟨"IN_POWER", 0x408, 0, 1, [⟨31, 16, .ro, 0⟩, ⟨15, 0, .ro, 0⟩]⟩,
  ⟨"CAP_STAT", 0x40c, 0, 1, [⟨23, 20, .ro, 0⟩, ⟨19, 19, .ro, 0⟩, ⟨18, 16, .ro, 0⟩, ⟨15, 0, .ro, 600⟩]⟩,
  ⟨"THERM_STAT", 0x410, 0, 1, [⟨9, 8, .ro, 0⟩, ⟨7, 0, .ro, 0⟩]⟩,
  ⟨"STRETCH_ACTIVE", 0x420, 0, 1, [⟨31, 0, .ro, 0⟩]⟩,
  ⟨"STRETCH_CYC", 0x600, 4, 32, [⟨31, 0, .ro, 0⟩]⟩,
  ⟨"CAP_HOST", 0x800, 0, 1, [⟨19, 16, .rws, 10⟩, ⟨15, 0, .rws, 600⟩]⟩,
  ⟨"CAP_MGMT", 0x804, 0, 1, [⟨19, 16, .ro, 10⟩, ⟨15, 0, .ro, 600⟩]⟩,
  ⟨"DROOP_THR", 0x900, 4, 8, [⟨31, 24, .rws, 10⟩, ⟨23, 16, .rws, 10⟩, ⟨15, 8, .rws, 10⟩, ⟨7, 0, .rws, 10⟩]⟩]

/-- The FEED page's own registers (chapter 08). -/
def rowsFEED : List RegRow := [
  ⟨"BLK_CAP0", 0x8, 0, 1, [⟨31, 28, .ro, 7⟩, ⟨15, 8, .ro, 32⟩, ⟨7, 0, .ro, 16⟩]⟩,
  ⟨"PENNANT", 0x18, 0, 1, [⟨4, 4, .w1c, 0⟩, ⟨3, 3, .w1c, 0⟩, ⟨2, 2, .w1c, 0⟩, ⟨1, 1, .w1c, 0⟩, ⟨0, 0, .w1c, 0⟩]⟩,
  ⟨"CFG", 0x40, 0, 1, [⟨31, 16, .rw, 4000⟩, ⟨15, 0, .rw, 1000⟩]⟩,
  ⟨"WIN_IDX", 0x44, 0, 1, [⟨8, 0, .rw, 0⟩]⟩,
  ⟨"SNAP_PORT", 0x48, 0, 1, [⟨4, 0, .rw, 0⟩]⟩,
  ⟨"COUNT", 0x400, 4, 14, [⟨31, 0, .ro, 0⟩]⟩,
  ⟨"WIN_ACT", 0x480, 4, 8, [⟨31, 0, .ro, 0⟩]⟩,
  ⟨"WIN_SH", 0x800, 4, 8, [⟨31, 0, .rws, 0⟩]⟩]

/-- The RMT page's own registers (chapter 09). -/
def rowsRMT : List RegRow := [
  ⟨"BLK_CAP0", 0x8, 0, 1, [⟨31, 28, .ro, 15⟩, ⟨23, 0, .ro, 16384⟩]⟩,
  ⟨"BLK_CAP1", 0xc, 0, 1, [⟨15, 0, .ro, 4096⟩]⟩,
  ⟨"PENNANT", 0x18, 0, 1, [⟨6, 6, .w1c, 0⟩, ⟨5, 5, .w1c, 0⟩, ⟨4, 4, .w1c, 0⟩, ⟨3, 3, .w1c, 0⟩, ⟨2, 2, .w1c, 0⟩, ⟨1, 1, .w1c, 0⟩, ⟨0, 0, .w1c, 0⟩]⟩,
  ⟨"CFG", 0x40, 0, 1, [⟨31, 16, .rwl, 17732⟩, ⟨15, 8, .rwl, 16⟩]⟩,
  ⟨"TIMERS", 0x44, 0, 1, [⟨31, 16, .rw, 200⟩, ⟨15, 12, .rw, 7⟩, ⟨11, 8, .rw, 7⟩, ⟨7, 0, .rw, 10⟩]⟩,
  ⟨"STAGE", 0x48, 0, 1, [⟨14, 0, .rwl, 4096⟩]⟩,
  ⟨"KEY_IDX", 0x4c, 0, 1, [⟨11, 0, .rw, 0⟩]⟩,
  ⟨"COUNT", 0x400, 4, 16, [⟨31, 0, .ro, 0⟩]⟩,
  ⟨"STAGE_STAT", 0x440, 0, 1, [⟨14, 0, .ro, 0⟩]⟩,
  ⟨"QP_STAT", 0x444, 0, 1, [⟨31, 16, .ro, 0⟩, ⟨15, 0, .ro, 0⟩]⟩,
  ⟨"KEY_ACT", 0x480, 4, 8, [⟨31, 0, .ro, 0⟩]⟩,
  ⟨"LIFE", 0x800, 0, 1, [⟨13, 0, .rws, 16000⟩]⟩,
  ⟨"CC", 0x804, 0, 1, [⟨31, 24, .rws, 64⟩, ⟨23, 16, .rws, 4⟩, ⟨15, 0, .rws, 10⟩]⟩,
  ⟨"KEY_SH", 0x810, 4, 8, [⟨31, 0, .rws, 0⟩]⟩]

/-- The EGS page's own registers (chapter 09). -/
def rowsEGS : List RegRow := [
  ⟨"BLK_CAP0", 0x8, 0, 1, [⟨31, 28, .ro, 15⟩, ⟨15, 0, .ro, 1024⟩]⟩,
  ⟨"BLK_CAP1", 0xc, 0, 1, [⟨15, 8, .ro, 8⟩, ⟨7, 0, .ro, 16⟩]⟩,
  ⟨"PENNANT", 0x18, 0, 1, [⟨2, 2, .w1c, 0⟩, ⟨1, 1, .w1c, 0⟩, ⟨0, 0, .w1c, 0⟩]⟩,
  ⟨"SUB_IDX", 0x40, 0, 1, [⟨9, 0, .rw, 0⟩]⟩,
  ⟨"COUNT", 0x400, 4, 4, [⟨31, 0, .ro, 0⟩]⟩,
  ⟨"SUB_ACT0", 0x480, 0, 1, [⟨31, 16, .ro, 0⟩, ⟨15, 12, .ro, 0⟩, ⟨11, 0, .ro, 1⟩]⟩,
  ⟨"SUB_SH0", 0x800, 0, 1, [⟨31, 16, .rws, 0⟩, ⟨11, 0, .rws, 1⟩]⟩,
  ⟨"SUB_ACT1", 0x484, 0, 1, [⟨31, 16, .ro, 0⟩, ⟨15, 0, .ro, 256⟩]⟩,
  ⟨"SUB_SH1", 0x804, 0, 1, [⟨31, 16, .rws, 0⟩, ⟨15, 0, .rws, 256⟩]⟩,
  ⟨"CLASS_SH", 0x810, 0, 1, [⟨31, 26, .rws, 0⟩, ⟨25, 23, .rws, 0⟩, ⟨22, 22, .rws, 0⟩, ⟨21, 20, .rws, 2⟩, ⟨15, 8, .rws, 1⟩, ⟨7, 0, .rws, 64⟩]⟩,
  ⟨"CLASS_SH", 0x814, 0, 1, [⟨31, 26, .rws, 0⟩, ⟨25, 23, .rws, 1⟩, ⟨22, 22, .rws, 0⟩, ⟨21, 20, .rws, 2⟩, ⟨15, 8, .rws, 1⟩, ⟨7, 0, .rws, 64⟩]⟩,
  ⟨"CLASS_SH", 0x818, 0, 1, [⟨31, 26, .rws, 0⟩, ⟨25, 23, .rws, 2⟩, ⟨22, 22, .rws, 0⟩, ⟨21, 20, .rws, 2⟩, ⟨15, 8, .rws, 1⟩, ⟨7, 0, .rws, 64⟩]⟩,
  ⟨"CLASS_SH", 0x81c, 0, 1, [⟨31, 26, .rws, 0⟩, ⟨25, 23, .rws, 3⟩, ⟨22, 22, .rws, 0⟩, ⟨21, 20, .rws, 2⟩, ⟨15, 8, .rws, 1⟩, ⟨7, 0, .rws, 64⟩]⟩,
  ⟨"CLASS_SH", 0x820, 0, 1, [⟨31, 26, .rws, 0⟩, ⟨25, 23, .rws, 4⟩, ⟨22, 22, .rws, 0⟩, ⟨21, 20, .rws, 2⟩, ⟨15, 8, .rws, 1⟩, ⟨7, 0, .rws, 64⟩]⟩,
  ⟨"CLASS_SH", 0x824, 0, 1, [⟨31, 26, .rws, 0⟩, ⟨25, 23, .rws, 5⟩, ⟨22, 22, .rws, 0⟩, ⟨21, 20, .rws, 2⟩, ⟨15, 8, .rws, 1⟩, ⟨7, 0, .rws, 64⟩]⟩,
  ⟨"CLASS_SH", 0x828, 0, 1, [⟨31, 26, .rws, 0⟩, ⟨25, 23, .rws, 6⟩, ⟨22, 22, .rws, 0⟩, ⟨21, 20, .rws, 2⟩, ⟨15, 8, .rws, 1⟩, ⟨7, 0, .rws, 64⟩]⟩,
  ⟨"CLASS_SH", 0x82c, 0, 1, [⟨31, 26, .rws, 0⟩, ⟨25, 23, .rws, 7⟩, ⟨22, 22, .rws, 0⟩, ⟨21, 20, .rws, 2⟩, ⟨15, 8, .rws, 1⟩, ⟨7, 0, .rws, 64⟩]⟩,
  ⟨"PORT_SH", 0x830, 4, 4, [⟨6, 0, .rws, 100⟩]⟩,
  ⟨"GATE_CFG", 0x840, 0, 1, [⟨19, 0, .rws, 0⟩]⟩,
  ⟨"GATE_SH", 0x880, 4, 64, [⟨31, 24, .rws, 255⟩, ⟨21, 0, .rws, 0⟩]⟩,
  ⟨"GATE_ACT", 0x500, 4, 64, [⟨31, 24, .ro, 255⟩, ⟨21, 0, .ro, 0⟩]⟩,
  ⟨"GATE_STAT", 0x490, 0, 1, [⟨19, 0, .ro, 0⟩]⟩]

/-- The NVME page's own registers (chapter 11). -/
def rowsNVME : List RegRow := [
  ⟨"BLK_CAP0", 0x8, 0, 1, [⟨31, 28, .ro, 1⟩, ⟨11, 0, .ro, 1012⟩]⟩,
  ⟨"BLK_CAP1", 0xc, 0, 1, [⟨15, 0, .ro, 256⟩]⟩,
  ⟨"PENNANT", 0x18, 0, 1, [⟨3, 3, .w1c, 0⟩, ⟨2, 2, .w1c, 0⟩, ⟨1, 1, .w1c, 0⟩, ⟨0, 0, .w1c, 0⟩]⟩,
  ⟨"SHARE_IDX", 0x40, 0, 1, [⟨11, 0, .rw, 0⟩]⟩,
  ⟨"COUNT", 0x400, 4, 6, [⟨31, 0, .ro, 0⟩]⟩,
  ⟨"SHARE_ACT", 0x480, 0, 1, [⟨31, 16, .ro, 0⟩, ⟨7, 0, .ro, 1⟩]⟩,
  ⟨"SHARE_SH", 0x800, 0, 1, [⟨31, 16, .rws, 0⟩, ⟨7, 0, .rws, 1⟩]⟩]

/-- The FTL page's own registers (chapter 12). -/
def rowsFTL : List RegRow := [
  ⟨"BLK_CAP0", 0x8, 0, 1, [⟨31, 28, .ro, 0⟩, ⟨10, 0, .ro, 1024⟩]⟩,
  ⟨"BLK_CAP1", 0xc, 0, 1, []⟩,
  ⟨"PENNANT", 0x18, 0, 1, [⟨8, 8, .w1c, 0⟩, ⟨7, 7, .w1c, 0⟩, ⟨6, 6, .w1c, 0⟩, ⟨5, 5, .w1c, 0⟩, ⟨4, 4, .w1c, 0⟩, ⟨3, 3, .w1c, 0⟩, ⟨2, 2, .w1c, 0⟩, ⟨1, 1, .w1c, 0⟩, ⟨0, 0, .w1c, 0⟩]⟩,
  ⟨"CTL", 0x40, 0, 1, [⟨31, 24, .rw, 20⟩, ⟨23, 8, .rw, 168⟩, ⟨7, 0, .rw, 72⟩]⟩,
  ⟨"WL", 0x44, 0, 1, [⟨15, 0, .rw, 200⟩]⟩,
  ⟨"LAYOUT", 0x48, 0, 1, [⟨23, 16, .rwl, 7⟩, ⟨15, 0, .rwl, 64⟩]⟩,
  ⟨"STAT", 0x400, 0, 1, [⟨31, 24, .ro, 0⟩, ⟨23, 16, .ro, 0⟩, ⟨15, 8, .ro, 0⟩, ⟨7, 0, .ro, 100⟩]⟩,
  ⟨"CAP", 0x404, 0, 1, [⟨31, 0, .ro, 0⟩]⟩,
  ⟨"FREE", 0x408, 0, 1, [⟨31, 0, .ro, 0⟩]⟩,
  ⟨"COUNT", 0x410, 4, 6, [⟨31, 0, .ro, 0⟩]⟩]

/-- The CKPT page's own registers (chapter 13). -/
def rowsCKPT : List RegRow := [
  ⟨"BLK_CAP0", 0x8, 0, 1, [⟨31, 28, .ro, 10⟩, ⟨10, 0, .ro, 1024⟩]⟩,
  ⟨"BLK_CAP1", 0xc, 0, 1, [⟨4, 0, .ro, 16⟩]⟩,
  ⟨"PENNANT", 0x18, 0, 1, [⟨7, 7, .w1c, 0⟩, ⟨6, 6, .w1c, 0⟩, ⟨5, 5, .w1c, 0⟩, ⟨4, 4, .w1c, 0⟩, ⟨3, 3, .w1c, 0⟩, ⟨2, 2, .w1c, 0⟩, ⟨1, 1, .w1c, 0⟩, ⟨0, 0, .w1c, 0⟩]⟩,
  ⟨"CFG", 0x40, 0, 1, [⟨31, 28, .rw, 2⟩, ⟨15, 0, .rwl, 128⟩]⟩,
  ⟨"AREA", 0x44, 0, 1, [⟨23, 0, .rwl, 4096⟩]⟩,
  ⟨"LIMITS", 0x48, 0, 1, [⟨31, 16, .rw, 900⟩, ⟨15, 0, .rw, 30000⟩]⟩,
  ⟨"GROUP_STAT", 0x400, 0, 1, [⟨31, 16, .ro, 0⟩, ⟨15, 0, .ro, 0⟩]⟩,
  ⟨"GROUP_ID", 0x404, 0, 1, [⟨31, 0, .ro, 0⟩]⟩,
  ⟨"LAST_COMMIT_LO", 0x408, 0, 1, [⟨31, 0, .ro, 0⟩]⟩,
  ⟨"LAST_COMMIT_HI", 0x40c, 0, 1, [⟨31, 0, .ro, 0⟩]⟩,
  ⟨"STAGE_STAT", 0x410, 0, 1, [⟨15, 0, .ro, 0⟩]⟩,
  ⟨"AREA_STAT", 0x414, 0, 1, [⟨23, 0, .ro, 0⟩]⟩,
  ⟨"PF0_WIN_BASE_LO", 0x418, 0, 1, [⟨31, 0, .ro, 0⟩]⟩,
  ⟨"PF0_WIN_BASE_HI", 0x41c, 0, 1, [⟨31, 0, .ro, 0⟩]⟩,
  ⟨"COUNT", 0x420, 4, 8, [⟨31, 0, .ro, 0⟩]⟩,
  ⟨"SESS_STAT", 0x480, 4, 16, [⟨31, 24, .ro, 0⟩, ⟨23, 16, .ro, 0⟩, ⟨15, 13, .ro, 0⟩, ⟨12, 0, .ro, 0⟩]⟩,
  ⟨"LOST_MAP", 0x500, 4, 32, [⟨31, 0, .ro, 0⟩]⟩]

/-- The PAIR page's own registers (chapter 14). -/
def rowsPAIR : List RegRow := [
  ⟨"BLK_CAP0", 0x8, 0, 1, [⟨31, 28, .ro, 10⟩]⟩,
  ⟨"PENNANT", 0x18, 0, 1, [⟨8, 8, .w1c, 0⟩, ⟨7, 7, .w1c, 0⟩, ⟨6, 6, .w1c, 0⟩, ⟨5, 5, .w1c, 0⟩, ⟨4, 4, .w1c, 0⟩, ⟨3, 3, .w1c, 0⟩, ⟨2, 2, .w1c, 0⟩, ⟨1, 1, .w1c, 0⟩, ⟨0, 0, .w1c, 0⟩]⟩,
  ⟨"CFG", 0x40, 0, 1, [⟨31, 24, .rw, 16⟩, ⟨23, 16, .rw, 8⟩, ⟨8, 0, .rw, 32⟩]⟩,
  ⟨"REPLICA", 0x44, 0, 1, [⟨15, 0, .rwl, 32⟩]⟩,
  ⟨"STAT", 0x400, 0, 1, [⟨31, 16, .ro, 0⟩, ⟨8, 8, .ro, 0⟩, ⟨7, 4, .ro, 0⟩, ⟨3, 3, .ro, 0⟩]⟩,
  ⟨"PARTNER_ID_LO", 0x404, 0, 1, [⟨31, 0, .ro, 0⟩]⟩,
  ⟨"PARTNER_ID_HI", 0x408, 0, 1, [⟨31, 0, .ro, 0⟩]⟩,
  ⟨"LAST_ACK_LO", 0x40c, 0, 1, [⟨31, 0, .ro, 0⟩]⟩,
  ⟨"LAST_ACK_HI", 0x410, 0, 1, [⟨31, 0, .ro, 0⟩]⟩,
  ⟨"LEASE_OUT_LO", 0x414, 0, 1, [⟨31, 0, .ro, 0⟩]⟩,
  ⟨"LEASE_OUT_HI", 0x418, 0, 1, [⟨31, 0, .ro, 0⟩]⟩,
  ⟨"LEASE_IN", 0x41c, 0, 1, [⟨31, 0, .ro, 0⟩]⟩,
  ⟨"COUNT", 0x420, 4, 10, [⟨31, 0, .ro, 0⟩]⟩,
  ⟨"HAWSER_MAP_LO", 0x448, 0, 1, [⟨31, 0, .ro, 0⟩]⟩,
  ⟨"HAWSER_MAP_HI", 0x44c, 0, 1, [⟨15, 0, .ro, 0⟩]⟩]

/-- The CIPH page's own registers (chapter 15). -/
def rowsCIPH : List RegRow := [
  ⟨"BLK_CAP0", 0x8, 0, 1, [⟨31, 28, .ro, 1⟩, ⟨9, 0, .ro, 1023⟩]⟩,
  ⟨"BLK_CAP1", 0xc, 0, 1, [⟨23, 16, .ro, 8⟩, ⟨15, 0, .ro, 4096⟩]⟩,
  ⟨"PENNANT", 0x18, 0, 1, [⟨4, 4, .w1c, 0⟩, ⟨3, 3, .w1c, 0⟩, ⟨2, 2, .w1c, 0⟩, ⟨1, 1, .w1c, 0⟩, ⟨0, 0, .w1c, 0⟩]⟩,
  ⟨"CFG", 0x40, 0, 1, [⟨11, 11, .rwl, 0⟩, ⟨10, 8, .rwl, 0⟩, ⟨0, 0, .rwl, 0⟩]⟩,
  ⟨"SLOT_STAT", 0x400, 0, 1, [⟨28, 16, .ro, 0⟩, ⟨12, 0, .ro, 0⟩]⟩,
  ⟨"BOOT", 0x404, 0, 1, [⟨31, 0, .ro, 0⟩]⟩,
  ⟨"COUNT", 0x410, 4, 7, [⟨31, 0, .ro, 0⟩]⟩,
  ⟨"SHARE", 0x800, 0, 1, [⟨15, 8, .rws, 1⟩, ⟨7, 0, .rws, 3⟩]⟩]

/-- The INTG page's own registers (chapter 16). -/
def rowsINTG : List RegRow := [
  ⟨"BLK_CAP0", 0x8, 0, 1, [⟨31, 28, .ro, 3⟩, ⟨15, 8, .ro, 64⟩, ⟨7, 0, .ro, 16⟩]⟩,
  ⟨"BLK_CAP1", 0xc, 0, 1, [⟨15, 0, .ro, 2128⟩]⟩,
  ⟨"PENNANT", 0x18, 0, 1, [⟨9, 9, .w1c, 0⟩, ⟨8, 8, .w1c, 0⟩, ⟨7, 7, .w1c, 0⟩, ⟨6, 6, .w1c, 0⟩, ⟨5, 5, .w1c, 0⟩, ⟨4, 4, .w1c, 0⟩, ⟨3, 3, .w1c, 0⟩, ⟨2, 2, .w1c, 0⟩, ⟨1, 1, .w1c, 0⟩, ⟨0, 0, .w1c, 0⟩]⟩,
  ⟨"STAT", 0x400, 0, 1, [⟨31, 31, .ro, 0⟩, ⟨5, 5, .ro, 0⟩, ⟨4, 4, .ro, 0⟩, ⟨3, 3, .ro, 0⟩, ⟨2, 2, .ro, 0⟩, ⟨1, 1, .ro, 0⟩, ⟨0, 0, .ro, 0⟩]⟩,
  ⟨"LST_STAT", 0x404, 0, 1, [⟨23, 16, .ro, 0⟩, ⟨15, 8, .ro, 0⟩, ⟨0, 0, .ro, 0⟩]⟩,
  ⟨"LAST_CYCLE", 0x408, 0, 1, [⟨31, 0, .ro, 0⟩]⟩,
  ⟨"SUSP_ID", 0x40c, 0, 1, [⟨31, 16, .ro, 0⟩, ⟨7, 0, .ro, 0⟩]⟩,
  ⟨"SUSP_FROM_LO", 0x410, 0, 1, [⟨31, 0, .ro, 0⟩]⟩,
  ⟨"SUSP_FROM_HI", 0x414, 0, 1, [⟨31, 0, .ro, 0⟩]⟩,
  ⟨"SUSP_TO_LO", 0x418, 0, 1, [⟨31, 0, .ro, 0⟩]⟩,
  ⟨"SUSP_TO_HI", 0x41c, 0, 1, [⟨31, 0, .ro, 0⟩]⟩,
  ⟨"SUSP_SEQ", 0x420, 0, 1, [⟨15, 0, .ro, 0⟩]⟩,
  ⟨"LST_LAST", 0x424, 0, 1, [⟨31, 24, .ro, 0⟩, ⟨23, 16, .ro, 0⟩]⟩,
  ⟨"MBIST_FAIL_UNIT", 0x428, 0, 1, [⟨31, 24, .ro, 0⟩, ⟨23, 16, .ro, 0⟩]⟩,
  ⟨"MBIST_FAIL_ADDR", 0x42c, 0, 1, [⟨31, 0, .ro, 0⟩]⟩,
  ⟨"POST_STAT", 0x430, 0, 1, [⟨31, 31, .ro, 0⟩, ⟨7, 0, .ro, 0⟩]⟩,
  ⟨"COUNT", 0x440, 4, 11, [⟨31, 0, .ro, 0⟩]⟩,
  ⟨"TILE_STAT", 0x480, 4, 32, [⟨31, 31, .ro, 0⟩, ⟨30, 28, .ro, 0⟩, ⟨15, 0, .ro, 0⟩]⟩,
  ⟨"TILE_PASS", 0x500, 4, 32, [⟨31, 0, .ro, 0⟩]⟩,
  ⟨"LST_CFG", 0x800, 0, 1, [⟨31, 31, .rws, 1⟩, ⟨15, 0, .rws, 700⟩]⟩,
  ⟨"SCRUB_CFG", 0x804, 0, 1, [⟨7, 0, .rws, 12⟩]⟩]

/-- The PERF page's own registers (chapter 18). -/
def rowsPERF : List RegRow := [
  ⟨"BLK_CAP0", 0x8, 0, 1, [⟨31, 28, .ro, 11⟩, ⟨7, 0, .ro, 48⟩]⟩,
  ⟨"PENNANT", 0x18, 0, 1, [⟨3, 3, .w1c, 0⟩, ⟨2, 2, .w1c, 0⟩, ⟨1, 1, .w1c, 0⟩, ⟨0, 0, .w1c, 0⟩]⟩,
  ⟨"TAG_CFG", 0x40, 0, 1, [⟨31, 29, .rw, 0⟩, ⟨4, 0, .rw, 16⟩]⟩,
  ⟨"TAG_SEED", 0x44, 0, 1, [⟨31, 0, .rw, 1⟩]⟩,
  ⟨"RING_BASE_LO", 0x48, 0, 1, [⟨31, 0, .rwl, 0⟩]⟩,
  ⟨"RING_BASE_HI", 0x4c, 0, 1, [⟨31, 0, .rwl, 0⟩]⟩,
  ⟨"RING_CFG", 0x50, 0, 1, [⟨4, 0, .rwl, 12⟩]⟩,
  ⟨"RING_CI", 0x54, 0, 1, [⟨31, 0, .rw, 0⟩]⟩,
  ⟨"PREC_CFG", 0x58, 0, 1, [⟨31, 16, .rw, 1000⟩, ⟨15, 11, .rw, 16⟩, ⟨10, 8, .rw, 0⟩, ⟨3, 0, .rw, 0⟩]⟩,
  ⟨"PREC_SEL", 0x5c, 0, 1, [⟨31, 31, .wo, 0⟩, ⟨17, 16, .rw, 0⟩, ⟨11, 0, .rw, 0⟩]⟩,
  ⟨"RING_PI", 0x400, 0, 1, [⟨31, 0, .ro, 0⟩]⟩,
  ⟨"RING_LOST", 0x404, 0, 1, [⟨31, 0, .ro, 0⟩]⟩,
  ⟨"PREC_FILL", 0x410, 4, 4, [⟨31, 31, .ro, 0⟩, ⟨12, 0, .ro, 0⟩]⟩,
  ⟨"PREC_DATA", 0x420, 4, 8, [⟨31, 0, .ro, 0⟩]⟩,
  ⟨"GATE", 0x800, 0, 1, [⟨0, 0, .rws, 1⟩]⟩]

/-- The TILE page's own registers (chapter 04). -/
def rowsTILE : List RegRow := [
  ⟨"BLK_CAP0", 0x8, 0, 1, [⟨31, 28, .ro, 12⟩, ⟨7, 0, .ro, 128⟩]⟩,
  ⟨"BLK_CAP1", 0xc, 0, 1, [⟨31, 16, .ro, 2200⟩, ⟨15, 0, .ro, 192⟩]⟩,
  ⟨"PENNANT", 0x18, 0, 1, [⟨4, 4, .w1c, 0⟩, ⟨3, 3, .w1c, 0⟩, ⟨2, 2, .w1c, 0⟩, ⟨1, 1, .w1c, 0⟩, ⟨0, 0, .w1c, 0⟩]⟩,
  ⟨"CTX_STAT", 0x400, 0, 1, [⟨7, 0, .ro, 0⟩]⟩,
  ⟨"SEALED_LO", 0x404, 0, 1, [⟨31, 0, .ro, 0⟩]⟩,
  ⟨"SEALED_HI", 0x408, 0, 1, [⟨31, 0, .ro, 0⟩]⟩,
  ⟨"DROPPED", 0x40c, 0, 1, [⟨31, 0, .ro, 0⟩]⟩,
  ⟨"STALLS", 0x410, 0, 1, [⟨31, 0, .ro, 0⟩]⟩]

/-- The DEC page's own registers (chapter 05). -/
def rowsDEC : List RegRow := [
  ⟨"BLK_CAP0", 0x8, 0, 1, [⟨31, 28, .ro, 12⟩, ⟨5, 0, .ro, 63⟩]⟩,
  ⟨"BLK_CAP1", 0xc, 0, 1, [⟨31, 16, .ro, 16888⟩, ⟨15, 0, .ro, 16888⟩]⟩,
  ⟨"PENNANT", 0x18, 0, 1, [⟨6, 6, .w1c, 0⟩, ⟨5, 5, .w1c, 0⟩, ⟨4, 4, .w1c, 0⟩, ⟨3, 3, .w1c, 0⟩, ⟨2, 2, .w1c, 0⟩, ⟨1, 1, .w1c, 0⟩, ⟨0, 0, .w1c, 0⟩]⟩,
  ⟨"POOL_CFG", 0x40, 0, 1, [⟨14, 0, .rwl, 1024⟩]⟩,
  ⟨"COUNT", 0x400, 4, 13, [⟨31, 0, .ro, 0⟩]⟩,
  ⟨"POOL_STAT", 0x440, 0, 1, [⟨14, 0, .ro, 0⟩]⟩]

/-- The SHP page's own registers (chapter 05). -/
def rowsSHP : List RegRow := [
  ⟨"BLK_CAP0", 0x8, 0, 1, [⟨31, 28, .ro, 12⟩, ⟨2, 0, .ro, 7⟩]⟩,
  ⟨"PENNANT", 0x18, 0, 1, [⟨3, 3, .w1c, 0⟩, ⟨2, 2, .w1c, 0⟩, ⟨1, 1, .w1c, 0⟩, ⟨0, 0, .w1c, 0⟩]⟩,
  ⟨"COUNT", 0x400, 4, 6, [⟨31, 0, .ro, 0⟩]⟩,
  ⟨"PROFILE_MAP", 0x480, 4, 8, [⟨31, 0, .ro, 0⟩]⟩]

/-- The TEN page's own registers (chapter 06). -/
def rowsTEN : List RegRow := [
  ⟨"BLK_CAP0", 0x8, 0, 1, [⟨31, 28, .ro, 12⟩, ⟨13, 0, .ro, 16382⟩]⟩,
  ⟨"BLK_CAP1", 0xc, 0, 1, [⟨31, 24, .ro, 64⟩, ⟨23, 16, .ro, 64⟩, ⟨15, 0, .ro, 256⟩]⟩,
  ⟨"PENNANT", 0x18, 0, 1, [⟨7, 7, .w1c, 0⟩, ⟨6, 6, .w1c, 0⟩, ⟨5, 5, .w1c, 0⟩, ⟨4, 4, .w1c, 0⟩, ⟨3, 3, .w1c, 0⟩, ⟨2, 2, .w1c, 0⟩, ⟨1, 1, .w1c, 0⟩, ⟨0, 0, .w1c, 0⟩]⟩,
  ⟨"COUNT", 0x400, 4, 10, [⟨31, 0, .ro, 0⟩]⟩,
  ⟨"GRAPH_MAP", 0x480, 4, 32, [⟨31, 0, .ro, 0⟩]⟩,
  ⟨"GRAPH_READY", 0x500, 4, 32, [⟨31, 0, .ro, 0⟩]⟩]

/-- The SRAMT page's own registers (chapter 06). -/
def rowsSRAMT : List RegRow := [
  ⟨"BLK_CAP0", 0x8, 0, 1, [⟨31, 28, .ro, 12⟩, ⟨1, 0, .ro, 0⟩]⟩,
  ⟨"BLK_CAP1", 0xc, 0, 1, [⟨15, 0, .ro, 192⟩]⟩,
  ⟨"PENNANT", 0x18, 0, 1, [⟨3, 3, .w1c, 0⟩, ⟨2, 2, .w1c, 0⟩, ⟨1, 1, .w1c, 0⟩, ⟨0, 0, .w1c, 0⟩]⟩,
  ⟨"PART0", 0x40, 0, 1, [⟨31, 24, .rwl, 64⟩, ⟨23, 16, .rwl, 32⟩, ⟨15, 8, .rwl, 64⟩, ⟨7, 0, .rwl, 16⟩]⟩,
  ⟨"PART1", 0x44, 0, 1, [⟨7, 0, .rwl, 16⟩]⟩,
  ⟨"CE_COUNT", 0x400, 0, 1, [⟨31, 0, .ro, 0⟩]⟩,
  ⟨"UE_COUNT", 0x404, 0, 1, [⟨31, 0, .ro, 0⟩]⟩,
  ⟨"UE_ADDR", 0x408, 0, 1, [⟨27, 0, .ro, 0⟩]⟩,
  ⟨"REGION_BASE", 0x410, 4, 5, [⟨27, 0, .ro, 0⟩]⟩,
  ⟨"SCRUB_STAT", 0x430, 0, 1, [⟨15, 0, .ro, 0⟩]⟩]

/-- The LINK page's own registers (chapter 08). -/
def rowsLINK : List RegRow := [
  ⟨"BLK_CAP0", 0x8, 0, 1, [⟨31, 28, .ro, 13⟩, ⟨1, 0, .ro, 2⟩]⟩,
  ⟨"PENNANT", 0x18, 0, 1, [⟨7, 7, .w1c, 0⟩, ⟨6, 6, .w1c, 0⟩, ⟨5, 5, .w1c, 0⟩, ⟨4, 4, .w1c, 0⟩, ⟨3, 3, .w1c, 0⟩, ⟨2, 2, .w1c, 0⟩, ⟨1, 1, .w1c, 0⟩, ⟨0, 0, .w1c, 0⟩]⟩,
  ⟨"CTL", 0x40, 0, 1, [⟨0, 0, .wo, 0⟩]⟩,
  ⟨"PAT_CTL", 0x44, 0, 1, [⟨6, 6, .wo, 0⟩, ⟨5, 5, .rw, 0⟩, ⟨4, 4, .rw, 0⟩, ⟨2, 0, .rw, 0⟩]⟩,
  ⟨"STAT", 0x400, 0, 1, [⟨9, 8, .ro, 0⟩, ⟨2, 0, .ro, 0⟩]⟩,
  ⟨"VER", 0x404, 0, 1, [⟨31, 16, .ro, 0⟩, ⟨15, 0, .ro, 0⟩]⟩,
  ⟨"PEER_ID_LO", 0x408, 0, 1, [⟨31, 0, .ro, 0⟩]⟩,
  ⟨"PEER_ID_HI", 0x40c, 0, 1, [⟨31, 0, .ro, 0⟩]⟩,
  ⟨"COUNT", 0x410, 4, 14, [⟨31, 0, .ro, 0⟩]⟩,
  ⟨"CFG", 0x800, 0, 1, [⟨31, 24, .rws, 255⟩, ⟨5, 4, .rws, 0⟩, ⟨1, 0, .rws, 0⟩]⟩]

/-- The ETH page's own registers (chapter 09). -/
def rowsETH : List RegRow := [
  ⟨"BLK_CAP0", 0x8, 0, 1, [⟨31, 28, .ro, 13⟩, ⟨7, 0, .ro, 4⟩]⟩,
  ⟨"PENNANT", 0x18, 0, 1, [⟨4, 4, .w1c, 0⟩, ⟨3, 3, .w1c, 0⟩, ⟨2, 2, .w1c, 0⟩, ⟨1, 1, .w1c, 0⟩, ⟨0, 0, .w1c, 0⟩]⟩,
  ⟨"ADDR_MAC_LO", 0x80, 48, 4, [⟨31, 0, .rwl, 0⟩]⟩,
  ⟨"ADDR_MAC_HI", 0x84, 48, 4, [⟨31, 31, .rwl, 0⟩, ⟨27, 16, .rwl, 0⟩, ⟨15, 0, .rwl, 0⟩]⟩,
  ⟨"ADDR_IPV4", 0x88, 48, 4, [⟨31, 0, .rwl, 0⟩]⟩,
  ⟨"ADDR_IPV6_0", 0x8c, 48, 4, [⟨31, 0, .rwl, 0⟩]⟩,
  ⟨"ADDR_IPV6_1", 0x90, 48, 4, [⟨31, 0, .rwl, 0⟩]⟩,
  ⟨"ADDR_IPV6_2", 0x94, 48, 4, [⟨31, 0, .rwl, 0⟩]⟩,
  ⟨"ADDR_IPV6_3", 0x98, 48, 4, [⟨31, 0, .rwl, 0⟩]⟩,
  ⟨"ADDR_NH_LO", 0x9c, 48, 4, [⟨31, 0, .rwl, 0⟩]⟩,
  ⟨"ADDR_NH_HI", 0xa0, 48, 4, [⟨15, 0, .rwl, 0⟩]⟩,
  ⟨"STAT", 0x400, 0, 1, [⟨5, 4, .ro, 0⟩, ⟨3, 0, .ro, 0⟩]⟩,
  ⟨"COUNT", 0x410, 4, 10, [⟨31, 0, .ro, 0⟩]⟩,
  ⟨"CFG", 0x800, 0, 1, [⟨31, 24, .rws, 16⟩, ⟨15, 8, .rws, 0⟩, ⟨1, 0, .rws, 0⟩]⟩]

/-- The HOST page's own registers (chapter 10). -/
def rowsHOST : List RegRow := [
  ⟨"BLK_CAP0", 0x8, 0, 1, [⟨31, 28, .ro, 2⟩, ⟨9, 4, .ro, 0⟩, ⟨3, 0, .ro, 7⟩]⟩,
  ⟨"BLK_CAP1", 0xc, 0, 1, [⟨15, 0, .ro, 0⟩]⟩,
  ⟨"PENNANT", 0x18, 0, 1, [⟨6, 6, .w1c, 0⟩, ⟨5, 5, .w1c, 0⟩, ⟨4, 4, .w1c, 0⟩, ⟨3, 3, .w1c, 0⟩, ⟨2, 2, .w1c, 0⟩, ⟨1, 1, .w1c, 0⟩, ⟨0, 0, .w1c, 0⟩]⟩,
  ⟨"LINK_STAT", 0x400, 0, 1, [⟨12, 12, .ro, 0⟩, ⟨11, 11, .ro, 0⟩, ⟨10, 10, .ro, 0⟩, ⟨9, 4, .ro, 0⟩, ⟨3, 0, .ro, 0⟩]⟩,
  ⟨"TAG_STAT", 0x404, 0, 1, [⟨31, 16, .ro, 0⟩, ⟨15, 0, .ro, 0⟩]⟩,
  ⟨"COUNT", 0x410, 4, 8, [⟨31, 0, .ro, 0⟩]⟩,
  ⟨"ORPHAN_MAP", 0x480, 4, 32, [⟨31, 0, .ro, 0⟩]⟩]

/-- The FCH page's own registers (chapter 12). -/
def rowsFCH : List RegRow := [
  ⟨"BLK_CAP0", 0x8, 0, 1, [⟨31, 28, .ro, 4⟩, ⟨15, 8, .ro, 8⟩, ⟨7, 0, .ro, 4⟩]⟩,
  ⟨"BLK_CAP1", 0xc, 0, 1, [⟨15, 0, .ro, 3600⟩]⟩,
  ⟨"PENNANT", 0x18, 0, 1, [⟨4, 4, .w1c, 0⟩, ⟨3, 3, .w1c, 0⟩, ⟨2, 2, .w1c, 0⟩, ⟨1, 1, .w1c, 0⟩, ⟨0, 0, .w1c, 0⟩]⟩,
  ⟨"CFG", 0x40, 0, 1, [⟨15, 0, .rwl, 3600⟩]⟩,
  ⟨"STAT", 0x400, 0, 1, [⟨31, 16, .ro, 0⟩, ⟨7, 0, .ro, 0⟩]⟩,
  ⟨"COUNT", 0x410, 4, 9, [⟨31, 0, .ro, 0⟩]⟩,
  ⟨"DIE_STAT", 0x480, 4, 32, [⟨31, 28, .ro, 0⟩, ⟨27, 24, .ro, 0⟩, ⟨23, 20, .ro, 0⟩, ⟨15, 0, .ro, 0⟩]⟩]

/-- The MEMC page's own registers (chapter 16). -/
def rowsMEMC : List RegRow := [
  ⟨"BLK_CAP0", 0x8, 0, 1, [⟨31, 28, .ro, 2⟩, ⟨7, 0, .ro, 4⟩]⟩,
  ⟨"BLK_CAP1", 0xc, 0, 1, [⟨31, 16, .ro, 10667⟩, ⟨15, 0, .ro, 64⟩]⟩,
  ⟨"PENNANT", 0x18, 0, 1, [⟨5, 5, .w1c, 0⟩, ⟨4, 4, .w1c, 0⟩, ⟨3, 3, .w1c, 0⟩, ⟨2, 2, .w1c, 0⟩, ⟨1, 1, .w1c, 0⟩, ⟨0, 0, .w1c, 0⟩]⟩,
  ⟨"STAT", 0x400, 0, 1, [⟨31, 16, .ro, 0⟩, ⟨7, 4, .ro, 0⟩, ⟨1, 1, .ro, 0⟩, ⟨0, 0, .ro, 0⟩]⟩,
  ⟨"CE_COUNT", 0x404, 0, 1, [⟨31, 0, .ro, 0⟩]⟩,
  ⟨"UE_COUNT", 0x408, 0, 1, [⟨31, 0, .ro, 0⟩]⟩,
  ⟨"LINK_CE", 0x40c, 0, 1, [⟨31, 0, .ro, 0⟩]⟩,
  ⟨"LINK_RETRY", 0x410, 0, 1, [⟨31, 0, .ro, 0⟩]⟩,
  ⟨"RETRAINS", 0x414, 0, 1, [⟨31, 0, .ro, 0⟩]⟩,
  ⟨"UE_ADDR_LO", 0x418, 0, 1, [⟨31, 0, .ro, 0⟩]⟩,
  ⟨"UE_ADDR_HI", 0x41c, 0, 1, [⟨7, 0, .ro, 0⟩]⟩,
  ⟨"SCRUB_STAT", 0x420, 0, 1, [⟨15, 0, .ro, 0⟩]⟩]

/-- The FUNC page's own registers (chapter 03 and 10). -/
def rowsFUNC : List RegRow := [
  ⟨"SQ0_BASE_LO", 0x40, 0, 1, [⟨31, 12, .rwl, 0⟩]⟩,
  ⟨"SQ0_BASE_HI", 0x44, 0, 1, [⟨31, 0, .rwl, 0⟩]⟩,
  ⟨"CQ0_BASE_LO", 0x48, 0, 1, [⟨31, 12, .rwl, 0⟩]⟩,
  ⟨"CQ0_BASE_HI", 0x4c, 0, 1, [⟨31, 0, .rwl, 0⟩]⟩,
  ⟨"Q0_CFG", 0x50, 0, 1, [⟨29, 29, .rwl, 0⟩, ⟨27, 16, .rwl, 0⟩, ⟨12, 12, .rwl, 0⟩, ⟨11, 0, .rwl, 0⟩]⟩,
  ⟨"SQ_TAIL", 0x100, 8, 64, [⟨11, 0, .wo, 0⟩]⟩,
  ⟨"CQ_HEAD", 0x104, 8, 64, [⟨11, 0, .wo, 0⟩]⟩,
  ⟨"BLK_CAP0", 0x8, 0, 1, [⟨31, 28, .ro, 0⟩, ⟨11, 0, .ro, 0⟩]⟩,
  ⟨"BLK_CAP1", 0xc, 0, 1, [⟨15, 0, .ro, 0⟩]⟩,
  ⟨"PENNANT", 0x18, 0, 1, [⟨10, 10, .w1c, 0⟩, ⟨9, 9, .w1c, 0⟩, ⟨8, 8, .w1c, 0⟩, ⟨7, 7, .w1c, 0⟩, ⟨6, 6, .w1c, 0⟩, ⟨5, 5, .w1c, 0⟩, ⟨4, 4, .w1c, 0⟩, ⟨3, 3, .w1c, 0⟩, ⟨2, 2, .w1c, 0⟩, ⟨1, 1, .w1c, 0⟩, ⟨0, 0, .w1c, 0⟩]⟩,
  ⟨"DRV_ABI", 0x60, 0, 1, [⟨31, 0, .rw, 0⟩]⟩,
  ⟨"HEARTBEAT", 0x64, 0, 1, [⟨31, 0, .rw, 0⟩]⟩,
  ⟨"HB_CFG", 0x68, 0, 1, [⟨31, 16, .rw, 30⟩, ⟨15, 0, .rw, 2000⟩]⟩,
  ⟨"ORPHAN_CTL", 0x6c, 0, 1, [⟨31, 16, .wo, 0⟩, ⟨1, 0, .wo, 0⟩]⟩,
  ⟨"ABI_AGREED", 0x400, 0, 1, [⟨31, 0, .ro, 0⟩]⟩,
  ⟨"ORPHAN_STAT", 0x404, 0, 1, [⟨31, 16, .ro, 0⟩, ⟨5, 5, .ro, 0⟩, ⟨4, 4, .ro, 0⟩, ⟨3, 0, .ro, 0⟩]⟩,
  ⟨"ORPHAN_TICK_LO", 0x408, 0, 1, [⟨31, 0, .ro, 0⟩]⟩,
  ⟨"ORPHAN_TICK_HI", 0x40c, 0, 1, [⟨31, 0, .ro, 0⟩]⟩,
  ⟨"HELD", 0x410, 0, 1, [⟨15, 0, .ro, 0⟩]⟩,
  ⟨"RES_QP", 0x414, 0, 1, [⟨31, 16, .ro, 0⟩, ⟨15, 0, .ro, 0⟩]⟩,
  ⟨"RES_SUB", 0x418, 0, 1, [⟨31, 16, .ro, 0⟩, ⟨15, 0, .ro, 0⟩]⟩,
  ⟨"RES_WIN", 0x41c, 0, 1, [⟨16, 0, .ro, 0⟩]⟩,
  ⟨"RES_SVC", 0x420, 0, 1, [⟨6, 0, .ro, 64⟩]⟩,
  ⟨"DIRTY_STAT", 0x424, 0, 1, [⟨31, 31, .ro, 0⟩, ⟨30, 30, .ro, 0⟩, ⟨29, 29, .ro, 0⟩]⟩,
  ⟨"DMA_STAT", 0x428, 0, 1, [⟨31, 31, .ro, 0⟩, ⟨15, 0, .ro, 0⟩]⟩]

/-- The own registers of a page of type `t`. -/
def ownRows : PageType → List RegRow
  | .glb => rowsGLB
  | .tick => rowsTICK
  | .mss => rowsMSS
  | .pwr => rowsPWR
  | .feed => rowsFEED
  | .rmt => rowsRMT
  | .egs => rowsEGS
  | .nvme => rowsNVME
  | .ftl => rowsFTL
  | .ckpt => rowsCKPT
  | .pair => rowsPAIR
  | .ciph => rowsCIPH
  | .intg => rowsINTG
  | .perf => rowsPERF
  | .tile => rowsTILE
  | .dec => rowsDEC
  | .shp => rowsSHP
  | .ten => rowsTEN
  | .sramt => rowsSRAMT
  | .link => rowsLINK
  | .eth => rowsETH
  | .host => rowsHOST
  | .fch => rowsFCH
  | .memc => rowsMEMC
  | .func => rowsFUNC

/-- Base of instance 0 in BAR0 of PF0 (R94). -/
def pageBase : PageType → Nat
  | .glb => 0x0
  | .tick => 0x1000
  | .mss => 0x2000
  | .pwr => 0x3000
  | .feed => 0x4000
  | .rmt => 0x5000
  | .egs => 0x6000
  | .nvme => 0x7000
  | .ftl => 0x8000
  | .ckpt => 0x9000
  | .pair => 0xa000
  | .ciph => 0xb000
  | .intg => 0xc000
  | .perf => 0xd000
  | .tile => 0x100000
  | .dec => 0x200000
  | .shp => 0x300000
  | .ten => 0x400000
  | .sramt => 0x500000
  | .link => 0x600000
  | .eth => 0x700000
  | .host => 0x800000
  | .fch => 0x900000
  | .memc => 0xa00000
  | .func => 0x1000000

/-- Block type code (R94). -/
def pageCode : PageType → Nat
  | .glb => 0x1
  | .tick => 0x2
  | .mss => 0x3
  | .pwr => 0x4
  | .feed => 0x20
  | .rmt => 0x30
  | .egs => 0x32
  | .nvme => 0x50
  | .ftl => 0x52
  | .ckpt => 0x60
  | .pair => 0x70
  | .ciph => 0x80
  | .intg => 0x90
  | .perf => 0xb0
  | .tile => 0x10
  | .dec => 0x11
  | .shp => 0x12
  | .ten => 0x13
  | .sramt => 0xa1
  | .link => 0x21
  | .eth => 0x31
  | .host => 0x40
  | .fch => 0x51
  | .memc => 0xa0
  | .func => 0x41

/-- Instances of the type (R94). -/
def pageInstances : PageType → Nat
  | .glb => 1
  | .tick => 1
  | .mss => 1
  | .pwr => 1
  | .feed => 1
  | .rmt => 1
  | .egs => 1
  | .nvme => 1
  | .ftl => 1
  | .ckpt => 1
  | .pair => 1
  | .ciph => 1
  | .intg => 1
  | .perf => 1
  | .tile => 32
  | .dec => 32
  | .shp => 32
  | .ten => 32
  | .sramt => 32
  | .link => 48
  | .eth => 4
  | .host => 2
  | .fch => 32
  | .memc => 16
  | .func => 1012

/-- Every block type, in the order of R94. -/
def allTypes : List PageType := [
  .glb, .tick, .mss, .pwr, .feed, .rmt, .egs, .nvme, .ftl, .ckpt, .pair, .ciph, .intg, .perf, .tile, .dec, .shp, .ten, .sramt, .link, .eth, .host, .fch, .memc, .func]

end Sys2Proof.Machine
end

