-- ==== Sys2Proof/Machine/StateBase.lean ====
section
/-! DEFINITION. State of the module, the tick and the control plane (chapters 01 to 03), and everything the device sends
out (messages, writes, frames, pins). Plain data. -/

namespace Sys2Proof.Machine

/-- What the device puts out on its interfaces, in order. Host-bound writes carry the function, the location (0 host
memory, 1 the function's device-memory window), the address and the bytes. -/
inductive Emit where
  /-- MSI-X message of a function (R101, R102, R106). -/
  | msix (func vector : Nat)
  /-- Pennant interrupt of a page on the MSS route (R101). -/
  | mssIrq (page : Page)
  /-- A completion entry written into a service completion queue (R106, R109). -/
  | cqe (func pair index : Nat) (dw : List Dword)
  /-- A DMA write to host memory: function, PASID, whether it carries Relaxed Ordering, address and bytes. -/
  | write (func : Nat) (pasid : Option Nat) (relaxed : Bool) (addr : Nat) (data : List Byte)
  /-- An output pin changes: name and level (R20). -/
  | pin (name : String) (level : Bool)
  /-- A rising TICK_OUT edge for tick n (R68). -/
  | tickOut (n : Nat)
  /-- A HALYARD_OUT pulse (R82). -/
  | halyardOut (seq : Nat)
  /-- A PCIe completion with Configuration Request Retry Status (true) or a normal answer (R36). -/
  | config (link : Nat) (crs : Bool)
  /-- A control message or packet on a feed link: link, kind, words. -/
  | link (link : Nat) (kind : String) (words : List Nat)
  /-- Data placed on a feed link: link, address and bytes. -/
  | linkData (link lane : Nat) (kind : String) (addr : Nat) (data : List Byte)
  /-- A hawser frame to the partner: kind and words. -/
  | hawser (kind : String) (words : List Nat)
  /-- A remote memory transport packet: sub-port, queue pair, kind and words. -/
  | rmt (sub qp : Nat) (kind : String) (words : List Nat)
  /-- An Ethernet frame on a sub-port: kind and words. -/
  | eth (sub : Nat) (kind : String) (words : List Nat)
  /-- A message to a member of the checkpoint group: rank, kind and words. -/
  | ckpt (rank : Nat) (kind : String) (words : List Nat)
  /-- A reply or message on the management sideband: protocol, kind, bytes. -/
  | sideband (proto kind : String) (data : List Byte)
  /-- An NVMe completion: function, queue, four dwords. -/
  | nvmeCqe (func queue : Nat) (dw : List Nat)
  /-- An RMT completion queue entry: queue pair and words. -/
  | rmtCqe (qp : Nat) (words : List Nat)
  /-- A flash operation: kind and words. -/
  | flash (kind : String) (words : List Nat)
  /-- The end of an integrity command that firmware issued through its own queue: opcode, status, result (R542). -/
  | fwDone (op status result : Nat)
  /-- A DOE or ATS answer on a host link: kind and words. -/
  | pcie (link : Nat) (kind : String) (words : List Nat)
  deriving DecidableEq, Repr

/-- Where the main domain stands in power-up and power-down (R34, R35, R52, R54). -/
inductive MainPhase where
  /-- Rails off. -/
  | off
  /-- The main stage is enabled and the rails ramp (S to S + 66 ms). -/
  | ramping
  /-- All rails good, PWR_OK asserted, still in reset. -/
  | inReset
  /-- Reset released. -/
  | running
  /-- The shutdown sequence of R54 runs. -/
  | shutdown
  deriving DecidableEq, Repr

/-- Power input, thermal and cap state that no register holds (chapter 01). Times are in nanoseconds. -/
structure Power where
  phase : MainPhase
  alwaysOn : Bool
  auxInUse : Bool
  /-- Since when both inputs have been below 40 V (R607). -/
  absentSince : Option Nat
  /-- Time of the start event S (R34). -/
  startAt : Nat
  /-- Level of RESET_N, and since when it has been low. -/
  resetN : Bool
  resetLowSince : Option Nat
  /-- A requested main reset waits (R41). -/
  resetPending : Bool
  /-- Consecutive samples below 62 V, 56 V and 52 V (R51). -/
  below62 : Nat
  below56 : Nat
  below52 : Nat
  /-- Since when the main input has been at or above 64 V; within 62 to 80 V; within 60 to 80 V; above 84 V. -/
  ge64Since : Option Nat
  in6280Since : Option Nat
  in6080Since : Option Nat
  gt84Since : Option Nat
  /-- Tick q at which the quiesce began (R52), and whether its flash phase has ended. -/
  quiesce : Option Nat
  /-- Cause of the quiesce or shutdown: 0 none, 1 sag, 2 overvoltage, 3 trip, 4 deck core stop (R554). -/
  downCause : Nat
  /-- The hot-swap stage holds the input open (R31). -/
  inputOpen : Bool
  powerLossWritten : Bool
  /-- Since when the sensor has read at least 3 °C below the entry of steps 1, 2 and 3 (R16). -/
  cool1 : Option Nat
  cool2 : Option Nat
  cool3 : Option Nat
  tripLatched : Bool
  /-- Rail failure time, and whether the retry was used (R37). -/
  railFailAt : Option Nat
  railRetried : Bool
  /-- Power samples since the main domain last left reset, newest first, at most 1,000, 0.1 W units (R45). -/
  samples : List Nat
  /-- Samples in the current excursion (R45). -/
  excRun : Nat
  /-- The forced stretch of R47 holds until the next tick; a cut is due at that tick. -/
  forced : Bool
  capCut : Bool
  /-- Tiles stretched by a droop trip with the time of the last trip, and per stretched tile the time from which its
  stretched cycles are not yet counted. -/
  droop : List (Nat × Nat)
  stretchFrom : List (Nat × Nat)
  /-- Firmware is ready, per host link (R36), the main-domain reset release, and the last rise of PERST_A_N and PERST_B_N. -/
  fwReady : List Bool
  releaseAt : Nat
  perstAt : List Nat
  /-- The next power-up of the main domain is a cold reset (R38). -/
  cold : Bool
  /-- Output pins: PWR_OK asserted, FLASH_PFAIL_N low, THERM_TRIP_N low (R20). -/
  pwrOk : Bool
  flashPfail : Bool
  thermTrip : Bool
  /-- Straps and inputs on MG1: SLOT_ID, the levels of HALYARD_IN, JTAG_SEL, UART_RXD, JTAG_TCK, JTAG_TMS, JTAG_TDI and
  JTAG_TRST_N (R20). -/
  slotId : Nat
  halyardIn : Bool
  jtagSel : Bool
  uartRxd : Bool
  jtagTck : Bool
  jtagTms : Bool
  jtagTdi : Bool
  jtagTrstN : Bool
  /-- The AUX_1V8 output is on (R34). -/
  aux18 : Bool
  /-- The time at which the MSS firmware reports ready after its last start, and that this start has yet to return CAP_MGMT
  (R34, R40). -/
  mssUpAt : Nat
  capDue : Bool
  deriving DecidableEq, Repr

/-- A halyard trigger waiting for its latch (R78, R80). -/
structure HalyardWait where
  src : Nat
  at_ : Nat
  deriving DecidableEq, Repr

/-- Tick state that no register holds (chapter 02). Index 1 is TICK_IN, 2 PTP, 3 the partner. -/
structure Tick where
  /-- Tick count, kept by the always-on domain across a main reset (R57). -/
  count : Nat
  /-- The first tick edge after the last reset has happened. -/
  started : Bool
  /-- Time of the last edge and planned length of the running tick, ns. -/
  edgeAt : Nat
  len : Nat
  /-- Period in force, µs, and the pending change (new period, tick) (R59). -/
  period : Nat
  pendPeriod : Option (Nat × Nat)
  /-- PTP history: edge A and its time in ns after ORIGIN (chapter 02, Sources and selection). -/
  histTick : Nat
  histNs : Nat
  /-- Tick time of R321, µs, at the last edge. -/
  timeUs : Nat
  /-- Per source 1 to 3: consecutive good edges or Sync messages, consecutive bad ones, last edge or message, and whether
  the source is marked unusable (R60, R61, R64). -/
  good : List Nat
  bad : List Nat
  lastSeen : List Nat
  unusable : List Bool
  /-- Per source: it was qualified and then lost (R62). -/
  wasLost : List Bool
  /-- Count the partner carries for its next edge (R64), and the last Sync message: when it came, and the PTP time then. -/
  carried : Option Nat
  ptpRef : Option (Nat × Nat)
  /-- Per source: the device's and the source's time, ns, over its present run of edges or Sync messages; the pair held over
  from the lost source; and the fraction of a ns that holdover carries to its next tick (R65, R66). -/
  run : List (Nat × Nat)
  hold : Nat × Nat
  rem : Nat
  /-- Chosen source switch, due at the next edge (R62). -/
  pendSwitch : Option Nat
  /-- The switch of this edge steps rather than slews (R63). -/
  stepping : Bool
  holdoverSince : Option Nat
  /-- Budget left in the tick, and carry, for each tile (R70 to R72). -/
  budget : List Int
  carry : List Nat
  /-- Halyard: first waiting trigger, and the last immediate trigger time (R80). -/
  halWait : Option HalyardWait
  halLast : Option Nat
  deriving DecidableEq, Repr

/-- A service queue pair that exists (R112). -/
structure QPair where
  /-- 1 ACTIVE, 2 DELETING, 3 ERROR. -/
  state : Nat
  sqBase : Nat
  cqBase : Nat
  sqDepth : Nat
  cqDepth : Nat
  sqLoc : Nat
  cqLoc : Nat
  sqHead : Nat
  sqTail : Nat
  cqHead : Nat
  cqTail : Nat
  phase : Bool
  deriving DecidableEq, Repr

/-- A fetched service command in hand (R105, R107). -/
structure SvcCmd where
  func : Nat
  pair : Nat
  cid : Nat
  dw : List Dword
  begun : Bool
  /-- Fetch order. -/
  seq : Nat
  /-- Tick of the fetch. -/
  tick : Nat
  deriving DecidableEq, Repr

/-- An entry of the event log (R552). -/
structure LogEntry where
  seq : Nat
  tick : Nat
  boot : Nat
  cls : Nat
  code : Nat
  blkType : Nat
  inst : Nat
  detail : List Nat
  /-- Committed to the boot flash (R553). -/
  committed : Bool
  deriving DecidableEq, Repr

/-- An item under way that random tagging chose (R597): its start, and the stage times reached, as model time. -/
structure TagItem where
  kind : Nat
  unit : Nat
  ofs : Nat
  tick : Nat
  at_ : Nat
  id : Nat
  stages : List (Nat × Nat)
  deriving DecidableEq, Repr

/-- Tagging and precise-record state (R596, R599): LFSRs, none before the first step from the seed; the tagged items, by
kind and identity; and the precise record of each deck core, oldest first. -/
structure Tags where
  lfsr : Option Nat
  items : List (Nat × TagItem)
  precLfsr : List (Nat × Nat)
  prec : List (Nat × List (List Byte))
  deriving DecidableEq, Repr

def Tags.reset : Tags := { lfsr := none, items := [], precLfsr := [], prec := [] }

end Sys2Proof.Machine
end

