-- ==== Sys2Proof/Machine/StateCiph.lean ====
section
/-! DEFINITION. State of the cipher engine (chapter 15): key slots, IV counters and the cache of unwrapped keys. Plain
data. -/

namespace Sys2Proof.Machine

/-- A key slot that is not EMPTY (R499, R511): state 1 READY, 2 DESTROYING, 3 DEVICE; attributes, label, boot count at its
creation, PERSIST, INSTANCE and the key. -/
structure KeySlot where
  state : Nat
  attr : Nat
  keyId : Nat
  bootAt : Nat
  persist : Bool
  inst : Nat
  key : List Byte
  deriving DecidableEq, Repr

/-- Slots; COUNTER of each E-unit (R503); slots whose key the cache holds, oldest first (R500). -/
structure Ciph where
  slots : List (Nat × KeySlot)
  counters : List Nat
  cache : List Nat
  deriving DecidableEq, Repr

def Ciph.reset : Ciph := { slots := [], counters := List.replicate 8 0, cache := [] }

/-- What a main or cold reset leaves: the slots that the flash root area holds (R500). -/
def Ciph.kept (c : Ciph) : Ciph := { Ciph.reset with slots := c.slots.filter fun e => e.2.persist || e.2.state == 3 }

end Sys2Proof.Machine
end

