-- ==== Sys2Proof/Machine/StateCkpt.lean ====
section
/-! DEFINITION. State of the checkpoint service (chapter 13): the group, sessions, the landing area and what a scan, a
restore or an export has fetched. Plain data. -/

namespace Sys2Proof.Machine

/-- A member of the group: UNIT_ID and QP (R436). -/
structure CkMember where
  uid : Nat
  qp : Nat
  deriving DecidableEq, Repr

/-- The group, or the one being formed (R436, R438): P, unit in bytes, GROUP_ID, key slot and label, this device's rank,
members, ranks whose HELLO matched, whether it is FORMED, time of the form, descriptor bytes 0x01 to 0x13, and ranks that are
lost (R459). -/
structure CkGroup where
  p : Nat
  unit : Nat
  id : Nat
  keySlot : Nat
  keyId : Nat
  rank : Nat
  members : List CkMember
  hello : List Nat
  formed : Bool
  formAt : Nat
  head : List Byte
  lost : List Nat
  deriving DecidableEq, Repr

/-- A region of a session (R446 to R451): port, accelerator address, length, offset in the stream, PRIORITY as last read,
whether it has begun, bytes asked for and read, released, its digest, the source digest it was compared with, and passed. -/
structure CkRegion where
  port : Nat
  addr : Nat
  len : Nat
  off : Nat
  prio : Nat
  begun : Bool
  issued : Nat
  done : Nat
  released : Bool
  digest : List Byte
  source : Option (List Byte)
  passed : Bool
  deriving DecidableEq, Repr

/-- A session that is not ABSENT (R442): state, mode, step, table offset and entries, AT, restore rank, regions, failure
reason, the failure due at the next edge, the time of edge AT, bytes of staging held; the step's members, P and unit as they
stood at the start, this device's rank, and UNIT_IDs lost; units owed with whether each was sent
twice; the manifest, and UNIT_IDs that owe its acknowledgement; the final RELEASE is out. -/
structure CkSession where
  state : Nat
  mode : Nat
  step : Nat
  table : Nat
  entries : Nat
  at_ : Nat
  rank : Nat
  regions : List CkRegion
  reason : Nat
  fail : Option Nat
  atNs : Option Nat
  stage : Nat
  uids : List Nat
  p : Nat
  unit : Nat
  self : Nat
  lost : List Nat
  owed : List (Nat × Bool)
  manifest : Option (List Byte)
  manOwed : List Nat
  final : Bool
  deriving DecidableEq, Repr

/-- A unit in the landing area. -/
structure CkUnit where
  group : Nat
  step : Nat
  src : Nat
  stripe : Nat
  unit : Nat
  data : List Byte
  deriving DecidableEq, Repr

/-- A unit on its way to the medium: the rank to answer, none for the device's own, and the sender's digest. -/
structure CkLanding where
  from_ : Option Nat
  digest : List Byte
  u : CkUnit
  deriving DecidableEq, Repr

/-- A restore scan in progress (R462): UNIT_IDs heard with their candidates, results by (step, rank) with reason and shard,
and pairs this device has answered itself. -/
structure CkScan where
  active : Bool
  firsts : List (Nat × List Nat)
  results : List (Nat × Nat × Nat × Nat)
  deriving DecidableEq, Repr

/-- Sessions by index; the area's NSID, its units, manifests and commit records (group, step, degraded); units on their way;
LANDED messages received (step, UNIT_ID); ranks newly lost; bytes that capture may still read in this tick (R448); units asked for and the answers, by
(step, rank, stripe, unit); the step last selected. -/
structure Ckpt where
  group : Option CkGroup
  sessions : List (Nat × CkSession)
  areaNs : Option Nat
  units : List CkUnit
  manifests : List (List Byte)
  commits : List (Nat × Nat × Bool)
  landing : List CkLanding
  landed : List (Nat × Nat)
  lostPend : List Nat
  capLeft : Nat
  asked : List (Nat × Nat × Nat × Nat)
  replies : List ((Nat × Nat × Nat × Nat) × Option (List Byte))
  scan : CkScan
  selected : Option Nat
  deriving DecidableEq, Repr

def CkScan.none : CkScan := { active := false, firsts := [], results := [] }

def Ckpt.reset : Ckpt := {
  group := Option.none, sessions := [], areaNs := Option.none, units := [], manifests := [], commits := [], landing := [], landed := [], lostPend := []
  capLeft := 0, asked := [], replies := [], scan := CkScan.none, selected := Option.none }

/-- What every reset and power cycle keeps: the landing area (R439). -/
def Ckpt.kept (c : Ckpt) : Ckpt :=
  { Ckpt.reset with areaNs := c.areaNs, units := c.units, manifests := c.manifests, commits := c.commits }

/-- The landing area holds nothing any more. -/
def Ckpt.wiped (c : Ckpt) : Ckpt := { c with units := [], manifests := [], commits := [] }

/-- Bytes the area holds. -/
def Ckpt.areaBytes (c : Ckpt) : Nat :=
  (c.units.map fun u => u.data.length).sum + (c.manifests.map fun m => m.length).sum + 64 * c.commits.length

/-- Bytes of staging that sessions hold. -/
def Ckpt.stageBytes (c : Ckpt) : Nat := (c.sessions.map fun e => e.2.stage).sum

/-- SESS_STAT of a session. -/
def CkSession.stat (x : CkSession) : Nat :=
  x.state * 2 ^ 24 + x.reason * 2 ^ 16 + x.mode * 2 ^ 13 + (x.regions.filter fun r => !r.released).length

end Sys2Proof.Machine
end

