-- ==== Sys2Proof/Machine/StateCores.lean ====
section
/-! DEFINITION. State of an Ilesh core (chapter 07): general and special registers, the return stack, the region table as
last read, the watchdog, and whether the core runs, sleeps or has stopped. -/

namespace Sys2Proof.Machine

/-- A return stack entry (R246). -/
structure RetEntry where
  addr : Nat
  cmp : Nat
  gate : Bool
  sig : Nat
  deriving DecidableEq, Repr

/-- A valid entry of the region table as the core last read it (R251, R252); pages are 4 KiB. -/
structure Region where
  base : Nat
  last : Nat
  rd : Bool
  w : Bool
  x : Bool
  spill : Bool
  deriving DecidableEq, Repr

/-- What a core is doing. -/
inductive Activity where
  /-- Held in reset by the boot. -/
  | held
  | running
  /-- In WFI, to go on at `next`. -/
  | wfi (next : Nat)
  /-- In WAIT with destination `d` and mask `m`; whether a tick edge completed since. -/
  | wait (d m next : Nat) (edge : Bool)
  /-- Stopped (R262), with the cause reported. -/
  | stopped (cause : Nat)
  deriving DecidableEq, Repr

structure Core where
  act : Activity
  g : List Qword
  pc : Nat
  /-- FLAGS [9:0]. -/
  flags : Nat
  /-- CCTL [2:0]. -/
  cctl : Nat
  rsp : Nat
  rsbase : Nat
  rsLost : Nat
  cmp : Nat
  rtb : Nat
  gtb : Nat
  gtn : Nat
  sig : Nat
  evb : Option Nat
  epc : Nat
  eflags : Nat
  ecause : Nat
  einfo : Nat
  ecmp : Nat
  ipend : Nat
  imask : Nat
  wdt : Nat
  wdCount : Nat
  /-- WATCHDOG has been raised since the last WDKICK. -/
  wdRaised : Bool
  stack : List RetEntry
  regions : List Region
  deriving DecidableEq, Repr

/-- Base address of the boot ROM, where a core begins to fetch (R267). -/
abbrev romBase : Nat := 0xFFFC0000

/-- After a reset of a core (R267). EVB reads 0 until compartment 0 writes it; until then exceptions vector into the ROM
(R268). -/
def Core.reset (act : Activity) : Core := {
  act := act, g := List.replicate 16 0, pc := romBase, flags := 0, cctl := 3, rsp := 0, rsbase := 0, rsLost := 0, cmp := 0
  rtb := 0, gtb := 0, gtn := 0, sig := 0, evb := none, epc := 0, eflags := 0, ecause := 0, einfo := 0, ecmp := 0
  ipend := 0, imask := 0, wdt := 0, wdCount := 0, wdRaised := false, stack := [], regions := [] }

end Sys2Proof.Machine
end

