-- ==== Sys2Proof/Machine/StateFeed.lean ====
section
/-! DEFINITION. State of the feed links and of delivery to accelerators (chapter 08): link sessions, feed rings with their
ledgers, and what the feed keeps for its ports. Plain data. -/

namespace Sys2Proof.Machine

/-- What a packet sent by the device stands for, for R276 and R302: nothing that is tracked, a producer record of a ring
with its index, a message or RELEASE that is sent again on another link of its port, a READ with its tag. -/
inductive PktRef where
  | plain
  | record (ring pi : Nat)
  | again (port : Nat)
  | read (tag : Nat)
  deriving DecidableEq, Repr

/-- A transaction packet (R284): virtual channel, header dwords, data. -/
structure Pkt where
  vc : Nat
  h : List Nat
  data : List Byte
  ref : PktRef
  deriving DecidableEq, Repr

/-- A DATA flit held for replay: sequence number, FIRST_HDR, payload, and the packet it ends, if any (R278). -/
structure FlitOut where
  seq : Nat
  first : Nat
  payload : List Byte
  ends : Option Pkt
  deriving DecidableEq, Repr

/-- The peer's PARAM (R281). -/
structure PeerParam where
  role : Nat
  llMin : Nat
  llMax : Nat
  tlMin : Nat
  tlMax : Nat
  lanes : Nat
  credits : List Nat
  rdTags : Nat
  maxLen : Nat
  unitId : Nat
  deriving DecidableEq, Repr

/-- A capture READ outstanding on a link (R307): tag, accelerator address, bytes asked and received, where in the LPDDR5X
its bytes land, time sent, whether it is the second issue, and the checkpoint session and region it reads for. -/
structure CapRead where
  tag : Nat
  addr : Nat
  len : Nat
  got : Nat
  dst : Nat
  sentAt : Nat
  second : Bool
  session : Nat
  region : Nat
  deriving DecidableEq, Repr

/-- What a link holds besides its registers. Lane sets are masks. `stepAt` is when the bring-up step began, or when the
link failed; `peer` and `acked` what the PARAM step has seen. The session: next SEQ, unacknowledged DATA flits oldest
first, time of the last ACK_SEQ advance, replays since, time of the last NAK acted on, next expected SEQ, whether one has
arrived, NAK pending, credits left per VC, the peer's last credit counts, this end's counts, chunks of a packet still to
arrive, the packets waiting for credit, and the READ tags. `dropping` is the lane named in LANE_DROP messages until they are
acknowledged; `turn` is the position in the flit stream, whose parity chooses the lane (R273); `pat` is the number of the last pattern flit received (R308). -/
structure Link where
  phy : Nat
  phyFailed : Nat
  lock : Nat
  lockFailed : Nat
  stepAt : Nat
  peer : Option PeerParam
  acked : Bool
  joined : Bool
  seq : Nat
  unacked : List FlitOut
  lastAdv : Nat
  replays : Nat
  lastNak : Option Nat
  expected : Nat
  ackValid : Bool
  nak : Bool
  credit : List Nat
  peerCr : List Nat
  cr : List Nat
  rxLeft : Nat
  rxVc : Nat
  txq : List Pkt
  reads : List CapRead
  quar : List (Nat × Nat)
  lastGood : Nat
  dropping : Option Nat
  turn : Nat
  pat : Option Nat
  deriving DecidableEq, Repr

def Link.down : Link := {
  phy := 0, phyFailed := 0, lock := 0, lockFailed := 0, stepAt := 0, peer := none, acked := false, joined := false
  seq := 0, unacked := [], lastAdv := 0, replays := 0, lastNak := none, expected := 0, ackValid := false, nak := false
  credit := [0, 0, 0, 0], peerCr := [0, 0, 0, 0], cr := [0, 0, 0, 0], rxLeft := 0, rxVc := 0, txq := [], reads := []
  quar := [], lastGood := 0, dropping := none
  turn := 0, pat := none }

/-- A delivery ledger entry (R296): the pack's name, tile, epoch and tick, the index of the skip marker before it (equal to
`start` when there is none), its start and end, the tick and the time of the write; committed; named in a PACK_REJECT; a
rewrite of a rejected pack, or named a second time; a pack that a peer's tile made. -/
structure LedgerEntry where
  rank : Nat
  id : Nat
  tile : Nat
  epoch : Nat
  made : Nat
  skip : Nat
  start : Nat
  fin : Nat
  tick : Nat
  at_ : Nat
  committed : Bool
  rejected : Bool
  rewrite : Bool
  peer : Bool
  deriving DecidableEq, Repr

/-- A feed ring that is not ABSENT (R291, R310): 1 DEFINED, 2 RUNNING, 3 STOPPING, 4 STOPPED, 5 ERROR. `acked` is P of R302;
`drawing` holds until the edge at which a STOPPING ring stops drawing; `idle`: it draws nothing more in this tick (R301);
`again`: packs to be written once more (R297). -/
structure Ring where
  state : Nat
  port : Nat
  sizeLog : Nat
  weight : Nat
  base : Nat
  piAddr : Nat
  sets : List Nat
  pi : Nat
  ci : Nat
  link : Option Nat
  acked : Nat
  drawing : Bool
  idle : Bool
  deficit : Nat
  again : List (Nat × Nat)
  ledger : List LedgerEntry
  deriving DecidableEq, Repr

/-- A suspect interval waiting for the next edge (R298): ORIGIN_RANK, tile, epoch, first and last tick, and whether it is
the device's own. -/
structure Suspect where
  rank : Nat
  tile : Nat
  epoch : Nat
  frm : Nat
  upto : Nat
  own : Bool
  deriving DecidableEq, Repr

/-- Feed state: links 0 to 47 that differ from `Link.down`, rings, consecutive edges each port has been down (R303),
messages waiting for their port, the next notice number, suspect intervals, the exchange group's QPs (R304) and the lists
of XCHG_GROUP commands in hand, packs sent to
peers whose FLUSH has not completed (QP, index of its SEND, pack), FLUSHes completed (QP, index of the SEND), packs returned at the next edge, committed packs to remove (R296), and
capture READs that ended since the checkpoint service last looked: session, region, accelerator address, length, success. -/
structure Feed where
  links : List (Nat × Link)
  rings : List (Nat × Ring)
  portDown : List Nat
  portq : List (Nat × Pkt)
  notice : Nat
  suspects : List Suspect
  group : List Nat
  groupNext : List (Nat × List Nat)
  flight : List (Nat × Nat × Nat × Nat)
  flushed : List (Nat × Nat)
  returned : List (Nat × Nat)
  remove : List (Nat × Nat)
  capDone : List (Nat × Nat × Nat × Nat × Bool)
  deriving DecidableEq, Repr

def Feed.reset : Feed := {
  links := [], rings := [], portDown := List.replicate 32 0, portq := [], notice := 0, suspects := [], group := [], groupNext := []
  flight := [], flushed := [], returned := [], remove := [], capDone := [] }

end Sys2Proof.Machine
end

