-- ==== Sys2Proof/Machine/StateFlash.lean ====
section
/-! DEFINITION. State of the flash medium and its translation layer (chapter 12). Plain data. The die states and the grown
bad counts stand in FCH.DIE_STAT. -/

namespace Sys2Proof.Machine

/-- A logical block on the medium: its bytes in clear, its protection information, its write sequence (R418), the two dies
that hold staged copies (R421), and its folded place: position, block, page. `dead`: unrecoverable (R425). -/
structure LBlk where
  data : List Byte
  pi : List Byte
  seq : Nat
  staged : Option (Nat × Nat)
  folded : Option (Nat × Nat × Nat)
  dead : Bool
  deriving DecidableEq, Repr

/-- A flash block that has been used (R419, R426, R429): erases, reads since its erase, whether it belongs to the staging
pool, whether it is retired, and the retry entry that decoded it last. -/
structure FBlock where
  erases : Nat
  reads : Nat
  staging : Bool
  retired : Bool
  lastRetry : Option Nat
  deriving DecidableEq, Repr

/-- A die of the family (R414, R427, R428): good blocks found, spares at initialisation and left, times of its grown bad
blocks of the last hour, the entries of its record's retry table (R419), whether it stands at its position, and whether it
is lost and has not rejoined (R423). -/
structure FDie where
  good : Nat
  spare0 : Nat
  spare : Nat
  grownAt : List Nat
  retries : Nat
  present : Bool
  lost : Bool
  deriving DecidableEq, Repr

/-- The medium. `init`, family, positions in use, and the recorded layout (OP_PCT, STAGE_BLOCKS) stand in the root record;
`roots` are the two power-loss records, by write sequence; `begun` are programs begun and unfinished, by command number, each
with its pair of dies (R430); `rebuild` holds the dies lost and not yet rebuilt; `fails` are program and
erase totals of Medium Health. Blocks are keyed die * 2^16 + block; logical blocks NSID * 2^64 + LBA. -/
structure Flash where
  init : Bool
  family : Nat
  inUse : Nat
  opPct : Nat
  stage : Nat
  dies : List (Nat × FDie)
  blocks : List (Nat × FBlock)
  map : List (Nat × LBlk)
  seq : Nat
  roots : List (Option Nat)
  begun : List (Nat × List (Nat × Nat))
  rebuild : List Nat
  lossSeen : Bool
  unclean : Bool
  warn : Nat
  hostBytes : Nat
  medBytes : Nat
  factoryBad : Nat
  grown : List Nat
  recovery : List Nat
  reloc : List Nat
  powerUps : List Nat
  lastMs : Nat
  deriving DecidableEq, Repr

/-- A medium that has never been initialised. -/
def Flash.reset : Flash := {
  init := false, family := 0, inUse := 0, opPct := 0, stage := 0, dies := [], blocks := [], map := [], seq := 0
  roots := [none, none], begun := [], rebuild := [], lossSeen := false, unclean := false, warn := 0, hostBytes := 0
  medBytes := 0, factoryBad := 0, grown := List.replicate 32 0, recovery := [0, 0, 0, 0], reloc := [0, 0], powerUps := [0, 0]
  lastMs := 0 }

/-- What a reset of the main domain leaves: the medium keeps everything, programs under way end (R41, R54). -/
def Flash.kept (f : Flash) : Flash := { f with begun := [] }

/-- Blocks of a die, MiB of a block, rated cycles and the read-disturb limit of a family (R416). -/
def famBlocks (f : Nat) : Nat := if f = 2 then 10920 else 5460
def famMib (f : Nat) : Nat := if f = 3 then 48 else 24
def famRated (f : Nat) : Nat := if f = 3 then 1000 else 3000
def famDisturb (f : Nat) (staging : Bool) : Nat := if staging then 1000000 else if f = 3 then 30000 else 100000

/-- pSLC pages of a block: one page for each of the bits a cell holds otherwise. -/
def famPslc (f : Nat) : Nat := if f = 3 then 768 else 512

/-- Dies in use and not lost. -/
def Flash.live (f : Flash) : List (Nat × FDie) := f.dies.filter fun e => !e.2.lost

/-- The lowest share of its initial spares that a die in use has left, % (R428). -/
def Flash.sparePct (f : Flash) : Nat :=
  (f.live.map fun e => if e.2.spare0 = 0 then 0 else e.2.spare * 100 / e.2.spare0).foldl min 100

/-- Usable capacity, GiB (R435): good blocks of the dies in use, less staging and the eight root blocks. -/
def Flash.usable (f : Flash) : Nat :=
  if f.init then
    let blocks := (f.live.map fun e => e.2.good - f.stage).sum - 8
    blocks * famMib f.family * 31 * (100 - f.opPct) / (32 * 100 * 1024)
  else 0

/-- Pages of 16 KiB that staged copies take, and pages of the staging pool. -/
def Flash.stageUsed (f : Flash) : Nat :=
  ceilDiv (2 * ((f.map.filter fun e => e.2.staged.isSome).map fun e => e.2.data.length).sum) 16384

def Flash.stagePages (f : Flash) : Nat := f.live.length * f.stage * famPslc f.family

/-- Staging pages free, %. -/
def Flash.stageFree (f : Flash) : Nat :=
  if f.stagePages = 0 then 0 else (f.stagePages - f.stageUsed) * 100 / f.stagePages

/-- Average erase count of a pool. -/
def Flash.avgErase (f : Flash) (staging : Bool) : Nat :=
  let n := f.live.length * (if staging then f.stage else famBlocks f.family - f.stage)
  if n = 0 then 0 else ((f.blocks.filter fun e => e.2.staging == staging).map fun e => e.2.erases).sum / n

/-- PCT_USED of Medium Health (R433). -/
def Flash.pctUsed (f : Flash) : Nat :=
  min 255 (max (f.avgErase false * 100 / famRated f.family) (f.avgErase true * 100 / 30000))

/-- REBUILD_PCT: 100 when no rebuild runs, else an open share of the work. -/
def Flash.rebuildPct (f : Flash) : Nat :=
  if f.rebuild = [] then 100 else min 99 (Config.rebuildProgress f.rebuild.length f.medBytes)

end Sys2Proof.Machine
end

