-- ==== Sys2Proof/Machine/StateFoundry.lean ====
section
/-! DEFINITION. State of the token foundry: stream sets, contexts, samples in progress and the shuffle reservoir
(chapter 04). -/

namespace Sys2Proof.Machine

/-- A shard entry (R117). -/
structure Shard where
  source : Nat
  handle : Nat
  offset : Nat
  length : Nat
  deriving DecidableEq, Repr

/-- A stream set that is not ABSENT: its state (R144), its descriptor (R116), its shards in index order and the next
unbound one (R123). -/
structure StreamSet where
  state : Nat
  container : Nat
  outputs : Nat
  interval : Nat
  startOff : Nat
  clip : Nat
  group : Nat
  stride : Nat
  packMax : Nat
  mask : Nat
  contexts : Nat
  weight : Nat
  vis : Nat
  aud : Nat
  prof : Nat
  policy : Nat
  audioSel : Nat
  rank : Nat
  readahead : Nat
  shards : List Shard
  next : Nat
  /-- Tick of its SSET_PAUSE: samples start until the next edge (R139). -/
  pauseAt : Nat
  deriving DecidableEq, Repr

/-- A record of a sample in progress: where it stands in the tile's RECORD region, or, of one that waits for room there, its
bytes. -/
structure RecordRef where
  off : Nat
  len : Nat
  own : List Byte
  deriving DecidableEq, Repr

/-- A sample in progress (R120, R134): its name, reservation, sampled frames, audio span in 90 kHz units after the first
presentation time, records written so far, pack flags and source offset. -/
structure Sample where
  packId : Nat
  reserve : Nat
  firstFrame : Nat
  lastFrame : Nat
  audioFrom : Nat
  audioTo : Nat
  records : List RecordRef
  flags : Nat
  srcOffset : Nat
  startTick : Nat
  deriving DecidableEq, Repr

/-- A stream context of a started set. `num` is the global number while it is bound to a tile (R11, R532). -/
structure Ctx where
  sset : Nat
  state : Nat
  former : Nat
  num : Option Nat
  /-- Target tile of a CTX_MOVE, and the global number it last had on a tile that a fence put it off, to which only CTX_MOVE returns
  it. -/
  target : Option Nat
  origin : Option Nat
  /-- Its tile was fenced or reset: it is placed elsewhere at the next edge (R532). -/
  off : Bool
  shard : Option Nat
  /-- Next sample index of the shard (R124), and how many samples the shard makes, once its times are known (R120). -/
  sample : Nat
  total : Option Nat
  /-- The shard makes no samples (R158). -/
  ended : Bool
  /-- The source has ended with a read error: no more bytes come (R118). -/
  failed : Bool
  /-- The source cache: shard offset of the next byte to demultiplex, and bytes read ahead of it. -/
  cachePos : Nat
  cached : Nat
  /-- Tick, plus one, of the last refusal of reservoir space (R134). -/
  refused : Nat
  cur : Option Sample
  /-- Deficit round robin (R125): per engine, its credit in cycles and the tick, plus one, it last issued an item in. -/
  credit : List (Nat × Nat × Nat)
  deriving DecidableEq, Repr

/-- A sealed pack in the reservoir or a ledger. -/
structure Pack where
  rank : Nat
  id : Nat
  len : Nat
  tile : Nat
  epoch : Nat
  madeTick : Nat
  /-- Tick at which it became resident (R135). -/
  resident : Option Nat
  /-- Received from a peer. -/
  peer : Bool
  /-- Chosen for exchange (R136), or held by a ring's ledger. -/
  chosen : Bool
  ring : Option Nat
  data : List Byte
  deriving DecidableEq, Repr

/-- Foundry state. -/
structure Foundry where
  sets : List (Nat × StreamSet)
  ctxs : List (Nat × Ctx)
  nextCtx : Nat
  /-- Slots held for a command in progress: command sequence number, context key, tile, local index (R140). For
  SSET_START the context key is the position in the list. -/
  slots : List (Nat × Nat × Nat × Nat)
  /-- Reservoir: capacity in GiB, residence and exchange fraction in force, exchange quota of the tick (R136, R137). -/
  capGiB : Nat
  minRes : Nat
  xfrac : Nat
  quota : Nat
  packs : List Pack
  deriving DecidableEq, Repr

/-- No set, no context; the manual gives no reservoir configuration before the first RESV_CFG. -/
def Foundry.reset : Foundry := {
  sets := [], ctxs := [], nextCtx := 0, slots := [], capGiB := 640, minRes := 0, xfrac := 0, quota := 0, packs := [] }

end Sys2Proof.Machine
end

