-- ==== Sys2Proof/Machine/StateHost.lean ====
section
/-! DEFINITION. State of the host port and of the functions that no register holds (chapter 10). Plain data. -/

namespace Sys2Proof.Machine

/-- A dirty-page log (R377): base, length, and the pages written since they were last copied, by number, rising. -/
structure DirtyLog where
  base : Nat
  len : Nat
  pages : List Nat
  deriving DecidableEq, Repr

/-- A function: Bus Master Enable; the time of the last heartbeat or enable (R370) and of the entry to ORPHAN (R372); the
grace has ended; the state, and ENABLE, before a freeze, whether freezing has begun to act, and its limit (R375); the end of
a reset in progress is due within 2 ms of `resetAt` and leaves the function ABSENT when `gone` (R374). `cto`: completion
timeout, ns (R353). `tag10`, `tag14`, `relaxed`: 10-Bit and 14-Bit Tag Requester Enable and Enable Relaxed Ordering of its Device
Control (R359, R360). -/
structure FuncX where
  bme : Bool
  hbAt : Nat
  orphanAt : Nat
  graceDone : Bool
  former : Nat
  freezing : Bool
  freezeBy : Option Nat
  revert : Bool
  resetAt : Option Nat
  gone : Bool
  dirty : Option DirtyLog
  cto : Nat
  tag10 : Bool
  tag14 : Bool
  relaxed : Bool
  deriving DecidableEq, Repr

def FuncX.reset : FuncX := {
  bme := false, hbAt := 0, orphanAt := 0, graceDone := false, former := 0, freezing := false, freezeBy := none
  revert := false, resetAt := none, gone := false, dirty := none, cto := 10000000
  tag10 := false, tag14 := false, relaxed := true }

/-- Functions that differ from `FuncX.reset`; NumVFs and VF Enable of each PF (R355); quarantined tags: link * 65,536 + tag,
function, and when quarantine ends (R361); MSI-X tables and PBAs: function * 1,024 + dword. No request is in flight between
commands, so no translation is in use then (R353). -/
structure HostState where
  funcs : List (Nat × FuncX)
  numVfs : List Nat
  vfEnable : List Bool
  quar : List (Nat × Nat × Nat)
  msix : List (Nat × Dword)
  deriving DecidableEq, Repr

def HostState.reset : HostState := {
  funcs := [], numVfs := [0, 0, 0, 0], vfEnable := [false, false, false, false], quar := [], msix := [] }

end Sys2Proof.Machine
end

