-- ==== Sys2Proof/Machine/StateIntg.lean ====
section
/-! DEFINITION. State of the integrity block (chapter 16) that no register holds. Plain data. -/

namespace Sys2Proof.Machine

/-- A slice that has begun to wait for its unit: its number, the tick of the edge at which it fell due, the engines of the
unit's tile still running an item, and whether it was deferred in this tick (R521 to R524). -/
structure WaitSlice where
  idx : Nat
  due : Nat
  run : List Nat
  late : Bool
  deriving DecidableEq, Repr

/-- An on-demand run in progress: its tile, its begin in ns, and the number of the service command, none for a request of
the MSS or of deck-core firmware (R530, R542). -/
structure LstRun where
  tile : Nat
  began : Nat
  seq : Option Nat
  deriving DecidableEq, Repr

/-- The self-test cycle (start as tick time, none where none runs; whether one starts at the next edge; how many of its slices
have fallen due; slices due and not yet picked, with the tick at which each fell due; slices picked and waiting), per-tile records (ticks of
the passes by 64 * tile + slice; edge of the epoch; tile of an interval issued in its epoch; tick of the last interval for a
fault; tick of the last fence; begin of the last on-demand run, ns), runs in progress, tiles whose next slice is to fail
(R542), stopped cores already answered (R519), the cause of a quiesce due at the next edge (R519, R545), the
begin of the running scrub pass of each package, ns (R547), and what each channel's LINK_CE has risen by
since when (R545), the last recalibration of each channel, and whether MBIST_FAIL_UNIT and MBIST_FAIL_ADDR hold a capture. -/
structure Intg where
  cycleAt : Option Nat
  fresh : Bool
  charged : Nat
  dues : List (Nat × Nat)
  wait : List WaitSlice
  passes : List (Nat × Nat)
  epochAt : List (Nat × Nat)
  issued : List Nat
  faultAt : List (Nat × Nat)
  fencedAt : List (Nat × Nat)
  lastRun : List (Nat × Nat)
  runs : List LstRun
  inject : List Nat
  answered : List Nat
  quiesceDue : Option Nat
  scrubAt : List (Nat × Nat)
  linkCe : List (Nat × Nat × Nat)
  recalAt : List (Nat × Nat)
  mbistHeld : Bool
  /-- Tiles whose stream core found its STREAM region wrong (R567). -/
  reload : List Nat
  deriving DecidableEq, Repr

/-- The first cycle starts at the first edge after the block is enabled (R521), which it is from reset. -/
def Intg.reset : Intg := {
  cycleAt := none, fresh := true, charged := 0, dues := [], wait := [], passes := [], epochAt := [], issued := []
  faultAt := [], fencedAt := [], lastRun := [], runs := [], inject := [], answered := [], quiesceDue := none
  scrubAt := [], linkCe := [], recalAt := [], mbistHeld := false, reload := [] }

/-- The unit of a slice: 0 to 31 the tiles, 0x40 to 0x43 the deck cores, 0x48 the MSS (R520, ERR_INFO). -/
def sliceUnit (n : Nat) : Nat := if n < 2048 then n / 64 else if n < 2112 then 0x40 + (n - 2048) / 16 else 0x48

/-- The slice within its unit. -/
def sliceOf (n : Nat) : Nat := if n < 2048 then n % 64 else (n - 2048) % 16

/-- The core of a unit. -/
def unitCore (u : Nat) : Nat := if u < 32 then u else if u < 0x48 then 32 + (u - 0x40) else 36

/-- The unit of a core. -/
def coreUnit (i : Nat) : Nat := if i < 32 then i else if i < 36 then 0x40 + (i - 32) else 0x48

/-- A slice holds a core: it waits for the core's unit, whose core stays between instructions (R523). -/
def Intg.holds (x : Intg) (core : Nat) : Bool := x.wait.any fun w => unitCore (sliceUnit w.idx) == core

/-- A slice waits for a tile, and the engine has ended the item that ran: what is pushed does not begin (R523). -/
def Intg.holdsEngine (x : Intg) (tile e : Nat) : Bool := x.wait.any fun w => sliceUnit w.idx == tile && !w.run.contains e

/-- An engine of a tile has ended its running item. -/
def Intg.engineEnded (x : Intg) (tile e : Nat) : Intg :=
  { x with wait := x.wait.map fun w => if sliceUnit w.idx = tile then { w with run := w.run.filter (· != e) } else w }

end Sys2Proof.Machine
end

