-- ==== Sys2Proof/Machine/StateMedia.lean ====
section
/-! DEFINITION. State of ingest, decode, shaping and the tensor block: per-context demultiplex and planning state, the
picture pool, the engine queues and result rings, profiles and graphs (chapters 05 and 06). -/

namespace Sys2Proof.Machine

/-- The streams of a shard the device uses (R147 to R152): the container's code, the video stream's PID, or its track's place,
and codec; the audio stream, the teletext stream and the PCR PID, where there is one; selectable audio streams; where the
presented part of the video track begins. -/
structure Sel where
  container : Nat
  video : Nat
  codec : Nat
  audio : Option Nat
  text : Option Nat
  pcr : Option Nat
  audios : Nat
  start : Int
  deriving DecidableEq, Repr

/-- A picture of a shard the context knows of: presentation and decoding time on the shard's timeline (R150), sequence resets
before it (R162), references and collocated picture by number, whether one is absent (R161), and what damaged it (R165). -/
structure Pic where
  hdr : PicHdr
  time : Int
  dtime : Int
  era : Nat
  refs : List Nat
  colloc : Option Nat
  broken : Bool
  brokenParse : Bool
  damaged : Bool
  /-- Another picture shown in its place (R159, show_existing_frame). -/
  shows : Option Nat
  labels : List TcLabel
  /-- Tick in which its headers were taken (R127). -/
  tick : Nat
  deriving DecidableEq, Repr

/-- A slot of the picture pool (R180): its picture, reconstructed or parsed; units issued and ended; stopped at a syntax error
(R183); units concealed or undecoded; concealed itself or decoded from a concealed picture (R166); output planes, row by row;
the motion data of a parsed picture. -/
structure PoolSlot where
  slot : Nat
  pic : Nat
  parsed : Bool
  bytes : Nat
  issued : Nat
  units : Nat
  stopped : Bool
  bad : List Nat
  concealed : Bool
  done : Bool
  tick : Nat
  planes : List (List (List Nat))
  motion : CodedMotion
  deriving DecidableEq, Repr

/-- A target of the sample in progress (R159, R170): sampled frame, pictures, parse only, counted as unanchored, its motion
record made, and a picture of it concealed or decoded from one that is (R166). -/
structure Target where
  frame : Nat
  pics : List Nat
  parse : Bool
  counted : Bool
  made : Bool
  concealed : Bool
  deriving DecidableEq, Repr

/-- What plan_sample issues (R160). -/
structure Plan where
  full : List Nat
  parse : List Nat
  broken : List Nat
  deriving DecidableEq, Repr

/-- A frame shaped for the sample (R190): sampled frame, slice offset of its output and bytes there, patch rows issued, patch
rows done, and the tick of the last band done. -/
structure Shaped where
  frame : Nat
  out : Nat
  len : Nat
  issued : Nat
  rows : Nat
  tick : Nat
  deriving DecidableEq, Repr

/-- The run of a graph over a temporal group or an audio chunk (R211, R223): its index, the next op and part to issue, the parts
that op is split into while it is, the input, WORK and RECORD offsets within their regions, and the record bytes left. -/
structure Run where
  index : Nat
  op : Nat
  part : Nat
  parts : Nat
  input : Nat
  work : Nat
  record : Nat
  left : Nat
  deriving DecidableEq, Repr

/-- A caption on display, or a span of the shard (R154): source, its times, and its text in UTF-8. -/
structure CapSpan where
  source : Nat
  start : Nat
  till : Nat
  text : List Byte
  deriving DecidableEq, Repr

/-- Per-context ingest state (R148 to R171, R187, R601). -/
structure Media where
  sel : Option Sel
  /-- Synchronised to the transport packets (R148). -/
  synced : Bool
  /-- Per PID: last continuity counter, and whether it has been repeated. -/
  cc : List (Nat × Nat × Bool)
  /-- PIDs whose PES is damaged until the next start, and the last picture each PID carried. -/
  gap : List Nat
  pes : List (Nat × Nat)
  /-- The previous PCR: value and shard offset, and the PCR before it (R150). -/
  lastPcr : Option (Nat × Nat)
  priorPcr : Option (Nat × Nat)
  /-- Offset of the timeline segment, and whether the next picture sets it. -/
  offset : Int
  segPending : Bool
  /-- Last unwrapped PTS and DTS, first presentation time, and last picture time. -/
  lastPts : Option Nat
  lastDts : Option Nat
  firstTime : Option Int
  lastTime : Option Int
  /-- Everything of the shard is demultiplexed. -/
  demuxed : Bool
  pics : List Pic
  /-- Sequence resets so far, and size, SRC_FMT and profile of the sequence (R162). -/
  era : Nat
  seq : Option (Nat × Nat × Nat × Nat)
  /-- MPEG-2 anchor fields and frames, newest first, none for one lost entirely; AV1 slots. -/
  anchors : List (Option Nat)
  av1 : List (Nat × Nat)
  pool : List PoolSlot
  targets : List Target
  plan : Plan
  /-- Damage was found while decoding: the sample is planned again at the next edge (R165). -/
  replan : Bool
  shaped : List Shaped
  visual : Option Run
  groups : Nat
  audioRun : Option Run
  chunks : Nat
  texts : Nat
  /-- Ticks, plus one, of the last refusals of a pool slot (R180) and of WORK space (R223). -/
  poolStall : Nat
  workStall : Nat
  crop : Option Area
  rate : Nat
  tcUse : Bool
  audio : List AudioFrame
  showing : List CapSpan
  spans : List CapSpan
  deriving DecidableEq, Repr

def Media.empty : Media := {
  sel := none, synced := false, cc := [], gap := [], pes := [], lastPcr := none, priorPcr := none, offset := 0
  segPending := false, lastPts := none, lastDts := none, firstTime := none, lastTime := none, demuxed := false, pics := []
  era := 0, seq := none, anchors := [], av1 := [], pool := [], targets := [], plan := ⟨[], [], []⟩, replan := false
  shaped := [], visual := none, groups := 0, audioRun := none, chunks := 0, texts := 0, poolStall := 0, workStall := 0, crop := none, rate := 1
  tcUse := false, audio := [], showing := [], spans := [] }

/-- A descriptor in an engine queue, with the tick it was pushed in. -/
structure EngItem where
  desc : List Byte
  tick : Nat
  deriving DecidableEq, Repr

/-- An engine of a tile: its queue, whose head runs, the tick in which the head started, and whether the head has run over
an edge (R181, R72). -/
structure Engine where
  queue : List EngItem
  start : Nat
  late : Bool
  /-- Tick, plus one, of the last pool slot refusal of the head. -/
  stall : Nat
  deriving DecidableEq, Repr

/-- An engine result: its engine and its four dwords (R183). -/
structure EngResult where
  engine : Nat
  dw : List Nat
  deriving DecidableEq, Repr

/-- A tokenizer graph in the device (chapter 06): image and whether it is still being loaded. -/
structure Graph where
  image : List Byte
  loading : Bool
  /-- Offset of its resident part from each tile's WEIGHT base (R219), the number of the loading command, and the order in which
  it began (R218). -/
  base : Nat
  seq : Nat
  began : Nat
  deriving DecidableEq, Repr

/-- A word of a slice that fails its code (R206): tile, offset, and whether it is uncorrectable. -/
structure SramLine where
  tile : Nat
  offset : Nat
  uncorrectable : Bool
  deriving DecidableEq, Repr

/-- Space of a slice region that a context holds (R190, R211, R223): tile, context, region code, offset within the region, bytes. -/
structure Hold where
  tile : Nat
  ctx : Nat
  region : Nat
  off : Nat
  len : Nat
  deriving DecidableEq, Repr

structure MediaState where
  ctx : List (Nat × Media)
  /-- Engine key: tile * 4 + engine, 1 decode slice, 2 frame shaper, 3 tensor block. -/
  engines : List (Nat × Engine)
  /-- Result rings, by tile, oldest first. -/
  results : List (Nat × List EngResult)
  profiles : List (Nat × List Byte)
  /-- Shard probes in progress: command sequence number and the time each began. -/
  probes : List (Nat × Nat)
  graphs : List (Nat × Graph)
  /-- Weight copies of loads in progress: graph, tile. -/
  copies : List (Nat × Nat)
  /-- Refills: tile, graphs still to be written; and refills due at the next edge: tile, graphs to be written again, and whether
  they are all the graphs loaded then. -/
  refills : List (Nat × List Nat)
  refillDue : List (Nat × List Nat × Bool)
  /-- Slice space held by the stream cores for groups, chunks, text, runs and records (R190, R211, R223). -/
  held : List Hold
  sram : List SramLine
  /-- Words of the LPDDR5X that fail their code: offset, uncorrectable. -/
  dram : List (Nat × Bool)
  deriving DecidableEq, Repr

def MediaState.reset : MediaState := {
  ctx := [], engines := [], results := [], profiles := [], probes := [], graphs := [], copies := [], refills := []
  refillDue := [], held := [], sram := [], dram := [] }

end Sys2Proof.Machine
end

