-- ==== Sys2Proof/Machine/StateMgmt.lean ====
section
/-! DEFINITION. State of the management subsystem (chapter 17): boot flash, boot, update and splice, sensors, sideband
endpoints. Plain data. -/

namespace Sys2Proof.Machine

/-- A component of a firmware image: its row of the component table, and its bytes (R564). -/
structure FwPart where
  ty : Nat
  cores : Nat
  load : Nat
  hash : List Byte
  bytes : List Byte
  deriving DecidableEq, Repr

/-- A firmware image in the boot flash: header bytes 0x000 to 0x43F, the trailer before RSA_SIG, KEY_IDX, the components, the
hand-over table, and whether the header is zero where it must be, the trailer verifies, and the component hashes match (R561,
R564). -/
structure FwImage where
  hdr : List Byte
  trail : List Byte
  keyIdx : Nat
  parts : List FwPart
  table : List Byte
  zero : Bool
  trailer : Bool
  hashes : Bool
  deriving DecidableEq, Repr

/-- A boot slot with its record: SEQ, ATTEMPTS, and whether the record verifies and names the image's header (R565). -/
structure FwSlot where
  image : Option FwImage
  seq : Nat
  attempts : Nat
  record : Bool
  deriving DecidableEq, Repr

/-- A qualification record (R415, R562): what a die's parameter page must show, the family it names, and its read-retry
table, one signed offset per read level in each entry. -/
structure QualRecord where
  maker : Nat
  family : Nat
  cellBits : Nat
  luns : Nat
  pageBytes : Nat
  spareBytes : Nat
  pagesPerBlock : Nat
  blocksPerLun : Nat
  levels : Nat
  model : List Byte
  retry : List (List Int)
  deriving DecidableEq, Repr

/-- The configuration block in the boot flash: VERSION, KEY_FLOOR, HOST, DEBUG, TOTALVFS of PF0 to PF3, the qualification
records, whether it passes R562, and its bytes. -/
structure CfgBlock where
  version : Nat
  keyFloor : Nat
  host : Nat
  debug : Nat
  totalVfs : List Nat
  qual : List QualRecord
  valid : Bool
  /-- Its bytes; none for the block the module is shipped with. -/
  raw : Option (List Byte)
  deriving DecidableEq, Repr

/-- A splice under way: the slot spliced in, the hand-over tick T, and the NVMe command that waits for it (R573). -/
structure Splice where
  slot : Nat
  at_ : Nat
  cmd : Option (Nat × Nat)
  deriving DecidableEq, Repr

/-- A firmware update in progress: 1 PLDM, 2 NVMe; and the components written by it (R583). -/
structure FwUpdate where
  path : Nat
  done : List Nat
  deriving DecidableEq, Repr

/-- An SPDM connection: how far its negotiation has come (0 none, 1 version, 2 capabilities, 3 algorithms), the signed
responses held by reference (0 CHALLENGE_AUTH, 1 MEASUREMENTS, 2 KEY_EXCHANGE_RSP) with the time at which each was sent and the
number of its open values, the
sessions (identifier, established, last message), bytes of a large request and of a large response in chunks, and the largest
message the requester takes (0: none given). -/
structure SpdmConn where
  phase : Nat
  signed : List (Nat × Nat × Nat)
  sessions : List (Nat × Bool × Nat)
  chunkIn : List Byte
  chunkOut : List Byte
  limit : Nat
  deriving DecidableEq, Repr

def SpdmConn.reset : SpdmConn := { phase := 0, signed := [], sessions := [], chunkIn := [], chunkOut := [], limit := 0 }

/-- A sensor's thresholds: upper and lower warning, critical and fatal, each set or not, and whether the last sample was
beyond one (R551, R582). -/
structure SensorThr where
  limits : List (Option Int)
  beyond : List Bool
  deriving DecidableEq, Repr

/-- The keys the ROM derives from the device key (R558): the identity seed, the key-wrapping key, the key that seals repair
sections and slot records, and the root key of the monotonic counters. -/
structure DevKeys where
  seed : List Byte
  wrap : List Byte
  sealing : List Byte
  root : List Byte
  deriving DecidableEq, Repr

/-- The boot flash and everything else of the MSS. `running`: 0 slot A, 1 slot B, 2 the recovery loader. -/
structure Mgmt where
  slots : List FwSlot
  loader : Option FwImage
  cfg : CfgBlock
  pendCfg : Option CfgBlock
  c0 : Nat
  c1 : Nat
  c2 : Nat
  c3 : Nat
  /-- The counters' root key in the boot flash once written, and whether the flash refused it; the keys derived at this
  power-up (R558). -/
  rootKey : Option (List Byte)
  rootRefused : Bool
  keys : Option DevKeys
  repairs : List (Nat × Nat × Nat)
  running : Nat
  /-- The running image (a splice may have changed it since the boot), and whether this boot passed over a slot. -/
  fw : Option FwImage
  fallback : Bool
  ready : Bool
  /-- The power-on self-test has completed; it holds the main domain (R539). -/
  posted : Bool
  hold : Bool
  update : Option FwUpdate
  splice : Option Splice
  sensors : List (Nat × Int)
  thresholds : List (Nat × SensorThr)
  dynAddr : Option Nat
  eids : List (Nat × Nat)
  tid : Nat
  /-- The event receiver registered, whether it polls, and the events that wait for its polls, numbered (R582). -/
  receiver : Option Nat
  polling : Bool
  eventNo : Nat
  events : List (Nat × List Byte)
  spdm : List (Nat × SpdmConn)
  deriving DecidableEq, Repr

/-- The SHA-384 of no bytes: the hash of the shipped image's empty component. -/
def FwPart.emptyHash : List Byte := beBytes 48
  0x38b060a751ac96384cd9327eb1b1e36a21fdb71114be07434c0cc7bf63f6e1da274edebfe76f65fbd51ad2f14898b95b

/-- The image a module is shipped with: every field as R564 states it, VERSION and SVN 0, RELEASED 1, one empty MSS component,
no hand-over block. -/
def FwImage.shipped : FwImage := {
  hdr := leBytes 4 0x49574645 ++ [1, 1] ++ leBytes 2 1 ++ List.replicate 8 0 ++ leBytes 4 1 ++ leBytes 4 0x5000 ++
    List.replicate 40 0 ++ [1, 0, 0, 0] ++ leBytes 4 0x5000 ++ List.replicate 8 0 ++ FwPart.emptyHash ++ List.replicate 960 0
  trail := List.replicate 440 0, parts := [{ ty := 1, cores := 0, load := 0, hash := FwPart.emptyHash, bytes := [] }]
  keyIdx := 0, table := [], zero := true, trailer := true, hashes := true }

/-- A qualification record of a family's geometry (R416): maker and model 0, 4 LUNs, 15 retry entries of zero offsets. -/
def QualRecord.shipped (family cellBits pagesPerBlock blocksPerLun : Nat) : QualRecord := {
  maker := 0, family := family, cellBits := cellBits, luns := 4, pageBytes := 16384, spareBytes := 2048
  pagesPerBlock := pagesPerBlock, blocksPerLun := blocksPerLun, levels := 2 ^ cellBits - 1, model := List.replicate 20 0
  retry := List.replicate 15 (List.replicate (2 ^ cellBits - 1) 0) }

/-- The configuration block a module is shipped with: one qualification record for each family. -/
def CfgBlock.shipped : CfgBlock := {
  version := 0, keyFloor := 0, host := 0, debug := 0, totalVfs := [252, 252, 252, 252], valid := true, raw := none
  qual := [.shipped 1 3 1536 5460, .shipped 2 3 1536 10920, .shipped 3 4 3072 5460] }

/-- The boot flash as a module of firmware option A is shipped, its released image in slots A and B (R3), started from slot A;
one x16 host link with the common reference clock and 252 VFs for each PF (R355). -/
def Mgmt.reset : Mgmt := {
  slots := [⟨some .shipped, 1, 0, true⟩, ⟨some .shipped, 0, 0, true⟩], loader := some .shipped
  cfg := .shipped, pendCfg := none, c0 := 0, c1 := 0, c2 := 0, c3 := 0
  rootKey := none, rootRefused := false, keys := none, repairs := [], running := 0, fw := some .shipped, fallback := false, ready := false, posted := false, hold := false
  update := none, splice := none, sensors := [], thresholds := [], dynAddr := none, eids := [], tid := 0, receiver := none, polling := false
  eventNo := 0, events := [], spdm := [] }

/-- What the boot flash keeps over a loss of both inputs (R556, R560). -/
def Mgmt.kept (m : Mgmt) : Mgmt :=
  { Mgmt.reset with
    slots := m.slots, loader := m.loader, cfg := m.cfg, pendCfg := m.pendCfg, c0 := m.c0, c1 := m.c1, c2 := m.c2, c3 := m.c3
    rootKey := m.rootKey, rootRefused := m.rootRefused, repairs := m.repairs, running := m.running, fw := m.fw }

end Sys2Proof.Machine
end

