-- ==== Sys2Proof/Machine/StateNvme.lean ====
section
/-! DEFINITION. State of the NVMe controllers and namespaces (chapter 11). Plain data. -/

namespace Sys2Proof.Machine

/-- A submission queue; the Admin queue is number 0. -/
structure NSq where
  base : Nat
  size : Nat
  prio : Nat
  cq : Nat
  head : Nat
  tail : Nat
  deriving DecidableEq, Repr

/-- A completion queue: `held` counts entries whose message coalescing holds back, since `heldAt`; `wait` are completions
that found the queue full (DW0, DW2, and DW3 without the phase). -/
structure NCq where
  base : Nat
  size : Nat
  vec : Nat
  ien : Bool
  head : Nat
  tail : Nat
  phase : Bool
  held : Nat
  heldAt : Nat
  wait : List (List Nat)
  deriving DecidableEq, Repr

/-- A fetched command: queue, CID, its 16 dwords, a number of its own, whether it has begun and whether its completion is
discarded (R399); bytes in hand for a write with their protection information; what it writes: 0 data, 1 zeroes,
2 deallocation; ranges (LBA, blocks); the folded place it goes straight to, where staging is full (R422); programmed; and the
mirror record that carries it (R401). -/
structure NCmd where
  sq : Nat
  cid : Nat
  dw : List Nat
  num : Nat
  begun : Bool
  drop : Bool
  data : List Byte
  pi : List Byte
  kind : Nat
  ranges : List (Nat × Nat)
  place : Option (Nat × Nat × Nat)
  programmed : Bool
  record : Option Nat
  deriving DecidableEq, Repr

/-- A controller. `arb` to `asyncCfg` are the features of R405; `cd` the vectors whose coalescing is disabled; `turn` the
last queue served in the urgent, high, medium and low class, `credit` what the weighted classes may still send, and
`burst` the queue in a burst and what is left of it (R385); `deficit`, `used`, `total`, `heldTicks` and `heldNow` the
function's share (R386). -/
structure Ctrl where
  cc : Nat
  rdy : Bool
  cfs : Bool
  shst : Nat
  aqa : Nat
  asq : Nat
  acq : Nat
  intms : Nat
  sqs : List (Nat × NSq)
  cqs : List (Nat × NCq)
  cmds : List NCmd
  aers : List Nat
  events : List Nat
  arb : Nat
  tempThr : Nat
  nq : Nat
  coal : Nat
  asyncCfg : Nat
  cd : List Nat
  turn : List Nat
  credit : List Nat
  burst : Nat × Nat
  deficit : Nat
  used : Nat
  total : Nat
  heldTicks : Nat
  heldNow : Bool
  errors : List (List Byte)
  errCount : Nat
  changed : List Nat
  hot : Bool
  deriving DecidableEq, Repr

def Ctrl.reset : Ctrl := {
  cc := 0, rdy := false, cfs := false, shst := 0, aqa := 0, asq := 0, acq := 0, intms := 0, sqs := [], cqs := [], cmds := []
  aers := [], events := [], arb := 0, tempThr := 0, nq := 0, coal := 0, asyncCfg := 0, cd := [], turn := [0, 0, 0, 0]
  credit := [0, 0, 0], burst := (0, 0), deficit := 0, used := 0, total := 0, heldTicks := 0, heldNow := false, errors := []
  errCount := 0, changed := [], hot := false }

/-- A namespace that is not ABSENT (R400, R403): 1 UNATTACHED, 2 ATTACHED, 3 FORMATTING, 4 SANITIZING, and the state before
the last two; kind; LBA format, metadata extended, DPS; GiB; blocks; NGUID; the attached controller; and for a mirrored
one its policy, whether this device owns it, whether it is degraded (1) or resynchronising (2), the tick of its last
acknowledged record, bytes written while degraded and left to resynchronise. -/
structure Ns where
  state : Nat
  former : Nat
  kind : Nat
  lbaf : Nat
  ext : Bool
  dps : Nat
  gib : Nat
  size : Nat
  nguid : List Byte
  ctrl : Option Nat
  policy : Nat
  owned : Bool
  mirror : Nat
  ackTick : Nat
  degBytes : Nat
  leftBytes : Nat
  deriving DecidableEq, Repr

/-- Controllers that differ from `Ctrl.reset`, namespaces by NSID, the next command number, the sanitize in progress
(action) with the NSIDs still to erase, the last Sanitize Status and its progress, downloaded image pieces (R404), and the
function whose round of R386 is being served. -/
structure Nvme where
  ctrls : List (Nat × Ctrl)
  nss : List (Nat × Ns)
  num : Nat
  sanitize : Option Nat
  sanStat : Nat
  sanCdw10 : Nat
  image : List (Nat × List Byte)
  deriving DecidableEq, Repr

def Nvme.reset : Nvme := {
  ctrls := [], nss := [], num := 0, sanitize := none, sanStat := 0, sanCdw10 := 0, image := [] }

/-- What a reset of the main domain leaves of a controller: what its function has begun since the last cold reset (R406). -/
def Ctrl.kept (x : Ctrl) : Ctrl := { Ctrl.reset with total := x.total, heldTicks := x.heldTicks }

/-- What a reset of the main domain leaves: the namespaces and their attachment, the sanitize status, and the totals of the
functions. -/
def Nvme.kept (n : Nvme) : Nvme :=
  { Nvme.reset with
    ctrls := (n.ctrls.map fun e => (e.1, e.2.kept)).filter fun e => e.2 != Ctrl.reset
    nss := n.nss, num := n.num, sanitize := n.sanitize, sanStat := n.sanStat, sanCdw10 := n.sanCdw10 }

end Sys2Proof.Machine
end

