-- ==== Sys2Proof/Machine/StatePair.lean ====
section
/-! DEFINITION. State of the pair (chapter 14): the partner, leases and the witness, the mirror records on their way, and
the replica of what the partner owns. Plain data. The pair state stands in PAIR.BLK_STAT.STATE. -/

namespace Sys2Proof.Machine

/-- What the device owns, as the last record told it (R478): rings and sets with their descriptors, shards of each set, loaded
graphs (by number) and profiles (1,024 + number), positions (set, shard, next sample), packs (ORIGIN_RANK, identifier), committed
CIs, and manifests landed. -/
structure MirView where
  rings : List (Nat × List Byte)
  sets : List (Nat × List Byte)
  shards : List (Nat × Nat)
  names : List Nat
  pos : List (Nat × Nat × Nat)
  packs : List (Nat × Nat)
  ledger : List (Nat × Nat)
  manifests : List (List Byte)
  deriving DecidableEq, Repr

def MirView.empty : MirView := {
  rings := [], sets := [], shards := [], names := [], pos := [], packs := [], ledger := [], manifests := [] }

/-- The replica of the partner's objects (R478, R479): as `MirView`, with shard entries, positions by set and shard, packs of the
reservoir index (identifier, length, chosen for exchange), and packs the partner received from peers. -/
structure Replica where
  rings : List (Nat × List Byte)
  sets : List (Nat × List Byte)
  shards : List (Nat × List (List Byte))
  names : List Nat
  pos : List (Nat × Nat × Nat)
  packs : List (Nat × Nat × Bool)
  ledger : List (Nat × Nat)
  received : List (List Byte)
  deriving DecidableEq, Repr

def Replica.empty : Replica := {
  rings := [], sets := [], shards := [], names := [], pos := [], packs := [], ledger := [], received := [] }

/-- A part of a MIRROR or RESYNC record that has arrived. -/
structure MirPart where
  image : Bool
  seq : Nat
  part : Nat
  parts : Nat
  data : List Byte
  deriving DecidableEq, Repr

/-- A JOIN from the partner that matched (R475): its UNIT_ID and last epoch. -/
structure PeerJoin where
  uid : Nat
  last : Nat
  deriving DecidableEq, Repr

/-- The witness message held: arrival, MAIN, HAWSER_SEEN, LEASE_TO. -/
structure Witness where
  at_ : Nat
  main : Nat
  seen : Nat
  lease : Nat
  deriving DecidableEq, Repr

/-- The pair: last pair epoch; the identity PAIR_JOIN expects, 0 for any; whether JOINING followed a loss of synchronisation; the
JOIN received; the base tick; whether this device's image was acknowledged and the partner's applied; the last partner SEQ
applied; the SEQ whose acknowledgement PAIR.LAST_ACK shows from the next edge; the lease held; the tick of the last hawser frame
and of the last frame or witness; whether one has come since LEASE_OUT rose; the last TICK frame received (count, time); the
witness, what was last sent, FINAL_SEQ of a TAKEOVER notice; parts that have arrived, the last view told, the replica, manifests
that came by mirroring; adopted rings that wait for a doorbell (mirrored CI, P); packs to remake, start positions, and the indices
of adopted rings and sets. -/
structure Pair where
  lastEpoch : Nat
  expected : Nat
  rejoin : Bool
  join : Option PeerJoin
  base : Nat
  acked : Bool
  applied : Bool
  lastApplied : Nat
  ackPend : Option Nat
  leaseIn : Nat
  lastFrame : Option Nat
  lastHeard : Option Nat
  heard : Bool
  echo : Option (Nat × Nat)
  witness : Option Witness
  sent : List Nat
  finalSeq : Option Nat
  parts : List MirPart
  view : MirView
  replica : Replica
  foreign : List (List Byte)
  adopted : List (Nat × Nat × Nat)
  remake : List Nat
  startAt : List (Nat × Nat × Nat)
  taken : List Nat
  /-- The pair state while PAIR is STOPPING, when BLK_STAT.STATE does not hold it (R88, R474). -/
  stopMode : Nat
  /-- The pair state that the next edge brings, when a frame or a command asked for one (R75). -/
  next : Option Nat
  deriving DecidableEq, Repr

def Pair.reset : Pair := {
  lastEpoch := 0, expected := 0, rejoin := false, join := none, base := 0, acked := false, applied := false, lastApplied := 0
  ackPend := none, leaseIn := 0, lastFrame := none, lastHeard := none, heard := false, echo := none, witness := none, sent := []
  finalSeq := none, parts := [], view := .empty, replica := .empty, foreign := [], adopted := [], remake := [], startAt := []
  taken := [], stopMode := 0x80, next := none }

end Sys2Proof.Machine
end

