-- ==== Sys2Proof/Machine/StateRmt.lean ====
section
/-! DEFINITION. State of the remote memory transport and of egress scheduling (chapter 09): queue pairs, work requests,
packets in flight, received messages, egress queues and their virtual times. Plain data. -/

namespace Sys2Proof.Machine

/-- A data packet of a QP, from the time its message begins until it is acknowledged (R313, R328). `wqe` is the SQ index of
its work request (none for responses), `st` 0 waiting to be admitted, 1 in an egress queue, 2 in flight, 3 held for an RNR
delay; `tries` transmissions so far; `sentAt` the last one; `sub` the sub-port it went on; `fast` already sent again for
three later packets acknowledged; `rnr` RNR retries of its message and `until_` the end of its RNR delay (R335). -/
structure TxPkt where
  psn : Nat
  opc : Nat
  flags : Nat
  msn : Nat
  key : Nat
  offset : Nat
  total : Nat
  addr : Nat
  aux : Nat
  payload : List Byte
  wqe : Option Nat
  st : Nat
  tries : Nat
  sentAt : Nat
  sub : Option Nat
  fast : Bool
  rnr : Nat
  until_ : Nat
  deriving DecidableEq, Repr

/-- Where a local buffer lies (R324): a function's host memory with its PASID, or the LPDDR5X. Addresses are of the first
byte. -/
inductive Spot where
  | none
  | host (func : Nat) (pasid : Option Nat) (addr : Nat)
  | dram (off : Nat)
  deriving DecidableEq, Repr

/-- A fetched work request (R324). `idx` is its ring index; `spot` its local buffer; `begun` it has begun; `posted` a RECV
may take a message; `status` its outcome while it waits for earlier ones to complete (R331); `bytes` moved; `msn` its
message; `psn` its first packet; `ts` the raw timestamp. -/
structure Wqe where
  idx : Nat
  op : Nat
  flags : Nat
  len : Nat
  wrId : Nat
  spot : Spot
  imm : Nat
  raddr : Nat
  rkey : Nat
  waitQp : Nat
  waitRq : Bool
  waitCount : Nat
  begun : Bool
  posted : Bool
  status : Option Nat
  bytes : Nat
  msn : Nat
  psn : Nat
  readId : Nat
  ts : Option Nat
  deriving DecidableEq, Repr

/-- A message being received that consumes a RECV, or an exchange message (R326, R333, R337): MSN, length, bytes placed,
immediate value if any, whether it is a SEND, the pieces of an exchange message, and complete. -/
structure RxMsg where
  msn : Nat
  total : Nat
  placed : Nat
  imm : Option Nat
  send : Bool
  pieces : List (Nat × List Byte)
  complete : Bool
  deriving DecidableEq, Repr

/-- A queue pair that is not ABSENT (R339, R340): 1 DEFINED, 2 READY, 3 ERROR, 4 QUIESCING, 5 FROZEN. Ring indices are
free-running 16-bit counts. -/
structure Qp where
  state : Nat
  ty : Nat
  loc : Nat
  acc : Bool
  accPort : Nat
  func : Nat
  sqBase : Nat
  rqBase : Nat
  cqBase : Nat
  sqLog : Nat
  rqLog : Nat
  cqLog : Nat
  sub : Nat
  cls : Nat
  vec : Nat
  portMask : Nat
  paths : Nat
  ipv6 : Bool
  remote : Nat
  part : Nat
  udpBase : Nat
  ip : Nat
  /-- Rings: tails rung, next entries to fetch, CQ head and tail. -/
  sqTail : Nat
  sqNext : Nat
  rqTail : Nat
  rqNext : Nat
  cqHead : Nat
  cqTail : Nat
  sq : List Wqe
  rq : List Wqe
  sqDone : Nat
  rqDone : Nat
  /-- Sending: next PSN and MSN, packets oldest first, rate in Mb/s, the time the next packet is admitted, the last cut,
  a CNP in this tick, position among the sub-ports, and the path index of each sub-port. -/
  psn : Nat
  msn : Nat
  tx : List TxPkt
  rate : Nat
  nextAt : Nat
  cutAt : Option Nat
  cnp : Bool
  rr : Nat
  path : List Nat
  /-- Receiving: expected PSN, PSNs above it marked received, next MSN to complete, messages, plain WRITE messages in
  progress (address, length, MSN, bytes placed), packets since the last ACK, when the pending ACK is due, last NAK per
  code, last CNP sent, FLUSH_REQs and READ_REQs accepted and not yet answered. -/
  expect : Nat
  got : List Nat
  rxMsn : Nat
  rxNew : Nat
  msgs : List RxMsg
  writes : List (Nat × Nat × Nat × Nat)
  since : Nat
  ackAt : Option Nat
  nakAt : List (Nat × Nat)
  cnpAt : Option Nat
  flushes : List Nat
  /-- Tick count at which QUIESCING ends, and the state after it (R322). -/
  quietTick : Nat
  target : Nat
  deriving DecidableEq, Repr

/-- A frame in the egress queues (R344): sub-port, class, subscriber, QP, what it is (0 data packet of PSN `psn`, 1 ACK or
CNP, 2 raw frame), bytes on the wire, CE mark, bytes of a control packet or raw frame, and whether a gate or a pause has
held it back. -/
structure Frame where
  sub : Nat
  cls : Nat
  subscr : Nat
  qp : Nat
  kind : Nat
  psn : Nat
  len : Nat
  ce : Bool
  bytes : List Byte
  gateHeld : Bool
  pauseHeld : Bool
  deriving DecidableEq, Repr

/-- A child of a fair queueing node (R345): start tag of its head packet, last finish tag, and whether it is eligible. -/
structure WfqTag where
  start : Rat
  fin : Rat
  active : Bool
  deriving DecidableEq, Repr

/-- Transport and egress state. Node keys: sub-port * 8 + class below, sub-port above; subscriber children are keyed
(sub-port * 8 + class) * 1024 + subscriber. `tokens` and `police` are buckets in 1/80 bytes with the time they were filled
to; `busy` is when each sub-port is free; `pause` holds sub-port * 8 + priority until a time; `xoffSent` lists those the
device has paused at its peer (R350); `dbLo` is FUNC.RMT_DB_LO;
`stalled` says that sending waits for staging space. -/
structure Rmt where
  qps : List (Nat × Qp)
  frames : List Frame
  subV : List (Nat × Rat)
  subTag : List (Nat × WfqTag)
  clsV : List (Nat × Rat)
  clsTag : List (Nat × WfqTag)
  tokens : List (Nat × Nat × Nat)
  police : List (Nat × Nat × Nat)
  busy : List Nat
  pause : List (Nat × Nat)
  xoffSent : List Nat
  dbLo : List (Nat × Nat)
  stalled : Bool
  deriving DecidableEq, Repr

def Rmt.reset : Rmt := {
  qps := [], frames := [], subV := [], subTag := [], clsV := [], clsTag := [], tokens := [], police := []
  busy := List.replicate 16 0, pause := [], xoffSent := [], dbLo := [], stalled := false }

end Sys2Proof.Machine
end

