-- ==== Sys2Proof/Machine/State.lean ====
section
/-! DEFINITION. The state of the block, its faults and refusals, and the state after reset. -/

namespace Sys2Proof.Machine

/-- Faults: stops of the machine. -/
inductive Fault where
  /-- Raised by nothing: every event of the block has its effect (kept so that the type is inhabited; safe). -/
  | none
  deriving DecidableEq, Repr

/-- Refusals. -/
inductive Refusal where
  /-- The command has no meaning in this model yet (raised by the dispatch alone; safe). -/
  | notModelled (mnemonic : String)
  deriving DecidableEq, Repr

/-- The whole state of the device. -/
structure State where
  /-- Time of the model, ns, and the number of the next open value (the model's own). -/
  now : Nat
  fresh : Nat
  /-- Registers in force, by BAR0 offset; unlisted registers hold their reset value. -/
  regs : List (Nat × Dword)
  /-- Shadows of the RWS fields. -/
  shadow : List (Nat × Dword)
  /-- Reader latches of R58: (reader, register) to value. -/
  latches : List (Nat × Dword)
  /-- Entries of the indexed tables (windows, keys, subscribers, shares) in force, and their shadows. -/
  tabAct : List (Nat × Dword)
  tabSh : List (Nat × Dword)
  /-- Pending commits: page base and arrival time (R74). -/
  commits : List (Nat × Nat)
  /-- Everything sent, in order; the completions held back for silenced functions, and where each is to be written:
  function, location, address, bytes (R371). -/
  out : List Emit
  held : List (Nat × Emit)
  heldData : List (Nat × Nat × Nat × List Byte)
  power : Power
  tick : Tick
  /-- Service queue pairs that exist, by function * 64 + pair, and the commands in hand. -/
  pairs : List (Nat × QPair)
  cmds : List SvcCmd
  cmdSeq : Nat
  /-- Event log, oldest first (R552). -/
  log : List LogEntry
  tags : Tags
  foundry : Foundry
  media : MediaState
  feed : Feed
  rmt : Rmt
  host : HostState
  ciph : Ciph
  flash : Flash
  nvme : Nvme
  ckpt : Ckpt
  pair : Pair
  intg : Intg
  mgmt : Mgmt
  /-- Cores 0 to 31 of the tiles, 32 to 35 the deck cores, 36 the MSS (R227). -/
  cores : List Core
  /-- LPDDR5X, slices and local SRAMs. -/
  mem : Memory
  /-- Commands waiting, first in first out. -/
  pending : List Instr
  deriving DecidableEq, Repr

/-- Power state after a cold reset, main domain just released. -/
def Power.reset : Power := {
  phase := .running, alwaysOn := true, auxInUse := false, absentSince := none, startAt := 0, resetN := true,
  resetLowSince := none, resetPending := false, below62 := 0, below56 := 0, below52 := 0, ge64Since := none,
  in6280Since := none, in6080Since := none, gt84Since := none, quiesce := none, downCause := 0, inputOpen := false,
  powerLossWritten := false, cool1 := none, cool2 := none, cool3 := none, tripLatched := false, railFailAt := none,
  railRetried := false, samples := [], excRun := 0, forced := false, capCut := false, droop := [], stretchFrom := [],
  fwReady := [false, false], releaseAt := 0, perstAt := [0, 0], cold := false, pwrOk := true, flashPfail := false,
  thermTrip := false, slotId := 7, halyardIn := false, jtagSel := false, uartRxd := true, jtagTck := false, jtagTms := true,
  jtagTdi := true, jtagTrstN := false, aux18 := true, mssUpAt := 0, capDue := false }

/-- Tick state at the first tick edge after a cold reset: count 0, the reset period, base budgets of R69 (R57). -/
def Tick.reset : Tick := {
  count := 0, started := true, edgeAt := 0, len := 250000, period := 250, pendPeriod := none, histTick := 0, histNs := 0,
  timeUs := 0, good := [0, 0, 0, 0], bad := [0, 0, 0, 0], lastSeen := [0, 0, 0, 0],
  unusable := [false, false, false, false], wasLost := [false, false, false, false], carried := none, ptpRef := none, run := [(0, 0), (0, 0), (0, 0), (0, 0)], hold := (0, 0), rem := 0, pendSwitch := none,
  stepping := false, holdoverSince := none, budget := List.replicate 128 495000, carry := List.replicate 32 0,
  halWait := none, halLast := none }

/-- The device right after a cold reset, at the first tick edge: every register at its reset value (no entry listed),
nothing in hand, nothing sent (R10, R57). -/
def State.reset : State := {
  now := 0, fresh := 0, regs := [], shadow := [], latches := [], tabAct := [], tabSh := [], commits := [], out := [], held := [], heldData := [],
  power := .reset, tick := .reset, pairs := [], cmds := [], cmdSeq := 0, log := [], tags := .reset, foundry := .reset, media := .reset, feed := .reset, rmt := .reset, host := .reset, ciph := .reset, flash := .reset, nvme := .reset, ckpt := .reset, pair := .reset, intg := .reset, mgmt := .reset,
  cores := List.replicate 36 (.reset .held) ++ [.reset .running], mem := [], pending := [] }

end Sys2Proof.Machine
end

