-- ==== Sys2Proof/Machine/Registers.lean ====
section
/-! DEFINITION. The register file: one home for every register of every page, keyed by its BAR0 offset in PF0 (R94), with
the behaviour of each access type (R8), the values in force beside the shadows (RWS), the reader latches of R58 and the
registers that are views of other state. -/

namespace Sys2Proof.Machine

/-- BAR0 offset of a register (R94). -/
def pageAt (p : Page) (off : Nat) : Nat := pageBase p.ty + 0x1000 * p.inst + off

abbrev pGLB : Page := ⟨.glb, 0⟩
abbrev pTICK : Page := ⟨.tick, 0⟩
abbrev pMSS : Page := ⟨.mss, 0⟩
abbrev pPWR : Page := ⟨.pwr, 0⟩
abbrev pFEED : Page := ⟨.feed, 0⟩
abbrev pRMT : Page := ⟨.rmt, 0⟩
abbrev pEGS : Page := ⟨.egs, 0⟩
abbrev pNVME : Page := ⟨.nvme, 0⟩
abbrev pFTL : Page := ⟨.ftl, 0⟩
abbrev pCKPT : Page := ⟨.ckpt, 0⟩
abbrev pPAIR : Page := ⟨.pair, 0⟩
abbrev pCIPH : Page := ⟨.ciph, 0⟩
abbrev pINTG : Page := ⟨.intg, 0⟩
abbrev pPERF : Page := ⟨.perf, 0⟩
abbrev pTILE (t : Nat) : Page := ⟨.tile, t⟩
abbrev pDEC (t : Nat) : Page := ⟨.dec, t⟩
abbrev pSHP (t : Nat) : Page := ⟨.shp, t⟩
abbrev pTEN (t : Nat) : Page := ⟨.ten, t⟩
abbrev pSRAMT (t : Nat) : Page := ⟨.sramt, t⟩
abbrev pLINK (l : Nat) : Page := ⟨.link, l⟩
abbrev pETH (e : Nat) : Page := ⟨.eth, e⟩
abbrev pHOST (h : Nat) : Page := ⟨.host, h⟩
abbrev pFCH (c : Nat) : Page := ⟨.fch, c⟩
abbrev pMEMC (m : Nat) : Page := ⟨.memc, m⟩
abbrev pFUNC (f : Nat) : Page := ⟨.func, f⟩

/-- The page a BAR0 offset lies in, if the map lists one there (R94). -/
def pageOf (addr : Nat) : Option Page :=
  allTypes.findSome? fun ty =>
    if pageBase ty ≤ addr ∧ addr < pageBase ty + 0x1000 * pageInstances ty then
      some ⟨ty, (addr - pageBase ty) / 0x1000⟩
    else none

/-- What the configuration block in force sets for the host port: two x8 links in place of one x16 (R354), its own reference
clocks, REFCLK_A and REFCLK_B ignored (R33), and TotalVFs of a PF (R355). -/
def bifurcated (s : State) : Bool := bitOf s.mgmt.cfg.host 0
def sris (s : State) : Bool := bitOf s.mgmt.cfg.host 1
def totalVfs (s : State) (pf : Nat) : Nat := s.mgmt.cfg.totalVfs.getD pf 0

/-- The page exists for accesses: HOST[1] answers only while the port is bifurcated (R94). -/
def pagePresent (s : State) (p : Page) : Bool :=
  decide (p.inst < pageInstances p.ty) && !(p.ty == .host && p.inst == 1 && !bifurcated s)

/-- The row of a list that covers an offset. -/
def rowAt (rows : List RegRow) (off : Nat) : Option RegRow :=
  rows.find? fun r =>
    decide (r.off ≤ off) &&
      (if r.stride = 0 then r.off == off
       else (off - r.off) % r.stride == 0 && decide ((off - r.off) / r.stride < r.count))

/-- The PENNANT row of a block: its bits, or none (chapter of the block). -/
def pennantBits (ty : PageType) : List RegField :=
  match rowAt (ownRows ty) R.PENNANT with
  | some r => r.fields
  | none => []

/-- The fields of the register at an offset of a page: the common header, the block's own rows, and PENNANT_EN and
PENNANT_FORCE made from PENNANT (R84). -/
def fieldsAt (ty : PageType) (off : Nat) : List RegField :=
  if off = R.PENNANT_EN then (pennantBits ty).map fun f => { f with ty := .rw, reset := 0 }
  else if off = R.PENNANT_FORCE then (pennantBits ty).map fun f => { f with ty := .wo, reset := 0 }
  else match rowAt commonRows off with
    | some r => r.fields
    | none => match rowAt (ownRows ty) off with
      | some r => r.fields
      | none => []

/-- Cold-reset values that differ by instance: BLK_ID, ENABLE and STATE (R87, BLK_CTL), and the per-instance fields of
the chapters (R363; chapters 06, 08, 10, 17). -/
def instReset (p : Page) (off : Nat) : Option Nat :=
  let always := p.ty == .glb || p.ty == .tick || p.ty == .mss || p.ty == .pwr || p.ty == .host || p.ty == .intg
  if off = R.BLK_ID then some (pageCode p.ty * 2 ^ 16 + p.inst)
  else if off = R.BLK_CTL then (if always || p.ty == .memc then some 0x20001 else none)
  else if off = R.BLK_STAT then
    (if always then some 1 else if p.ty == .memc then some 0x80
     else if p.ty == .func && decide (4 ≤ p.inst) then some 0x82 else none)
  else match p.ty with
    | .link => if off = R.LINK.CFG then some (0xFF000000 + (if 44 ≤ p.inst then 2 else 0)) else none
    | .sramt =>
      if off = R.SRAMT.BLK_CAP0 then some (0xC0000000 + p.inst / 8)
      else none
    | .func =>
      if off = R.FUNC.BLK_CAP0 then some p.inst
      else if off = R.FUNC.BLK_CAP1 then some (if p.inst = 0 then 96 else 65)
      else if off = R.FUNC.RES_QP then some (if p.inst = 0 then 16384 * 2 ^ 16 else 0)
      else if off = R.FUNC.RES_SUB then some (if p.inst = 0 then 1024 * 2 ^ 16 else 0)
      else if off = R.FUNC.RES_WIN then some (if p.inst = 0 then 1024 else 0)
      else none
    | .mss =>
      if off = R.MSS.UNIT_ID_LO then some (Config.unitId % 2 ^ 32)
      else if off = R.MSS.UNIT_ID_HI then some (Config.unitId / 2 ^ 32 % 2 ^ 32)
      else none
    | _ => none

/-- The cold-reset value of a register (R10). -/
def resetReg (p : Page) (off : Nat) : Dword :=
  match instReset p off with
  | some v => BitVec.ofNat 32 v
  | none => BitVec.ofNat 32 ((fieldsAt p.ty off).foldl (fun a f => a + f.reset % 2 ^ (f.hi + 1 - f.lo) * 2 ^ f.lo) 0)

/-- The value in force of a register. -/
def getReg (s : State) (p : Page) (off : Nat) : Dword :=
  match mget s.regs (pageAt p off) with
  | some v => v
  | none => resetReg p off

/-- Hardware sets a register; a value equal to the reset value is not listed. -/
def setReg (s : State) (p : Page) (off : Nat) (v : Dword) : State :=
  { s with regs := mputD s.regs (pageAt p off) (resetReg p off) v }

/-- The shadow of a register (R8, RWS). -/
def getShadow (s : State) (p : Page) (off : Nat) : Dword :=
  match mget s.shadow (pageAt p off) with
  | some v => v
  | none => resetReg p off

def setShadow (s : State) (p : Page) (off : Nat) (v : Dword) : State :=
  { s with shadow := mputD s.shadow (pageAt p off) (resetReg p off) v }

/-- The value in force as a number. -/
def reg (s : State) (p : Page) (off : Nat) : Nat := (getReg s p off).toNat

def setRegN (s : State) (p : Page) (off v : Nat) : State := setReg s p off (BitVec.ofNat 32 v)

/-- Field [lo+n-1:lo] of a register in force. -/
def fld (s : State) (p : Page) (off lo n : Nat) : Nat := bitsOf (reg s p off) lo n

def setFld (s : State) (p : Page) (off lo n v : Nat) : State := setRegN s p off (withBits (reg s p off) lo n v)

/-- Adds to a counter register, wrapping at 2^32. -/
def addReg (s : State) (p : Page) (off n : Nat) : State := setRegN s p off (reg s p off + n)

/-- Adds to a counter register, saturating at `max`. -/
def addSat (s : State) (p : Page) (off n max : Nat) : State := setRegN s p off (min max (reg s p off + n))

/-- A 64-bit register pair (LO at `off`, HI at `off + 4`). -/
def reg64 (s : State) (p : Page) (off : Nat) : Nat := reg s p off + 2 ^ 32 * reg s p (off + 4)

def setReg64 (s : State) (p : Page) (off v : Nat) : State := setRegN (setRegN s p off v) p (off + 4) (v / 2 ^ 32)

/-- BLK_STAT.STATE (R87). -/
def blkState (s : State) (p : Page) : Nat := fld s p R.BLK_STAT 0 8

def setBlkState (s : State) (p : Page) (v : Nat) : State := setFld s p R.BLK_STAT 0 8 v

/-- BLK_STAT.EPOCH (R7, R88). -/
def blkEpoch (s : State) (p : Page) : Nat := fld s p R.BLK_STAT 16 16

def setBlkEpoch (s : State) (p : Page) (v : Nat) : State := setFld s p R.BLK_STAT 16 16 v

/-- An instance accepts no work while FENCED or REJOINING (R89). -/
def blkFenced (s : State) (p : Page) : Bool := blkState s p == 3 || blkState s p == 5

def blkRunning (s : State) (p : Page) : Bool := blkState s p == 1

/-- The RWL lock of a page holds from ENABLE = 1 until the block is disabled or soft-reset (R8). -/
def blkLocked (s : State) (p : Page) : Bool :=
  let st := blkState s p
  !(st == 0 || ((st == 3 || st == 5 || st == 4) && fld s p R.BLK_CTL 0 1 == 0))

/-- Readers with a latch of their own (R58). -/
def agentKey : Agent → Nat
  | .func f => f
  | .mss => 2000
  | .core c => 2001 + c

/-- The key of a reader's latch on the register at `addr`. -/
def latchKey (a : Agent) (addr : Nat) : Nat := agentKey a * 2 ^ 32 + addr

/-- A field's access type in an agent's view: the MSS writes PWR.CAP_MGMT as RWS (chapter 01, R93). -/
def viewType (a : Agent) (p : Page) (off : Nat) (f : RegField) : Access :=
  if a = .mss ∧ p.ty = .pwr ∧ off = R.PWR.CAP_MGMT ∧ f.ty = .ro then .rws else f.ty

/-- Bytes in transmit staging: packets begun and not acknowledged (R328). -/
def stagedOf (r : Rmt) : Nat :=
  (r.qps.map fun e => ((e.2.tx.filter fun p => p.st != 0 || p.tries != 0).map fun p => p.payload.length).sum).sum

/-- QPs in a state (R340). -/
def qpsIn (r : Rmt) (st : Nat) : Nat := (r.qps.filter fun e => e.2.state == st).length

/-- Function index at position `n` of a host link (R355). -/
def linkFunc (s : State) (l n : Nat) : Nat :=
  let vfs := totalVfs s 0 + totalVfs s 1
  if l = 0 then n else if n < 2 then n + 2 else n + 2 + vfs

/-- Host link of a function (R354). -/
def hostLink (s : State) (f : Nat) : Nat :=
  let vfs := totalVfs s 0 + totalVfs s 1
  if ¬ bifurcated s then 0 else if f < 2 then 0 else if f < 4 then 1 else if f < 4 + vfs then 0 else 1

/-- HOST.ORPHAN_MAP[k]: the functions of a link in ORPHAN (R370, R605). -/
def orphanMap (s : State) (l k : Nat) : Nat :=
  ((List.range 32).map fun b =>
    let f := linkFunc s l (32 * k + b)
    if f < 1012 ∧ hostLink s f = l ∧ blkState s (pFUNC f) = 0x80 then 2 ^ b else 0).sum

/-- Sensor identifiers (R551). -/
def isSensor (id : Nat) : Bool :=
  (decide (1 ≤ id) && decide (id ≤ 4)) || (decide (16 ≤ id) && decide (id ≤ 56)) || (decide (64 ≤ id) && decide (id ≤ 67)) ||
  (decide (80 ≤ id) && decide (id ≤ 95)) || (decide (96 ≤ id) && decide (id ≤ 114))

/-- The last reading of a sensor; those the PWR page reports are read there (R45, R51, R551). -/
def sensorValue (s : State) (id : Nat) : Int :=
  if id = 1 then (fld s pPWR R.PWR.IN_STAT 0 16 : Nat)
  else if id = 2 then (fld s pPWR R.PWR.AUX_STAT 0 16 : Nat)
  else if id = 3 then (s.power.samples.headD 0 : Nat)
  else if id = 56 then (fld s pPWR R.PWR.THERM_STAT 0 8 : Nat)
  else mgetD s.mgmt.sensors id 0

/-- The 64 bytes of an event log entry (R552). -/
def entryBytes (e : LogEntry) : List Byte :=
  let wide (code : Nat) : List Nat :=
    if code = 0x0001 then [1, 4] else if code = 0x0004 then [1, 4, 4] else if code = 0x000F then [1, 4] else if code = 0x000A then [8] else if code = 0x000B then [4, 4]
    else if code = 0x000C then [4] else if code = 0x000D then [4, 8, 4] else []
  let d := (enumFrom 0 e.detail).flatMap fun x => leBytes ((wide e.code).getD x.1 1) x.2
  let b := leBytes 8 e.seq ++ leBytes 8 e.tick ++ leBytes 4 e.boot ++ leBytes 1 e.cls ++ [0] ++ leBytes 2 e.code ++
    leBytes 2 e.blkType ++ leBytes 2 e.inst ++ (d ++ List.replicate 32 0).take 32
  b ++ leBytes 4 (crc32c b)

/-- The entry of the precise record that PREC_SEL names, as a reader sees it: PF0, or compartment 0 of a deck core (R599,
R600). -/
def precDword (s : State) (a : Agent) (k : Nat) : Nat :=
  let sees : Bool := match a with
    | .func f => f == 0
    | .mss => false
    | .core c => decide (32 ≤ c) && decide (c < 36) && (match s.cores[c]? with | some x => x.cmp == 0 | none => false)
  if sees then leAt ((mgetD s.tags.prec (fld s pPERF R.PERF.PREC_SEL 16 2) []).getD (fld s pPERF R.PERF.PREC_SEL 0 12) []) (4 * k) 4
  else 0

/-- Sizes of STREAM, WEIGHT, SHAPE, WORK, RECORD in bytes: WORK is reduced until the five fit 192 MiB (R205, R226). -/
def partSizes (s : State) (tile : Nat) : List Nat :=
  let p := pSRAMT tile
  let st := fld s p R.SRAMT.PART0 0 8
  let we := fld s p R.SRAMT.PART0 8 8
  let sh := fld s p R.SRAMT.PART0 16 8
  let wo := fld s p R.SRAMT.PART0 24 8
  let re := fld s p R.SRAMT.PART1 0 8
  [st, we, sh, min wo (192 - (st + we + sh + re)), re].map (· * 2 ^ 20)

/-- Base of region `r` in the slice. -/
def regionBase (s : State) (tile r : Nat) : Nat := ((partSizes s tile).take r).sum

/-- Stretched cycles of a tile, at half the tile clock, since its stretch began, up to `t` (R42, R44). -/
def stretchedSince (s : State) (t tile : Nat) : Nat :=
  match mget s.power.stretchFrom tile with
  | some x => (t - x) * Config.tileMhz / 2000
  | none => 0

/-- Registers that show other state: STRETCH_CYC (R44), TICK.COUNT and TILE_CARRY (R58, R72), staging, QPs and the gate lists in force
(chapter 09). -/
def liveReg (s : State) (p : Page) (off : Nat) : Option Nat :=
  match p.ty with
  | .pwr =>
    if R.PWR.STRETCH_CYC ≤ off ∧ off < R.PWR.STRETCH_CYC + 128 ∧ off % 4 = 0 then
      some ((reg s p off + stretchedSince s s.now ((off - R.PWR.STRETCH_CYC) / 4)) % 2 ^ 32)
    else none
  | .tick =>
    if off = R.TICK.COUNT_LO then some (s.tick.count % 2 ^ 32)
    else if off = R.TICK.COUNT_HI then some (s.tick.count / 2 ^ 32)
    else if R.TICK.TILE_CARRY ≤ off ∧ off < R.TICK.TILE_CARRY + 128 ∧ (off - R.TICK.TILE_CARRY) % 4 = 0 then
      some (min 0xFFFFFFFF (s.tick.carry.getD ((off - R.TICK.TILE_CARRY) / 4) 0))
    else none
  | .rmt =>
    if off = R.RMT.STAGE_STAT then some (ceilDiv (stagedOf s.rmt) (2 ^ 20))
    else if off = R.RMT.QP_STAT then some (qpsIn s.rmt 3 * 2 ^ 16 + qpsIn s.rmt 2)
    else none
  | .ciph =>
    if off = R.CIPH.SLOT_STAT then
      some ((s.ciph.slots.filter fun e => e.2.state == 3).length * 2 ^ 16 +
        (s.ciph.slots.filter fun e => e.2.state == 1 && decide (e.1 < 3840)).length)
    else if off = R.CIPH.BOOT then some (reg s pMSS R.MSS.BOOT_COUNT)
    else none
  | .ftl =>
    let free := s.flash.usable - (s.nvme.nss.map fun e => e.2.gib).sum
    if off = R.FTL.STAT then
      some (if s.flash.init then
        s.flash.sparePct * 2 ^ 24 + s.flash.pctUsed * 2 ^ 16 + s.flash.stageFree * 2 ^ 8 + s.flash.rebuildPct else 100)
    else if off = R.FTL.CAP then some s.flash.usable
    else if off = R.FTL.FREE then some free
    else none
  | .ckpt =>
    let c := s.ckpt
    let gib (n : Nat) : Nat := ceilDiv n (2 ^ 30)
    if off = R.CKPT.GROUP_STAT then some (match c.group with | some g => g.members.length * 2 ^ 16 + g.rank | none => 0)
    else if off = R.CKPT.GROUP_ID then some (match c.group with | some g => g.id | none => 0)
    else if off = R.CKPT.STAGE_STAT then some (gib c.stageBytes)
    else if off = R.CKPT.AREA_STAT then some (gib c.areaBytes)
    else if off = R.CKPT.PF0_WIN_BASE_LO then some (Config.winBase 0 % 2 ^ 32)
    else if off = R.CKPT.PF0_WIN_BASE_HI then some (Config.winBase 0 / 2 ^ 32)
    else if R.CKPT.SESS_STAT ≤ off ∧ off < R.CKPT.SESS_STAT + 64 ∧ off % 4 = 0 then
      some (match mget c.sessions ((off - R.CKPT.SESS_STAT) / 4) with | some x => x.stat | none => 0)
    else if R.CKPT.LOST_MAP ≤ off ∧ off < R.CKPT.LOST_MAP + 128 ∧ off % 4 = 0 then
      let k := (off - R.CKPT.LOST_MAP) / 4
      some (match c.group with
        | some g => ((List.range 32).map fun b => if g.lost.contains (32 * k + b) then 2 ^ b else 0).sum
        | none => 0)
    else none
  | .pair =>
    let up (l : Nat) : Bool := fld s (pLINK l) R.LINK.CFG 0 2 == 2 && (fld s (pLINK l) R.LINK.STAT 0 3 == 4 || fld s (pLINK l) R.LINK.STAT 0 3 == 5)
    let map (lo n : Nat) : Nat := ((List.range n).map fun k => if up (lo + k) then 2 ^ k else 0).sum
    if off = R.PAIR.STAT then
      let hawser := (List.range 48).filter fun l => fld s (pLINK l) R.LINK.CFG 0 2 == 2
      let ups := ((enumFrom 0 (hawser.take 4)).map fun e => if up e.2 then 2 ^ e.1 else 0).sum
      let fresh := match s.pair.witness with | some w => decide (s.now < w.at_ + 4000000) | none => false
      some (reg s p off + ups * 16 + (if fresh then 8 else 0))
    else if off = R.PAIR.LEASE_IN then some (s.pair.leaseIn % 2 ^ 32)
    else if off = R.PAIR.HAWSER_MAP_LO then some (map 0 32)
    else if off = R.PAIR.HAWSER_MAP_HI then some (map 32 16)
    else none
  | .host =>
    if off = R.HOST.LINK_STAT then some (reg s p off + (if bifurcated s then 2 ^ 12 else 0))
    else if off = R.HOST.BLK_CAP0 then some (0x20000007 + 16 * (if bifurcated s then 8 else 16))
    else if off = R.HOST.BLK_CAP1 then
      let vfs (a b : Nat) : Nat := 2 + totalVfs s a + totalVfs s b
      some (if ¬ bifurcated s then (if p.inst = 0 then vfs 0 1 + vfs 2 3 else 0) else if p.inst = 0 then vfs 0 1 else vfs 2 3)
    else if off = R.HOST.TAG_STAT then some ((s.host.quar.filter fun e => e.1 / 65536 == p.inst).length * 2 ^ 16)
    else if R.HOST.ORPHAN_MAP ≤ off ∧ off < R.HOST.ORPHAN_MAP + 128 ∧ off % 4 = 0 then
      some (orphanMap s p.inst ((off - R.HOST.ORPHAN_MAP) / 4))
    else none
  | .mss =>
    if off = R.MSS.SENSOR_VAL then
      let id := fld s pMSS R.MSS.SENSOR_SEL 0 8
      some (if isSensor id then 2 ^ 31 + ((sensorValue s id) % (2 ^ 24 : Int)).toNat else 0)
    else if R.MSS.LOG_DATA ≤ off ∧ off < R.MSS.LOG_DATA + 64 ∧ off % 4 = 0 then
      some (match s.log.find? fun e => e.seq == reg64 s pMSS R.MSS.LOG_SEL_LO with
        | some e => leAt (entryBytes e) (off - R.MSS.LOG_DATA) 4
        | none => 0)
    else none
  | .sramt =>
    if R.SRAMT.REGION_BASE ≤ off ∧ off < R.SRAMT.REGION_BASE + 20 ∧ off % 4 = 0 then
      some (regionBase s p.inst ((off - R.SRAMT.REGION_BASE) / 4))
    else none
  | .egs =>
    if R.EGS.GATE_ACT ≤ off ∧ off < R.EGS.GATE_ACT + 0x100 then some (reg s pEGS (R.EGS.GATE_SH + (off - R.EGS.GATE_ACT)))
    else none
  | _ => none

/-- The indexed tables: table number, index, dword, default, and whether the register shows the shadow. FEED windows
(R305), RMT keys (R317), EGS subscribers, NVME shares (chapters 08, 09, 11). -/
def tabSlot (s : State) (p : Page) (off : Nat) : Option (Bool × Nat × Dword) :=
  let key (tab idx k : Nat) : Nat := tab * 2 ^ 20 + idx * 8 + k
  let slot (shOff actOff n tab idx : Nat) (d : Nat → Nat) : Option (Bool × Nat × Dword) :=
    if shOff ≤ off ∧ off < shOff + 4 * n ∧ off % 4 = 0 then
      some (true, key tab idx ((off - shOff) / 4), BitVec.ofNat 32 (d ((off - shOff) / 4)))
    else if actOff ≤ off ∧ off < actOff + 4 * n ∧ off % 4 = 0 then
      some (false, key tab idx ((off - actOff) / 4), BitVec.ofNat 32 (d ((off - actOff) / 4)))
    else none
  match p.ty with
  | .feed => slot R.FEED.WIN_SH R.FEED.WIN_ACT 8 0 (fld s p R.FEED.WIN_IDX 0 9) fun _ => 0
  | .rmt => slot R.RMT.KEY_SH R.RMT.KEY_ACT 8 1 (fld s p R.RMT.KEY_IDX 0 12) fun _ => 0
  | .egs => slot R.EGS.SUB_SH0 R.EGS.SUB_ACT0 2 2 (fld s p R.EGS.SUB_IDX 0 10) fun k => if k = 0 then 1 else 256
  | .nvme => slot R.NVME.SHARE_SH R.NVME.SHARE_ACT 1 3 (fld s p R.NVME.SHARE_IDX 0 12) fun _ => 1
  | _ => none

/-- Dword `k` of entry `idx` of table `tab` in force, with its default. -/
def tabGet (s : State) (tab idx k dflt : Nat) : Nat :=
  match mget s.tabAct (tab * 2 ^ 20 + idx * 8 + k) with
  | some v => v.toNat
  | none => dflt

/-- The value in force a register shows. -/
def inForce (s : State) (p : Page) (off : Nat) : Nat :=
  match tabSlot s p off with
  | some (false, key, d) => (mgetD s.tabAct key d).toNat
  | _ => match liveReg s p off with
    | some v => v
    | none => reg s p off

/-- The shadow a register shows. -/
def shadowOf (s : State) (p : Page) (off : Nat) : Nat :=
  match tabSlot s p off with
  | some (true, key, d) => (mgetD s.tabSh key d).toNat
  | _ => (getShadow s p off).toNat

/-- Sets the shadow a register shows. -/
def putShadow (s : State) (p : Page) (off v : Nat) : State :=
  match tabSlot s p off with
  | some (true, key, d) => { s with tabSh := mputD s.tabSh key d (BitVec.ofNat 32 v) }
  | _ => setShadow s p off (BitVec.ofNat 32 v)

/-- What an aligned 32-bit read returns, field by field (R8): RWS fields read the shadow, WO and RSV fields read 0, a
latched high half reads its latch (R58). -/
def readReg (s : State) (a : Agent) (p : Page) (off : Nat) : Dword :=
  match mget s.latches (latchKey a (pageAt p off)) with
  | some v => v
  | none =>
    let now := if p.ty = .perf ∧ R.PERF.PREC_DATA ≤ off ∧ off < R.PERF.PREC_DATA + 32 then precDword s a ((off - R.PERF.PREC_DATA) / 4)
      else inForce s p off
    let sh := shadowOf s p off
    BitVec.ofNat 32 ((fieldsAt p.ty off).foldl (fun acc f =>
      let n := f.hi + 1 - f.lo
      match viewType a p off f with
      | .rws => acc + bitsOf sh f.lo n * 2 ^ f.lo
      | .wo => acc
      | .rsv => acc
      | _ => acc + bitsOf now f.lo n * 2 ^ f.lo) 0)

/-- A software write applied field by field by access type (R8). The value in force and the shadow after it. -/
def writeFields (s : State) (a : Agent) (p : Page) (off v : Nat) : State :=
  let fs := fieldsAt p.ty off
  let cur := reg s p off
  let cur' := fs.foldl (fun acc f =>
    let n := f.hi + 1 - f.lo
    let nv := bitsOf v f.lo n
    match viewType a p off f with
    | .rw => withBits acc f.lo n nv
    | .w1c => withBits acc f.lo n (bitsOf acc f.lo n &&& (2 ^ n - 1 - nv))
    | .w1s => withBits acc f.lo n (bitsOf acc f.lo n ||| nv)
    | .rwl => if blkLocked s p then acc else withBits acc f.lo n nv
    | _ => acc) cur
  let sh := shadowOf s p off
  let sh' := fs.foldl (fun acc f =>
    let n := f.hi + 1 - f.lo
    if viewType a p off f = .rws then withBits acc f.lo n (bitsOf v f.lo n) else acc) sh
  putShadow (setRegN s p off cur') p off sh'

/-- Every offset of a page's own and common registers. -/
def rowOffsets (r : RegRow) : List Nat := (List.range r.count).map fun i => r.off + r.stride * i

/-- Returns every register of a page to its cold-reset value, shadows and latches included, keeping the listed
offsets. -/
def resetPage (s : State) (p : Page) (keep : List Nat) : State :=
  let lo := pageAt p 0
  let inPage (k : Nat) : Bool := decide (lo ≤ k) && decide (k < lo + 0x1000)
  let stays (k : Nat) : Bool := !(inPage k) || keep.contains (k - lo)
  { s with
    regs := s.regs.filter fun e => stays e.1
    shadow := s.shadow.filter fun e => stays e.1
    latches := s.latches.filter fun e => stays (e.1 % 2 ^ 32)
    commits := s.commits.filter fun e => stays e.1 }

end Sys2Proof.Machine
end

