-- ==== Sys2Proof/Machine/Ops.lean ====
section
/-! DEFINITION. The operations every family shares: the clock, free values, output, pennants and interrupts, error
capture, performance counter events, the event log and the service completions. -/

namespace Sys2Proof.Machine

/-- One step of a list-valued fold over tiles and other small ranges. -/
def forN (n : Nat) (s : State) (f : Nat → State → State) : State := (List.range n).foldl (fun s i => f i s) s

/-- The model's clock reaches `t` (it never runs back). -/
def atTime (t : Nat) (s : State) : State := { s with now := max s.now t }

/-- The tick count (R57). -/
def tickOf (s : State) : Nat := s.tick.count

/-- Takes a fresh open value. -/
def freeVal (s : State) : Nat × State := (Config.free s.fresh, { s with fresh := s.fresh + 1 })

/-- `n` fresh open bytes. -/
def freeBytes (n : Nat) (s : State) : List Byte × State :=
  ((List.range n).map (Config.freeByte s.fresh), { s with fresh := s.fresh + 1 })

/-- Appends to the output. -/
def emit (e : Emit) (s : State) : State := { s with out := s.out ++ [e] }

/-- The pair epoch (R475). -/
def pairEpoch (s : State) : Nat := fld s pPAIR R.PAIR.STAT 16 16

/-- Hawser links that are up, in ascending order (R470). -/
def hawserLinks (s : State) : List Nat :=
  (List.range 48).filter fun l => fld s (pLINK l) R.LINK.CFG 0 2 == 2 &&
    (fld s (pLINK l) R.LINK.STAT 0 3 == 4 || fld s (pLINK l) R.LINK.STAT 0 3 == 5)

/-- Sends one hawser frame on the lowest hawser link that is up: link, pair epoch, and the frame's words (R470, R471). -/
def sendHawser (kind : String) (words : List Nat) (s : State) : State :=
  match hawserLinks s with
  | [] => s
  | l :: _ => emit (.hawser kind (l :: pairEpoch s :: words)) s

/-- The function's DMA is silenced (R368). -/
def silent (s : State) (f : Nat) : Bool := fld s (pFUNC f) R.FUNC.DMA_STAT 31 1 == 1

/-- What a function holds beside its page. -/
def getFn (s : State) (f : Nat) : FuncX := mgetD s.host.funcs f FuncX.reset

def putFn (f : Nat) (x : FuncX) (s : State) : State :=
  { s with host := { s.host with funcs := mputD s.host.funcs f FuncX.reset x } }

/-- Inserts a number into a rising list without repeats. -/
def addSorted (n : Nat) : List Nat → List Nat
  | [] => [n]
  | m :: l => if n < m then n :: m :: l else if n = m then m :: l else m :: addSorted n l

/-- The dirty-page log records a write request of a function (R377). -/
def noteDirty (f : Nat) (pasid : Option Nat) (addr len : Nat) (s : State) : State :=
  let x := getFn s f
  match x.dirty with
  | none => s
  | some d =>
    if pasid.isSome then setFld s (pFUNC f) R.FUNC.DIRTY_STAT 30 1 1
    else
      let first := addr / 4096
      let touched := (List.range ((addr + len - 1) / 4096 + 1 - first)).map (first + ·)
      let inside (p : Nat) : Bool := decide (d.base ≤ p * 4096) && decide (p * 4096 < d.base + d.len)
      let pages := (touched.filter inside).foldl (fun l p => addSorted (p - d.base / 4096) l) d.pages
      let s := putFn f { x with dirty := some { d with pages := pages } } s
      if touched.all inside then s else setFld s (pFUNC f) R.FUNC.DIRTY_STAT 29 1 1

/-- Bytes are written to the LPDDR5X; words wholly written no longer fail their code. -/
def putDram (off : Nat) (l : List Byte) (s : State) : State :=
  { s with
    mem := memWrite s.mem (dramKey off) l
    media := { s.media with dram := s.media.dram.filter fun e => !(decide (off ≤ e.1) && decide (e.1 + 8 ≤ off + l.length)) } }

/-- A word of the LPDDR5X within a range fails its code beyond correction. -/
def dramPoison (s : State) (off len : Nat) : Bool :=
  s.media.dram.any fun d => d.2 && decide (off < d.1 + 8) && decide (d.1 < off + len)

/-- Bytes of a function's device-memory window that lie within its allotment (R357). -/
def windowHas (s : State) (f off len : Nat) : Bool :=
  decide (off + len ≤ fld s (pFUNC f) R.FUNC.RES_WIN 0 17 * 2 ^ 20)

/-- A device engine writes a function's window; bytes beyond the allotment have no memory behind them. -/
def windowPut (f off : Nat) (l : List Byte) (s : State) : State :=
  if windowHas s f off l.length then putDram (Config.winBase f + off) l s else s

/-- A device engine reads a function's window; what lies beyond the allotment reads 0 (log entry 192). -/
def windowRead (s : State) (f off len : Nat) : List Byte :=
  if windowHas s f off len then memRead s.mem (dramKey (Config.winBase f + off)) len else List.replicate len 0

/-- A structure a command names: in PF0's window, or as host memory holds it. -/
def ckData (s : State) (window : Bool) (addr len : Nat) (host : List Byte) : List Byte :=
  if window then windowRead s 0 addr len else host

/-- A write request may carry Relaxed Ordering: bulk data, over a link at x16, with Enable Relaxed Ordering 1 (R358, R359). -/
def mayRelax (s : State) (f : Nat) (bulk : Bool) : Bool :=
  bulk && (getFn s f).relaxed && fld s (pHOST (hostLink s f)) R.HOST.LINK_STAT 4 6 == 16

/-- A write request to a function's host memory: recorded in its dirty-page log, then issued (R377). While the function is
silenced it waits with the held completions (R368, R371). `bulk`: NVMe read data, and RMT placement and READ data. -/
def hostWrite (f : Nat) (pasid : Option Nat) (bulk : Bool) (addr : Nat) (l : List Byte) (s : State) : State :=
  if silent s f then
    { s with held := s.held ++ [(f, .write f pasid false addr l)], heldData := s.heldData ++ [(f, 0, addr, l)] }
  else emit (.write f pasid (mayRelax s f bulk) addr l) (noteDirty f pasid addr l.length s)

/-- Writes a command's data to the function's host memory (0) or its device-memory window (1). -/
def dmaWrite (func loc addr : Nat) (l : List Byte) (s : State) : State :=
  if loc = 1 then windowPut func addr l s else hostWrite func none false addr l s

/-- Posts an entry written at `addr` of a queue of the function: `e` reports it. While the function is silenced it is held
(R371). -/
def postEntry (f loc addr : Nat) (bytes : List Byte) (e : Emit) (s : State) : State :=
  if silent s f then
    setFld { s with held := s.held ++ [(f, e)], heldData := s.heldData ++ [(f, loc, addr, bytes)] } (pFUNC f) R.FUNC.HELD 0 16
      (fld s (pFUNC f) R.FUNC.HELD 0 16 + 1)
  else
    let pasid := match e with | .write _ p _ _ _ => p | _ => none
    emit e (if loc = 1 then windowPut f addr bytes s else noteDirty f pasid addr bytes.length s)

/-- Sends an MSI-X message; a silenced function sends none, and the message of a held completion waits with it (R368,
R373). -/
def emitMsix (f vector : Nat) (s : State) : State := if silent s f then s else emit (.msix f vector) s

/-- Pennant class of a device page, BLK_ID.TYPE[7:4] (R102). -/
def pageClass (ty : PageType) : Nat := pageCode ty / 16 % 16

/-- One interrupt message of a page on each route it has (R101, R102). -/
def notifyPage (p : Page) (s : State) : State :=
  let route := fld s p R.BLK_CTL 16 2
  let s := if route % 2 = 1 then
      (match p.ty with
       | .func => emitMsix p.inst 0 s
       | _ => emitMsix 0 (65 + pageClass p.ty) s)
    else s
  if 2 ≤ route then emit (.mssIrq p) s else s

/-- Sets pennant bits of a page, with the interrupt rule of R101, without counting the event. -/
def pennantRaw (p : Page) (mask : Nat) (s : State) : State :=
  let old := reg s p R.PENNANT
  let new := old ||| mask
  let en := reg s p R.PENNANT_EN
  let s := setRegN s p R.PENNANT new
  if old &&& en = 0 ∧ new &&& en ≠ 0 then notifyPage p s else s

/-- ERR_INFO captures the first error since VALID was cleared (R86). -/
def errInfo (p : Page) (code detail : Nat) (s : State) : State :=
  if fld s p R.ERR_INFO 31 1 = 1 then s
  else setRegN s p R.ERR_INFO (2 ^ 31 + code % 256 * 2 ^ 16 + detail % 2 ^ 16)

/-- Counter `i` of a page (R586). -/
def pcVal (s : State) (p : Page) (i : Nat) : Nat :=
  reg s p (R.PC_VAL_LO + 8 * i) + 2 ^ 32 * fld s p (R.PC_VAL_HI + 8 * i) 0 16

def setPcVal (s : State) (p : Page) (i v : Nat) : State :=
  setRegN (setRegN s p (R.PC_VAL_LO + 8 * i) v) p (R.PC_VAL_HI + 8 * i) (v / 2 ^ 32 % 2 ^ 16)

/-- Counter `i + 1` chains counter `i` (R587). -/
def pcChained (s : State) (p : Page) (i : Nat) : Bool :=
  i % 2 == 0 && fld s p (R.PC_CTL + 4 * (i + 1)) 30 1 == 1

/-- A counter wrapped: PC_OVF, and OVERFLOW with its capture unless the next counter chains it, which then counts one
(R586, R587). -/
def pcWrapped (p : Page) (i : Nat) (s : State) : State :=
  let ovf (j : Nat) (s : State) : State := setRegN s p R.PC_OVF (reg s p R.PC_OVF ||| 2 ^ j)
  let report (s : State) : State :=
    errInfo pPERF 1 (pageAt p 0 / 2 ^ 12 % 2 ^ 16) (pennantRaw pPERF 1 s)
  if pcChained s p i then
    let v := pcVal s p (i + 1) + 1
    let s := ovf i (setPcVal s p (i + 1) (v % 2 ^ 48))
    if v = 2 ^ 48 then report (ovf (i + 1) s) else s
  else report (ovf i s)

/-- Adds `n` events to counter `i`. -/
def pcAdd (p : Page) (i n : Nat) (s : State) : State :=
  let v := pcVal s p i + n
  let s := setPcVal s p i (v % 2 ^ 48)
  if 2 ^ 48 ≤ v then pcWrapped p i s else s

/-- `n` events of select `code` with qualifier `qual` on a page: every enabled counter that selects them counts them while
PERF.GATE.RUN is 1 (R586, R591). -/
def perfEvent (p : Page) (code qual n : Nat) (s : State) : State :=
  forN 8 s fun i s =>
    match mget s.regs (pageAt p (R.PC_CTL + 4 * i)) with
    | none => s
    | some c =>
      let c := c.toNat
      let q := bitsOf c 16 8
      if bitOf c 31 ∧ bitsOf c 0 16 = code ∧ (q = 0xFF ∨ q = qual) ∧ ¬ (i % 2 = 1 ∧ bitOf c 30)
          ∧ fld s pPERF R.PERF.GATE 0 1 = 1 then pcAdd p i n s
      else s

/-- Hardware sets pennant bits (R100, R101); each bit newly set is an event of select 0x0004 (R591). -/
def pennant (p : Page) (mask : Nat) (s : State) : State :=
  let new := mask &&& (2 ^ 32 - 1 - reg s p R.PENNANT)
  let s := pennantRaw p mask s
  if new = 0 then s
  else forN 32 s fun i s => if bitOf new i then perfEvent p 4 i 1 s else s

/-- Sets pennant bit `b`. -/
def penBit (p : Page) (b : Nat) (s : State) : State := pennant p (2 ^ b) s

/-- ALERT_STAT bit changes drive ALERT_N: it is low while any bit is 1 (R555). -/
def setAlert (bit : Nat) (on : Bool) (s : State) : State :=
  let old := reg s pMSS R.MSS.ALERT_STAT
  let new := withBits old bit 1 (if on then 1 else 0)
  let s := setRegN s pMSS R.MSS.ALERT_STAT new
  if old = 0 ∧ new ≠ 0 then emit (.pin "ALERT_N" false) s
  else if old ≠ 0 ∧ new = 0 then emit (.pin "ALERT_N" true) s
  else s

/-- The class of an event code (R554). -/
def logClass (code : Nat) : Nat :=
  if code = 0x0002 ∨ code = 0x000A ∨ code = 0x000C ∨ code = 0x000E then 1
  else if code = 0x0003 ∨ code = 0x0005 ∨ code = 0x0006 ∨ code = 0x0009 then 2
  else if code = 0x0004 ∨ code = 0x0007 ∨ code = 0x0008 ∨ code = 0x000D then 3
  else 0

/-- A PLDM event for the registered event receiver: sent, or kept for its polls (R551, R554, R582). -/
def platformEvent (cls : Nat) (data : List Byte) (s : State) : State :=
  match s.mgmt.receiver with
  | none => s
  | some _ =>
    if s.mgmt.polling then
      { s with mgmt := { s.mgmt with
        eventNo := s.mgmt.eventNo % 65534 + 1
        events := s.mgmt.events ++ [(s.mgmt.eventNo % 65534 + 1, leBytes 1 cls ++ data)] } }
    else emit (.sideband "PLDM" "PlatformEventMessage" (leBytes 1 1 ++ leBytes 1 s.mgmt.tid ++ leBytes 1 cls ++ data)) s

/-- The event message of a log entry; its event class is not stated. -/
def logMessage (code : Nat) (s : State) : State :=
  match s.mgmt.receiver with
  | none => s
  | some _ => let (c, s) := freeVal s; platformEvent (c % 256) (leBytes 2 code) s

/-- The deck-core services are paused by a splice (R407, R575). -/
def deckPaused (s : State) : Bool := fld s pMSS R.MSS.SPLICE_STAT 24 8 == 3

/-- The MSS logs an event: entry number one above the last, the class of R554, the LOG_ERROR or LOG_FATAL pennant with
ALERT_STAT.LOG, and the PLDM event message of class 2 and 3 (R552 to R555). At most 65,536 entries are kept. -/
def logEvent (code : Nat) (p : Option Page) (detail : List Nat) (s : State) : State :=
  let seq := reg64 s pMSS R.MSS.LOG_NEWEST_LO + 1
  let cls := logClass code
  let e : LogEntry := {
    seq := seq, tick := s.tick.count, boot := reg s pMSS R.MSS.BOOT_COUNT, cls := cls, code := code,
    blkType := (match p with | some p => pageCode p.ty | none => 0),
    inst := (match p with | some p => p.inst | none => 0),
    detail := detail, committed := false }
  let kept := if 65536 ≤ s.log.length then s.log.drop (s.log.length - 65535) else s.log
  let s := setReg64 { s with log := kept ++ [e] } pMSS R.MSS.LOG_NEWEST_LO seq
  if cls = 2 then logMessage code (setAlert 4 true (penBit pMSS 0 s))
  else if cls = 3 then logMessage code (setAlert 4 true (penBit pMSS 1 s))
  else s

/-! ### Service commands -/

/-- Status codes of R113. -/
abbrev st.OK : Nat := 0
abbrev st.INVALID_FIELD : Nat := 1
abbrev st.STATE_CONFLICT : Nat := 2
abbrev st.NO_RESOURCE : Nat := 3
abbrev st.ABORTED : Nat := 4
abbrev st.FENCED : Nat := 5
abbrev st.INTEGRITY : Nat := 6
abbrev st.AUTH_FAIL : Nat := 7
abbrev st.TIMEOUT : Nat := 8
abbrev st.VERSION : Nat := 9
abbrev st.WINDOW : Nat := 10
abbrev st.BUDGET : Nat := 11
abbrev st.ORPHANED : Nat := 12
abbrev st.DIVERGED : Nat := 13

/-- Key of a service queue pair. -/
def pairKey (f q : Nat) : Nat := f * 64 + q

def getPair (s : State) (f q : Nat) : Option QPair := mget s.pairs (pairKey f q)

def setPair (s : State) (f q : Nat) (p : QPair) : State := { s with pairs := mput s.pairs (pairKey f q) p }

/-- State code of a pair: 0 ABSENT when it does not exist (R112). -/
def pairState (s : State) (f q : Nat) : Nat :=
  match getPair s f q with
  | some p => p.state
  | none => 0

/-- Dword `i` of a command. -/
def SvcCmd.d (c : SvcCmd) (i : Nat) : Nat := (c.dw.getD i 0).toNat

/-- Dwords `i` and `i + 1` as one 64-bit value. -/
def SvcCmd.q (c : SvcCmd) (i : Nat) : Nat := c.d i + 2 ^ 32 * c.d (i + 1)

def SvcCmd.op (c : SvcCmd) : Nat := bitsOf (c.d 0) 0 8
def SvcCmd.ordered (c : SvcCmd) : Bool := bitOf (c.d 0) 8
def SvcCmd.objType (c : SvcCmd) : Nat := bitsOf (c.d 1) 24 8
def SvcCmd.obj (c : SvcCmd) : Nat := bitsOf (c.d 1) 0 24
def SvcCmd.deadline (c : SvcCmd) : Nat := c.q 2

/-- Completion queue entries reserved by commands in hand, or posted and not yet released (R105). -/
def cqUsed (s : State) (f q : Nat) (p : QPair) : Nat :=
  (p.cqTail + p.cqDepth - p.cqHead) % p.cqDepth + (s.cmds.filter fun c => c.func = f ∧ c.pair = q).length

/-- Bytes of 32-bit words, little-endian. -/
def dwBytes (l : List Dword) : List Byte := l.flatMap fun d => leBytes 4 d.toNat

/-! ### Reads of the LPDDR5X (R544) -/

/-- Package and channel of an LPDDR5X offset. -/
def dramPkg (off : Nat) : Nat := Config.dramChannel off / 4 % 16
def dramChan (off : Nat) : Nat := Config.dramChannel off % 4

/-- An uncorrectable word of the LPDDR5X at `off` (R544). -/
def dramUe (off : Nat) (s : State) : State :=
  let p := pMEMC (dramPkg off)
  let s := setReg64 (addSat s p R.MEMC.UE_COUNT 1 0xFFFFFFFF) p R.MEMC.UE_ADDR_LO off
  errInfo p 1 (dramChan off * 256) (penBit p 1 s)

/-- A read of `len` bytes of the LPDDR5X meets the words that fail their code: a single-bit error is corrected, written back
and counted, an uncorrectable one is counted and recorded (R544). -/
def dramTouch (off len : Nat) (s : State) : State :=
  (s.media.dram.filter fun d => decide (off < d.1 + 8) && decide (d.1 < off + len)).foldl (fun s d =>
    if d.2 then dramUe d.1 s
    else
      let p := pMEMC (dramPkg d.1)
      penBit p 0 (addSat { s with media := { s.media with dram := s.media.dram.filter (· != d) } } p R.MEMC.CE_COUNT 1 0xFFFFFFFF)) s

end Sys2Proof.Machine
end

