-- ==== Sys2Proof/Machine/Svc.lean ====
section
/-! DEFINITION. Service commands from hand to completion: finding and beginning a command, the order of the checks
(R114), the completion entry (R109) and the object states reported in it. -/

namespace Sys2Proof.Machine

/-- The context bound to a global number, with its key. -/
def ctxAt (s : State) (num : Nat) : Option (Nat × Ctx) := s.foundry.ctxs.find? fun e => e.2.num == some num

/-- The pair state: BLK_STAT.STATE while PAIR is enabled (R474); PAIR keeps it while it is STOPPING (R88). -/
def pairMode (s : State) : Nat := if blkState s pPAIR = 2 then s.pair.stopMode else blkState s pPAIR

/-- The state of an object in the code of its state table, as completions and QUERY_OBJECT report it (R108, R109). -/
def objState (s : State) (c : SvcCmd) : Nat :=
  match c.objType with
  | 1 => pairState s c.func c.obj
  | 2 => blkState s (pTILE c.obj)
  | 3 => (match mget s.foundry.sets c.obj with | some x => x.state | none => 0)
  | 4 => (match ctxAt s c.obj with | some x => x.2.state | none => 0)
  | 5 => (match mget s.feed.rings c.obj with | some x => x.state | none => 0)
  | 6 => (match mget s.rmt.qps c.obj with | some x => x.state | none => 0)
  | 11 => (match mget s.ciph.slots c.obj with | some x => x.state | none => 0)
  | 9 => blkState s (pFUNC c.obj)
  | 0 => if 0x50 ≤ c.op ∧ c.op ≤ 0x58 then blkState s pCKPT else 0
  | 7 => if (c.op = 0x53 ∨ c.op = 0x54) ∧ blkState s pCKPT ≠ 0x82 then blkState s pCKPT else (match mget s.ckpt.sessions c.obj with | some x => x.state | none => 0)
  | 8 => blkState s pPAIR
  | 10 => (match mget s.nvme.nss (c.obj + 1) with | some x => x.state | none => 0)
  | _ => 0

/-- The command leaves the hand and its completion is posted: entry, then the queue's message (R106, R109). A queue that lies
beyond the function's window cannot be written: the completion is discarded and the pair enters ERROR (R112, log entry 162). -/
def complete (c : SvcCmd) (status result : Nat) (s : State) : State :=
  let s := { s with cmds := s.cmds.filter fun d => d.seq != c.seq }
  match getPair s c.func c.pair with
  | none => s
  | some p =>
    let dw : List Dword := [
      BitVec.ofNat 32 ((if p.phase then 2 ^ 31 else 0) + status % 256 * 2 ^ 16 + c.cid),
      BitVec.ofNat 32 result,
      BitVec.ofNat 32 (c.obj * 256 + objState s c % 256),
      BitVec.ofNat 32 s.tick.count]
    let wrap := p.cqTail + 1 = p.cqDepth
    let at_ := p.cqBase + 16 * p.cqTail
    if p.cqLoc = 1 ∧ ¬ windowHas s c.func at_ 16 then setPair s c.func c.pair { p with state := if p.state = 1 then 3 else p.state }
    else
    let s := setPair s c.func c.pair
      { p with cqTail := if wrap then 0 else p.cqTail + 1, phase := if wrap then !p.phase else p.phase }
    emitMsix c.func (1 + c.pair) (postEntry c.func p.cqLoc at_ (dwBytes dw) (.cqe c.func c.pair p.cqTail dw) s)

/-- The command in hand a reference names. -/
def findCmd (s : State) (k : CmdRef) : Option SvcCmd :=
  s.cmds.find? fun c => c.func == k.func && c.pair == k.pair && c.cid == k.cid

/-- An ORDERED command begins only after every earlier command of its queue has completed (R107). -/
def orderedOk (s : State) (c : SvcCmd) : Bool :=
  !c.ordered || s.cmds.all fun d => !(d.func == c.func && d.pair == c.pair && decide (d.seq < c.seq))

/-- Marks a command as begun. -/
def markBegun (c : SvcCmd) (s : State) : State :=
  { s with cmds := s.cmds.map fun d => if d.seq = c.seq then { d with begun := true } else d }

/-- How a command's body ends: completed, or begun and completing at a later event. -/
inductive SvcEnd where
  | done (status result : Nat) (s : State)
  | wait (s : State)

/-- The device is in the quiesce of R52. -/
def quiescing (s : State) : Bool := s.power.quiesce.isSome

/-- The current tick is at or past a non-zero deadline (R114). -/
def lateCmd (s : State) (c : SvcCmd) : Bool := decide (c.deadline ≠ 0) && decide (c.deadline ≤ s.tick.count)

/-- Begins the command `k` names when it is in hand, not yet begun, of opcode `op` and free to begin: the parameter check
(`inv` gives the byte offset of the first offending field), TIMEOUT, FENCED, the quiesce's STATE_CONFLICT (R52), and then
the body with its own state and resource checks (R114, R115). -/
def runSvc (k : CmdRef) (op : Nat) (inv : SvcCmd → State → Option Nat) (fenced : SvcCmd → State → Bool)
    (body : SvcCmd → State → SvcEnd) (s : State) : State :=
  match findCmd s k with
  | none => s
  | some c =>
    if c.begun ∨ c.op ≠ op ∨ orderedOk s c = false then s
    else match inv c s with
      | some off => complete c st.INVALID_FIELD off s
      | none =>
        if lateCmd s c then complete c st.TIMEOUT 0 s
        else if fenced c s then complete c st.FENCED 0 s
        else if quiescing s then complete c st.STATE_CONFLICT 0 s
        else match body c s with
          | .done status result s' => complete c status result s'
          | .wait s' => markBegun c s'

/-- Completes every begun command in hand that `p` picks. -/
def finishCmds (p : SvcCmd → Bool) (status result : Nat) (s : State) : State :=
  (s.cmds.filter fun c => c.begun && p c).foldl (fun s c => complete c status result s) s

/-- Completes every command in hand, begun or not, that `p` picks. -/
def abortCmds (p : SvcCmd → Bool) (status : Nat) (s : State) : State :=
  (s.cmds.filter p).foldl (fun s c => complete c status 0 s) s

/-- A begun command of opcode `op` on object `obj` is in hand. -/
def begunOn (s : State) (op obj : Nat) : Option SvcCmd :=
  s.cmds.find? fun c => c.begun && c.op == op && c.obj == obj

def noInv : SvcCmd → State → Option Nat := fun _ _ => none
def noFence : SvcCmd → State → Bool := fun _ _ => false

end Sys2Proof.Machine
end

