-- ==== Sys2Proof/Machine/CmdTable.lean ====
section
/-! DEFINITION. The service command table: for each opcode its object type, index range, defined parameter bits and who
may issue it, as the command tables of the chapters give them (R110, R111), and the field check of R114. -/

namespace Sys2Proof.Machine

/-- A row: opcode, object types (none listed: any), lowest and highest index, and for dwords 4 to 15 the mask of defined
bits. `pair0`: accepted on pair 0 only (R111). `pf0`: accepted from PF0 only. -/
structure OpSpec where
  op : Nat
  types : List Nat
  lo : Nat
  hi : Nat
  masks : List Nat
  pair0 : Bool
  pf0 : Bool
  deriving DecidableEq, Repr

abbrev F32 : Nat := 0xFFFFFFFF

/-- Highest index of an object type (R11, R108). -/
def typeMax (ty : Nat) : Nat :=
  match ty with
  | 0 => 0 | 1 => 63 | 2 => 31 | 3 => 1023 | 4 => 4095 | 5 => 1023 | 6 => 16383 | 7 => 15 | 8 => 0 | 9 => 1011
  | 10 => 255 | _ => 4095

def opSpecs : List OpSpec := [
  ⟨0x00, [0], 0, 0, [], true, false⟩,
  ⟨0x01, [1], 1, 63, [0xFFFFF000, F32, 0xFFFFF000, F32, 0x2FFF1FFF], true, false⟩,
  ⟨0x02, [1], 1, 63, [], true, false⟩,
  ⟨0x03, [0, 1, 2, 3, 4, 5, 6, 7, 8, 9, 10, 11], 0, 16383, [], true, false⟩,
  -- Foundry (R138)
  ⟨0x10, [3], 0, 1023, [F32, F32, 1], false, true⟩,
  ⟨0x11, [3], 0, 1023, [F32, F32, F32, 1], false, true⟩,
  ⟨0x12, [3], 0, 1023, [], false, true⟩,
  ⟨0x13, [3], 0, 1023, [], false, true⟩,
  ⟨0x14, [3], 0, 1023, [], false, true⟩,
  ⟨0x15, [3], 0, 1023, [], false, true⟩,
  ⟨0x16, [3], 0, 1023, [1], false, true⟩,
  ⟨0x17, [4], 0, 4095, [0xFF], false, true⟩,
  ⟨0x18, [2], 0, 31, [], false, true⟩,
  ⟨0x19, [2], 0, 31, [], false, true⟩,
  ⟨0x1A, [0], 0, 0, [F32, F32, 0x1FF], false, true⟩,
  -- Shaping and the tensor block (R193, R218)
  ⟨0x20, [0], 0, 0, [0xFF, F32, F32, 1], false, true⟩,
  ⟨0x21, [0], 0, 0, [0xFF], false, true⟩,
  ⟨0x22, [0], 0, 0, [F32, F32, F32, F32, 1], false, true⟩,
  ⟨0x30, [0], 0, 0, [0x3FF, F32, F32, 1], false, true⟩,
  ⟨0x31, [0], 0, 0, [0x3FF], false, true⟩,
  -- Feed (R309)
  ⟨0x40, [5], 0, 1023, [F32, F32, 1], false, true⟩,
  ⟨0x41, [5], 0, 1023, [], false, true⟩,
  ⟨0x42, [5], 0, 1023, [], false, true⟩,
  ⟨0x43, [5], 0, 1023, [], false, true⟩,
  ⟨0x44, [5], 0, 1023, [], false, true⟩,
  ⟨0x45, [0], 0, 0, [F32, F32, 0x1FF, 1], false, true⟩,
  -- Queue pairs (R339)
  ⟨0x90, [6], 0, 16383, [0x1FF, F32, F32, F32, F32, F32, F32, 0xFFF, 0xFFFFF], false, false⟩,
  ⟨0x91, [6], 0, 16383, [0x1FFFFF, 0xFFFFFF, F32, F32, F32, F32, F32, F32, F32], false, false⟩,
  ⟨0x92, [6], 0, 16383, [F32], false, false⟩,
  ⟨0x93, [6], 0, 16383, [], false, false⟩,
  ⟨0x94, [6], 0, 16383, [], false, false⟩,
  -- Cipher (R509)
  ⟨0x70, [11], 0, 4095, [0x1FFF, F32, 0x1FFF007F], false, true⟩,
  ⟨0x71, [11], 0, 4095, [0x1FFF, F32, 0x1FFF007F, F32, F32, 0x0FFF0003], false, true⟩,
  ⟨0x72, [11], 0, 4095, [0xFFF, F32, F32, 1], false, true⟩,
  ⟨0x73, [11], 0, 4095, [], false, true⟩,
  ⟨0x74, [0, 11], 0, 4095, [F32, F32, 1], false, true⟩,
  -- Checkpoint and pair (R468, R493)
  ⟨0x50, [0], 0, 0, [F32, F32, 1], false, true⟩,
  ⟨0x51, [0], 0, 0, [0xFFFF], false, true⟩,
  ⟨0x52, [0], 0, 0, [], false, true⟩,
  ⟨0x53, [7], 0, 15, [3, F32, F32, F32, F32, 0x1FFF, 0x1FFFF], false, true⟩,
  ⟨0x54, [7], 0, 15, [F32, F32], false, true⟩,
  ⟨0x55, [7], 0, 15, [], false, true⟩,
  ⟨0x56, [7], 0, 15, [], false, true⟩,
  ⟨0x57, [0], 0, 0, [F32, F32, F32, 1], false, true⟩,
  ⟨0x58, [0], 0, 0, [F32, F32, 0xFFFF, F32, F32, F32, F32, 1], false, true⟩,
  ⟨0x60, [8], 0, 0, [F32, F32], false, true⟩,
  ⟨0x61, [8], 0, 0, [], false, true⟩,
  -- Functions (R365)
  ⟨0x95, [9], 0, 1011, [F32, F32, F32, 0x7F], false, true⟩,
  ⟨0x96, [9], 0, 1011, [F32], false, true⟩,
  ⟨0x97, [9], 0, 1011, [F32, F32, F32, 1], false, true⟩,
  ⟨0x98, [9], 0, 1011, [F32, F32, F32, 1], false, true⟩,
  ⟨0x99, [9], 0, 1011, [], false, true⟩,
  ⟨0x9A, [9], 0, 1011, [3, F32, F32, F32, F32, 1], false, true⟩,
  -- Integrity (R542) and counters (R594)
  ⟨0x80, [0], 0, 0, [0xFF], false, true⟩,
  ⟨0x81, [0], 0, 0, [0xFF], false, true⟩,
  ⟨0x82, [0], 0, 0, [0xFF], false, true⟩,
  ⟨0x84, [0], 0, 0, [0xFF0F, F32, F32], false, true⟩,
  ⟨0xA0, [0], 0, 0, [0x03FFF000, F32, F32, 1], false, true⟩]

def opSpec (op : Nat) : Option OpSpec := opSpecs.find? fun r => r.op == op

/-- The first bit of the run of undefined bits (mask 0) that holds the lowest set undefined bit of `v`, searching down from
bit `b`. -/
def runStart (mask : Nat) : Nat → Nat
  | 0 => 0
  | b + 1 => if bitOf mask b then b + 1 else runStart mask b

/-- The lowest set bit of `v` outside `mask`, from bit `b` on, within `n` bits. -/
def lowBad (mask v : Nat) : Nat → Nat → Option Nat
  | 0, _ => none
  | n + 1, b => if bitOf v b ∧ ¬ bitOf mask b then some b else lowBad mask v n (b + 1)

/-- Byte offset, in a dword at byte `base`, of the first undefined field that is not zero. -/
def badField (mask v base : Nat) : Option Nat :=
  match lowBad mask v 32 0 with
  | some b => some (base + runStart mask b / 8)
  | none => none

/-- The first parameter dword with a non-zero undefined field. -/
def badParams (masks : List Nat) (c : SvcCmd) : Option Nat :=
  (List.range 12).findSome? fun i => badField (masks.getD i 0) (c.d (4 + i)) (16 + 4 * i)

/-- The byte offset of the first offending field of a command, by the table alone: opcode (0), reserved bits of dword 0, a
CID already in hand (2), the object type (7) or index (4), then the parameters (R109, R114). -/
def fieldOffence (s : State) (c : SvcCmd) : Option Nat :=
  match opSpec c.op with
  | none => some 0
  | some r =>
    if (r.pair0 ∧ c.pair ≠ 0) ∨ (r.pf0 ∧ c.func ≠ 0) then some 0
    else if bitsOf (c.d 0) 10 2 ≠ 0 then some 1
    else if s.cmds.any (fun d => d.func == c.func && d.pair == c.pair && d.cid == c.cid) then some 2
    else if ¬ r.types.contains c.objType then some 7
    else if c.obj < r.lo ∨ min r.hi (typeMax c.objType) < c.obj then some 4
    else badParams r.masks c

end Sys2Proof.Machine
end

