-- ==== Sys2Proof/Machine/Cipher.lean ====
section
/-! DEFINITION. The cipher engine and its keys (chapter 15). -/

namespace Sys2Proof.Machine

def setCiph (s : State) (f : Ciph → Ciph) : State := { s with ciph := f s.ciph }

def getSlot (s : State) (i : Nat) : Option KeySlot := mget s.ciph.slots i

def ciphCount (i : Nat) (s : State) : State := addReg s pCIPH (R.CIPH.COUNT + 4 * i) 1

def keyType (k : KeySlot) : Nat := bitsOf k.attr 0 4

/-- A tag, MAC or wrapped key failed to verify. -/
def authFail (slot : Nat) (s : State) : State := errInfo pCIPH 1 slot (penBit pCIPH 0 (ciphCount 1 s))

/-- A job failed with INTEGRITY. -/
def ciphIntegrity (slot : Nat) (s : State) : State := errInfo pCIPH 2 slot (penBit pCIPH 1 (ciphCount 2 s))

/-- Fills a slot; fewer than 64 EMPTY service slots set SLOTS_LOW. -/
def fillSlot (i : Nat) (k : KeySlot) (s : State) : State :=
  let s := ciphCount 4 (setCiph s fun c => { c with slots := mput c.slots i k })
  if 3840 - 64 < (s.ciph.slots.filter fun e => decide (e.1 < 3840)).length then penBit pCIPH 4 s else s

/-- A slot becomes EMPTY: its key leaves the cache, the table and the flash root area (R512). -/
def eraseSlot (i : Nat) (s : State) : State :=
  ciphCount 5 (setCiph s fun c => { c with slots := mdel c.slots i, cache := c.cache.filter (· != i) })

/-- The device makes or replaces the key of a namespace (R499, R501, R512). -/
def newDeviceKey (nsid : Nat) (s : State) : State :=
  let i := 3840 + nsid - 1
  let s := if (getSlot s i).isSome then eraseSlot i s else s
  let (key, s) := freeBytes 64 s
  let attr := 2 + 0x30 + fld s pCIPH R.CIPH.CFG 8 3 * 2 ^ 9 + fld s pCIPH R.CIPH.CFG 11 1 * 2 ^ 12
  fillSlot i { state := 3, attr := attr, keyId := 0, bootAt := reg s pMSS R.MSS.BOOT_COUNT, persist := true, inst := 0, key := key } s

/-- The key of a deleted namespace is destroyed. -/
def dropDeviceKey (nsid : Nat) (s : State) : State :=
  if (getSlot s (3840 + nsid - 1)).isSome then eraseSlot (3840 + nsid - 1) s else s

/-- A job uses a key: one that the cache does not hold is a miss. When the cache is full, the key that leaves it is the
device's choice (R500). -/
def useKey (i : Nat) (s : State) : State :=
  if s.ciph.cache.contains i then s
  else
    let s := ciphCount 6 s
    if s.ciph.cache.length < 256 then setCiph s fun c => { c with cache := c.cache ++ [i] }
    else
      let (v, s) := freeVal s
      setCiph s fun c => { c with cache := c.cache.eraseIdx (v % 256) ++ [i] }

/-- A key as the slot table in LPDDR5X and the flash root area hold it: wrapped under the device's key-wrapping key, none
before the ROM has derived that (R500, R558). -/
def wrappedKey (s : State) (i : Nat) : Option (List Byte) :=
  match getSlot s i, s.mgmt.keys with
  | some x, some d => some (keyWrap d.wrap x.key)
  | _, _ => none

/-! ### Key commands (R499, R509 to R512) -/

/-- Attributes that R499 refuses. -/
def attrBad (a : Nat) : Bool :=
  let ty := bitsOf a 0 4
  ty == 0 || decide (4 < ty) || (ty == 4 && bitsOf a 4 2 != 0) || (ty != 4 && bitsOf a 6 2 != 0)

/-- Key bytes of a type; `n` is the choice for type 3. -/
def keyBytes (ty n : Nat) : Nat := if ty = 2 then 64 else if ty = 3 then n else 32

/-- The fields KEY_GEN and KEY_IMPORT share; `wrapped` imports ignore the attributes. -/
def keyOffence (c : SvcCmd) (wrapped : Bool) : Option Nat :=
  let n := bitsOf (c.d 6) 1 6
  if ¬ wrapped ∧ attrBad (c.d 4) then some 16
  else if ¬ wrapped ∧ bitsOf (c.d 4) 0 4 = 3 ∧ n ≠ 32 ∧ n ≠ 64 % 64 then some 24
  else none

/-- Key bytes that a command asks for: the six-bit field holds 64 as 0. -/
def askedBytes (c : SvcCmd) : Nat :=
  keyBytes (bitsOf (c.d 4) 0 4) (if bitsOf (c.d 6) 1 6 = 32 then 32 else 64)

/-- A slot from a command's dwords. -/
def slotOf (c : SvcCmd) (attr keyId : Nat) (key : List Byte) (s : State) : KeySlot := {
  state := 1, attr := attr, keyId := keyId, bootAt := reg s pMSS R.MSS.BOOT_COUNT, persist := bitOf (c.d 6) 0
  inst := bitsOf (c.d 6) 16 13, key := key }

/-- A slot that KEY_GEN and KEY_IMPORT may fill: EMPTY and not a device slot. -/
def slotFree (s : State) (i : Nat) : Bool := (getSlot s i).isNone && decide (i < 3840)

/-- KEY_GEN: a key from the hardware random source. -/
def execKeyGen (k : CmdRef) (s : State) : Host.Outcome State Fault Refusal :=
  .next <| runSvc k 0x70 (fun c _ => keyOffence c false) noFence
    (fun c s =>
      if ¬ slotFree s c.obj then .done st.STATE_CONFLICT 0 s
      else
        let (key, s) := freeBytes (askedBytes c) s
        .done st.OK 0 (fillSlot c.obj (slotOf c (c.d 4) (c.d 5) key s) s)) s

/-- A KEK slot that is not READY: the completion reports that slot (R510). -/
def kekConflict (c : SvcCmd) (kek : Nat) (s : State) : SvcEnd :=
  .wait (complete { c with dw := c.dw.set 1 (BitVec.ofNat 32 (0x0B000000 + kek)) } st.STATE_CONFLICT 0 s)

/-- The byte offset of a bad field in a wrapped blob (R509). -/
def blobOffence (b : List Byte) : Option Nat :=
  let n := leAt b 6 1
  if leAt b 0 4 ≠ 0x42574B45 then some 0x100
  else if leAt b 4 1 ≠ 1 then some 0x104
  else if n ≠ 48 ∧ n ≠ 80 then some 0x106
  else if leAt b 7 1 ≠ 0 then some 0x107
  else if leAt b 0xC 4 ≠ 0 then some 0x10C
  else if ¬ allZero ((b.drop (0x10 + n)).take (80 - n)) then some (0x110 + n)
  else none

/-- The first byte of a window range that a poisoned word covers. -/
def windowPoison (s : State) (o len : Nat) : Option Nat :=
  let b := Config.winBase 0 + o
  ((s.media.dram.filter fun d => d.2 && decide (b < d.1 + 8) && decide (d.1 < b + len)).map fun d => d.1 - b).head?

/-- The source of an import, 64 bytes plain or a 96-byte blob: in PF0's window, or as host memory holds it; none where it
could not be read. -/
def importSource (c : SvcCmd) (src : Option (List Byte)) (s : State) : Option (List Byte) :=
  let n := if bitOf (c.d 9) 1 then 96 else 64
  if ¬ bitOf (c.d 9) 0 then src
  else if (windowPoison s (c.q 7) n).isSome then none
  else some (windowRead s 0 (c.q 7) n)

/-- KEY_IMPORT (R509); `src` is its source where it lies in host memory. -/
def execKeyImport (k : CmdRef) (src : Option (List Byte)) (s : State) : Host.Outcome State Fault Refusal :=
  .next <| runSvc k 0x71
    (fun c s =>
      let wrapped := bitOf (c.d 9) 1
      match keyOffence c wrapped, importSource c src s with
      | some o, _ => some o
      | none, none => none
      | none, some b =>
        if wrapped then blobOffence b
        else if allZero ((b.drop (askedBytes c)).take (64 - askedBytes c)) then none else some (0x100 + askedBytes c)) noFence
    (fun c s =>
      let kek := bitsOf (c.d 9) 16 12
      match importSource c src s with
      | none => .done st.INTEGRITY 0 s
      | some b =>
        if ¬ slotFree s c.obj then .done st.STATE_CONFLICT 0 s
        else if ¬ bitOf (c.d 9) 1 then
          if fld s pCIPH R.CIPH.CFG 0 1 = 0 then .done 0xE2 0 s
          else .done st.OK 0 (penBit pCIPH 3 (fillSlot c.obj (slotOf c (c.d 4) (c.d 5) (b.take (askedBytes c)) s) s))
        else match getSlot s kek with
          | none => kekConflict c kek s
          | some x =>
            if x.state ≠ 1 then kekConflict c kek s
            else if keyType x ≠ 4 ∨ ¬ bitOf x.attr 7 then .done 0xE1 0 s
            else match keyUnwrap x.key ((b.drop 0x10).take (leAt b 6 1)) with
              | none => .done st.AUTH_FAIL 0 (authFail c.obj s)
              | some p =>
                let attr := leAt p 0 4
                let key := p.drop 8
                if attrBad attr ∨ attr / 2 ^ 13 ≠ 0 ∨ bitsOf attr 0 4 ≠ leAt b 5 1 ∨ key.length ≠ keyBytes (bitsOf attr 0 4) key.length then
                  .done st.INVALID_FIELD 0x105 s
                else .done st.OK 0 (fillSlot c.obj (slotOf c attr (leAt p 4 4) key s) s)) s

/-- KEY_EXPORT: the blob of R509. -/
def execKeyExport (k : CmdRef) (s : State) : Host.Outcome State Fault Refusal :=
  .next <| runSvc k 0x72 noInv noFence
    (fun c s =>
      let kek := bitsOf (c.d 4) 0 12
      match getSlot s c.obj, getSlot s kek with
      | none, _ => .done st.STATE_CONFLICT 0 s
      | some x, y =>
        if x.state ≠ 1 then .done st.STATE_CONFLICT 0 s
        else match y with
          | none => kekConflict c kek s
          | some y =>
            if y.state ≠ 1 then kekConflict c kek s
            else if ¬ bitOf x.attr 8 ∨ keyType y ≠ 4 ∨ ¬ bitOf y.attr 6 then .done 0xE1 0 s
            else
              let w := keyWrap y.key (leBytes 4 x.attr ++ leBytes 4 x.keyId ++ x.key)
              let b := leBytes 4 0x42574B45 ++ leBytes 1 1 ++ leBytes 1 (keyType x) ++ leBytes 1 w.length ++ leBytes 1 0 ++
                leBytes 4 y.keyId ++ leBytes 4 0 ++ w ++ List.replicate (80 - w.length) 0
              .done st.OK 96 (dmaWrite 0 (c.d 7 % 2) (c.q 5) b s)) s

/-- KEY_DESTROY: DESTROYING until the slot's last job has ended (R512). -/
def execKeyDestroy (k : CmdRef) (s : State) : Host.Outcome State Fault Refusal :=
  .next <| runSvc k 0x73 noInv noFence
    (fun c s =>
      match getSlot s c.obj with
      | none => .done st.STATE_CONFLICT 0 s
      | some x =>
        if x.state ≠ 1 then .done st.STATE_CONFLICT 0 s
        else .wait (setCiph s fun f => { f with slots := mput f.slots c.obj { x with state := 2 } })) s

/-- KEY_ERASE: a DESTROYING slot becomes EMPTY and its command completes (R512). -/
def execKeyErase (slot : Nat) (s : State) : Host.Outcome State Fault Refusal :=
  .next <|
    match getSlot s slot with
    | none => s
    | some x =>
      if x.state ≠ 2 then s
      else finishCmds (fun c => c.op == 0x73 && c.obj == slot) st.OK 0 (eraseSlot slot s)

/-! ### Jobs (R496, R503 to R508) -/

/-- The key type an operation takes; 0 none. -/
def opKeyType (op : Nat) : Nat :=
  if op = 1 ∨ op = 2 ∨ op = 5 ∨ op = 6 then 1 else if op = 3 ∨ op = 4 then 2 else if op = 7 ∨ op = 8 then 3 else 0

/-- The operation generates or encrypts; the hashes need no key. -/
def opProtects (op : Nat) : Bool := op == 1 || op == 3 || op == 5 || op == 7

/-- The byte offset, from 0x100, of the first bad field of a job descriptor (R496, R505). -/
def jobOffence (c : SvcCmd) (b : List Byte) : Option Nat :=
  let op := leAt b 0 1
  let len := leAt b 4 4
  let aad := leAt b 0x20 4
  let unit := if bitOf (leAt b 1 1) 1 then 4096 else 512
  let hash := op == 9 || op == 10
  let iv := (b.drop 0x28).take 16
  if (c.objType = 0) ≠ (hash = true) then some 7
  else if op = 0 ∨ 10 < op then some 0x100
  else if leAt b 1 1 / 4 ≠ 0 ∨ (bitOf (leAt b 1 1) 1 ∧ op ≠ 3 ∧ op ≠ 4) then some 0x101
  else if ¬ hash ∧ leAt b 2 2 ≠ c.obj then some 0x102
  else if 2 ^ 30 < len ∨ ((op = 5 ∨ op = 6) ∧ len ≠ 0) ∨ ((op = 3 ∨ op = 4) ∧ (len = 0 ∨ len % unit ≠ 0)) then some 0x104
  else if 5 ≤ op ∧ leAt b 0x10 8 ≠ 0 then some 0x110
  else if 2 ^ 20 < aad ∨ ((op = 5 ∨ op = 6) ∧ aad = 0) then some 0x120
  else if leAt b 0x24 4 ≠ 0 then some 0x124
  else if (op = 2 ∨ op = 6) ∧ ¬ allZero (iv.drop 12) then some 0x134
  else if ¬ (op = 2 ∨ op = 6 ∨ op = 3 ∨ op = 4) ∧ ¬ allZero iv then some 0x128
  else if leAt b 0x38 8 % 16 ≠ 0 then some 0x138
  else none

/-- What a job reads: its source, additional data and expected tag, and the source bytes before a failed read. With window
offsets the device reads its own memory. -/
def jobInput (s : State) (b : List Byte) (x : CipherIn) : CipherIn :=
  if ¬ bitOf (leAt b 1 1) 0 then x
  else
    let src := leAt b 8 8
    let len := leAt b 4 4
    let aad := leAt b 0x18 8
    let alen := leAt b 0x20 4
    let tagAt := if leAt b 0 1 = 6 then aad + alen else src + len
    { src := windowRead s 0 src len, aad := windowRead s 0 aad alen, tag := windowRead s 0 tagAt 32
      failAt := windowPoison s src len, aadFail := (windowPoison s aad alen).isSome || (windowPoison s tagAt 32).isSome
      outFail := x.outFail }

/-- The 64-byte output descriptor (R506). -/
def outDesc (status flags : Nat) (iv tag : List Byte) (bytes : Nat) : List Byte :=
  let b := leBytes 1 status ++ leBytes 1 flags ++ leBytes 2 0 ++ iv ++ List.replicate (12 - iv.length) 0 ++ tag ++
    List.replicate (32 - tag.length) 0 ++ leBytes 4 bytes ++ List.replicate 8 0
  b ++ leBytes 4 (crc32c b)

/-- What an operation computes: bytes for DST, the tag field, and whether a tag or MAC failed to verify. -/
def jobCompute (op : Nat) (key iv : List Byte) (b : List Byte) (x : CipherIn) : List Byte × List Byte × Bool :=
  let unit := if bitOf (leAt b 1 1) 1 then 4096 else 512
  let first := leAt b 0x28 16
  match op with
  | 1 => let c := gcmCrypt key iv x.src; (c, gcmTag key iv x.aad c, false)
  | 2 => (gcmCrypt key iv x.src, [], gcmTag key iv x.aad x.src != x.tag.take 16)
  | 3 => (xts true key unit first x.src, [], false)
  | 4 => (xts false key unit first x.src, [], false)
  | 5 => ([], gcmTag key iv x.aad [], false)
  | 6 => ([], [], gcmTag key iv x.aad [] != x.tag.take 16)
  | 7 => ([], hmac256 key x.src, false)
  | 8 => ([], [], hmac256 key x.src != x.tag.take 32)
  | 9 => ([], sha256 x.src, false)
  | _ => ([], sha3 x.src, false)

/-- The job runs: outputs, then the completion (R503, R505 to R508). `unit` is its E-unit. -/
def jobRun (op unit : Nat) (b : List Byte) (x : CipherIn) (s : State) : SvcEnd :=
  let slot := leAt b 2 2
  let ks := getSlot s slot
  let key := match ks with | some k => k.key | none => []
  let inst := match ks with | some k => k.inst | none => 0
  let makesIv := op == 1 || op == 5
  let ctr := s.ciph.counters.getD unit 0
  let boot := reg s pMSS R.MSS.BOOT_COUNT
  let iv := if makesIv then leBytes 2 (unit + 8 * inst) ++ leBytes 2 boot ++ leBytes 8 ctr
    else if op = 2 ∨ op = 6 then (b.drop 0x28).take 12 else []
  let x := jobInput s b x
  let s := if bitOf (leAt b 1 1) 0 then
      dramTouch (Config.winBase 0 + leAt b 0x18 8) (leAt b 0x20 4) (dramTouch (Config.winBase 0 + leAt b 8 8) (leAt b 4 4) s)
    else s
  let s := ciphCount 0 (if opKeyType op = 0 then s else useKey slot s)
  let s := if makesIv then setCiph s fun f => { f with counters := f.counters.set unit (ctr + 1) } else s
  let bad := x.failAt.isSome || x.aadFail
  let x := match x.failAt with | some n => { x with src := x.src.take n } | none => x
  let (out, tag, auth) := jobCompute op key iv b x
  let out := if x.aadFail ∧ x.failAt.isNone ∧ op = 1 then [] else out
  let (junk, s) := if bad then freeBytes 32 s else ([], s)
  let loc := leAt b 1 1 % 2
  let s := if out = [] then s else dmaWrite 0 loc (leAt b 0x10 8) out s
  let auth := auth && !bad
  let status := if bad then st.INTEGRITY else if auth then st.AUTH_FAIL else st.OK
  let distrust := if status = 0 then 0 else 1
  let tagField := if bad ∧ (op = 1 ∨ op = 5 ∨ op = 7 ∨ 9 ≤ op) then junk else tag
  let s := if x.outFail then s
    else dmaWrite 0 loc (leAt b 0x38 8) (outDesc status (distrust + (if makesIv then 2 else 0)) iv tagField out.length) s
  let status := if x.outFail then st.INTEGRITY else status
  let s := if status = st.INTEGRITY then ciphIntegrity slot s else if status = st.AUTH_FAIL then authFail slot s else s
  .done status (if makesIv then ctr % 2 ^ 32 else out.length) s

/-- The job descriptor a command names: in PF0's window, or as host memory holds it (R505, R509). -/
def jobBytes (c : SvcCmd) (job : List Byte) (s : State) : List Byte := ckData s (bitOf (c.d 6) 0) (c.q 4) 64 job

/-- One CIPH_OP of operation `op` (R504, R510): the job descriptor as read when it begins. A job of another operation is
another command, and no E-unit whose counter has ended takes one that makes an IV while another's has not (R503). -/
def ciphOp (op : Nat) (k : CmdRef) (job : List Byte) (unit : Nat) (x : CipherIn) (s : State) : State :=
  let job := match findCmd s k with | some c => jobBytes c job s | none => job
  let named := leAt job 0 1
  let ended (u : Nat) : Bool := decide (2 ^ 64 - 1 ≤ s.ciph.counters.getD u 0)
  if (1 ≤ named ∧ named ≤ 10 ∧ named ≠ op) ∨ 8 ≤ unit ∨ ((op = 1 ∨ op = 5) ∧ ended unit ∧ ¬ (List.range 8).all ended) then s
  else runSvc k 0x74 (fun c _ => jobOffence c job) noFence
    (fun c s =>
      if opKeyType op = 0 then jobRun op unit job x s
      else match getSlot s c.obj with
        | none => .done st.STATE_CONFLICT 0 s
        | some y =>
          if y.state ≠ 1 then .done st.STATE_CONFLICT 0 s
          else if keyType y ≠ opKeyType op ∨ ¬ bitOf y.attr (if opProtects op then 4 else 5) then .done 0xE1 0 s
          else if (op = 1 ∨ op = 5) ∧ 65536 ≤ reg s pMSS R.MSS.BOOT_COUNT - y.bootAt then
            .done 0xE0 0 (errInfo pCIPH 3 c.obj (penBit pCIPH 2 (ciphCount 3 s)))
          else if (op = 1 ∨ op = 5) ∧ ended unit then .done 0xE3 0 s
          else jobRun op unit job x s) s

/-- GCM_ENC. -/
def execGcmEnc (k : CmdRef) (job : List Byte) (unit : Nat) (x : CipherIn) (s : State) : Host.Outcome State Fault Refusal :=
  .next (ciphOp 1 k job unit x s)

/-- GCM_DEC. -/
def execGcmDec (k : CmdRef) (job : List Byte) (unit : Nat) (x : CipherIn) (s : State) : Host.Outcome State Fault Refusal :=
  .next (ciphOp 2 k job unit x s)

/-- XTS_ENC. -/
def execXtsEnc (k : CmdRef) (job : List Byte) (unit : Nat) (x : CipherIn) (s : State) : Host.Outcome State Fault Refusal :=
  .next (ciphOp 3 k job unit x s)

/-- XTS_DEC. -/
def execXtsDec (k : CmdRef) (job : List Byte) (unit : Nat) (x : CipherIn) (s : State) : Host.Outcome State Fault Refusal :=
  .next (ciphOp 4 k job unit x s)

/-- GMAC_GEN. -/
def execGmacGen (k : CmdRef) (job : List Byte) (unit : Nat) (x : CipherIn) (s : State) : Host.Outcome State Fault Refusal :=
  .next (ciphOp 5 k job unit x s)

/-- GMAC_VER. -/
def execGmacVer (k : CmdRef) (job : List Byte) (unit : Nat) (x : CipherIn) (s : State) : Host.Outcome State Fault Refusal :=
  .next (ciphOp 6 k job unit x s)

/-- HMAC_GEN. -/
def execHmacGen (k : CmdRef) (job : List Byte) (unit : Nat) (x : CipherIn) (s : State) : Host.Outcome State Fault Refusal :=
  .next (ciphOp 7 k job unit x s)

/-- HMAC_VER. -/
def execHmacVer (k : CmdRef) (job : List Byte) (unit : Nat) (x : CipherIn) (s : State) : Host.Outcome State Fault Refusal :=
  .next (ciphOp 8 k job unit x s)

/-- SHA256. -/
def execSha256 (k : CmdRef) (job : List Byte) (unit : Nat) (x : CipherIn) (s : State) : Host.Outcome State Fault Refusal :=
  .next (ciphOp 9 k job unit x s)

/-- SHA3_256. -/
def execSha3256 (k : CmdRef) (job : List Byte) (unit : Nat) (x : CipherIn) (s : State) : Host.Outcome State Fault Refusal :=
  .next (ciphOp 10 k job unit x s)

end Sys2Proof.Machine
end

