-- ==== Sys2Proof/Machine/GraphImage.lean ====
section
/-! DEFINITION. Tokenizer graph images: formats and tensor sizes (R198, R199), the header, tensor descriptors and ops
(R208, R209, R212), the checks of GRAPH_LOAD (R221), the resident part (R220), the estimates (R216) and the match with a
shaper profile (R210). -/

namespace Sys2Proof.Machine

/-- Element bits of a format code; 0 for a code that R198 does not list. -/
def fmtBits (f : Nat) : Nat :=
  if f = 1 ∨ f = 2 ∨ f = 6 ∨ f = 0x20 then 8 else if f = 3 ∨ f = 4 then 6 else if f = 5 then 4
  else if f = 0x10 ∨ f = 0x11 then 16 else if f = 0x12 ∨ f = 0x21 then 32 else 0

/-- An MX format (R198). -/
def fmtMx (f : Nat) : Bool := decide (1 ≤ f) && decide (f ≤ 6)

/-- A tensor descriptor (R209). -/
structure Tensor where
  fmt : Nat
  rank : Nat
  region : Nat
  flags : Nat
  offset : Nat
  dims : List Nat
  deriving DecidableEq, Repr

def Tensor.dim (t : Tensor) (i : Nat) : Nat := t.dims.getD i 1
def Tensor.elems (t : Tensor) : Nat := t.dims.foldl (· * ·) 1
def Tensor.streamed (t : Tensor) : Bool := bitOf t.flags 0
def Tensor.patch (t : Tensor) : Bool := bitOf t.flags 1

/-- Product of the dims above DIM[0]. -/
def Tensor.above (t : Tensor) : Nat := (t.dims.drop 1).foldl (· * ·) 1

/-- Up to the next multiple of `n`. -/
def roundUp (v n : Nat) : Nat := ceilDiv v n * n

/-- Bytes of the element array. -/
def Tensor.elemBytes (t : Tensor) : Nat := ceilDiv (t.elems * fmtBits t.fmt) 8

/-- Scale bytes of an MX tensor: one for each 32 elements (R199). -/
def Tensor.scaleBytes (t : Tensor) : Nat := if fmtMx t.fmt then t.elems / 32 else 0

/-- Bytes the tensor carries, scales included (the `B` of R216). -/
def Tensor.payload (t : Tensor) : Nat := t.elemBytes + t.scaleBytes

/-- Bytes the tensor spans in its region: scales begin at the next 64-byte boundary (R199). -/
def Tensor.span (t : Tensor) : Nat := if fmtMx t.fmt then roundUp t.elemBytes 64 + t.scaleBytes else t.elemBytes

/-- An op entry (R212). -/
structure TensorOp where
  opc : Nat
  rsv : Nat
  out : Nat
  in0 : Nat
  in1 : Nat
  in2 : Nat
  param : List Byte
  deriving DecidableEq, Repr

def TensorOp.p (o : TensorOp) (i : Nat) : Nat := leAt o.param i 1

/-- A graph image's fields. -/
def img.u8 (g : List Byte) (o : Nat) : Nat := leAt g o 1
def img.u16 (g : List Byte) (o : Nat) : Nat := leAt g o 2
def img.u32 (g : List Byte) (o : Nat) : Nat := leAt g o 4

abbrev img.flags (g : List Byte) : Nat := img.u16 g 6
abbrev img.tensors (g : List Byte) : Nat := img.u16 g 8
abbrev img.ops (g : List Byte) : Nat := img.u16 g 0xA
abbrev img.inTensor (g : List Byte) : Nat := img.u16 g 0xC
abbrev img.weightBytes (g : List Byte) : Nat := img.u32 g 0x10
abbrev img.workBytes (g : List Byte) : Nat := img.u32 g 0x14
abbrev img.tensorOff (g : List Byte) : Nat := img.u32 g 0x18
abbrev img.opOff (g : List Byte) : Nat := img.u32 g 0x1C
abbrev img.weightOff (g : List Byte) : Nat := img.u32 g 0x20
abbrev img.len (g : List Byte) : Nat := img.u32 g 0x24

/-- Tensor `i` of an image. -/
def img.tensor (g : List Byte) (i : Nat) : Tensor :=
  let o := img.tensorOff g + 32 * i
  { fmt := img.u8 g o, rank := img.u8 g (o + 1), region := img.u8 g (o + 2), flags := img.u8 g (o + 3)
    offset := img.u32 g (o + 4), dims := (List.range 5).map fun k => img.u16 g (o + 8 + 2 * k) }

/-- Op `i` of an image. -/
def img.op (g : List Byte) (i : Nat) : TensorOp :=
  let o := img.opOff g + 32 * i
  { opc := img.u8 g o, rsv := img.u8 g (o + 1), out := img.u16 g (o + 2), in0 := img.u16 g (o + 4)
    in1 := img.u16 g (o + 6), in2 := img.u16 g (o + 8), param := (g.drop (o + 0xA)).take 22 }

/-- `some o` when the check fails. -/
def badAt (fails : Bool) (o : Nat) : Option Nat := if fails then some o else none

/-- The lowest of the offsets that checks give: the first offending field (R221). -/
def lowestOf (l : List (Option Nat)) : Option Nat :=
  l.foldl (fun a x => match a, x with
    | some a, some b => some (min a b)
    | none, x => x
    | a, none => a) none

/-- The CRC-32C of the image with IMAGE_CRC taken as 0 (R208). -/
def img.crc (g : List Byte) : Nat := crc32c (g.take 0x3C ++ [0, 0, 0, 0] ++ g.drop 0x40)

/-- The first offending header field (R208). -/
def headerOffence (g : List Byte) : Option Nat :=
  [badAt (decide (g.length < 0x40) || img.u32 g 0 != 0x46524745) 0,
   badAt (img.u8 g 4 != 1) 4, badAt (decide (1 < img.u8 g 5)) 5, badAt (decide (1 < img.flags g)) 6,
   badAt (img.tensors g == 0 || decide (4096 < img.tensors g)) 8, badAt (img.ops g == 0 || decide (1024 < img.ops g)) 0xA,
   badAt (decide (img.tensors g ≤ img.inTensor g)) 0xC, badAt (img.u16 g 0xE != 0) 0xE,
   badAt (img.weightBytes g % 64 != 0) 0x10, badAt (img.workBytes g % 64 != 0) 0x14,
   badAt (decide (img.len g < img.tensorOff g + 32 * img.tensors g)) 0x18,
   badAt (decide (img.len g < img.opOff g + 32 * img.ops g)) 0x1C,
   badAt (img.weightOff g % 64 != 0 || decide (img.len g < img.weightOff g + img.weightBytes g)) 0x20,
   badAt (decide (2 ^ 30 < img.len g) || img.len g != g.length) 0x24,
   badAt (!allZero ((g.drop 0x28).take 20)) 0x28,
   badAt (img.u32 g 0x3C != img.crc g) 0x3C].findSome? id

/-- The first offending field of tensor `i` (R198, R199, R209); of the input tensor also REGION, and of an audio graph's its FMT and
RANK (R210). -/
def tensorOffence (g : List Byte) (i : Nat) : Option Nat :=
  let o := img.tensorOff g + 32 * i
  let t := img.tensor g i
  let input := i == img.inTensor g
  let audio := input && img.u8 g 5 == 1
  lowestOf ([badAt (fmtBits t.fmt == 0 || (t.fmt == 0x20 && t.region != 2) || (audio && t.fmt != 0x12)) o,
    badAt (t.rank == 0 || decide (5 < t.rank) || (audio && decide (2 < t.rank))) (o + 1),
    badAt (decide (2 < t.region) || (input && t.region != 2)) (o + 2),
    badAt (decide (3 < t.flags) || (t.streamed && t.region != 0)) (o + 3),
    badAt (t.offset % 64 != 0 || (t.region == 0 && decide (img.weightBytes g < t.offset + t.span)) ||
      (t.region == 1 && decide (img.workBytes g < t.offset + t.span))) (o + 4),
    badAt (fmtMx t.fmt && (if t.patch then t.dim 0 * t.dim 1 % 32 != 0 else t.dim 0 % 32 != 0)) (o + 8),
    badAt (!allZero ((g.drop (o + 0x12)).take 14)) (o + 0x12)] ++
    (List.range 5).map fun k => badAt (t.dim k == 0 || (decide (t.rank ≤ k) && t.dim k != 1)) (o + 8 + 2 * k))

/-- PARAM bytes an op uses (R212). -/
def paramBytes (opc : Nat) : Nat := [0, 0, 6, 9, 12, 6, 1, 7, 1, 0, 5, 1, 17, 4].getD opc 0

/-- The op reads IN1; it may read IN2. -/
def usesIn1 (opc : Nat) : Bool := opc == 1 || opc == 2 || opc == 3 || opc == 5 || opc == 8 || opc == 0xB
def usesIn2 (opc : Nat) : Bool := opc == 1 || opc == 2 || opc == 3 || opc == 4 || opc == 5

/-- The rate factor of R196 as numerator and denominator, for an operand pair the array takes. -/
def macRate (a b : Nat) : Option (Nat × Nat) :=
  let small (f : Nat) : Bool := f == 3 || f == 4 || f == 5
  let half (f : Nat) : Bool := f == 0x10 || f == 0x11
  if small a && small b then some (2, 1)
  else if fmtMx a && fmtMx b then some (1, 1)
  else if half a && half b then some (1, 4)
  else none

/-- Formats a MAC op may write. -/
def macOut (f : Nat) : Bool := f == 0x12 || f == 0x10 || f == 0x11 || fmtMx f

/-- Levels of an FSQ op. -/
def fsqLevels (o : TensorOp) : List Nat := (List.range (o.p 0)).map fun i => leAt o.param (1 + 2 * i) 2

/-- The sizes of a convolution: kernel, stride and padding in T, H and W. -/
structure ConvShape where
  kt : Nat
  kh : Nat
  kw : Nat
  st : Nat
  sh : Nat
  sw : Nat
  pt : Nat
  ph : Nat
  pw : Nat
  deriving DecidableEq, Repr

def convShape (o : TensorOp) : ConvShape :=
  if o.opc = 2 then { kt := 1, kh := o.p 0, kw := o.p 1, st := 1, sh := o.p 2, sw := o.p 3, pt := 0, ph := o.p 4, pw := o.p 5 }
  else { kt := o.p 0, kh := o.p 1, kw := o.p 2, st := o.p 3, sh := o.p 4, sw := o.p 5, pt := o.p 6, ph := o.p 7, pw := o.p 8 }

/-- Output positions along an axis of `n`, with kernel `k`, stride `s` and `p` zeros on both sides. -/
def convOut (n k s p : Nat) : Nat := (n + 2 * p - k) / s + 1

/-- K of a convolution (R212): a patch, or the kernel over the channels. -/
def convK (o : TensorOp) (t : Tensor) : Nat :=
  let c := convShape o
  if t.patch then t.dim 0 * t.dim 1 * t.dim 2 * (if o.opc = 3 then t.dim 4 else 1) else t.dim 0 * c.kt * c.kh * c.kw

/-- The element type and size of an op's OUT: what R212 to R214 make of its operands. With a patch-major input only the number of
positions is given. -/
def outBad (g : List Byte) (o : TensorOp) : Bool :=
  let t0 := img.tensor g o.in0
  let t1 := img.tensor g o.in1
  let out := img.tensor g o.out
  let c := convShape o
  match o.opc with
  | 1 => out.dims != t1.dim 1 :: t0.dims.drop 1
  | 2 => if t0.patch then out.dim 0 != t1.dim 1 || out.above != t0.dim 3 * t0.dim 4
    else out.dims != [t1.dim 1, convOut (t0.dim 1) c.kw c.sw c.pw, convOut (t0.dim 2) c.kh c.sh c.ph, 1, 1]
  | 3 => if t0.patch then out.dim 0 != t1.dim 1 || out.above != t0.dim 3
    else out.dims != [t1.dim 1, convOut (t0.dim 1) c.kw c.sw c.pw, convOut (t0.dim 2) c.kh c.sh c.ph,
      convOut (t0.dim 3) c.kt c.st c.pt, 1]
  | 4 => out.dims != [o.p 0 * o.p 1, t0.dim 1, t0.dim 2, t0.dim 3, 1]
  | 8 => out.dims != (t0.dims.zip t1.dims).map fun e => max e.1 e.2
  | 0xA => out.dims != (List.range 5).map fun i => t0.dim (o.p i)
  | 0xB => out.elems != t0.above
  | 0xC => out.elems != t0.above
  | 0xD => false
  | _ => out.dims != t0.dims

/-- PARAM bytes of a CONV with a patch-major input (R212): the patch, and for CONV3D the frames, are its kernel and stride. -/
def patchParam (o : TensorOp) (t : Tensor) : List (Option Nat) :=
  let want := if o.opc = 2 then [t.dim 1, t.dim 0, t.dim 1, t.dim 0] else [t.dim 4, t.dim 1, t.dim 0, t.dim 4, t.dim 1, t.dim 0]
  (enumFrom 0 want).map fun e => badAt (o.p e.1 != e.2) (0xA + e.1)

/-- Offsets from the op entry's start of PARAM bytes outside R212 to R215. -/
def paramOffences (g : List Byte) (o : TensorOp) : List (Option Nat) :=
  let t0 := img.tensor g o.in0
  let c := convShape o
  let own : List (Option Nat) := match o.opc with
    | 2 => (List.range 4).map (fun i => badAt (o.p i == 0) (0xA + i)) ++
        (if t0.patch then patchParam o t0
         else [badAt (decide (t0.dim 2 + 2 * c.ph < c.kh)) 0xA, badAt (decide (t0.dim 1 + 2 * c.pw < c.kw)) 0xB])
    | 3 => (List.range 6).map (fun i => badAt (o.p i == 0) (0xA + i)) ++
        (if t0.patch then patchParam o t0
         else [badAt (decide (t0.dim 3 + 2 * c.pt < c.kt)) 0xA, badAt (decide (t0.dim 2 + 2 * c.ph < c.kh)) 0xB,
           badAt (decide (t0.dim 1 + 2 * c.pw < c.kw)) 0xC])
    | 4 => [badAt (o.p 0 == 0) 0xA, badAt (o.p 1 != 32 && o.p 1 != 64) 0xB,
            badAt (o.p 2 * o.p 3 * o.p 4 == 0 || decide (256 < o.p 2 * o.p 3 * o.p 4)) 0xC]
    | 5 => [badAt (decide (2 < o.p 0)) 0xA, badAt (o.p 1 == 0 || decide (32 < o.p 1)) 0xB]
    | 6 => [badAt (decide (5 < o.p 0)) 0xA]
    | 7 => [badAt (decide (1 < o.p 0)) 0xA]
    | 8 => [badAt (decide (3 < o.p 0)) 0xA]
    | 0xA => (List.range 5).map fun i =>
        badAt (decide (4 < o.p i) || ((o.param.take i).contains (BitVec.ofNat 8 (o.p i)))) (0xA + i)
    | 0xB => [badAt (decide (1 < o.p 0)) 0xA]
    | 0xC => [badAt (o.p 0 == 0 || decide (8 < o.p 0)) 0xA,
              badAt (decide (2 ^ 24 < (fsqLevels o).foldl (· * ·) 1)) 0xB] ++
        (enumFrom 0 (fsqLevels o)).map fun e => badAt (decide (e.2 < 2) || decide (256 < e.2)) (0xB + 2 * e.1)
    | 0xD => [badAt (!(o.p 0 == 1 || o.p 0 == 2 || o.p 0 == 3 || o.p 0 == 4 || o.p 0 == 6 ||
                (decide (0x80 ≤ o.p 0) && decide (o.p 0 ≤ 0xBF)))) 0xA,
              badAt (decide (31 < o.p 1)) 0xB]
    | _ => []
  own ++ [badAt (!allZero (o.param.drop (paramBytes o.opc))) (0xA + paramBytes o.opc)]

/-- IN0 is not of the form R212 to R215 give the op. -/
def in0Bad (o : TensorOp) (t : Tensor) : Bool :=
  match o.opc with
  | 2 => !t.patch && (t.dim 3 != 1 || t.dim 4 != 1)
  | 3 => !t.patch && t.dim 4 != 1
  | 4 => t.dim 0 != 3 * o.p 0 * o.p 1 || t.dim 4 != 1
  | 0xC => t.fmt != 0x12 || t.dim 0 != o.p 0
  | 0xD => o.p 0 != 2 && o.p 0 != 6 && t.fmt != 0x21
  | _ => false

/-- IN1 is not: weights, gamma, a broadcast operand, a codebook. -/
def in1Bad (o : TensorOp) (t0 t1 : Tensor) : Bool :=
  let mac := (macRate t0.fmt t1.fmt).isNone || !(t1.dims.drop 2).all (· == 1)
  match o.opc with
  | 1 => mac || t0.dim 0 != t1.dim 0
  | 2 => mac || t1.dim 0 != convK o t0
  | 3 => mac || t1.dim 0 != convK o t0
  | 5 => t1.fmt != 0x12 || t1.elems != t0.dim 0
  | 8 => (t0.dims.zip t1.dims).any fun e => e.1 != e.2 && e.1 != 1 && e.2 != 1
  | 0xB => t1.dim 0 != t0.dim 0 || decide (64 < t1.dim 0) || decide (262144 < t1.above) ||
      (t1.fmt != 0x10 && t1.fmt != 1 && t1.fmt != 2)
  | _ => false

/-- IN2 is not: an FP32 bias of one value for each column, beta, a relative bias. -/
def in2Bad (o : TensorOp) (t0 t1 t2 : Tensor) : Bool :=
  t2.fmt != 0x12 || (if o.opc = 5 then t2.elems != t0.dim 0 else o.opc != 4 && t2.elems != t1.dim 1)

/-- The first offending field of op `i` (R196, R212 to R215). -/
def opOffence (g : List Byte) (i : Nat) : Option Nat :=
  let b := img.opOff g + 32 * i
  let o := img.op g i
  let n := img.tensors g
  let t0 := img.tensor g o.in0
  let t1 := img.tensor g o.in1
  let mac := o.opc == 1 || o.opc == 2 || o.opc == 3
  (lowestOf ([badAt (o.opc == 0 || decide (0xD < o.opc)) 0, badAt (o.rsv != 0) 1,
    badAt (o.opc != 0xD && (decide (n ≤ o.out) || (mac && !macOut (img.tensor g o.out).fmt) || outBad g o)) 2,
    badAt (decide (n ≤ o.in0) || in0Bad o t0) 4,
    badAt (usesIn1 o.opc && (decide (n ≤ o.in1) || in1Bad o t0 t1)) 6,
    badAt (usesIn2 o.opc && o.in2 != 0xFFFF && (decide (n ≤ o.in2) || in2Bad o t0 t1 (img.tensor g o.in2))) 8] ++
    paramOffences g o)).map (b + ·)

/-- The image offset of the first offending field of a graph image (R221). -/
def imageOffence (g : List Byte) : Option Nat :=
  match headerOffence g with
  | some o => some o
  | none => lowestOf ((List.range (img.tensors g)).map (tensorOffence g) ++ (List.range (img.ops g)).map (opOffence g))

/-- Bytes of the resident part of the weight block (R220). -/
def residentBytes (g : List Byte) : Nat :=
  roundUp ((List.range (img.tensors g)).foldl (fun a i =>
    let t := img.tensor g i
    if t.region = 0 ∧ ¬ t.streamed then max a (t.offset + t.span) else a) 0) 64

/-- MAC(M, K, N) at a rate factor (R216). -/
def macCost (m k n : Nat) (r : Nat × Nat) : Nat := ceilDiv (m * ceilDiv k 64 * ceilDiv n 64 * r.2) r.1

/-- V(n, c) (R216). -/
def vecCost (n c : Nat) : Nat := ceilDiv (n * c) 256

/-- A record's LEN: 16-byte header, payload, zero padding and the CRC, a multiple of 8 (R132). -/
def recordLen (payload : Nat) : Nat := roundUp (20 + payload) 8

/-- Payload bytes of an EMIT op (R133, R215). -/
def emitPayload (o : TensorOp) (t : Tensor) : Nat :=
  if o.p 0 = 2 ∨ o.p 0 = 6 then 4 + t.payload else ceilDiv (t.elems * (o.p 1 + 1)) 8

/-- C of R216. -/
def opCost (g : List Byte) (o : TensorOp) : Nat :=
  let t0 := img.tensor g o.in0
  let t1 := img.tensor g o.in1
  let out := img.tensor g o.out
  let r := (macRate t0.fmt t1.fmt).getD (1, 1)
  match o.opc with
  | 1 => macCost t0.above (t0.dim 0) (t1.dim 1) r
  | 2 => macCost out.above (t1.dim 0) (t1.dim 1) r
  | 3 => macCost out.above (t1.dim 0) (t1.dim 1) r
  | 4 =>
    let tk := o.p 2 * o.p 3 * o.p 4
    let windows := ceilDiv (t0.dim 1) (o.p 4) * ceilDiv (t0.dim 2) (o.p 3) * ceilDiv (t0.dim 3) (o.p 2)
    windows * o.p 0 * (macCost tk (o.p 1) tk (1, 4) + macCost tk tk (o.p 1) (1, 4) + vecCost (tk * tk) 6)
  | 5 => vecCost t0.elems 3
  | 6 => if o.p 0 = 0 then vecCost t0.elems 1 else vecCost t0.elems 4
  | 7 => vecCost t0.elems 1
  | 8 => vecCost t0.elems 1
  | 9 => vecCost t0.elems 1
  | 0xA => vecCost t0.elems 2
  | 0xB => t0.above * ceilDiv t1.above 128
  | 0xC => vecCost t0.elems 6
  | 0xD => ceilDiv (recordLen (emitPayload o t0)) 64
  | _ => 0

/-- B of R216: bytes read from and written to the slice. -/
def opBytes (g : List Byte) (o : TensorOp) : Nat :=
  let t0 := img.tensor g o.in0
  let t1 := img.tensor g o.in1
  let b1 := if usesIn1 o.opc then t1.payload else 0
  let b2 := if usesIn2 o.opc ∧ o.in2 ≠ 0xFFFF then (img.tensor g o.in2).payload else 0
  let bo := if o.opc = 0xD then recordLen (emitPayload o t0) else (img.tensor g o.out).payload
  let book := if o.opc = 0xB ∧ 2 ^ 21 < t1.payload then t1.payload * ceilDiv t0.above 64 else 0
  t0.payload + b1 + b2 + bo + book

/-- S of R216: bytes of streamed weights. -/
def opStreamed (g : List Byte) (o : TensorOp) : Nat :=
  let one (i : Nat) : Nat := if (img.tensor g i).region = 0 ∧ (img.tensor g i).streamed then (img.tensor g i).payload else 0
  one o.in0 + (if usesIn1 o.opc then one o.in1 else 0) + (if usesIn2 o.opc ∧ o.in2 ≠ 0xFFFF then one o.in2 else 0)

/-- The estimate of an op (R216). -/
def opEstimate (g : List Byte) (o : TensorOp) : Nat :=
  128 + max (opCost g o) (ceilDiv (opBytes g o) 900) + ceilDiv (opStreamed g o) 18

/-- The estimate of a whole run (R216). -/
def runEstimate (g : List Byte) : Nat := ((List.range (img.ops g)).map fun i => opEstimate g (img.op g i)).sum

/-- Bytes one shaped frame takes under a profile (R190). -/
def frameBytes (prof : List Byte) : Nat :=
  leAt prof 0x14 2 * leAt prof 0x16 2 * (if leAt prof 5 1 = 2 then 1 else 3) * (if leAt prof 6 1 = 0 then 1 else 2)

/-- The FMT a profile's OUT_TYPE stands for. -/
def profFmt (prof : List Byte) : Nat := if leAt prof 6 1 = 0 then 0x20 else if leAt prof 6 1 = 1 then 0x10 else 0x11

/-- A visual graph's input matches a profile and GROUP_FRAMES (R210). -/
def visMatches (g prof : List Byte) (group : Nat) : Bool :=
  let t := img.tensor g (img.inTensor g)
  let w := leAt prof 0x14 2
  let h := leAt prof 0x16 2
  let pw := leAt prof 0x18 1
  let ph := leAt prof 0x19 1
  let c := if leAt prof 5 1 = 2 then 1 else 3
  img.u8 g 5 == 0 && t.region == 2 && t.fmt == profFmt prof &&
    (if leAt prof 0x1A 1 = 0 then t.patch && t.dims == [pw, ph, c, w / pw * (h / ph), group]
     else !t.patch && t.dims == [w, h, c, group, 1])

/-- An audio graph (R210). -/
def isAudio (g : List Byte) : Bool :=
  let t := img.tensor g (img.inTensor g)
  img.u8 g 5 == 1 && t.region == 2 && t.fmt == 0x12 && decide (t.rank ≤ 2)

end Sys2Proof.Machine
end

