-- ==== Sys2Proof/Machine/Pages.lean ====
section
/-! DEFINITION. Register accesses: plain writes, pennants, commits, bad accesses, version negotiation (chapter 03). -/

namespace Sys2Proof.Machine

/-- An agent reaches a page: PF0 and the MSS see every page, any other function its own, cores the pages of the map
(R93). -/
def sees (s : State) (a : Agent) (p : Page) : Bool :=
  pagePresent s p && (match a with
    | .func f => f == 0 || (p.ty == .func && p.inst == f)
    | _ => true)

/-- Registers whose writes are commands of their own. -/
def ownWrite (p : Page) (off : Nat) : Bool :=
  off == R.PENNANT || off == R.PENNANT_FORCE || off == R.BLK_COMMIT || off == R.SNAP_STAT ||
  (decide (R.PC_CTL ≤ off) && decide (off < R.PC_CTL + 32)) ||
  (match p.ty with
   | .glb => off == R.GLB.DRV_ABI
   | .tick => off == R.TICK.HALYARD_FIRE
   | .func => off == R.FUNC.DRV_ABI || off == R.FUNC.HEARTBEAT || off == R.FUNC.ORPHAN_CTL || off == 0x3FC ||
      (decide (0x100 ≤ off) && decide (off < 0x300))
   | .link => off == R.LINK.CTL || off == R.LINK.PAT_CTL
   | _ => false)

/-- PREC_SEL.CLR: the selected core's precise record is emptied (R599). -/
def precClear (s : State) : State :=
  let c := fld s pPERF R.PERF.PREC_SEL 16 2
  setRegN { s with tags := { s.tags with prec := mdel s.tags.prec c } } pPERF (R.PERF.PREC_FILL + 4 * c) 0

/-- A write of PENNANT_EN that raises (PENNANT & PENNANT_EN) from zero sends the page's message (R101). -/
def enableWrite (a : Agent) (p : Page) (v : Nat) (s : State) : State :=
  let was := reg s p R.PENNANT &&& reg s p R.PENNANT_EN
  let s := writeFields s a p R.PENNANT_EN v
  if was = 0 ∧ reg s p R.PENNANT &&& reg s p R.PENNANT_EN ≠ 0 then notifyPage p s else s

/-- One 32-bit plain write. Of BLK_CTL only the fields with no behaviour of their own, ROUTE and HAL_ARM, are taken.
FUNC.RMT_DB_LO (0x3F8) is kept for the write of RMT_DB_HI (0x3FC) that acts on it (R323). -/
def plainWrite (a : Agent) (addr v : Nat) (s : State) : State :=
  match pageOf addr with
  | none => s
  | some p =>
    let off := addr % 0x1000
    if ¬ sees s a p ∨ off % 4 ≠ 0 ∨ ownWrite p off then s
    else if off = R.BLK_CTL then
      setFld (setFld s p off 16 2 (bitsOf v 16 2)) p off 4 1 (bitsOf v 4 1)
    else if off = R.PENNANT_EN then enableWrite a p v s
    else if p.ty = .func ∧ off = 0x3F8 then
      { s with rmt := { s.rmt with dbLo := mput s.rmt.dbLo p.inst v } }
    else
      let s := writeFields s a p off v
      if p.ty = .perf ∧ off = R.PERF.TAG_SEED then { s with tags := { s.tags with lfsr := none } }
      else if p.ty = .perf ∧ off = R.PERF.PREC_SEL ∧ bitOf v 31 then precClear s
      else s

/-- An aligned 32-bit or 64-bit access (R91). -/
def alignedAccess (addr size : Nat) : Bool := (size == 4 && addr % 4 == 0) || (size == 8 && addr % 8 == 0)

/-- The access is not an aligned 32-bit or 64-bit access, or lies in a reserved page (R91). -/
def badAccess (s : State) (addr size : Nat) : Bool :=
  !alignedAccess addr size || (match pageOf addr with | some p => !pagePresent s p | none => true)

/-- An access that R91 does not take is recorded in GLB.BAD_ACCESS with its pennant. -/
def recordBad (addr : Nat) (write : Bool) (s : State) : State :=
  penBit pGLB 0 (setRegN s pGLB R.GLB.BAD_ACCESS ((if write then 2 ^ 31 else 0) + addr % 2 ^ 26))

/-- Error and fatal entries become read, and ALERT_STAT.LOG falls, when their MSS pennant bits are cleared (R555). -/
def logAlert (p : Page) (s : State) : State :=
  if p.ty = .mss then setAlert 4 (decide (reg s pMSS R.PENNANT % 4 ≠ 0)) s else s

/-- PENNANT_WRITE: 1s clear bits; a message is sent when enabled bits remain set (R8, R101). -/
def execPennantWrite (a : Agent) (p : Page) (v : Dword) (s : State) : Host.Outcome State Fault Refusal :=
  .next <|
    if sees s a p then
      let s := logAlert p (writeFields s a p R.PENNANT v.toNat)
      if reg s p R.PENNANT &&& reg s p R.PENNANT_EN ≠ 0 then notifyPage p s else s
    else s

/-- The bits a block's PENNANT defines. -/
def pennantMask (ty : PageType) : Nat := (pennantBits ty).foldl (fun a f => a + 2 ^ f.lo) 0

/-- PENNANT_FORCE: sets defined bits exactly as hardware would (R100). -/
def execPennantForce (a : Agent) (p : Page) (v : Dword) (s : State) : Host.Outcome State Fault Refusal :=
  .next <|
    if sees s a p then logAlert p (pennant p (v.toNat &&& pennantMask p.ty) s) else s

/-- A commit of a page is requested at `t`; one that is pending already stays (R74). -/
def commitReq (t : Nat) (p : Page) (s : State) : State :=
  let key := pageAt p 0
  let s := setFld s p R.BLK_COMMIT 0 1 1
  match mget s.commits key with
  | some _ => s
  | none => { s with commits := mput s.commits key t }

/-- BLK_COMMIT: a write of 1 at `t`. The commit waits for the first edge at least 1 µs later (R74). A page without
shadows has nothing to apply but answers the same. -/
def execBlkCommit (t : Nat) (p : Page) (s : State) : Host.Outcome State Fault Refusal :=
  .next <|
    let s := atTime t s
    if ¬ pagePresent s p then s else commitReq t p s

/-- The agreement an offer leads to: ABI 1.0 only (R98). -/
def abiAgreed (offer : Nat) : Nat :=
  let hi := min (offer / 2 ^ 16) 0x0100
  let lo := max (offer % 2 ^ 16) 0x0100
  if lo ≤ hi then 2 ^ 31 + hi else 2 ^ 30

/-- A service queue pair of the function exists (R99). -/
def anyPair (s : State) (f : Nat) : Bool := s.pairs.any fun e => e.1 / 64 == f

/-- GLB_DRV_ABI: PF0 negotiates (R98, R99). -/
def execGlbDrvAbi (v : Dword) (s : State) : Host.Outcome State Fault Refusal :=
  .next <|
    if anyPair s 0 then s
    else
      let a := abiAgreed v.toNat
      let s := setRegN (setReg s pGLB R.GLB.DRV_ABI v) pGLB R.GLB.ABI_AGREED a
      if bitOf a 30 then penBit pGLB 1 s else s

/-- FUNC_DRV_ABI: any other function negotiates (R98, R99). -/
def execFuncDrvAbi (func : Nat) (v : Dword) (s : State) : Host.Outcome State Fault Refusal :=
  .next <|
    if func = 0 ∨ 1012 ≤ func ∨ anyPair s func then s
    else
      let a := abiAgreed v.toNat
      let s := setRegN (setReg s (pFUNC func) R.FUNC.DRV_ABI v) (pFUNC func) R.FUNC.ABI_AGREED a
      if bitOf a 30 then penBit (pFUNC func) 10 s else s

/-- The agreement of a function: PF0's in GLB, any other's in its FUNC page (R99). -/
def agreement (s : State) (f : Nat) : Nat :=
  if f = 0 then reg s pGLB R.GLB.ABI_AGREED else reg s (pFUNC f) R.FUNC.ABI_AGREED

def setAgreement (f v : Nat) (s : State) : State :=
  if f = 0 then setRegN s pGLB R.GLB.ABI_AGREED v else setRegN s (pFUNC f) R.FUNC.ABI_AGREED v

/-- The offer and the agreement return to their reset values (R99). -/
def clearAgreement (f : Nat) (s : State) : State :=
  if f = 0 then setRegN (setRegN s pGLB R.GLB.DRV_ABI 0) pGLB R.GLB.ABI_AGREED 0
  else setRegN (setRegN s (pFUNC f) R.FUNC.DRV_ABI 0) (pFUNC f) R.FUNC.ABI_AGREED 0

end Sys2Proof.Machine
end

