-- ==== Sys2Proof/Machine/Queues.lean ====
section
/-! DEFINITION. Service queues: doorbells, fetch, and the control-plane commands (chapter 03). -/

namespace Sys2Proof.Machine

/-- SQ_TAIL (R105). -/
def execSqTail (func pair index : Nat) (s : State) : Host.Outcome State Fault Refusal :=
  .next <|
    match getPair s func pair with
    | some p => if index < p.sqDepth then setPair s func pair { p with sqTail := index } else penBit (pFUNC func) 0 s
    | none => penBit (pFUNC func) 0 s

/-- CQ_HEAD releases entries up to the new head (R105). -/
def execCqHead (func pair index : Nat) (s : State) : Host.Outcome State Fault Refusal :=
  .next <|
    match getPair s func pair with
    | some p => if index < p.cqDepth then setPair s func pair { p with cqHead := index } else penBit (pFUNC func) 0 s
    | none => penBit (pFUNC func) 0 s

/-- The function's queues are fetched: its page serves work and its DMA is not silenced. A function ORPHAN, FROZEN or
freezing is not fetched for (R368, R371, R375); while a splice hands over, no queue is (R575). -/
def fetchAllowed (s : State) (func : Nat) : Bool := blkRunning s (pFUNC func) && !silent s func && !deckPaused s

/-- COMMAND_FETCH: with a completion entry to reserve, one command leaves the submission queue (R105). `dw` is what the
device read, or none where the read failed, which puts the pair in ERROR (R112). VERSION, or
INVALID_FIELD by the command table, completes it at once; otherwise it is in hand, and the other checks of R114 follow in
their order as it begins. -/
def execCommandFetch (func pair : Nat) (dw : Option (List Dword)) (s : State) : Host.Outcome State Fault Refusal :=
  .next <|
    match getPair s func pair with
    | none => s
    | some p =>
      if p.state ≠ 1 ∨ p.sqHead = p.sqTail ∨ p.cqDepth ≤ cqUsed s func pair p + 1 ∨ ¬ fetchAllowed s func then s
      else match dw with
        | none => setPair s func pair { p with state := 3 }
        | some dw =>
          let c : SvcCmd := {
            func := func, pair := pair, cid := bitsOf (dw.getD 0 0).toNat 16 16, dw := dw, begun := false
            seq := s.cmdSeq, tick := s.tick.count }
          let off := fieldOffence s c
          let s := setPair s func pair { p with sqHead := (p.sqHead + 1) % p.sqDepth }
          let s := { s with cmds := s.cmds ++ [c], cmdSeq := s.cmdSeq + 1 }
          let abi := agreement s func
          if ¬ bitOf abi 31 ∨ bitsOf abi 8 8 ≠ bitsOf (c.d 0) 12 4 then complete c st.VERSION 0 s
          else match off with
            | some o => complete c st.INVALID_FIELD o s
            | none => s

/-- CMD_NOP (R111). -/
def execCmdNop (k : CmdRef) (s : State) : Host.Outcome State Fault Refusal :=
  .next (runSvc k 0x00 noInv noFence (fun _ s => .done st.OK 0 s) s)

/-- A pair from base addresses and the Q0_CFG layout, ACTIVE. -/
def newPair (sq cq cfg : Nat) : QPair := {
  state := 1, sqBase := sq, cqBase := cq, sqDepth := bitsOf cfg 0 12 + 1, cqDepth := bitsOf cfg 16 12 + 1
  sqLoc := bitsOf cfg 12 1, cqLoc := bitsOf cfg 29 1, sqHead := 0, sqTail := 0, cqHead := 0, cqTail := 0, phase := true }

/-- CREATE_QPAIR (R111, R112); an index at or above RES_SVC.PAIRS is out of range (R363). -/
def execCreateQpair (k : CmdRef) (s : State) : Host.Outcome State Fault Refusal :=
  .next <| runSvc k 0x01
    (fun c s =>
      let pend := match begunOn s 0x95 c.func with | some d => bitsOf (d.d 7) 0 7 | none => 64
      if min (fld s (pFUNC c.func) R.FUNC.RES_SVC 0 7) pend ≤ c.obj then some 4 else none) noFence
    (fun c s =>
      if pairState s c.func c.obj ≠ 0 then .done st.STATE_CONFLICT 0 s
      else .done st.OK 0 (setPair s c.func c.obj (newPair (c.q 4) (c.q 6) (c.d 8)))) s

/-- A pair enters DELETING: its commands not yet begun complete with ABORTED (R112). -/
def deletePair (func pair : Nat) (s : State) : State :=
  match getPair s func pair with
  | none => s
  | some p =>
    let s := setPair s func pair { p with state := 2 }
    abortCmds (fun c => c.func == func && c.pair == pair && !c.begun) st.ABORTED s

/-- DELETE_QPAIR: accepted in ACTIVE and ERROR; completes when the pair is ABSENT (R112). -/
def execDeleteQpair (k : CmdRef) (s : State) : Host.Outcome State Fault Refusal :=
  .next <| runSvc k 0x02 noInv noFence
    (fun c s =>
      let st' := pairState s c.func c.obj
      if st' = 1 ∨ st' = 3 then .wait (deletePair c.func c.obj s) else .done st.STATE_CONFLICT 0 s) s

/-- QPAIR_DELETED: a DELETING pair with no command in hand becomes ABSENT, and its DELETE_QPAIR completes (R112). -/
def execQpairDeleted (func pair : Nat) (s : State) : Host.Outcome State Fault Refusal :=
  .next <|
    if pairState s func pair = 2 ∧ s.cmds.all (fun c => !(c.func == func && c.pair == pair)) then
      let s := { s with pairs := mdel s.pairs (pairKey func pair) }
      finishCmds (fun c => c.func == func && c.op == 2 && c.obj == pair) st.OK 0 s
    else s

/-- The object a command names belongs to a fenced block (R89). -/
def objFenced (c : SvcCmd) (s : State) : Bool :=
  match c.objType with
  | 2 => blkFenced s (pTILE c.obj)
  | 4 => blkFenced s (pTILE (c.obj / 128))
  | 5 => blkFenced s pFEED
  | 6 => blkFenced s pRMT
  | _ => false

/-- QUERY_OBJECT: result 0, the state in dword 2 (R111). -/
def execQueryObject (k : CmdRef) (s : State) : Host.Outcome State Fault Refusal :=
  .next (runSvc k 0x03 noInv objFenced (fun _ s => .done st.OK 0 s) s)

end Sys2Proof.Machine
end

