-- ==== Sys2Proof/Machine/Tags.lean ====
section
/-! DEFINITION. Random tagging: the LFSR, the tagged items and their records in the sample ring (R596 to R598). -/

namespace Sys2Proof.Machine

/-- One step of the 32-bit Galois LFSR of R596, shifting towards bit 0. -/
def lfsrStep (x : Nat) : Nat := if x % 2 = 1 then (x / 2) ^^^ 0x80200003 else x / 2

/-- K of a tagging field: above 24 acts as 24. -/
def tagK (k : Nat) : Nat := min k 24

/-- Key of an item: its kind and identity. -/
def tagKey (kind id : Nat) : Nat := kind * 2 ^ 80 + id

/-- A candidate of a domain (bit 31 samples, 30 RMT, 29 NVMe): the LFSR steps, and the item is tagged when the low K bits
are 0 (R596). `key` names it here, `id` in its record. -/
def tagStart (kind unit key id : Nat) (s : State) : State :=
  let cfg := reg s pPERF R.PERF.TAG_CFG
  if ¬ bitOf cfg (32 - kind) then s
  else
    let seed := reg s pPERF R.PERF.TAG_SEED
    let x := lfsrStep (s.tags.lfsr.getD (if seed = 0 then 1 else seed))
    let s := { s with tags := { s.tags with lfsr := some x } }
    if bitsOf x 0 (tagK (bitsOf cfg 0 5)) = 0 then
      let it : TagItem := {
        kind := kind, unit := unit, ofs := s.now - s.tick.edgeAt, tick := s.tick.count, at_ := s.now, id := id, stages := [] }
      { s with tags := { s.tags with items := mput s.tags.items (tagKey kind key) it } }
    else s

/-- A candidate that its record's identity names. -/
def tagCandidate (kind unit id : Nat) (s : State) : State := tagStart kind unit id id s

/-- The identity in the item's record becomes known. -/
def tagName (kind key id : Nat) (s : State) : State :=
  { s with tags := { s.tags with items := mmod s.tags.items (tagKey kind key) fun it => { it with id := id } } }

/-- A tagged item has reached a stage. -/
def tagReached (s : State) (kind key stage : Nat) : Bool :=
  match mget s.tags.items (tagKey kind key) with
  | some it => (mget it.stages stage).isSome
  | none => false

/-- The item reaches a stage. A stage that means the first of several keeps its first time; `last` overwrites. -/
def tagStage (kind id stage : Nat) (last : Bool) (s : State) : State :=
  match mget s.tags.items (tagKey kind id) with
  | none => s
  | some it =>
    if (mget it.stages stage).isSome ∧ ¬ last then s
    else { s with tags := { s.tags with
      items := mput s.tags.items (tagKey kind id) { it with stages := mput it.stages stage s.now } } }

/-- The 64-byte record of R597. -/
def tagRecord (it : TagItem) (flags : Nat) : List Byte :=
  let stage (i : Nat) : Nat := match mget it.stages i with
    | some t => min 0xFFFFFFFE (t - it.at_)
    | none => 0xFFFFFFFF
  let b := leBytes 1 it.kind ++ leBytes 1 flags ++ leBytes 2 it.unit ++ leBytes 4 it.ofs ++ leBytes 8 it.tick ++
    leBytes 8 it.id ++ (List.range 9).flatMap fun i => leBytes 4 (stage i)
  b ++ leBytes 4 (crc32c b)

/-- A tagged item ends: its record goes to the sample ring, or is discarded when the ring is full (R598). -/
def tagEnd (kind id flags : Nat) (s : State) : State :=
  match mget s.tags.items (tagKey kind id) with
  | none => s
  | some it =>
    let s := { s with tags := { s.tags with items := mdel s.tags.items (tagKey kind id) } }
    let pi := reg s pPERF R.PERF.RING_PI
    let size := 2 ^ max 6 (min 20 (fld s pPERF R.PERF.RING_CFG 0 5))
    if size ≤ (pi + 2 ^ 32 - reg s pPERF R.PERF.RING_CI) % 2 ^ 32 then
      penBit pPERF 2 (addSat s pPERF R.PERF.RING_LOST 1 0xFFFFFFFF)
    else
      let base := reg s pPERF R.PERF.RING_BASE_LO + 2 ^ 32 * reg s pPERF R.PERF.RING_BASE_HI
      let s := windowPut 0 (base + 64 * (pi % size)) (tagRecord it flags) s
      setRegN s pPERF R.PERF.RING_PI ((pi + 1) % 2 ^ 32)

end Sys2Proof.Machine
end

