-- ==== Sys2Proof/Machine/Foundry.lean ====
section
/-! DEFINITION. The token foundry: stream set commands, context placement and moves, samples, packs and the reservoir
(chapter 04). -/

namespace Sys2Proof.Machine

def setFoundry (s : State) (f : Foundry → Foundry) : State := { s with foundry := f s.foundry }

def getSet (s : State) (i : Nat) : Option StreamSet := mget s.foundry.sets i

def putSet (i : Nat) (x : StreamSet) (s : State) : State := setFoundry s fun f => { f with sets := mput f.sets i x }

def getCtx (s : State) (k : Nat) : Option Ctx := mget s.foundry.ctxs k

def putCtx (k : Nat) (x : Ctx) (s : State) : State := setFoundry s fun f => { f with ctxs := mput f.ctxs k x }

/-- Ingest state of a context. -/
def getMedia (s : State) (k : Nat) : Media := mgetD s.media.ctx k Media.empty

def putMedia (k : Nat) (m : Media) (s : State) : State :=
  { s with media := { s.media with ctx := mputD s.media.ctx k Media.empty m } }

def tileOfNum (n : Nat) : Nat := n / 128

/-- Bytes of the picture pool that the tile's contexts use (R180). -/
def poolUsed (s : State) (tile : Nat) : Nat :=
  (s.media.ctx.map fun e => match getCtx s e.1 with
    | some c => if c.num.map tileOfNum = some tile then (e.2.pool.map (·.bytes)).sum else 0
    | none => 0).sum

/-- DEC.POOL_STAT.USED shows the pool of the tile's contexts, MiB rounded up (R180). -/
def showPool (tile : Nat) (s : State) : State :=
  setFld s (pDEC tile) R.DEC.POOL_STAT 0 15 (ceilDiv (poolUsed s tile) (2 ^ 20))

/-- The slice space a context holds is returned (R190, R211, R223). -/
def returnHeld (k : Nat) (s : State) : State :=
  { s with media := { s.media with held := s.media.held.filter fun e => e.ctx != k } }

/-- What a move or a fence leaves of a context's ingest state: what is known of the shard stays; the pool, the crop and the work
on the sample go (R124, R163, R187). -/
def Media.restart (m : Media) : Media := { m with
  pool := [], targets := [], plan := ⟨[], [], []⟩, replan := false, shaped := [], visual := none, groups := 0
  audioRun := none, chunks := 0, texts := 0, crop := none }

/-- The sample in progress is over: its targets, plan, shaped frames and runs are forgotten. -/
def endSampleMedia (k : Nat) (s : State) : State :=
  putMedia k { getMedia s k with
    targets := [], plan := ⟨[], [], []⟩, replan := false, shaped := [], visual := none, groups := 0, audioRun := none
    chunks := 0, texts := 0 } (returnHeld k s)

/-- The context's sample in progress is discarded: the position stays, it holds no slice space, and its tagged item ends as
abandoned (R124, R597). -/
def discardSample (k : Nat) (s : State) : State :=
  match getCtx s k with
  | some c => (match c.cur with
    | some x => tagEnd 1 x.packId 2 (putCtx k { c with cur := none } (endSampleMedia k s))
    | none => s)
  | none => s

/-- A context of a set that no tile holds yet. -/
def newCtx (sset : Nat) : Ctx := {
  sset := sset, state := 1, former := 1, num := none, target := none, origin := none, off := false, shard := none
  sample := 0, total := none, ended := false, failed := false, cachePos := 0, cached := 0, refused := 0, cur := none, credit := [] }

/-- Contexts of a set, by key. -/
def ctxsOf (s : State) (i : Nat) : List (Nat × Ctx) := s.foundry.ctxs.filter fun e => e.2.sset == i

/-! ### Slots and placement (R122, R140) -/

/-- Local indexes of a tile that are bound or held reserved. -/
def takenOn (s : State) (tile : Nat) : List Nat :=
  (s.foundry.ctxs.filterMap fun e => match e.2.num with
    | some n => if tileOfNum n = tile then some (n % 128) else none
    | none => none) ++
  (s.foundry.slots.filterMap fun e => if e.2.2.1 = tile then some e.2.2.2 else none)

/-- The lowest local index of a tile not in a list. -/
def lowestFree (taken : List Nat) : Option Nat := (List.range 128).find? fun i => !taken.contains i

/-- The tile R122 chooses: in the mask, RUNNING, not excluded, with a free slot, fewest bound or held, lowest index; and
the lowest free local index. `extra` lists slots already planned. -/
def chooseSlot (s : State) (mask : Nat) (excl : Option Nat) (extra : List (Nat × Nat)) : Option (Nat × Nat) :=
  let cand := (List.range 32).filterMap fun t =>
    if bitOf mask t ∧ blkState s (pTILE t) = 1 ∧ excl ≠ some t then
      let taken := takenOn s t ++ (extra.filterMap fun e => if e.1 = t then some e.2 else none)
      match lowestFree taken with
      | some i => some (taken.length, t, i)
      | none => none
    else none
  match cand with
  | [] => none
  | c :: l => some (l.foldl (fun b x => if x.1 < b.1 then x else b) c).2

/-- Plans slots for a list of (mask, excluded tile), one at a time; none when any finds no slot (R140). -/
def planSlots (s : State) : List (Nat × Option Nat) → List (Nat × Nat) → Option (List (Nat × Nat))
  | [], acc => some acc
  | (m, x) :: l, acc =>
    match chooseSlot s m x acc with
    | some r => planSlots s l (acc ++ [r])
    | none => none

/-- TILE.CTX_STAT.BOUND of every tile shows the contexts placed there. -/
def showBound (s : State) : State :=
  forN 32 s fun t s =>
    let n := (s.foundry.ctxs.filter fun e => match e.2.num with | some n => tileOfNum n == t | none => false).length
    setFld s (pTILE t) R.TILE.CTX_STAT 0 8 n

/-! ### Shards (R119, R120, R123) -/

/-- Sampled frames of a shard whose last frame ends `dur` after its first presentation time (R119). -/
def sampledFrames (x : StreamSet) (dur : Nat) : Nat :=
  if dur ≤ x.startOff then 0 else ceilDiv (dur - x.startOff) x.interval

/-- Samples of the shard (R120). -/
def sampleCount (x : StreamSet) (dur : Nat) : Nat :=
  let k := sampledFrames x dur
  if k < x.clip then 0 else (k - x.clip) / x.stride + 1

/-- The frame R119 picks for time `t`: the last whose presentation time is at or before it. `times` are the presentation
times in presentation order. -/
def frameAt (times : List Nat) (t : Nat) : Option Nat :=
  ((enumFrom 0 times).filter fun e => decide (e.2 ≤ t)).getLast?.map (·.1)

/-- The context has no shard to work on. -/
def shardDone (c : Ctx) : Bool :=
  match c.shard with
  | none => true
  | some _ => c.ended || (match c.total with | some n => decide (n ≤ c.sample) | none => false)

/-- Where a context begins a shard: at its first sample, or in an adopted set at the mirrored position (R488). -/
def startSample (s : State) (sset shard : Nat) : Nat :=
  match s.pair.startAt.find? fun e => e.1 == sset && e.2.1 == shard with
  | some e => e.2.2
  | none => 0

/-- An index outside the half that the device may create objects in (R473). -/
def halfWrong (s : State) (i : Nat) : Bool :=
  let st := pairMode s
  decide (0x81 ≤ st) && decide (st ≤ 0x85) && i / 512 != fld s pPAIR R.PAIR.STAT 8 1

/-- The context takes the set's next unbound shard, or becomes IDLE (R123). -/
def bindShard (k : Nat) (s : State) : State :=
  match getCtx s k with
  | none => s
  | some c =>
    match getSet s c.sset with
    | none => s
    | some x =>
      if x.next < x.shards.length then
        putCtx k { c with
          state := 1, shard := some x.next, sample := startSample s c.sset x.next, total := none, ended := false
          failed := false, cachePos := 0, cached := 0 }
          (showOwn c (putMedia k Media.empty (putSet c.sset { x with next := x.next + 1 } s)))
      else putCtx k { c with state := 4, shard := none } s
where
  /-- Shows the pool of the context's tile. -/
  showOwn (c : Ctx) (s : State) : State := match c.num with | some n => showPool (tileOfNum n) s | none => s

/-- The state a context returns to: what it was before MOVING. -/
def settled (c : Ctx) : Nat := if c.state = 3 then c.former else c.state

/-- Puts a context on a slot, discarding its sample in progress and showing CTX_MOVED on both tiles (R124). -/
def moveCtx (k tile idx : Nat) (s : State) : State :=
  let s := discardSample k s
  let s := putMedia k (getMedia s k).restart s
  match getCtx s k with
  | none => s
  | some c =>
    let old := c.num
    let s := putCtx k { c with
      num := some (tile * 128 + idx), target := none, origin := none, off := false, cur := none, credit := [], state := settled c } s
    let s := penBit (pTILE tile) 3 s
    match old with
    | some n => showPool (tileOfNum n) (penBit (pTILE (tileOfNum n)) 3 s)
    | none => s

/-- The context is bound to no tile until a slot is free (R532). -/
def unplaceCtx (k : Nat) (s : State) : State :=
  let s := discardSample k s
  let s := putMedia k (getMedia s k).restart s
  match getCtx s k with
  | none => s
  | some c =>
    let s := putCtx k { c with num := none, origin := c.num, target := none, off := false, cur := none, state := settled c } s
    match c.num with
    | some n => showPool (tileOfNum n) (penBit (pTILE (tileOfNum n)) 3 s)
    | none => s

/-- Places a context by R122 within its set's mask, or leaves it bound to no tile. -/
def placeCtx (k : Nat) (excl : Option Nat) (s : State) : State :=
  match getCtx s k with
  | none => s
  | some c =>
    let mask := match getSet s c.sset with | some x => x.mask | none => 0
    match chooseSlot s mask excl [] with
    | some (t, i) => moveCtx k t i s
    | none => if c.num.isNone then s else unplaceCtx k s

/-! ### Stream set commands -/

def byteAt (l : List Byte) (o : Nat) : Nat := leAt l o 1

/-- CORRUPT_POLICY holds no reserved value and no reserved bit (R164). -/
def policyOk (p : Nat) : Bool := decide (p < 8) && p % 4 != 3

/-- The descriptor offset of the first field R142 refuses, in byte order. -/
def descOffence (d : List Byte) : Option Nat :=
  let bad (b : Bool) (o : Nat) : Option Nat := if b then some o else none
  let clip := leAt d 0x0C 2
  let grp := leAt d 0x0E 2
  let pm := leAt d 0x14 4
  let out := leAt d 0x02 2
  [bad (byteAt d 0 != 1) 0, bad (decide (4 ≤ byteAt d 1)) 1, bad (out == 0 || decide (16 ≤ out)) 2,
   bad (decide (leAt d 4 4 < 900) || decide (90000000 < leAt d 4 4)) 4,
   bad (clip == 0 || decide (1024 < clip)) 0x0C,
   bad (grp == 0 || decide (16 < grp) || clip % grp != 0) 0x0E,
   bad (leAt d 0x10 4 == 0) 0x10,
   bad (pm % 64 != 0 || decide (pm < 4096) || decide (4194304 < pm)) 0x14,
   bad (leAt d 0x18 4 == 0) 0x18,
   bad (leAt d 0x1C 2 == 0 || decide (4096 < leAt d 0x1C 2)) 0x1C,
   bad (leAt d 0x1E 2 == 0 || decide (1024 < leAt d 0x1E 2)) 0x1E,
   bad (!policyOk (byteAt d 0x26)) 0x26,
   bad (leAt d 0x2C 2 == 0 || decide (256 < leAt d 0x2C 2)) 0x2C].findSome? id |>.orElse fun _ =>
     ((List.range 18).find? fun i => byteAt d (0x2E + i) != 0).map (0x2E + ·)

/-- A stream set from its descriptor (R116), DEFINED. -/
def setOfDesc (d : List Byte) : StreamSet := {
  state := 1, container := byteAt d 1, outputs := leAt d 2 2, interval := leAt d 4 4, startOff := leAt d 8 4
  clip := leAt d 0x0C 2, group := leAt d 0x0E 2, stride := leAt d 0x10 4, packMax := leAt d 0x14 4
  mask := leAt d 0x18 4, contexts := leAt d 0x1C 2, weight := leAt d 0x1E 2, vis := leAt d 0x20 2
  aud := leAt d 0x22 2, prof := leAt d 0x24 2, policy := byteAt d 0x26, audioSel := byteAt d 0x27
  rank := leAt d 0x28 4, readahead := leAt d 0x2C 2, shards := [], next := 0, pauseAt := 0 }

/-- A tokenizer graph is loaded: TEN.GRAPH_MAP, the same in every instance (chapter 06). -/
def graphLoaded (s : State) (g : Nat) : Bool :=
  decide (g < 1024) && bitOf (reg s (pTEN 0) (R.TEN.GRAPH_MAP + 4 * (g / 32))) (g % 32)

/-- A shaper profile is loaded: SHP.PROFILE_MAP (chapter 05). -/
def profileLoaded (s : State) (p : Nat) : Bool :=
  decide (p < 256) && bitOf (reg s (pSHP 0) (R.SHP.PROFILE_MAP + 4 * (p / 32))) (p % 32)

/-- The image of a loaded graph. -/
def graphImage (s : State) (g : Nat) : List Byte := match mget s.media.graphs g with | some x => x.image | none => []

/-- The bytes of a loaded profile. -/
def profileBytes (s : State) (p : Nat) : List Byte := mgetD s.media.profiles p []

/-- GRAPH_MISMATCH (R210, R221). -/
def graphMismatch (s : State) (x : StreamSet) : Bool :=
  (bitOf x.outputs 0 && !visMatches (graphImage s x.vis) (profileBytes s x.prof) x.group) ||
  (bitOf x.outputs 2 && !isAudio (graphImage s x.aud))

/-- The 64 descriptor bytes of an SSET_CREATE: `host` holds what host memory has at the address. -/
def setDesc (c : SvcCmd) (s : State) (host : List Byte) : List Byte := ckData s (bitOf (c.d 6) 0) (c.q 4) 64 host

/-- SSET_CREATE with its descriptor read (R138, R141, R142). -/
def execSsetCreate (k : CmdRef) (desc : List Byte) (s : State) : Host.Outcome State Fault Refusal :=
  .next <| runSvc k 0x10
    (fun c s => (descOffence (setDesc c s desc)).map (0x100 + ·)) noFence
    (fun c s =>
      if (getSet s c.obj).isSome then .done st.STATE_CONFLICT 0 s
      else if halfWrong s c.obj then .done 0xD0 0 s
      else
        let x := setOfDesc (setDesc c s desc)
        if (bitOf x.outputs 0 ∧ ¬ graphLoaded s x.vis) ∨ (bitOf x.outputs 2 ∧ ¬ graphLoaded s x.aud) then .done 0x81 0 s
        else if ¬ profileLoaded s x.prof then .done 0x82 0 s
        else if graphMismatch s x then .done 0x89 0 s
        else .done st.OK 0 (putSet c.obj x s)) s

/-- A QP number lies in PF0's range (R363). -/
def qpOfPf0 (s : State) (q : Nat) : Bool :=
  let base := fld s (pFUNC 0) R.FUNC.RES_QP 0 16
  decide (base ≤ q) && decide (q < base + fld s (pFUNC 0) R.FUNC.RES_QP 16 16)

/-- Namespace `n` exists (R142, R400). -/
def nsExists (s : State) (n : Nat) : Bool := (mget s.nvme.nss n).isSome

/-- The byte offset of the field of a shard entry R142 refuses. -/
def shardOffence (s : State) (e : List Byte) : Option Nat :=
  let src := byteAt e 0
  if src = 0 ∨ 3 < src then some 0
  else if leAt e 1 3 ≠ 0 then some 1
  else if (src = 1 ∧ ¬ nsExists s (leAt e 4 4)) ∨ (src = 2 ∧ ¬ qpOfPf0 s (leAt e 4 4)) ∨ (src = 3 ∧ leAt e 4 4 ≠ 0) then some 4
  else if leAt e 0x10 8 < 188 then some 0x10
  else if leAt e 0x18 8 ≠ 0 then some 0x18
  else none

/-- The first bad entry of a list: 32 × its position plus the offset. -/
def listOffence (s : State) (entries : List (List Byte)) : Option Nat :=
  (enumFrom 0 entries).findSome? fun e => (shardOffence s e.2).map (32 * e.1 + ·)

def shardOf (e : List Byte) : Shard := {
  source := byteAt e 0, handle := leAt e 4 4, offset := leAt e 8 8, length := leAt e 0x10 8 }

/-- The entries of an SSET_ADD_SHARDS, 32 bytes each. -/
def shardList (c : SvcCmd) (s : State) (host : List (List Byte)) : List (List Byte) :=
  if bitOf (c.d 7) 0 then (List.range (c.d 6)).map fun i => windowRead s 0 (c.q 4 + 32 * i) 32 else host

/-- SSET_ADD_SHARDS with the entries read (R138, R142, R144). -/
def execSsetAddShards (k : CmdRef) (entries : List (List Byte)) (s : State) : Host.Outcome State Fault Refusal :=
  .next <| runSvc k 0x11
    (fun c s => if c.d 6 = 0 ∨ 65536 < c.d 6 then some 24 else (listOffence s (shardList c s entries)).map (0x100 + ·)) noFence
    (fun c s =>
      match getSet s c.obj with
      | none => .done st.STATE_CONFLICT 0 s
      | some x =>
        let entries := shardList c s entries
        if x.state ≠ 1 ∧ x.state ≠ 2 ∧ x.state ≠ 4 then .done st.STATE_CONFLICT 0 s
        else if 16777216 < x.shards.length + entries.length then .done st.NO_RESOURCE 0 s
        else .done st.OK (x.shards.length + entries.length)
          (putSet c.obj { x with shards := x.shards ++ entries.map shardOf } s)) s

/-- SSET_START: slots are reserved as the tiles stand; the contexts take them at the next edge (R122, R140). -/
def execSsetStart (k : CmdRef) (s : State) : Host.Outcome State Fault Refusal :=
  .next <| runSvc k 0x12 noInv noFence
    (fun c s =>
      match getSet s c.obj with
      | none => .done st.STATE_CONFLICT 0 s
      | some x =>
        if x.state ≠ 1 ∨ x.shards = [] then .done st.STATE_CONFLICT 0 s
        else match planSlots s (List.replicate x.contexts (x.mask, none)) [] with
          | none => .done st.NO_RESOURCE 0 s
          | some l =>
            let held := (enumFrom 0 l).map fun e => (c.seq, e.1, e.2.1, e.2.2)
            .wait (setFoundry (putSet c.obj { x with state := 2 } s) fun f => { f with slots := f.slots ++ held })) s

/-- DRAINING sets become DONE as soon as every context of theirs is IDLE (R138, R144). -/
def drainSets (s : State) : State :=
  s.foundry.sets.foldl (fun s e =>
    if e.2.state = 5 ∧ (ctxsOf s e.1).all (fun c => c.2.state == 4) then putSet e.1 { e.2 with state := 6 } s else s) s

/-- An ACTIVE set begins to pause. -/
def pausedSet (s : State) (x : StreamSet) : StreamSet := { x with state := 3, pauseAt := s.tick.count }

/-- SSET_PAUSE: ACTIVE to PAUSING; new samples stop at the next edge, and it completes when the set is PAUSED (R139). -/
def execSsetPause (k : CmdRef) (s : State) : Host.Outcome State Fault Refusal :=
  .next <| runSvc k 0x13 noInv noFence
    (fun c s =>
      match getSet s c.obj with
      | some x =>
        if x.state = 2 then .wait (putSet c.obj (pausedSet s x) s)
        else .done st.STATE_CONFLICT 0 s
      | none => .done st.STATE_CONFLICT 0 s) s

/-- SSET_RESUME: a PAUSED set becomes ACTIVE; its contexts run again from the next edge (R138, R144). -/
def execSsetResume (k : CmdRef) (s : State) : Host.Outcome State Fault Refusal :=
  .next <| runSvc k 0x14 noInv noFence
    (fun c s =>
      match getSet s c.obj with
      | some x => if x.state = 4 then .wait (putSet c.obj { x with state := 2 } s) else .done st.STATE_CONFLICT 0 s
      | none => .done st.STATE_CONFLICT 0 s) s

/-- SSET_DRAIN (R138, R144). -/
def execSsetDrain (k : CmdRef) (s : State) : Host.Outcome State Fault Refusal :=
  .next <| runSvc k 0x15 noInv noFence
    (fun c s =>
      match getSet s c.obj with
      | some x =>
        if x.state = 2 then .done st.OK 0 (drainSets (putSet c.obj { x with state := 5 } s)) else .done st.STATE_CONFLICT 0 s
      | none => .done st.STATE_CONFLICT 0 s) s

/-- The set a pack belongs to: PACK_ID [63:48] (R130). -/
def packSet (p : Pack) : Nat := p.id / 2 ^ 48

/-- SSET_DESTROY: samples in progress discarded, contexts freed; with PURGE the set's packs that no ring or exchange holds
leave the reservoir (R138, R139). -/
def execSsetDestroy (k : CmdRef) (s : State) : Host.Outcome State Fault Refusal :=
  .next <| runSvc k 0x16 noInv noFence
    (fun c s =>
      match getSet s c.obj with
      | none => .done st.STATE_CONFLICT 0 s
      | some x =>
        if x.state = 1 ∨ x.state = 4 ∨ x.state = 6 then
          let gone (p : Pack) : Bool :=
            bitOf (c.d 4) 0 && !p.peer && packSet p == c.obj && p.rank == x.rank && p.ring.isNone && !p.chosen
          let n := (s.foundry.packs.filter gone).length
          let s := (ctxsOf s c.obj).foldl (fun s e => putMedia e.1 Media.empty (returnHeld e.1 (discardSample e.1 s))) s
          let s := (s.foundry.packs.filter gone).foldl (fun s p => tagEnd 1 p.id 1 s) s
          .done st.OK n (showBound (setFoundry s fun f => { f with
            sets := mdel f.sets c.obj, ctxs := f.ctxs.filter fun e => e.2.sset != c.obj
            packs := f.packs.filter fun p => !gone p }))
        else .done st.STATE_CONFLICT 0 s) s

/-- CTX_MOVE: MOVING until the next edge (R138, R141, R145). The slot on the target is held from the beginning. -/
def execCtxMove (k : CmdRef) (s : State) : Host.Outcome State Fault Refusal :=
  .next <| runSvc k 0x17 (fun c _ => if 32 ≤ c.d 4 then some 16 else none) objFenced
    (fun c s =>
      match ctxAt s c.obj with
      | none => .done st.STATE_CONFLICT 0 s
      | some (key, x) =>
        if x.state = 3 then .done st.STATE_CONFLICT 0 s
        else if blkState s (pTILE (c.d 4)) ≠ 1 ∨ c.d 4 = tileOfNum c.obj then .done 0x80 0 s
        else match lowestFree (takenOn s (c.d 4)) with
          | none => .done st.NO_RESOURCE 0 s
          | some i =>
            .wait (setFoundry (putCtx key { x with state := 3, former := x.state, target := some (c.d 4) } s)
              fun f => { f with slots := f.slots ++ [(c.seq, key, c.d 4, i)] })) s

/-- TILE_VACATE: slots for the tile's contexts are reserved elsewhere; VACATING until the next edge (R140, R143). The contexts are
planned and placed in the order in which they were created: R140 gives none (log entry 172). -/
def execTileVacate (k : CmdRef) (s : State) : Host.Outcome State Fault Refusal :=
  .next <| runSvc k 0x18 noInv objFenced
    (fun c s =>
      if blkState s (pTILE c.obj) ≠ 1 then .done st.STATE_CONFLICT 0 s
      else
        let on := s.foundry.ctxs.filter fun e =>
          (match e.2.num with | some n => tileOfNum n == c.obj | none => false) && e.2.state != 3
        let want := on.map fun e => ((match getSet s e.2.sset with | some x => x.mask | none => 0), some c.obj)
        match planSlots s want [] with
        | none => .done st.NO_RESOURCE 0 s
        | some l =>
          let held := (on.zip l).map fun e => (c.seq, e.1.1, e.2.1, e.2.2)
          .wait (setBlkState (setFoundry s fun f => { f with slots := f.slots ++ held }) (pTILE c.obj) 0x80)) s

/-- TILE_ADMIT: VACANT to RUNNING (R143). -/
def execTileAdmit (k : CmdRef) (s : State) : Host.Outcome State Fault Refusal :=
  .next <| runSvc k 0x19 noInv objFenced
    (fun c s =>
      if blkState s (pTILE c.obj) = 0x81 then .done st.OK 0 (setBlkState s (pTILE c.obj) 1)
      else .done st.STATE_CONFLICT 0 s) s

/-- RESV_CFG: applies at the next edge (R137, R138). -/
def execResvCfg (k : CmdRef) (s : State) : Host.Outcome State Fault Refusal :=
  .next <| runSvc k 0x1A
    (fun c _ => if c.d 4 = 0 ∨ 640 < c.d 4 then some 16 else if 65535 < c.d 5 then some 20
      else if 256 < c.d 6 then some 24 else none) noFence
    (fun _ s => .wait s) s

/-! ### Samples and packs -/

/-- Bytes of the reservoir held for exchange messages in progress (R337). -/
def rxReserved (s : State) : Nat :=
  (s.rmt.qps.map fun e => if e.2.ty = 2 then ((e.2.msgs.filter fun m => m.imm == none).map (·.total)).sum else 0).sum

/-- Bytes of the reservoir in use: packs and reservations. -/
def resvUsed (s : State) : Nat :=
  (s.foundry.packs.map (·.len)).sum +
    (s.foundry.ctxs.map fun e => match e.2.cur with | some x => x.reserve | none => 0).sum + rxReserved s

def ctxTile (c : Ctx) : Nat := match c.num with | some n => tileOfNum n | none => 0

/-- The name of a context's next sample: set, shard, sample index (R130). -/
def packIdOf (c : Ctx) : Nat := c.sset * 2 ^ 48 + (c.shard.getD 0) * 2 ^ 24 + c.sample

/-- The context's sample is over: it goes on from the next one; after a sample made again at takeover (R488) its position
stays. -/
def afterSample (k : Nat) (c : Ctx) (id : Nat) (s : State) : State :=
  if s.pair.remake.contains id then
    putCtx k { c with cur := none } { s with pair := { s.pair with remake := s.pair.remake.filter (· != id) } }
  else putCtx k { c with cur := none, sample := c.sample + 1 } s

/-- A sample is dropped: counted, SAMPLE_DROP, its records, its reservation and its slice space given up, the position
past it (R128, R129). -/
def dropSample (k : Nat) (s : State) : State :=
  match getCtx s k with
  | none => s
  | some c =>
    match c.cur with
    | none => s
    | some x =>
      let p := pTILE (ctxTile c)
      let s := tagEnd 1 x.packId 1 (endSampleMedia k s)
      penBit p 1 (addReg (afterSample k c x.packId s) p R.TILE.DROPPED 1)

/-- Zero bytes up to a multiple of `n`. -/
def padTo (n : Nat) (l : List Byte) : List Byte := l ++ List.replicate ((n - l.length % n) % n) 0

/-- The 64-byte pack header with its CRC (R130). -/
def packHeader (flags count len rank id made epoch tile ctx src : Nat) : List Byte :=
  let h := leBytes 4 0x4B505345 ++ leBytes 1 1 ++ leBytes 1 flags ++ leBytes 2 count ++ leBytes 4 len ++ leBytes 4 rank ++
    leBytes 8 id ++ leBytes 8 made ++ leBytes 2 epoch ++ leBytes 1 tile ++ leBytes 1 0 ++ leBytes 2 ctx ++ leBytes 2 0 ++
    leBytes 8 src ++ List.replicate 12 0
  h ++ leBytes 4 (crc32c h)

/-- Pack bytes: header, records, zeros to a multiple of 64 (R130). -/
def packLen (records : List RecordRef) : Nat := ceilDiv (64 + (records.map (·.len)).sum) 64 * 64

/-! ### Step 7 of a tick edge -/

/-- Packs sealed in the tick before become resident; the exchange quota follows (R135, R136). -/
def edgeResidence (s : State) : State :=
  let newly := s.foundry.packs.filter fun p => p.resident.isNone
  let s := newly.foldl (fun s p => if p.peer then s else tagStage 1 p.id 5 true s) s
  setFoundry s fun f => { f with
    packs := f.packs.map fun p => if p.resident.isNone then { p with resident := some s.tick.count } else p
    quota := newly.length * f.xfrac / 256 }

/-- RESV_CFG commands in hand apply and complete, in the order they began (R137). -/
def edgeResvCfg (s : State) : State :=
  (s.cmds.filter fun c => c.begun && c.op == 0x1A).foldl (fun s c =>
    complete c st.OK 0 (setFoundry s fun f => { f with capGiB := c.d 4, minRes := c.d 5, xfrac := c.d 6 })) s

/-- Slots held for a command, in order. -/
def heldFor (s : State) (seq : Nat) : List (Nat × Nat × Nat) :=
  (s.foundry.slots.filter fun e => e.1 == seq).map (·.2)

def dropHeld (seq : Nat) (s : State) : State :=
  setFoundry s fun f => { f with slots := f.slots.filter fun e => e.1 != seq }

/-- The slot held for one context of a command is taken. -/
def takeHeld (seq k : Nat) (s : State) : State :=
  setFoundry s fun f => { f with slots := f.slots.filter fun e => !(e.1 == seq && e.2.1 == k) }

/-- One context of an SSET_START takes its slot, or is placed by R122 where its tile has left RUNNING, and takes the next
unbound shard (R122, R123, R140). Where R122 finds no slot it is bound to no tile, RUNNING with its shard: the manual does not
say what becomes of it (log entry 173). -/
def startOne (sset tile idx : Nat) (s : State) : State :=
  let k := s.foundry.nextCtx
  let c := newCtx sset
  let s := setFoundry s fun f => { f with ctxs := mput f.ctxs k c, nextCtx := k + 1 }
  let s := if blkState s (pTILE tile) = 1 then putCtx k { c with num := some (tile * 128 + idx) } s else placeCtx k none s
  bindShard k s

/-- SSET_START at its placing edge: the result counts the contexts that a tile holds. -/
def edgeStart (c : SvcCmd) (s : State) : State :=
  let held := heldFor s c.seq
  let s := held.foldl (fun s e => startOne c.obj e.2.1 e.2.2 (takeHeld c.seq e.1 s)) s
  let placed := (ctxsOf s c.obj).filter fun e => e.2.num.isSome
  complete c st.OK placed.length (dropHeld c.seq s)

/-- CTX_MOVE at its edge: the new global number in dword 1; with the target no longer RUNNING, R122 places it, and
0xFFFF_FFFF reports that no slot was free (R145, R535). -/
def edgeMove (c : SvcCmd) (s : State) : State :=
  let held := heldFor s c.seq
  let s := held.foldl (fun s e =>
    let s := takeHeld c.seq e.1 s
    if blkState s (pTILE e.2.1) = 1 then moveCtx e.1 e.2.1 e.2.2 s
    else placeCtx e.1 none s) s
  let res := match held with
    | e :: _ => (match getCtx s e.1 with | some x => x.num.getD 0xFFFFFFFF | none => 0xFFFFFFFF)
    | [] => 0xFFFFFFFF
  complete c st.OK res (dropHeld c.seq s)

/-- TILE_VACATE at its edge: contexts take their slots and the tile is VACANT; a tile fenced meanwhile keeps its fence. -/
def edgeVacate (c : SvcCmd) (s : State) : State :=
  let s := (heldFor s c.seq).foldl (fun s e =>
    let s := takeHeld c.seq e.1 s
    if blkState s (pTILE e.2.1) = 1 then moveCtx e.1 e.2.1 e.2.2 s else placeCtx e.1 (some c.obj) s) s
  let s := dropHeld c.seq s
  let s := if blkState s (pTILE c.obj) = 0x80 then setBlkState s (pTILE c.obj) 0x81 else s
  complete c st.OK 0 s

/-- Contexts put off a fenced or reset tile, and contexts bound to no tile, are placed by R122 in ascending order; not back
on the tile that put them off (R143, R532). -/
def edgeDisplaced (s : State) : State :=
  (sortBy (fun e => lastNum e.2) (s.foundry.ctxs.filter fun e => e.2.off || e.2.num.isNone)).foldl (fun s e =>
    placeCtx e.1 ((if e.2.off then e.2.num else e.2.origin).map tileOfNum) s) s
where
  /-- The global number a context has, or had last. -/
  lastNum (c : Ctx) : Nat := (c.num.orElse fun _ => c.origin).getD 4096

/-- Waiting contexts take shards in ascending global number (R123). -/
def edgeShards (s : State) : State :=
  let want := s.foundry.ctxs.filter fun e =>
    (e.2.state == 1 || e.2.state == 4) && e.2.num.isSome && shardDone e.2 && e.2.cur.isNone &&
    (match getSet s e.2.sset with
     | some x => (x.state == 2 || x.state == 5) && (e.2.state == 1 || (x.state == 2 && decide (x.next < x.shards.length)))
     | none => false)
  (sortBy (fun e => e.2.num.getD 0) want).foldl (fun s e => bindShard e.1 s) s

/-- The contexts of the sets that SSET_RESUME commands in hand name run again, and the commands complete (R138, R144). -/
def edgeResume (s : State) : State :=
  (s.cmds.filter fun c => c.begun && c.op == 0x14).foldl (fun s c =>
    complete c st.OK 0 ((ctxsOf s c.obj).foldl (fun s e =>
      if e.2.state = 2 then putCtx e.1 { e.2 with state := if e.2.shard.isSome then 1 else 4 } s else s) s)) s

/-- PAUSING sets with no sample in progress become PAUSED, their contexts with them (R139, R144). -/
def edgeSets (s : State) : State :=
  s.foundry.sets.foldl (fun s e =>
    let cs := ctxsOf s e.1
    if e.2.state = 3 ∧ cs.all (fun c => c.2.cur.isNone) then
      let s := cs.foldl (fun s c => putCtx c.1 { c.2 with state := 2 } s) (putSet e.1 { e.2 with state := 4 } s)
      finishCmds (fun c => c.op == 0x13 && c.obj == e.1) st.OK 0 s
    else s) s

/-- The foundry's hand-overs at step 7. -/
def edgeFoundry (s : State) : State :=
  let s := edgeResidence (edgeResvCfg s)
  let s := (s.cmds.filter fun c => c.begun && (c.op == 0x12 || c.op == 0x17 || c.op == 0x18)).foldl (fun s c =>
    if c.op = 0x12 then edgeStart c s else if c.op = 0x17 then edgeMove c s else edgeVacate c s) s
  showBound (drainSets (edgeShards (edgeSets (edgeResume (edgeDisplaced s)))))

end Sys2Proof.Machine
end

