-- ==== Sys2Proof/Machine/FlashMap.lean ====
section
/-! DEFINITION. The map of logical blocks to the medium: what a write changes when it lands (R390 to R392, R422). -/

namespace Sys2Proof.Machine

/-- Data bytes of a logical block of an LBA format (R393). -/
def lbaBytes (lbaf : Nat) : Nat := if lbaf < 2 then 4096 else 512

/-- Key of a logical block. -/
def lbaKey (nsid lba : Nat) : Nat := nsid * 2 ^ 64 + lba

/-- Blocks of a namespace no longer map to the medium. -/
def unmapRange (nsid lba n : Nat) (f : Flash) : Flash :=
  { f with map := f.map.filter fun e => !(decide (lbaKey nsid lba ≤ e.1) && decide (e.1 < lbaKey nsid (lba + n))) }

/-- What a programmed write puts into the map, under one write sequence. `progs` are the die pairs of its 64 KiB programs. -/
def landCmd (nsid bs : Nat) (progs : List (Nat × Nat)) (c : NCmd) (f : Flash) : Flash :=
  let f := { f with seq := f.seq + 1 }
  if c.kind = 2 then c.ranges.foldl (fun f r => unmapRange nsid r.1 r.2 f) f
  else c.ranges.foldl (fun f r => (List.range r.2).foldl (fun f i =>
    let d := if c.kind = 1 then List.replicate bs 0 else (c.data.drop (i * bs)).take bs
    let b : LBlk := {
      data := d, pi := (c.pi.drop (i * 16)).take 16, seq := f.seq
      staged := if c.place.isSome then none else progs[i * bs / 65536]?
      folded := c.place, dead := false }
    { f with
      map := mput f.map (lbaKey nsid (r.1 + i)) b
      hostBytes := f.hostBytes + bs
      medBytes := f.medBytes + (if c.place.isSome then bs else 2 * bs) }) f) f

/-- A begun write lands where its namespace still exists. -/
def landIn (n : Nvme) (c : NCmd) (f : Flash) : Flash :=
  let nsid := c.dw.getD 1 0
  match mget n.nss nsid with
  | some x => landCmd nsid (lbaBytes x.lbaf) (mgetD f.begun c.num []) c f
  | none => f

/-- Every write whose programming has begun lands (R392, R431). -/
def landBegun (n : Nvme) (f : Flash) : Flash :=
  (n.ctrls.flatMap fun e => e.2.cmds.filter fun c => (mget f.begun c.num).isSome).foldl (fun f c => landIn n c f) f

end Sys2Proof.Machine
end

