-- ==== Sys2Proof/Machine/NvmeCore.lean ====
section
/-! DEFINITION. NVMe controllers: completions, their messages, asynchronous events (chapter 11, R383, R389, R398, R402,
R405). Status values are 256 * status code type + status code, as the NVMe specifications number them (PRESUMED). -/

namespace Sys2Proof.Machine

def setNvme (s : State) (f : Nvme → Nvme) : State := { s with nvme := f s.nvme }

def getCtrl (s : State) (f : Nat) : Ctrl := mgetD s.nvme.ctrls f Ctrl.reset

def putCtrl (f : Nat) (x : Ctrl) (s : State) : State := setNvme s fun n => { n with ctrls := mputD n.ctrls f Ctrl.reset x }

def getNs (s : State) (i : Nat) : Option Ns := mget s.nvme.nss i

def putNs (i : Nat) (x : Ns) (s : State) : State := setNvme s fun n => { n with nss := mput n.nss i x }

def nvmeCount (i : Nat) (s : State) : State := addReg s pNVME (R.NVME.COUNT + 4 * i) 1

/-- A controller's registers as its BAR shows them (R382): CAP, VS, INTMS, CC, CSTS, AQA, ASQ and ACQ by offset; 64-bit ones
whole. The bits of CAP the table does not name follow NVMe (PRESUMED): CSS names the NVM command set. -/
def nvmeRegister (x : Ctrl) (off : Nat) : Nat :=
  match off with
  | 0x00 => 4095 + 2 ^ 16 + 2 ^ 17 + 4 * 2 ^ 24 + 2 ^ 37
  | 0x08 => 0x00020100
  | 0x0C | 0x10 => x.intms
  | 0x14 => x.cc
  | 0x1C => (if x.rdy then 1 else 0) + (if x.cfs then 2 else 0) + x.shst * 4
  | 0x24 => x.aqa
  | 0x28 => x.asq
  | 0x30 => x.acq
  | _ => 0

/-- Status values. -/
abbrev nv.OK : Nat := 0
abbrev nv.OPCODE : Nat := 0x01
abbrev nv.FIELD : Nat := 0x02
abbrev nv.CID : Nat := 0x03
abbrev nv.TRANSFER : Nat := 0x04
abbrev nv.ABORTED : Nat := 0x07
abbrev nv.SQ_DELETED : Nat := 0x08
abbrev nv.NS_FORMAT : Nat := 0x0B
abbrev nv.SANITIZING : Nat := 0x1D
abbrev nv.PROTECTED : Nat := 0x20
abbrev nv.LBA_RANGE : Nat := 0x80
abbrev nv.NOT_READY : Nat := 0x82
abbrev nv.FORMATTING : Nat := 0x84
abbrev nv.CQ_INVALID : Nat := 0x100
abbrev nv.QID : Nat := 0x101
abbrev nv.QSIZE : Nat := 0x102
abbrev nv.ABORT_LIMIT : Nat := 0x103
abbrev nv.AER_LIMIT : Nat := 0x105
abbrev nv.VECTOR : Nat := 0x108
abbrev nv.LOG_PAGE : Nat := 0x109
abbrev nv.FORMAT : Nat := 0x10A
abbrev nv.Q_DELETION : Nat := 0x10C
abbrev nv.NS_CAPACITY : Nat := 0x115
abbrev nv.NSID_TAKEN : Nat := 0x116
abbrev nv.NS_ATTACHED : Nat := 0x118
abbrev nv.NS_PRIVATE : Nat := 0x119
abbrev nv.NS_NOT_ATTACHED : Nat := 0x11A
abbrev nv.CTRL_LIST : Nat := 0x11C
abbrev nv.PI_INVALID : Nat := 0x181
abbrev nv.READ_ERROR : Nat := 0x281
abbrev nv.GUARD : Nat := 0x282
abbrev nv.APP_TAG : Nat := 0x283
abbrev nv.REF_TAG : Nat := 0x284
abbrev nv.COMPARE : Nat := 0x285
abbrev nv.MIRROR : Nat := 0x780
abbrev nv.SPLICE : Nat := 0x781

/-- The next slot of a ring. -/
def ringNext (i size : Nat) : Nat := if i + 1 = size then 0 else i + 1

/-- The message of a completion queue, unless coalescing holds it back (R383, R405). -/
def cqSignal (f qid : Nat) (s : State) : State :=
  let x := getCtrl s f
  match mget x.cqs qid with
  | none => s
  | some q =>
    if ¬ q.ien then s
    else if qid = 0 ∨ bitsOf x.coal 8 8 = 0 ∨ x.cd.contains q.vec then emitMsix f q.vec s
    else if bitsOf x.coal 0 8 < q.held + 1 then
      emitMsix f q.vec (putCtrl f { x with cqs := mput x.cqs qid { q with held := 0 } } s)
    else putCtrl f { x with cqs := mput x.cqs qid { q with
      held := q.held + 1, heldAt := if q.held = 0 then s.now else q.heldAt } } s

/-- Writes one completion entry; one that finds the queue full waits for a doorbell. -/
def putCqe (f qid : Nat) (dw : List Nat) (s : State) : State :=
  let x := getCtrl s f
  match mget x.cqs qid with
  | none => s
  | some q =>
    if ringNext q.tail q.size = q.head then putCtrl f { x with cqs := mput x.cqs qid { q with wait := q.wait ++ [dw] } } s
    else
      let d3 := dw.getD 2 0 + (if q.phase then 65536 else 0)
      let w := [dw.getD 0 0, 0, dw.getD 1 0, d3]
      let next := ringNext q.tail q.size
      let s := putCtrl f { x with cqs := mput x.cqs qid { q with tail := next, phase := if next = 0 then !q.phase else q.phase } } s
      cqSignal f qid (postEntry f 0 (q.base + 16 * q.tail) (w.flatMap (leBytes 4)) (.nvmeCqe f (dw.getD 1 0 / 65536) w) s)

/-- An Error Information entry for a command that failed; `rest`: its bytes from 14 on, which the spec does not state. -/
def addError (sq cid status : Nat) (rest : List Byte) (x : Ctrl) : Ctrl :=
  let n := x.errCount + 1
  let e := leBytes 8 n ++ leBytes 2 sq ++ leBytes 2 cid ++ leBytes 2 (2 * status) ++ rest
  { x with errors := (e :: x.errors).take 64, errCount := n }

/-- A failed command enters the Error Information log (R406). -/
def noteError (f sq cid status : Nat) (s : State) : State :=
  let (rest, s) := freeBytes 50 s
  putCtrl f (addError sq cid status rest (getCtrl s f)) s

/-- Posts the completion of a command of submission queue `sq` (R388, worked example). -/
def postNvme (f sq cid status dw0 : Nat) (s : State) : State :=
  let x := getCtrl s f
  match mget x.sqs sq with
  | none => s
  | some q =>
    let s := if status = 0 then s else noteError f sq cid status s
    let s := if sq = 0 then s else nvmeCount 0 s
    putCqe f q.cq [dw0, q.head + sq * 65536, cid + status * 2 ^ 17] s

/-- Identity of a command for tagging (R597). -/
def nvmeTag (f sq cid : Nat) : Nat := f * 2 ^ 64 + sq * 2 ^ 16 + cid

/-- A command in hand ends: its completion is posted unless it is discarded, and its programs are no longer counted. -/
def endNvme (f : Nat) (c : NCmd) (status dw0 : Nat) (s : State) : State :=
  let s := tagStage 3 (nvmeTag f c.sq c.cid) 4 true s
  let s := tagEnd 3 (nvmeTag f c.sq c.cid) (if status = 0 then 0 else 4) s
  let x := getCtrl s f
  let s := putCtrl f { x with cmds := x.cmds.filter fun d => d.num != c.num } s
  let s := { s with flash := { s.flash with begun := mdel s.flash.begun c.num } }
  if c.drop then s else postNvme f c.sq c.cid status dw0 s

/-- An asynchronous event of a controller: type, information, log page. It completes a waiting request, or waits for one
(R402, R404, R434). -/
def asyncEvent (f ty info page : Nat) (s : State) : State :=
  let x := getCtrl s f
  let v := ty + info * 256 + page * 65536
  match x.aers with
  | cid :: rest => postNvme f 0 cid 0 v (putCtrl f { x with aers := rest } s)
  | [] => if x.events.contains v then s else putCtrl f { x with events := x.events ++ [v] } s

/-- An event of every controller that is enabled. -/
def asyncAll (ty info page : Nat) (s : State) : State :=
  (s.nvme.ctrls.filter fun e => e.2.rdy).foldl (fun s e => asyncEvent e.1 ty info page s) s

/-- INTERRUPT_COALESCING_EXPIRY: the aggregation time, in 100 µs units, has passed (R405). -/
def execInterruptCoalescingExpiry (t func cq : Nat) (s : State) : Host.Outcome State Fault Refusal :=
  .next <|
    let s := atTime t s
    let x := getCtrl s func
    match mget x.cqs cq with
    | none => s
    | some q =>
      if q.held = 0 ∨ t < q.heldAt + bitsOf x.coal 8 8 * 100000 then s
      else emitMsix func q.vec (putCtrl func { x with cqs := mput x.cqs cq { q with held := 0 } } s)

end Sys2Proof.Machine
end

