-- ==== Sys2Proof/Machine/Flash.lean ====
section
/-! DEFINITION. The flash medium: dies, blocks, reads and their recovery, folding, loss and rebuild, wear, power-up recovery
(chapter 12). Which die and block an operation falls on is the translation layer's choice and an operand. -/

namespace Sys2Proof.Machine

def setFlash (s : State) (f : Flash → Flash) : State := { s with flash := f s.flash }

def dieCh (d : Nat) : Nat := d / 32
def diePos (d : Nat) : Nat := d % 32

def fchCount (ch i n : Nat) (s : State) : State := addReg s (pFCH ch) (R.FCH.COUNT + 4 * i) n

def ftlCount (i n : Nat) (s : State) : State := addReg s pFTL (R.FTL.COUNT + 4 * i) n

/-- DIE_STAT.STATE of a die: 0 absent, 1 in use, 2 refused, 3 lost, 4 unused. -/
def dieState (s : State) (d : Nat) : Nat := fld s (pFCH (dieCh d)) (R.FCH.DIE_STAT + 4 * diePos d) 28 4

def setDie (d state cause family : Nat) (s : State) : State :=
  let p := pFCH (dieCh d)
  let off := R.FCH.DIE_STAT + 4 * diePos d
  setFld (setFld (setFld s p off 28 4 state) p off 24 4 cause) p off 20 4 family

/-- Root dies: position 0 on F00 and on F16. -/
def rootDie (d : Nat) : Bool := d == 0 || d == 512

/-- The FTL serves reads (R432). -/
def ftlReady (s : State) : Bool :=
  let st := blkState s pFTL
  st == 1 || st == 0x81 || st == 0x82

/-- Background work and new erases are off in a quiesce and a shutdown (R431). -/
def backgroundOn (s : State) : Bool := ftlReady s && !quiescing s && s.power.phase == .running

/-- GiB of namespaces. -/
def gibUsed (s : State) : Nat := (s.nvme.nss.map fun e => e.2.gib).sum

/-- WARN of Medium Health (R433). -/
def warnBits (s : State) : Nat :=
  (if s.flash.init ∧ s.flash.sparePct < 10 then 1 else 0) + (if blkState s pFTL = 0x82 then 2 else 0) +
    (if s.flash.lossSeen then 4 else 0) + (if s.flash.rebuild ≠ [] then 8 else 0) + (if s.flash.unclean then 16 else 0)

/-- A change of WARN raises an asynchronous event of type SMART / Health Status (R434). -/
def updateWarn (s : State) : State :=
  let w := warnBits s
  if w = s.flash.warn then s
  else
    let spare := w % 2 ≠ s.flash.warn % 2
    asyncAll 1 (if spare then 2 else 0) 2 (setFlash s fun f => { f with warn := w })

/-- READ_ONLY is entered (R428, R435). -/
def enterReadOnly (s : State) : State :=
  if blkState s pFTL = 0x82 then s else penBit pFTL 6 (setBlkState s pFTL 0x82)

/-- Spares and capacity are looked at again: SPARE_LOW, READ_ONLY, WARN (R428, R435). `low` says that SPARE_PCT was below 10
before. -/
def checkSpares (low : Bool) (s : State) : State :=
  let pct := s.flash.sparePct
  let s := if s.flash.init ∧ pct < 10 ∧ ¬ low then penBit pFTL 5 s else s
  let s := if s.flash.init ∧ ftlReady s ∧ (pct = 0 ∨ s.flash.usable < gibUsed s) then enterReadOnly s else s
  updateWarn s

/-- Runs of consecutive keys: first key and length. -/
def keyRuns : List Nat → List (Nat × Nat)
  | [] => []
  | k :: l =>
    match keyRuns l with
    | (a, n) :: r => if k + 1 = a then (k, n + 1) :: r else (k, 1) :: (a, n) :: r
    | [] => [(k, 1)]

/-- Data of position `p` is lost: unstaged blocks folded there are unrecoverable, and each LBA range is logged (R425). -/
def losePosition (p : Nat) (s : State) : State :=
  let hit (b : LBlk) : Bool := b.staged.isNone && !b.dead && (match b.folded with | some (q, _, _) => q == p | none => false)
  let runs := keyRuns ((s.flash.map.filter fun e => hit e.2).map (·.1))
  let s := setFlash s fun f => { f with
    lossSeen := true, map := f.map.map fun e => if hit e.2 then (e.1, { e.2 with dead := true }) else e }
  let s := errInfo pFTL 1 p (penBit pFTL 1 s)
  runs.foldl (fun s r => logEvent 0x000D (some pFTL) [r.1 / 2 ^ 64, r.1 % 2 ^ 64, r.2] s) s

/-- A die in use is lost; `back`: it still stands at its position and may rejoin (R423, R425). -/
def loseDie (d : Nat) (back : Bool) (s : State) : State :=
  if dieState s d ≠ 1 then s
  else
    let low := decide (s.flash.sparePct < 10)
    let second := s.flash.rebuild.any fun r => diePos r == diePos d && r != d
    let staged2 (b : LBlk) : Bool := match b.staged with
      | some (x, y) => (x == d && dieState s y != 1) || (y == d && dieState s x != 1)
      | none => false
    let s := setDie d 3 0 (fld s (pFCH (dieCh d)) (R.FCH.DIE_STAT + 4 * diePos d) 20 4) s
    let s := errInfo (pFCH (dieCh d)) 1 (diePos d) (penBit (pFCH (dieCh d)) 4 s)
    let s := setFlash s fun f => { f with
      rebuild := (f.rebuild.filter (· != d)) ++ [d]
      dies := match mget f.dies d with
        | some x => mput f.dies d { x with lost := true, present := back && x.present }
        | none => f.dies
      map := f.map.map fun e => if staged2 e.2 ∧ e.2.folded.isNone then (e.1, { e.2 with dead := true }) else e }
    let s := penBit pFTL 3 s
    let s := if second then losePosition (diePos d) s else s
    let s := if blkState s pFTL = 1 then setBlkState s pFTL 0x81 else s
    checkSpares low s

/-- DIE_UNRESPONSIVE: a die answers no status poll for 10 ms (R423). -/
def execDieUnresponsive (t die : Nat) (s : State) : Host.Outcome State Fault Refusal :=
  .next (if die < 1024 ∧ ftlReady s then loseDie die false (atTime t s) else atTime t s)

/-- A fence of a channel loses its dies (R423). -/
def fenceChannel (ch : Nat) (s : State) : State := forN 32 s fun p s => loseDie (32 * ch + p) true s

/-- A block nothing has read or erased yet. -/
def FBlock.fresh : FBlock := { erases := 0, reads := 0, staging := false, retired := false, lastRetry := none }

def getBlock (s : State) (d b : Nat) : FBlock := (mget s.flash.blocks (d * 65536 + b)).getD .fresh

/-- A block is retired as grown bad, and replaced by a spare of its die; with no spare left, or 64 grown bad blocks in one
hour, the die is lost (R423, R427, R428). -/
def retireBlock (t d b : Nat) (s : State) : State :=
  let low := decide (s.flash.sparePct < 10)
  match mget s.flash.dies d with
  | none => s
  | some x =>
    let recent := (x.grownAt.filter fun u => decide (t < u + 3600 * 10 ^ 9)) ++ [t]
    let p := pFCH (dieCh d)
    let off := R.FCH.DIE_STAT + 4 * diePos d
    let s := setFld s p off 0 16 (min 0xFFFF (fld s p off 0 16 + 1))
    let k := d * 65536 + b
    let blk := getBlock s d b
    let s := setFlash s fun f => { f with
      dies := mput f.dies d { x with spare := x.spare - 1, grownAt := recent }
      blocks := mput f.blocks k { blk with retired := true }
      grown := f.grown.set (dieCh d) (min 0xFFFFFFFF (f.grown.getD (dieCh d) 0 + 1)) }
    let s := checkSpares low s
    if x.spare = 0 ∨ 64 ≤ recent.length then loseDie d false s else s

/-- PROGRAM_FAIL: the block is retired; what was in it is still held in LPDDR5X and programmed elsewhere (R427). -/
def execProgramFail (t die block : Nat) (s : State) : Host.Outcome State Fault Refusal :=
  .next <|
    let s := atTime t s
    if die < 1024 ∧ dieState s die = 1 ∧ ftlReady s then
      retireBlock t die block (errInfo (pFCH (dieCh die)) 3 (diePos die) (penBit (pFCH (dieCh die)) 1 (fchCount (dieCh die) 7 1 s)))
    else s

/-- ERASE_FAIL (R427). -/
def execEraseFail (t die block : Nat) (s : State) : Host.Outcome State Fault Refusal :=
  .next <|
    let s := atTime t s
    if die < 1024 ∧ dieState s die = 1 ∧ ftlReady s then
      retireBlock t die block (errInfo (pFCH (dieCh die)) 4 (diePos die) (penBit (pFCH (dieCh die)) 2 (fchCount (dieCh die) 8 1 s)))
    else s

def putBlock (d b : Nat) (x : FBlock) (s : State) : State :=
  setFlash s fun f => { f with blocks := mput f.blocks (d * 65536 + b) x }

/-- The free main-pool block of a die with the lowest erase count (R426): the first block nothing has used yet, else the
least erased of the used ones that no data lies in. -/
def freeBlock (d : Nat) (s : State) : Option Nat :=
  let fam := famBlocks s.flash.family
  let holds (b : Nat) : Bool := s.flash.map.any fun e => match e.2.folded with
    | some (p, k, _) => p == diePos d && k == b
    | none => false
  let first := if rootDie d then 1 else 0
  match (List.range fam).find? fun b => decide (first ≤ b) && (mget s.flash.blocks (d * 65536 + b)).isNone && !holds b with
  | some b => some b
  | none =>
    let free := s.flash.blocks.filter fun e =>
      e.1 / 65536 == d && !e.2.staging && !e.2.retired && decide (first ≤ e.1 % 65536) && !holds (e.1 % 65536)
    let low := (free.map fun e => e.2.erases).foldl min ((free.map fun e => e.2.erases).headD 0)
    (free.find? fun e => e.2.erases == low).map (·.1 % 65536)

/-- A block is erased: it goes back to its pool with one more erase. A staging block that reaches its rated cycles leaves
the staging pool, and the free main-pool block of lowest erase count takes its place (R426). -/
def eraseBlock (d b : Nat) (s : State) : State :=
  let x := getBlock s d b
  let x := { x with erases := x.erases + 1, reads := 0 }
  let s := fchCount (dieCh d) 2 1 (putBlock d b x s)
  if x.staging ∧ 30000 ≤ x.erases then
    let next := freeBlock d s
    let s := putBlock d b { x with staging := false } s
    match next with
    | some n => putBlock d n { getBlock s d n with staging := true } s
    | none => s
  else s

/-- A block is refreshed: its data is relocated, and it is erased, or retired when its data needed parity (R427, R429). -/
def refreshBlock (t d b : Nat) (rebuilt disturb : Bool) (s : State) : State :=
  let s := penBit pFTL 0 (ftlCount 1 1 s)
  let s := if disturb then ftlCount 2 1 s else s
  let s := setFlash s fun f => { f with
    reloc := [f.reloc.getD 0 0 + 1, f.reloc.getD 1 0 + (if disturb then 1 else 0)]
    medBytes := f.medBytes + famMib f.family * 2 ^ 20 }
  if rebuilt then retireBlock t d b s else eraseBlock d b s

/-- REFRESH_BITS, at most 120. -/
def refreshBits (s : State) : Nat := min 120 (fld s pFTL R.FTL.CTL 0 8)

/-- The retry entries of a die's record. -/
def dieRetries (s : State) (d : Nat) : Nat := match mget s.flash.dies d with | some x => x.retries | none => 0

/-- The order in which a read tries a table's `n` retry entries: the one that decoded the block last is first (R419). -/
def retryOrder (n : Nat) (last : Option Nat) : List Nat :=
  match last with
  | some e => if e < n then e :: (List.range n).erase e else List.range n
  | none => List.range n

/-- The retries of a read: up to the entry that decoded at step 2, all of them past it (R419). -/
def retryReads (n : Nat) (last : Option Nat) (step entry : Nat) : Nat :=
  if step ≤ 1 then 0 else if step = 2 then (retryOrder n last).idxOf entry + 1 else n

/-- A read may end at this step: 1 to 5, at step 2 with an entry of the die's retry table. -/
def stepOk (s : State) (d step entry : Nat) : Bool :=
  decide (1 ≤ step) && decide (step ≤ 5) && (step != 2 || decide (entry < dieRetries s d))

/-- A codeword read of a block: recovery counters, a refresh where one is due, and the read-disturb count (R419, R421, R427,
R429). `step` is the step that decoded, or 5, `entry` the retry entry that decoded at step 2; `found`: the whole-block read
at the disturb limit finds a block to refresh. `staged`: the block is one of the staging pool. -/
def mediumRead (t d b step entry bits : Nat) (staged found : Bool) (s : State) : State :=
  let ch := dieCh d
  let x := getBlock s d b
  let retries := retryReads (dieRetries s d) x.lastRetry step entry
  let one (p : Prop) [Decidable p] : Nat := if p then 1 else 0
  let s := perfEvent (pFCH ch) 0x100 0xFF 1 (fchCount ch 0 1 s)
  let s := fchCount ch 3 retries s
  let s := fchCount ch 4 (one (3 ≤ step)) s
  let s := fchCount ch 5 (one (step = 4)) s
  let s := fchCount ch 6 (one (5 ≤ step)) s
  let s := if 4 ≤ step then penBit (pFCH ch) 0 s else s
  let s := setFlash s fun f => { f with
    recovery := List.zipWith (· + ·) f.recovery [retries, one (3 ≤ step), one (step = 4), one (5 ≤ step)] }
  let n := x.reads + 1
  let s := putBlock d b { x with reads := n, staging := staged, lastRetry := if step = 2 then some entry else x.lastRetry } s
  if ¬ backgroundOn s then s
  else if refreshBits s < bits ∨ 3 ≤ step then refreshBlock t d b (step == 4 && !staged) false s
  else if famDisturb s.flash.family staged ≤ n then
    if found then refreshBlock t d b false true s else putBlock d b { getBlock s d b with reads := n / 2 } s
  else s

/-- MEDIUM_READ (R419 to R421). -/
def execMediumRead (t die block step entry bits : Nat) (staged found : Bool) (s : State) : Host.Outcome State Fault Refusal :=
  .next <|
    let s := atTime t s
    if die < 1024 ∧ ftlReady s ∧ stepOk s die step entry then mediumRead t die block step entry bits staged found s else s

/-- PATROL_READ: the patrol reads a block (R429). -/
def execPatrolRead (t die block step entry bits : Nat) (found : Bool) (s : State) : Host.Outcome State Fault Refusal :=
  .next <|
    let s := atTime t s
    if die < 1024 ∧ backgroundOn s ∧ stepOk s die step entry then
      mediumRead t die block step entry bits (getBlock s die block).staging found s
    else s

/-- Highest and lowest erase count of a pool; blocks never used count 0. -/
def eraseSpan (staging : Bool) (s : State) : Nat × Nat :=
  let l := (s.flash.blocks.filter fun e => e.2.staging == staging && !e.2.retired).map fun e => e.2.erases
  let all := s.flash.live.length * (if staging then s.flash.stage else famBlocks s.flash.family - s.flash.stage)
  (l.foldl max 0, if l.length < all then 0 else l.foldl min (l.getD 0 0))

/-- WL_MOVE: the data of the least worn block of a pool moves, and the block returns to the pool's free blocks (R426). -/
def execWlMove (t die block : Nat) (s : State) : Host.Outcome State Fault Refusal :=
  .next <|
    let s := atTime t s
    let (hi, lo) := eraseSpan (getBlock s die block).staging s
    if die < 1024 ∧ backgroundOn s ∧ fld s pFTL R.FTL.WL 0 16 < hi - lo ∧ (getBlock s die block).erases = lo then
      eraseBlock die block (setFlash (ftlCount 3 1 s) fun f => { f with medBytes := f.medBytes + famMib f.family * 2 ^ 20 })
    else s

/-- Dies of a position that were lost and stand there again rejoin when a block of the position is opened (R423). -/
def rejoin (pos : Nat) (s : State) : State :=
  forN 32 s fun ch s =>
    let d := 32 * ch + pos
    match mget s.flash.dies d with
    | some x =>
      if dieState s d = 3 ∧ x.present ∧ blkRunning s (pFCH ch) ∧ ¬ s.flash.rebuild.contains d then
        setDie d 1 0 s.flash.family (setFlash s fun f => { f with dies := mput f.dies d { x with lost := false } })
      else s
    | none => s

/-- A stripe row is programmed on the dies in use at a position: programs, FOLDS and bytes are counted. -/
def foldRow (pos : Nat) (s : State) : State :=
  let s := forN 32 (rejoin pos s) fun ch s =>
    if dieState s (32 * ch + pos) = 1 then perfEvent (pFCH ch) 0x101 0xFF 1 (fchCount ch 1 1 s) else s
  setFlash (ftlCount 0 1 s) fun f => { f with medBytes := f.medBytes + 32 * 16384 }

/-- FOLD: staged blocks, by NSID, LBA and write sequence, are in the stripe row at a position, and `place`, block and page; `step` is how
the read-back of the word line decoded, `final` that it, the next word line and the row's parity member have their last
program pass. A newer write keeps its own copy. The staged copies are released when all of this holds and the read-back
decodes at step 1 or 2; a FOLD at the place where a block already is only looks at that (R420, R422). -/
def execFold (t pos : Nat) (place : Nat × Nat) (step : Nat) (final : Bool) (items : List (Nat × Nat × Nat)) (s : State) : Host.Outcome State Fault Refusal :=
  .next <|
    let s := atTime t s
    if ¬ backgroundOn s ∨ 32 ≤ pos ∨ ¬ bitOf s.flash.inUse pos then s
    else
      let there : Bool := items.any fun e => match mget s.flash.map (e.1 * 2 ^ 64 + e.2.1) with
        | some b => b.seq == e.2.2 && b.folded == some (pos, place)
        | none => false
      let s := if there then s else foldRow pos s
      items.foldl (fun s e =>
        let k := e.1 * 2 ^ 64 + e.2.1
        match mget s.flash.map k with
        | none => s
        | some b =>
          if b.seq ≠ e.2.2 then s
          else setFlash s fun f => { f with
            map := mput f.map k { b with folded := some (pos, place), staged := if final ∧ step ≤ 2 then none else b.staged } }) s

/-- REBUILD_DONE: a lost die's data is rewritten into stripes without it, `rows` rows and staged pages; `full`: the rebuild
found no free space (R423, R428). -/
def execRebuildDone (t die rows : Nat) (full : Bool) (s : State) : Host.Outcome State Fault Refusal :=
  .next <|
    let s := atTime t s
    if ¬ s.flash.rebuild.contains die then s
    else if full then checkSpares false (enterReadOnly s)
    else
      let low := decide (s.flash.sparePct < 10)
      let s := penBit pFTL 4 (ftlCount 5 rows s)
      let s := setFlash s fun f => { f with
        rebuild := f.rebuild.filter (· != die)
        map := f.map.map fun e => (e.1, match e.2.staged with
          | some (x, y) => if x = die ∨ y = die then { e.2 with staged := none } else e.2
          | none => e.2) }
      let s := if s.flash.rebuild = [] ∧ blkState s pFTL = 0x81 then setBlkState s pFTL 1 else s
      checkSpares low s

/-! ### Power-up (R413 to R417, R432) -/

/-- The parameter page of a found die: its first copy with the signature "ONFI" and a valid CRC-16 (R415). -/
def paramPage (d : DieFound) : Option ParamPage := d.copies.find? fun p => p.signature == [0x4F, 0x4E, 0x46, 0x49] && p.crcOk

/-- A parameter page matches a qualification record (R415). -/
def qualifies (p : ParamPage) (q : QualRecord) : Bool :=
  p.maker == q.maker && p.model == q.model && p.pageBytes == q.pageBytes && p.spareBytes == q.spareBytes &&
    p.pagesPerBlock == q.pagesPerBlock && p.blocksPerLun == q.blocksPerLun && p.luns == q.luns && p.cellBits == q.cellBits && p.lpddr4

/-- The qualification record a found die matches. -/
def dieRecord (s : State) (d : DieFound) : Option QualRecord :=
  (paramPage d).bind fun p => s.mgmt.cfg.qual.find? (qualifies p)

/-- The family of a found die: 1 to 3, 0 without a record. -/
def dieFamily (s : State) (d : DieFound) : Nat := match dieRecord s d with | some q => q.family | none => 0

/-- What a found die is refused for: 0 accepted (R413, R415, R417). -/
def refusalOf (family : Nat) (d : DieFound) (s : State) : Nat :=
  if paramPage d = none then 1 else if dieFamily s d = 0 then 2 else if dieFamily s d ≠ family then 3
  else if ¬ d.trained then 4 else 0

/-- The family of the medium: as recorded, else that of the first qualified die (R417). -/
def mediumFamily (s : State) (l : List DieFound) : Nat :=
  if s.flash.init then s.flash.family
  else match (sortBy (·.die) l).find? fun d => dieFamily s d != 0 with
    | some d => dieFamily s d
    | none => 0

/-- Shows one found die, before positions are known. -/
def showDie (family : Nat) (d : DieFound) (s : State) : State :=
  let ch := dieCh d.die
  if 1024 ≤ d.die ∨ ¬ blkRunning s (pFCH ch) then s
  else
    let s := setFld s (pFCH ch) R.FCH.STAT (diePos d.die / 4) 1 1
    let s := setFld s (pFCH ch) R.FCH.STAT 16 16 (max 800 (min 3600 (fld s (pFCH ch) R.FCH.CFG 0 16)))
    let c := refusalOf family d s
    if c = 0 then setDie d.die 4 0 family s
    else errInfo (pFCH ch) 2 (diePos d.die) (penBit (pFCH ch) 3 (setDie d.die 2 c (dieFamily s d) s))

/-- The layout in LAYOUT: taken on a medium without namespaces, else kept (FTL.LAYOUT). -/
def takeLayout (s : State) : State :=
  let op := max 3 (min 50 (fld s pFTL R.FTL.LAYOUT 16 8))
  let stg := max 16 (min 512 (fld s pFTL R.FTL.LAYOUT 0 16))
  if s.nvme.nss = [] then setFlash s fun f => { f with opPct := op, stage := stg }
  else if op ≠ s.flash.opPct ∨ stg ≠ s.flash.stage then penBit pFTL 8 s
  else s

/-- The entries of a found die's retry table (R415). -/
def retryCount (s : State) (d : DieFound) : Nat := match dieRecord s d with | some q => q.retry.length | none => 0

/-- First initialisation: positions where a qualified die stands on all 32 channels (R414, R427). -/
def initMedium (family : Nat) (l : List DieFound) (s : State) : State :=
  let ok (p : Nat) : Bool := (List.range 32).all fun ch => dieState s (32 * ch + p) == 4
  let ps := (List.range 32).filter ok
  let used := l.filter fun d => ps.contains (diePos d.die)
  if ps = [] then s
  else setFlash s fun f => { f with
    init := true, family := family, inUse := (ps.map fun p => 2 ^ p).sum, factoryBad := (used.map (·.bad)).sum
    dies := used.foldl (fun m d =>
      let good := famBlocks family - d.bad
      let sp := good - min good (Config.dieShare family f.opPct f.stage)
      mput m d.die { good := good, spare0 := sp, spare := sp, grownAt := [], retries := retryCount s d, present := true, lost := false }) [] }

/-- Dies of the positions in use: one that was lost stays so until it rejoins; of the others present ones are in use, absent
and refused ones are lost (R414, R423). -/
def placeDies (found : List DieFound) (s : State) : State :=
  s.flash.dies.foldl (fun s e =>
    let d := e.1
    let here := dieState s d == 4
    let s := setFlash s fun f => { f with dies := mput f.dies d { e.2 with
      present := here
      retries := match found.find? fun x => x.die == d with | some x => retryCount s x | none => e.2.retries } }
    if e.2.lost then setDie d 3 0 s.flash.family s
    else if here then setDie d 1 0 s.flash.family s
    else loseDie d false (setDie d 1 0 s.flash.family s)) s

/-- Which power-loss record the recovery takes: some sequence, none; and whether the two diverge (R432). -/
def pickRoot (a b : Option Nat) (differ : Bool) : Option Nat × Bool :=
  match a, b with
  | some x, some y => if x = y then (if differ then (none, true) else (some x, false)) else (some (max x y), false)
  | some x, none => (some x, false)
  | none, y => (y, false)

/-- A divergence is logged (R432). -/
def ftlDiverged (s : State) : State := errInfo pFTL 2 0 (penBit pFTL 7 (logEvent 0x0004 (some pFTL) [0, 0] s))

/-- FTL_RECOVERY: the dies found at power-up, which of the two root records read back valid and whether their content
differs, the staged and folded copies found with one sequence and different data, and the time taken (R413 to R417, R432). -/
def execFtlRecovery (t : Nat) (dies : List DieFound) (valid0 valid1 differ : Bool) (clashes ms : Nat) (s : State) :
    Host.Outcome State Fault Refusal :=
  .next <|
    let s := atTime t s
    if blkState s pFTL ≠ 0x80 then s
    else
      let fam := mediumFamily s dies
      let s := dies.foldl (fun s d => showDie fam d s) (takeLayout s)
      let first := !s.flash.init
      let s := if first then initMedium fam dies s else s
      let s := placeDies dies s
      let r0 := if valid0 then s.flash.roots.getD 0 none else none
      let r1 := if valid1 then s.flash.roots.getD 1 none else none
      let (root, div) := pickRoot r0 r1 differ
      let s := if div then ftlDiverged s else s
      let clean := root.isSome || first
      let s := if clean then s else penBit pFTL 2 s
      let s := forN clashes s fun _ s => if clean then s else ftlDiverged s
      let s := setFlash s fun f => { f with
        roots := [none, none], unclean := !clean, lastMs := ms
        powerUps := if clean then [f.powerUps.getD 0 0 + 1, f.powerUps.getD 1 0] else [f.powerUps.getD 0 0, f.powerUps.getD 1 0 + 1] }
      let s := setBlkState s pFTL (if s.flash.rebuild = [] then 1 else 0x81)
      checkSpares false s

end Sys2Proof.Machine
end

