-- ==== Sys2Proof/Machine/Nvme.lean ====
section
/-! DEFINITION. NVMe: doorbells, arbitration, shares, and the I/O commands (chapter 11, R382 to R399). Layouts of submission
entries and of protection information follow the NVMe specifications the chapter names (PRESUMED). -/

namespace Sys2Proof.Machine

def NCmd.op (c : NCmd) : Nat := bitsOf (c.dw.getD 0 0) 0 8
def NCmd.d (c : NCmd) (i : Nat) : Nat := c.dw.getD i 0
def NCmd.nsid (c : NCmd) : Nat := c.d 1

/-- First LBA and number of blocks of an I/O command. -/
def NCmd.lba (c : NCmd) : Nat := c.d 10 + 2 ^ 32 * c.d 11
def NCmd.blocks (c : NCmd) : Nat := bitsOf (c.d 12) 0 16 + 1

/-- I/O queue pairs of a function (R382). -/
def ioQueues (f : Nat) : Nat := if f < 4 then 128 else 16

/-- No command of the function's controller may begin: its DMA is silenced, or the function is frozen (R398, R376). -/
def nvmeHeld (s : State) (f : Nat) : Bool := silent s f || blkState s (pFUNC f) == 0x81

/-- R397: a failed fetch. -/
def nvmeFetchFail (f : Nat) (s : State) : State := errInfo pNVME 2 f (penBit pNVME 1 (nvmeCount 4 s))

/-! ### Doorbells -/

/-- Completions that waited for room are written while there is some. -/
def drainCq (f qid : Nat) (s : State) : State :=
  let x := getCtrl s f
  match mget x.cqs qid with
  | none => s
  | some q =>
    q.wait.foldl (fun s dw => putCqe f qid dw s) (putCtrl f { x with cqs := mput x.cqs qid { q with wait := [] } } s)

/-- NVME_DOORBELL: a tail or head is taken; a doorbell of a queue that does not exist, or an index past its end, raises the
asynchronous event NVMe gives for it. -/
def execNvmeDoorbell (func queue : Nat) (cq : Bool) (value : Nat) (s : State) : Host.Outcome State Fault Refusal :=
  .next <|
    let x := getCtrl s func
    let v := value % 65536
    if ¬ x.rdy then s
    else if cq then
      match mget x.cqs queue with
      | none => asyncEvent func 0 0 1 s
      | some q =>
        if q.size ≤ v then asyncEvent func 0 1 1 s
        else drainCq func queue (putCtrl func { x with cqs := mput x.cqs queue { q with head := v } } s)
    else
      match mget x.sqs queue with
      | none => asyncEvent func 0 0 1 s
      | some q =>
        if q.size ≤ v then asyncEvent func 0 1 1 s
        else putCtrl func { x with sqs := mput x.sqs queue { q with tail := v } } s

/-! ### Arbitration within a function (R385) -/

/-- Weighted round robin is selected. -/
def wrrOn (x : Ctrl) : Bool := bitsOf x.cc 11 3 == 1

/-- The class of an I/O queue: 0 urgent, 1 high, 2 medium, 3 low; with round robin every queue is of one class. -/
def sqClass (x : Ctrl) (q : NSq) : Nat := if wrrOn x then q.prio else 0

/-- Queues of a class with entries to fetch. -/
def readySqs (x : Ctrl) (cls : Nat) : List Nat :=
  (x.sqs.filter fun e => e.1 != 0 && e.2.head != e.2.tail && sqClass x e.2 == cls).map (·.1)

/-- Round robin: the first ready queue after the last one served. -/
def nextOf (l : List Nat) (last : Nat) : Option Nat :=
  match l.find? fun q => decide (last < q) with
  | some q => some q
  | none => l.head?

/-- Commands a burst may take: 2^AB, at most 64. -/
def burstOf (x : Ctrl) : Nat := min 64 (2 ^ bitsOf x.arb 0 3)

/-- Weights of the high, medium and low classes: the feature's fields plus one. -/
def classWeight (x : Ctrl) (cls : Nat) : Nat :=
  (if cls = 1 then bitsOf x.arb 24 8 else if cls = 2 then bitsOf x.arb 16 8 else bitsOf x.arb 8 8) + 1

/-- The weighted class served next, with the credits as they then stand. -/
def pickClass (x : Ctrl) : Option (Nat × List Nat) :=
  let ready := [1, 2, 3].filter fun c => readySqs x c != []
  match ready.find? fun c => decide (0 < x.credit.getD (c - 1) 0) with
  | some c => some (c, x.credit)
  | none => ready.head?.map fun c => (c, [classWeight x 1, classWeight x 2, classWeight x 3])

/-- The queue the controller fetches from next, and the controller once it has. -/
def arbPick (x : Ctrl) : Option (Nat × Ctrl) :=
  let take (cls q : Nat) (x : Ctrl) : Nat × Ctrl :=
    let left := if x.burst.1 = q ∧ x.burst.2 ≠ 0 then x.burst.2 - 1 else burstOf x - 1
    (q, { x with turn := x.turn.set cls q, burst := (q, left) })
  let inClass (cls : Nat) : Option Nat :=
    let l := readySqs x cls
    if x.burst.2 ≠ 0 ∧ l.contains x.burst.1 then some x.burst.1 else nextOf l (x.turn.getD cls 0)
  match mget x.sqs 0 with
  | none => none
  | some a =>
    if a.head ≠ a.tail then some (0, x)
    else match inClass 0 with
      | some q => some (take 0 q x)
      | none => match pickClass x with
        | none => none
        | some (c, credit) => match inClass c with
          | none => none
          | some q => some (take c q { x with credit := credit.set (c - 1) (credit.getD (c - 1) 0 - 1) })

/-! ### Fetching (R385, R397) -/

/-- Admin opcodes the controller knows, and those PF0's alone accepts (R404). -/
def adminOps : List Nat := [0x00, 0x01, 0x02, 0x04, 0x05, 0x06, 0x08, 0x09, 0x0A, 0x0C, 0x0D, 0x10, 0x11, 0x15, 0x80, 0x84]
def pf0Ops : List Nat := [0x0D, 0x10, 0x11, 0x15, 0x80, 0x84]
def ioOps : List Nat := [0x00, 0x01, 0x02, 0x05, 0x08, 0x09, 0x0C]

/-- The status with which a command ends as it is fetched. -/
def fetchStatus (f sq : Nat) (x : Ctrl) (c : NCmd) : Nat :=
  let known := if sq = 0 then adminOps.contains c.op && (f == 0 || !(pf0Ops.contains c.op)) else ioOps.contains c.op
  let waiting (op : Nat) : Nat := (x.cmds.filter fun d => d.sq == 0 && d.op == op).length
  if ¬ known then nv.OPCODE
  else if bitsOf (c.d 0) 8 2 ≠ 0 ∨ bitsOf (c.d 0) 14 2 = 3 then nv.FIELD
  else if x.cmds.any (fun d => d.sq == sq && d.cid == c.cid) then nv.CID
  else if sq = 0 ∧ x.aers.contains c.cid then nv.CID
  else if sq = 0 ∧ c.op = 8 ∧ 4 ≤ waiting 8 then nv.ABORT_LIMIT
  else if sq = 0 ∧ c.op = 0x0C ∧ 4 ≤ waiting 0x0C + x.aers.length then nv.AER_LIMIT
  else nv.OK

/-- NVME_COMMAND_FETCH: the entry at the head of the queue arbitration picks; none when it could not be read. A function that
becomes backlogged starts with a deficit of 0 (R386). -/
def execNvmeCommandFetch (t func queue : Nat) (sqe : Option (List Nat)) (s : State) : Host.Outcome State Fault Refusal :=
  .next <|
    let s := atTime t s
    let x := getCtrl s func
    if ¬ x.rdy ∨ x.cfs ∨ nvmeHeld s func ∨ (getFn s func).freezing ∨ ¬ blkRunning s pNVME ∨ quiescing s then s
    else match arbPick x with
      | none => s
      | some (q, x) =>
        if q ≠ queue then s
        else match sqe, mget x.sqs queue with
          | none, _ => nvmeFetchFail func (putCtrl func { x with cfs := true } s)
          | _, none => s
          | some dw, some sq =>
            let dw := dw.map (· % 2 ^ 32)
            let cid := bitsOf (dw.getD 0 0) 16 16
            let c : NCmd := {
              sq := queue, cid := cid, dw := dw, num := s.nvme.num, begun := false, drop := false, data := [], pi := [], kind := 0
              ranges := [], place := none, programmed := false, record := none }
            let st := fetchStatus func queue x c
            let x := { x with sqs := mput x.sqs queue { sq with head := ringNext sq.head sq.size } }
            let s := setNvme s fun n => { n with num := n.num + 1 }
            if st ≠ 0 then postNvme func queue cid st 0 (putCtrl func x s)
            else
              let idle := !(x.cmds.any fun d => !d.begun)
              let x := { x with cmds := x.cmds ++ [c], deficit := if idle then 0 else x.deficit }
              tagCandidate 3 func (nvmeTag func queue cid) (putCtrl func x s)

/-! ### Shares across functions (R386) -/

/-- Cost units of a command. -/
def nvmeCost (s : State) (c : NCmd) : Nat :=
  if c.sq ≠ 0 ∧ (c.op = 1 ∨ c.op = 2 ∨ c.op = 5) then
    match getNs s c.nsid with
    | some n => 1 + ceilDiv (c.blocks * lbaBytes n.lbaf) 4096
    | none => 1
  else 1

def shareWeight (s : State) (f : Nat) : Nat := bitsOf (tabGet s 3 f 0 1) 0 8
def shareLimit (s : State) (f : Nat) : Nat := bitsOf (tabGet s 3 f 0 1) 16 16 * 64

/-- LIMIT keeps a function from beginning a command of a cost in this tick. -/
def limited (s : State) (f cost : Nat) : Bool :=
  shareLimit s f != 0 && decide (shareLimit s f < (getCtrl s f).used + cost)

/-- The first waiting command of a function that may begin, by its cost. -/
def headCost (s : State) (f : Nat) (x : Ctrl) : Option Nat :=
  if nvmeHeld s f then none
  else match (x.cmds.filter fun c => !c.begun).head? with
    | none => none
    | some c => if limited s f (nvmeCost s c) then none else some (nvmeCost s c)

/-- Rounds of deficit round robin until a function can pay. -/
def roundsFor (s : State) (f cost : Nat) (x : Ctrl) : Nat := ceilDiv (cost - x.deficit) (16 * shareWeight s f)

/-- Weighted functions with a command ready: function and the rounds its head needs. -/
def rivals (s : State) : List (Nat × Nat) :=
  s.nvme.ctrls.filterMap fun e =>
    if shareWeight s e.1 = 0 then none else (headCost s e.1 e.2).map fun c => (e.1, roundsFor s e.1 c e.2)

/-- Deficit round robin lets a command of function `f` and this cost begin: none, or the rounds that pass before it. -/
def shareTurn (s : State) (f cost : Nat) : Option Nat :=
  let r := rivals s
  if shareWeight s f = 0 then (if r = [] then some 0 else none)
  else
    let need := roundsFor s f cost (getCtrl s f)
    if r.all (fun e => e.1 == f || decide (need ≤ e.2)) then some need else none

/-- The rounds pass and the command is charged; a function left with nothing waiting keeps no credit. -/
def chargeShare (f cost rounds : Nat) (s : State) : State :=
  let backlog := (rivals s).map (·.1)
  let pay (e : Nat × Ctrl) : Nat × Ctrl :=
    if backlog.contains e.1 then (e.1, { e.2 with deficit := e.2.deficit + rounds * 16 * shareWeight s e.1 }) else e
  let s := setNvme s fun n => { n with ctrls := n.ctrls.map pay }
  let x := getCtrl s f
  let more := x.cmds.any fun c => !c.begun
  putCtrl f { x with
    deficit := if more then x.deficit - cost else 0, used := x.used + cost, total := (x.total + cost) % 2 ^ 64 } s

def findNCmd (s : State) (f sq cid : Nat) : Option NCmd := (getCtrl s f).cmds.find? fun c => c.sq == sq && c.cid == cid

def putNCmd (f : Nat) (c : NCmd) (s : State) : State :=
  let x := getCtrl s f
  putCtrl f { x with cmds := x.cmds.map fun d => if d.num = c.num then c else d } s

/-- Begins the waiting command `cid` of queue `sq` when its opcode is one of `ops` and its turn has come, and hands it to
`body` (R386, R388). -/
def runNvme (t f sq cid : Nat) (admin : Bool) (ok : NCmd → Bool) (body : NCmd → State → State) (s : State) : State :=
  let s := atTime t s
  match findNCmd s f sq cid with
  | none => s
  | some c =>
    if c.begun ∨ (sq == 0) ≠ admin ∨ ok c = false ∨ nvmeHeld s f ∨ deckPaused s ∨ ¬ blkRunning s pNVME then s
    else
      let cost := nvmeCost s c
      if limited s f cost then putCtrl f { getCtrl s f with heldNow := true } s
      else match shareTurn s f cost with
        | none => s
        | some r =>
          let c := { c with begun := true }
          let s := chargeShare f cost r (putNCmd f c s)
          let s := perfEvent pNVME 0x101 0xFF cost (perfEvent pNVME 0x100 0xFF 1 s)
          body c (tagStage 3 (nvmeTag f sq cid) 0 false s)

/-- At the tick edge: what each function began in the tick that ends is forgotten, and ticks in which LIMIT held a command
are counted. -/
def edgeShares (s : State) : State :=
  let turn (e : Nat × Ctrl) : Nat × Ctrl :=
    (e.1, { e.2 with used := 0, heldNow := false, heldTicks := min 0xFFFFFFFF (e.2.heldTicks + (if e.2.heldNow then 1 else 0)) })
  setNvme s fun n => { n with ctrls := n.ctrls.map turn }

/-- At tick q + 1 of a quiesce, commands fetched and not begun complete with Namespace Not Ready (R392). -/
def notReadyAll (s : State) : State :=
  s.nvme.ctrls.foldl (fun s e => (e.2.cmds.filter fun c => !c.begun).foldl (fun s c => endNvme e.1 c nv.NOT_READY 0 s) s) s

/-! ### Namespaces -/

/-- A mirrored namespace becomes degraded, or returns to sync (R402). -/
def mirrorState (nsid v : Nat) (s : State) : State :=
  match getNs s nsid with
  | none => s
  | some n =>
    if n.mirror = v then s
    else
      let s := putNs nsid { n with mirror := v, degBytes := if v = 0 then 0 else n.degBytes, leftBytes := if v = 0 then 0 else n.leftBytes } s
      if v = 2 then s else asyncAll 7 0 0xC1 (penBit pNVME 2 s)

/-- The pair is synchronised (R401). -/
def pairSynced (s : State) : Bool := pairMode s == 0x83

/-- Status of an I/O command against its namespace and the medium, before anything else of it is looked at. -/
def ioStatus (s : State) (f : Nat) (c : NCmd) : Nat :=
  match getNs s c.nsid with
  | none => nv.NS_FORMAT
  | some n =>
    if n.state = 3 ∧ n.ctrl = some f then nv.FORMATTING
    else if n.state = 4 ∧ n.ctrl = some f then nv.SANITIZING
    else if n.state ≠ 2 ∨ n.ctrl ≠ some f then nv.NS_FORMAT
    else if ¬ ftlReady s then nv.NOT_READY
    else nv.OK

/-- Status of a range of blocks, with the transfer limit of R382. -/
def rangeStatus (n : Ns) (c : NCmd) (moves : Bool) : Nat :=
  if n.size < c.lba + c.blocks then nv.LBA_RANGE
  else if moves ∧ 2 ^ 21 < c.blocks * lbaBytes n.lbaf then nv.FIELD
  else nv.OK

/-- Status of a change of the medium: read-only, and the mirror policy (R401, R428). -/
def changeStatus (s : State) (n : Ns) : Nat :=
  if blkState s pFTL = 0x82 then nv.PROTECTED
  else if n.kind = 1 ∧ n.policy = 1 ∧ (¬ pairSynced s ∨ n.mirror ≠ 0) then nv.MIRROR
  else nv.OK

/-- The first status that is not success. -/
def firstBad : List Nat → Nat
  | [] => 0
  | a :: l => if a ≠ 0 then a else firstBad l

/-! ### Protection information (R393 to R395) -/

/-- CRC-64 of the 64b Guard. -/
def crc64 (l : List Byte) : Nat :=
  (l.foldl (fun c b => crcByteSteps 0x9A6C9329AC4BC9B5 8 (c ^^^ b.toNat)) (2 ^ 64 - 1)) ^^^ (2 ^ 64 - 1)

/-- The namespace holds protection information. -/
def hasPi (n : Ns) : Bool := n.dps % 8 != 0
def piType (n : Ns) : Nat := n.dps % 8

/-- The 16 bytes of protection information of a block: guard, application tag, reference tag. -/
def piOf (data : List Byte) (app ref : Nat) : List Byte := beBytes 8 (crc64 data) ++ beBytes 2 app ++ beBytes 6 ref

def NCmd.pract (c : NCmd) : Bool := bitOf (c.d 12) 29

/-- PRCHK: bit 2 guard, bit 1 application tag, bit 0 reference tag. -/
def NCmd.prchk (c : NCmd) (b : Nat) : Bool := bitOf (c.d 12) (26 + b)

/-- The reference tag of the first block that the command gives. -/
def NCmd.refTag (c : NCmd) : Nat := bitsOf (c.d 3) 0 16 * 2 ^ 32 + c.d 14
def NCmd.appTag (c : NCmd) : Nat := bitsOf (c.d 15) 0 16
def NCmd.appMask (c : NCmd) : Nat := bitsOf (c.d 15) 16 16

/-- Reference tag expected in block `i`: types 1 and 2 count up. -/
def refAt (n : Ns) (c : NCmd) (i : Nat) : Nat := (c.refTag + (if piType n = 3 then 0 else i)) % 2 ^ 48

/-- The tag checks of one block: none for an application tag of all ones. -/
def tagStatus (n : Ns) (c : NCmd) (i : Nat) (pi : List Byte) : Nat :=
  let app := beAt pi 8 2
  let ref := beAt pi 10 6
  if app = 0xFFFF ∧ (piType n ≠ 3 ∨ ref = 2 ^ 48 - 1) then 0
  else if c.prchk 1 ∧ app &&& c.appMask ≠ c.appTag &&& c.appMask then nv.APP_TAG
  else if c.prchk 0 ∧ piType n ≠ 3 ∧ ref ≠ refAt n c i then nv.REF_TAG
  else 0

/-- A type 1 namespace checks reference tags only from the command's own LBA on; a type 3 namespace has none to check. -/
def piFieldStatus (n : Ns) (c : NCmd) : Nat :=
  if hasPi n ∧ c.prchk 0 ∧ ((piType n = 1 ∧ c.refTag ≠ c.lba % 2 ^ 48) ∨ piType n = 3) then nv.PI_INVALID else 0

/-- Data and protection information as the host gave them: interleaved when metadata is extended (R393). With PRACT the
device makes the information itself (R394). -/
def splitBlocks (n : Ns) (c : NCmd) (data mdata : List Byte) : List Byte × List Byte :=
  let bs := lbaBytes n.lbaf
  let k := c.blocks
  if ¬ hasPi n ∧ n.lbaf % 2 = 0 then (data, [])
  else if hasPi n ∧ c.pract then
    (data, (List.range k).flatMap fun i => piOf ((data.drop (i * bs)).take bs) c.appTag (refAt n c i))
  else if n.ext then
    ((List.range k).flatMap (fun i => (data.drop (i * (bs + 16))).take bs),
     (List.range k).flatMap (fun i => (data.drop (i * (bs + 16) + bs)).take 16))
  else (data, mdata)

/-- Bytes the data pointer and the metadata pointer move for a command. -/
def wireBytes (n : Ns) (c : NCmd) : Nat × Nat :=
  let bs := lbaBytes n.lbaf
  if n.lbaf % 2 = 0 ∨ (hasPi n ∧ c.pract) then (c.blocks * bs, 0)
  else if n.ext then (c.blocks * (bs + 16), 0)
  else (c.blocks * bs, c.blocks * 16)

/-- Checks of the information a write brings (R394), block by block. -/
def writePiStatus (n : Ns) (c : NCmd) (data pi : List Byte) : Nat :=
  if ¬ hasPi n ∨ c.pract then 0
  else
    let bs := lbaBytes n.lbaf
    firstBad ((List.range c.blocks).map fun i =>
      let p := (pi.drop (i * 16)).take 16
      if c.prchk 2 ∧ beAt p 0 8 ≠ crc64 ((data.drop (i * bs)).take bs) then nv.GUARD else tagStatus n c i p)

/-- A guard mismatch (R394, R395). -/
def guardError (nsid : Nat) (s : State) : State := errInfo pNVME 1 (nsid - 1) (penBit pNVME 0 (nvmeCount 3 s))

/-- Ends a command whose status is known; a guard mismatch is also reported. -/
def endIo (f : Nat) (c : NCmd) (status : Nat) (s : State) : State :=
  endNvme f c status 0 (if status = nv.GUARD then guardError c.nsid s else s)

/-! ### Writes (R390 to R392, R401, R422, R430) -/

/-- Programs begun and unfinished, as die numbers: those of commands whose programming has not ended. -/
def begunDies (s : State) : List Nat :=
  let done (n : Nat) : Bool := s.nvme.ctrls.any fun e => e.2.cmds.any fun c => c.num == n && c.programmed
  (s.flash.begun.filter fun e => !done e.1).flatMap fun e => e.2.flatMap fun p => [p.1, p.2]

/-- A pair of dies a staged page may lie on: in use, on different channels and different flash harness connectors. -/
def pairOk (s : State) (p : Nat × Nat) : Bool :=
  decide (p.1 < 1024) && decide (p.2 < 1024) && dieState s p.1 == 1 && dieState s p.2 == 1 && (decide (dieCh p.1 < 16) != decide (dieCh p.2 < 16))

/-- R430: what may be begun and unfinished on a die, a root die and a channel. -/
def budgetOk (l : List Nat) : Bool :=
  let dieOk (d : Nat) : Bool := decide ((l.filter (· == d)).length ≤ if rootDie d then 4 else 16)
  let chOk (d : Nat) : Bool := decide ((l.filter fun e => dieCh e == dieCh d).length ≤ 128)
  l.all fun d => dieOk d && chOk d

/-- Staging is full: fewer than 2 % of its pages are free (R422). -/
def stagingFull (s : State) : Bool := decide (s.flash.stageFree < 2)

/-- Counts the programs of a write on their channels. -/
def countPrograms (progs : List (Nat × Nat)) (s : State) : State :=
  (progs.flatMap fun p => [dieCh p.1, dieCh p.2]).foldl (fun s ch => perfEvent (pFCH ch) 0x101 0xFF 1 (fchCount ch 1 1 s)) s

/-- The programming of a command's data may begin with these programs, or at this place when staging is full. -/
def mayProgram (s : State) (bytes : Nat) (progs : List (Nat × Nat)) (place : Option (Nat × Nat × Nat)) : Bool :=
  if bytes = 0 then progs == [] && place == none
  else if stagingFull s then progs == [] && (match place with | some (p, _, _) => bitOf s.flash.inUse p | none => false)
  else place == none && progs.length == ceilDiv bytes 65536 && progs.all (pairOk s) &&
    budgetOk (begunDies s ++ progs.flatMap fun p => [p.1, p.2])

/-- Programming begins. -/
def beginProgram (f : Nat) (c : NCmd) (progs : List (Nat × Nat)) (s : State) : State :=
  let s := setFlash (putNCmd f c s) fun x => { x with begun := mput x.begun c.num progs }
  let s := if c.place.isSome then ftlCount 4 1 s else s
  tagStage 3 (nvmeTag f c.sq c.cid) 2 false (countPrograms progs s)

/-- NVME_WRITE: `data` and `mdata` are the bytes the data and metadata pointers led to; `fail`: a fetch of them failed. -/
def execNvmeWrite (t func sq cid : Nat) (data mdata : List Byte) (fail : Bool) (progs : List (Nat × Nat))
    (place : Option (Nat × Nat × Nat)) (s : State) : Host.Outcome State Fault Refusal :=
  .next <|
    let fits (c : NCmd) : Bool := c.op == 1 && (match getNs s c.nsid with
      | some n => fail || ((data.length, mdata.length) == wireBytes n c && mayProgram s (c.blocks * lbaBytes n.lbaf) progs place)
      | none => true)
    runNvme t func sq cid false fits (fun c s =>
      match getNs s c.nsid with
      | none => endIo func c nv.NS_FORMAT s
      | some n =>
        let bad := firstBad [ioStatus s func c, rangeStatus n c true, piFieldStatus n c, changeStatus s n]
        if bad ≠ 0 then endIo func c bad s
        else if fail then endIo func c nv.TRANSFER (nvmeFetchFail func s)
        else
          let (d, pi) := splitBlocks n c data mdata
          let s := tagStage 3 (nvmeTag func sq cid) 1 false s
          let bad := writePiStatus n c d pi
          if bad ≠ 0 then endIo func c bad s
          else beginProgram func { c with data := d, pi := pi, kind := 0, ranges := [(c.lba, c.blocks)], place := place } progs s) s

/-- WRITE_ZEROES. -/
def execWriteZeroes (t func sq cid : Nat) (progs : List (Nat × Nat)) (place : Option (Nat × Nat × Nat)) (s : State) :
    Host.Outcome State Fault Refusal :=
  .next <|
    let bytes (c : NCmd) (n : Ns) : Nat := if bitOf (c.d 12) 25 then 0 else c.blocks * lbaBytes n.lbaf
    let fits (c : NCmd) : Bool := c.op == 8 && (match getNs s c.nsid with
      | some n => mayProgram s (bytes c n) progs place
      | none => true)
    runNvme t func sq cid false fits (fun c s =>
      match getNs s c.nsid with
      | none => endIo func c nv.NS_FORMAT s
      | some n =>
        let bad := firstBad [ioStatus s func c, rangeStatus n c false, piFieldStatus n c, changeStatus s n]
        if bad ≠ 0 then endIo func c bad s
        else
          let bs := lbaBytes n.lbaf
          let zero : List Byte := List.replicate bs 0
          let pi := if n.lbaf % 2 = 0 then []
            else if ¬ hasPi n then List.replicate (16 * c.blocks) 0
            else (List.range c.blocks).flatMap fun i =>
              if c.pract then piOf zero c.appTag (refAt n c i) else piOf zero 0xFFFF (2 ^ 48 - 1)
          let kind := if bitOf (c.d 12) 25 then 2 else 1
          beginProgram func { c with pi := pi, kind := kind, ranges := [(c.lba, c.blocks)], place := place } progs s) s

/-- DATASET_MANAGEMENT: `ranges` as read from the host, LBA and blocks; only deallocation does anything. -/
def execDatasetManagement (t func sq cid : Nat) (ranges : List (Nat × Nat)) (fail : Bool) (s : State) :
    Host.Outcome State Fault Refusal :=
  .next <|
    runNvme t func sq cid false (fun c => c.op == 9 && (fail || ranges.length == bitsOf (c.d 10) 0 8 + 1)) (fun c s =>
      match getNs s c.nsid with
      | none => endIo func c nv.NS_FORMAT s
      | some n =>
        let far := ranges.any fun r => decide (n.size < r.1 + r.2)
        let dealloc := bitOf (c.d 11) 2
        let bad := firstBad [ioStatus s func c, if fail then nv.TRANSFER else if far then nv.LBA_RANGE else 0, if dealloc then changeStatus s n else 0]
        if bad ≠ 0 then endIo func c bad (if bad = nv.TRANSFER then nvmeFetchFail func s else s)
        else if ¬ dealloc then endIo func c 0 s
        else beginProgram func { c with kind := 2, ranges := ranges } [] s) s

/-- Bytes an NS_WRITE entry of a mirror record takes (R478). -/
def mirrorBytes (s : State) (c : NCmd) : Nat :=
  match getNs s c.nsid with
  | some n => if c.kind = 0 then 24 + c.data.length + c.pi.length else 24 * c.ranges.length + 0 * n.size
  | none => 24

/-- The largest mirror record, bytes (R480). -/
def recordMax (s : State) : Nat := max 1 (min 256 (fld s pPAIR R.PAIR.CFG 0 9)) * 2 ^ 20

/-- Mirrored writes in hand, with their functions. -/
def mirrorCmds (s : State) : List (Nat × NCmd) :=
  s.nvme.ctrls.flatMap fun e => (e.2.cmds.filter fun c => c.programmed).map fun c => (e.1, c)

/-- Bytes of the writes in mirror record `n`. -/
def recordUsed (s : State) (n : Nat) : Nat :=
  (((mirrorCmds s).filter fun e => e.2.record == some n).map fun e => mirrorBytes s e.2).sum

/-- A programmed mirrored write goes into the record of the running tick, or waits for the next one (R476, R480). -/
def joinRecord (f : Nat) (c : NCmd) (s : State) : State :=
  let n := s.tick.count
  if recordUsed s n + mirrorBytes s c ≤ recordMax s ∨ recordUsed s n = 0 then putNCmd f { c with programmed := true, record := some n } s
  else penBit pPAIR 7 (putNCmd f { c with programmed := true, record := none } s)

/-- A write takes effect and completes. -/
def landNvme (f : Nat) (c : NCmd) (degraded : Bool) (s : State) : State :=
  let s := setFlash s fun x => landIn s.nvme c x
  let s := if degraded then
      (match getNs s c.nsid with
       | some n => nvmeCount 5 (putNs c.nsid { n with degBytes := n.degBytes + c.data.length, leftBytes := n.leftBytes + c.data.length } s)
       | none => s)
    else s
  endIo f c 0 (tagStage 3 (nvmeTag f c.sq c.cid) 3 false s)

/-- WRITE_PROGRAMMED: the blocks and the mapping are on the medium. A mirrored write also waits for its record's
acknowledgement (R390, R401). -/
def execWriteProgrammed (t func sq cid : Nat) (s : State) : Host.Outcome State Fault Refusal :=
  .next <|
    let s := atTime t s
    match (getCtrl s func).cmds.find? fun c => c.sq == sq && c.cid == cid && c.begun && !c.programmed && (mget s.flash.begun c.num).isSome with
    | none => s
    | some c =>
      match getNs s c.nsid with
      | none => endIo func c nv.NS_FORMAT s
      | some n =>
        if n.kind ≠ 1 then landNvme func c false s
        else if pairSynced s ∧ n.mirror = 0 then joinRecord func c s
        else if n.policy = 1 then endIo func c nv.MIRROR s
        else landNvme func c true (if n.mirror = 0 then mirrorState c.nsid 1 s else s)

/-! ### Reads (R394 to R396) -/

/-- A block as a read finds it: its bytes, its information, and the status of the medium and guard checks. `bad` names
blocks whose read fails: 1 the guard does not match, 2 no recovery step decodes. A block that maps nothing reads open
bytes. -/
def readBlock (n : Ns) (c : NCmd) (bad : List (Nat × Nat)) (i : Nat) (s : State) : (List Byte × List Byte × Nat) × State :=
  let bs := lbaBytes n.lbaf
  match mget s.flash.map (lbaKey c.nsid (c.lba + i)) with
  | none =>
    let (d, s) := freeBytes bs s
    ((d, if n.lbaf % 2 = 0 then [] else List.replicate 16 0xFF, 0), s)
  | some b =>
    let mark := mgetD bad i 0
    let guard := if hasPi n then beAt b.pi 0 8 != crc64 b.data || mark == 1 else mark == 1
    let st := if b.dead ∨ mark = 2 then nv.READ_ERROR
      else if guard then nv.GUARD
      else if hasPi n then tagStatus n c i b.pi
      else 0
    ((b.data, b.pi, st), s)

/-- All blocks of a command in order, up to the first that fails. -/
def readBlocks (n : Ns) (c : NCmd) (bad : List (Nat × Nat)) (s : State) : (List (List Byte × List Byte) × Nat) × State :=
  (List.range c.blocks).foldl (fun a i =>
    if a.1.2 ≠ 0 then a
    else
      let (r, s) := readBlock n c bad i a.2
      ((if r.2.2 = 0 then a.1.1 ++ [(r.1, r.2.1)] else a.1.1, r.2.2), s)) (([], 0), s)

/-- A guard mismatch of a namespace without protection information is an unrecovered read error (R395). -/
def readStatus (n : Ns) (c : NCmd) (st : Nat) (s : State) : Nat × State :=
  if st = nv.GUARD ∧ ¬ hasPi n then (nv.READ_ERROR, guardError c.nsid s) else (st, s)

/-- Writes bytes through the segments a data pointer leads to. -/
def dmaSegs (f : Nat) : List (Nat × Nat) → List Byte → State → State
  | [], _, s => s
  | (a, n) :: l, b, s => dmaSegs f l (b.drop n) (if b = [] then s else hostWrite f none true a (b.take n) s)

/-- The bytes a read sends: data with or without the information, and the separate metadata. -/
def readWire (n : Ns) (c : NCmd) (l : List (List Byte × List Byte)) : List Byte × List Byte :=
  if n.lbaf % 2 = 0 ∨ (hasPi n ∧ c.pract) then (l.flatMap (·.1), [])
  else if n.ext then (l.flatMap fun e => e.1 ++ e.2, [])
  else (l.flatMap (·.1), l.flatMap (·.2))

/-- NVME_READ: `segs` are the addresses and lengths the data pointer leads to; `fail`: a list could not be fetched. -/
def execNvmeRead (t func sq cid : Nat) (segs : List (Nat × Nat)) (fail : Bool) (bad : List (Nat × Nat)) (s : State) :
    Host.Outcome State Fault Refusal :=
  .next <|
    runNvme t func sq cid false (fun c => c.op == 2) (fun c s =>
      match getNs s c.nsid with
      | none => endIo func c nv.NS_FORMAT s
      | some n =>
        let st := firstBad [ioStatus s func c, rangeStatus n c true, piFieldStatus n c]
        if st ≠ 0 then endIo func c st s
        else if fail then endIo func c nv.TRANSFER (nvmeFetchFail func s)
        else
          let s := tagStage 3 (nvmeTag func sq cid) 2 false s
          let ((l, st), s) := readBlocks n c bad s
          let (st, s) := readStatus n c st s
          let (d, m) := readWire n c l
          let s := dmaSegs func segs d s
          let s := if m = [] then s else hostWrite func none true (c.d 4 + 2 ^ 32 * c.d 5) m s
          endIo func c st s) s

/-- NVME_VERIFY: the guards of the blocks are checked, nothing is sent. -/
def execNvmeVerify (t func sq cid : Nat) (bad : List (Nat × Nat)) (s : State) : Host.Outcome State Fault Refusal :=
  .next <|
    runNvme t func sq cid false (fun c => c.op == 0x0C) (fun c s =>
      match getNs s c.nsid with
      | none => endIo func c nv.NS_FORMAT s
      | some n =>
        let st := firstBad [ioStatus s func c, rangeStatus n c false, piFieldStatus n c]
        if st ≠ 0 then endIo func c st s
        else
          let ((_, st), s) := readBlocks n c bad s
          let (st, s) := readStatus n c st s
          endIo func c st s) s

/-- NVME_COMPARE: the host's bytes against the medium's. -/
def execNvmeCompare (t func sq cid : Nat) (data mdata : List Byte) (fail : Bool) (bad : List (Nat × Nat)) (s : State) :
    Host.Outcome State Fault Refusal :=
  .next <|
    runNvme t func sq cid false (fun c => c.op == 5) (fun c s =>
      match getNs s c.nsid with
      | none => endIo func c nv.NS_FORMAT s
      | some n =>
        let st := firstBad [ioStatus s func c, rangeStatus n c true, piFieldStatus n c]
        if st ≠ 0 then endIo func c st s
        else if fail then endIo func c nv.TRANSFER (nvmeFetchFail func s)
        else
          let ((l, st), s) := readBlocks n c bad s
          let (st, s) := readStatus n c st s
          let st := if st ≠ 0 then st else if readWire n c l = (data, mdata) then 0 else nv.COMPARE
          endIo func c st s) s

/-- NVME_FLUSH: completes and does no work (R390). -/
def execNvmeFlush (t func sq cid : Nat) (s : State) : Host.Outcome State Fault Refusal :=
  .next <|
    runNvme t func sq cid false (fun c => c.op == 0) (fun c s =>
      let st := if c.nsid = 0xFFFFFFFF then 0 else match ioStatus s func c with
        | 0x82 => 0
        | v => v
      endIo func c st s) s

end Sys2Proof.Machine
end

