-- ==== Sys2Proof/Machine/NvmeAdmin.lean ====
section
/-! DEFINITION. NVMe: controllers, the Admin commands and namespaces (chapter 11, R382 to R408). Layouts and offsets of the
Identify structures follow the NVMe specifications the chapter names (PRESUMED). -/

namespace Sys2Proof.Machine

/-! ### Controllers (R382, R399) -/

/-- CONTROLLER_ENABLE: CC.EN is 1 and CSTS.RDY follows; the Admin queues stand as AQA, ASQ and ACQ say. -/
def execControllerEnable (t func cc aqa asq acq : Nat) (s : State) : Host.Outcome State Fault Refusal :=
  .next <|
    let s := atTime t s
    let x := getCtrl s func
    if 1012 ≤ func ∨ blkState s (pFUNC func) = 0x82 ∨ x.rdy ∨ x.cfs ∨ ¬ blkRunning s pNVME ∨ cc % 2 = 0 then s
    else
      let sq : NSq := { base := asq, size := bitsOf aqa 0 12 + 1, prio := 0, cq := 0, head := 0, tail := 0 }
      let cq : NCq := {
        base := acq, size := bitsOf aqa 16 12 + 1, vec := 0, ien := true, head := 0, tail := 0, phase := true, held := 0
        heldAt := 0, wait := [] }
      putCtrl func { x with cc := cc, rdy := true, aqa := aqa, asq := asq, acq := acq, sqs := [(0, sq)], cqs := [(0, cq)] } s

/-- A controller reset: waiting commands are discarded, begun ones run on with their completions discarded, the queues and the
features go (R399). The share and its totals are the device's. -/
def resetCtrl (f : Nat) (s : State) : State :=
  let x := getCtrl s f
  let begun := (x.cmds.filter fun c => c.begun).map fun c => { c with drop := true }
  putCtrl f { Ctrl.reset with cmds := begun, used := x.used, total := x.total, heldTicks := x.heldTicks, heldNow := x.heldNow } s

/-- CONTROLLER_RESET: CC.EN goes from 1 to 0. -/
def execControllerReset (t func : Nat) (s : State) : Host.Outcome State Fault Refusal :=
  .next <|
    let s := atTime t s
    let x := getCtrl s func
    if x.rdy ∨ x.cfs then resetCtrl func s else s

/-- SHUTDOWN_NOTIFY: CC.SHN is written; the shutdown is complete at once, since no cache is held. -/
def execShutdownNotify (t func : Nat) (s : State) : Host.Outcome State Fault Refusal :=
  .next <|
    let s := atTime t s
    let x := getCtrl s func
    if x.rdy then putCtrl func { x with shst := 2 } s else s

/-! ### Queues (R382, R383, R404) -/

/-- CREATE_IO_CQ. -/
def execCreateIoCq (t func sq cid : Nat) (s : State) : Host.Outcome State Fault Refusal :=
  .next <|
    runNvme t func sq cid true (fun c => c.op == 5) (fun c s =>
      let x := getCtrl s func
      let id := bitsOf (c.d 10) 0 16
      let size := bitsOf (c.d 10) 16 16
      let vec := bitsOf (c.d 11) 16 16
      let st := if id = 0 ∨ ioQueues func < id ∨ (mget x.cqs id).isSome then nv.QID
        else if size = 0 ∨ 4095 < size then nv.QSIZE
        else if c.d 11 % 2 = 0 then nv.FIELD
        else if 64 < vec then nv.VECTOR
        else 0
      if st ≠ 0 then endNvme func c st 0 s
      else
        let q : NCq := {
          base := c.d 6 + 2 ^ 32 * c.d 7, size := size + 1, vec := vec, ien := bitOf (c.d 11) 1, head := 0, tail := 0, phase := true
          held := 0, heldAt := 0, wait := [] }
        endNvme func c 0 0 (putCtrl func { x with cqs := mput x.cqs id q } s)) s

/-- CREATE_IO_SQ. -/
def execCreateIoSq (t func sq cid : Nat) (s : State) : Host.Outcome State Fault Refusal :=
  .next <|
    runNvme t func sq cid true (fun c => c.op == 1) (fun c s =>
      let x := getCtrl s func
      let id := bitsOf (c.d 10) 0 16
      let size := bitsOf (c.d 10) 16 16
      let cq := bitsOf (c.d 11) 16 16
      let st := if id = 0 ∨ ioQueues func < id ∨ (mget x.sqs id).isSome then nv.QID
        else if size = 0 ∨ 4095 < size then nv.QSIZE
        else if c.d 11 % 2 = 0 then nv.FIELD
        else if cq = 0 ∨ (mget x.cqs cq).isNone then nv.CQ_INVALID
        else 0
      if st ≠ 0 then endNvme func c st 0 s
      else
        let q : NSq := { base := c.d 6 + 2 ^ 32 * c.d 7, size := size + 1, prio := bitsOf (c.d 11) 1 2, cq := cq, head := 0, tail := 0 }
        endNvme func c 0 0 (putCtrl func { x with sqs := mput x.sqs id q } s)) s

/-- DELETE_IO_SQ: waiting commands of the queue complete, begun ones run on with their completions discarded. -/
def execDeleteIoSq (t func sq cid : Nat) (s : State) : Host.Outcome State Fault Refusal :=
  .next <|
    runNvme t func sq cid true (fun c => c.op == 0) (fun c s =>
      let id := bitsOf (c.d 10) 0 16
      if id = 0 ∨ (mget (getCtrl s func).sqs id).isNone then endNvme func c nv.QID 0 s
      else
        let s := ((getCtrl s func).cmds.filter fun d => d.sq == id && !d.begun).foldl (fun s d => endNvme func d nv.SQ_DELETED 0 s) s
        let x := getCtrl s func
        let gone (d : NCmd) : NCmd := if d.sq = id then { d with drop := true } else d
        endNvme func c 0 0 (putCtrl func { x with sqs := mdel x.sqs id, cmds := x.cmds.map gone } s)) s

/-- DELETE_IO_CQ. -/
def execDeleteIoCq (t func sq cid : Nat) (s : State) : Host.Outcome State Fault Refusal :=
  .next <|
    runNvme t func sq cid true (fun c => c.op == 4) (fun c s =>
      let x := getCtrl s func
      let id := bitsOf (c.d 10) 0 16
      let st := if id = 0 ∨ (mget x.cqs id).isNone then nv.QID
        else if x.sqs.any (fun e => e.2.cq == id) then nv.Q_DELETION
        else 0
      endNvme func c st 0 (if st ≠ 0 then s else putCtrl func { x with cqs := mdel x.cqs id } s)) s

/-! ### Abort and events (R388, R389) -/

/-- ABORT: catches a waiting command of an I/O queue. -/
def execAbort (t func sq cid : Nat) (s : State) : Host.Outcome State Fault Refusal :=
  .next <|
    runNvme t func sq cid true (fun c => c.op == 8) (fun c s =>
      let q := bitsOf (c.d 10) 0 16
      let miss (s : State) : State := endNvme func c 0 1 (nvmeCount 2 s)
      if q = 0 then miss s
      else match findNCmd s func q (bitsOf (c.d 10) 16 16) with
        | some d => if d.begun then miss s else endNvme func c 0 0 (nvmeCount 1 (endNvme func d nv.ABORTED 0 s))
        | none => miss s) s

/-- ASYNC_EVENT_REQUEST: takes the oldest event that waits, or waits for one. -/
def execAsyncEventRequest (t func sq cid : Nat) (s : State) : Host.Outcome State Fault Refusal :=
  .next <|
    runNvme t func sq cid true (fun c => c.op == 0x0C) (fun c s =>
      let x := getCtrl s func
      match x.events with
      | v :: rest => endNvme func c 0 v (putCtrl func { x with events := rest } s)
      | [] => putCtrl func { x with cmds := x.cmds.filter (fun d => d.num != c.num), aers := x.aers ++ [cid] } s) s

/-! ### Features (R405) -/

/-- The hottest junction sensor, °C, as PWR.THERM_STAT shows it. -/
def junctionNow (s : State) : Nat := fld s pPWR R.PWR.THERM_STAT 0 8

/-- The value of a feature of a controller; `dflt`: its default. `none`: no such feature. -/
def featureOf (s : State) (f : Nat) (c : NCmd) (dflt : Bool) : Option Nat :=
  let x := if dflt then Ctrl.reset else getCtrl s f
  match bitsOf (c.d 10) 0 8 with
  | 0x01 => some x.arb
  | 0x02 => some 0
  | 0x04 => some x.tempThr
  | 0x07 => some (if x.nq = 0 then (ioQueues f - 1) * 65537 else x.nq)
  | 0x08 => some x.coal
  | 0x09 => let v := bitsOf (c.d 11) 0 16; if v ≤ 64 then some (v + (if x.cd.contains v then 65536 else 0)) else none
  | 0x0B => some x.asyncCfg
  | 0xC0 => some (shareWeight s f + shareLimit s f / 64 * 65536)
  | 0xC1 => match getNs s c.nsid with
    | some n => if n.kind = 1 then some (if dflt then 0 else n.policy) else none
    | none => none
  | _ => none

/-- GET_FEATURES: the select field gives the current value, the default, the saved one (none is saved: the default), or what
the feature supports. -/
def execGetFeatures (t func sq cid : Nat) (s : State) : Host.Outcome State Fault Refusal :=
  .next <|
    runNvme t func sq cid true (fun c => c.op == 0x0A) (fun c s =>
      let sel := bitsOf (c.d 10) 8 3
      match featureOf s func c (decide (1 ≤ sel)) with
      | none => endNvme func c nv.FIELD 0 s
      | some v =>
        let id := bitsOf (c.d 10) 0 8
        let caps := (if id = 0xC1 then 2 else 0) + (if id = 0xC0 ∨ id = 2 then 0 else 4)
        if 3 < sel then endNvme func c nv.FIELD 0 s else endNvme func c 0 (if sel = 3 then caps else v) s) s

/-- Sets a feature: status, result and the controller. -/
def setFeature (s : State) (f : Nat) (c : NCmd) : Nat × Nat × State :=
  let x := getCtrl s f
  let v := c.d 11
  match bitsOf (c.d 10) 0 8 with
  | 0x01 => (0, 0, putCtrl f { x with arb := v } s)
  | 0x02 => (if bitsOf v 0 5 = 0 then 0 else nv.FIELD, 0, s)
  | 0x04 => if bitsOf v 20 2 = 0 ∧ (bitsOf v 16 4 = 0 ∨ bitsOf v 16 4 = 1 ∨ bitsOf v 16 4 = 15) then (0, 0, putCtrl f { x with tempThr := bitsOf v 0 16, hot := false } s)
    else (0, 0, s)
  | 0x07 =>
    if bitsOf v 0 16 = 0xFFFF ∨ bitsOf v 16 16 = 0xFFFF then (nv.FIELD, 0, s)
    else
      let lim := ioQueues f - 1
      let r := min lim (bitsOf v 0 16) + 65536 * min lim (bitsOf v 16 16)
      (0, r, putCtrl f { x with nq := r } s)
  | 0x08 => (0, 0, putCtrl f { x with coal := bitsOf v 0 16 } s)
  | 0x09 =>
    let vec := bitsOf v 0 16
    let rest := x.cd.filter (· != vec)
    if vec ≤ 64 then (0, 0, putCtrl f { x with cd := if bitOf v 16 then addSorted vec rest else rest } s) else (nv.FIELD, 0, s)
  | 0x0B => (0, 0, putCtrl f { x with asyncCfg := v } s)
  | 0xC0 => (0x10E, 0, s)
  | 0xC1 => match getNs s c.nsid with
    | some n => if n.kind = 1 ∧ f = 0 then (0, 0, putNs c.nsid { n with policy := v % 2 } s) else (nv.FIELD, 0, s)
    | none => (nv.FIELD, 0, s)
  | _ => (nv.FIELD, 0, s)

/-- SET_FEATURES: no feature is saveable. -/
def execSetFeatures (t func sq cid : Nat) (s : State) : Host.Outcome State Fault Refusal :=
  .next <|
    runNvme t func sq cid true (fun c => c.op == 9) (fun c s =>
      if (featureOf s func { c with dw := c.dw.set 10 (bitsOf (c.d 10) 0 8) } false).isNone then endNvme func c nv.FIELD 0 s
      else if bitOf (c.d 10) 31 then endNvme func c 0x10D 0 s
      else
        let (st, r, s) := setFeature s func c
        endNvme func c st r s) s

/-! ### Identify (R382, R391, R393, R400, R404) -/

/-- Puts bytes at an offset. -/
def overlay (l : List Byte) (e : Nat × List Byte) : List Byte := l.take e.1 ++ e.2 ++ l.drop (e.1 + e.2.length)

/-- A structure of `n` zero bytes with fields put at offsets. -/
def structOf (n : Nat) (fs : List (Nat × List Byte)) : List Byte := (fs.foldl overlay (List.replicate n 0)).take n

/-- Identify Namespace. -/
def identNs (s : State) (nsid : Nat) (n : Ns) : List Byte :=
  let big := decide (2 ≤ n.lbaf)
  let atom := if big then 255 else 31
  let lbaf (m b : Nat) : List Byte := leBytes 4 (m + b * 65536)
  structOf 4096 [
    (0, leBytes 8 n.size), (8, leBytes 8 n.size),
    (16, leBytes 8 (s.flash.map.filter fun e => e.1 / 2 ^ 64 == nsid).length),
    (24, leBytes 1 (if big then 2 else 0)), (25, [3]), (26, leBytes 1 (n.lbaf + (if n.ext then 16 else 0))), (27, [3]), (28, [0x1F]),
    (29, leBytes 1 n.dps), (34, leBytes 2 atom), (36, leBytes 2 atom), (48, leBytes 16 (n.gib * 2 ^ 30)), (104, n.nguid),
    (128, lbaf 0 12 ++ lbaf 16 12 ++ lbaf 0 9 ++ lbaf 16 9), (3072, leBytes 1 n.kind)]

/-- What every namespace supports (NSID 0xFFFFFFFF). -/
def identNsCaps : List Byte :=
  let lbaf (m b : Nat) : List Byte := leBytes 4 (m + b * 65536)
  structOf 4096 [(25, [3]), (27, [3]), (28, [0x1F]), (128, lbaf 0 12 ++ lbaf 16 12 ++ lbaf 0 9 ++ lbaf 16 9)]

/-- Identify Controller: what the chapter fixes, laid over bytes it leaves open. -/
def identCtrl (f : Nat) (s : State) : List Byte × State :=
  let (b, s) := freeBytes 4096 s
  ([(77, [9]), (78, leBytes 2 f), (80, leBytes 4 0x00020100), (111, [1]), (256, leBytes 2 (if f = 0 then 0x0E else 0)), (258, [3]), (259, [3]),
    (260, [0x14]), (262, [63]), (263, [0]), (328, leBytes 4 (if f = 0 then 3 else 0)), (512, [0x66]), (513, [0x44]), (516, leBytes 4 256),
    (520, leBytes 2 0x8D), (522, leBytes 2 0), (525, [0]), (526, leBytes 2 31), (528, leBytes 2 31)].foldl overlay b, s)

/-- A list of numbers of `k` bytes each in 4,096 bytes. -/
def numList (k : Nat) (l : List Nat) : List Byte := structOf 4096 [(0, ((l.take (4096 / k)).flatMap (leBytes k)))]

/-- A controller list: the count, then the identifiers. -/
def ctrlList (l : List Nat) : List Byte := structOf 4096 [(0, leBytes 2 (min 2047 l.length) ++ (l.take 2047).flatMap (leBytes 2))]

/-- Controllers of the device: every function that is present. -/
def ctrlsPresent (s : State) : List Nat := (List.range 1012).filter fun f => blkState s (pFUNC f) != 0x82

/-- NSIDs the controller serves, and all that exist. -/
def nsOf (s : State) (f : Nat) : List Nat := (s.nvme.nss.filter fun e => e.2.ctrl == some f).map (·.1)

/-- The Identify data of a CNS value, or the status it fails with. -/
def identData (f : Nat) (c : NCmd) (s : State) : (Nat × List Byte) × State :=
  let zero : List Byte := List.replicate 4096 0
  let id := c.nsid
  let known : Option Ns := getNs s id
  let mine : Option Ns := match known with | some n => if n.ctrl = some f then some n else none | none => none
  let valid := decide (1 ≤ id) && decide (id ≤ 256)
  match bitsOf (c.d 10) 0 8 with
  | 0x00 =>
    if id = 0xFFFFFFFF then ((0, identNsCaps), s)
    else if ¬ valid then ((nv.NS_FORMAT, []), s)
    else ((0, match mine with | some n => identNs s id n | none => zero), s)
  | 0x01 => let (b, s) := identCtrl f s; ((0, b), s)
  | 0x02 => ((0, numList 4 ((nsOf s f).filter fun n => decide (id < n))), s)
  | 0x03 => match mine with
    | some n => ((0, structOf 4096 [(0, [2, 16, 0, 0] ++ n.nguid ++ [4, 1, 0, 0, 0])]), s)
    | none => ((nv.NS_FORMAT, []), s)
  | 0x05 =>
    if bitsOf (c.d 11) 24 8 ≠ 0 then ((nv.FIELD, []), s)
    else if ¬ valid then ((nv.NS_FORMAT, []), s)
    else ((0, if mine.isSome then structOf 4096 [(12, leBytes 4 0 ++ leBytes 4 0x100 ++ leBytes 4 0 ++ leBytes 4 0x100)] else zero), s)
  | 0x06 => if bitsOf (c.d 11) 24 8 ≠ 0 then ((nv.FIELD, []), s) else ((0, zero), s)
  | 0x10 => ((0, numList 4 ((s.nvme.nss.map (·.1)).filter fun n => decide (id < n))), s)
  | 0x11 => if ¬ valid then ((nv.NS_FORMAT, []), s) else ((0, match known with | some n => identNs s id n | none => zero), s)
  | 0x12 => match known with
    | some n => ((0, ctrlList (n.ctrl.toList.filter fun k => decide (bitsOf (c.d 10) 16 16 ≤ k))), s)
    | none => if valid then ((0, zero), s) else ((nv.NS_FORMAT, []), s)
  | 0x13 => ((0, ctrlList ((ctrlsPresent s).filter fun k => decide (bitsOf (c.d 10) 16 16 ≤ k))), s)
  | _ => ((nv.FIELD, []), s)

/-- IDENTIFY. -/
def execIdentify (t func sq cid : Nat) (segs : List (Nat × Nat)) (fail : Bool) (s : State) : Host.Outcome State Fault Refusal :=
  .next <|
    runNvme t func sq cid true (fun c => c.op == 6) (fun c s =>
      if fail then endNvme func c nv.TRANSFER 0 (nvmeFetchFail func s)
      else
        let ((st, b), s) := identData func c s
        endNvme func c st 0 (if st = 0 then dmaSegs func segs b s else s)) s

/-! ### Namespaces (R400 to R403) -/

/-- A controller's list of namespaces changed. -/
def nsChanged (f nsid : Nat) (s : State) : State :=
  let x := getCtrl s f
  if x.rdy then asyncEvent f 2 0 4 (putCtrl f { x with changed := addSorted nsid x.changed } s) else s

/-- Status every namespace command has while the device is sanitized (R403). -/
def nsBusy (s : State) (n : Option Ns) : Nat :=
  match n with
  | some n => if n.state = 3 then nv.FORMATTING else if n.state = 4 then nv.SANITIZING else 0
  | none => if s.nvme.sanitize.isSome then nv.SANITIZING else 0

/-- An LBA format with protection settings that R393 allows. -/
def formatOk (lbaf dps : Nat) : Bool :=
  decide (lbaf ≤ 3) && decide (dps % 8 ≤ 3) && (dps % 8 == 0 || lbaf % 2 == 1) && decide (dps < 16)

/-- NS_CREATE: `data` is the host-specified Identify Namespace structure. -/
def execNsCreate (t func sq cid : Nat) (data : List Byte) (fail : Bool) (s : State) : Host.Outcome State Fault Refusal :=
  .next <|
    runNvme t func sq cid true (fun c => c.op == 0x0D && bitsOf (c.d 10) 0 4 != 1) (fun c s =>
      let nsze := leAt data 0 8
      let flbas := leAt data 26 1
      let lbaf := flbas % 16
      let dps := leAt data 29 1
      let kind := leAt data 3072 1
      let gib := ceilDiv (nsze * lbaBytes lbaf) (2 ^ 30)
      let id := (List.range 256).find? fun i => (getNs s (i + 1)).isNone
      let st := if bitsOf (c.d 10) 0 4 ≠ 0 then nv.FIELD
        else if fail then nv.TRANSFER
        else if ¬ ftlReady s then nv.NOT_READY
        else if s.nvme.sanitize.isSome then nv.SANITIZING
        else if 2 < kind ∨ 32 ≤ flbas ∨ leAt data 30 1 ≠ 0 then nv.FIELD
        else if ¬ formatOk lbaf dps then nv.FORMAT
        else if leAt data 8 8 ≠ nsze ∨ nsze = 0 then nv.FIELD
        else if id.isNone then nv.NSID_TAKEN
        else if s.flash.usable < gibUsed s + gib ∨ blkState s pFTL = 0x82 then nv.NS_CAPACITY
        else if kind = 1 ∧ 16 ≤ (s.nvme.nss.filter fun e => e.2.kind == 1).length then nv.NS_CAPACITY
        else 0
      if st ≠ 0 then endNvme func c st 0 (if st = nv.TRANSFER then nvmeFetchFail func s else s)
      else
        let nsid := id.getD 0 + 1
        let (guid, s) := freeBytes 16 s
        let n : Ns := {
          state := 1, former := 1, kind := kind, lbaf := lbaf, ext := bitOf flbas 4, dps := dps, gib := gib, size := nsze, nguid := guid
          ctrl := none, policy := 0, owned := true, mirror := if kind = 1 ∧ ¬ pairSynced s then 1 else 0, ackTick := 0, degBytes := 0, leftBytes := 0 }
        endNvme func c 0 nsid (newDeviceKey nsid (putNs nsid n s))) s

/-- The data of a namespace that is the checkpoint service's landing area goes with it (R400, R439). -/
def wipeArea (nsid : Nat) (s : State) : State := if s.ckpt.areaNs = some nsid then { s with ckpt := s.ckpt.wiped } else s

/-- A namespace is gone: detached, its blocks unmapped and its key destroyed. -/
def dropNs (nsid : Nat) (s : State) : State :=
  match getNs s nsid with
  | none => s
  | some n =>
    let s := setNvme s fun v => { v with nss := mdel v.nss nsid }
    let s := wipeArea nsid s
    let s := if s.ckpt.areaNs = some nsid then { s with ckpt := { s.ckpt with areaNs := none } } else s
    let s := dropDeviceKey nsid (setFlash s fun f => unmapRange nsid 0 (2 ^ 64) f)
    match n.ctrl with
    | some f => nsChanged f nsid s
    | none => s

/-- NS_DELETE: NSID 0xFFFFFFFF names every namespace. -/
def execNsDelete (t func sq cid : Nat) (s : State) : Host.Outcome State Fault Refusal :=
  .next <|
    runNvme t func sq cid true (fun c => c.op == 0x0D && bitsOf (c.d 10) 0 4 == 1) (fun c s =>
      let all := c.nsid == 0xFFFFFFFF
      let ids := if all then s.nvme.nss.map (·.1) else [c.nsid]
      let st := firstBad (ids.map fun i => let n := getNs s i; if n.isNone then nv.FIELD else nsBusy s n)
      endNvme func c st 0 (if st ≠ 0 then s else ids.foldl (fun s i => dropNs i s) s)) s

/-- The one controller a controller list names; R384 lets a namespace be attached to at most one. -/
def oneCtrl (s : State) (data : List Byte) : Option Nat :=
  let f := leAt data 2 2
  if leAt data 0 2 = 1 ∧ f < 1012 ∧ blkState s (pFUNC f) ≠ 0x82 then some f else none

/-- NS_ATTACH: `data` is the controller list. -/
def execNsAttach (t func sq cid : Nat) (data : List Byte) (fail : Bool) (s : State) : Host.Outcome State Fault Refusal :=
  .next <|
    runNvme t func sq cid true (fun c => c.op == 0x15 && bitsOf (c.d 10) 0 4 != 1) (fun c s =>
      if bitsOf (c.d 10) 0 4 ≠ 0 then endNvme func c nv.FIELD 0 s
      else if fail then endNvme func c nv.TRANSFER 0 (nvmeFetchFail func s)
      else match getNs s c.nsid, oneCtrl s data with
        | none, _ => endNvme func c nv.FIELD 0 s
        | some n, k =>
          let busy := nsBusy s (some n)
          match k with
          | none => endNvme func c (if busy ≠ 0 then busy else nv.CTRL_LIST) 0 s
          | some f =>
            let st := if busy ≠ 0 then busy
              else if n.state = 2 then nv.NS_ATTACHED
              else if n.kind = 2 ∨ ¬ n.owned then nv.NS_PRIVATE
              else 0
            if st ≠ 0 then endNvme func c st 0 s
            else endNvme func c 0 0 (nsChanged f c.nsid (putNs c.nsid { n with state := 2, ctrl := some f } s))) s

/-- NS_DETACH. -/
def execNsDetach (t func sq cid : Nat) (data : List Byte) (fail : Bool) (s : State) : Host.Outcome State Fault Refusal :=
  .next <|
    runNvme t func sq cid true (fun c => c.op == 0x15 && bitsOf (c.d 10) 0 4 == 1) (fun c s =>
      if fail then endNvme func c nv.TRANSFER 0 (nvmeFetchFail func s)
      else match getNs s c.nsid, oneCtrl s data with
        | none, _ => endNvme func c nv.FIELD 0 s
        | some n, k =>
          let busy := nsBusy s (some n)
          let st := if busy ≠ 0 then busy
            else if k.isNone then nv.CTRL_LIST
            else if n.state ≠ 2 ∨ n.ctrl ≠ k then nv.NS_NOT_ATTACHED
            else 0
          if st ≠ 0 then endNvme func c st 0 s
          else endNvme func c 0 0 (nsChanged (k.getD 0) c.nsid (putNs c.nsid { n with state := 1, ctrl := none } s))) s

/-! ### Format and sanitize (R403, R408) -/

/-- FORMAT_NVM: the namespace is FORMATTING until FORMAT_DONE. -/
def execFormatNvm (t func sq cid : Nat) (s : State) : Host.Outcome State Fault Refusal :=
  .next <|
    runNvme t func sq cid true (fun c => c.op == 0x80) (fun c s =>
      match getNs s c.nsid with
      | none => endNvme func c nv.NS_FORMAT 0 s
      | some n =>
        let busy := nsBusy s (some n)
        let lbaf := bitsOf (c.d 10) 0 4
        let dps := bitsOf (c.d 10) 5 3 + 8 * bitsOf (c.d 10) 8 1
        let st := if busy ≠ 0 then busy
          else if ¬ ftlReady s then nv.NOT_READY
          else if blkState s pFTL = 0x82 then nv.PROTECTED
          else if 2 < bitsOf (c.d 10) 9 3 then nv.FIELD
          else if ¬ formatOk lbaf dps then nv.FORMAT
          else 0
        if st ≠ 0 then endNvme func c st 0 s
        else putNs c.nsid { n with state := 3, former := n.state } s) s

/-- FORMAT_DONE: the new format maps no block; secure erase 2 replaces the key. The namespace returns to its former state. -/
def execFormatDone (t nsid : Nat) (s : State) : Host.Outcome State Fault Refusal :=
  .next <|
    let s := atTime t s
    match getNs s nsid with
    | none => s
    | some n =>
      if n.state ≠ 3 then s
      else
        let found := s.nvme.ctrls.findSome? fun e =>
          (e.2.cmds.find? fun c => c.sq == 0 && c.op == 0x80 && c.begun && c.nsid == nsid).map fun c => (e.1, c)
        match found with
        | none => putNs nsid { n with state := n.former } s
        | some (f, c) =>
          let lbaf := bitsOf (c.d 10) 0 4
          let n' : Ns := { n with
            state := n.former, lbaf := lbaf, ext := bitOf (c.d 10) 4, dps := bitsOf (c.d 10) 5 3 + 8 * bitsOf (c.d 10) 8 1
            size := n.size * lbaBytes n.lbaf / lbaBytes lbaf }
          let s := wipeArea nsid (setFlash (putNs nsid n' s) fun x => unmapRange nsid 0 (2 ^ 64) x)
          let s := if bitsOf (c.d 10) 9 3 = 2 then newDeviceKey nsid s else s
          let s := match n.ctrl with | some k => nsChanged k nsid s | none => s
          endNvme f c 0 0 s

/-- SANITIZE: block erase (2) or crypto erase (4) of every namespace; exit failure mode (1) has nothing to leave. -/
def execSanitize (t func sq cid : Nat) (s : State) : Host.Outcome State Fault Refusal :=
  .next <|
    runNvme t func sq cid true (fun c => c.op == 0x84) (fun c s =>
      let act := bitsOf (c.d 10) 0 3
      let st := if s.nvme.sanitize.isSome then nv.SANITIZING
        else if s.nvme.nss.any (fun e => e.2.state == 3) then nv.FORMATTING
        else if act ≠ 1 ∧ act ≠ 2 ∧ act ≠ 4 then nv.FIELD
        else if ¬ ftlReady s then nv.NOT_READY
        else 0
      if st ≠ 0 ∨ act = 1 then endNvme func c st 0 s
      else
        let move (e : Nat × Ns) : Nat × Ns := (e.1, { e.2 with former := e.2.state, state := 4 })
        endNvme func c 0 0 (setNvme s fun n => { n with
          sanitize := some act, sanStat := 2, sanCdw10 := c.d 10, nss := n.nss.map move })) s

/-- SANITIZE_DONE: nothing of the old data is left; a crypto erase replaced every namespace key. -/
def execSanitizeDone (t : Nat) (s : State) : Host.Outcome State Fault Refusal :=
  .next <|
    let s := atTime t s
    match s.nvme.sanitize with
    | none => s
    | some act =>
      let s := setFlash { s with ckpt := s.ckpt.wiped } fun f => { f with map := [] }
      let s := if act = 4 then s.nvme.nss.foldl (fun s e => newDeviceKey e.1 s) s else s
      let back (e : Nat × Ns) : Nat × Ns := (e.1, { e.2 with state := e.2.former })
      let s := setNvme s fun n => { n with sanitize := none, sanStat := 1, nss := n.nss.map back }
      asyncAll 6 1 0x81 (penBit pNVME 3 s)

/-- At a tick edge: a controller whose temperature threshold the hottest junction has reached reports it (R405). -/
def edgeTemp (s : State) : State :=
  let now := junctionNow s + 273
  (s.nvme.ctrls.filter fun e => e.2.rdy).foldl (fun s e =>
    let x := getCtrl s e.1
    let hot := x.tempThr != 0 && decide (x.tempThr ≤ now)
    if hot = x.hot then s
    else
      let s := putCtrl e.1 { x with hot := hot } s
      if hot then asyncEvent e.1 1 1 2 s else s) s

end Sys2Proof.Machine
end

