-- ==== Sys2Proof/Machine/FeedView.lean ====
section
/-! DEFINITION. What can be read off the feed links and ports (chapter 08): roles, link states, ports, windows in force, and
the FEED snapshot. -/

namespace Sys2Proof.Machine

def getLink (s : State) (l : Nat) : Link := mgetD s.feed.links l Link.down

/-! ### Roles, ports and registers -/

/-- The role a link acts in (R269). -/
def linkRole (s : State) (l : Nat) : Nat :=
  let r := fld s (pLINK l) R.LINK.CFG 0 2
  if r = 1 ∧ 32 ≤ fld s (pLINK l) R.LINK.CFG 24 8 then 0 else if r = 3 then 0 else r

/-- The accelerator port of a link (R269). -/
def linkPort (s : State) (l : Nat) : Option Nat :=
  if linkRole s l = 1 then some (fld s (pLINK l) R.LINK.CFG 24 8) else none

def lstate (s : State) (l : Nat) : Nat := fld s (pLINK l) R.LINK.STAT 0 3

/-- The link carries traffic. -/
def linkUp (s : State) (l : Nat) : Bool := lstate s l == 4 || lstate s l == 5

def lanesUp (s : State) (l : Nat) : Nat := fld s (pLINK l) R.LINK.STAT 8 2

/-- The joined links of a port that are up, in index order (R269, R275). -/
def portLinks (s : State) (port : Nat) : List Nat :=
  (List.range 48).filter fun l => linkUp s l && linkPort s l == some port && (getLink s l).joined

def portUp (s : State) (port : Nat) : Bool := (portLinks s port) != []

/-- Dword `k` of a window entry in force. -/
def winDword (s : State) (idx k : Nat) : Nat := tabGet s 0 idx k 0

/-- The FEED snapshot from 0xC40: the 16 windows of SNAP_PORT, PACKS_COMMITTED, RUNNING rings and ports up. -/
def snapFeed (s : State) : List Nat :=
  let port := fld s pFEED R.FEED.SNAP_PORT 0 5
  ((List.range 16).flatMap fun w => (List.range 8).map fun k => winDword s (16 * port + w) k) ++
    [reg s pFEED (R.FEED.COUNT + 4), (s.feed.rings.filter fun e => e.2.state == 2).length,
      ((List.range 32).map fun p => if portUp s p then 2 ^ p else 0).sum]

/-- A port's gate list in force: none when its count is 0 or the list breaks the rules (R347). -/
def gateList (s : State) (port : Nat) : List (Nat × Nat) :=
  let n := fld s pEGS R.EGS.GATE_CFG (5 * port) 5
  let l := (List.range n).map fun e =>
    let v := reg s pEGS (R.EGS.GATE_SH + 0x40 * port + 4 * e)
    (bitsOf v 0 22, bitsOf v 24 8)
  let bad : Bool := match l with | (o, _) :: _ => decide (o ≠ 0) | [] => false
  if 16 < n ∨ ¬ mwf l ∨ bad then [] else l

/-- The entries that are reached in the period in force. -/
def gateReached (s : State) (port : Nat) : List (Nat × Nat) :=
  (gateList s port).filter fun e => decide (e.1 < s.tick.period * 1000)

/-- The OPEN mask in force at offset `o`. -/
def openAt (l : List (Nat × Nat)) (o : Nat) : Nat :=
  match (l.filter fun e => decide (e.1 ≤ o)).getLast? with
  | some e => e.2
  | none => 0xFF

/-- The mask of open gates of a port now. -/
def openMask (s : State) (port : Nat) : Nat := openAt (gateReached s port) (s.now - s.tick.edgeAt)

end Sys2Proof.Machine
end

