-- ==== Sys2Proof/Machine/Numbers.lean ====
section
/-! DEFINITION. The tensor block's numbers (R198 to R201): exact values, their encodings, rounding, conversion to MX blocks, and
the hyperbolic tangent within the error that R201 allows. -/

namespace Sys2Proof.Machine

/-- A value: not a number, an infinity, or (-1)^neg × man × 2^exp; zero keeps its sign. -/
inductive Num where
  | nan
  | inf (neg : Bool)
  | fin (neg : Bool) (man : Nat) (exp : Int)
  deriving DecidableEq, Repr

def Num.zero : Num := .fin false 0 0

/-- A NaN or an infinity (R202). -/
def Num.nonfinite : Num → Bool
  | .fin _ _ _ => false
  | _ => true

def Num.isNan : Num → Bool
  | .nan => true
  | _ => false

def Num.neg : Num → Num
  | .nan => .nan
  | .inf s => .inf (!s)
  | .fin s m e => .fin (!s) m e

/-- The value over 2^g as an integer; `g` is not above its exponent. -/
def alignMan (s : Bool) (m : Nat) (e g : Int) : Int :=
  let v : Int := m * 2 ^ (e - g).toNat
  if s then -v else v

/-- The exact sum; a zero sum is negative only of two negative zeros. -/
def Num.add : Num → Num → Num
  | .nan, _ => .nan
  | _, .nan => .nan
  | .inf a, .inf b => if a = b then .inf a else .nan
  | .inf a, _ => .inf a
  | _, .inf b => .inf b
  | .fin s m e, .fin t n f =>
    let g := min e f
    let v := alignMan s m e g + alignMan t n f g
    if v = 0 then .fin (s && t) 0 0 else .fin (decide (v < 0)) v.natAbs g

/-- The exact product. -/
def Num.mul : Num → Num → Num
  | .nan, _ => .nan
  | _, .nan => .nan
  | .inf a, .inf b => .inf (a != b)
  | .inf a, .fin t n _ => if n = 0 then .nan else .inf (a != t)
  | .fin s m _, .inf b => if m = 0 then .nan else .inf (s != b)
  | .fin s m e, .fin t n f => .fin (s != t) (m * n) (e + f)

/-- Strictly below, of two values that are no NaN. -/
def Num.lt (a b : Num) : Bool :=
  match a, b with
  | .nan, _ => false
  | _, .nan => false
  | .inf s, .inf t => s && !t
  | .inf s, _ => s
  | _, .inf t => !t
  | .fin s m e, .fin t n f => let g := min e f; decide (alignMan s m e g < alignMan t n f g)

/-- floor(log2) of a magnitude that is not 0. -/
def magLog (m : Nat) (e : Int) : Int := e + (Nat.log2 m : Int)

/-- `m` divided by 2^d, rounded to nearest with ties to even. -/
def roundShift (m d : Nat) : Nat :=
  let h := m / 2 ^ d
  let r := m % 2 ^ d
  if 2 ^ d < 2 * r ∨ (2 * r = 2 ^ d ∧ h % 2 = 1) then h + 1 else h

/-- Rounded to `p` bits, to nearest with ties to even; exponents of normal numbers from `emin` to `emax`, overflow to infinity. -/
def Num.round (p : Nat) (emin emax : Int) : Num → Num
  | .fin s m e =>
    if m = 0 then .fin s 0 0
    else
      let q := max (magLog m e) emin - ((p : Int) - 1)
      if q ≤ e then (if emax < magLog m e then .inf s else .fin s m e)
      else
        let h := roundShift m (q - e).toNat
        if h = 0 then .fin s 0 0 else if emax < magLog h q then .inf s else .fin s h q
  | x => x

/-- Rounded to binary32. -/
def fp32 (x : Num) : Num := x.round 24 (-126) 127

/-- The array flushes a result in the subnormal range to zero of the same sign (R201). -/
def flushed : Num → Num
  | .fin s m e => if m = 0 ∨ magLog m e < -126 then .fin s 0 0 else .fin s m e
  | x => x

/-! ### Encodings (R198) -/

/-- Exponent bits, mantissa bits and bias of a floating-point format. -/
def fltOf (fmt : Nat) : Nat × Nat × Nat :=
  match fmt with
  | 1 => (4, 3, 7)
  | 2 => (5, 2, 15)
  | 3 => (2, 3, 1)
  | 4 => (3, 2, 3)
  | 5 => (2, 1, 1)
  | 0x10 => (8, 7, 127)
  | 0x11 => (5, 10, 15)
  | _ => (8, 23, 127)

/-- A format with IEEE infinities and NaNs. -/
def fltIeee (fmt : Nat) : Bool := fmt == 2 || fmt == 0x10 || fmt == 0x11 || fmt == 0x12

/-- The value of an element's bits, without the scale of its block. -/
def decodeElem (fmt v : Nat) : Num :=
  if fmt = 6 then (if 128 ≤ v then .fin true (256 - v) (-6) else .fin false v (-6))
  else if fmt = 0x20 then .fin false v 0
  else if fmt = 0x21 then (if 2 ^ 31 ≤ v then .fin true (2 ^ 32 - v) 0 else .fin false v 0)
  else
    let (eb, mb, bias) := fltOf fmt
    let s := bitOf v (eb + mb)
    let e := bitsOf v mb eb
    let m := bitsOf v 0 mb
    if fltIeee fmt ∧ e = 2 ^ eb - 1 then (if m = 0 then .inf s else .nan)
    else if fmt = 1 ∧ e = 15 ∧ m = 7 then .nan
    else if e = 0 then .fin s m (1 - (bias : Int) - mb)
    else .fin s (2 ^ mb + m) ((e : Int) - bias - mb)

/-- The bits of a finite value that the format holds exactly. -/
def encodeFlt (fmt : Nat) (s : Bool) (m : Nat) (e : Int) : Nat :=
  let (eb, mb, bias) := fltOf fmt
  let sign := if s then 2 ^ (eb + mb) else 0
  if m = 0 then sign
  else
    let emin : Int := 1 - (bias : Int)
    let q := max (magLog m e) emin - mb
    let f := if q ≤ e then m * 2 ^ (e - q).toNat else m / 2 ^ (q - e).toNat
    if magLog m e < emin then sign + f else sign + (magLog m e - emin).toNat * 2 ^ mb + f

/-- The bits of an infinity, and of a NaN: its sign and fraction are not stated. -/
def encodeInf (fmt : Nat) (s : Bool) : Nat :=
  let (eb, mb, _) := fltOf fmt
  (if s then 2 ^ (eb + mb) else 0) + (2 ^ eb - 1) * 2 ^ mb

def encodeNan (fmt v : Nat) : Nat :=
  let (_, mb, _) := fltOf fmt
  encodeInf fmt (bitOf v 63) + 1 + v % (2 ^ mb - 1)

/-- A value as a format holds it, before its encoding: BF16, FP16 and FP32 round, with overflow to infinity (R200). -/
def asFmt (fmt : Nat) (x : Num) : Num :=
  if fmt = 0x10 then x.round 8 (-126) 127 else if fmt = 0x11 then x.round 11 (-14) 15 else fp32 x

/-- An integer of a format, or an open value where it is none that the format holds; `v` is open. -/
def encodeInt (fmt v : Nat) (x : Num) : Nat :=
  let w := fmtBits fmt
  match x with
  | .fin s m e =>
    let i : Option Int := if 0 ≤ e then some (alignMan s m e 0)
      else if m % 2 ^ (-e).toNat = 0 then some (alignMan s (m / 2 ^ (-e).toNat) 0 0) else none
    match i with
    | some i =>
      let lo : Int := if fmt = 0x21 then -(2 ^ 31) else 0
      let hi : Int := if fmt = 0x21 then 2 ^ 31 else 2 ^ w
      if lo ≤ i ∧ i < hi then (i % 2 ^ w).toNat else v % 2 ^ w
    | none => v % 2 ^ w
  | _ => v % 2 ^ w

/-- The bits of a value in a format that is not MX; `v` is open. -/
def encodeNum (fmt v : Nat) (x : Num) : Nat :=
  if fmt = 0x20 ∨ fmt = 0x21 then encodeInt fmt v x
  else match asFmt fmt x with
    | .nan => encodeNan fmt v
    | .inf s => encodeInf fmt s
    | .fin s m e => encodeFlt fmt s m e

/-! ### MX blocks (R200) -/

/-- The element format's largest exponent. -/
def mxTop (fmt : Nat) : Int := [0, 8, 15, 2, 4, 2, 0].getD fmt 0

/-- Largest finite magnitude, as an integer over 2^k. -/
def mxLargest (fmt : Nat) : Nat × Int :=
  match fmt with
  | 1 => (7, 6)
  | 2 => (7, 13)
  | 3 => (15, -1)
  | 4 => (7, 2)
  | 5 => (3, 1)
  | _ => (127, -6)

/-- floor(log2) of the largest magnitude of a block; none where every value is 0. An infinity is above every number. -/
def blockTop (l : List Num) : Option Int :=
  l.foldl (fun a x =>
    let t : Option Int := match x with
      | .inf _ => some (2 ^ 20)
      | .fin _ m e => if m = 0 then none else some (magLog m e)
      | .nan => none
    match a, t with
    | some b, some c => some (max b c)
    | none, t => t
    | a, none => a) none

/-- The scale byte of a block. -/
def blockScale (fmt : Nat) (l : List Num) : Nat :=
  if l.any Num.isNan then 0xFF
  else match blockTop l with
    | none => 0x7F
    | some t => (max (-127) (min 127 (t - mxTop fmt)) + 127).toNat

/-- An element's bits under a scale byte: v / 2^X rounded to nearest, ties to even, saturated. Whether the code -128 of MXINT8
is used is the device's choice. -/
def mxElem (fmt scale : Nat) (x : Num) : Nat :=
  let (eb, mb, bias) := fltOf fmt
  let big (s : Bool) : Nat :=
    let (m, e) := mxLargest fmt
    if fmt = 6 then (if s then (if Config.int8Lowest then 128 else 129) else 127) else encodeFlt fmt s m e
  match x with
  | .nan => 0
  | .inf s => big s
  | .fin s m e =>
    if m = 0 then (if fmt = 6 then 0 else if s then 2 ^ (eb + mb) else 0)
    else
      let e := e - ((scale : Int) - 127)
      if fmt = 6 then
        let i := if -6 ≤ e then m * 2 ^ (e + 6).toNat else roundShift m (-6 - e).toNat
        if s then (if i < 128 then (256 - i) % 256 else big true) else min i 127
      else match (Num.fin s m e).round (mb + 1) (1 - (bias : Int)) (2 ^ 20) with
        | .fin s m e =>
          let (lm, le) := mxLargest fmt
          if Num.lt (.fin false lm le) (.fin false m e) then big s else encodeFlt fmt s m e
        | _ => big s

/-! ### Tensors in memory (R199) -/

/-- Element `i` of a tensor whose bytes are `b`: its bits, and its value with the scale of its block. -/
def elemBits (t : Tensor) (b : List Byte) (i : Nat) : Nat :=
  let w := fmtBits t.fmt
  leAt b (i * w / 8) 4 / 2 ^ (i * w % 8) % 2 ^ w

def elemAt (t : Tensor) (b : List Byte) (i : Nat) : Num :=
  let x := decodeElem t.fmt (elemBits t b i)
  if fmtMx t.fmt then
    let sc := leAt b (roundUp t.elemBytes 64 + i / 32) 1
    if sc = 0xFF then .nan
    else match x with
      | .fin s m e => .fin s m (e + ((sc : Int) - 127))
      | x => x
  else x

/-- Element bits packed in storage order (R199). -/
def packBits (w : Nat) (l : List Nat) : List Byte :=
  leBytes (ceilDiv (l.length * w) 8) ((enumFrom 0 l).foldl (fun a e => a + e.2 % 2 ^ w * 2 ^ (w * e.1)) 0)

/-- Values as a format stores them, from element `i0` of the tensor: element bytes, and scale bytes of an MX format. The elements
of a block that holds a NaN are open; `key` names the open values. -/
def packNums (fmt key i0 : Nat) (l : List Num) : List Byte × List Byte :=
  let open_ (i : Nat) : Nat := Config.freeAt key (i0 + i)
  if fmtMx fmt then
    let blocks := (List.range (ceilDiv l.length 32)).map fun k => (l.drop (32 * k)).take 32
    let scales := blocks.map (blockScale fmt)
    let bits := (enumFrom 0 l).map fun e =>
      let sc := scales.getD (e.1 / 32) 0
      if sc = 0xFF then open_ e.1 % 2 ^ fmtBits fmt
      else if sc = 0x7F ∧ (blockTop (blocks.getD (e.1 / 32) [])).isNone then 0
      else mxElem fmt sc e.2
    (packBits (fmtBits fmt) bits, scales.map (BitVec.ofNat 8))
  else (packBits (fmtBits fmt) ((enumFrom 0 l).map fun e => encodeNum fmt (open_ e.1) e.2), [])

/-! ### The hyperbolic tangent (R201) -/

/-- Sum of the terms of e^r from the term `t` on, `n` of them, r and the terms in units of 2^-128; `up` added at each rounding. -/
def expTerms (r up : Nat) : Nat → Nat → Nat → Nat
  | 0, _, t => t
  | n + 1, k, t => t + expTerms r up n (k + 1) (t * r / (2 ^ 128 * k) + up)

/-- Squared `n` times. -/
def squares (up : Nat) : Nat → Nat → Nat
  | 0, v => v
  | n + 1, v => squares up n (v * v / 2 ^ 128 + up)

/-- Bounds of tanh of the positive value m × 2^e. -/
def tanhBounds (m : Nat) (e : Int) : Num × Num :=
  if magLog m e < -16 then (.fin false (m * (2 ^ 40 - 128)) (e - 40), .fin false m e)
  else if 4 ≤ magLog m e then (.fin false (2 ^ 40 - 1) (-40), .fin false 1 0)
  else
    -- (2x / 64) in units of 2^-128
    let d := e + 1 - 6 + 128
    let r := if 0 ≤ d then m * 2 ^ d.toNat else m / 2 ^ (-d).toNat
    let lo := squares 0 6 (expTerms r 0 40 1 (2 ^ 128))
    let hi := squares 1 6 (expTerms (r + 1) 1 40 1 (2 ^ 128) + 1)
    (.fin false ((lo - 2 ^ 128) * 2 ^ 128 / (lo + 2 ^ 128)) (-128), .fin false ((hi - 2 ^ 128) * 2 ^ 128 / (hi + 2 ^ 128) + 1) (-128))

/-- Binary32 bits of a positive value, rounded down. -/
def bitsDown (m : Nat) (e : Int) : Nat :=
  let q := max (magLog m e) (-126) - 23
  let h := if q ≤ e then m * 2 ^ (e - q).toNat else m / 2 ^ (q - e).toNat
  if h < 2 ^ 23 then h else (magLog m e + 126).toNat * 2 ^ 23 + h

/-- A binary32 value that differs from one between two positive bounds by a relative error of at most 2^-20; `v` is open. -/
def within (v : Nat) : Num × Num → Num
  | (.fin _ lm le, .fin _ hm he) =>
    let lo := if lm = 0 then 0 else bitsDown (lm * (2 ^ 20 - 1)) (le - 20)
    let hi := if hm = 0 then 0 else bitsDown (hm * (2 ^ 20 + 1)) (he - 20) + 1
    decodeElem 0x12 (min 0x7F800000 (lo + v % (hi - lo + 1)))
  | _ => .inf false

/-- tanh, with a relative error of at most 2^-20: any binary32 value within it; `v` is open. -/
def tanhNum (v : Nat) : Num → Num
  | .nan => .nan
  | .inf s => .fin s 1 0
  | .fin s m e =>
    if m = 0 then .fin s 0 0
    else
      let x := within v (tanhBounds m e)
      if s then x.neg else x

/-! ### exp, erf and the reciprocal square root (R201) -/

/-- Bounds of e^x of the positive value m × 2^e below 128, in units of 2^-128: 7 squarings of e^(x / 128). -/
def expUnits (m : Nat) (e : Int) : Nat × Nat :=
  let d := e - 7 + 128
  let r := if 0 ≤ d then m * 2 ^ d.toNat else m / 2 ^ (-d).toNat
  (squares 0 7 (expTerms r 0 40 1 (2 ^ 128)), squares 1 7 (expTerms (r + 1) 1 40 1 (2 ^ 128) + 1))

/-- Bounds of e^x, of a negative x where `s`. -/
def expBounds (s : Bool) (m : Nat) (e : Int) : Num × Num :=
  let (lo, hi) := expUnits m e
  if s then (.fin false (2 ^ 400 / hi) (-272), .fin false (2 ^ 400 / lo + 1) (-272))
  else (.fin false lo (-128), .fin false hi (-128))

/-- e^x. Beyond 128 it is past every binary32 value. -/
def expNum (v : Nat) : Num → Num
  | .nan => .nan
  | .inf s => if s then Num.zero else .inf false
  | .fin s m e =>
    if m = 0 then .fin false 1 0
    else if 7 ≤ magLog m e then (if s then Num.zero else .inf false)
    else within v (expBounds s m e)

/-- Sum of the terms of erf's series from the term `t` on, `n` of them: each is the one before times 2 x^2 over the next odd
number. -/
def erfTerms (q up : Nat) : Nat → Nat → Nat → Nat
  | 0, _, t => t
  | n + 1, k, t => t + erfTerms q up n (k + 2) (t * q / (2 ^ 128 * k) + up)

/-- 2 / sqrt(pi) in units of 2^-100, rounded down. -/
def erfUnit : Nat := 1430390528453656073574567464941

/-- Bounds of erf of the positive value m × 2^e: 2 / sqrt(pi) × e^(-x^2) × (x + 2 x^3 / 3 + 4 x^5 / 15 + ...). -/
def erfBounds (m : Nat) (e : Int) : Num × Num :=
  if magLog m e < -16 then (.fin false (m * erfUnit * (2 ^ 30 - 1)) (e - 130), .fin false (m * (erfUnit + 1)) (e - 100))
  else if 2 ≤ magLog m e then (.fin false (2 ^ 25 - 1) (-25), .fin false 1 0)
  else
    let d := e + 128
    let x := if 0 ≤ d then m * 2 ^ d.toNat else m / 2 ^ (-d).toNat
    let q := 2 * x * x / 2 ^ 128
    let p := 2 * (x + 1) * (x + 1) / 2 ^ 128 + 1
    let (lo, hi) := expUnits (m * m) (2 * e)
    (.fin false (erfTerms q 0 160 3 x * erfUnit / hi) (-100),
     .fin false ((erfTerms p 1 160 3 (x + 1) + 1) * (erfUnit + 1) / lo + 1) (-100))

/-- erf. -/
def erfNum (v : Nat) : Num → Num
  | .nan => .nan
  | .inf s => .fin s 1 0
  | .fin s m e =>
    if m = 0 then .fin s 0 0
    else
      let x := within v (erfBounds m e)
      if s then x.neg else x

/-- The integer square root, rounded down: Newton's steps from above. -/
def rootFrom (m : Nat) : Nat → Nat → Nat
  | 0, x => x
  | n + 1, x => let y := (x + m / x) / 2; if y < x then rootFrom m n y else x

/-- The reciprocal square root: of 0 infinity, of a negative value no number. -/
def rsqrtNum (v : Nat) : Num → Num
  | .nan => .nan
  | .inf s => if s then .nan else Num.zero
  | .fin s m e =>
    if m = 0 then .inf s
    else if s then .nan
    else
      let (m, e) := if e % 2 = 0 then (m, e) else (2 * m, e - 1)
      let q := 2 ^ (2 * (Nat.log2 m + 64)) / m
      let x := rootFrom q 200 (2 ^ (Nat.log2 q / 2 + 1))
      let f := -(e / 2) - (Nat.log2 m + 64 : Nat)
      within v (.fin false x f, .fin false (x + 1) f)

/-- The quotient in binary32. -/
def divNum : Num → Num → Num
  | .nan, _ => .nan
  | _, .nan => .nan
  | .inf _, .inf _ => .nan
  | .inf a, .fin t _ _ => .inf (a != t)
  | .fin s _ _, .inf b => .fin (s != b) 0 0
  | .fin s m e, .fin t n f =>
    if n = 0 then (if m = 0 then .nan else .inf (s != t))
    else
      -- a sticky bit below the quotient's 64 bits keeps the rounding right
      let k := 64 + Nat.log2 n
      let q := m * 2 ^ k / n
      fp32 (.fin (s != t) (2 * q + (if m * 2 ^ k % n = 0 then 0 else 1)) (e - f - k - 1))

end Sys2Proof.Machine
end

