-- ==== Sys2Proof/Machine/Audio.lean ====
section
/-! DEFINITION. Audio: what a frame costs, the downmix to mono, the resampling to 16 kHz, gaps, and the chunks an audio graph takes
(R155, R169, R211). -/

namespace Sys2Proof.Machine

/-- The stream core's estimate for a frame, in cycles (R155). -/
def audioCost (f : AudioFrame) : Nat :=
  f.channels * (match f.fmt with
    | .aacLc => 40000
    | .heAac => 40000
    | .ac3 => 30000
    | .layer2 => 20000
    | .layer2Dual => 20000
    | .pcm => 2 * f.samples)

/-- The decoder a format uses: HE-AAC decodes its AAC-LC core. -/
def audioDecoder : AudioFmt → Nat
  | .aacLc => 0
  | .heAac => 0
  | .ac3 => 1
  | .layer2 => 2
  | .layer2Dual => 2
  | .pcm => 3

/-- Sample `i` of channel `c` of a frame. -/
def channelAt (f : AudioFrame) (c i : Nat) : Num := decodeElem 0x12 (Config.audioSample (audioDecoder f.fmt) f.bytes c i % 2 ^ 32)

/-- Half of a value. -/
def Num.half : Num → Num
  | .fin s m e => .fin s m (e - 1)
  | x => x

/-- Sample `i` of a frame in mono: the first channel of dual-channel Layer II, the mean of L and R, BS.775 of 5.1 without
its LFE channel, which stands fourth. -/
def monoAt (f : AudioFrame) (i : Nat) : Num :=
  if f.fmt = .layer2Dual ∨ f.channels ≤ 1 then channelAt f 0 i
  else if f.channels = 2 then ((channelAt f 0 i).add (channelAt f 1 i)).half
  else ((List.range f.channels).filter (· != 3)).foldl (fun a c =>
    a.add ((decodeElem 0x12 (Config.bs775 c % 2 ^ 32)).mul (channelAt f c i))) Num.zero

/-- Number of the source sample at a time. -/
def sourceIndex (rate t : Nat) : Nat := t * rate / 90000

/-- The decodable frame that holds source sample `j`. -/
def frameHolding (l : List AudioFrame) (j : Nat) : Option AudioFrame :=
  l.find? fun f => f.ok && decide (sourceIndex f.rate f.time ≤ j) && decide (j < sourceIndex f.rate f.time + f.samples)

/-- Source rate of the audio. -/
def audioRate (l : List AudioFrame) : Nat := match l with | f :: _ => f.rate | [] => 16000

/-- Source sample `j`; silence in a gap. -/
def sourceAt (l : List AudioFrame) (j : Nat) : Num :=
  match frameHolding l j with
  | some f => monoAt f (j - sourceIndex f.rate f.time)
  | none => Num.zero

/-- Source position of 16 kHz sample `n` of a span that starts at `start`, in 1 / (16,000 × 90,000) source samples. -/
def sourcePos (rate start n : Nat) : Nat := (start * 16000 + n * 90000) * rate

/-- Sample `n` of the span at 16 kHz: 32 taps of the phase, in binary32. -/
def resampled (l : List AudioFrame) (start n : Nat) : Num :=
  let r := audioRate l
  let p := sourcePos r start n
  let unit := 16000 * 90000
  fp32 ((List.range 32).foldl (fun a k =>
    let j := p / unit + k
    if j < 15 then a
    else a.add ((decodeElem 0x12 (Config.audioTap r (p % unit) k % 2 ^ 32)).mul (sourceAt l (j - 15)))) Num.zero)

/-- Samples of a span of `d` 90 kHz units at 16 kHz. -/
def spanSamples (d : Nat) : Nat := d * 16000 / 90000

/-- A source sample of the span is in no decodable frame: an audio gap (R169). -/
def audioGap (l : List AudioFrame) (start till : Nat) : Bool :=
  let r := audioRate l
  let covered : Nat → Nat → Bool := fun fuel j => cover l (sourceIndex r till) fuel j
  !covered (l.length + 1) (sourceIndex r start)
where
  /-- The frames cover the source samples from `j` to `stop`. -/
  cover (l : List AudioFrame) (stop : Nat) : Nat → Nat → Bool
    | 0, j => decide (stop ≤ j)
    | n + 1, j => decide (stop ≤ j) || (match frameHolding l j with
      | some f => cover l stop n (sourceIndex f.rate f.time + f.samples)
      | none => false)

/-- Chunk `c` of a span, of `n` samples: binary32 samples, zeros past the span's end (R211). `key` names the bits of a
NaN. -/
def audioChunk (key : Nat) (l : List AudioFrame) (start till n c : Nat) : List Byte :=
  let count := spanSamples (till - start)
  (List.range n).flatMap fun i =>
    leBytes 4 (if c * n + i < count then encodeNum 0x12 (Config.freeAt key i) (resampled l start (c * n + i)) else 0)

end Sys2Proof.Machine
end

