-- ==== Sys2Proof/Machine/Captions.lean ====
section
/-! DEFINITION. Caption spans: the service extracted, the text in UTF-8, and the spans of one display (R154). -/

namespace Sys2Proof.Machine

/-- A code point in UTF-8. -/
def utf8 (c : Nat) : List Byte :=
  if c < 0x80 then leBytes 1 c
  else if c < 0x800 then leBytes 1 (0xC0 + c / 64) ++ leBytes 1 (0x80 + c % 64)
  else if c < 0x10000 then leBytes 1 (0xE0 + c / 4096) ++ leBytes 1 (0x80 + c / 64 % 64) ++ leBytes 1 (0x80 + c % 64)
  else leBytes 1 (0xF0 + c / 262144) ++ leBytes 1 (0x80 + c / 4096 % 64) ++ leBytes 1 (0x80 + c / 64 % 64) ++
    leBytes 1 (0x80 + c % 64)

/-- A character: precomposed wherever Unicode defines it so, else the base and its mark. -/
def capUtf8 (set : Nat) (c : CapChar) : List Byte :=
  let base := Config.capChar set c.code
  if c.mark = 0 then utf8 base
  else match Config.precomposed base (Config.capMark set c.mark) with
    | some p => utf8 p
    | none => utf8 base ++ utf8 (Config.capMark set c.mark)

/-- The display of a service ends at `t`: its text becomes a span. -/
def endDisplay (m : Media) (source t : Nat) : Media :=
  { m with
    spans := m.spans ++ (m.showing.filter fun x => x.source == source).map fun x => { x with till := t }
    showing := m.showing.filter fun x => x.source != source }

/-- A caption event: text appears until it is erased or replaced; a completed row of roll-up mode is a span of its own. Teletext
comes from the chosen page alone. -/
def capEvent (m : Media) (e : CapEvent) : Media :=
  if e.source = 3 ∧ ((m.sel.map (·.text)).join).isNone then m
  else
    let text (l : List CapChar) : List Byte := l.flatMap (capUtf8 e.set)
    match e.text, e.till with
    | none, _ => endDisplay m e.source e.time
    | some l, some t => { m with spans := m.spans ++ [{ source := e.source, start := e.time, till := t, text := text l }] }
    | some l, none =>
      let m := endDisplay m e.source e.time
      { m with showing := m.showing ++ [{ source := e.source, start := e.time, till := e.time, text := text l }] }

/-- CEA-708 service 1 is present: CEA-608 is then not used. -/
def has708 (m : Media) : Bool := (m.spans ++ m.showing).any fun x => x.source == 2

/-- The spans of a sample: those of the service used that overlap its audio span (R120). -/
def spansIn (m : Media) (start till : Nat) : List CapSpan :=
  m.spans.filter fun x => !(x.source == 1 && has708 m) && decide (x.start < till) && decide (start < x.till)

end Sys2Proof.Machine
end

