-- ==== Sys2Proof/Machine/Containers.lean ====
section
/-! DEFINITION. Containers and codec support: the streams a shard offers and those the device uses (R147, R148, R151, R152),
profiles and levels (R156), what makes a shard unsupported (R158), and the report of a probe (R195). -/

namespace Sys2Proof.Machine

/-! ### Streams (R147) -/

/-- Codec code of R181 of a stream type of a transport stream; none for another. -/
def tsVideo (x : TsStream) : Option Nat :=
  if x.ty = 0x02 then some 1 else if x.ty = 0x1B then some 2 else if x.ty = 0x24 then some 3
  else if x.ty = 0x33 then some 4 else none

/-- A supported audio stream of a transport stream. -/
def tsAudio (x : TsStream) : Bool :=
  ((x.ty == 0x03 || x.ty == 0x04 || x.ty == 0x0F) && x.form) || x.ty == 0x81 || (x.ty == 0x06 && x.tags.contains 0x6A)

/-- A teletext stream that names a subtitle page, of type 0x02 or 0x05 (R148). -/
def tsText (x : TsStream) : Bool := x.ty == 0x06 && x.tags.contains 0x56 && x.pages.any fun p => p == 2 || p == 5

/-- Codec code of a sample entry of ISO BMFF. -/
def bmffVideo (x : BmffTrack) : Option Nat :=
  if x.entry = "avc1" ∨ x.entry = "avc3" then some 2 else if x.entry = "hvc1" ∨ x.entry = "hev1" then some 3
  else if x.entry = "vvc1" ∨ x.entry = "vvi1" then some 4 else if x.entry = "av01" then some 5 else none

/-- A supported audio track of ISO BMFF. -/
def bmffAudio (x : BmffTrack) : Bool :=
  (x.entry == "mp4a" && x.aacLc) || x.entry == "ac-3" || x.entry == "lpcm" || x.entry == "sowt" || x.entry == "twos"

/-- A supported picture track of MXF. -/
def mxfVideo (c : Nat) : Option Nat := if c = 1 ∨ c = 2 then some c else none

/-- The first element that `f` maps to something, with its position. -/
def firstMap {α β : Type} (f : α → Option β) (l : List α) : Option (Nat × β) :=
  (enumFrom 0 l).findSome? fun e => (f e.2).map fun v => (e.1, v)

/-- The stream AUDIO_SEL picks among the supported ones, which stand at `l`: 0xFF picks the first (R116, R148). -/
def pickAudio (sel : Nat) (l : List Nat) : Option Nat := l[if sel = 0xFF then 0 else sel]?

/-- The first program whose PMT lists a supported video stream, and its streams in use (R148). -/
def tsSel (audioSel : Nat) (programs : List TsProgram) : Option Sel :=
  (firstMap (fun p => firstMap tsVideo p.streams) programs).bind fun e =>
    (programs[e.1]?).bind fun p => (p.streams[e.2.1]?).map fun v =>
      let audio := p.streams.filter tsAudio
      { container := 1, video := v.pid, codec := e.2.2, audio := pickAudio audioSel (audio.map (·.pid))
        text := (p.streams.find? tsText).map (·.pid), pcr := some p.pcrPid, audios := audio.length, start := 0 }

/-- Where the first non-empty edit of an edit list starts in the media; the edits after it are ignored (R151). -/
def editStart (x : BmffTrack) : Int := (x.edits.findSome? id).getD 0

/-- The first video track with a supported sample entry, and the audio track picked (R151). -/
def bmffSel (audioSel : Nat) (tracks : List BmffTrack) : Option Sel :=
  (firstMap bmffVideo tracks).bind fun e => (tracks[e.1]?).map fun v =>
    let audio := ((enumFrom 0 tracks).filter fun t => bmffAudio t.2).map (·.1)
    { container := 2, video := e.1, codec := e.2, audio := pickAudio audioSel audio, text := none, pcr := none
      audios := audio.length, start := editStart v }

/-- The partition whose header metadata is used: the last closed one that carries it complete (R152). -/
def mxfPart (parts : List MxfPart) : Option MxfPart := (parts.filter fun p => p.closed && p.complete).getLast?

/-- Frame-wrapped essence, or clip-wrapped essence with an index table (R152). -/
def mxfSel (audioSel : Nat) (parts : List MxfPart) : Option Sel :=
  (mxfPart parts).bind fun p =>
    if p.clip ∧ ¬ p.index then none
    else (firstMap mxfVideo p.video).map fun e =>
      let audio := ((enumFrom 0 p.audio).filter fun t => t.2).map (·.1)
      { container := 3, video := e.1, codec := e.2, audio := pickAudio audioSel audio, text := none, pcr := none
        audios := audio.length, start := 0 }

/-- The container found, as R116 codes it; 0 for a form that R147 to R152 exclude. -/
def containerOf : Layout → Nat
  | .unknown => 0
  | .ts packet _ => if packet = 188 then 1 else 0
  | .bmff box _ => if box ≤ 2 ^ 24 then 2 else 0
  | .mxf op1a parts => match mxfPart parts with
    | some p => if op1a ∧ (p.index ∨ ¬ p.clip) then 3 else 0
    | none => 0

/-- The streams the device uses, for a set whose descriptor names `want` as its CONTAINER, 0 to detect it. -/
def selectStreams (want audioSel : Nat) (l : Layout) : Option Sel :=
  if containerOf l = 0 ∨ (want ≠ 0 ∧ want ≠ containerOf l) then none
  else match l with
    | .unknown => none
    | .ts _ programs => tsSel audioSel programs
    | .bmff _ tracks => bmffSel audioSel tracks
    | .mxf _ parts => mxfSel audioSel parts

/-! ### Codecs (R156, R158) -/

/-- Profiles of a codec code, and the highest level of each, times 10. -/
def codecProfiles : Nat → List VideoProfile
  | 1 => [.mp, .p422]
  | 2 => [.cBaseline, .main, .high, .high10, .high10Intra, .high422Intra]
  | 3 => [.main, .main10, .main42210]
  | 4 => [.main10]
  | 5 => [.main]
  | _ => []

def codecLevel (codec : Nat) : Nat := [0, 40, 52, 62, 52, 60].getD codec 0

/-- Profile, level and tools are within R156. -/
def codecSupported (codec : Nat) (v : VideoHdr) : Bool :=
  (codecProfiles codec).contains v.profile && decide (v.level ≤ codecLevel codec) && !v.baselineTool

/-- The picture is within the limits of R158. -/
def sizeSupported (w h : Nat) : Bool := decide (w ≤ 16888) && decide (h ≤ 16888) && decide (w * h ≤ 35651584)

/-- The streams of a shard that is supported; none for one that R158 excludes. -/
def shardSel (want audioSel : Nat) (i : ShardInfo) : Option Sel :=
  match selectStreams want audioSel i.layout, i.video with
  | some x, some v => if codecSupported x.codec v ∧ sizeSupported v.width v.height then some x else none
  | _, _ => none

/-! ### The probe's report (R195) -/

/-- A container stream gives timecode: the header metadata's or system items', a tmcd track. -/
def layoutTimecode : Layout → Bool
  | .bmff _ tracks => tracks.any fun t => t.entry == "tmcd"
  | .mxf _ parts => ((mxfPart parts).map (·.timecode)).getD false
  | _ => false

/-- Captions in tracks of their own: c608 and c708. -/
def layoutCaptions : Layout → Bool
  | .bmff _ tracks => tracks.any fun t => t.entry == "c608" || t.entry == "c708"
  | _ => false

/-- The 64 bytes of a report: all zero where no container was found. -/
def probeReport (want : Nat) (i : ShardInfo) : List Byte :=
  let c := containerOf i.layout
  if c = 0 then List.replicate 64 0
  else
    let x := selectStreams 0 0xFF i.layout
    let flags := (if (i.video.map (·.interlaced)).getD false then 1 else 0) +
      (if i.tcDrop.isSome || layoutTimecode i.layout then 2 else 0) + (if i.captions || layoutCaptions i.layout then 4 else 0) +
      (if ((x.map (·.text)).join).isSome then 8 else 0)
    let v (f : VideoHdr → Nat) : Nat := (i.video.map f).getD 0
    let (num, den) := i.rate.getD (0, 0)
    leBytes 1 (if (shardSel want 0xFF i).isSome then 1 else 0) ++ leBytes 1 c ++ leBytes 1 ((x.map (·.codec)).getD 0) ++
      leBytes 1 (v (·.profileIdc)) ++ leBytes 2 (v (·.levelIdc)) ++ leBytes 1 (v (·.srcFmt)) ++ leBytes 1 flags ++
      leBytes 2 (v (·.width)) ++ leBytes 2 (v (·.height)) ++ leBytes 4 num ++ leBytes 4 den ++ leBytes 8 i.dur ++
      leBytes 1 (min 255 ((x.map (·.audios)).getD 0)) ++ List.replicate 35 0

end Sys2Proof.Machine
end

