-- ==== Sys2Proof/Machine/Flags.lean ====
section
/-! DEFINITION. The flags of the Ilesh cores and the arithmetic that sets them: binary (R238), shifts, decimal (R239 to
R241), and the conditions (R236). -/

namespace Sys2Proof.Machine

abbrev fC : Nat := 0
abbrev fZ : Nat := 1
abbrev fN : Nat := 2
abbrev fV : Nat := 3
abbrev fH : Nat := 4
abbrev fDC : Nat := 5
abbrev fBI : Nat := 6
abbrev fIE : Nat := 8
abbrev fEXL : Nat := 9

/-- FLAGS with bit `i` set to `b`. -/
def flagSet (f i : Nat) (b : Bool) : Nat := withBits f i 1 (if b then 1 else 0)

/-- Bits of an operand width: 64, 32, 16 or 8 (R233). -/
def widthBits (w : Nat) : Nat := if w = 0 then 64 else if w = 1 then 32 else if w = 2 then 16 else 8

/-- Top bit of an n-bit value. -/
def topBit (n v : Nat) : Bool := bitOf v (n - 1)

/-- Z and N of a result. -/
def setZN (n r f : Nat) : Nat := flagSet (flagSet f fZ (r == 0)) fN (topBit n r)

/-- ADD or ADC at `n` bits: result and flags (R238). -/
def aluAdd (n a b cin f : Nat) : Nat × Nat :=
  let r := (a + b + cin) % 2 ^ n
  let v := topBit n a == topBit n b && topBit n r != topBit n a
  let f := flagSet f fC (decide (2 ^ n ≤ a + b + cin))
  let f := flagSet f fH (decide (16 ≤ a % 16 + b % 16 + cin))
  (r, setZN n r (flagSet f fV v))

/-- SUB, SBB or CMP at `n` bits (R238). -/
def aluSub (n a b cin f : Nat) : Nat × Nat :=
  let r := (a + 2 * 2 ^ n - b - cin) % 2 ^ n
  let v := topBit n a != topBit n b && topBit n r != topBit n a
  let f := flagSet f fC (decide (a < b + cin))
  let f := flagSet f fH (decide (a % 16 < b % 16 + cin))
  (r, setZN n r (flagSet f fV v))

/-- AND, OR, XOR, TST: Z and N of the result, C and V cleared. -/
def aluLogic (n r f : Nat) : Nat × Nat := (r, setZN n r (flagSet (flagSet f fC false) fV false))

/-- An n-bit value as a signed number. -/
def signed (n v : Nat) : Int := if topBit n v then (v : Int) - 2 ^ n else v

/-- Kinds of shift. -/
inductive ShiftKind where
  | shl | shr | sar | rol
  deriving DecidableEq, Repr

/-- A shift or rotate by `k` below `n`: result and last bit out. With k = 0 no bit goes out, and `free` stands for the
carry the manual does not state. -/
def aluShift (kind : ShiftKind) (n a k : Nat) (free : Bool) : Nat × Bool :=
  let r := match kind with
    | .shl => a * 2 ^ k % 2 ^ n
    | .shr => a / 2 ^ k
    | .sar => (signed n a / (2 ^ k : Nat) % (2 ^ n : Nat)).toNat
    | .rol => a * 2 ^ k % 2 ^ n + a / 2 ^ (n - k)
  let out := match kind with
    | .shl => bitOf a (n - k)
    | .shr => bitOf a (k - 1)
    | .sar => bitOf a (k - 1)
    | .rol => bitOf a (n - k)
  (if k = 0 then a else r, if k = 0 then free else out)

/-- Truncating signed division of n-bit values: quotient and remainder as n-bit values; the quotient of the most negative
value by −1 does not fit and is `free`. -/
def aluDivS (n a b free : Nat) : Nat × Nat :=
  let q := Int.tdiv (signed n a) (signed n b)
  let r := Int.tmod (signed n a) (signed n b)
  (if a = 2 ^ (n - 1) ∧ b = 2 ^ n - 1 then free % 2 ^ n else (q % (2 ^ n : Nat)).toNat, (r % (2 ^ n : Nat)).toNat)

/-- The condition codes of R236. -/
def condHolds (code f : Nat) : Bool :=
  let c := bitOf f fC
  let z := bitOf f fZ
  let n := bitOf f fN
  let v := bitOf f fV
  let base := match code / 2 with
    | 0 => z
    | 1 => c
    | 2 => c || z
    | 3 => n != v
    | 4 => z || n != v
    | 5 => n
    | 6 => v
    | _ => bitOf f fDC
  if code % 2 = 0 then base else !base

/-- DAA and DAS on the low byte (R239): the byte and the flags. -/
def daaDas (a f : Nat) (subtract : Bool) : Nat × Nat :=
  let c := bitOf f fC
  let low := bitOf f fH || decide (9 < a % 16)
  let high := c || decide (0x99 < a)
  let corr := (if low then 6 else 0) + (if high then 0x60 else 0)
  let r := if subtract then (a + 256 - corr) % 256 else (a + corr) % 256
  (r, flagSet (flagSet (flagSet (flagSet f fC high) fDC high) fZ (r == 0)) fH false)

/-- Digit `i` of packed BCD. -/
def digit (v i : Nat) : Nat := bitsOf v (4 * i) 4

/-- Every one of `n` digits is 9 or less. -/
def bcdOk (n v : Nat) : Bool := (List.range n).all fun i => decide (digit v i ≤ 9)

/-- bcd_op of R240 from digit `i` on, `n` digits left, carry `k`: result, carry out, and the carry at digit 0. -/
def bcdLoop (d s : Nat) (subtract : Bool) : Nat → Nat → Nat → Nat × Nat
  | 0, _, k => (0, k)
  | n + 1, i, k =>
    let t : Int := if subtract then (digit d i : Int) - digit s i - k else (digit d i : Int) + digit s i + k
    let k' : Nat := if subtract then (if t < 0 then 1 else 0) else if 9 < t then 1 else 0
    let t' : Nat := (if subtract then (if t < 0 then t + 10 else t) else if 9 < t then t - 10 else t).toNat
    let (r, c) := bcdLoop d s subtract n (i + 1) k'
    (t' * 16 ^ i + r, c)

/-- Packed BCD addition or subtraction of `n` digits: result, decimal carry, half carry (R240). -/
def bcdOp (n d s : Nat) (subtract : Bool) (cin : Nat) : Nat × Nat × Nat :=
  let (r, k) := bcdLoop d s subtract n 0 cin
  let (_, h) := bcdLoop d s subtract 1 0 cin
  (r, k, h)

/-- Packed BCD of `n` digits of a binary value. -/
def toBcd : Nat → Nat → Nat
  | 0, _ => 0
  | n + 1, v => v % 10 + 16 * toBcd n (v / 10)

/-- The binary value of `n` packed digits. -/
def ofBcd : Nat → Nat → Nat
  | 0, _ => 0
  | n + 1, v => v % 16 + 10 * ofBcd n (v / 16)

end Sys2Proof.Machine
end

