-- ==== Sys2Proof/Machine/Cores.lean ====
section
/-! DEFINITION. Ilesh cores: access to a core, interrupt lines (R260, R572), region checks (R253), memory reads by a core,
exception entry (R259), core stop (R262), sleep and wake (R260, R266). -/

namespace Sys2Proof.Machine

def getCore (s : State) (i : Nat) : Core := s.cores.getD i (Core.reset .held)

def putCore (i : Nat) (c : Core) (s : State) : State := { s with cores := s.cores.set i c }

def isStream (i : Nat) : Bool := decide (i < 32)
def isDeck (i : Nat) : Bool := decide (32 ≤ i) && decide (i < 36)

/-- The main domain is powered; a shutdown takes the tiles, SerDes, tensor units, LPDDR5X and fabric off (R54). -/
def mainOn (s : State) : Bool :=
  match s.power.phase with
  | .inReset => true
  | .running => true
  | _ => false

/-! ### Interrupt lines -/

/-- A page shows an enabled pennant. -/
def pennActive (s : State) (p : Page) : Bool := reg s p R.PENNANT &&& reg s p R.PENNANT_EN != 0

/-- Pages that show a set pennant bit in a listed register. -/
def pennPages (s : State) : List Page :=
  s.regs.filterMap fun e => if e.1 % 0x1000 = R.PENNANT then (pageOf e.1).bind fun p =>
    if pennActive s p then some p else none else none

/-- The deck core whose compartments own a page type (R571). -/
def deckOwner : PageType → Option Nat
  | .nvme => some 0 | .ftl => some 0 | .fch => some 0 | .ciph => some 0
  | .rmt => some 1 | .egs => some 1 | .eth => some 1 | .feed => some 1 | .link => some 1
  | .ckpt => some 2 | .pair => some 2
  | .glb => some 3 | .func => some 3 | .tile => some 3 | .ten => some 3 | .perf => some 3 | .host => some 3
  | _ => none

/-- A doorbell of a queue that a deck core serves waits: NVMe queues are D0's, RMT queues D1's, service queues D3's (R571,
R572). -/
def deckDoorbell (s : State) (d : Nat) : Bool :=
  if d = 0 then s.nvme.ctrls.any fun e => e.2.sqs.any fun q => q.2.head != q.2.tail
  else if d = 1 then s.rmt.qps.any fun e => e.2.sqNext != e.2.sqTail || e.2.rqNext != e.2.rqTail
  else if d = 3 then s.pairs.any fun e => e.2.sqHead != e.2.sqTail
  else false

/-- IPEND of a core: the latched lines, and the lines that follow their source. -/
def ipendOf (s : State) (i : Nat) : Nat :=
  let c := getCore s i
  let bit (b : Nat) (on : Bool) : Nat := if on then 2 ^ b else 0
  let live :=
    if i < 32 then
      bit 1 ((mgetD s.media.results i []) != []) +
      bit 2 (pennActive s (pTILE i) && fld s (pTILE i) R.BLK_CTL 16 2 != 0)
    else if i < 36 then
      bit 1 (deckDoorbell s (i - 32)) + bit 2 ((pennPages s).any fun p => deckOwner p.ty == some (i - 32))
    else bit 2 ((pennPages s).any fun p => decide (2 ≤ fld s p R.BLK_CTL 16 2))
  c.ipend ||| live

/-- A pending enabled line. -/
def linePending (s : State) (i : Nat) : Bool := ipendOf s i &&& (getCore s i).imask != 0

/-- Latches a line of a core. -/
def raiseLine (i line : Nat) (s : State) : State :=
  let c := getCore s i
  putCore i { c with ipend := withBits c.ipend line 1 1 } s

/-! ### Sleep and wake -/

/-- The three conditions of WAIT as they stand (R266). -/
def waitConds (s : State) (i : Nat) (edge : Bool) : Nat :=
  let ring := (mgetD s.media.results i []) != []
  (if edge then 1 else 0) + (if ring then 2 else 0) + (if linePending s i then 4 else 0)

def setG (c : Core) (d v : Nat) : Core := { c with g := c.g.set (d % 16) (BitVec.ofNat 64 v) }
def gReg (c : Core) (d : Nat) : Nat := (c.g.getD (d % 16) 0).toNat

/-- A sleeping core goes on when what it waits for holds (R260, R266). -/
def wakeCore (i : Nat) (s : State) : State :=
  let c := getCore s i
  match c.act with
  | .wfi next => if linePending s i then putCore i { c with act := .running, pc := next } s else s
  | .wait d m next edge =>
    let w := waitConds s i edge
    if w &&& m = 0 then s else putCore i { setG c d w with act := .running, pc := next } s
  | _ => s

/-! ### Memory as a core sees it -/

/-- Pages a core kind reaches (R229): a stream core its own tile's, the others every page. -/
def corePages (i off : Nat) : Bool :=
  if i < 32 then
    match pageOf off with
    | some p => (p.ty == .tile || p.ty == .dec || p.ty == .shp || p.ty == .ten || p.ty == .sramt) && p.inst == i
    | none => false
  else true

def place (s : State) (i a : Nat) : Place := placeOf i (mainOn s) (corePages i) a

/-- One byte as a core reads normal memory; nothing is read elsewhere. -/
def coreByte (s : State) (i a : Nat) : Byte :=
  match place s i a with
  | .normal k => memGet s.mem k
  | .rom w o => romByte w o
  | _ => 0

def coreBytes (s : State) (i a n : Nat) : List Byte := (List.range n).map fun k => coreByte s i (a + k)

/-- Every byte of an access has a meaning for the core kind. -/
def mapped (s : State) (i a n : Nat) : Bool :=
  place s i a != .none && place s i (a + n - 1) != .none && decide (a + n ≤ 2 ^ 64)

/-- What an access asks of a region. -/
structure Need where
  rd : Bool
  w : Bool
  x : Bool
  deriving DecidableEq, Repr

def covers (r : Region) (a n : Nat) : Bool := decide (r.base * 4096 ≤ a) && decide (a + n ≤ (r.last + 1) * 4096)

def touches (r : Region) (a n : Nat) : Bool := decide (r.base * 4096 < a + n) && decide (a < (r.last + 1) * 4096)

def grants (r : Region) (q : Need) : Bool := !r.spill && (!q.rd || r.rd) && (!q.w || r.w) && (!q.x || r.x)

/-- R253: none when allowed, else the sub-code. -/
def regionRefuses (c : Core) (q : Need) (a n : Nat) : Option Nat :=
  if ¬ bitOf c.cctl 2 then none
  else if c.regions.any fun r => covers r a n && grants r q then none
  else if c.regions.any fun r => r.spill && touches r a n then some 2
  else some 0

/-- A region table entry; none when not valid, reserved bits are set, or LAST is below BASE (R251, R252). -/
def regionOf (lo hi : Nat) : Option Region :=
  let base := bitsOf lo 12 36
  let last := bitsOf hi 12 36
  if ¬ bitOf lo 4 ∨ bitsOf lo 48 16 ≠ 0 ∨ bitsOf lo 5 7 ≠ 0 ∨ bitsOf hi 48 16 ≠ 0 ∨ bitsOf hi 0 12 ≠ 0 ∨ last < base then none
  else some { base := base, last := last, rd := bitOf lo 0, w := bitOf lo 1, x := bitOf lo 2, spill := bitOf lo 3 }

/-- The valid entries of a compartment's table in memory (R251, R252). -/
def readRegions (s : State) (i : Nat) (c : Core) (cmp : Nat) : List Region :=
  (List.range 16).filterMap fun k =>
    let b := coreBytes s i (c.rtb + 256 * cmp + 16 * k) 16
    regionOf (leAt b 0 8) (leAt b 8 8)

/-- The core enters a compartment and reads its region table (R252). -/
def enterCmp (s : State) (i cmp : Nat) (c : Core) : Core := { c with cmp := cmp, regions := readRegions s i c cmp }

/-- A core stops and holds its registers (R262). -/
def stopCore (i cause : Nat) (s : State) : State := putCore i { getCore s i with act := .stopped cause } s

/-- Exception entry (R259, R268): with EVB not yet written the exception vectors into the boot ROM, whose handler stops the
core. -/
def enterException (i cause sub info epc : Nat) (s : State) : State :=
  let c := getCore s i
  if bitOf c.flags fEXL then stopCore i cause s
  else
    let c := { c with
      epc := epc, eflags := c.flags, ecmp := c.cmp, ecause := sub * 256 + cause, einfo := info
      flags := flagSet (flagSet c.flags fEXL true) fIE false
      pc := (c.evb.getD romBase) + 0x40 * cause }
    let s := putCore i (enterCmp s i 0 c) s
    if c.evb.isNone then stopCore i cause s else s

/-- R267: a core is reset. A stream core's engine queues and result ring empty with it. -/
def resetCore (i : Nat) (act : Activity) (s : State) : State :=
  let s := putCore i (Core.reset act) { s with intg := { s.intg with answered := s.intg.answered.filter (· != i) } }
  if i < 32 then
    { s with media := { s.media with
      engines := s.media.engines.filter fun e => e.1 / 4 != i
      results := s.media.results.filter fun e => e.1 != i } }
  else s

end Sys2Proof.Machine
end

