-- ==== Sys2Proof/Machine/Timecode.lean ====
section
/-! DEFINITION. SMPTE timecode labels: the rates of R242, validity (R243), frame index and label (R244), shared by the
timecode instructions and by ingest (R153, R601, R132). -/

namespace Sys2Proof.Machine

/-- Nominal frames per second of a rate code (R242). -/
def tcN (rate : Nat) : Nat := [24, 25, 30, 30, 48, 50, 60, 60].getD rate 24

/-- Frames dropped per minute (R242). -/
def tcG (rate : Nat) : Nat := if rate = 3 then 2 else if rate = 7 then 4 else 0

/-- Frames in 24 hours (R242). -/
def tcDay (rate : Nat) : Nat :=
  [2073600, 2160000, 2592000, 2589408, 4147200, 4320000, 5184000, 5178816].getD rate 2073600

/-- Two BCD digits. -/
def bcd2 (b : Nat) : Nat := b / 16 * 10 + b % 16

def toBcd2 (n : Nat) : Nat := n / 10 * 16 + n % 10

/-- Hours, minutes, seconds, frames of a packed label (R132). -/
def tcParts (l : Nat) : Nat × Nat × Nat × Nat :=
  (bcd2 (bitsOf l 24 8), bcd2 (bitsOf l 16 8), bcd2 (bitsOf l 8 8), bcd2 (bitsOf l 0 8))

/-- All eight digits are 9 or less. -/
def tcDigitsOk (l : Nat) : Bool := (List.range 8).all fun i => decide (bitsOf l (4 * i) 4 ≤ 9)

/-- R243. -/
def tcValid (rate l : Nat) : Bool :=
  let (h, m, s, f) := tcParts l
  tcDigitsOk l && decide (h ≤ 23) && decide (m ≤ 59) && decide (s ≤ 59) && decide (f < tcN rate) &&
    !(decide (f < tcG rate) && s == 0 && m % 10 != 0)

/-- The frame index of a valid label (R244). -/
def tcIndex (rate l : Nat) : Nat :=
  let (h, m, s, f) := tcParts l
  let tm := 60 * h + m
  (3600 * h + 60 * m + s) * tcN rate + f - tcG rate * (tm - tm / 10)

/-- The packed label of a frame index (R244). -/
def tcLabelOf (rate i : Nat) : Nat :=
  let n := tcN rate
  let g := tcG rate
  let i := if 0 < g then
      let ten := 600 * n - 9 * g
      let q := i / ten
      let r := i % ten
      let i := i + 9 * g * q
      if g ≤ r then i + g * ((r - g) / (60 * n - g)) else i
    else i
  let t := i / n
  toBcd2 (t / 3600) * 2 ^ 24 + toBcd2 (t / 60 % 60) * 2 ^ 16 + toBcd2 (t % 60) * 2 ^ 8 + toBcd2 (i % n)

/-- The frame rate a code counts at, as a fraction: 30,000/1,001 and 60,000/1,001 for the drop-frame codes (R242, R601). -/
def tcRateFrac (rate : Nat) : Nat × Nat :=
  if rate = 3 then (30000, 1001) else if rate = 7 then (60000, 1001) else (tcN rate, 1)

/-- The rate code with nominal count `n`, non-drop. -/
def tcCodeOf (n : Nat) : Option Nat :=
  if n = 24 then some 0 else if n = 25 then some 1 else if n = 30 then some 2 else if n = 48 then some 4
  else if n = 50 then some 5 else if n = 60 then some 6 else none

/-- The rate R601 chooses from the declared rate and the drop-frame flag of the timecode source, if one is present; and
whether the container's and stream's timecode may be used. -/
def tcChoose (declared : Option (Nat × Nat)) (source : Option Bool) : Nat × Bool :=
  match declared with
  | none => (1, false)
  | some (a, b) =>
    if b = 0 then (1, false)
    else match tcCodeOf (roundDiv a b) with
      | none => (1, false)
      | some c =>
        let ntsc : Bool := a * 1001 == 30000 * b || a * 1001 == 60000 * b
        let drop : Bool := source.getD ntsc
        (if drop ∧ (c = 2 ∨ c = 6) then c + 1 else c, true)

/-- The derived label of a presentation time, counted from 00:00:00:00 at the shard's first one (R132). -/
def tcDerived (rate t : Nat) : Nat :=
  let (a, b) := tcRateFrac rate
  tcLabelOf rate (t * a / (90000 * b) % tcDay rate)

end Sys2Proof.Machine
end

