-- ==== Sys2Proof/Machine/Engines.lean ====
section
/-! DEFINITION. What the engines of a tile share: queues, budgets and results (R126, R181, R183, R184, R263, R265), the
regions of the SRAM slice (R205), its error words (R206), and token records (R132). -/

namespace Sys2Proof.Machine

def Engine.idle : Engine := { queue := [], start := 0, late := false, stall := 0 }

def engKey (tile e : Nat) : Nat := tile * 4 + e

def getEng (s : State) (tile e : Nat) : Engine := mgetD s.media.engines (engKey tile e) Engine.idle

def putEng (tile e : Nat) (x : Engine) (s : State) : State :=
  { s with media := { s.media with engines := mputD s.media.engines (engKey tile e) Engine.idle x } }

/-- The page of an engine: decode slice, frame shaper, tensor block. -/
def engPage (tile e : Nat) : Page := if e = 1 then pDEC tile else if e = 2 then pSHP tile else pTEN tile

/-- The tile clock is stopped for work that a fence or a disabled page shuts out (R89). -/
def engAccepts (s : State) (tile e : Nat) : Bool :=
  let ok (p : Page) : Bool := blkState s p == 1 || blkState s p == 2 || blkState s p == 0x80 || blkState s p == 0x81
  decide (tile < 32) && ok (engPage tile e) && ok (pTILE tile)

/-- The base budget of a tile (R69): BUDGET_PCT is clamped to 50 to 100. -/
def basePct (s : State) : Nat := max 50 (min 100 (fld s pTICK R.TICK.PERIOD 16 8))

def baseBudget (s : State) : Nat := s.tick.period * Config.tileMhz * basePct s / 100

def budgetOf (s : State) (tile e : Nat) : Int := s.tick.budget.getD (engKey tile e) 0

/-- What an item's cycles in the tick charge to the budget: a stretched cycle counts twice (R71). -/
def chargedCycles (c : Cycles) : Nat := c.used + min c.slow c.used

/-- What they add to the carry. -/
def carriedCycles (c : Cycles) : Nat := c.after + min (c.slow - c.used) c.after

/-- Cycles of work, whatever the clock: what a limit is held against (R178, R217). -/
def workCycles (c : Cycles) : Nat := c.used + c.after

def chargeBudget (tile e cycles : Nat) (s : State) : State :=
  { s with tick := { s.tick with budget := s.tick.budget.set (engKey tile e) (budgetOf s tile e - cycles) } }

/-- Cycles run after an edge go to the tile's carry alone (R72). -/
def addCarry (tile cycles : Nat) (s : State) : State :=
  { s with tick := { s.tick with carry := s.tick.carry.set tile (s.tick.carry.getD tile 0 + cycles) } }

/-- EST_CYC of the items pushed and not yet ended; an item that ran over an edge is no longer counted (R263). -/
def pushedEst (s : State) (tile e : Nat) : Nat :=
  let x := getEng s tile e
  let q := if x.late then x.queue.drop 1 else x.queue
  (q.map fun i => leAt i.desc 0xC 4).sum

/-- The remaining budget of an engine (R263). -/
def remaining (s : State) (tile e : Nat) : Int := budgetOf s tile e - (if e = 0 then 0 else pushedEst s tile e)

/-- Results of a tile's ring. -/
def ringOf (s : State) (tile : Nat) : List EngResult := mgetD s.media.results tile []

def putRing (tile : Nat) (l : List EngResult) (s : State) : State :=
  { s with media := { s.media with results := mputD s.media.results tile [] l } }

/-- Descriptors pushed to an engine whose results have not been popped (R264). -/
def outstanding (s : State) (tile e : Nat) : Nat :=
  (getEng s tile e).queue.length + ((ringOf s tile).filter fun r => r.engine == e).length

/-- The head of an engine's queue leaves it; the next descriptor begins, unless a slice waits for the tile (R523). -/
def popEng (tile e : Nat) (s : State) : State :=
  let s := { s with intg := s.intg.engineEnded tile e }
  match (getEng s tile e).queue with
  | [] => s
  | [_] => putEng tile e Engine.idle s
  | _ :: l => putEng tile e { queue := l, start := s.tick.count, late := false, stall := 0 } s

/-- An item ends with a result (R183): its cycles are charged, the result goes on the ring. -/
def endItem (tile e status ctx tag : Nat) (c : Cycles) (hi lo : Nat) (s : State) : State :=
  let s := perfEvent (engPage tile e) 0x103 0xFF (workCycles c) s
  let s := addCarry tile (carriedCycles c) (chargeBudget tile e (chargedCycles c) (popEng tile e s))
  let dw := [e * 2 ^ 24 + status * 2 ^ 16 + ctx, tag, (chargedCycles c + carriedCycles c) % 2 ^ 32, min hi 0xFFFF * 2 ^ 16 + lo]
  wakeCore tile (putRing tile (ringOf s tile ++ [{ engine := e, dw := dw }]) s)

/-- The register that counts an engine's stale descriptors. -/
def epochCount (e : Nat) : Nat :=
  if e = 1 then R.DEC.COUNT + 44 else if e = 2 then R.SHP.COUNT + 20 else R.TEN.COUNT + 28

/-- A descriptor of another tile epoch is dropped without a result (R184, R225). -/
def dropStale (tile e : Nat) (s : State) : State :=
  penBit (pTILE tile) 4 (addReg (popEng tile e s) (engPage tile e) (epochCount e) 1)

/-- The head descriptor of an engine that may run. -/
def headDesc (s : State) (tile e : Nat) : Option (List Byte) :=
  if engAccepts s tile e ∧ ¬ s.intg.holdsEngine tile e then (getEng s tile e).queue.head?.map (·.desc) else none

/-- The descriptor's TILE_EPOCH is not the tile's. -/
def stale (s : State) (tile : Nat) (d : List Byte) : Bool := leAt d 6 2 != blkEpoch s (pTILE tile)

/-- The context a descriptor names, bound to this tile. -/
def descCtx (s : State) (tile : Nat) (d : List Byte) : Option (Nat × Ctx) :=
  match ctxAt s (leAt d 4 2) with
  | some (k, c) => if leAt d 4 2 / 128 = tile then some (k, c) else none
  | none => none

/-! ### The slice -/

def regionSize (s : State) (tile r : Nat) : Nat := (partSizes s tile).getD r 0

/-- The region a slice offset lies in; the space after RECORD is in none. -/
def regionAt (s : State) (tile off : Nat) : Option Nat :=
  (List.range 5).find? fun r =>
    decide (regionBase s tile r ≤ off) && decide (off < regionBase s tile r + regionSize s tile r)

/-- The slice holds data only while its SRAMT page is enabled. -/
def sliceOn (s : State) (tile : Nat) : Bool :=
  blkState s (pSRAMT tile) == 1 || blkState s (pSRAMT tile) == 2

/-- A write by a requester the region is not for is dropped: REGION_ERR (R205). -/
def regionErr (tile r : Nat) (s : State) : State := errInfo (pSRAMT tile) 2 r (penBit (pSRAMT tile) 2 s)

/-- Words of a slice wholly rewritten no longer fail their code. -/
def clearSram (tile off len : Nat) (s : State) : State :=
  { s with media := { s.media with
    sram := s.media.sram.filter fun x => !(x.tile == tile && decide (off ≤ x.offset) && decide (x.offset + 8 ≤ off + len)) } }

/-- An uncorrectable word is read: counted, its offset recorded, the pennant set (R206). -/
def sramUe (x : SramLine) (s : State) : State :=
  let p := pSRAMT x.tile
  let r := (regionAt s x.tile x.offset).getD 4
  errInfo p 1 r (penBit p 1 (setRegN (addSat s p R.SRAMT.UE_COUNT 1 0xFFFFFFFF) p R.SRAMT.UE_ADDR x.offset))

/-- A single-bit error is read: corrected, written back and counted (R206). -/
def sramCe (x : SramLine) (s : State) : State :=
  let s := { s with media := { s.media with sram := s.media.sram.filter (· != x) } }
  penBit (pSRAMT x.tile) 0 (addSat s (pSRAMT x.tile) R.SRAMT.CE_COUNT 1 0xFFFFFFFF)

/-- A read of `len` bytes of a slice meets its error words (R206). -/
def sliceTouch (tile off len : Nat) (s : State) : State :=
  (s.media.sram.filter fun x => x.tile == tile && decide (off < x.offset + 8) && decide (x.offset < off + len)).foldl
    (fun s x => if x.uncorrectable then sramUe x s else sramCe x s) s

/-- A requester's write at a slice offset, allowed in region `r` only (R205). -/
def sliceWrite (tile r off : Nat) (l : List Byte) (s : State) : State :=
  if ¬ sliceOn s tile ∨ l = [] then s
  else
    let a := regionAt s tile off
    let b := regionAt s tile (off + l.length - 1)
    let s := perfEvent (pSRAMT tile) 0x101 (if r = 2 then 1 else 0) (ceilDiv l.length 64) s
    if a = some r ∧ b = some r then clearSram tile off l.length { s with mem := memWrite s.mem (sliceKey tile off) l }
    else regionErr tile ((if a = some r then b else a).getD 4) s

/-- Uncorrectable words of a slice within a range. -/
def poisonIn (s : State) (tile off len : Nat) : Option SramLine :=
  s.media.sram.find? fun x => x.tile == tile && x.uncorrectable && decide (off < x.offset + 8) && decide (x.offset < off + len)

/-- All the poisoned words of a range. -/
def poisonsIn (s : State) (tile off len : Nat) : List SramLine :=
  s.media.sram.filter fun x => x.tile == tile && x.uncorrectable && decide (off < x.offset + 8) && decide (x.offset < off + len)

/-! ### Token records -/

/-- A token record (R132): header, payload, zero padding, CRC. -/
def tokenRecord (kind flags width count tc group param : Nat) (payload : List Byte) : List Byte :=
  let len := recordLen payload.length
  let h := leBytes 4 (kind * 2 ^ 24 + flags * 2 ^ 21 + width * 2 ^ 16 + count % 65536) ++ leBytes 4 len ++ leBytes 4 tc ++
    leBytes 4 (group % 65536 * 2 ^ 16 + param % 65536)
  let b := h ++ payload ++ List.replicate (len - 20 - payload.length) 0
  b ++ leBytes 4 (crc32c b)

/-- Appends a record to the sample in progress of a context. -/
def addRecord (k : Nat) (r : RecordRef) (s : State) : State :=
  match getCtx s k with
  | some c => (match c.cur with
    | some x => putCtx k { c with cur := some { x with records := x.records ++ [r] } } s
    | none => s)
  | none => s

/-- The slice space of a region that contexts of a tile hold. -/
def heldIn (s : State) (tile region : Nat) : List (Nat × Nat) :=
  (s.media.held.filter fun h => h.tile == tile && h.region == region).map fun h => (h.off, h.len)

/-- The lowest 64-byte aligned gap of `n` bytes that a list of (offset, bytes) leaves. -/
def firstGap (l : List (Nat × Nat)) (n : Nat) : Nat :=
  (sortBy (·.1) l).foldl (fun b e => if b + n ≤ e.1 then b else max b (ceilDiv (e.1 + e.2) 64 * 64)) 0

/-- Where `n` bytes of a region can be held, if it has room. -/
def roomFor (s : State) (tile region n : Nat) : Option Nat :=
  let o := firstGap (heldIn s tile region) n
  if o + n ≤ regionSize s tile region then some o else none

def holdSpace (tile k region off n : Nat) (s : State) : State :=
  { s with media := { s.media with held := s.media.held ++ [{ tile := tile, ctx := k, region := region, off := off, len := n }] } }

/-- The space a context holds at an offset of a region is returned. -/
def freeSpace (k region off : Nat) (s : State) : State :=
  { s with media := { s.media with held := s.media.held.filter fun h => !(h.ctx == k && h.region == region && h.off == off) } }

/-- Sets FLAGS bits of the pack of the sample in progress (R130). -/
def packFlag (k bits : Nat) (s : State) : State :=
  match getCtx s k with
  | some c => (match c.cur with
    | some x => putCtx k { c with cur := some { x with flags := x.flags ||| bits } } s
    | none => s)
  | none => s

/-- The PACK_ID of the sample in progress. -/
def curPack (s : State) (k : Nat) : Nat :=
  match getCtx s k with
  | some c => (match c.cur with | some x => x.packId | none => 2 ^ 70)
  | none => 2 ^ 70

end Sys2Proof.Machine
end

