-- ==== Sys2Proof/Machine/Ingest.lean ====
section
/-! DEFINITION. The stream core's ingest of a context: the source cache, continuity, the presentation timeline, picture headers and
references, timecode, the planning of samples and the policies for damage (R118 to R121, R147 to R169). -/

namespace Sys2Proof.Machine

/-- The tile a bound context runs on. -/
def numTile (num : Nat) : Nat := num / 128

/-- Counts an event of the DEC page. -/
def decCount (tile i : Nat) (s : State) : State :=
  setRegN s (pDEC tile) (R.DEC.COUNT + 4 * i) ((reg s (pDEC tile) (R.DEC.COUNT + 4 * i) + 1) % 2 ^ 32)

/-- Counts, sets a pennant and captures an error with the context number. -/
def decEvent (tile num i bit code : Nat) (s : State) : State :=
  errInfo (pDEC tile) code num (penBit (pDEC tile) bit (decCount tile i s))

/-! ### Pictures and references (R161, R162) -/

def findPic (m : Media) (id : Nat) : Option Pic := m.pics.find? fun p => p.hdr.id == id

/-- A picture is absent from era `era` on: nothing of it is known, or a sequence reset lies between (R161). -/
def picAbsent (m : Media) (era id : Nat) : Bool :=
  match findPic m id with
  | some p => p.era != era
  | none => true

/-- The last `n` anchor frames: the pictures of each, field pictures standing in pairs; none for a frame lost entirely. -/
def anchorFrames (m : Media) : List (Option Nat) → Nat → List (Option (List Nat))
  | [], _ => []
  | _, 0 => []
  | none :: l, n + 1 => none :: anchorFrames m l n
  | some a :: l, n + 1 =>
    match findPic m a, l with
    | some p, some b :: l' =>
      if p.hdr.field ≠ 0 ∧ p.hdr.second then some [a, b] :: anchorFrames m l' n else some [a] :: anchorFrames m l n
    | _, _ => some [a] :: anchorFrames m l n

/-- The pictures a list of anchors gives, and whether one of the `n` that are needed is absent. -/
def anchorRefs (n : Nat) (l : List (Option (List Nat))) : List Nat × Bool :=
  ((l.filterMap id).flatten, decide (l.length < n) || l.any (·.isNone))

/-- The pictures a reference list entry names: a frame names both its fields (R161). -/
def entryPics (m : Media) (e : RefEntry) : List Nat :=
  match e.pic with
  | none => []
  | some a => match findPic m a with
    | some p =>
      if e.frame ∧ p.hdr.field ≠ 0 then
        (m.pics.filter fun q => q.hdr.id == a || (q.hdr.second && q.hdr.id == a + 1)).map (·.hdr.id)
      else [a]
    | none => [a]

/-- Decoding begins at a picture: it is the shard's first, or the end of a sequence precedes it. -/
def begins (m : Media) (h : PicHdr) : Bool :=
  h.refs.seqEnd || (match m.pics with | p :: _ => p.hdr.id == h.id | [] => true)

/-- The access point a picture leads leaves its references absent: a BLA, or a CRA or GDR at which decoding begins (R161). -/
def leadsNothing (m : Media) (h : PicHdr) : Bool :=
  match h.refs.leads.bind (findPic m) with
  | some p => p.hdr.refs.rap == .bla || begins m p.hdr
  | none => false

/-- refs(p), and whether a reference is absent (R161). `era` counts the sequence resets before the picture. -/
def refsOf (m : Media) (era : Nat) (h : PicHdr) : List Nat × Bool :=
  if h.codec = 1 then
    if h.kind = 0 then ([], false)
    else if h.kind = 1 then
      if h.field = 0 then anchorRefs 1 (anchorFrames m m.anchors 1)
      else match m.anchors with
        | some a :: b :: _ =>
          if ((findPic m a).map (·.hdr.field)).getD 0 = 0 then ([a], false) else ([a] ++ b.toList, b.isNone)
        | some a :: [] => ([a], false)
        | none :: _ => ([], true)
        | [] => ([], true)
    else
      let l := anchorFrames m m.anchors 2
      if h.refs.leadB ∧ (h.refs.closedGop ∨ h.refs.brokenLink) then
        ((anchorRefs 1 (l.take 1)).1, (anchorRefs 1 (l.take 1)).2 || !h.refs.closedGop)
      else anchorRefs 2 l
  else if h.codec = 5 then
    if h.kind = 0 then ([], false)
    else ((h.refs.slots.filterMap fun i => mget m.av1 i).eraseDups, h.refs.slots.any fun i => (mget m.av1 i).isNone)
  else
    let l := h.refs.list0 ++ h.refs.list1
    let pics := (l.flatMap (entryPics m)).eraseDups
    (pics, leadsNothing m h || l.any (·.pic.isNone) || pics.any (picAbsent m era))

/-- colloc(p), by number, and whether it is absent (R161). -/
def collocOf (m : Media) (era : Nat) (h : PicHdr) : Option Nat × Bool :=
  let e := if h.codec = 2 then h.refs.list1[0]?
    else if h.codec = 3 then (if h.refs.fromL0 then h.refs.list0 else h.refs.list1)[h.refs.collocIdx]? else none
  if ¬ h.refs.temporal then (none, false)
  else match e with
    | none => (none, false)
    | some e => (e.pic, leadsNothing m h || e.pic.isNone || (e.pic.map (picAbsent m era)).getD false)

/-- What a sequence header gives: size, SRC_FMT, profile and level. -/
def seqOf (h : PicHdr) : Nat × Nat × Nat × Nat := (h.disp.width, h.disp.height, h.disp.srcFmt, h.disp.profileLevel)

/-- A sequence reset precedes the picture (R162). -/
def resetsAt (m : Media) (h : PicHdr) : Bool :=
  if h.codec = 1 then h.refs.seqEnd || (match m.seq with | some x => x != seqOf h | none => false)
  else if h.codec = 2 then h.refs.rap == .idr
  else if h.codec = 5 then h.refs.rap == .key
  else h.refs.rap == .idr || h.refs.rap == .bla || (h.refs.rap == .cra && (h.refs.seqEnd || m.pics.isEmpty))

/-! ### Frames (R119, R159) -/

/-- Time of a picture after the first presentation time. -/
def picTime (m : Media) (p : Pic) : Int := p.time - m.firstTime.getD 0

/-- Frames that can be shown, by their first picture, in presentation order. -/
def shownFrames (m : Media) : List Pic :=
  sortBy (fun p => (picTime m p).toNat)
    (m.pics.filter fun p => (p.hdr.shown || p.shows.isSome) && !p.hdr.second && decide (0 ≤ picTime m p))

/-- The other field of a field-coded frame. -/
def mateOf (m : Media) (p : Pic) : Option Pic := m.pics.find? fun q => q.hdr.second && q.hdr.id == p.hdr.id + 1

/-- The second field of a frame is the one that mode 2 keeps at `t` 90 kHz units (R186). -/
def lateAt (m : Media) (p : Pic) (t : Nat) : Bool := decide (picTime m p * 2 + p.hdr.period ≤ t * 2)

/-- The pictures of a frame that a profile targets at `t` 90 kHz units after the first presentation time (R159). -/
def framePics (m : Media) (prof : List Byte) (p : Pic) (t : Nat) : List Nat :=
  match p.shows with
  | some r => [r]
  | none =>
    if p.hdr.field = 0 then [p.hdr.id]
    else
      let mate := mateOf m p
      let mode := leAt prof 1 1 % 8
      let auto := leAt prof 1 1 / 128 == 1
      let both := match mate with | some q => [p.hdr.id, q.hdr.id] | none => [p.hdr.id]
      if auto ∧ (p.hdr.disp.progressive ∨ ¬ p.hdr.disp.interlaced) then both
      else if mode = 1 then
        (if p.hdr.field = 1 then [p.hdr.id] else match mate with | some q => [q.hdr.id] | none => [])
      else if mode = 2 then
        (match mate with | some q => if lateAt m p t then [q.hdr.id] else [p.hdr.id] | none => [p.hdr.id])
      else both

/-- Time of sampled frame `k` after the first presentation time (R119). -/
def frameTime (x : StreamSet) (k : Nat) : Nat := x.startOff + k * x.interval

/-- The frame R119 picks for time `t`: the last one at or before it. -/
def frameFor (m : Media) (t : Nat) : Option Pic := ((shownFrames m).filter fun p => decide (picTime m p ≤ t)).getLast?

/-- Every frame up to time `t` is known: decoding has gone past it, or the shard is over. -/
def knownUpTo (m : Media) (t : Nat) : Bool :=
  m.demuxed || m.pics.any fun p => decide ((t : Int) < p.dtime - m.firstTime.getD 0)

/-! ### Timecode (R153, R601) -/

/-- The label of a frame from one source: the last valid label at or before it, carried forward frame by frame. -/
def carriedLabel (m : Media) (source : Nat) (frames : List Pic) : Option Nat :=
  let own (p : Pic) : Option Nat := (p.labels.find? fun l => l.source == source && tcValid m.rate l.label).map (·.label)
  ((enumFrom 0 frames.reverse).findSome? fun e => (own e.2).map fun l => (e.1, l)).map fun e =>
    tcLabelOf m.rate ((tcIndex m.rate e.2 + e.1) % tcDay m.rate)

/-- The timecode of a frame, and whether it is derived: the first source that gives one, else the presentation time. -/
def labelOf (m : Media) (p : Pic) : Nat × Bool :=
  let frames := (shownFrames m).filter fun q => decide (q.time ≤ p.time)
  let derived := (tcDerived m.rate (picTime m p).toNat, true)
  if ¬ m.tcUse then derived
  else match carriedLabel m 1 frames, carriedLabel m 2 frames with
    | some l, _ => (l, false)
    | none, some l => (l, false)
    | none, none => derived

/-- The frame at or before a time, with its timecode; derived where there is none. -/
def labelAt (m : Media) (t : Nat) : Nat × Bool :=
  match frameFor m t with
  | some p => labelOf m p
  | none => (tcDerived m.rate t, true)

/-- DROP_FRAME of every record of the shard (R601). -/
def dropFrame (m : Media) : Bool := m.rate == 3 || m.rate == 7

/-! ### Planning (R160, R163) -/

/-- A picture reconstructed for the context, or with `parse` also one only parsed, complete and undamaged, is in the pool. -/
def retained (m : Media) (parse : Bool) (id : Nat) : Bool :=
  (m.pool.any fun x => x.pic == id && x.done && (parse || !x.parsed)) &&
    (match findPic m id with | some p => !p.damaged | none => false)

/-- add_full of R160; the fuel bounds the depth by the number of pictures known. -/
def addFull (m : Media) : Nat → Nat → Plan → Plan
  | 0, _, a => a
  | n + 1, p, a =>
    if a.full.contains p ∨ retained m false p then a
    else match findPic m p with
      | none => a
      | some x =>
        let a := { a with full := a.full ++ [p], broken := if x.broken then a.broken ++ [p] else a.broken }
        x.refs.foldl (fun a r => if picAbsent m x.era r then a else addFull m n r a) a

/-- add_parse of R160. -/
def addParse (m : Media) : Nat → Nat → Plan → Plan
  | 0, _, a => a
  | n + 1, p, a =>
    if a.full.contains p ∨ a.parse.contains p ∨ retained m true p then a
    else match findPic m p with
      | none => a
      | some x =>
        let a := { a with parse := a.parse ++ [p], broken := if x.brokenParse then a.broken ++ [p] else a.broken }
        match x.colloc with
        | none => a
        | some c => if picAbsent m x.era c then a else addParse m n c a

/-- The procedure plan_sample of R160: full targets, then parse targets; the pictures in decoding order. -/
def planSample (m : Media) (full parse : List Nat) : Plan :=
  let n := m.pics.length + 1
  let a := full.foldl (fun a p => addFull m n p a) ⟨[], [], []⟩
  let a := parse.foldl (fun a p => addParse m n p a) a
  { full := sortBy id a.full, parse := sortBy id a.parse, broken := a.broken }

/-- Pictures of targets, to be reconstructed or only parsed. -/
def targetPics (parse : Bool) (l : List Target) : List Nat := (l.filter fun t => t.parse == parse).flatMap (·.pics)

/-- Every picture that the closures of targets name, retained or not. -/
def closureOf (m : Media) (l : List Target) : List Nat :=
  let a := planSample { m with pool := [] } (targetPics false l) (targetPics true l)
  a.full ++ a.parse

/-- The closure of a reconstructed target holds neither an absent nor a damaged picture (R165). -/
def intact (m : Media) : Nat → Nat → Bool
  | 0, _ => false
  | n + 1, p =>
    match findPic m p with
    | none => false
    | some x => !x.broken && !x.damaged && x.refs.all (intact m n)

/-- The same for a parse target, whose closure follows the collocated pictures. -/
def intactParse (m : Media) : Nat → Nat → Bool
  | 0, _ => false
  | n + 1, p =>
    match findPic m p with
    | none => false
    | some x => !x.brokenParse && !x.damaged && (match x.colloc with | none => true | some c => intactParse m n c)

def targetIntact (m : Media) (t : Target) : Bool :=
  !t.pics.isEmpty && t.pics.all fun p => if t.parse then intactParse m (m.pics.length + 1) p else intact m (m.pics.length + 1) p

/-- The target of sampled frame `k`, `i`-th of its sample (R159, R170). -/
def targetFor (m : Media) (x : StreamSet) (prof : List Byte) (i k : Nat) : Target :=
  let t := frameTime x k
  { frame := k, pics := (match frameFor m t with | some p => framePics m prof p t | none => [])
    parse := bitOf x.outputs 1 && i % x.group != 0, counted := false, made := false, concealed := false }

/-- The targets of a sample from its first frame on. -/
def targetsFrom (m : Media) (x : StreamSet) (prof : List Byte) (first : Nat) : List Target :=
  (List.range x.clip).map fun i => targetFor m x prof i (first + i)

/-- The replacement of R167: the earliest later frame before t_k + SAMPLE_INTERVAL with an intact closure. -/
def replacement (m : Media) (x : StreamSet) (prof : List Byte) (t : Target) : Option (List Nat) :=
  let tk := frameTime x t.frame
  let from_ : Int := match frameFor m tk with | some p => picTime m p | none => -1
  let cand := (shownFrames m).filter fun p => decide (from_ < picTime m p) && decide (picTime m p < tk + x.interval)
  (cand.map fun p => framePics m prof p tk).find? fun l => targetIntact m { t with pics := l }

/-- PICTURE of CORRUPT_POLICY: 0 CONCEAL, 1 SKIP, 2 DROP (R164). -/
def picturePolicy (x : StreamSet) : Nat := x.policy % 4

/-- What was shaped, and a record made, for a target whose pictures change is done again (R165). -/
def renewTarget (k : Nat) (t : Target) (pics : List Nat) (s : State) : Target × State :=
  let m := getMedia s k
  ({ t with pics := pics, made := false, concealed := false },
   putMedia k { m with shaped := m.shaped.map fun f => if f.frame = t.frame then { f with issued := 0, rows := 0 } else f } s)

/-- Examines the targets in order: each unanchored one is counted once and handled by the policy (R165 to R168). A SKIP
replacement that is found damaged itself is replaced again, and the target is not counted a second time (log entry 176). -/
def anchorTargets (tile num k : Nat) (x : StreamSet) (prof : List Byte) : List Target → List Target → State → Option (List Target) × State
  | [], done, s => (some done, s)
  | t :: l, done, s =>
    let m := getMedia s k
    if targetIntact m t then anchorTargets tile num k x prof l (done ++ [t]) s
    else
      let s := if t.counted then s else decEvent tile num 4 1 2 s
      let t := { t with counted := true }
      if picturePolicy x = 2 then (none, dropSample k s)
      else if picturePolicy x = 1 then
        match replacement m x prof t with
        | some pics =>
          let (t, s) := renewTarget k t pics s
          anchorTargets tile num k x prof l (done ++ [t]) (packFlag k 1 (decCount tile 3 s))
        | none => (none, dropSample k s)
      else anchorTargets tile num k x prof l (done ++ [t]) (packFlag k 2 s)

/-- A codec without a compressed-domain path (R171). -/
def noCompressedPath (m : Media) : Bool := m.pics.any fun p => p.hdr.codec == 4 || p.hdr.codec == 5

/-- An item for a pool slot of the context waits in its decode slice, or runs there. -/
def slotQueued (s : State) (tile num slot : Nat) : Bool :=
  (getEng s tile 1).queue.any fun i => leAt i.desc 4 2 == num && leAt i.desc 0x24 1 == slot

/-- Pictures that no planned item of the context names leave the pool, and damaged ones, which are not retained (R163). -/
def releasePool (tile num k : Nat) (s : State) : State :=
  let m := getMedia s k
  let keep := closureOf m m.targets
  let sound (id : Nat) : Bool := match findPic m id with | some p => !p.damaged | none => false
  showPool tile (putMedia k { m with
    pool := m.pool.filter fun x => slotQueued s tile num x.slot || (keep.contains x.pic && sound x.pic) } s)

/-- After a sample is sealed, the pictures that the closure of the next one does not need are released, as soon as its frames are
known (R163). -/
def releaseSealed (tile k : Nat) (s : State) : State :=
  match getCtx s k with
  | none => s
  | some c => match getSet s c.sset with
    | none => s
    | some x =>
      let m := getMedia s k
      let first := c.sample * x.stride
      if knownUpTo m (frameTime x (first + x.clip - 1)) then
        let keep := closureOf m (targetsFrom m x (profileBytes s x.prof) first)
        showPool tile (putMedia k { m with pool := m.pool.filter fun y => keep.contains y.pic } s)
      else s

/-- The stream core plans, or plans again, the sample in progress, once its frames are known (R119, R160, R165, R171). -/
def planContext (num k : Nat) (s : State) : State :=
  match getCtx s k with
  | none => s
  | some c =>
    match c.cur, getSet s c.sset with
    | some smp, some x =>
      let tile := numTile num
      let m := getMedia s k
      let prof := profileBytes s x.prof
      let first := m.targets.isEmpty
      if first ∧ ¬ knownUpTo m (frameTime x smp.lastFrame) then s
      else
        let targets := if first then targetsFrom m x prof smp.firstFrame else m.targets
        let fallback := bitOf x.outputs 1 && noCompressedPath m
        let s := if fallback ∧ first then packFlag k 1 (decCount tile 12 s) else s
        let targets := if fallback then targets.filter fun t => !t.parse else targets
        let (res, s) := anchorTargets tile num k x prof targets [] s
        match res with
        | none => s
        | some l =>
          let m := getMedia s k
          let s := putMedia k { m with
            targets := l, plan := planSample m (targetPics false l) (targetPics true l), replan := false } s
          let s := noteSource k s
          if first then releasePool tile num k s else s
    | _, _ => s
where
  /-- SRC_OFFSET: where the earliest picture that the sample uses begins (R130). -/
  noteSource (k : Nat) (s : State) : State :=
    let m := getMedia s k
    match getCtx s k with
    | none => s
    | some c => match c.cur, (closureOf m m.targets).filterMap (fun id => (findPic m id).map (·.hdr.pos)) with
      | some smp, o :: l => putCtx k { c with cur := some { smp with srcOffset := l.foldl min o } } s
      | _, _ => s

/-- A picture of the context is damaged (R165): under DROP the sample ends at once when a target's closure holds the picture,
otherwise it is planned again at the next edge. -/
def damagePic (tile num k id : Nat) (s : State) : State :=
  let m := getMedia s k
  let held := (closureOf m m.targets).contains id
  let s := putMedia k { m with
    pics := m.pics.map fun p => if p.hdr.id = id then { p with damaged := true } else p
    replan := m.replan || held } s
  match getCtx s k with
  | some c => (match getSet s c.sset with
    | some x => if picturePolicy x = 2 ∧ c.cur.isSome ∧ held then dropSample k (decEvent tile num 4 1 2 s) else s
    | none => s)
  | none => s

/-! ### The source cache and transport packets (R118, R148 to R150) -/

/-- LPDDR5X offset of byte `o` of a shard in the context's source cache, a ring of READAHEAD MiB. -/
def cacheAddr (x : StreamSet) (k o : Nat) : Nat := Config.cacheBase k % 2 ^ 39 + o % (x.readahead * 2 ^ 20)

def cacheByte (s : State) (x : StreamSet) (k o : Nat) : Byte := memGet s.mem (dramKey (cacheAddr x k o))

/-- The demultiplexer takes `n` bytes out of the cache. -/
def passBytes (k n : Nat) (s : State) : State :=
  match getCtx s k with
  | some c => let n := min n c.cached; putCtx k { c with cachePos := c.cachePos + n, cached := c.cached - n } s
  | none => s

/-- SOURCE_READ: a readahead of the context's shard, from its byte `off`, completes into the source cache, as far as the cache has
room, with the shard's duration once it is known. An error of the source ends the shard there: what is cached is still
demultiplexed (R118). -/
def execSourceRead (num off : Nat) (bytes : Option (List Byte)) (dur : Option Nat) (s : State) : Host.Outcome State Fault Refusal :=
  .next <|
    match ctxAt s num with
    | none => s
    | some (k, c) =>
      match getSet s c.sset with
      | none => s
      | some x =>
        if c.shard.isNone ∨ c.failed then s
        else match bytes with
          | none => putCtx k { c with failed := true } s
          | some b =>
            let room := x.readahead * 2 ^ 20 - c.cached
            let l := if off = c.cachePos + c.cached then b.take room else []
            let s := (enumFrom 0 l).foldl (fun s e => putDram (cacheAddr x k (off + e.1)) [e.2] s) s
            putCtx k { c with
              cached := c.cached + l.length
              total := (match dur with | some d => some (sampleCount x d) | none => c.total) } s

/-- What a transport packet says (ISO/IEC 13818-1): PID, continuity counter, payload present, discontinuity_indicator,
transport_error_indicator, payload start, and the PCR in 90 kHz units. -/
structure TsPacket where
  pid : Nat
  cc : Nat
  payload : Bool
  disc : Bool
  tei : Bool
  start : Bool
  pcr : Option Nat
  deriving DecidableEq, Repr

def parsePacket (b : List Byte) : TsPacket :=
  let u (o : Nat) : Nat := leAt b o 1
  let field := bitOf (u 3) 5 && u 4 != 0
  { pid := u 1 % 32 * 256 + u 2, cc := u 3 % 16, payload := bitOf (u 3) 4, disc := field && bitOf (u 5) 7
    tei := bitOf (u 1) 7, start := bitOf (u 1) 6
    pcr := if field ∧ bitOf (u 5) 4 then some (beAt b 6 4 * 2 + u 10 / 128) else none }

/-- A PID the device uses. -/
def usesPid (x : Sel) (pid : Nat) : Bool := x.video == pid || x.audio == some pid || x.text == some pid || x.pcr == some pid

/-- A continuity loss: counted and shown. The PES is damaged from the gap onwards: the picture it held, and those taken before the
next start (R149, R165). -/
def ccLoss (tile num k pid : Nat) (s : State) : State :=
  let m := getMedia s k
  let s := decEvent tile num 6 2 5 (putMedia k { m with gap := if m.gap.contains pid then m.gap else m.gap ++ [pid] } s)
  match mget m.pes pid with
  | some id => damagePic tile num k id s
  | none => s

/-- A new timeline segment begins: the next picture sets its offset. -/
def newSegment (tile k : Nat) (s : State) : State :=
  penBit (pDEC tile) 3 (decCount tile 7 (putMedia k { getMedia s k with segPending := true, lastPts := none, lastDts := none } s))

/-- How far clock value `b` lies after `a`, modulo the 33 bits of a timestamp. -/
def pcrDiff (a b : Nat) : Nat := (b % 2 ^ 33 + 2 ^ 33 - a % 2 ^ 33) % 2 ^ 33

/-- The PCR that the previous one predicts at a shard offset, at the rate of the interval before it (log entry 177). -/
def predictedPcr (m : Media) (pos : Nat) : Option Nat :=
  match m.lastPcr, m.priorPcr with
  | some (v, p), some (u, q) => if p ≤ q then none else some (v + (pos - p) * pcrDiff u v / (p - q))
  | _, _ => none

/-- A PCR breaks the timeline: it steps backwards, or lies more than 100 ms from the value predicted (R150). -/
def pcrBreaks (m : Media) (v pos : Nat) : Bool :=
  (match m.lastPcr with | some (l, _) => decide (2 ^ 32 ≤ pcrDiff l v) | none => false) ||
  (match predictedPcr m pos with
   | some e => decide (9000 < pcrDiff e v) && decide (9000 < pcrDiff v e)
   | none => false)

/-- The PCR PID's clock: discontinuity_indicator or a break begins a new segment (R150). -/
def takePcr (tile k pos : Nat) (p : TsPacket) (s : State) : State :=
  let m := getMedia s k
  if (m.sel.map (·.pcr)).join ≠ some p.pid then s
  else
    let breaks := p.disc || (match p.pcr with | some v => pcrBreaks m v pos | none => false)
    let s := match p.pcr with
      | some v => putMedia k { m with lastPcr := some (v, pos), priorPcr := if breaks then none else m.lastPcr } s
      | none => if breaks then putMedia k { m with lastPcr := none, priorPcr := none } s else s
    if breaks then newSegment tile k s else s

/-- A transport packet of a PID in use: continuity check, duplicates, PES restart, and the PCR (R149, R150). A packet with
transport_error_indicator leaves the counter as it was (log entry 174). -/
def takePacket (tile num k pos : Nat) (p : TsPacket) (s : State) : State :=
  let m := getMedia s k
  let prev := mget m.cc p.pid
  let dup := match prev with | some (c, rep) => p.payload && c == p.cc && !rep && !p.disc | none => false
  if ¬ (m.sel.map fun x => usesPid x p.pid).getD false then s
  else if p.tei then ccLoss tile num k p.pid s
  else if dup then putMedia k { m with cc := mput m.cc p.pid (p.cc, true) } s
  else
    let expected (c : Nat) : Nat := if p.payload then (c + 1) % 16 else c
    let jump := match prev with | some (c, _) => !p.disc && p.cc != expected c | none => false
    let s := putMedia k { m with cc := mput m.cc p.pid (p.cc, false) } s
    let s := if jump then ccLoss tile num k p.pid s else s
    let s := if p.start then
        let m := getMedia s k
        putMedia k { m with gap := m.gap.filter (· != p.pid), pes := mdel m.pes p.pid } s
      else s
    takePcr tile k pos p s

/-- Synchronisation: the next byte at which three sync bytes lie 188 bytes apart, among the bytes cached (R148). -/
def findSync (s : State) (x : StreamSet) (k pos : Nat) : Nat → Nat → Option Nat
  | 0, _ => none
  | n + 1, i =>
    if [0, 188, 376].all fun o => cacheByte s x k (pos + i + o) == 0x47 then some i else findSync s x k pos n (i + 1)

/-- The next transport packet of the source cache. Out of synchronisation, the cache is scanned first; a packet that does not begin
with the sync byte loses it, and the scan begins at the following byte (R148). -/
def nextPacket (tile num k : Nat) (c : Ctx) (x : StreamSet) (s : State) : State :=
  let m := getMedia s k
  if m.synced then
    if c.cached < 188 then s
    else if cacheByte s x k c.cachePos = 0x47 then
      let b := (List.range 188).map fun i => cacheByte s x k (c.cachePos + i)
      takePacket tile num k c.cachePos (parsePacket b) (passBytes k 188 s)
    else putMedia k { m with synced := false } (passBytes k 1 s)
  else match findSync s x k c.cachePos (c.cached - 376) 0 with
    | some n => putMedia k { m with synced := true } (passBytes k n s)
    | none => passBytes k (c.cached - 376) s

/-! ### Shards (R123, R158, R601) -/

/-- The headers of the context's shard: an unsupported shard makes no samples, and the context takes the next one at the next edge;
otherwise its streams are chosen, and the timecode rate (R148, R158, R601). -/
def takeShard (tile num k : Nat) (x : StreamSet) (i : ShardInfo) (s : State) : State :=
  match shardSel x.container x.audioSel i with
  | some sel =>
    let (rate, use) := tcChoose i.rate i.tcDrop
    putMedia k { getMedia s k with sel := some sel, rate := rate, tcUse := use } s
  | none =>
    let s := decEvent tile num 8 4 4 (discardSample k s)
    match getCtx s k with
    | some c => putCtx k { c with ended := true } s
    | none => s

/-- A change to unsupported parameters mid-shard ends the shard there: samples that reach past it are not made (R120, R158). -/
def takeChange (k : Nat) (x : StreamSet) (i : ShardInfo) (dur : Nat) (s : State) : State :=
  if (shardSel x.container x.audioSel i).isSome then s
  else
    let n := sampleCount x dur
    let s := match getCtx s k with
      | some c => if n ≤ c.sample then discardSample k s else s
      | none => s
    let s := putMedia k { getMedia s k with demuxed := true } s
    match getCtx s k with
    | some c => putCtx k { c with total := some n } s
    | none => s

/-- Every byte of the shard is demultiplexed: a read error or the shard's last byte stands behind the cache. -/
def cacheDone (c : Ctx) (x : StreamSet) : Bool :=
  decide (c.cached < 188) &&
    (c.failed || (match c.shard.bind fun i => x.shards[i]? with
      | some e => decide (e.length ≤ c.cachePos + c.cached)
      | none => true))

/-- The end of the shard's data: a picture it ends inside is damaged, and the samples it makes are known (R118, R120, R165). -/
def endShard (tile num k dur : Nat) (inside : Bool) (c : Ctx) (x : StreamSet) (s : State) : State :=
  if ¬ cacheDone c x then s
  else
    let m := getMedia s k
    let m := [1, 2, 3].foldl (fun m src => endDisplay m src dur) { m with demuxed := true }
    let s := putCtx k { c with total := some (sampleCount x dur) } (putMedia k m s)
    match m.pics.getLast? with
    | some p => if inside then damagePic tile num k p.hdr.id s else s
    | none => s

/-! ### Picture headers -/

/-- A 33-bit timestamp unwrapped next to the last one (R150). -/
def unwrap (last : Option Nat) (pts : Nat) : Nat :=
  match last with
  | none => pts
  | some l =>
    let base := l / 2 ^ 33 * 2 ^ 33 + pts
    if l + 2 ^ 32 < base ∧ 2 ^ 33 ≤ base then base - 2 ^ 33 else if base + 2 ^ 32 < l then base + 2 ^ 33 else base

/-- A picture's headers are parsed: the timeline places it (R150), a sequence reset lets nothing reach back (R162), its references
are worked out (R161), and the decoder's reference state is updated. The first picture of a new segment is the first whose headers
come, in decoding order (log entry 175). -/
def takePicture (tile num k : Nat) (h : PicHdr) (labels : List TcLabel) (s : State) : State :=
  let m := getMedia s k
  let reset := resetsAt m h
  let m := if reset then { m with anchors := [], av1 := [], era := m.era + 1 } else m
  let m := { m with anchors := List.replicate h.refs.lostAnchors none ++ m.anchors }
  let pts := unwrap m.lastPts h.pts
  let dts := unwrap m.lastDts h.dts
  let offset : Int := if m.segPending then
      (match m.lastTime with | some l => l + h.period - pts | none => m.offset)
    else m.offset
  let time : Int := pts + offset
  let start := (m.sel.map (·.start)).getD 0
  let first := if time < start then m.firstTime else some (match m.firstTime with | some f => min f time | none => time)
  let (refs, gone) := refsOf m m.era h
  let (colloc, far) := collocOf m m.era h
  let pic : Pic := {
    hdr := h, time := time, dtime := dts + offset, era := m.era, refs := refs, colloc := colloc, broken := gone
    brokenParse := far, damaged := m.gap.contains h.pid, shows := h.refs.showSlot.bind fun i => mget m.av1 i
    labels := labels, tick := s.tick.count }
  let anchors := if h.codec = 1 ∧ h.kind ≤ 1 then (some h.id :: m.anchors).take 4 else m.anchors
  let av1 := if h.codec = 5 then
      (List.range 8).foldl (fun a i => if bitOf h.refs.refresh i then mput a i h.id else a) m.av1
    else m.av1
  let lastTime := match m.lastTime with | some l => some (if m.segPending then time else max l time) | none => some time
  let s := putMedia k { m with
    pics := m.pics ++ [pic], anchors := anchors, av1 := av1, offset := offset, segPending := false, seq := some (seqOf h)
    lastPts := some pts, lastDts := some dts, firstTime := first, lastTime := lastTime, pes := mput m.pes h.pid h.id } s
  if reset then releasePool tile num k s else s

/-- An audio gap (R164, R169): silence with FLAGS.PARTIAL, or the sample dropped. -/
def takeAudioGap (k : Nat) (s : State) : State :=
  match getCtx s k with
  | some c => (match getSet s c.sset with
    | some x => if bitOf x.policy 2 then dropSample k s else packFlag k 1 s
    | none => s)
  | none => s

/-- A band, or a part of an op, is never issued: its estimate exceeds the base budget, and the sample is dropped (R176, R223). -/
def neverIssued (tile num k engine : Nat) (s : State) : State :=
  if engine = 2 then dropSample k (addReg s (pSHP tile) (R.SHP.COUNT + 16) 1)
  else
    dropSample k (errInfo (pTEN tile) 5 num (penBit (pTEN tile) 7 (addReg s (pTEN tile) (R.TEN.COUNT + 36) 1)))

end Sys2Proof.Machine
end

