-- ==== Sys2Proof/Machine/Picture.lean ====
section
/-! DEFINITION. What the frame shaper makes of a frame's samples: deinterlacing, resizing, colour and output elements (R185, R186,
R188 to R192). A plane is a list of rows. -/

namespace Sys2Proof.Machine

abbrev Plane : Type := List (List Nat)

/-- A fraction: numerator and positive denominator. -/
abbrev Frac : Type := Int × Nat

def Frac.add (a b : Frac) : Frac := (a.1 * b.2 + b.1 * a.2, a.2 * b.2)
def Frac.mul (a b : Frac) : Frac := (a.1 * b.1, a.2 * b.2)

/-- Rounded to an integer above or below: which, is open. -/
def Frac.toInt (a : Frac) : Int :=
  if a.1 % (a.2 : Int) = 0 then a.1 / (a.2 : Int) else a.1 / (a.2 : Int) + (if Config.shapeUp a.1 a.2 then 1 else 0)

/-- The place of a sample on an axis of `n`; one outside it is taken from an open place. -/
def axisAt (i : Int) (n : Nat) : Nat :=
  if 0 ≤ i ∧ i < (n : Int) then i.toNat else Config.edgeSample i n % n

def sampleAt (p : Plane) (x y : Int) : Nat :=
  let row := p.getD (axisAt y p.length) []
  row.getD (axisAt x row.length) 0

/-! ### Deinterlacing (R186) -/

/-- The two fields of a frame, top first. -/
def fieldsOf (p : Plane) : Plane × Plane :=
  (((enumFrom 0 p).filter fun e => e.1 % 2 == 0).map (·.2), ((enumFrom 0 p).filter fun e => e.1 % 2 == 1).map (·.2))

/-- Two fields woven, the top field first. -/
def weave (top bottom : Plane) : Plane := (top.zip bottom).flatMap fun e => [e.1, e.2]

/-- The mean of two samples. -/
def meanOf (a b : Nat) : Nat := (Frac.toInt (((a + b : Nat) : Int), 2)).toNat

/-- Line `y` of a frame kept from one field, `odd` the bottom one: a missing line is the mean of the lines above and below. -/
def bobLine (field : Plane) (odd : Bool) (y : Nat) : List Nat :=
  let o : Nat := if odd then 1 else 0
  if y % 2 = o then field.getD (y / 2) []
  else
    let above : Int := ((y : Int) - 1 - o) / 2
    let a := field.getD (axisAt above field.length) []
    let b := field.getD (axisAt (above + 1) field.length) []
    (a.zip b).map fun e => meanOf e.1 e.2

def bob (field : Plane) (odd : Bool) : Plane := (List.range (2 * field.length)).map (bobLine field odd)

/-- A sample of the second field in adaptive deinterlacing: kept when it is within `thr` of the mean above and below, else the mean
of the pair of least difference among the directions -1, 0 and +1. -/
def adaptSample (a b : List Nat) (thr x v : Nat) : Nat :=
  let at_ (l : List Nat) (i : Int) : Nat := l.getD (axisAt i l.length) 0
  let pair (k : Int) : Nat × Nat := (at_ a (x + k), at_ b (x - k))
  let mid := pair 0
  if (((2 * v : Nat) : Int) - ((mid.1 + mid.2 : Nat) : Int)).natAbs ≤ 2 * thr then v
  else
    let l : List (Nat × Nat) := [pair (-1), mid, pair 1]
    let diff (e : Nat × Nat) : Nat := ((e.1 : Int) - (e.2 : Int)).natAbs
    let least := l.foldl (fun m e => min m (diff e)) (diff mid)
    let ties := l.filter fun e => diff e == least
    let e := ties.getD (Config.deintTie ties.length % ties.length) mid
    meanOf e.1 e.2

/-- Mode 3: the lines of the first field, and those of the second where they agree with it. `odd`: the first field is the bottom
one. -/
def adaptive (first second : Plane) (odd : Bool) (thr : Nat) : Plane :=
  (List.range (2 * first.length)).map fun y =>
    let o : Nat := if odd then 1 else 0
    if y % 2 = o then first.getD (y / 2) []
    else
      let above : Int := ((y : Int) - 1 - o) / 2
      let a := first.getD (axisAt above first.length) []
      let b := first.getD (axisAt (above + 1) first.length) []
      (enumFrom 0 (second.getD (y / 2) [])).map fun e => adaptSample a b thr e.1 e.2

/-- A plane after deinterlacing. `mode` is the profile's, 0 where AUTO leaves the frame woven; `tff` the top field comes first;
`late` SECOND_FIELD; `one` that the plane holds the targeted field alone. -/
def deinterlace (mode thr : Nat) (tff late one : Bool) (p : Plane) : Plane :=
  if one then bob p (mode != 1 && (late == tff))
  else
    let (top, bottom) := fieldsOf p
    if mode = 1 then bob top false
    else if mode = 2 then (if late == tff then bob bottom true else bob top false)
    else if mode = 3 then (if tff then adaptive top bottom false thr else adaptive bottom top true thr)
    else p

/-! ### Resizing (R189) -/

/-- The block of samples averaged first: the smallest of 1, 2, 4, 8, 16 and 32 that brings `n` / `m` to 1/2 or more. -/
def averaged (n m : Nat) : Nat := ((List.range 6).map (2 ^ ·)).find? (fun f => decide (m ≤ 2 * f * n)) |>.getD 32

/-- A kernel at the distance a / b, over a common divisor (R189, R191). -/
def kernel (filter a b : Nat) : Int :=
  let x : Int := a
  let y : Int := b
  if filter = 0 then (if a < b then y - x else 0)
  else if filter = 1 then
    if a < b then 3 * x ^ 3 - 5 * x ^ 2 * y + 2 * y ^ 3
    else if a < 2 * b then -x ^ 3 + 5 * x ^ 2 * y - 8 * x * y ^ 2 + 4 * y ^ 3
    else 0
  else Config.lanczos (a * 64 / b)

/-- Tap `k` of a phase of the profile's custom table (R192). -/
def customTap (prof : List Byte) (chroma : Bool) (phase k : Nat) : Int :=
  let v := leAt prof (if chroma then 64 + 1024 + 8 * phase + 2 * k else 64 + 16 * phase + 2 * k) 2
  if v < 32768 then v else (v : Int) - 65536

/-- The taps of output sample `i` of `n` on a crop axis of `m` samples: positions among the averaged blocks, and weights that are
divided by their sum. `shift` moves the position by 64ths of a sample. -/
def axisTaps (prof : List Byte) (chroma : Bool) (n m i : Nat) (shift : Int) : List (Int × Int) :=
  let f := averaged n m
  let m' := ceilDiv m f
  let p := Config.resizePos n m' i + shift / f
  let phase := (p % 64).toNat
  let half := if chroma then 1 else 3
  (List.range (2 * half + 2)).map fun k =>
    let dist := (((64 * k : Nat) : Int) - ((64 * half + phase : Nat) : Int)).natAbs
    let w := if leAt prof 0x1B 1 = 3 then customTap prof chroma phase k
      else if n < m' then kernel (leAt prof 0x1B 1) (dist * n) (64 * m') else kernel (leAt prof 0x1B 1) dist 64
    (p / 64 + k - half, w)

/-- A sample of the resized crop: `crop` gives the samples of the crop, `w` by `h` of them. -/
def resizedAt (crop : Int → Int → Nat) (fx fy : Nat) (tx ty : List (Int × Int)) : Frac :=
  let block (x y : Int) : Nat :=
    ((List.range fy).flatMap fun (j : Nat) => (List.range fx).map fun (i : Nat) => crop (fx * x + i) (fy * y + j)).sum
  let sum : Int := ty.foldl (fun a v => a + v.2 * tx.foldl (fun b u => b + u.2 * (block u.1 v.1 : Int)) 0) 0
  let den : Int := (ty.map (·.2)).sum * (tx.map (·.2)).sum * (fx * fy)
  if den < 0 then (-sum, den.natAbs) else (sum, max 1 den.natAbs)

/-- An axis of a plane's crop: where it starts, its samples, the size it is scaled to, and the shift of its chroma samples. -/
structure Axis where
  start : Nat
  size : Nat
  out : Nat
  shift : Int
  deriving DecidableEq, Repr

/-- Sample (i, j) of a plane's crop scaled to `ax.out` by `ay.out`. -/
def scaledAt (prof : List Byte) (chroma : Bool) (p : Plane) (ax ay : Axis) (i j : Nat) : Frac :=
  let at_ (x y : Int) : Nat := sampleAt p (ax.start + axisAt x ax.size) (ay.start + axisAt y ay.size)
  resizedAt at_ (averaged ax.out ax.size) (averaged ay.out ay.size) (axisTaps prof chroma ax.out ax.size i ax.shift)
    (axisTaps prof chroma ay.out ay.size j ay.shift)

/-- The luma and chroma axes of a crop under SRC_FMT: chroma is halved along an axis that its format halves, and its location type
moves it by a quarter of its samples (R182, R188). -/
def lumaAxis (start size out : Nat) : Axis := { start := start, size := size, out := out, shift := 0 }

def chromaX (fmt start size out : Nat) : Axis :=
  { start := start / 2, size := ceilDiv size 2, out := out, shift := if fmt / 8 % 2 = 0 then 16 else 0 }

def chromaY (fmt start size out : Nat) : Axis :=
  if fmt % 4 = 0 then
    { start := start / 2, size := ceilDiv size 2, out := out
      shift := if fmt / 8 % 8 < 2 then 0 else if fmt / 8 % 8 < 4 then 16 else -16 }
  else lumaAxis start size out

/-! ### Colour (R188) -/

/-- Kr and Kb of a matrix code, in 10,000ths. -/
def matrixK (m : Nat) : Nat × Nat := if m = 1 then (2990, 1140) else if m = 2 then (2126, 722) else (2627, 593)

/-- Luma from 0 to 1, and a chroma difference from -1/2 to 1/2, of an 8-bit value: limited range or full. -/
def lumaUnit (full : Bool) (v : Frac) : Frac := if full then (v.1, v.2 * 255) else (v.1 - 16 * v.2, v.2 * 219)
def chromaUnit (full : Bool) (v : Frac) : Frac := if full then (v.1 - 128 * v.2, v.2 * 255) else (v.1 - 128 * v.2, v.2 * 224)

/-- A value from 0 to 1 as a full-range 8-bit value, clamped. -/
def full8 (v : Frac) : Nat := (max 0 (min 255 (Frac.toInt (v.1 * 255, v.2)))).toNat

/-- The output channels of a pixel: RGB, YCbCr 4:4:4 or luma only. -/
def pixelOut (format matrix : Nat) (full : Bool) (y cb cr : Frac) : List Nat :=
  let l := lumaUnit full y
  let b := chromaUnit full cb
  let r := chromaUnit full cr
  if format = 2 then [full8 l]
  else if format = 1 then
    let c (v : Frac) : Nat := full8 (Frac.add v (128, 255))
    [full8 l, c b, c r]
  else
    let (kr, kb) := matrixK matrix
    let kg := 10000 - kr - kb
    let r' := Frac.add l (Frac.mul (((2 * (10000 - kr) : Nat) : Int), 10000) r)
    let b' := Frac.add l (Frac.mul (((2 * (10000 - kb) : Nat) : Int), 10000) b)
    let g' := Frac.add (Frac.add (Frac.mul (10000, kg) l) (Frac.mul (-(kr : Int), kg) r')) (Frac.mul (-(kb : Int), kg) b')
    [full8 r', full8 g', full8 b']

/-- n / d as a value: exact enough for one rounding to BF16 or FP16. -/
def quotient (n : Int) (d : Nat) : Num :=
  let q := n.natAbs * 2 ^ 40
  .fin (decide (n < 0)) (2 * (q / d) + (if q % d = 0 then 0 else 1)) (-41)

/-- The bytes of an output element: UINT8, or the value over 255 or 127.5 as OUT_NORM says. -/
def elementBytes (prof : List Byte) (v : Nat) : List Byte :=
  let ty := leAt prof 6 1
  if ty = 0 then leBytes 1 v
  else leBytes 2 (encodeNum (if ty = 1 then 0x10 else 0x11) 0
    (if leAt prof 7 1 = 0 then quotient v 255 else quotient (2 * (v : Int) - 255) 255))

/-! ### The output (R189, R190) -/

/-- How a crop is laid into the output: size of the scaled image, and where its first sample stands there (R189). -/
structure Fit where
  w : Nat
  h : Nat
  x : Int
  y : Int
  deriving DecidableEq, Repr

/-- FIT 0 stretches; 1 scales inside the output and centres; 2 covers it and crops equally. `dw` over `dd` is the display width. -/
def fitOf (prof : List Byte) (h dw dd : Nat) : Fit :=
  let ow := leAt prof 0x14 2
  let oh := leAt prof 0x16 2
  let fit := leAt prof 0xB 1
  if fit = 0 then { w := ow, h := oh, x := 0, y := 0 }
  else
    let byWidth : Bool := decide (ow * dd * h ≤ oh * dw)
    let r (a b : Nat) : Nat := (Frac.toInt ((a : Int), max 1 b)).toNat
    let (sw, sh) := if byWidth == (fit == 1) then (ow, r (ow * dd * h) dw) else (r (dw * oh) (dd * h), oh)
    { w := sw, h := sh, x := ((ow : Int) - sw) / 2, y := ((oh : Int) - sh) / 2 }

/-- What the colour conversion of a frame takes: matrix code, full range, SRC_FMT. -/
structure Colour where
  matrix : Nat
  full : Bool
  fmt : Nat
  deriving DecidableEq, Repr

/-- Output pixel (i, j) of a frame: PAD outside the scaled image. `planes` are Y, Cb and Cr, 10-bit samples divided by 4; without
chroma planes chroma is neutral. -/
def pixelAt (prof : List Byte) (c : Colour) (planes : List Plane) (x w y h : Nat) (f : Fit) (i j : Nat) : List Nat :=
  let px : Int := i - f.x
  let py : Int := j - f.y
  let out := pixelOut (leAt prof 5 1) c.matrix c.full
  if px < 0 ∨ (f.w : Int) ≤ px ∨ py < 0 ∨ (f.h : Int) ≤ py then
    out (leAt prof 0x1D 1, 1) (leAt prof 0x1E 1, 1) (leAt prof 0x1F 1, 1)
  else
    let depth := if c.fmt / 4 % 2 = 1 then 4 else 1
    let s (v : Frac) : Frac := (v.1, v.2 * depth)
    let luma := scaledAt prof false (planes.getD 0 []) (lumaAxis x w f.w) (lumaAxis y h f.h) px.toNat py.toNat
    let chroma (n : Nat) : Frac :=
      if c.fmt % 4 = 2 then (128 * depth, 1)
      else scaledAt prof true (planes.getD n []) (chromaX c.fmt x w f.w) (chromaY c.fmt y h f.h) px.toNat py.toNat
    out (s luma) (s (chroma 1)) (s (chroma 2))

/-- The element bytes of rows `first` to `first + rows - 1` of each output plane. -/
def outputPlanes (prof : List Byte) (c : Colour) (planes : List Plane) (x w y h : Nat) (f : Fit) (first rows : Nat) : List (List Byte) :=
  let channels := if leAt prof 5 1 = 2 then 1 else 3
  let pixels := (List.range rows).flatMap fun j => (List.range (leAt prof 0x14 2)).map fun i => pixelAt prof c planes x w y h f i (first + j)
  (List.range channels).map fun n => pixels.flatMap fun p => elementBytes prof (p.getD n 0)

end Sys2Proof.Machine
end

