-- ==== Sys2Proof/Machine/Motion.lean ====
section
/-! DEFINITION. Motion tokens: the grid, the cells and what they take from the coded blocks of a picture (R172 to R175). -/

namespace Sys2Proof.Machine

/-- The quotient n / d rounded to nearest, halves away from zero. -/
def roundAway (n : Int) (d : Nat) : Int :=
  if n < 0 then -((2 * -n + d) / (2 * d)) else (2 * n + d) / (2 * d)

def clampInt (lo hi v : Int) : Int := max lo (min hi v)

/-- An n-bit two's-complement field. -/
def twos (n : Nat) (v : Int) : Nat := (v % (2 ^ n : Nat)).toNat

/-- What two areas share. -/
def overlap (a b : Area) : Nat :=
  (min (a.x + a.w) (b.x + b.w) - max a.x b.x) * (min (a.y + a.h) (b.y + b.h) - max a.y b.y)

def predCode : PredMode → Nat
  | .intra => 0
  | .skip => 1
  | .forward => 2
  | .backward => 3
  | .bi => 4

/-- Blocks that overlap a cell, each with its area inside it. -/
def cellBlocks (cell : Area) (m : CodedMotion) : List (PredBlock × Nat) :=
  (m.preds.map fun b => (b, overlap b.area cell)).filter fun e => e.2 != 0

def interBlocks (l : List (PredBlock × Nat)) : List (PredBlock × Nat) := l.filter fun e => e.1.mode != .intra

/-- A block's vector in quarter samples, normalised to one frame period: forward negated, backward, or the mean of the two
(R174). -/
def blockVector (b : PredBlock) (f r : Int) : Frac :=
  let fwd : Frac := (-4 * f, 2 ^ b.prec * max 1 b.fd)
  let bwd : Frac := (4 * r, 2 ^ b.prec * max 1 b.bd)
  match b.mode with
  | .backward => bwd
  | .bi => let s := Frac.add fwd bwd; (s.1, 2 * s.2)
  | _ => fwd

/-- The area-weighted mean of the inter blocks' vectors, rounded and clamped (R174). -/
def meanVector (l : List (PredBlock × Nat)) (f r : PredBlock → Int) : Int :=
  let l := interBlocks l
  let area := (l.map (·.2)).sum
  if area = 0 then 0
  else
    let sum := l.foldl (fun a e => let v := blockVector e.1 (f e.1) (r e.1); Frac.add a (v.1 * e.2, v.2)) (0, 1)
    clampInt (-2048) 2047 (roundAway sum.1 (sum.2 * area))

/-- MODE of a cell: the mode with the most area, the lower code on a tie (R174). -/
def cellMode (l : List (PredBlock × Nat)) : Nat :=
  let area (m : Nat) : Nat := ((l.filter fun e => predCode e.1.mode == m).map (·.2)).sum
  (List.range 5).foldl (fun best m => if area best < area m then m else best) 0

/-- DIST: of the inter block with the most area, of its backward reference where it has no other (R173, R174). Of two blocks of
equal area the first in the picture's list gives it (log entry 171). -/
def cellDist (l : List (PredBlock × Nat)) : Nat :=
  match (interBlocks l).foldl (fun (best : Option (PredBlock × Nat)) e =>
      match best with | none => some e | some x => if x.2 < e.2 then some e else some x) none with
  | none => 0
  | some (b, _) => max 1 (min 7 (if b.mode = .backward then b.bd else b.fd))

/-- floor(log2(1 + E)), at most 15. -/
def energyCode (e : Nat) : Nat := min 15 ((1 + e).log2)

/-- Sum, in 2^-16, of the residual approximation over the part of an area that DCT-II blocks cover (R174). -/
def residualSum (a : Area) (m : CodedMotion) : Int :=
  (m.trans.filter (·.dct2)).foldl (fun s b =>
    let x0 := max a.x b.area.x
    let y0 := max a.y b.area.y
    let nx := min (a.x + a.w) (b.area.x + b.area.w) - x0
    let ny := min (a.y + a.h) (b.area.y + b.area.h) - y0
    (List.range ny).foldl (fun s j => (List.range nx).foldl (fun s i =>
      s + Config.residualAt b.dc b.hor b.ver b.area.w b.area.h (x0 + i - b.area.x) (y0 + j - b.area.y)) s) s) 0

/-- Mean residual of an area, in 8-bit units over 2^16. -/
def meanResidual (depth : Nat) (a : Area) (m : CodedMotion) : Frac := (residualSum a m, 2 ^ 16 * depth * max 1 (a.w * a.h))

/-- Half the difference of two means, and a mean, as signed bytes (R173, R174). -/
def signedByte (v : Frac) : Nat := twos 8 (clampInt (-128) 127 (Frac.toInt v))
def halfDiff (a b : Frac) : Frac := let d := Frac.add a (-b.1, b.2); (d.1, 2 * d.2)

/-- A motion token (R173): `code` is the CELL field. A damaged cell has MODE 5 and every other field 0. -/
def motionToken (code depth : Nat) (cell : Area) (damaged : Bool) (m : CodedMotion) : Nat :=
  if damaged then 5 * 2 ^ 59
  else
    let l := cellBlocks cell m
    let mode := cellMode l
    let dist := if mode = 0 then 0 else cellDist l
    let mean := meanResidual depth
    let left := { cell with w := cell.w / 2 }
    let right := { cell with x := cell.x + cell.w / 2, w := cell.w - cell.w / 2 }
    let top := { cell with h := cell.h / 2 }
    let bottom := { cell with y := cell.y + cell.h / 2, h := cell.h - cell.h / 2 }
    let energy := (m.trans.map fun b => b.energy * overlap b.area cell / max 1 (b.area.w * b.area.h)).sum
    code * 2 ^ 62 + mode * 2 ^ 59 + dist * 2 ^ 56 + twos 12 (meanVector l (·.fx) (·.bx)) * 2 ^ 44 +
      twos 12 (meanVector l (·.fy) (·.by_)) * 2 ^ 32 + signedByte (mean cell m) * 2 ^ 24 +
      signedByte (halfDiff (mean right m) (mean left m)) * 2 ^ 16 + signedByte (halfDiff (mean bottom m) (mean top m)) * 2 ^ 8 +
      energyCode (energy / (depth * depth * max 1 (cell.w * cell.h))) * 16 + min 15 (l.length - 1)

/-- The CELL code for a crop: the smallest cell with at most 255 columns and rows (R172). -/
def cellCodeFor (w h : Nat) : Nat :=
  match (List.range 4).find? fun i => decide (ceilDiv w (16 * 2 ^ i) ≤ 255) && decide (ceilDiv h (16 * 2 ^ i) ≤ 255) with
  | some i => i
  | none => 3

/-- The motion data of a field in frame lines: vertical positions and vectors doubled (R172). -/
def frameLines (m : CodedMotion) : CodedMotion :=
  let tall (a : Area) : Area := { a with y := 2 * a.y, h := 2 * a.h }
  { preds := m.preds.map fun b => { b with area := tall b.area, fy := 2 * b.fy, by_ := 2 * b.by_ }
    trans := m.trans.map fun b => { b with area := tall b.area } }

/-- The luma area of unit `u` of a picture `w` luma samples wide. -/
def unitArea (unit w u : Nat) : Area :=
  let cols := ceilDiv w unit
  { x := u % cols * unit, y := u / cols * unit, w := unit, h := unit }

/-- The tokens of a crop, in raster order (R172, R175); `bad` are areas of damaged units. -/
def motionTokens (crop : Area) (depth : Nat) (bad : List Area) (m : CodedMotion) : List Byte :=
  let code := cellCodeFor crop.w crop.h
  let size := 16 * 2 ^ code
  let cols := ceilDiv crop.w size
  (List.range (cols * ceilDiv crop.h size)).flatMap fun i =>
    let x := i % cols * size
    let y := i / cols * size
    let cell : Area := { x := crop.x + x, y := crop.y + y, w := min size (crop.w - x), h := min size (crop.h - y) }
    leBytes 8 (motionToken code depth cell (bad.any fun a => overlap a cell != 0) m)

end Sys2Proof.Machine
end

