-- ==== Sys2Proof/Machine/DecodeSlice.lean ====
section
/-! DEFINITION. The decode slice: decode, parse and release descriptors (R157, R178, R180 to R184), concealment (R166) and motion
records (R170 to R175). -/

namespace Sys2Proof.Machine

/-! ### Costs and sizes (R177, R180) -/

/-- W of R177: by bit depth and chroma format of SRC_FMT. -/
def picW (p : PicHdr) : Nat :=
  let wide := p.disp.srcFmt % 4 == 1
  if p.disp.srcFmt / 4 % 2 = 1 then (if wide then 8 else 5) else if wide then 6 else 4

/-- E of R177: coded bits for each cycle. -/
def picE (p : PicHdr) : Nat := if p.codec = 1 then 8 else if p.codec = 2 ∧ p.code.cavlc then 4 else 2

/-- Units of a picture. -/
def picUnits (p : PicHdr) : Nat := ceilDiv p.disp.width (max 1 p.code.unit) * ceilDiv p.disp.height (max 1 p.code.unit)

/-- Luma samples of a picture that `n` units from `first` on cover. -/
def unitsLuma (p : PicHdr) (first n : Nat) : Nat :=
  let whole : Area := { x := 0, y := 0, w := p.disp.width, h := p.disp.height }
  ((List.range n).map fun i => overlap (unitArea (max 1 p.code.unit) p.disp.width (first + i)) whole).sum

/-- Coded bits of `n` units from `first` on. -/
def unitsBits (p : PicHdr) (first n : Nat) : Nat := ((p.code.bits.drop first).take n).sum

/-- The estimate of a decode or parse item (R177). -/
def picEstimate (p : PicHdr) (parse : Bool) (first n : Nat) : Nat :=
  max (ceilDiv (unitsLuma p first n * 11 * picW p) (if parse then 300 else 75)) (ceilDiv (unitsBits p first n) (picE p))

/-- Bytes of a stored picture (R180): 1.5, 2, 3 or 4 per luma sample for W = 4, 6, 5 or 8; 16 for each 16 × 16 block of a
parsed one. -/
def picBytes (p : PicHdr) (parsed : Bool) : Nat :=
  let luma := p.disp.width * p.disp.height
  if parsed then 16 * (ceilDiv p.disp.width 16 * ceilDiv p.disp.height 16)
  else if picW p = 4 then ceilDiv (luma * 3) 2 else if picW p = 6 then 2 * luma else if picW p = 5 then 3 * luma else 4 * luma

/-- Where an item's coded bytes lie, and how many there are (R181). -/
def unitsAddr (p : PicHdr) (first : Nat) : Nat := p.code.addr + unitsBits p 0 first / 8
def unitsBytes (p : PicHdr) (first n : Nat) : Nat := ceilDiv (unitsBits p 0 (first + n)) 8 - unitsBits p 0 first / 8

/-! ### Descriptors (R180, R181) -/

/-- BAD_DESC: a reserved code or a reserved bit. -/
def badDecodeDesc (d : List Byte) : Bool :=
  let op := byteAt d 0
  op == 0 || decide (3 < op) ||
  (op != 3 && (byteAt d 1 == 0 || decide (5 < byteAt d 1) || decide (16 < byteAt d 0x25))) ||
  decide (128 ≤ leAt d 2 2) || decide (31 < byteAt d 0x24) || leAt d 0x26 2 != 0 || leAt d 0x38 8 != 0

def descFlag (d : List Byte) (i : Nat) : Bool := bitOf (leAt d 2 2) i

def putPool (k : Nat) (x : PoolSlot) (s : State) : State :=
  let m := getMedia s k
  putMedia k { m with pool := m.pool.filter (fun y => y.slot != x.slot) ++ [x] } s

/-- The picture a descriptor is for: its first item's coded bytes are that picture's, of the field it names; a later item's picture
is the one in the slot. -/
def descPic (m : Media) (d : List Byte) : Option Pic :=
  let field := if descFlag d 0 then (if descFlag d 1 then 2 else 1) else 0
  if descFlag d 2 then
    m.pics.find? fun p => unitsAddr p.hdr (leAt d 0x1C 4) == leAt d 0x10 8 && p.hdr.field == field && p.hdr.codec == byteAt d 1
  else (m.pool.find? fun x => x.slot == byteAt d 0x24).bind fun x => findPic m x.pic

/-- A slot for a picture that no item has worked on yet. -/
def freshSlot (slot tick : Nat) (p : Pic) (parsed : Bool) : PoolSlot := {
  slot := slot, pic := p.hdr.id, parsed := parsed, bytes := picBytes p.hdr parsed, issued := 0, units := 0, stopped := false
  bad := [], concealed := false, done := false, tick := tick, planes := [], motion := ⟨[], []⟩ }

/-- The picture's pool entry, or a new one where the context and the tile have room (R180). -/
def poolEntry (s : State) (tile k slot : Nat) (p : Pic) (parsed : Bool) : Option PoolSlot :=
  let m := getMedia s k
  match m.pool.find? fun x => x.slot == slot && x.pic == p.hdr.id && !x.done with
  | some x => some x
  | none =>
    let others := m.pool.filter fun x => x.slot != slot
    let freed := ((m.pool.filter fun x => x.slot == slot).map (·.bytes)).sum
    let cap := fld s (pDEC tile) R.DEC.POOL_CFG 0 15 * 2 ^ 20
    if others.length < 32 ∧ poolUsed s tile - freed + picBytes p.hdr parsed ≤ cap then
      some (freshSlot slot s.tick.count p parsed)
    else none

/-- Slots a descriptor names as references. -/
def refSlots (d : List Byte) : List Nat := (List.range (min 16 (byteAt d 0x25))).map fun i => byteAt d (0x28 + i)

def poolSlot (m : Media) (slot : Nat) : Option PoolSlot := m.pool.find? fun x => x.slot == slot && x.done

/-- References the descriptor names that the pool does not hold complete. -/
def refMissing (m : Media) (d : List Byte) : Bool := (refSlots d).any fun r => (poolSlot m r).isNone

/-! ### Samples and concealment (R157, R166) -/

/-- A picture's place in output order, as a decoder holds it: the picture, its planes, and its field. -/
abbrev Held : Type := PoolSlot × Pic

/-- The nearest earlier decoded picture in output order, of the same parity for a field (R166). -/
def substituteFor (m : Media) (p : Pic) : Option PoolSlot :=
  let held : List Held := m.pool.filterMap fun x =>
    if x.done ∧ ¬ x.parsed ∧ x.pic ≠ p.hdr.id then (findPic m x.pic).map fun q => (x, q) else none
  let cand := held.filter fun e => decide (e.2.time ≤ p.time) && (p.hdr.field == 0 || e.2.hdr.field == p.hdr.field)
  (cand.foldl (fun (best : Option Held) e =>
    match best with | none => some e | some b => if b.2.time < e.2.time then some e else some b) none).map (·.1)

/-- Sample (x, y) of a plane of a substitute: mid-grey where there is none. -/
def concealSample (ten : Bool) (sub : Option PoolSlot) (plane x y : Nat) : Nat :=
  match sub with
  | some b => ((b.planes.getD plane []).getD y []).getD x (if ten then 512 else 128)
  | none => if ten then 512 else 128

/-- The unit of a luma position. -/
def unitAt (p : PicHdr) (x y : Nat) : Nat :=
  y / max 1 p.code.unit * ceilDiv p.disp.width (max 1 p.code.unit) + x / max 1 p.code.unit

/-- Units that a first error conceals: from it to the end of its slice; from one left undecoded by a stopped item, to the next slice
that starts (R166). -/
def sliceTail (p : PicHdr) (u : Nat) : List Nat :=
  let stop := ((p.code.slices.filter fun x => decide (u < x)).foldl min (picUnits p))
  (List.range (stop - u)).map (u + ·)

/-- Size and subsampling of plane `n` of a picture with its window: width, height, samples of luma along x and y for each. -/
def planeForm (p : PicHdr) (n : Nat) : Nat × Nat × Nat × Nat :=
  let f := p.disp.srcFmt % 4
  let sx := if n = 0 ∨ f = 2 then 1 else 2
  let sy := if n = 0 ∨ f ≠ 0 then 1 else 2
  (ceilDiv p.disp.window.w sx, ceilDiv p.disp.window.h sy, sx, sy)

/-- The output picture: the standard's decoding process over its coded bytes and references, cropped to its window, without film
grain; concealed units come from the substitute (R157, R166). -/
def decodedPlanes (p : PicHdr) (coded : List Byte) (refs : List (List (List (List Nat)))) (bad : List Nat) (sub : Option PoolSlot) :
    List (List (List Nat)) :=
  let ten := p.disp.srcFmt / 4 % 2 == 1
  (List.range (if p.disp.srcFmt % 4 = 2 then 1 else 3)).map fun n =>
    let (w, h, sx, sy) := planeForm p n
    (List.range h).map fun y => (List.range w).map fun x =>
      let lx := x * sx + p.disp.window.x
      let ly := y * sy + p.disp.window.y
      if bad.contains (unitAt p lx ly) then concealSample ten sub n x y
      else Config.decoded p.codec coded refs n (lx / sx) (ly / sy) % (if ten then 1024 else 256)

/-- The planes of the references in list order; an absent one is replaced by the substitute, or by mid-grey (R166). -/
def refPlanes (m : Media) (p : Pic) (d : List Byte) : List (List (List (List Nat))) :=
  (refSlots d).map fun r => match poolSlot m r with
    | some x => x.planes
    | none => match substituteFor m p with
      | some b => b.planes
      | none => decodedPlanes p.hdr [] [] (List.range (picUnits p.hdr)) none

/-- A picture is decoded from a concealed one, or from one that is absent. -/
def fromConcealed (m : Media) (p : Pic) (d : List Byte) : Bool :=
  p.broken || (refSlots d).any fun r => match poolSlot m r with | some x => x.concealed | none => true

/-! ### Motion records (R170 to R175) -/

/-- The shown frame a target stands for: the one its pictures are of. -/
def targetFrame (m : Media) (x : StreamSet) (prof : List Byte) (t : Target) : Option Pic :=
  (shownFrames m).find? fun p => framePics m prof p (frameTime x t.frame) == t.pics

/-- The timecode of a target: of the replacement where it is replaced (R167). -/
def targetLabel (m : Media) (x : StreamSet) (prof : List Byte) (t : Target) : Nat × Bool :=
  match targetFrame m x prof t with
  | some p => labelOf m p
  | none => labelAt m (frameTime x t.frame)

/-- The picture whose motion data a target's record takes: a frame, or the field that comes first in time (R172). -/
def motionPic (m : Media) (t : Target) : Option Pic :=
  (t.pics.filterMap (findPic m)).foldl (fun (best : Option Pic) p =>
    match best with | none => some p | some b => if p.time < b.time then some p else some b) none

/-- The crop the grid covers: the context's, or the whole frame (R172). -/
def gridArea (m : Media) (p : Pic) : Area :=
  m.crop.getD { x := 0, y := 0, w := p.hdr.disp.window.w, h := if p.hdr.field = 0 then p.hdr.disp.window.h else 2 * p.hdr.disp.window.h }

/-- Header flags of a record: CONCEALED, TC_DERIVED, DROP_FRAME (R132). -/
def recordBits (concealed derived drop : Bool) : Nat :=
  (if concealed then 1 else 0) + (if derived then 2 else 0) + (if drop then 4 else 0)

/-- The motion record of a target, from the pool slot of its picture (R175). -/
def motionRecord (m : Media) (p : Pic) (x : PoolSlot) (label : Nat × Bool) (group : Nat) (concealed : Bool) : List Byte :=
  let a := gridArea m p
  let size := 16 * 2 ^ cellCodeFor a.w a.h
  let cols := ceilDiv a.w size
  let rows := ceilDiv a.h size
  let lines (u : Nat) : Area :=
    let b := unitArea (max 1 p.hdr.code.unit) p.hdr.disp.width u
    if p.hdr.field = 0 then b else { b with y := 2 * b.y, h := 2 * b.h }
  tokenRecord 3 (recordBits concealed label.2 (dropFrame m)) 0 (cols * rows) label.1 group (cols * 256 + rows)
    (motionTokens a (if p.hdr.disp.srcFmt / 4 % 2 = 1 then 4 else 1) (x.bad.map lines)
      (if p.hdr.field = 0 then x.motion else frameLines x.motion))

/-- A target of place `i` in its sample makes a motion record (R170, R171). -/
def makesMotion (m : Media) (x : StreamSet) (i : Nat) : Bool :=
  bitOf x.outputs 1 && !noCompressedPath m && (i % x.group != 0 || !bitOf x.outputs 0)

/-- A record of the stream core's joins the sample: it stands in RECORD where the region has room for it (R205). -/
def stageRecord (tile k : Nat) (r : List Byte) (s : State) : State :=
  match roomFor s tile 4 r.length with
  | some o =>
    let off := regionBase s tile 4 + o
    addRecord k { off := off, len := r.length, own := [] } (sliceWrite tile 4 off r (holdSpace tile k 4 o r.length s))
  | none => addRecord k { off := 0, len := r.length, own := r } s

/-- The record of one target joins the sample once its picture is in the pool, whether it was decoded for this sample or retained;
a target more than half concealed drops the sample (R166, R170). -/
def addMotion (num k : Nat) (t : Target) (s : State) : State :=
  match getCtx s k with
  | none => s
  | some c =>
    match c.cur, getSet s c.sset with
    | some smp, some x =>
      let m := getMedia s k
      let i := t.frame - smp.firstFrame
      (match motionPic m t with
       | none => s
       | some p => match m.pool.find? fun y => y.pic == p.hdr.id && y.done with
         | none => s
         | some y =>
           if t.made ∨ ¬ makesMotion m x i then s
           else
             let r := motionRecord m p y (targetLabel m x (profileBytes s x.prof) t) (i / x.group) (y.concealed || t.concealed)
             let s := putMedia k { m with targets := m.targets.map fun u => if u.frame = t.frame then { u with made := true } else u } s
             stageRecord (numTile num) k r (addReg s (pTEN (numTile num)) (R.TEN.COUNT + 32) 1))
    | _, _ => s

/-- The records of every target whose picture is complete. -/
def addMotions (num k : Nat) (s : State) : State := (getMedia s k).targets.foldl (fun s t => addMotion num k t s) s

/-- Targets of a picture learn that it is concealed, or decoded from a concealed one: the pack is flagged, and a target more than
half concealed drops the sample (R166). -/
def concealTargets (k : Nat) (x : PoolSlot) (total : Nat) (s : State) : State :=
  if ¬ x.concealed then s
  else
    let m := getMedia s k
    let hit (t : Target) : Bool := t.pics.contains x.pic
    if ¬ m.targets.any hit then s
    else
      let s := packFlag k 2 (putMedia k { m with targets := m.targets.map fun t => if hit t then { t with concealed := true } else t } s)
      if total < 2 * x.bad.length then dropSample k s else s

/-! ### Running items -/

/-- Units of an item that are concealed or left undecoded: from each one in error to the end of its slice, and those before the
first slice that starts after a stopped item (R166). -/
def itemBad (p : PicHdr) (first n : Nat) (before bad : List Nat) : List Nat :=
  let tail := (bad.filter fun u => decide (first ≤ u) && decide (u < first + n)).flatMap (sliceTail p)
  ((before ++ tail).filter fun u => decide (first ≤ u) && decide (u < first + n)).eraseDups

/-- A decode or parse item ends with `status` (R165, R166, R183): its units join the picture's; without CONCEAL the first error leaves
the rest of the picture undecoded. After its LAST_ITEM the picture is complete, and its samples or motion data stand in the
pool. -/
def finishPicItem (tile num k : Nat) (d : List Byte) (parsed : Bool) (p : Pic) (x : PoolSlot) (status : Nat) (bad : List Nat)
    (motion : CodedMotion) (s : State) : State :=
  let id := p.hdr.id
  let conceal := descFlag d 4
  let first := leAt d 0x1C 4
  let n := leAt d 0x20 4
  let m := getMedia s k
  let carried := x.bad.flatMap (sliceTail p.hdr)
  let bad := itemBad p.hdr first n (if conceal then carried else []) bad
  let stopped := x.stopped || (status != 0 && !conceal)
  let last := descFlag d 3 && !stopped
  let all := x.bad ++ bad.filter fun u => !x.bad.contains u
  let coded := memRead s.mem (dramKey p.hdr.code.addr) (unitsBytes p.hdr 0 (picUnits p.hdr))
  let x := { x with
    units := x.units + n, stopped := stopped, bad := all, done := last, tick := s.tick.count
    concealed := x.concealed || !all.isEmpty || fromConcealed m p d
    planes := if last ∧ ¬ parsed then decodedPlanes p.hdr coded (refPlanes m p d) all (substituteFor m p) else []
    motion := { preds := x.motion.preds ++ motion.preds, trans := x.motion.trans ++ motion.trans } }
  let s := showPool tile (putPool k x s)
  let s := if status = 1 then decEvent tile num 5 0 1 s else s
  let s := if status ≠ 0 then damagePic tile num k id s else s
  let s := if last then
      let s := decCount tile (if parsed then 1 else 0) s
      let s := perfEvent (pDEC tile) (if parsed then 0x101 else 0x100) 0xFF 1 s
      let s := if parsed then s else perfEvent (pDEC tile) 0x102 0xFF (p.hdr.disp.width * p.hdr.disp.height / 256) s
      let s := if all.isEmpty then s else decCount tile 2 s
      addMotions num k (concealTargets k x (picUnits p.hdr) s)
    else s
  tagStage 1 (curPack s k) 1 true s

/-- The head descriptor of the decode slice, when it is one of opcode `op` (a reserved opcode counts as DECODE). -/
def decodeHead (s : State) (tile op : Nat) : Option (List Byte) :=
  match headDesc s tile 1 with
  | some d => if byteAt d 0 = op ∨ (op = 1 ∧ (byteAt d 0 = 0 ∨ 3 < byteAt d 0)) then some d else none
  | none => none

/-- A decode or parse item is stopped at twice its estimate: LIMIT, and the picture is damaged from the first unit left
undecoded (R166, R178). -/
def limitPicItem (tile : Nat) (e : ItemEnd) (d : List Byte) (s : State) : State :=
  let num := leAt d 4 2
  let ends (n : Nat) (s : State) : State := endItem tile 1 3 num (leAt d 8 4) e.cyc n 0 s
  if stale s tile d then dropStale tile 1 s
  else match descCtx s tile d with
    | none => ends e.bad.length s
    | some (k, _) =>
      let s := decEvent tile num 9 5 3 s
      let m := getMedia s k
      match descPic m d with
      | none => ends e.bad.length s
      | some p =>
        match poolEntry s tile k (byteAt d 0x24) p (byteAt d 0 == 2) with
        | none => ends e.bad.length s
        | some x =>
          let bad := itemBad p.hdr (leAt d 0x1C 4) (leAt d 0x20 4) [] e.bad
          ends bad.length (finishPicItem tile num k d (byteAt d 0 == 2) p x 3 e.bad ⟨[], []⟩ s)

/-- The item's picture and references were complete at the edge that opened the tick: its headers and coded bytes were taken before
it (R127). -/
def pictureFresh (s : State) (p : Pic) : Bool := decide (s.tick.count ≤ p.tick)

/-- A decode item (`op` 1) or parse item (`op` 2) runs. One that reaches twice its estimate is stopped (R178). -/
def runPicItem (op tile : Nat) (e : ItemEnd) (motion : CodedMotion) (s : State) : State :=
  match decodeHead s tile op with
  | none => s
  | some d =>
    let num := leAt d 4 2
    let ends (status hi : Nat) (s : State) : State := endItem tile 1 status num (leAt d 8 4) e.cyc hi 0 s
    if stale s tile d then dropStale tile 1 s
    else if badDecodeDesc d then ends 6 0 s
    else match descCtx s tile d with
      | none => ends 6 0 s
      | some (k, _) =>
        let m := getMedia s k
        match descPic m d with
        | none => ends 6 0 s
        | some p =>
          if pictureFresh s p then s
          else if 2 * leAt d 0xC 4 ≤ workCycles e.cyc then limitPicItem tile e d s
          else match poolEntry s tile k (byteAt d 0x24) p (op == 2) with
          | none =>
            let x := getEng s tile 1
            if x.stall = s.tick.count + 1 then s
            else decEvent tile num 10 6 6 (putEng tile 1 { x with stall := s.tick.count + 1 } s)
          | some x =>
            let s := tagStage 1 (curPack s k) 0 false s
            let status := if refMissing m d ∧ ¬ descFlag d 4 then 2
              else if e.status = 1 ∨ e.status = 5 then e.status else 0
            let left := if x.stopped ∨ status = 2 then leAt d 0x20 4
              else (itemBad p.hdr (leAt d 0x1C 4) (leAt d 0x20 4) [] e.bad).length
            ends status left (finishPicItem tile num k d (op == 2) p x status e.bad motion s)

/-- DECODE: the decode slice runs the descriptor at its head. -/
def execDecode (tile : Nat) (e : ItemEnd) (motion : CodedMotion) (s : State) : Host.Outcome State Fault Refusal :=
  .next (runPicItem 1 tile e motion s)

/-- PARSE: syntax and motion data only (R170). -/
def execParse (tile : Nat) (e : ItemEnd) (motion : CodedMotion) (s : State) : Host.Outcome State Fault Refusal :=
  .next (runPicItem 2 tile e motion s)

/-- RELEASE_SLOT: the slot named by a RELEASE descriptor is freed. -/
def execReleaseSlot (tile : Nat) (s : State) : Host.Outcome State Fault Refusal :=
  .next <|
    match decodeHead s tile 3 with
    | none => s
    | some d =>
      let num := leAt d 4 2
      let ends (status : Nat) (s : State) : State := endItem tile 1 status num (leAt d 8 4) ⟨0, 0, 0⟩ 0 0 s
      if stale s tile d then dropStale tile 1 s
      else if badDecodeDesc d then ends 6 s
      else match descCtx s tile d with
        | none => ends 6 s
        | some (k, _) =>
          let m := getMedia s k
          ends 0 (showPool tile (putMedia k { m with pool := m.pool.filter fun x => x.slot != byteAt d 0x24 } s))

end Sys2Proof.Machine
end

