-- ==== Sys2Proof/Machine/Shaper.lean ====
section
/-! DEFINITION. The frame shaper: SHAPE descriptors, crop, scale and output (R182, R185 to R190), shaper profiles (R191 to
R194), and the shard probe (R193, R195). -/

namespace Sys2Proof.Machine

def shpCount (tile i : Nat) (s : State) : State :=
  setRegN s (pSHP tile) (R.SHP.COUNT + 4 * i) ((reg s (pSHP tile) (R.SHP.COUNT + 4 * i) + 1) % 2 ^ 32)

/-! ### Crop (R187) -/

/-- A row or column of `n` luma samples is black: at least BLACK_PCT % of them are at or below BLACK_LEVEL, 10-bit samples
divided by 4 first. -/
def blackLine (prof : List Byte) (ten : Bool) (n : Nat) (sample : Nat → Nat) : Bool :=
  let low := (List.range n).filter fun i => decide ((if ten then sample i / 4 else sample i) ≤ byteAt prof 9)
  decide (byteAt prof 0xA * n ≤ 100 * low.length)

/-- The active area left when the unbroken runs of black rows and columns at the edges are excluded, each edge moved inwards
to an even position. -/
def detectedArea (prof : List Byte) (ten : Bool) (w h : Nat) (luma : List (List Nat)) : Area :=
  let at_ (i j : Nat) : Nat := (luma.getD j []).getD i 0
  let cols := (List.range w).map fun i => blackLine prof ten h fun j => at_ i j
  let rows := (List.range h).map fun j => blackLine prof ten w fun i => at_ i j
  let run (l : List Bool) : Nat := (l.takeWhile id).length
  let x := (run cols + 1) / 2 * 2
  let y := (run rows + 1) / 2 * 2
  let r := (w - run cols.reverse) / 2 * 2
  let b := (h - run rows.reverse) / 2 * 2
  { x := x, y := y, w := r - x, h := b - y }

/-- A fixed crop clipped to the frame; none when no area is left. -/
def fixedArea (prof : List Byte) (w h : Nat) : Option Area :=
  let x := leAt prof 0xC 2
  let y := leAt prof 0xE 2
  let cw := min (leAt prof 0x10 2) (w - x)
  let ch := min (leAt prof 0x12 2) (h - y)
  if cw = 0 ∨ ch = 0 then none else some { x := x, y := y, w := cw, h := ch }

/-- The active area of ST 2016-1 for the descriptor's AFD code and coded aspect, clipped to the frame. -/
def afdArea (d : List Byte) : Option Area :=
  let w := leAt d 0x14 2
  let h := leAt d 0x16 2
  (Config.afdArea (bitsOf (leAt d 2 2) 8 4) w h (leAt d 0x18 2) (leAt d 0x1A 2)).map fun e =>
    { x := min e.1 w, y := min e.2.1 h, w := min e.2.2.1 (w - min e.1 w), h := min e.2.2.2 (h - min e.2.1 h) }

/-- The crop after a frame of luma samples `luma`, and whether a detected crop was rejected. The whole frame is no crop. -/
def nextCrop (prof d : List Byte) (held : Option Area) (luma : List (List Nat)) : Option Area × Bool :=
  let w := leAt d 0x14 2
  let h := leAt d 0x16 2
  let mode := byteAt prof 8
  let whole (a : Area) : Option Area := if a.x = 0 ∧ a.y = 0 ∧ a.w = w ∧ a.h = h then none else some a
  if mode = 0 then (none, false)
  else if mode = 2 then ((fixedArea prof w h).bind whole, false)
  else if ¬ bitOf (leAt d 2 2) 3 ∨ leAt d 0x1C 2 ≠ 0 then (held, false)
  else
    match if mode = 3 ∧ bitOf (leAt d 2 2) 4 then afdArea d else none with
    | some a => (whole a, false)
    | none =>
      let a := detectedArea prof (bitOf (byteAt d 0x11) 2) w h luma
      if 2 * a.w < w ∨ 2 * a.h < h then (held, true) else (whole a, false)

/-! ### Scale and output (R189, R190) -/

/-- Both ratios lie from 1/64 to 4. `dw` over `dd` is the display width of the crop. -/
def scaleOk (prof : List Byte) (a : Area) (dw dd : Nat) : Bool :=
  let ow := leAt prof 0x14 2
  let oh := leAt prof 0x16 2
  let ok (n d : Nat) : Bool := decide (d ≤ 64 * n) && decide (n ≤ 4 * d)
  let fit := byteAt prof 0xB
  if fit = 0 then ok ow a.w && ok oh a.h
  else
    -- scale = min or max of ow / (dw / dd) and oh / a.h
    let byWidth : Bool := decide (ow * dd * a.h ≤ oh * dw)
    let useW : Bool := if fit = 1 then byWidth else !byWidth
    if useW then ok ow a.w && ok (ow * dd) dw
    else ok (dw * oh) (dd * a.h * a.w) && ok oh a.h

/-- Channels and element bytes of a profile (R190). -/
def profChannels (prof : List Byte) : Nat := if byteAt prof 5 = 2 then 1 else 3
def profElem (prof : List Byte) : Nat := if byteAt prof 6 = 0 then 1 else 2

/-- BAD_DESC of a shaper descriptor. -/
def badShapeDesc (s : State) (d : List Byte) : Bool :=
  byteAt d 0 != 1 || !profileLoaded s (byteAt d 1) || leAt d 2 2 &&& 0xF0E0 != 0 || byteAt d 0x11 &&& 0xC0 != 0 ||
  byteAt d 0x11 % 4 == 3 || decide (5 < byteAt d 0x11 / 8 % 8) || decide (3 < byteAt d 0x12) || decide (2 < byteAt d 0x13) ||
  !allZero ((d.drop 0x2D).take 19)

/-- A source slot holds a picture complete at the edge that opened the tick (R127). -/
def slotReady (s : State) (m : Media) (slot : Nat) : Bool :=
  m.pool.any fun x => x.slot == slot && x.done && !x.parsed && decide (x.tick < s.tick.count)

def slotHeld (m : Media) (slot : Nat) : Bool := m.pool.any fun x => x.slot == slot && x.done && !x.parsed

/-- A source picture of the descriptor carries BT.2020 constant luminance. -/
def constantLuminance (m : Media) (d : List Byte) : Bool :=
  match (poolSlot m (byteAt d 0x10)).bind fun x => findPic m x.pic with
  | some p => p.hdr.disp.matrix == 4
  | none => false

/-- The input matrix or range is left to the default of R188, or is a substitute for constant luminance. -/
def matrixDefault (prof d : List Byte) (cl : Bool) : Bool :=
  (byteAt prof 3 == 0 && (byteAt d 0x12 == 0 || cl)) || (byteAt prof 4 == 0 && byteAt d 0x13 == 0)

/-- Matrix, range and format of a frame: the profile's, else the descriptor's, else BT.601 for a height of 576 or less and BT.709
above, in limited range (R188). -/
def frameColour (prof d : List Byte) : Colour :=
  let pick (a b c : Nat) : Nat := if a ≠ 0 then a else if b ≠ 0 then b else c
  { matrix := pick (byteAt prof 3) (byteAt d 0x12) (if leAt d 0x16 2 ≤ 576 then 1 else 2)
    full := pick (byteAt prof 4) (byteAt d 0x13) 1 == 2, fmt := byteAt d 0x11 }

/-- The frame's planes after deinterlacing (R186): AUTO weaves a frame that is not flagged interlaced. Two slots hold its first and
second field; one slot whose picture has half the frame's lines holds the field that is kept. -/
def framePlanes (prof d : List Byte) (m : Media) : List Plane :=
  let flag (i : Nat) : Bool := bitOf (leAt d 2 2) i
  let mode := if byteAt prof 1 / 128 = 1 ∧ ¬ flag 0 then 0 else byteAt prof 1 % 8
  let thr := byteAt prof 2 * (if bitOf (byteAt d 0x11) 2 then 4 else 1)
  let of_ (slot : Nat) : List Plane := ((poolSlot m slot).map (·.planes)).getD []
  let a := of_ (byteAt d 0x10)
  if byteAt d 0x2C = 0xFF then
    a.map (deinterlace mode thr (flag 1) (flag 2) (decide (2 * (a.getD 0 []).length ≤ leAt d 0x16 2)))
  else (a.zip (of_ (byteAt d 0x2C))).map fun e =>
    deinterlace mode thr (flag 1) (flag 2) false (if flag 1 then weave e.1 e.2 else weave e.2 e.1)

/-- Patch `px` of the patch row `py` of the band: its planes in turn, each PATCH_H rows of PATCH_W elements (R190). -/
def patchBytes (prof : List Byte) (planes : List (List Byte)) (py px : Nat) : List Byte :=
  let e := profElem prof
  let row := leAt prof 0x14 2 * e
  let w := byteAt prof 0x18 * e
  planes.flatMap fun p => (List.range (byteAt prof 0x19)).flatMap fun y =>
    (p.drop ((py * byteAt prof 0x19 + y) * row + px * w)).take w

/-- The pieces a band writes: slice offset and bytes. With LAYOUT 0 the band is one run of whole patch rows, patches in raster
order; with LAYOUT 1 each plane has its rows (R190). -/
def bandWrites (prof d : List Byte) (planes : List (List Byte)) : List (Nat × List Byte) :=
  let out := leAt d 0x20 8
  let row := byteAt prof 0x19 * leAt prof 0x14 2 * profElem prof
  let first := leAt d 0x1C 2
  let rows := leAt d 0x1E 2
  let planes := planes.take (profChannels prof)
  if byteAt prof 0x1A = 0 then
    let across := leAt prof 0x14 2 / byteAt prof 0x18
    [(out + first * row * profChannels prof,
      (List.range rows).flatMap fun py => (List.range across).flatMap fun px => patchBytes prof planes py px)]
  else (enumFrom 0 planes).map fun e =>
    (out + e.1 * leAt prof 0x14 2 * leAt prof 0x16 2 * profElem prof + first * row, e.2.take (rows * row))

/-- A shaper item is stopped at twice its estimate: the sample is dropped (R178). -/
def limitShape (tile : Nat) (cyc : Cycles) (d : List Byte) (s : State) : State :=
  let num := leAt d 4 2
  let ends (s : State) : State := endItem tile 2 3 num (leAt d 8 4) cyc 0 0 s
  if stale s tile d then dropStale tile 2 s
  else
    let s := errInfo (pSHP tile) 3 num (shpCount tile 4 s)
    match descCtx s tile d with
    | none => ends s
    | some (k, _) => ends (dropSample k s)

/-- A band of a frame is shaped: its rows join those done for the frame's output, and their tick is kept (R127). -/
def noteBand (k out rows tick : Nat) (s : State) : State :=
  let m := getMedia s k
  if m.shaped.any fun f => f.out == out then
    putMedia k { m with shaped := m.shaped.map fun f => if f.out = out then { f with rows := f.rows + rows, tick := tick } else f } s
  else putMedia k { m with shaped := m.shaped ++ [{ frame := 2 ^ 32, out := out, len := 0, issued := 0, rows := rows, tick := tick }] } s

/-- Counters and flags of a frame's crop and matrix (R183, R187, R188): bits 0 to 2 of dword 3. -/
def cropEvents (tile : Nat) (changed rejected dflt : Bool) (s : State) : State :=
  let s := if changed then penBit (pSHP tile) 2 (shpCount tile 1 s) else s
  let s := if rejected then penBit (pSHP tile) 1 (shpCount tile 2 s) else s
  if dflt then penBit (pSHP tile) 0 (shpCount tile 3 s) else s

/-- The crop's display width, as a fraction (R189). A sample aspect with a 0 in it gives none: it is open, and `v` is that width
(log entry 41). -/
def displayWidth (prof d : List Byte) (v w : Nat) : Nat × Nat :=
  let n := leAt d 0x18 2
  let dd := leAt d 0x1A 2
  if byteAt prof 0x1C = 1 then (w, 1) else if n = 0 ∨ dd = 0 then (v, 1) else (w * n, dd)

/-- SHAPE: the shaper runs the band at its head. One that reaches twice its estimate is stopped (R178). -/
def runShape (tile : Nat) (cyc : Cycles) (s : State) : State :=
  match headDesc s tile 2 with
  | none => s
  | some d =>
    let num := leAt d 4 2
    let ends (status lo : Nat) (s : State) : State := endItem tile 2 status num (leAt d 8 4) cyc 0 lo s
    if stale s tile d then dropStale tile 2 s
    else if badShapeDesc s d then ends 6 0 s
    else match descCtx s tile d with
      | none => ends 6 0 s
      | some (k, _) =>
        let m := getMedia s k
        let slots := if byteAt d 0x2C = 0xFF then [byteAt d 0x10] else [byteAt d 0x10, byteAt d 0x2C]
        if slots.any fun x => !slotHeld m x then ends 2 0 s
        else if slots.any fun x => !slotReady s m x then s
        else if 2 * leAt d 0xC 4 ≤ workCycles cyc then limitShape tile cyc d s
        else
          let prof := profileBytes s (byteAt d 1)
          let planes := framePlanes prof d m
          let (crop, rejected) := nextCrop prof d m.crop (planes.getD 0 [])
          let changed := crop != m.crop
          let dflt := matrixDefault prof d (constantLuminance m d) && leAt d 0x1C 2 == 0
          let s := cropEvents tile changed rejected dflt (putMedia k { m with crop := crop } s)
          let lo := (if changed then 1 else 0) + (if rejected then 2 else 0) + (if dflt then 4 else 0)
          let area := crop.getD { x := 0, y := 0, w := leAt d 0x14 2, h := leAt d 0x16 2 }
          let (v, s) := freeVal s
          let (dw, dd) := displayWidth prof d v area.w
          if ¬ scaleOk prof area dw dd then
            ends 5 lo (dropSample k (errInfo (pSHP tile) 1 num (penBit (pSHP tile) 3 (shpCount tile 4 s))))
          else if leAt d 0x28 4 < frameBytes prof then
            ends 7 lo (dropSample k (errInfo (pSHP tile) 2 num (shpCount tile 4 s)))
          else
            let ph := byteAt prof 0x19
            let out := outputPlanes prof (frameColour prof d) planes area.x area.w area.y area.h (fitOf prof area.h dw dd)
              (leAt d 0x1C 2 * ph) (leAt d 0x1E 2 * ph)
            let s := (bandWrites prof d out).foldl (fun s w => sliceWrite tile 2 w.1 w.2 s) s
            let lastBand := decide (leAt prof 0x16 2 / max 1 ph ≤ leAt d 0x1C 2 + leAt d 0x1E 2)
            let s := noteBand k (leAt d 0x20 8) (leAt d 0x1E 2) s.tick.count s
            let s := if lastBand then perfEvent (pSHP tile) 0x100 0xFF 1 (shpCount tile 0 s) else s
            ends 0 lo (tagStage 1 (curPack s k) 2 true s)

/-- SHAPE. -/
def execShape (tile : Nat) (cyc : Cycles) (s : State) : Host.Outcome State Fault Refusal := .next (runShape tile cyc s)

/-- ITEM_LIMIT: the item at the head of a decode slice (1) or shaper (2) reaches twice its estimate (R178). -/
def execItemLimit (tile eng : Nat) (e : ItemEnd) (s : State) : Host.Outcome State Fault Refusal :=
  .next <|
    match headDesc s tile eng with
    | none => s
    | some d =>
      if workCycles e.cyc < 2 * leAt d 0xC 4 then s
      else if eng = 1 then limitPicItem tile e d s
      else if eng = 2 then limitShape tile e.cyc d s
      else s

/-- The running item of an engine is stopped, `left` of its units undecoded: it ends with BUDGET, and its sample is dropped (R72,
R128, R183); a stale one is dropped without a result (R184, R225). -/
def budgetStop (tile eng : Nat) (cyc : Cycles) (left : Nat) (d : List Byte) (s : State) : State :=
  if stale s tile d then dropStale tile eng s
  else
    let s := endItem tile eng 4 (leAt d 4 2) (leAt d 8 4) cyc left 0 s
    match descCtx s tile d with
    | none => s
    | some (k, _) => dropSample k s

/-- ITEM_EXPIRY: an item still running 8 edges after it started ends with BUDGET (R72). -/
def execItemExpiry (tile eng : Nat) (cyc : Cycles) (left : Nat) (s : State) : Host.Outcome State Fault Refusal :=
  .next <|
    if eng < 1 ∨ 3 < eng then s
    else match headDesc s tile eng with
      | none => s
      | some d =>
        if s.tick.count < (getEng s tile eng).start + 8 then s
        else budgetStop tile eng cyc left d s

/-! ### Profiles (R191 to R194) -/

/-- The byte offset of the first offending field of a profile. -/
def profileOffence (p : List Byte) : Option Nat :=
  let b (o : Nat) : Nat := byteAt p o
  let bad (c : Bool) (o : Nat) : Option Nat := if c then some o else none
  let w := leAt p 0x14 2
  let h := leAt p 0x16 2
  let table := leAt p 0x20 4
  let tap (luma : Bool) (phase i : Nat) : Int :=
    let v := leAt p (if luma then 64 + 16 * phase + 2 * i else 64 + 1024 + 8 * phase + 2 * i) 2
    if v < 32768 then v else (v : Int) - 65536
  let phaseBad (luma : Bool) (ph : Nat) : Bool :=
    ((List.range (if luma then 8 else 4)).map (tap luma ph)).sum != 4096
  let phases := if b 0x1B = 3 ∧ table = 1536 then
      ((List.range 64).find? (phaseBad true)).map (fun i => 64 + 16 * i) |>.orElse fun _ =>
        ((List.range 64).find? (phaseBad false)).map fun i => 64 + 1024 + 8 * i
    else none
  ([bad (b 0 != 1) 0, bad (decide (3 < b 1 % 8) || b 1 / 8 % 16 != 0) 1, bad (decide (3 < b 3)) 3, bad (decide (2 < b 4)) 4,
    bad (decide (2 < b 5)) 5, bad (decide (2 < b 6)) 6, bad (decide (1 < b 7)) 7, bad (decide (3 < b 8)) 8,
    bad (decide (b 0xA < 50) || decide (100 < b 0xA)) 0xA, bad (decide (2 < b 0xB)) 0xB,
    bad (b 8 == 2 && leAt p 0x10 2 == 0) 0x10, bad (b 8 == 2 && leAt p 0x12 2 == 0) 0x12,
    bad (decide (w < 16) || decide (4096 < w) || b 0x18 == 0 || w % b 0x18 != 0) 0x14,
    bad (decide (h < 16) || decide (4096 < h) || b 0x19 == 0 || h % b 0x19 != 0) 0x16,
    bad (b 0x18 == 0 || decide (64 < b 0x18)) 0x18, bad (b 0x19 == 0 || decide (64 < b 0x19)) 0x19,
    bad (decide (1 < b 0x1A)) 0x1A, bad (decide (3 < b 0x1B)) 0x1B, bad (decide (1 < b 0x1C)) 0x1C,
    bad (table != (if b 0x1B = 3 then 1536 else 0)) 0x20, bad (!allZero ((p.drop 0x24).take 28)) 0x24, phases]).findSome? id

/-- Shows a loaded profile in every SHP instance. -/
def showProfile (p : Nat) (on : Bool) (s : State) : State :=
  forN 32 s fun t s => setFld s (pSHP t) (R.SHP.PROFILE_MAP + 4 * (p / 32)) (p % 32) 1 (if on then 1 else 0)

/-- The bytes of the profile a SHP_PROFILE_LOAD names: 64, and the table that follows; `host` holds what host memory has. -/
def profData (c : SvcCmd) (s : State) (host : List Byte) : List Byte :=
  if bitOf (c.d 7) 0 then
    let head := windowRead s 0 (c.q 5) 64
    if leAt head 0x20 4 = 1536 then windowRead s 0 (c.q 5) 1600 else head
  else host

/-- SHP_PROFILE_LOAD with the profile read. -/
def execShpProfileLoad (k : CmdRef) (bytes : List Byte) (s : State) : Host.Outcome State Fault Refusal :=
  .next <| runSvc k 0x20 noInv noFence
    (fun c s =>
      let p := c.d 4 % 256
      let bytes := profData c s bytes
      if profileLoaded s p then .done 0x84 0 s
      else match profileOffence bytes with
        | some o => .done 0x85 o s
        | none =>
          .done st.OK 0 (showProfile p true { s with media := { s.media with profiles := mput s.media.profiles p bytes } })) s

/-- SHP_PROFILE_DROP. -/
def execShpProfileDrop (k : CmdRef) (s : State) : Host.Outcome State Fault Refusal :=
  .next <| runSvc k 0x21 noInv noFence
    (fun c s =>
      let p := c.d 4 % 256
      if ¬ profileLoaded s p then .done 0x82 0 s
      else if s.foundry.sets.any fun e => e.2.prof == p then .done 0x83 0 s
      else .done st.OK 0 (showProfile p false { s with media := { s.media with profiles := mdel s.media.profiles p } })) s

/-! ### The shard probe -/

/-- The 32 bytes of the shard entry a SHARD_PROBE names. -/
def probeEntry (c : SvcCmd) (s : State) (host : List Byte) : List Byte := ckData s (bitOf (c.d 8) 0) (c.q 4) 32 host

/-- SHARD_PROBE: begins, or ends with its report, at most 100 ms after it began (R193, R195). -/
def execShardProbe (k : CmdRef) (entry : List Byte) (e : ProbeEnd) (s : State) : Host.Outcome State Fault Refusal :=
  .next <|
    match findCmd s k with
    | none => s
    | some c =>
      let ended (s : State) : State := { s with media := { s.media with probes := mdel s.media.probes c.seq } }
      let s := if c.begun then s
        else runSvc k 0x22 (fun c s => (shardOffence s (probeEntry c s entry)).map (0x100 + ·)) noFence
          (fun c s => .wait { s with media := { s.media with probes := mput s.media.probes c.seq s.now } }) s
      match mget s.media.probes c.seq with
      | none => s
      | some b =>
        match e with
        | .running => s
        | .unreadable => complete c st.INTEGRITY 0 (ended s)
        | .report i =>
          if b + 100000000 < s.now then complete c st.TIMEOUT 0 (ended s)
          else complete c st.OK 0 (dmaWrite c.func (c.d 8 % 2) (c.q 6) (probeReport 0 i) (ended s))

/-- SHARD_PROBE_TIMEOUT: 100 ms after it began (R193). -/
def execShardProbeTimeout (k : CmdRef) (t : Nat) (s : State) : Host.Outcome State Fault Refusal :=
  .next <|
    let s := atTime t s
    match findCmd s k with
    | none => s
    | some c =>
      match mget s.media.probes c.seq with
      | none => s
      | some b =>
        if b + 100000000 ≤ t then
          complete c st.TIMEOUT 0 { s with media := { s.media with probes := mdel s.media.probes c.seq } }
        else s

end Sys2Proof.Machine
end

