-- ==== Sys2Proof/Machine/TensorOps.lean ====
section
/-! DEFINITION. What the ops of a graph compute (R201, R203, R212 to R214), row by row: values where the rules fix them, and
open values where they do not. -/

namespace Sys2Proof.Machine

/-- An operand: its element `i`. -/
abbrev NumAt : Type := Nat → Num

/-- The list in an open order; `b` is the first index of the open numbers of `key`. -/
def openOrder {α : Type} (key b : Nat) : Nat → List α → List α
  | 0, l => l
  | n + 1, l =>
    match l with
    | [] => []
    | [x] => [x]
    | _ :: _ :: _ =>
      let i := Config.freeAt key (b + n) % l.length
      (l[i]?).toList ++ openOrder key b n (l.eraseIdx i)

/-! ### The MAC array (R201) -/

/-- The accumulator of an output: products of one block pair are summed exactly, and the sums join the accumulator one by one, in
an open order (R203), each rounded to binary32, subnormal results flushed. `n` is the number of products of a sum: 32 for MX
operands, 1 for BF16 and FP16. -/
def macSum (key b n : Nat) (prods : List Num) : Num :=
  let sums := (List.range (ceilDiv prods.length n)).map fun k => ((prods.drop (n * k)).take n).foldl Num.add Num.zero
  (openOrder key b sums.length sums).foldl (fun a x => flushed (fp32 (a.add x))) Num.zero

/-- The output of index (row, column) of a MAC op with inner length `k`: accumulation, then the bias where there is one. -/
def macOut1 (key b n k : Nat) (left right : NumAt) (bias : Option Num) : Num :=
  let acc := macSum key b n ((List.range k).map fun i => (left i).mul (right i))
  match bias with
  | some x => fp32 (acc.add x)
  | none => acc

/-- The element of IN0 that meets index `k` of the weights at output position `p`; none in the padding (R212). A patch-major input
is taken patch by patch, K running through frame, plane, row and column. -/
def convIndex (o : TensorOp) (t : Tensor) (p k : Nat) : Option Nat :=
  if t.patch then
    let d := t.dim 0 * t.dim 1 * t.dim 2
    if o.opc = 2 then some (p * d + k) else some ((k / d * t.dim 3 + p) * d + k % d)
  else
    let c := convShape o
    let w := t.dim 1
    let h := t.dim 2
    let f := t.dim 3
    let ow := (w + 2 * c.pw - c.kw) / c.sw + 1
    let oh := (h + 2 * c.ph - c.kh) / c.sh + 1
    let ch := k % t.dim 0
    let tap := k / t.dim 0
    let (it, ih, iw) :=
      if Config.tapsByColumn then (tap / (c.kw * c.kh), tap / c.kw % c.kh, tap % c.kw)
      else (tap % c.kt, tap / c.kt % c.kh, tap / (c.kt * c.kh))
    let x := p % ow * c.sw + iw
    let y := p / ow % oh * c.sh + ih
    let z := p / (ow * oh) * c.st + it
    if x < c.pw ∨ c.pw + w ≤ x ∨ y < c.ph ∨ c.ph + h ≤ y ∨ z < c.pt ∨ c.pt + f ≤ z then none
    else some ((((z - c.pt) * h + (y - c.ph)) * w + (x - c.pw)) * t.dim 0 + ch)

/-- Products of one block sum of an operand pair (R201). -/
def blockOf (fmt : Nat) : Nat := if fmtMx fmt then 32 else 1

/-- Row `r` of MATMUL, CONV2D or CONV3D. -/
def macRow (g : List Byte) (o : TensorOp) (key : Nat) (in0 in1 in2 : NumAt) (r : Nat) : List Num :=
  let t0 := img.tensor g o.in0
  let t1 := img.tensor g o.in1
  let k := t1.dim 0
  let left (i : Nat) : Num :=
    if o.opc = 1 then in0 (r * k + i)
    else match convIndex o t0 r i with
      | some j => in0 j
      | none => Num.zero
  (List.range (t1.dim 1)).map fun n =>
    macOut1 key ((r * t1.dim 1 + n) * k) (blockOf t0.fmt) k left (fun i => in1 (n * k + i))
      (if o.in2 = 0xFFFF then none else some (in2 n))

/-! ### The vector unit -/

/-- Index of an element of OUT in each dim. -/
def dimsAt (dims : List Nat) (i : Nat) : List Nat :=
  (dims.foldl (fun (l, n) d => (l ++ [n % d], n / d)) (([] : List Nat), i)).1

/-- The element that an index in each dim names. -/
def flatIndex (dims idx : List Nat) : Nat :=
  ((dims.zip idx).foldl (fun (a, m) e => (a + m * e.2, m * e.1)) (0, 1)).1

/-- The element of a broadcast operand: a dim of 1 is read at 0. -/
def broadcastIndex (t : Tensor) (idx : List Nat) : Nat :=
  flatIndex t.dims ((t.dims.zip idx).map fun e => if e.1 = 1 then 0 else e.2)

/-- ELTWISE in binary32. The maximum of a NaN and a number, or of two zeros, is not stated: either. -/
def eltwise (func v : Nat) (a b : Num) : Num :=
  let a := fp32 a
  let b := fp32 b
  match func with
  | 0 => fp32 (a.add b)
  | 1 => fp32 (a.add b.neg)
  | 2 => fp32 (a.mul b)
  | _ =>
    if a.isNan ∨ b.isNan then (if bitOf v 0 then a else b)
    else if a.lt b then b
    else if b.lt a then a
    else if bitOf v 0 then a else b

/-- An open binary32 value. -/
def openNum (v : Nat) : Num := decodeElem 0x12 (v % 2 ^ 32)

def add32 (a b : Num) : Num := fp32 (a.add b)
def mul32 (a b : Num) : Num := fp32 (a.mul b)

/-- A whole number. -/
def wholeNum (n : Nat) : Num := .fin false n 0

/-- The logistic function. -/
def sigmoidNum (v : Nat) (x : Num) : Num := divNum (wholeNum 1) (add32 (wholeNum 1) (expNum v x.neg))

/-- ACT (R212), each step in binary32, with tanh, erf and exp within their error (log entry 157). The zero that ReLU gives has an
open sign. -/
def activate (func v : Nat) (x : Num) : Num :=
  let x := fp32 x
  let half := mul32 (.fin false 1 (-1)) x
  match func with
  | 0 =>
    if x.isNan then .nan else if Num.lt Num.zero x then x else .fin (bitOf v 0) 0 0
  | 1 =>
    -- 0.5 x (1 + tanh(sqrt(2 / pi) (x + 0.044715 x^3)))
    let u := mul32 (decodeElem 0x12 0x3F4C422A) (add32 x (mul32 (decodeElem 0x12 0x3D372713) (mul32 x (mul32 x x))))
    mul32 half (add32 (wholeNum 1) (tanhNum v u))
  | 2 => mul32 half (add32 (wholeNum 1) (erfNum v (mul32 (decodeElem 0x12 0x3F3504F3) x)))
  | 3 => mul32 x (sigmoidNum v x)
  | 4 => sigmoidNum v x
  | _ => tanhNum v x

/-- The sum in binary32, in an open order (R203). -/
def sum32 (key b : Nat) (l : List Num) : Num := (openOrder key b l.length l).foldl add32 Num.zero

/-- The larger of a list, by ELTWISE's maximum. -/
def maxNum (key b : Nat) (l : List Num) : Num :=
  match l with
  | [] => Num.zero
  | a :: l => (enumFrom 0 l).foldl (fun m e => eltwise 3 (Config.freeAt key (b + e.1)) m e.2) a

/-- NORM over the values `l` of one group: centred but for RMS, over the root of the mean square plus EPS. -/
def normGroup (key b kind : Nat) (eps : Num) (l : List Num) : List Num :=
  let n := wholeNum l.length
  let l := l.map fp32
  let mean := divNum (sum32 (key + 1) (2 * b) l) n
  let l := if kind = 1 then l else l.map fun x => add32 x mean.neg
  let ms := divNum (sum32 (key + 1) (2 * b + l.length) (l.map fun x => mul32 x x)) n
  let k := rsqrtNum (Config.freeAt key b) (add32 ms eps)
  l.map fun x => mul32 x k

/-- Row `r` of NORM (R212): layer and RMS over DIM[0], group over GROUPS equal parts of it; then gamma and beta. Parts that are
not equal are not stated. -/
def normRow (o : TensorOp) (key n : Nat) (in0 in1 in2 : NumAt) (r : Nat) : List Num :=
  let groups := if o.p 0 = 2 then max 1 (o.p 1) else 1
  let size := n / groups
  if n % groups ≠ 0 then (List.range n).map fun i => openNum (Config.freeAt key (r * n + i))
  else
    let l := (List.range groups).flatMap fun j =>
      normGroup key (r * n + j * size) (o.p 0) (decodeElem 0x12 (leAt o.param 2 4)) ((List.range size).map fun i => in0 (r * n + j * size + i))
    (enumFrom 0 l).map fun e =>
      let y := mul32 e.2 (fp32 (in1 e.1))
      if o.in2 = 0xFFFF then y else add32 y (fp32 (in2 e.1))

/-- Window and stride of POOL along dim `d`, 1 to 3. -/
def poolWindow (o : TensorOp) (d : Nat) : Nat × Nat :=
  if Config.poolPairs then (o.p (2 * d - 1), o.p (2 * d)) else (o.p d, o.p (3 + d))

/-- Element `i` of POOL's output: the mean or maximum of its window's elements; of none it is open. -/
def poolAt (o : TensorOp) (t : Tensor) (key : Nat) (in0 : NumAt) (i : Nat) : Num :=
  let idx := dimsAt t.dims i
  let at_ (d : Nat) : List Nat :=
    let (w, s) := poolWindow o d
    ((List.range w).map (idx.getD d 0 * s + ·)).filter fun x => decide (x < t.dim d)
  let l := (at_ 1).flatMap fun x => (at_ 2).flatMap fun y => (at_ 3).map fun z =>
    fp32 (in0 (flatIndex t.dims [idx.getD 0 0, x, y, z, idx.getD 4 0]))
  if l = [] then openNum (Config.freeAt key i)
  else if o.p 0 = 0 then divNum (sum32 (key + 1) (i * 2 ^ 24) l) (wholeNum l.length)
  else maxNum key (i * 2 ^ 24) l

/-! ### Windowed attention (R213) -/

/-- Windows of WATTN along W, H and T. -/
def windowsOf (o : TensorOp) (t : Tensor) : Nat × Nat × Nat :=
  (ceilDiv (t.dim 1) (o.p 4), ceilDiv (t.dim 2) (o.p 3), ceilDiv (t.dim 3) (o.p 2))

/-- Token `r` on the shifted grid. -/
def shiftedAt (o : TensorOp) (t : Tensor) (r : Nat) : Nat × Nat × Nat :=
  let turn (v s n : Nat) : Nat := if Config.shiftBack then (v + n - s % n) % n else (v + s) % n
  (turn (r % t.dim 1) (o.p 7) (t.dim 1), turn (r / t.dim 1 % t.dim 2) (o.p 6) (t.dim 2),
    turn (r / (t.dim 1 * t.dim 2)) (o.p 5) (t.dim 3))

/-- The window that holds token `r`. -/
def windowOf (o : TensorOp) (t : Tensor) (r : Nat) : Nat :=
  let (nx, ny, _) := windowsOf o t
  let (x, y, z) := shiftedAt o t r
  (z / o.p 2 * ny + y / o.p 3) * nx + x / o.p 4

/-- The element of the relative bias for token `u` as key of token `r`, under a head. -/
def biasAt (o : TensorOp) (t t2 : Tensor) (h r u : Nat) : Nat :=
  let (x, y, z) := shiftedAt o t r
  let (a, b, c) := shiftedAt o t u
  Config.biasIndex ((a : Int) - x) ((b : Int) - y) ((c : Int) - z) h [o.p 4, o.p 3, o.p 2] t2.dims % max 1 t2.elems

/-- Token `r` under head `h`: SCALE × Q·K over the tokens of its window, the bias, the softmax, and the product with V, the products
in BF16. Tokens off the grid are in no window. -/
def attend (o : TensorOp) (t t2 : Tensor) (key b : Nat) (in0 in2 : NumAt) (r h : Nat) : List Num :=
  let d := o.p 1
  let hd := o.p 0 * d
  let part (k u i : Nat) : Num := asFmt 0x10 (in0 (u * (3 * hd) + k * hd + h * d + i))
  let tokens := (List.range (t.dim 1 * t.dim 2 * t.dim 3)).filter fun u => windowOf o t u == windowOf o t r
  let scale := decodeElem 0x12 (leAt o.param 8 4)
  let score (e : Nat × Nat) : Num :=
    let x := mul32 scale (macSum (key + 1) (b + e.1 * 2 ^ 8) 1 ((List.range d).map fun i => (part 0 r i).mul (part 1 e.2 i)))
    if o.in2 = 0xFFFF then x else add32 x (fp32 (in2 (biasAt o t t2 h r e.2)))
  let s := (enumFrom 0 tokens).map score
  let top := maxNum key b s
  let ex := (enumFrom 0 s).map fun e => expNum (Config.freeAt key (b + 2 ^ 9 + e.1)) (add32 e.2 top.neg)
  let total := sum32 (key + 1) (b + 2 ^ 17) ex
  let p := ex.map fun x => asFmt 0x10 (divNum x total)
  (List.range d).map fun i =>
    macSum (key + 1) (b + 2 ^ 18 + i * 2 ^ 8) 1 ((tokens.zip p).map fun e => e.2.mul (part 2 e.1 i))

/-- Row `r` of WATTN. -/
def attendRow (g : List Byte) (o : TensorOp) (key : Nat) (in0 in2 : NumAt) (r : Nat) : List Num :=
  (List.range (o.p 0)).flatMap fun h =>
    attend o (img.tensor g o.in0) (img.tensor g o.in2) key ((r * o.p 0 + h) * 2 ^ 20) in0 in2 r h

/-- The digit of one value under FSQ (R214): (L - 1) / 2 × (tanh z + 1) in binary32, rounded half to even and clamped. -/
def fsqDigit (v level : Nat) (z : Num) : Nat :=
  match fp32 ((fp32 ((tanhNum v z).add (.fin false 1 0))).mul (.fin false (level - 1) (-1))) with
  | .nan => 0
  | .inf s => if s then 0 else level - 1
  | .fin s m e =>
    if s then 0
    else min (level - 1) (if 0 ≤ e then m * 2 ^ e.toNat else roundShift m (-e).toNat)

/-- The code of a vector (R214). -/
def fsqCode (key b : Nat) (levels : List Nat) (z : Nat → Num) : Nat :=
  ((enumFrom 0 levels).foldl (fun (a, m) e => (a + m * fsqDigit (Config.freeAt key (b + e.1)) e.2 (z e.1), m * e.2)) (0, 1)).1

/-- Distance, or inner product with its sign turned, of a query and a codebook entry: binary32 accumulation in an open order. -/
def cbScore (key b metric d : Nat) (q c : NumAt) : Num :=
  let terms := (List.range d).map fun i =>
    if metric = 0 then (let x := (q i).add (c i).neg; x.mul x) else ((q i).mul (c i)).neg
  (openOrder key b d terms).foldl (fun a x => fp32 (a.add x)) Num.zero

/-- CB_SEARCH: the entry of the lowest score; ties to the lower index, a NaN loses to every number (R214). -/
def cbSearch (score : Nat → Num) : Nat → Nat
  | 0 => 0
  | n + 1 =>
    let best := cbSearch score n
    let b := score best
    let x := score (n + 1)
    if x.isNan then best else if b.isNan ∨ x.lt b then n + 1 else best

/-- The element of IN0 that PERMUTE puts at element `i` of OUT: source dim `e` is read at the index of the output dim that names
it (R212). -/
def permuteIndex (o : TensorOp) (t out : Tensor) (i : Nat) : Nat :=
  let idx := dimsAt out.dims i
  flatIndex t.dims ((List.range 5).map fun e => ((enumFrom 0 idx).find? fun x => o.p x.1 == e).elim 0 fun x => x.2)

/-- Values of row `r` of an op's output; an element for FSQ and codebook search. `key` names its open values, `key + 1` the open
orders. -/
def opRow (g : List Byte) (o : TensorOp) (key : Nat) (in0 in1 in2 : NumAt) (r : Nat) : List Num :=
  let t0 := img.tensor g o.in0
  let t1 := img.tensor g o.in1
  let out := img.tensor g o.out
  let n := out.dim 0
  let each (f : Nat → Num) : List Num := (List.range n).map fun i => f (r * n + i)
  match o.opc with
  | 1 => macRow g o (key + 1) in0 in1 in2 r
  | 2 => macRow g o (key + 1) in0 in1 in2 r
  | 3 => macRow g o (key + 1) in0 in1 in2 r
  | 4 => attendRow g o key in0 in2 r
  | 5 => normRow o key n in0 in1 in2 r
  | 6 => each fun i => activate (o.p 0) (Config.freeAt key i) (in0 i)
  | 7 => each fun i => poolAt o t0 key in0 i
  | 8 => each fun i =>
    let idx := dimsAt out.dims i
    eltwise (o.p 0) (Config.freeAt key i) (in0 (broadcastIndex t0 idx)) (in1 (broadcastIndex t1 idx))
  | 9 => each fun i => fp32 (in0 i)
  | 0xA => each fun i => fp32 (in0 (permuteIndex o t0 out i))
  | 0xB =>
    let d := t1.dim 0
    let best := cbSearch (fun e => cbScore (key + 1) ((r * t1.above + e) * d) (o.p 0) d (fun i => in0 (r * d + i)) (fun i => in1 (e * d + i)))
      (t1.above - 1)
    [.fin false best 0]
  | 0xC => [.fin false (fsqCode key (8 * r) (fsqLevels o) fun i => in0 (r * o.p 0 + i)) 0]
  | _ => each fun i => openNum (Config.freeAt key i)

/-! ### Rows of an item (R223) -/

/-- Elements of a row. -/
def rowElems (o : TensorOp) (out : Tensor) : Nat := if o.opc = 0xB ∨ o.opc = 0xC then 1 else out.dim 0

/-- The part of `parts` in which unit `u` of `n` is done: units are shared in order, as equally as may be. -/
def inPart (part parts n u : Nat) : Bool := decide (part * n / parts ≤ u) && decide (u < (part + 1) * n / parts)

/-- Rows of the output that an item writes: all of them, or those of its part: 64-row groups, windows or vectors. -/
def partRows (o : TensorOp) (g : List Byte) (part parts : Nat) : List Nat :=
  let t0 := img.tensor g o.in0
  let out := img.tensor g o.out
  let rows := out.elems / rowElems o out
  (List.range rows).filter fun r =>
    if parts ≤ 1 then true
    else if o.opc = 4 then (let (x, y, z) := windowsOf o t0; inPart part parts (x * y * z) (windowOf o t0 r))
    else if o.opc = 0xB ∨ o.opc = 0xC then inPart part parts rows r
    else inPart part parts (ceilDiv rows 64) (r / 64)

/-- The list in runs of consecutive numbers: first and length. -/
def runsOf : List Nat → List (Nat × Nat)
  | [] => []
  | a :: l => match runsOf l with
    | (b, n) :: rest => if b = a + 1 then (a, n + 1) :: rest else (a, 1) :: (b, n) :: rest
    | [] => [(a, 1)]

/-- A value of the row is non-finite in the op's output (R202): an overflow to infinity of BF16, FP16 or FP32 counts, and an
infinity that saturates in an MX block. -/
def rowNonfinite (fmt : Nat) (l : List Num) : Bool :=
  l.any fun x => if fmtMx fmt then x.nonfinite else if fmt = 0x20 ∨ fmt = 0x21 then false else (asFmt fmt x).nonfinite

end Sys2Proof.Machine
end

