-- ==== Sys2Proof/Machine/TensorBlock.lean ====
section
/-! DEFINITION. The tensor block: RUN and EMIT_TEXT items (R202, R206, R207, R215, R217, R222 to R225), graphs, their weights
and refills (R218 to R221, R226), and the SRAM scrubber (R540). -/

namespace Sys2Proof.Machine

def tenCount (tile i n : Nat) (s : State) : State :=
  setRegN s (pTEN tile) (R.TEN.COUNT + 4 * i) ((reg s (pTEN tile) (R.TEN.COUNT + 4 * i) + n) % 2 ^ 32)

/-- TEN.GRAPH_READY of a tile. -/
def graphReady (s : State) (tile g : Nat) : Bool :=
  decide (g < 1024) && fld s (pTEN tile) (R.TEN.GRAPH_READY + 4 * (g / 32)) (g % 32) 1 == 1

def setReady (tile g : Nat) (on : Bool) (s : State) : State :=
  setFld s (pTEN tile) (R.TEN.GRAPH_READY + 4 * (g / 32)) (g % 32) 1 (if on then 1 else 0)

/-- Graphs fully loaded, by identifier. -/
def loadedGraphs (s : State) : List (Nat × Graph) := s.media.graphs.filter fun e => !e.2.loading

/-- A ready tile (R219). -/
def readyTile (s : State) (tile : Nat) : Bool :=
  let st := blkState s (pTILE tile)
  (st == 1 || st == 0x80 || st == 0x81) && blkState s (pSRAMT tile) == 1

/-- The tile's regions hold the graph's resident part and its working tensors (R219, R226). -/
def graphFits (s : State) (tile : Nat) (g : Graph) : Bool :=
  decide (g.base + residentBytes g.image ≤ regionSize s tile 1) && decide (img.workBytes g.image ≤ regionSize s tile 3)

/-- The graph does not fit: GRAPH_NOFIT with its capture. -/
def noFit (tile g : Nat) (s : State) : State := errInfo (pTEN tile) 4 g (penBit (pTEN tile) 4 s)

/-- The lowest 64-byte aligned gap of `n` bytes among the resident parts already placed. -/
def weightBase (placed : List (Nat × Nat)) (n : Nat) : Nat :=
  (sortBy (·.1) placed).foldl (fun b e => if b + n ≤ e.1 then b else max b (e.1 + e.2)) 0

def placedParts (s : State) : List (Nat × Nat) := s.media.graphs.map fun e => (e.2.base, residentBytes e.2.image)

/-- Writes a graph's resident weights into a tile's WEIGHT region, leaving streamed tensors unwritten, and sets its READY
bit (R219, R220). -/
def writeWeights (tile g : Nat) (s : State) : State :=
  match mget s.media.graphs g with
  | none => s
  | some x =>
    let s := (List.range (img.tensors x.image)).foldl (fun s i =>
      let t := img.tensor x.image i
      if t.region = 0 ∧ ¬ t.streamed then
        sliceWrite tile 1 (regionBase s tile 1 + x.base + t.offset)
          ((x.image.drop (img.weightOff x.image + t.offset)).take t.span) s
      else s) s
    setReady tile g true s

/-- A refill of a tile starts: the graphs that fit are to be written again, the others keep their bit at 0 (R219). -/
def startRefill (tile : Nat) (gs : List Nat) (s : State) : State :=
  let s := gs.foldl (fun s g => setReady tile g false s) s
  let fits := gs.filter fun g => match mget s.media.graphs g with | some x => graphFits s tile x | none => false
  let s := (gs.filter fun g => !fits.contains g && (mget s.media.graphs g).isSome).foldl (fun s g => noFit tile g s) s
  let old := (mgetD s.media.refills tile []).filter fun g => !fits.contains g
  if fits = [] then s
  else { s with media := { s.media with refills := mput s.media.refills tile (old ++ fits) } }

/-- A refill of a tile is due at the next edge: of the graphs named, or of `all` that are loaded then. -/
def dueRefill (tile : Nat) (gs : List Nat) (all : Bool) (s : State) : State :=
  let old := mgetD s.media.refillDue tile ([], false)
  { s with media := { s.media with
    refillDue := mput s.media.refillDue tile (old.1 ++ gs.filter fun g => !old.1.contains g, old.2 || all) } }

/-- Every graph loaded at the next edge is to be written again on a tile; a load's copy under way there is given up, and follows the
load (R219). -/
def refillAll (tile : Nat) (s : State) : State :=
  dueRefill tile [] true { s with media := { s.media with copies := s.media.copies.filter (·.2 != tile) } }

/-- Step 7: refills that are due begin on the tiles that are ready (R219). -/
def dueRefills (s : State) : State :=
  let due := s.media.refillDue
  due.foldl (fun s e =>
    if readyTile s e.1 then
      startRefill e.1 (if e.2.2 then (loadedGraphs s).map (·.1) else e.2.1.filter fun g => (loadedGraphs s).any (·.1 == g)) s
    else s)
    { s with media := { s.media with refillDue := due.filter fun e => !readyTile s e.1 } }

/-! ### Items -/

/-- BAD_DESC (R224). -/
def badTensorDesc (s : State) (tile : Nat) (d : List Byte) : Bool :=
  let op := byteAt d 0
  let g := leAt d 2 2
  let n := img.ops (graphImage s g)
  op == 0 || decide (2 < op) || decide (32 ≤ byteAt d 1) || !allZero ((d.drop 0x33).take 13) ||
  (op == 1 && (!graphReady s tile g || leAt d 0x12 2 == 0 || decide (n < leAt d 0x10 2 + leAt d 0x12 2) ||
    byteAt d 0x15 == 0 || (decide (1 < byteAt d 0x15) && leAt d 0x12 2 != 1) || decide (byteAt d 0x15 ≤ byteAt d 0x14)))

/-- The ops of an item. -/
def itemOps (s : State) (d : List Byte) : List TensorOp :=
  let g := graphImage s (leAt d 2 2)
  (List.range (leAt d 0x12 2)).map fun i => img.op g (leAt d 0x10 2 + i)

/-- The end of a graph's working tensors in a run's WORK space: its streamed weights are copied behind them (log entry 178). -/
def streamBase (g : List Byte) : Nat :=
  roundUp ((List.range (img.tensors g)).foldl (fun a i =>
    let t := img.tensor g i
    if t.region = 1 then max a (t.offset + t.span) else a) 0) 64

/-- Slice offset of a tensor for an item: WEIGHT from the graph's base, WORK and input from the descriptor (R209); a streamed
weight where the tile DMA copies it to (R220). -/
def tensorAt (s : State) (tile : Nat) (d : List Byte) (t : Tensor) : Nat :=
  let g := mget s.media.graphs (leAt d 2 2)
  if t.region = 0 ∧ t.streamed then regionBase s tile 3 + leAt d 0x20 4 + streamBase (graphImage s (leAt d 2 2)) + t.offset
  else if t.region = 0 then regionBase s tile 1 + (match g with | some x => x.base | none => 0) + t.offset
  else if t.region = 1 then regionBase s tile 3 + leAt d 0x20 4 + t.offset
  else regionBase s tile 2 + leAt d 0x1C 4 + t.offset

/-- The tensors an op reads. -/
def opInputs (o : TensorOp) : List Nat :=
  o.in0 :: ((if usesIn1 o.opc then [o.in1] else []) ++ (if usesIn2 o.opc ∧ o.in2 ≠ 0xFFFF then [o.in2] else []))

/-- The slice ranges an op reads. -/
def opReads (s : State) (tile : Nat) (d : List Byte) (o : TensorOp) : List (Nat × Nat) :=
  (opInputs o).map fun i =>
    let t := img.tensor (graphImage s (leAt d 2 2)) i
    (tensorAt s tile d t, t.span)

/-- The tile DMA copies the streamed tensors an op reads from the master copy into the run's WORK space, before the op begins
(R220). -/
def streamWeights (tile : Nat) (d g : List Byte) (o : TensorOp) (s : State) : State :=
  ((opInputs o).map (img.tensor g)).foldl (fun s t =>
    if t.region = 0 ∧ t.streamed then
      sliceWrite tile 3 (tensorAt s tile d t) ((g.drop (img.weightOff g + t.offset)).take t.span) s
    else s) s

/-- What an item has done so far: next record offset in the slice, bytes left, records, codes clamped, OUT_SHORT, a non-finite
output, a non-finite value that reached an EMIT (R202), and the poisoned words read (R207). -/
structure EmitAcc where
  off : Nat
  left : Nat
  records : Nat
  clamps : Nat
  short : Bool
  nonfinite : Bool
  reached : Bool
  poison : List SramLine
  deriving DecidableEq, Repr

/-- An item before its first op. -/
def EmitAcc.start (s : State) (tile : Nat) (d : List Byte) : EmitAcc := {
  off := regionBase s tile 4 + leAt d 0x24 4, left := leAt d 0x28 4, records := 0, clamps := 0, short := false
  nonfinite := false, reached := false, poison := [] }

/-- Header flag bits of a record from the descriptor: CONCEALED, TC_DERIVED, DROP_FRAME at dword 0 [21:23] (R132, R222). -/
def recordFlags (d : List Byte) : Nat :=
  let f := byteAt d 1
  bitsOf f 2 1 + 2 * bitsOf f 4 1 + 4 * bitsOf f 3 1

/-- The bytes of tensor `i` as an item reads them. -/
def tensorBytes (s : State) (tile : Nat) (d g : List Byte) (i : Nat) : List Byte :=
  let t := img.tensor g i
  memRead s.mem (sliceKey tile (tensorAt s tile d t)) t.span

/-- Vector `r` of a latent tensor: its elements, followed by its scales (R215). -/
def latentVector (t : Tensor) (b : List Byte) (r : Nat) : List Byte :=
  let n := ceilDiv (t.dim 0 * fmtBits t.fmt) 8
  (b.drop (r * n)).take n ++
    (if fmtMx t.fmt then (b.drop (roundUp t.elemBytes 64 + r * (t.dim 0 / 32))).take (t.dim 0 / 32) else [])

/-- The record of an EMIT op whose input tensor has the bytes `b`, with the codes clamped (R215). -/
def emitRecord (g d : List Byte) (o : TensorOp) (b : List Byte) : List Byte × Nat :=
  let t := img.tensor g o.in0
  let kind := o.p 0
  let param := if kind = 1 ∨ kind = 2 then t.dim 1 % 256 * 256 + t.dim 2 % 256 else leAt o.param 2 2
  let tc := leAt d 0x18 4
  let group := leAt d 0x16 2
  if kind = 2 ∨ kind = 6 then
    let body := leBytes 1 t.fmt ++ [0] ++ leBytes 2 (t.dim 0) ++ (List.range t.above).flatMap (latentVector t b)
    (tokenRecord kind (recordFlags d) 0 t.above tc group param body, 0)
  else
    let w := o.p 1
    let codes := (List.range t.elems).map (elemBits t b)
    (tokenRecord kind (recordFlags d) w t.elems tc group param (packBits (w + 1) codes),
     (codes.filter fun c => decide (2 ^ (w + 1) ≤ c)).length)

/-- Writes a record at the item's next record position, or stops the item with OUT_SHORT (R224). -/
def putRecord (tile k : Nat) (r : List Byte) (a : EmitAcc) (s : State) : EmitAcc × State :=
  if a.short ∨ a.left < r.length then ({ a with short := true }, s)
  else
    ({ a with off := a.off + r.length, left := a.left - r.length, records := a.records + 1 },
     addRecord k { off := a.off, len := r.length, own := [] } (sliceWrite tile 4 a.off r s))

/-- A non-finite value stands in tensor `i`. -/
def holdsNonfinite (s : State) (tile : Nat) (d g : List Byte) (i : Nat) : Bool :=
  let t := img.tensor g i
  let b := tensorBytes s tile d g i
  (List.range t.elems).any fun j => (elemAt t b j).nonfinite

/-- A non-finite value reaches the EMIT op `n` (R202): it stands in the op's input, or in the input of the FSQ or codebook search
that made it. -/
def emitReached (s : State) (tile : Nat) (d g : List Byte) (n : Nat) : Bool :=
  let o := img.op g n
  holdsNonfinite s tile d g o.in0 ||
    (match (List.range n).reverse.find? fun j => (img.op g j).opc != 0xD && (img.op g j).out == o.in0 with
     | some j =>
       let m := img.op g j
       (m.opc == 0xB || m.opc == 0xC) && holdsNonfinite s tile d g m.in0
     | none => false)

/-- An EMIT op (R215). The bytes of an input that holds a poisoned word are open. -/
def runEmit (tile k : Nat) (d g : List Byte) (n : Nat) (bad : Bool) (a : EmitAcc) (s : State) : EmitAcc × State :=
  let o := img.op g n
  let (open_, s) := freeBytes (img.tensor g o.in0).span s
  let b := if bad then open_ else tensorBytes s tile d g o.in0
  let (r, c) := emitRecord g d o b
  putRecord tile k r { a with clamps := a.clamps + c, reached := a.reached || emitReached s tile d g n } s

/-- The rows an item computes of an op's output. `key` names open values; a poisoned operand leaves every value open. A copy into
the same format, but for MX, keeps the bits. -/
def itemRows (s : State) (tile : Nat) (d g : List Byte) (o : TensorOp) (bad : Bool) (key : Nat) (rows : List Nat) : List Num :=
  let bytes (i : Nat) : NumAt := let t := img.tensor g i; let b := tensorBytes s tile d g i; elemAt t b
  let n := rowElems o (img.tensor g o.out)
  let in0 := bytes o.in0
  let in1 := bytes o.in1
  let in2 := bytes o.in2
  rows.flatMap fun r =>
    if bad then (List.range n).map fun i => openNum (Config.freeAt key (r * n + i)) else opRow g o key in0 in1 in2 r

/-- PERMUTE and CONVERT into the same format, but for MX, move the bits. -/
def movesBits (g : List Byte) (o : TensorOp) : Bool :=
  (o.opc == 9 || o.opc == 0xA) && (img.tensor g o.in0).fmt == (img.tensor g o.out).fmt && !fmtMx (img.tensor g o.out).fmt

/-- The bits that a moving op gives row `r`. -/
def movedRow (s : State) (tile : Nat) (d g : List Byte) (o : TensorOp) (r : Nat) : List Nat :=
  let t := img.tensor g o.in0
  let out := img.tensor g o.out
  let b := tensorBytes s tile d g o.in0
  (List.range (out.dim 0)).map fun i =>
    let j := r * out.dim 0 + i
    elemBits t b (if o.opc = 9 then j else permuteIndex o t out j)

/-- Stores a run of rows, from row `r` on: elements, then scales (R199). -/
def storeRows (tile : Nat) (at_ : Nat) (t : Tensor) (e0 : Nat) (p : List Byte × List Byte) (s : State) : State :=
  sliceWrite tile 3 (at_ + roundUp t.elemBytes 64 + e0 / 32) p.2
    (sliceWrite tile 3 (at_ + e0 * fmtBits t.fmt / 8) p.1 s)

/-- An op other than EMIT: its rows, or those of the item's part, are computed and stored (R201 to R214, R223). -/
def runOp (tile : Nat) (d g : List Byte) (n : Nat) (bad : Bool) (a : EmitAcc) (s : State) : EmitAcc × State :=
  let o := img.op g n
  let t := img.tensor g o.out
  let at_ := tensorAt s tile d t
  let key := s.fresh
  let s := { s with fresh := s.fresh + 3 }
  let per := rowElems o t
  let runs := runsOf (partRows o g (byteAt d 0x14) (byteAt d 0x15))
  let packed := runs.map fun x =>
    let rows := (List.range x.2).map (x.1 + ·)
    let l := itemRows s tile d g o bad key rows
    let bytes := if movesBits g o ∧ ¬ bad then (packBits (fmtBits t.fmt) (rows.flatMap (movedRow s tile d g o)), [])
      else packNums t.fmt (key + 2) (x.1 * per) l
    (x.1 * per, bytes, rowNonfinite t.fmt l)
  ({ a with nonfinite := a.nonfinite || packed.any fun x => x.2.2 },
   packed.foldl (fun s x => storeRows tile at_ t x.1 x.2.1 s) s)

/-- Runs `n` ops of an item from op `i` on. -/
def runOps (tile k : Nat) (d g : List Byte) : Nat → Nat → EmitAcc → State → EmitAcc × State
  | 0, _, a, s => (a, s)
  | n + 1, i, a, s =>
    let o := img.op g i
    let s := streamWeights tile d g o s
    let reads := opReads s tile d o
    let words := reads.flatMap fun r => poisonsIn s tile r.1 r.2
    let bad := words != []
    let a := { a with poison := a.poison ++ words }
    let s := reads.foldl (fun s r => sliceTouch tile r.1 r.2 s) s
    let (a, s) := if o.opc = 0xD then runEmit tile k d g i bad a s else runOp tile d g i bad a s
    runOps tile k d g n (i + 1) a s

/-- A poisoned word in WEIGHT clears the graph's READY bit at once and starts a refill of it at the next edge (R207). -/
def poisonWeights (tile g : Nat) (s : State) (x : SramLine) : State :=
  if regionAt s tile x.offset = some 1 then dueRefill tile [g] false (setReady tile g false s) else s

/-- What a run holds is returned at its LAST item: its WORK space, and its input (R190, R211, R223). -/
def freeRun (k : Nat) (d : List Byte) (s : State) : State :=
  if ¬ bitOf (byteAt d 1) 1 then s
  else
    let s := freeSpace k 2 (leAt d 0x1C 4) s
    if img.workBytes (graphImage s (leAt d 2 2)) = 0 then s else freeSpace k 3 (leAt d 0x20 4) s

/-- Ends a tensor item with its flags, counts and the drop of R224. `trapped`: a non-finite value reached an EMIT of a graph with
TRAP_NONFINITE (R202). -/
def finishTensor (tile num k : Nat) (d : List Byte) (a : EmitAcc) (trapped : Bool) (cyc : Cycles) (s : State) : State :=
  let status := if a.short then 7 else 0
  let poison := a.poison != []
  let lo := (if poison then 1 else 0) + (if trapped then 2 else 0) + (if 0 < a.clamps then 4 else 0)
  let s := if poison then
      a.poison.foldl (poisonWeights tile (leAt d 2 2)) (errInfo (pTEN tile) 1 num (penBit (pTEN tile) 0 (tenCount tile 2 1 s)))
    else s
  let s := if a.nonfinite then penBit (pTEN tile) 1 (tenCount tile 3 1 s) else s
  let s := if trapped then errInfo (pTEN tile) 3 num s else s
  let s := if 0 < a.clamps then penBit (pTEN tile) 6 (tenCount tile 4 a.clamps s) else s
  let s := tenCount tile 8 a.records s
  let s := if bitOf (byteAt d 1) 1 ∧ byteAt d 0 = 1 ∧ status = 0 then tenCount tile 0 1 s else s
  let s := tagStage 1 (curPack s k) 3 true (if byteAt d 0 = 1 then freeRun k d s else s)
  let s := endItem tile 3 status num (leAt d 8 4) cyc a.records lo s
  if status ≠ 0 ∨ poison ∨ trapped then
    dropSample k (if a.short then penBit (pTILE tile) 2 s else s)
  else s

/-- The head descriptor of the tensor block, when it is one of opcode `op` (a reserved opcode counts as RUN). -/
def tensorHead (s : State) (tile op : Nat) : Option (List Byte) :=
  match headDesc s tile 3 with
  | some d => if byteAt d 0 = op ∨ (op = 1 ∧ byteAt d 0 ≠ 2) then some d else none
  | none => none

/-- `n` bytes at a slice offset were written for the context in this tick: they were not complete at the edge that opened it
(R127). -/
def writtenNow (s : State) (k off n : Nat) : Bool :=
  (getMedia s k).shaped.any fun e => decide (off ≤ e.out) && decide (e.out < off + n) && e.tick == s.tick.count

/-- The item's input holds something of this tick (R127). -/
def inputFresh (s : State) (tile k : Nat) (d : List Byte) : Bool :=
  let g := graphImage s (leAt d 2 2)
  writtenNow s k (regionBase s tile 2 + leAt d 0x1C 4) (img.tensor g (img.inTensor g)).span

/-- An item is stopped at twice its estimate: LIMIT, and its sample is dropped (R217, R224). -/
def limitTensor (tile : Nat) (cyc : Cycles) (d : List Byte) (s : State) : State :=
  let num := leAt d 4 2
  if stale s tile d then dropStale tile 3 s
  else
    let s := errInfo (pTEN tile) 2 num (penBit (pTEN tile) 2 (tenCount tile 1 1 s))
    let s := endItem tile 3 3 num (leAt d 8 4) cyc 0 0 s
    match descCtx s tile d with
    | none => s
    | some (k, _) => dropSample k (freeRun k d s)

/-- The item has reached twice its estimate. -/
def overLimit (d : List Byte) (cyc : Cycles) : Bool := decide (2 * leAt d 0xC 4 ≤ workCycles cyc)

/-- RUN: the tensor block runs the item at its head (R222 to R225). One that reaches twice its estimate is stopped (R217). -/
def execRun (tile : Nat) (cyc : Cycles) (s : State) : Host.Outcome State Fault Refusal :=
  .next <|
    match tensorHead s tile 1 with
    | none => s
    | some d =>
      let num := leAt d 4 2
      let bad (s : State) : State := endItem tile 3 6 num (leAt d 8 4) cyc 0 0 s
      if stale s tile d then dropStale tile 3 s
      else match descCtx s tile d with
        | none => bad s
        | some (k, _) =>
          if badTensorDesc s tile d then dropSample k (bad s)
          else if inputFresh s tile k d then s
          else if overLimit d cyc then limitTensor tile cyc d s
          else
            let g := graphImage s (leAt d 2 2)
            let (a, s) := runOps tile k d g (leAt d 0x12 2) (leAt d 0x10 2) (EmitAcc.start s tile d) s
            finishTensor tile num k d a (bitOf (img.flags g) 0 && a.reached) cyc s

/-- EMIT_TEXT: a caption record from the end timecode and text at SRC_ADDR (R222). It costs 128 + ceil(LEN / 64) cycles, `after` of
them after a tick edge. -/
def execEmitText (tile : Nat) (late : Nat × Nat) (s : State) : Host.Outcome State Fault Refusal :=
  .next <|
    match tensorHead s tile 2 with
    | none => s
    | some d =>
      let num := leAt d 4 2
      let n := leAt d 0x30 2
      let cost := 128 + ceilDiv (recordLen (4 + n)) 64
      let cyc : Cycles := { used := cost - late.1, after := min late.1 cost, slow := late.2 }
      let bad (s : State) : State := endItem tile 3 6 num (leAt d 8 4) cyc 0 0 s
      if stale s tile d then dropStale tile 3 s
      else match descCtx s tile d with
        | none => bad s
        | some (k, _) =>
          if badTensorDesc s tile d then dropSample k (bad s)
          else
            let src := leAt d 0x2C 4
            if writtenNow s k src (4 + n) then s
            else if overLimit d cyc then limitTensor tile cyc d s
            else
              let words := poisonsIn s tile src (4 + n)
              let s := sliceTouch tile src (4 + n) s
              let text := memRead s.mem (sliceKey tile src) (4 + n)
              let r := tokenRecord 5 (recordFlags d) 0 n (leAt d 0x18 4) (leAt d 0x16 2) (byteAt d 0x32) text
              let (a, s) := putRecord tile k r { EmitAcc.start s tile d with poison := words } s
              finishTensor tile num k d a false cyc (freeSpace k 2 (src - regionBase s tile 2) s)

/-- TENSOR_ITEM_LIMIT: the item at the head reaches twice its estimate (R217, R224). -/
def execTensorItemLimit (tile used : Nat) (late : Nat × Nat) (s : State) : Host.Outcome State Fault Refusal :=
  .next <|
    match headDesc s tile 3 with
    | none => s
    | some d =>
      let cyc : Cycles := { used := used, after := late.1, slow := late.2 }
      if overLimit d cyc then limitTensor tile cyc d s else s

/-! ### Loading (R218, R219) -/

/-- Shows a loaded graph in every TEN instance. -/
def showGraph (g : Nat) (on : Bool) (s : State) : State :=
  forN 32 s fun t s => setFld s (pTEN t) (R.TEN.GRAPH_MAP + 4 * (g / 32)) (g % 32) 1 (if on then 1 else 0)

/-- The load that began first of those under way. -/
def firstLoad (s : State) : Option (Nat × Graph) := (sortBy (·.2.began) (s.media.graphs.filter (·.2.loading))).head?

/-- The load that stands first: its copies begin on every ready tile whose regions it fits (R218, R219). -/
def beginCopies (s : State) : State :=
  match firstLoad s with
  | none => s
  | some (g, x) =>
    if s.media.copies.any fun c => c.1 == g then s
    else
      let fits := (List.range 32).filter fun t => readyTile s t && graphFits s t x
      { s with media := { s.media with copies := s.media.copies ++ fits.map fun t => (g, t) } }

/-- A load has ended: a ready tile that the graph does not fit shows GRAPH_NOFIT, and one that became ready after the copies began gets
a refill (R219, R226). -/
def settleLoad (g : Nat) (x : Graph) (s : State) : State :=
  forN 32 s fun t s =>
    if ¬ readyTile s t ∨ graphReady s t g then s
    else if graphFits s t x then dueRefill t [g] false s
    else noFit t g s

/-- Loads whose weights every ready tile holds complete with the run estimate, and the next load begins. -/
def finishLoads : Nat → State → State
  | 0, s => s
  | n + 1, s =>
    match firstLoad s with
    | none => s
    | some (g, x) =>
      if s.media.copies.any fun c => c.1 == g && readyTile s c.2 then s
      else
        let s := { s with media := { s.media with
          graphs := mput s.media.graphs g { x with loading := false }, copies := s.media.copies.filter fun c => c.1 != g } }
        let s := settleLoad g x (showGraph g true s)
        let s := (s.cmds.filter fun c => c.seq == x.seq).foldl (fun s c => complete c st.OK (runEstimate x.image) s) s
        finishLoads n (beginCopies s)

/-- Step 7: refills that are due begin, and a load that waited only for tiles no longer ready ends. -/
def edgeRefill (s : State) : State := finishLoads 65 (dueRefills s)

/-- The image a GRAPH_LOAD names; `host` holds what host memory has. -/
def imageData (c : SvcCmd) (s : State) (host : List Byte) : List Byte :=
  if bitOf (c.d 7) 0 then
    let head := windowRead s 0 (c.q 5) 64
    if 64 ≤ img.len head ∧ img.len head ≤ 2 ^ 30 then windowRead s 0 (c.q 5) (img.len head) else head
  else host

/-- The place of a load in the order in which loads begin. -/
def nextBegan (s : State) : Nat := (s.media.graphs.map (·.2.began)).foldl max 0 + 1

/-- GRAPH_LOAD with the image read. -/
def execGraphLoad (k : CmdRef) (image : List Byte) (s : State) : Host.Outcome State Fault Refusal :=
  .next <| finishLoads 65 <| runSvc k 0x30 noInv noFence
    (fun c s =>
      let g := c.d 4 % 1024
      let image := imageData c s image
      if (mget s.media.graphs g).isSome then .done 0x86 0 s
      else match imageOffence image with
        | some o => .done 0x87 o s
        | none =>
          let base := weightBase (placedParts s) (residentBytes image)
          let x : Graph := { image := image, loading := true, base := base, seq := c.seq, began := nextBegan s }
          let total := (s.media.graphs.map fun e => e.2.image.length).sum + image.length
          if 64 ≤ s.media.graphs.length ∨ 2 ^ 32 < total ∨
              ((List.range 32).any fun t => readyTile s t && decide (regionSize s t 1 < base + residentBytes image)) then
            .done st.NO_RESOURCE 0 s
          else .wait (beginCopies { s with media := { s.media with graphs := mput s.media.graphs g x } })) s

/-- A copy is complete on a tile: its weights stand there, and its READY bit with them, if the tile is still ready (R219). -/
def copyDone (tile g : Nat) (s : State) : State := if readyTile s tile then writeWeights tile g s else s

/-- WEIGHT_COPY_DONE: a copy of a load, or of a refill, ends on a tile. -/
def execWeightCopyDone (tile g : Nat) (s : State) : Host.Outcome State Fault Refusal :=
  .next <|
    if s.media.copies.contains (g, tile) then
      let s := copyDone tile g s
      finishLoads 65 { s with media := { s.media with copies := s.media.copies.filter (· != (g, tile)) } }
    else
      let l := mgetD s.media.refills tile []
      if l.contains g then
        let s := copyDone tile g s
        { s with media := { s.media with refills := mput s.media.refills tile (l.filter (· != g)) } }
      else s

/-- REFILL_END: every graph of the tile's refill is written. -/
def execRefillEnd (tile : Nat) (s : State) : Host.Outcome State Fault Refusal :=
  .next <|
    match mget s.media.refills tile with
    | some [] => penBit (pTEN tile) 5 (tenCount tile 6 1 { s with media := { s.media with refills := mdel s.media.refills tile } })
    | _ => s

/-- A stream set that is not ABSENT names the graph. -/
def graphNamed (s : State) (g : Nat) : Bool :=
  s.foundry.sets.any fun e => (bitOf e.2.outputs 0 && e.2.vis == g) || (bitOf e.2.outputs 2 && e.2.aud == g)

/-- GRAPH_DROP. -/
def execGraphDrop (k : CmdRef) (s : State) : Host.Outcome State Fault Refusal :=
  .next <| runSvc k 0x31 noInv noFence
    (fun c s =>
      let g := c.d 4 % 1024
      if ¬ graphLoaded s g then .done 0x81 0 s
      else if graphNamed s g then .done 0x88 0 s
      else
        let s := forN 32 (showGraph g false s) fun t s => setReady t g false s
        .done st.OK 0 { s with media := { s.media with
          graphs := mdel s.media.graphs g
          refills := s.media.refills.map fun e => (e.1, e.2.filter (· != g))
          refillDue := s.media.refillDue.map fun e => (e.1, e.2.1.filter (· != g), e.2.2) } }) s

/-- A graph the set uses does not fit the tile: its contexts there make no samples (R219, R226). -/
def setNoFit (s : State) (tile : Nat) (x : StreamSet) : Bool :=
  let bad (g : Nat) : Bool := match mget s.media.graphs g with | some y => !graphFits s tile y | none => false
  (bitOf x.outputs 0 && bad x.vis) || (bitOf x.outputs 2 && bad x.aud)

/-- The set takes new samples: ACTIVE, DRAINING, or PAUSING until the next edge (R139, R144). -/
def takesSamples (s : State) (x : StreamSet) : Bool :=
  x.state == 2 || x.state == 5 || (x.state == 3 && x.pauseAt == s.tick.count)

/-- SAMPLE_START: the context's next sample begins when PACK_MAX can be reserved; otherwise the refusal is counted and
shown, and the context tries again in the next tick (R120, R134). A context starts samples only on a RUNNING tile, with a shard
whose headers it has parsed (R158), no sample in progress, and a set that takes new samples; none start in a quiesce
(R52). -/
def execSampleStart (num : Nat) (s : State) : Host.Outcome State Fault Refusal :=
  .next <|
    match ctxAt s num with
    | none => s
    | some (k, c) =>
      match getSet s c.sset with
      | none => s
      | some x =>
        let tile := tileOfNum num
        let again := s.pair.remake.find? fun id => id / 2 ^ 48 == c.sset && !(s.foundry.ctxs.any fun e => match e.2.cur with
          | some y => y.packId == id
          | none => false)
        if c.state ≠ 1 ∨ c.cur.isSome ∨ (shardDone c ∧ again.isNone) ∨ c.off ∨ takesSamples s x = false ∨
            blkState s (pTILE tile) ≠ 1 ∨ quiescing s ∨ setNoFit s tile x ∨ (getMedia s k).sel.isNone ∨
            c.refused = s.tick.count + 1 then s
        else if s.foundry.capGiB * 2 ^ 30 < resvUsed s + x.packMax then
          penBit (pTILE tile) 0 (addReg (putCtx k { c with refused := s.tick.count + 1 } s) (pTILE tile) R.TILE.STALLS 1)
        else
          let id := again.getD (packIdOf c)
          let first := id % 2 ^ 24 * x.stride
          let t0 := x.startOff + first * x.interval
          tagCandidate 1 tile id <| putCtx k { c with cur := some {
            packId := id, reserve := x.packMax, firstFrame := first, lastFrame := first + x.clip - 1
            audioFrom := t0, audioTo := t0 + x.clip * x.interval, records := [], flags := 0, srcOffset := 0
            startTick := s.tick.count } } s

/-- SRAM_SCRUB: the scrubber reads the line at `off` of a slice; `pass` gives the seconds of a pass it completes. Its
write-back is exempt from the region rules (R205, R206, R540). -/
def execSramScrub (tile off : Nat) (pass : Option Nat) (s : State) : Host.Outcome State Fault Refusal :=
  .next <|
    if 32 ≤ tile ∨ ¬ sliceOn s tile then s
    else
      let s := sliceTouch tile (off / 64 * 64) 64 s
      match pass with
      | some n => setFld s (pSRAMT tile) R.SRAMT.SCRUB_STAT 0 16 (min n 0xFFFF)
      | none => s

end Sys2Proof.Machine
end

