-- ==== Sys2Proof/Machine/Links.lean ====
section
/-! DEFINITION. Feed links (chapter 08): roles and ports, bring-up, flits with acknowledgement and replay, lanes, packets
and their credits, pattern tests. -/

namespace Sys2Proof.Machine

def setFeed (s : State) (f : Feed → Feed) : State := { s with feed := f s.feed }

def putLink (l : Nat) (x : Link) (s : State) : State := setFeed s fun f => { f with links := mputD f.links l Link.down x }

/-- The lanes a link may use, as a mask. -/
def linkLanes (s : State) (l : Nat) : Nat :=
  match fld s (pLINK l) R.LINK.CFG 4 2 with
  | 1 => 1
  | 2 => 2
  | _ => 3

def setLstate (l v : Nat) (s : State) : State := setFld s (pLINK l) R.LINK.STAT 0 3 v

def setLanesUp (l v : Nat) (s : State) : State := setFld s (pLINK l) R.LINK.STAT 8 2 v

/-- Adds to LINK.COUNT[i], which saturates. -/
def linkCount (l i n : Nat) (s : State) : State := addSat s (pLINK l) (R.LINK.COUNT + 4 * i) n 0xFFFFFFFF

/-- Adds one to FEED.COUNT[i], which wraps. -/
def feedCount (i : Nat) (s : State) : State := addReg s pFEED (R.FEED.COUNT + 4 * i) 1

/-! ### Flits (R277 to R279) -/

/-- The fixed words of the flit header: acknowledgement and NAK (R277, R278). -/
def ackWord (x : Link) : Nat :=
  (if x.ackValid then 16 + (x.expected + 4095) % 4096 * 64 else 0) + (if x.nak then 32 else 0)

/-- The 256 bytes of a flit (R277). -/
def flitBytes (x : Link) (ftype seq first : Nat) (payload : List Byte) : List Byte :=
  let b := leBytes 4 (ftype * 2 ^ 30 + seq * 2 ^ 18 + ackWord x) ++ x.cr.flatMap (leBytes 1) ++ payload ++ leBytes 4 first
  b ++ leBytes 4 (crc32c b)

/-- A payload of 240 bytes, zero padded. -/
def payload240 (l : List Byte) : List Byte := l.take 240 ++ List.replicate (240 - l.length) 0

/-- The lane the next flit goes on: the two in turn, or the one there is (R273). -/
def nextLane (s : State) (l : Nat) : Nat :=
  let x := getLink s l
  match (if lanesUp s l = 0 then x.lock else lanesUp s l) with
  | 1 => 0
  | 2 => 1
  | _ => x.turn % 2

/-- A flit on a lane. -/
def flitOn (l lane ftype seq first : Nat) (payload : List Byte) (s : State) : State :=
  perfEvent (pLINK l) (if ftype = 1 then 0x100 else 0x102) 0xFF 1
    (emit (.linkData l lane "FLIT" seq (flitBytes (getLink s l) ftype seq first payload)) s)

/-- The next flit of the stream. -/
def sendFlit (l ftype seq first : Nat) (payload : List Byte) (s : State) : State :=
  let s := flitOn l (nextLane s l) ftype seq first payload s
  putLink l { getLink s l with turn := ((getLink s l).turn + 1) % 2 } s

/-- A NULL flit. -/
def sendNull (l : Nat) (s : State) : State := sendFlit l 0 0 15 (payload240 []) s

/-- A CTRL flit with a control message (R281). -/
def sendCtrl (l : Nat) (msg : List Byte) (s : State) : State :=
  sendFlit l 2 0 15 (payload240 msg) s

/-- LANE_DROP goes out on both lanes (R283). -/
def sendDrop (l lane : Nat) (s : State) : State :=
  let msg := payload240 (leBytes 1 3 ++ leBytes 1 lane)
  flitOn l 1 2 0 15 msg (flitOn l 0 2 0 15 msg s)

def sendData (l : Nat) (f : FlitOut) (s : State) : State :=
  sendFlit l 1 f.seq f.first f.payload s

/-- Chunks of a packet, header included (R285). -/
def pktChunks (p : Pkt) : Nat := 1 + ceilDiv p.data.length 16

/-- Header and data of a packet, zero padded to whole chunks. -/
def pktBytes (p : Pkt) : List Byte := p.h.flatMap (leBytes 4) ++ padTo 16 p.data

/-- The DATA flits of a packet from SEQ `seq` on: a packet begins a flit, and padding fills its last one. -/
def pktFlits (p : Pkt) (seq : Nat) : List FlitOut :=
  let n := ceilDiv (pktChunks p) 15
  (List.range n).map fun i => {
    seq := (seq + i) % 4096, first := if i = 0 then 0 else 15
    payload := payload240 ((pktBytes p).drop (240 * i)), ends := if i + 1 = n then some p else none }

/-- Sends what credits and the limit of 512 unacknowledged flits allow, in order within each VC (R278, R285). `blocked` is
the mask of VCs that wait. -/
def pumpList (l t : Nat) : List Pkt → Nat → State → State
  | [], _, s => s
  | p :: ps, blocked, s =>
    let x := getLink s l
    let n := ceilDiv (pktChunks p) 15
    if bitOf blocked p.vc ∨ x.credit.getD p.vc 0 < pktChunks p ∨ 512 < x.unacked.length + n then
      pumpList l t ps (withBits blocked p.vc 1 1) (putLink l { x with txq := x.txq ++ [p] } s)
    else
      let fl := pktFlits p x.seq
      let s := fl.foldl (fun s f => sendData l f s) s
      pumpList l t ps blocked (putLink l { getLink s l with
        seq := (x.seq + n) % 4096, unacked := x.unacked ++ fl, credit := x.credit.set p.vc (x.credit.getD p.vc 0 - pktChunks p)
        lastAdv := if x.unacked = [] then t else x.lastAdv } s)

def pump (l : Nat) (s : State) : State :=
  let x := getLink s l
  if linkUp s l then pumpList l s.now x.txq 0 (putLink l { x with txq := [] } s) else s

/-- Puts a packet on a link that is up. -/
def sendPkt (l : Nat) (p : Pkt) (s : State) : State :=
  let x := getLink s l
  if linkUp s l then pump l (putLink l { x with txq := x.txq ++ [p] } s) else s

/-- Puts a message on a port: on its lowest up link, or when the port next comes up (R276, R303). -/
def sendOnPort (port : Nat) (p : Pkt) (s : State) : State :=
  match portLinks s port with
  | l :: _ => sendPkt l p s
  | [] => setFeed s fun f => { f with portq := f.portq ++ [(port, p)] }

/-- A MSG packet (R284, R289): class and class-specific bits of dword 2, dword 3, data. -/
def msgPkt (cls spec d3 : Nat) (data : List Byte) (ref : PktRef) : Pkt := {
  vc := if bitOf cls 6 then 3 else 0
  h := [4, data.length, spec * 256 + cls, d3], data := data, ref := ref }

/-- A WRITE packet. -/
def writePkt (addr : Nat) (data : List Byte) (ref : PktRef) : Pkt := {
  vc := 0, h := [1, data.length, addr % 2 ^ 32, addr / 2 ^ 32], data := data, ref := ref }

/-- A READ packet. -/
def readPkt (tag addr len : Nat) : Pkt := {
  vc := 1, h := [2 + tag * 2 ^ 16, len, addr % 2 ^ 32, addr / 2 ^ 32], data := [], ref := .read tag }

/-- What the peer accepts in one packet: a multiple of 256 from 256 to 4,096 (R281). -/
def peerMax (x : Link) : Nat :=
  match x.peer with
  | some p => max 256 (min 4096 (p.maxLen / 256 * 256))
  | none => 4096

/-- READs the peer accepts outstanding (R281). -/
def peerTags (x : Link) : Nat :=
  match x.peer with
  | some p => max 1 (min 4096 p.rdTags)
  | none => 4096

/-- WRITEs of `data` from `addr`, each within the peer's MAX_LEN, on one link; `n` bounds their number. -/
def sendWrites (l : Nat) : Nat → Nat → List Byte → State → State
  | 0, _, _, s => s
  | n + 1, addr, data, s =>
    if data = [] then s
    else
      let m := peerMax (getLink s l)
      sendWrites l n (addr + m) (data.drop m) (sendPkt l (writePkt addr (data.take m) .plain) s)

/-! ### Capture READs (R307) -/

/-- The lowest tag not outstanding and not in quarantine. -/
def freeTag (x : Link) : Option Nat :=
  let used := (x.reads.map (·.tag)) ++ (x.quar.map (·.1))
  if peerTags x ≤ x.reads.length then none else (List.range 4096).find? fun t => !used.contains t

/-- Quarantined tags whose second RD_TIMEOUT has passed are free again. -/
def expireTags (l : Nat) (s : State) : State :=
  let x := getLink s l
  let q := x.quar.filter fun e => decide (s.now < e.2)
  setRegN (putLink l { x with quar := q } s) (pLINK l) (R.LINK.COUNT + 40) q.length

/-- RD_TIMEOUT in force, ns. -/
def rdTimeout (s : State) : Nat := max 100 (fld s pFEED R.FEED.CFG 0 16) * 1000

/-- The link a READ goes on: of the port's up links with a free tag, the one with the fewest outstanding, another than
`avoid` where one exists. -/
def readLink (s : State) (port : Nat) (avoid : Option Nat) : Option Nat :=
  let ls := (portLinks s port).filter fun l => (freeTag (getLink s l)).isSome
  let other := ls.filter fun l => some l != avoid
  (sortBy (fun l => (getLink s l).reads.length) (if other = [] then ls else other)).head?

/-- A READ has failed: it is reported to the checkpoint service. -/
def readFailed (r : CapRead) (s : State) : State :=
  setFeed s fun f => { f with capDone := f.capDone ++ [(r.session, r.region, r.addr, r.len, false)] }

/-- Sends a capture READ on a port; answers whether it could be sent. -/
def issueRead (port : Nat) (avoid : Option Nat) (r : CapRead) (s : State) : Option State :=
  match readLink s port avoid with
  | none => none
  | some l =>
    let x := getLink s l
    match freeTag x with
    | none => none
    | some tag =>
      let r := { r with tag := tag, got := 0, sentAt := s.now }
      some (sendPkt l (readPkt tag r.addr r.len) (putLink l { x with reads := x.reads ++ [r] } s))

/-- A READ timed out on link `l`: counted, issued once more on another link, or failed (R307). -/
def readTimedOut (l : Nat) (port : Option Nat) (r : CapRead) (s : State) : State :=
  let s := penBit (pLINK l) 5 (linkCount l 8 1 s)
  if r.second then readFailed r s
  else match port with
    | none => readFailed { r with second := true } s
    | some p => (match issueRead p (some l) { r with second := true } s with
      | some s => s
      | none => readFailed r s)

/-! ### Sessions -/

/-- The packets of a session that its peer had not acknowledged, in order, and those still waiting (R276). -/
def undone (x : Link) : List Pkt := (x.unacked.filterMap (·.ends)) ++ x.txq

/-- A link session ends (R276): messages and RELEASEs go again on another link of their port, outstanding READs time out,
every tag is released; rings lose it as
their current link; a port that loses its last link is down. -/
def endSession (l : Nat) (s : State) : State :=
  let x := getLink s l
  let port := linkPort s l
  let wasUp := match port with | some p => portUp s p | none => false
  let s := setRegN (putLink l Link.down s) (pLINK l) (R.LINK.COUNT + 40) 0
  let s := setFeed s fun f => { f with
    rings := f.rings.map fun e => if e.2.link = some l then (e.1, { e.2 with link := none }) else e }
  let s := setLanesUp l 0 (setLstate l 0 s)
  let s := (undone x).foldl (fun s p => match p.ref with | .again q => sendOnPort q p s | _ => s) s
  let s := x.reads.foldl (fun s r => readTimedOut l port r s) s
  match port with
  | some p => if wasUp && !portUp s p then penBit pFEED 0 s else s
  | none => s

/-- Starts a link whose page is RUNNING: training for roles 1 and 2, TEST for role 0 with a pattern, else DOWN (R274,
R308). -/
def startLink (l : Nat) (s : State) : State :=
  let role := linkRole s l
  let pat := fld s (pLINK l) R.LINK.PAT_CTL 0 3
  let st := if ¬ blkRunning s (pLINK l) then 0 else if role ≠ 0 then 1 else if pat ≠ 0 ∧ pat ≠ 7 then 7 else 0
  setLanesUp l 0 (setLstate l st (putLink l { Link.down with stepAt := s.now } s))

/-- The link goes down and trains again where it may. `counted`: under R280. -/
def downLink (l : Nat) (counted : Bool) (s : State) : State :=
  let wasUp := linkUp s l
  let s := endSession l s
  let s := if wasUp then penBit (pLINK l) 1 s else s
  let s := if counted then linkCount l 2 1 s else s
  startLink l s

/-- R606: the page is fenced, soft-reset or disabled: the link goes down at once and stays DOWN. -/
def quietLink (l : Nat) (s : State) : State :=
  let wasUp := linkUp s l
  let s := endSession l s
  if wasUp then penBit (pLINK l) 1 s else s

/-- A bring-up failure (R274, R282). -/
def failLink (l code detail : Nat) (s : State) : State :=
  let s := errInfo (pLINK l) code detail s
  setLstate l 6 (putLink l { Link.down with stepAt := s.now } s)

/-! ### Bring-up -/

/-- The PARAM or PARAM_ACK payload the device sends (R281). -/
def linkParam (s : State) (l op : Nat) : List Byte :=
  leBytes 1 op ++ leBytes 1 (if linkRole s l = 2 then 2 else 1) ++ leBytes 2 0x0100 ++ leBytes 2 0x0100 ++
    leBytes 2 0x0100 ++ leBytes 2 0x0100 ++ leBytes 1 (getLink s l).lock ++ leBytes 1 0 ++
    leBytes 2 1024 ++ leBytes 2 256 ++ leBytes 2 1024 ++ leBytes 2 128 ++ leBytes 2 4096 ++ leBytes 2 4096 ++
    leBytes 4 (reg s pMSS R.MSS.UNIT_ID_LO) ++ leBytes 4 (reg s pMSS R.MSS.UNIT_ID_HI)

/-- The fields of a received PARAM or PARAM_ACK payload. -/
def parseParam (b : List Byte) : PeerParam := {
  role := leAt b 1 1, llMin := leAt b 2 2, llMax := leAt b 4 2, tlMin := leAt b 6 2, tlMax := leAt b 8 2
  lanes := leAt b 10 1, credits := (List.range 4).map fun i => leAt b (12 + 2 * i) 2, rdTags := leAt b 0x14 2
  maxLen := leAt b 0x16 2, unitId := leAt b 0x18 8 }

/-- The highest version in both ranges (R98, R282). -/
def agreeVersion (lo hi : Nat) : Option Nat := if max lo 0x0100 ≤ min hi 0x0100 then some 0x0100 else none

/-- Both conditions of the PARAM step hold: the ends agree and the link comes up with a new session, or it fails (R274,
R275, R282). -/
def settleParam (l : Nat) (s : State) : State :=
  let x := getLink s l
  match x.peer with
  | none => s
  | some p =>
    if ¬ x.acked ∨ lstate s l ≠ 3 then s
    else
      let roleOk := (linkRole s l == 1 && p.role == 3) || (linkRole s l == 2 && p.role == 2)
      match agreeVersion p.llMin p.llMax, agreeVersion p.tlMin p.tlMax with
      | some ll, some tl =>
        if roleOk then
          let both := x.lock &&& p.lanes
          let lanes := if both = 0 then x.lock else both
          let pg := pLINK l
          let s := setRegN s pg R.LINK.VER (tl * 2 ^ 16 + ll)
          let s := setRegN (setRegN s pg R.LINK.PEER_ID_LO p.unitId) pg R.LINK.PEER_ID_HI (p.unitId / 2 ^ 32)
          let s := setBlkEpoch s pg (blkEpoch s pg + 1)
          let s := setLanesUp l lanes (setLstate l (if lanes = 3 then 4 else 5) s)
          penBit pg 0 (putLink l { Link.down with
            lock := x.lock, peer := x.peer, acked := true, credit := p.credits, lastAdv := s.now, lastGood := s.now } s)
        else penBit (pLINK l) 4 (failLink l 2 0 s)
      | _, _ => penBit (pLINK l) 4 (failLink l 2 0 s)

/-- The FLIT_LOCK step begins with the lanes that passed training; the PARAM step with those that have alignment. -/
def enterLock (l : Nat) (s : State) : State := setLstate l 2 (putLink l { getLink s l with stepAt := s.now } s)

def enterParam (l : Nat) (s : State) : State :=
  let s := setLstate l 3 (putLink l { getLink s l with stepAt := s.now } s)
  sendCtrl l (linkParam s l 1) s

/-- PHY_TRAIN_DONE: training of the lanes in `passed` ended with FEC lock, of those in `failed` without; the step ends when
every enabled lane has done one of the two (R274). -/
def execPhyTrainDone (t link passed failed : Nat) (s : State) : Host.Outcome State Fault Refusal :=
  .next <|
    let s := atTime t s
    if 48 ≤ link ∨ lstate s link ≠ 1 then s
    else
      let en := linkLanes s link
      let x := getLink s link
      let x := { x with phy := (x.phy ||| passed) &&& en, phyFailed := (x.phyFailed ||| failed) &&& en }
      let s := putLink link x s
      if (x.phy ||| x.phyFailed) = en ∧ x.phy ≠ 0 then enterLock link s else s

/-- FLIT_LOCK_DONE: lanes in `passed` have flit alignment within the skew, those in `failed` have not (R274). -/
def execFlitLockDone (t link passed failed : Nat) (s : State) : Host.Outcome State Fault Refusal :=
  .next <|
    let s := atTime t s
    if 48 ≤ link ∨ lstate s link ≠ 2 then s
    else
      let x := getLink s link
      let x := { x with lock := (x.lock ||| passed) &&& x.phy, lockFailed := (x.lockFailed ||| failed) &&& x.phy }
      let s := putLink link x s
      if (x.lock ||| x.lockFailed) = x.phy ∧ x.lock ≠ 0 then enterParam link s else s

/-- BRING_UP_LIMIT: the limit of the running step has come: a lane that passed goes on, else FAILED (R274). -/
def execBringUpLimit (t link : Nat) (s : State) : Host.Outcome State Fault Refusal :=
  .next <|
    let s := atTime t s
    if 48 ≤ link then s
    else
      let x := getLink s link
      let due (d : Nat) : Bool := decide (x.stepAt + d ≤ t)
      match lstate s link with
      | 1 => if ¬ due 500000000 then s else if x.phy ≠ 0 then enterLock link s else failLink link 1 1 s
      | 2 => if ¬ due 1000000 then s else if x.lock ≠ 0 then enterParam link s else failLink link 1 2 s
      | 3 => if ¬ due 100000 then s else failLink link 1 3 s
      | _ => s

/-- LINK_RETRY: one second after FAILED the link trains again (R274). -/
def execLinkRetry (t link : Nat) (s : State) : Host.Outcome State Fault Refusal :=
  .next <|
    let s := atTime t s
    if link < 48 ∧ lstate s link = 6 ∧ (getLink s link).stepAt + 1000000000 ≤ t then startLink link s else s

/-- PARAM: the peer's PARAM is received and answered (R281). -/
def execParam (t link : Nat) (payload : List Byte) (s : State) : Host.Outcome State Fault Refusal :=
  .next <|
    let s := atTime t s
    if 48 ≤ link ∨ ¬ (lstate s link = 3 ∨ linkUp s link) then s
    else
      let s := if lstate s link = 3 then putLink link { getLink s link with peer := some (parseParam payload) } s else s
      settleParam link (sendCtrl link (linkParam s link 2) s)

/-- PARAM_ACK: the peer has received this end's PARAM (R281, R282). -/
def execParamAck (t link : Nat) (s : State) : Host.Outcome State Fault Refusal :=
  .next <|
    let s := atTime t s
    if 48 ≤ link ∨ lstate s link ≠ 3 then s
    else settleParam link (putLink link { getLink s link with acked := true } s)

/-- PARAM_SEND: the PARAM of every microsecond of the PARAM step (R281). -/
def execParamSend (t link : Nat) (s : State) : Host.Outcome State Fault Refusal :=
  .next <|
    let s := atTime t s
    if link < 48 ∧ lstate s link = 3 then sendCtrl link (linkParam s link 1) s else s

/-! ### Receiving flits -/

/-- Every unacknowledged DATA flit is sent again (R279). -/
def replay (l : Nat) (s : State) : State :=
  let x := getLink s l
  let s := x.unacked.foldl (fun s f => sendData l f s) s
  let s := putLink l { getLink s l with replays := x.replays + 1, lastAdv := s.now } s
  penBit (pLINK l) 2 (linkCount l 1 1 s)

/-- The packet a flit ends has been acknowledged: a producer record raises P of its ring (R302). -/
def ackPkt (p : Pkt) (s : State) : State :=
  match p.ref with
  | .record r pi => setFeed s fun f => { f with rings := mmod f.rings r fun x => { x with acked := max x.acked pi } }
  | _ => s

/-- ACK_SEQ `a` arrives (R278). -/
def takeAck (l a : Nat) (s : State) : State :=
  let x := getLink s l
  if x.unacked.any fun f => f.seq == a then
    let n := (x.unacked.takeWhile fun f => f.seq != a).length + 1
    let done := x.unacked.take n
    let s := putLink l { x with unacked := x.unacked.drop n, lastAdv := s.now, replays := 0 } s
    (done.filterMap (·.ends)).foldl (fun s p => ackPkt p s) s
  else s

/-- Cumulative credit counts arrive (R278, R285). -/
def takeCredits (l : Nat) (cr : List Nat) (s : State) : State :=
  let x := getLink s l
  let new := (List.range 4).map fun v => x.credit.getD v 0 + (cr.getD v 0 + 256 - x.peerCr.getD v 0) % 256
  putLink l { x with credit := new, peerCr := cr } s

/-- A packet type's virtual channel (R284). -/
def ttypeVc (ttype cls : Nat) : Nat :=
  if ttype = 2 then 1 else if ttype = 3 then 2 else if ttype = 4 ∧ bitOf cls 6 then 3 else 0

/-- What is wrong with a received header, apart from the length rules of WRITE, READ and READ_RESP that their own commands
check: 1 a bad packet, 2 a message of an undefined class, 3 a doorbell of an unknown kind, 0 nothing (R284, R289, R290). -/
def headerFault (hawser : Bool) (d0 d1 d2 d3 : Nat) : Nat :=
  let ty := bitsOf d0 0 8
  let cls := bitsOf d2 0 8
  if 6 < ty ∨ bitsOf d0 28 4 ≠ 0 ∨ bitsOf d0 12 4 ≠ 0 ∨ d1 / 2 ^ 13 ≠ 0 ∨ (ty ≠ 3 ∧ bitsOf d0 8 4 ≠ 0)
      ∨ (ty ≠ 2 ∧ ty ≠ 3 ∧ bitsOf d0 16 12 ≠ 0) ∨ (5 ≤ ty ∧ bitsOf d1 0 13 ≠ 0) ∨ (ty = 3 ∧ d3 ≠ 0) ∨ ((ty = 3 ∨ ty = 4) ∧ 4096 < bitsOf d1 0 13) then 1
  else if ty = 4 then
    if cls = 1 ∨ (0x80 ≤ cls ∧ cls ≤ 0xBF) ∨ (hawser ∧ 0x10 ≤ cls ∧ cls ≤ 0x1F) then 0 else 2
  else if ty = 5 ∧ 1 < d2 / 2 ^ 28 then 3 else 0

/-- The chunks of an accepted DATA flit: each chunk counts as received and freed in its VC, and a packet header is
checked (R284, R285). A padding chunk fills the rest. -/
def rxChunks (l : Nat) : List (List Byte) → State → State
  | [], s => s
  | c :: cs, s =>
    let x := getLink s l
    let credit (v : Nat) (x : Link) : Link := { x with cr := x.cr.set v ((x.cr.getD v 0 + 1) % 256) }
    if 0 < x.rxLeft then rxChunks l cs (putLink l (credit x.rxVc { x with rxLeft := x.rxLeft - 1 }) s)
    else
      let d0 := leAt c 0 4
      let d1 := leAt c 4 4
      let d2 := leAt c 8 4
      let ty := bitsOf d0 0 8
      if ty = 0 then s
      else
        let v := ttypeVc ty (bitsOf d2 0 8)
        let n := if ty = 2 ∨ ty = 5 ∨ ty = 6 then 0 else ceilDiv (bitsOf d1 0 13) 16
        let s := putLink l (credit v { x with rxLeft := n, rxVc := v }) s
        let s := match headerFault (linkRole s l == 2) d0 d1 d2 (leAt c 12 4) with
          | 1 => linkCount l 13 1 s
          | 2 => feedCount 13 s
          | 3 => feedCount 12 s
          | _ => s
        rxChunks l cs s

/-- SEQ `a` is older than `b`, modulo 4,096 (R278). -/
def seqOlder (a b : Nat) : Bool :=
  let d := (b + 4096 - a % 4096) % 4096
  decide (1 ≤ d) && decide (d ≤ 2047)

/-- A DATA flit in a session (R279). -/
def rxData (l seq : Nat) (payload : List Byte) (s : State) : State :=
  let x := getLink s l
  if seq = x.expected then
    let s := putLink l { x with expected := (seq + 1) % 4096, ackValid := true, nak := false } s
    let chunks := (List.range 15).map fun i => (payload.drop (16 * i)).take 16
    sendNull l (rxChunks l chunks (perfEvent (pLINK l) 0x101 0xFF 1 s))
  else if seqOlder seq x.expected then s
  else sendNull l (putLink l { x with nak := true } s)

/-- The pattern checker met errors on a lane (R308). -/
def patErrors (l lane n : Nat) (s : State) : State :=
  if n = 0 ∨ fld s (pLINK l) R.LINK.PAT_CTL 5 1 = 0 then s
  else
    let off := R.LINK.COUNT + 4 * (11 + lane % 2)
    penBit (pLINK l) 7 (addSat s (pLINK l) off n 0xFFFFFFFF)

/-- A flit of the flit pattern: its payload bytes count up from the flit number, which rises by one from flit to flit; a
flit that breaks this, or fails its CRC, is one error (R308). -/
def patFlit (l : Nat) (bytes : List Byte) (crcOk : Bool) (s : State) : State :=
  let x := getLink s l
  let first := leAt bytes 8 1
  let want := match x.pat with | some n => (n + 1) % 256 | none => first
  let ok := crcOk && (enumFrom 0 ((bytes.drop 8).take 240)).all fun e => e.2.toNat == (want + e.1) % 256
  let s := putLink l { x with pat := some want } s
  if ok then s else patErrors l 0 1 s

/-- FLIT_RECEIVE: 256 bytes taken from lane `lane` at `t`, with the codewords its FEC corrected and found uncorrectable,
and the bit errors a pattern checker counted (R277 to R280, R308). The packets of accepted DATA flits are commands of their
own. -/
def execFlitReceive (t link lane corr ucw errs : Nat) (bytes : List Byte) (s : State) : Host.Outcome State Fault Refusal :=
  .next <|
    let s := atTime t s
    if 48 ≤ link then s
    else
      let s := linkCount link (6 + lane % 2) ucw (linkCount link (4 + lane % 2) corr s)
      let crcOk := bytes.length == 256 && crc32c (bytes.take 252) == leAt bytes 252 4
      let fh := leAt bytes 0 4
      let ftype := fh / 2 ^ 30
      let bad := !crcOk || ftype == 3 || fh % 16 != 0 || leAt bytes 0xF8 4 / 16 != 0 || (ftype != 1 && bitsOf fh 18 12 != 0)
      if lstate s link = 7 then
        if fld s (pLINK link) R.LINK.PAT_CTL 0 3 = 6 then patFlit link bytes crcOk s else patErrors link lane errs s
      else if ¬ (lstate s link = 3 ∨ linkUp s link) then s
      else
        let s := if crcOk then putLink link { getLink s link with lastGood := t } s else s
        if bad then
          let s := linkCount link 0 1 s
          if ftype = 1 ∧ linkUp s link then sendNull link (putLink link { getLink s link with nak := true } s) else s
        else if ¬ linkUp s link then s
        else
          let s := if bitOf fh 4 then takeAck link (bitsOf fh 6 12) s else s
          let s := takeCredits link ((List.range 4).map fun v => leAt bytes (4 + v) 1) s
          let x := getLink s link
          let due : Bool := match x.lastNak with | some n => decide (n + 2000 ≤ t) | none => true
          let s := if bitOf fh 5 ∧ x.unacked ≠ [] ∧ due then
              replay link (putLink link { x with lastNak := some t } s) else s
          let s := if ftype = 1 then rxData link (bitsOf fh 18 12) ((bytes.drop 8).take 240) s else s
          pump link s

/-- REPLAY_TIMEOUT (R279). -/
def execReplayTimeout (t link : Nat) (s : State) : Host.Outcome State Fault Refusal :=
  .next <|
    let s := atTime t s
    let x := getLink s link
    if link < 48 ∧ linkUp s link ∧ x.unacked ≠ [] ∧ x.lastAdv + 2000 ≤ t then replay link s else s

/-- LINK_DOWN: four replays without an advance, 100 µs with no good flit, or no lane left (R280). -/
def execLinkDown (t link : Nat) (s : State) : Host.Outcome State Fault Refusal :=
  .next <|
    let s := atTime t s
    let x := getLink s link
    if link < 48 ∧ linkUp s link ∧ (4 ≤ x.replays ∨ x.lastGood + 100000 ≤ t ∨ lanesUp s link = 0) then downLink link true s
    else s

/-! ### Lanes -/

/-- Traffic goes on without a lane, or the link goes down when none is left (R280, R283). -/
def removeLane (l lane : Nat) (s : State) : State :=
  let left := withBits (lanesUp s l) (lane % 2) 1 0
  let s := putLink l { getLink s l with dropping := none } s
  if left = 0 then downLink l true (setLanesUp l 0 s) else setLstate l 5 (setLanesUp l left s)

/-- A drop is counted. -/
def noteDrop (l : Nat) (s : State) : State := penBit (pLINK l) 3 (linkCount l 3 1 s)

/-- LANE_FAULT: this end finds the fault and sends LANE_DROP; with no other lane the link goes down (R280, R283). -/
def execLaneFault (t link lane : Nat) (s : State) : Host.Outcome State Fault Refusal :=
  .next <|
    let s := atTime t s
    if 48 ≤ link ∨ ¬ linkUp s link ∨ ¬ bitOf (lanesUp s link) (lane % 2) ∨ 2 ≤ lane then s
    else
      let s := noteDrop link s
      if withBits (lanesUp s link) lane 1 0 = 0 ∨ (getLink s link).dropping = some (1 - lane) then removeLane link lane (setLanesUp link (2 ^ lane) s)
      else sendDrop link lane (putLink link { getLink s link with dropping := some lane } s)

/-- LANE_DROP_RESEND: the message is repeated every microsecond until it is acknowledged (R283). -/
def execLaneDropResend (t link : Nat) (s : State) : Host.Outcome State Fault Refusal :=
  .next <|
    let s := atTime t s
    match (getLink s link).dropping with
    | some lane => if link < 48 ∧ linkUp s link then sendDrop link lane s else s
    | none => s

/-- LANE_DROP: the peer drops a lane; it is acknowledged (R283). -/
def execLaneDrop (t link lane : Nat) (s : State) : Host.Outcome State Fault Refusal :=
  .next <|
    let s := atTime t s
    if 48 ≤ link ∨ ¬ linkUp s link ∨ 2 ≤ lane then s
    else
      let s := sendCtrl link (leBytes 1 4) s
      if bitOf (lanesUp s link) lane then removeLane link lane (noteDrop link s) else s

/-- LANE_DROP_ACK (R283). -/
def execLaneDropAck (t link : Nat) (s : State) : Host.Outcome State Fault Refusal :=
  .next <|
    let s := atTime t s
    if 48 ≤ link ∨ ¬ linkUp s link then s
    else match (getLink s link).dropping with
      | some lane => removeLane link lane s
      | none => s

/-- RETRAIN: LINK.CTL.RETRAIN = 1 (R283). -/
def execRetrain (t link : Nat) (s : State) : Host.Outcome State Fault Refusal :=
  .next <|
    let s := atTime t s
    if link < 48 ∧ blkRunning s (pLINK link) ∧ linkRole s link ≠ 0 then downLink link false s else s

/-! ### Patterns -/

/-- PAT_SELECT: a write of LINK.PAT_CTL; its PAT enters or leaves TEST (R308). -/
def execPatSelect (t link v : Nat) (s : State) : Host.Outcome State Fault Refusal :=
  .next <|
    let s := atTime t s
    if 48 ≤ link then s
    else
      let p := pLINK link
      let old := fld s p R.LINK.PAT_CTL 0 3
      let s := setRegN s p R.LINK.PAT_CTL (bitsOf v 0 3 + bitsOf v 4 2 * 16)
      if linkRole s link = 0 ∧ blkRunning s p ∧ old ≠ bitsOf v 0 3 then startLink link s else s

/-- PAT_CLEAR: PAT_CTL.CLR = 1 (R308). -/
def execPatClear (link : Nat) (s : State) : Host.Outcome State Fault Refusal :=
  .next (if link < 48 then setRegN (setRegN s (pLINK link) (R.LINK.COUNT + 44) 0) (pLINK link) (R.LINK.COUNT + 48) 0 else s)

end Sys2Proof.Machine
end

