-- ==== Sys2Proof/Machine/Feed.lean ====
section
/-! DEFINITION. Delivery to accelerators (chapter 08): inbound windows, capture reads, feed rings with their ledgers, suspect
notices, the choice of packs for exchange, and the feed commands. -/

namespace Sys2Proof.Machine

/-! ### Inbound windows (R305, R306) -/

/-- What a window makes of an access to one 16-byte chunk. -/
inductive WinHit where
  /-- Refused, with dword 3 of WINDOW_ERR. -/
  | refused (code : Nat)
  /-- LPDDR5X offset. -/
  | dram (off : Nat)
  /-- Host memory: function, PASID where enabled, address. -/
  | host (func : Nat) (pasid : Option Nat) (addr : Nat)
  deriving DecidableEq, Repr

/-- The valid window of a port that covers an address: the lowest-numbered. -/
def windowAt (s : State) (port addr : Nat) : Option Nat :=
  ((List.range 16).map (16 * port + ·)).find? fun i =>
    let d4 := winDword s i 4
    let n := bitsOf d4 0 8
    let base := winDword s i 0 + 2 ^ 32 * winDword s i 1
    bitOf d4 8 && decide (12 ≤ n) && decide (n ≤ 40) && decide (addr / 2 ^ n = base / 2 ^ n)

/-- The translation of one chunk (R306). -/
def winChunk (s : State) (port : Nat) (write : Bool) (addr : Nat) : WinHit :=
  match windowAt s port addr with
  | none => .refused 0
  | some i =>
    let d4 := winDword s i 4
    let d5 := winDword s i 5
    let n := bitsOf d4 0 8
    let tgt := (winDword s i 2 + 2 ^ 32 * winDword s i 3) / 2 ^ n * 2 ^ n + addr % 2 ^ n
    let func := bitsOf d4 16 16
    if bitsOf d4 12 4 ≠ 0 ∨ bitsOf d5 20 11 ≠ 0 ∨ winDword s i 6 ≠ 0 ∨ winDword s i 7 ≠ 0 then .refused 0
    else if ¬ bitOf d4 (if write then 10 else 9) then .refused 1
    else if ¬ bitOf d4 11 then .dram tgt
    else if blkState s (pFUNC func) = 0x80 then .refused 2
    else .host func (if bitOf d5 31 then some (bitsOf d5 0 20) else none) tgt

/-- The translations of a packet's chunks, with the offset of each. -/
def winChunks (s : State) (port : Nat) (write : Bool) (addr len : Nat) : List (Nat × WinHit) :=
  (List.range (ceilDiv len 16)).map fun i => (16 * i, winChunk s port write (addr + 16 * i))

/-- The code of the first refused chunk. -/
def winRefusal (l : List (Nat × WinHit)) : Option Nat :=
  l.findSome? fun e => match e.2 with | .refused c => some c | _ => none

/-- A refusal is counted (R306). -/
def winRefused (port : Nat) (s : State) : State := errInfo pFEED 2 port (penBit pFEED 2 (feedCount 6 s))

/-- Places one chunk. -/
def placeChunk (h : WinHit) (l : List Byte) (s : State) : State :=
  match h with
  | .dram off => putDram off l s
  | .host func pasid addr => hostWrite func pasid false addr l s
  | .refused _ => s

/-- The length rules of WRITE and READ (R284): 16 to 4,096, a multiple of 16, at an aligned address. -/
def badLen (addr len : Nat) : Bool := decide (addr % 16 ≠ 0) || decide (len < 16) || decide (4096 < len) || decide (len % 16 ≠ 0)

/-- LINK_WRITE: a WRITE packet from an accelerator (R306). A FENCED feed serves none (R89). -/
def execLinkWrite (link addr : Nat) (data : List Byte) (s : State) : Host.Outcome State Fault Refusal :=
  .next <|
    match linkPort s link with
    | none => s
    | some port =>
      if 48 ≤ link ∨ ¬ linkUp s link ∨ blkFenced s pFEED then s
      else if badLen addr data.length then linkCount link 13 1 s
      else
        let hits := winChunks s port true addr data.length
        match winRefusal hits with
        | some code =>
          let s := winRefused port s
          sendPkt link (msgPkt 2 port code (leBytes 8 addr ++ leBytes 2 data.length ++ leBytes 6 0) (.again port)) s
        | none => hits.foldl (fun s e => placeChunk e.2 ((data.drop e.1).take 16) s) s

/-- READ_RESPs for `data` of a READ from `addr`, split at 256-byte boundaries of the address where the peer's MAX_LEN
demands it (R287); `n` bounds their number. -/
def sendResps (l tag : Nat) : Nat → Nat → Nat → List Byte → State → State
  | 0, _, _, _, s => s
  | n + 1, addr, off, data, s =>
    if data = [] then s
    else
      let m := peerMax (getLink s l)
      let k := if data.length ≤ m then m else m - addr % 256
      let p : Pkt := {
        vc := 2, h := [3 + tag * 2 ^ 16, min k data.length, off, 0], data := data.take k, ref := .plain }
      sendResps l tag n (addr + k) (off + k) (data.drop k) (sendPkt l p s)

/-- LINK_READ: a READ packet from an accelerator. `host` is what host memory returns, byte for byte of the range; none when
a read of it failed (R288, R306, R362). A FENCED feed serves none (R89). -/
def execLinkRead (link tag addr len : Nat) (host : Option (List Byte)) (s : State) : Host.Outcome State Fault Refusal :=
  .next <|
    match linkPort s link with
    | none => s
    | some port =>
      if 48 ≤ link ∨ ¬ linkUp s link ∨ blkFenced s pFEED then s
      else if badLen addr len then linkCount link 13 1 s
      else
        let status (c : Nat) : Pkt := { vc := 2, h := [3 + c * 256 + tag % 4096 * 2 ^ 16, 0, 0, 0], data := [], ref := .plain }
        let hits := winChunks s port false addr len
        match winRefusal hits with
        | some _ => sendPkt link (status 1) (winRefused port s)
        | none =>
          let poisoned := hits.any fun e => match e.2 with
            | .dram off => dramPoison s off 16
            | _ => host.isNone
          let s := hits.foldl (fun s e => match e.2 with | .dram off => dramTouch off 16 s | _ => s) s
          if poisoned then sendPkt link (status 2) s
          else
            let host := host.getD []
            let data := (hits.flatMap fun e => match e.2 with
              | .dram off => memRead s.mem (dramKey off) 16
              | _ => (host.drop e.1).take 16 ++ List.replicate (16 - ((host.drop e.1).take 16).length) 0)
            sendResps link (tag % 4096) 32 addr 0 data s

/-! ### Capture reads (R307) -/

/-- READ_RESP: a response on a link. One for a quarantined tag is late; one for an outstanding READ places its bytes, ends
it when they reach its length, or fails it with a status (R287, R288, R307). -/
def readResp (t link tag status off : Nat) (data : List Byte) (s : State) : State :=
    let s := atTime t s
    if 48 ≤ link ∨ ¬ linkUp s link then s
    else
      let s := expireTags link s
      let x := getLink s link
      match x.reads.find? fun r => r.tag == tag with
      | some r =>
        let rest := x.reads.filter fun q => q.tag != tag
        if status ≠ 0 then readFailed r (putLink link { x with reads := rest } s)
        else if r.len < off + data.length then linkCount link 13 1 s
        else
          let s := putDram (r.dst + off) data s
          let r := { r with got := r.got + data.length }
          if r.len ≤ r.got then
            setFeed (putLink link { x with reads := rest } s)
              fun f => { f with capDone := f.capDone ++ [(r.session, r.region, r.addr, r.len, true)] }
          else putLink link { x with reads := x.reads.map fun q => if q.tag = tag then r else q } s
      | none =>
        if (x.quar.map (·.1)).contains tag then
          let s := putLink link { x with quar := x.quar.filter fun e => e.1 != tag } s
          expireTags link (penBit (pLINK link) 6 (linkCount link 9 1 s))
        else s

/-- CAPTURE_READ_TIMEOUT: RD_TIMEOUT after the READ was sent (R307). -/
def captureReadTimeout (t link tag : Nat) (s : State) : State :=
    let s := atTime t s
    if 48 ≤ link then s
    else
      let x := getLink s link
      match x.reads.find? fun r => r.tag == tag with
      | none => s
      | some r =>
        if t < r.sentAt + rdTimeout s then s
        else
          let s := putLink link { x with
            reads := x.reads.filter fun q => q.tag != tag, quar := x.quar ++ [(tag, t + rdTimeout s)] } s
          expireTags link (readTimedOut link (linkPort s link) r s)

/-! ### Rings -/

def getRing (s : State) (i : Nat) : Option Ring := mget s.feed.rings i

def putRingF (i : Nat) (x : Ring) (s : State) : State := setFeed s fun f => { f with rings := mput f.rings i x }

def ringSize (x : Ring) : Nat := 2 ^ x.sizeLog

/-- RUNNING, STOPPING or STOPPED. -/
def ringLive (x : Ring) : Bool := x.state == 2 || x.state == 3 || x.state == 4

/-- RING_STATE on the ring's port (R289, R309). -/
def ringState (i port st : Nat) (s : State) : State := sendOnPort port (msgPkt 3 i st [] (.again port)) s

/-- A ring enters ERROR; a RING_STOP in hand ends with ABORTED. -/
def ringError (i : Nat) (s : State) : State :=
  match getRing s i with
  | none => s
  | some x =>
    let s := penBit pFEED 4 (putRingF i { x with state := 5, drawing := false } s)
    finishCmds (fun c => c.op == 0x42 && c.obj == i) st.ABORTED 0 (ringState i x.port 5 s)

/-- The bytes a skip marker before a pack of `len` bytes would advance the index by (R293). -/
def skipBytes (x : Ring) (len : Nat) : Nat :=
  let left := ringSize x - x.pi % ringSize x
  if left < len then left else 0

/-- The ring has space for a pack (R293). -/
def ringSpace (x : Ring) (len : Nat) : Bool := decide (x.pi - x.ci + skipBytes x len + len ≤ ringSize x)

/-- A skip marker (R292). -/
def skipMarker (len : Nat) : List Byte :=
  let b := leBytes 4 0x504B5345 ++ leBytes 1 1 ++ leBytes 3 0 ++ leBytes 4 len ++ List.replicate 48 0
  b ++ leBytes 4 (crc32c b)

def findPack (s : State) (rank id : Nat) : Option Pack := s.foundry.packs.find? fun p => p.rank == rank && p.id == id

/-- Changes a pack of the reservoir. -/
def modPack (rank id : Nat) (g : Pack → Pack) (s : State) : State :=
  setFoundry s fun f => { f with packs := f.packs.map fun p => if p.rank = rank ∧ p.id = id then g p else p }

/-- A pack leaves the reservoir; a tagged sample that has not ended is dropped. -/
def removePack (rank id : Nat) (s : State) : State :=
  let s := match findPack s rank id with
    | some p => if p.peer then s else tagEnd 1 id 1 s
    | none => s
  setFoundry s fun f => { f with packs := f.packs.filter fun p => !(p.rank == rank && p.id == id) }

/-- Ring bytes are written at an index, on a link; WRITEs bounded by the pack limit. -/
def writeRing (l : Nat) (x : Ring) (idx : Nat) (data : List Byte) (s : State) : State :=
  sendWrites l 16385 (x.base + idx % ringSize x) data s

/-- The producer record (R293). -/
def producerRecord (l i : Nat) (x : Ring) (s : State) : State :=
  sendPkt l (writePkt x.piAddr (leBytes 8 x.pi ++ leBytes 8 s.tick.count) (.record i x.pi)) s

/-- Writes a pack into a ring on its current link: skip marker, pack, producer record, ledger entry (R292, R293, R296). -/
def writePack (i l : Nat) (x : Ring) (p : Pack) (again : Bool) (s : State) : State :=
  let k := skipBytes x p.len
  let e : LedgerEntry := {
    rank := p.rank, id := p.id, tile := p.tile, epoch := p.epoch, made := p.madeTick, skip := x.pi, start := x.pi + k
    fin := x.pi + k + p.len, tick := s.tick.count, at_ := s.now, committed := false, rejected := false, rewrite := again
    peer := p.peer }
  let s := if k = 0 then s else writeRing l x x.pi (skipMarker k) s
  let s := writeRing l x e.start p.data s
  let s := if p.peer then s else tagStage 1 p.id 7 false s
  let x := { x with pi := e.fin, ledger := x.ledger ++ [e] }
  let s := perfEvent pFEED 0x100 x.port (ceilDiv p.len 64) (putRingF i x s)
  producerRecord l i x s

/-- Rejected packs whose commit followed are written once more, in order, where there is space and a link (R297). -/
def writeAgain (i : Nat) : Nat → State → State
  | 0, s => s
  | n + 1, s =>
    match getRing s i with
    | none => s
    | some x =>
      match x.again, x.link with
      | (rank, id) :: rest, some l =>
        (match findPack s rank id with
         | none => writeAgain i n (putRingF i { x with again := rest } s)
         | some p =>
           if ringSpace x p.len then
             writeAgain i n (feedCount 3 (writePack i l { x with again := rest } p true s))
           else s)
      | _, _ => s

/-- One ledger entry commits (R296, R297): a pack rejected for the first time is to be written again; any other leaves the
reservoir at the next edge, one rejected twice being discarded. -/
def commitEntry (i : Nat) (e : LedgerEntry) (s : State) : State :=
  match getRing s i with
  | none => s
  | some x =>
    if e.rejected ∧ ¬ e.rewrite then putRingF i { x with again := x.again ++ [(e.rank, e.id)] } s
    else
      let own := match findPack s e.rank e.id with | some p => !p.peer | none => false
      let s := if own then tagEnd 1 e.id (if e.rejected then 1 else 0) (tagStage 1 e.id 8 true s) else s
      let s := feedCount 1 (setFeed s fun f => { f with remove := f.remove ++ [(e.rank, e.id)] })
      if e.rejected then penBit pFEED 1 (feedCount 2 s) else s

/-- Every entry whose end CI has reached commits, in ring order (R296). -/
def commitRing (i : Nat) (s : State) : State :=
  match getRing s i with
  | none => s
  | some x =>
    let due (e : LedgerEntry) : Bool := !e.committed && decide (e.fin ≤ x.ci)
    let s := putRingF i { x with ledger := x.ledger.map fun e => if due e then { e with committed := true } else e } s
    let s := (x.ledger.filter due).foldl (fun s e => commitEntry i e s) s
    writeAgain i 64 s

/-- A STOPPING ring that no longer draws is STOPPED once every pack written to it is committed (R309). -/
def ringStopped (i : Nat) (s : State) : State :=
  match getRing s i with
  | none => s
  | some x =>
    if x.state = 3 ∧ ¬ x.drawing ∧ x.again = [] ∧ x.ledger.all (·.committed) then
      let s := ringState i x.port 4 (putRingF i { x with state := 4 } s)
      finishCmds (fun c => c.op == 0x42 && c.obj == i) st.OK 0 s
    else s

/-- FEED_DOORBELL: kind 0, the ring of TARGET and the VALUE (R294); the first of an adopted ring gives its CI (R487). -/
def execFeedDoorbell (link ring value : Nat) (s : State) : Host.Outcome State Fault Refusal :=
  .next <|
    if 48 ≤ link ∨ ¬ linkUp s link then s
    else
      let s := raiseLine 33 3 s
      match getRing s ring with
      | none => feedCount 12 s
      | some x =>
        if ¬ ringLive x ∨ linkPort s link ≠ some x.port then feedCount 12 s
        else match mget s.pair.adopted ring with
        | some (low, p) =>
          let back := (p + 2 ^ 32 - value) % 2 ^ 32
          if p < low + back then ringError ring (errInfo pFEED 1 ring (feedCount 12 s))
          else
            let s := { s with pair := { s.pair with adopted := mdel s.pair.adopted ring } }
            ringStopped ring (commitRing ring (putRingF ring { x with ci := p - back } s))
        | none =>
          let d := (value + 2 ^ 32 - x.ci % 2 ^ 32) % 2 ^ 32
          if 2 ^ 31 ≤ d ∨ x.pi < x.ci + d then ringError ring (errInfo pFEED 1 ring (feedCount 12 s))
          else ringStopped ring (commitRing ring (putRingF ring { x with ci := x.ci + d } s))

/-- PACK_REJECT: the pack's uncommitted entry is marked; named a second time it is not written once more (R297). -/
def execPackReject (link ring rank id : Nat) (s : State) : Host.Outcome State Fault Refusal :=
  .next <|
    if 48 ≤ link ∨ ¬ linkUp s link then s
    else
      let s := raiseLine 33 3 s
      match getRing s ring with
      | none => s
      | some x =>
        if linkPort s link ≠ some x.port then s
        else putRingF ring { x with ledger := x.ledger.map fun e =>
          if e.rank = rank ∧ e.id = id ∧ ¬ e.committed then { e with rejected := true, rewrite := e.rewrite || e.rejected } else e } s

/-- A resident pack that may be drawn: its residence is over and no ring or exchange holds it (R135, R136). -/
def drawable (s : State) (p : Pack) : Bool :=
  !p.chosen && p.ring.isNone &&
    (match p.resident with | some r => decide (r + s.foundry.minRes ≤ s.tick.count) | none => false)

/-- What the rings of a port that draw nothing more in this tick leave to ring `i`: the round robin of R301 passes them
over. -/
def idleBytes (s : State) (i port : Nat) : Nat :=
  ((s.feed.rings.filter fun e => e.1 != i && e.2.port == port && e.2.idle).map fun e => e.2.deficit).sum

/-- Takes `n` bytes of what those rings leave. -/
def takeIdle (i port : Nat) : Nat → List (Nat × Ring) → List (Nat × Ring)
  | _, [] => []
  | n, e :: l =>
    if e.1 ≠ i ∧ e.2.port = port ∧ e.2.idle then
      (e.1, { e.2 with deficit := e.2.deficit - n }) :: takeIdle i port (n - e.2.deficit) l
    else e :: takeIdle i port n l

/-- PACK_DRAW: ring `ring` draws the drawable pack its random source picks, by position `pick` among those of its sets
(R293, R295, R301). `poison`: its read from the LPDDR5X met poisoned data. -/
def execPackDraw (t ring pick : Nat) (poison : Bool) (s : State) : Host.Outcome State Fault Refusal :=
  .next <|
    let s := atTime t s
    match getRing s ring with
    | none => s
    | some x =>
      let may := (x.state = 2 ∨ (x.state = 3 ∧ x.drawing)) ∧ ¬ x.idle ∧ blkRunning s pFEED ∧ ¬ quiescing s ∧ (mget s.pair.adopted ring).isNone
      let l := s.foundry.packs.filter fun p => drawable s p && x.sets.contains (packSet p)
      match x.link with
      | none => s
      | some link =>
        if ¬ may then s
        else match l[pick % l.length]? with
          | none => putRingF ring { x with idle := true } s
          | some p =>
            let cost := skipBytes x p.len + p.len
            if x.deficit + idleBytes s ring x.port < cost then s
            else if ¬ ringSpace x p.len then perfEvent pFEED 0x101 x.port 1 (putRingF ring { x with idle := true } s)
            else if poison then penBit pFEED 1 (feedCount 2 (removePack p.rank p.id s))
            else
              let s := modPack p.rank p.id (fun q => { q with ring := some ring }) s
              let s := if p.peer then s else tagStage 1 p.id 6 true s
              let s := if cost ≤ x.deficit then s
                else setFeed s fun f => { f with rings := takeIdle ring x.port (cost - x.deficit) f.rings }
              feedCount 0 (writePack ring link { x with deficit := x.deficit - cost } p false s)

/-- PORT_DOWN_LIMIT: a port down at 40 consecutive edges (R303). -/
def execPortDownLimit (port : Nat) (s : State) : Host.Outcome State Fault Refusal :=
  .next <|
    if 40 ≤ s.feed.portDown.getD port 0 then
      (s.feed.rings.filter fun e => e.2.port == port && ringLive e.2).foldl (fun s e => ringError e.1 s) s
    else s

/-! ### Commands (R309 to R311) -/

/-- The byte offset of the first field of a ring descriptor that R291 refuses. -/
def ringOffence (d : List Byte) : Option Nat :=
  let base := leAt d 8 8
  let n := leAt d 2 1
  let sets := (List.range 8).map fun i => leAt d (0x18 + 2 * i) 2
  if leAt d 0 1 ≠ 1 then some 0
  else if 32 ≤ leAt d 1 1 then some 1
  else if n < 16 ∨ 32 < n then some 2
  else if leAt d 3 1 ≠ 0 then some 3
  else if leAt d 4 2 = 0 ∨ 1024 < leAt d 4 2 then some 4
  else if leAt d 6 2 ≠ 0 then some 6
  else if base % 2 ^ n ≠ 0 then some 8
  else if leAt d 0x10 8 % 16 ≠ 0 then some 0x10
  else match (enumFrom 0 sets).find? fun e => decide (1024 ≤ e.2) && decide (e.2 ≠ 0xFFFF) with
    | some e => some (0x18 + 2 * e.1)
    | none =>
      if sets.all (· == 0xFFFF) then some 0x18
      else if ¬ allZero ((d.drop 0x28).take 24) then some 0x28 else none

/-- A ring from its descriptor, DEFINED. -/
def ringOfDesc (d : List Byte) : Ring := {
  state := 1, port := leAt d 1 1, sizeLog := leAt d 2 1, weight := leAt d 4 2, base := leAt d 8 8, piAddr := leAt d 0x10 8
  sets := ((List.range 8).map fun i => leAt d (0x18 + 2 * i) 2).filter (· != 0xFFFF)
  pi := 0, ci := 0, link := none, acked := 0, drawing := false, idle := false, deficit := 0, again := [], ledger := [] }

/-- The descriptor a RING_CREATE names; `host` holds what host memory has. -/
def ringDesc (c : SvcCmd) (s : State) (host : List Byte) : List Byte := ckData s (bitOf (c.d 6) 0) (c.q 4) 64 host

/-- RING_CREATE with the 64 descriptor bytes read (R291, R309 to R311). -/
def execRingCreate (k : CmdRef) (desc : List Byte) (s : State) : Host.Outcome State Fault Refusal :=
  .next <| runSvc k 0x40 (fun c s => (ringOffence (ringDesc c s desc)).map (0x100 + ·)) objFenced
    (fun c s =>
      let x := ringOfDesc (ringDesc c s desc)
      let packMax : Nat := (x.sets.map fun i => match getSet s i with | some y => y.packMax | none => 0).foldl max 0
      if (getRing s c.obj).isSome then .done st.STATE_CONFLICT 0 s
      else if halfWrong s c.obj then .done 0xD0 0 s
      else if x.sets.any fun i => (getSet s i).isNone then .done 0x92 0 s
      else if 2 ^ x.sizeLog < 2 * packMax then .done 0x90 0 s
      else .done st.OK 0 (putRingF c.obj x s)) s

/-- RING_START and RING_RESUME wait for step 7 of the next edge when the ring is in state `from_` and its port is up. -/
def ringBegin (from_ : Nat) (c : SvcCmd) (s : State) : SvcEnd :=
  match getRing s c.obj with
  | none => .done st.STATE_CONFLICT 0 s
  | some x =>
    if x.state ≠ from_ ∨ s.cmds.any (fun d => d.begun && d.obj == c.obj && (d.op == 0x41 || d.op == 0x43)) then
      .done st.STATE_CONFLICT 0 s
    else if ¬ portUp s x.port then .done 0x91 0 s
    else .wait s

/-- RING_START (R302, R309). -/
def execRingStart (k : CmdRef) (s : State) : Host.Outcome State Fault Refusal :=
  .next (runSvc k 0x41 noInv objFenced (ringBegin 1) s)

/-- RING_RESUME (R309). -/
def execRingResume (k : CmdRef) (s : State) : Host.Outcome State Fault Refusal :=
  .next (runSvc k 0x43 noInv objFenced (ringBegin 4) s)

/-- A RUNNING ring begins to stop. -/
def stoppedRing (x : Ring) : Ring := { x with state := 3, drawing := true }

/-- RING_STOP: drawing stops at the next edge (R309). -/
def execRingStop (k : CmdRef) (s : State) : Host.Outcome State Fault Refusal :=
  .next <| runSvc k 0x42 noInv objFenced
    (fun c s =>
      match getRing s c.obj with
      | none => .done st.STATE_CONFLICT 0 s
      | some x =>
        if x.state = 2 then .wait (putRingF c.obj (stoppedRing x) s)
        else .done st.STATE_CONFLICT 0 s) s

/-- RING_DESTROY: written, uncommitted packs go back to the reservoir, drawable from the next edge (R309). -/
def execRingDestroy (k : CmdRef) (s : State) : Host.Outcome State Fault Refusal :=
  .next <| runSvc k 0x44 noInv objFenced
    (fun c s =>
      match getRing s c.obj with
      | none => .done st.STATE_CONFLICT 0 s
      | some x =>
        if x.state = 2 then .done st.STATE_CONFLICT 0 s
        else
          let names := (x.ledger.filter fun e => !e.committed).map (fun e => (e.rank, e.id)) ++ x.again
          let back := names.filter fun n => (findPack s n.1 n.2).isSome
          let s := setFeed s fun f => { f with rings := mdel f.rings c.obj, returned := f.returned ++ back }
          let s := finishCmds (fun d => (d.op == 0x42 || d.op == 0x41 || d.op == 0x43) && d.obj == c.obj) st.ABORTED 0 s
          .done st.OK back.length (ringState c.obj x.port 0 s)) s

/-- The list an XCHG_GROUP names; `host` holds what host memory has. -/
def groupList (c : SvcCmd) (s : State) (host : List Nat) : List Nat :=
  if bitOf (c.d 7) 0 then (List.range (c.d 6)).map fun i => leAt (windowRead s 0 (c.q 4) (4 * c.d 6)) (4 * i) 4
  else host.take (c.d 6)

/-- XCHG_GROUP with the list read: applied at step 7 of the next edge (R304, R309). The list waits with the command. -/
def execXchgGroup (k : CmdRef) (qps : List Nat) (s : State) : Host.Outcome State Fault Refusal :=
  .next <| runSvc k 0x45 (fun c _ => if 256 < c.d 6 then some 24 else none) noFence
    (fun c s =>
      .wait (setFeed s fun f => { f with groupNext := mput f.groupNext c.seq (groupList c s qps) })) s

/-! ### Suspect notices (R298 to R300) -/

/-- The pack's fields match a suspect interval. -/
def suspectMatch (x : Suspect) (rank tile epoch made : Nat) : Bool :=
  rank == x.rank && tile == x.tile && epoch == x.epoch && decide (x.frm ≤ made) && decide (made ≤ x.upto)

/-- Parts of 254 entries. -/
def suspectParts : Nat → List (Nat × Nat) → List (List (Nat × Nat))
  | 0, _ => []
  | n + 1, l => l.take 254 :: (if l.length ≤ 254 then [] else suspectParts n (l.drop 254))

/-- The data of one part (R299). -/
def suspectData (x : Suspect) (more short : Bool) (l : List (Nat × Nat)) : List Byte :=
  leBytes 4 x.rank ++ leBytes 1 x.tile ++ leBytes 1 ((if more then 1 else 0) + (if short then 2 else 0)) ++
    leBytes 2 x.epoch ++ leBytes 8 x.frm ++ leBytes 8 x.upto ++ leBytes 2 l.length ++ leBytes 6 0 ++
    l.flatMap fun e => leBytes 8 e.1 ++ leBytes 8 e.2

/-- SUSPECT on one ring: a notice in as many parts as it needs. -/
def suspectRing (x : Suspect) (short : Bool) (i : Nat) (r : Ring) (s : State) : State :=
  let l := (r.ledger.filter fun e => suspectMatch x e.rank e.tile e.epoch e.made).map fun e => (e.id, e.start)
  let parts := suspectParts (l.length / 254 + 1) l
  let notice := s.feed.notice % 2 ^ 24
  let s := setFeed s fun f => { f with notice := (f.notice + 1) % 2 ^ 24 }
  let s := (enumFrom 0 parts).foldl (fun s e =>
    let more := decide (e.1 + 1 < parts.length)
    feedCount 4 (sendOnPort r.port (msgPkt 0x41 i (e.1 % 256 * 2 ^ 24 + notice) (suspectData x more short e.2) (.again r.port)) s)) s
  penBit pFEED 3 s

/-- HOLD_SHORT: the interval begins before the oldest tick whose entries the hold keeps, or the hold is shorter than the last
self-test cycle and 2 ticks (R299, R300). -/
def holdShort (s : State) (x : Suspect) : Bool :=
  let hold := fld s pFEED R.FEED.CFG 16 16 * 1000
  decide (hold < (s.tick.count - x.frm) * s.tick.period) || decide (hold < reg s pINTG R.INTG.LAST_CYCLE + 2 * s.tick.period)

/-- One interval at its edge: packs not written to a ring are discarded, rings are told, and for the device's own intervals
the exchange group (R298; the message of R337 goes out as "SUSPECT" with the interval's words). -/
def suspectOne (x : Suspect) (s : State) : State :=
  let gone (p : Pack) : Bool := p.resident.isSome && p.ring.isNone && suspectMatch x p.rank p.tile p.epoch p.madeTick
  let n := (s.foundry.packs.filter gone).length
  let s := (s.foundry.packs.filter fun p => gone p && !p.peer).foldl (fun s p => tagEnd 1 p.id 1 s) s
  let s := addReg (setFoundry s fun f => { f with packs := f.packs.filter fun p => !gone p }) pFEED (R.FEED.COUNT + 20) n
  let short := holdShort s x
  (s.feed.rings.filter fun e => ringLive e.2).foldl (fun s e => suspectRing x short e.1 e.2 s) s

/-! ### Step 7 -/

/-- Committed packs leave the reservoir (R296); packs of destroyed rings and returned by peers become drawable (R304,
R309). -/
def edgePacks (s : State) : State :=
  let s := s.feed.remove.foldl (fun s e => removePack e.1 e.2 s) s
  let s := s.feed.returned.foldl (fun s e => modPack e.1 e.2 (fun p => { p with ring := none, chosen := false }) s) s
  setFeed s fun f => { f with remove := [], returned := [] }

/-- Links that came up join their ports, and what waited for a port goes out (R275, R303). -/
def edgeJoin (s : State) : State :=
  let s := setFeed s fun f => { f with
    links := f.links.map fun e => if linkUp s e.1 then (e.1, { e.2 with joined := true }) else e }
  let q := s.feed.portq
  let s := setFeed s fun f => { f with portq := [] }
  let s := q.foldl (fun s e => sendOnPort e.1 e.2 s) s
  setFeed s fun f => { f with
    portDown := (List.range 32).map fun p => if portUp s p then 0 else f.portDown.getD p 0 + 1 }

/-- The up link of a port with the fewest rings (R302). -/
def leastLink (s : State) (port : Nat) : Option Nat :=
  (sortBy (fun l => (s.feed.rings.filter fun e => e.2.link == some l).length) (portLinks s port)).head?

/-- Ring commands that wait for the edge complete (R309). -/
def edgeRingCmds (s : State) : State :=
  (s.cmds.filter fun c => c.begun && (c.op == 0x41 || c.op == 0x43 || c.op == 0x45)).foldl (fun s c =>
    if c.op = 0x45 then
      complete c st.OK 0 (setFeed s fun f => { f with
        group := mgetD f.groupNext c.seq [], groupNext := mdel f.groupNext c.seq })
    else match getRing s c.obj with
      | none => complete c st.ABORTED 0 s
      | some x =>
        if ¬ portUp s x.port then complete c 0x91 0 s
        else
          let l := if c.op = 0x41 then leastLink s x.port else x.link
          let s := putRingF c.obj { x with state := 2, link := l } s
          complete c st.OK (if c.op = 0x41 then l.getD 0xFFFFFFFF else 0) s) s

/-- The skip markers and packs of a ring from an index on, as R302 writes them again. -/
def rewriteFrom (i l from_ : Nat) (x : Ring) (s : State) : State :=
  let s := (x.ledger.filter fun e => decide (from_ < e.fin)).foldl (fun s e =>
    let s := if e.skip < e.start then writeRing l x e.skip (skipMarker (e.start - e.skip)) s else s
    match findPack s e.rank e.id with
    | some p => writeRing l x e.start p.data s
    | none => s) s
  producerRecord l i x s

/-- A live ring without a current link moves to another of its port (R302). -/
def edgeMoveRing (i : Nat) (s : State) : State :=
  match getRing s i with
  | none => s
  | some x =>
    if ringLive x ∧ x.link.isNone then
      match leastLink s x.port with
      | none => s
      | some l =>
        let x := { x with link := some l }
        rewriteFrom i l (max x.acked x.ci) x (feedCount 7 (putRingF i x s))
    else s

/-- Bytes a port's links carry in a tick of the period in force: 23,437.5 bytes per lane and microsecond (R273, R277). -/
def portBytes (s : State) (port : Nat) : Nat :=
  let lanes := ((portLinks s port).map fun l => popcount 2 (lanesUp s l)).sum
  lanes * s.tick.period * 46875 / 2

/-- The ring's hand-overs: move, packs to write again, the end of drawing, old ledger entries, and its share of the port by
deficit round robin (R300 to R302). -/
def edgeRing (i : Nat) (s : State) : State :=
  let s := writeAgain i 64 (edgeMoveRing i s)
  match getRing s i with
  | none => s
  | some x =>
    let hold := fld s pFEED R.FEED.CFG 16 16 * 1000000
    let total := ((s.feed.rings.filter fun e => e.2.port == x.port && e.2.state == 2).map fun e => e.2.weight).sum
    let share := if x.state = 2 ∧ portUp s x.port then portBytes s x.port * x.weight / total else 0
    let kept := if x.idle ∨ x.state ≠ 2 then 0 else x.deficit
    ringStopped i (putRingF i { x with
      drawing := false, idle := false, deficit := kept + share
      ledger := x.ledger.filter fun e => !e.committed || decide (s.now < e.at_ + hold) } s)

/-- Chooses up to `n` drawable packs for exchange, at random (R136). -/
def chooseExchange : Nat → State → State
  | 0, s => s
  | n + 1, s =>
    let l := s.foundry.packs.filter (drawable s)
    let (v, s) := freeVal s
    match l[v % l.length]? with
    | none => s
    | some p => chooseExchange n (modPack p.rank p.id (fun q => { q with chosen := true }) s)

/-- The exchange quota's packs are chosen; an empty group disables exchange (R136, R304). -/
def edgeExchange (s : State) : State :=
  if s.feed.group = [] ∨ ¬ blkRunning s pFEED ∨ quiescing s then s else chooseExchange s.foundry.quota s

/-- Quarantined tags whose time is over. -/
def edgeTags (s : State) : State :=
  (s.feed.links.filter fun e => e.2.quar != []).foldl (fun s e => expireTags e.1 s) s

/-- The feed's part of step 7. -/
def edgeFeed (s : State) : State :=
  let s := edgeRingCmds (edgeJoin (edgePacks s))
  let s := s.feed.rings.foldl (fun s e => edgeRing e.1 s) s
  let sus := s.feed.suspects
  let s := sus.foldl (fun s x => suspectOne x s) (setFeed s fun f => { f with suspects := [] })
  edgeExchange (edgeTags s)

/-- Suspect intervals of the device's own tile: one for every ORIGIN_RANK its stream sets, packs and ledgers carry (R298). -/
def ownSuspect (tile epoch frm upto : Nat) (s : State) : State :=
  let ranks := (s.foundry.sets.map fun e => e.2.rank) ++ ((s.foundry.packs.filter fun p => !p.peer).map (·.rank)) ++
    s.feed.rings.flatMap fun e => (e.2.ledger.filter fun x => !x.peer).map (·.rank)
  let ranks := (sortBy id ranks.eraseDups)
  setFeed s fun f => { f with
    suspects := f.suspects ++ ranks.map fun r => { rank := r, tile := tile, epoch := epoch, frm := frm, upto := upto, own := true } }

end Sys2Proof.Machine
end

