-- ==== Sys2Proof/Machine/Egress.lean ====
section
/-! DEFINITION. Ethernet sub-ports, frames, and the egress scheduler with its shapers, gates and pauses (chapter 09, R332,
R342 to R351). -/

namespace Sys2Proof.Machine

def setRmt (s : State) (f : Rmt → Rmt) : State := { s with rmt := f s.rmt }

def getQp (s : State) (q : Nat) : Option Qp := mget s.rmt.qps q

def putQp (q : Nat) (x : Qp) (s : State) : State := setRmt s fun r => { r with qps := mput r.qps q x }

/-- Adds one to RMT.COUNT[i], EGS.COUNT[i], ETH.COUNT[i]; they wrap. -/
def rmtCount (i : Nat) (s : State) : State := addReg s pRMT (R.RMT.COUNT + 4 * i) 1
def egsCount (i : Nat) (s : State) : State := addReg s pEGS (R.EGS.COUNT + 4 * i) 1
def ethCount (port i n : Nat) (s : State) : State := addReg s (pETH port) (R.ETH.COUNT + 4 * i) n

/-- Tick time, µs (R321). -/
def tickTimeUs (s : State) : Nat := s.tick.timeUs + (s.now - s.tick.edgeAt) / 1000

/-! ### Sub-ports (R332, R349): numbered 4 * port + sub-port -/

def subMode (s : State) (sub : Nat) : Nat := fld s (pETH (sub / 4)) R.ETH.STAT 4 2

/-- The sub-port exists in its port's mode in force: split at 400G, sub-ports 0 and 2 (R11, R22). -/
def subExists (s : State) (sub : Nat) : Bool :=
  decide (sub < 16) && (match subMode s sub with
    | 1 => sub % 2 == 0
    | 2 => true
    | _ => sub % 4 == 0)

/-- Line rate, Mb/s. -/
def subMbps (s : State) (sub : Nat) : Nat :=
  match subMode s sub with
  | 1 => 400000
  | 2 => 200000
  | _ => 800000

def subUp (s : State) (sub : Nat) : Bool := subExists s sub && fld s (pETH (sub / 4)) R.ETH.STAT (sub % 4) 1 == 1

/-- The up sub-ports a QP may use (R332). -/
def qpSubs (s : State) (x : Qp) : List Nat := (List.range 16).filter fun i => bitOf x.portMask i && subUp s i

/-- The highest rate of a QP, Mb/s: the sum of the line rates of its up sub-ports (R343). -/
def rateLimit (s : State) (x : Qp) : Nat := ((qpSubs s x).map (subMbps s)).sum

/-! ### Classes and subscribers -/

def classFld (s : State) (c lo n : Nat) : Nat := fld s pEGS (R.EGS.CLASS_SH + 4 * (c % 8)) lo n

/-- Payload bytes per packet of a class (R315). -/
def classPayload (s : State) (c : Nat) : Nat := 1024 * 2 ^ classFld s c 20 2

def classPcp (s : State) (c : Nat) : Nat := classFld s c 23 3

def subDword (s : State) (i k : Nat) : Nat := tabGet s 2 i k (if k = 0 then 1 else 256)

/-- Fills a token bucket, in 1/80 bytes: a rate of 100 Mb/s units fills one unit each nanosecond; the depth is BURST
(R344, R346). -/
def bucket (m : List (Nat × Nat × Nat)) (sub rate burstKib now : Nat) : Nat :=
  let cap := max 64 burstKib * 1024 * 80
  match mget m sub with
  | some (tok, at_) => min cap (tok + rate * (now - at_))
  | none => cap

/-! ### Frames on the wire (R312, R313) -/

/-- Ones' complement sum of 16-bit words in network order. -/
def ipSum : List Byte → Nat
  | a :: b :: l => a.toNat * 256 + b.toNat + ipSum l
  | [a] => a.toNat * 256
  | [] => 0

/-- The Internet checksum. -/
def ipChecksum (l : List Byte) : Nat :=
  let a := ipSum l
  let a := a % 65536 + a / 65536
  let a := a % 65536 + a / 65536
  0xFFFF - a

def ethReg (s : State) (sub off : Nat) : Nat := reg s (pETH (sub / 4)) (off + 0x30 * (sub % 4))

/-- Ethernet header with the optional tag (R312, R349). -/
def etherHeader (s : State) (sub cls ethertype : Nat) : List Byte :=
  let hi := ethReg s sub R.ETH.ADDR_MAC_HI
  beBytes 2 (ethReg s sub R.ETH.ADDR_NH_HI % 65536) ++ beBytes 4 (ethReg s sub R.ETH.ADDR_NH_LO) ++
    beBytes 2 (hi % 65536) ++ beBytes 4 (ethReg s sub R.ETH.ADDR_MAC_LO) ++
    (if bitOf hi 31 then beBytes 2 0x8100 ++ beBytes 2 (classPcp s cls * 8192 + bitsOf hi 16 12) else []) ++
    beBytes 2 ethertype

/-- The IPv6 address of a sub-port. -/
def ownV6 (s : State) (sub : Nat) : List Byte :=
  (List.range 4).flatMap fun i => beBytes 4 (ethReg s sub (R.ETH.ADDR_IPV6_0 + 4 * i))

/-- A whole frame for a UDP payload of a QP, FCS included. -/
def udpFrame (s : State) (sub : Nat) (x : Qp) (path : Nat) (ce : Bool) (body : List Byte) : List Byte :=
  let hops := fld s pRMT R.RMT.CFG 8 8
  let tos := classFld s x.cls 26 6 * 4 + (if ce then 3 else 2)
  let ulen := body.length + 8
  let sport := (x.udpBase + path) % 65536
  let udp (sum : Nat) : List Byte :=
    beBytes 2 sport ++ beBytes 2 (fld s pRMT R.RMT.CFG 16 16) ++ beBytes 2 ulen ++ beBytes 2 sum ++ body
  let pkt :=
    if x.ipv6 then
      let src := ownV6 s sub
      let dst := beBytes 16 x.ip
      let sum := ipChecksum (src ++ dst ++ beBytes 4 ulen ++ beBytes 4 17 ++ udp 0)
      etherHeader s sub x.cls 0x86DD ++ beBytes 4 (6 * 2 ^ 28 + tos * 2 ^ 20) ++ beBytes 2 ulen ++ beBytes 1 17 ++
        beBytes 1 hops ++ src ++ dst ++ udp (if sum = 0 then 0xFFFF else sum)
    else
      let h (sum : Nat) : List Byte :=
        beBytes 1 0x45 ++ beBytes 1 tos ++ beBytes 2 (20 + ulen) ++ beBytes 2 0 ++ beBytes 2 0x4000 ++ beBytes 1 hops ++
          beBytes 1 17 ++ beBytes 2 sum ++ beBytes 4 (ethReg s sub R.ETH.ADDR_IPV4) ++ beBytes 4 (x.ip % 2 ^ 32)
      etherHeader s sub x.cls 0x0800 ++ h (ipChecksum (h 0)) ++ udp 0
  pkt ++ leBytes 4 (crc32 pkt)

/-- The RMT header (R313). -/
def rmtHeader (opc flags part age dst psn msn key offset total addr aux src : Nat) : List Byte :=
  beBytes 1 0x10 ++ beBytes 1 opc ++ beBytes 2 flags ++ beBytes 2 part ++ beBytes 2 age ++ beBytes 4 dst ++ beBytes 4 psn ++
    beBytes 4 msn ++ beBytes 4 key ++ beBytes 4 offset ++ beBytes 4 total ++ beBytes 8 addr ++ beBytes 4 aux ++ beBytes 4 src

/-- Bytes of headers, CRC and FCS around a QP's payload (R312). -/
def overhead (s : State) (sub : Nat) (x : Qp) : Nat :=
  14 + (if bitOf (ethReg s sub R.ETH.ADDR_MAC_HI) 31 then 4 else 0) + (if x.ipv6 then 40 else 20) + 8 + 48 + 4 + 4

/-- The UDP payload of a data packet at a transmission: AGE is stamped, the CRC covers the header with AGE and FLAGS 0
(R315, R321). -/
def dataBody (s : State) (q : Nat) (x : Qp) (p : TxPkt) : List Byte :=
  let h (flags age : Nat) : List Byte :=
    rmtHeader p.opc flags x.part age x.remote p.psn p.msn p.key p.offset p.total p.addr p.aux q
  let retx := if 0 < p.tries then 2 else 0
  h (p.flags + retx) (tickTimeUs s % 65536) ++ p.payload ++ leBytes 4 (crc32c (h 0 0 ++ p.payload))

/-- The UDP payload of a control packet, from its header with AGE 0. -/
def ctlBody (s : State) (h : List Byte) : List Byte :=
  h.take 6 ++ beBytes 2 (tickTimeUs s % 65536) ++ h.drop 8 ++ leBytes 4 (crc32c h)

/-! ### Queues -/

def pushFrame (f : Frame) (s : State) : State := setRmt s fun r => { r with frames := r.frames ++ [f] }

/-- Backlog of a subscriber queue, bytes. -/
def backlog (s : State) (sub cls subscr : Nat) : Nat :=
  ((s.rmt.frames.filter fun f => f.sub == sub && f.cls == cls && f.subscr == subscr && f.kind != 1).map (·.len)).sum

/-- A frame joins its subscriber queue; with the backlog above MARK a packet is marked CE (R342, R344). -/
def joinQueue (f : Frame) (s : State) : State :=
  let mark := classFld s f.cls 0 8
  if f.kind = 0 ∧ mark ≠ 0 ∧ mark * 16384 < backlog s f.sub f.cls f.subscr then
    pushFrame { f with ce := true } (penBit pEGS 2 (egsCount 1 s))
  else pushFrame f s

/-- A control packet of a QP goes in its class on its first up sub-port (R344). -/
def sendCtl (q : Nat) (h : List Byte) (s : State) : State :=
  match getQp s q with
  | none => s
  | some x =>
    match qpSubs s x with
    | [] => s
    | sub :: _ =>
      pushFrame { sub := sub, cls := x.cls, subscr := x.sub, qp := q, kind := 1, psn := 0, len := overhead s sub x, ce := false
                  bytes := h, gateHeld := false, pauseHeld := false } s

/-! ### Time gates (R347, R348) -/

/-- The guard band of a class on a sub-port, ns (R348). -/
def guardBand (s : State) (sub cls : Nat) : Nat := ceilDiv ((classPayload s cls + 290) * 8 * 1000) (subMbps s sub)

/-- The gate of a class is open now, and stays open through the guard band; the next edge counts as 1 µs early. -/
def gateOpen (s : State) (sub cls : Nat) : Bool × Bool :=
  let l := gateReached s (sub / 4)
  let o := s.now - s.tick.edgeAt
  let e := o + guardBand s sub cls
  let here := bitOf (openAt l o) cls
  let later := (l.filter fun x => decide (o < x.1) && decide (x.1 ≤ e)).all fun x => bitOf x.2 cls
  let edge := if s.tick.len ≤ e + 1000 then bitOf (openAt l 0) cls else true
  (here, here && later && edge)

/-- GATE_STAT of a port (R347). -/
def setGateStat (port v : Nat) (s : State) : State := setFld s pEGS R.EGS.GATE_STAT (5 * port) 5 v

/-- The entry in force of a port now. -/
def showGate (port : Nat) (s : State) : State :=
  match gateReached s port with
  | [] => setGateStat port 31 s
  | l => setGateStat port ((l.filter fun e => decide (e.1 ≤ s.now - s.tick.edgeAt)).length - 1) s

/-- Step 5 of a tick edge: every list starts again (R347). -/
def edgeGates (s : State) : State := forN 4 s showGate

/-- GATE_ENTRY: an entry's OFFSET is reached on a port (R347). -/
def execGateEntry (t port : Nat) (s : State) : Host.Outcome State Fault Refusal :=
  .next (if port < 4 then showGate port (atTime t s) else atTime t s)

/-! ### Scheduling (R344, R345) -/

/-- A priority is paused on a sub-port (R350). -/
def paused (s : State) (sub prio : Nat) : Bool :=
  match mget s.rmt.pause (sub * 8 + prio) with
  | some until_ => decide (s.now < until_)
  | none => false

/-- The head frames of a class's subscriber queues on a sub-port. -/
def heads (s : State) (sub cls : Nat) : List Frame :=
  let l := s.rmt.frames.filter fun f => f.sub == sub && f.cls == cls && f.kind != 1
  l.foldl (fun acc f => if acc.any fun g => g.subscr == f.subscr then acc else acc ++ [f]) []

/-- The subscriber's bucket admits its head. -/
def tokensAdmit (s : State) (f : Frame) : Bool :=
  let rate := bitsOf (subDword s f.subscr 0) 16 16
  rate == 0 || decide (f.len * 80 ≤ bucket s.rmt.tokens f.subscr rate (bitsOf (subDword s f.subscr 1) 0 16) s.now)

/-- Weight of a subscriber; of a class. -/
def subWeight (s : State) (i : Nat) : Nat := max 1 (bitsOf (subDword s i 0) 0 12)
def clsWeight (s : State) (c : Nat) : Nat := max 1 (classFld s c 8 8)

/-- Start tags of a node's children: a child that becomes eligible takes the later of its finish tag and the node's virtual
time; one that is not eligible is put aside (R345). `l` gives key and eligibility. -/
def refreshTags (m : List (Nat × WfqTag)) (v : Rat) (l : List (Nat × Bool)) : List (Nat × WfqTag) :=
  l.foldl (fun m e =>
    let g := (mget m e.1).getD { start := 0, fin := 0, active := false }
    if ¬ e.2 then mput m e.1 { g with active := false }
    else if g.active then m
    else mput m e.1 { g with start := max g.fin v, active := true }) m

/-- The child with the least finish tag, ties to the lower key: `l` gives key, bytes and weight. -/
def leastFinish (m : List (Nat × WfqTag)) : List (Nat × Nat × Nat) → Option Nat
  | [] => none
  | (k, n, w) :: l =>
    let fin (k n w : Nat) : Rat := ((mget m k).map (·.start)).getD 0 + (n : Rat) / (w : Rat)
    match leastFinish m l with
    | none => some k
    | some k' =>
      match l.find? fun e => e.1 == k' with
      | some (_, n', w') => if fin k' n' w' < fin k n w then some k' else some k
      | none => some k

/-- A child was served: the node's virtual time is its start tag, its finish tag goes on by bytes over weight. -/
def serveTag (m : List (Nat × WfqTag)) (k n w : Nat) : List (Nat × WfqTag) × Rat :=
  let g := (mget m k).getD { start := 0, fin := 0, active := false }
  let f := g.start + (n : Rat) / (w : Rat)
  (mput m k { start := f, fin := f, active := true }, g.start)

/-- The frame a class would send: a control packet first, else the subscriber with the least finish tag. -/
def classHead (s : State) (sub cls : Nat) : Option Frame :=
  match s.rmt.frames.find? fun f => f.sub == sub && f.cls == cls && f.kind == 1 with
  | some f => some f
  | none =>
    let hs := (heads s sub cls).filter (tokensAdmit s)
    let key (f : Frame) : Nat := (sub * 8 + cls) * 1024 + f.subscr
    let l := sortBy (·.1) (hs.map fun f => (key f, f.len, subWeight s f.subscr))
    match leastFinish s.rmt.subTag l with
    | some k => hs.find? fun f => key f == k
    | none => none

/-- Marks a frame as held by a gate or a pause; the first time counts (R348, EGS.COUNT). -/
def holdFrame (f : Frame) (gate : Bool) (s : State) : State :=
  if (gate ∧ f.gateHeld) ∨ (¬ gate ∧ f.pauseHeld) then s
  else
    let g := if gate then { f with gateHeld := true } else { f with pauseHeld := true }
    egsCount (if gate then 2 else 3) (setRmt s fun r => { r with frames := r.frames.map fun x => if x = f then g else x })

/-- Refreshes the tags of the subscriber nodes of a sub-port. -/
def refreshSubs (sub : Nat) (s : State) : State :=
  forN 8 s fun c s =>
    let hs := heads s sub c
    let node := sub * 8 + c
    let known := (s.rmt.subTag.filter fun e => e.1 / 1024 == node).map (·.1)
    let elig (k : Nat) : Bool := match hs.find? fun f => f.subscr == k % 1024 with | some f => tokensAdmit s f | none => false
    let keys := (known ++ hs.map fun f => node * 1024 + f.subscr).eraseDups
    if keys = [] then s
    else setRmt s fun r => { r with
      subTag := refreshTags r.subTag ((mget r.subV node).getD 0) (keys.map fun k => (k, elig k)) }

/-- The classes of a sub-port that may send now, each with its frame; held frames are counted. -/
def readyClasses (sub : Nat) (s : State) : List (Nat × Frame) × State :=
  (List.range 8).foldl (fun (l, s) c =>
    match classHead s sub c with
    | none => (l, s)
    | some f =>
      let g := gateOpen s sub c
      if ¬ g.1 then (l, s)
      else if ¬ g.2 then (l, holdFrame f true s)
      else if paused s sub (classPcp s c) then (l, holdFrame f false s)
      else (l ++ [(c, f)], s)) ([], s)

/-- Chooses a class: the highest strict one, else the least finish tag (R344). -/
def chooseClass (sub : Nat) (l : List (Nat × Frame)) (s : State) : Option (Nat × Frame) :=
  match (l.filter fun e => classFld s e.1 22 1 == 1).getLast? with
  | some e => some e
  | none =>
    match leastFinish s.rmt.clsTag (l.map fun e => (sub * 8 + e.1, e.2.len, clsWeight s e.1)) with
    | some k => l.find? fun e => sub * 8 + e.1 == k
    | none => none

/-- The scheduler's choice on a sub-port, with the tags after it. -/
def schedule (sub : Nat) (s : State) : Option Frame × State :=
  let s := refreshSubs sub s
  let (l, s) := readyClasses sub s
  let v := (mget s.rmt.clsV sub).getD 0
  let s := setRmt s fun r => { r with
    clsTag := refreshTags r.clsTag v ((List.range 8).map fun c => (sub * 8 + c, l.any fun e => e.1 == c)) }
  match chooseClass sub l s with
  | none => (none, s)
  | some (c, f) =>
    let s := if classFld s c 22 1 = 1 then s
      else
        let g := serveTag s.rmt.clsTag (sub * 8 + c) f.len (clsWeight s c)
        setRmt s fun r => { r with clsTag := g.1, clsV := mput r.clsV sub g.2 }
    let s := if f.kind = 1 then s
      else
        let node := sub * 8 + c
        let g := serveTag s.rmt.subTag (node * 1024 + f.subscr) f.len (subWeight s f.subscr)
        let rate := bitsOf (subDword s f.subscr 0) 16 16
        let tok := bucket s.rmt.tokens f.subscr rate (bitsOf (subDword s f.subscr 1) 0 16) s.now
        setRmt s fun r => { r with
          subTag := g.1, subV := mput r.subV node g.2
          tokens := if rate = 0 then r.tokens else mput r.tokens f.subscr (tok - f.len * 80, s.now) }
    (some f, setRmt s fun r => { r with frames := r.frames.erase f })

/-- The sub-port is busy for the frame's time at its capped rate (R344). -/
def occupy (sub len : Nat) (s : State) : State :=
  let pct := max 1 (min 100 (fld s pEGS (R.EGS.PORT_SH + 4 * (sub / 4)) 0 7))
  let ns := ceilDiv ((len + 20) * 8 * 1000 * 100) (subMbps s sub * pct)
  setRmt s fun r => { r with busy := r.busy.set sub (s.now + ns) }

/-- A frame goes out on a sub-port. -/
def putWire (sub cls : Nat) (bytes : List Byte) (s : State) : State :=
  let s := perfEvent pEGS 0x100 cls (ceilDiv bytes.length 64) s
  ethCount (sub / 4) 1 1 (emit (.eth sub "FRAME" (bytes.map (·.toNat))) s)

/-- PFC_PAUSE_EXPIRY: a pause time ends (R350). -/
def execPfcPauseExpiry (t sub prio : Nat) (s : State) : Host.Outcome State Fault Refusal :=
  .next <|
    let s := atTime t s
    match mget s.rmt.pause (sub * 8 + prio) with
    | some u => if u ≤ t then setRmt s fun r => { r with pause := mdel r.pause (sub * 8 + prio) } else s
    | none => s

end Sys2Proof.Machine
end

