-- ==== Sys2Proof/Machine/Transport.lean ====
section
/-! DEFINITION. The remote memory transport (chapter 09): address-space keys, work requests and their completions, packets
sent and received, acknowledgements, errors. -/

namespace Sys2Proof.Machine

/-! ### Address-space keys (R317) -/

def keyDword (s : State) (i k : Nat) : Nat := tabGet s 1 i k 0

/-- Where an access under a key lands: refused with a NAK code (4 WINDOW, 5 ACCESS), or a place. -/
inductive KeyHit where
  | refused (code : Nat)
  | at_ (p : Spot)
  deriving DecidableEq, Repr

/-- The check of an access under a key entry: `part` and `tag` are compared where given, `func` where given (R317, R324). -/
def keyEntry (s : State) (i : Nat) (part tag func : Option Nat) (write : Bool) (addr len : Nat) : KeyHit :=
  let ctl := keyDword s i 0
  let size := bitsOf (keyDword s i 6) 0 8
  let base := (keyDword s i 4 + 2 ^ 32 * keyDword s i 5) / 2 ^ size * 2 ^ size
  let dram := bitOf ctl 28
  let rsv := bitsOf ctl 12 16 ≠ 0 ∨ keyDword s i 1 / 2 ^ 16 ≠ 0 ∨ keyDword s i 2 % 2 ^ 12 ≠ 0 ∨ keyDword s i 3 / 2 ^ 20 ≠ 0
    ∨ keyDword s i 6 / 2 ^ 8 ≠ 0 ∨ keyDword s i 7 ≠ 0 ∨ (dram ∧ (size < 12 ∨ 40 < size))
  let tagBad : Bool := match tag with | some t => t != keyDword s i 2 / 2 ^ 12 | none => false
  let partBad : Bool := match part with | some p => p != keyDword s i 1 % 2 ^ 16 | none => false
  let funcBad : Bool := match func with | some f => f != bitsOf ctl 0 12 | none => false
  let range := if dram then addr + len ≤ 2 ^ size else addr + len ≤ 2 ^ 64
  if ¬ bitOf ctl 31 ∨ rsv ∨ tagBad ∨ partBad ∨ funcBad ∨ ¬ range then .refused 4
  else if ¬ bitOf ctl (if write then 29 else 30) then .refused 5
  else if dram then .at_ (.dram (base + addr))
  else
    let pasid := bitsOf (keyDword s i 3) 0 20
    .at_ (.host (bitsOf ctl 0 12) (if pasid = 0 then none else some pasid) addr)

/-- A packet's access under its AS_KEY. -/
def keyCheck (s : State) (key part : Nat) (write : Bool) (addr len : Nat) : KeyHit :=
  keyEntry s (key % 4096) (some part) (some (key / 4096)) none write addr len

/-- A function's host memory is out of reach while it is in ORPHAN (R371). -/
def spotOrphan (s : State) : Spot → Bool
  | .host f _ _ => blkState s (pFUNC f) == 0x80
  | _ => false

/-- Bytes placed at an offset of a place. -/
def placeAt (p : Spot) (off : Nat) (l : List Byte) (s : State) : State :=
  match p with
  | .dram b => putDram (b + off) l s
  | .host f pasid a => hostWrite f pasid true (a + off) l s
  | .none => s

/-- A read at a place counts the errors it meets in the LPDDR5X (R544). -/
def touchSpot (p : Spot) (len : Nat) (s : State) : State :=
  match p with
  | .dram b => dramTouch b len s
  | _ => s

/-- Bytes read at a place: from the LPDDR5X, or what the host returned; none where they are poisoned. -/
def readSpot (s : State) (p : Spot) (len : Nat) (host : Option (List Byte)) : Option (List Byte) :=
  match p with
  | .dram b => if dramPoison s b len then none else some (memRead s.mem (dramKey b) len)
  | _ => host.map fun h => h.take len ++ List.replicate (len - h.length) 0

/-! ### Completions (R323, R325, R331) -/

def qpDepth (log : Nat) : Nat := 2 ^ log

/-- CQ entries reserved, or posted and not released. -/
def cqTaken (x : Qp) : Nat := (x.cqTail + 65536 - x.cqHead) % 65536 + x.sq.length + x.rq.length

/-- Key of a work request for tagging (R597). -/
def rmtTag (q idx : Nat) : Nat := q * 2 ^ 32 + idx

/-- Writes one completion entry, with the QP's vector (R325). An exchange QP has no rings. -/
def postCqe (q : Nat) (w : Wqe) (status : Nat) (s : State) : State :=
  match getQp s q with
  | none => s
  | some x =>
    if x.ty = 2 then s
    else
      let phase := if (x.cqTail / qpDepth x.cqLog) % 2 = 0 then 0x80 else 0
      let recv := w.op == 0x10
      let ts := w.ts.getD 0
      let flags := (if bitOf w.flags 0 ∧ status = 0 then 1 else 0) + (if w.ts.isSome then 2 else 0) + phase
      let imm := if w.ts.isSome then ts % 2 ^ 32 else w.imm
      let msn := if w.ts.isSome then ts / 2 ^ 32 % 2 ^ 32 else if recv then w.msn else 0
      let b := leBytes 8 w.wrId ++ leBytes 4 w.bytes ++ leBytes 4 imm ++ leBytes 4 msn ++ leBytes 4 (w.op * 2 ^ 24 + q) ++
        leBytes 1 status ++ leBytes 1 flags ++ leBytes 2 0 ++ leBytes 4 s.tick.count
      let addr := x.cqBase + 32 * (x.cqTail % qpDepth x.cqLog)
      let e : Emit := .rmtCqe q [x.cqTail, w.wrId, w.bytes, imm, msn, w.op * 2 ^ 24 + q, status, flags, s.tick.count % 2 ^ 32]
      let s := postEntry x.func x.loc addr b e (putQp q { x with cqTail := (x.cqTail + 1) % 65536 } s)
      if x.vec = 0 then s else emitMsix x.func x.vec s

/-- A work request completes: OK counts in DONE and writes an entry when it asks for one, or is a RECV; any other status
writes one (R325, R330). -/
def finishWqe (q : Nat) (rq : Bool) (w : Wqe) (status : Nat) (s : State) : State :=
  match getQp s q with
  | none => s
  | some x =>
    let s := if status ≠ 0 then s
      else if rq then putQp q { x with rqDone := (x.rqDone + 1) % 2 ^ 32 } s
      else putQp q { x with sqDone := (x.sqDone + 1) % 2 ^ 32 } s
    let s := if status = 0 ∧ ¬ bitOf w.flags 1 ∧ ¬ rq then s
      else
        let s := postCqe q w status s
        if rq then s else tagStage 2 (rmtTag q w.idx) 4 true s
    if rq then s
    else if status ≠ 0 then tagEnd 2 (rmtTag q w.idx) 4 s
    else if x.ty = 1 ∨ tagReached s 2 (rmtTag q w.idx) 3 ∨ ¬ (x.tx.any fun p => p.wqe == some w.idx) then tagEnd 2 (rmtTag q w.idx) 0 s
    else s

/-- The named queue has reached a WAIT's count (R330). -/
def hitchReached (s : State) (w : Wqe) : Bool :=
  match getQp s w.waitQp with
  | none => false
  | some x => decide (((if w.waitRq then x.rqDone else x.sqDone) + 2 ^ 32 - w.waitCount) % 2 ^ 32 < 2 ^ 31)

/-- WAITs that hold their SQ on QP `q` end: released where the count is reached, else broken (R330). Answers the QPs whose
WAIT ended. -/
def breakHitches (q : Nat) (s : State) : List Nat × State :=
  s.rmt.qps.foldl (fun (l, s) e =>
    let held (w : Wqe) : Bool := w.op == 5 && w.begun && w.status.isNone && w.waitQp == q
    if e.1 ≠ q ∧ e.2.state = 2 ∧ e.2.sq.any held then
      (l ++ [e.1], putQp e.1 { e.2 with
        sq := e.2.sq.map fun w => if held w then { w with status := some (if hitchReached s w then 0 else 0x0A) } else w } s)
    else (l, s)) ([], s)

/-- Packets of a QP leave the egress queues and staging. -/
def dropFrames (q : Nat) (s : State) : State :=
  setRmt s fun r => { r with frames := r.frames.filter fun f => !(f.qp == q && f.kind != 1) }

/-- Packs in flight on an exchange QP become drawable again at the next edge (R304). -/
def returnFlight (pick : Nat × Nat × Nat × Nat → Bool) (s : State) : State :=
  let l := s.feed.flight.filter pick
  let s := setFeed s fun f => { f with
    flight := f.flight.filter fun e => !pick e, returned := f.returned ++ l.map fun e => (e.2.2.1, e.2.2.2) }
  addReg s pFEED (R.FEED.COUNT + 40) l.length

/-- Every fetched, uncompleted entry completes with FLUSHED, in queue order, the one that failed with its cause (R336).
`cause`: the queue, index and status. -/
def flushQp (q : Nat) (cause : Option (Bool × Nat × Nat)) (s : State) : State :=
  match getQp s q with
  | none => s
  | some x =>
    let s := putQp q { x with sq := [], rq := [], tx := [], msgs := [], writes := [], flushes := [], ackAt := none, since := 0 } s
    let st (rq : Bool) (w : Wqe) : Nat :=
      match cause with
      | some (r, i, c) => if r = rq ∧ w.idx = i then c else 1
      | none => 1
    let s := x.sq.foldl (fun s w => finishWqe q false w (st false w) s) s
    x.rq.foldl (fun s w => finishWqe q true w (st true w) s) s

/-- The rank of the other member of the checkpoint group that is reached on QP `q` (R441). -/
def ckRankOf (s : State) (q : Nat) : Option Nat :=
  match s.ckpt.group with
  | none => none
  | some g => ((enumFrom 0 g.members).find? fun e => e.1 != g.rank && e.2.qp == q).map (·.1)

/-- A member whose group QP enters ERROR is lost at the next edge (R459). -/
def noteLost (q : Nat) (s : State) : State :=
  match ckRankOf s q with
  | some r => { s with ckpt := { s.ckpt with lostPend := s.ckpt.lostPend ++ [r] } }
  | none => s

/-- A QP enters ERROR (R336). Answers the QPs whose hitches it ended. -/
def enterError (q : Nat) (cause : Option (Bool × Nat × Nat)) (s : State) : List Nat × State :=
  match getQp s q with
  | none => ([], s)
  | some x =>
    if x.state ≠ 2 then ([], s)
    else
      let s := noteLost q (flushQp q cause (dropFrames q (putQp q { x with state := 3 } s)))
      let s := errInfo pRMT 1 q (penBit pRMT 0 (rmtCount 14 s))
      breakHitches q (returnFlight (fun e => e.1 == q) s)

/-- Work requests whose outcome is known complete in order on the QPs of the work list; one that fails takes its QP to
ERROR, which may end hitches elsewhere (R330, R331, R336). -/
def settle : Nat → List Nat → State → State
  | 0, _, s => s
  | _, [], s => s
  | n + 1, q :: rest, s =>
    match getQp s q with
    | none => settle n rest s
    | some x =>
      if x.state ≠ 2 then settle n rest s
      else match x.sq with
        | w :: ws =>
          (match w.status with
           | some c =>
             if c = 0 ∨ c = 0x0C then settle n (q :: rest) (finishWqe q false w c (putQp q { x with sq := ws } s))
             else
               let r := enterError q (some (false, w.idx, c)) s
               settle n (rest ++ r.1) r.2
           | none => settleRq n q rest x s)
        | [] => settleRq n q rest x s
where
  settleRq (n q : Nat) (rest : List Nat) (x : Qp) (s : State) : State :=
    match n with
    | 0 => s
    | n + 1 =>
      match x.rq with
      | w :: ws =>
        (match w.status with
         | some 0 =>
           settle n (q :: rest) (finishWqe q true w 0 (putQp q { x with rq := ws, rxMsn := (x.rxMsn + 1) % 2 ^ 32 } s))
         | some c =>
           let r := enterError q (some (true, w.idx, c)) s
           settle n (rest ++ r.1) r.2
         | none => settle n rest s)
      | [] => settle n rest s

/-- Steps that settling may take: every entry in hand on every QP, and each QP once more. -/
def settleFuel (s : State) : Nat := 4 * ((s.rmt.qps.map fun e => e.2.sq.length + e.2.rq.length + 4).sum + 4)

def settleQp (q : Nat) (s : State) : State := settle (settleFuel s) [q] s

/-- A QP fails with a work request's status: as its cause where the SQ still holds it, else the QP alone (R336). -/
def failWr (q : Nat) (wqe : Option Nat) (status : Nat) (s : State) : State :=
  let r := enterError q (wqe.map fun i => (false, i, status)) s
  settle (settleFuel r.2) r.1 r.2

/-! ### Sending (R315, R327, R328, R332, R334) -/

/-- Bytes in transmit staging. -/
def stagedBytes (s : State) : Nat := stagedOf s.rmt

def stageLimit (s : State) : Nat := max 256 (min 16384 (fld s pRMT R.RMT.STAGE 0 15)) * 2 ^ 20

/-- A function is being frozen, or is frozen (R375). -/
def freezing (s : State) (f : Nat) : Bool := (getFn s f).freezing

/-- A packet of a QP may be admitted to the egress queues: its rate and the window of 1,024 PSNs (R320, R343, R344). -/
def mayAdmit (s : State) (x : Qp) (p : TxPkt) : Bool :=
  let una := match x.tx with | u :: _ => u.psn | [] => p.psn
  decide (x.nextAt ≤ s.now) && decide ((p.psn + 2 ^ 32 - una) % 2 ^ 32 < 1024)

/-- The sub-port for a transmission: the QP's next in turn from `rr` on; for a retransmission the next one that is not the
last one's, where there is one (R332). -/
def pickSub (s : State) (x : Qp) (p : TxPkt) : Option Nat :=
  let l := sortBy (fun i => (i + 16 - x.rr % 16) % 16) (qpSubs s x)
  match if p.tries = 0 then none else l.find? fun i => some i != p.sub with
  | some i => some i
  | none => l.head?

/-- Admits the waiting packets of a QP, in order, until one must wait. -/
def admitList (q : Nat) : List Nat → State → State
  | [], s => s
  | psn :: l, s =>
    match getQp s q with
    | none => s
    | some x =>
      match x.tx.find? fun p => p.psn == psn with
      | none => admitList q l s
      | some p =>
        if p.st ≠ 0 then admitList q l s
        else if ¬ mayAdmit s x p then s
        else if p.tries = 0 ∧ stageLimit s < stagedBytes s + p.payload.length then
          if s.rmt.stalled then s
          else penBit pRMT 5 (rmtCount 15 (setRmt s fun r => { r with stalled := true }))
        else match pickSub s x p with
          | none => s
          | some sub =>
            let len := overhead s sub x + p.payload.length
            let f : Frame := {
              sub := sub, cls := x.cls, subscr := x.sub, qp := q, kind := 0, psn := psn, len := len, ce := false, bytes := []
              gateHeld := false, pauseHeld := false }
            let x := { x with
              tx := x.tx.map fun r => if r.psn = psn then { r with st := 1, sub := some sub } else r
              rr := (sub + 1) % 16, nextAt := max x.nextAt s.now + ceilDiv (len * 8 * 1000) (max 1 (min x.rate (rateLimit s x))) }
            admitList q l (joinQueue f (putQp q x (setRmt s fun r => { r with stalled := false })))

/-- Admits what a READY QP has waiting. -/
def letIn (q : Nat) (s : State) : State :=
  match getQp s q with
  | some x => if x.state = 2 then admitList q ((x.tx.filter fun p => p.st == 0).map (·.psn)) s else s
  | none => s

/-- Admits on every QP. -/
def admitAll (s : State) : State := s.rmt.qps.foldl (fun s e => if e.2.tx = [] then s else letIn e.1 s) s

/-- Adds data packets to a QP: each takes the next PSN (R314). -/
def addTx (q : Nat) (l : List TxPkt) (s : State) : State :=
  match getQp s q with
  | none => s
  | some x =>
    let l := (enumFrom 0 l).map fun e => { e.2 with psn := (x.psn + e.1) % 2 ^ 32 }
    letIn q (putQp q { x with tx := x.tx ++ l, psn := (x.psn + l.length) % 2 ^ 32 } s)

/-- A packet before its PSN is given. -/
def newTx (opc flags msn key offset total addr aux : Nat) (payload : List Byte) (wqe : Option Nat) : TxPkt := {
  psn := 0, opc := opc, flags := flags, msn := msn, key := key, offset := offset, total := total, addr := addr, aux := aux
  payload := payload, wqe := wqe, st := 0, tries := 0, sentAt := 0, sub := none, fast := false, rnr := 0, until_ := 0 }

/-- The packets of a message's bytes at multiples of the payload size (R315). -/
def splitTx (size opc flags msn key addr aux : Nat) (data : List Byte) (wqe : Option Nat) : List TxPkt :=
  (List.range (max 1 (ceilDiv data.length size))).map fun i =>
    newTx opc flags msn key (size * i) data.length addr aux ((data.drop (size * i)).take size) wqe

/-! ### Work requests (R324, R326 to R331) -/

/-- The entry of a QP's SQ that may begin next: the first not begun, with no WAIT and no failed entry before it, and with
FENCE no READ or FLUSH. -/
def nextWr (x : Qp) : Option Wqe :=
  match x.sq.find? fun w => !w.begun with
  | none => none
  | some w =>
    let before := x.sq.takeWhile fun v => v.begun
    if w.status.isSome ∨ before.any (fun v => (v.op == 5 && v.status.isNone) || (match v.status with | some c => c != 0 | none => false))
        ∨ (bitOf w.flags 2 ∧ before.any fun v => (v.op == 3 || v.op == 4) && v.status.isNone) then none
    else some w

def setWqe (q : Nat) (w : Wqe) (s : State) : State :=
  match getQp s q with
  | some x => putQp q { x with sq := x.sq.map fun v => if v.idx = w.idx then w else v } s
  | none => s

/-- A buffer lies in the host memory of a silenced function: its work waits (R368, R371). -/
def spotWaits (s : State) : Spot → Bool
  | .host f _ _ => silent s f
  | _ => false

/-- Begins the next entry of a QP when it is of operation `op`, the QP is READY and its function is not being frozen. RMT begins
work while it runs, and drains what is in hand while it stops; FENCED or REJOINING it begins none (R88, R89). -/
def beginWr (q op : Nat) (f : Qp → Wqe → State → State) (s : State) : State :=
  match getQp s q with
  | none => s
  | some x =>
    match nextWr x with
    | none => s
    | some w =>
      if x.state = 2 ∧ w.op = op ∧ ¬ freezing s x.func ∧ ¬ spotWaits s w.spot ∧ (blkState s pRMT = 1 ∨ blkState s pRMT = 2) then
        settleQp q (f x w s)
      else s

/-- A message of a SEND or WRITE: its packets, and the send MSN when it consumes a RECV (R326). -/
def sendMsg (q opc : Nat) (x : Qp) (w : Wqe) (host : Option (List Byte)) (s : State) : State :=
  match readSpot s w.spot w.len host with
  | none => setWqe q { w with begun := true, status := some 0x0B } (touchSpot w.spot w.len s)
  | some data =>
    let s := touchSpot w.spot w.len s
    let counts := opc == 1 || bitOf w.flags 0
    let s := tagName 2 (rmtTag q w.idx) (q * 2 ^ 32 + x.msn) (setWqe q { w with begun := true, msn := x.msn, psn := x.psn } s)
    let s := match getQp s q with
      | some x => if counts then putQp q { x with msn := (x.msn + 1) % 2 ^ 32 } s else s
      | none => s
    let write := opc == 2
    addTx q (splitTx (classPayload s x.cls) opc (w.flags % 2) x.msn (if write then w.rkey else 0) (if write then w.raddr else 0)
      (if bitOf w.flags 0 then w.imm else 0) data (some w.idx)) s

/-- A raw frame joins the queue of its QP's one sub-port (R352). -/
def sendRaw (q : Nat) (x : Qp) (w : Wqe) (host : Option (List Byte)) (s : State) : State :=
  match readSpot s w.spot w.len host, (List.range 16).find? fun i => bitOf x.portMask i with
  | none, _ => setWqe q { w with begun := true, status := some 0x0B } s
  | some data, some sub =>
    pushFrame { sub := sub, cls := x.cls, subscr := x.sub, qp := q, kind := 2, psn := w.idx, len := data.length + 4, ce := false
                bytes := data, gateHeld := false, pauseHeld := false } (setWqe q { w with begun := true } s)
  | some _, none => s

/-- RMT_SEND: a SEND begins; `host` is its buffer as read from host memory, none where the read failed (R326, R328,
R352, R362). -/
def execRmtSend (t q : Nat) (host : Option (List Byte)) (s : State) : Host.Outcome State Fault Refusal :=
  .next (beginWr q 1 (fun x w s => if x.ty = 1 then sendRaw q x w host s else sendMsg q 1 x w host s) (atTime t s))

/-- RMT_WRITE (R327, R328). -/
def execRmtWrite (t q : Nat) (host : Option (List Byte)) (s : State) : Host.Outcome State Fault Refusal :=
  .next (beginWr q 2 (fun x w s => sendMsg q 2 x w host s) (atTime t s))

/-- READ identifiers in use. -/
def readIds (x : Qp) : List Nat := (x.sq.filter fun w => w.op == 3 && w.begun && w.status.isNone).map (·.readId)

/-- RMT_READ: one READ_REQ, with at most 64 READs outstanding (R327). -/
def execRmtRead (t q : Nat) (s : State) : Host.Outcome State Fault Refusal :=
  .next (beginWr q 3 (fun x w s =>
    let used := readIds x
    if 64 ≤ used.length then s
    else
      let id := ((List.range 64).find? fun i => !used.contains i).getD 0
      let s := tagName 2 (rmtTag q w.idx) (q * 2 ^ 32 + x.msn) (setWqe q { w with begun := true, readId := id, psn := x.psn } s)
      addTx q [newTx 3 0 x.msn w.rkey 0 w.len w.raddr id [] (some w.idx)] s) (atTime t s))

/-- RMT_FLUSH (R328, R329). -/
def execRmtFlush (t q : Nat) (s : State) : Host.Outcome State Fault Refusal :=
  .next (beginWr q 4 (fun x w s =>
    addTx q [newTx 5 0 x.msn 0 0 0 0 0 [] (some w.idx)] (setWqe q { w with begun := true, psn := x.psn } s)) (atTime t s))

/-- HITCH: a WAIT begins: it is released, broken, or holds its SQ (R330). -/
def execHitch (t q : Nat) (s : State) : Host.Outcome State Fault Refusal :=
  .next (beginWr q 5 (fun _ w s =>
    let gone : Bool := match getQp s w.waitQp with | some y => y.state == 3 || y.state == 4 | none => true
    setWqe q { w with
      begun := true, status := if hitchReached s w then some 0 else if gone then some 0x0A else none } s) (atTime t s))

/-- HITCH_RELEASE: the named queue's DONE count has reached WAIT_COUNT (R330). -/
def execHitchRelease (t q : Nat) (s : State) : Host.Outcome State Fault Refusal :=
  .next <|
    let s := atTime t s
    match getQp s q with
    | none => s
    | some x =>
      match x.sq.find? fun w => w.op == 5 && w.begun && w.status.isNone with
      | some w => if hitchReached s w then settleQp q (setWqe q { w with status := some 0 } s) else s
      | none => s

/-- The function's own range holds a QP (R363). -/
def qpInRange (s : State) (f q : Nat) : Bool :=
  let b := fld s (pFUNC f) R.FUNC.RES_QP 0 16
  decide (b ≤ q) && decide (q < b + fld s (pFUNC f) R.FUNC.RES_QP 16 16)

/-- What is wrong with a work queue entry: BAD_WQE (R325) or LOCAL_PROT, else its local buffer (R324). -/
def checkWqe (s : State) (x : Qp) (rq : Bool) (b : List Byte) : Sum Nat Spot :=
  let op := leAt b 0 1
  let flags := leAt b 1 1
  let len := leAt b 4 4
  let wq := leAt b 0x2C 4
  let opOk := if rq then op == 0x10 else if x.ty = 1 then op == 1 || op == 5 else decide (1 ≤ op) && decide (op ≤ 5)
  let waitBad := op == 5 && (!qpInRange s x.func (wq % 2 ^ 24) || (getQp s (wq % 2 ^ 24)).isNone)
  if ¬ opOk ∨ flags / 16 ≠ 0 ∨ (bitOf flags 3 ∧ x.ty ≠ 1) ∨ leAt b 2 2 ≠ 0 ∨ 2 ^ 30 < len ∨ wq / 2 ^ 25 ≠ 0
      ∨ ¬ allZero ((b.drop 0x34).take 12) ∨ waitBad then .inl 2
  else if op = 4 ∨ op = 5 ∨ len = 0 then .inr .none
  else match keyEntry s (leAt b 0x18 4 % 4096) none none (some x.func) (op == 3 || op == 0x10) (leAt b 0x10 8) len with
    | .refused _ => .inl 3
    | .at_ p => .inr p

/-- A fetched entry. -/
def newWqe (idx : Nat) (b : List Byte) (r : Sum Nat Spot) : Wqe := {
  idx := idx, op := leAt b 0 1, flags := leAt b 1 1, len := leAt b 4 4, wrId := leAt b 8 8
  spot := (match r with | .inr p => p | .inl _ => .none), imm := leAt b 0x1C 4, raddr := leAt b 0x20 8, rkey := leAt b 0x28 4
  waitQp := leAt b 0x2C 4 % 2 ^ 24, waitRq := bitOf (leAt b 0x2C 4) 24, waitCount := leAt b 0x30 4, begun := false
  posted := false, status := (match r with | .inl c => some c | .inr _ => none), bytes := 0, msn := 0, psn := 0, readId := 0
  ts := none }

/-- The function's entries are fetched: its page serves work and no freeze has begun to act (R371, R375). -/
def rmtFetch (s : State) (f : Nat) : Bool :=
  (blkState s (pFUNC f) == 1 || blkState s (pFUNC f) == 2) && !silent s f && !freezing s f

/-- WQE_FETCH: the next entry of the SQ, or of the RQ, is fetched when a CQ entry can be reserved for it, and checked; in
ERROR it completes with FLUSHED at once (R323, R324, R336). -/
def execWqeFetch (t q : Nat) (rq : Bool) (bytes : List Byte) (s : State) : Host.Outcome State Fault Refusal :=
  .next <|
    let s := atTime t s
    match getQp s q with
    | none => s
    | some x =>
      let next := if rq then x.rqNext else x.sqNext
      let tail := if rq then x.rqTail else x.sqTail
      if x.ty = 2 ∨ ¬ (x.state = 2 ∨ x.state = 3) ∨ next = tail ∨ qpDepth x.cqLog ≤ cqTaken x + 1 ∨ ¬ rmtFetch s x.func ∨ ¬ blkRunning s pRMT then s
      else
        let w := newWqe next bytes (checkWqe s x rq bytes)
        let x := if rq then { x with rqNext := (next + 1) % 65536 } else { x with sqNext := (next + 1) % 65536 }
        let s := if ¬ rq ∧ 1 ≤ w.op ∧ w.op ≤ 3 then tagStart 2 x.portMask (rmtTag q w.idx) (q * 2 ^ 32 + x.msn) s else s
        if x.state = 3 then finishWqe q rq w 1 (putQp q x s)
        else settleQp q (putQp q (if rq then { x with rq := x.rq ++ [w] } else { x with sq := x.sq ++ [w] }) s)

/-- RMT_RECV: the oldest fetched RECV not yet offered takes messages from now on (R326). -/
def execRmtRecv (t q : Nat) (s : State) : Host.Outcome State Fault Refusal :=
  .next <|
    let s := atTime t s
    match getQp s q with
    | none => s
    | some x =>
      match x.rq.find? fun w => !w.posted with
      | some w =>
        if x.state = 2 then putQp q { x with rq := x.rq.map fun v => if v.idx = w.idx then { v with posted := true } else v } s
        else s
      | none => s

/-! ### Acknowledgements (R316, R334, R335) -/

/-- The header of an ACK or CNP of a QP, AGE 0. -/
def ctlHeader (q : Nat) (x : Qp) (opc psn msn addr aux : Nat) : List Byte :=
  rmtHeader opc 0 x.part 0 x.remote psn msn 0 0 0 addr aux q

/-- PSN `a` is older than `b`. -/
def psnOlder (a b : Nat) : Bool := decide (2 ^ 31 ≤ (a + 2 ^ 32 - b % 2 ^ 32) % 2 ^ 32)

/-- ADDR of an ACK: bit `i` for PSN + 1 + `i` received. -/
def ackBits (x : Qp) : Nat :=
  ((List.range 64).map fun i => if x.got.contains ((x.expect + 1 + i) % 2 ^ 32) then 2 ^ i else 0).sum

/-- An ACK with code 0. -/
def sendAck (q : Nat) (s : State) : State :=
  match getQp s q with
  | none => s
  | some x =>
    sendCtl q (ctlHeader q x 0x10 x.expect x.rxMsn (ackBits x) 0) (putQp q { x with since := 0, ackAt := none } s)

/-- A NAK for packet `psn`, at most once per microsecond for each code (R319). -/
def sendNak (q code psn : Nat) (s : State) : State :=
  match getQp s q with
  | none => s
  | some x =>
    let soon : Bool := match mget x.nakAt code with | some u => decide (s.now < u + 1000) | none => false
    if soon then s
    else rmtCount 9 (sendCtl q (ctlHeader q x 0x10 x.expect x.rxMsn psn code)
      (putQp q { x with nakAt := mput x.nakAt code s.now } s))

/-- Removes packets of a QP from the egress queues. -/
def unqueue (q : Nat) (gone : Nat → Bool) (s : State) : State :=
  setRmt s fun r => { r with frames := r.frames.filter fun f => !(f.qp == q && f.kind == 0 && gone f.psn) }

/-- A code 0 acknowledgement: what it covers is freed, and a packet with three later ones received goes again, once for
each transmission, while it has transmissions left (R316, R334). -/
def takeAck0 (q psn bits : Nat) (s : State) : State :=
  match getQp s q with
  | none => s
  | some x =>
    let idx (p : Nat) : Nat := (p + 2 ^ 32 - (psn + 1)) % 2 ^ 32
    let covered (p : Nat) : Bool := psnOlder p psn || (decide (idx p < 64) && bitOf bits (idx p))
    let above (p : Nat) : Nat := if idx p < 64 then popcount 64 (bits / 2 ^ (idx p + 1)) else if p = psn then popcount 64 bits else 0
    let retry := fld s pRMT R.RMT.TIMERS 12 4
    let tx := (x.tx.filter fun p => !covered p.psn || p.tries == 0).map fun p =>
      if p.st = 2 ∧ ¬ p.fast ∧ p.tries ≤ retry ∧ 3 ≤ above p.psn then { p with st := 0, fast := true } else p
    let sent (p : Nat) : Bool := covered p && (x.tx.any fun r => r.psn == p && r.tries != 0)
    let acked := ((x.tx.filter fun p => sent p.psn).filterMap (·.wqe)).eraseDups
    let s := acked.foldl (fun s i =>
      let s := tagStage 2 (rmtTag q i) 2 false s
      if tx.any fun p => p.wqe == some i then s
      else
        let s := tagStage 2 (rmtTag q i) 3 false s
        if x.sq.any fun w => w.idx == i then s else tagEnd 2 (rmtTag q i) 0 s) s
    letIn q (unqueue q sent (putQp q { x with tx := tx } s))

/-- The work request a refused PSN belongs to. -/
def wrOf (x : Qp) (psn : Nat) : Option Nat :=
  match x.tx.find? fun p => p.psn == psn with
  | some p => p.wqe
  | none => (x.sq.find? fun w => w.begun && w.psn == psn).map (·.idx)

/-- A NAK arrives (R316, R335, R337). -/
def takeNak (q code psn : Nat) (s : State) : State :=
  let s := rmtCount 10 s
  match getQp s q with
  | none => s
  | some x =>
    let wr := wrOf x psn
    if code = 1 ∨ code = 2 then
      match x.tx.find? fun p => p.psn == psn with
      | none => s
      | some p =>
        let limit := fld s pRMT R.RMT.TIMERS 8 4
        if p.st = 3 then s
        else if limit ≠ 15 ∧ limit ≤ p.rnr then failWr q wr 5 s
        else
          let end_ := s.now + fld s pRMT R.RMT.TIMERS 0 8 * 10000
          let mine (r : TxPkt) : Bool := r.wqe == p.wqe
          let psns := (x.tx.filter mine).map (·.psn)
          unqueue q (fun n => psns.contains n) (putQp q { x with
            tx := x.tx.map fun r => if mine r then { r with st := 3, rnr := p.rnr + 1, until_ := end_ } else r } s)
    else if code = 3 ∧ x.ty = 2 then
      let mine (r : TxPkt) : Bool := r.wqe == wr
      let psns := (x.tx.filter mine).map (·.psn)
      let s := unqueue q (fun n => psns.contains n) (putQp q { x with tx := x.tx.filter fun r => !mine r } s)
      let s := returnFlight (fun e => e.1 == q && some e.2.1 == wr) s
      (match x.sq.find? fun w => some w.idx == wr with
       | some w => settleQp q (setWqe q { w with status := some 0x0C } s)
       | none => s)
    else
      let status := if code = 4 then 6 else if code = 5 then 7 else if code = 6 then 8 else if code = 8 then 0x0B else 9
      failWr q wr status s

/-- A CNP arrives: the rate is cut at most once per 50 µs (R343). -/
def takeCnp (q : Nat) (s : State) : State :=
  let s := rmtCount 13 s
  match getQp s q with
  | none => s
  | some x =>
    let soon : Bool := match x.cutAt with | some u => decide (s.now < u + 50000) | none => false
    if soon then putQp q { x with cnp := true } s
    else
      let low := fld s pRMT R.RMT.CC 0 16 * 100
      let cut := x.rate * fld s pRMT R.RMT.CC 24 8 / 256
      putQp q { x with cnp := true, cutAt := some s.now, rate := max low (x.rate - cut) } s

/-- RTO_EXPIRY: RTO_US since the last transmission of a packet (R334). -/
def execRtoExpiry (t q psn : Nat) (s : State) : Host.Outcome State Fault Refusal :=
  .next <|
    let s := atTime t s
    match getQp s q with
    | none => s
    | some x =>
      match x.tx.find? fun p => p.psn == psn with
      | none => s
      | some p =>
        let rto := max 10 (fld s pRMT R.RMT.TIMERS 16 16) * 1000
        if x.state ≠ 2 ∨ p.st ≠ 2 ∨ t < p.sentAt + rto then s
        else if fld s pRMT R.RMT.TIMERS 12 4 < p.tries then failWr q p.wqe 4 s
        else letIn q (putQp q { x with tx := x.tx.map fun r => if r.psn = psn then { r with st := 0 } else r } s)

/-- ACK_TIMER: 4 µs after the first data packet no ACK has covered (R334). -/
def execAckTimer (t q : Nat) (s : State) : Host.Outcome State Fault Refusal :=
  .next <|
    let s := atTime t s
    match getQp s q with
    | some x => (match x.ackAt with
      | some u => if u ≤ t ∧ x.state = 2 then sendAck q s else s
      | none => s)
    | none => s

/-- RNR_RETRY_EXPIRY: refused messages go again from their first packet (R335). -/
def execRnrRetryExpiry (t q : Nat) (s : State) : Host.Outcome State Fault Refusal :=
  .next <|
    let s := atTime t s
    match getQp s q with
    | none => s
    | some x =>
      if x.state ≠ 2 then s
      else letIn q (putQp q { x with
        tx := x.tx.map fun r => if r.st = 3 ∧ r.until_ ≤ t then { r with st := 0 } else r } s)

/-! ### Receiving (R319, R320, R326, R327, R329, R333, R337) -/

/-- A received packet's header. -/
structure RmtHdr where
  ver : Nat
  opc : Nat
  flags : Nat
  part : Nat
  age : Nat
  dst : Nat
  psn : Nat
  msn : Nat
  key : Nat
  offset : Nat
  total : Nat
  addr : Nat
  aux : Nat
  src : Nat
  deriving DecidableEq, Repr

def parseHdr (b : List Byte) : RmtHdr := {
  ver := beAt b 0 1, opc := beAt b 1 1, flags := beAt b 2 2, part := beAt b 4 2, age := beAt b 6 2, dst := beAt b 8 4
  psn := beAt b 0xC 4, msn := beAt b 0x10 4, key := beAt b 0x14 4, offset := beAt b 0x18 4, total := beAt b 0x1C 4
  addr := beAt b 0x20 8, aux := beAt b 0x28 4, src := beAt b 0x2C 4 }

/-- Step 2 of R319: version, OPC, reserved bits, lengths, payload CRC. The receiver does not know the sender's class, so a
packet keeps the length rules when some payload size of a class allows it (R315; log entry 191). -/
def badPacket (b : List Byte) : Bool :=
  let h := parseHdr b
  let payload := (b.drop 48).take (b.length - 52)
  let zeroed := (b.take 2) ++ [0, 0] ++ (b.drop 4).take 2 ++ [0, 0] ++ (b.drop 8).take 40
  let known := (decide (1 ≤ h.opc) && decide (h.opc ≤ 6)) || h.opc == 0x10 || h.opc == 0x11
  let carries := h.opc == 1 || h.opc == 2 || h.opc == 4
  let last := decide (h.total ≤ h.offset + payload.length)
  let sizes : List Nat := [1024, 2048, 4096, 8192]
  let cut := sizes.any fun z =>
    h.offset % z == 0 && (if last then decide (payload.length ≤ z) else payload.length == z)
  decide (b.length < 52) || h.ver != 0x10 || !known || h.flags / 4 != 0 || h.dst / 2 ^ 24 != 0 || h.src / 2 ^ 24 != 0 ||
    decide (2 ^ 30 < h.total) || (!carries && payload != []) ||
    (carries && (decide (h.total < h.offset + payload.length) || (payload == [] && h.total != 0) || !cut)) ||
    (h.opc == 0x10 && h.aux / 256 != 0) || (h.opc == 0x10 && h.aux != 0 && h.addr / 2 ^ 32 != 0) ||
    leAt b (b.length - 4) 4 != crc32c (zeroed ++ payload)

/-- Marks a PSN received (R320). -/
def advance : Nat → Qp → Qp
  | 0, x => x
  | n + 1, x =>
    if x.got.contains x.expect then
      advance n { x with got := x.got.filter (· != x.expect), expect := (x.expect + 1) % 2 ^ 32 }
    else x

def markReceived (psn : Nat) (x : Qp) : Qp := advance 1025 { x with got := x.got ++ [psn] }

/-- FLUSH_REQs whose earlier packets are all placed are answered (R329). -/
def answerFlushes (q : Nat) (s : State) : State :=
  match getQp s q with
  | none => s
  | some x =>
    let due := x.flushes.filter fun f => psnOlder f x.expect
    addTx q (due.map fun f => newTx 6 0 x.msn 0 0 0 0 f [] none)
      (putQp q { x with flushes := x.flushes.filter fun f => !psnOlder f x.expect } s)

/-- The acknowledgement due after a data packet: at once when a message completed or 16 are not covered (R334). -/
def ackAfter (q : Nat) (now_ : Bool) (s : State) : State :=
  match getQp s q with
  | none => s
  | some x =>
    let x := { x with since := x.since + 1, ackAt := some (x.ackAt.getD (s.now + 4000)) }
    let s := putQp q x s
    if now_ ∨ 16 ≤ x.since then sendAck q s else s

/-- An exchanged pack is placed in the reservoir, unless it is held already (R304). -/
def takePack (b : List Byte) (s : State) : State :=
  let rank := leAt b 0xC 4
  let id := leAt b 0x10 8
  if (findPack s rank id).isSome then feedCount 11 s
  else
    let p : Pack := {
      rank := rank, id := id, len := b.length, tile := leAt b 0x22 1, epoch := leAt b 0x20 2, madeTick := leAt b 0x18 8
      resident := none, peer := true, chosen := false, ring := none, data := b }
    feedCount 9 (setFoundry s fun f => { f with packs := f.packs ++ [p] })

/-- A suspect interval from a peer acts at the next edge (R298, R337). -/
def takeSuspect (b : List Byte) (s : State) : State :=
  setFeed s fun f => { f with
    suspects := f.suspects ++ [{
      rank := leAt b 0 4, tile := leAt b 4 1, epoch := leAt b 6 2, frm := leAt b 8 8, upto := leAt b 0x10 8, own := false }] }

/-- The bytes of an exchange message from its pieces. -/
def joinPieces (l : List (Nat × List Byte)) : List Byte := (sortBy (·.1) l).flatMap (·.2)

/-- Exchange QP messages complete in MSN order. -/
def settleExchange : Nat → Nat → State → State
  | 0, _, s => s
  | n + 1, q, s =>
    match getQp s q with
    | none => s
    | some x =>
      match x.msgs.find? fun m => m.msn == x.rxMsn with
      | some m =>
        if m.complete then
          let b := joinPieces m.pieces
          let s := putQp q { x with msgs := x.msgs.filter (· != m), rxMsn := (x.rxMsn + 1) % 2 ^ 32 } s
          settleExchange n q (if m.imm.isSome then takeSuspect b s else takePack b s)
        else s
      | none => s

/-- A SEND packet on an exchange QP; answers the state and whether the message completed, or the NAK NO_SPACE (R337). -/
def rxExchange (q : Nat) (x : Qp) (h : RmtHdr) (payload : List Byte) (s : State) : Option (State × Bool) :=
  let imm := if bitOf h.flags 0 then some h.aux else none
  let known := x.msgs.find? fun m => m.msn == h.msn
  let full := s.foundry.capGiB * 2 ^ 30 < resvUsed s + h.total
  if known.isNone ∧ imm.isNone ∧ full then none
  else
    let m : RxMsg := known.getD { msn := h.msn, total := h.total, placed := 0, imm := imm, send := true, pieces := [], complete := false }
    let m : RxMsg := { m with placed := m.placed + payload.length, pieces := m.pieces ++ [(h.offset, payload)] }
    let m : RxMsg := { m with complete := decide (m.total ≤ m.placed) }
    let x := markReceived h.psn { x with msgs := (x.msgs.filter fun y => y.msn != h.msn) ++ [m] }
    some (settleExchange 1024 q (putQp q x s), m.complete)

/-- The RECV of message `m`, when it is posted (R326). -/
def recvOf (x : Qp) (m : Nat) : Option Wqe :=
  let d := (x.rqTail + 65536 - m % 65536) % 65536
  if 1 ≤ d ∧ d ≤ qpDepth x.rqLog then x.rq.find? fun w => w.idx == m % 65536 && w.posted else none

/-- A packet of a message that consumes a RECV is counted; the message completes its RECV when every byte is placed (R326,
R333). Answers whether it completed. -/
def countRecv (q : Nat) (h : RmtHdr) (n : Nat) (send : Bool) (w : Wqe) (s : State) : State × Bool :=
  match getQp s q with
  | none => (s, false)
  | some x =>
    let imm := if bitOf h.flags 0 then some h.aux else none
    let m : RxMsg := (x.msgs.find? fun m => m.msn == h.msn).getD
      { msn := h.msn, total := h.total, placed := 0, imm := imm, send := send, pieces := [], complete := false }
    let m : RxMsg := { m with placed := m.placed + n }
    let others := x.msgs.filter fun y => y.msn != h.msn
    if m.total ≤ m.placed then
      let w := { w with
        status := some 0, bytes := m.total, msn := m.msn, imm := imm.getD 0
        flags := withBits w.flags 0 1 (if imm.isSome then 1 else 0) }
      let s := putQp q { x with msgs := others, rq := x.rq.map fun v => if v.idx = w.idx then w else v } s
      (settleQp q s, true)
    else (putQp q { x with msgs := others ++ [m] } s, false)

/-- A plain WRITE packet is counted in its message; answers whether the message completed. -/
def countWrite (q : Nat) (h : RmtHdr) (n : Nat) (s : State) : State × Bool :=
  match getQp s q with
  | none => (s, false)
  | some x =>
    let same (e : Nat × Nat × Nat × Nat) : Bool := e.1 == h.addr && e.2.1 == h.total && e.2.2.1 == h.msn
    let before := match x.writes.find? same with | some e => e.2.2.2 | none => 0
    let others := x.writes.filter fun e => !same e
    if h.total ≤ before + n then (putQp q { x with writes := others } s, true)
    else (putQp q { x with writes := others ++ [(h.addr, h.total, h.msn, before + n)] } s, false)

/-- The READ_RESPs of an accepted READ: packets before the first poisoned one, then NAK POISON; a failed read of host
memory counts as poisoned (R327, R362). -/
def answerRead (q : Nat) (x : Qp) (h : RmtHdr) (p : Spot) (host : Option (List Byte)) (s : State) : State :=
  let size := classPayload s x.cls
  let n := max 1 (ceilDiv h.total size)
  let piece (i : Nat) : Option (List Byte) :=
    let len := min size (h.total - size * i)
    match p with
    | .dram b => readSpot s (.dram (b + size * i)) len none
    | _ => readSpot s p len (host.map fun h => h.drop (size * i))
  let good := ((List.range n).map piece).takeWhile (·.isSome)
  let s := touchSpot p h.total s
  let l := (enumFrom 0 good).map fun e => newTx 4 0 x.msn 0 (size * e.1) h.total 0 (h.aux % 256) (e.2.getD []) none
  let s := addTx q l s
  if good.length < n then sendNak q 8 h.psn s else s

/-- A READ_RESP packet is placed in its READ's local buffer (R327, R328). -/
def takeResp (q : Nat) (h : RmtHdr) (payload : List Byte) (s : State) : State × Bool :=
  match getQp s q with
  | none => (s, false)
  | some x =>
    match x.sq.find? fun w => w.op == 3 && w.begun && w.status.isNone && w.readId == h.aux % 256 with
    | none => (s, false)
    | some w =>
      let s := placeAt w.spot h.offset payload s
      let w := { w with bytes := w.bytes + payload.length }
      let done := decide (w.len ≤ w.bytes)
      (settleQp q (setWqe q (if done then { w with status := some 0 } else w) s), done)

/-- A FLUSH_RESP completes its FLUSH (R328); on an exchange QP it is noted for the packs it covers (R304). -/
def takeFlushResp (q : Nat) (h : RmtHdr) (s : State) : State :=
  match getQp s q with
  | none => s
  | some x =>
    match x.sq.find? fun w => w.op == 4 && w.begun && w.status.isNone && w.psn == h.aux with
    | some w =>
      let s := if x.ty = 2 then setFeed s fun f => { f with flushed := f.flushed ++ [(q, w.waitCount)] } else s
      settleQp q (setWqe q { w with status := some 0 } s)
    | none => s

/-- Received data passes the subscriber's policer (R346). -/
def police (x : Qp) (n : Nat) (s : State) : Bool × State :=
  let rate := bitsOf (subDword s x.sub 1) 16 16
  if rate = 0 then (true, s)
  else
    let tok := bucket s.rmt.police x.sub rate (bitsOf (subDword s x.sub 1) 0 16) s.now
    if n * 80 ≤ tok then (true, setRmt s fun r => { r with police := mput r.police x.sub (tok - n * 80, s.now) })
    else (false, penBit pEGS 0 (egsCount 0 (setRmt s fun r => { r with police := mput r.police x.sub (tok, s.now) })))

/-- A CNP for a data packet marked CE, at most one per QP in 50 µs (R342). -/
def sendCnp (q : Nat) (s : State) : State :=
  match getQp s q with
  | none => s
  | some x =>
    let soon : Bool := match x.cnpAt with | some u => decide (s.now < u + 50000) | none => false
    if soon then s
    else rmtCount 12 (sendCtl q (ctlHeader q x 0x11 0 0 0 0) (putQp q { x with cnpAt := some s.now } s))

/-- Step 10's refusal of a packet under a key (R319). -/
def refuseKey (q code : Nat) (h : RmtHdr) (s : State) : State :=
  sendNak q code h.psn (errInfo pRMT 2 (h.key % 4096) (penBit pRMT 1 (rmtCount 11 s)))

/-- The highest PSN marked received is above `psn`: what a freezing QP still accepts (R375). -/
def belowHighest (x : Qp) (psn : Nat) : Bool := x.got.any fun g => psnOlder psn g

/-- Steps 10 to 12 of R319 for a data packet that is to be taken. A SEND on a QP of the checkpoint group goes to the checkpoint
service, whole as an event of its own (R441), and takes no RECV. -/
def takeData (q : Nat) (x : Qp) (h : RmtHdr) (payload : List Byte) (host : Option (List Byte)) (s : State) : State :=
  let mark (s : State) : State :=
    match getQp s q with | some x => putQp q (markReceived h.psn x) s | none => s
  let finish (r : State × Bool) : State := ackAfter q r.2 (answerFlushes q r.1)
  match h.opc with
  | 1 =>
    if x.ty = 2 then
      match rxExchange q x h payload s with
      | none => sendNak q 3 h.psn s
      | some r => finish r
    else if (ckRankOf s q).isSome then finish (mark s, decide (h.total ≤ h.offset + payload.length))
    else match recvOf x h.msn with
      | none => sendNak q (if blkState s (pFUNC x.func) = 0x80 then 2 else 1) h.psn s
      | some w =>
        if spotOrphan s w.spot then sendNak q 2 h.psn s
        else if w.len < h.total then
          let s := sendNak q 6 h.psn s
          let r := enterError q (some (true, w.idx, 8)) s
          settle (settleFuel r.2) r.1 r.2
        else finish (countRecv q h payload.length true w (mark (placeAt w.spot h.offset payload s)))
  | 2 =>
    match keyCheck s h.key h.part true (h.addr + h.offset) payload.length with
    | .refused c => refuseKey q c h s
    | .at_ p =>
      if spotOrphan s p then sendNak q 2 h.psn s
      else if bitOf h.flags 0 then
        match recvOf x h.msn with
        | none => sendNak q (if blkState s (pFUNC x.func) = 0x80 then 2 else 1) h.psn s
        | some w => finish (countRecv q h payload.length false w (mark (placeAt p 0 payload s)))
      else finish (countWrite q h payload.length (mark (placeAt p 0 payload s)))
  | 3 =>
    match keyCheck s h.key h.part false h.addr h.total with
    | .refused c => refuseKey q c h s
    | .at_ p =>
      if spotOrphan s p then sendNak q 2 h.psn s
      else finish (answerRead q x h p host (mark s), true)
  | 4 =>
    let into (w : Wqe) : Bool := w.op == 3 && w.begun && w.status.isNone && w.readId == h.aux % 256 && spotOrphan s w.spot
    if x.sq.any into then sendNak q 2 h.psn s else finish (takeResp q h payload (mark s))
  | 5 =>
    let s := mark s
    finish ((match getQp s q with | some x => putQp q { x with flushes := x.flushes ++ [h.psn] } s | none => s), true)
  | _ => finish (takeFlushResp q h (mark s), true)

/-- Steps 2 to 12 of R319 for an RMT packet: its UDP payload, whether it was marked CE, and what host memory returns for a
READ_REQ, none where a read of it failed. -/
def rmtReceive (port : Nat) (ce : Bool) (b : List Byte) (host : Option (List Byte)) (s : State) : State :=
  let h := parseHdr b
  let payload := (b.drop 48).take (b.length - 52)
  if badPacket b then penBit pRMT 4 (rmtCount 7 s)
  else
    let s := rmtCount 1 s
    let a := (tickTimeUs s + 65536 - h.age) % 65536
    let a := if 65532 ≤ a then 0 else a
    if fld s pRMT R.RMT.LIFE 0 14 < a then penBit pRMT 3 (rmtCount 5 s)
    else match getQp s h.dst with
      | none => rmtCount 8 s
      | some x =>
        let q := h.dst
        if ¬ (x.state = 2 ∨ x.state = 3) ∨ x.ty = 1 then rmtCount 8 s
        else if h.part ≠ x.part then errInfo pRMT 3 q (penBit pRMT 2 (rmtCount 6 s))
        else if h.opc = 0x10 then (if h.aux = 0 then takeAck0 q h.psn h.addr s else takeNak q h.aux (h.addr % 2 ^ 32) s)
        else if h.opc = 0x11 then takeCnp q s
        else if x.state = 3 then sendNak q 7 h.psn s
        else
          let s := perfEvent pRMT 0x101 0xFF 1 s
          let s := if ce then ethCount port 7 1 (sendCnp q s) else s
          let d := (h.psn + 2 ^ 32 - x.expect) % 2 ^ 32
          if 2 ^ 31 ≤ d ∨ (d < 1024 ∧ x.got.contains h.psn) then sendAck q (rmtCount 3 s)
          else if 1024 ≤ d then rmtCount 4 s
          else if freezing s x.func ∧ ¬ belowHighest x h.psn then s
          else
            let r := police x payload.length s
            if ¬ r.1 then r.2
            else match getQp r.2 q with
              | some x => takeData q x h payload host r.2
              | none => r.2

/-- RMT_PACKET_RECEIVE: an RMT packet on a sub-port (R319). -/
def execRmtPacketReceive (t sub : Nat) (ce : Bool) (bytes : List Byte) (host : Option (List Byte)) (s : State) : Host.Outcome State Fault Refusal :=
  .next <|
    let s := atTime t s
    if subUp s sub ∧ (blkRunning s pRMT) then rmtReceive (sub / 4) ce bytes host s else s

end Sys2Proof.Machine
end

