-- ==== Sys2Proof/Machine/QueuePairs.lean ====
section
/-! DEFINITION. Queue pair commands, doorbells, exchange over the transport, and the transport's part of a tick edge
(chapter 09, R304, R322, R323, R337 to R343). -/

namespace Sys2Proof.Machine

/-! ### Doorbells (R323, R338) -/

/-- A doorbell value acts on a QP; none where it is ignored. -/
def ringQp (q v : Nat) (x : Qp) (s : State) : Option State :=
  let idx := v % 65536
  let ahead (next : Nat) : Nat := (idx + 65536 - next) % 65536
  match bitsOf v 16 2 with
  | 0 => if qpDepth x.sqLog < ahead x.sqNext then none else some (putQp q { x with sqTail := idx } s)
  | 1 => if qpDepth x.rqLog < ahead x.rqNext then none else some (putQp q { x with rqTail := idx } s)
  | 2 => some (putQp q { x with cqHead := idx } s)
  | _ => none

/-- RMT_DB_HI: a function rings the doorbell of QP `v[23:0]` with what it last wrote to RMT_DB_LO. Doorbells of exchange and
accelerator QPs are not the driver's (R323, R337, R338). -/
def execRmtDbHi (func v : Nat) (s : State) : Host.Outcome State Fault Refusal :=
  .next <|
    let q := v % 2 ^ 24
    let bad := penBit (pFUNC func) 0 s
    if 1012 ≤ func then s
    else match getQp s q with
      | none => bad
      | some x =>
        if ¬ qpInRange s func q then bad
        else if x.ty = 2 ∨ x.acc then s
        else match ringQp q (mgetD s.rmt.dbLo func 0) x s with
          | some s' => s'
          | none => bad

/-- RMT_ACC_DOORBELL: a feed DOORBELL of kind 1 on a link (R338). -/
def execRmtAccDoorbell (link target value : Nat) (s : State) : Host.Outcome State Fault Refusal :=
  .next <|
    let bad := feedCount 12 s
    if 48 ≤ link ∨ ¬ linkUp s link then s
    else match getQp s (target % 2 ^ 24) with
      | none => bad
      | some x =>
        if bitsOf target 24 4 ≠ 0 ∨ ¬ x.acc ∨ linkPort s link ≠ some x.accPort then bad
        else match ringQp (target % 2 ^ 24) value x s with
          | some s' => s'
          | none => penBit (pFUNC 0) 0 s

/-! ### Commands (R339 to R341) -/

/-- The QP a command names lies outside the function's range: the byte offset of the index (R339). -/
def qpOut (c : SvcCmd) (s : State) : Option Nat := if qpInRange s c.func c.obj then none else some 4

/-- A range in the layout of RES_QP and RES_SUB holds an index. -/
def rangeHas (v i : Nat) : Bool := decide (v % 65536 ≤ i) && decide (i < v % 65536 + v / 65536)

/-- While an assignment is pending, new objects must lie in the new range too (R364). `k` is its parameter dword. -/
def pendingHas (s : State) (f k i : Nat) : Bool :=
  match begunOn s 0x95 f with
  | some c => rangeHas (c.d k) i
  | none => true

/-- The function's range of subscribers holds one (R363, R364). -/
def subscrInRange (s : State) (f i : Nat) : Bool := rangeHas (reg s (pFUNC f) R.FUNC.RES_SUB) i && pendingHas s f 5 i

/-- QP_CREATE's fields (R339). -/
def qpCreateOffence (c : SvcCmd) (s : State) : Option Nat :=
  let ty := bitsOf (c.d 4) 0 2
  let sq := bitsOf (c.d 11) 0 4
  let rq := bitsOf (c.d 11) 4 4
  let cq := bitsOf (c.d 11) 8 4
  match qpOut c s with
  | some o => some o
  | none =>
    if ¬ pendingHas s c.func 4 c.obj then some 4
    else if ty = 3 ∨ (c.func ≠ 0 ∧ (ty ≠ 0 ∨ bitOf (c.d 4) 3)) then some 16
    else if sq < 4 ∨ 12 < sq ∨ rq < 4 ∨ 12 < rq then some 44
    else if cq < 4 ∨ 13 < cq then some 45
    else if 2 ^ cq < 2 ^ sq + 2 ^ rq then some 44
    else if ¬ subscrInRange s c.func (bitsOf (c.d 12) 0 10) then some 48
    else if 64 < bitsOf (c.d 12) 13 7 then some 49
    else none

/-- A DEFINED QP from QP_CREATE; the rings of an ACC QP lie in the LPDDR5X (R338). -/
def newQp (c : SvcCmd) : Qp := {
  state := 1, ty := bitsOf (c.d 4) 0 2, loc := if bitOf (c.d 4) 3 then 1 else bitsOf (c.d 4) 2 1, acc := bitOf (c.d 4) 3, accPort := bitsOf (c.d 4) 4 5
  func := c.func, sqBase := c.q 5, rqBase := c.q 7, cqBase := c.q 9, sqLog := bitsOf (c.d 11) 0 4
  rqLog := bitsOf (c.d 11) 4 4, cqLog := bitsOf (c.d 11) 8 4, sub := bitsOf (c.d 12) 0 10, cls := bitsOf (c.d 12) 10 3
  vec := bitsOf (c.d 12) 13 7, portMask := 0, paths := 1, ipv6 := false, remote := 0, part := 0, udpBase := 0, ip := 0
  sqTail := 0, sqNext := 0, rqTail := 0, rqNext := 0, cqHead := 0, cqTail := 0, sq := [], rq := [], sqDone := 0
  rqDone := 0, psn := 0, msn := 0, tx := [], rate := 0, nextAt := 0, cutAt := none, cnp := false, rr := 0
  path := List.replicate 16 0, expect := 0, got := [], rxMsn := 0, rxNew := 0, msgs := [], writes := [], since := 0
  ackAt := none, nakAt := [], cnpAt := none, flushes := [], quietTick := 0, target := 0 }

/-- QP_CREATE (R339, R340). -/
def execQpCreate (k : CmdRef) (s : State) : Host.Outcome State Fault Refusal :=
  .next <| runSvc k 0x90 qpCreateOffence objFenced
    (fun c s =>
      if (getQp s c.obj).isSome then .done st.STATE_CONFLICT 0 s else .done st.OK 0 (putQp c.obj (newQp c) s)) s

/-- Sub-ports of a mask that exist in the ports' modes. -/
def maskSubs (s : State) (mask : Nat) : List Nat := (List.range 16).filter fun i => bitOf mask i && subExists s i

/-- NO_PORT and RAW_EXISTS for a port mask of a QP (R341). -/
def portOffence (s : State) (q : Nat) (x : Qp) (mask : Nat) : Option Nat :=
  let l := maskSubs s mask
  if l = [] ∨ (x.ty = 1 ∧ (l.length ≠ 1 ∨ popcount 16 mask ≠ 1)) then some 0xA0
  else if x.ty = 1 ∧ (s.rmt.qps.any fun e =>
      e.1 != q && e.2.ty == 1 && (e.2.state == 2 || e.2.state == 3 || e.2.state == 5) && e.2.portMask == mask) then some 0xA1
  else none

/-- QP_CONNECT: READY at step 7 of the next edge (R339, R340). -/
def execQpConnect (k : CmdRef) (s : State) : Host.Outcome State Fault Refusal :=
  .next <| runSvc k 0x91 qpOut objFenced
    (fun c s =>
      match getQp s c.obj with
      | none => .done st.STATE_CONFLICT 0 s
      | some x =>
        if x.state ≠ 1 ∨ (begunOn s 0x91 c.obj).isSome then .done st.STATE_CONFLICT 0 s
        else match portOffence s c.obj x (bitsOf (c.d 4) 0 16) with
          | some e => .done e 0 s
          | none => .wait s) s

/-- QP_MODIFY (R339, R340). -/
def execQpModify (k : CmdRef) (s : State) : Host.Outcome State Fault Refusal :=
  .next <| runSvc k 0x92
    (fun c s => match qpOut c s with
      | some o => some o
      | none => if bitOf (c.d 4) 13 ∧ ¬ subscrInRange s c.func (bitsOf (c.d 4) 0 10) then some 16 else none) objFenced
    (fun c s =>
      match getQp s c.obj with
      | none => .done st.STATE_CONFLICT 0 s
      | some x =>
        if ¬ (x.state = 1 ∨ x.state = 2) then .done st.STATE_CONFLICT 0 s
        else if bitOf (c.d 4) 15 then
          (match portOffence s c.obj x (bitsOf (c.d 4) 16 16) with
           | some 0xA0 => .done 0xA0 0 s
           | _ => .wait s)
        else .wait s) s

/-- Edges that QUIESCING lasts (R322). -/
def quietEdges (s : State) : Nat := ceilDiv (fld s pRMT R.RMT.LIFE 0 14) (max 1 s.tick.period) + 1

/-- A QP leaves READY or ERROR through QUIESCING for state `target`: a READY one is flushed first, and hitches on it break
(R322, R336, R340). -/
def leaveQp (q target : Nat) (s : State) : State :=
  match getQp s q with
  | none => s
  | some x =>
    let s := if x.state = 2 then
        returnFlight (fun e => e.1 == q) (flushQp q none (dropFrames q (putQp q { x with state := 3 } s)))
      else s
    let s := setRmt s fun r => { r with frames := r.frames.filter fun f => f.qp != q }
    match getQp s q with
    | none => s
    | some x =>
      let r := breakHitches q (putQp q { x with
        state := 4, target := target, quietTick := s.tick.count + quietEdges s } s)
      settle (settleFuel r.2) r.1 r.2

/-- The QP is ABSENT; hitches on it break (R330). -/
def absentQp (q : Nat) (s : State) : State :=
  let s := setRmt (dropFrames q s) fun r => { r with qps := mdel r.qps q, frames := r.frames.filter fun f => f.qp != q }
  let r := breakHitches q s
  settle (settleFuel r.2) r.1 r.2

/-- QP_RESET (R340, R341). -/
def execQpReset (k : CmdRef) (s : State) : Host.Outcome State Fault Refusal :=
  .next <| runSvc k 0x93 qpOut objFenced
    (fun c s =>
      match getQp s c.obj with
      | none => .done st.STATE_CONFLICT 0 s
      | some x =>
        if ¬ (x.state = 2 ∨ x.state = 3) then .done st.STATE_CONFLICT 0 s
        else if s.feed.group.contains c.obj then .done 0xA2 0 s
        else .wait (leaveQp c.obj 1 s)) s

/-- QP_DESTROY (R340, R341). -/
def execQpDestroy (k : CmdRef) (s : State) : Host.Outcome State Fault Refusal :=
  .next <| runSvc k 0x94 qpOut objFenced
    (fun c s =>
      match getQp s c.obj with
      | none => .done st.STATE_CONFLICT 0 s
      | some x =>
        if ¬ (x.state = 1 ∨ x.state = 2 ∨ x.state = 3) then .done st.STATE_CONFLICT 0 s
        else if s.feed.group.contains c.obj then .done 0xA2 0 s
        else if x.state = 1 then .done st.OK 0 (absentQp c.obj s)
        else .wait (leaveQp c.obj 0 s)) s

/-- A DEFINED QP as QP_CREATE left it: its rings begin at index 0 again, as the MSN of the next connection does (R326). -/
def freshQp (x : Qp) : Qp :=
  { x with
    state := 1, sqTail := 0, sqNext := 0, rqTail := 0, rqNext := 0, cqHead := 0, cqTail := 0, sq := [], rq := []
    sqDone := 0, rqDone := 0, tx := [], msgs := [], writes := [], flushes := [], got := [], nakAt := [], cnpAt := none
    cutAt := none, cnp := false, ackAt := none, since := 0, quietTick := 0, target := 0 }

/-- QUIESCING_END: the edge of R322 has come (R340). -/
def execQuiescingEnd (q : Nat) (s : State) : Host.Outcome State Fault Refusal :=
  .next <|
    match getQp s q with
    | none => s
    | some x =>
      if x.state ≠ 4 ∨ s.tick.count < x.quietTick then s
      else
        let s := if x.target = 1 then putQp q (freshQp x) s else absentQp q s
        finishCmds (fun c => (c.op == 0x93 || c.op == 0x94) && c.obj == q) st.OK 0 s

/-! ### Exchange (R304, R337) -/

/-- The device posts a SEND of its own on an exchange QP, and for a pack the FLUSH after it. -/
def postExchange (q : Nat) (data : List Byte) (imm : Nat) (flush : Bool) (s : State) : State :=
  match getQp s q with
  | none => s
  | some x =>
    let i := x.sqNext
    let w : Wqe := {
      idx := i, op := 1, flags := imm, len := data.length, wrId := 0, spot := .none, imm := imm, raddr := 0, rkey := 0
      waitQp := 0, waitRq := false, waitCount := 0, begun := true, posted := false, status := none, bytes := 0, msn := x.msn
      psn := x.psn, readId := 0, ts := none }
    let s := putQp q { x with sq := x.sq ++ [w], sqNext := (i + 1) % 65536, msn := (x.msn + 1) % 2 ^ 32 } s
    let s := addTx q (splitTx (classPayload s x.cls) 1 imm x.msn 0 0 imm data (some i)) s
    if ¬ flush then s
    else match getQp s q with
      | none => s
      | some x =>
        let j := x.sqNext
        let f := { w with idx := j, op := 4, flags := 0, len := 0, imm := 0, waitCount := i, psn := x.psn }
        let s := putQp q { x with sq := x.sq ++ [f], sqNext := (j + 1) % 65536 } s
        addTx q [newTx 5 0 x.msn 0 0 0 0 0 [] (some j)] s

/-- XCHG_SEND: a chosen pack is sent to member `member` of the group, as the random source picks (R304). `poison`: its read
from the LPDDR5X met poisoned data. -/
def execXchgSend (t rank id member : Nat) (poison : Bool) (s : State) : Host.Outcome State Fault Refusal :=
  .next <|
    let s := atTime t s
    let sent := s.feed.flight.any fun e => e.2.2 == (rank, id)
    match findPack s rank id, s.feed.group[member % s.feed.group.length]? with
    | some p, some q =>
      (match getQp s q with
       | none => s
       | some x =>
         if ¬ p.chosen ∨ sent ∨ x.state ≠ 2 ∨ x.ty ≠ 2 ∨ ¬ blkRunning s pFEED ∨ quiescing s then s
         else if poison then penBit pFEED 1 (feedCount 2 (removePack rank id s))
         else postExchange q p.data 0 true (setFeed s fun f => { f with flight := f.flight ++ [(q, x.sqNext, rank, id)] }))
    | _, _ => s

/-- XCHG_FLUSH_DONE: packs whose FLUSH on QP `q` completed leave the reservoir (R304). -/
def execXchgFlushDone (q : Nat) (s : State) : Host.Outcome State Fault Refusal :=
  .next <|
    let done (e : Nat × Nat × Nat × Nat) : Bool := e.1 == q && s.feed.flushed.contains (q, e.2.1)
    let s' := (s.feed.flight.filter done).foldl (fun s e => feedCount 8 (removePack e.2.2.1 e.2.2.2 (tagEnd 1 e.2.2.2 0 s))) s
    setFeed s' fun f => { f with
      flight := f.flight.filter fun e => !done e, flushed := f.flushed.filter fun e => e.1 != q }

/-- The device's own suspect intervals go to every member of the exchange group (R298, R337). -/
def tellGroup (l : List Suspect) (s : State) : State :=
  (l.filter (·.own)).foldl (fun s x =>
    s.feed.group.foldl (fun s q =>
      match getQp s q with
      | some y =>
        if y.state = 2 ∧ y.ty = 2 then
          postExchange q (leBytes 4 x.rank ++ leBytes 1 x.tile ++ leBytes 1 0 ++ leBytes 2 x.epoch ++ leBytes 8 x.frm ++
            leBytes 8 x.upto ++ leBytes 8 0) 1 false s
        else s
      | none => s) s) s

/-! ### Step 7 -/

/-- A QP is connected (R326, R339, R343). -/
def connectQp (c : SvcCmd) (x : Qp) (s : State) : State :=
  let d := c.d
  let y := { freshQp x with
    sqTail := x.sqTail, rqTail := x.rqTail, cqHead := x.cqHead, cqTail := x.cqTail, state := 2, portMask := bitsOf (d 4) 0 16
    paths := bitsOf (d 4) 16 4 + 1, ipv6 := bitOf (d 4) 20, remote := bitsOf (d 5) 0 24, psn := d 6, expect := d 7
    part := bitsOf (d 8) 0 16, udpBase := bitsOf (d 8) 16 16, ip := if bitOf (d 4) 20 then d 9 * 2 ^ 96 + d 10 * 2 ^ 64 + d 11 * 2 ^ 32 + d 12 else d 9
    msn := 0, rxMsn := 0, path := List.replicate 16 0, rr := 0, nextAt := s.now }
  putQp c.obj { y with rate := rateLimit s y } s

/-- The QP commands that wait for the edge complete. -/
def edgeQpCmds (s : State) : State :=
  (s.cmds.filter fun c => c.begun && (c.op == 0x91 || c.op == 0x92)).foldl (fun s c =>
    match getQp s c.obj with
    | none => complete c st.ABORTED 0 s
    | some x =>
      if c.op = 0x91 then
        if x.state = 1 then complete c st.OK 0 (connectQp c x s) else complete c st.STATE_CONFLICT 0 s
      else if x.state = 1 ∨ x.state = 2 then
        complete c st.OK 0 (putQp c.obj { x with
          sub := if bitOf (c.d 4) 13 then bitsOf (c.d 4) 0 10 else x.sub
          cls := if bitOf (c.d 4) 14 then bitsOf (c.d 4) 10 3 else x.cls
          portMask := if bitOf (c.d 4) 15 then bitsOf (c.d 4) 16 16 else x.portMask } s)
      else complete c st.STATE_CONFLICT 0 s) s

/-- The rates of READY QPs rise after a tick without a CNP, and never pass the sum of their sub-ports (R343). -/
def edgeRates (s : State) : State :=
  let step := fld s pRMT R.RMT.CC 16 8 * 1000
  setRmt s fun r => { r with
    qps := r.qps.map fun e =>
      if e.2.state = 2 then
        (e.1, { e.2 with
          cnp := false
          rate := if e.2.cnp then min e.2.rate (max (rateLimit s e.2) 1) else min (e.2.rate + step) (rateLimit s e.2) })
      else e }

/-- The transport's part of step 7. -/
def edgeQps (s : State) : State := admitAll (edgeRates (edgeQpCmds s))

end Sys2Proof.Machine
end

