-- ==== Sys2Proof/Machine/Host.lean ====
section
/-! DEFINITION. The host port and its functions: links, requests and tags, resets, silencing, ORPHAN and adoption (chapter 10,
R353 to R374). -/

namespace Sys2Proof.Machine

def setHost (s : State) (f : HostState → HostState) : State := { s with host := f s.host }

def hostCount (l i : Nat) (s : State) : State := addReg s (pHOST l) (R.HOST.COUNT + 4 * i) 1

def modFn (f : Nat) (g : FuncX → FuncX) (s : State) : State := putFn f (g (getFn s f)) s

/-- Functions of a host link. -/
def linkFuncs (s : State) (l : Nat) : List Nat := (List.range 1012).filter fun f => hostLink s f == l

/-- The PF a VF belongs to, and its first VF's index (R355). -/
def firstVf (s : State) (pf : Nat) : Nat := 4 + ((List.range pf).map (totalVfs s)).sum

/-- VFs 1 to n of a PF, by index. -/
def vfsOf (s : State) (pf n : Nat) : List Nat := (List.range n).map fun i => firstVf s pf + i

/-! ### Silencing and ORPHAN (R368 to R371) -/

/-- The function's DMA is silenced (R368). -/
def silence (f : Nat) (s : State) : State := setFld s (pFUNC f) R.FUNC.DMA_STAT 31 1 1

/-- Silencing ends. -/
def unsilence (f : Nat) (s : State) : State := setFld s (pFUNC f) R.FUNC.DMA_STAT 31 1 0

/-- QPs of a function, by number. -/
def qpsOf (s : State) (f : Nat) : List (Nat × Qp) := s.rmt.qps.filter fun e => e.2.func == f

/-- The function's QPs return from FROZEN to their former states (R381). -/
def thawQps (f : Nat) (s : State) : State :=
  (qpsOf s f).foldl (fun s e => if e.2.state = 5 then putQp e.1 { e.2 with state := e.2.target } s else s) s

/-- A freeze in progress, or a FROZEN state, is dropped: the command that asked for it ends with ABORTED (R369). -/
def dropFreeze (f : Nat) (s : State) : State :=
  let s := thawQps f (modFn f (fun x => { x with freezing := false, freezeBy := none, revert := false }) s)
  finishCmds (fun c => c.op == 0x96 && c.obj == f) st.ABORTED 0 s

/-- Entry to ORPHAN with a cause; `abi` is the agreement before the event (R370). -/
def enterOrphan (f cause abi : Nat) (s : State) : State :=
  let p := pFUNC f
  let l := hostLink s f
  let s := setBlkState (dropFreeze f s) p 0x80
  let s := setRegN s p R.FUNC.ORPHAN_STAT (bitsOf abi 0 16 * 2 ^ 16 + cause)
  let s := modFn f (fun x => { x with orphanAt := s.now, graceDone := false }) (setReg64 s p R.FUNC.ORPHAN_TICK_LO s.tick.count)
  errInfo (pHOST l) 2 f (penBit (pHOST l) 2 (penBit p 3 s))

/-- A RUNNING or STOPPING function enters ORPHAN; others keep their state. -/
def orphanRunning (f cause abi : Nat) (s : State) : State :=
  let st := blkState s (pFUNC f)
  if st = 1 ∨ st = 2 then enterOrphan f cause abi s else s

/-- The MSI-X table and PBA of a function at their reset values. -/
def clearMsix (f : Nat) (s : State) : State :=
  setHost s fun h => { h with msix := h.msix.filter fun e => e.1 / 1024 != f }

/-- The configuration space of a function at its reset values (R369). -/
def clearConfig (f : Nat) (s : State) : State :=
  clearMsix f (modFn f (fun x => { x with bme := false, cto := 10000000, tag10 := false, tag14 := false, relaxed := true }) s)

/-! ### The RESET action (R374) -/

/-- Bytes of a function's window read 0. -/
def zeroWindow (f : Nat) (s : State) : State :=
  let n := fld s (pFUNC f) R.FUNC.RES_WIN 0 17 * 2 ^ 20
  let lo := dramKey (Config.winBase f)
  let o := Config.winBase f
  { s with
    mem := s.mem.filter fun c => !(decide (lo ≤ c.1) && decide (c.1 < lo + n))
    media := { s.media with dram := s.media.dram.filter fun e => !(decide (o ≤ e.1) && decide (e.1 + 8 ≤ o + n)) } }

/-- The RESET action begins: queues, QPs, held completions and waiting work go, the NVMe controller is reset, the page keeps
only its state and its assignment. `gone`: the function ends ABSENT. -/
def startReset (t f : Nat) (gone : Bool) (s : State) : State :=
  let p := pFUNC f
  let s := silence f (dropFreeze f s)
  let s := { s with cmds := s.cmds.filter (fun c => c.func != f), pairs := s.pairs.filter fun e => e.1 / 64 != f }
  let s := (qpsOf s f).foldl (fun s e => if e.2.ty = 2 ∨ e.2.acc ∨ e.2.state = 4 then s
    else if e.2.state = 1 then absentQp e.1 s else leaveQp e.1 0 s) s
  let held := enumFrom 0 s.held
  let mine := held.filter fun e => e.2.1 == f
  let s := { s with
    held := s.held.filter (fun e => e.1 != f)
    heldData := ((enumFrom 0 s.heldData).filter fun e => !(mine.any fun m => m.1 == e.1)).map (·.2) }
  let s := zeroWindow f (resetCtrl f s)
  let s := resetPage s p [R.BLK_STAT, R.FUNC.RES_QP, R.FUNC.RES_SUB, R.FUNC.RES_WIN, R.FUNC.RES_SVC]
  let s := clearAgreement f (setBlkState s p 4)
  modFn f (fun x => { FuncX.reset with bme := x.bme, cto := x.cto, tag10 := x.tag10, tag14 := x.tag14, relaxed := x.relaxed, resetAt := some t, gone := gone }) s

/-- FUNC_RESET: ORPHAN_CTL with ACTION = 2 in ORPHAN. -/
def execFuncReset (t func : Nat) (s : State) : Host.Outcome State Fault Refusal :=
  .next <|
    let s := atTime t s
    if func < 1012 ∧ blkState s (pFUNC func) = 0x80 then startReset t func false s else s

/-- The function is a PF, or a VF that its PF's VF Enable and NumVFs present (R355). -/
def vfOn (s : State) (f : Nat) : Bool :=
  decide (f < 4) || (List.range 4).any fun pf => s.host.vfEnable.getD pf false && (vfsOf s pf (s.host.numVfs.getD pf 0)).contains f

/-- FUNC_RESET_DONE: the action ends, at most 2 ms after it began, in DISABLED; a VF that is not present is ABSENT (R355,
R369, R374). -/
def execFuncResetDone (t func : Nat) (s : State) : Host.Outcome State Fault Refusal :=
  .next <|
    let s := atTime t s
    let x := getFn s func
    if blkState s (pFUNC func) ≠ 4 ∨ x.resetAt.isNone then s
    else putFn func { x with resetAt := none, gone := false } (setBlkState s (pFUNC func) (if x.gone ∨ ¬ vfOn s func then 0x82 else 0))

/-- VF_DISABLE: VF Enable written 0 (R368, R369). -/
def vfDisable (t pf : Nat) (s : State) : State :=
  let n := s.host.numVfs.getD pf 0
  let s := setHost s fun h => { h with vfEnable := h.vfEnable.set pf false }
  (vfsOf s pf n).foldl (fun s f => if blkState s (pFUNC f) = 0x82 then s else startReset t f true s) s

def execVfDisable (t pf : Nat) (s : State) : Host.Outcome State Fault Refusal :=
  .next <|
    let s := atTime t s
    if pf < 4 ∧ s.host.vfEnable.getD pf false then vfDisable t pf s else s

/-- VF_ENABLE: VF Enable written 1 with NumVFs: those VFs leave ABSENT (R355). -/
def execVfEnable (t pf num : Nat) (s : State) : Host.Outcome State Fault Refusal :=
  .next <|
    let s := atTime t s
    if 4 ≤ pf ∨ totalVfs s pf < num ∨ s.host.vfEnable.getD pf true then s
    else
      let s := setHost s fun h => { h with vfEnable := h.vfEnable.set pf true, numVfs := h.numVfs.set pf num }
      (vfsOf s pf num).foldl (fun s f =>
        let s := modFn f (fun x => { x with gone := false }) s
        if blkState s (pFUNC f) = 0x82 then setBlkState s (pFUNC f) 0 else s) s

/-! ### FLR, Bus Master Enable, links (R36, R38, R353, R368 to R371, R605) -/

/-- FLR: silencing, configuration reset, ORPHAN with cause 3, and the agreement cleared. Reset of a PF also clears its VF
Enable. -/
def execFlr (t func : Nat) (s : State) : Host.Outcome State Fault Refusal :=
  .next <|
    let s := atTime t s
    if 1012 ≤ func then s
    else
      let abi := agreement s func
      let st := blkState s (pFUNC func)
      let l := hostLink s func
      let s := clearConfig func (silence func s)
      let s := penBit (pFUNC func) 5 (penBit (pHOST l) 3 (hostCount l 4 s))
      let s := if func < 4 ∧ s.host.vfEnable.getD func false then vfDisable t func s else s
      let s := if st = 4 then modFn func (fun x => { x with resetAt := some t }) s
        else if st = 1 ∨ st = 2 ∨ st = 0x81 then enterOrphan func 3 abi s
        else if st = 0 then dropFreeze func s
        else s
      clearAgreement func s

/-- BUS_MASTER_DISABLE: Bus Master Enable written 0 (R368, R370, R381). -/
def execBusMasterDisable (t func : Nat) (s : State) : Host.Outcome State Fault Refusal :=
  .next <|
    let s := atTime t s
    if 1012 ≤ func then s
    else
      let s := silence func (modFn func (fun x => { x with bme := false }) s)
      let st := blkState s (pFUNC func)
      if st = 1 ∨ st = 2 ∨ st = 0x81 then enterOrphan func 5 (agreement s func) s else s

/-- CONFIG_REQUEST: Configuration Request Retry Status until firmware is ready, at the latest 1,000 ms after the later of
the reset release and the rise of PERST (R36); a domain that is not running has no firmware that serves it. A write that is served may set Bus Master Enable, which ends a silencing that
nothing else keeps up, the completion timeout, ns, and the enables of R359 and R360 (R353, R368). -/
def execConfigRequest (t link func : Nat) (bme : Bool) (w : CfgWrite) (s : State) : Host.Outcome State Fault Refusal :=
  .next <|
    let s := atTime t s
    let by_ := max s.power.releaseAt (s.power.perstAt.getD link 0) + 1000 * 1000000
    if s.power.phase ≠ .running ∨ ¬ (s.power.fwReady.getD link false ∨ by_ ≤ t) then emit (.config link true) s
    else
      let s := emit (.config link false) s
      if 1012 ≤ func ∨ hostLink s func ≠ link then s
      else
        let s := modFn func (fun x => { x with
          cto := (match w.cto with | some n => if n = 0 then 10000000 else max 50000 (min 10000000 n) | none => x.cto)
          tag10 := w.tag10.getD x.tag10, tag14 := w.tag14.getD x.tag14, relaxed := w.relaxed.getD x.relaxed }) s
        if ¬ bme then s
        else
          let s := modFn func (fun x => { x with bme := true }) s
          let st := blkState s (pFUNC func)
          if st = 0x80 ∨ st = 4 ∨ st = 0x82 then s else unsilence func s

/-- HOST_LINK_UP: the data link comes up with a rate code and a width (R605). -/
def execHostLinkUp (t link rate width : Nat) (s : State) : Host.Outcome State Fault Refusal :=
  .next <|
    let s := atTime t s
    if ¬ pagePresent s (pHOST link) ∨ link ≥ 2 then s
    else penBit (pHOST link) 0 (setRegN s (pHOST link) R.HOST.LINK_STAT
      (2 ^ 11 + (if 6 ≤ rate then 2 ^ 10 else 0) + width % 64 * 16 + rate % 16))

/-- HOST_LINK_DOWN: the link's functions are silenced; RUNNING and STOPPING ones enter ORPHAN with cause 2. -/
def execHostLinkDown (t link : Nat) (s : State) : Host.Outcome State Fault Refusal :=
  .next <|
    let s := atTime t s
    if link ≥ 2 ∨ fld s (pHOST link) R.HOST.LINK_STAT 11 1 = 0 then s
    else
      let s := penBit (pHOST link) 1 (hostCount link 5 (setRegN s (pHOST link) R.HOST.LINK_STAT 0))
      (linkFuncs s link).foldl (fun s f =>
        if blkState s (pFUNC f) = 0x82 then s else orphanRunning f 2 (agreement s f) (silence f s)) s

/-- Fields of a FUNC page that a host reset keeps (R371); the silencing stays with the state that asks for it. -/
def hostKeeps : List Nat := [R.BLK_STAT, R.FUNC.ORPHAN_STAT, R.FUNC.ORPHAN_TICK_LO, R.FUNC.ORPHAN_TICK_HI, R.FUNC.HELD,
  R.FUNC.RES_QP, R.FUNC.RES_SUB, R.FUNC.RES_WIN, R.FUNC.RES_SVC, R.FUNC.DMA_STAT]

/-- A host reset of a link: its pages return to their reset values, its tags end, and its functions enter ORPHAN with cause
4, which only RESET leaves (R38, R361, R371). What the entries to ORPHAN record is not lost to the reset. -/
def hostReset (link : Nat) (s : State) : State :=
  let fs := linkFuncs s link
  let abis := fs.map fun f => agreement s f
  let s := setHost (resetPage s (pHOST link) []) fun h => { h with
    quar := h.quar.filter (fun e => e.1 / 65536 != link)
    numVfs := (enumFrom 0 h.numVfs).map fun e => if hostLink s e.1 = link then 0 else e.2
    vfEnable := (enumFrom 0 h.vfEnable).map fun e => if hostLink s e.1 = link then false else e.2 }
  (fs.zip abis).foldl (fun s e =>
    let f := e.1
    let st := blkState s (pFUNC f)
    if st = 0x82 then resetPage s (pFUNC f) hostKeeps
    else
      let s := resetPage (silence f (clearConfig f s)) (pFUNC f) hostKeeps
      let s := modFn f (fun x => { x with dirty := none }) s
      let s := if 4 ≤ f ∧ st = 0 then setBlkState s (pFUNC f) 0x82 else orphanRunning f 4 e.2 s
      if blkState s (pFUNC f) = 0x80 then setFld s (pFUNC f) R.FUNC.ORPHAN_STAT 4 1 1
      else setFld s (pFUNC f) R.FUNC.ORPHAN_STAT 4 1 0) s

/-- PERST: PERST_A_N or PERST_B_N falls. -/
def execPerst (t link : Nat) (s : State) : Host.Outcome State Fault Refusal :=
  .next <|
    let s := atTime t s
    if 2 ≤ link ∨ ¬ pagePresent s (pHOST link) then s
    else hostReset link { s with power := { s.power with fwReady := s.power.fwReady.set link false } }

/-- PERST_DEASSERT: the signal rises; firmware readiness is bounded from here (R36). -/
def execPerstDeassert (t link : Nat) (s : State) : Host.Outcome State Fault Refusal :=
  .next <|
    let s := atTime t s
    if 2 ≤ link then s else { s with power := { s.power with perstAt := s.power.perstAt.set link t } }

/-- HOT_RESET: acts as a host reset of the link (R354). -/
def execHotReset (t link : Nat) (s : State) : Host.Outcome State Fault Refusal :=
  .next <|
    let s := atTime t s
    if 2 ≤ link ∨ ¬ pagePresent s (pHOST link) then s else hostReset link s

/-! ### Requests and tags (R360 to R362) -/

/-- COMPLETION_RECEIVE: a completion for function `func` with a tag: for a quarantined one it is late and frees the tag; for
one that is neither outstanding nor quarantined it is unexpected. `err`: 1 poisoned data, 2 an ECRC error; what the read was
for fails with the command that uses it. -/
def execCompletionReceive (t link func tag : Nat) (outstanding : Bool) (err : Nat) (s : State) : Host.Outcome State Fault Refusal :=
  .next <|
    let s := atTime t s
    if 2 ≤ link ∨ 65536 ≤ tag then s
    else
      let k := link * 65536 + tag
      match mget s.host.quar k with
      | some e =>
        let s := penBit (pHOST link) 5 (penBit (pFUNC e.1) 8 (hostCount link 1 s))
        setHost s fun h => { h with quar := mdel h.quar k }
      | none =>
        if outstanding then
          (if err = 1 then hostCount link 6 s else if err = 2 then hostCount link 7 s else s)
        else emit (.pcie link "UnexpectedCompletion" [func, tag]) (hostCount link 3 s)

/-- A read that failed is answered to the engine that issued it (R362, R397). -/
def failRead (f : Nat) (e : ReadEngine) (s : State) : State :=
  match e with
  | .svc q => match getPair s f q with
    | some p => if p.state = 1 then setPair s f q { p with state := 3 } else s
    | none => s
  | .rmt q i => failWr q (some i) 0x0B s
  | .nvmeQueue => nvmeFetchFail f (putCtrl f { getCtrl s f with cfs := true } s)
  | .nvmeCmd sq cid => match findNCmd s f sq cid with
    | some c => if (mget s.flash.begun c.num).isSome then s else endNvme f c nv.TRANSFER 0 (nvmeFetchFail f s)
    | none => s
  | .feed link tag =>
    sendPkt link { vc := 2, h := [3 + 2 * 256 + tag % 4096 * 2 ^ 16, 0, 0, 0], data := [], ref := .plain } s

/-- Tags a function's requests may use: 14-bit in FLIT mode, 10-bit, or 8-bit ones (R360). -/
def tagSpace (s : State) (f : Nat) : Nat :=
  let x := getFn s f
  if fld s (pHOST (hostLink s f)) R.HOST.LINK_STAT 10 1 = 1 ∧ x.tag14 then 2 ^ 14 else if x.tag10 then 2 ^ 10 else 2 ^ 8

/-- CPL_TIMEOUT: a read issued at `issued` is still incomplete the function's completion timeout later (R361). -/
def execCplTimeout (t func tag issued : Nat) (engine : ReadEngine) (s : State) : Host.Outcome State Fault Refusal :=
  .next <|
    let s := atTime t s
    let x := getFn s func
    let l := hostLink s func
    let k := l * 65536 + tag
    if 1012 ≤ func ∨ tagSpace s func ≤ tag ∨ t < issued + x.cto ∨ (mget s.host.quar k).isSome then s
    else
      let s := emit (.pcie l "CompletionTimeout" [func]) (hostCount l 0 s)
      let s := errInfo (pHOST l) 1 func (penBit (pHOST l) 4 (penBit (pFUNC func) 7 s))
      failRead func engine (setHost s fun h => { h with quar := mput h.quar k (func, t + x.cto) })

/-- QUARANTINE_EXPIRY. -/
def execQuarantineExpiry (t link tag : Nat) (s : State) : Host.Outcome State Fault Refusal :=
  .next <|
    let s := atTime t s
    let k := link * 65536 + tag
    match mget s.host.quar k with
    | some e => if t < e.2 then s else hostCount link 2 (setHost s fun h => { h with quar := mdel h.quar k })
    | none => s

/-- HOST_WINDOW_ACCESS: `data` written, or a read of `len` bytes; beyond the allotment nothing is written, a read returns 0,
and WIN_ERR is set (R357). -/
def execHostWindowAccess (func off len : Nat) (data : Option (List Byte)) (s : State) : Host.Outcome State Fault Refusal :=
  .next <|
    let n := match data with | some l => l.length | none => len
    if 1012 ≤ func then s
    else
      let answer (b : List Byte) (s : State) : State :=
        if data.isSome then s else emit (.pcie (hostLink s func) "Completion" (b.map (·.toNat))) s
      if windowHas s func off n then
        match data with
        | some l => windowPut func off l s
        | none => answer (windowRead s func off n) (dramTouch (Config.winBase func + off) n s)
      else answer (List.replicate n 0) (penBit (pFUNC func) 2 s)

/-- ATS_INVALIDATE: the invalidation is completed; no request in flight uses the translation between commands (R353). -/
def execAtsInvalidate (t link itag : Nat) (s : State) : Host.Outcome State Fault Refusal :=
  .next (if 2 ≤ link then atTime t s else emit (.pcie link "InvalidateCompletion" [itag]) (atTime t s))

/-- DOE_DISCOVERY: protocol `index` of PF0's mailbox: DOE Discovery, CMA/SPDM, Secured CMA/SPDM (vendor 1, types 0 to 2), and
the index of the next, 0 after the last (R353). -/
def execDoeDiscovery (index : Nat) (s : State) : Host.Outcome State Fault Refusal :=
  .next (emit (.pcie 0 "DOE" (if index ≤ 2 then [1, index, (index + 1) % 3] else [0xFFFF, 0, 0])) s)

/-! ### Heartbeats, adoption, grace (R370 to R373) -/

/-- HEARTBEAT: any write restarts the timer. -/
def execHeartbeat (t func : Nat) (v : Dword) (s : State) : Host.Outcome State Fault Refusal :=
  .next <|
    let s := atTime t s
    if 1012 ≤ func then s else modFn func (fun x => { x with hbAt := t }) (setReg s (pFUNC func) R.FUNC.HEARTBEAT v)

/-- The heartbeat timeout in force, ns: 0 none; 1 to 99 ms act as 100 ms. -/
def hbLimit (s : State) (f : Nat) : Nat :=
  let ms := fld s (pFUNC f) R.FUNC.HB_CFG 0 16
  (if ms = 0 then 0 else max 100 ms) * 1000000

/-- HEARTBEAT_TIMEOUT: the check at step 7 of the tick edge that has just happened, after its other actions. -/
def execHeartbeatTimeout (func : Nat) (s : State) : Host.Outcome State Fault Refusal :=
  .next <|
    let st := blkState s (pFUNC func)
    if func < 1012 ∧ (st = 1 ∨ st = 2) ∧ hbLimit s func ≠ 0 ∧ (getFn s func).hbAt + hbLimit s func ≤ s.tick.edgeAt then
      enterOrphan func 1 (agreement s func) (silence func s)
    else s

/-- The vector of a held completion, where it sends one (R102, R373). -/
def heldVector (s : State) (e : Emit) : Option Nat :=
  match e with
  | .cqe _ q _ _ => some (1 + q)
  | .nvmeCqe f sq _ =>
    let x := getCtrl s f
    match mget x.sqs sq with
    | some q => match mget x.cqs q.cq with
      | some c => if c.ien then some c.vec else none
      | none => none
    | none => none
  | .rmtCqe q _ => (getQp s q).bind fun x => if x.vec = 0 then none else some x.vec
  | _ => none

/-- Held completions are written in completion order, each with its message (R373). -/
def replayHeld (f : Nat) (s : State) : State :=
  let all := s.held.zip s.heldData
  let mine := all.filter fun e => e.1.1 == f
  let rest := all.filter fun e => e.1.1 != f
  let s := { s with held := rest.map (·.1), heldData := rest.map (·.2) }
  mine.foldl (fun s e =>
    let s := postEntry f e.2.2.1 e.2.2.2.1 e.2.2.2.2 e.1.2 s
    match heldVector s e.1.2 with
    | some v => emitMsix f v s
    | none => s) s

/-- ADOPT: ORPHAN_CTL with ACTION = 1. -/
def execAdopt (t func abi : Nat) (s : State) : Host.Outcome State Fault Refusal :=
  .next <|
    let s := atTime t s
    let p := pFUNC func
    if 1012 ≤ func ∨ blkState s p ≠ 0x80 then s
    else if fld s p R.FUNC.ORPHAN_STAT 4 1 = 1 ∨ abi ≠ fld s p R.FUNC.ORPHAN_STAT 16 16 ∨ ¬ (getFn s func).bme then
      setFld s p R.FUNC.ORPHAN_STAT 5 1 1
    else
      let s := setAgreement func (2 ^ 31 + abi) (setFld s p R.FUNC.ORPHAN_STAT 5 1 0)
      let s := replayHeld func (unsilence func s)
      let s := modFn func (fun x => { x with hbAt := t }) (setFld s p R.FUNC.HELD 0 16 0)
      penBit p 4 (setBlkState s p 1)

/-- GRACE_END: stream sets pause and rings stop (R372). -/
def execGraceEnd (t : Nat) (s : State) : Host.Outcome State Fault Refusal :=
  .next <|
    let s := atTime t s
    let x := getFn s 0
    let g := fld s (pFUNC 0) R.FUNC.HB_CFG 16 16
    if blkState s (pFUNC 0) ≠ 0x80 ∨ x.graceDone ∨ g = 0xFFFF ∨ t < x.orphanAt + g * 10 ^ 9 then s
    else
      let s := setFoundry s fun f => { f with sets := f.sets.map fun e => if e.2.state = 2 then (e.1, pausedSet s e.2) else e }
      let s := { s with feed := { s.feed with rings := s.feed.rings.map fun e => if e.2.state = 2 then (e.1, stoppedRing e.2) else e } }
      penBit (pHOST 0) 6 (penBit (pFUNC 0) 9 (putFn 0 { x with graceDone := true } s))

/-- BAR offsets of a function that are assigned (R356); PF0's BAR0 is the page map. -/
def barAssigned (s : State) (f off : Nat) : Bool :=
  let doorbells := 8 * (1 + ioQueues f)
  let vectors := if f = 0 then 96 else 65
  let _ := s
  decide (off < 0x1000) || (decide (0x1000 ≤ off) && decide (off < 0x1000 + doorbells)) ||
    (f != 0 && decide (0x4000 ≤ off) && decide (off < 0x5000)) || (decide (0x8000 ≤ off) && decide (off < 0x8000 + 16 * vectors)) ||
    (decide (0xC000 ≤ off) && decide (off < 0xC010))

/-- BAD_ACCESS: in PF0's BAR0, recorded in GLB.BAD_ACCESS with the pennant (R91); at an offset of another BAR of a function that
is not assigned, its own pennant (R356). An access to the function's own FUNC page that is not an aligned 32-bit or 64-bit one is
recorded as R91 gives, at the page's offset in the map (log entry 161). -/
def execBadAccess (func : Option Nat) (addr size : Nat) (write : Bool) (s : State) : Host.Outcome State Fault Refusal :=
  .next <|
    match func with
    | some f =>
      if 1012 ≤ f then s
      else if ¬ barAssigned s f addr then penBit (pFUNC f) 1 s
      else if f ≠ 0 ∧ addr / 0x1000 = 4 ∧ ¬ alignedAccess addr size then recordBad (pageAt (pFUNC f) (addr % 0x1000)) write s
      else s
    | none => if badAccess s addr size then recordBad addr write s else s

end Sys2Proof.Machine
end

