-- ==== Sys2Proof/Machine/Migrate.lean ====
section
/-! DEFINITION. The function commands: assignment, freeze, save, restore, thaw, and the dirty-page log (chapter 10, R363 to
R367, R375 to R381, R410, R411). -/

namespace Sys2Proof.Machine

/-- A command of this table names a PF where only VFs are allowed (R365). -/
def pfNamed (c : SvcCmd) : Option Nat := if c.obj < 4 then some 4 else none

/-! ### Assignment (R363, R364) -/

/-- Two ranges in the layout of RES_QP share an index. -/
def rangesMeet (a b : Nat) : Bool :=
  a / 65536 != 0 && b / 65536 != 0 && decide (a % 65536 < b % 65536 + b / 65536) && decide (b % 65536 < a % 65536 + a / 65536)

/-- The ranges another function holds, or will hold: register offset `off`, parameter dword `k`. -/
def rangesOf (s : State) (f off k : Nat) : List Nat :=
  reg s (pFUNC f) off :: (match begunOn s 0x95 f with | some c => [c.d k] | none => [])

/-- Another function's range, in force or pending, overlaps one. -/
def overlaps (s : State) (f off k v : Nat) : Bool :=
  (List.range 1012).any fun g => g != f && (rangesOf s g off k).any fun w => rangesMeet v w

/-- MiB of window that a function's queues reach. -/
def windowNeed (s : State) (f : Nat) : Nat :=
  let top (loc base bytes : Nat) : Nat := if loc = 1 then base + bytes else 0
  let svc := (s.pairs.filter fun e => e.1 / 64 == f).map fun e =>
    max (top e.2.sqLoc e.2.sqBase (64 * e.2.sqDepth)) (top e.2.cqLoc e.2.cqBase (16 * e.2.cqDepth))
  let qps := (qpsOf s f).map fun e =>
    max (top e.2.loc e.2.sqBase (64 * 2 ^ e.2.sqLog)) (max (top e.2.loc e.2.rqBase (64 * 2 ^ e.2.rqLog)) (top e.2.loc e.2.cqBase (32 * 2 ^ e.2.cqLog)))
  ceilDiv ((svc ++ qps).foldl max 0) (2 ^ 20)

/-- The assignment would exclude something in use. -/
def inUse (s : State) (c : SvcCmd) : Bool :=
  let qps := qpsOf s c.obj
  (qps.any fun e => !(rangeHas (c.d 4) e.1) || !(rangeHas (c.d 5) e.2.sub)) ||
    (s.pairs.any fun e => e.1 / 64 == c.obj && decide (bitsOf (c.d 7) 0 7 ≤ e.1 % 64)) || decide (c.d 6 < windowNeed s c.obj)

/-- Window allotments of all functions, with pending ones, when function `f` gets `mib`. -/
def windowSum (s : State) (f mib : Nat) : Nat :=
  ((List.range 1012).map fun g =>
    if g = f then mib
    else max (fld s (pFUNC g) R.FUNC.RES_WIN 0 17) (match begunOn s 0x95 g with | some c => c.d 6 | none => 0)).sum

/-- FUNC_ASSIGN: applied at step 7 of the next edge; one that finds another pending for the same function waits. -/
def execFuncAssign (k : CmdRef) (s : State) : Host.Outcome State Fault Refusal :=
  .next <|
    match findCmd s k with
    | none => s
    | some c =>
      if c.op = 0x95 ∧ (begunOn s 0x95 c.obj).isSome then s
      else runSvc k 0x95
        (fun c _ =>
          if 16384 < c.d 4 % 65536 + c.d 4 / 65536 then some 16
          else if 1024 < c.d 5 % 65536 + c.d 5 / 65536 then some 20
          else if bitsOf (c.d 7) 0 7 = 0 ∨ 64 < bitsOf (c.d 7) 0 7 then some 28
          else none) noFence
        (fun c s =>
          let st' := blkState s (pFUNC c.obj)
          if st' = 2 ∨ st' = 4 then .done st.STATE_CONFLICT 0 s
          else if overlaps s c.obj R.FUNC.RES_QP 4 (c.d 4) ∨ overlaps s c.obj R.FUNC.RES_SUB 5 (c.d 5) then .done 0xB0 0 s
          else if inUse s c then .done 0xB1 0 s
          else if 65536 < windowSum s c.obj (c.d 6) then .done st.NO_RESOURCE 0 s
          else .wait s) s

/-! ### Freeze (R375, R376) -/

/-- FUNC_FREEZE: acts at step 7 of the next edge. -/
def execFuncFreeze (k : CmdRef) (s : State) : Host.Outcome State Fault Refusal :=
  .next <| runSvc k 0x96
    (fun c _ => match pfNamed c with
      | some o => some o
      | none => if c.d 4 = 0 ∨ 10000 < c.d 4 then some 16 else none) noFence
    (fun c s =>
      let st' := blkState s (pFUNC c.obj)
      if ¬ (st' = 0 ∨ st' = 1) ∨ (begunOn s 0x96 c.obj).isSome then .done st.STATE_CONFLICT 0 s
      else .wait (modFn c.obj (fun x => { x with freezeBy := some (s.now + c.d 4 * 1000000) }) s)) s

/-- No work of the function is in hand, every packet it sent is acknowledged, and nothing is missing below what its QPs have
received (R375). -/
def drained (s : State) (f : Nat) : Bool :=
  s.cmds.all (fun c => c.func != f) && (getCtrl s f).cmds == [] &&
    (qpsOf s f).all fun e => e.2.tx == [] && e.2.got == [] && e.2.sq.all fun w => !w.begun

/-- The function and its QPs are FROZEN. -/
def freezeNow (f : Nat) (s : State) : State :=
  let former := blkState s (pFUNC f)
  let s := (qpsOf s f).foldl (fun s e =>
    if e.2.state = 1 ∨ e.2.state = 2 ∨ e.2.state = 3 then putQp e.1 { e.2 with state := 5, target := e.2.state } s else s) s
  let s := modFn f (fun x => { x with former := former, freezing := false, freezeBy := none, revert := false }) s
  setBlkState s (pFUNC f) 0x81

/-! ### Save (R378, R379, R410) -/

/-- A section: its 16-byte opening and its body, a multiple of 8 bytes. -/
def blobSection (ty count : Nat) (body : List Byte) : List Byte :=
  let body := body ++ List.replicate ((8 - body.length % 8) % 8) 0
  leBytes 2 ty ++ leBytes 2 1 ++ leBytes 4 (16 + body.length) ++ leBytes 4 count ++ leBytes 4 0 ++ body

def zeros (n : Nat) : List Byte := List.replicate n 0

/-- A service queue pair's record. -/
def pairRecord (q : Nat) (p : QPair) : List Byte :=
  leBytes 1 q ++ leBytes 1 p.state ++ zeros 2 ++
    leBytes 4 (p.sqDepth - 1 + p.sqLoc * 2 ^ 12 + (p.cqDepth - 1) * 2 ^ 16 + p.cqLoc * 2 ^ 29) ++ leBytes 8 p.sqBase ++
    leBytes 8 p.cqBase ++ leBytes 2 p.sqHead ++ leBytes 2 p.sqTail ++ leBytes 2 p.cqHead ++ leBytes 2 p.cqTail ++
    leBytes 1 (if p.phase then 1 else 0) ++ zeros 15

/-- The phase bit a QP's next completion carries (R104, R323). -/
def qpPhase (x : Qp) : Nat := if (x.cqTail / qpDepth x.cqLog) % 2 = 0 then 1 else 0

/-- A QP's record. -/
def qpRecord (base q : Nat) (x : Qp) : List Byte :=
  leBytes 4 (q - base + x.target * 2 ^ 24) ++
    leBytes 4 (x.ty + x.loc * 4 + (if x.acc then 8 else 0) + x.accPort * 16) ++ leBytes 8 x.sqBase ++ leBytes 8 x.rqBase ++
    leBytes 8 x.cqBase ++ leBytes 4 (x.sqLog + x.rqLog * 16 + x.cqLog * 256) ++
    leBytes 4 (x.sub + x.cls * 2 ^ 10 + x.vec * 2 ^ 13) ++
    leBytes 2 (x.sqNext + 65536 - x.sq.length) ++ leBytes 2 x.sqTail ++ leBytes 2 (x.rqNext + 65536 - x.rq.length) ++
    leBytes 2 x.rqTail ++ leBytes 2 x.cqHead ++ leBytes 2 x.cqTail ++ leBytes 4 (qpPhase x) ++ leBytes 4 x.psn ++
    leBytes 4 x.expect ++ leBytes 4 x.msn ++ leBytes 4 x.rxMsn ++ leBytes 4 x.sqDone ++ leBytes 4 x.rqDone ++
    leBytes 4 (x.rate / 100) ++ leBytes 4 (x.portMask + (x.paths - 1) * 2 ^ 16 + (if x.ipv6 then 2 ^ 20 else 0)) ++
    leBytes 4 x.remote ++ leBytes 4 (x.part + x.udpBase * 2 ^ 16) ++
    (if x.ipv6 then leBytes 4 (x.ip / 2 ^ 96) ++ leBytes 4 (x.ip / 2 ^ 64) ++ leBytes 4 (x.ip / 2 ^ 32) ++ leBytes 4 x.ip
     else leBytes 4 x.ip ++ zeros 12) ++ zeros 16

/-- The NVMe controller's records: the controller, its I/O queues, the attached NSIDs (R410). -/
def nvmeRecords (s : State) (f : Nat) : Nat × List Byte :=
  let x := getCtrl s f
  let a := (mget x.sqs 0).getD ⟨0, 0, 0, 0, 0, 0⟩
  let ac := (mget x.cqs 0).getD ⟨0, 0, 0, false, 0, 0, false, 0, 0, []⟩
  let ids := nsOf s f
  let ctrl := leBytes 4 x.cc ++ leBytes 4 x.aqa ++ leBytes 8 x.asq ++ leBytes 8 x.acq ++ leBytes 4 x.intms ++ leBytes 2 a.head ++
    leBytes 2 a.tail ++ leBytes 2 ac.head ++ leBytes 1 (if ac.phase then 1 else 0) ++ leBytes 1 x.aers.length ++ leBytes 4 x.arb ++
    leBytes 4 x.coal ++ leBytes 4 x.asyncCfg ++ leBytes 4 x.nq ++ leBytes 4 ids.length ++ zeros 8
  let rec_ (id kind pv size head tail phase base cq : Nat) : List Byte :=
    leBytes 2 id ++ leBytes 1 kind ++ leBytes 1 pv ++ leBytes 2 size ++ leBytes 2 head ++ leBytes 2 tail ++ leBytes 1 phase ++
      zeros 5 ++ leBytes 8 base ++ leBytes 2 cq ++ zeros 6
  let sqs := (x.sqs.filter fun e => e.1 != 0).map fun e => rec_ e.1 0 e.2.prio e.2.size e.2.head e.2.tail 0 e.2.base e.2.cq
  let cqs := (x.cqs.filter fun e => e.1 != 0).map fun e =>
    rec_ e.1 1 e.2.vec e.2.size e.2.head e.2.tail (if e.2.phase then 1 else 0) e.2.base 0
  (1 + sqs.length + cqs.length, ctrl ++ sqs.flatten ++ cqs.flatten ++ ids.flatMap (leBytes 4))

/-- The save blob of a FROZEN function. -/
def saveBlob (s : State) (f : Nat) : List Byte :=
  let p := pFUNC f
  let fnBytes := leBytes 4 (reg s p R.BLK_CTL) ++ leBytes 4 (reg s p R.PENNANT_EN) ++ leBytes 4 (reg s p R.FUNC.DRV_ABI) ++
    leBytes 4 (reg s p R.FUNC.ABI_AGREED) ++ leBytes 4 (reg s p R.FUNC.HB_CFG) ++ zeros 44
  let msix := (List.range 264).flatMap fun i => leBytes 4 (mgetD s.host.msix (f * 1024 + (if i < 260 then i else 512 + i - 260)) 0).toNat
  let prs := s.pairs.filter fun e => e.1 / 64 == f
  let qps := qpsOf s f
  let base := fld s p R.FUNC.RES_QP 0 16
  let nv := nvmeRecords s f
  let win := windowRead s f 0 (fld s p R.FUNC.RES_WIN 0 17 * 2 ^ 20)
  let body := blobSection 1 1 fnBytes ++ blobSection 2 1 msix ++ blobSection 3 prs.length (prs.flatMap fun e => pairRecord (e.1 % 64) e.2) ++
    blobSection 4 qps.length (qps.flatMap fun e => qpRecord base e.1 e.2) ++ blobSection 5 nv.1 nv.2 ++ blobSection 6 1 win
  let head := leBytes 4 0x47494D45 ++ [1, 1] ++ leBytes 2 (bitsOf (reg s p R.FUNC.ABI_AGREED) 0 16) ++ leBytes 4 (64 + body.length) ++
    leBytes 2 6 ++ leBytes 2 f ++ leBytes 8 Config.unitId ++ leBytes 8 s.tick.count ++ leBytes 4 (reg s p R.FUNC.RES_QP) ++
    leBytes 4 (reg s p R.FUNC.RES_SUB) ++ leBytes 4 (reg s p R.FUNC.RES_WIN) ++ leBytes 1 (reg s p R.FUNC.RES_SVC) ++ zeros 15
  head ++ leBytes 4 (crc32c (head ++ zeros 4 ++ body)) ++ body

/-- FREEZE_DONE: nothing is left to drain: FROZEN, and the command completes with the bytes a save needs. -/
def execFreezeDone (t func : Nat) (s : State) : Host.Outcome State Fault Refusal :=
  .next <|
    let s := atTime t s
    if ¬ (getFn s func).freezing ∨ (getFn s func).revert ∨ ¬ drained s func then s
    else
      let s := freezeNow func s
      finishCmds (fun c => c.op == 0x96 && c.obj == func) st.OK (saveBlob s func).length s

/-- FREEZE_TIMEOUT: the limit has passed; the function returns to its former state at the next edge. -/
def execFreezeTimeout (t func : Nat) (s : State) : Host.Outcome State Fault Refusal :=
  .next <|
    let s := atTime t s
    let x := getFn s func
    match x.freezeBy with
    | none => s
    | some d =>
      if t < d then s
      else finishCmds (fun c => c.op == 0x96 && c.obj == func) st.TIMEOUT 0 (putFn func { x with freezeBy := none, revert := true } s)

/-- FUNC_SAVE. -/
def execFuncSave (k : CmdRef) (s : State) : Host.Outcome State Fault Refusal :=
  .next <| runSvc k 0x97 (fun c _ => pfNamed c) noFence
    (fun c s =>
      if blkState s (pFUNC c.obj) ≠ 0x81 then .done st.STATE_CONFLICT 0 s
      else
        let b := saveBlob s c.obj
        if c.d 6 < b.length then .done 0xB2 b.length s
        else .done st.OK b.length (dmaWrite c.func (c.d 7 % 2) (c.q 4) b s)) s

/-! ### Restore and thaw (R380, R381, R411) -/

/-- A section as read: type, version, count, body, and where the body begins. -/
structure BlobPart where
  ty : Nat
  version : Nat
  count : Nat
  body : List Byte
  at_ : Nat
  deriving DecidableEq, Repr

/-- The sections of a blob from offset `o`: at most `n`; none where they do not fit. -/
def blobParts (b : List Byte) : Nat → Nat → Option (List BlobPart)
  | 0, o => if o = b.length then some [] else none
  | n + 1, o =>
    let len := leAt b (o + 4) 4
    if len < 16 ∨ len % 8 ≠ 0 ∨ b.length < o + len then none
    else match blobParts b n (o + len) with
      | none => none
      | some r => some (⟨leAt b o 2, leAt b (o + 2) 2, leAt b (o + 8) 4, (b.drop (o + 16)).take (len - 16), o + 16⟩ :: r)

/-- A section whose type or version is not known. -/
def partUnknown (p : BlobPart) : Bool :=
  let ty := p.ty % 2 ^ 15
  ty == 0 || decide (6 < ty) || p.version != 1

def partOf (l : List BlobPart) (ty : Nat) : BlobPart :=
  (l.find? fun p => p.ty % 2 ^ 15 == ty && !(partUnknown p)).getD ⟨ty, 1, 0, [], 0⟩

/-- A service queue pair from its record. -/
def pairFrom (r : List Byte) : Nat × QPair :=
  let cfg := leAt r 4 4
  (leAt r 0 1, { newPair (leAt r 8 8) (leAt r 16 8) cfg with
    state := leAt r 1 1, sqHead := leAt r 24 2, sqTail := leAt r 26 2, cqHead := leAt r 28 2, cqTail := leAt r 30 2
    phase := leAt r 32 1 % 2 = 1 })

/-- A FROZEN QP from its record, with its subscriber at the same place in the target's range. -/
def qpFrom (f base oldSub newSub : Nat) (r : List Byte) : Nat × Qp :=
  let d (o : Nat) : Nat := leAt r o 4
  let c4 := d 4
  let c12 := d 0x24
  let n4 := d 0x54
  let ipv6 := bitOf n4 20
  (base + d 0 % 2 ^ 24, {
    state := 5, ty := bitsOf c4 0 2, loc := bitsOf c4 2 1, acc := bitOf c4 3, accPort := bitsOf c4 4 5, func := f
    sqBase := leAt r 8 8, rqBase := leAt r 0x10 8, cqBase := leAt r 0x18 8, sqLog := bitsOf (d 0x20) 0 4, rqLog := bitsOf (d 0x20) 4 4
    cqLog := bitsOf (d 0x20) 8 4, sub := bitsOf c12 0 10 + newSub - oldSub, cls := bitsOf c12 10 3, vec := bitsOf c12 13 7
    portMask := bitsOf n4 0 16, paths := bitsOf n4 16 4 + 1, ipv6 := ipv6, remote := bitsOf (d 0x58) 0 24
    part := bitsOf (d 0x5C) 0 16, udpBase := bitsOf (d 0x5C) 16 16
    ip := if ipv6 then d 0x60 * 2 ^ 96 + d 0x64 * 2 ^ 64 + d 0x68 * 2 ^ 32 + d 0x6C else d 0x60
    sqNext := leAt r 0x28 2, sqTail := leAt r 0x2A 2, rqNext := leAt r 0x2C 2, rqTail := leAt r 0x2E 2, cqHead := leAt r 0x30 2
    cqTail := leAt r 0x32 2, sq := [], rq := [], sqDone := d 0x48, rqDone := d 0x4C, psn := d 0x38, msn := d 0x40, tx := []
    rate := d 0x50 * 100, nextAt := 0, cutAt := none, cnp := false, rr := 0, path := List.replicate 16 0, expect := d 0x3C
    got := [], rxMsn := d 0x44, rxNew := 0, msgs := [], writes := [], since := 0, ackAt := none, nakAt := [], cnpAt := none
    flushes := [], quietTick := 0, target := d 0 / 2 ^ 24 })

/-- The records of a section, `n` bytes each. -/
def records (n : Nat) (p : BlobPart) : List (List Byte) := (List.range p.count).map fun i => (p.body.drop (i * n)).take n

/-- NSIDs that section 5 lists, with their blob offsets. -/
def blobNsids (p : BlobPart) : List (Nat × Nat) :=
  let at_ := 64 + 32 * (p.count - 1)
  (List.range (leAt p.body 0x34 4)).map fun i => (leAt p.body (at_ + 4 * i) 4, p.at_ + at_ + 4 * i)

/-- The NVMe controller as section 5 gives it. CIDs of outstanding event requests are not in the blob. -/
def nvmeFrom (f : Nat) (p : BlobPart) (s : State) : State :=
  let b := p.body
  if b = [] then s
  else
    let (cids, s) := (List.range (leAt b 0x23 1)).foldl (fun (a : List Nat × State) _ =>
      let (v, s) := freeVal a.2
      (a.1 ++ [v % 65536], s)) ([], s)
    let aqa := leAt b 4 4
    let asq : NSq := { base := leAt b 8 8, size := bitsOf aqa 0 12 + 1, prio := 0, cq := 0, head := leAt b 0x1C 2, tail := leAt b 0x1E 2 }
    let (ct, s) := freeVal s
    let acq : NCq := {
      base := leAt b 0x10 8, size := bitsOf aqa 16 12 + 1, vec := 0, ien := true, head := leAt b 0x20 2, tail := ct % (bitsOf aqa 16 12 + 1)
      phase := leAt b 0x22 1 % 2 = 1, held := 0, heldAt := 0, wait := [] }
    let recs := (List.range (p.count - 1)).map fun i => (b.drop (64 + 32 * i)).take 32
    let on := leAt b 0 4 % 2 = 1
    let x : Ctrl := { Ctrl.reset with
      cc := leAt b 0 4, rdy := on, aqa := aqa, asq := leAt b 8 8, acq := leAt b 0x10 8, intms := leAt b 0x18 4, aers := cids
      arb := leAt b 0x24 4, coal := leAt b 0x28 4, asyncCfg := leAt b 0x2C 4, nq := leAt b 0x30 4
      sqs := if on then [(0, asq)] else [], cqs := if on then [(0, acq)] else [] }
    putCtrl f (recs.foldl (fun x r =>
      let id := leAt r 0 2
      if leAt r 2 1 = 0 then
        let q : NSq := { base := leAt r 16 8, size := leAt r 4 2, prio := leAt r 3 1, cq := leAt r 24 2, head := leAt r 6 2, tail := leAt r 8 2 }
        { x with sqs := mput x.sqs id q }
      else
        let q : NCq := {
          base := leAt r 16 8, size := leAt r 4 2, vec := leAt r 3 1, ien := true, head := leAt r 6 2, tail := leAt r 8 2
          phase := leAt r 10 1 % 2 = 1, held := 0, heldAt := 0, wait := [] }
        { x with cqs := mput x.cqs id q }) x) s

/-- The state of a checked blob is placed. -/
def placeBlob (f : Nat) (b : List Byte) (l : List BlobPart) (s : State) : State :=
  let p := pFUNC f
  let fn := (partOf l 1).body
  let s := setRegN (setRegN s p R.BLK_CTL (leAt fn 0 4)) p R.PENNANT_EN (leAt fn 4 4)
  let s := setRegN (setRegN s p R.FUNC.DRV_ABI (leAt fn 8 4)) p R.FUNC.HB_CFG (leAt fn 16 4)
  let s := setAgreement f (leAt fn 12 4) s
  let mx := (partOf l 2).body
  let s := setHost (clearMsix f s) fun h => { h with
    msix := (List.range 264).foldl (fun m i => mputD m (f * 1024 + (if i < 260 then i else 512 + i - 260)) 0 (BitVec.ofNat 32 (leAt mx (4 * i) 4))) h.msix }
  let s := (records 48 (partOf l 3)).foldl (fun s r => setPair s f (pairFrom r).1 (pairFrom r).2) s
  let base := fld s p R.FUNC.RES_QP 0 16
  let sub := fld s p R.FUNC.RES_SUB 0 16
  let s := (records 128 (partOf l 4)).foldl (fun s r =>
    putQp (qpFrom f base (leAt b 0x24 2) sub r).1 (qpFrom f base (leAt b 0x24 2) sub r).2 s) s
  let s := windowPut f 0 (partOf l 6).body (nvmeFrom f (partOf l 5) s)
  modFn f (fun x => { x with hbAt := s.now }) s

/-- FUNC_RESTORE: `blob` is what host memory returns at the blob address. -/
def execFuncRestore (k : CmdRef) (blob : List Byte) (s : State) : Host.Outcome State Fault Refusal :=
  .next <| runSvc k 0x98 (fun c _ => pfNamed c) noFence
    (fun c s =>
      let p := pFUNC c.obj
      if blkState s p ≠ 0x81 then .done st.STATE_CONFLICT 0 s
      else
        let b := if bitOf (c.d 7) 0 then windowRead s c.func (c.q 4) (c.d 6) else blob.take (c.d 6)
        let total := leAt b 8 4
        let b := b.take total
        let whole := b.take 0x3C ++ zeros 4 ++ b.drop 0x40
        if leAt b 0 4 ≠ 0x47494D45 ∨ total < 64 ∨ b.length ≠ total ∨ leAt b 0x3C 4 ≠ crc32c whole then .done st.INTEGRITY 0 s
        else match blobParts b (leAt b 0x0C 2) 64 with
          | none => .done st.INTEGRITY 0 s
          | some l =>
            if leAt b 4 1 ≠ 1 ∨ leAt b 5 1 ≠ 1 ∨ l.any (fun x => partUnknown x && decide (x.ty < 2 ^ 15)) then .done st.VERSION 0 s
            else
              let bad : Option Nat :=
                if fld s p R.FUNC.RES_QP 0 16 ≠ leAt b 0x20 2 ∨ fld s p R.FUNC.RES_QP 16 16 < leAt b 0x22 2 then some 0x20
                else if fld s p R.FUNC.RES_SUB 16 16 < leAt b 0x26 2 then some 0x24
                else if reg s p R.FUNC.RES_WIN < leAt b 0x28 4 then some 0x28
                else if reg s p R.FUNC.RES_SVC < leAt b 0x2C 1 then some 0x2C
                else ((blobNsids (partOf l 5)).find? fun e => !((nsOf s c.obj).contains e.1)).map (·.2)
              match bad with
              | some o => .done 0xB3 o s
              | none =>
                if s.pairs.any (fun e => e.1 / 64 == c.obj) ∨ qpsOf s c.obj ≠ [] then .done 0xB1 0 s
                else .done st.OK 0 (placeBlob c.obj b l s)) s

/-- FUNC_THAW: acts at step 7 of the next edge. -/
def execFuncThaw (k : CmdRef) (s : State) : Host.Outcome State Fault Refusal :=
  .next <| runSvc k 0x99 (fun c _ => pfNamed c) noFence
    (fun c s =>
      if blkState s (pFUNC c.obj) ≠ 0x81 ∨ (begunOn s 0x99 c.obj).isSome then .done st.STATE_CONFLICT 0 s else .wait s) s

/-- The function commands' part of step 7: assignments, freezes that begin to act or are given up, and thaws. -/
def edgeFuncs (s : State) : State :=
  let s := (s.cmds.filter fun c => c.begun && c.op == 0x95).foldl (fun s c =>
    let p := pFUNC c.obj
    let s := setRegN (setRegN s p R.FUNC.RES_QP (c.d 4)) p R.FUNC.RES_SUB (c.d 5)
    let s := setRegN (setRegN s p R.FUNC.RES_WIN (c.d 6 % 2 ^ 17)) p R.FUNC.RES_SVC (bitsOf (c.d 7) 0 7)
    complete c st.OK 0 (penBit p 6 s)) s
  let s := s.host.funcs.foldl (fun s e =>
    if e.2.revert then putFn e.1 { e.2 with freezing := false, revert := false } s else s) s
  let s := (s.cmds.filter fun c => c.begun && c.op == 0x96).foldl (fun s c =>
    let st' := blkState s (pFUNC c.obj)
    if st' = 0 then
      let s := freezeNow c.obj s
      complete c st.OK (saveBlob s c.obj).length s
    else if st' = 1 ∧ ¬ (getFn s c.obj).freezing then
      let s := modFn c.obj (fun x => { x with freezing := true }) s
      (qpsOf s c.obj).foldl (fun s e =>
        let rest := e.2.sq.map fun w => if w.op = 5 ∧ w.begun ∧ w.status.isNone then { w with begun := false } else w
        putQp e.1 { e.2 with sq := rest } s) s
    else s) s
  (s.cmds.filter fun c => c.begun && c.op == 0x99).foldl (fun s c =>
    if blkState s (pFUNC c.obj) ≠ 0x81 then complete c st.ABORTED 0 s
    else
      let s := thawQps c.obj s
      let s := setBlkState s (pFUNC c.obj) (if fld s (pFUNC c.obj) R.BLK_CTL 0 1 = 1 then 1 else 0)
      complete c st.OK 0 s) s

/-! ### Dirty-page log (R377) -/

/-- A FUNC_DIRTY_LOG command of sub-operation `sub` (a value of none is refused with the first). -/
def dirtyOp (sub : Nat) (k : CmdRef) (inv : SvcCmd → State → Option Nat) (body : SvcCmd → FuncX → State → SvcEnd) (s : State) : State :=
  match findCmd s k with
  | none => s
  | some c =>
    let v := bitsOf (c.d 4) 0 2
    if c.op = 0x9A ∧ (if v = 3 then 0 else v) ≠ sub then s
    else runSvc k 0x9A (fun c s => if bitsOf (c.d 4) 0 2 = 3 then some 16 else inv c s) noFence
      (fun c s =>
        let st' := blkState s (pFUNC c.obj)
        if ¬ (st' = 1 ∨ st' = 0x80 ∨ st' = 0x81) then .done st.STATE_CONFLICT 0 s else body c (getFn s c.obj) s) s

/-- Bitmap bytes of all logs. -/
def logBytes (s : State) : Nat := (s.host.funcs.map fun e => match e.2.dirty with | some d => d.len / 32768 | none => 0).sum

/-- DIRTY_LOG_START. -/
def execDirtyLogStart (k : CmdRef) (s : State) : Host.Outcome State Fault Refusal :=
  .next <| dirtyOp 0 k
    (fun c _ =>
      if c.q 5 % 4096 ≠ 0 then some 20
      else if c.q 7 % 32768 ≠ 0 ∨ c.q 7 = 0 ∨ 2 ^ 44 < c.q 7 then some 28
      else if c.d 9 ≠ 0 then some 36
      else none)
    (fun c x s =>
      let own := match x.dirty with | some d => d.len / 32768 | none => 0
      if 2 ^ 29 < c.q 7 / 32768 ∨ 2 ^ 32 < logBytes s - own + c.q 7 / 32768 then .done st.NO_RESOURCE 0 s
      else
        let s := putFn c.obj { x with dirty := some { base := c.q 5, len := c.q 7, pages := [] } } s
        .done st.OK 0 (setRegN s (pFUNC c.obj) R.FUNC.DIRTY_STAT (2 ^ 31))) s

/-- Bits of pages `first` to `first + n` as bytes. -/
def pageBits (pages : List Nat) (first n : Nat) : List Byte :=
  (List.range (n / 8)).map fun i =>
    BitVec.ofNat 8 (((List.range 8).map fun b => if pages.contains (first + 8 * i + b) then 2 ^ b else 0).sum)

/-- DIRTY_LOG_SYNC. -/
def execDirtyLogSync (k : CmdRef) (s : State) : Host.Outcome State Fault Refusal :=
  .next <| dirtyOp 1 k
    (fun c s =>
      let len := match (getFn s c.obj).dirty with | some d => d.len / 4096 | none => 2 ^ 64
      if c.d 7 % 8 ≠ 0 then some 28
      else if c.d 8 % 8 ≠ 0 ∨ len < c.d 7 + c.d 8 then some 32
      else none)
    (fun c x s =>
      match x.dirty with
      | none => .done st.STATE_CONFLICT 0 s
      | some d =>
        let b := pageBits d.pages (c.d 7) (c.d 8)
        let left := d.pages.filter fun p => !(decide (c.d 7 ≤ p) && decide (p < c.d 7 + c.d 8))
        .done st.OK 0 (dmaWrite c.func (c.d 9 % 2) (c.q 5) b (putFn c.obj { x with dirty := some { d with pages := left } } s))) s

/-- DIRTY_LOG_STOP. -/
def execDirtyLogStop (k : CmdRef) (s : State) : Host.Outcome State Fault Refusal :=
  .next <| dirtyOp 2 k
    (fun c _ => ([5, 6, 7, 8, 9].find? fun i => c.d i != 0).map fun i => 4 * i)
    (fun c x s =>
      match x.dirty with
      | none => .done st.STATE_CONFLICT 0 s
      | some _ =>
        .done st.OK 0 (setFld (putFn c.obj { x with dirty := none } s) (pFUNC c.obj) R.FUNC.DIRTY_STAT 31 1 0)) s

end Sys2Proof.Machine
end

