-- ==== Sys2Proof/Machine/Ckpt.lean ====
section
/-! DEFINITION. The checkpoint group and capture sessions (chapter 13): forming and shrinking the group, capture over the
feed links, striping with parity, manifests, and commit. -/

namespace Sys2Proof.Machine

abbrev ck.STEP_FAILED : Nat := 0xC0
abbrev ck.BUSY : Nat := 0xC1
abbrev ck.MISMATCH : Nat := 0xC2
abbrev ck.EXISTS : Nat := 0xC3
abbrev ck.NO_STEP : Nat := 0xC4
abbrev ck.SHORT : Nat := 0xC5

def setCkpt (s : State) (f : Ckpt → Ckpt) : State := { s with ckpt := f s.ckpt }

def ckCount (i n : Nat) (s : State) : State := addReg s pCKPT (R.CKPT.COUNT + 4 * i) n

def getSess (s : State) (i : Nat) : Option CkSession := mget s.ckpt.sessions i

def putSess (i : Nat) (x : CkSession) (s : State) : State := setCkpt s fun c => { c with sessions := mput c.sessions i x }

/-- The group state: BLK_STAT.STATE while CKPT is enabled (R439); while it is STOPPING, what the group is (R88). -/
def ckptMode (s : State) : Nat :=
  if blkState s pCKPT = 2 then
    (match s.ckpt.group with
     | some g => if g.formed then 0x82 else 0x81
     | none => 0x80)
  else blkState s pCKPT

def setCkptMode (v : Nat) (s : State) : State := if blkState s pCKPT = 2 then s else setBlkState s pCKPT v

/-- The checkpoint service runs: CKPT is enabled, or STOPPING with work in hand, and not fenced (R88, R439). -/
def ckptOn (s : State) : Bool := 0x80 ≤ ckptMode s && ckptMode s ≤ 0x82

def ckFenced : SvcCmd → State → Bool := fun _ s => blkFenced s pCKPT

def ownUnit (s : State) : Nat := reg64 s pMSS R.MSS.UNIT_ID_LO

/-! ### Messages (R441) -/

/-- The rank of a UNIT_ID in the current group. -/
def ckRank (g : CkGroup) (uid : Nat) : Option Nat := ((enumFrom 0 g.members).find? fun e => e.2.uid == uid).map (·.1)

def ckUid (g : CkGroup) (rank : Nat) : Option Nat := (g.members[rank]?).map (·.uid)

/-- A message's 32-byte header. -/
def ckHeader (g : CkGroup) (ty step src unit stripe len : Nat) : List Byte :=
  leBytes 1 ty ++ leBytes 1 1 ++ leBytes 2 g.rank ++ leBytes 4 g.id ++ leBytes 8 step ++ leBytes 2 src ++ leBytes 2 unit ++
    leBytes 4 stripe ++ leBytes 4 len ++ leBytes 4 0

/-- Sends a message to the member at `rank`, as a SEND on its group QP. -/
def ckSend (rank ty step src unit stripe : Nat) (body : List Byte) (s : State) : State :=
  match s.ckpt.group with
  | none => s
  | some g =>
    match g.members[rank]? with
    | none => s
    | some m =>
      match getQp s m.qp with
      | none => s
      | some x =>
        if rank = g.rank ∨ x.state ≠ 2 then s
        else
          let b := ckHeader g ty step src unit stripe body.length ++ body
          let s := putQp m.qp { x with msn := (x.msn + 1) % 2 ^ 32 } (emit (.ckpt rank "SEND" (b.map (·.toNat))) s)
          addTx m.qp (splitTx (classPayload s x.cls) 1 0 x.msn 0 0 0 b none) s

/-- Sends a message to every other member that `to` picks by rank. -/
def ckTell (who : Nat → Bool) (ty step src : Nat) (body : List Byte) (s : State) : State :=
  match s.ckpt.group with
  | none => s
  | some g => forN g.members.length s fun r s => if r ≠ g.rank ∧ who r then ckSend r ty step src 0 0 body s else s

/-- A message arrives: one of another group or format is discarded (R441); else `f` takes it with the group and the UNIT_ID at
the sender's rank, none where no member has that rank. -/
def ckTake (t : Nat) (m : CkMsg) (f : CkGroup → Option Nat → State → State) (s : State) : State :=
  let s := atTime t s
  if ¬ ckptOn s then s
  else match s.ckpt.group with
    | none => rmtCount 7 s
    | some g => if m.group ≠ g.id ∨ m.format ≠ 1 then rmtCount 7 s else f g (ckUid g m.sender) s

/-- A message of a member arrives (R441). -/
def ckRecv (t : Nat) (m : CkMsg) (f : CkGroup → Nat → State → State) (s : State) : State :=
  ckTake t m (fun g own s => match own with | some uid => f g uid s | none => s) s

/-! ### The group (R436 to R440, R466) -/

/-- The first offending field of a group descriptor (R436, R437). -/
def groupOffence (s : State) (b : List Byte) : Option Nat :=
  let p := leAt b 1 1
  let n := leAt b 2 2
  let rank := leAt b 4 2
  let slotOk : Bool := match getSlot s (leAt b 0xC 2) with
    | some x => x.state == 1 && keyType x == 3
    | none => false
  let member (r : Nat) : Option Nat :=
    let o := 0x20 + 16 * r
    let qp := leAt b (o + 8) 3
    let qpOk : Bool := match getQp s qp with
      | some x => x.ty == 0 && x.state == 2 && qpInRange s 0 qp
      | none => false
    if r = rank ∧ leAt b o 8 ≠ ownUnit s then some o
    else if r ≠ rank ∧ ¬ qpOk then some (o + 8)
    else if leAt b (o + 11) 1 ≠ 0 then some (o + 11)
    else if leAt b (o + 12) 4 ≠ 0 then some (o + 12)
    else none
  if leAt b 0 1 ≠ 1 then some 0
  else if p ≠ 1 ∧ p ≠ 2 then some 1
  else if n < 3 ∨ 1024 < n ∨ (p = 2 ∧ 257 < n) then some 2
  else if n ≤ rank then some 4
  else if ¬ [256, 512, 1024, 2048, 4096].contains (leAt b 6 2) then some 6
  else if leAt b 8 4 = 0 then some 8
  else if ¬ slotOk then some 0xC
  else if leAt b 0xE 2 ≠ 0 then some 0xE
  else if ¬ allZero ((b.drop 0x14).take 12) then some 0x14
  else (List.range n).findSome? member

def groupDesc (c : SvcCmd) (s : State) (host : List Byte) : List Byte := ckData s (bitOf (c.d 6) 0) (c.q 4) 16416 host

def groupOf (b : List Byte) (now_ : Nat) : CkGroup := {
  p := leAt b 1 1, unit := leAt b 6 2 * 1024, id := leAt b 8 4, keySlot := leAt b 0xC 2, keyId := leAt b 0x10 4, rank := leAt b 4 2
  members := (List.range (leAt b 2 2)).map fun r => { uid := leAt b (0x20 + 16 * r) 8, qp := leAt b (0x28 + 16 * r) 3 }
  hello := [], formed := false, formAt := now_, head := (b.drop 1).take 19, lost := [] }

/-- SHA-256 over the members' UNIT_IDs in rank order (R438). -/
def memberDigest (g : CkGroup) : List Byte := sha256 (g.members.flatMap fun m => leBytes 8 m.uid)

/-- Why the landing area cannot be created: 1 space, 2 the medium's state, 3 no NSID (R440). -/
def areaCause (s : State) : Option Nat :=
  if s.flash.usable < gibUsed s + fld s pCKPT R.CKPT.AREA 0 24 then some 1
  else if blkState s pFTL = 0x82 ∨ blkState s pFTL = 0x80 then some 2
  else if (List.range 256).all fun i => (getNs s (i + 1)).isSome then some 3
  else none

/-- AREA_CREATE: the landing area takes the highest NSID not in use (R440). -/
def createArea (s : State) : State :=
  match (List.range 256).reverse.find? fun i => (getNs s (i + 1)).isNone with
  | none => s
  | some i =>
    let gib := fld s pCKPT R.CKPT.AREA 0 24
    let (guid, s) := freeBytes 16 s
    let n : Ns := {
      state := 1, former := 1, kind := 2, lbaf := 0, ext := false, dps := 0, gib := gib, size := gib * 2 ^ 18, nguid := guid, ctrl := none
      policy := 0, owned := true, mirror := 0, ackTick := 0, degBytes := 0, leftBytes := 0 }
    newDeviceKey (i + 1) (putNs (i + 1) n (setCkpt s fun c => { c with areaNs := some (i + 1), units := [], manifests := [], commits := [] }))

/-- GROUP_FORM: the descriptor is read and checked, the landing area is created where none is, and HELLO goes to every other
member (R436 to R440). -/
def execGroupForm (k : CmdRef) (desc : List Byte) (s : State) : Host.Outcome State Fault Refusal :=
  .next <| runSvc k 0x50 (fun c s => (groupOffence s (groupDesc c s desc)).map (0x100 + ·)) ckFenced
    (fun c s =>
      if ckptMode s ≠ 0x80 then .done st.STATE_CONFLICT 0 s
      else match (if s.ckpt.areaNs.isSome then none else areaCause s) with
        | some cause => .done st.NO_RESOURCE cause s
        | none =>
          let s := if s.ckpt.areaNs.isSome then s else createArea s
          let g := groupOf (groupDesc c s desc) s.now
          let s := setCkptMode 0x81 (setCkpt s fun x => { x with group := some g, lostPend := [] })
          .wait (ckTell (fun _ => true) 1 0 g.rank (g.head ++ memberDigest g) s)) s

/-- The group dissolves. -/
def dropGroup (s : State) : State :=
  setCkptMode 0x80 (setCkpt s fun c => { c with group := none, lostPend := [], scan := .none, selected := none })

/-- GROUP_FORM in hand ends without a group (R438). -/
def formFails (status result : Nat) (s : State) : State :=
  finishCmds (fun c => c.op == 0x50) status result (dropGroup s)

/-- HELLO: another member's HELLO, from the device with UNIT_ID `uid` (R438). -/
def execHello (t : Nat) (m : CkMsg) (uid : Nat) (body : List Byte) (s : State) : Host.Outcome State Fault Refusal :=
  .next <| ckTake t m (fun g own s =>
    if g.formed ∨ m.sender = g.rank then s
    else
      let same (o n : Nat) : Bool := leAt body o n == leAt g.head o n
      if own = some uid ∧ same 0 1 ∧ same 1 2 ∧ same 5 2 ∧ same 7 4 ∧ same 15 4 ∧ (body.drop 19).take 32 = memberDigest g then
        setCkpt s fun c => { c with group := some { g with hello := addSorted m.sender g.hello } }
      else formFails ck.MISMATCH m.sender s) s

/-- GROUP_FORM_TIMEOUT: ten seconds without a HELLO from every member (R438). -/
def execGroupFormTimeout (t : Nat) (s : State) : Host.Outcome State Fault Refusal :=
  .next <|
    let s := atTime t s
    match s.ckpt.group with
    | some g => if ¬ g.formed ∧ g.formAt + 10000000000 ≤ t then formFails st.TIMEOUT 0 s else s
    | none => s

/-- A shrink by `rank` is allowed (R466); the device cannot remove itself. -/
def shrinkOk (g : CkGroup) (rank : Nat) : Bool :=
  decide (rank < g.members.length) && rank != g.rank && decide (4 ≤ g.members.length) && decide (g.p + 3 ≤ g.members.length)

def shrinkOffence (c : SvcCmd) (s : State) : Option Nat :=
  match s.ckpt.group with
  | some g => if ¬ g.formed ∨ shrinkOk g (c.d 4) then none else some 16
  | none => none

/-- The state conflict of a command marked FORMED (R468). -/
def formedOnly (s : State) (f : CkGroup → SvcEnd) : SvcEnd :=
  match s.ckpt.group with
  | some g => if ckptMode s = 0x82 then f g else .done st.STATE_CONFLICT 0 s
  | none => .done st.STATE_CONFLICT 0 s

/-- GROUP_SHRINK: acts at step 7 of the next edge (R466). -/
def execGroupShrink (k : CmdRef) (s : State) : Host.Outcome State Fault Refusal :=
  .next <| runSvc k 0x51 shrinkOffence ckFenced (fun _ s => formedOnly s fun _ => .wait s) s

/-- A session in progress: ARMED to COMMITTING, or RESTORING. -/
def sessBusy (x : CkSession) : Bool := (2 ≤ x.state && x.state ≤ 6) || x.state == 9

/-- GROUP_LEAVE: the device returns to NO_GROUP; a scan, an export or a shrink under way is given up (R468). -/
def execGroupLeave (k : CmdRef) (s : State) : Host.Outcome State Fault Refusal :=
  .next <| runSvc k 0x52 noInv ckFenced
    (fun _ s => formedOnly s fun _ =>
      if s.ckpt.sessions.any fun e => sessBusy e.2 then .done ck.BUSY 0 s
      else .done st.OK 0 (dropGroup (finishCmds (fun c => c.op == 0x51 || c.op == 0x57 || c.op == 0x58) st.ABORTED 0 s))) s

/-! ### Manifests (R457, R458) -/

def manLen (n shards : Nat) : Nat := 0x80 + 16 * n + 64 * shards + 32

def manStep (b : List Byte) : Nat := leAt b 0x10 8
def manRank (b : List Byte) : Nat := leAt b 0xE 2
def manGroup (b : List Byte) : Nat := leAt b 8 4
def manN (b : List Byte) : Nat := leAt b 0xC 2
def manShards (b : List Byte) : Nat := leAt b 0x24 4
def manStripes (b : List Byte) : Nat := leAt b 0x28 4
def manP (b : List Byte) : Nat := leAt b 5 1
def manUnit (b : List Byte) : Nat := leAt b 0x20 4 * 1024
def manUids (b : List Byte) : List Nat := (List.range (manN b)).map fun r => leAt b (0x80 + 16 * r) 8

/-- Offset of shard `i` in a manifest. -/
def manShard (b : List Byte) (i : Nat) : Nat := 0x80 + 16 * manN b + 64 * i

/-- The key of a label: of a READY HMAC slot. -/
def keyNamed (s : State) (keyId : Nat) : List (List Byte) :=
  (s.ciph.slots.filter fun e => e.2.state == 1 && keyType e.2 == 3 && e.2.keyId == keyId).map (·.2.key)

/-- A manifest is intact (R458). -/
def manIntact (s : State) (b : List Byte) : Bool :=
  leAt b 0 4 == 0x4D4B4345 && leAt b 4 1 == 1 && leAt b 0x40 4 == manLen (manN b) (manShards b) && b.length == leAt b 0x40 4 &&
    (keyNamed s (leAt b 0x2C 4)).any fun key => hmac256 key (b.take (b.length - 32)) == b.drop (b.length - 32)

/-- The device's manifest of a session (R457). -/
def buildManifest (s : State) (g : CkGroup) (x : CkSession) : List Byte :=
  let total := (x.regions.map (·.len)).sum
  let k := x.uids.length - x.p
  let b := leBytes 4 0x4D4B4345 ++ leBytes 1 1 ++ leBytes 1 x.p ++ leBytes 1 x.mode ++ leBytes 1 0 ++ leBytes 4 g.id ++
    leBytes 2 x.uids.length ++ leBytes 2 x.self ++ leBytes 8 x.step ++ leBytes 8 x.at_ ++ leBytes 4 (x.unit / 1024) ++
    leBytes 4 x.regions.length ++ leBytes 4 (ceilDiv total (k * x.unit)) ++ leBytes 4 g.keyId ++ leBytes 8 total ++
    leBytes 8 (ownUnit s) ++ leBytes 4 (manLen x.uids.length x.regions.length) ++ List.replicate 60 0 ++
    (x.uids.flatMap fun u => leBytes 8 u ++ leBytes 8 0) ++
    (x.regions.flatMap fun r => leBytes 1 r.port ++ List.replicate 7 0 ++ leBytes 8 r.len ++ leBytes 8 r.off ++ leBytes 8 r.addr ++
      (r.source.getD r.digest))
  let key := match getSlot s g.keySlot with | some y => y.key | none => []
  b ++ hmac256 key b

/-! ### The landing area (R439, R455) -/

/-- Bytes of the landing area. -/
def areaSize (s : State) : Nat :=
  match s.ckpt.areaNs with
  | some n => (match getNs s n with | some x => x.gib * 2 ^ 30 | none => 0)
  | none => 0

/-- The area can hold `n` bytes more: the medium takes writes and there is room. -/
def areaHas (s : State) (n : Nat) : Bool :=
  s.ckpt.areaNs.isSome && (blkState s pFTL == 1 || blkState s pFTL == 0x81) && decide (s.ckpt.areaBytes + n ≤ areaSize s)

/-- AREA_LOW: the area is more than 90 % full (R461). -/
def areaCheck (s : State) : State := if areaSize s * 9 < s.ckpt.areaBytes * 10 then penBit pCKPT 6 s else s

/-- A unit lands; an earlier copy of it goes. -/
def landUnit (u : CkUnit) (s : State) : State :=
  let same (v : CkUnit) : Bool := v.group == u.group && v.step == u.step && v.src == u.src && v.stripe == u.stripe && v.unit == u.unit
  areaCheck (ckCount 4 1 (setCkpt s fun c => { c with units := (c.units.filter fun v => !same v) ++ [u] }))

/-- A manifest lands. -/
def landManifest (b : List Byte) (s : State) : State :=
  areaCheck (setCkpt s fun c => { c with manifests := (c.manifests.filter (· != b)) ++ [b] })

/-! ### Sessions (R442 to R447) -/

/-- A session is to fail at the next edge; the first reason stands. -/
def failLater (i reason : Nat) (s : State) : State :=
  match getSess s i with
  | some x => if x.fail.isNone then putSess i { x with fail := some reason } s else s
  | none => s

/-- A session enters FAILED (R444, R460). -/
def failSession (i reason : Nat) (s : State) : State :=
  match getSess s i with
  | none => s
  | some x =>
    let s := putSess i { x with state := 8, reason := reason, fail := none, stage := 0, owed := [], manOwed := [] } s
    let s := penBit pCKPT 1 (ckCount 1 1 s)
    let s := ckTell (fun _ => true) 7 x.step x.self (leBytes 1 reason) s
    let s := finishCmds (fun c => c.op == 0x54 && c.obj == i) ck.STEP_FAILED reason s
    finishCmds (fun c => c.op == 0x55 && c.obj == i) st.OK 0 s

/-- Bytes of a region table entry. -/
def tableEntry (s : State) (x : CkSession) (i : Nat) : List Byte := windowRead s 0 (x.table + 64 * i) 64

/-- The regions of a table as they stand in it. -/
def tableRegions (s : State) (x : CkSession) : List CkRegion :=
  ((List.range x.entries).foldl (fun (l, off) i =>
    let e := tableEntry s x i
    let r : CkRegion := {
      port := leAt e 0 1, addr := leAt e 8 8, len := leAt e 0x10 8, off := off, prio := leAt e 1 1, begun := false, issued := 0, done := 0
      released := false, digest := [], source := none, passed := false }
    (l ++ [r], off + r.len)) ([], 0)).1

/-- The newest intact manifests of a step that the device holds, and the step's member list. -/
def stepManifest (s : State) (step : Nat) : Option (List Byte) :=
  match s.ckpt.group with
  | none => none
  | some g => s.ckpt.manifests.find? fun b => manGroup b == g.id && manStep b == step && manIntact s b

def sessionOffence (c : SvcCmd) (s : State) : Option Nat :=
  let mode := c.d 4
  if 3 ≤ mode then some 16
  else if c.d 9 = 0 ∨ 4096 < c.d 9 then some 36
  else if mode = 2 ∧ bitOf (c.d 10) 16 then
    (match stepManifest s (c.q 5) with
     | some b => if manN b ≤ bitsOf (c.d 10) 0 16 then some 40 else none
     | none => none)
  else none

/-- A session as SESSION_OPEN defines it. -/
def newSession (c : SvcCmd) (rank : Nat) : CkSession := {
  state := 1, mode := c.d 4, step := c.q 5, table := c.q 7, entries := c.d 9, at_ := 0, rank := rank, regions := [], reason := 0, fail := none
  atNs := none, stage := 0, uids := [], p := 0, unit := 0, self := 0, lost := [], owed := [], manifest := none, manOwed := [], final := false }

/-- SESSION_OPEN (R442, R461, R465). -/
def execSessionOpen (k : CmdRef) (s : State) : Host.Outcome State Fault Refusal :=
  .next <| runSvc k 0x53 sessionOffence ckFenced
    (fun c s => formedOnly s fun _ =>
      let step := c.q 5
      if (getSess s c.obj).isSome then .done st.STATE_CONFLICT 0 s
      else if c.d 4 ≠ 2 then
        if step ≤ reg64 s pCKPT R.CKPT.LAST_COMMIT_LO ∨ s.ckpt.sessions.any (fun e => e.2.step == step) then .done ck.EXISTS 0 s
        else .done st.OK 0 (putSess c.obj (newSession c 0) s)
      else if s.ckpt.selected ≠ some step then .done ck.NO_STEP 0 s
      else
        let own := match stepManifest s step with
          | some b => ((enumFrom 0 (manUids b)).find? fun e => e.2 == ownUnit s).map (·.1)
          | none => none
        match (if bitOf (c.d 10) 16 then some (bitsOf (c.d 10) 0 16) else own) with
        | some r => .done st.OK 0 (putSess c.obj (newSession c r) s)
        | none => .done st.INVALID_FIELD 40 s) s

/-- R443: the start is refused. -/
def startRefused (s : State) (i : Nat) (x : CkSession) : Bool :=
  s.ckpt.sessions.any fun e =>
    e.1 != i && ([2, 3, 4, 9].contains e.2.state || (x.mode != 2 && [5, 6].contains e.2.state))

/-- A restore session's table does not match the manifest (R465). -/
def shapeBad (b : List Byte) (rs : List CkRegion) : Bool :=
  rs.length != manShards b || (enumFrom 0 rs).any fun e => leAt b (manShard b e.1 + 8) 8 != e.2.len

/-- SESSION_START: a capture session reserves staging and is ARMED; a restore session is RESTORING (R443, R447, R465). -/
def execSessionStart (k : CmdRef) (s : State) : Host.Outcome State Fault Refusal :=
  .next <| runSvc k 0x54 noInv ckFenced
    (fun c s => formedOnly s fun g =>
      match getSess s c.obj with
      | none => .done st.STATE_CONFLICT 0 s
      | some x =>
        if x.state ≠ 1 then .done st.STATE_CONFLICT 0 s
        else if startRefused s c.obj x then .done ck.BUSY 0 s
        else
          let rs := tableRegions s x
          let total := (rs.map (·.len)).sum
          if x.mode ≠ 2 ∧ max 16 (min 512 (fld s pCKPT R.CKPT.CFG 0 16)) * 2 ^ 30 < total + s.ckpt.stageBytes then
            .done st.NO_RESOURCE 0 s
          else if x.mode ≠ 2 then
            .wait (putSess c.obj { x with
              state := 2, at_ := c.q 4, stage := total, uids := g.members.map (·.uid), p := g.p, unit := g.unit, self := g.rank
              lost := g.lost.filterMap (ckUid g) } s)
          else
            let man := s.ckpt.manifests.find? fun b =>
              manGroup b == g.id && manStep b == x.step && manRank b == x.rank && manIntact s b
            let bad : Option Nat := match man with
              | none => some 11
              | some b => if shapeBad b rs then some 10 else none
            .wait (putSess c.obj { x with
              state := 9, regions := rs, self := x.rank, fail := if x.fail.isSome then x.fail else bad, manifest := man } s)) s

/-- SESSION_ABORT: the session fails with ABORTED at the next edge (R442). -/
def execSessionAbort (k : CmdRef) (s : State) : Host.Outcome State Fault Refusal :=
  .next <| runSvc k 0x55 noInv ckFenced
    (fun c s => match getSess s c.obj with
      | some x => if sessBusy x then .wait (failLater c.obj 9 s) else .done st.STATE_CONFLICT 0 s
      | none => .done st.STATE_CONFLICT 0 s) s

/-- SESSION_CLOSE (R442). -/
def execSessionClose (k : CmdRef) (s : State) : Host.Outcome State Fault Refusal :=
  .next <| runSvc k 0x56 noInv ckFenced
    (fun c s => match getSess s c.obj with
      | some x => if sessBusy x then .done st.STATE_CONFLICT 0 s
          else .done st.OK 0 (setCkpt s fun f => { f with sessions := mdel f.sessions c.obj })
      | none => .done st.STATE_CONFLICT 0 s) s

/-- CAPTURE_MS and COMMIT_S in force, ns. -/
def captureNs (s : State) : Nat :=
  let v := fld s pCKPT R.CKPT.LIMITS 0 16
  (if v = 0 then 30000 else v) * 1000000

def commitNs (s : State) : Nat :=
  let v := fld s pCKPT R.CKPT.LIMITS 16 16
  (if v = 0 then 900 else v) * 1000000000

/-- CAPTURE_TIMEOUT: CAPTURE_MS or COMMIT_S has passed since edge AT (R445). -/
def execCaptureTimeout (t : Nat) (s : State) : Host.Outcome State Fault Refusal :=
  .next <|
    let s := atTime t s
    s.ckpt.sessions.foldl (fun s e =>
      let x := e.2
      match x.atNs with
      | none => s
      | some a =>
        if (2 ≤ x.state ∧ x.state ≤ 4 ∧ a + captureNs s ≤ t) ∨ (2 ≤ x.state ∧ x.state ≤ 6 ∧ a + commitNs s ≤ t) then failLater e.1 4 s
        else s) s

/-! ### Capture (R446 to R451) -/

/-- Where a session's stream is staged: beyond the addresses of the LPDDR5X that any window reaches. -/
def stageBase (i : Nat) : Nat := 2 ^ 43 + i * 2 ^ 40

def modRegion (i j : Nat) (f : CkRegion → CkRegion) (s : State) : State :=
  match getSess s i with
  | some x => putSess i { x with regions := x.regions.modify j f } s
  | none => s

/-- Issues READs of a region while links have tags and the rate admits (R448). -/
def captureRegion (i j : Nat) : Nat → State → State
  | 0, s => s
  | n + 1, s =>
    match getSess s i with
    | none => s
    | some x =>
      match x.regions[j]? with
      | none => s
      | some r =>
        let ls := portLinks s r.port
        let m := (ls.map fun l => peerMax (getLink s l)).foldl min 4096
        let len := min m (min (r.len - r.issued) s.ckpt.capLeft)
        if ls = [] then failLater i 2 s
        else if len = 0 then s
        else
          let q : CapRead := {
            tag := 0, addr := r.addr + r.issued, len := len, got := 0, dst := stageBase i + r.off + r.issued, sentAt := s.now, second := false
            session := i, region := j }
          match issueRead r.port none q s with
          | none => s
          | some s =>
            captureRegion i j n (setCkpt (modRegion i j (fun r => { r with begun := true, issued := r.issued + len }) s)
              fun c => { c with capLeft := c.capLeft - len })

/-- Regions of a session in the order they are copied: those begun, then by PRIORITY, ties to the lower index (R448). -/
def captureOrder (x : CkSession) : List Nat :=
  let l := (enumFrom 0 x.regions).filter fun e => decide (e.2.issued < e.2.len)
  ((l.filter fun e => e.2.begun) ++ sortBy (fun e => e.2.prio) (l.filter fun e => !e.2.begun)).map (·.1)

/-- Issues the READs that tags and rate allow, for the capturing session. -/
def pumpCapture (s : State) : State :=
  if ckptOn s = false ∨ quiescing s then s
  else s.ckpt.sessions.foldl (fun s e =>
    if e.2.state = 3 ∧ e.2.fail.isNone then (captureOrder e.2).foldl (fun s j => captureRegion e.1 j (48 * 4096) s) s else s) s

/-- Takes the READs that have ended: bytes copied, or the session fails with READ_FAIL (R448). -/
def drainCap (s : State) : State :=
  let l := s.feed.capDone
  l.foldl (fun s e =>
    match getSess s e.1 with
    | none => s
    | some x =>
      if x.state ≠ 3 then s
      else if e.2.2.2.2 then modRegion e.1 e.2.1 (fun r => { r with done := r.done + e.2.2.2.1 }) s
      else failLater e.1 2 s) (setFeed s fun f => { f with capDone := [] })

/-- READ_RESP: the response of a capture READ (R287, R288, R307, R448). -/
def execReadResp (t link tag status off : Nat) (data : List Byte) (s : State) : Host.Outcome State Fault Refusal :=
  .next (pumpCapture (drainCap (readResp t link tag status off data s)))

/-- CAPTURE_READ_TIMEOUT: RD_TIMEOUT after a capture READ was sent (R307, R448). -/
def execCaptureReadTimeout (t link tag : Nat) (s : State) : Host.Outcome State Fault Refusal :=
  .next (pumpCapture (drainCap (captureReadTimeout t link tag s)))

/-- A RELEASE packet (R284, R449). -/
def releasePkt (i d3 port : Nat) : Pkt := { vc := 0, h := [6, 0, i, d3], data := [], ref := .again port }

/-- The final RELEASE goes on every up link of every port named in the table. -/
def releaseAll (i : Nat) (x : CkSession) (s : State) : State :=
  let ports := x.regions.foldl (fun l r => addSorted r.port l) []
  ports.foldl (fun s p => (portLinks s p).foldl (fun s l => sendPkt l (releasePkt i 0xFFFFFFFF p) s) s) s

/-- R449: regions whose last READ (or WRITE) completed are released, then all of them. -/
def edgeRelease (i : Nat) (s : State) : State :=
  match getSess s i with
  | none => s
  | some x =>
    let due := (enumFrom 0 x.regions).filter fun e => !e.2.released && e.2.done == e.2.len
    let s := due.foldl (fun s e =>
      let s := windowPut 0 (x.table + 64 * e.1 + 3) [1] s
      let d := if x.mode = 2 then e.2.digest else sha256 (memRead s.mem (dramKey (stageBase i + e.2.off)) e.2.len)
      sendOnPort e.2.port (releasePkt i e.1 e.2.port) (modRegion i e.1 (fun r => { r with released := true, digest := d }) s)) s
    match getSess s i with
    | none => s
    | some x =>
      if ¬ x.final ∧ x.regions.all (·.released) then releaseAll i x (putSess i { x with final := true } s) else s

/-- R451: copied regions whose DIGEST_VALID reads 1 are compared; the rest pass at the final RELEASE in staged mode. -/
def edgeCompare (i : Nat) (s : State) : State :=
  match getSess s i with
  | none => s
  | some x =>
    (enumFrom 0 x.regions).foldl (fun s e =>
      let r := e.2
      let b := tableEntry s x e.1
      if ¬ r.released ∨ r.passed then s
      else if leAt b 2 1 = 1 then
        if (b.drop 0x20).take 32 = r.digest then modRegion i e.1 (fun r => { r with passed := true, source := some r.digest }) s
        else failLater i 1 (errInfo pCKPT 1 e.1 (penBit pCKPT 2 (ckCount 2 1 s)))
      else if x.mode = 0 ∧ x.final then modRegion i e.1 (fun r => { r with passed := true }) s
      else s) s

/-! ### Striping (R452 to R456) -/

/-- Product in GF(2^8) reduced by x^8 + x^4 + x^3 + x^2 + 1: `n` bits of `b` are still to be used. -/
def gfMulGo : Nat → Nat → Nat → Nat
  | 0, _, _ => 0
  | n + 1, a, b => (if b % 2 = 1 then a else 0) ^^^ gfMulGo n (if 128 ≤ a then ((2 * a) ^^^ 0x11D) % 256 else 2 * a) (b / 2)

def gfMul (a b : Nat) : Nat := gfMulGo 8 a b

/-- g^n. -/
def gfPow : Nat → Nat
  | 0 => 1
  | n + 1 => gfMul (gfPow n) 2

/-- The inverse of a, a^254. -/
def gfInv (a : Nat) : Nat :=
  let a2 := gfMul a a
  let a4 := gfMul a2 a2
  let a8 := gfMul a4 a4
  let a16 := gfMul a8 a8
  let a32 := gfMul a16 a16
  let a64 := gfMul a32 a32
  gfMul (gfMul (gfMul (gfMul (gfMul (gfMul a2 a4) a8) a16) a32) a64) (gfMul a64 a64)

def scaleBytes (c : Nat) (a : List Byte) : List Byte := a.map fun b => BitVec.ofNat 8 (gfMul c b.toNat)

/-- P of the data units of a stripe, of `u` bytes each (R453). -/
def parityP (u : Nat) (l : List (List Byte)) : List Byte := l.foldl xorBytes (List.replicate u 0)

/-- Q of the data units (R453). -/
def parityQ (u : Nat) (l : List (List Byte)) : List Byte :=
  (enumFrom 0 l).foldl (fun acc e => xorBytes acc (scaleBytes (gfPow e.1) e.2)) (List.replicate u 0)

/-- Bytes of a session's stream, and its stripes (R452). -/
def streamBytes (x : CkSession) : Nat := (x.regions.map (·.len)).sum

def dataUnits (x : CkSession) : Nat := x.uids.length - x.p

def stripesOf (x : CkSession) : Nat := ceilDiv (streamBytes x) (dataUnits x * x.unit)

/-- Data unit `j` of stripe `z`, padded with zeros. -/
def dataUnit (s : State) (i : Nat) (x : CkSession) (z j : Nat) : List Byte :=
  let a := (z * dataUnits x + j) * x.unit
  let n := min x.unit (streamBytes x - a)
  memRead s.mem (dramKey (stageBase i + a)) n ++ List.replicate (x.unit - n) 0

/-- Unit `j` of stripe `z`, data or parity. -/
def stripeUnit (s : State) (i : Nat) (x : CkSession) (z j : Nat) : List Byte :=
  let k := dataUnits x
  if j < k then dataUnit s i x z j
  else
    let l := (List.range k).map (dataUnit s i x z)
    if j = k then parityP x.unit l else parityQ x.unit l

/-- The step's rank that holds unit `j` of stripe `z` of rank `r` (R454). -/
def unitRank (n r z j : Nat) : Nat := (r + z + j) % n

def owedKey (z j : Nat) : Nat := z * 2048 + j

/-- Sends one unit, or starts its landing on the device itself. -/
def sendUnit (i : Nat) (x : CkSession) (z j : Nat) (s : State) : State :=
  match s.ckpt.group with
  | none => s
  | some g =>
    let d := stripeUnit s i x z j
    let dst := unitRank x.uids.length x.self z j
    let h := sha256 d
    if dst = x.self then
      setCkpt s fun c => { c with landing := c.landing ++
        [{ from_ := none, digest := h, u := { group := g.id, step := x.step, src := x.self, stripe := z, unit := j, data := d } }] }
    else match (x.uids[dst]?).bind (ckRank g) with
      | some r => ckCount 3 1 (ckSend r 2 x.step x.self j z (h ++ d) s)
      | none => s

/-- The session becomes STRIPING: every unit whose target is not lost is sent and owed (R454, R455, R459). -/
def startStriping (i : Nat) (s : State) : State :=
  match getSess s i with
  | none => s
  | some x =>
    let all := (List.range (stripesOf x)).flatMap fun z => (List.range x.uids.length).map fun j => (z, j)
    let gone (e : Nat × Nat) : Bool := x.lost.contains (x.uids.getD (unitRank x.uids.length x.self e.1 e.2) 0)
    let send := all.filter fun e => !gone e
    let x := { x with state := 5, owed := send.map fun e => (owedKey e.1 e.2, false) }
    send.foldl (fun s e => sendUnit i x e.1 e.2 s) (putSess i x s)

/-- MANIFEST_BUILD: when every unit has landed, the manifest is sent to every member that is not lost, and lands here (R456).
With the group's key slot not READY the check fails (R512). -/
def tryManifest (i : Nat) (s : State) : State :=
  match getSess s i, s.ckpt.group with
  | some x, some g =>
    if x.state ≠ 5 ∨ x.owed ≠ [] ∨ x.manifest.isSome ∨ x.fail.isSome then s
    else
      let b := buildManifest s g x
      let keyed : Bool := match getSlot s g.keySlot with | some y => y.state == 1 | none => false
      if ¬ keyed then failLater i 7 s
      else if ¬ areaHas s b.length then failLater i 5 s
      else
        let owed := (x.uids.filter fun u => u != ownUnit s && !x.lost.contains u)
        let s := putSess i { x with manifest := some b, manOwed := owed } (landManifest b s)
        owed.foldl (fun s u => match ckRank g u with
          | some r => ckSend r 4 x.step x.self 0 0 b s
          | none => s) s
  | _, _ => s

/-- The session that is striping or committing a step. -/
def sessOfStep (s : State) (step : Nat) : Option (Nat × CkSession) :=
  s.ckpt.sessions.find? fun e => e.2.mode != 2 && e.2.step == step && e.2.state != 8 && e.2.state != 7

/-- A unit of the session has landed. -/
def unitLanded (i z j : Nat) (s : State) : State :=
  match getSess s i with
  | some x => tryManifest i (putSess i { x with owed := x.owed.filter fun e => e.1 != owedKey z j } s)
  | none => s

/-- UNIT: a unit arrives and its write into the landing area begins (R455). -/
def execUnit (t : Nat) (m : CkMsg) (digest data : List Byte) (s : State) : Host.Outcome State Fault Refusal :=
  .next <| ckRecv t m (fun g _ s =>
    setCkpt s fun c => { c with landing := c.landing ++ [{
      from_ := some m.sender, digest := digest
      u := { group := g.id, step := m.step, src := m.src, stripe := m.stripe, unit := m.unit, data := data } }] }) s

/-- UNIT_LAND: the unit at place `i` of those on their way reaches the medium, or finds no space (R455). -/
def execUnitLand (t i : Nat) (s : State) : Host.Outcome State Fault Refusal :=
  .next <|
    let s := atTime t s
    match s.ckpt.landing[i]? with
    | none => s
    | some l =>
      let s := setCkpt s fun c => { c with landing := c.landing.eraseIdx i }
      let room := areaHas s l.u.data.length
      let h := sha256 l.u.data
      let s := if room then landUnit l.u s else s
      match l.from_ with
      | some r =>
        let code := if ¬ room then 1 else if h = l.digest then 0 else 2
        ckSend r 3 l.u.step l.u.src l.u.unit l.u.stripe (leBytes 1 code ++ List.replicate 31 0 ++ h) s
      | none =>
        (match sessOfStep s l.u.step with
         | some e => if room then unitLanded e.1 l.u.stripe l.u.unit s else failLater e.1 5 s
         | none => s)

/-- UNIT_ACK: the unit has landed, is sent once more, or the session fails (R455). -/
def execUnitAck (t : Nat) (m : CkMsg) (code : Nat) (digest : List Byte) (s : State) : Host.Outcome State Fault Refusal :=
  .next <| ckRecv t m (fun _ uid s =>
    match sessOfStep s m.step with
    | none => s
    | some (i, x) =>
      let target := x.uids.getD (unitRank x.uids.length x.self m.stripe m.unit) 0
      match mget x.owed (owedKey m.stripe m.unit) with
      | none => s
      | some twice =>
        if x.state ≠ 5 ∨ target ≠ uid ∨ m.src ≠ x.self then s
        else if code = 1 then failLater i 5 s
        else if digest = sha256 (stripeUnit s i x m.stripe m.unit) then unitLanded i m.stripe m.unit s
        else if twice then failLater i 6 (errInfo pCKPT 3 m.sender s)
        else
          let x := { x with owed := x.owed.map fun e => if e.1 = owedKey m.stripe m.unit then (e.1, true) else e }
          sendUnit i x m.stripe m.unit (ckCount 5 1 (putSess i x s))) s

/-- MANIFEST: a member's manifest is verified, landed and acknowledged (R456). -/
def execManifest (t : Nat) (m : CkMsg) (body : List Byte) (s : State) : Host.Outcome State Fault Refusal :=
  .next <| ckRecv t m (fun _ _ s =>
    let ok := manIntact s body
    let room := areaHas s body.length
    let code := if ¬ ok then 2 else if ¬ room then 1 else 0
    let s := if ok ∧ room then landManifest body s else s
    ckSend m.sender 5 m.step m.src 0 0 (leBytes 1 code ++ List.replicate 7 0) s) s

/-- MANIFEST_ACK: a member has landed the manifest, or the session fails (R456). -/
def execManifestAck (t : Nat) (m : CkMsg) (code : Nat) (s : State) : Host.Outcome State Fault Refusal :=
  .next <| ckRecv t m (fun _ uid s =>
    match sessOfStep s m.step with
    | none => s
    | some (i, x) =>
      if x.state ≠ 5 ∨ ¬ x.manOwed.contains uid then s
      else if code = 0 then putSess i { x with manOwed := x.manOwed.filter (· != uid) } s
      else failLater i (if code = 1 then 5 else 7) s) s

/-- LANDED: a member has landed everything of a step (R456, R460). -/
def execLanded (t : Nat) (m : CkMsg) (s : State) : Host.Outcome State Fault Refusal :=
  .next <| ckRecv t m (fun _ uid s =>
    setCkpt s fun c => { c with landed := (c.landed.filter (· != (m.step, uid))) ++ [(m.step, uid)] }) s

/-- FAILED: the device's own session of the step fails with PEER_FAILED at the next edge, unless it has ended (R444). -/
def execFailed (t : Nat) (m : CkMsg) (_reason : Nat) (s : State) : Host.Outcome State Fault Refusal :=
  .next <| ckRecv t m (fun _ _ s =>
    s.ckpt.sessions.foldl (fun s e =>
      if e.2.step = m.step ∧ ¬ [7, 8, 0xA].contains e.2.state then failLater e.1 8 s else s) s) s

/-- LOST: a member names a lost one (R459). -/
def execLost (t : Nat) (m : CkMsg) (rank : Nat) (s : State) : Host.Outcome State Fault Refusal :=
  .next <| ckRecv t m (fun g _ s =>
    if rank < g.members.length ∧ rank ≠ g.rank then setCkpt s fun c => { c with lostPend := c.lostPend ++ [rank] } else s) s

/-- PROGRESS: nothing but its acknowledgement by the transport (R456). -/
def execProgress (t : Nat) (m : CkMsg) (s : State) : Host.Outcome State Fault Refusal :=
  .next <| ckRecv t m (fun _ _ s => s) s

/-! ### Step 7 of an edge -/

/-- GROUP_FORM completes when every other member's HELLO has arrived (R438). -/
def edgeForm (s : State) : State :=
  match s.ckpt.group with
  | none => s
  | some g =>
    if g.formed ∨ g.hello.length + 1 < g.members.length then s
    else
      let newest := ((s.ckpt.commits.filter fun e => e.1 == g.id).map (·.2.1)).foldl max 0
      let s := setReg64 s pCKPT R.CKPT.LAST_COMMIT_LO newest
      let s := setCkptMode 0x82 (setCkpt s fun c => { c with group := some { g with formed := true } })
      finishCmds (fun c => c.op == 0x50) st.OK 0 s

/-- A member is lost: the map, the pennant, LOST to the others, and what was owed to it (R459). -/
def loseMember (rank : Nat) (s : State) : State :=
  match s.ckpt.group with
  | none => s
  | some g =>
    match ckUid g rank with
    | none => s
    | some uid =>
      if g.lost.contains rank then s
      else
        let s := setCkpt s fun c => { c with group := some { g with lost := addSorted rank g.lost } }
        let s := errInfo pCKPT 2 rank (penBit pCKPT 3 s)
        let s := ckTell (· != rank) 8 0 g.rank (leBytes 2 rank) s
        let drop (x : CkSession) : CkSession :=
          let target (k : Nat) : Nat := x.uids.getD (unitRank x.uids.length x.self (k / 2048) (k % 2048)) 0
          { x with
            lost := x.lost ++ [uid], owed := x.owed.filter fun e => target e.1 != uid
            manOwed := x.manOwed.filter (· != uid) }
        setCkpt s fun c => { c with
          sessions := c.sessions.map fun e => if 2 ≤ e.2.state ∧ e.2.state ≤ 6 then (e.1, drop e.2) else e }

def edgeLost (s : State) : State :=
  let named := (s.cmds.filter fun c => c.begun && c.op == 0x51).map fun c => c.d 4
  let l := s.ckpt.lostPend ++ named
  l.foldl (fun s r => loseMember r s) (setCkpt s fun c => { c with lostPend := [] })

/-- GROUP_SHRINK takes effect (R466). -/
def edgeShrink (s : State) : State :=
  (s.cmds.filter fun c => c.begun && c.op == 0x51).foldl (fun s c =>
    match s.ckpt.group with
    | none => s
    | some g =>
      if ¬ shrinkOk g (c.d 4) then complete c st.INVALID_FIELD 16 s
      else
        let g := { g with
          members := g.members.eraseIdx (c.d 4), rank := if c.d 4 < g.rank then g.rank - 1 else g.rank, lost := [] }
        complete c st.OK g.members.length (setCkpt s fun x => { x with group := some g })) s

/-- COMMITTED (R460). -/
def commitSession (i : Nat) (x : CkSession) (g : CkGroup) (s : State) : State :=
  let deg := x.lost != []
  let s := setCkpt s fun c => { c with
    commits := c.commits ++ [(g.id, x.step, deg)], landed := c.landed.filter fun e => decide (x.step < e.1) }
  let s := putSess i { x with state := 7, stage := 0 } s
  let s := setReg64 s pCKPT R.CKPT.LAST_COMMIT_LO (max x.step (reg64 s pCKPT R.CKPT.LAST_COMMIT_LO))
  let s := penBit pCKPT 0 (ckCount 0 1 s)
  let s := if deg then penBit pCKPT 4 s else s
  -- R461: what is older than the steps kept, or never committed
  let retain := max 1 (fld s pCKPT R.CKPT.CFG 28 4)
  let mine := (s.ckpt.commits.filter fun e => e.1 == g.id).map (·.2.1)
  let kept := ((sortBy id mine).reverse).take retain
  let oldest := kept.foldl min x.step
  let old (grp step : Nat) : Bool :=
    grp == g.id && (decide (step < oldest) || (!mine.contains step && decide (step < x.step)))
  let s := setCkpt s fun c => { c with
    units := c.units.filter fun u => !old u.group u.step
    manifests := c.manifests.filter fun b => !old (manGroup b) (manStep b)
    commits := c.commits.filter fun e => !old e.1 e.2.1 }
  finishCmds (fun c => c.op == 0x54 && c.obj == i) st.OK (if deg then 1 else 0) (areaCheck s)

/-- R460 for one session. -/
def edgeCommit (i : Nat) (s : State) : State :=
  match getSess s i, s.ckpt.group with
  | some x, some g =>
    if x.state ≠ 5 ∧ x.state ≠ 6 then s
    else
      let landed (u : Nat) : Bool := s.ckpt.landed.contains (x.step, u)
      if x.lost.any (fun u => !landed u) ∨ x.p < x.lost.length then failSession i 3 s
      else if x.state = 6 ∧ x.uids.all (fun u => u == ownUnit s || x.lost.contains u || landed u) then commitSession i x g s
      else s
  | _, _ => s

/-- The capture session at an edge: AT is reached, regions are released and compared, striping begins, LANDED goes out. -/
def edgeSession (i : Nat) (s : State) : State :=
  match getSess s i with
  | none => s
  | some x =>
    let s := if x.state = 2 ∧ x.at_ ≤ tickOf s then
        let s := { s with mem := memClear s.mem (stageBase i) (stageBase (i + 1)) }
        putSess i { x with state := 3, atNs := some s.now, regions := tableRegions s x } s
      else s
    let s := match getSess s i with
      | some x => if x.state = 3 then
          putSess i { x with regions := (enumFrom 0 x.regions).map fun e =>
            if e.2.begun then e.2 else { e.2 with prio := leAt (tableEntry s x e.1) 1 1 } } s
        else s
      | none => s
    let s := match getSess s i with
      | some x => if x.state = 3 then
          let s := edgeRelease i s
          (match getSess s i with
           | some x => if x.final then putSess i { x with state := 4 } s else s
           | none => s)
        else s
      | none => s
    let s := match getSess s i with
      | some x => if x.state = 3 ∨ x.state = 4 then edgeCompare i s else s
      | none => s
    match getSess s i with
    | none => s
    | some x =>
      match x.fail with
      | some r => if sessBusy x then failSession i r s else s
      | none =>
        if x.state = 4 ∧ x.regions.all (·.passed) then startStriping i s
        else if x.state = 5 ∧ x.manifest.isSome ∧ x.manOwed = [] then
          ckTell (fun _ => true) 6 x.step x.self [] (putSess i { x with state := 6 } s)
        else if x.state = 5 then tryManifest i s
        else s

/-- PROGRESS at every edge whose count is a multiple of 64 (R456). -/
def edgeProgress (s : State) : State :=
  if tickOf s % 64 ≠ 0 then s
  else s.ckpt.sessions.foldl (fun s e =>
    if e.2.state = 5 ∨ e.2.state = 6 then ckTell (fun _ => true) 9 e.2.step e.2.self [] s else s) s

/-- Failures due since the last edge. -/
def edgeFails (s : State) : State :=
  s.ckpt.sessions.foldl (fun s e =>
    match e.2.fail with
    | some r => if e.2.state ≠ 7 ∧ e.2.state ≠ 8 ∧ e.2.state ≠ 0xA then failSession e.1 r s else s
    | none => s) s

/-- Step 7 of an edge, but for restore: the rate of capture in the tick that begins is 1.3 TB/s (R448). -/
def edgeCapture (s : State) : State :=
  let ids := s.ckpt.sessions.map (·.1)
  let s := edgeFails (edgeForm (edgeLost (setCkpt s fun c => { c with capLeft := 1300 * s.tick.len })))
  let s := ids.foldl (fun s i => edgeSession i s) s
  let s := ids.foldl (fun s i => edgeCommit i s) s
  pumpCapture (edgeProgress (edgeShrink s))

end Sys2Proof.Machine
end

