-- ==== Sys2Proof/Machine/CkptRestore.lean ====
section
/-! DEFINITION. Restore (chapter 13): units fetched from members, rebuilding from parity, the choice of the step to restore,
restore sessions and the export of shards. -/

namespace Sys2Proof.Machine

/-- Step, rank, stripe, unit. -/
abbrev UnitKey : Type := Nat × Nat × Nat × Nat

/-! ### Fetching (R465) -/

/-- The unit as the device's landing area holds it. -/
def ownUnitData (s : State) (group step src stripe unit : Nat) : Option (List Byte) :=
  (s.ckpt.units.find? fun u => u.group == group && u.step == step && u.src == src && u.stripe == stripe && u.unit == unit).map (·.data)

def unitReply (s : State) (k : UnitKey) : Option (Option (List Byte)) := (s.ckpt.replies.find? fun e => e.1 == k).map (·.2)

/-- The unit's bytes, when it was fetched and is held. -/
def unitHeld (s : State) (k : UnitKey) : Option (List Byte) := (unitReply s k).join

def survives (g : CkGroup) (uid : Nat) : Bool :=
  match ckRank g uid with
  | some r => !g.lost.contains r
  | none => false

/-- Asks for one unit of manifest `b`, where it has not been asked for: the device's own answers at once, a member that is
gone answers with nothing. -/
def askUnit (b : List Byte) (z j : Nat) (s : State) : State :=
  let k : UnitKey := (manStep b, manRank b, z, j)
  match s.ckpt.group with
  | none => s
  | some g =>
    if (unitReply s k).isSome then s
    else
      let uid := (manUids b).getD (unitRank (manN b) (manRank b) z j) 0
      let answer (d : Option (List Byte)) : State :=
        setCkpt s fun c => { c with asked := c.asked.filter (· != k), replies := c.replies ++ [(k, d)] }
      if uid = ownUnit s then answer (ownUnitData s g.id (manStep b) (manRank b) z j)
      else if ¬ survives g uid then answer none
      else if s.ckpt.asked.contains k then s
      else ckSend ((ckRank g uid).getD 0) 10 (manStep b) (manRank b) j z [] (setCkpt s fun c => { c with asked := c.asked ++ [k] })

/-- Stripes that hold bytes of shard `i`. -/
def shardStripes (b : List Byte) (i : Nat) : List Nat :=
  let w := (manN b - manP b) * manUnit b
  let off := leAt b (manShard b i + 16) 8
  let len := leAt b (manShard b i + 8) 8
  if w = 0 ∨ len = 0 then [] else (List.range ((off + len - 1) / w + 1 - off / w)).map (off / w + ·)

/-- Every unit of the stripes is asked for. -/
def askStripes (b : List Byte) (zs : List Nat) (s : State) : State :=
  zs.foldl (fun s z => forN (manN b) s fun j s => askUnit b z j s) s

/-- Every unit of the stripes has been answered. -/
def stripesKnown (s : State) (b : List Byte) (zs : List Nat) : Bool :=
  zs.all fun z => (List.range (manN b)).all fun j => (unitReply s (manStep b, manRank b, z, j)).isSome

/-! ### Rebuilding (R453, R462, R464) -/

/-- Rebuilds the data units missing from a stripe of `k` data units of `u` bytes, from what is left with P and Q; none where
more units are lost than parity covers. -/
def rebuildStripe (u : Nat) (d : List (Option (List Byte))) (p q : Option (List Byte)) : Option (List (List Byte)) :=
  let zero : List Byte := List.replicate u 0
  let known := d.map (·.getD zero)
  let missing := ((enumFrom 0 d).filter fun e => e.2.isNone).map (·.1)
  match missing, p, q with
  | [], _, _ => some known
  | [x], some p, _ => some (known.set x (xorBytes p (parityP u known)))
  | [x], none, some q => some (known.set x (scaleBytes (gfInv (gfPow x)) (xorBytes q (parityQ u known))))
  | [x, y], some p, some q =>
    let pp := xorBytes p (parityP u known)
    let qq := xorBytes q (parityQ u known)
    let a := scaleBytes (gfInv (gfPow x ^^^ gfPow y)) (xorBytes qq (scaleBytes (gfPow y) pp))
    some ((known.set x a).set y (xorBytes pp a))
  | _, _, _ => none

/-- Units of a stripe as fetched. -/
def stripeHeld (s : State) (b : List Byte) (z : Nat) : List (Option (List Byte)) :=
  (List.range (manN b)).map fun j => unitHeld s (manStep b, manRank b, z, j)

/-- The data units of a stripe, rebuilt where lost. -/
def stripeData (s : State) (b : List Byte) (z : Nat) : Option (List (List Byte)) :=
  let k := manN b - manP b
  let l := stripeHeld s b z
  rebuildStripe (manUnit b) (l.take k) (l.getD k none) (if manP b = 2 then l.getD (k + 1) none else none)

/-- The bytes of a shard within the data of its stripes, which begin at stripe `z0`. -/
def shardBytes (b : List Byte) (i z0 : Nat) (stripes : List (List (List Byte))) : List Byte :=
  let w := (manN b - manP b) * manUnit b
  let off := leAt b (manShard b i + 16) 8
  ((stripes.flatMap fun l => l.flatMap id).drop (off - z0 * w)).take (leAt b (manShard b i + 8) 8)

def manDigest (b : List Byte) (i : Nat) : List Byte := (b.drop (manShard b i + 32)).take 32

/-- Data units of a shard that were rebuilt from parity (R465). -/
def rebuiltUnits (s : State) (b : List Byte) (i : Nat) : Nat :=
  let off := leAt b (manShard b i + 16) 8
  let len := leAt b (manShard b i + 8) 8
  let k := manN b - manP b
  ((shardStripes b i).map fun z =>
    (((enumFrom 0 ((stripeHeld s b z).take k)).filter fun e =>
      let a := (z * k + e.1) * manUnit b
      e.2.isNone && decide (a < off + len) && decide (off < a + manUnit b)).length)).sum

/-- The stored P of a stripe that is wholly held differs from the XOR of its data units (R464). -/
def stripeDiffers (s : State) (b : List Byte) (z : Nat) : Bool :=
  let k := manN b - manP b
  let l := stripeHeld s b z
  match l.getD k none with
  | none => false
  | some p => (l.take k).all (·.isSome) && parityP (manUnit b) ((l.take k).map fun o => o.getD []) != p

/-- The ways to read a stripe: as it stands, or, where P differs, with each data unit in turn taken to be in error (R464). -/
def stripeWays (s : State) (b : List Byte) (z : Nat) : List (List (List Byte)) :=
  let k := manN b - manP b
  let l := stripeHeld s b z
  if stripeDiffers s b z then
    (List.range k).filterMap fun j => rebuildStripe (manUnit b) ((l.take k).set j none) (l.getD k none) none
  else (stripeData s b z).toList

/-- Every choice of one way per stripe, the last stripe's ways varying fastest. -/
def allWays {α : Type} : List (List α) → List (List α)
  | [] => [[]]
  | l :: ls => l.flatMap fun a => (allWays ls).map (a :: ·)

/-- The shard rebuilt by its manifest (R464). -/
def rebuildByManifest (s : State) (b : List Byte) (i : Nat) : Option (List Byte) :=
  let zs := shardStripes b i
  if ¬ zs.any (stripeDiffers s b) then none
  else ((allWays (zs.map (stripeWays s b))).map (shardBytes b i (zs.headD 0))).find? fun d => sha256 d == manDigest b i

/-- What comes of a shard: its bytes and whether it was taken from a rebuild, or the reason 2 or 3 of R462. -/
def assembleShard (s : State) (b : List Byte) (i : Nat) : Sum (List Byte × Bool) Nat :=
  let zs := shardStripes b i
  match zs.mapM (stripeData s b) with
  | none => .inr 2
  | some l =>
    let d := shardBytes b i (zs.headD 0) l
    if sha256 d = manDigest b i then .inl (d, false)
    else match rebuildByManifest s b i with
      | some d => .inl (d, true)
      | none => .inr 3

/-- A divergence is logged, counted and shown (R464). -/
def noteDivergence (i : Nat) (s : State) : State :=
  errInfo pCKPT 4 i (penBit pCKPT 5 (ckCount 7 1 (logEvent 0x0004 (some pCKPT) [0, 0, i] s)))

/-! ### The scan (R462, R463) -/

/-- Steps of the current group for which the device holds manifests, newest first, without repeats. -/
def ownCandidates (s : State) (g : CkGroup) : List Nat :=
  ((s.ckpt.manifests.filter fun b => manGroup b == g.id).foldl (fun l b => addSorted (manStep b) l) []).reverse

/-- The UNIT_ID of the member that verifies rank `r` of a step (R462). -/
def verifier (g : CkGroup) (uids : List Nat) (r : Nat) : Option Nat :=
  if survives g (uids.getD r 0) then uids[r]? else uids.find? (survives g)

def scanResult (s : State) (step r : Nat) : Option (Nat × Nat) :=
  (s.ckpt.scan.results.find? fun e => e.1 == step && e.2.1 == r).map fun e => e.2.2

def setScan (s : State) (f : CkScan → CkScan) : State := setCkpt s fun c => { c with scan := f c.scan }

/-- The device's own verdict: recorded, and told to the others. -/
def giveVerdict (step r reason shard : Nat) (s : State) : State :=
  let body := leBytes 1 reason ++ leBytes 1 0 ++ leBytes 2 0 ++ leBytes 4 shard
  ckTell (fun _ => true) 12 step r body (setScan s fun c => { c with results := c.results ++ [(step, r, reason, shard)] })

/-- The verdict on the shards of manifest `b`, from shard `i` on; every unit has been answered (R462). -/
def shardVerdict (b : List Byte) : Nat → Nat → State → State
  | 0, _, s => giveVerdict (manStep b) (manRank b) 0 0xFFFFFFFF s
  | n + 1, i, s =>
    match assembleShard s b i with
    | .inl (_, diverged) => shardVerdict b n (i + 1) (if diverged then noteDivergence i s else s)
    | .inr reason => giveVerdict (manStep b) (manRank b) reason i s

/-- Verifies rank `r` of a step where that falls to this device, as far as the units fetched allow. -/
def verifyRank (g : CkGroup) (uids : List Nat) (step r : Nat) (s : State) : State :=
  if verifier g uids r ≠ some (ownUnit s) ∨ (scanResult s step r).isSome then s
  else match s.ckpt.manifests.filter fun b => manGroup b == g.id && manStep b == step && manRank b == r && manIntact s b with
    | [] => giveVerdict step r 1 0xFFFFFFFF s
    | [b] =>
      let zs := List.range (manStripes b)
      let s := askStripes b zs s
      if stripesKnown s b zs then shardVerdict b (manShards b) 0 s else s
    | _ :: _ :: _ => giveVerdict step r 1 0xFFFFFFFF (noteDivergence 0xFFFF s)

/-- What was fetched is let go when nothing uses it any more. -/
def clearFetched (s : State) : State :=
  if (s.cmds.any fun c => c.begun && (c.op == 0x57 || c.op == 0x58)) || s.ckpt.sessions.any (fun e => e.2.state == 9) then s
  else setCkpt s fun c => { c with asked := [], replies := [] }

/-- The scan ends: the report is written and RESTORE_SCAN completes (R463). `newer` are the candidates that failed, newest
first. -/
def endScan (sel : Option Nat) (newer : List Nat) (s : State) : State :=
  let fails := newer.flatMap fun step =>
    sortBy (fun e => e.2.1) (s.ckpt.scan.results.filter fun e => e.1 == step && e.2.2.1 != 0)
  let rep := leBytes 4 fails.length ++ leBytes 8 (sel.getD 0) ++ leBytes 4 0 ++
    fails.flatMap fun e => leBytes 8 e.1 ++ leBytes 2 e.2.1 ++ leBytes 1 e.2.2.1 ++ leBytes 1 0 ++ leBytes 4 e.2.2.2
  let s := setCkpt s fun c => { c with scan := .none, selected := sel }
  let s := (s.cmds.filter fun c => c.begun && c.op == 0x57).foldl (fun s c =>
    if c.d 6 < rep.length then complete c ck.SHORT rep.length s
    else
      let s := dmaWrite 0 (c.d 7 % 2) (c.q 4) rep s
      match sel with
      | some step => complete c st.OK step s
      | none => complete c ck.NO_STEP 0 s) s
  clearFetched s

/-- Candidates in turn, newest first, until one has every verdict 0 (R462). -/
def scanFrom (g : CkGroup) : List Nat → List Nat → State → State
  | [], newer, s => endScan none newer s
  | step :: l, newer, s =>
    match stepManifest s step with
    | none =>
      scanFrom g l (newer ++ [step])
        (if (scanResult s step 0).isSome then s else setScan s fun c => { c with results := c.results ++ [(step, 0, 1, 0xFFFFFFFF)] })
    | some b =>
      let uids := manUids b
      let s := (List.range uids.length).foldl (fun s r => verifyRank g uids step r s) s
      let rs := (List.range uids.length).map (scanResult s step)
      if rs.any (·.isNone) then s
      else if rs.all (fun o => match o with | some (reason, _) => reason == 0 | none => false) then endScan (some step) newer s
      else scanFrom g l (newer ++ [step]) s

/-- Goes on with the scan: every surviving member's first VERDICT has come. -/
def scanTry (s : State) : State :=
  match s.ckpt.group with
  | none => s
  | some g =>
    let others := g.members.filter fun m => m.uid != ownUnit s && survives g m.uid
    if ¬ s.ckpt.scan.active ∨ others.any (fun m => !(s.ckpt.scan.firsts.map (·.1)).contains m.uid) then s
    else
      let heard := (s.ckpt.scan.firsts.filter fun e => survives g e.1).flatMap (·.2)
      scanFrom g (heard.foldl (fun l x => addSorted x l) (ownCandidates s g).reverse).reverse [] s

/-- RESTORE_SCAN: candidate lists are exchanged, and then verdicts (R462, R463). -/
def execRestoreScan (k : CmdRef) (s : State) : Host.Outcome State Fault Refusal :=
  let s := runSvc k 0x57 noInv ckFenced
    (fun _ s => formedOnly s fun g =>
      if s.ckpt.scan.active then .done st.STATE_CONFLICT 0 s
      else
        let l := ownCandidates s g
        let body := leBytes 1 0 ++ leBytes 1 0 ++ leBytes 2 l.length ++ leBytes 4 0xFFFFFFFF ++ l.flatMap (leBytes 8)
        .wait (ckTell (fun _ => true) 12 0 g.rank body (setScan s fun c => { c with active := true }))) s
  .next (scanTry s)

/-- VERDICT: a member's first one carries its candidates; each later one its verdict on one rank of a step (R462). -/
def execVerdict (t : Nat) (m : CkMsg) (reason shard : Nat) (steps : List Nat) (s : State) : Host.Outcome State Fault Refusal :=
  .next <| ckRecv t m (fun _ uid s =>
    let first := !(s.ckpt.scan.firsts.map (·.1)).contains uid
    let s := if first then setScan s fun c => { c with firsts := c.firsts ++ [(uid, steps)] }
      else if (scanResult s m.step m.src).isSome then s
      else setScan s fun c => { c with results := c.results ++ [(m.step, m.src, reason, shard)] }
    scanTry s) s

/-! ### Restore sessions and export (R465, R467) -/

/-- WRITEs of a shard on its port. -/
def writeShard (i j : Nat) (r : CkRegion) (d : List Byte) (s : State) : State :=
  match portLinks s r.port with
  | [] => s
  | l :: _ =>
    let s := sendWrites l (d.length + 1) r.addr d s
    modRegion i j (fun r => { r with done := r.len, begun := true, digest := sha256 d }) s

/-- Goes on with a restore session: each shard not yet written whose units are known is assembled, checked and written. -/
def restoreTry (i : Nat) (s : State) : State :=
  match getSess s i with
  | none => s
  | some x =>
    match x.manifest with
    | none => s
    | some b =>
      if x.state ≠ 9 ∨ x.fail.isSome then s
      else (enumFrom 0 x.regions).foldl (fun s e =>
        if e.2.begun then s
        else
          let zs := shardStripes b e.1
          let s := askStripes b zs s
          if ¬ stripesKnown s b zs ∨ portLinks s e.2.port = [] then s
          else match assembleShard s b e.1 with
            | .inr _ => failLater i 11 s
            | .inl (d, diverged) =>
              let s := if diverged then noteDivergence e.1 s else s
              writeShard i e.1 e.2 d (ckCount 6 (rebuiltUnits s b e.1) s)) s

/-- The manifest of a step's rank. -/
def rankManifest (s : State) (step r : Nat) : Option (List Byte) :=
  match s.ckpt.group with
  | none => none
  | some g => s.ckpt.manifests.find? fun b => manGroup b == g.id && manStep b == step && manRank b == r && manIntact s b

/-- The output of SHARD_EXPORT (R467). -/
def exportBytes (b : List Byte) (i : Nat) (d : List Byte) : List Byte :=
  leBytes 4 0x534B4345 ++ leBytes 1 1 ++ leBytes 3 0 ++ leBytes 8 (manStep b) ++ leBytes 4 (manGroup b) ++ leBytes 2 (manRank b) ++
    leBytes 2 0 ++ leBytes 4 i ++ leBytes 4 0 ++ leBytes 8 d.length ++ (manDigest b i).take 24 ++ d

/-- Goes on with an export in hand. -/
def exportTry (c : SvcCmd) (s : State) : State :=
  match rankManifest s (c.q 4) (c.d 6) with
  | none => complete c ck.STEP_FAILED 11 s
  | some b =>
    let zs := shardStripes b (c.d 7)
    let s := askStripes b zs s
    if ¬ stripesKnown s b zs then s
    else match assembleShard s b (c.d 7) with
      | .inr _ => complete c ck.STEP_FAILED 11 s
      | .inl (d, diverged) =>
        let s := if diverged then noteDivergence (c.d 7) s else s
        let out := exportBytes b (c.d 7) d
        complete c st.OK out.length (dmaWrite 0 (c.d 11 % 2) (c.q 8) out (ckCount 6 (rebuiltUnits s b (c.d 7)) s))

/-- Everything that waits for units goes on. -/
def fetchGoOn (s : State) : State :=
  let s := scanTry s
  let s := (s.ckpt.sessions.map (·.1)).foldl (fun s i => restoreTry i s) s
  let s := (s.cmds.filter fun c => c.begun && c.op == 0x58).foldl (fun s c => exportTry c s) s
  clearFetched s

def exportOffence (c : SvcCmd) (s : State) : Option Nat :=
  match stepManifest s (c.q 4) with
  | none => none
  | some b =>
    if manN b ≤ c.d 6 then some 24
    else match rankManifest s (c.q 4) (c.d 6) with
      | some b => if manShards b ≤ c.d 7 then some 28 else none
      | none => none

/-- SHARD_EXPORT (R467). -/
def execShardExport (k : CmdRef) (s : State) : Host.Outcome State Fault Refusal :=
  let s := runSvc k 0x58 exportOffence ckFenced
    (fun c s => formedOnly s fun _ =>
      if s.ckpt.selected ≠ some (c.q 4) then .done ck.NO_STEP 0 s
      else match rankManifest s (c.q 4) (c.d 6) with
        | none => .done ck.STEP_FAILED 11 s
        | some b =>
          let need := 64 + leAt b (manShard b (c.d 7) + 8) 8
          if c.d 10 < need then .done ck.SHORT need s else .wait s) s
  .next (fetchGoOn s)

/-- UNIT_REQ: answered with the unit, or with its absence (R465). -/
def execUnitReq (t : Nat) (m : CkMsg) (s : State) : Host.Outcome State Fault Refusal :=
  .next <| ckRecv t m (fun g _ s =>
    let body := match ownUnitData s g.id m.step m.src m.stripe m.unit with
      | some d => leBytes 1 0 ++ List.replicate 31 0 ++ d
      | none => leBytes 1 1 ++ List.replicate 31 0
    ckSend m.sender 11 m.step m.src m.unit m.stripe body s) s

/-- UNIT_DATA: the answer for a unit that was asked for (R465). -/
def execUnitData (t : Nat) (m : CkMsg) (code : Nat) (data : List Byte) (s : State) : Host.Outcome State Fault Refusal :=
  .next <| ckRecv t m (fun _ _ s =>
    let k : UnitKey := (m.step, m.src, m.stripe, m.unit)
    if ¬ s.ckpt.asked.contains k then s
    else fetchGoOn (setCkpt s fun c => { c with
      asked := c.asked.filter (· != k), replies := c.replies ++ [(k, if code = 0 then some data else none)] })) s

/-- A restore session at an edge: written shards are released; RESTORED at the edge after the final RELEASE (R465). -/
def edgeRestore (i : Nat) (s : State) : State :=
  match getSess s i with
  | none => s
  | some x =>
    if x.state ≠ 9 then s
    else if x.final then
      finishCmds (fun c => c.op == 0x54 && c.obj == i) st.OK 0 (penBit pCKPT 7 (putSess i { x with state := 0xA } s))
    else edgeRelease i s

/-- What the checkpoint service does at step 7 of an edge. -/
def edgeCkpt (s : State) : State :=
  if ¬ ckptOn s then s
  else
    let s := edgeCapture s
    let s := (s.ckpt.sessions.map (·.1)).foldl (fun s i => edgeRestore i s) s
    fetchGoOn s

/-- A soft reset of CKPT: every session in progress fails with ABORTED, the group is left (chapter 13, The CKPT page). -/
def ckptSoftReset (s : State) : State :=
  let s := s.ckpt.sessions.foldl (fun s e => if sessBusy e.2 then failSession e.1 9 s else s) s
  dropGroup (finishCmds (fun c => c.op == 0x50 || c.op == 0x51 || c.op == 0x57 || c.op == 0x58) st.ABORTED 0 s)

end Sys2Proof.Machine
end

