-- ==== Sys2Proof/Machine/EthFrames.lean ====
section
/-! DEFINITION. Frames sent and received on the Ethernet sub-ports, and the sub-ports going up and down (chapter 09, R312,
R332, R344, R349 to R352). -/

namespace Sys2Proof.Machine

/-! ### Sending -/

/-- A data packet goes out (R315, R321, R328, R332, R334). -/
def transmitData (f : Frame) (s : State) : State :=
  match getQp s f.qp with
  | none => s
  | some x =>
    match x.tx.find? fun p => p.psn == f.psn with
    | none => s
    | some p =>
      let path := x.path.getD f.sub 0 % max 1 x.paths
      let bytes := udpFrame s f.sub x path f.ce (dataBody s f.qp x p)
      let again := decide (0 < p.tries)
      let tx := x.tx.map fun r =>
        if r.psn = f.psn then { r with st := 2, tries := r.tries + 1, sentAt := s.now, sub := some f.sub, fast := false } else r
      let sent : Bool := match p.wqe with
        | some i => (tx.filter fun r => r.wqe == some i).all fun r => decide (0 < r.tries)
        | none => false
      let sq : List Wqe := x.sq.map fun (w : Wqe) =>
        if sent ∧ some w.idx = p.wqe ∧ (w.op = 1 ∨ w.op = 2) ∧ w.status.isNone then { w with status := some 0, bytes := w.len } else w
      let s := putQp f.qp { x with tx := tx, sq := sq, path := x.path.set f.sub ((path + 1) % max 1 x.paths) } s
      let s := rmtCount 0 (if again then rmtCount 2 s else s)
      let s := match p.wqe with
        | some i => tagStage 2 (rmtTag f.qp i) 1 true (tagStage 2 (rmtTag f.qp i) 0 false s)
        | none => s
      settleQp f.qp (perfEvent pRMT 0x100 0xFF 1 (putWire f.sub f.cls bytes s))

/-- An ACK or CNP goes out. -/
def transmitCtl (f : Frame) (s : State) : State :=
  match getQp s f.qp with
  | none => s
  | some x => putWire f.sub f.cls (udpFrame s f.sub x 0 f.ce (ctlBody s f.bytes)) s

/-- A raw frame goes out with its FCS; its SEND completes, with the transmit time where it asks for one (R351, R352). -/
def transmitRaw (f : Frame) (s : State) : State :=
  let s := putWire f.sub f.cls (f.bytes ++ leBytes 4 (crc32 f.bytes)) s
  match getQp s f.qp with
  | none => s
  | some x =>
    settleQp f.qp (putQp f.qp { x with
      sq := x.sq.map fun w =>
        if w.idx = f.psn ∧ w.begun ∧ w.status.isNone then
          { w with status := some 0, bytes := w.len, ts := if bitOf w.flags 3 then some s.now else none }
        else w } s)

/-- EGRESS_TRANSMIT: a free sub-port sends the frame the scheduler chooses (R344 to R348). -/
def execEgressTransmit (t sub : Nat) (s : State) : Host.Outcome State Fault Refusal :=
  .next <|
    let s := atTime t s
    if t < s.rmt.busy.getD sub 0 ∨ ¬ subUp s sub ∨ ¬ blkRunning s pEGS ∨ ¬ blkRunning s (pETH (sub / 4)) then s
    else
      let (f, s) := schedule sub (admitAll s)
      match f with
      | none => s
      | some f =>
        let s := occupy sub f.len s
        if f.kind = 0 then transmitData f s else if f.kind = 1 then transmitCtl f s else transmitRaw f s

/-! ### Receiving -/

/-- Bytes of the header before the EtherType, and the EtherType, with one accepted tag (R349). -/
def etherOf (b : List Byte) : Nat × Nat := if beAt b 12 2 = 0x8100 then (18, beAt b 16 2) else (14, beAt b 12 2)

/-- An IPv4 address of ETH.ADDR on any port. -/
def ownV4Addr (s : State) (a : Nat) : Bool :=
  a != 0 && (List.range 16).any fun i => ethReg s i R.ETH.ADDR_IPV4 == a

/-- An IPv6 address of ETH.ADDR on any port. -/
def ownV6Addr (s : State) (a : List Byte) : Bool :=
  !allZero a && (List.range 16).any fun i => ownV6 s i == a

/-- A UDP datagram a frame carries to an address of the device: destination port, ECN, payload, and whether its IPv6
checksum is right (R312). -/
def udpOf (s : State) (b : List Byte) : Option (Nat × Nat × List Byte × Bool) :=
  let (o, ty) := etherOf b
  if ty = 0x0800 then
    let plain := beAt b o 1 = 0x45 ∧ beAt b (o + 6) 2 % 2 ^ 15 = 2 ^ 14 ∧ beAt b (o + 9) 1 = 17
    if plain ∧ ownV4Addr s (beAt b (o + 16) 4) then
      some (beAt b (o + 22) 2, beAt b (o + 1) 1 % 4, (b.drop (o + 28)).take (beAt b (o + 24) 2 - 8), true)
    else none
  else if ty = 0x86DD then
    let n := beAt b (o + 44) 2
    let udp := (b.drop (o + 40)).take n
    if beAt b (o + 6) 1 = 17 ∧ ownV6Addr s ((b.drop (o + 24)).take 16) then
      let sum := ipChecksum ((b.drop (o + 8)).take 32 ++ beBytes 4 n ++ beBytes 4 17 ++ udp)
      some (beAt b (o + 42) 2, bitsOf (beAt b o 2) 4 2, udp.drop 8, sum == 0)
    else none
  else none

/-- A PTP message: over Ethernet, or UDP to ports 319 and 320; and whether it is an event message (R351). -/
def ptpOf (s : State) (b : List Byte) : Option Bool :=
  let (o, ty) := etherOf b
  if ty = 0x88F7 then some (decide (beAt b o 1 % 16 < 4))
  else match udpOf s b with
    | some (p, _, body, _) => if p = 319 ∨ p = 320 then some (decide (beAt body 0 1 % 16 < 4)) else none
    | none =>
      if (ty = 0x0800 ∧ beAt b o 1 = 0x45 ∧ beAt b (o + 9) 1 = 17 ∧ (beAt b (o + 22) 2 = 319 ∨ beAt b (o + 22) 2 = 320)) ∨
          (ty = 0x86DD ∧ beAt b (o + 6) 1 = 17 ∧ (beAt b (o + 42) 2 = 319 ∨ beAt b (o + 42) 2 = 320)) then
        some (decide (beAt b (o + 42) 2 = 319 ∨ beAt b (o + 22) 2 = 319))
      else none

/-- The tick slave is enabled on this sub-port (R351, chapter 02). -/
def slaveOn (s : State) (sub : Nat) : Bool :=
  fld s pTICK R.TICK.PTP_CFG 4 1 == 1 && fld s pTICK R.TICK.PTP_CFG 0 2 == sub / 4 && fld s pTICK R.TICK.PTP_CFG 2 2 == sub % 4

/-- A PFC frame sets the pause of each enabled priority it names: quanta of 512 bit times (R350). -/
def takePfc (sub : Nat) (b : List Byte) (s : State) : State :=
  let en := fld s (pETH (sub / 4)) R.ETH.CFG 8 8
  let vec := beAt b 16 2
  let s := (List.range 8).foldl (fun s p =>
    if bitOf vec p ∧ bitOf en p then
      let q := beAt b (18 + 2 * p) 2
      let until_ := s.now + ceilDiv (q * 512 * 1000) (subMbps s sub)
      setRmt s fun r => { r with pause := if q = 0 then mdel r.pause (sub * 8 + p) else mput r.pause (sub * 8 + p) until_ }
    else s) s
  if vec % 256 &&& en = 0 then s else penBit (pETH (sub / 4)) 2 (ethCount (sub / 4) 5 1 s)

/-- A PFC frame of the device for one priority: IEEE 802.1Qbb's frame, padded to 60 bytes (R350; log entry 67). It bypasses
every level and every gate (R344). -/
def sendPfc (sub prio quanta : Nat) (s : State) : State :=
  let times := (List.range 8).flatMap fun p => beBytes 2 (if p = prio then quanta else 0)
  let b := beBytes 6 0x0180C2000001 ++ beBytes 2 (ethReg s sub R.ETH.ADDR_MAC_HI % 65536) ++
    beBytes 4 (ethReg s sub R.ETH.ADDR_MAC_LO) ++ beBytes 2 0x8808 ++ beBytes 2 0x0101 ++ beBytes 2 (2 ^ prio) ++ times ++
    List.replicate 26 0
  ethCount (sub / 4) 1 1 (ethCount (sub / 4) 6 1 (emit (.eth sub "PFC" ((b ++ leBytes 4 (crc32 b)).map (·.toNat))) s))

/-- The receive buffer of an enabled priority passes XOFF, or falls below half of it (R350). -/
def rxLevel (sub : Nat) (e : Nat × Nat) (s : State) : State :=
  let key := sub * 8 + e.1
  let xoff := fld s (pETH (sub / 4)) R.ETH.CFG 24 8 * 16384
  let sent := s.rmt.xoffSent.contains key
  if ¬ bitOf (fld s (pETH (sub / 4)) R.ETH.CFG 8 8) e.1 then s
  else if ¬ sent ∧ xoff < e.2 then sendPfc sub e.1 0xFFFF (setRmt s fun r => { r with xoffSent := r.xoffSent ++ [key] })
  else if sent ∧ e.2 < xoff / 2 then sendPfc sub e.1 0 (setRmt s fun r => { r with xoffSent := r.xoffSent.filter (· != key) })
  else s

/-- The raw QP of a sub-port. -/
def rawQp (s : State) (sub : Nat) : Option (Nat × Qp) :=
  s.rmt.qps.find? fun e => e.2.ty == 1 && e.2.state == 2 && bitOf e.2.portMask sub

/-- A frame, without its FCS, for the raw QP (R352). -/
def takeRaw (sub : Nat) (b : List Byte) (ts : Option Nat) (s : State) : State :=
  let drop := penBit (pETH (sub / 4)) 4 (ethCount (sub / 4) 8 1 s)
  match rawQp s sub with
  | none => drop
  | some (q, x) =>
    match x.rq.find? fun w => w.posted && w.status.isNone with
    | none => drop
    | some w =>
      if w.len < b.length ∨ spotOrphan s w.spot ∨ freezing s x.func then drop
      else
        let s := placeAt w.spot 0 b s
        match getQp s q with
        | none => s
        | some x =>
          settleQp q (putQp q { x with
            rq := x.rq.map fun v => if v.idx = w.idx then { v with status := some 0, bytes := b.length, msn := w.idx, ts := ts } else v } s)

/-- ETH_FRAME_RECEIVE: a whole frame, FCS included, arrives on a sub-port with the FEC corrections and uncorrectable
codewords seen before it, `fec`; `levels` are bytes its priorities' receive buffers hold then; `host` is what host memory returns to a
READ_REQ it carries (R312, R349 to R352). -/
def execEthFrameReceive (t sub : Nat) (fec : Nat × Nat) (levels : List (Nat × Nat)) (bytes : List Byte) (host : Option (List Byte))
    (s : State) : Host.Outcome State Fault Refusal :=
  .next <|
    let s := atTime t s
    let port := sub / 4
    if ¬ subUp s sub ∨ ¬ blkRunning s (pETH port) then s
    else
      let s := ethCount port 4 fec.2 (ethCount port 3 fec.1 (ethCount port 0 1 s))
      let s := levels.foldl (fun s e => rxLevel sub e s) s
      let b := bytes.take (bytes.length - 4)
      if leAt bytes (bytes.length - 4) 4 ≠ crc32 b then penBit (pETH port) 3 (ethCount port 2 1 s)
      else if bytes.length < 18 ∨ 9216 < bytes.length then s
      else if (etherOf b).2 = 0x8808 ∧ beAt b (etherOf b).1 2 = 0x0101 then takePfc sub b s
      else match ptpOf s b with
        | some event =>
          let s := ethCount port 9 1 s
          if slaveOn s sub then s else takeRaw sub b (if event then some s.now else none) s
        | none => match udpOf s b with
          | some (dport, ecn, body, sumOk) =>
            if dport ≠ fld s pRMT R.RMT.CFG 16 16 then takeRaw sub b none s
            else if ¬ blkRunning s pRMT then s
            else if ¬ sumOk then penBit pRMT 4 (rmtCount 7 s)
            else rmtReceive port (ecn == 3) body host s
          | none => takeRaw sub b none s

/-! ### Sub-ports -/

/-- A sub-port goes down: queued data packets go back to their QPs, control packets to another sub-port (R332). -/
def subportDown (sub : Nat) (s : State) : State :=
  if ¬ subUp s sub then s
  else
    let s := setFld s (pETH (sub / 4)) R.ETH.STAT (sub % 4) 1 0
    let s := errInfo (pETH (sub / 4)) 1 (sub % 4) (penBit (pETH (sub / 4)) 1 s)
    let l := s.rmt.frames.filter fun f => f.sub == sub
    let s := setRmt s fun r => { r with frames := r.frames.filter fun f => !(f.sub == sub && f.kind != 2) }
    let s := l.foldl (fun s f =>
      match getQp s f.qp with
      | none => s
      | some x =>
        if f.kind = 0 then
          putQp f.qp { x with tx := x.tx.map fun p => if p.psn = f.psn then { p with st := 0 } else p } s
        else if f.kind = 1 then sendCtl f.qp f.bytes s
        else s) s
    admitAll s

/-- SUBPORT_DOWN. -/
def execSubportDown (t sub : Nat) (s : State) : Host.Outcome State Fault Refusal := .next (subportDown sub (atTime t s))

/-- SUBPORT_UP: a sub-port of the mode in force finishes training (R22, R349). -/
def execSubportUp (t sub : Nat) (s : State) : Host.Outcome State Fault Refusal :=
  .next <|
    let s := atTime t s
    if ¬ subExists s sub ∨ subUp s sub ∨ ¬ blkRunning s (pETH (sub / 4)) then s
    else admitAll (penBit (pETH (sub / 4)) 0 (setFld s (pETH (sub / 4)) R.ETH.STAT (sub % 4) 1 1))

/-- A committed change of MODE takes a port down (ETH.CFG). -/
def ethModeChange (port mode : Nat) (s : State) : State :=
  if fld s (pETH port) R.ETH.STAT 4 2 = mode then s
  else setFld (forN 4 s fun i s => subportDown (4 * port + i) s) (pETH port) R.ETH.STAT 4 2 mode

/-- A committed gate list that breaks R347 is not applied: its port keeps every gate open. -/
def gateCommit (port : Nat) (s : State) : State :=
  let n := fld s pEGS R.EGS.GATE_CFG (5 * port) 5
  if n = 0 ∨ gateList s port ≠ [] then s
  else
    let s := setFld s pEGS R.EGS.GATE_CFG (5 * port) 5 0
    let s := forN 16 s fun e s => setRegN s pEGS (R.EGS.GATE_SH + 0x40 * port + 4 * e) 0xFF000000
    errInfo pEGS 1 port (penBit pEGS 1 s)

end Sys2Proof.Machine
end

