-- ==== Sys2Proof/Machine/Boot.lean ====
section
/-! DEFINITION. The boot flash and the boot chain: checks of images and slots, the choice of a slot, and what the MSS shows of
the running firmware (R561 to R570). -/

namespace Sys2Proof.Machine

def setMgmt (s : State) (f : Mgmt → Mgmt) : State := { s with mgmt := f s.mgmt }

def img2.flags (x : FwImage) : Nat := leAt x.hdr 6 2
def img2.svn (x : FwImage) : Nat := leAt x.hdr 8 4
def img2.version (x : FwImage) : Nat := leAt x.hdr 0x0C 4

/-- RELEASED (R564). -/
def imageReleased (x : FwImage) : Bool := bitOf (img2.flags x) 0

/-- Both halves of KEY_IDX are at or above KEY_FLOOR, and name one of the four ROM entries (R561). -/
def keysOk (keyIdx floor : Nat) : Bool :=
  decide (floor % 16 ≤ keyIdx % 16) && decide (keyIdx % 16 < 4) && decide (floor / 16 ≤ keyIdx / 16) && decide (keyIdx / 16 < 4)

/-- The component table holds its stated values: entries in use of TYPE 1 to 4 with reserved bytes 0. -/
def componentsOk (x : FwImage) : Bool :=
  let n := leAt x.hdr 0x10 1
  decide (1 ≤ n) && decide (n ≤ 16) && (List.range n).all fun i =>
    let o := 0x40 + 64 * i
    decide (1 ≤ leAt x.hdr o 1) && decide (leAt x.hdr o 1 ≤ 4) && leAt x.hdr (o + 2) 2 == 0

/-- The header fields hold their stated values (R564). -/
def headerOk (x : FwImage) : Bool :=
  leAt x.hdr 0 4 == 0x49574645 && leAt x.hdr 4 1 == 1 && leAt x.hdr 5 1 == 1 && decide (img2.flags x < 4) &&
    allZero ((x.hdr.drop 0x11).take 3) && decide (leAt x.hdr 0x14 4 ≤ 48 * 2 ^ 20) && allZero ((x.hdr.drop 0x20).take 32) &&
    componentsOk x && x.zero

/-- An image passes its check (R564). -/
def imageOk (m : Mgmt) (x : FwImage) : Bool :=
  headerOk x && x.trailer && keysOk x.keyIdx m.cfg.keyFloor && decide (m.c0 ≤ img2.svn x) &&
    (imageReleased x || bitOf m.cfg.debug 1) && x.hashes

def slotAt (m : Mgmt) (i : Nat) : FwSlot := m.slots.getD i ⟨none, 0, 0, false⟩

/-- A slot is intact (R565). -/
def slotIntact (m : Mgmt) (i : Nat) : Bool :=
  match (slotAt m i).image with
  | some x => imageOk m x && (slotAt m i).record
  | none => false

/-- A slot of R565's list of good ones. -/
def slotGood (m : Mgmt) (i : Nat) : Bool := slotIntact m i && decide ((slotAt m i).attempts < 3)

/-- R565: the slot selected, 2 for the recovery loader, and whether two slots of one SEQ differ. -/
def selectSlot (m : Mgmt) : Nat × Bool :=
  let a := slotAt m 0
  let b := slotAt m 1
  if slotGood m 0 ∧ slotGood m 1 then
    if a.seq = b.seq then (if a.image.map (·.hdr) = b.image.map (·.hdr) then (0, false) else (2, true))
    else (if a.seq < b.seq then 1 else 0, false)
  else if slotGood m 0 then (0, false)
  else if slotGood m 1 then (1, false)
  else (2, false)

/-- What the MSS page shows of the running image, the counters and the log. -/
def showMss (s : State) : State :=
  let m := s.mgmt
  let (ver, svn, rel) := match m.fw with
    | some x => (img2.version x, img2.svn x, imageReleased x)
    | none => (0, 0, false)
  let stat := m.running + (if m.fallback then 4 else 0) + (if rel then 8 else 0) + (if bitOf m.cfg.debug 0 then 16 else 0)
  let s := setRegN (setRegN s pMSS R.MSS.FW_VER ver) pMSS R.MSS.FW_SVN svn
  let s := setRegN (setRegN s pMSS R.MSS.SVN_FLOOR m.c0) pMSS R.MSS.BOOT_STAT stat
  setRegN s pMSS R.MSS.BOOT_COUNT m.c2

/-- The MSS component of an image is loaded into the MSS SRAM (R564, R567). -/
def loadMssPart (parts : List FwPart) (s : State) : State :=
  parts.foldl (fun s p => if p.ty = 1 then { s with mem := memWrite s.mem (mssKey p.load) p.bytes } else s) s

/-- The MSS component of the running image is loaded (R567). -/
def startMssPart (s : State) : State := match s.mgmt.fw with | some x => loadMssPart x.parts s | none => s

/-- A key of the table of R558: the first bits of the derivation's first block, for a label of ASCII bytes. -/
def derivedKey (label : List Byte) (bits : Nat) : List Byte :=
  (hmac384 Config.deviceKey (Config.kdfInput label bits)).take (bits / 8)

def deviceKeys : DevKeys := {
  seed := derivedKey [0x49, 0x44] 384, wrap := derivedKey [0x4B, 0x57, 0x4B] 256
  sealing := derivedKey [0x53, 0x45, 0x41, 0x4C] 256, root := derivedKey [0x52, 0x50, 0x4D, 0x43] 256 }

/-- At a power-up of the always-on domain the ROM derives the device's keys; at the first one it writes the root key into the
boot flash, which may refuse it (R557, R558). -/
def romKeys (refused : Bool) (s : State) : State :=
  let k := deviceKeys
  setMgmt s fun m =>
    if m.rootKey.isSome ∨ m.rootRefused then { m with keys := some k }
    else { m with keys := some k, rootRefused := refused, rootKey := if refused then none else some k.root }

/-- The ROM starts a slot, whose ATTEMPTS rise, or the recovery loader (R565, R566, R570); with a root key refused it halts in
ROM recovery (R558). The reason in the log entries is
not stated: an open value. -/
def romBoot (s : State) : State :=
  let s := setMgmt s fun m => match m.pendCfg with
    | some c => { m with cfg := c, pendCfg := none }
    | none => m
  let m := s.mgmt
  let (slot, clash) := if m.rootRefused then (2, false) else selectSlot m
  let s := if clash then logEvent 0x0004 none [0, 0] s else s
  let (why, s) := freeVal s
  let passed := (List.range 2).find? fun i => !m.rootRefused && slotIntact m i && decide (3 ≤ (slotAt m i).attempts)
  let s := match passed with
    | some i => logEvent 0x0002 none [i, why % 256] (errInfo pMSS 2 i (penBit pMSS 2 s))
    | none => s
  let s := if slot = 2 then logEvent 0x0003 none [why % 256] (setAlert 5 true s) else setAlert 5 false s
  let raise (m : Mgmt) : List FwSlot :=
    if slot = 2 then m.slots else m.slots.set slot { slotAt m slot with attempts := (slotAt m slot).attempts + 1 }
  showMss (startMssPart (setMgmt s fun m => { m with
    slots := raise m, running := slot, fw := if slot = 2 then m.loader.filter fun x => !m.rootRefused && imageOk m x else (slotAt m slot).image
    fallback := passed.isSome, ready := false, posted := false, hold := false }))

/-- A main-domain boot: C2 rises, and C1 to the VERSION of a valid configuration block (R562, R569). -/
def countBoot (s : State) : State :=
  showMss (setMgmt s fun m => { m with
    c2 := m.c2 + 1, c1 := if m.cfg.valid then max m.c1 m.cfg.version else m.c1 })

/-- The main domain may be powered: in the recovery loader it stays off (R570). -/
def bootAllows (s : State) : Bool := decide (s.mgmt.running ≠ 2)

end Sys2Proof.Machine
end

