-- ==== Sys2Proof/Machine/Resets.lean ====
section
/-! DEFINITION. The resets of R38 that take in the whole main domain. -/

namespace Sys2Proof.Machine

/-- A key of a register map lies in the MSS page, which the always-on domain keeps (R38). -/
def inMssPage (k : Nat) : Bool := decide (0x2000 ≤ k) && decide (k < 0x3000)

/-- A key of a register map lies in the PWR page. -/
def inPwrPage (k : Nat) : Bool := k / 0x1000 == pageBase .pwr / 0x1000

/-- NVMe without power: the commands whose programs run on are known still, and no queue takes their completions. -/
def unpowered (n : Nvme) : Nvme :=
  { n with ctrls := n.ctrls.map fun e => (e.1, { Ctrl.reset with cmds := e.2.cmds }) }

/-- The tiles, SerDes, tensor units, LPDDR5X and fabric are off (R52, R54): what they held is lost, the NAND programs in
progress go on, and the PWR page goes on showing the inputs and the steps. The last tick counts for its full period (R321). -/
def unitsOff (s : State) : State :=
  let r := State.reset
  let s := setRegN s pPWR R.PWR.STRETCH_ACTIVE 0
  { r with
    now := s.now, fresh := s.fresh, out := s.out, log := s.log, pending := s.pending, cmdSeq := s.cmdSeq, mgmt := s.mgmt
    flash := s.flash, nvme := unpowered s.nvme, ciph := s.ciph.kept, ckpt := s.ckpt.kept
    cores := r.cores.take 36 ++ s.cores.drop 36, mem := s.mem.filter fun e => decide (mssKey 0 ≤ e.1)
    regs := s.regs.filter fun e => inMssPage e.1 || inPwrPage e.1
    shadow := s.shadow.filter fun e => inMssPage e.1 || inPwrPage e.1
    latches := s.latches.filter fun e => inMssPage (e.1 % 2 ^ 32)
    power := { s.power with forced := false, capCut := false, droop := [], stretchFrom := [] }
    tick := { r.tick with
      count := s.tick.count, timeUs := s.tick.timeUs + (if s.tick.started then s.tick.period else 0), started := false } }

/-- What no reset of a domain touches: the flash medium, with the writes whose programming had begun (R392), the namespaces,
the landing area, and the keys in the flash root area (R39, R439, R500). -/
def keepMedium (old s : State) : State :=
  { s with flash := (landBegun old.nvme old.flash).kept, nvme := old.nvme.kept, ciph := old.ciph.kept, ckpt := old.ckpt.kept }

/-- The power-loss record is on both root dies (R431). -/
def writeRoots (s : State) : State :=
  { s with flash := { s.flash with roots := if s.flash.init then [some s.flash.seq, some s.flash.seq] else s.flash.roots } }

/-- Everything of the main domain returns to its cold-reset value; the always-on domain, the MSS page, the event log, the
tick count and the tick time stay (R38, R39, R321). The PWR page's thermal step returns to 0 with the page, so THERM3 does too
(R16); the inputs still read what they read (R604). The main domain is left in reset. -/
def mainReset (s : State) : State :=
  let vin := fld s pPWR R.PWR.IN_STAT 0 16
  let vaux := reg s pPWR R.PWR.AUX_STAT
  let s := setAlert 3 false (setAlert 0 false s)
  let s := setRegN (if s.mgmt.posted ∨ s.mgmt.hold then romBoot s else s) pMSS R.MSS.SPLICE_STAT 0
  let u := unitsOff s
  let s := keepMedium s { u with
    mgmt := { u.mgmt with splice := none, ready := false, posted := false, hold := false }
    regs := u.regs.filter fun e => inMssPage e.1
    shadow := u.shadow.filter fun e => inMssPage e.1
    power := { u.power with
      samples := [], excRun := 0
      fwReady := [false, false], quiesce := none, resetPending := false, powerLossWritten := false, phase := .inReset
      below62 := 0, below56 := 0, below52 := 0, cool1 := none, cool2 := none, cool3 := none } }
  setRegN (setRegN s pPWR R.PWR.IN_STAT vin) pPWR R.PWR.AUX_STAT vaux

/-- The main domain leaves reset: the first tick edge falls at the release, numbered 0 after a cold reset and one above
the last edge after a main reset (R35, R57). -/
def releaseReset (t : Nat) (s : State) : State :=
  let s := atTime t s
  let n := if s.power.cold then 0 else s.tick.count + 1
  let s := countBoot s
  let s := if n = 0 then s else forN 32 s fun i s => setRegN s pINTG (R.INTG.TILE_PASS + 4 * i) n
  emit (.tickOut n)
    { s with
      intg := { s.intg with epochAt := if n = 0 then [] else (List.range 32).map fun t => (t, n) }
      power := { s.power with phase := .running, cold := false, releaseAt := t, samples := [], excRun := 0 }
      tick := { s.tick with
        count := n, timeUs := if n = 0 then 0 else s.tick.timeUs, started := true, edgeAt := t, len := s.tick.period * 1000 } }

/-- A main reset takes effect now: the domain is reset and leaves reset at once when PWR_OK is asserted and RESET_N is
high (R35, R38). Where the recovery loader runs, the domain stays off (R570). -/
def mainResetNow (t : Nat) (s : State) : State :=
  let s := mainReset (atTime t s)
  if ¬ bootAllows s then
    let s := if s.power.pwrOk then emit (.pin "PWR_OK" false) s else s
    { s with power := { s.power with phase := .off, pwrOk := false } }
  else if s.power.pwrOk ∧ s.power.resetN then releaseReset t s else s

end Sys2Proof.Machine
end

