-- ==== Sys2Proof/Machine/Splice.lean ====
section
/-! DEFINITION. A splice: its status, its start, its rollback (R573, R576, R577). -/

namespace Sys2Proof.Machine

/-- SPLICE_STAT: STATE, RESULT, CORE and COMP. -/
def setSplice (st result core comp : Nat) (s : State) : State :=
  setRegN s pMSS R.MSS.SPLICE_STAT (st * 2 ^ 24 + result * 2 ^ 16 + core % 256 * 2 ^ 8 + comp % 256)

/-- The Firmware Commit that waits for a splice completes. -/
def endCommit (status : Nat) (s : State) : State :=
  match s.mgmt.splice with
  | some x => (match x.cmd with
    | some (f, n) => (match (getCtrl s f).cmds.find? fun c => c.num == n with
      | some c => endNvme f c status 0 s
      | none => s)
    | none => s)
  | none => s

/-- Rollback: logged, SPLICE_ROLLBACK with its capture, slot records unchanged (R576, R577). -/
def rollSplice (result core comp : Nat) (s : State) : State :=
  let s := setMgmt (endCommit nv.SPLICE s) fun m => { m with splice := none }
  let s := errInfo pMSS 3 (core % 256 * 256 + comp % 256) (penBit pMSS 5 (setSplice 0 result core comp s))
  logEvent 0x000C none [reg s pMSS R.MSS.SPLICE_STAT] s

/-- Sag step 2, a main reset request or a thermal trip before commit rolls a splice back (R576). -/
def breakSplice (s : State) : State := if s.mgmt.splice.isSome then rollSplice 6 0 0 s else s

/-- Entry `i` of a hand-over table (R574): direction, OPTIONAL, BLOCK_ID, VER_MIN, VER_MAX. -/
structure HandOver where
  dir : Nat
  opt : Bool
  id : Nat
  lo : Nat
  hi : Nat
  deriving DecidableEq, Repr

def handOvers (tab : List Byte) : List HandOver :=
  (List.range (tab.length / 16)).map fun i =>
    let o := 16 * i
    { dir := leAt tab (o + 2) 1, opt := bitOf (leAt tab (o + 3) 1) 0, id := leAt tab (o + 4) 4, lo := leAt tab (o + 8) 2
      hi := leAt tab (o + 10) 2 }

/-- The blocks handed over: those the running image produces (R573, R574). -/
def handedOver (m : Mgmt) : List Nat := match m.fw with
  | some x => ((handOvers x.table).filter fun e => e.dir == 0).map (·.id)
  | none => []

/-- The hand-over tables of the running image and of the new one match (R573). -/
def tablesMatch (old new : List Byte) : Bool :=
  let made := (handOvers old).filter fun e => e.dir == 0
  let taken := (handOvers new).filter fun e => e.dir == 1
  (made.all fun p => taken.any fun a => a.id == p.id && decide (a.lo ≤ p.lo) && decide (p.lo ≤ a.hi)) &&
    taken.all fun a => a.opt || made.any fun p => p.id == a.id

/-- A splice starts (R573): the image of the slot is checked, then the two hand-over tables; a failed check rolls back before
hand-over, else T is chosen. -/
def startSplice (slot : Nat) (cmd : Option (Nat × Nat)) (s : State) : State :=
  let s := setSplice 1 0 0 0 (setMgmt s fun m => { m with splice := some { slot := slot, at_ := 0, cmd := cmd } })
  match (slotAt s.mgmt slot).image, s.mgmt.fw with
  | some x, some y =>
    if imageOk s.mgmt x ∧ tablesMatch y.table x.table then
      let n := s.tick.count + 16
      let asked := reg64 s pMSS R.MSS.SPLICE_AT_LO
      let at_ := if asked ≠ 0 ∧ n ≤ asked then asked else n
      setSplice 2 0 0 0 (setMgmt s fun m => { m with splice := some { slot := slot, at_ := at_, cmd := cmd } })
    else rollSplice 2 0 0 s
  | _, _ => rollSplice 2 0 0 s

end Sys2Proof.Machine
end

