-- ==== Sys2Proof/Machine/Power.lean ====
section
/-! DEFINITION. The module: thermal steps and trip, main and auxiliary input, sag steps, quiesce and shutdown, power-up
and resets, droop stretching and the power cap (chapter 01). Voltages are in 10 mV units, power in 0.1 W units,
temperatures in whole °C, times in ns. -/

namespace Sys2Proof.Machine

abbrev MS : Nat := 1000000
abbrev SEC : Nat := 1000000000

/-! ### The effective limit (R45, R48, R50) -/

def sagStep (s : State) : Nat := fld s pPWR R.PWR.IN_STAT 16 2
def thermStep (s : State) : Nat := fld s pPWR R.PWR.THERM_STAT 8 2

def sagLimit (s : State) : Option Nat :=
  if sagStep s = 1 then some 450 else if sagStep s = 2 then some 250 else none

def thermLimit (s : State) : Option Nat :=
  if thermStep s = 1 then some 500 else if thermStep s = 2 then some 400 else if thermStep s = 3 then some 250 else none

/-- The least limit and the lowest-numbered source that gives it. -/
def effLimit (s : State) : Nat × Nat :=
  let pick (a : Nat × Nat) (o : Option Nat) (src : Nat) : Nat × Nat :=
    match o with
    | some v => if v < a.1 then (v, src) else a
    | none => a
  let a := (fld s pPWR R.PWR.CAP_HOST 0 16, 0)
  let a := pick a (some (fld s pPWR R.PWR.CAP_MGMT 0 16)) 1
  pick (pick a (sagLimit s) 2) (thermLimit s) 3

/-- PWR.CAP_STAT shows the effective limit and its source. -/
def showLimit (s : State) : State :=
  setFld (setFld s pPWR R.PWR.CAP_STAT 0 16 (effLimit s).1) pPWR R.PWR.CAP_STAT 16 3 (effLimit s).2

/-- The excursion length in force, ms: the lower EXC_MS, and 0 while a sag step is active (R46). -/
def excLength (s : State) : Nat :=
  if sagStep s = 0 then min (fld s pPWR R.PWR.CAP_HOST 16 4) (fld s pPWR R.PWR.CAP_MGMT 16 4) else 0

/-! ### Stretching (R42 to R44, R47) -/

def tileStretched (s : State) (t : Nat) : Bool := s.power.forced || (mget s.power.droop t).isSome

/-- After a change of the causes at `t`: STRETCH_ACTIVE, the tiles whose stretch ends, whose stretched cycles STRETCH_CYC then
holds (R44), and since when the others are stretched. -/
def showStretch (t : Nat) (s : State) : State :=
  let on := (List.range 32).filter (tileStretched s)
  let s := (s.power.stretchFrom.filter fun e => ¬ on.contains e.1).foldl
    (fun s e => addReg s pPWR (R.PWR.STRETCH_CYC + 4 * e.1) (stretchedSince s t e.1)) s
  let s := { s with power := { s.power with
    stretchFrom := on.map fun i => (i, (mget s.power.stretchFrom i).getD t) } }
  setRegN s pPWR R.PWR.STRETCH_ACTIVE (on.foldl (fun a i => a + 2 ^ i) 0)

/-! ### Going down -/

/-- All main rails off, with all they fed, PWR_OK deasserted (R17, R52, R54). A quiesce or shutdown is no longer in progress, so
ALERT_STAT.SAG returns to 0, and a main reset that waits is no longer due: the restart is one (R53). -/
def mainOff (s : State) : State :=
  let was := s.power.pwrOk
  let s := unitsOff { s with power := { s.power with phase := .off, pwrOk := false, quiesce := none, resetPending := false } }
  let s := setAlert 1 false s
  if was then emit (.pin "PWR_OK" false) s else s

/-- Sag step 2 starts the quiesce at the current tick (R52): ALERT_N low through ALERT_STAT.SAG, the partner told of the
takeover. -/
def startQuiesce (cause : Nat) (s : State) : State :=
  match s.power.quiesce with
  | some _ => s
  | none =>
    let s := { s with power := { s.power with quiesce := some s.tick.count, downCause := cause } }
    let s := breakSplice (logEvent 0x0005 (some pPWR) [cause] (setAlert 1 true s))
    sendHawser "NOTICE" [1, s.tick.count] s

/-- The shutdown sequence is latched (R54): PWR_OK deasserted, ALERT_N and FLASH_PFAIL_N low, and the load shed: only NAND
programs in progress go on (`mainOn`). A main reset that waits is no longer due (R53). -/
def startShutdown (cause : Nat) (s : State) : State :=
  if s.power.phase = .shutdown ∨ s.power.phase = .off then s
  else
    let s := unitsOff { s with power := { s.power with
      phase := .shutdown, pwrOk := false, flashPfail := true, downCause := cause, resetPending := false } }
    let s := breakSplice (emit (.pin "FLASH_PFAIL_N" false) (emit (.pin "PWR_OK" false) s))
    logEvent 0x0005 (some pPWR) [cause] (setAlert 1 true s)

/-! ### Thermal -/

def thermEntry (step : Nat) : Nat := if step = 1 then 98 else if step = 2 then 102 else 105

def coolOf (t tj step : Nat) (old : Option Nat) : Option Nat :=
  if tj + 3 ≤ thermEntry step then (match old with | some x => some x | none => some t) else none

/-- Enters thermal step `k`: pennant, log entry, and for step 3 ALERT_N (R16, R554). -/
def enterTherm (k tj : Nat) (s : State) : State :=
  let s := setFld s pPWR R.PWR.THERM_STAT 8 2 k
  let s := logEvent 0x000E (some pPWR) [k, tj] (penBit pPWR (3 + k) s)
  if k = 3 then setAlert 0 true s else s

/-- JUNCTION_SAMPLE: the hottest sensor reads `tj` (R16, R17). Every step whose entry temperature is reached and that is
above the step in force is entered, lowest first. -/
def junctionSample (t tj : Nat) (s : State) : State :=
  let s := atTime t s
  let s := setFld s pPWR R.PWR.THERM_STAT 0 8 (min tj 255)
  let s := { s with power := { s.power with
    cool1 := coolOf t tj 1 s.power.cool1, cool2 := coolOf t tj 2 s.power.cool2, cool3 := coolOf t tj 3 s.power.cool3 } }
  let up (k : Nat) (s : State) : State := if thermEntry k ≤ tj ∧ thermStep s < k then enterTherm k tj s else s
  let s := showLimit (up 3 (up 2 (up 1 s)))
  if 112 ≤ tj then
    if s.power.thermTrip then s
    else
      let s := logEvent 0x0005 (some pPWR) [3] (setAlert 6 true s)
      let s := { s with power := { s.power with thermTrip := true, tripLatched := true, downCause := 3, cold := true } }
      let s := breakSplice (emit (.pin "THERM_TRIP_N" false) s)
      if s.power.phase = .off then s else mainOff s
  else s

def execJunctionSample (t tj : Nat) (s : State) : Host.Outcome State Fault Refusal := .next (junctionSample t tj s)

/-- The step's cooling time has run its 100 ms. -/
def cooled (t : Nat) (since : Option Nat) : Bool :=
  match since with
  | some x => decide (x + 100 * MS ≤ t)
  | none => false

/-- The highest step at or below the one in force whose cooling time has not run. -/
def thermAfter (s : State) (t : Nat) : Nat :=
  let k := thermStep s
  if k = 3 ∧ ¬ cooled t s.power.cool3 then 3
  else if 2 ≤ k ∧ ¬ cooled t s.power.cool2 then 2
  else if 1 ≤ k ∧ ¬ cooled t s.power.cool1 then 1
  else 0

/-- THERM_STEP_LEAVE: steps whose 100 ms below entry − 3 °C have run are left; leaving step 3 releases ALERT_STAT.THERM3
(R16). -/
def thermStepLeave (t : Nat) (s : State) : State :=
  let s := atTime t s
  let k := thermStep s
  let n := thermAfter s t
  if n < k then
    let s := showLimit (setFld s pPWR R.PWR.THERM_STAT 8 2 n)
    if k = 3 then setAlert 0 false s else s
  else s

def execThermStepLeave (t : Nat) (s : State) : Host.Outcome State Fault Refusal := .next (thermStepLeave t s)

/-! ### Power-up (R34 to R37) -/

/-- The main stage starts at S, unless the recovery loader runs (R570). The power-up is a reset of the whole main domain (R38,
R39). -/
def stageEnable (t : Nat) (s : State) : State :=
  if ¬ bootAllows s then s
  else
  let s := mainReset (atTime t s)
  { s with power := { s.power with phase := .ramping, startAt := t } }

/-- The main domain is off and could start at `t`: the always-on domain runs, the MSS has reported ready, the main input is
closed and reads 58 V (R31, R34). -/
def mayStart (t : Nat) (s : State) : Bool :=
  s.power.phase == .off && s.power.alwaysOn && decide (s.power.mssUpAt ≤ t) && !s.power.inputOpen &&
    decide (5800 ≤ fld s pPWR R.PWR.IN_STAT 0 16)

/-- The MSS leaves its reset at `t`; its firmware reports ready 3 to 400 ms later, at a time that is open (R34). -/
def mssStarts (t : Nat) (s : State) : State :=
  let (v, s) := freeVal s
  { s with power := { s.power with mssUpAt := t + 3 * MS + v % (397 * MS + 1) } }

/-- Once the MSS firmware has restarted after an MSS reset, CAP_MGMT has its reset value; until then the limit that was in force
when the reset began is kept (R40). -/
def firmwareRestart (t : Nat) (s : State) : State :=
  if s.power.capDue ∧ s.power.mssUpAt ≤ t then
    let cap := resetReg pPWR R.PWR.CAP_MGMT
    showLimit (setShadow (setReg { s with power := { s.power with capDue := false } } pPWR R.PWR.CAP_MGMT cap) pPWR R.PWR.CAP_MGMT cap)
  else s

/-- MGMT_POWER_ON: starts the main domain after a trip below 90 °C, or after a failed rail retry (R17, R37). DESIGN CHOICE: the
command that restarts the domain after a trip releases THERM_TRIP_N (log entry 158); it acts before the 1 s retry has run too,
and ends ALERT_STAT.RAIL, which else ends at RAILS_GOOD (log entry 159). -/
def execMgmtPowerOn (t : Nat) (s : State) : Host.Outcome State Fault Refusal :=
  .next <|
    let p := s.power
    if mayStart t s then
      if p.tripLatched then
        if fld s pPWR R.PWR.THERM_STAT 0 8 < 90 then
          stageEnable t (setAlert 6 false (emit (.pin "THERM_TRIP_N" true)
            { s with power := { p with tripLatched := false, thermTrip := false } }))
        else s
      else if p.railFailAt.isSome then
        stageEnable t (setAlert 2 false { s with power := { p with railFailAt := none, railRetried := false } })
      else s
    else s

/-- NAND programs are in progress. -/
def nandBusy (s : State) : Bool := s.flash.begun != []

/-- A requested main reset: after a trip it powers the domain up once the sensor reads below 90 °C (R17); while NAND
programs or a quiesce run it waits (R41); otherwise it takes effect now. A reset request that restarts a tripped domain
releases THERM_TRIP_N (DESIGN CHOICE, log entry 158). -/
def requestMainReset (t : Nat) (s : State) : State :=
  let s := atTime t s
  if s.power.tripLatched then
    if mayStart t s ∧ fld s pPWR R.PWR.THERM_STAT 0 8 < 90 then
      stageEnable t (setAlert 6 false (emit (.pin "THERM_TRIP_N" true)
        { s with power := { s.power with tripLatched := false, thermTrip := false } }))
    else s
  else if s.power.phase = .off ∨ s.power.phase = .shutdown ∨ s.power.phase = .ramping then s
  else
    let s := breakSplice s
    if nandBusy s ∨ quiescing s then { s with power := { s.power with resetPending := true } } else mainResetNow t s

def execMgmtReset (t : Nat) (s : State) : Host.Outcome State Fault Refusal := .next (requestMainReset t s)

/-- MAIN_RESET_TAKE_EFFECT: the programs have ended; the end of a quiesce is QUIESCE_END (R41). An unpowered domain takes no
reset. -/
def execMainResetTakeEffect (t : Nat) (s : State) : Host.Outcome State Fault Refusal :=
  .next <|
    if s.power.resetPending ∧ ¬ nandBusy s ∧ s.power.quiesce = none ∧
        (s.power.phase = .running ∨ s.power.phase = .inReset) then
      mainResetNow t { s with power := { s.power with resetPending := false } }
    else s

/-- RESET_N_LOW: RESET_N fell at `since` and is low at `t`; after 10 µs a main reset is requested (R38). -/
def execResetNLow (since t : Nat) (s : State) : Host.Outcome State Fault Refusal :=
  .next <|
    let s := atTime t { s with power := { s.power with resetN := false, resetLowSince := some since } }
    if since + 10000 ≤ t then requestMainReset t s else s

/-- RESET_N_RISE: with PWR_OK asserted the main domain leaves reset (R35). -/
def execResetNRise (t : Nat) (s : State) : Host.Outcome State Fault Refusal :=
  .next <|
    let s := atTime t { s with power := { s.power with resetN := true, resetLowSince := none } }
    if s.power.phase = .inReset ∧ s.power.pwrOk ∧ ¬ s.mgmt.hold then releaseReset t s else s

/-- MAIN_STAGE_ENABLE: the start event S, with the MSS ready and the main input at 58 V (R34). -/
def execMainStageEnable (t : Nat) (s : State) : Host.Outcome State Fault Refusal :=
  .next <|
    if mayStart t s ∧ ¬ s.power.tripLatched ∧ s.power.downCause = 0 ∧ s.power.railFailAt = none then stageEnable t s
    else s

/-- RAILS_GOOD: PWR_OK asserted; with RESET_N high the reset is released (R34, R35). DESIGN CHOICE: a FLASH_PFAIL_N that a shutdown
pulled low is released here, as no rule says when it rises, and no pin event is sent for it (log entry 160). -/
def execRailsGood (t : Nat) (s : State) : Host.Outcome State Fault Refusal :=
  .next <|
    if s.power.phase = .ramping then
      let s := atTime t s
      let s := emit (.pin "PWR_OK" true) { s with power := { s.power with
        phase := .inReset, pwrOk := true, flashPfail := false, railFailAt := none, railRetried := false, downCause := 0 } }
      let s := setAlert 2 false s
      if s.power.resetN then releaseReset t s else s
    else s

/-- RAIL_FAIL: a rail missed its window: rails removed, logged, ALERT_N (R37). -/
def execRailFail (t sensor : Nat) (s : State) : Host.Outcome State Fault Refusal :=
  .next <|
    if s.power.phase = .ramping then
      let s := atTime t s
      let s := { s with power := { s.power with phase := .off, pwrOk := false, railFailAt := some t } }
      setAlert 2 true (logEvent 0x0006 (some pPWR) [sensor] s)
    else s

/-- RAIL_RETRY: once, 1 s after the failure (R37). -/
def execRailRetry (t : Nat) (s : State) : Host.Outcome State Fault Refusal :=
  .next <|
    match s.power.railFailAt with
    | some f =>
      if mayStart t s ∧ ¬ s.power.tripLatched ∧ f + SEC ≤ t ∧ ¬ s.power.railRetried then
        stageEnable t { s with power := { s.power with railRetried := true } }
      else s
    | none => s

/-! ### The main and auxiliary inputs -/

def sinceIf (b : Bool) (t : Nat) (old : Option Nat) : Option Nat :=
  if b then (match old with | some x => some x | none => some t) else none

/-- Both inputs read below 40 V (R607). -/
def bothAbsent (s : State) : Bool :=
  decide (fld s pPWR R.PWR.IN_STAT 0 16 < 4000) && decide (fld s pPWR R.PWR.AUX_STAT 0 16 < 4000)

/-- AUX_LOW: an auxiliary input in use reads below 60 V while the main input is present (R604). -/
def auxLow (s : State) : State :=
  if s.power.auxInUse ∧ fld s pPWR R.PWR.AUX_STAT 0 16 < 6000 ∧ 4000 ≤ fld s pPWR R.PWR.IN_STAT 0 16 then penBit pPWR 8 s
  else s

/-- The sag steps and the shutdown after the sample counters have moved (R51). -/
def sagAct (s : State) : State :=
  let s := if 5 ≤ s.power.below62 ∧ sagStep s = 0 then
      penBit pPWR 0 (setFld s pPWR R.PWR.IN_STAT 16 2 1) else s
  let s := if 5 ≤ s.power.below56 ∧ sagStep s < 2 then
      startQuiesce 1 (penBit pPWR 1 (setFld s pPWR R.PWR.IN_STAT 16 2 2)) else s
  let s := showLimit s
  if 2 ≤ s.power.below52 then startShutdown 1 s else s

/-- MAIN_SAMPLE: the 10 µs sample `v` of the main input (R51, R31, R53, R604, R607). An absent main input counts as cycled: a
rail failure no longer keeps the main domain off (R37). -/
def mainSample (t v : Nat) (s : State) : State :=
  let s := atTime t s
  let s := setFld s pPWR R.PWR.IN_STAT 0 16 (min v 65535)
  let run (n limit : Nat) : Nat := if v < limit then n + 1 else 0
  let p := s.power
  let s := { s with power := { p with
    below62 := run p.below62 6200, below56 := run p.below56 5600, below52 := run p.below52 5200
    ge64Since := sinceIf (decide (6400 ≤ v)) t p.ge64Since
    in6280Since := sinceIf (decide (6200 ≤ v) && decide (v ≤ 8000)) t p.in6280Since
    in6080Since := sinceIf (decide (6000 ≤ v) && decide (v ≤ 8000)) t p.in6080Since
    gt84Since := sinceIf (decide (8400 < v)) t p.gt84Since } }
  let s := { s with power := { s.power with absentSince := sinceIf (bothAbsent s) t s.power.absentSince } }
  let s := if v < 4000 ∧ s.power.phase = .off then
      { s with power := { s.power with railFailAt := none, railRetried := false } } else s
  let s := if 8000 < v then penBit pPWR 9 s else s
  let s := auxLow s
  if s.power.phase = .off then s else sagAct s

def execMainSample (t v : Nat) (s : State) : Host.Outcome State Fault Refusal := .next (mainSample t v s)

/-- SAG_STEP1_LEAVE: 100 ms at or above 64 V (R51). -/
def execSagStep1Leave (t : Nat) (s : State) : Host.Outcome State Fault Refusal :=
  .next <|
    match s.power.ge64Since with
    | some x =>
      if sagStep s = 1 ∧ x + 100 * MS ≤ t then showLimit (setFld (atTime t s) pPWR R.PWR.IN_STAT 16 2 0) else s
    | none => s

/-- QUIESCE_END: flash idle and the power-loss record written; LPDDR5X and tiles off (R52). A main reset requested during
the quiesce takes effect here (R41); the domain stays off until the input has been back for 1 s all the same (R53). -/
def execQuiesceEnd (t : Nat) (s : State) : Host.Outcome State Fault Refusal :=
  .next <|
    if quiescing s ∧ ¬ nandBusy s ∧ s.power.phase ≠ .off ∧ s.power.phase ≠ .shutdown then
      let s := atTime t (writeRoots { s with power := { s.power with powerLossWritten := true } })
      mainOff (if s.power.resetPending then mainReset s else s)
    else s

/-- SHUTDOWN_RAILS_OFF (R54). -/
def execShutdownRailsOff (t : Nat) (s : State) : Host.Outcome State Fault Refusal :=
  .next <|
    if s.power.phase = .shutdown ∧ ¬ nandBusy s then
      mainOff (writeRoots { atTime t s with power := { s.power with powerLossWritten := true } })
    else s

/-- INPUT_OVERVOLTAGE: above 84 V for 50 µs opens the input and shuts down (R31). -/
def execInputOvervoltage (t : Nat) (s : State) : Host.Outcome State Fault Refusal :=
  .next <|
    match s.power.gt84Since with
    | some x =>
      if x + 50000 ≤ t ∧ ¬ s.power.inputOpen then
        startShutdown 2 { atTime t s with power := { s.power with inputOpen := true, downCause := 2 } }
      else s
    | none => s

/-- OVERVOLTAGE_RESTART: 60 to 80 V for 1 s after an opened input (R31); a latched trip keeps the domain off (R17). -/
def execOvervoltageRestart (t : Nat) (s : State) : Host.Outcome State Fault Refusal :=
  .next <|
    match s.power.in6080Since with
    | some x =>
      if s.power.phase = .off ∧ s.power.alwaysOn ∧ s.power.inputOpen ∧ x + SEC ≤ t then
        let s := { s with power := { s.power with inputOpen := false } }
        if s.power.tripLatched then s else stageEnable t s
      else s
    | none => s

/-- MAIN_RESTART: after a quiesce, or a shutdown by sag, with 62 to 80 V for 1 s, a main reset and power-up from S
(R53). -/
def execMainRestart (t : Nat) (s : State) : Host.Outcome State Fault Refusal :=
  .next <|
    match s.power.in6280Since with
    | some x =>
      if s.power.phase = .off ∧ s.power.alwaysOn ∧ ¬ s.power.inputOpen ∧ ¬ s.power.tripLatched ∧
          s.power.railFailAt = none ∧ s.power.downCause ≠ 0 ∧ x + SEC ≤ t then
        stageEnable t s
      else s
    | none => s

/-- AUX_SAMPLE (R604, R607). -/
def execAuxSample (t v : Nat) (s : State) : Host.Outcome State Fault Refusal :=
  .next <|
    let s := atTime t s
    let s := setFld s pPWR R.PWR.AUX_STAT 0 16 (min v 65535)
    let s := { s with power := { s.power with
      auxInUse := s.power.auxInUse || (s.power.alwaysOn && decide (6000 ≤ v)) } }
    let s := { s with power := { s.power with absentSince := sinceIf (bothAbsent s) t s.power.absentSince } }
    auxLow s

/-- The state of both domains at the start of a power-up from 0 ms: a cold reset (R38, R607). What outlives it, the clock
of the model, the open-value number, the output, the committed log and the waiting commands, is kept. -/
def coldStart (s : State) : State :=
  let r := State.reset
  let log := s.log.filter (·.committed)
  let newest := match log.getLast? with | some e => e.seq | none => 0
  let s := keepMedium s { r with
    now := s.now, fresh := s.fresh, out := s.out, pending := s.pending, log := log, mgmt := s.mgmt.kept
    power := { r.power with
      phase := .off, alwaysOn := true, cold := true, pwrOk := false, resetN := s.power.resetN, slotId := s.power.slotId
      halyardIn := s.power.halyardIn, jtagSel := s.power.jtagSel, uartRxd := s.power.uartRxd, jtagTck := s.power.jtagTck
      jtagTms := s.power.jtagTms, jtagTdi := s.power.jtagTdi, jtagTrstN := s.power.jtagTrstN }
    tick := { r.tick with started := false } }
  setReg64 s pMSS R.MSS.LOG_NEWEST_LO newest

/-- ALWAYS_ON_START: an input reaching 60 V (`v`: main and auxiliary reading) starts the always-on domain (R34). -/
def execAlwaysOnStart (t : Nat) (v : Nat × Nat) (refused : Bool) (s : State) : Host.Outcome State Fault Refusal :=
  .next <|
    if ¬ s.power.alwaysOn ∧ (6000 ≤ v.1 ∨ 6000 ≤ v.2) then
      let s := mssStarts t (romBoot (romKeys refused (atTime t (coldStart s))))
      let s := setFld s pPWR R.PWR.IN_STAT 0 16 v.1
      let s := setFld s pPWR R.PWR.AUX_STAT 0 16 v.2
      { s with power := { s.power with auxInUse := decide (6000 ≤ v.2) } }
    else s

/-- ALWAYS_ON_STOP: both inputs absent for 20 ms (R607). -/
def execAlwaysOnStop (t : Nat) (s : State) : Host.Outcome State Fault Refusal :=
  .next <|
    match s.power.absentSince with
    | some x =>
      if s.power.alwaysOn ∧ x + 20 * MS ≤ t then
        let s := mainReset (atTime t s)
        { s with power := { s.power with phase := .off, alwaysOn := false, pwrOk := false, auxInUse := false, aux18 := false, cold := true } }
      else s
    | none => s

/-! ### Power samples and droop -/

/-- POWER_SAMPLE: the 100 µs sample `w` of the input power (R45). P_100MS is the mean of the last 1,000 samples, or of all
taken so far since the main domain left reset; the excursion run counts samples above the effective limit. -/
def powerSample (t w : Nat) (s : State) : State :=
  let s := firmwareRestart t (atTime t s)
  if s.power.phase ≠ .running then setFld s pPWR R.PWR.IN_POWER 0 16 (min w 65535)
  else
  let l := (w :: s.power.samples).take 1000
  let limit := (effLimit s).1
  let run := if 10 * limit < w then s.power.excRun + 1 else 0
  let s := { s with power := { s.power with samples := l, excRun := run } }
  let s := setFld s pPWR R.PWR.IN_POWER 0 16 (min w 65535)
  let s := setFld s pPWR R.PWR.IN_POWER 16 16 (l.sum / l.length)
  let s := setFld s pPWR R.PWR.CAP_STAT 19 1 (if run = 0 then 0 else 1)
  setFld s pPWR R.PWR.CAP_STAT 20 4 (if run = 0 then 0 else excLength s - run / 10)

def execPowerSample (t w : Nat) (s : State) : Host.Outcome State Fault Refusal := .next (powerSample t w s)

/-- The last sample exceeds 720 W, or the excursion has reached the length in force (R47). -/
def excReached (s : State) : Bool :=
  (match s.power.samples with | w :: _ => decide (7200 < w) | [] => false) ||
    (decide (0 < s.power.excRun) && decide (10 * excLength s ≤ s.power.excRun))

/-- CAP_EXCURSION_LIMIT: every tile stretches to 50 % until the next tick, where the budgets are cut (R47). -/
def execCapExcursionLimit (t : Nat) (s : State) : Host.Outcome State Fault Refusal :=
  .next <|
    if excReached s then
      let s := atTime t s
      let s := showStretch t { s with power := { s.power with forced := true, capCut := true } }
      penBit pPWR 2 s
    else s

/-- The droop threshold in force of a tile, 5 mV units (R42, R55). -/
def droopThr (s : State) (tile : Nat) : Nat := fld s pPWR (R.PWR.DROOP_THR + 4 * (tile / 4)) (8 * (tile % 4)) 8

/-- DROOP_TRIP: a sensor of the tile sees its rail `mv` below the set point (R42, R43). A trip while stretched restarts the
count of clean cycles. -/
def execDroopTrip (t tile mv : Nat) (s : State) : Host.Outcome State Fault Refusal :=
  .next <|
    if tile < 32 ∧ droopThr s tile * 5 < mv then
      let s := atTime t s
      let s := showStretch t { s with power := { s.power with droop := mput s.power.droop tile t } }
      penBit pPWR 7 s
    else s

/-- DROOP_RELEASE: 64 consecutive stretched cycles with no trip (R42); the clock is full again only when the power-cap
stretch is released as well (R43). -/
def execDroopRelease (t tile : Nat) (s : State) : Host.Outcome State Fault Refusal :=
  .next <|
    match mget s.power.droop tile with
    | some x =>
      if 64 ≤ (t - x) * Config.tileMhz / 2000 then
        let s := atTime t s
        showStretch t { s with power := { s.power with droop := mdel s.power.droop tile } }
      else s
    | none => s

end Sys2Proof.Machine
end

