-- ==== Sys2Proof/Machine/Mss.lean ====
section
/-! DEFINITION. The MSS: the commit of a splice (R577) and the MSS reset (R38, R40, R555). -/

namespace Sys2Proof.Machine

/-- FLAGS.ARB of an image raises C0 to its SVN (R568). -/
def applyArb (s : State) : State :=
  match s.mgmt.fw with
  | some x => if bitOf (img2.flags x) 1 then showMss (setMgmt s fun m => { m with c0 := max m.c0 (img2.svn x) }) else s
  | none => s

/-- Commit (R577). -/
def commitSplice (x : Splice) (s : State) : State :=
  let old := match s.mgmt.fw with | some y => img2.version y | none => 0
  let s := setSplice 0 1 0 0 s
  let raise (m : Mgmt) : List FwSlot :=
    m.slots.set x.slot { slotAt m x.slot with seq := (slotAt m (1 - x.slot)).seq + 1, record := true, attempts := 0 }
  let s := endCommit 0 s
  let s := setMgmt s fun m => { m with
    slots := raise m, running := x.slot, fw := (slotAt m x.slot).image, splice := none }
  let s := showMss (applyArb s)
  let new := match s.mgmt.fw with | some y => img2.version y | none => 0
  penBit pMSS 4 (logEvent 0x000B none [old, new] s)

/-- ALERT_STAT follows its conditions (R555). -/
def alertBits (s : State) : Nat :=
  (if thermStep s = 3 then 1 else 0) +
  (if s.power.quiesce.isSome ∨ s.power.phase = .shutdown then 2 else 0) +
  (if s.power.railFailAt.isSome then 4 else 0) + (if s.mgmt.hold then 8 else 0) +
  (if s.mgmt.running = 2 then 32 else 0) + (if s.power.tripLatched then 64 else 0)

/-- An MSS reset: the MSS page takes its cold-reset values, which clears LOG_ERROR and LOG_FATAL, the core starts again from
its ROM and a splice under way ends (R38, R555, R576). The limit in force is kept until the firmware has restarted, when CAP_MGMT
returns to its reset value (R40, `firmwareRestart`). The
main domain keeps running, the event log and a hold of R539 are kept. While the main domain runs, the MSS starts again in the
running image: another slot takes effect at the next main reset (R583); else the ROM selects a slot (R565). -/
def mssReset (t : Nat) (s : State) : State :=
  let s := if s.mgmt.splice.isSome then (let (c, s) := freeVal s; rollSplice 5 (c % 256) 0 s) else s
  let newest := reg64 s pMSS R.MSS.LOG_NEWEST_LO
  let old := s.mgmt
  let was := reg s pMSS R.MSS.ALERT_STAT
  let s := setReg64 (resetPage s pMSS []) pMSS R.MSS.LOG_NEWEST_LO newest
  let s := resetCore 36 .running s
  let s := setMgmt s fun m => { Mgmt.kept m with fallback := m.fallback, keys := m.keys }
  let s := if s.power.phase = .running ∧ old.running < 2 then showMss (startMssPart s) else romBoot s
  let s := setMgmt s fun m => { m with posted := old.posted, hold := old.hold, ready := old.ready }
  let s := setRegN s pMSS R.MSS.ALERT_STAT (alertBits s)
  let s := if was ≠ 0 ∧ alertBits s = 0 then emit (.pin "ALERT_N" true) s else s
  let s := mssStarts t s
  { s with power := { s.power with capDue := true } }

/-- MSS_WATCHDOG: the MSS watchdog resets the MSS. -/
def execMssWatchdog (t : Nat) (s : State) : Host.Outcome State Fault Refusal := .next (mssReset t (atTime t s))

/-- MSS_RESET: a management command. -/
def execMssReset (t : Nat) (s : State) : Host.Outcome State Fault Refusal := .next (mssReset t (atTime t s))

end Sys2Proof.Machine
end

