-- ==== Sys2Proof/Machine/Fence.lean ====
section
/-! DEFINITION. Fences and epochs of block instances: what a fence stops (R532, R606), hardware fences (R88), and what a new
tile epoch clears (R533). -/

namespace Sys2Proof.Machine

def setIntg (s : State) (f : Intg → Intg) : State := { s with intg := f s.intg }

/-- INTG.TILE_STAT: NEED_TEST with its cause, and one failure more. -/
def needTest (t cause : Nat) (s : State) : State :=
  let off := R.INTG.TILE_STAT + 4 * t
  let s := setFld (setFld s pINTG off 31 1 1) pINTG off 28 3 cause
  setFld s pINTG off 0 16 (min 0xFFFF (fld s pINTG off 0 16 + 1))

def needsTest (s : State) (t : Nat) : Bool := fld s pINTG (R.INTG.TILE_STAT + 4 * t) 31 1 == 1

/-- TILE_STAT.CAUSE. -/
def testCause (s : State) (t : Nat) : Nat := fld s pINTG (R.INTG.TILE_STAT + 4 * t) 28 3

/-- What a fence of a tile stops (R532): engines and their queues, the result ring, samples in progress, WORK space; the
contexts are to be placed elsewhere, those on a CTX_MOVE keeping their target (R145); a TILE_VACATE completes with FENCED
(R535). The stream core, the slice and the sealed packs stay. -/
def stopTile (t : Nat) (s : State) : State :=
  let s := { s with media := { s.media with
    engines := s.media.engines.filter fun e => e.1 / 4 != t
    results := s.media.results.filter fun e => e.1 != t
    held := s.media.held.filter fun h => h.tile != t } }
  let on := s.foundry.ctxs.filter fun e => match e.2.num with | some n => tileOfNum n == t | none => false
  let s := on.foldl (fun s e =>
    let s := discardSample e.1 s
    let s := putMedia e.1 (getMedia s e.1).restart s
    match getCtx s e.1 with
    | some c => putCtx e.1 { c with cur := none, off := c.state != 3 } s
    | none => s) s
  let s := showPool t s
  let s := (s.cmds.filter fun c => c.begun && c.op == 0x18 && c.obj == t).foldl (fun s c =>
    complete c st.FENCED 0 (dropHeld c.seq s)) s
  setIntg s fun x => { x with fencedAt := mput x.fencedAt t s.tick.count }

/-- What a fence stops in a block of another type: a link or a sub-port goes down, a flash channel loses its dies (R423,
R606). -/
def stopBlock (p : Page) (s : State) : State :=
  match p.ty with
  | .tile => stopTile p.inst s
  | .link => quietLink p.inst s
  | .eth => forN 4 s fun i s => if subUp s (4 * p.inst + i) then subportDown (4 * p.inst + i) s else s
  | .fch => fenceChannel p.inst s
  | _ => s

/-- A fence takes effect (R88): FENCED at once, with BLK_CTL.FENCE set; a tile's is logged (R554). -/
def fenceBlock (p : Page) (s : State) : State :=
  let st := blkState s p
  if st = 4 ∨ st = 3 then s
  else
    let s := setFld (setBlkState (stopBlock p s) p 3) p R.BLK_CTL 1 1 1
    if p.ty = .tile then logEvent 0x0009 (some p) [p.inst, testCause s p.inst] s else s

/-- A hardware fence: one that arrives during a soft reset is remembered in BLK_CTL.FENCE (R88). -/
def hwFence (p : Page) (s : State) : State :=
  if blkState s p = 4 then setFld s p R.BLK_CTL 1 1 1 else fenceBlock p s

/-- A tile is fenced by hardware with NEED_TEST and a cause (R526, R537). -/
def faultTile (t cause : Nat) (s : State) : State := hwFence (pTILE t) (needTest t cause s)

/-! ### Epochs -/

/-- R527: the tick from which the tile's output is to be distrusted. -/
def anchor (s : State) (t : Nat) : Nat :=
  let l := (s.intg.passes.filter fun e => e.1 / 64 == t).map (·.2)
  if l.length = 64 then l.foldl min (l.headD 0) else mgetD s.intg.epochAt t 0

def showPass (t : Nat) (s : State) : State := setRegN s pINTG (R.INTG.TILE_PASS + 4 * t) (anchor s t)

/-- The context table of a tile is cleared: a context still on it is bound to no tile, and is placed at the next edge (R146, R533). -/
def clearTable (t : Nat) (s : State) : State :=
  let on := s.foundry.ctxs.filter fun e => match e.2.num with | some n => tileOfNum n == t | none => false
  showBound (on.foldl (fun s e => putCtx e.1 { e.2 with num := none, origin := e.2.num, off := false } s) s)

/-- The stream-core component of the running image. -/
def streamPart (s : State) : Option FwPart := s.mgmt.fw.bind fun x => x.parts.find? fun p => p.ty == 3

/-- A stream core starts from its boot ROM: it compares the SHA-384 of its STREAM region image with the component hash, and on a
mismatch stops, its region to be loaded again (R567). The cause it stops with is not stated: an open value. -/
def startStream (t : Nat) (s : State) : State :=
  let s := resetCore t .running s
  match streamPart s with
  | none => s
  | some p =>
    if sha384 (memRead s.mem (sliceKey t (regionBase s t 0 + p.load)) p.bytes.length) = p.hash then s
    else
      let (cause, s) := freeVal s
      setIntg (stopCore t cause s) fun x => { x with reload := addSorted t x.reload }

/-- The MSS loads the STREAM region of a stream core that stopped so from the LPDDR5X copy, and resets the core (R567). -/
def reloadStream (t : Nat) (s : State) : State :=
  match (getCore s t).act, streamPart s with
  | .stopped _, some p =>
    let b := memRead s.mem (dramKey Config.fwCopy) p.bytes.length
    startStream t { s with mem := memWrite s.mem (sliceKey t (regionBase s t 0 + p.load)) b }
  | _, _ => s

/-- At step 7, the regions found wrong since the last edge. -/
def edgeReload (s : State) : State :=
  s.intg.reload.foldl (fun s t => reloadStream t s) (setIntg s fun x => { x with reload := [] })

/-- What a tile's new epoch does (R533): its context table and the record of passes are clear, the stream core starts from its
boot ROM, and every loaded graph is to be refilled, its READY bit 0 until then. -/
def newEpoch (t : Nat) (s : State) : State :=
  let s := setIntg s fun x => { x with
    passes := x.passes.filter fun e => e.1 / 64 != t, epochAt := mput x.epochAt t s.tick.count
    issued := x.issued.filter (· != t), faultAt := mdel x.faultAt t }
  let s := showPass t (startStream t (clearTable t s))
  refillAll t ((loadedGraphs s).foldl (fun s e => setReady t e.1 false s) s)

/-- The instance takes its next epoch. -/
def bumpEpoch (p : Page) (s : State) : State := setBlkEpoch s p ((blkEpoch s p + 1) % 65536)

end Sys2Proof.Machine
end

