-- ==== Sys2Proof/Machine/Snapshot.lean ====
section
/-! DEFINITION. The halyard: block-specific snapshots, latching, triggers (R77 to R83). -/

namespace Sys2Proof.Machine

/-- The block-specific snapshot of a page, from 0xC40, as its chapter defines it. -/
def snapBlock (s : State) (p : Page) : List Nat :=
  let v (off : Nat) : Nat := inForce s p off
  match p.ty with
  | .perf => [v R.PERF.RING_PI]
  | .feed => snapFeed s
  | .rmt => [v R.RMT.QP_STAT, v R.RMT.STAGE_STAT]
  | .egs => [v R.EGS.GATE_STAT, ((List.range 4).map fun port => 2 ^ (8 * port) * openMask s port).sum]
  | .host => [v R.HOST.LINK_STAT, v R.HOST.TAG_STAT]
  | .ckpt => ((List.range 16).map fun i => v (R.CKPT.SESS_STAT + 4 * i)) ++ [v R.CKPT.LAST_COMMIT_LO, v R.CKPT.LAST_COMMIT_HI]
  | .pair => [v R.PAIR.STAT, v R.PAIR.LAST_ACK_LO, v R.PAIR.LAST_ACK_HI]
  | .intg => [v R.INTG.STAT, v R.INTG.LST_STAT, v R.INTG.SUSP_SEQ]
  | .memc => [v R.MEMC.STAT, v R.MEMC.CE_COUNT, v R.MEMC.UE_COUNT]
  | .mss => [v R.MSS.BOOT_STAT, v R.MSS.ALERT_STAT, v R.MSS.SPLICE_STAT]
  | _ => []

/-- One page latches: a page still holding a snapshot misses it; any other stores the header of R83 and its block-specific
snapshot. `mode` is 1 for immediate. -/
def latchPage (src mode seq ofs : Nat) (p : Page) (s : State) : State :=
  if fld s p R.SNAP_STAT 31 1 = 1 then
    let m := fld s pTICK R.TICK.HAL_STAT 16 16
    penBit pTICK 8 (setFld s pTICK R.TICK.HAL_STAT 16 16 (min 0xFFFF (m + 1)))
  else
    let vals : List Nat := [
      2 ^ 31 + mode * 2 ^ 30 + src * 2 ^ 26 + seq, s.tick.count % 2 ^ 32, s.tick.count / 2 ^ 32, ofs,
      reg s p R.BLK_STAT, reg s p R.PENNANT, reg s p R.ERR_INFO, reg s p R.BLK_COMMIT % 2, reg s p R.COMMIT_TICK]
    let blk := snapBlock s p
    let s := (enumFrom 0 vals).foldl (fun s e => setRegN s p (0xC00 + 4 * e.1) e.2) s
    (enumFrom 0 blk).foldl (fun s e => setRegN s p (0xC40 + 4 * e.1) e.2) s

/-- The pages armed for the halyard, in map order: BLK_CTL.HAL_ARM is 1 only in a listed register. -/
def armedPages (s : State) : List Page :=
  s.regs.filterMap fun e =>
    match pageOf e.1 with
    | some p => if e.1 % 0x1000 = R.BLK_CTL ∧ bitOf e.2.toNat 4 then some p else none
    | none => none

/-- A snapshot is taken: one sequence number, every armed page latches, HAL_FIRED, HALYARD_OUT, the partner's frame and
ONE_SHOT (R79 to R82), also where no page is armed or every armed page misses (DESIGN CHOICE, log entry 166). -/
def halyardLatch (src mode ofs : Nat) (s : State) : State :=
  let seq := (fld s pTICK R.TICK.HAL_STAT 0 16 + 1) % 65536
  let ctl := reg s pTICK R.TICK.HALYARD_CTL
  let s := setFld s pTICK R.TICK.HAL_STAT 0 16 seq
  let s := (armedPages s).foldl (fun s p => latchPage src mode seq ofs p s) s
  let s := penBit pTICK 7 s
  let s := if fld s pTICK R.TICK.HALYARD_CTL2 0 1 = 1 then setFld s pTICK R.TICK.HALYARD_CTL 0 1 0 else s
  let s := if bitOf ctl 2 then emit (.halyardOut seq) s else s
  if bitOf ctl 3 then sendHawser "HALYARD" [s.tick.count, seq] s else s

/-- A trigger from source `src` arrives at `t` (R77, R78, R80). -/
def halyardTrigger (src t : Nat) (s : State) : State :=
  let ctl := reg s pTICK R.TICK.HALYARD_CTL
  if bitOf ctl 0 ∧ bitOf ctl (4 + src) then
    if bitOf ctl 1 then
      let near := match s.tick.halLast with | some x => decide (t < x + 1000) | none => false
      let s := { s with tick := { s.tick with halLast := some t } }
      if near then s
      else if t < s.tick.edgeAt + s.tick.len ∧ s.tick.edgeAt + s.tick.len < t + 20 then
        { s with tick := { s.tick with halWait := some ⟨src, t⟩ } }
      else halyardLatch src 1 (t - s.tick.edgeAt) s
    else match s.tick.halWait with
      | some _ => s
      | none => { s with tick := { s.tick with halWait := some ⟨src, t⟩ } }
  else s

/-- Step 2 of a tick edge from count `prev`: source 2 when HALYARD_AT is reached (R77, R64), and the waiting snapshot. A
source 2 trigger in immediate mode falls at the edge while its steps run, and is answered to be taken after step 7
(R78). -/
def halyardEdge (prev t : Nat) (s : State) : State :=
  let at_ := reg64 s pTICK R.TICK.HALYARD_AT_LO
  let ctl := reg s pTICK R.TICK.HALYARD_CTL
  let due := decide (prev < at_) && decide (at_ ≤ s.tick.count) && bitOf ctl 0 && bitOf ctl 6
  let s := if due ∧ ¬ bitOf ctl 1 ∧ s.tick.halWait = none then
      { s with tick := { s.tick with halWait := some ⟨2, t⟩ } } else s
  match s.tick.halWait with
  | some w => halyardLatch w.src (bitsOf ctl 1 1) 0 { s with tick := { s.tick with halWait := none } }
  | none => s

/-- After step 7: an immediate-mode source 2 trigger of this edge, with its true, open, offset (R78); less than 1 µs after
another trigger it forms no snapshot of its own (R80). -/
def halyardAfterEdge (prev : Nat) (s : State) : State :=
  let at_ := reg64 s pTICK R.TICK.HALYARD_AT_LO
  let ctl := reg s pTICK R.TICK.HALYARD_CTL
  if prev < at_ ∧ at_ ≤ s.tick.count ∧ bitOf ctl 0 ∧ bitOf ctl 6 ∧ bitOf ctl 1 then
    let t := s.tick.edgeAt
    let near := match s.tick.halLast with | some x => decide (t < x + 1000) | none => false
    let s := { s with tick := { s.tick with halLast := some t } }
    if near then s
    else
      let (v, s) := freeVal s
      halyardLatch 2 1 (v % 2 ^ 32) s
  else s

/-- HALYARD_FIRE: a write of `v` to TICK.HALYARD_FIRE; 1 raises source 0. -/
def execHalyardFire (t v : Nat) (s : State) : Host.Outcome State Fault Refusal :=
  .next (if v % 2 = 1 then halyardTrigger 0 t (atTime t s) else atTime t s)

/-- HALYARD_IN: a rising edge raises source 1. -/
def execHalyardIn (t : Nat) (s : State) : Host.Outcome State Fault Refusal :=
  .next (halyardTrigger 1 t { atTime t s with power := { s.power with halyardIn := true } })

/-- HALYARD_MGMT_TRIGGER: source 4. -/
def execHalyardMgmtTrigger (t : Nat) (s : State) : Host.Outcome State Fault Refusal :=
  .next (halyardTrigger 4 t (atTime t s))

/-- SNAP_VALID_CLEAR: a write of 1 to SNAP_STAT.VALID of a page clears it and re-arms the page (R81). -/
def execSnapValidClear (p : Page) (s : State) : Host.Outcome State Fault Refusal :=
  .next (if pagePresent s p then setFld s p R.SNAP_STAT 31 1 0 else s)

end Sys2Proof.Machine
end

