-- ==== Sys2Proof/Machine/Intg.lean ====
section
/-! DEFINITION. The integrity block: conditions of the guarantee (R516), the self-test schedule and its slices (R520 to R526),
suspect intervals (R527 to R529), core stops (R519), on-demand tests, error injection and reports (R530 to R543). -/

namespace Sys2Proof.Machine

def intgCount (i : Nat) (s : State) : State := addReg s pINTG (R.INTG.COUNT + 4 * i) 1

def intgPen (b : Nat) (s : State) : State := penBit pINTG b s

/-- An integrity event reaches the deck cores and the MSS on line 5 (R572), and raises halyard source 5 (R517). -/
def intgEvent (s : State) : State :=
  halyardTrigger 5 s.now ((List.range 5).foldl (fun s i => raiseLine (32 + i) 5 s) s)

/-! ### The guarantee (R516) -/

/-- Every package's last and running scrub pass take at most 1,440 minutes (R547). -/
def dramScrubOk (s : State) : Bool :=
  (List.range 16).all fun m =>
    decide (fld s (pMEMC m) R.MEMC.SCRUB_STAT 0 16 ≤ 1440) &&
      decide (s.now - mgetD s.intg.scrubAt m s.power.releaseAt ≤ 1440 * 60000000000)

/-- The six conditions, bits 0 to 5 of INTG.STAT. -/
def guaranteeBits (s : State) : Nat :=
  let bit (b : Bool) (i : Nat) : Nat := if b then 2 ^ i else 0
  let last := reg s pINTG R.INTG.LAST_CYCLE
  let tj := fld s pPWR R.PWR.THERM_STAT 0 8
  bit (decide (s.tick.period ≤ 1000)) 0 +
  bit (fld s pINTG R.INTG.LST_CFG 31 1 == 1 && decide (0 < last) && decide (last ≤ 2000000)) 1 +
  bit ((List.range 32).all fun t => decide (fld s (pSRAMT t) R.SRAMT.SCRUB_STAT 0 16 ≤ 60)) 2 +
  bit (dramScrubOk s) 3 + bit (decide (tj ≤ 105)) 4 + bit (fld s pMSS R.MSS.BOOT_STAT 3 1 == 1) 5

/-- INTG.STAT follows the conditions; COND_LOST when GUARANTEE falls. -/
def watchStat (s : State) : State :=
  let was := fld s pINTG R.INTG.STAT 31 1
  let b := guaranteeBits s
  let g := if b = 63 then 1 else 0
  let s := setRegN s pINTG R.INTG.STAT (b + g * 2 ^ 31)
  if was = 1 ∧ g = 0 then intgPen 6 s else s

/-! ### Suspect intervals -/

/-- R529: the interval of a tile from its anchor to `upto`; the feed acts on it at the next edge. -/
def suspectTile (t upto : Nat) (s : State) : State :=
  let a := anchor s t
  let e := blkEpoch s (pTILE t)
  let s := setRegN s pINTG R.INTG.SUSP_ID (e * 2 ^ 16 + t)
  let s := setReg64 (setReg64 s pINTG R.INTG.SUSP_FROM_LO a) pINTG R.INTG.SUSP_TO_LO upto
  let s := setFld s pINTG R.INTG.SUSP_SEQ 0 16 (fld s pINTG R.INTG.SUSP_SEQ 0 16 + 1)
  let s := setIntg s fun x => { x with issued := addSorted t x.issued }
  ownSuspect t e a upto (intgPen 2 (intgCount 5 s))

/-- The interval of a fault found in this tick: one for a slice failure and a core stop in one tick (R535). -/
def suspectFault (t : Nat) (s : State) : State :=
  if mget s.intg.faultAt t = some s.tick.count then s
  else suspectTile t s.tick.count (setIntg s fun x => { x with faultAt := mput x.faultAt t s.tick.count })

/-! ### Core stops (R519) -/

/-- A stop of a core, with the cause it reports: the tile is fenced with a suspect interval, the quiesce runs from the next
edge, or the MSS is reset. -/
def coreStop (core ecause : Nat) (s : State) : State :=
  let u := coreUnit core
  let s := errInfo pINTG 2 u (intgPen 3 s)
  let s := logEvent 0x0008 (some pINTG) [u, ecause] s
  let s := intgEvent s
  if core < 32 then suspectFault core (faultTile core 3 s)
  else if core < 36 then setIntg s fun x => { x with quiesceDue := some 4 }
  else mssReset s.now s

/-- CORE_STOP_RESPONSE: a core has stopped (R262), and the device acts on it, once. -/
def execCoreStopResponse (t core : Nat) (s : State) : Host.Outcome State Fault Refusal :=
  .next <|
    if 37 ≤ core ∨ s.intg.answered.contains core then s
    else match (getCore s core).act with
      | .stopped cause => coreStop core cause (setIntg (atTime t s) fun x => { x with answered := addSorted core x.answered })
      | _ => s

/-! ### The schedule (R521 to R523) -/

/-- SLICE_US in force, clamped. -/
def sliceUs (s : State) : Nat := max 100 (min 10000 (fld s pINTG R.INTG.LST_CFG 0 16))

/-- Slices of a cycle (R520). -/
abbrev cycleSlices : Nat := 2128

/-- R522: slices of the unit are skipped. -/
def unitSkipped (s : State) (u : Nat) : Bool :=
  decide (u < 32) && ((s.intg.runs.any fun r => r.tile == u) ||
    (let st := blkState s (pTILE u); st == 0 || st == 3 || st == 4 || st == 5))

/-- LST_STAT shows the current or next slice; a slice is one step of this model, so none is seen running. -/
def showLst (s : State) : State :=
  let n := match s.intg.wait, s.intg.dues with
    | w :: _, _ => w.idx
    | [], d :: _ => d.1
    | [], [] => s.intg.charged % cycleSlices
  setRegN s pINTG R.INTG.LST_STAT (sliceUnit n * 2 ^ 16 + sliceOf n * 2 ^ 8)

/-- The last slice of a cycle has ended: LAST_CYCLE is the time from its start to its end, or to the start of the next cycle
where that is later. -/
def cycleEnd (n : Nat) (s : State) : State :=
  if n + 1 = cycleSlices then
    match s.intg.cycleAt with
    | some c =>
      let len := cycleSlices * sliceUs s
      let start := if s.intg.charged = cycleSlices then c else c - len
      let at_ := s.tick.timeUs + (s.now - s.tick.edgeAt) / 1000
      setRegN s pINTG R.INTG.LAST_CYCLE (min 0xFFFFFFFF (max len (at_ - start)))
    | none => s
  else s

/-- A committed LST_CFG: ENABLE 0 ends the cycle in progress, ENABLE 1 starts a new one at the applying edge. -/
def lstCommit (s : State) : State :=
  let on := fld s pINTG R.INTG.LST_CFG 31 1 == 1
  setIntg s fun x => { x with cycleAt := none, fresh := on, charged := 0, dues := [], wait := [] }

/-- One more slice of the cycle falls due at this edge: at step 6 its 48,000 cycles join the tile's carry, unless it is
skipped (R523). A tile that rejoins at step 7 of this edge is not. -/
def chargeOne (s : State) : State :=
  let n := s.intg.charged
  let u := sliceUnit n
  let s := setIntg s fun x => { x with charged := n + 1, dues := x.dues ++ [(n, s.tick.count)] }
  if u < 32 ∧ (¬ unitSkipped s u ∨ blkState s (pTILE u) = 5) then addCarry u 48000 s else s

/-- Slices of the running cycle that are due by tick time `tt`. -/
def dueCount (c su tt : Nat) : Nat := if tt < c then 0 else min cycleSlices ((tt - c) / su + 1)

/-- Step 6 of an edge: a cycle starts where one is to, the next follows without a gap, and slices fall due. -/
def lstStep6 (s : State) : State :=
  let tt := s.tick.timeUs
  let s := if s.intg.fresh then
      if fld s pINTG R.INTG.LST_CFG 31 1 = 1 then setIntg s fun x => { x with cycleAt := some tt, fresh := false, charged := 0 }
      else setIntg s fun x => { x with fresh := false }
    else s
  let run (s : State) : State :=
    match s.intg.cycleAt with
    | some c =>
      let k := dueCount c (sliceUs s) tt - s.intg.charged
      (List.range k).foldl (fun s _ => chargeOne s) s
    | none => s
  let s := run s
  match s.intg.cycleAt with
  | some c =>
    let next := c + cycleSlices * sliceUs s
    if s.intg.charged = cycleSlices ∧ next ≤ tt then run (setIntg s fun x => { x with cycleAt := some next, charged := 0 }) else s
  | none => s

/-- The oldest due slice is skipped, or begins to wait for its unit, where fewer than two wait (R521, R522). -/
def pickOne (s : State) : State :=
  match s.intg.dues with
  | [] => s
  | (n, d) :: l =>
    if 2 ≤ s.intg.wait.length then s
    else
      let u := sliceUnit n
      let s := setIntg s fun x => { x with dues := l }
      if unitSkipped s u then cycleEnd n (intgCount 2 s)
      else
        let run := if u < 32 then [1, 2, 3].filter fun e => (getEng s u e).queue != [] else []
        setIntg s fun x => { x with wait := x.wait ++ [{ idx := n, due := d, run := run, late := false }] }

/-- After step 7 of an edge: deferred slices may begin again, and due slices begin, at most 2 per edge. -/
def lstStep7 (s : State) : State :=
  let s := setIntg s fun x => { x with wait := x.wait.map fun w => { w with late := false } }
  showLst ((List.range s.intg.dues.length).foldl (fun s _ => pickOne s) s)

/-! ### Slices (R524 to R526) -/

/-- What a failing slice of a tile does, in the order of R526; the tile's state has been restored. -/
def sliceFailed (t sl : Nat) (s : State) : State :=
  let s := faultTile t 1 s
  let s := setRegN s pINTG R.INTG.LST_LAST (t * 2 ^ 24 + sl * 2 ^ 16)
  let s := errInfo pINTG 1 (t * 256 + sl) (intgCount 1 s)
  intgEvent (intgPen 1 (suspectFault t s))

/-- A failing slice of a deck core or of the MSS: a stop (R526). -/
def coreSliceFailed (u sl : Nat) (s : State) : State :=
  let s := setRegN s pINTG R.INTG.LST_LAST (u * 2 ^ 24 + sl * 2 ^ 16)
  let s := intgPen 1 (errInfo pINTG 1 (u * 256 + sl) (intgCount 1 s))
  let core := unitCore u
  coreStop core 0 (stopCore core 0 (setIntg s fun x => { x with answered := addSorted core x.answered }))

/-- The saved state fails its verification (R525). -/
def saveFailed (u : Nat) (s : State) : State :=
  let s := errInfo pINTG 5 u s
  if u < 32 then intgEvent (suspectFault u (faultTile u 5 s))
  else
    let core := unitCore u
    coreStop core 0 (stopCore core 0 (setIntg s fun x => { x with answered := addSorted core x.answered }))

/-- A passing slice (R526). -/
def slicePassed (n : Nat) (s : State) : State :=
  let s := intgCount 0 s
  let u := sliceUnit n
  if u < 32 then showPass u (setIntg s fun x => { x with passes := mput x.passes n s.tick.count }) else s

/-- The queues of a tile go on: the descriptor at the head of each begins now. -/
def releaseTile (t : Nat) (s : State) : State :=
  [1, 2, 3].foldl (fun s e =>
    let x := getEng s t e
    if x.queue = [] then s else putEng t e { x with start := s.tick.count, late := false } s) s

/-- The slice that waits first runs: the state is saved, tested and restored, and the slice passes or fails. `ok`: the
signature equals the expected one; `verified`: the saved image passed its CRC. An injected failure (R542) fails it. -/
def runSlice (w : WaitSlice) (ok verified : Bool) (s : State) : State :=
  let u := sliceUnit w.idx
  let s := setIntg s fun x => { x with wait := x.wait.drop 1 }
  if unitSkipped s u then showLst (cycleEnd w.idx (intgCount 2 s))
  else
    let planted := decide (u < 32) && s.intg.inject.contains u
    let s := setIntg s fun x => { x with inject := x.inject.filter (· != u) }
    let s := if u < 32 then releaseTile u s else s
    let s := if ¬ verified then saveFailed u s
      else if ok ∧ ¬ planted then slicePassed w.idx s
      else if u < 32 then sliceFailed u (sliceOf w.idx) s
      else coreSliceFailed u (sliceOf w.idx) s
    watchStat (showLst (cycleEnd w.idx s))

/-- LST_SLICE: the slice that waits first begins once its unit is idle (R523), unless it was deferred to the next edge. -/
def execLstSlice (t : Nat) (ok verified : Bool) (s : State) : Host.Outcome State Fault Refusal :=
  .next <|
    let s := atTime t s
    match s.intg.wait with
    | [] => s
    | w :: _ => if w.run ≠ [] ∨ w.late then s else runSlice w ok verified s

/-- LST_DEFER: its unit is not idle 50 µs after the edge; the slice waits for the next edge (R524). -/
def execLstDefer (t : Nat) (s : State) : Host.Outcome State Fault Refusal :=
  .next <|
    let s := atTime t s
    match s.intg.wait with
    | [] => s
    | w :: l =>
      if w.run = [] ∨ w.late ∨ t < s.tick.edgeAt + 50000 then s
      else intgCount 3 (setIntg s fun x => { x with wait := { w with late := true } :: l })

/-- LST_FORCE: from the ninth edge after the slice fell due, the running items are stopped with BUDGET and the slice runs
(R524). `cycles` gives, per engine, the cycles its item ran and its units left undecoded. -/
def execLstForce (t : Nat) (ok verified : Bool) (cycles : List (Nat × Cycles × Nat)) (s : State) :
    Host.Outcome State Fault Refusal :=
  .next <|
    let s := atTime t s
    match s.intg.wait with
    | [] => s
    | w :: _ =>
      if w.run = [] ∨ s.tick.count < w.due + 9 then s
      else
        let u := sliceUnit w.idx
        let s := w.run.foldl (fun s e =>
          match headDesc s u e, (cycles.find? fun c => c.1 == e) with
          | some d, some c => budgetStop u e c.2.1 c.2.2 d s
          | some d, none => budgetStop u e ⟨0, 0, 0⟩ 0 d s
          | none, _ => s) s
        runSlice w ok verified (intgPen 7 (intgCount 4 s))

/-! ### Commands (R530, R531, R536 to R538, R542, R543) -/

/-- How a request is carried out: its parameters and how it ends. -/
def intgRun (q : IntgReq) (op : Nat) (inv : (Nat → Nat) → Option Nat) (body : Option SvcCmd → (Nat → Nat) → State → SvcEnd)
    (s : State) : State :=
  match q with
  | .svc k => runSvc k op (fun c _ => inv fun i => c.d i) noFence (fun c s => body (some c) (fun i => c.d i) s) s
  | .own d4 d5 d6 =>
    let d (i : Nat) : Nat := [d4, d5, d6].getD (i - 4) 0
    match inv d with
    | some off => emit (.fwDone op st.INVALID_FIELD off) s
    | none =>
      match body none d s with
      | .done status result s' => emit (.fwDone op status result) s'
      | .wait s' => s'

/-- The tile field of an integrity command names a tile. -/
def tileField (d : Nat → Nat) : Option Nat := if d 4 % 256 < 32 then none else some 16

/-- The end of a request. -/
def intgEnd (op : Nat) (seq : Option Nat) (status result : Nat) (s : State) : State :=
  match seq with
  | some n => (match s.cmds.find? fun c => c.seq == n with
    | some c => complete c status result s
    | none => s)
  | none => emit (.fwDone op status result) s

/-- An on-demand run ends (R531): `fail` gives the first failing slice and how many failed. -/
def endRun (r : LstRun) (fail : Option (Nat × Nat)) (s : State) : State :=
  let t := r.tile
  let planted := s.intg.inject.contains t
  let fail := match fail, planted with
    | some (f, n), true => some (0, if f = 0 then n else n + 1)
    | none, true => some (0, 1)
    | x, false => x
  let s := setIntg s fun x => { x with
    runs := x.runs.filter fun y => y.tile != t, inject := x.inject.filter (· != t) }
  match fail with
  | none =>
    let s := setFld s pINTG (R.INTG.TILE_STAT + 4 * t) 31 1 0
    let s := setIntg s fun x => { x with
      passes := (List.range 64).foldl (fun m i => mput m (64 * t + i) s.tick.count) x.passes }
    let s := addReg (showPass t s) pINTG R.INTG.COUNT 64
    intgEnd 0x80 r.seq st.OK 0xFF00 s
  | some (f, n) =>
    let s := needTest t 2 s
    let s := setRegN s pINTG R.INTG.LST_LAST (t * 2 ^ 24 + f * 2 ^ 16)
    let s := errInfo pINTG 1 (t * 256 + f) (addReg (addReg s pINTG R.INTG.COUNT (64 - n)) pINTG (R.INTG.COUNT + 4) n)
    let s := if s.intg.issued.contains t then s else suspectTile t (mgetD s.intg.fencedAt t s.tick.count) s
    intgEnd 0x80 r.seq st.OK (f * 256 + n) (intgEvent (intgPen 1 s))

/-- The run a request in progress names. -/
def runOf (s : State) (q : IntgReq) : Option LstRun :=
  match q with
  | .svc k => (match findCmd s k with
    | some c => s.intg.runs.find? fun r => r.seq == some c.seq
    | none => none)
  | .own d4 _ _ => s.intg.runs.find? fun r => r.seq == none && r.tile == d4 % 256

/-- LST_RUN: begins a run on a FENCED tile, or, 2,064,000 cycles later, ends it (R530). A soft reset that waited for it
proceeds (R535). -/
def execLstRun (q : IntgReq) (t : Nat) (fail : Option (Nat × Nat)) (s : State) : Host.Outcome State Fault Refusal :=
  .next <|
    let s := atTime t s
    match runOf s q with
    | some r => if t < r.began + 2064000000 / Config.tileMhz then s else endRun r fail s
    | none =>
      intgRun q 0x80 tileField (fun c d s =>
        let u := d 4 % 256
        if blkState s (pTILE u) ≠ 3 then .done 0xF0 0 s
        else match (mget s.intg.lastRun u).filter fun b => decide (t < b + 1000000000) with
          | some b => .done 0xF1 (ceilDiv (b + 1000000000 - t) (s.tick.period * 1000)) s
          | none =>
            if 2 ≤ s.intg.runs.length then .done 0xF2 0 s
            else .wait (setIntg s fun x => { x with
              runs := x.runs ++ [{ tile := u, began := t, seq := c.map (·.seq) }], lastRun := mput x.lastRun u t })) s

/-- A spare row is left in a memory of a unit: 32 in an SRAM tier bank, 4 elsewhere (R536). -/
def spareLeft (s : State) (f : MbistFail) : Bool :=
  let used := (s.mgmt.repairs.filter fun r => r.1 == f.unit && r.2.1 == f.mem).length
  decide (used < (if f.unit < 32 then 32 else 4))

/-- A failing location found by memory self-test: captured, and its row replaced where a spare is left; true when none is
(R536, R537). -/
def mbistFound (f : MbistFail) (s : State) : State × Bool :=
  let s := errInfo pINTG 3 f.unit (intgPen 4 s)
  let s := if s.intg.mbistHeld then s else
    setIntg (setRegN (setRegN s pINTG R.INTG.MBIST_FAIL_UNIT (f.unit * 2 ^ 24 + f.bit * 2 ^ 16)) pINTG R.INTG.MBIST_FAIL_ADDR f.addr)
      fun x => { x with mbistHeld := true }
  if s.mgmt.repairs.contains (f.unit, f.mem, f.row) then (s, false)
  else if spareLeft s f then
    let s := setMgmt s fun m => { m with repairs := m.repairs ++ [(f.unit, f.mem, f.row)], c3 := m.c3 + 1 }
    (logEvent 0x000F (some pINTG) [f.unit, f.row] (intgPen 5 (intgCount 7 s)), false)
  else (s, true)

/-- All failing locations of a self-test, with whether one could not be repaired. -/
def mbistAll (l : List MbistFail) (s : State) : State × Bool :=
  l.foldl (fun a f => let r := mbistFound f a.1; (r.1, a.2 || r.2)) (s, false)

/-- Distinct rows of a list of failing locations. -/
def failRows (l : List MbistFail) : Nat := (l.map fun f => (f.mem, f.row)).eraseDups.length

/-- A slice's contents are gone. -/
def clearSlice (t : Nat) (s : State) : State :=
  { s with
    mem := memClear s.mem (sliceKey t 0) (sliceKey t sliceBytes)
    media := { s.media with sram := s.media.sram.filter fun x => x.tile != t } }

/-- MBIST_RUN: memory self-test of a DISABLED slice (R538). -/
def execMbistRun (q : IntgReq) (t : Nat) (fails : List MbistFail) (s : State) : Host.Outcome State Fault Refusal :=
  .next <|
    intgRun q 0x81 tileField (fun _ d s =>
      let u := d 4 % 256
      if blkState s (pSRAMT u) ≠ 0 then .done 0xF3 0 s
      else
        let l := fails.filter fun f => f.unit == u
        let (s, bad) := mbistAll l (clearSlice u s)
        let s := if bad then intgEvent (faultTile u 4 s) else s
        .done st.OK (failRows l) s) (atTime t s)

/-- SUSPECT_FORCE (R542). -/
def execSuspectForce (q : IntgReq) (s : State) : Host.Outcome State Fault Refusal :=
  .next (intgRun q 0x82 tileField (fun _ d s => .done st.OK 0 (suspectTile (d 4 % 256) s.tick.count s)) s)

/-- ERR_INJECT: the first offending field, by type (R542). -/
def injectOffence (d : Nat → Nat) : Option Nat :=
  let kind := d 4 % 16
  if kind = 0 ∨ 5 < kind then some 16
  else if 32 ≤ bitsOf (d 4) 8 8 then some 17
  else if kind ≤ 2 ∧ sliceBytes ≤ d 5 + 2 ^ 32 * d 6 then some 20
  else if (kind = 3 ∨ kind = 4) ∧ 2 ^ 40 ≤ d 5 + 2 ^ 32 * d 6 then some 24
  else none

/-- The type field of an ERR_INJECT request. -/
def injectKind (s : State) (q : IntgReq) : Nat :=
  match q with
  | .svc k => (match findCmd s k with | some c => c.d 4 % 16 | none => 0)
  | .own d4 _ _ => d4 % 16

/-- One type of ERR_INJECT; a request of another defined type is not this step's. -/
def injectRun (kind : Nat) (q : IntgReq) (act : Nat → Nat → State → State) (s : State) : State :=
  let k := injectKind s q
  if 1 ≤ k ∧ k ≤ 5 ∧ k ≠ kind then s
  else intgRun q 0x84 injectOffence (fun _ d s => .done st.OK 0 (act (bitsOf (d 4) 8 8) (d 5 + 2 ^ 32 * d 6) s)) s

/-- A word of a slice fails its code from the next access on. -/
def plantSram (bad : Bool) (t off : Nat) (s : State) : State :=
  { s with media := { s.media with sram := s.media.sram ++ [{ tile := t, offset := off / 8 * 8, uncorrectable := bad }] } }

/-- A word of the LPDDR5X fails its code from the next access on. -/
def plantDram (bad : Bool) (off : Nat) (s : State) : State :=
  { s with media := { s.media with dram := s.media.dram ++ [(off / 8 * 8, bad)] } }

/-- INJECT_SRAM_SINGLE: type 1. -/
def execInjectSramSingle (q : IntgReq) (s : State) : Host.Outcome State Fault Refusal :=
  .next (injectRun 1 q (fun t off s => plantSram false t off s) s)

/-- INJECT_SRAM_DOUBLE: type 2. -/
def execInjectSramDouble (q : IntgReq) (s : State) : Host.Outcome State Fault Refusal :=
  .next (injectRun 2 q (fun t off s => plantSram true t off s) s)

/-- INJECT_DRAM_SINGLE: type 3. -/
def execInjectDramSingle (q : IntgReq) (s : State) : Host.Outcome State Fault Refusal :=
  .next (injectRun 3 q (fun _ off s => plantDram false off s) s)

/-- INJECT_DRAM_DOUBLE: type 4. -/
def execInjectDramDouble (q : IntgReq) (s : State) : Host.Outcome State Fault Refusal :=
  .next (injectRun 4 q (fun _ off s => plantDram true off s) s)

/-- INJECT_SLICE_FAIL: type 5. -/
def execInjectSliceFail (q : IntgReq) (s : State) : Host.Outcome State Fault Refusal :=
  .next (injectRun 5 q (fun t _ s => setIntg s fun x => { x with inject := addSorted t x.inject }) s)

/-! ### Reports and the LPDDR5X (R513, R517, R541, R544, R545) -/

/-- A check of R513 reports an uncorrectable error: counted and captured with the block type of the reporter. -/
def checkedError (p : Page) (s : State) : State :=
  intgEvent (errInfo pINTG 4 (pageCode p.ty) (intgCount 6 (intgPen 0 s)))

/-- CHECKED_ERROR: an error of a page is reported; one in the control state of an engine, controller or fabric fences the
block (R513). -/
def execCheckedError (t : Nat) (p : Page) (control : Bool) (s : State) : Host.Outcome State Fault Refusal :=
  .next <|
    if ¬ pagePresent s p then atTime t s
    else
      let s := checkedError p (atTime t s)
      if control ∧ fld s p R.BLK_CAP0 30 1 = 1 then hwFence p s else s

/-- Key of a channel. -/
def chanKey (m ch : Nat) : Nat := 4 * m + ch

/-- LINK_CE of a channel rises by `n`; the count within one second is kept for R545. -/
def linkCe (m ch n : Nat) (s : State) : State :=
  let s := addSat s (pMEMC m) R.MEMC.LINK_CE n 0xFFFFFFFF
  let old := mgetD s.intg.linkCe (chanKey m ch) (s.now, 0)
  let cur := if s.now < old.1 + 1000000000 then (old.1, old.2 + n) else if 1000 < old.2 then (s.now, old.2 + n) else (s.now, n)
  setIntg s fun x => { x with linkCe := mput x.linkCe (chanKey m ch) cur }

/-- A burst fails its fifth attempt: four repetitions, LINK_ERR, and an uncorrectable word (R544). -/
def burstFailed (off : Nat) (s : State) : State :=
  let p := pMEMC (dramPkg off)
  let key := chanKey (dramPkg off) (dramChan off)
  let s := addSat s p R.MEMC.LINK_RETRY 4 0xFFFFFFFF
  let s := errInfo p 2 (dramChan off * 256) (penBit p 2 s)
  let s := setIntg s fun x => { x with linkCe := mput x.linkCe key (s.now, 1001) }
  plantDram true off s

/-- DRAM_SCRUB: the scrubber reads the burst at `off`, whose link ECC corrected `ce` bursts and repeated `retries`; `fail`: it
failed its fifth attempt. `pass` gives the minutes of the pass over the package that it completes (R541, R544, R547). -/
def execDramScrub (t off ce retries : Nat) (fail : Bool) (pass : Option Nat) (s : State) : Host.Outcome State Fault Refusal :=
  .next <|
    let s := atTime t s
    if 2 ^ 40 ≤ off then s
    else
      let m := dramPkg off
      let base := off / 64 * 64
      let s := if ce = 0 then s else linkCe m (dramChan off) ce s
      let s := addSat s (pMEMC m) R.MEMC.LINK_RETRY (min 4 retries) 0xFFFFFFFF
      let s := if fail then burstFailed base s else s
      let hit := s.media.dram.filter fun d => decide (base < d.1 + 8) && decide (d.1 < base + 64)
      let s := dramTouch base 64 s
      let s := (hit.filter fun d => !d.2).foldl (fun s _ => intgCount 8 s) s
      let s := (hit.filter (·.2)).foldl (fun s _ => checkedError (pMEMC m) (intgPen 9 (intgCount 9 s))) s
      let s := match pass with
        | some n => setIntg (setFld s (pMEMC m) R.MEMC.SCRUB_STAT 0 16 (min 0xFFFF n)) fun x => { x with scrubAt := mput x.scrubAt m s.now }
        | none => s
      watchStat s

/-- MEMC_RECAL: once per second a channel's I/O is recalibrated; the channel is back when the step is over (R545). -/
def execMemcRecal (t m ch : Nat) (s : State) : Host.Outcome State Fault Refusal :=
  .next <|
    let s := atTime t s
    if 16 ≤ m ∨ 4 ≤ ch ∨ s.power.phase ≠ .running then s
    else match (mget s.intg.recalAt (chanKey m ch)).filter fun b => decide (t < b + 1000000000) with
      | some _ => s
      | none => setIntg s fun x => { x with recalAt := mput x.recalAt (chanKey m ch) t }

/-- MEMC_RETRAIN: more than 1,000 corrected bursts within one second, or a failed burst, retrain the channel; a failed
retraining leads to the quiesce at the next edge, logged at fatal class (R545). -/
def execMemcRetrain (t m ch : Nat) (ok : Bool) (s : State) : Host.Outcome State Fault Refusal :=
  .next <|
    let s := atTime t s
    if 16 ≤ m ∨ 4 ≤ ch ∨ (mgetD s.intg.linkCe (chanKey m ch) (0, 0)).2 ≤ 1000 then s
    else
      let p := pMEMC m
      let s := setIntg s fun x => { x with linkCe := mdel x.linkCe (chanKey m ch) }
      let s := penBit p 3 (addSat s p R.MEMC.RETRAINS 1 0xFFFFFFFF)
      if ok then s
      else
        let s := errInfo p 3 (ch * 256) (penBit p 5 s)
        setIntg (logEvent 0x0007 (some p) [m] s) fun x => { x with quiesceDue := some 4 }

/-- A quiesce that a stopped deck core or a failed retraining asked for begins with the edge, as at sag step 2 (R519). -/
def dueQuiesce (s : State) : State :=
  match s.intg.quiesceDue with
  | some c => startQuiesce c (setIntg s fun x => { x with quiesceDue := none })
  | none => s

end Sys2Proof.Machine
end

