-- ==== Sys2Proof/Machine/TickSource.lean ====
section
/-! DEFINITION. Tick sources: qualification, loss, holdover, selection and switching (R60 to R66), and the count latch
(R58). -/

namespace Sys2Proof.Machine

def sourceQualified (s : State) (src : Nat) : Bool := fld s pTICK R.TICK.SRC_STAT (4 + src) 1 == 1

def setQualified (src : Nat) (on : Bool) (s : State) : State :=
  setFld s pTICK R.TICK.SRC_STAT (4 + src) 1 (if on then 1 else 0)

def activeSource (s : State) : Nat := fld s pTICK R.TICK.SRC_STAT 0 2

/-- The listed sources in order of priority; reserved codes count as none; the internal source stands last (R60). -/
def sourceList (s : State) : List Nat :=
  (((List.range 4).map fun i => fld s pTICK R.TICK.SRC_PRI (4 * i) 4).filter fun c => decide (c < 4)) ++ [0]

/-- The qualified, usable source that stands first (R60, R64). -/
def firstSource (s : State) : Nat :=
  ((sourceList s).find? fun c => sourceQualified s c && !(s.tick.unusable.getD c false)).getD 0

def inHoldover (s : State) : Bool := fld s pTICK R.TICK.SRC_STAT 8 1 == 1

/-- Chooses the source to use: a switch is due at the next edge when the first source is another one. Out of holdover a
source that was lost before replaces the active one only with REVERT (R62); in holdover the active source itself ends it
by requalifying, and any other listed source ends it by a switch (R65). -/
def chooseSource (s : State) : State :=
  let best := firstSource s
  let act := activeSource s
  if inHoldover s then
    if best = act then
      { setFld s pTICK R.TICK.SRC_STAT 8 1 0 with tick := { s.tick with holdoverSince := none, pendSwitch := none } }
    else if best ≠ 0 then { s with tick := { s.tick with pendSwitch := some best } }
    else s
  else if best = act then { s with tick := { s.tick with pendSwitch := none } }
  else if s.tick.wasLost.getD best false ∧ fld s pTICK R.TICK.SRC_PRI 16 1 = 0 ∧ sourceQualified s act then s
  else { s with tick := { s.tick with pendSwitch := some best } }

/-- The frequency of a source against the device's timebase: device time and source time over its present run (R65, R66). -/
def freqOf (s : State) (src : Nat) : Nat × Nat := s.tick.run.getD src (0, 0)

/-- `x` ns of a source in the device's time, and `x` ns of the device in the source's. -/
def toDevice (f : Nat × Nat) (x : Nat) : Nat := if f.2 = 0 then x else x * f.1 / f.2

def toSource (f : Nat × Nat) (x : Nat) : Nat := if f.1 = 0 then x else x * f.2 / f.1

/-- A source's run goes on by `dev` ns of the device and `own` ns of the source, or begins again; sums above 1 s are halved
(DESIGN CHOICE, log entry 167). -/
def trackFreq (src : Nat) (goesOn : Bool) (dev own : Nat) (s : State) : State :=
  let f := freqOf s src
  let g : Nat × Nat := if ¬ goesOn then (0, 0) else if f.2 < 1000000000 then (f.1 + dev, f.2 + own) else ((f.1 + dev) / 2, (f.2 + own) / 2)
  { s with tick := { s.tick with run := s.tick.run.set src g } }

/-- The number of periods from the last seen edge of a source to the edge nearest to `e`. -/
def periodsTo (s : State) (src e : Nat) : Nat :=
  let p := toDevice (freqOf s src) (s.tick.period * 1000)
  (e - s.tick.lastSeen.getD src 0 + p / 2) / p

/-- The predicted edge nearest to `e`, from the last seen edge and the period in force, at the corrected frequency once the
source is qualified. -/
def predicted (s : State) (src e : Nat) : Nat :=
  let last := s.tick.lastSeen.getD src 0
  let p := s.tick.period * 1000
  if sourceQualified s src then last + toDevice (freqOf s src) (max 1 (periodsTo s src e) * p)
  else last + max 1 ((e - last + p / 2) / p) * p

def distance (a b : Nat) : Nat := (a - b) + (b - a)

/-- Phase of the device's nearest edge against the source's edge at `e`, ns, positive when the device is late. -/
def phaseAgainst (s : State) (e : Nat) : Int :=
  let a := s.tick.edgeAt
  let b := s.tick.edgeAt + s.tick.len
  let near := if distance a e ≤ distance b e then a else b
  (near : Int) - (e : Int)

/-- PHASE_ERR shows the last edge's phase against the active source, in two's complement. -/
def showPhase (d : Int) (s : State) : State := setReg s pTICK R.TICK.PHASE_ERR (BitVec.ofInt 32 d)

/-- An edge of source 1 or 3 at `e` (R60, R61): eight edges within 500 ns of the prediction qualify it; on a qualified
TICK_IN an edge beyond 2 µs is ignored and counted. -/
def sourceEdge (src e : Nat) (s : State) : State :=
  let d := distance e (predicted s src e)
  if sourceQualified s src then
    if 2000 < d then
      (if src = 1 then
        let g := fld s pTICK R.TICK.SRC_STAT 16 16
        penBit pTICK 2 (setFld s pTICK R.TICK.SRC_STAT 16 16 (min 0xFFFF (g + 1)))
      else s)
    else
      let k := max 1 (periodsTo s src e)
      let s := trackFreq src true (e - s.tick.lastSeen.getD src 0) (k * (s.tick.period * 1000)) s
      let s := { s with tick := { s.tick with lastSeen := s.tick.lastSeen.set src e } }
      if activeSource s = src then showPhase (phaseAgainst s e) s else s
  else
    let ok := decide (s.tick.lastSeen.getD src 0 ≠ 0) && decide (d ≤ 500)
    let n := if ok then s.tick.good.getD src 0 + 1 else 0
    let last := s.tick.lastSeen.getD src 0
    let s := trackFreq src ok (e - last) (predicted s src e - last) s
    let s := { s with tick := { s.tick with lastSeen := s.tick.lastSeen.set src e, good := s.tick.good.set src n } }
    if 8 ≤ n then chooseSource (setQualified src true s) else s

/-- TICKIN_EDGE: a rising edge on TICK_IN at `t`, less the path delay in 4 ns units (R61, R66). -/
def execTickinEdge (t : Nat) (s : State) : Host.Outcome State Fault Refusal :=
  .next (sourceEdge 1 (t - 4 * fld s pTICK R.TICK.PTP_CFG 24 8) (atTime t s))

/-- PTP time of tick edge `n`, ns from the PTP epoch (chapter 02, Sources and selection). -/
def ptpEdge (s : State) (n : Nat) : Nat :=
  let origin := (reg s pTICK R.TICK.ORIGIN_LO + 2 ^ 32 * fld s pTICK R.TICK.ORIGIN_HI 0 16) * SEC'
  origin + s.tick.histNs + (n - s.tick.histTick) * (s.tick.period * 1000)
where SEC' : Nat := 1000000000

/-- The tick edge nearest to PTP time `x`. -/
def ptpCount (s : State) (x : Nat) : Nat :=
  let base := ptpEdge s s.tick.histTick
  let p := s.tick.period * 1000
  s.tick.histTick + (x - base + p / 2) / p

/-- PTP_MESSAGE: a message of the configured domain reaches the slave on port code `port` (PORT + 4 × SUBPORT). A Sync carries the servo offset and the PTP
time: 16 at or below 250 ns qualify the source; 16 above 1 µs lose it (R60, R61). -/
def execPtpMessage (t port domain : Nat) (sync : Bool) (offset : Int) (ptpNs : Nat) (s : State) :
    Host.Outcome State Fault Refusal :=
  .next <|
    let cfg := reg s pTICK R.TICK.PTP_CFG
    if bitOf cfg 4 ∧ bitsOf cfg 16 8 = domain ∧ bitsOf cfg 0 4 = port ∧ sync then
      let s := atTime t s
      let a := offset.natAbs
      let good := if a ≤ 250 then s.tick.good.getD 2 0 + 1 else 0
      let bad := if 1000 < a then s.tick.bad.getD 2 0 + 1 else 0
      let s := match s.tick.ptpRef with
        | some r => trackFreq 2 (decide (a ≤ 1000)) (t - r.1) (ptpNs - r.2) s
        | none => s
      let s := { s with tick := { s.tick with
        good := s.tick.good.set 2 good, bad := s.tick.bad.set 2 bad, lastSeen := s.tick.lastSeen.set 2 t
        ptpRef := some (t, ptpNs) } }
      let s := if activeSource s = 2 then showPhase offset s else s
      if 16 ≤ good ∧ ¬ sourceQualified s 2 then chooseSource (setQualified 2 true s) else s
    else atTime t s

/-- The active source is lost by `t` (R61). -/
def sourceLost (s : State) (t src : Nat) : Bool :=
  let last := s.tick.lastSeen.getD src 0
  if src = 2 then decide (last + 3000000000 ≤ t) || decide (16 ≤ s.tick.bad.getD 2 0)
  else if src = 1 ∨ src = 3 then decide (last + 4 * (s.tick.period * 1000) + 2000 ≤ t)
  else false

/-- SRC_LOST: source `src` is lost. The loss of the active source sets the pennant and starts holdover, or a listed
qualified source takes over (R61, R62, R65); the loss of another qualified source takes its qualification and the mark of
R64 away. -/
def execSrcLost (t src : Nat) (s : State) : Host.Outcome State Fault Refusal :=
  .next <|
    if sourceLost s t src ∧ sourceQualified s src then
      let act := activeSource s == src
      let s := setQualified src false (atTime t s)
      let s := { s with tick := { s.tick with
        good := s.tick.good.set src 0, bad := s.tick.bad.set src 0, unusable := s.tick.unusable.set src false
        wasLost := s.tick.wasLost.set src true, run := s.tick.run.set src (0, 0)
        hold := if act then freqOf s src else s.tick.hold } }
      if act then
        let s := setFld (penBit pTICK 0 s) pTICK R.TICK.SRC_STAT 8 1 1
        chooseSource { s with tick := { s.tick with holdoverSince := some t, rem := 0 } }
      else chooseSource s
    else s

/-- HOLDOVER_EXPIRY: 10 s from the loss (R65). -/
def execHoldoverExpiry (t : Nat) (s : State) : Host.Outcome State Fault Refusal :=
  .next <|
    match s.tick.holdoverSince with
    | some x => if x + 10000000000 ≤ t ∧ inHoldover s then penBit pTICK 3 (atTime t s) else s
    | none => s

end Sys2Proof.Machine
end

