-- ==== Sys2Proof/Machine/Mirror.lean ====
section
/-! DEFINITION. Mirror records (chapter 14): what a record tells, its bytes, and how a partner's record is applied to the
replica. -/

namespace Sys2Proof.Machine

def setPairX (s : State) (f : Pair → Pair) : State := { s with pair := f s.pair }

def pairCount (i n : Nat) (s : State) : State := addReg s pPAIR (R.PAIR.COUNT + 4 * i) n

def partnerId (s : State) : Nat := reg s pPAIR R.PAIR.PARTNER_ID_LO + 2 ^ 32 * reg s pPAIR R.PAIR.PARTNER_ID_HI

/-! ### What the device owns (R478) -/

/-- The 64 descriptor bytes of a stream set (R116). -/
def setBytes (x : StreamSet) : List Byte :=
  leBytes 1 1 ++ leBytes 1 x.container ++ leBytes 2 x.outputs ++ leBytes 4 x.interval ++ leBytes 4 x.startOff ++ leBytes 2 x.clip ++
    leBytes 2 x.group ++ leBytes 4 x.stride ++ leBytes 4 x.packMax ++ leBytes 4 x.mask ++ leBytes 2 x.contexts ++ leBytes 2 x.weight ++
    leBytes 2 x.vis ++ leBytes 2 x.aud ++ leBytes 2 x.prof ++ leBytes 1 x.policy ++ leBytes 1 x.audioSel ++ leBytes 4 x.rank ++
    leBytes 2 x.readahead ++ List.replicate 18 0

/-- The 64 descriptor bytes of a ring (R291). -/
def ringBytes (x : Ring) : List Byte :=
  leBytes 1 1 ++ leBytes 1 x.port ++ leBytes 1 x.sizeLog ++ leBytes 1 0 ++ leBytes 2 x.weight ++ leBytes 2 0 ++ leBytes 8 x.base ++
    leBytes 8 x.piAddr ++ ((List.range 8).flatMap fun i => leBytes 2 (x.sets.getD i 0xFFFF)) ++ List.replicate 24 0

/-- The 32 bytes of a shard entry (R117). -/
def shardEntry (x : Shard) : List Byte :=
  leBytes 1 x.source ++ leBytes 3 0 ++ leBytes 4 x.handle ++ leBytes 8 x.offset ++ leBytes 8 x.length ++ List.replicate 8 0

/-- The accelerator's UNIT_ID behind a port. -/
def portUnit (s : State) (port : Nat) : Nat :=
  match (List.range 48).find? fun l => linkPort s l == some port with
  | some l => reg s (pLINK l) R.LINK.PEER_ID_LO + 2 ^ 32 * reg s (pLINK l) R.LINK.PEER_ID_HI
  | none => 0

def viewOf (s : State) : MirView := {
  rings := s.feed.rings.map fun e => (e.1, ringBytes e.2 ++ leBytes 8 (portUnit s e.2.port))
  sets := s.foundry.sets.map fun e => (e.1, setBytes e.2)
  shards := s.foundry.sets.map fun e => (e.1, e.2.shards.length)
  names := ((List.range 1024).filter (graphLoaded s)) ++ ((List.range 256).filter (profileLoaded s)).map (1024 + ·)
  pos := s.foundry.ctxs.filterMap fun e => e.2.shard.map fun n => (e.2.sset, n, e.2.sample)
  packs := s.foundry.packs.map fun p => (p.rank, p.id)
  ledger := s.feed.rings.map fun e => (e.1, e.2.ci)
  manifests := s.ckpt.manifests.filter fun b => !s.pair.foreign.contains b }

/-- An OBJECTS entry. -/
def objEntry (kind action idx : Nat) (desc : List Byte) : List Byte :=
  leBytes 1 kind ++ leBytes 1 action ++ leBytes 2 idx ++ leBytes 4 0 ++ desc

/-- Listed in `new` and not in `old`. -/
def newOf {α : Type} [DecidableEq α] (old new : List α) : List α := new.filter fun a => !old.contains a

/-- The sections, but for NS_WRITE, of what changed from `v` to the state: type and entries. -/
def sections (v : MirView) (s : State) : List (Nat × List (List Byte)) :=
  let w := viewOf s
  let made (kind : Nat) (old new : List (Nat × List Byte)) : List (List Byte) := (newOf old new).map fun e => objEntry kind 0 e.1 e.2
  let gone (kind : Nat) (old new : List (Nat × List Byte)) : List (List Byte) :=
    (old.filter fun e => !(new.map (·.1)).contains e.1).map fun e => objEntry kind 1 e.1 []
  let name (n : Nat) : List Byte := leBytes 8 (n / 1024)
  let objects := gone 1 v.rings w.rings ++ gone 2 v.sets w.sets ++ made 2 v.sets w.sets ++ made 1 v.rings w.rings ++
    (s.foundry.sets.flatMap fun e => (e.2.shards.drop (mgetD v.shards e.1 0)).map fun x => objEntry 3 0 e.1 (shardEntry x)) ++
    (newOf v.names w.names).map (fun n => objEntry 4 0 (n % 1024) (name n)) ++
    (newOf w.names v.names).map (fun n => objEntry 4 1 (n % 1024) (name n))
  let fresh := s.foundry.packs.filter fun p => !v.packs.contains (p.rank, p.id)
  let own := (fresh.filter fun p => !p.peer).map fun p => leBytes 8 p.id ++ leBytes 4 p.len ++ leBytes 4 (if p.chosen then 1 else 0)
  [(1, objects),
   (2, (newOf v.pos w.pos).map fun e => leBytes 2 e.1 ++ leBytes 2 0 ++ leBytes 4 e.2.1 ++ leBytes 4 e.2.2 ++ leBytes 4 0),
   (3, own),
   (4, (newOf w.packs v.packs).map fun e => leBytes 8 e.2),
   (5, (newOf v.ledger w.ledger).map fun e => leBytes 2 e.1 ++ leBytes 6 0 ++ leBytes 8 e.2),
   (6, (fresh.filter (·.peer)).map (·.data)),
   (7, newOf v.manifests w.manifests)]

/-- An NS_WRITE entry. -/
def nsEntry (nsid lba blocks flags : Nat) (data : List Byte) : List Byte :=
  leBytes 4 nsid ++ leBytes 4 0 ++ leBytes 8 lba ++ leBytes 4 blocks ++ leBytes 4 flags ++ data

/-- Bytes of protection information of a block. -/
def piBytes (lbaf : Nat) : Nat := if lbaf % 2 = 0 then 0 else 16

/-- The entries of one mirrored write. -/
def writeEntries (s : State) (c : NCmd) : List (List Byte) :=
  match getNs s c.nsid with
  | none => []
  | some n =>
    (c.ranges.foldl (fun (l, k) r =>
      let bs := lbaBytes n.lbaf
      let pb := piBytes n.lbaf
      let d := (c.data.drop (k * bs)).take (r.2 * bs) ++ (c.pi.drop (k * pb)).take (r.2 * pb)
      (l ++ [nsEntry c.nsid r.1 r.2 c.kind (if c.kind = 0 then d else [])], k + r.2)) (([] : List (List Byte)), 0)).1

/-- The complete content of the mirrored namespaces that the device owns. -/
def nsImage (s : State) : List (List Byte) :=
  (s.nvme.nss.filter fun e => e.2.kind == 1 && e.2.owned).flatMap fun e =>
    (s.flash.map.filter fun b => b.1 / 2 ^ 64 == e.1).map fun b =>
      nsEntry e.1 (b.1 % 2 ^ 64) 1 0 (b.2.data ++ b.2.pi.take (piBytes e.2.lbaf))

/-! ### The bytes of a record (R477) -/

def sectionBytes (e : Nat × List (List Byte)) : List Byte :=
  let body := e.2.flatten
  let body := body ++ List.replicate ((8 - body.length % 8) % 8) 0
  leBytes 2 e.1 ++ leBytes 2 0 ++ leBytes 4 (16 + body.length) ++ leBytes 4 e.2.length ++ leBytes 4 0 ++ body

/-- A record: header, its CRC, and the sections that hold something. -/
def recordBytes (s : State) (flags seq : Nat) (secs : List (Nat × List (List Byte))) : List Byte :=
  let secs := secs.filter fun e => e.2 != []
  let body := secs.flatMap sectionBytes
  let h := leBytes 4 0x524D5045 ++ leBytes 1 1 ++ leBytes 1 flags ++ leBytes 2 (pairEpoch s) ++ leBytes 8 seq ++ leBytes 8 (ownUnit s) ++
    leBytes 8 (64 + body.length) ++ leBytes 2 secs.length ++ List.replicate 26 0
  h ++ leBytes 4 (crc32c (h ++ leBytes 4 0 ++ body)) ++ body

/-- Sends a record in parts of 4,080 bytes, spread over the hawser links (R470, R471). -/
def sendRecord (kind : String) (seq : Nat) (b : List Byte) (s : State) : State :=
  let ls := hawserLinks s
  if ls = [] then s
  else
    let n := ceilDiv b.length 4080
    forN n s fun i s =>
      emit (.hawser kind ([ls.getD (i % ls.length) 0, pairEpoch s, seq, i, n] ++ ((b.drop (4080 * i)).take 4080).map (·.toNat))) s

/-- RECORD_CLOSE: record `n` is closed and sent (R476). -/
def closeRecord (n : Nat) (s : State) : State :=
  let writes := ((mirrorCmds s).filter fun e => e.2.record == some n).flatMap fun e => writeEntries s e.2
  let final := match s.power.quiesce with | some q => q == n | none => false
  let b := recordBytes s (if final then 1 else 0) n (sections s.pair.view s ++ [(8, writes)])
  let s := setPairX s fun p => { p with view := viewOf s }
  pairCount 0 1 (sendRecord "MIRROR" n b s)

/-- The full image, at the base tick (R491). -/
def sendImage (s : State) : State :=
  let secs := (sections .empty s).filter fun e => [1, 2, 3, 5, 7].contains e.1
  let b := recordBytes s 2 s.tick.count (secs ++ [(8, nsImage s)])
  sendRecord "RESYNC" s.tick.count b (setPairX s fun p => { p with view := viewOf s })

/-! ### Applying a partner's record (R479, R491) -/

def applyObjects : Nat → List Byte → Replica → Replica
  | 0, _, r => r
  | n + 1, b, r =>
    let kind := leAt b 0 1
    let make := leAt b 1 1 == 0
    let i := leAt b 2 2
    let d := b.drop 8
    match kind with
    | 1 => if make then applyObjects n (d.drop 72) { r with rings := mput r.rings i (d.take 72) }
        else applyObjects n d { r with rings := mdel r.rings i, ledger := mdel r.ledger i }
    | 2 => if make then applyObjects n (d.drop 64) { r with sets := mput r.sets i (d.take 64) }
        else applyObjects n d { r with
          sets := mdel r.sets i, shards := mdel r.shards i, pos := r.pos.filter fun e => e.1 != i
          packs := r.packs.filter fun e => e.1 / 2 ^ 48 != i }
    | 3 => applyObjects n (d.drop 32) { r with shards := mput r.shards i (mgetD r.shards i [] ++ [d.take 32]) }
    | _ =>
      let name := leAt d 0 8 * 1024 + i
      let rest := r.names.filter (· != name)
      applyObjects n (d.drop 8) { r with names := if make then rest ++ [name] else rest }

def applyPositions : Nat → List Byte → Replica → Replica
  | 0, _, r => r
  | n + 1, b, r =>
    let e := (leAt b 0 2, leAt b 4 4, leAt b 8 4)
    applyPositions n (b.drop 16) { r with pos := (r.pos.filter fun x => !(x.1 == e.1 && x.2.1 == e.2.1)) ++ [e] }

def applySealed : Nat → List Byte → Replica → Replica
  | 0, _, r => r
  | n + 1, b, r =>
    applySealed n (b.drop 16) { r with
      packs := (r.packs.filter fun e => e.1 != leAt b 0 8) ++ [(leAt b 0 8, leAt b 8 4, leAt b 12 4 % 2 == 1)] }

/-- The identifier of a pack held whole. -/
def packIdIn (b : List Byte) : Nat := leAt b 0x10 8

def applyRemoved : Nat → List Byte → Replica → Replica
  | 0, _, r => r
  | n + 1, b, r =>
    applyRemoved n (b.drop 8) { r with
      packs := r.packs.filter fun e => e.1 != leAt b 0 8, received := r.received.filter fun x => packIdIn x != leAt b 0 8 }

def applyLedger : Nat → List Byte → Replica → Replica
  | 0, _, r => r
  | n + 1, b, r => applyLedger n (b.drop 16) { r with ledger := mput r.ledger (leAt b 0 2) (leAt b 8 8) }

def applyReceived : Nat → List Byte → Replica → Replica
  | 0, _, r => r
  | n + 1, b, r =>
    let len := max 64 (leAt b 8 4)
    applyReceived n (b.drop len) { r with received := r.received ++ [b.take len] }

/-- Mirrored manifests land in the landing area (R456, R489). -/
def applyManifests : Nat → List Byte → State → State
  | 0, _, s => s
  | n + 1, b, s =>
    let len := max 1 (leAt b 0x40 4)
    let m := b.take len
    let s := if s.ckpt.manifests.contains m then s
      else setPairX (if areaHas s len then landManifest m s else s) fun p => { p with foreign := p.foreign ++ [m] }
    applyManifests n (b.drop len) s

/-- The replica of a namespace: made, at its first write, in the form that `forms` gives (R401). -/
def replicaNs (forms : List NsForm) (nsid : Nat) (s : State) : State :=
  if (getNs s nsid).isSome then s
  else
    let f := (forms.find? fun f => f.nsid == nsid).getD { nsid := nsid, lbaf := 0, ext := false, blocks := 0 }
    newDeviceKey nsid (putNs nsid {
      state := 1, former := 1, kind := 1, lbaf := f.lbaf, ext := f.ext, dps := 0, gib := ceilDiv (f.blocks * lbaBytes f.lbaf) (2 ^ 30)
      size := f.blocks, nguid := [], ctrl := none, policy := 0, owned := false, mirror := 0, ackTick := 0, degBytes := 0
      leftBytes := 0 } s)

/-- A block of a replica reaches the medium. -/
def replicaBlock (nsid lba : Nat) (data pi : List Byte) (s : State) : State :=
  setFlash s fun f => { f with
    seq := f.seq + 1, medBytes := f.medBytes + 2 * data.length
    map := mput f.map (lbaKey nsid lba) { data := data, pi := pi, seq := f.seq + 1, staged := none, folded := none, dead := false } }

/-- NS_WRITE entries; those of the namespaces in `kept` are passed over: the receiver's own copy wins (R492). -/
def applyWrites (forms : List NsForm) (kept : List Nat) : Nat → List Byte → State → State
  | 0, _, s => s
  | n + 1, b, s =>
    let nsid := leAt b 0 4
    let lba := leAt b 8 8
    let blocks := leAt b 16 4
    let flags := leAt b 20 4
    let s := replicaNs forms nsid s
    let lbaf := match getNs s nsid with | some x => x.lbaf | none => 0
    let bs := lbaBytes lbaf
    let pb := piBytes lbaf
    let d := b.drop 24
    let len := if flags % 4 = 0 then blocks * (bs + pb) else 0
    let s := if kept.contains nsid then s
      else if bitOf flags 1 then setFlash s (unmapRange nsid lba blocks)
      else forN blocks s fun i s =>
        if bitOf flags 0 then replicaBlock nsid (lba + i) (List.replicate bs 0) [] s
        else replicaBlock nsid (lba + i) ((d.drop (i * bs)).take bs) ((d.drop (blocks * bs + i * pb)).take pb) s
    applyWrites forms kept n (d.drop len) s

/-- The sections of a record in turn. -/
def applySections (forms : List NsForm) (kept : List Nat) : Nat → List Byte → State → State
  | 0, _, s => s
  | n + 1, b, s =>
    let len := max 16 (leAt b 4 4)
    let count := leAt b 8 4
    let body := (b.take len).drop 16
    let r (f : Nat → List Byte → Replica → Replica) : State := setPairX s fun p => { p with replica := f count body p.replica }
    let s := match leAt b 0 2 with
      | 1 => r applyObjects
      | 2 => r applyPositions
      | 3 => r applySealed
      | 4 => r applyRemoved
      | 5 => r applyLedger
      | 6 => r applyReceived
      | 7 => applyManifests count body s
      | 8 => applyWrites forms kept count body s
      | _ => s
    applySections forms kept n (b.drop len) s

/-- A record is whole and its CRC matches (R477, R479). -/
def recordOk (s : State) (seq : Nat) (b : List Byte) : Bool :=
  leAt b 0 4 == 0x524D5045 && leAt b 4 1 == 1 && leAt b 6 2 == pairEpoch s && leAt b 8 8 == seq && leAt b 0x18 8 == b.length &&
    leAt b 0x3C 4 == crc32c (b.take 0x3C ++ leBytes 4 0 ++ b.drop 0x40)

/-- Bytes the replica takes (R480). -/
def Replica.bytes (r : Replica) : Nat :=
  72 * r.rings.length + 64 * r.sets.length + (r.shards.map fun e => 32 * e.2.length).sum + 16 * r.pos.length + 16 * r.packs.length +
    16 * r.ledger.length + (r.received.map (·.length)).sum

/-- The bytes of a record all of whose parts have come. -/
def assembled (s : State) (image : Bool) (seq : Nat) : Option (List Byte) :=
  let l := s.pair.parts.filter fun p => p.image == image && p.seq == seq
  match l with
  | [] => none
  | p :: _ => if p.parts = l.length then some ((sortBy (·.part) l).flatMap (·.data)) else none

def dropParts (image : Bool) (seq : Nat) (s : State) : State :=
  setPairX s fun p => { p with parts := p.parts.filter fun x => !(x.image == image && x.seq == seq) }

/-- Applies what can be applied: the image first, then records in SEQ order (R479, R491). -/
def applyReady (forms : List NsForm) (kept ties : List Nat) : Nat → State → State
  | 0, s => s
  | n + 1, s =>
    if ¬ s.pair.applied then
      match assembled s true s.pair.base with
      | none => s
      | some b =>
        let s := dropParts true s.pair.base s
        if ¬ recordOk s s.pair.base b then applyReady forms kept ties n s
        else
          let s := setPairX s fun p => { p with replica := .empty, applied := true, lastApplied := p.base - 1 }
          let s := applySections forms kept (leAt b 0x20 2) (b.drop 64) s
          let s := ties.foldl (fun s i =>
            errInfo pPAIR 2 i (penBit pPAIR 6 (pairCount 9 1 (logEvent 0x0004 (some pPAIR) [8, 0, i] s)))) s
          applyReady forms kept ties n (sendHawser "RESYNC_ACK" [s.pair.base] s)
    else
      let seq := s.pair.lastApplied + 1
      match assembled s false seq with
      | none => s
      | some b =>
        let s := dropParts false seq s
        if ¬ recordOk s seq b then applyReady forms kept ties n s
        else
          let s := applySections forms [] (leAt b 0x20 2) (b.drop 64) (setPairX s fun p => { p with lastApplied := seq })
          applyReady forms kept ties n (sendHawser "MIRROR_ACK" [seq] (pairCount 1 1 s))

end Sys2Proof.Machine
end

