-- ==== Sys2Proof/Machine/Pair.lean ====
section
/-! DEFINITION. The pair (chapter 14): hawser frames, joining and resynchronisation, leases and the witness, takeover, and the
pair commands. -/

namespace Sys2Proof.Machine

/-- PAIR is enabled and not fenced: its state is a pair state (R474). -/
def pairOn (s : State) : Bool := 0x80 ≤ pairMode s && pairMode s ≤ 0x85

def setPairState (v : Nat) (s : State) : State :=
  if blkState s pPAIR = 2 then setPairX s fun p => { p with stopMode := v } else setBlkState s pPAIR v

/-- MISS_TICKS and LEASE_TICKS in force (chapter 14, PAIR.CFG). -/
def missTicks (s : State) : Nat := max 2 (min 20 (fld s pPAIR R.PAIR.CFG 16 8))

def leaseTicks (s : State) : Nat :=
  let l := max 4 (min 35 (fld s pPAIR R.PAIR.CFG 24 8))
  if 37 < l + missTicks s then 37 - missTicks s else l

/-- The device had a hawser frame within the last MISS_TICKS ticks. -/
def hawserSeen (s : State) : Bool :=
  match s.pair.lastFrame with
  | some n => decide (s.tick.count < n + missTicks s)
  | none => false

/-- A fresh witness message is held (R483). -/
def freshWitness (s : State) : Option Witness := s.pair.witness.filter fun w => decide (s.now < w.at_ + 4000000)

/-- LEASE_TO as the device grants it now (R481). -/
def grantNow (s : State) : Nat :=
  let n := s.tick.count
  let live : Bool := match s.pair.lastHeard with
    | some k => decide (n ≤ k + missTicks s)
    | none => false
  if 0x82 ≤ pairMode s ∧ pairMode s ≤ 0x84 ∧ live then n + leaseTicks s else 0

/-- LEASE_OUT keeps the highest value ever sent (R481). -/
def noteLease (v : Nat) (s : State) : State :=
  if reg64 s pPAIR R.PAIR.LEASE_OUT_LO < v then setPairX (setReg64 s pPAIR R.PAIR.LEASE_OUT_LO v) fun p => { p with heard := false } else s

/-! ### Changes of state -/

/-- Synchronisation is lost: the mirrored writes in hand complete under their namespace's policy (R401). -/
def loseSync (s : State) : State :=
  (mirrorCmds s).foldl (fun s e =>
    match getNs s e.2.nsid with
    | none => endIo e.1 e.2 nv.NS_FORMAT s
    | some n =>
      if n.kind ≠ 1 then s
      else if n.policy = 1 then endIo e.1 e.2 nv.MIRROR s
      else landNvme e.1 e.2 true (if n.mirror = 0 then mirrorState e.2.nsid 1 s else s)) s

/-- Leaves the present pair state for `v`. -/
def leaveSync (v : Nat) (s : State) : State :=
  let s := if pairMode s = 0x83 then loseSync (setPairState v s) else setPairState v s
  setPairX s fun p => { p with join := none, parts := [], finalSeq := none, applied := false, acked := false, next := none }

def enterSolo (s : State) : State := finishCmds (fun c => c.op == 0x60) st.ABORTED 0 (leaveSync 0x85 s)

/-- Seeks its partner again (R480, R490). -/
def seekAgain (s : State) : State := setPairX (leaveSync 0x81 s) fun p => { p with rejoin := true }

def enterUnpaired (s : State) : State := setPairX (leaveSync 0x80 s) fun p => { p with rejoin := false, replica := .empty }

/-- The pair state changes to `v` at step 7 of the next edge (R75). -/
def atNextEdge (v : Nat) (s : State) : State := setPairX s fun p => { p with next := some v }

/-- The command comes at the time of the last edge, where a pair state may change (R75). -/
def atEdge (t : Nat) (s : State) : Bool := t == s.tick.edgeAt

/-! ### Frames from the partner -/

/-- A frame of any class but JOIN and NOTICE: one of another epoch is discarded (R471); the partner has been heard, and a device
in SPLIT seeks it again (R490). -/
def hawserFrame (t epoch : Nat) (f : State → State) (s : State) : State :=
  let s := atTime t s
  if epoch ≠ pairEpoch s then penBit pPAIR 5 (pairCount 2 1 s)
  else
    let n := s.tick.count
    let s := setPairX s fun p => { p with lastFrame := some n, lastHeard := some n, heard := true }
    f (raiseLine 34 3 (if pairMode s = 0x84 then atNextEdge 0x81 s else s))

/-- The replica's space is exhausted (R480). -/
def replicaCheck (s : State) : State :=
  if max 4 (min 256 (fld s pPAIR R.PAIR.REPLICA 0 16)) * 2 ^ 30 < s.pair.replica.bytes then atNextEdge 0x81 (penBit pPAIR 8 s) else s

/-- A part of a record arrives, while the replica is kept on. -/
def takePart (image : Bool) (seq part parts : Nat) (data : List Byte) (forms : List NsForm) (kept ties : List Nat) (s : State) : State :=
  if ¬ (pairMode s = 0x82 ∨ pairMode s = 0x83) ∨ s.pair.next.isSome then s
  else if ¬ image ∧ s.pair.applied ∧ seq ≤ s.pair.lastApplied then
    if part = 0 then sendHawser "MIRROR_ACK" [seq] s else s
  else
    let s := setPairX s fun p => { p with
      parts := (p.parts.filter fun x => !(x.image == image && x.seq == seq && x.part == part)) ++
        [{ image := image, seq := seq, part := part, parts := parts, data := data }] }
    replicaCheck (applyReady forms kept ties (s.pair.parts.length + 1) s)

/-- MIRROR: a part of a record; a complete record is applied and acknowledged (R479). `forms` are the forms of namespaces that
its writes name for the first time. -/
def execMirror (t epoch seq part parts : Nat) (data : List Byte) (forms : List NsForm) (s : State) : Host.Outcome State Fault Refusal :=
  .next (hawserFrame t epoch (takePart false seq part parts data forms [] []) s)

/-- RESYNC: a part of the full image (R491, R492). `kept` are namespaces whose own copy has the higher commit sequence, `ties`
those of equal sequence and different content. -/
def execResync (t epoch seq part parts : Nat) (data : List Byte) (forms : List NsForm) (kept ties : List Nat) (s : State) :
    Host.Outcome State Fault Refusal :=
  .next (hawserFrame t epoch (takePart true seq part parts data forms kept ties) s)

/-- MIRROR_ACK: the mirrored writes of the records up to `seq` complete (R401, R479). -/
def execMirrorAck (t epoch seq : Nat) (s : State) : Host.Outcome State Fault Refusal :=
  .next <| hawserFrame t epoch (fun s =>
    let s := setPairX s fun p => { p with ackPend := some (max seq (p.ackPend.getD 0)) }
    if pairMode s ≠ 0x83 then s
    else ((mirrorCmds s).filter fun e => match e.2.record with | some n => decide (n ≤ seq) | none => false).foldl (fun s e =>
      let s := match getNs s e.2.nsid with | some n => putNs e.2.nsid { n with ackTick := seq } s | none => s
      landNvme e.1 e.2 false s) s) s

/-- TICK_FRAME: the partner's edge, its count and lease (R472, R482). The frame left `ofs` ns after the partner's edge; `echo` and
`hold` give the round trip. -/
def execTickFrame (t epoch count lease echo ofs hold : Nat) (s : State) : Host.Outcome State Fault Refusal :=
  .next <| hawserFrame t epoch (fun s =>
    let sent := s.tick.edgeAt - (s.tick.count - echo) * (s.tick.period * 1000)
    let delay := (t - sent - hold) / 2
    let s := setPairX s fun p => { p with echo := some (count, t), leaseIn := max p.leaseIn lease }
    -- the device's next edge answers the partner's edge nearest to it
    let e := t - delay - ofs
    let next := if s.tick.edgeAt + s.tick.len < e + s.tick.period * 500 then count else count + 1
    sourceEdge 3 e { s with tick := { s.tick with carried := some next } }) s

/-- HAWSER_HALYARD: the partner's halyard frame is a trigger of source 3 (R82). -/
def execHawserHalyard (t epoch _count _seq : Nat) (s : State) : Host.Outcome State Fault Refusal :=
  .next (hawserFrame t epoch (halyardTrigger 3 t) s)

/-- RESYNC_ACK: the partner has applied this device's image (R491). -/
def execResyncAck (t epoch base : Nat) (s : State) : Host.Outcome State Fault Refusal :=
  .next <| hawserFrame t epoch (fun s =>
    if pairMode s = 0x82 ∧ base = s.pair.base then setPairX s fun p => { p with acked := true } else s) s

/-- Objects that the device made outside its half; what it took over does not count (R475, R491). -/
def indexClash (s : State) (uid : Nat) : Bool :=
  let pos := if ownUnit s < uid then 0 else 1
  ((s.feed.rings.map (·.1)) ++ s.foundry.sets.map (·.1)).any fun i => i / 512 != pos && !s.pair.taken.contains i

/-- JOIN: from a device that also seeks a partner; the indices are checked (R475). `clash`: the partner's indices, or a mirrored
NSID of either on the other, collide. -/
def execJoin (t uid last state : Nat) (_digest : List Byte) (clash : Bool) (s : State) : Host.Outcome State Fault Refusal :=
  .next <|
    let s := atTime t s
    if pairMode s ≠ 0x81 ∨ state ≠ 0x81 ∨ ¬ (s.pair.expected = 0 ∨ s.pair.expected = uid) then s
    else if clash ∨ indexClash s uid then atNextEdge 0x80 s
    else setPairX s fun p => { p with join := some { uid := uid, last := last } }

/-- SHA-256 of the owned NSIDs and the ring and set indices (R470). -/
def joinDigest (s : State) : List Byte :=
  sha256 (((s.nvme.nss.filter fun e => e.2.owned).flatMap fun e => leBytes 4 e.1) ++ (s.feed.rings.flatMap fun e => leBytes 2 e.1) ++
    s.foundry.sets.flatMap fun e => leBytes 2 e.1)

/-- JOIN_SEND: every 1 ms in JOINING, on each hawser link (R475). -/
def execJoinSend (t : Nat) (s : State) : Host.Outcome State Fault Refusal :=
  .next <|
    let s := atTime t s
    if pairMode s ≠ 0x81 then s
    else (hawserLinks s).foldl (fun s l =>
      emit (.hawser "JOIN" ([l, pairEpoch s, ownUnit s, s.pair.lastEpoch, 0x81] ++ (joinDigest s).map (·.toNat))) s) s

/-- TAKEOVER_NOTICE: names the record after which takeover follows (R484). -/
def execTakeoverNotice (t final : Nat) (s : State) : Host.Outcome State Fault Refusal :=
  .next <|
    let s := atTime t s
    if pairMode s = 0x83 then setPairX s fun p => { p with finalSeq := some final } else s

/-- LEAVE_NOTICE: SOLO without a takeover, at the next edge (R75, R493). -/
def execLeaveNotice (t : Nat) (s : State) : Host.Outcome State Fault Refusal :=
  .next <|
    let s := atTime t s
    if 0x82 ≤ pairMode s ∧ pairMode s ≤ 0x84 then atNextEdge 0x85 s else s

/-! ### Commands (R493, R494) -/

def pairFenced : SvcCmd → State → Bool := fun _ s => blkFenced s pPAIR

/-- PAIR_JOIN: JOINING at the next edge (R75, R494). -/
def execPairJoin (k : CmdRef) (s : State) : Host.Outcome State Fault Refusal :=
  .next <| runSvc k 0x60 noInv pairFenced
    (fun c s =>
      if pairMode s ≠ 0x80 ∧ pairMode s ≠ 0x85 then .done st.STATE_CONFLICT 0 s
      else .wait (setPairX (atNextEdge 0x81 s) fun p => { p with expected := c.q 4 })) s

/-- PAIR_LEAVE: at step 7 of the next edge (R493, R494). -/
def execPairLeave (k : CmdRef) (s : State) : Host.Outcome State Fault Refusal :=
  .next <| runSvc k 0x61 noInv pairFenced
    (fun _ s => if 0x81 ≤ pairMode s ∧ pairMode s ≤ 0x85 then .wait s else .done st.STATE_CONFLICT 0 s) s

/-! ### The witness (R483, R584) -/

/-- WITNESS: a message from the partner's MSS; one of another UNIT_ID is discarded. -/
def execWitness (t uid _epoch main seen lease : Nat) (s : State) : Host.Outcome State Fault Refusal :=
  .next <|
    let s := atTime t s
    let s := raiseLine 36 1 s
    if fld s pMSS R.MSS.WITNESS_CFG 31 1 = 0 ∨ uid ≠ partnerId s then s
    else
      let s := raiseLine 36 3 s
      let n := s.tick.count
      setPairX s fun p => { p with
        witness := some { at_ := t, main := main, seen := seen, lease := lease }, leaseIn := max p.leaseIn lease
        lastHeard := some n, heard := true }

/-- MAIN of a witness message: 1 only once PWR_OK is deasserted or the main domain is held in reset. -/
def mainState (s : State) : Nat := if ¬ s.power.pwrOk ∨ ¬ mainOn s then 1 else if quiescing s then 2 else 0

/-- WITNESS_SEND: every 1 ms, and when a field has changed. -/
def execWitnessSend (t : Nat) (s : State) : Host.Outcome State Fault Refusal :=
  .next <|
    let s := atTime t s
    if fld s pMSS R.MSS.WITNESS_CFG 31 1 = 0 then s
    else
      let last := match s.pair.witness with | some w => w.at_ | none => 0
      let s := if last + 100000000 ≤ t then penBit pMSS 6 s else s
      let lease := if mainState s = 1 then 0 else grantNow s
      let b := beBytes 4 0xE34D ++ leBytes 1 1 ++ leBytes 1 1 ++ leBytes 2 (pairEpoch s) ++ leBytes 8 (ownUnit s) ++
        leBytes 1 (mainState s) ++ leBytes 1 (if hawserSeen s then 1 else 0) ++ leBytes 2 0 ++ leBytes 8 lease
      noteLease lease (emit (.sideband "MCTP" "WITNESS" b) s)

/-! ### Losing and taking over (R482, R484 to R490) -/

/-- LEASE_EXPIRY: at the edge equal to the lease held, the rings and stream sets are given up (R482). -/
def execLeaseExpiry (t : Nat) (s : State) : Host.Outcome State Fault Refusal :=
  .next <|
    let s := atTime t s
    if ¬ atEdge t s ∨ ¬ (pairMode s = 0x83 ∨ pairMode s = 0x84) ∨ s.pair.leaseIn = 0 ∨ s.tick.count < s.pair.leaseIn then s
    else
      let s := finishCmds (fun c => (0x11 ≤ c.op && c.op ≤ 0x16) || (0x41 ≤ c.op && c.op ≤ 0x44)) st.ABORTED 0 s
      let s := s.foundry.ctxs.foldl (fun s e => putMedia e.1 Media.empty (discardSample e.1 s)) s
      let s := (s.foundry.packs.filter fun p => !p.peer).foldl (fun s p => tagEnd 1 p.id 1 s) s
      let s := setFoundry s fun f => { f with sets := [], ctxs := [], packs := f.packs.filter (·.peer) }
      let s := showBound (setFeed s fun f => { f with rings := [] })
      penBit pPAIR 4 (enterSolo (setPairX s fun p => { p with adopted := [], remake := [], startAt := [], taken := [] }))

/-- One of the conditions of a takeover holds (R484). -/
def partnerLost (s : State) : Bool :=
  (match freshWitness s with | some w => w.main == 1 | none => false) ||
    (match s.pair.finalSeq with | some n => decide (n ≤ s.pair.lastApplied) | none => false) ||
    (decide (reg64 s pPAIR R.PAIR.LEASE_OUT_LO + 2 < s.tick.count) && !s.pair.heard)

/-- The packs between `idx` and `p` of a ring, from the headers read; none where a READ failed or a header is not right (R485). -/
def walkRing (now_ tick p : Nat) : List (List Byte) → Nat → Option (List LedgerEntry)
  | [], idx => if idx = p then some [] else none
  | h :: l, idx =>
    if idx = p then some []
    else
      let len := leAt h 8 4
      if p < idx + len ∨ len = 0 ∨ leAt h 60 4 ≠ crc32c (h.take 60) then none
      else if leAt h 0 4 = 0x504B5345 then walkRing now_ tick p l (idx + len)
      else if leAt h 0 4 ≠ 0x4B505345 then none
      else (walkRing now_ tick p l (idx + len)).map fun es =>
        { rank := leAt h 0xC 4, id := leAt h 0x10 8, tile := leAt h 0x22 1, epoch := leAt h 0x20 2, made := leAt h 0x18 8
          skip := idx, start := idx, fin := idx + len, tick := tick, at_ := now_, committed := false, rejected := false
          rewrite := false, peer := true } :: es

def adoptFail (i : Nat) (s : State) : State := errInfo pPAIR 1 i (pairCount 8 1 s)

/-- Adopts one of the partner's rings at its index (R485). -/
def adoptRing (reads : List AdoptRead) (i : Nat) (d : List Byte) (s : State) : State :=
  let x := ringOfDesc d
  let unit := leAt d 64 8
  let ci := mgetD s.pair.replica.ledger i 0
  let port := (List.range 32).find? fun p => portUp s p && portUnit s p == unit
  let rd := reads.find? fun r => r.ring == i
  let found := match rd with
    | some r => r.p.bind fun p => if p < ci then none else (walkRing s.now s.tick.count p r.heads ci).map fun es => (p, es)
    | none => none
  match port, found with
  | some port, some (p, es) =>
    let x := { x with
      state := 2, port := port, pi := p, ci := ci, acked := p, link := (portLinks s port).head?, ledger := es }
    let s := setPairX (putRingF i x s) fun q => { q with adopted := mput q.adopted i (ci, p), taken := q.taken ++ [i] }
    ringState i port 2 (pairCount 4 1 s)
  | _, _ =>
    adoptFail i (setPairX (putRingF i { x with state := 5, port := port.getD x.port, ci := ci, pi := ci } s) fun q => { q with taken := q.taken ++ [i] })

/-- A context of an adopted set: placed by R122, with a shard (R488). -/
def adoptCtx (sset : Nat) (s : State) : State :=
  let k := s.foundry.nextCtx
  bindShard k (placeCtx k none (setFoundry s fun f => { f with ctxs := mput f.ctxs k (newCtx sset), nextCtx := k + 1 }))

/-- Adopts one of the partner's stream sets at its index (R488). -/
def adoptSet (i : Nat) (d : List Byte) (s : State) : State :=
  let x := setOfDesc d
  let shards := (mgetD s.pair.replica.shards i []).map shardOf
  let usable (e : Shard) : Bool :=
    if e.source = 1 then nsExists s e.handle else if e.source = 2 then qpOfPf0 s e.handle else true
  if (bitOf x.outputs 0 ∧ ¬ graphLoaded s x.vis) ∨ (bitOf x.outputs 2 ∧ ¬ graphLoaded s x.aud) ∨ ¬ profileLoaded s x.prof ∨
      ¬ shards.all usable then adoptFail i s
  else
    let started := s.pair.replica.pos.any fun e => e.1 == i
    let s := putSet i { x with state := if started then 2 else 1, shards := shards, next := 0 } s
    let s := setPairX s fun q => { q with
      startAt := q.startAt ++ (s.pair.replica.pos.filter fun e => e.1 == i), taken := q.taken ++ [i] }
    let s := if started then forN x.contexts s fun _ s => adoptCtx i s else s
    pairCount 5 1 (showBound s)

/-- A pack the partner received from a peer enters the reservoir, drawable (R488). -/
def adoptPack (b : List Byte) (s : State) : State :=
  if (findPack s (leAt b 0xC 4) (leAt b 0x10 8)).isSome then s
  else
    let p : Pack := {
      rank := leAt b 0xC 4, id := leAt b 0x10 8, len := b.length, tile := leAt b 0x22 1, epoch := leAt b 0x20 2, madeTick := leAt b 0x18 8
      resident := some 0, peer := true, chosen := false, ring := none, data := b }
    setFoundry s fun f => { f with packs := f.packs ++ [p] }

/-- TAKEOVER: the partner's rings, stream sets and mirrored namespaces become this device's (R484 to R489). `reads` is what the
READs of each ring find. -/
def execTakeover (t : Nat) (reads : List AdoptRead) (s : State) : Host.Outcome State Fault Refusal :=
  .next <|
    let s := atTime t s
    if ¬ atEdge t s ∨ pairMode s ≠ 0x83 ∨ ¬ partnerLost s then s
    else
      let r := s.pair.replica
      let s := enterSolo s
      let s := r.sets.foldl (fun s e => adoptSet e.1 e.2 s) s
      let s := r.rings.foldl (fun s e => adoptRing reads e.1 e.2 s) s
      let found := s.feed.rings.flatMap fun e => if (mget s.pair.adopted e.1).isSome then e.2.ledger.map (·.id) else []
      let left := r.packs.filter fun e => !found.contains e.1
      let again := (left.filter fun e => !e.2.2 && (getSet s (e.1 / 2 ^ 48)).isSome).map (·.1)
      let s := setPairX s fun q => { q with remake := q.remake ++ again }
      let s := pairCount 7 (left.filter fun e => e.2.2).length s
      let s := r.received.foldl (fun s b => adoptPack b s) s
      let s := s.nvme.nss.foldl (fun s e =>
        if e.2.kind = 1 ∧ ¬ e.2.owned then
          mirrorState e.1 1 (putNs e.1 { e.2 with owned := true, state := 1, former := 1, ctrl := none, mirror := 0 } s)
        else s) s
      setPairX (logEvent 0x000A (some pPAIR) [partnerId s] (penBit pPAIR 3 (pairCount 3 1 s))) fun q => { q with replica := .empty }

/-- SPLIT_ENTRY: the hawser is silent and the witness reports the partner on (R490). -/
def execSplitEntry (t : Nat) (s : State) : Host.Outcome State Fault Refusal :=
  .next <|
    let s := atTime t s
    let alive : Bool := match freshWitness s with | some w => w.main == 0 | none => false
    if atEdge t s ∧ pairMode s = 0x83 ∧ ¬ hawserSeen s ∧ alive then
      penBit pPAIR 2 (leaveSync 0x84 s)
    else s

/-! ### Tick edges -/

/-- Step 1 of an edge: TICK on each hawser link (R472, R481). -/
def edgeHawser (s : State) : State :=
  let lease := grantNow s
  let e := s.pair.echo.getD (0, s.now)
  let (ofs, s) := freeVal s
  let s := (hawserLinks s).foldl (fun s l =>
    emit (.hawser "TICK" [l, pairEpoch s, s.tick.count, lease, e.1, ofs % 2 ^ 32, s.now - e.2]) s) s
  noteLease lease s

/-- The join has succeeded: a new epoch, the base tick, and the image (R475, R491). -/
def edgePairUp (s : State) : State :=
  match s.pair.join with
  | none => s
  | some j =>
    if pairMode s ≠ 0x81 then s
    else
      let e := (if epochNewer s.pair.lastEpoch j.last then s.pair.lastEpoch else j.last) + 1
      let e := e % 65536
      let s := setFld (setFld s pPAIR R.PAIR.STAT 16 16 e) pPAIR R.PAIR.STAT 8 1 (if ownUnit s < j.uid then 0 else 1)
      let s := setRegN (setRegN s pPAIR R.PAIR.PARTNER_ID_LO j.uid) pPAIR R.PAIR.PARTNER_ID_HI (j.uid / 2 ^ 32)
      let s := setReg64 s pPAIR R.PAIR.LEASE_OUT_LO 0
      let s := setPairX s fun p => { p with
        lastEpoch := e, join := none, base := s.tick.count, acked := false, applied := false, leaseIn := 0, lastFrame := some s.tick.count
        lastHeard := some s.tick.count, heard := true, parts := [], finalSeq := none, ackPend := none, rejoin := false }
      let s := setPairState 0x82 s
      let s := s.nvme.nss.foldl (fun s e => if e.2.kind = 1 ∧ e.2.owned ∧ e.2.mirror = 1 then mirrorState e.1 2 s else s) s
      sendImage (finishCmds (fun c => c.op == 0x60) st.OK e s)

/-- Both images are applied (R491). -/
def edgeSynced (s : State) : State :=
  if pairMode s = 0x82 ∧ s.pair.acked ∧ s.pair.applied then
    let s := penBit pPAIR 0 (setPairState 0x83 s)
    s.nvme.nss.foldl (fun s e => if e.2.kind = 1 ∧ e.2.owned then mirrorState e.1 0 s else s) s
  else s

/-- PAIR_LEAVE takes effect: LEAVE is sent (R493). -/
def leavePair (s : State) : State :=
  let s := if 0x82 ≤ pairMode s ∧ pairMode s ≤ 0x84 then sendHawser "NOTICE" [2, s.tick.count] s else s
  finishCmds (fun c => c.op == 0x60) st.ABORTED 0 (enterUnpaired s)

/-- A mirror record is closed at this edge: in a quiesce that began in tick q, that of q is the last, at edge q + 1 (R52). -/
def recordDue (s : State) : Bool :=
  match s.power.quiesce with
  | some q => decide (s.tick.count ≤ q + 1)
  | none => true

/-- The change of pair state asked for since the last edge: a join that failed (R475), a partner sought (R475, R480, R490), a
partner that left (R493). -/
def edgeNext (s : State) : State :=
  match s.pair.next with
  | none => s
  | some v =>
    if v = 0x80 then finishCmds (fun c => c.op == 0x60) 0xD1 0 (enterUnpaired s)
    else if v = 0x85 then enterSolo s
    else if pairMode s = 0x80 ∨ pairMode s = 0x85 then setPairX (leaveSync 0x81 s) fun p => { p with rejoin := false }
    else seekAgain s

/-- What the pair does at step 7 of an edge. -/
def edgePair (s : State) : State :=
  if ¬ pairOn s then s
  else
    let s := match s.pair.ackPend with
      | some n => setPairX (setReg64 s pPAIR R.PAIR.LAST_ACK_LO n) fun p => { p with ackPend := none }
      | none => s
    let s := edgeNext s
    let s := if s.cmds.any fun c => c.begun && c.op == 0x61 then finishCmds (fun c => c.op == 0x61) st.OK 0 (leavePair s) else s
    let before := pairMode s
    let s := edgeSynced (edgePairUp s)
    let s := if (before = 0x82 ∨ before = 0x83) ∧ s.pair.base < s.tick.count ∧ recordDue s then
        let s := closeRecord (s.tick.count - 1) s
        ((mirrorCmds s).filter fun e => e.2.record.isNone).foldl (fun s e => joinRecord e.1 e.2 s) s
      else s
    let s := if 0x82 ≤ pairMode s ∧ pairMode s ≤ 0x83 ∧ ¬ hawserSeen s then penBit pPAIR 1 s else s
    if (pairMode s = 0x82 ∨ (pairMode s = 0x81 ∧ s.pair.rejoin)) ∧ partnerLost s then enterSolo s else s

/-- A soft reset of PAIR acts as PAIR_LEAVE. -/
def pairSoftReset (s : State) : State :=
  finishCmds (fun c => c.op == 0x61) st.OK 0 (if 0x81 ≤ pairMode s ∧ pairMode s ≤ 0x85 then leavePair s else s)

end Sys2Proof.Machine
end

