-- ==== Sys2Proof/Machine/Blocks.lean ====
section
/-! DEFINITION. Writes of BLK_CTL and the block states they lead to: enable, disable, fence, unfence, soft reset, and the end
of REJOINING at a tick edge (R87 to R90, R146, R226, R439, R474, R534, R603, R606). -/

namespace Sys2Proof.Machine

/-- BLK_CAP0.SRESET_OK and FENCE_OK (R90, R602). -/
def sresetOk (s : State) (p : Page) : Bool := fld s p 8 31 1 == 1
def fenceOk (s : State) (p : Page) : Bool := fld s p 8 30 1 == 1

/-- Pages whose ENABLE reads 1 from reset and ignores a write of 0 (R87). -/
def alwaysEnabled (ty : PageType) : Bool :=
  ty == .glb || ty == .tick || ty == .mss || ty == .pwr || ty == .host || ty == .intg || ty == .memc

/-! ### Enabling -/

/-- A field clamped to a range when its block is enabled. -/
def clampFld (p : Page) (off lo n a b : Nat) (s : State) : State := setFld s p off lo n (max a (min b (fld s p off lo n)))

/-- The four regions beside WORK, in MiB, and all five (R226). -/
def partOthers (s : State) (t : Nat) : Nat :=
  let p := pSRAMT t
  fld s p R.SRAMT.PART0 0 8 + fld s p R.SRAMT.PART0 8 8 + fld s p R.SRAMT.PART0 16 8 + fld s p R.SRAMT.PART1 0 8

def partAll (s : State) (t : Nat) : Nat := partOthers s t + fld s (pSRAMT t) R.SRAMT.PART0 24 8

/-- What a block does as it is enabled: FTL recovers (R432), CKPT has no group (R439), PAIR is SOLO (R474), a function gets
pair 0 (R112, R603), and fields are clamped. -/
def enterRunning (p : Page) (s : State) : State :=
  let s := setBlkState s p (match p.ty with | .ftl => 0x80 | .ckpt => 0x80 | .pair => 0x80 | _ => 1)
  match p.ty with
  | .tile => refillAll p.inst s
  | .dec => clampFld p R.DEC.POOL_CFG 0 15 256 16384 s
  | .rmt => clampFld p R.RMT.STAGE 0 15 256 16384 s
  | .ckpt => clampFld p R.CKPT.CFG 0 16 16 512 s
  | .fch => clampFld p R.FCH.CFG 0 16 800 3600 s
  | .link => startLink p.inst s
  | .sramt =>
    let s := if 192 < partAll s p.inst then penBit p 3 s else s
    refillAll p.inst (clearSlice p.inst s)
  | .func =>
    let s := setPair s p.inst 0
      (newPair (reg64 s p R.FUNC.SQ0_BASE_LO) (reg64 s p R.FUNC.CQ0_BASE_LO) (reg s p R.FUNC.Q0_CFG))
    modFn p.inst (fun x => { x with hbAt := s.now }) s
  | _ => s

/-- A write of ENABLE = 1: a DISABLED block runs at once. A partition that leaves WORK less than 16 MiB is refused (R226). -/
def enableBlock (p : Page) (s : State) : State :=
  if p.ty = .sramt ∧ fld s p R.BLK_CTL 0 1 = 0 ∧ 176 < partOthers s p.inst then errInfo p 3 (partAll s p.inst) (penBit p 3 s)
  else
    let was := blkState s p
    let s := setFld s p R.BLK_CTL 0 1 1
    if was = 0 then enterRunning p s else s

/-! ### Disabling -/

/-- The instance has work or a command in hand (R88). -/
def workInHand (s : State) (p : Page) : Bool :=
  let begun (l : List Nat) : Bool := s.cmds.any fun c => c.begun && l.contains c.op
  let eng (e : Nat) : Bool := (getEng s p.inst e).queue != []
  let refill := (mget s.media.refills p.inst).isSome
  match p.ty with
  | .tile => eng 1 || eng 2 || eng 3 || ringOf s p.inst != [] || refill ||
      s.cmds.any fun c => c.begun && ((c.op == 0x18 && c.obj == p.inst) || (c.op == 0x17 && c.d 4 % 32 == p.inst))
  | .dec => eng 1
  | .shp => eng 2
  | .ten => eng 3
  | .sramt => eng 2 || eng 3 || refill
  | .feed => begun [0x40, 0x41, 0x42, 0x43, 0x44, 0x45]
  | .rmt => begun [0x90, 0x91, 0x92, 0x93, 0x94] || s.rmt.qps.any fun e => e.2.sq != []
  | .ckpt => begun [0x50, 0x51, 0x52, 0x53, 0x54, 0x55, 0x56, 0x57, 0x58] || s.ckpt.sessions.any fun e => sessBusy e.2
  | .pair => begun [0x60, 0x61]
  | .eth => s.rmt.frames.any fun f => f.sub / 4 == p.inst
  | .egs => s.rmt.frames != []
  | .nvme => s.nvme.ctrls.any fun e => e.2.cmds != []
  | .ciph => begun [0x70, 0x71, 0x72, 0x73, 0x74]
  | .fch => s.flash.begun != []
  | .func => anyPair s p.inst
  | _ => false

/-- The slice is off: it holds no data, and no graph is ready on its tile (R219; chapter 06, The SRAMT page). -/
def sliceOff (t : Nat) (s : State) : State :=
  (loadedGraphs s).foldl (fun s e => setReady t e.1 false s) (clearSlice t s)

/-- STOPPING ends: a slice is off, CKPT has no group and PAIR no partner any more. -/
def toDisabled (p : Page) (s : State) : State :=
  match p.ty with
  | .sramt => sliceOff p.inst (setBlkState s p 0)
  | .ckpt => setBlkState (dropGroup s) p 0
  | .pair => setBlkState (enterUnpaired s) p 0
  | _ => setBlkState s p 0

/-- The block is enabled and runs: RUNNING, or the states of CKPT and PAIR that stand in its place (R88, R439, R474). -/
def enabledState (p : Page) (st : Nat) : Bool := st == 1 || ((p.ty == .ckpt || p.ty == .pair) && decide (0x80 ≤ st))

/-- A write of ENABLE = 0: a block that runs stops; a function's pairs are deleted (R603), a link goes down (R606). -/
def disableBlock (p : Page) (s : State) : State :=
  if alwaysEnabled p.ty then s
  else
    let s := setFld s p R.BLK_CTL 0 1 0
    if ¬ enabledState p (blkState s p) then s
    else
      let s := if p.ty = .pair then setPairX s fun x => { x with stopMode := pairMode s } else s
      let s := setBlkState s p 2
      let s := match p.ty with
        | .func => (s.pairs.filter fun e => e.1 / 64 == p.inst).foldl (fun s e => deletePair p.inst (e.1 % 64) s) s
        | .link => quietLink p.inst s
        | _ => s
      if workInHand s p then s else toDisabled p s

/-! ### Fences -/

/-- A write of FENCE = 1. -/
def writeFence (p : Page) (s : State) : State := if fenceOk s p ∧ blkState s p ≠ 4 then fenceBlock p s else s

/-- A write of FENCE = 0 to a FENCED block: it rejoins at the next edge. A tile that needs a test refuses (R534); one under
an on-demand run stays FENCED. -/
def writeUnfence (p : Page) (s : State) : State :=
  if ¬ fenceOk s p ∨ blkState s p ≠ 3 then s
  else if p.ty = .tile ∧ needsTest s p.inst then intgPen 8 s
  else if p.ty = .tile ∧ (s.intg.runs.any fun r => r.tile == p.inst) then s
  else setBlkState (setFld s p R.BLK_CTL 1 1 0) p 5

/-- The instance takes a new epoch and runs, or stays disabled (R88). -/
def rejoinPage (p : Page) (s : State) : State :=
  let s := bumpEpoch p s
  let s := setBlkState s p (fld s p R.BLK_CTL 0 1)
  match p.ty with
  | .tile => newEpoch p.inst s
  | .link => startLink p.inst s
  | .sramt => if blkRunning s p then refillAll p.inst s else sliceOff p.inst s
  | _ => s

/-- Pages in REJOINING, in the order of the map. -/
def rejoining (s : State) : List Page :=
  (s.regs.filter fun e => e.1 % 0x1000 == R.BLK_STAT && e.2.toNat % 256 == 5).filterMap fun e => pageOf e.1

/-- Step 7 of a tick edge: REJOINING ends. -/
def edgeRejoin (s : State) : State := (rejoining s).foldl (fun s p => rejoinPage p s) s

/-! ### Soft reset -/

/-- A command names one of the instance's objects (R90). -/
def namesPage (p : Page) (c : SvcCmd) : Bool :=
  match p.ty with
  | .tile => (c.objType == 2 && c.obj == p.inst) || (c.objType == 4 && c.obj / 128 == p.inst)
  | .rmt => c.objType == 6
  | .feed => c.objType == 5
  | .ckpt => c.objType == 7 || (c.objType == 0 && decide (0x50 ≤ c.op) && decide (c.op ≤ 0x58))
  | .pair => c.objType == 8
  | .nvme => c.objType == 10
  | .ciph => c.objType == 11
  | _ => false

/-- What a soft reset of the type does first: a tile stops as at a fence (R146), a link and an Ethernet port go down (R606),
CKPT fails its sessions and leaves its group, PAIR leaves. -/
def resetFirst (p : Page) (s : State) : State :=
  match p.ty with
  | .ckpt => ckptSoftReset s
  | .pair => pairSoftReset s
  | .fch => s
  | _ => stopBlock p s

/-- Indexed tables and other registers that do not stand in the page's own list. -/
def resetTables (p : Page) (s : State) : State :=
  let drop (tab : Nat) (s : State) : State := { s with
    tabAct := s.tabAct.filter fun e => e.1 / 2 ^ 20 != tab
    tabSh := s.tabSh.filter fun e => e.1 / 2 ^ 20 != tab }
  match p.ty with
  | .rmt => drop 1 s
  | .egs => drop 2 s
  | .perf => { s with tags := .reset }
  | _ => s

/-- A command that a soft reset aborts gives back the slots it holds; a context it was to move takes its former state (R145,
R146). -/
def abortHeld (s : State) (c : SvcCmd) : State :=
  let s := complete c st.ABORTED 0 (dropHeld c.seq s)
  if c.op = 0x17 ∧ c.begun then
    match ctxAt s c.obj with
    | some (k, x) => putCtx k { x with state := settled x, target := none } s
    | none => s
  else s

/-- A write of SRESET = 1: the commands in hand that name the instance's objects complete with ABORTED before what the reset
stops ends any of them otherwise (R88, R90). -/
def softReset (p : Page) (s : State) : State :=
  if ¬ sresetOk s p then s
  else
    let s := (s.cmds.filter (namesPage p)).foldl abortHeld s
    let s := resetFirst p s
    setBlkState (resetTables p (resetPage s p [R.BLK_STAT])) p 4

/-- A soft reset completes: the next epoch, and DISABLED, or FENCED where a hardware fence arrived (R88, R146). -/
def endSoftReset (p : Page) (s : State) : State :=
  let s := bumpEpoch p s
  let s := setBlkState s p (if fld s p R.BLK_CTL 1 1 = 1 then 3 else 0)
  match p.ty with
  | .tile => newEpoch p.inst s
  | .sramt => sliceOff p.inst s
  | _ => s

/-! ### The events -/

/-- BLK_ENABLE. -/
def execBlkEnable (t : Nat) (a : Agent) (p : Page) (s : State) : Host.Outcome State Fault Refusal :=
  .next (if sees s a p then enableBlock p (atTime t s) else atTime t s)

/-- BLK_DISABLE. -/
def execBlkDisable (t : Nat) (a : Agent) (p : Page) (s : State) : Host.Outcome State Fault Refusal :=
  .next (if sees s a p then disableBlock p (atTime t s) else atTime t s)

/-- BLK_STOPPED: the last work item or command in hand of a STOPPING block has completed. -/
def execBlkStopped (t : Nat) (p : Page) (s : State) : Host.Outcome State Fault Refusal :=
  .next <|
    let s := atTime t s
    if pagePresent s p ∧ blkState s p = 2 ∧ ¬ workInHand s p then toDisabled p s else s

/-- BLK_FENCE. -/
def execBlkFence (t : Nat) (a : Agent) (p : Page) (s : State) : Host.Outcome State Fault Refusal :=
  .next (if sees s a p then writeFence p (atTime t s) else atTime t s)

/-- BLK_UNFENCE. -/
def execBlkUnfence (t : Nat) (a : Agent) (p : Page) (s : State) : Host.Outcome State Fault Refusal :=
  .next (if sees s a p then writeUnfence p (atTime t s) else atTime t s)

/-- BLK_SOFT_RESET. -/
def execBlkSoftReset (t : Nat) (a : Agent) (p : Page) (s : State) : Host.Outcome State Fault Refusal :=
  .next (if sees s a p then softReset p (atTime t s) else atTime t s)

/-- SOFT_RESET_DONE: within 100 µs; the reset of a tile waits for an on-demand run of it (R535). -/
def execSoftResetDone (t : Nat) (p : Page) (s : State) : Host.Outcome State Fault Refusal :=
  .next <|
    let s := atTime t s
    if ¬ pagePresent s p ∨ p.ty = .func ∨ blkState s p ≠ 4 ∨ (p.ty = .tile ∧ (s.intg.runs.any fun r => r.tile == p.inst)) then s
    else endSoftReset p s

/-- One write of BLK_CTL with all its fields: ROUTE and HAL_ARM, then SRESET alone, or ENABLE and FENCE as far as they change
(R90). -/
def blkCtlWrite (a : Agent) (p : Page) (v : Nat) (s : State) : State :=
  if ¬ sees s a p then s
  else if bitOf v 2 ∧ sresetOk s p then softReset p s
  else
    let s := plainWrite a (pageAt p R.BLK_CTL) v s
    let s := if bitOf v 0 then enableBlock p s else disableBlock p s
    if bitOf v 1 then writeFence p s else writeUnfence p s

end Sys2Proof.Machine
end

