-- ==== Sys2Proof/Machine/Counters.lean ====
section
/-! DEFINITION. The counter banks and the precise record (chapter 18, R585 to R595, R599). -/

namespace Sys2Proof.Machine

/-- Event selects a block's table defines (R591). -/
def eventDefined (ty : PageType) (e : Nat) : Bool :=
  (decide (1 ≤ e) && decide (e ≤ 4)) || (match ty with
    | .dec => decide (0x100 ≤ e) && decide (e ≤ 0x103)
    | .shp => e == 0x100 || e == 0x103
    | .ten => decide (0x100 ≤ e) && decide (e ≤ 0x104)
    | .sramt => decide (0x100 ≤ e) && decide (e ≤ 0x102)
    | .link => decide (0x100 ≤ e) && decide (e ≤ 0x103)
    | .feed => e == 0x100 || e == 0x101
    | .rmt => e == 0x100 || e == 0x101
    | .egs => e == 0x100
    | .nvme => e == 0x100 || e == 0x101
    | .fch => decide (0x100 ≤ e) && decide (e ≤ 0x102)
    | .memc => decide (0x100 ≤ e) && decide (e ≤ 0x102)
    | _ => false)

/-- A write of PC_CTL[i]: CLR clears the value; an event the block's table does not define sets BAD_EVENT (R589, R590). -/
def pcCtlWrite (a : Agent) (p : Page) (i v : Nat) (s : State) : State :=
  if ¬ sees s a p ∨ 8 ≤ i then s
  else
    let s := writeFields s a p (R.PC_CTL + 4 * i) v
    let s := if bitOf v 29 then setPcVal s p i 0 else s
    if eventDefined p.ty (bitsOf v 0 16) then s else penBit pPERF 1 s

/-- PC_CTL_WRITE. -/
def execPcCtlWrite (a : Agent) (p : Page) (i : Nat) (v : Dword) (s : State) : Host.Outcome State Fault Refusal :=
  .next (pcCtlWrite a p i v.toNat s)

/-- PC_CLEAR: a write of PC_CTL[i] with CLR = 1 and the other fields as they stand. -/
def execPcClear (a : Agent) (p : Page) (i : Nat) (s : State) : Host.Outcome State Fault Refusal :=
  .next (pcCtlWrite a p i (withBits (reg s p (R.PC_CTL + 4 * i)) 29 1 1) s)

/-- A reader's latch on a register of a page. -/
def setLatch (a : Agent) (p : Page) (off v : Nat) (s : State) : State :=
  { s with latches := mput s.latches (latchKey a (pageAt p off)) (BitVec.ofNat 32 v) }

/-- The effects of a read of PC_VAL_LO[i] (R588): the high half latches, with both halves of a counter that chains it, and the
stamp is taken. A read of a latched low half uses its latch up. -/
def pcRead (a : Agent) (p : Page) (i : Nat) (s : State) : State :=
  let lo := latchKey a (pageAt p (R.PC_VAL_LO + 8 * i))
  let hi (j : Nat) : Nat := fld s p (R.PC_VAL_HI + 8 * j) 0 16
  let s := match mget s.latches lo with
    | some _ => { s with latches := mdel s.latches lo }
    | none =>
      let s := setLatch a p (R.PC_VAL_HI + 8 * i) (hi i) s
      if pcChained s p i then
        setLatch a p (R.PC_VAL_HI + 8 * (i + 1)) (hi (i + 1)) (setLatch a p (R.PC_VAL_LO + 8 * (i + 1)) (reg s p (R.PC_VAL_LO + 8 * (i + 1))) s)
      else s
  setRegN (setRegN s p R.PC_STAMP_LO (s.tick.count % 2 ^ 32)) p R.PC_STAMP_OFS ((s.now - s.tick.edgeAt) % 2 ^ 32)

/-- PC_VAL_LO_READ. -/
def execPcValLoRead (a : Agent) (p : Page) (i : Nat) (s : State) : Host.Outcome State Fault Refusal :=
  .next (if sees s a p ∧ i < 8 then pcRead a p i s else s)

/-- COUNTER_WRAP: `n` events that no other event of the model carries (cycles, bursts, lines) reach counter `i` of a page,
which counts them while it is enabled and the gate is open, and may wrap (R586, R587, R592). -/
def execCounterWrap (p : Page) (i n : Nat) (s : State) : Host.Outcome State Fault Refusal :=
  .next <|
    let c := reg s p (R.PC_CTL + 4 * i)
    if pagePresent s p ∧ i < 8 ∧ bitOf c 31 ∧ fld s pPERF R.PERF.GATE 0 1 = 1 ∧ eventDefined p.ty (bitsOf c 0 16) ∧
        ¬ (i % 2 = 1 ∧ bitOf c 30) then pcAdd p i n s else s

/-- PERF_READ: the eight counters of a page, sampled within 400 ns and within one tick, with the tick and the offsets of the
first and last sample (R593 to R595). Within 400 ns of the next edge it does not begin. -/
def execPerfRead (k : CmdRef) (s : State) : Host.Outcome State Fault Refusal :=
  .next <|
    if s.tick.edgeAt + s.tick.len < s.now + 400 then s
    else runSvc k 0xA0
      (fun c _ => match pageOf (bitsOf (c.d 4) 12 14 * 0x1000) with
        | some p => if pagePresent s p then none else some 16
        | none => some 16) noFence
      (fun c s =>
        match pageOf (bitsOf (c.d 4) 12 14 * 0x1000) with
        | none => .done st.INVALID_FIELD 16 s
        | some p =>
          let (v, s) := freeVal s
          let first := s.now - s.tick.edgeAt
          let b := leBytes 8 s.tick.count ++ leBytes 4 first ++ leBytes 4 (first + v % 401) ++ leBytes 1 (reg s p R.PC_OVF) ++
            List.replicate 7 0 ++ ((List.range 8).flatMap fun i => leBytes 8 (pcVal s p i)) ++ List.replicate 8 0
          .done st.OK 0 (dmaWrite 0 (bitsOf (c.d 7) 0 1) (c.q 5) b s)) s

/-- PREC_CLEAR: a write of PREC_SEL with CLR = 1. -/
def execPrecClear (a : Agent) (v : Dword) (s : State) : Host.Outcome State Fault Refusal :=
  .next (plainWrite a (pageAt pPERF R.PERF.PREC_SEL) (withBits v.toNat 31 1 1) s)

end Sys2Proof.Machine
end

