-- ==== Sys2Proof/Machine/Operands.lean ====
section
/-! DEFINITION. Ilesh encodings and operands: prefixes, opcodes and formats (R233 to R237), the common course of an
instruction (R234, R253, R258, R262), and the precise record (R599). -/

namespace Sys2Proof.Machine

/-! ### Encodings -/

/-- Operand formats (R235). `rs` and `rd` are R with only one register used. -/
inductive Fmt where
  | n | r | rs | rd | rr | ri8 | ri8s | ri8d | ri32 | ri64 | m8 | m32 | sp | i8 | i16 | b8 | b32 | c8 | c32
  deriving DecidableEq, Repr

/-- Operand bytes of a format. -/
def Fmt.len : Fmt → Nat
  | .n => 0 | .r => 1 | .rs => 1 | .rd => 1 | .rr => 2 | .ri8 => 2 | .ri8s => 2 | .ri8d => 2 | .ri32 => 5 | .ri64 => 9
  | .m8 => 2 | .m32 => 5 | .sp => 2 | .i8 => 1 | .i16 => 2 | .b8 => 1 | .b32 => 4 | .c8 => 2 | .c32 => 5

/-- The reserved fields of a format are 0. -/
def Fmt.ok (f : Fmt) (b : List Byte) : Bool :=
  let b0 := leAt b 0 1
  let b1 := leAt b 1 1
  match f with
  | .rs => b0 / 16 == 0
  | .rd => b0 % 16 == 0
  | .rr => b1 % 16 == 0
  | .ri8s => b0 / 16 == 0
  | .ri8d => b0 % 16 == 0
  | .ri32 => b0 % 16 == 0
  | .ri64 => b0 % 16 == 0
  | .sp => b0 % 16 == 0
  | .c8 => b0 / 16 == 0
  | .c32 => b0 / 16 == 0
  | _ => true

/-- The operand fields of a format, in the order of their bytes: registers, then condition, number, immediate or
displacement, the last two signed where the format says so. -/
def Fmt.fields (f : Fmt) (b : List Byte) : List Int :=
  let hi : Int := leAt b 0 1 / 16
  let lo : Int := leAt b 0 1 % 16
  let u (i n : Nat) : Int := leAt b i n
  let sg (i n : Nat) : Int := signed (8 * n) (leAt b i n)
  match f with
  | .n => []
  | .r => [hi, lo]
  | .rs => [lo]
  | .rd => [hi]
  | .rr => [hi, lo, leAt b 1 1 / 16]
  | .ri8 => [hi, lo, u 1 1]
  | .ri8s => [lo, u 1 1]
  | .ri8d => [hi, u 1 1]
  | .ri32 => [hi, sg 1 4]
  | .ri64 => [hi, u 1 8]
  | .m8 => [hi, lo, sg 1 1]
  | .m32 => [hi, lo, sg 1 4]
  | .sp => [hi, u 1 1]
  | .i8 => [u 0 1]
  | .i16 => [u 0 2]
  | .b8 => [sg 0 1]
  | .b32 => [sg 0 4]
  | .c8 => [lo, sg 1 1]
  | .c32 => [lo, sg 1 4]

/-- Width prefixes, NF, ACQ and REL that a row allows; `width` is 0 for none, 1 for all three, 2 for W32 only. -/
structure Allow where
  width : Nat
  nf : Bool
  acq : Bool
  rel : Bool
  deriving DecidableEq, Repr

abbrev Allow.none : Allow := ⟨0, false, false, false⟩
abbrev Allow.alu : Allow := ⟨1, true, false, false⟩
abbrev Allow.wide : Allow := ⟨1, false, false, false⟩
abbrev Allow.load : Allow := ⟨1, false, true, false⟩
abbrev Allow.store : Allow := ⟨1, false, false, true⟩
abbrev Allow.atomic : Allow := ⟨2, false, true, true⟩

/-- A row of the instruction table (R237): page, opcode, format, allowed prefixes, and the command of its operand fields. -/
structure OpRow where
  page : Nat
  op : Nat
  fmt : Fmt
  allow : Allow
  make : Ilx → List Int → Instr

/-- A field of the operands. -/
def fieldAt (l : List Int) (i : Nat) : Int := l.getD i 0

/-- Commands whose operands are one, two or three register numbers or immediates, in the order of the fields. -/
def made1 (f : Ilx → Nat → Instr) (x : Ilx) (l : List Int) : Instr := f x (fieldAt l 0).toNat
def made2 (f : Ilx → Nat → Nat → Instr) (x : Ilx) (l : List Int) : Instr := f x (fieldAt l 0).toNat (fieldAt l 1).toNat
def made3 (f : Ilx → Nat → Nat → Nat → Instr) (x : Ilx) (l : List Int) : Instr :=
  f x (fieldAt l 0).toNat (fieldAt l 1).toNat (fieldAt l 2).toNat

/-- Commands of a register and imm32, of a register and imm8 (the other register field is not used), of a data register, a
base and a displacement. -/
def madeImm (f : Ilx → Nat → Dword → Instr) (x : Ilx) (l : List Int) : Instr :=
  f x (fieldAt l 0).toNat (BitVec.ofInt 32 (fieldAt l 1))
def madeBy (f : Ilx → Nat → Nat → Instr) (x : Ilx) (l : List Int) : Instr := f x (fieldAt l 0).toNat (fieldAt l 2).toNat
def madeMem (f : Ilx → Nat → Nat → Int → Instr) (x : Ilx) (l : List Int) : Instr :=
  f x (fieldAt l 0).toNat (fieldAt l 1).toNat (fieldAt l 2)

/-- Page 0 of the instruction table, but for ILLEGAL, which is no row: its opcode raises what an unlisted one does. -/
def opRows0 : List OpRow := [
  ⟨0, 0x01, .n, .none, fun x _ => .nop x⟩, ⟨0, 0x03, .n, .none, fun x _ => .fence x⟩, ⟨0, 0x04, .i8, .none, made1 .trap⟩,
  ⟨0, 0x08, .r, .wide, made2 .mov⟩, ⟨0, 0x09, .ri32, .none, madeImm .movi⟩,
  ⟨0, 0x0A, .ri64, .none, fun x l => .movi64 x (fieldAt l 0).toNat (BitVec.ofInt 64 (fieldAt l 1))⟩,
  ⟨0, 0x10, .r, .alu, made2 .add⟩, ⟨0, 0x11, .r, .alu, made2 .adc⟩, ⟨0, 0x12, .r, .alu, made2 .sub⟩,
  ⟨0, 0x13, .r, .alu, made2 .sbb⟩, ⟨0, 0x14, .r, .alu, made2 .and⟩, ⟨0, 0x15, .r, .alu, made2 .or⟩,
  ⟨0, 0x16, .r, .alu, made2 .xor⟩, ⟨0, 0x17, .r, .wide, made2 .cmp⟩, ⟨0, 0x18, .r, .wide, made2 .tst⟩,
  ⟨0, 0x19, .ri32, .alu, madeImm .addi⟩, ⟨0, 0x1A, .ri32, .alu, madeImm .cmpi⟩, ⟨0, 0x1B, .ri32, .alu, madeImm .andi⟩,
  ⟨0, 0x20, .r, .alu, made2 .shl⟩, ⟨0, 0x21, .r, .alu, made2 .shr⟩, ⟨0, 0x22, .r, .alu, made2 .sar⟩,
  ⟨0, 0x23, .r, .alu, made2 .rol⟩, ⟨0, 0x24, .ri8, .alu, madeBy .shli⟩, ⟨0, 0x25, .ri8, .alu, madeBy .shri⟩,
  ⟨0, 0x26, .ri8, .alu, madeBy .sari⟩, ⟨0, 0x27, .ri8, .alu, madeBy .roli⟩, ⟨0, 0x28, .r, .alu, made2 .mul⟩,
  ⟨0, 0x29, .r, .alu, made2 .mulhu⟩, ⟨0, 0x2A, .r, .alu, made2 .divu⟩, ⟨0, 0x2B, .r, .alu, made2 .remu⟩,
  ⟨0, 0x2C, .r, .alu, made2 .divs⟩, ⟨0, 0x2D, .r, .alu, made2 .rems⟩, ⟨0, 0x30, .m8, .load, madeMem .ld⟩,
  ⟨0, 0x31, .m32, .load, madeMem .ld⟩, ⟨0, 0x32, .m8, .store, madeMem .st⟩, ⟨0, 0x33, .m32, .store, madeMem .st⟩,
  ⟨0, 0x34, .m8, .load, madeMem .lds⟩, ⟨0, 0x38, .r, .atomic, made2 .xchg⟩, ⟨0, 0x39, .rr, .atomic, made3 .cas⟩,
  ⟨0, 0x3A, .r, .atomic, made2 .amoadd⟩, ⟨0, 0x40, .b8, .none, fun x l => .br x (fieldAt l 0)⟩,
  ⟨0, 0x41, .b32, .none, fun x l => .br x (fieldAt l 0)⟩,
  ⟨0, 0x42, .c8, .none, fun x l => .bc x (fieldAt l 0).toNat (fieldAt l 1)⟩,
  ⟨0, 0x43, .c32, .none, fun x l => .bc x (fieldAt l 0).toNat (fieldAt l 1)⟩, ⟨0, 0x44, .rs, .none, made1 .jmp⟩,
  ⟨0, 0x48, .b32, .none, fun x l => .call x (fieldAt l 0)⟩, ⟨0, 0x49, .rs, .none, made1 .callr⟩,
  ⟨0, 0x4A, .n, .none, fun x _ => .ret x⟩]

/-- Page 1: decimal, timecode and system. -/
def opRows1 : List OpRow := [
  ⟨1, 0x01, .rd, .none, made1 .daa⟩, ⟨1, 0x02, .rd, .none, made1 .das⟩, ⟨1, 0x04, .r, .wide, made2 .bcdadd⟩,
  ⟨1, 0x05, .r, .wide, made2 .bcdadc⟩, ⟨1, 0x06, .r, .wide, made2 .bcdsub⟩, ⟨1, 0x07, .r, .wide, made2 .bcdsbb⟩,
  ⟨1, 0x08, .r, .wide, made2 .bcdcmp⟩, ⟨1, 0x09, .rs, .wide, made1 .bcdchk⟩, ⟨1, 0x0C, .r, .wide, made2 .b2bcd⟩,
  ⟨1, 0x0D, .r, .wide, made2 .bcd2b⟩, ⟨1, 0x10, .ri8, .none, made3 .tcadd⟩, ⟨1, 0x11, .ri8, .none, made3 .tcsub⟩,
  ⟨1, 0x12, .ri8, .none, made3 .tc2f⟩, ⟨1, 0x13, .ri8, .none, made3 .f2tc⟩, ⟨1, 0x14, .ri8s, .none, made2 .tcchk⟩,
  ⟨1, 0x20, .sp, .none, made2 .mfs⟩, ⟨1, 0x21, .sp, .none, fun x l => .mts x (fieldAt l 1).toNat (fieldAt l 0).toNat⟩,
  ⟨1, 0x28, .i8, .none, made1 .gcall⟩, ⟨1, 0x29, .i16, .none, made1 .gret⟩, ⟨1, 0x2A, .i16, .none, made1 .sigu⟩,
  ⟨1, 0x2B, .i16, .none, made1 .sigck⟩, ⟨1, 0x30, .i8, .none, made1 .rsspill⟩, ⟨1, 0x31, .i8, .none, made1 .rsfill⟩,
  ⟨1, 0x32, .n, .none, fun x _ => .eret x⟩, ⟨1, 0x33, .n, .none, fun x _ => .wfi x⟩,
  ⟨1, 0x34, .n, .none, fun x _ => .rtsync x⟩, ⟨1, 0x35, .n, .none, fun x _ => .isync x⟩,
  ⟨1, 0x36, .n, .none, fun x _ => .wdkick x⟩]

/-- Page 2: the stream-core extensions. -/
def opRows2 : List OpRow := [
  ⟨2, 0x01, .r, .none, made2 .dpush⟩, ⟨2, 0x02, .r, .none, made2 .bread⟩, ⟨2, 0x03, .rd, .none, made1 .rpop⟩,
  ⟨2, 0x04, .ri8d, .none, made2 .wait⟩]

/-- The instruction table (R237). -/
def opRows : List OpRow := opRows0 ++ opRows1 ++ opRows2

/-- The prefixes at the head of an instruction, and what follows them. -/
def splitPrefixes : List Byte → List Nat × List Byte
  | [] => ([], [])
  | b :: l => if 0xF0 ≤ b.toNat then let (p, r) := splitPrefixes l; (b.toNat :: p, r) else ([], b :: l)

/-- The page an instruction's prefixes choose: the page prefix stands immediately before the opcode (R233, R234). -/
def opPage (pre : List Nat) : Nat :=
  if pre.getLast? = some 0xF0 then 1 else if pre.getLast? = some 0xF1 then 2 else 0

/-- The width prefix among the prefixes: 0 none, 1 W32, 2 W16, 3 W8. -/
def widthOf (pre : List Nat) : Nat :=
  if pre.contains 0xF2 then 1 else if pre.contains 0xF3 then 2 else if pre.contains 0xF4 then 3 else 0

/-- The prefixes do not suit a row on this core (R227, R233, R234). -/
def prefixBad (core : Nat) (pre : List Nat) (r : OpRow) : Bool :=
  let pages := pre.filter fun p => p == 0xF0 || p == 0xF1
  let widths := pre.filter fun p => p == 0xF2 || p == 0xF3 || p == 0xF4
  pre.any (fun p => decide (0xF8 ≤ p)) || pre.eraseDups.length != pre.length || decide (1 < pages.length) ||
  decide (1 < widths.length) || (pages.length == 1 && r.page == 0) || (r.page == 2 && !isStream core) ||
  (r.allow.width == 0 && widths != []) || (r.allow.width == 2 && widths.any (· != 0xF2)) ||
  (!r.allow.nf && pre.contains 0xF5) || (!r.allow.acq && pre.contains 0xF6) || (!r.allow.rel && pre.contains 0xF7)

/-- The command that the bytes an instruction begins with spell on its core: page and opcode choose the mnemonic, the format
its operands, the prefixes its width, NF, ACQ and REL (R233 to R237). None where R234 makes them ILLEGAL. -/
def ilDecode (x : Ilx) : Option Instr :=
  let (pre, rest) := splitPrefixes x.bytes
  match rest with
  | [] => none
  | op :: args =>
    match opRows.find? fun r => r.page == opPage pre && r.op == op.toNat with
    | none => none
    | some r =>
      let n := pre.length + 1 + r.fmt.len
      if prefixBad x.core pre r || decide (15 < n) || decide (args.length < r.fmt.len) || !r.fmt.ok args then none
      else some (r.make { x with
        bytes := x.bytes.take n, width := widthOf pre, nf := pre.contains 0xF5, acq := pre.contains 0xF6,
        rel := pre.contains 0xF7 } (r.fmt.fields args))

/-! ### The course of an instruction -/

/-- How an instruction ends: done with the core's new state, an exception without effect ("this"), one whose access left its
marks outside the core (a poisoned word is counted), or an exception after its effect ("next") (R258). -/
inductive IlEnd where
  | done (c : Core) (s : State)
  | exc (cause sub info : Nat)
  | excIn (s : State) (cause sub info : Nat)
  | next (c : Core) (s : State) (cause sub info : Nat)

/-- Exception causes (R258). -/
abbrev cause.INTERRUPT : Nat := 0x01
abbrev cause.WATCHDOG : Nat := 0x02
abbrev cause.FETCH_FAULT : Nat := 0x03
abbrev cause.ILLEGAL : Nat := 0x04
abbrev cause.PRIV : Nat := 0x05
abbrev cause.GATE_FAULT : Nat := 0x06
abbrev cause.CF_SIG : Nat := 0x07
abbrev cause.RS_OVER : Nat := 0x08
abbrev cause.RS_UNDER : Nat := 0x09
abbrev cause.ALIGN : Nat := 0x0A
abbrev cause.LOAD_FAULT : Nat := 0x0B
abbrev cause.STORE_FAULT : Nat := 0x0C
abbrev cause.POISON : Nat := 0x0D
abbrev cause.DIV_ZERO : Nat := 0x0E
abbrev cause.TRAP : Nat := 0x0F

/-- The first 8 bytes of the instruction, as EINFO holds them. -/
def einfoBytes (x : Ilx) : Nat := leNat (x.bytes.take 8)

/-- The tile of a stream core is fenced, reset or rejoining, or a slice waits for the core's unit: the core is held between
instructions (R523, R532). -/
def coreHeld (s : State) (i : Nat) : Bool :=
  s.intg.holds i || isStream i && (blkState s (pTILE i) == 3 || blkState s (pTILE i) == 4 || blkState s (pTILE i) == 5)

/-- The precise record takes an instruction a deck core retires, when it meets an enabled cause (R599). `exc` is the cause
code of an exception it raised. -/
def precRecord (x : Ilx) (pc cmp : Nat) (exc : Option Nat) (s : State) : State :=
  let d := x.core - 32
  let cfg := reg s pPERF R.PERF.PREC_CFG
  if ¬ isDeck x.core ∨ ¬ bitOf cfg d then s
  else
    let seed := reg s pPERF R.PERF.TAG_SEED
    let l := lfsrStep ((mget s.tags.precLfsr d).getD (if seed = 0 then 1 else seed))
    let s := { s with tags := { s.tags with precLfsr := mput s.tags.precLfsr d l } }
    let sampled := bitOf cfg 8 && bitsOf l 0 (tagK (bitsOf cfg 11 5)) == 0
    let (pre, op) := splitPrefixes x.bytes
    let mem := opPage pre == 0 && decide (0x30 ≤ leAt op 0 1) && decide (leAt op 0 1 ≤ 0x3A)
    let slow := bitOf cfg 9 && mem && decide (bitsOf cfg 16 16 ≤ x.cycles)
    let code := match exc with
      | some c => if bitOf cfg 10 then some (0x80 + c % 128) else if slow then some 2 else if sampled then some 1 else none
      | none => if slow then some 2 else if sampled then some 1 else none
    match code with
    | none => s
    | some code =>
      let fill := R.PERF.PREC_FILL + 4 * d
      let l := mgetD s.tags.prec d []
      if bitOf (reg s pPERF fill) 31 then s
      else
        let e := leBytes 8 (pc % 2 ^ 48 + cmp * 2 ^ 48) ++ (x.bytes ++ List.replicate (16 - x.bytes.length) 0).take 16 ++
          leBytes 4 x.cycles ++ leBytes 1 code ++ leBytes 1 x.bytes.length ++ [0, 0]
        let n := l.length + 1
        let s := { s with tags := { s.tags with prec := mput s.tags.prec d (l ++ [e]) } }
        let s := setRegN s pPERF fill ((if 4096 ≤ n then 2 ^ 31 else 0) + n)
        if 4096 ≤ n then penBit pPERF 3 s else s

/-- The bytes spell this command, or nothing: what they spell is what the core carries out. -/
def spells (i : Instr) (x : Ilx) : Bool := ilDecode x == none || ilDecode x == some i

/-- The common course of an instruction that the command `i` names: its bytes spell it, else the core carries out no such
instruction (log entry 179), and the core must run; parity, fetch, ILLEGAL, then the instruction's own part, given the address
of the next instruction. A stream core's cycles are charged to its tile budget (R263). -/
def runIl (i : Instr) (x : Ilx) (body : Core → Nat → State → IlEnd) (s : State) : State :=
  if 37 ≤ x.core ∨ ¬ spells i x then s
  else
    let s := wakeCore x.core s
    let c := getCore s x.core
    if c.act ≠ .running ∨ coreHeld s x.core then s
    else if x.parity then stopCore x.core 0 s
    else
      let n := x.bytes.length
      let end_ : IlEnd :=
        if ¬ mapped s x.core c.pc n then .exc cause.FETCH_FAULT 1 c.pc
        else match regionRefuses c ⟨false, false, true⟩ c.pc n with
          | some sub => .exc cause.FETCH_FAULT sub c.pc
          | none =>
            if ilDecode x = none then .exc cause.ILLEGAL 0 (einfoBytes x)
            else body c ((c.pc + n) % 2 ^ 64) s
      let s' := match end_ with
        | .done c' s => precRecord x c.pc c.cmp none (putCore x.core c' s)
        | .exc cause sub info => enterException x.core cause sub info c.pc (precRecord x c.pc c.cmp (some cause) s)
        | .excIn s cause sub info => enterException x.core cause sub info c.pc (precRecord x c.pc c.cmp (some cause) s)
        | .next c' s cause sub info =>
          enterException x.core cause sub info c'.pc (precRecord x c.pc c.cmp (some cause) (putCore x.core c' s))
      if isStream x.core then chargeBudget x.core 0 (x.cycles + min x.slow x.cycles) s' else s'

/-- The operand of a register at the instruction's width. -/
def opnd (c : Core) (x : Ilx) (r : Nat) : Nat := gReg c r % 2 ^ widthBits x.width

/-- Writes a result, zero-extended, and FLAGS unless NF; goes on at `next`. -/
def retire (c : Core) (x : Ilx) (d v f next : Nat) (s : State) : IlEnd :=
  .done { setG c d v with flags := (if x.nf then c.flags else f), pc := next } s

/-- Goes on at `next` with nothing written. -/
def skipTo (c : Core) (next : Nat) (s : State) : IlEnd := .done { c with pc := next } s

/-- A sign-extended 32-bit immediate at a width. -/
def imm32 (n : Nat) (imm : Dword) : Nat := (imm.toInt % (2 ^ n : Nat)).toNat

/-- An address plus a signed displacement, modulo 2^64. -/
def addrPlus (a : Nat) (disp : Int) : Nat := (((a : Int) + disp) % (2 ^ 64 : Nat)).toNat

end Sys2Proof.Machine
end

