-- ==== Sys2Proof/Machine/IleshAlu.lean ====
section
/-! DEFINITION. Ilesh moves, arithmetic, logic, shifts, products and quotients (R237, R238). -/

namespace Sys2Proof.Machine

/-- ILLEGAL: opcode 0x00, or bytes that R234 makes illegal. -/
def execIllegal (x : Ilx) (s : State) : Host.Outcome State Fault Refusal :=
  .next (runIl (.illegal x) x (fun _ _ _ => .exc cause.ILLEGAL 0 (einfoBytes x)) s)

/-- NOP. -/
def execNop (x : Ilx) (s : State) : Host.Outcome State Fault Refusal :=
  .next (runIl (.nop x) x (fun c next s => skipTo c next s) s)

/-- FENCE: accesses of this model are complete and visible in order (R231). -/
def execFence (x : Ilx) (s : State) : Host.Outcome State Fault Refusal :=
  .next (runIl (.fence x) x (fun c next s => skipTo c next s) s)

/-- TRAP. -/
def execTrap (x : Ilx) (imm : Nat) (s : State) : Host.Outcome State Fault Refusal :=
  .next (runIl (.trap x imm) x (fun c next s => .next { c with pc := next } s cause.TRAP 0 (imm % 256)) s)

/-- MOV. -/
def execMov (x : Ilx) (d r : Nat) (s : State) : Host.Outcome State Fault Refusal :=
  .next (runIl (.mov x d r) x (fun c next s => retire c x d (opnd c x r) c.flags next s) s)

/-- MOVI. -/
def execMovi (x : Ilx) (d : Nat) (imm : Dword) (s : State) : Host.Outcome State Fault Refusal :=
  .next (runIl (.movi x d imm) x (fun c next s => retire c x d (imm32 64 imm) c.flags next s) s)

/-- MOVI64. -/
def execMovi64 (x : Ilx) (d : Nat) (imm : Qword) (s : State) : Host.Outcome State Fault Refusal :=
  .next (runIl (.movi64 x d imm) x (fun c next s => retire c x d imm.toNat c.flags next s) s)

/-- An ALU instruction that writes its result. -/
def aluWrite (i : Instr) (x : Ilx) (d : Nat) (f : Core → Nat × Nat) (s : State) : State :=
  runIl i x (fun c next s => retire c x d (f c).1 (f c).2 next s) s

/-- An ALU instruction that sets flags only. -/
def aluTest (i : Instr) (x : Ilx) (f : Core → Nat × Nat) (s : State) : State :=
  runIl i x (fun c next s => .done { c with flags := (if x.nf then c.flags else (f c).2), pc := next } s) s

def carryIn (c : Core) : Nat := bitsOf c.flags fC 1

/-- ADD. -/
def execAdd (x : Ilx) (d r : Nat) (s : State) : Host.Outcome State Fault Refusal :=
  .next (aluWrite (.add x d r) x d (fun c => aluAdd (widthBits x.width) (opnd c x d) (opnd c x r) 0 c.flags) s)

/-- ADC. -/
def execAdc (x : Ilx) (d r : Nat) (s : State) : Host.Outcome State Fault Refusal :=
  .next (aluWrite (.adc x d r) x d (fun c => aluAdd (widthBits x.width) (opnd c x d) (opnd c x r) (carryIn c) c.flags) s)

/-- SUB. -/
def execSub (x : Ilx) (d r : Nat) (s : State) : Host.Outcome State Fault Refusal :=
  .next (aluWrite (.sub x d r) x d (fun c => aluSub (widthBits x.width) (opnd c x d) (opnd c x r) 0 c.flags) s)

/-- SBB. -/
def execSbb (x : Ilx) (d r : Nat) (s : State) : Host.Outcome State Fault Refusal :=
  .next (aluWrite (.sbb x d r) x d (fun c => aluSub (widthBits x.width) (opnd c x d) (opnd c x r) (carryIn c) c.flags) s)

/-- AND. -/
def execAnd (x : Ilx) (d r : Nat) (s : State) : Host.Outcome State Fault Refusal :=
  .next (aluWrite (.and x d r) x d (fun c => aluLogic (widthBits x.width) (opnd c x d &&& opnd c x r) c.flags) s)

/-- OR. -/
def execOr (x : Ilx) (d r : Nat) (s : State) : Host.Outcome State Fault Refusal :=
  .next (aluWrite (.or x d r) x d (fun c => aluLogic (widthBits x.width) (opnd c x d ||| opnd c x r) c.flags) s)

/-- XOR. -/
def execXor (x : Ilx) (d r : Nat) (s : State) : Host.Outcome State Fault Refusal :=
  .next (aluWrite (.xor x d r) x d (fun c => aluLogic (widthBits x.width) (opnd c x d ^^^ opnd c x r) c.flags) s)

/-- CMP. -/
def execCmp (x : Ilx) (d r : Nat) (s : State) : Host.Outcome State Fault Refusal :=
  .next (aluTest (.cmp x d r) x (fun c => aluSub (widthBits x.width) (opnd c x d) (opnd c x r) 0 c.flags) s)

/-- TST. -/
def execTst (x : Ilx) (d r : Nat) (s : State) : Host.Outcome State Fault Refusal :=
  .next (aluTest (.tst x d r) x (fun c => aluLogic (widthBits x.width) (opnd c x d &&& opnd c x r) c.flags) s)

/-- ADDI. -/
def execAddi (x : Ilx) (d : Nat) (imm : Dword) (s : State) : Host.Outcome State Fault Refusal :=
  .next (aluWrite (.addi x d imm) x d (fun c =>
    aluAdd (widthBits x.width) (opnd c x d) (imm32 (widthBits x.width) imm) 0 c.flags) s)

/-- CMPI. -/
def execCmpi (x : Ilx) (d : Nat) (imm : Dword) (s : State) : Host.Outcome State Fault Refusal :=
  .next (aluTest (.cmpi x d imm) x (fun c =>
    aluSub (widthBits x.width) (opnd c x d) (imm32 (widthBits x.width) imm) 0 c.flags) s)

/-- ANDI. -/
def execAndi (x : Ilx) (d : Nat) (imm : Dword) (s : State) : Host.Outcome State Fault Refusal :=
  .next (aluWrite (.andi x d imm) x d (fun c =>
    aluLogic (widthBits x.width) (opnd c x d &&& imm32 (widthBits x.width) imm) c.flags) s)

/-- A shift by `k`: a count of 0 shifts no bit out, and C is then an open value. -/
def shiftBy (x : Ilx) (kind : ShiftKind) (d k : Nat) (c : Core) (next : Nat) (s : State) : IlEnd :=
  let n := widthBits x.width
  let (r, out) := aluShift kind n (opnd c x d) k (Config.freeBool s.fresh)
  let s := if k = 0 then { s with fresh := s.fresh + 1 } else s
  retire c x d r (flagSet (setZN n r (flagSet c.flags fV false)) fC out) next s

/-- A shift by a register, modulo the width. -/
def shiftReg (i : Instr) (x : Ilx) (kind : ShiftKind) (d r : Nat) (s : State) : State :=
  runIl i x (fun c next s => shiftBy x kind d (opnd c x r % widthBits x.width) c next s) s

/-- A shift by imm8: at or above the width it is ILLEGAL. -/
def shiftImm (i : Instr) (x : Ilx) (kind : ShiftKind) (d k : Nat) (s : State) : State :=
  runIl i x (fun c next s =>
    if widthBits x.width ≤ k then .exc cause.ILLEGAL 0 (einfoBytes x) else shiftBy x kind d k c next s) s

/-- SHL. -/
def execShl (x : Ilx) (d r : Nat) (s : State) : Host.Outcome State Fault Refusal := .next (shiftReg (.shl x d r) x .shl d r s)
/-- SHR. -/
def execShr (x : Ilx) (d r : Nat) (s : State) : Host.Outcome State Fault Refusal := .next (shiftReg (.shr x d r) x .shr d r s)
/-- SAR. -/
def execSar (x : Ilx) (d r : Nat) (s : State) : Host.Outcome State Fault Refusal := .next (shiftReg (.sar x d r) x .sar d r s)
/-- ROL. -/
def execRol (x : Ilx) (d r : Nat) (s : State) : Host.Outcome State Fault Refusal := .next (shiftReg (.rol x d r) x .rol d r s)
/-- SHLI. -/
def execShli (x : Ilx) (d k : Nat) (s : State) : Host.Outcome State Fault Refusal := .next (shiftImm (.shli x d k) x .shl d k s)
/-- SHRI. -/
def execShri (x : Ilx) (d k : Nat) (s : State) : Host.Outcome State Fault Refusal := .next (shiftImm (.shri x d k) x .shr d k s)
/-- SARI. -/
def execSari (x : Ilx) (d k : Nat) (s : State) : Host.Outcome State Fault Refusal := .next (shiftImm (.sari x d k) x .sar d k s)
/-- ROLI. -/
def execRoli (x : Ilx) (d k : Nat) (s : State) : Host.Outcome State Fault Refusal := .next (shiftImm (.roli x d k) x .rol d k s)

/-- A result that sets Z and N only. -/
def znWrite (i : Instr) (x : Ilx) (d : Nat) (f : Nat → Nat → Nat → Nat) (r : Nat) (s : State) : State :=
  aluWrite i x d (fun c =>
    let n := widthBits x.width
    let v := f n (opnd c x d) (opnd c x r) % 2 ^ n
    (v, setZN n v c.flags)) s

/-- MUL. -/
def execMul (x : Ilx) (d r : Nat) (s : State) : Host.Outcome State Fault Refusal :=
  .next (znWrite (.mul x d r) x d (fun _ a b => a * b) r s)

/-- MULHU. -/
def execMulhu (x : Ilx) (d r : Nat) (s : State) : Host.Outcome State Fault Refusal :=
  .next (znWrite (.mulhu x d r) x d (fun n a b => a * b / 2 ^ n) r s)

/-- A division: a zero divisor raises DIV_ZERO. `f` takes the width, the operands and an open value. -/
def divide (i : Instr) (x : Ilx) (d r : Nat) (f : Nat → Nat → Nat → Nat → Nat) (s : State) : State :=
  runIl i x (fun c next s =>
    let n := widthBits x.width
    let b := opnd c x r
    if b = 0 then .exc cause.DIV_ZERO 0 0
    else
      let (fv, s) := freeVal s
      let v := f n (opnd c x d) b fv
      retire c x d v (setZN n v c.flags) next s) s

/-- DIVU. -/
def execDivu (x : Ilx) (d r : Nat) (s : State) : Host.Outcome State Fault Refusal :=
  .next (divide (.divu x d r) x d r (fun _ a b _ => a / b) s)

/-- REMU. -/
def execRemu (x : Ilx) (d r : Nat) (s : State) : Host.Outcome State Fault Refusal :=
  .next (divide (.remu x d r) x d r (fun _ a b _ => a % b) s)

/-- DIVS. -/
def execDivs (x : Ilx) (d r : Nat) (s : State) : Host.Outcome State Fault Refusal :=
  .next (divide (.divs x d r) x d r (fun n a b fv => (aluDivS n a b fv).1) s)

/-- REMS. -/
def execRems (x : Ilx) (d r : Nat) (s : State) : Host.Outcome State Fault Refusal :=
  .next (divide (.rems x d r) x d r (fun n a b fv => (aluDivS n a b fv).2) s)

end Sys2Proof.Machine
end

