-- ==== Sys2Proof/Machine/IleshDecimal.lean ====
section
/-! DEFINITION. Ilesh decimal and timecode instructions (R239 to R245). -/

namespace Sys2Proof.Machine

/-- DAA or DAS: the low byte of `d` alone changes. -/
def adjust (i : Instr) (x : Ilx) (d : Nat) (subtract : Bool) (s : State) : State :=
  runIl i x (fun c next s =>
    let v := gReg c d
    let (r, f) := daaDas (v % 256) c.flags subtract
    .done { setG c d (v / 256 * 256 + r) with flags := f, pc := next } s) s

/-- DAA. -/
def execDaa (x : Ilx) (d : Nat) (s : State) : Host.Outcome State Fault Refusal := .next (adjust (.daa x d) x d false s)
/-- DAS. -/
def execDas (x : Ilx) (d : Nat) (s : State) : Host.Outcome State Fault Refusal := .next (adjust (.das x d) x d true s)

/-- Bad input: BI = 1 and nothing else changes. -/
def badInput (c : Core) (next : Nat) (s : State) : IlEnd := .done { c with flags := flagSet c.flags fBI true, pc := next } s

/-- A BCD instruction of two operands (R240): `write` is false for BCDCMP, `carry` takes DC as carry in. -/
def bcdInstr (i : Instr) (x : Ilx) (d r : Nat) (subtract carry write : Bool) (s : State) : State :=
  runIl i x (fun c next s =>
    let n := widthBits x.width / 4
    let a := opnd c x d
    let b := opnd c x r
    if ¬ (bcdOk n a ∧ bcdOk n b) then badInput c next s
    else
      let (v, k, h) := bcdOp n a b subtract (if carry then bitsOf c.flags fDC 1 else 0)
      let f := flagSet (flagSet (flagSet c.flags fBI false) fDC (k == 1)) fZ (v == 0)
      let f := if write then flagSet f fH (h == 1) else f
      .done { (if write then setG c d v else c) with flags := f, pc := next } s) s

/-- BCDADD. -/
def execBcdadd (x : Ilx) (d r : Nat) (s : State) : Host.Outcome State Fault Refusal :=
  .next (bcdInstr (.bcdadd x d r) x d r false false true s)
/-- BCDADC. -/
def execBcdadc (x : Ilx) (d r : Nat) (s : State) : Host.Outcome State Fault Refusal :=
  .next (bcdInstr (.bcdadc x d r) x d r false true true s)
/-- BCDSUB. -/
def execBcdsub (x : Ilx) (d r : Nat) (s : State) : Host.Outcome State Fault Refusal :=
  .next (bcdInstr (.bcdsub x d r) x d r true false true s)
/-- BCDSBB. -/
def execBcdsbb (x : Ilx) (d r : Nat) (s : State) : Host.Outcome State Fault Refusal :=
  .next (bcdInstr (.bcdsbb x d r) x d r true true true s)
/-- BCDCMP: the subtraction without writing `d`; H is not among its flags. -/
def execBcdcmp (x : Ilx) (d r : Nat) (s : State) : Host.Outcome State Fault Refusal :=
  .next (bcdInstr (.bcdcmp x d r) x d r true false false s)

/-- BCDCHK: BI tells whether `r` holds a digit above 9. -/
def execBcdchk (x : Ilx) (r : Nat) (s : State) : Host.Outcome State Fault Refusal :=
  .next (runIl (.bcdchk x r) x (fun c next s =>
    .done { c with flags := flagSet c.flags fBI (!bcdOk (widthBits x.width / 4) (opnd c x r)), pc := next } s) s)

/-- A conversion that writes `v` with Z, or is bad input. -/
def convert (i : Instr) (x : Ilx) (d : Nat) (f : Nat → Core → Option Nat) (s : State) : State :=
  runIl i x (fun c next s =>
    match f (widthBits x.width) c with
    | none => badInput c next s
    | some v => .done { setG c d v with flags := flagSet (flagSet c.flags fBI false) fZ (v == 0), pc := next } s) s

/-- B2BCD (R241). -/
def execB2bcd (x : Ilx) (d r : Nat) (s : State) : Host.Outcome State Fault Refusal :=
  .next (convert (.b2bcd x d r) x d (fun n c =>
    if opnd c x r < 10 ^ (n / 4) then some (toBcd (n / 4) (opnd c x r)) else none) s)

/-- BCD2B (R241). -/
def execBcd2b (x : Ilx) (d r : Nat) (s : State) : Host.Outcome State Fault Refusal :=
  .next (convert (.bcd2b x d r) x d (fun n c => if bcdOk (n / 4) (opnd c x r) then some (ofBcd (n / 4) (opnd c x r)) else none) s)

/-- A timecode instruction: rate codes 8 to 15 and reserved bits raise ILLEGAL (R242). `f` answers the value to write and
DC, or none for bad input. -/
def tcInstr (i : Instr) (x : Ilx) (d rate : Nat) (f : Core → Option (Nat × Bool)) (s : State) : State :=
  runIl i x (fun c next s =>
    if 8 ≤ rate then .exc cause.ILLEGAL 0 (einfoBytes x)
    else match f c with
      | none => badInput c next s
      | some (v, dc) =>
        .done { setG c d v with
          flags := flagSet (flagSet (flagSet c.flags fBI false) fDC dc) fZ (v == 0), pc := next } s) s

/-- The low 32 bits of a register. -/
def low32 (c : Core) (r : Nat) : Nat := gReg c r % 2 ^ 32

/-- TCADD (R245). -/
def execTcadd (x : Ilx) (d r rate : Nat) (s : State) : Host.Outcome State Fault Refusal :=
  .next (tcInstr (.tcadd x d r rate) x d rate (fun c =>
    if tcValid rate (low32 c d) then
      let n : Int := tcDay rate
      let i : Int := (tcIndex rate (low32 c d) : Int) + signed 64 (gReg c r)
      some (tcLabelOf rate (i % n).toNat, decide (i < 0) || decide (n ≤ i))
    else none) s)

/-- TCSUB (R245). -/
def execTcsub (x : Ilx) (d r rate : Nat) (s : State) : Host.Outcome State Fault Refusal :=
  .next (tcInstr (.tcsub x d r rate) x d rate (fun c =>
    if tcValid rate (low32 c d) ∧ tcValid rate (low32 c r) then
      let a := tcIndex rate (low32 c d)
      let b := tcIndex rate (low32 c r)
      some ((a + tcDay rate - b) % tcDay rate, decide (a < b))
    else none) s)

/-- TC2F (R245). -/
def execTc2f (x : Ilx) (d r rate : Nat) (s : State) : Host.Outcome State Fault Refusal :=
  .next (tcInstr (.tc2f x d r rate) x d rate (fun c =>
    if tcValid rate (low32 c r) then some (tcIndex rate (low32 c r), false) else none) s)

/-- F2TC (R245). -/
def execF2tc (x : Ilx) (d r rate : Nat) (s : State) : Host.Outcome State Fault Refusal :=
  .next (tcInstr (.f2tc x d r rate) x d rate (fun c =>
    some (tcLabelOf rate (gReg c r % tcDay rate), decide (tcDay rate ≤ gReg c r))) s)

/-- TCCHK: BI alone (R237, R243). -/
def execTcchk (x : Ilx) (r rate : Nat) (s : State) : Host.Outcome State Fault Refusal :=
  .next (runIl (.tcchk x r rate) x (fun c next s =>
    if 8 ≤ rate then .exc cause.ILLEGAL 0 (einfoBytes x)
    else .done { c with flags := flagSet c.flags fBI (!tcValid rate (low32 c r)), pc := next } s) s)

end Sys2Proof.Machine
end

