-- ==== Sys2Proof/Machine/IleshFlow.lean ====
section
/-! DEFINITION. Ilesh branches, the return stack, gates and signatures (R235, R236, R246 to R257). -/

namespace Sys2Proof.Machine

/-- BR. -/
def execBr (x : Ilx) (disp : Int) (s : State) : Host.Outcome State Fault Refusal :=
  .next (runIl (.br x disp) x (fun c next s => skipTo c (addrPlus next disp) s) s)

/-- BC: `cond` is a condition code of R236. -/
def execBc (x : Ilx) (cond : Nat) (disp : Int) (s : State) : Host.Outcome State Fault Refusal :=
  .next (runIl (.bc x cond disp) x (fun c next s =>
    skipTo c (if condHolds (cond % 16) c.flags then addrPlus next disp else next) s) s)

/-- JMP. -/
def execJmp (x : Ilx) (r : Nat) (s : State) : Host.Outcome State Fault Refusal :=
  .next (runIl (.jmp x r) x (fun c _ s => skipTo c (gReg c r) s) s)

/-- A push (R247): RS_OVER, or the stack after it, dropping the oldest entry in wrap mode. -/
def pushEntry (c : Core) (e : RetEntry) : Option Core :=
  if c.stack.length < 16 then some { c with stack := c.stack ++ [e] }
  else if bitOf c.cctl 0 then none
  else match c.stack with
    | [] => none
    | old :: l => if old.gate then none
      else some { c with stack := l ++ [e], rsLost := min 0xFFFFFFFF (c.rsLost + 1) }

/-- A call: push the next address, then go to `target` (R246). -/
def callTo (i : Instr) (x : Ilx) (target : Core → Nat → Nat) (s : State) : State :=
  runIl i x (fun c next s =>
    match pushEntry c { addr := next % 2 ^ 48, cmp := c.cmp, gate := false, sig := 0 } with
    | none => .exc cause.RS_OVER 0 c.stack.length
    | some c' => skipTo c' (target c next) s) s

/-- CALL. -/
def execCall (x : Ilx) (disp : Int) (s : State) : Host.Outcome State Fault Refusal :=
  .next (callTo (.call x disp) x (fun _ next => addrPlus next disp) s)

/-- CALLR. -/
def execCallr (x : Ilx) (r : Nat) (s : State) : Host.Outcome State Fault Refusal :=
  .next (callTo (.callr x r) x (fun c _ => gReg c r) s)

/-- RET (R248). -/
def execRet (x : Ilx) (s : State) : Host.Outcome State Fault Refusal :=
  .next (runIl (.ret x) x (fun c _ s =>
    match c.stack.getLast? with
    | none => .exc cause.RS_UNDER 0 0
    | some e => if e.gate then .exc cause.GATE_FAULT 0 0x100
      else skipTo { c with stack := c.stack.dropLast } e.addr s) s)

/-- GCALL (R254, R255): GATE_FAULT stands before RS_OVER (R258). -/
def execGcall (x : Ilx) (k : Nat) (s : State) : Host.Outcome State Fault Refusal :=
  .next (runIl (.gcall x k) x (fun c next s =>
    let b := coreBytes s x.core (c.gtb + 16 * k) 16
    let target := leAt b 0 8
    let cmp := leAt b 8 1
    let flags := leAt b 9 1
    if c.gtn ≤ k ∨ ¬ bitOf c.cctl 2 ∨ flags ≠ 1 ∨ cmp = 0 ∨ 31 < cmp ∨ 2 ^ 48 ≤ target ∨ ¬ bitOf (leAt b 0xC 4) c.cmp then
      .exc cause.GATE_FAULT 0 k
    else match pushEntry c { addr := next % 2 ^ 48, cmp := c.cmp, gate := true, sig := c.sig } with
      | none => .exc cause.RS_OVER 0 c.stack.length
      | some c' => .done { enterCmp s x.core cmp c' with sig := leAt b 0xA 2, pc := target } s) s)

/-- EINFO of CF_SIG (R257). -/
def sigInfo (c : Core) (v : Nat) : Nat := c.sig + v % 65536 * 65536

/-- The signature check fails (R256, R257). -/
def sigBad (c : Core) (v : Nat) : Bool := bitOf c.cctl 1 && c.sig != v % 65536

/-- GRET: the causes in the order of R258: GATE_FAULT, CF_SIG, RS_UNDER (R248, R256). -/
def execGret (x : Ilx) (v : Nat) (s : State) : Host.Outcome State Fault Refusal :=
  .next (runIl (.gret x v) x (fun c _ s =>
    match c.stack.getLast? with
    | none => if sigBad c v then .exc cause.CF_SIG 0 (sigInfo c v) else .exc cause.RS_UNDER 0 0
    | some e =>
      if ¬ e.gate then .exc cause.GATE_FAULT 0 0x100
      else if sigBad c v then .exc cause.CF_SIG 0 (sigInfo c v)
      else .done { enterCmp s x.core e.cmp { c with stack := c.stack.dropLast } with sig := e.sig, pc := e.addr } s) s)

/-- SIGU (R257). -/
def execSigu (x : Ilx) (v : Nat) (s : State) : Host.Outcome State Fault Refusal :=
  .next (runIl (.sigu x v) x (fun c next s =>
    skipTo { c with sig := (c.sig * 2 % 65536 + c.sig / 32768) ^^^ (v % 65536) } next s) s)

/-- SIGCK (R257). -/
def execSigck (x : Ilx) (v : Nat) (s : State) : Host.Outcome State Fault Refusal :=
  .next (runIl (.sigck x v) x (fun c next s =>
    if sigBad c v then .exc cause.CF_SIG 0 (sigInfo c v) else skipTo c next s) s)

/-! ### Spill and fill (R249, R250) -/

/-- A spilled entry (R250). -/
def spillBytes (e : RetEntry) : List Byte :=
  leBytes 8 (e.addr % 2 ^ 48) ++ leBytes 8 (e.cmp % 256 + (if e.gate then 256 else 0) + e.sig % 65536 * 65536)

def entryOfSpill (b : List Byte) : RetEntry := {
  addr := bitsOf (leAt b 0 8) 0 48, cmp := leAt b 8 1, gate := bitOf (leAt b 8 8) 8, sig := leAt b 0xA 2 }

/-- A SPILL region of the current table covers 16 bytes at `a`; with REG_EN = 0 no access is checked (R249, R253). -/
def spillOk (s : State) (i : Nat) (c : Core) (a : Nat) : Bool :=
  mapped s i a 16 && (!bitOf c.cctl 2 || c.regions.any fun r => r.spill && covers r a 16)

/-- Writes bytes at a core's address of normal memory. -/
def coreWrite (i a : Nat) (l : List Byte) (s : State) : State :=
  match place s i a with
  | .normal k =>
    let s := { s with mem := memWrite s.mem k l }
    if i < 32 ∧ a < sliceBytes then clearSram i a l.length s
    else { s with media := { s.media with
      dram := s.media.dram.filter fun e => !(decide (k ≤ e.1) && decide (e.1 + 8 ≤ k + l.length)) } }
  | _ => s

/-- The entries of RSSPILL, oldest first, each below the one before. -/
def spillAll (i : Nat) : List RetEntry → Nat → State → State
  | [], _, s => s
  | e :: l, rsp, s => spillAll i l (rsp - 16) (coreWrite i (rsp - 16) (spillBytes e) s)

/-- Privileged instructions raise PRIV outside compartment 0 (R237). -/
def onlyC0 (c : Core) (e : IlEnd) : IlEnd := if c.cmp ≠ 0 then .exc cause.PRIV 0 0 else e

/-- RSSPILL. -/
def execRsspill (x : Ilx) (k : Nat) (s : State) : Host.Outcome State Fault Refusal :=
  .next (runIl (.rsspill x k) x (fun c next s =>
    if k = 0 ∨ 16 < k then .exc cause.ILLEGAL 0 (einfoBytes x)
    else onlyC0 c <|
      let n := min k c.stack.length
      match (List.range n).find? fun i => decide (c.rsp < 16 * (i + 1)) || !spillOk s x.core c (c.rsp - 16 * (i + 1)) with
      | some i => .exc cause.STORE_FAULT 2 (addrPlus c.rsp (-(16 * (i + 1) : Nat)))
      | none =>
        let s := spillAll x.core (c.stack.take n) c.rsp s
        .done { c with
          stack := c.stack.drop n, rsp := c.rsp - 16 * n, flags := flagSet c.flags fZ (n == 0), pc := next } s) s)

end Sys2Proof.Machine
end

