-- ==== Sys2Proof/Machine/DeviceAccess.lean ====
section
/-! DEFINITION. A core's loads and stores of register pages: each store acts as the write of that register does, and each
load as its read, latches included (R4, R8, R58, R91, R229, R588). -/

namespace Sys2Proof.Machine

/-- The state a command without a stop answers. -/
def thenState (o : Host.Outcome State Fault Refusal) (s : State) : State :=
  match o with
  | .next t => t
  | .fault _ => s
  | .refused _ => s

/-- One 32-bit write of any register. -/
def deviceWrite (a : Agent) (addr v : Nat) (s : State) : State :=
  match pageOf addr with
  | none => s
  | some p =>
    let off := addr % 0x1000
    let w : Dword := BitVec.ofNat 32 v
    if ¬ sees s a p then s
    else if off = R.PENNANT then thenState (execPennantWrite a p w s) s
    else if off = R.PENNANT_FORCE then thenState (execPennantForce a p w s) s
    else if off = R.BLK_CTL then blkCtlWrite a p v s
    else if off = R.BLK_COMMIT then (if bitOf v 0 then commitReq s.now p s else s)
    else if off = R.SNAP_STAT then (if bitOf v 31 then thenState (execSnapValidClear p s) s else s)
    else if R.PC_CTL ≤ off ∧ off < R.PC_CTL + 32 then pcCtlWrite a p ((off - R.PC_CTL) / 4) v s
    else if ¬ ownWrite p off then plainWrite a addr v s
    else match p.ty with
      | .glb => thenState (execGlbDrvAbi w s) s
      | .tick => thenState (execHalyardFire s.now v s) s
      | .link =>
        if off = R.LINK.CTL then (if bitOf v 0 then thenState (execRetrain s.now p.inst s) s else s)
        else
          let s := if bitOf v 6 then thenState (execPatClear p.inst s) s else s
          thenState (execPatSelect s.now p.inst v s) s
      | .func =>
        let f := p.inst
        if off = R.FUNC.DRV_ABI then thenState (execFuncDrvAbi f w s) s
        else if off = R.FUNC.HEARTBEAT then thenState (execHeartbeat s.now f w s) s
        else if off = R.FUNC.ORPHAN_CTL then
          (if v % 4 = 1 then thenState (execAdopt s.now f (v / 65536) s) s
           else if v % 4 = 2 then thenState (execFuncReset s.now f s) s else s)
        else if off = 0x3FC then thenState (execRmtDbHi f v s) s
        else if off % 8 = 0 then thenState (execSqTail f ((off - 0x100) / 8) (v % 4096) s) s
        else thenState (execCqHead f ((off - 0x100) / 8) (v % 4096) s) s
      | _ => s

/-- Registers whose low half, when read, latches the high half after it (R58). -/
def latchLow (p : Page) (off : Nat) : Bool :=
  match p.ty with
  | .tick => off == R.TICK.COUNT_LO
  | .mss => off == R.MSS.LOG_NEWEST_LO
  | .ckpt => off == R.CKPT.LAST_COMMIT_LO
  | .pair => off == R.PAIR.LAST_ACK_LO || off == R.PAIR.LEASE_OUT_LO
  | .intg => off == R.INTG.SUSP_FROM_LO || off == R.INTG.SUSP_TO_LO
  | .tile => off == R.TILE.SEALED_LO
  | .memc => off == R.MEMC.UE_ADDR_LO
  | .func => off == R.FUNC.ORPHAN_TICK_LO
  | _ => false

/-- One 32-bit read and what it does. A read of MBIST_FAIL_UNIT frees the capture for the next failing location (R536). -/
def deviceRead (a : Agent) (addr : Nat) (s : State) : Nat × State :=
  match pageOf addr with
  | none => (0, s)
  | some p =>
    let off := addr % 0x1000
    if ¬ sees s a p then (0, s)
    else
      let v := (readReg s a p off).toNat
      let s := if R.PC_VAL_LO ≤ off ∧ off < R.PC_VAL_LO + 64 ∧ (off - R.PC_VAL_LO) % 8 = 0 then pcRead a p ((off - R.PC_VAL_LO) / 8) s
        else if latchLow p off then setLatch a p (off + 4) (inForce s p (off + 4)) s
        else if p.ty = .intg ∧ off = R.INTG.MBIST_FAIL_UNIT then { s with intg := { s.intg with mbistHeld := false } }
        else s
      (v, s)

/-- A store of `size` bytes to a page offset; one that R91 does not take is recorded and ignored. -/
def deviceStore (a : Agent) (addr size v : Nat) (s : State) : State :=
  if badAccess s addr size then recordBad addr true s
  else if size = 8 then deviceWrite a (addr + 4) (v / 2 ^ 32) (deviceWrite a addr (v % 2 ^ 32) s)
  else deviceWrite a addr (v % 2 ^ 32) s

/-- A load of `size` bytes from a page offset; one that R91 does not take is recorded and reads 0. -/
def deviceLoad (a : Agent) (addr size : Nat) (s : State) : Nat × State :=
  if badAccess s addr size then (0, recordBad addr false s)
  else if size = 8 then
    let (lo, s) := deviceRead a addr s
    let (hi, s) := deviceRead a (addr + 4) s
    (lo + 2 ^ 32 * hi, s)
  else deviceRead a addr s

/-- REGISTER_WRITE: a 32-bit write, or a 64-bit write as two, the lower address first; each acts as a write of its register does
(R8, R91). -/
def execRegisterWrite (a : Agent) (addr : Nat) (v : Dword) (hi : Option Dword) (s : State) :
    Host.Outcome State Fault Refusal :=
  .next <|
    match hi with
    | some w => deviceStore a addr 8 (v.toNat + 2 ^ 32 * w.toNat) s
    | none => deviceStore a addr 4 v.toNat s

/-- TICK_COUNT_LO_READ: a 32-bit read of TICK.COUNT_LO, or of the other registers whose reading latches as that one's does (R4);
the latch is the reader's own (R58). -/
def execTickCountLoRead (r : Agent × Nat) (s : State) : Host.Outcome State Fault Refusal :=
  .next (deviceLoad r.1 r.2 4 s).2

end Sys2Proof.Machine
end

