-- ==== Sys2Proof/Machine/IleshMemory.lean ====
section
/-! DEFINITION. Ilesh loads, stores and atomic accesses (R229 to R232, R237, R253, R258). -/

namespace Sys2Proof.Machine

/-- The reader or writer a core is to register pages (R58, R93). -/
def coreAgent (i : Nat) : Agent := if i = 36 then .mss else .core i

/-- An uncorrectable word that an access of normal memory reads, by its address. -/
def poisonAt (s : State) (i a n : Nat) : Option Nat :=
  match place s i a with
  | .normal k =>
    if i < 32 ∧ a < sliceBytes then (poisonIn s i a n).map (·.offset)
    else if k < 2 ^ 40 then
      (s.media.dram.find? fun d => d.2 && decide (k < d.1 + 8) && decide (d.1 < k + n)).map fun d => 0x010000000000 + d.1
    else none
  | _ => none

/-- What a read of normal memory leaves: errors corrected or counted (R206, R544). -/
def coreTouch (i a n : Nat) (s : State) : State :=
  match place s i a with
  | .normal k =>
    if i < 32 ∧ a < sliceBytes then sliceTouch i a n s
    else if k < 2 ^ 40 then dramTouch k n s else s
  | _ => s

/-- The address checks of an access, in the order of R258: alignment, the address map, the regions, then what the place
itself refuses. -/
def accessCheck (s : State) (i : Nat) (c : Core) (q : Need) (atomic : Bool) (a n : Nat) : Option (Nat × Nat) :=
  let fault := if q.w then cause.STORE_FAULT else cause.LOAD_FAULT
  if a % n ≠ 0 then some (cause.ALIGN, 0)
  else match place s i a with
    | .none => some (fault, 1)
    | .rom _ _ => if q.w then some (fault, 1) else (regionRefuses c q a n).map fun sub => (fault, sub)
    | .device _ => match regionRefuses c q a n with
      | some sub => some (fault, sub)
      | none => if atomic then some (fault, 3) else none
    | .normal _ => (regionRefuses c q a n).map fun sub => (fault, sub)

/-- Bytes of an access at the instruction's width. -/
def accessBytes (x : Ilx) : Nat := widthBits x.width / 8

/-- A load: the value with the state after it, or the poisoned word. -/
def coreLoad (i a n : Nat) (s : State) : (Option Nat × Nat) × State :=
  match place s i a with
  | .device off =>
    let (v, s) := deviceLoad (coreAgent i) off n s
    ((none, v), s)
  | _ => ((poisonAt s i a n, leNat (coreBytes s i a n)), coreTouch i a n s)

/-- A load instruction; `ext` extends what was read. -/
def loadIl (i : Instr) (x : Ilx) (d b : Nat) (disp : Int) (ext : Nat → Nat) (s : State) : State :=
  runIl i x (fun c next s =>
    let a := addrPlus (gReg c b) disp
    let n := accessBytes x
    match accessCheck s x.core c ⟨true, false, false⟩ false a n with
    | some (why, sub) => .exc why sub a
    | none =>
      let ((bad, v), s) := coreLoad x.core a n s
      match bad with
      | some p => .excIn s cause.POISON 0 p
      | none => .done { setG (getCore s x.core) d (ext v) with pc := next } s) s

/-- A value of the instruction's width, sign-extended to 64 bits. -/
def signTo64 (x : Ilx) (v : Nat) : Nat :=
  let n := widthBits x.width
  if bitOf v (n - 1) then v + (2 ^ 64 - 2 ^ n) else v

/-- LD. -/
def execLd (x : Ilx) (d b : Nat) (disp : Int) (s : State) : Host.Outcome State Fault Refusal :=
  .next (loadIl (.ld x d b disp) x d b disp (fun v => v) s)

/-- LDS. -/
def execLds (x : Ilx) (d b : Nat) (disp : Int) (s : State) : Host.Outcome State Fault Refusal :=
  .next (loadIl (.lds x d b disp) x d b disp (signTo64 x) s)

/-- A store to a page may act on the core itself: one that then no longer runs the program keeps what the write made of it. -/
def afterDevice (i : Nat) (c : Core) (next : Nat) (s : State) : IlEnd :=
  let now := getCore s i
  if now.act = .running ∧ now.pc = c.pc then .done { now with pc := next } s else .done now s

/-- ST. -/
def execSt (x : Ilx) (r b : Nat) (disp : Int) (s : State) : Host.Outcome State Fault Refusal :=
  .next (runIl (.st x r b disp) x (fun c next s =>
    let a := addrPlus (gReg c b) disp
    let n := accessBytes x
    let v := opnd c x r
    match accessCheck s x.core c ⟨false, true, false⟩ false a n with
    | some (why, sub) => .exc why sub a
    | none => match place s x.core a with
      | .device off => afterDevice x.core c next (deviceStore (coreAgent x.core) off n v s)
      | _ => .done { c with pc := next } (coreWrite x.core a (leBytes n v) s)) s)

/-- An atomic access at `a`: the old value gives the new one, or none where nothing is stored, and the core after it. -/
def atomicIl (i : Instr) (x : Ilx) (addr : Core → Nat) (new : Core → Nat → Option Nat) (fin : Core → Nat → Core) (s : State) : State :=
  runIl i x (fun c next s =>
    let a := addr c
    let n := accessBytes x
    match accessCheck s x.core c ⟨true, true, false⟩ true a n with
    | some (why, sub) => .exc why sub a
    | none =>
      let ((bad, old), s) := coreLoad x.core a n s
      match bad with
      | some p => .excIn s cause.POISON 0 p
      | none =>
        let s := match new c old with
          | some v => coreWrite x.core a (leBytes n v) s
          | none => s
        .done { fin (getCore s x.core) old with pc := next } s) s

/-- XCHG. -/
def execXchg (x : Ilx) (d r : Nat) (s : State) : Host.Outcome State Fault Refusal :=
  .next (atomicIl (.xchg x d r) x (fun c => gReg c r) (fun c _ => some (opnd c x d)) (fun c old => setG c d old) s)

/-- CAS: Z tells that the value was stored. -/
def execCas (x : Ilx) (d b r : Nat) (s : State) : Host.Outcome State Fault Refusal :=
  .next (atomicIl (.cas x d b r) x (fun c => gReg c b) (fun c old => if old = opnd c x d then some (opnd c x r) else none)
    (fun c old => { setG c d old with flags := flagSet c.flags fZ (old == opnd c x d) }) s)

/-- AMOADD. -/
def execAmoadd (x : Ilx) (d r : Nat) (s : State) : Host.Outcome State Fault Refusal :=
  .next (atomicIl (.amoadd x d r) x (fun c => gReg c r) (fun c old => some ((old + opnd c x d) % 2 ^ widthBits x.width)) (fun c old => setG c d old) s)

/-- RSFILL (R249): it reads its entries like any load, so a poisoned one raises POISON. -/
def execRsfill (x : Ilx) (k : Nat) (s : State) : Host.Outcome State Fault Refusal :=
  .next (runIl (.rsfill x k) x (fun c next s =>
    if k = 0 ∨ 16 < k then .exc cause.ILLEGAL 0 (einfoBytes x)
    else onlyC0 c <|
      let n := min (min k ((c.rsbase - c.rsp) / 16)) (16 - c.stack.length)
      match (List.range n).find? fun i => !spillOk s x.core c (c.rsp + 16 * i) with
      | some i => .exc cause.LOAD_FAULT 2 (addrPlus c.rsp (16 * i))
      | none =>
        let bad := poisonAt s x.core c.rsp (16 * n)
        let l := (List.range n).map fun i => entryOfSpill (coreBytes s x.core (c.rsp + 16 * i) 16)
        let s := coreTouch x.core c.rsp (16 * n) s
        match bad with
        | some p => .excIn s cause.POISON 0 p
        | none =>
          .done { getCore s x.core with
            stack := l.reverse ++ c.stack, rsp := c.rsp + 16 * n, flags := flagSet c.flags fZ (n == 0), pc := next } s) s)

end Sys2Proof.Machine
end

