-- ==== Sys2Proof/Machine/IleshSystem.lean ====
section
/-! DEFINITION. Ilesh special registers, exceptions, interrupts, sleep and the watchdog (R228, R252, R258 to R262), and the
stream-core extensions (R263 to R266). -/

namespace Sys2Proof.Machine

/-- CORE_ID: [15:8] kind, [7:0] index. -/
def coreId (i : Nat) : Nat := if i < 32 then i else if i < 36 then 256 + (i - 32) else 512

/-- A special register as MFS reads it; none for an unlisted number on this core (R228). -/
def readSpecial (s : State) (i : Nat) (c : Core) (n : Nat) : Option Nat :=
  match n with
  | 0x00 => some c.pc
  | 0x01 => some c.flags
  | 0x02 => some c.cctl
  | 0x03 => some c.rsp
  | 0x04 => some c.rsbase
  | 0x05 => some c.stack.length
  | 0x06 => some c.rsLost
  | 0x07 => some c.cmp
  | 0x08 => some c.rtb
  | 0x09 => some c.gtb
  | 0x0A => some c.gtn
  | 0x0B => some c.sig
  | 0x0C => some (c.evb.getD 0)
  | 0x0D => some c.epc
  | 0x0E => some c.eflags
  | 0x0F => some c.ecause
  | 0x10 => some c.einfo
  | 0x11 => some c.ecmp
  | 0x12 => some (ipendOf s i)
  | 0x13 => some c.imask
  | 0x14 => some (coreId i)
  | 0x15 => some (s.tick.count % 2 ^ 64)
  | 0x16 => some c.wdt
  | 0x17 => if isStream i then some (blkEpoch s (pTILE i)) else none
  | _ => none

/-- MFS. -/
def execMfs (x : Ilx) (d n : Nat) (s : State) : Host.Outcome State Fault Refusal :=
  .next (runIl (.mfs x d n) x (fun c next s =>
    match readSpecial s x.core c n with
    | none => .exc cause.ILLEGAL 0 (einfoBytes x)
    | some v => retire c x d v c.flags next s) s)

/-- Registers marked RO, and those marked C0 (R228). -/
def specialRo (n : Nat) : Bool := n == 0 || n == 5 || n == 7 || n == 0x14 || n == 0x15 || n == 0x17
def specialC0 (n : Nat) : Bool := !(n == 1 || n == 0x0B)

/-- Clears the low `n` bits of an address. -/
def alignDown (n v : Nat) : Nat := v / n * n

/-- A special register written (R228). -/
def writeSpecial (c : Core) (n v : Nat) : Core :=
  match n with
  | 0x01 =>
    let low := v &&& 0x7F
    { c with flags := if c.cmp = 0 then low + bitsOf v 8 2 * 256 else low + bitsOf c.flags 8 2 * 256 }
  | 0x02 => { c with cctl := v % 8 }
  | 0x03 => { c with rsp := alignDown 16 v }
  | 0x04 => { c with rsbase := alignDown 16 v }
  | 0x06 => { c with rsLost := min v 0xFFFFFFFF }
  | 0x08 => { c with rtb := alignDown 4096 v }
  | 0x09 => { c with gtb := alignDown 64 v }
  | 0x0A => { c with gtn := min v 256 }
  | 0x0B => { c with sig := v % 65536 }
  | 0x0C => { c with evb := some (alignDown 4096 v) }
  | 0x0D => { c with epc := v }
  | 0x0E => { c with eflags := v &&& 0x37F }
  | 0x0F => { c with ecause := v % 65536 }
  | 0x10 => { c with einfo := v }
  | 0x11 => { c with ecmp := v % 32 }
  | 0x12 => { c with ipend := c.ipend - (c.ipend &&& v) }
  | 0x13 => { c with imask := v }
  | 0x16 => { c with wdt := v % 65536 }
  | _ => c

/-- MTS. -/
def execMts (x : Ilx) (n r : Nat) (s : State) : Host.Outcome State Fault Refusal :=
  .next (runIl (.mts x n r) x (fun c next s =>
    if (readSpecial s x.core c n).isNone ∨ specialRo n then .exc cause.ILLEGAL 0 (einfoBytes x)
    else if specialC0 n ∧ c.cmp ≠ 0 then .exc cause.PRIV 0 0
    else skipTo (writeSpecial c n (gReg c r)) next s) s)

/-- ERET (R259). -/
def execEret (x : Ilx) (s : State) : Host.Outcome State Fault Refusal :=
  .next (runIl (.eret x) x (fun c _ s =>
    onlyC0 c (.done (enterCmp s x.core c.ecmp { c with pc := c.epc, flags := c.eflags }) s)) s)

/-- WFI (R260): at once when a line is pending and enabled. -/
def execWfi (x : Ilx) (s : State) : Host.Outcome State Fault Refusal :=
  .next (runIl (.wfi x) x (fun c next s =>
    onlyC0 c (if linePending s x.core then skipTo c next s else .done { c with act := .wfi next } s)) s)

/-- RTSYNC (R252). -/
def execRtsync (x : Ilx) (s : State) : Host.Outcome State Fault Refusal :=
  .next (runIl (.rtsync x) x (fun c next s => onlyC0 c (skipTo (enterCmp s x.core c.cmp c) next s)) s)

/-- ISYNC: each command brings its instruction as fetched, so nothing prefetched is held (R230). -/
def execIsync (x : Ilx) (s : State) : Host.Outcome State Fault Refusal :=
  .next (runIl (.isync x) x (fun c next s => skipTo c next s) s)

/-- WDKICK (R261). -/
def execWdkick (x : Ilx) (s : State) : Host.Outcome State Fault Refusal :=
  .next (runIl (.wdkick x) x (fun c next s => onlyC0 c (skipTo { c with wdCount := 0, wdRaised := false } next s)) s)

/-- The watchdog of a core has run out and not yet been taken (R261). -/
def watchdogDue (c : Core) : Bool := c.wdt != 0 && decide (c.wdt ≤ c.wdCount) && !c.wdRaised

/-- INTERRUPT_TAKE: the lowest pending enabled line, when IE = 1 and EXL = 0 (R260) and no watchdog goes before it (R258). -/
def execInterruptTake (core : Nat) (s : State) : Host.Outcome State Fault Refusal :=
  .next <|
    if 37 ≤ core then s
    else
      let s := wakeCore core s
      let c := getCore s core
      if c.act ≠ .running ∨ coreHeld s core ∨ ¬ bitOf c.flags fIE ∨ bitOf c.flags fEXL ∨ watchdogDue c then s
      else
        let p := ipendOf s core &&& c.imask
        match (List.range 64).find? fun i => bitOf p i with
        | none => s
        | some line => enterException core cause.INTERRUPT 0 line c.pc s

/-- WATCHDOG_EXPIRY: WATCHDOG when the count reaches WDT, and the stop when it reaches 2 × WDT (R261, R262). -/
def execWatchdogExpiry (core : Nat) (s : State) : Host.Outcome State Fault Refusal :=
  .next <|
    if 37 ≤ core then s
    else
      let c := getCore s core
      let alive : Bool := match c.act with | .running => true | .wfi _ => true | .wait _ _ _ _ => true | _ => false
      if ¬ alive ∨ c.wdt = 0 ∨ c.wdCount < c.wdt ∨ coreHeld s core then s
      else if 2 * c.wdt ≤ c.wdCount then stopCore core cause.WATCHDOG s
      else if c.wdRaised then s
      else
        -- a sleeping core is between instructions: the exception returns to the one that follows
        let pc := match c.act with | .wfi n => n | .wait _ _ n _ => n | _ => c.pc
        enterException core cause.WATCHDOG 0 c.wdCount pc
          (putCore core { c with act := .running, pc := pc, wdRaised := true } s)

/-! ### Stream-core extensions -/

/-- DPUSH (R264). In a quiesce no work item is issued (R52): it is answered as where the budget does not suffice (log entry 163). -/
def execDpush (x : Ilx) (eng r : Nat) (s : State) : Host.Outcome State Fault Refusal :=
  .next (runIl (.dpush x eng r) x (fun c next s =>
    let a := gReg c r
    if eng < 1 ∨ 3 < eng then .exc cause.ILLEGAL 0 (einfoBytes x)
    else if a % 64 ≠ 0 then .exc cause.ALIGN 0 a
    else if sliceBytes ≤ a then .exc cause.LOAD_FAULT 1 a
    else match regionRefuses c ⟨true, false, false⟩ a 64 with
      | some sub => .exc cause.LOAD_FAULT sub a
      | none =>
        match poisonIn s x.core a 64 with
        | some p => .excIn (sliceTouch x.core a 64 s) cause.POISON 0 p.offset
        | none =>
          let s := sliceTouch x.core a 64 s
          let d := memRead s.mem (sliceKey x.core a) 64
          let done (cf vf : Bool) (s : State) : IlEnd :=
            .done { getCore s x.core with flags := flagSet (flagSet c.flags fC cf) fV vf, pc := next } s
          if 64 ≤ outstanding s x.core eng then done true false s
          else if quiescing s ∨ remaining s x.core eng < leAt d 0xC 4 then done true true s
          else
            let e := getEng s x.core eng
            let e := if e.queue = [] then { e with start := s.tick.count } else e
            done false false (putEng x.core eng { e with queue := e.queue ++ [{ desc := d, tick := s.tick.count }] } s)) s)

/-- BREAD (R263): a signed 64-bit value. -/
def execBread (x : Ilx) (d eng : Nat) (s : State) : Host.Outcome State Fault Refusal :=
  .next (runIl (.bread x d eng) x (fun c next s =>
    if 3 < eng then .exc cause.ILLEGAL 0 (einfoBytes x)
    else retire c x d (twos64 (remaining s x.core eng)) c.flags next s) s)
where
  /-- A signed number as 64 bits. -/
  twos64 (v : Int) : Nat := (v % (2 ^ 64 : Nat)).toNat

/-- RPOP (R265). -/
def execRpop (x : Ilx) (d : Nat) (s : State) : Host.Outcome State Fault Refusal :=
  .next (runIl (.rpop x d) x (fun c next s =>
    if d % 2 = 1 then .exc cause.ILLEGAL 0 (einfoBytes x)
    else match ringOf s x.core with
      | [] => .done { c with flags := flagSet c.flags fZ true, pc := next } s
      | r :: l =>
        let w (i : Nat) : Nat := r.dw.getD i 0
        let c := setG (setG c d (w 0 + 2 ^ 32 * w 1)) (d + 1) (w 2 + 2 ^ 32 * w 3)
        .done { c with flags := flagSet c.flags fZ false, pc := next } (putRing x.core l s)) s)

/-- WAIT: it returns at once when an enabled condition holds already, and writes the three conditions as they stand (R266). -/
def execWait (x : Ilx) (d m : Nat) (s : State) : Host.Outcome State Fault Refusal :=
  .next (runIl (.wait x d m) x (fun c next s =>
    if m = 0 ∨ 8 ≤ m then .exc cause.ILLEGAL 0 (einfoBytes x)
    else
      let w := waitConds s x.core false
      if w &&& m ≠ 0 then retire c x d w c.flags next s else .done { c with act := .wait d m next false } s) s)

/-- Step 7 on a core: line 0, the watchdog count, and a WAIT for the edge (R260, R261, R266). On the MSS line 0 runs only
while the main domain runs. -/
def edgeCore (i : Nat) (s : State) : State :=
  let c := getCore s i
  let c := { c with ipend := withBits c.ipend 0 1 1, wdCount := if c.wdt = 0 then c.wdCount else c.wdCount + 1 }
  let c := match c.act with
    | .wait d m next _ => { c with act := .wait d m next true }
    | _ => c
  wakeCore i (putCore i c s)

/-- Every core at step 7. -/
def edgeCores (s : State) : State := forN 37 s edgeCore

end Sys2Proof.Machine
end

