-- ==== Sys2Proof/Machine/NvmeLogs.lean ====
section
/-! DEFINITION. The log pages of Get Log Page (R404, R406, R433, R434). The layouts of the pages NVMe defines follow the NVMe
specifications (PRESUMED); their fields that the spec gives no value are free. -/

namespace Sys2Proof.Machine

/-- Error Information: 64 entries, the newest first. -/
def errorPage (s : State) (f : Nat) : List Byte := structOf 4096 [(0, (getCtrl s f).errors.flatMap id)]

/-- SMART / Health Information: its values come from Medium Health (R434). -/
def smartPage (f : Nat) (s : State) : List Byte × State :=
  let (b, s) := freeBytes 512 s
  let w := warnBits s
  let x := getCtrl s f
  let crit := w % 2 + (if x.hot then 2 else 0) + (if bitOf w 2 ∨ bitOf w 3 then 4 else 0) + (if bitOf w 1 then 8 else 0)
  ([(0, [BitVec.ofNat 8 crit]), (1, leBytes 2 (junctionNow s + 273)), (3, leBytes 1 s.flash.sparePct), (4, [10]),
    (5, leBytes 1 s.flash.pctUsed), (160, leBytes 16 (s.flash.recovery.getD 3 0)), (176, leBytes 16 x.errCount)].foldl overlay b, s)

/-- Firmware Slot Information: slots 1 and 2 are boot slots A and B. -/
def firmwarePage (s : State) : List Byte × State :=
  let m := s.mgmt
  let (v, s) := freeVal s
  let (r1, s) := freeBytes 8 s
  let (r2, s) := freeBytes 8 s
  let active := if m.running < 2 then m.running + 1 else v % 8
  let next := (selectSlot m).1
  let afi := active + (if next < 2 ∧ next ≠ m.running then (next + 1) * 16 else 0)
  let rev (i : Nat) (r : List Byte) : List Byte := if (slotAt m i).image.isSome then r else List.replicate 8 0
  (structOf 512 [(0, leBytes 1 afi), (8, rev 0 r1), (16, rev 1 r2)], s)

/-- Commands Supported and Effects: bit 0 says that an opcode is supported. -/
def effectsPage (f : Nat) (s : State) : List Byte × State :=
  let (b, s) := freeBytes 2048 s
  let entry (known : Bool) (o : Nat) : List Byte :=
    if known then leBytes 4 (leAt b (4 * o) 4 / 2 * 2 + 1) else [0, 0, 0, 0]
  let admin (o : Nat) : Bool := adminOps.contains o && (f == 0 || !(pf0Ops.contains o))
  let rows : List Byte :=
    ((List.range 256).flatMap fun o => entry (admin o) o) ++ ((List.range 256).flatMap fun o => entry (ioOps.contains o) (256 + o))
  (structOf 4096 [(0, rows)], s)

/-- Sanitize Status. -/
def sanitizePage (s : State) : List Byte × State :=
  let (b, s) := freeBytes 32 s
  let prog := if s.nvme.sanitize.isSome then leAt b 0 2 else 0xFFFF
  let stat := leAt b 2 2 / 8 * 8 + s.nvme.sanStat
  (structOf 512 [(0, b), (0, leBytes 2 prog ++ leBytes 2 stat ++ leBytes 4 s.nvme.sanCdw10)], s)

/-- A count of `n` bytes, which saturates (R433). -/
def satBytes (n v : Nat) : List Byte := leBytes n (min v (2 ^ (8 * n) - 1))

/-- Medium Health (R433). -/
def mediumPage (s : State) : List Byte :=
  let x := s.flash
  let (hi, lo) := eraseSpan false s
  structOf 512 [(0, leBytes 4 1), (4, leBytes 1 (blkState s pFTL)), (5, leBytes 1 (warnBits s)), (6, leBytes 1 x.family), (7, leBytes 1 x.pctUsed),
    (8, leBytes 2 x.dies.length), (0x0A, leBytes 2 (x.dies.filter fun e => e.2.lost).length), (0x0C, leBytes 1 x.sparePct), (0x0D, leBytes 1 x.rebuildPct),
    (0x10, satBytes 8 x.hostBytes ++ satBytes 8 x.medBytes),
    (0x20, satBytes 4 (x.avgErase false) ++ satBytes 4 hi ++ satBytes 4 lo ++ satBytes 4 (x.avgErase true)),
    (0x30, satBytes 4 x.factoryBad ++ satBytes 4 x.grown.sum), (0x38, x.recovery.flatMap (satBytes 8)), (0x58, x.reloc.flatMap (satBytes 8)),
    (0x68, x.powerUps.flatMap (satBytes 4)), (0x70, satBytes 4 x.lastMs), (0x78, leBytes 8 (x.usable * 2 ^ 30)), (0x80, x.grown.flatMap (satBytes 4))]

/-- Mirror Status: mirrored namespaces, owned or replicated, in NSID order. -/
def mirrorPage (s : State) : List Byte :=
  let entry (e : Nat × Ns) : List Byte :=
    leBytes 4 e.1 ++ leBytes 1 (if e.2.kind = 2 ∨ ¬ e.2.owned then 1 else 0) ++ leBytes 1 e.2.mirror ++ leBytes 1 e.2.policy ++ [0] ++
      leBytes 8 e.2.ackTick ++ leBytes 8 e.2.degBytes ++ leBytes 8 e.2.leftBytes
  structOf 512 [(0, (((s.nvme.nss.filter fun e => e.2.kind == 1 || !e.2.owned).take 16).flatMap entry))]

/-- Function Arbitration: one entry for each function. -/
def arbitrationPage (s : State) : List Byte :=
  (List.range 1012).flatMap fun f =>
    let x := getCtrl s f
    leBytes 8 x.total ++ leBytes 4 x.heldTicks ++ leBytes 4 (x.cmds.filter fun c => !c.begun).length

/-- A log page of a controller: status and bytes. Reading the Changed Namespace List clears it unless `keep`. -/
def logPage (f lid : Nat) (keep : Bool) (s : State) : (Nat × List Byte) × State :=
  match lid with
  | 0x01 => ((0, errorPage s f), s)
  | 0x02 => let (b, s) := smartPage f s; ((0, b), s)
  | 0x03 => let (b, s) := firmwarePage s; ((0, b), s)
  | 0x04 =>
    let x := getCtrl s f
    ((0, numList 4 x.changed), if keep then s else putCtrl f { x with changed := [] } s)
  | 0x05 => let (b, s) := effectsPage f s; ((0, b), s)
  | 0x81 => let (b, s) := sanitizePage s; ((0, b), s)
  | 0xC0 => ((0, mediumPage s), s)
  | 0xC1 => ((0, mirrorPage s), s)
  | 0xC2 => if f = 0 then ((0, arbitrationPage s), s) else ((nv.LOG_PAGE, []), s)
  | _ => ((nv.LOG_PAGE, []), s)

/-- GET_LOG_PAGE: a length from an offset; what lies past the page's end is open. -/
def execGetLogPage (t func sq cid : Nat) (segs : List (Nat × Nat)) (fail : Bool) (s : State) : Host.Outcome State Fault Refusal :=
  .next <|
    runNvme t func sq cid true (fun c => c.op == 2) (fun c s =>
      let lid := bitsOf (c.d 10) 0 8
      let len := 4 * (bitsOf (c.d 10) 16 16 + 65536 * bitsOf (c.d 11) 0 16 + 1)
      let off := c.d 12 + 2 ^ 32 * c.d 13
      let ((st, page), s') := logPage func lid (bitOf (c.d 10) 15 || fail) s
      let st := if st ≠ 0 then st
        else if lid = 2 ∧ c.nsid ≠ 0 ∧ c.nsid ≠ 0xFFFFFFFF then nv.FIELD
        else if off % 4 ≠ 0 ∨ page.length < off then nv.FIELD
        else if fail then nv.TRANSFER
        else 0
      if st ≠ 0 then endNvme func c st 0 (if st = nv.TRANSFER then nvmeFetchFail func s else s)
      else
        let (pad, s) := freeBytes (min (segs.map (·.2)).sum len - (page.length - off)) s'
        endNvme func c 0 0 (dmaSegs func segs ((page.drop off).take len ++ pad) s)) s

end Sys2Proof.Machine
end

