-- ==== Sys2Proof/Machine/Post.lean ====
section
/-! DEFINITION. The power-on self-test's end, and the loading of the firmware's components (R536 to R539, R567). -/

namespace Sys2Proof.Machine

/-- The MSS loads the components of an image: deck-core and data components into each named core's local SRAM; the
stream-core component into the LPDDR5X and then into every tile's STREAM region (R564, R567). -/
def loadParts (parts : List FwPart) (s : State) : State :=
  parts.foldl (fun s p =>
    if p.ty = 2 ∨ p.ty = 4 then
      forN 4 s fun d s => if bitOf p.cores d then { s with mem := memWrite s.mem (deckKey d p.load) p.bytes } else s
    else if p.ty = 3 then
      forN 32 (putDram Config.fwCopy p.bytes s) fun t s =>
        { s with mem := memWrite s.mem (sliceKey t (regionBase s t 0 + p.load)) p.bytes }
    else s) s

/-- The components are loaded and the deck cores and stream cores that the main domain runs start. -/
def startParts (parts : List FwPart) (s : State) : State :=
  forN 36 (loadParts parts s) fun i s => if i < 32 then startStream i s else resetCore i .running s

/-- The main domain is held in reset with PWR_OK asserted: ALERT_N, and the failing unit logged (R539). -/
def holdPost (p : Page) (unit : Nat) (s : State) : State :=
  let s := mainReset s
  let s := setMgmt s fun m => { m with hold := true }
  logEvent 0x0007 (some p) [unit] (setAlert 3 true s)

/-- POST_DONE: the self-test of the power-up has ended. `tiles`: those that failed; `other`: another unit that failed;
`packages`: LPDDR5X packages that failed, the lowest logged for its MEMC page; `fails`: failing locations of memories, repaired where a spare is left. A failing tile is fenced, and the device starts without it;
any other failure, or more than four failing tiles, holds the main domain (R539). -/
def execPostDone (t : Nat) (tiles : List Nat) (other : Option Nat) (packages : List Nat) (fails : List MbistFail) (s : State) :
    Host.Outcome State Fault Refusal :=
  .next <|
    let s := atTime t s
    if s.power.phase ≠ .running ∨ s.mgmt.posted ∨ s.mgmt.hold then s
    else
      let (s, bad) := fails.foldl (fun a f =>
        let r := mbistFound f a.1
        (r.1, if r.2 then addSorted f.unit a.2 else a.2)) (s, [])
      let failed := (List.range 32).filter fun i => tiles.contains i || bad.contains i
      let shared := match other with
        | some u => some u
        | none => bad.find? fun u => decide (32 ≤ u)
      match shared, (List.range 16).find? packages.contains with
      | some u, _ => holdPost pINTG u s
      | none, some m => holdPost (pMEMC m) m s
      | none, none =>
        if 4 < failed.length then holdPost pINTG (failed.headD 0) s
        else
          let s := failed.foldl (fun s i => faultTile i 1 s) s
          let s := setRegN s pINTG R.INTG.POST_STAT (2 ^ 31 + failed.length)
          let s := forN 16 s fun m s =>
            setRegN (setBlkState s (pMEMC m) 1) (pMEMC m) R.MEMC.STAT (10667 * 2 ^ 16 + 0xF0 + 1)
          let s := startParts (match s.mgmt.fw with | some x => x.parts | none => []) s
          watchStat (setMgmt s fun m => { m with posted := true })

end Sys2Proof.Machine
end

