-- ==== Sys2Proof/Machine/Update.lean ====
section
/-! DEFINITION. The management subsystem: sensors, the event log, ready, the MCTP and I3C assignments, recovery, firmware updates
by PLDM and by NVMe, and the splice's end (R404, R407, R546, R549 to R583). -/

namespace Sys2Proof.Machine

/-! ### Sensors (R546, R551) -/

/-- The package of sensors 80 to 95 doubles its refresh rate at 85 °C and returns at 80 °C (R546). -/
def derate (m : Nat) (v : Int) (s : State) : State :=
  let on := fld s (pMEMC m) R.MEMC.STAT 1 1
  if on = 0 ∧ 85 ≤ v then penBit (pMEMC m) 4 (setFld s (pMEMC m) R.MEMC.STAT 1 1 1)
  else if on = 1 ∧ v ≤ 80 then setFld s (pMEMC m) R.MEMC.STAT 1 1 0
  else s

/-- Which of a sensor's limits a reading is beyond: upper warning, critical, fatal, then the three lower ones. -/
def beyondOf (l : List (Option Int)) (v : Int) : List Bool :=
  (enumFrom 0 l).map fun e => match e.2 with
    | some x => if e.1 < 3 then decide (x ≤ v) else decide (v ≤ x)
    | none => false

/-- PLDM's state number of a numeric sensor: 1 normal, 5 to 7 lower, 8 to 10 upper warning, critical and fatal. -/
def sensorState (b : List Bool) : Nat :=
  if b.getD 2 false then 10 else if b.getD 1 false then 9 else if b.getD 0 false then 8
  else if b.getD 5 false then 7 else if b.getD 4 false then 6 else if b.getD 3 false then 5 else 1

/-- A 32-bit signed reading. -/
def int32 (v : Int) : List Byte := leBytes 4 ((v % (2 ^ 32 : Int)).toNat)

/-- A reading against the thresholds set for the sensor: a crossing sets SENSOR_ALARM and sends a sensor event (R551). -/
def checkSensor (id : Nat) (v : Int) (s : State) : State :=
  match mget s.mgmt.thresholds id with
  | none => s
  | some x =>
    let b := beyondOf x.limits v
    if b = x.beyond then s
    else
      let s := setMgmt s fun m => { m with thresholds := mput m.thresholds id { x with beyond := b } }
      platformEvent 0 (leBytes 2 id ++ [2] ++ leBytes 1 (sensorState b) ++ leBytes 1 (sensorState x.beyond) ++ [5] ++ int32 v)
        (penBit pMSS 7 s)

/-- SENSOR_SAMPLE: a sensor reads `v` in its resolution. -/
def execSensorSample (t id : Nat) (v : Int) (s : State) : Host.Outcome State Fault Refusal :=
  .next <|
    let s := atTime t s
    if ¬ isSensor id then s
    else
      let s := setMgmt s fun m => { m with sensors := mput m.sensors id v }
      let s := if 80 ≤ id ∧ id ≤ 95 then derate (id - 80) v s else s
      checkSensor id v s

/-! ### The event log and ready (R552, R553, R566, R568) -/

/-- LOG_COMMIT: an entry reaches the boot flash. -/
def execLogCommit (t seq : Nat) (s : State) : Host.Outcome State Fault Refusal :=
  .next <|
    let s := atTime t s
    { s with log := s.log.map fun e => if e.seq = seq then { e with committed := true } else e }

/-- BOOT_READY: after the self-test, the firmware is ready (R34, R36): ATTEMPTS is cleared, C0 rises where the image says so,
and the boot is logged. -/
def execBootReady (t : Nat) (s : State) : Host.Outcome State Fault Refusal :=
  .next <|
    let s := atTime t s
    if s.power.phase ≠ .running ∨ ¬ s.mgmt.posted ∨ s.mgmt.ready then s
    else
      let k := s.mgmt.running
      let s := setMgmt s fun m => { m with ready := true, slots := if k < 2 then m.slots.set k { slotAt m k with attempts := 0 } else m.slots }
      let s := applyArb { s with power := { s.power with fwReady := [true, true] } }
      showMss (logEvent 0x0001 none [k, reg s pMSS R.MSS.FW_VER] s)

/-! ### Sideband assignments (R549, R550, R572) -/

/-- A frame arrives on the sideband: line 1 of the MSS. -/
def sideFrame (s : State) : State := raiseLine 36 1 s

/-- A sideband medium answers: the UART in recovery only, PCIe VDM while the deck-core firmware is ready (R549, R550, R570). -/
def busOpen (s : State) (b : SideBus) : Bool :=
  s.power.alwaysOn && (match b with
    | .i3c => true
    | .smbus => true
    | .uart => s.mgmt.running == 2
    | .pcie => s.power.fwReady.getD 0 false
    | .doe => s.power.fwReady.getD 0 false)

def busNum : SideBus → Nat
  | .i3c => 0 | .smbus => 1 | .pcie => 2 | .uart => 3 | .doe => 4

/-- SET_ENDPOINT_ID: operation 0 sets and 1 forces the identifier, 2 and 3 are answered without a change (there is no static
or discovered one). Answered with the completion code, the status and the identifier. -/
def execSetEndpointId (bus : SideBus) (op eid : Nat) (s : State) : Host.Outcome State Fault Refusal :=
  .next <|
    if ¬ busOpen s bus ∨ bus = .doe then s
    else
      let s := sideFrame s
      let old := mgetD s.mgmt.eids (busNum bus) 0
      let bad := decide (op < 2) && (eid == 0 || decide (255 ≤ eid))
      let set := decide (op < 2) && !bad
      let s := if set then setMgmt s fun m => { m with eids := mput m.eids (busNum bus) eid } else s
      emit (.sideband "MCTP" "SetEndpointID" (if bad then [2] else [0, 0] ++ leBytes 1 (if set then eid else old) ++ [0])) s

/-- DYNAMIC_ADDRESS_ASSIGN: SETDASA, or ENTDAA, of a module that has no dynamic address yet. -/
def execDynamicAddressAssign (addr : Nat) (static : Bool) (s : State) : Host.Outcome State Fault Refusal :=
  .next <|
    let _ := static
    if ¬ s.power.alwaysOn ∨ s.mgmt.dynAddr.isSome ∨ 128 ≤ addr then s
    else setMgmt s fun m => { m with dynAddr := some addr }

/-! ### Recovery (R570) -/

/-- RECOVERY_REQUEST: the MSS runs the recovery loader; the main domain goes down and stays off. A loader that fails its check
leaves the ROM. -/
def execRecoveryRequest (t : Nat) (s : State) : Host.Outcome State Fault Refusal :=
  .next <|
    let s := atTime t s
    if ¬ s.power.alwaysOn then s
    else
      let s := sideFrame s
      if s.mgmt.running = 2 then s
      else
        let s := breakSplice s
        let s := match s.power.phase with
          | .running => startShutdown 0 s
          | .off => s
          | .shutdown => s
          | _ => mainOff s
        let (why, s) := freeVal s
        let s := logEvent 0x0003 none [why % 256] (setAlert 5 true s)
        showMss (startMssPart (setMgmt s fun m => { m with
          running := 2, fw := m.loader.filter (imageOk m), fallback := false, ready := false, update := none }))

/-! ### Updates (R404, R407, R583) -/

/-- Component `i` of an image's bytes, by its row of the component table (R564). -/
def parsePart (b : List Byte) (i : Nat) : FwPart :=
  let o := 0x40 + 64 * i
  { ty := leAt b o 1, cores := leAt b (o + 1) 1, load := leAt b (o + 12) 4, hash := (b.drop (o + 16)).take 48
    bytes := (b.drop (leAt b (o + 4) 4)).take (leAt b (o + 8) 4) }

/-- The image in a run of bytes, with what its signature check found. -/
def parseImage (b : List Byte) (chk : ImgCheck) : FwImage :=
  let parts := (List.range (min 16 (leAt b 0x10 1))).map (parsePart b)
  { hdr := b.take 0x440, trail := (b.drop 0x440).take 440, keyIdx := leAt b 0x440 1, parts := parts
    table := (b.drop (leAt b 0x18 4)).take (leAt b 0x1C 4), zero := allZero ((b.drop 0x46D8).take (0x5000 - 0x46D8))
    trailer := chk.trailer, hashes := parts.all fun p => sha384 p.bytes == p.hash }

/-- The slot that is not running; with the recovery loader, the one of lower SEQ. -/
def spareSlot (m : Mgmt) : Nat :=
  if m.running = 0 then 1 else if m.running = 1 then 0 else if (slotAt m 1).seq < (slotAt m 0).seq then 1 else 0

/-- A slot is written: its record no longer names the image in it. -/
def writeSlot (k : Nat) (x : FwImage) (s : State) : State :=
  setMgmt s fun m => { m with slots := m.slots.set k { slotAt m k with image := some x, record := false, attempts := 0 } }

/-- A slot's record is written with its SEQ one above the other slot's: the ROM selects it at its next start (R565, R583). -/
def raiseSlot (k : Nat) (s : State) : State :=
  setMgmt s fun m => { m with
    slots := m.slots.set k { slotAt m k with seq := (slotAt m (1 - k)).seq + 1, record := true, attempts := 0 } }

/-- The configuration block in a run of bytes passes its check (R562). -/
def configOk (m : Mgmt) (b : List Byte) (trailer : Bool) : Bool :=
  leAt b 0 4 == 0x47464345 && leAt b 4 1 == 1 && leAt b 8 8 == Config.unitId % 2 ^ 64 && decide (m.c1 ≤ leAt b 0x10 4) && trailer &&
    keysOk (leAt b 0x9C0 1) (leAt b 0x14 1)

/-- A signed byte. -/
def intOfByte (b : Byte) : Int := if b.toNat < 128 then (b.toNat : Int) else (b.toNat : Int) - 256

/-- A qualification record of 304 bytes (R562). -/
def parseQual (b : List Byte) : QualRecord :=
  let levels := leAt b 0x15 1
  { maker := leAt b 0 1, family := leAt b 1 1, cellBits := leAt b 2 1, luns := leAt b 3 1, pageBytes := leAt b 4 4
    spareBytes := leAt b 8 2, pagesPerBlock := leAt b 0xC 4, blocksPerLun := leAt b 0x10 4, levels := levels
    model := (b.drop 0x20).take 20
    retry := (List.range (min 15 (leAt b 0x14 1))).map fun i => ((b.drop (0x40 + 16 * i)).take (min 16 levels)).map intOfByte }

/-- The configuration block in a run of bytes (R562). -/
def parseConfig (b : List Byte) : CfgBlock := {
  version := leAt b 0x10 4, keyFloor := leAt b 0x14 1, host := leAt b 0x15 1, debug := leAt b 0x16 1
  totalVfs := (List.range 4).map fun i => leAt b (0x18 + 2 * i) 2, valid := true, raw := some b
  qual := (List.range (min 8 (leAt b 0x17 1))).map fun i => parseQual ((b.drop (0x40 + 304 * i)).take 304) }

/-- REQUEST_UPDATE: answered with the completion code; one update at a time, and none during a splice (R576, R583). -/
def execRequestUpdate (t : Nat) (s : State) : Host.Outcome State Fault Refusal :=
  .next <|
    let s := atTime t s
    if ¬ s.power.alwaysOn then s
    else
      let s := sideFrame s
      if s.mgmt.splice.isSome ∨ s.mgmt.update.isSome then emit (.sideband "PLDM" "RequestUpdate" [0x81]) s
      else
        let (b, s) := freeBytes 3 s
        emit (.sideband "PLDM" "RequestUpdate" (0 :: b)) (setMgmt s fun m => { m with update := some { path := 1, done := [] } })

/-- A component that was written. -/
def componentDone (comp : Nat) (u : FwUpdate) (s : State) : State :=
  penBit pMSS 8 (setMgmt s fun m => { m with update := some { u with done := addSorted comp u.done } })

/-- UPDATE_COMPONENT: the bytes of a component of the PLDM update have arrived. A firmware image is written to the slot that
is not running, a configuration block and a recovery loader after their checks (R583). In ROM recovery only the loader is
accepted, and it runs, but where the boot flash refused the root key (R558). -/
def execUpdateComponent (t comp : Nat) (bytes : List Byte) (chk : ImgCheck) (s : State) : Host.Outcome State Fault Refusal :=
  .next <|
    let s := atTime t s
    match s.mgmt.update with
    | none => s
    | some u =>
      let x := parseImage bytes chk
      let rom := s.mgmt.running == 2 && s.mgmt.fw.isNone
      if u.path ≠ 1 then s
      else if comp = 1 ∧ ¬ rom then componentDone 1 u (writeSlot (spareSlot s.mgmt) x s)
      else if comp = 2 ∧ ¬ rom ∧ configOk s.mgmt bytes chk.trailer then
        componentDone 2 u (setMgmt s fun m => { m with
          pendCfg := some (parseConfig bytes) })
      else if comp = 3 ∧ imageOk s.mgmt x then
        if rom then if s.mgmt.rootRefused then s else showMss (startMssPart (setMgmt s fun m => { m with fw := some x }))
        else componentDone 3 u (setMgmt s fun m => { m with loader := some x })
      else s

/-- ACTIVATE_FIRMWARE: ends the PLDM update. A written image takes effect by splice where self-contained activation is
requested, else at the next main reset, its SEQ raised. -/
def execActivateFirmware (t : Nat) (self : Bool) (s : State) : Host.Outcome State Fault Refusal :=
  .next <|
    let s := atTime t s
    let answer (b : List Byte) (s : State) : State := emit (.sideband "PLDM" "ActivateFirmware" b) s
    if ¬ s.power.alwaysOn then s
    else
      let s := sideFrame s
      match s.mgmt.update with
      | none => answer [0x80] s
      | some u =>
        if u.path ≠ 1 then answer [0x80] s
        else if u.done = [] then answer [0x83] s
        else
          let k := spareSlot s.mgmt
          let image := u.done.contains 1
          if image ∧ self ∧ s.power.phase ≠ .running then answer [0x86] s
          else
            let s := setMgmt s fun m => { m with update := none }
            let (w, s) := freeBytes 2 s
            let s := answer (0 :: w) s
            if ¬ image then s else if self then startSplice k none s else raiseSlot k s

/-- FIRMWARE_IMAGE_DOWNLOAD: a piece of an image, in units of 4 KiB (R404); refused while a PLDM update runs (R583). -/
def execFirmwareImageDownload (t func sq cid : Nat) (data : List Byte) (fail : Bool) (s : State) :
    Host.Outcome State Fault Refusal :=
  .next <|
    runNvme t func sq cid true (fun c => c.op == 0x11) (fun c s =>
      let len := 4 * (c.d 10 + 1)
      let off := 4 * c.d 11
      if func ≠ 0 then endNvme func c nv.OPCODE 0 s
      else if len % 4096 ≠ 0 ∨ off % 4096 ≠ 0 then endNvme func c nv.FIELD 0 s
      else if fail then endNvme func c nv.TRANSFER 0 (nvmeFetchFail func s)
      else match s.mgmt.update with
        | some ⟨1, _⟩ => endNvme func c 0x0C 0 s
        | _ =>
          let s := setMgmt s fun m => { m with update := some { path := 2, done := [] } }
          endNvme func c 0 0 (setNvme s fun n => { n with image := mput n.image off (data.take len) })) s

/-- The bytes of the downloaded pieces, 0 where none lies. -/
def downloaded (l : List (Nat × List Byte)) : List Byte :=
  structOf (l.foldl (fun n e => max n (e.1 + e.2.length)) 0) l

/-- A downloaded image replaces the image in slot `k` without being activated: its record names it, with a SEQ below the
other slot's. -/
def storeSlot (k : Nat) (x : FwImage) (s : State) : State :=
  setMgmt s fun m => { m with
    slots := m.slots.set k { slotAt m k with
      image := some x, record := true, attempts := 0
      seq := if k = m.running then (slotAt m k).seq else (slotAt m (1 - k)).seq - 1 } }

/-- FIRMWARE_COMMIT: commit actions 0 to 2 on boot flash slots, and 3, the splice (R407, R576). Slot 0 lets the device choose
the one that is not running. -/
def execFirmwareCommit (t func sq cid : Nat) (chk : ImgCheck) (s : State) : Host.Outcome State Fault Refusal :=
  .next <|
    runNvme t func sq cid true (fun c => c.op == 0x10) (fun c s =>
      let fs := bitsOf (c.d 10) 0 3
      let act := bitsOf (c.d 10) 3 3
      let k := if fs = 0 then spareSlot s.mgmt else fs - 1
      let new := if s.nvme.image = [] then none else some (parseImage (downloaded s.nvme.image) chk)
      let fresh (s : State) : State :=
        setMgmt (setNvme s fun n => { n with image := [] }) fun m => { m with
          update := match m.update with | some ⟨2, _⟩ => none | u => u }
      if func ≠ 0 then endNvme func c nv.OPCODE 0 s
      else if s.mgmt.splice.isSome then endNvme func c 0x113 0 s
      else if 3 < act then endNvme func c nv.FIELD 0 s
      else if 2 < fs ∨ (act = 3 ∧ k = s.mgmt.running) then endNvme func c 0x106 0 s
      else if act = 2 then
        if slotIntact s.mgmt k then endNvme func c 0 0 (raiseSlot k s) else endNvme func c 0x107 0 s
      else if act = 3 then
        let s := match new with | some x => fresh (writeSlot k x s) | none => s
        startSplice k (some (func, c.num)) s
      else match new with
        | none => endNvme func c 0x107 0 s
        | some x =>
          if ¬ imageOk s.mgmt x then endNvme func c 0x107 0 (fresh s)
          else
            let s := storeSlot k x (fresh s)
            endNvme func c 0 0 (if act = 1 then raiseSlot k s else s)) s

/-! ### The splice's end (R575 to R577) -/

/-- The cores go on in the new image: its components are loaded, the MSS's too, and each core that was not stopped starts in it.
Engines, queues and result rings run on. -/
def enterImage (parts : List FwPart) (s : State) : State :=
  forN 37 (loadMssPart parts (loadParts parts s)) fun i s => match (getCore s i).act with
    | .stopped _ => s
    | .held => s
    | _ => putCore i (Core.reset .running) s

/-- SPLICE_COMMIT: while it hands over, every block handed over is among the `accepted`. The new compartments run from the new image. -/
def execSpliceCommit (t : Nat) (accepted : List Nat) (s : State) : Host.Outcome State Fault Refusal :=
  .next <|
    let s := atTime t s
    match s.mgmt.splice with
    | none => s
    | some x =>
      let parts := match (slotAt s.mgmt x.slot).image with | some y => y.parts | none => []
      if deckPaused s ∧ (handedOver s.mgmt).all accepted.contains then commitSplice x (enterImage parts s) else s

/-- SPLICE_ROLLBACK: a block is rejected (3), an acceptance is missing at edge T + 4 (4, told as that edge falls, before its
steps), or a new compartment raised an
exception or stopped (5). A sag, a reset request or a trip (6) rolls back in its own event. -/
def execSpliceRollback (t reason core comp : Nat) (s : State) : Host.Outcome State Fault Refusal :=
  .next <|
    let s := atTime t s
    match s.mgmt.splice with
    | none => s
    | some x =>
      if ¬ deckPaused s ∨ reason < 3 ∨ 5 < reason then s
      else if reason = 4 ∧ (s.tick.count < x.at_ + 3 ∨ t < s.tick.edgeAt + s.tick.len) then s
      else rollSplice reason core comp s

end Sys2Proof.Machine
end

