-- ==== Sys2Proof/Machine/Pldm.lean ====
section
/-! DEFINITION. PLDM: base, and platform monitoring and control (R551, R582). Requests carry their payload, and answers the
completion code and the payload; the three header bytes are left out. Layouts and codes are those of the DMTF specifications
the chapter names (PRESUMED). -/

namespace Sys2Proof.Machine

/-- A PLDM request arrives on a medium and is answered. -/
def pldm (t : Nat) (b : SideBus) (name : String) (f : State → List Byte × State) (s : State) : State :=
  let s := atTime t s
  if ¬ busOpen s b ∨ b = .doe then s
  else
    let (r, s) := f (sideFrame s)
    emit (.sideband "PLDM" name r) s

/-- GET_TID. -/
def execGetTid (t : Nat) (bus : SideBus) (_req : List Byte) (s : State) : Host.Outcome State Fault Refusal :=
  .next (pldm t bus "GetTID" (fun s => (0 :: leBytes 1 s.mgmt.tid, s)) s)

/-- SET_TID: 0 and 0xFF are no terminus identifiers. -/
def execSetTid (t : Nat) (bus : SideBus) (req : List Byte) (s : State) : Host.Outcome State Fault Refusal :=
  .next <| pldm t bus "SetTID" (fun s =>
    let v := leAt req 0 1
    if v = 0 ∨ v = 255 then ([2], s) else ([0], setMgmt s fun m => { m with tid := v })) s

/-- GET_PLDM_VERSION: types 0, 2 (1.3) and 5 (1.3); the version of type 0 is not stated. -/
def execGetPldmVersion (t : Nat) (bus : SideBus) (req : List Byte) (s : State) : Host.Outcome State Fault Refusal :=
  .next <| pldm t bus "GetPLDMVersion" (fun s =>
    let ty := leAt req 5 1
    if ty ≠ 0 ∧ ty ≠ 2 ∧ ty ≠ 5 then ([0x83], s)
    else
      let (x, s) := freeBytes 4 s
      let v := if ty = 0 then x else leBytes 4 0xF1F3F000
      ([0, 0, 0, 0, 0, 5] ++ v ++ leBytes 4 (crc32 v), s)) s

/-- GET_PLDM_TYPES: base, platform, firmware update. -/
def execGetPldmTypes (t : Nat) (bus : SideBus) (_req : List Byte) (s : State) : Host.Outcome State Fault Refusal :=
  .next (pldm t bus "GetPLDMTypes" (fun s => (0 :: leBytes 8 0x25, s)) s)

/-- GET_PLDM_COMMANDS: the commands R582 lists; those of firmware update are not listed. -/
def execGetPldmCommands (t : Nat) (bus : SideBus) (req : List Byte) (s : State) : Host.Outcome State Fault Refusal :=
  .next <| pldm t bus "GetPLDMCommands" (fun s =>
    let bits (l : List Nat) : List Byte := 0 :: leBytes 32 (l.foldl (fun a b => a + 2 ^ b) 0)
    match leAt req 0 1 with
    | 0 => (bits [1, 2, 3, 4, 5], s)
    | 2 => (bits [0x04, 0x0A, 0x0B, 0x11, 0x12, 0x13, 0x31, 0x32, 0x50, 0x51], s)
    | 5 => let (x, s) := freeBytes 32 s; (0 :: x, s)
    | _ => ([0x83], s)) s

/-! ### The repository -/

/-- GET_PDR: the record of a handle; handle 0 asks for the first. A part is as long as asked for. -/
def execGetPdr (t : Nat) (bus : SideBus) (req : List Byte) (s : State) : Host.Outcome State Fault Refusal :=
  .next <| pldm t bus "GetPDR" (fun s =>
    let h := leAt req 0 4
    let from_ := if leAt req 8 1 = 1 then 0 else leAt req 4 4
    let n := min (leAt req 9 2) (Config.pdrLen h - from_)
    if Config.pdrLen h ≤ from_ then ([0x82], s)
    else
      let last := from_ + n = Config.pdrLen h
      let flag := if from_ = 0 then (if last then 5 else 0) else if last then 4 else 1
      ([0] ++ leBytes 4 (Config.pdrNext h) ++ leBytes 4 (if last then 0 else from_ + n) ++ leBytes 1 flag ++ leBytes 2 n ++
        (List.range n).map fun i => Config.pdr h (from_ + i), s)) s

/-- GET_PDR_REPOSITORY_INFO: available; times, counts and sizes are not stated. -/
def execGetPdrRepositoryInfo (t : Nat) (bus : SideBus) (_req : List Byte) (s : State) : Host.Outcome State Fault Refusal :=
  .next (pldm t bus "GetPDRRepositoryInfo" (fun s => let (x, s) := freeBytes 39 s; ([0, 0] ++ x, s)) s)

/-! ### Sensors -/

/-- GET_SENSOR_READING. -/
def execGetSensorReading (t : Nat) (bus : SideBus) (req : List Byte) (s : State) : Host.Outcome State Fault Refusal :=
  .next <| pldm t bus "GetSensorReading" (fun s =>
    let id := leAt req 0 2
    if ¬ isSensor id then ([0x80], s)
    else
      let st := match mget s.mgmt.thresholds id with | some x => sensorState x.beyond | none => 1
      ([0, 5, 0, 0] ++ leBytes 1 st ++ leBytes 1 st ++ leBytes 1 st ++ int32 (sensorValue s id), s)) s

/-- A signed number of a PLDM data size: 0 and 1 one byte, 2 and 3 two, 4 and 5 four; odd sizes are signed. -/
def pldmInt (size : Nat) (b : List Byte) (i : Nat) : Int :=
  let n := 2 ^ (size / 2)
  let v := leAt b (i * n) n
  if size % 2 = 1 ∧ 2 ^ (8 * n - 1) ≤ v then (v : Int) - 2 ^ (8 * n) else v

/-- SET_SENSOR_THRESHOLDS: upper warning, critical and fatal, then the three lower ones. -/
def execSetSensorThresholds (t : Nat) (bus : SideBus) (req : List Byte) (s : State) : Host.Outcome State Fault Refusal :=
  .next <| pldm t bus "SetSensorThresholds" (fun s =>
    let id := leAt req 0 2
    let size := leAt req 2 1
    if ¬ isSensor id then ([0x80], s)
    else if 5 < size then ([2], s)
    else
      let l := (List.range 6).map fun i => some (pldmInt size (req.drop 3) i)
      ([0], setMgmt s fun m => { m with
        thresholds := mput m.thresholds id { limits := l, beyond := beyondOf l (sensorValue s id) } })) s

/-- GET_SENSOR_THRESHOLDS: limits never set are open values. -/
def execGetSensorThresholds (t : Nat) (bus : SideBus) (req : List Byte) (s : State) : Host.Outcome State Fault Refusal :=
  .next <| pldm t bus "GetSensorThresholds" (fun s =>
    let id := leAt req 0 2
    if ¬ isSensor id then ([0x80], s)
    else match mget s.mgmt.thresholds id with
      | some x => ([0, 5] ++ x.limits.flatMap fun v => int32 (v.getD 0), s)
      | none => let (x, s) := freeBytes 24 s; ([0, 5] ++ x, s)) s

/-! ### Events -/

/-- SET_EVENT_RECEIVER: 0 none, 1 and 3 sent, 2 polled. -/
def execSetEventReceiver (t : Nat) (bus : SideBus) (req : List Byte) (s : State) : Host.Outcome State Fault Refusal :=
  .next <| pldm t bus "SetEventReceiver" (fun s =>
    let mode := leAt req 0 1
    if 3 < mode then ([0x81], s)
    else if mode ≠ 0 ∧ leAt req 1 1 ≠ 0 then ([0x80], s)
    else
      let set (m : Mgmt) : Mgmt := { m with receiver := if mode = 0 then none else some (leAt req 2 1), polling := mode == 2, events := [] }
      ([0], setMgmt s set)) s

/-- POLL_FOR_PLATFORM_EVENT_MESSAGE: the event acknowledged goes, and the oldest that waits is returned. -/
def execPollForPlatformEventMessage (t : Nat) (bus : SideBus) (req : List Byte) (s : State) : Host.Outcome State Fault Refusal :=
  .next <| pldm t bus "PollForPlatformEventMessage" (fun s =>
    let acked := leAt req 6 2
    let s := if acked = 0 then s else setMgmt s fun m => { m with events := m.events.filter fun e => e.1 != acked }
    let tid := leBytes 1 s.mgmt.tid
    match s.mgmt.events with
    | [] => ([0] ++ tid ++ [0, 0], s)
    | (n, b) :: _ =>
      let data := b.drop 1
      ([0] ++ tid ++ leBytes 2 n ++ leBytes 4 0 ++ [5] ++ b.take 1 ++ leBytes 4 data.length ++ data ++ leBytes 4 (crc32 data), s)) s

/-! ### Effecters -/

/-- The field of PWR.CAP_MGMT an effecter writes: LIMIT_W or EXC_MS. -/
def effecterField (id : Nat) : Option (Nat × Nat) := if id = 1 then some (0, 16) else if id = 2 then some (16, 4) else none

/-- SET_NUMERIC_EFFECTER_VALUE: the field's shadow is written and the PWR page's commit requested (R48, R49, R74). -/
def execSetNumericEffecterValue (t : Nat) (bus : SideBus) (req : List Byte) (s : State) : Host.Outcome State Fault Refusal :=
  .next <| pldm t bus "SetNumericEffecterValue" (fun s =>
    match effecterField (leAt req 0 2) with
    | none => ([0x80], s)
    | some (lo, n) =>
      let size := leAt req 2 1
      let v := leAt req 3 (2 ^ (size / 2))
      if 5 < size ∨ 2 ^ n ≤ v then ([2], s)
      else
        let off := R.PWR.CAP_MGMT
        let s := setShadow s pPWR off (BitVec.ofNat 32 (withBits (getShadow s pPWR off).toNat lo n v))
        ([0], commitReq t pPWR s)) s

/-- GET_NUMERIC_EFFECTER_VALUE: the pending value is the shadow, the present one the value in force. -/
def execGetNumericEffecterValue (t : Nat) (bus : SideBus) (req : List Byte) (s : State) : Host.Outcome State Fault Refusal :=
  .next <| pldm t bus "GetNumericEffecterValue" (fun s =>
    match effecterField (leAt req 0 2) with
    | none => ([0x80], s)
    | some (lo, n) =>
      let sh := bitsOf (getShadow s pPWR R.PWR.CAP_MGMT).toNat lo n
      ([0, 2] ++ (if mget s.commits (pageAt pPWR 0) = none then [1] else [0]) ++ leBytes 2 sh ++ leBytes 2 (fld s pPWR R.PWR.CAP_MGMT lo n), s)) s

end Sys2Proof.Machine
end

