-- ==== Sys2Proof/Machine/Spdm.lean ====
section
/-! DEFINITION. The SPDM responder (R578 to R580). The message layouts and codes are those of the DMTF specification the
chapter names (PRESUMED); keys, nonces, certificates and signatures are open bytes. -/

namespace Sys2Proof.Machine

def getConn (s : State) (b : SideBus) : SpdmConn := mgetD s.mgmt.spdm (busNum b) SpdmConn.reset

def putConn (b : SideBus) (x : SpdmConn) (s : State) : State :=
  setMgmt s fun m => { m with spdm := mputD m.spdm (busNum b) SpdmConn.reset x }

/-- A message: version 1.3, code and two parameters. -/
def spdmMsg (code p1 p2 : Nat) (body : List Byte) : List Byte := [0x13, BitVec.ofNat 8 code, BitVec.ofNat 8 p1, BitVec.ofNat 8 p2] ++ body

def spdmError (code : Nat) : List Byte := spdmMsg 0x7F code 0 []

/-- A request's answer: the response and the state after it. -/
abbrev SpdmFn : Type := SideBus → Option Nat → Nat → List Byte → State → List Byte × State

/-- Fixed bytes of the identity, from an offset. -/
def attestBytes (k off n : Nat) : List Byte := (List.range n).map fun i => Config.attest k (off + i)

/-- A signed response of a kind has been sent: kept until the next one or GET_VERSION (R580). -/
def keepSigned (b : SideBus) (ref t key : Nat) (s : State) : State :=
  let x := getConn s b
  putConn b { x with signed := mput x.signed ref (t, key) } s

/-- The body of a request that needs a version, and, past negotiation, one that needs the algorithms. -/
def needPhase (n : Nat) (f : SpdmFn) : SpdmFn := fun b sess t req s =>
  if leAt req 0 1 ≠ 0x13 then (spdmError 0x41, s)
  else if (getConn s b).phase < n then (spdmError 0x04, s)
  else f b sess t req s

/-- A request carried in a session: established, or in its handshake. -/
def needSession (open_ : Bool) (f : Nat → SpdmFn) : SpdmFn := fun b sess t req s =>
  match sess with
  | none => (spdmError 0x0B, s)
  | some i =>
    if (getConn s b).sessions.any fun e => e.1 == i && e.2.1 == open_ then
      f i b sess t req (putConn b { getConn s b with sessions := (getConn s b).sessions.map fun e => if e.1 = i then (i, e.2.1, t) else e } s)
    else (spdmError 0x04, s)

/-! ### Connection and identity -/

/-- VERSION: 1.3. GET_VERSION starts the connection anew. -/
def spdmVersion : SpdmFn := fun b sess _ req s =>
  if sess.isSome then (spdmError 0x04, s)
  else if leAt req 0 1 ≠ 0x10 then (spdmError 0x41, s)
  else ([0x10, 0x04, 0, 0, 0, 1, 0x00, 0x13], putConn b { SpdmConn.reset with phase := 1 } s)

/-- CAPABILITIES: CERT, CHAL, MEAS with signature, ENCRYPT, MAC, KEY_EX, HBEAT, KEY_UPD, CHUNK. -/
def spdmCapabilities : SpdmFn := needPhase 1 fun b _ _ req s =>
  let (x, s) := freeBytes 9 s
  let r := [0] ++ x.take 1 ++ [0, 0] ++ leBytes 4 0x262D6 ++ x.drop 1
  (spdmMsg 0x61 0 0 r, putConn b { getConn s b with phase := 2, limit := leAt req 12 4 } s)

/-- ALGORITHMS: RSAPSS 3072, SHA-384, secp384r1, AES-256-GCM, DMTF measurements with SHA-384. -/
def spdmAlgorithms : SpdmFn := needPhase 2 fun b _ _ req s =>
  if ¬ bitOf (leAt req 8 4) 3 ∨ ¬ bitOf (leAt req 12 4) 1 then (spdmError 0x01, s)
  else
    let r := leBytes 2 48 ++ [1, 0] ++ leBytes 4 4 ++ leBytes 4 8 ++ leBytes 4 2 ++ List.replicate 16 0 ++
      [2, 0x20, 0x10, 0, 3, 0x20, 2, 0, 5, 0x20, 1, 0]
    (spdmMsg 0x63 3 0 r, putConn b { getConn s b with phase := 3 } s)

/-- DIGESTS: slot 0 only. -/
def spdmDigests : SpdmFn := needPhase 3 fun _ _ _ _ s => (spdmMsg 0x01 1 1 (attestBytes 2 0 48), s)

/-- CERTIFICATE: a part of the chain of slot 0. -/
def spdmCertificate : SpdmFn := needPhase 3 fun _ _ _ req s =>
  let off := leAt req 4 2
  let all := Config.attestLen 0
  if leAt req 2 1 % 16 ≠ 0 ∨ all < off + 1 then (spdmError 0x01, s)
  else
    let n := min (leAt req 6 2) (all - off)
    (spdmMsg 0x02 0 0 (leBytes 2 n ++ leBytes 2 (all - off - n) ++ attestBytes 0 off n), s)

/-- CHALLENGE_AUTH: the digest of the chain, a nonce, the summary of the measurements where asked, and the RSA signature. -/
def spdmChallenge : SpdmFn := needPhase 3 fun b _ t req s =>
  if leAt req 2 1 ≠ 0 then (spdmError 0x01, s)
  else
    let key := s.fresh
    let sum := if leAt req 3 1 = 0 then 0 else 48
    let (x, s) := freeBytes (32 + sum + 384) s
    let r := attestBytes 2 0 48 ++ x.take (32 + sum) ++ leBytes 2 0 ++ (req.drop 36).take 8 ++ x.drop (32 + sum)
    (spdmMsg 0x03 0 1 r, keepSigned b 0 t key s)

/-! ### Measurements (R579) -/

/-- The repair section in force: SEQ, the entries, and the HMAC under the sealing key (R563). -/
def repairSection (m : Mgmt) : List Byte :=
  let b := leBytes 4 m.c3 ++ leBytes 4 m.repairs.length ++
    m.repairs.flatMap fun r => leBytes 1 r.1 ++ leBytes 1 r.2.1 ++ leBytes 4 r.2.2 ++ [0, 0]
  b ++ hmac256 (match m.keys with | some k => k.sealing | none => []) b

/-- The bytes of the running image's components of one type, in the order of the table. -/
def runningParts (m : Mgmt) (ty : Nat) : List Byte :=
  match m.fw with
  | some x => (x.parts.filter fun p => p.ty == ty).flatMap (·.bytes)
  | none => []

/-- What a measurement is taken over; none where the model does not hold it: the ROM, a shipped configuration block. -/
def measured (m : Mgmt) (i : Nat) : Option (List Byte) :=
  if i = 2 then m.cfg.raw
  else if i = 3 then some (repairSection m)
  else if i = 4 then (match m.fw with | some x => some (x.hdr ++ x.trail) | none => some [])
  else if i = 5 then some (runningParts m 1)
  else if i = 6 then some (runningParts m 2)
  else if i = 7 then some (runningParts m 3)
  else none

/-- A measurement's value: a SHA-384 digest, or, for index 8, C0, C1 and the running slot. -/
def measureValue (s : State) (i : Nat) : List Byte :=
  if i = 8 then leBytes 4 s.mgmt.c0 ++ leBytes 4 s.mgmt.c1 ++ leBytes 1 s.mgmt.running
  else match measured s.mgmt i with
    | some b => sha384 b
    | none => (List.range 48).map (Config.measure i)

def measureBlock (s : State) (i : Nat) : List Byte :=
  let v := measureValue s i
  leBytes 1 i ++ [1] ++ leBytes 2 (v.length + 3) ++ [Config.attest 4 i] ++ leBytes 2 v.length ++ v

/-- MEASUREMENTS: the number of blocks, one block or all, signed where asked. -/
def spdmMeasurements : SpdmFn := needPhase 3 fun b _ t req s =>
  let signed := leAt req 2 1 % 2
  let op := leAt req 3 1
  let ctx := (req.drop (if signed = 1 then 37 else 4)).take 8
  if ¬ (op ≤ 8 ∨ op = 0xFF) ∨ (signed = 1 ∧ leAt req 36 1 % 16 ≠ 0) then (spdmError 0x01, s)
  else
    let l := if op = 0 then [] else if op = 0xFF then (List.range 8).map (· + 1) else [op]
    let rec_ := l.flatMap (measureBlock s)
    let key := s.fresh
    let (x, s) := freeBytes (32 + 384 * signed) s
    let r := leBytes 1 l.length ++ leBytes 3 rec_.length ++ rec_ ++ x.take 32 ++ leBytes 2 0 ++ ctx ++ x.drop 32
    (spdmMsg 0x60 (if op = 0 then 8 else 0) 0 r, if signed = 1 then keepSigned b 1 t key s else s)

/-! ### Sessions -/

/-- KEY_EXCHANGE_RSP: a session in its handshake. No mutual authentication. -/
def spdmKeyExchange : SpdmFn := needPhase 3 fun b _ t req s =>
  if leAt req 3 1 ≠ 0 then (spdmError 0x01, s)
  else
    let key := s.fresh
    let sum := if leAt req 2 1 = 0 then 0 else 48
    let (x, s) := freeBytes (3 + 32 + 96 + sum + 384 + 48) s
    let id := leAt req 4 2 + 65536 * leAt x 1 2
    let x' := getConn s b
    let r := (x.drop 1).take 2 ++ [0, 0] ++ (x.drop 3).take (32 + 96 + sum) ++ leBytes 2 0 ++ x.drop (3 + 32 + 96 + sum)
    (spdmMsg 0x64 (leAt x 0 1) 0 r, keepSigned b 2 t key (putConn b { x' with sessions := x'.sessions ++ [(id, false, t)] } s))

/-- FINISH_RSP: the session is established. -/
def spdmFinish : SpdmFn := needPhase 3 <| needSession false fun i b _ t _ s =>
  let x := getConn s b
  (spdmMsg 0x65 0 0 [], putConn b { x with sessions := x.sessions.map fun e => if e.1 = i then (i, true, t) else e } s)

/-- HEARTBEAT_ACK. -/
def spdmHeartbeat : SpdmFn := needPhase 3 <| needSession true fun _ _ _ _ _ s => (spdmMsg 0x68 0 0 [], s)

/-- KEY_UPDATE_ACK. -/
def spdmKeyUpdate : SpdmFn := needPhase 3 <| needSession true fun _ _ _ _ req s =>
  let op := leAt req 2 1
  if op = 0 ∨ 3 < op then (spdmError 0x01, s) else (spdmMsg 0x69 op (leAt req 3 1) [], s)

/-- END_SESSION_ACK: the session is over. -/
def spdmEndSession : SpdmFn := needPhase 3 <| needSession true fun i b _ _ _ s =>
  let x := getConn s b
  (spdmMsg 0x6C 0 0 [], putConn b { x with sessions := x.sessions.filter fun e => e.1 != i } s)

/-! ### The SLH-DSA signature (R580) -/

/-- A vendor-defined response with a payload. -/
def vendorMsg (payload : List Byte) : List Byte :=
  spdmMsg 0x7E 0 0 (leBytes 2 4 ++ [4] ++ leBytes 4 0xE34D ++ leBytes 2 payload.length ++ payload)

/-- The payload of a vendor-defined request of StandardID 4 and the Edoux VendorID. -/
def vendorReq (req : List Byte) : Option (List Byte) :=
  if leAt req 4 2 = 4 ∧ leAt req 6 1 = 4 ∧ leAt req 7 4 = 0xE34D ∧ leAt req 11 2 = 16 then some ((req.drop 13).take 16) else none

/-- A response that reports a status other than OK; what stands in its other fields is not stated. -/
def pqFail (op status : Nat) (s : State) : List Byte × State :=
  let (x, s) := freeBytes 60 s
  (vendorMsg (leBytes 1 op ++ [1] ++ leBytes 1 status ++ [0] ++ x), s)

/-- The response with a part of `total` bytes. -/
def pqAnswer (op total : Nat) (p digest : List Byte) (data : Nat → Nat → List Byte) (s : State) : List Byte × State :=
  let off := leAt p 4 4
  let n := leAt p 8 4
  if n = 0 ∨ 4096 < n ∨ total < off + n then pqFail op 2 s
  else (vendorMsg (leBytes 1 op ++ [1, 0, 0] ++ leBytes 4 total ++ leBytes 4 off ++ leBytes 4 n ++ digest ++ data off n), s)

/-- PQ_SIG: part of the signature over the M of a signed response; ready within 500 ms of it while the main domain runs and
within 60 s otherwise, and busy until then. -/
def spdmPqSig : SpdmFn := needPhase 3 fun b _ t req s =>
  match vendorReq req with
  | none => (spdmError 0x07, s)
  | some p =>
    if leAt p 0 1 ≠ 1 ∨ leAt p 1 1 ≠ 1 then pqFail (leAt p 0 1) 4 s
    else match mget (getConn s b).signed (leAt p 2 1) with
      | none => pqFail 1 1 s
      | some (at_, key) =>
        let by_ := at_ + (if s.power.phase = .running then 500000000 else 60000000000)
        let early := Config.freeBool s.fresh
        let s := { s with fresh := s.fresh + 1 }
        if t < by_ ∧ ¬ early then pqFail 1 3 s
        else
          let bytes (o n : Nat) : List Byte := (List.range n).map fun i => Config.freeByte key (2 ^ 20 + o + i)
          pqAnswer 1 16224 p (bytes (2 ^ 20) 48) bytes s

/-- PQ_CERT: part of the SLH-DSA certificate chain. -/
def spdmPqCert : SpdmFn := needPhase 3 fun _ _ _ req s =>
  match vendorReq req with
  | none => (spdmError 0x07, s)
  | some p =>
    if leAt p 0 1 ≠ 2 ∨ leAt p 1 1 ≠ 1 ∨ leAt p 2 1 ≠ 0 then pqFail (leAt p 0 1) 4 s
    else pqAnswer 2 (Config.attestLen 1) p (attestBytes 3 0 48) (attestBytes 1) s

/-! ### Chunks and the requests -/

/-- The answer to a request by its code; large requests take the same way. -/
def spdmByCode (req : List Byte) : Option SpdmFn :=
  match leAt req 1 1 with
  | 0x84 => some spdmVersion
  | 0xE1 => some spdmCapabilities
  | 0xE3 => some spdmAlgorithms
  | 0x81 => some spdmDigests
  | 0x82 => some spdmCertificate
  | 0x83 => some spdmChallenge
  | 0xE0 => some spdmMeasurements
  | 0xE4 => some spdmKeyExchange
  | 0xE5 => some spdmFinish
  | 0xE8 => some spdmHeartbeat
  | 0xE9 => some spdmKeyUpdate
  | 0xEC => some spdmEndSession
  | 0xFE => some (if leAt req 13 1 = 2 then spdmPqCert else spdmPqSig)
  | _ => none

/-- CHUNK_SEND_ACK: a chunk of a large request; the last one carries the request's response. -/
def spdmChunkSend : SpdmFn := needPhase 3 fun b sess t req s =>
  let seq := leAt req 4 2
  let n := leAt req 8 4
  let part := (req.drop (if seq = 0 then 16 else 12)).take n
  let x := getConn s b
  let all := (if seq = 0 then [] else x.chunkIn) ++ part
  let head := req.drop 3 |>.take 1
  let ack (r : List Byte) : List Byte := [0x13, 0x05, 0] ++ head ++ leBytes 2 seq ++ r
  if ¬ bitOf (leAt req 2 1) 0 then (ack [], putConn b { x with chunkIn := all } s)
  else
    let s := putConn b { x with chunkIn := [] } s
    match spdmByCode all with
    | some f => let (r, s) := f b sess t all s; (ack r, s)
    | none => (ack (spdmError 0x07), s)

/-- CHUNK_RESPONSE: the next chunk of a large response, as large as the requester takes. -/
def spdmChunkGet : SpdmFn := needPhase 3 fun b _ _ req s =>
  let x := getConn s b
  let seq := leAt req 4 2
  if x.chunkOut = [] then (spdmError 0x04, s)
  else
    let size := if seq = 0 then leBytes 4 x.chunkOut.length else []
    let n := min x.chunkOut.length (max 1 (x.limit - 12 - size.length))
    let last := if n = x.chunkOut.length then 1 else 0
    ([0x13, 0x06, BitVec.ofNat 8 last] ++ (req.drop 3).take 1 ++ leBytes 2 seq ++ [0, 0] ++ leBytes 4 n ++ size ++ x.chunkOut.take n,
      putConn b { x with chunkOut := x.chunkOut.drop n } s)

/-- A request of a code arrives: it is answered on its medium; a response larger than the requester takes waits for
CHUNK_GET. A message of a session the connection does not hold is dropped. -/
def spdmRequest (t : Nat) (b : SideBus) (sess : Option Nat) (code : Nat) (req : List Byte) (f : SpdmFn) (s : State) : State :=
  let s := atTime t s
  let known : Bool := match sess with | some i => (getConn s b).sessions.any fun e => e.1 == i | none => true
  if ¬ busOpen s b ∨ leAt req 1 1 ≠ code then s
  else
    let s := if b = .doe then s else sideFrame s
    if ¬ known then s
    else
      let (r, s) := f b sess t req s
      let lim := (getConn s b).limit
      let (r, s) := if lim ≠ 0 ∧ lim < r.length then
          let (h, s) := freeBytes 1 s
          (spdmMsg 0x7F 0x0F 0 h, putConn b { getConn s b with chunkOut := r } s)
        else (r, s)
      if b = .doe then emit (.pcie 0 "DOE" (r.map (·.toNat))) s else emit (.sideband "SPDM" (if sess.isSome then "secured" else "") r) s

/-- GET_VERSION. -/
def execGetVersion (t : Nat) (bus : SideBus) (sess : Option Nat) (req : List Byte) (s : State) : Host.Outcome State Fault Refusal :=
  .next (spdmRequest t bus sess 0x84 req spdmVersion s)

/-- GET_CAPABILITIES. -/
def execGetCapabilities (t : Nat) (bus : SideBus) (sess : Option Nat) (req : List Byte) (s : State) : Host.Outcome State Fault Refusal :=
  .next (spdmRequest t bus sess 0xE1 req spdmCapabilities s)

/-- NEGOTIATE_ALGORITHMS. -/
def execNegotiateAlgorithms (t : Nat) (bus : SideBus) (sess : Option Nat) (req : List Byte) (s : State) : Host.Outcome State Fault Refusal :=
  .next (spdmRequest t bus sess 0xE3 req spdmAlgorithms s)

/-- GET_DIGESTS. -/
def execGetDigests (t : Nat) (bus : SideBus) (sess : Option Nat) (req : List Byte) (s : State) : Host.Outcome State Fault Refusal :=
  .next (spdmRequest t bus sess 0x81 req spdmDigests s)

/-- GET_CERTIFICATE. -/
def execGetCertificate (t : Nat) (bus : SideBus) (sess : Option Nat) (req : List Byte) (s : State) : Host.Outcome State Fault Refusal :=
  .next (spdmRequest t bus sess 0x82 req spdmCertificate s)

/-- CHALLENGE. -/
def execChallenge (t : Nat) (bus : SideBus) (sess : Option Nat) (req : List Byte) (s : State) : Host.Outcome State Fault Refusal :=
  .next (spdmRequest t bus sess 0x83 req spdmChallenge s)

/-- GET_MEASUREMENTS. -/
def execGetMeasurements (t : Nat) (bus : SideBus) (sess : Option Nat) (req : List Byte) (s : State) : Host.Outcome State Fault Refusal :=
  .next (spdmRequest t bus sess 0xE0 req spdmMeasurements s)

/-- KEY_EXCHANGE. -/
def execKeyExchange (t : Nat) (bus : SideBus) (sess : Option Nat) (req : List Byte) (s : State) : Host.Outcome State Fault Refusal :=
  .next (spdmRequest t bus sess 0xE4 req spdmKeyExchange s)

/-- FINISH. -/
def execFinish (t : Nat) (bus : SideBus) (sess : Option Nat) (req : List Byte) (s : State) : Host.Outcome State Fault Refusal :=
  .next (spdmRequest t bus sess 0xE5 req spdmFinish s)

/-- HEARTBEAT. -/
def execSpdmHeartbeat (t : Nat) (bus : SideBus) (sess : Option Nat) (req : List Byte) (s : State) : Host.Outcome State Fault Refusal :=
  .next (spdmRequest t bus sess 0xE8 req spdmHeartbeat s)

/-- KEY_UPDATE. -/
def execKeyUpdate (t : Nat) (bus : SideBus) (sess : Option Nat) (req : List Byte) (s : State) : Host.Outcome State Fault Refusal :=
  .next (spdmRequest t bus sess 0xE9 req spdmKeyUpdate s)

/-- END_SESSION. -/
def execEndSession (t : Nat) (bus : SideBus) (sess : Option Nat) (req : List Byte) (s : State) : Host.Outcome State Fault Refusal :=
  .next (spdmRequest t bus sess 0xEC req spdmEndSession s)

/-- CHUNK_SEND. -/
def execChunkSend (t : Nat) (bus : SideBus) (sess : Option Nat) (req : List Byte) (s : State) : Host.Outcome State Fault Refusal :=
  .next (spdmRequest t bus sess 0x85 req spdmChunkSend s)

/-- CHUNK_GET. -/
def execChunkGet (t : Nat) (bus : SideBus) (sess : Option Nat) (req : List Byte) (s : State) : Host.Outcome State Fault Refusal :=
  .next (spdmRequest t bus sess 0x86 req spdmChunkGet s)

/-- PQ_SIG: the vendor-defined request of OP 1. -/
def execPqSig (t : Nat) (bus : SideBus) (sess : Option Nat) (req : List Byte) (s : State) : Host.Outcome State Fault Refusal :=
  .next (spdmRequest t bus sess 0xFE req spdmPqSig s)

/-- PQ_CERT: the vendor-defined request of OP 2. -/
def execPqCert (t : Nat) (bus : SideBus) (sess : Option Nat) (req : List Byte) (s : State) : Host.Outcome State Fault Refusal :=
  .next (spdmRequest t bus sess 0xFE req spdmPqCert s)

end Sys2Proof.Machine
end

