-- ==== Sys2Proof/Machine/StreamCore.lean ====
section
/-! DEFINITION. The stream core's issue of work (R125, R126, R160, R176, R190, R211, R223): the next item of a context for each
engine, the sharing of the engines among the contexts of a tile, and the sealing of packs (R129, R130, R134). -/

namespace Sys2Proof.Machine

/-! ### Pieces of work (R176, R223) -/

/-- `total` units in `n` pieces, as equal as may be: first unit and length of each. -/
def pieces (total n : Nat) : List (Nat × Nat) :=
  (List.range n).map fun i => (i * total / n, (i + 1) * total / n - i * total / n)

/-- The fewest equal pieces of `n` units from `a` on whose estimates are each within the bound; single units where none are. -/
def fewest (bound : Nat) (est : Nat → Nat → Nat) (a n : Nat) : List (Nat × Nat) :=
  let ok (i : Nat) : Bool := (pieces n (i + 1)).all fun e => decide (est (a + e.1) e.2 ≤ bound)
  (pieces n (((List.range n).find? ok).getD (n - 1) + 1)).map fun e => (a + e.1, e.2)

/-- The items of units `a` to `total` - 1 (R176): a unit past the bound alone is an item of its own, and what lies between is cut
into the fewest equal items. -/
def splitUnits (bound : Nat) (est : Nat → Nat → Nat) (a total : Nat) : List (Nat × Nat) :=
  let units := (List.range (total - a)).map (a + ·)
  let big (u : Nat) : Bool := decide (bound < est u 1)
  sortBy (·.1) ((runsOf (units.filter fun u => !big u)).flatMap (fun r => fewest bound est r.1 r.2) ++
    (units.filter big).map fun u => (u, 1))

/-- The item that begins at unit `a`: of the split of the whole, or, where the bound has changed since, of what is left. -/
def nextPiece (bound : Nat) (est : Nat → Nat → Nat) (a total : Nat) : Option (Nat × Nat) :=
  ((splitUnits bound est 0 total).find? fun e => e.1 == a).orElse fun _ => (splitUnits bound est a total).head?

/-- What the stream core has to issue to an engine for a context: nothing, nothing for want of a pool slot or of WORK space, an
item that is past the base budget, or an item: its estimate, its descriptor, the ingest state after it, the slice space it takes,
and what the stream core writes into SHAPE for it. -/
inductive Pick where
  | idle
  | noSlot
  | noWork
  | never (desc : List Byte)
  | item (est : Nat) (desc : List Byte) (m : Media) (holds : List Hold) (writes : List (Nat × List Byte))
  deriving DecidableEq, Repr

/-- The bound of an item's estimate. -/
def itemBound (s : State) : Nat := baseBudget s / 2

/-- Zero or one as a flag at bit `i`. -/
def flagAt (b : Bool) (i : Nat) : Nat := if b then 2 ^ i else 0

/-- Dwords 1 and 2 of a descriptor, with the estimate: CONTEXT, TILE_EPOCH, TAG, EST_CYC. -/
def descHead (s : State) (num tag est : Nat) : List Byte :=
  leBytes 2 num ++ leBytes 2 (blkEpoch s (pTILE (numTile num))) ++ leBytes 4 tag ++ leBytes 4 est

/-! ### Decode and parse items -/

/-- The pictures of a plan in decoding order, with those only to be parsed marked. -/
def planOrder (p : Plan) : List (Nat × Bool) := sortBy (·.1) (p.full.map (·, false) ++ p.parse.map (·, true))

/-- The slot in which a picture is worked on. -/
def workSlot (m : Media) (id : Nat) (parsed : Bool) : Option PoolSlot := m.pool.find? fun x => x.pic == id && x.parsed == parsed

/-- The first planned picture with units not yet issued. -/
def nextPicture (m : Media) : Option (Pic × Bool) :=
  (planOrder m.plan).findSome? fun e => match findPic m e.1 with
    | none => none
    | some p => match workSlot m e.1 e.2 with
      | some x => if x.issued < picUnits p.hdr ∧ ¬ x.stopped then some (p, e.2) else none
      | none => some (p, e.2)

/-- The slot of a reference; 0xFF where the pool does not hold it. -/
def refSlot (m : Media) (id : Nat) : Nat := ((m.pool.find? fun x => x.pic == id).map (·.slot)).getD 0xFF

/-- Another planned picture names this one. -/
def keepsRef (m : Media) (id : Nat) : Bool :=
  (m.plan.full ++ m.plan.parse).any fun a => match findPic m a with
    | some q => q.refs.contains id || q.colloc == some id
    | none => false

/-- A decode or parse descriptor (R181). -/
def picDesc (s : State) (num tag : Nat) (x : StreamSet) (m : Media) (p : Pic) (parsed : Bool) (slot first n : Nat) : List Byte :=
  let refs := if parsed then p.colloc.toList else p.refs
  let flags := flagAt (p.hdr.field != 0) 0 + flagAt (p.hdr.field == 2) 1 + flagAt (first == 0) 2 +
    flagAt (first + n == picUnits p.hdr) 3 + flagAt (picturePolicy x == 0) 4 +
    flagAt (m.targets.any fun t => t.pics.contains p.hdr.id) 5 + flagAt (keepsRef m p.hdr.id) 6
  leBytes 1 (if parsed then 2 else 1) ++ leBytes 1 p.hdr.codec ++ leBytes 2 flags ++
    descHead s num tag (picEstimate p.hdr parsed first n) ++ leBytes 8 (unitsAddr p.hdr first) ++
    leBytes 4 (unitsBytes p.hdr first n) ++ leBytes 4 first ++ leBytes 4 n ++ leBytes 1 slot ++ leBytes 1 (min 16 refs.length) ++
    leBytes 2 0 ++ ((List.range 16).flatMap fun i => leBytes 1 ((refs[i]?.map (refSlot m)).getD 0xFF)) ++ leBytes 8 0

/-- The lowest pool slot that is free, where the context may hold one more and the tile's pool has room (R180). -/
def freeSlot (s : State) (tile : Nat) (m : Media) (bytes : Nat) : Option Nat :=
  if fld s (pDEC tile) R.DEC.POOL_CFG 0 15 * 2 ^ 20 < poolUsed s tile + bytes then none
  else (List.range 32).find? fun i => !m.pool.any (·.slot == i)

/-- The next decode or parse item of a context (R160, R176, R180). -/
def pickPic (s : State) (num k tag : Nat) (x : StreamSet) : Pick :=
  let m := getMedia s k
  let tile := numTile num
  match nextPicture m with
  | none => .idle
  | some (p, parsed) =>
    let e := match workSlot m p.hdr.id parsed with
      | some y => some y
      | none => (freeSlot s tile m (picBytes p.hdr parsed)).map fun i => freshSlot i s.tick.count p parsed
    match e with
    | none => .noSlot
    | some y =>
      let est := picEstimate p.hdr parsed
      match nextPiece (itemBound s) est y.issued (picUnits p.hdr) with
      | none => .idle
      | some (first, n) =>
        let d := picDesc s num tag x m p parsed y.slot first n
        if baseBudget s < est first n then (if y.units = y.issued then .never d else .idle)
        else
          let y := { y with issued := first + n }
          .item (est first n) d { m with pool := m.pool.filter (fun z => z.slot != y.slot) ++ [y] } [] []

/-- A decode or parse item is never issued: counted, its picture damaged, its units left to concealment (R176). -/
def skipPicItem (tile num k : Nat) (d : List Byte) (s : State) : State :=
  match descPic (getMedia s k) d with
  | none => s
  | some p =>
    match poolEntry s tile k (byteAt d 0x24) p (byteAt d 0 == 2) with
    | none => s
    | some x =>
      let units := (List.range (leAt d 0x20 4)).map (leAt d 0x1C 4 + ·)
      finishPicItem tile num k d (byteAt d 0 == 2) p { x with issued := leAt d 0x1C 4 + leAt d 0x20 4 } 3 units ⟨[], []⟩
        (decCount tile 9 s)

/-! ### Shaper items -/

/-- Temporal group of a target. -/
def targetGroup (smp : Sample) (x : StreamSet) (t : Target) : Nat := (t.frame - smp.firstFrame) / x.group

/-- Targets that the shaper works on, in order (R170). -/
def visualTargets (m : Media) (x : StreamSet) : List Target := if bitOf x.outputs 0 then m.targets.filter fun t => !t.parse else []

/-- Patch rows of a frame. -/
def patchRows (prof : List Byte) : Nat := leAt prof 0x16 2 / max 1 (byteAt prof 0x19)

/-- Crop detection runs on the frame that is the sample's first, unless AFD gives the crop (R187). -/
def detects (prof : List Byte) (p : Pic) (first : Bool) : Bool :=
  first && (byteAt prof 8 == 1 || (byteAt prof 8 == 3 && p.hdr.disp.afd.isNone))

/-- Adaptive deinterlacing runs on a frame (R186). -/
def adaptiveRuns (prof : List Byte) (p : Pic) : Bool :=
  byteAt prof 1 % 8 == 3 && !(byteAt prof 1 / 128 == 1 && (p.hdr.disp.progressive || !p.hdr.disp.interlaced))

/-- Decoded size of the frame a picture is of. -/
def frameSize (p : Pic) : Nat × Nat := (p.hdr.disp.window.w, if p.hdr.field = 0 then p.hdr.disp.window.h else 2 * p.hdr.disp.window.h)

/-- The estimate of a band (R177): patch rows `first` on, `n` of them. -/
def bandEstimate (prof : List Byte) (m : Media) (p : Pic) (newCrop : Bool) (first n : Nat) : Nat :=
  let rows := max 1 (patchRows prof)
  let part (h : Nat) : Nat := h * (first + n) / rows - h * first / rows
  let (w, h) := frameSize p
  let a := m.crop.getD { x := 0, y := 0, w := w, h := h }
  let whole := ceilDiv (w * part h * 11) 75
  ceilDiv ((2 * (a.w * part a.h) + leAt prof 0x14 2 * byteAt prof 0x19 * n) * 11) 75 +
    (if adaptiveRuns prof p then whole else 0) + (if detects prof p newCrop then whole else 0)

/-- Where the frames of a group go: with room for the whole output one after another, in a region too small for it from its start
with what is left (R190). -/
def groupSpace (s : State) (tile fb n : Nat) : Option (Nat × Nat × List Nat) :=
  let size := regionSize s tile 2
  if n * fb ≤ size then (roomFor s tile 2 (n * fb)).map fun o => (o, n * fb, List.replicate n fb)
  else if heldIn s tile 2 = [] then some (0, size, (List.range n).map fun i => size - i * fb)
  else none

/-- The frames of a group with their places. -/
def placeGroup (s : State) (tile : Nat) (fb o : Nat) (lens : List Nat) (l : List Target) : List Shaped :=
  (enumFrom 0 (l.zip lens)).map fun e => {
    frame := e.2.1.frame, out := regionBase s tile 2 + o + e.1 * fb, len := e.2.2, issued := 0, rows := 0, tick := 0 }

/-- A shaper descriptor (R182). -/
def shapeDesc (s : State) (num tag : Nat) (x : StreamSet) (m : Media) (t : Target) (p : Pic) (f : Shaped) (newCrop : Bool)
    (first n : Nat) : List Byte :=
  let prof := profileBytes s x.prof
  let v := p.hdr.disp
  let (w, h) := frameSize p
  let slot (i : Nat) : Nat := (t.pics[i]?.map (refSlot m)).getD 0xFF
  let flags := flagAt (v.interlaced && !v.progressive) 0 + flagAt v.tff 1 + flagAt (lateAt m p (frameTime x t.frame)) 2 +
    flagAt newCrop 3 + flagAt v.afd.isSome 4 + v.afd.getD 0 % 16 * 2 ^ 8
  leBytes 1 1 ++ leBytes 1 x.prof ++ leBytes 2 flags ++ descHead s num tag (bandEstimate prof m p newCrop first n) ++
    leBytes 1 (slot 0) ++ leBytes 1 v.srcFmt ++ leBytes 1 (min 3 v.matrix) ++ leBytes 1 v.range ++ leBytes 2 w ++ leBytes 2 h ++
    leBytes 2 v.sarN ++ leBytes 2 v.sarD ++ leBytes 2 first ++ leBytes 2 n ++ leBytes 8 f.out ++ leBytes 4 f.len ++
    leBytes 1 (slot 1) ++ List.replicate 19 0

/-- The next band of a context (R176, R190): the frames in order, each once its pictures are decoded. -/
def pickBand (s : State) (num k tag : Nat) (x : StreamSet) (smp : Sample) : Pick :=
  let m := getMedia s k
  let tile := numTile num
  let prof := profileBytes s x.prof
  let all := visualTargets m x
  let entry (m : Media) (t : Target) : Option Shaped := m.shaped.find? fun f => f.frame == t.frame
  match all.find? fun t => match entry m t with | some f => decide (f.issued < patchRows prof) | none => true with
  | none => .idle
  | some t =>
    match t.pics.head?.bind (findPic m) with
    | none => .idle
    | some p =>
      if ¬ t.pics.all (fun id => m.pool.any fun y => y.pic == id && y.done && !y.parsed) then .idle
      else
        let group := all.filter fun u => targetGroup smp x u == targetGroup smp x t
        let placed : Option (Media × List Hold) := match entry m t with
          | some _ => some (m, [])
          | none => (groupSpace s tile (frameBytes prof) group.length).map fun e =>
            ({ m with shaped := m.shaped ++ placeGroup s tile (frameBytes prof) e.1 e.2.2 group },
             [{ tile := tile, ctx := k, region := 2, off := e.1, len := e.2.1 }])
        match placed with
        | none => .idle
        | some (m, holds) =>
          match entry m t with
          | none => .idle
          | some f =>
            let newCrop := t.frame == smp.firstFrame
            let est := bandEstimate prof m p newCrop
            match nextPiece (itemBound s) est f.issued (patchRows prof) with
            | none => .idle
            | some (first, n) =>
              let d := shapeDesc s num tag x m t p f newCrop first n
              if baseBudget s < est first n then .never d
              else .item (est first n) d { m with
                shaped := m.shaped.map fun g => if g.frame = t.frame then { g with issued := first + n } else g } holds []

/-! ### Tensor items (R211, R223) -/

/-- Bytes of the records an op writes. -/
def opRecords (g : List Byte) (o : TensorOp) : Nat := if o.opc = 0xD then recordLen (emitPayload o (img.tensor g o.in0)) else 0

/-- Split units of an op: 64-row groups, windows or vectors; EMIT never splits. -/
def opUnits (g : List Byte) (o : TensorOp) : Nat :=
  let t0 := img.tensor g o.in0
  let out := img.tensor g o.out
  if o.opc = 0xD then 1
  else if o.opc = 4 then (let (x, y, z) := windowsOf o t0; x * y * z)
  else if o.opc = 0xB ∨ o.opc = 0xC then out.elems
  else ceilDiv (out.elems / max 1 (rowElems o out)) 64

/-- The estimate of a part. -/
def partEstimate (est parts : Nat) : Nat := 128 + ceilDiv (est - 128) parts

/-- PARTS of an op past the bound (R223). -/
def partsOf (bound est units : Nat) : Nat :=
  let most := max 1 (min 255 units)
  if bound ≤ 128 then most
  else (((List.range most).map (· + 1)).find? fun n => decide (partEstimate est n ≤ bound)).getD most

/-- How many ops from the first on fit a bound, of a list of estimates. -/
def opsWithin (bound : Nat) : List Nat → Nat
  | [] => 0
  | e :: l => if e ≤ bound then opsWithin (bound - e) l + 1 else 0

/-- A tensor work descriptor (R222). -/
def tensorDesc (s : State) (num tag op flags graph est first count part parts group tc input work rec left src len cap : Nat) :
    List Byte :=
  leBytes 1 op ++ leBytes 1 flags ++ leBytes 2 graph ++ descHead s num tag est ++ leBytes 2 first ++ leBytes 2 count ++
    leBytes 1 part ++ leBytes 1 parts ++ leBytes 2 group ++ leBytes 4 tc ++ leBytes 4 input ++ leBytes 4 work ++ leBytes 4 rec ++
    leBytes 4 left ++ leBytes 4 src ++ leBytes 2 len ++ leBytes 1 cap ++ List.replicate 13 0

/-- Record bytes that PACK_MAX leaves the sample, past `n` bytes already given to its runs (R134). -/
def packRoom (x : StreamSet) (smp : Sample) (n : Nat) : Nat := x.packMax - 64 - (smp.records.map (·.len)).sum - n

/-- Record space that a context's runs have still to fill. -/
def runsLeft (m : Media) : Nat := (m.visual.elim 0 (·.left)) + (m.audioRun.elim 0 (·.left))

/-- A run before its FIRST item takes its WORK and RECORD space, or waits (R223). -/
def beginRun (s : State) (tile k : Nat) (x : StreamSet) (smp : Sample) (m : Media) (g : List Byte) (r : Run) :
    Option (Run × List Hold) × Bool :=
  let work := img.workBytes g
  let need := ((List.range (img.ops g)).map fun i => opRecords g (img.op g i)).sum
  match roomFor s tile 3 work, roomFor s tile 4 need with
  | some w, some o =>
    let hold (region off len : Nat) : Hold := { tile := tile, ctx := k, region := region, off := off, len := len }
    (some ({ r with work := w, record := o, left := min need (packRoom x smp (runsLeft m)) },
      (if work = 0 then [] else [hold 3 w work]) ++ (if need = 0 then [] else [hold 4 o need])), false)
  | none, _ => (none, decide (work ≤ regionSize s tile 3))
  | _, none => (none, false)

/-- The next item of a run: op, parts, part, ops, estimate, and the run after it; nothing where the run is over. -/
def runItem (s : State) (tile : Nat) (g : List Byte) (r : Run) : Nat × Nat × Nat × Run :=
  let est (i : Nat) : Nat := opEstimate g (img.op g i)
  let bound := itemBound s
  if bound < est r.op then
    let parts := if r.part = 0 then partsOf bound (est r.op) (opUnits g (img.op g r.op)) else r.parts
    let next := if r.part + 1 < parts then { r with part := r.part + 1, parts := parts } else { r with op := r.op + 1, part := 0, parts := 0 }
    (1, parts, partEstimate (est r.op) parts, next)
  else
    let n := max 1 (opsWithin (min bound (remaining s tile 3).toNat) (((List.range (img.ops g)).drop r.op).map est))
    (n, 1, ((List.range n).map fun i => est (r.op + i)).sum, { r with op := r.op + n, part := 0, parts := 0 })

/-- The next item of a run `r` of graph `gid`, with its TC and flags; `done` is the ingest state once the run is over, `keep` while
it goes on. -/
def pickRun (s : State) (num k tag gid : Nat) (x : StreamSet) (smp : Sample) (r : Run) (tc : Nat × Bool) (concealed : Bool)
    (inputs : List Hold) (writes : List (Nat × List Byte)) (keep : Run → Media) (done : Media) : Pick :=
  let tile := numTile num
  let m := getMedia s k
  let g := graphImage s gid
  let first := r.op == 0 && r.part == 0
  match if first then beginRun s tile k x smp m g r else (some (r, []), false) with
  | (none, true) => .noWork
  | (none, false) => .idle
  | (some (r, holds), _) =>
    let (n, parts, est, next) := runItem s tile g r
    let last := next.op == img.ops g
    let flags := flagAt first 0 + flagAt last 1 + flagAt concealed 2 + flagAt (dropFrame m) 3 + flagAt tc.2 4
    let d := tensorDesc s num tag 1 flags gid est r.op n r.part parts r.index tc.1 r.input r.work r.record r.left 0 0 0
    if baseBudget s < est then .never d
    else
      let wrote := ((List.range (next.op - r.op)).map fun i => opRecords g (img.op g (r.op + i))).sum
      let next := { next with record := r.record + wrote, left := r.left - wrote }
      .item est d (if last then done else keep next) (inputs ++ holds) writes

/-- The next item of a visual run: of the group begun, or of the next group, once all its frames are shaped. -/
def pickVisual (s : State) (num k tag : Nat) (x : StreamSet) (smp : Sample) : Pick :=
  let m := getMedia s k
  let prof := profileBytes s x.prof
  let j := m.groups
  let group := (visualTargets m x).filter fun t => targetGroup smp x t == j
  let frames := group.filterMap fun t => m.shaped.find? fun f => f.frame == t.frame
  match group, frames with
  | t :: _, f :: _ =>
    if frames.length < group.length ∨ frames.any (fun f => decide (f.rows < patchRows prof)) ∨ graphReady s (numTile num) x.vis = false then
      .idle
    else
      let r := m.visual.getD {
        index := j, op := 0, part := 0, parts := 0, input := f.out - regionBase s (numTile num) 2, work := 0, record := 0, left := 0 }
      pickRun s num k tag x.vis x smp r (targetLabel m x prof t) (group.any (·.concealed)) [] []
        (fun r => { m with visual := some r }) { m with visual := none, groups := j + 1 }
  | _, _ => .idle

/-- Samples of a chunk: DIM[0] × DIM[1] of the audio graph's input (R211). -/
def chunkSamples (g : List Byte) : Nat := let t := img.tensor g (img.inTensor g); t.dim 0 * t.dim 1

/-- Chunks of a sample's audio span. -/
def chunkCount (g : List Byte) (smp : Sample) : Nat := ceilDiv (spanSamples (smp.audioTo - smp.audioFrom)) (max 1 (chunkSamples g))

/-- A sample's audio span is demultiplexed (R127): frames past it have come, the shard is over, or it has no audio. -/
def audioKnown (m : Media) (till : Nat) : Bool :=
  m.demuxed || m.audio.any (fun f => decide (till ≤ f.time)) || ((m.sel.map (·.audio)).join).isNone

/-- The next item of an audio run: of the chunk begun, or of the next chunk, which the stream core writes into SHAPE (R211). -/
def pickChunk (s : State) (num k tag : Nat) (x : StreamSet) (smp : Sample) : Pick :=
  let m := getMedia s k
  let tile := numTile num
  let g := graphImage s x.aud
  let n := chunkSamples g
  let c := m.chunks
  if ¬ bitOf x.outputs 2 ∨ chunkCount g smp ≤ c ∨ ¬ audioKnown m smp.audioTo ∨ graphReady s tile x.aud = false then .idle
  else
    let tc := labelAt m (smp.audioFrom + c * n * 90000 / 16000)
    let go (r : Run) (m' : Media) (inputs : List Hold) (writes : List (Nat × List Byte)) : Pick :=
      pickRun s num k tag x.aud x smp r tc false inputs writes (fun r => { m' with audioRun := some r })
        { m' with audioRun := none, chunks := c + 1 }
    match m.audioRun with
    | some r => go r m [] []
    | none => match roomFor s tile 2 (4 * n) with
      | none => .idle
      | some o =>
        let off := regionBase s tile 2 + o
        go { index := c, op := 0, part := 0, parts := 0, input := o, work := 0, record := 0, left := 0 }
          { m with shaped := m.shaped ++ [{ frame := 2 ^ 32, out := off, len := 4 * n, issued := 0, rows := 0, tick := s.tick.count }] }
          [{ tile := tile, ctx := k, region := 2, off := o, len := 4 * n }]
          [(off, audioChunk s.fresh m.audio smp.audioFrom smp.audioTo n c)]

/-- The caption spans of a sample are known: no display that began before its end is still on (R120, R154). -/
def textsKnown (m : Media) (till : Nat) : Bool := m.demuxed || (knownUpTo m till && !m.showing.any fun e => decide (e.start < till))

/-- The sample's next caption record (R154, R222): end timecode and text go into SHAPE. -/
def pickText (s : State) (num k tag : Nat) (x : StreamSet) (smp : Sample) : Pick :=
  let m := getMedia s k
  let tile := numTile num
  match (spansIn m smp.audioFrom smp.audioTo)[m.texts]? with
  | none => .idle
  | some e =>
    if ¬ bitOf x.outputs 3 ∨ ¬ textsKnown m smp.audioTo then .idle
    else
      let n := 4 + e.text.length
      let len := recordLen n
      match roomFor s tile 2 n, roomFor s tile 4 len with
      | some o, some r =>
        let off := regionBase s tile 2 + o
        let hold (region off len : Nat) : Hold := { tile := tile, ctx := k, region := region, off := off, len := len }
        let tc := labelAt m e.start
        let est := 128 + ceilDiv len 64
        let d := tensorDesc s num tag 2 (flagAt (dropFrame m) 3 + flagAt tc.2 4) 0 est 0 0 0 0 Config.textGroup tc.1 0 0 r
          (min len (packRoom x smp (runsLeft m))) off e.text.length e.source
        if baseBudget s < est then .never d
        else .item est d { m with
          texts := m.texts + 1
          shaped := m.shaped ++ [{ frame := 2 ^ 32, out := off, len := n, issued := 0, rows := 0, tick := s.tick.count }] }
          [hold 2 o n, hold 4 r len] [(off, leBytes 4 (labelAt m e.till).1 ++ e.text)]
      | _, _ => .idle

/-! ### Sharing and issue (R125, R126) -/

/-- The kinds of item the stream core issues. -/
inductive IssueKind where
  | pic | band | visual | audio | text
  deriving DecidableEq, Repr

def IssueKind.engine : IssueKind → Nat
  | .pic => 1
  | .band => 2
  | _ => 3

/-- The next item of a kind. -/
def pickKind (s : State) (i : IssueKind) (num k tag : Nat) (x : StreamSet) (smp : Sample) : Pick :=
  match i with
  | .pic => pickPic s num k tag x
  | .band => pickBand s num k tag x smp
  | .visual => pickVisual s num k tag x smp
  | .audio => pickChunk s num k tag x smp
  | .text => pickText s num k tag x smp

def Pick.est : Pick → Option Nat
  | .item e _ _ _ _ => some e
  | _ => none

/-- The estimate of the work a context has ready for an engine: the smallest of its kinds. -/
def readyEst (s : State) (e k : Nat) (c : Ctx) : Option Nat :=
  match c.num, c.cur, getSet s c.sset with
  | some num, some smp, some x =>
    ([IssueKind.pic, .band, .visual, .audio, .text].filter fun i => i.engine == e).foldl (fun a i =>
      match a, (pickKind s i num k 0 x smp).est with
      | some a, some b => some (min a b)
      | none, b => b
      | a, none => a) none
  | _, _, _ => none

/-- A context's credit with an engine. -/
def creditOf (c : Ctx) (e : Nat) : Nat := ((c.credit.find? fun x => x.1 == e).map (·.2.1)).getD 0

def setCredit (e v tick : Nat) (c : Ctx) : Ctx := { c with credit := c.credit.filter (fun x => x.1 != e) ++ [(e, v, tick)] }

/-- A context's quantum, in cycles (R125). -/
def quantumOf (s : State) (c : Ctx) : Nat := (Config.quantum + 1) * (match getSet s c.sset with | some x => x.weight | none => 1)

/-- Rounds a context must be given before its credit covers an estimate. -/
def turnsFor (s : State) (e est : Nat) (c : Ctx) : Nat := ceilDiv (est - creditOf c e) (max 1 (quantumOf s c))

/-- Contexts of a tile with work ready for an engine that fits what is left of its budget: key, context, estimate. -/
def readyOn (s : State) (tile e : Nat) : List (Nat × Ctx × Nat) :=
  (s.foundry.ctxs.filter fun x => x.2.num.map tileOfNum == some tile).filterMap fun x =>
    (readyEst s e x.1 x.2).bind fun n => if (n : Int) ≤ remaining s tile e then some (x.1, x.2, n) else none

/-- Deficit round robin (R125): the context may issue an item of `est` cycles now, and its credit is charged. When no context with
work ready has credit enough, all are given as many rounds as the first of them needs. -/
def takeTurn (tile e k est : Nat) (c : Ctx) (s : State) : Option State :=
  let others := (readyOn s tile e).filter fun x => x.1 != k
  let n := turnsFor s e est c
  if others.any fun x => decide (turnsFor s e x.2.2 x.2.1 < n) then none
  else
    let s := if n = 0 then s
      else others.foldl (fun s x => putCtx x.1 (setCredit e (creditOf x.2.1 e + n * quantumOf s x.2.1) 0 x.2.1) s) s
    some (putCtx k (setCredit e (creditOf c e + n * quantumOf s c - est) (s.tick.count + 1) c) s)

/-- A descriptor joins an engine's queue. -/
def pushDesc (tile e : Nat) (d : List Byte) (s : State) : State :=
  let x := getEng s tile e
  let x := if x.queue = [] then { x with start := s.tick.count } else x
  putEng tile e { x with queue := x.queue ++ [{ desc := d, tick := s.tick.count }] } s

/-- A refusal of a pool slot, or of WORK space, is counted and shown once a tick (R180, R223). -/
def noteStall (tile num k : Nat) (work : Bool) (s : State) : State :=
  let m := getMedia s k
  let now := s.tick.count + 1
  if work then
    (if m.workStall = now then s
     else penBit (pTEN tile) 3 (addReg (putMedia k { m with workStall := now } s) (pTEN tile) (R.TEN.COUNT + 20) 1))
  else if m.poolStall = now then s
  else decEvent tile num 10 6 6 (putMedia k { m with poolStall := now } s)

/-- The stream core may issue work on a tile: it runs, and no quiesce stops it (R52, R89). -/
def mayIssue (s : State) (tile e : Nat) : Bool :=
  let st := blkState s (pTILE tile)
  (st == 1 || st == 0x80 || st == 0x81) && blkState s (engPage tile e) == 1 && !quiescing s

/-- Issues a context's next item of a kind (R126): when it fits what is left of the engine's budget, fewer than 64 descriptors are
outstanding, and it is the context's turn. -/
def issueNext (i : IssueKind) (num k tag : Nat) (c : Ctx) (x : StreamSet) (smp : Sample) (s : State) : State :=
  let tile := numTile num
  let e := i.engine
  if ¬ mayIssue s tile e then s
  else match pickKind s i num k tag x smp with
    | .idle => s
    | .noSlot => noteStall tile num k false s
    | .noWork => noteStall tile num k true s
    | .never d => if e = 1 then skipPicItem tile num k d s else neverIssued tile num k e s
    | .item est d m holds writes =>
      if 64 ≤ outstanding s tile e ∨ remaining s tile e < est then s
      else match takeTurn tile e k est c s with
        | none => s
        | some s =>
          let s := putMedia k m { s with fresh := s.fresh + 1 }
          let s := holds.foldl (fun s h => holdSpace h.tile h.ctx h.region h.off h.len s) s
          let s := writes.foldl (fun s w => sliceWrite tile 2 w.1 w.2 s) s
          let s := pushDesc tile e d s
          if e = 1 then showPool tile s else s

/-- The audio of the sample has a gap: handled once, as its first chunk is to be issued (R169). -/
def audioGaps (m : Media) (x : StreamSet) (smp : Sample) : Bool :=
  bitOf x.outputs 2 && m.chunks == 0 && m.audioRun.isNone && audioKnown m smp.audioTo &&
    audioGap m.audio smp.audioFrom smp.audioTo

/-- An audio run's item; a gap in the sample's audio is met before the first. -/
def issueAudio (num k tag : Nat) (c : Ctx) (x : StreamSet) (smp : Sample) (s : State) : State :=
  if audioGaps (getMedia s k) x smp then
    let s := takeAudioGap k s
    match getCtx s k with
    | some c => (match c.cur with | some smp => issueNext .audio num k tag c x smp s | none => s)
    | none => s
  else issueNext .audio num k tag c x smp s

/-! ### The stream core's work (R118, R147 to R169) -/

/-- An audio frame is decoded by the stream core: its cycles are charged, and its samples kept (R155). -/
def takeAudio (tile k : Nat) (f : AudioFrame) (s : State) : State :=
  let m := getMedia s k
  if ((m.sel.map (·.audio)).join).isNone then s
  else chargeBudget tile 0 (audioCost f) (putMedia k { m with audio := m.audio ++ [f] } s)

/-- Coded bytes laid together within the context's source cache. -/
def layBits (k addr : Nat) (x : StreamSet) (l : List Byte) (s : State) : State :=
  let base := Config.cacheBase k % 2 ^ 39
  if base ≤ addr ∧ addr + l.length ≤ base + x.readahead * 2 ^ 20 then putDram addr l s else s

/-- What the stream core takes from its source cache. -/
def takeItem (num k : Nat) (c : Ctx) (x : StreamSet) (item : DemuxItem) (s : State) : State :=
  let tile := numTile num
  match item with
  | .packet => nextPacket tile num k c x s
  | .pass n => passBytes k n s
  | .shard i => takeShard tile num k x i s
  | .change i dur => takeChange k x i dur s
  | .picture h labels => takePicture tile num k h labels s
  | .bits addr bytes => layBits k addr x bytes s
  | .shardEnd dur inside => endShard tile num k dur inside c x s
  | .caption e => putMedia k (capEvent (getMedia s k) e) s
  | .audio f => takeAudio tile k f s
  | .plan => planContext num k s
  | .decode tag => match c.cur with | some smp => issueNext .pic num k tag c x smp s | none => s
  | .shape tag => match c.cur with | some smp => issueNext .band num k tag c x smp s | none => s
  | .visual tag => match c.cur with | some smp => issueNext .visual num k tag c x smp s | none => s
  | .audioRun tag => match c.cur with | some smp => issueAudio num k tag c x smp s | none => s
  | .text tag => match c.cur with | some smp => issueNext .text num k tag c x smp s | none => s

/-- DEMUX_PACKET: the stream core takes the next thing of the context `num`, which has a shard. It does nothing while its tile is
fenced. -/
def execDemuxPacket (num : Nat) (item : DemuxItem) (s : State) : Host.Outcome State Fault Refusal :=
  .next <|
    match ctxAt s num with
    | none => s
    | some (k, c) =>
      match getSet s c.sset with
      | none => s
      | some x =>
        if c.shard.isNone ∨ c.ended ∨ blkState s (pTILE (numTile num)) = 3 ∨ blkState s (pTILE (numTile num)) = 4 then s
        else takeItem num k c x item s

/-! ### Sealing -/

/-- No item of a context waits or runs in its tile's engines. -/
def noItems (s : State) (num : Nat) : Bool :=
  [1, 2, 3].all fun e => (getEng s (numTile num) e).queue.all fun i => leAt i.desc 4 2 != num

/-- Every record of the sample is written (R127, R170, R211): its groups and chunks are run, its motion records and caption records
made. -/
def sampleDone (s : State) (num k : Nat) (x : StreamSet) (smp : Sample) : Bool :=
  let m := getMedia s k
  noItems s num && !m.targets.isEmpty &&
    (!bitOf x.outputs 0 || (m.visual.isNone && m.groups == x.clip / max 1 x.group)) &&
    (m.targets.all fun t => t.made || !makesMotion m x (t.frame - smp.firstFrame)) &&
    (!bitOf x.outputs 2 || (m.audioRun.isNone && audioKnown m smp.audioTo && m.chunks == chunkCount (graphImage s x.aud) smp)) &&
    (!bitOf x.outputs 3 || (textsKnown m smp.audioTo && m.texts == (spansIn m smp.audioFrom smp.audioTo).length))

/-- The bytes of a record as the tile DMA reads it from RECORD (R205). -/
def sealedBytes (s : State) (tile : Nat) (r : RecordRef) : List Byte :=
  if r.own = [] then memRead s.mem (sliceKey tile r.off) r.len else r.own

/-- The tile DMA's reads of a sample's records meet the slice's error words (R206). -/
def touchRecords (tile : Nat) (l : List RecordRef) (s : State) : State :=
  l.foldl (fun s r => if r.own = [] then sliceTouch tile r.off r.len s else s) s

/-- PACK_SEAL: the sample's last record is written; the pack is sealed with the sample's records, or the sample dropped
when they exceed PACK_MAX (R129, R130, R134). -/
def execPackSeal (num : Nat) (s : State) : Host.Outcome State Fault Refusal :=
  .next <|
    match ctxAt s num with
    | none => s
    | some (k, c) =>
      match c.cur, getSet s c.sset with
      | some smp, some x =>
        let tile := tileOfNum num
        let p := pTILE tile
        if ¬ sampleDone s num k x smp then s
        else if x.packMax < packLen smp.records then dropSample k (penBit p 2 s)
        else
          let s := touchRecords tile smp.records s
          let epoch := blkEpoch s p
          let len := packLen smp.records
          let data := padTo 64 (packHeader smp.flags smp.records.length len x.rank smp.packId s.tick.count epoch tile num
            smp.srcOffset ++ smp.records.flatMap (sealedBytes s tile))
          let pk : Pack := {
            rank := x.rank, id := smp.packId, len := len, tile := tile, epoch := epoch, madeTick := s.tick.count
            resident := none, peer := false, chosen := false, ring := none, data := data }
          let s := tagStage 1 smp.packId 4 true (endSampleMedia k s)
          let s := if s.pair.remake.contains smp.packId then addReg s pPAIR (R.PAIR.COUNT + 24) 1 else s
          let s := setFoundry (afterSample k c smp.packId s)
            fun f => { f with packs := f.packs ++ [pk] }
          releaseSealed tile k (setReg64 s p R.TILE.SEALED_LO (reg64 s p R.TILE.SEALED_LO + 1))
      | _, _ => s

/-! ### Step 7 -/

/-- Samples in which damage was found are planned again, and their records follow (R165). -/
def edgeReplan (s : State) : State :=
  (s.media.ctx.filter fun e => e.2.replan).foldl (fun s e =>
    match getCtx s e.1 with
    | some c => (match c.num with | some n => addMotions n e.1 (planContext n e.1 s) | none => s)
    | none => s) s

/-- A context that had no work ready in the tick keeps no credit: it issued nothing in it and has nothing to issue (R125). -/
def edgeCredit (s : State) : State :=
  setFoundry s fun f => { f with ctxs := f.ctxs.map fun e =>
    (e.1, { e.2 with credit := e.2.credit.filter fun x => x.2.2 == s.tick.count || (readyEst s x.1 e.1 e.2).isSome }) }

end Sys2Proof.Machine
end

