-- ==== Sys2Proof/Machine/Commit.lean ====
section
/-! DEFINITION. Step 3 of a tick edge: committed shadows are applied (R50, R55, R56, R59, R69, R74, R103, R270, R321, R347). -/

namespace Sys2Proof.Machine

/-- An access type that a shadow stands behind; the MSS writes PWR.CAP_MGMT as RWS (R49). -/
def shadowed (p : Page) (off : Nat) (f : RegField) : Bool :=
  f.ty == .rws || (p.ty == .pwr && off == R.PWR.CAP_MGMT && f.ty == .ro)

/-- The shadow of one register goes into force. -/
def applyReg (p : Page) (off : Nat) (s : State) : State :=
  let sh := (getShadow s p off).toNat
  let v := (fieldsAt p.ty off).foldl (fun a f =>
    if shadowed p off f then withBits a f.lo (f.hi + 1 - f.lo) (bitsOf sh f.lo (f.hi + 1 - f.lo)) else a) (reg s p off)
  setRegN s p off v

/-- The indexed table a page holds. -/
def tableOf : PageType → Option Nat
  | .feed => some 0
  | .rmt => some 1
  | .egs => some 2
  | .nvme => some 3
  | _ => none

/-- Every entry of a table goes into force. -/
def applyTable (tab : Nat) (s : State) : State :=
  let mine (k : Nat) : Bool := k / 2 ^ 20 == tab
  let keep := s.tabAct.filter fun e => !mine e.1
  { s with tabAct := (s.tabSh.filter fun e => mine e.1).foldl (fun m e => mput m e.1 e.2) keep }

/-- Offsets of a page's registers with a shadow, tables aside. -/
def shadowOffsets (s : State) (p : Page) : List Nat :=
  ((ownRows p.ty).filter fun r => r.fields.any fun f => shadowed p r.off f).flatMap fun r =>
    (rowOffsets r).filter fun o => (tabSlot s p o).isNone

/-- A field in force is brought into its range; true when it was outside. -/
def clampCommit (p : Page) (off lo n min_ max_ : Nat) (a : State × Bool) : State × Bool :=
  let v := fld a.1 p off lo n
  if v < min_ then (setFld a.1 p off lo n min_, true)
  else if max_ < v then (setFld a.1 p off lo n max_, true)
  else a

/-- R50, R55: limits, excursion lengths and droop thresholds. -/
def commitPwr (s : State) : State :=
  let cap (off : Nat) (a : State × Bool) : State × Bool := clampCommit pPWR off 16 4 0 10 (clampCommit pPWR off 0 16 150 600 a)
  let a := cap R.PWR.CAP_MGMT (cap R.PWR.CAP_HOST (s, false))
  let a := (List.range 32).foldl (fun a t => clampCommit pPWR (R.PWR.DROOP_THR + 4 * (t / 4)) (8 * (t % 4)) 8 4 30 a) a
  showLimit (if a.2 then penBit pPWR 10 a.1 else a.1)

/-- R56, R59, R69: the ranges, and the schedule that replaces an earlier one. A change already pending for the same tick is
not late. -/
def commitTick (s : State) : State :=
  let a := clampCommit pTICK R.TICK.PERIOD 16 7 50 100 (clampCommit pTICK R.TICK.PERIOD 0 13 32 4096 (s, false))
  let s := if a.2 then penBit pTICK 9 a.1 else a.1
  let per := fld s pTICK R.TICK.PERIOD 0 13
  let at_ := reg64 s pTICK R.TICK.PERIOD_AT_LO
  if per = s.tick.period then { s with tick := { s.tick with pendPeriod := none } }
  else if s.tick.pendPeriod = some (per, at_) then s
  else
    let s := if at_ ≤ s.tick.count then penBit pTICK 5 s else s
    { s with tick := { s.tick with pendPeriod := some (per, at_) } }

/-- LIFE_US of the transport (R321). -/
def commitRmt (s : State) : State :=
  let a := clampCommit pRMT R.RMT.LIFE 0 14 1000 16000 (s, false)
  if a.2 then penBit pRMT 6 a.1 else a.1

/-- What a commit of a page does beside applying its shadows. -/
def commitHook (p : Page) (s : State) : State :=
  match p.ty with
  | .pwr => commitPwr s
  | .tick => commitTick s
  | .rmt => commitRmt s
  | .egs => forN 4 s gateCommit
  | .intg => lstCommit (clampCommit pINTG R.INTG.LST_CFG 0 16 100 10000 (s, false)).1
  | .eth => ethModeChange p.inst (fld s p R.ETH.CFG 0 2) s
  | _ => s

/-- A committed change of LINK.CFG takes the link down before it applies, and trains it again after (R270). -/
def commitLink (p : Page) (apply : State → State) (s : State) : State :=
  if getShadow s p R.LINK.CFG = getReg s p R.LINK.CFG then apply s else startLink p.inst (apply (quietLink p.inst s))

/-- The commit of a page is applied (R74, R103). -/
def applyCommit (p : Page) (s : State) : State :=
  let all (s : State) : State :=
    let s := (shadowOffsets s p).foldl (fun s off => applyReg p off s) s
    match tableOf p.ty with
    | some tab => applyTable tab s
    | none => s
  let s := commitHook p (if p.ty = .link then commitLink p all s else all s)
  setRegN (setFld s p R.BLK_COMMIT 0 1 0) p R.COMMIT_TICK (s.tick.count % 2 ^ 32)

/-- Step 3: every commit that reached its page at least 1 µs before the edge; a page in RESETTING takes none (R74, R103). -/
def edgeCommits (edge : Nat) (s : State) : State :=
  let ready (e : Nat × Nat) : Option Page :=
    if e.2 + 1000 ≤ edge then (pageOf e.1).filter fun p => blkState s p != 4 else none
  let pages := s.commits.filterMap ready
  let left := s.commits.filter fun e => (ready e).isNone
  pages.foldl (fun s p => applyCommit p s) { s with commits := left }

end Sys2Proof.Machine
end

