-- ==== Sys2Proof/Machine/TickEdge.lean ====
section
/-! DEFINITION. The tick edge (R73): count, halyard, commits, period and source, gates, budgets, and the hand-overs of
step 7. -/

namespace Sys2Proof.Machine

def setTick (s : State) (f : Tick → Tick) : State := { s with tick := f s.tick }

/-! ### Step 1: the count (R57, R64, R321) -/

/-- The count a source carries for the edge at `e`. -/
def carriedCount (s : State) (src e : Nat) : Option Nat :=
  if src = 3 then s.tick.carried
  else if src = 2 then s.tick.ptpRef.map fun r => ptpCount s (r.2 + toSource (freqOf s 2) (e - r.1))
  else none

/-- A switch that is due adopts the count its source carries; one that carries a smaller count is refused, and
the device keeps its source (R64). -/
def adoptCount (e : Nat) (s : State) : Nat × State :=
  let own := s.tick.count + 1
  match s.tick.pendSwitch with
  | none => (own, s)
  | some src => match carriedCount s src e with
    | none => (own, s)
    | some c =>
      if own ≤ c then (c, s)
      else
        let s := setTick s fun t => { t with unusable := t.unusable.set src true, pendSwitch := none }
        (own, penBit pTICK 4 s)

/-- Step 1. Tick time rises by the period in force for the tick that ended and for each number skipped. -/
def edgeCount (e : Nat) (s : State) : State :=
  let (n, s) := adoptCount e s
  let us := s.tick.period * (n - s.tick.count)
  let s := setTick s fun t => { t with
    count := n, edgeAt := e, timeUs := t.timeUs + us, carried := t.carried.map (· + 1) }
  emit (.tickOut n) s

/-! ### Step 4: period and source (R59, R62, R63) -/

/-- A scheduled period change whose tick is reached; edge n falls at the same PTP time as before (R59). -/
def edgePeriod (s : State) : State :=
  match s.tick.pendPeriod with
  | some (per, at_) =>
    if s.tick.count < at_ then s
    else setTick s fun t => { t with
      period := per, pendPeriod := none, histNs := t.histNs + (t.count - t.histTick) * (t.period * 1000), histTick := t.count }
  | none => s

/-- Phase of the edge at `e` against a source, ns, positive when the device is late. -/
def srcPhase (s : State) (src e : Nat) : Int :=
  if src = 1 ∨ src = 3 then
    (e : Int) - (s.tick.lastSeen.getD src 0 + toDevice (freqOf s src) (periodsTo s src e * (s.tick.period * 1000)) : Nat)
  else if src = 2 then
    match s.tick.ptpRef with
    | some r => ((r.2 + toSource (freqOf s 2) (e - r.1) : Nat) : Int) - (ptpEdge s s.tick.count : Nat)
    | none => 0
  else 0

/-- The source switch that is due takes effect (R62); a phase error above 16 µs is stepped over (R63). -/
def edgeSource (e : Nat) (s : State) : State :=
  match s.tick.pendSwitch with
  | none => s
  | some src =>
    let d := srcPhase s src e
    let s := setFld (setFld s pTICK R.TICK.SRC_STAT 0 2 src) pTICK R.TICK.SRC_STAT 8 1 0
    let s := setTick s fun t => { t with
      pendSwitch := none, holdoverSince := none, wasLost := t.wasLost.set src false, stepping := decide (16000 < d.natAbs) }
    penBit pTICK 1 (showPhase d s)

/-- The length of the tick that begins: the period at the frequency of the active source, with a step to the source's next edge
or a slew of at most 1 µs towards it (R63, R66); in holdover the period at the frequency held, whose fractions of a ns are
carried on (R65). -/
def edgeLength (e : Nat) (s : State) : State :=
  let p := s.tick.period * 1000
  let act := activeSource s
  if inHoldover s ∧ s.tick.hold.2 ≠ 0 then
    let x := p * s.tick.hold.1 + s.tick.rem
    setTick s fun t => { t with len := x / t.hold.2, rem := x % t.hold.2, stepping := false }
  else if act = 0 ∨ inHoldover s then setTick s fun t => { t with len := p, stepping := false }
  else
    let p : Int := toDevice (freqOf s act) p
    let d := srcPhase s act e
    let adj : Int :=
      if s.tick.stepping then ((d + p / 2) % p) - p / 2
      else if 0 < d then min 1000 d else max (-1000) d
    setTick s fun t => { t with len := (p - adj).toNat, stepping := false }

/-! ### Step 6: overruns and budgets (R69 to R72, R523) -/

/-- An item still running at the edge is an overrun; one that waits for a pool slot (R180), or that a slice or a stopped block
keeps from beginning, does not run. -/
def edgeOverrun (tile e : Nat) (s : State) : State :=
  let x := getEng s tile e
  if x.queue = [] ∨ x.late ∨ s.intg.holdsEngine tile e ∨ ¬ engAccepts s tile e then s
  else if x.stall = s.tick.count then putEng tile e { x with start := s.tick.count } s
  else
    let s := putEng tile e { x with late := true } s
    penBit pTICK 6 (addReg s pTICK (R.TICK.TILE_OVR + 4 * tile) 1)

/-- A tile's budget for the tick (R70): scaled by its length and rounded down (DESIGN CHOICE, log entry 165), less the carry,
and cut where the cap requires it. By how much the cap cuts it the spec does not say. -/
def setBudget (tile : Nat) (s : State) : State :=
  let scaled := baseBudget s * s.tick.len / (s.tick.period * 1000)
  let carry := s.tick.carry.getD tile 0
  let (v, s) := if s.power.capCut then freeVal s else (0, s)
  let b := if s.power.capCut then min (scaled - carry) v else scaled - carry
  setTick s fun t => { t with
    carry := t.carry.set tile (carry - scaled)
    budget := (List.range 4).foldl (fun l e => l.set (engKey tile e) (b : Int)) t.budget }

/-- Step 6. The forced stretch of R47 ends with the tick. -/
def edgeBudgets (e : Nat) (s : State) : State :=
  let s := forN 32 s fun t s => [1, 2, 3].foldl (fun s k => edgeOverrun t k s) s
  let s := forN 32 (lstStep6 s) setBudget
  let s := if s.power.capCut then penBit pPWR 3 s else s
  showStretch e { s with power := { s.power with forced := false, capCut := false } }

/-! ### Step 7 -/

/-- The hand-over of a splice at edge T; an acceptance missing at T + 4 rolls it back (R575, R576). -/
def edgeSplice (s : State) : State :=
  match s.mgmt.splice with
  | none => s
  | some x =>
    let st := fld s pMSS R.MSS.SPLICE_STAT 24 8
    if st = 2 ∧ x.at_ ≤ s.tick.count then (List.range 5).foldl (fun s i => raiseLine (32 + i) 4 s) (setSplice 3 0 0 0 s)
    else if st = 3 ∧ x.at_ + 4 ≤ s.tick.count then
      let (v, s) := freeVal s
      rollSplice 4 (v % 256) (v / 256 % 256) s
    else s

/-- NVMe at the edge (R386, R392, R405): in a quiesce the controllers are not ready from edge q + 1 on (R52), which a skipped
number does not pass over (R64). -/
def edgeNvme (s : State) : State :=
  let s := edgeShares s
  let s := match s.power.quiesce with
    | some q => if q < s.tick.count then notReadyAll s else s
    | none => s
  edgeTemp s

/-- Step 7: the hand-overs. -/
def edgeHandOvers (s : State) : State :=
  let s := dueQuiesce s
  let s := edgeRefill (edgeRejoin (edgeReload (edgeReplan (edgeFoundry (edgeCredit s)))))
  let sus := s.feed.suspects
  let s := tellGroup sus (edgeFeed s)
  let s := edgePair (edgeCkpt (edgeFuncs (edgeNvme (edgeQps s))))
  watchStat (lstStep7 (edgeCores (edgeSplice s)))

/-! ### The edge -/

/-- A tick edge is an event of every page (R591). -/
def edgeEvents (s : State) : State :=
  let pages := (s.regs.filterMap fun e =>
    if R.PC_CTL ≤ e.1 % 0x1000 ∧ e.1 % 0x1000 < R.PC_CTL + 32 then pageOf e.1 else none).eraseDups
  pages.foldl (fun s p => perfEvent p 3 0xFF 1 s) s

/-- The ordered steps of the edge at `e`. A source that a committed TICK.SRC_PRI puts first is switched to at the next edge
(R60, R62). -/
def tickEdge (e : Nat) (s : State) : State :=
  let prev := s.tick.count
  let s := edgeHawser (edgeCount e (edgeEvents s))
  let s := edgeCommits e (halyardEdge prev e s)
  let s := edgeLength e (chooseSource (edgeSource e (edgePeriod s)))
  let s := edgeBudgets e (edgeGates s)
  halyardAfterEdge prev (edgeHandOvers s)

/-- TICK_EDGE at `t`: the next edge, once its time has come, while the main domain runs; line 0 of the MSS runs with it (R572). -/
def execTickEdge (t : Nat) (s : State) : Host.Outcome State Fault Refusal :=
  .next <|
    let e := s.tick.edgeAt + s.tick.len
    if t < e ∨ ¬ s.tick.started ∨ s.power.phase ≠ .running then s
    else tickEdge e (firmwareRestart t (atTime t s))

end Sys2Proof.Machine
end

