-- ==== Sys2Proof/Machine/Dispatch.lean ====
section
/-! DEFINITION. One arm per command: the whole machine is the list of these meanings. -/

namespace Sys2Proof.Machine
open Sys2Proof

def exec (i : Instr) (s : State) : Host.Outcome State Fault Refusal :=
  match i with
  | .junctionSample t tj => Sys2Proof.Machine.execJunctionSample t tj s
  | .thermStepLeave t => Sys2Proof.Machine.execThermStepLeave t s
  | .mgmtPowerOn t => Sys2Proof.Machine.execMgmtPowerOn t s
  | .mgmtReset t => Sys2Proof.Machine.execMgmtReset t s
  | .mainSample t v => Sys2Proof.Machine.execMainSample t v s
  | .sagStep1Leave t => Sys2Proof.Machine.execSagStep1Leave t s
  | .quiesceEnd t => Sys2Proof.Machine.execQuiesceEnd t s
  | .shutdownRailsOff t => Sys2Proof.Machine.execShutdownRailsOff t s
  | .inputOvervoltage t => Sys2Proof.Machine.execInputOvervoltage t s
  | .overvoltageRestart t => Sys2Proof.Machine.execOvervoltageRestart t s
  | .mainRestart t => Sys2Proof.Machine.execMainRestart t s
  | .auxSample t v => Sys2Proof.Machine.execAuxSample t v s
  | .alwaysOnStart t v refused => Sys2Proof.Machine.execAlwaysOnStart t v refused s
  | .alwaysOnStop t => Sys2Proof.Machine.execAlwaysOnStop t s
  | .mainStageEnable t => Sys2Proof.Machine.execMainStageEnable t s
  | .railsGood t => Sys2Proof.Machine.execRailsGood t s
  | .railFail t sensor => Sys2Proof.Machine.execRailFail t sensor s
  | .railRetry t => Sys2Proof.Machine.execRailRetry t s
  | .resetNLow since t => Sys2Proof.Machine.execResetNLow since t s
  | .resetNRise t => Sys2Proof.Machine.execResetNRise t s
  | .mainResetTakeEffect t => Sys2Proof.Machine.execMainResetTakeEffect t s
  | .powerSample t w => Sys2Proof.Machine.execPowerSample t w s
  | .capExcursionLimit t => Sys2Proof.Machine.execCapExcursionLimit t s
  | .droopTrip t tile mv => Sys2Proof.Machine.execDroopTrip t tile mv s
  | .droopRelease t tile => Sys2Proof.Machine.execDroopRelease t tile s
  | .configRequest t link func bme w => Sys2Proof.Machine.execConfigRequest t link func bme w s
  | .tickEdge t => Sys2Proof.Machine.execTickEdge t s
  | .itemExpiry tile eng cyc left => Sys2Proof.Machine.execItemExpiry tile eng cyc left s
  | .tickinEdge t => Sys2Proof.Machine.execTickinEdge t s
  | .ptpMessage t port domain sync offset ptpNs => Sys2Proof.Machine.execPtpMessage t port domain sync offset ptpNs s
  | .srcLost t src => Sys2Proof.Machine.execSrcLost t src s
  | .holdoverExpiry t => Sys2Proof.Machine.execHoldoverExpiry t s
  | .tickCountLoRead r => Sys2Proof.Machine.execTickCountLoRead r s
  | .blkCommit t p => Sys2Proof.Machine.execBlkCommit t p s
  | .halyardFire t v => Sys2Proof.Machine.execHalyardFire t v s
  | .halyardIn t => Sys2Proof.Machine.execHalyardIn t s
  | .halyardMgmtTrigger t => Sys2Proof.Machine.execHalyardMgmtTrigger t s
  | .snapValidClear p => Sys2Proof.Machine.execSnapValidClear p s
  | .badAccess func addr size write => Sys2Proof.Machine.execBadAccess func addr size write s
  | .registerWrite a addr v hi => Sys2Proof.Machine.execRegisterWrite a addr v hi s
  | .pennantWrite a p v => Sys2Proof.Machine.execPennantWrite a p v s
  | .pennantForce a p v => Sys2Proof.Machine.execPennantForce a p v s
  | .glbDrvAbi v => Sys2Proof.Machine.execGlbDrvAbi v s
  | .funcDrvAbi func v => Sys2Proof.Machine.execFuncDrvAbi func v s
  | .blkEnable t a p => Sys2Proof.Machine.execBlkEnable t a p s
  | .blkDisable t a p => Sys2Proof.Machine.execBlkDisable t a p s
  | .blkStopped t p => Sys2Proof.Machine.execBlkStopped t p s
  | .blkFence t a p => Sys2Proof.Machine.execBlkFence t a p s
  | .blkUnfence t a p => Sys2Proof.Machine.execBlkUnfence t a p s
  | .blkSoftReset t a p => Sys2Proof.Machine.execBlkSoftReset t a p s
  | .softResetDone t p => Sys2Proof.Machine.execSoftResetDone t p s
  | .sqTail func pair index => Sys2Proof.Machine.execSqTail func pair index s
  | .cqHead func pair index => Sys2Proof.Machine.execCqHead func pair index s
  | .commandFetch func pair dw => Sys2Proof.Machine.execCommandFetch func pair dw s
  | .cmdNop k => Sys2Proof.Machine.execCmdNop k s
  | .createQpair k => Sys2Proof.Machine.execCreateQpair k s
  | .deleteQpair k => Sys2Proof.Machine.execDeleteQpair k s
  | .qpairDeleted func pair => Sys2Proof.Machine.execQpairDeleted func pair s
  | .queryObject k => Sys2Proof.Machine.execQueryObject k s
  | .ssetCreate k desc => Sys2Proof.Machine.execSsetCreate k desc s
  | .ssetAddShards k entries => Sys2Proof.Machine.execSsetAddShards k entries s
  | .ssetStart k => Sys2Proof.Machine.execSsetStart k s
  | .ssetPause k => Sys2Proof.Machine.execSsetPause k s
  | .ssetResume k => Sys2Proof.Machine.execSsetResume k s
  | .ssetDrain k => Sys2Proof.Machine.execSsetDrain k s
  | .ssetDestroy k => Sys2Proof.Machine.execSsetDestroy k s
  | .ctxMove k => Sys2Proof.Machine.execCtxMove k s
  | .tileVacate k => Sys2Proof.Machine.execTileVacate k s
  | .tileAdmit k => Sys2Proof.Machine.execTileAdmit k s
  | .resvCfg k => Sys2Proof.Machine.execResvCfg k s
  | .sampleStart num => Sys2Proof.Machine.execSampleStart num s
  | .packSeal num => Sys2Proof.Machine.execPackSeal num s
  | .sourceRead num off bytes dur => Sys2Proof.Machine.execSourceRead num off bytes dur s
  | .demuxPacket num item => Sys2Proof.Machine.execDemuxPacket num item s
  | .decode tile e motion => Sys2Proof.Machine.execDecode tile e motion s
  | .parse tile e motion => Sys2Proof.Machine.execParse tile e motion s
  | .releaseSlot tile => Sys2Proof.Machine.execReleaseSlot tile s
  | .shape tile cyc => Sys2Proof.Machine.execShape tile cyc s
  | .run tile cyc => Sys2Proof.Machine.execRun tile cyc s
  | .emitText tile late => Sys2Proof.Machine.execEmitText tile late s
  | .itemLimit tile eng e => Sys2Proof.Machine.execItemLimit tile eng e s
  | .tensorItemLimit tile used late => Sys2Proof.Machine.execTensorItemLimit tile used late s
  | .shpProfileLoad k bytes => Sys2Proof.Machine.execShpProfileLoad k bytes s
  | .shpProfileDrop k => Sys2Proof.Machine.execShpProfileDrop k s
  | .shardProbe k entry e => Sys2Proof.Machine.execShardProbe k entry e s
  | .shardProbeTimeout k t => Sys2Proof.Machine.execShardProbeTimeout k t s
  | .graphLoad k image => Sys2Proof.Machine.execGraphLoad k image s
  | .weightCopyDone tile g => Sys2Proof.Machine.execWeightCopyDone tile g s
  | .graphDrop k => Sys2Proof.Machine.execGraphDrop k s
  | .refillEnd tile => Sys2Proof.Machine.execRefillEnd tile s
  | .sramScrub tile off pass => Sys2Proof.Machine.execSramScrub tile off pass s
  | .illegal x => Sys2Proof.Machine.execIllegal x s
  | .nop x => Sys2Proof.Machine.execNop x s
  | .fence x => Sys2Proof.Machine.execFence x s
  | .trap x imm => Sys2Proof.Machine.execTrap x imm s
  | .mov x d r => Sys2Proof.Machine.execMov x d r s
  | .movi x d imm => Sys2Proof.Machine.execMovi x d imm s
  | .movi64 x d imm => Sys2Proof.Machine.execMovi64 x d imm s
  | .add x d r => Sys2Proof.Machine.execAdd x d r s
  | .adc x d r => Sys2Proof.Machine.execAdc x d r s
  | .sub x d r => Sys2Proof.Machine.execSub x d r s
  | .sbb x d r => Sys2Proof.Machine.execSbb x d r s
  | .and x d r => Sys2Proof.Machine.execAnd x d r s
  | .or x d r => Sys2Proof.Machine.execOr x d r s
  | .xor x d r => Sys2Proof.Machine.execXor x d r s
  | .cmp x d r => Sys2Proof.Machine.execCmp x d r s
  | .tst x d r => Sys2Proof.Machine.execTst x d r s
  | .addi x d imm => Sys2Proof.Machine.execAddi x d imm s
  | .cmpi x d imm => Sys2Proof.Machine.execCmpi x d imm s
  | .andi x d imm => Sys2Proof.Machine.execAndi x d imm s
  | .shl x d r => Sys2Proof.Machine.execShl x d r s
  | .shr x d r => Sys2Proof.Machine.execShr x d r s
  | .sar x d r => Sys2Proof.Machine.execSar x d r s
  | .rol x d r => Sys2Proof.Machine.execRol x d r s
  | .shli x d k => Sys2Proof.Machine.execShli x d k s
  | .shri x d k => Sys2Proof.Machine.execShri x d k s
  | .sari x d k => Sys2Proof.Machine.execSari x d k s
  | .roli x d k => Sys2Proof.Machine.execRoli x d k s
  | .mul x d r => Sys2Proof.Machine.execMul x d r s
  | .mulhu x d r => Sys2Proof.Machine.execMulhu x d r s
  | .divu x d r => Sys2Proof.Machine.execDivu x d r s
  | .remu x d r => Sys2Proof.Machine.execRemu x d r s
  | .divs x d r => Sys2Proof.Machine.execDivs x d r s
  | .rems x d r => Sys2Proof.Machine.execRems x d r s
  | .ld x d b disp => Sys2Proof.Machine.execLd x d b disp s
  | .st x r b disp => Sys2Proof.Machine.execSt x r b disp s
  | .lds x d b disp => Sys2Proof.Machine.execLds x d b disp s
  | .xchg x d r => Sys2Proof.Machine.execXchg x d r s
  | .cas x d b r => Sys2Proof.Machine.execCas x d b r s
  | .amoadd x d r => Sys2Proof.Machine.execAmoadd x d r s
  | .br x disp => Sys2Proof.Machine.execBr x disp s
  | .bc x cond disp => Sys2Proof.Machine.execBc x cond disp s
  | .jmp x r => Sys2Proof.Machine.execJmp x r s
  | .call x disp => Sys2Proof.Machine.execCall x disp s
  | .callr x r => Sys2Proof.Machine.execCallr x r s
  | .ret x => Sys2Proof.Machine.execRet x s
  | .daa x d => Sys2Proof.Machine.execDaa x d s
  | .das x d => Sys2Proof.Machine.execDas x d s
  | .bcdadd x d r => Sys2Proof.Machine.execBcdadd x d r s
  | .bcdadc x d r => Sys2Proof.Machine.execBcdadc x d r s
  | .bcdsub x d r => Sys2Proof.Machine.execBcdsub x d r s
  | .bcdsbb x d r => Sys2Proof.Machine.execBcdsbb x d r s
  | .bcdcmp x d r => Sys2Proof.Machine.execBcdcmp x d r s
  | .bcdchk x r => Sys2Proof.Machine.execBcdchk x r s
  | .b2bcd x d r => Sys2Proof.Machine.execB2bcd x d r s
  | .bcd2b x d r => Sys2Proof.Machine.execBcd2b x d r s
  | .tcadd x d r rate => Sys2Proof.Machine.execTcadd x d r rate s
  | .tcsub x d r rate => Sys2Proof.Machine.execTcsub x d r rate s
  | .tc2f x d r rate => Sys2Proof.Machine.execTc2f x d r rate s
  | .f2tc x d r rate => Sys2Proof.Machine.execF2tc x d r rate s
  | .tcchk x r rate => Sys2Proof.Machine.execTcchk x r rate s
  | .mfs x d n => Sys2Proof.Machine.execMfs x d n s
  | .mts x n r => Sys2Proof.Machine.execMts x n r s
  | .gcall x k => Sys2Proof.Machine.execGcall x k s
  | .gret x v => Sys2Proof.Machine.execGret x v s
  | .sigu x v => Sys2Proof.Machine.execSigu x v s
  | .sigck x v => Sys2Proof.Machine.execSigck x v s
  | .rsspill x k => Sys2Proof.Machine.execRsspill x k s
  | .rsfill x k => Sys2Proof.Machine.execRsfill x k s
  | .eret x => Sys2Proof.Machine.execEret x s
  | .wfi x => Sys2Proof.Machine.execWfi x s
  | .rtsync x => Sys2Proof.Machine.execRtsync x s
  | .isync x => Sys2Proof.Machine.execIsync x s
  | .wdkick x => Sys2Proof.Machine.execWdkick x s
  | .dpush x eng r => Sys2Proof.Machine.execDpush x eng r s
  | .bread x d eng => Sys2Proof.Machine.execBread x d eng s
  | .rpop x d => Sys2Proof.Machine.execRpop x d s
  | .wait x d m => Sys2Proof.Machine.execWait x d m s
  | .interruptTake core => Sys2Proof.Machine.execInterruptTake core s
  | .watchdogExpiry core => Sys2Proof.Machine.execWatchdogExpiry core s
  | .coreStopResponse t core => Sys2Proof.Machine.execCoreStopResponse t core s
  | .phyTrainDone t link passed failed => Sys2Proof.Machine.execPhyTrainDone t link passed failed s
  | .flitLockDone t link passed failed => Sys2Proof.Machine.execFlitLockDone t link passed failed s
  | .bringUpLimit t link => Sys2Proof.Machine.execBringUpLimit t link s
  | .linkRetry t link => Sys2Proof.Machine.execLinkRetry t link s
  | .param t link payload => Sys2Proof.Machine.execParam t link payload s
  | .paramAck t link => Sys2Proof.Machine.execParamAck t link s
  | .flitReceive t link lane corr ucw errs bytes => Sys2Proof.Machine.execFlitReceive t link lane corr ucw errs bytes s
  | .replayTimeout t link => Sys2Proof.Machine.execReplayTimeout t link s
  | .linkDown t link => Sys2Proof.Machine.execLinkDown t link s
  | .laneFault t link lane => Sys2Proof.Machine.execLaneFault t link lane s
  | .laneDrop t link lane => Sys2Proof.Machine.execLaneDrop t link lane s
  | .laneDropAck t link => Sys2Proof.Machine.execLaneDropAck t link s
  | .retrain t link => Sys2Proof.Machine.execRetrain t link s
  | .patSelect t link v => Sys2Proof.Machine.execPatSelect t link v s
  | .patClear link => Sys2Proof.Machine.execPatClear link s
  | .linkWrite link addr data => Sys2Proof.Machine.execLinkWrite link addr data s
  | .linkRead link tag addr len host => Sys2Proof.Machine.execLinkRead link tag addr len host s
  | .readResp t link tag status off data => Sys2Proof.Machine.execReadResp t link tag status off data s
  | .captureReadTimeout t link tag => Sys2Proof.Machine.execCaptureReadTimeout t link tag s
  | .packReject link ring rank id => Sys2Proof.Machine.execPackReject link ring rank id s
  | .feedDoorbell link ring value => Sys2Proof.Machine.execFeedDoorbell link ring value s
  | .rmtAccDoorbell link target value => Sys2Proof.Machine.execRmtAccDoorbell link target value s
  | .ringCreate k desc => Sys2Proof.Machine.execRingCreate k desc s
  | .ringStart k => Sys2Proof.Machine.execRingStart k s
  | .ringStop k => Sys2Proof.Machine.execRingStop k s
  | .ringResume k => Sys2Proof.Machine.execRingResume k s
  | .ringDestroy k => Sys2Proof.Machine.execRingDestroy k s
  | .xchgGroup k qps => Sys2Proof.Machine.execXchgGroup k qps s
  | .packDraw t ring pick poison => Sys2Proof.Machine.execPackDraw t ring pick poison s
  | .portDownLimit port => Sys2Proof.Machine.execPortDownLimit port s
  | .xchgSend t rank id member poison => Sys2Proof.Machine.execXchgSend t rank id member poison s
  | .xchgFlushDone q => Sys2Proof.Machine.execXchgFlushDone q s
  | .rmtPacketReceive t sub ce bytes host => Sys2Proof.Machine.execRmtPacketReceive t sub ce bytes host s
  | .rmtDbHi func v => Sys2Proof.Machine.execRmtDbHi func v s
  | .wqeFetch t q rq bytes => Sys2Proof.Machine.execWqeFetch t q rq bytes s
  | .rmtSend t q host => Sys2Proof.Machine.execRmtSend t q host s
  | .rmtWrite t q host => Sys2Proof.Machine.execRmtWrite t q host s
  | .rmtRead t q => Sys2Proof.Machine.execRmtRead t q s
  | .rmtFlush t q => Sys2Proof.Machine.execRmtFlush t q s
  | .hitch t q => Sys2Proof.Machine.execHitch t q s
  | .hitchRelease t q => Sys2Proof.Machine.execHitchRelease t q s
  | .rmtRecv t q => Sys2Proof.Machine.execRmtRecv t q s
  | .rtoExpiry t q psn => Sys2Proof.Machine.execRtoExpiry t q psn s
  | .ackTimer t q => Sys2Proof.Machine.execAckTimer t q s
  | .rnrRetryExpiry t q => Sys2Proof.Machine.execRnrRetryExpiry t q s
  | .qpCreate k => Sys2Proof.Machine.execQpCreate k s
  | .qpConnect k => Sys2Proof.Machine.execQpConnect k s
  | .qpModify k => Sys2Proof.Machine.execQpModify k s
  | .qpReset k => Sys2Proof.Machine.execQpReset k s
  | .qpDestroy k => Sys2Proof.Machine.execQpDestroy k s
  | .quiescingEnd q => Sys2Proof.Machine.execQuiescingEnd q s
  | .egressTransmit t sub => Sys2Proof.Machine.execEgressTransmit t sub s
  | .gateEntry t port => Sys2Proof.Machine.execGateEntry t port s
  | .ethFrameReceive t sub fec levels bytes host => Sys2Proof.Machine.execEthFrameReceive t sub fec levels bytes host s
  | .pfcPauseExpiry t sub prio => Sys2Proof.Machine.execPfcPauseExpiry t sub prio s
  | .subportDown t sub => Sys2Proof.Machine.execSubportDown t sub s
  | .flr t func => Sys2Proof.Machine.execFlr t func s
  | .busMasterDisable t func => Sys2Proof.Machine.execBusMasterDisable t func s
  | .vfDisable t pf => Sys2Proof.Machine.execVfDisable t pf s
  | .perst t link => Sys2Proof.Machine.execPerst t link s
  | .hostLinkDown t link => Sys2Proof.Machine.execHostLinkDown t link s
  | .completionReceive t link func tag outstanding err => Sys2Proof.Machine.execCompletionReceive t link func tag outstanding err s
  | .cplTimeout t func tag issued engine => Sys2Proof.Machine.execCplTimeout t func tag issued engine s
  | .quarantineExpiry t link tag => Sys2Proof.Machine.execQuarantineExpiry t link tag s
  | .hostWindowAccess func off len data => Sys2Proof.Machine.execHostWindowAccess func off len data s
  | .funcAssign k => Sys2Proof.Machine.execFuncAssign k s
  | .funcFreeze k => Sys2Proof.Machine.execFuncFreeze k s
  | .freezeDone t func => Sys2Proof.Machine.execFreezeDone t func s
  | .freezeTimeout t func => Sys2Proof.Machine.execFreezeTimeout t func s
  | .funcSave k => Sys2Proof.Machine.execFuncSave k s
  | .funcRestore k blob => Sys2Proof.Machine.execFuncRestore k blob s
  | .funcThaw k => Sys2Proof.Machine.execFuncThaw k s
  | .dirtyLogStart k => Sys2Proof.Machine.execDirtyLogStart k s
  | .dirtyLogSync k => Sys2Proof.Machine.execDirtyLogSync k s
  | .dirtyLogStop k => Sys2Proof.Machine.execDirtyLogStop k s
  | .heartbeat t func v => Sys2Proof.Machine.execHeartbeat t func v s
  | .heartbeatTimeout func => Sys2Proof.Machine.execHeartbeatTimeout func s
  | .adopt t func abi => Sys2Proof.Machine.execAdopt t func abi s
  | .funcReset t func => Sys2Proof.Machine.execFuncReset t func s
  | .funcResetDone t func => Sys2Proof.Machine.execFuncResetDone t func s
  | .graceEnd t => Sys2Proof.Machine.execGraceEnd t s
  | .nvmeDoorbell func queue cq value => Sys2Proof.Machine.execNvmeDoorbell func queue cq value s
  | .nvmeCommandFetch t func queue sqe => Sys2Proof.Machine.execNvmeCommandFetch t func queue sqe s
  | .controllerEnable t func cc aqa asq acq => Sys2Proof.Machine.execControllerEnable t func cc aqa asq acq s
  | .controllerReset t func => Sys2Proof.Machine.execControllerReset t func s
  | .shutdownNotify t func => Sys2Proof.Machine.execShutdownNotify t func s
  | .createIoSq t func sq cid => Sys2Proof.Machine.execCreateIoSq t func sq cid s
  | .deleteIoSq t func sq cid => Sys2Proof.Machine.execDeleteIoSq t func sq cid s
  | .createIoCq t func sq cid => Sys2Proof.Machine.execCreateIoCq t func sq cid s
  | .deleteIoCq t func sq cid => Sys2Proof.Machine.execDeleteIoCq t func sq cid s
  | .getLogPage t func sq cid segs fail => Sys2Proof.Machine.execGetLogPage t func sq cid segs fail s
  | .identify t func sq cid segs fail => Sys2Proof.Machine.execIdentify t func sq cid segs fail s
  | .abort t func sq cid => Sys2Proof.Machine.execAbort t func sq cid s
  | .setFeatures t func sq cid => Sys2Proof.Machine.execSetFeatures t func sq cid s
  | .getFeatures t func sq cid => Sys2Proof.Machine.execGetFeatures t func sq cid s
  | .asyncEventRequest t func sq cid => Sys2Proof.Machine.execAsyncEventRequest t func sq cid s
  | .nsCreate t func sq cid data fail => Sys2Proof.Machine.execNsCreate t func sq cid data fail s
  | .nsDelete t func sq cid => Sys2Proof.Machine.execNsDelete t func sq cid s
  | .nsAttach t func sq cid data fail => Sys2Proof.Machine.execNsAttach t func sq cid data fail s
  | .nsDetach t func sq cid data fail => Sys2Proof.Machine.execNsDetach t func sq cid data fail s
  | .firmwareCommit t func sq cid chk => Sys2Proof.Machine.execFirmwareCommit t func sq cid chk s
  | .firmwareImageDownload t func sq cid data fail => Sys2Proof.Machine.execFirmwareImageDownload t func sq cid data fail s
  | .formatNvm t func sq cid => Sys2Proof.Machine.execFormatNvm t func sq cid s
  | .formatDone t nsid => Sys2Proof.Machine.execFormatDone t nsid s
  | .sanitize t func sq cid => Sys2Proof.Machine.execSanitize t func sq cid s
  | .sanitizeDone t => Sys2Proof.Machine.execSanitizeDone t s
  | .nvmeWrite t func sq cid data mdata fail progs place => Sys2Proof.Machine.execNvmeWrite t func sq cid data mdata fail progs place s
  | .writeProgrammed t func sq cid => Sys2Proof.Machine.execWriteProgrammed t func sq cid s
  | .nvmeRead t func sq cid segs fail bad => Sys2Proof.Machine.execNvmeRead t func sq cid segs fail bad s
  | .nvmeFlush t func sq cid => Sys2Proof.Machine.execNvmeFlush t func sq cid s
  | .nvmeCompare t func sq cid data mdata fail bad => Sys2Proof.Machine.execNvmeCompare t func sq cid data mdata fail bad s
  | .writeZeroes t func sq cid progs place => Sys2Proof.Machine.execWriteZeroes t func sq cid progs place s
  | .datasetManagement t func sq cid ranges fail => Sys2Proof.Machine.execDatasetManagement t func sq cid ranges fail s
  | .nvmeVerify t func sq cid bad => Sys2Proof.Machine.execNvmeVerify t func sq cid bad s
  | .mediumRead t die block step entry bits staged found => Sys2Proof.Machine.execMediumRead t die block step entry bits staged found s
  | .dieUnresponsive t die => Sys2Proof.Machine.execDieUnresponsive t die s
  | .rebuildDone t die rows full => Sys2Proof.Machine.execRebuildDone t die rows full s
  | .fold t pos place step final items => Sys2Proof.Machine.execFold t pos place step final items s
  | .patrolRead t die block step entry bits found => Sys2Proof.Machine.execPatrolRead t die block step entry bits found s
  | .wlMove t die block => Sys2Proof.Machine.execWlMove t die block s
  | .programFail t die block => Sys2Proof.Machine.execProgramFail t die block s
  | .eraseFail t die block => Sys2Proof.Machine.execEraseFail t die block s
  | .ftlRecovery t dies valid0 valid1 differ clashes ms => Sys2Proof.Machine.execFtlRecovery t dies valid0 valid1 differ clashes ms s
  | .groupForm k desc => Sys2Proof.Machine.execGroupForm k desc s
  | .groupFormTimeout t => Sys2Proof.Machine.execGroupFormTimeout t s
  | .groupShrink k => Sys2Proof.Machine.execGroupShrink k s
  | .groupLeave k => Sys2Proof.Machine.execGroupLeave k s
  | .sessionOpen k => Sys2Proof.Machine.execSessionOpen k s
  | .sessionStart k => Sys2Proof.Machine.execSessionStart k s
  | .sessionAbort k => Sys2Proof.Machine.execSessionAbort k s
  | .sessionClose k => Sys2Proof.Machine.execSessionClose k s
  | .restoreScan k => Sys2Proof.Machine.execRestoreScan k s
  | .shardExport k => Sys2Proof.Machine.execShardExport k s
  | .captureTimeout t => Sys2Proof.Machine.execCaptureTimeout t s
  | .hello t m uid body => Sys2Proof.Machine.execHello t m uid body s
  | .unit t m digest data => Sys2Proof.Machine.execUnit t m digest data s
  | .unitLand t unit => Sys2Proof.Machine.execUnitLand t unit s
  | .unitAck t m code digest => Sys2Proof.Machine.execUnitAck t m code digest s
  | .manifest t m body => Sys2Proof.Machine.execManifest t m body s
  | .manifestAck t m code => Sys2Proof.Machine.execManifestAck t m code s
  | .landed t m => Sys2Proof.Machine.execLanded t m s
  | .failed t m reason => Sys2Proof.Machine.execFailed t m reason s
  | .lost t m rank => Sys2Proof.Machine.execLost t m rank s
  | .progress t m => Sys2Proof.Machine.execProgress t m s
  | .unitReq t m => Sys2Proof.Machine.execUnitReq t m s
  | .unitData t m code data => Sys2Proof.Machine.execUnitData t m code data s
  | .verdict t m reason shard steps => Sys2Proof.Machine.execVerdict t m reason shard steps s
  | .mirror t epoch seq part parts data forms => Sys2Proof.Machine.execMirror t epoch seq part parts data forms s
  | .mirrorAck t epoch seq => Sys2Proof.Machine.execMirrorAck t epoch seq s
  | .tickFrame t epoch count lease echo ofs hold => Sys2Proof.Machine.execTickFrame t epoch count lease echo ofs hold s
  | .hawserHalyard t epoch count seq => Sys2Proof.Machine.execHawserHalyard t epoch count seq s
  | .resync t epoch seq part parts data forms kept ties => Sys2Proof.Machine.execResync t epoch seq part parts data forms kept ties s
  | .resyncAck t epoch base => Sys2Proof.Machine.execResyncAck t epoch base s
  | .join t uid last state digest clash => Sys2Proof.Machine.execJoin t uid last state digest clash s
  | .joinSend t => Sys2Proof.Machine.execJoinSend t s
  | .takeoverNotice t final => Sys2Proof.Machine.execTakeoverNotice t final s
  | .leaveNotice t => Sys2Proof.Machine.execLeaveNotice t s
  | .pairJoin k => Sys2Proof.Machine.execPairJoin k s
  | .pairLeave k => Sys2Proof.Machine.execPairLeave k s
  | .witness t uid epoch main seen lease => Sys2Proof.Machine.execWitness t uid epoch main seen lease s
  | .witnessSend t => Sys2Proof.Machine.execWitnessSend t s
  | .leaseExpiry t => Sys2Proof.Machine.execLeaseExpiry t s
  | .takeover t reads => Sys2Proof.Machine.execTakeover t reads s
  | .splitEntry t => Sys2Proof.Machine.execSplitEntry t s
  | .keyGen k => Sys2Proof.Machine.execKeyGen k s
  | .keyImport k src => Sys2Proof.Machine.execKeyImport k src s
  | .keyExport k => Sys2Proof.Machine.execKeyExport k s
  | .keyDestroy k => Sys2Proof.Machine.execKeyDestroy k s
  | .keyErase slot => Sys2Proof.Machine.execKeyErase slot s
  | .gcmEnc k job unit x => Sys2Proof.Machine.execGcmEnc k job unit x s
  | .gcmDec k job unit x => Sys2Proof.Machine.execGcmDec k job unit x s
  | .xtsEnc k job unit x => Sys2Proof.Machine.execXtsEnc k job unit x s
  | .xtsDec k job unit x => Sys2Proof.Machine.execXtsDec k job unit x s
  | .gmacGen k job unit x => Sys2Proof.Machine.execGmacGen k job unit x s
  | .gmacVer k job unit x => Sys2Proof.Machine.execGmacVer k job unit x s
  | .hmacGen k job unit x => Sys2Proof.Machine.execHmacGen k job unit x s
  | .hmacVer k job unit x => Sys2Proof.Machine.execHmacVer k job unit x s
  | .sha256 k job unit x => Sys2Proof.Machine.execSha256 k job unit x s
  | .sha3256 k job unit x => Sys2Proof.Machine.execSha3256 k job unit x s
  | .lstRun q t fail => Sys2Proof.Machine.execLstRun q t fail s
  | .mbistRun q t fails => Sys2Proof.Machine.execMbistRun q t fails s
  | .suspectForce q => Sys2Proof.Machine.execSuspectForce q s
  | .injectSramSingle q => Sys2Proof.Machine.execInjectSramSingle q s
  | .injectSramDouble q => Sys2Proof.Machine.execInjectSramDouble q s
  | .injectDramSingle q => Sys2Proof.Machine.execInjectDramSingle q s
  | .injectDramDouble q => Sys2Proof.Machine.execInjectDramDouble q s
  | .injectSliceFail q => Sys2Proof.Machine.execInjectSliceFail q s
  | .lstSlice t ok verified => Sys2Proof.Machine.execLstSlice t ok verified s
  | .lstDefer t => Sys2Proof.Machine.execLstDefer t s
  | .lstForce t ok verified cycles => Sys2Proof.Machine.execLstForce t ok verified cycles s
  | .checkedError t p control => Sys2Proof.Machine.execCheckedError t p control s
  | .dramScrub t off linkCe retries fail pass => Sys2Proof.Machine.execDramScrub t off linkCe retries fail pass s
  | .memcRecal t m ch => Sys2Proof.Machine.execMemcRecal t m ch s
  | .memcRetrain t m ch ok => Sys2Proof.Machine.execMemcRetrain t m ch ok s
  | .sensorSample t id v => Sys2Proof.Machine.execSensorSample t id v s
  | .logCommit t seq => Sys2Proof.Machine.execLogCommit t seq s
  | .bootReady t => Sys2Proof.Machine.execBootReady t s
  | .mssWatchdog t => Sys2Proof.Machine.execMssWatchdog t s
  | .mssReset t => Sys2Proof.Machine.execMssReset t s
  | .setEndpointId bus op eid => Sys2Proof.Machine.execSetEndpointId bus op eid s
  | .getVersion t bus sess req => Sys2Proof.Machine.execGetVersion t bus sess req s
  | .getCapabilities t bus sess req => Sys2Proof.Machine.execGetCapabilities t bus sess req s
  | .negotiateAlgorithms t bus sess req => Sys2Proof.Machine.execNegotiateAlgorithms t bus sess req s
  | .getDigests t bus sess req => Sys2Proof.Machine.execGetDigests t bus sess req s
  | .getCertificate t bus sess req => Sys2Proof.Machine.execGetCertificate t bus sess req s
  | .challenge t bus sess req => Sys2Proof.Machine.execChallenge t bus sess req s
  | .getMeasurements t bus sess req => Sys2Proof.Machine.execGetMeasurements t bus sess req s
  | .keyExchange t bus sess req => Sys2Proof.Machine.execKeyExchange t bus sess req s
  | .finish t bus sess req => Sys2Proof.Machine.execFinish t bus sess req s
  | .spdmHeartbeat t bus sess req => Sys2Proof.Machine.execSpdmHeartbeat t bus sess req s
  | .keyUpdate t bus sess req => Sys2Proof.Machine.execKeyUpdate t bus sess req s
  | .endSession t bus sess req => Sys2Proof.Machine.execEndSession t bus sess req s
  | .chunkSend t bus sess req => Sys2Proof.Machine.execChunkSend t bus sess req s
  | .chunkGet t bus sess req => Sys2Proof.Machine.execChunkGet t bus sess req s
  | .pqSig t bus sess req => Sys2Proof.Machine.execPqSig t bus sess req s
  | .pqCert t bus sess req => Sys2Proof.Machine.execPqCert t bus sess req s
  | .getTid t bus req => Sys2Proof.Machine.execGetTid t bus req s
  | .setTid t bus req => Sys2Proof.Machine.execSetTid t bus req s
  | .getPldmVersion t bus req => Sys2Proof.Machine.execGetPldmVersion t bus req s
  | .getPldmTypes t bus req => Sys2Proof.Machine.execGetPldmTypes t bus req s
  | .getPldmCommands t bus req => Sys2Proof.Machine.execGetPldmCommands t bus req s
  | .getPdr t bus req => Sys2Proof.Machine.execGetPdr t bus req s
  | .getPdrRepositoryInfo t bus req => Sys2Proof.Machine.execGetPdrRepositoryInfo t bus req s
  | .getSensorReading t bus req => Sys2Proof.Machine.execGetSensorReading t bus req s
  | .setSensorThresholds t bus req => Sys2Proof.Machine.execSetSensorThresholds t bus req s
  | .getSensorThresholds t bus req => Sys2Proof.Machine.execGetSensorThresholds t bus req s
  | .setEventReceiver t bus req => Sys2Proof.Machine.execSetEventReceiver t bus req s
  | .pollForPlatformEventMessage t bus req => Sys2Proof.Machine.execPollForPlatformEventMessage t bus req s
  | .setNumericEffecterValue t bus req => Sys2Proof.Machine.execSetNumericEffecterValue t bus req s
  | .getNumericEffecterValue t bus req => Sys2Proof.Machine.execGetNumericEffecterValue t bus req s
  | .requestUpdate t => Sys2Proof.Machine.execRequestUpdate t s
  | .activateFirmware t self => Sys2Proof.Machine.execActivateFirmware t self s
  | .spliceCommit t accepted => Sys2Proof.Machine.execSpliceCommit t accepted s
  | .spliceRollback t reason core comp => Sys2Proof.Machine.execSpliceRollback t reason core comp s
  | .pcCtlWrite a p idx v => Sys2Proof.Machine.execPcCtlWrite a p idx v s
  | .pcClear a p idx => Sys2Proof.Machine.execPcClear a p idx s
  | .pcValLoRead a p idx => Sys2Proof.Machine.execPcValLoRead a p idx s
  | .counterWrap p idx n => Sys2Proof.Machine.execCounterWrap p idx n s
  | .perfRead k => Sys2Proof.Machine.execPerfRead k s
  | .precClear a v => Sys2Proof.Machine.execPrecClear a v s
  | .hostLinkUp t link rate width => Sys2Proof.Machine.execHostLinkUp t link rate width s
  | .perstDeassert t link => Sys2Proof.Machine.execPerstDeassert t link s
  | .hotReset t link => Sys2Proof.Machine.execHotReset t link s
  | .vfEnable t pf num => Sys2Proof.Machine.execVfEnable t pf num s
  | .subportUp t sub => Sys2Proof.Machine.execSubportUp t sub s
  | .postDone t tiles other packages fails => Sys2Proof.Machine.execPostDone t tiles other packages fails s
  | .atsInvalidate t link itag => Sys2Proof.Machine.execAtsInvalidate t link itag s
  | .doeDiscovery index => Sys2Proof.Machine.execDoeDiscovery index s
  | .updateComponent t comp bytes chk => Sys2Proof.Machine.execUpdateComponent t comp bytes chk s
  | .paramSend t link => Sys2Proof.Machine.execParamSend t link s
  | .laneDropResend t link => Sys2Proof.Machine.execLaneDropResend t link s
  | .dynamicAddressAssign addr static => Sys2Proof.Machine.execDynamicAddressAssign addr static s
  | .interruptCoalescingExpiry t func cq => Sys2Proof.Machine.execInterruptCoalescingExpiry t func cq s
  | .recoveryRequest t => Sys2Proof.Machine.execRecoveryRequest t s

end Sys2Proof.Machine
end

