-- ==== Sys2Proof/WellFormed.lean ====
section
/-! DEFINITION. Well-formed commands: every operand lies in the range the spec gives the thing it names. The meanings are
total, and say what happens with any other operand. -/

namespace Sys2Proof

/-- A page of the map (R94). -/
def Page.wf (p : Page) : Bool := decide (p.inst < Machine.pageInstances p.ty)

/-- A command of one of a function's 64 service queue pairs (R355, chapter 03). -/
def CmdRef.wf (k : CmdRef) : Bool := decide (k.func < 1012) && decide (k.pair < 64) && decide (k.cid < 65536)

/-- A function, the MSS, or a core (R227, R355). -/
def Agent.wf : Agent → Bool
  | .func f => decide (f < 1012)
  | .mss => true
  | .core i => decide (i < 37)

/-- An Ilesh instruction of one of the 37 cores: 1 to 15 bytes, one of four widths (R233, R234). -/
def Ilx.wf (x : Ilx) : Bool :=
  decide (x.core < 37) && decide (x.width < 4) && decide (1 ≤ x.bytes.length) && decide (x.bytes.length ≤ 15)

/-- Operands in range: functions, queue pairs, links, tiles, cores, sub-ports, dies, packages, channels and registers. -/
def Instr.wf (i : Instr) : Bool :=
  match i with
  | .junctionSample _ _ => true
  | .thermStepLeave _ => true
  | .mgmtPowerOn _ => true
  | .mgmtReset _ => true
  | .mainSample _ _ => true
  | .sagStep1Leave _ => true
  | .quiesceEnd _ => true
  | .shutdownRailsOff _ => true
  | .inputOvervoltage _ => true
  | .overvoltageRestart _ => true
  | .mainRestart _ => true
  | .auxSample _ _ => true
  | .alwaysOnStart _ _ _ => true
  | .alwaysOnStop _ => true
  | .mainStageEnable _ => true
  | .railsGood _ => true
  | .railFail _ _ => true
  | .railRetry _ => true
  | .resetNLow _ _ => true
  | .resetNRise _ => true
  | .mainResetTakeEffect _ => true
  | .powerSample _ _ => true
  | .capExcursionLimit _ => true
  | .droopTrip _ tile _ => decide (tile < 32)
  | .droopRelease _ tile => decide (tile < 32)
  | .configRequest _ link func _ _ => decide (link < 2) && decide (func < 1012)
  | .tickEdge _ => true
  | .itemExpiry tile eng _ _ => decide (tile < 32) && decide (eng < 4)
  | .tickinEdge _ => true
  | .ptpMessage _ port _ _ _ _ => decide (port < 16)
  | .srcLost _ _ => true
  | .holdoverExpiry _ => true
  | .tickCountLoRead r => r.1.wf
  | .blkCommit _ p => p.wf
  | .halyardFire _ _ => true
  | .halyardIn _ => true
  | .halyardMgmtTrigger _ => true
  | .snapValidClear p => p.wf
  | .badAccess _ _ _ _ => true
  | .registerWrite a _ _ _ => a.wf
  | .pennantWrite a p _ => a.wf && p.wf
  | .pennantForce a p _ => a.wf && p.wf
  | .glbDrvAbi _ => true
  | .funcDrvAbi func _ => decide (func < 1012)
  | .blkEnable _ a p => a.wf && p.wf
  | .blkDisable _ a p => a.wf && p.wf
  | .blkStopped _ p => p.wf
  | .blkFence _ a p => a.wf && p.wf
  | .blkUnfence _ a p => a.wf && p.wf
  | .blkSoftReset _ a p => a.wf && p.wf
  | .softResetDone _ p => p.wf
  | .sqTail func pair _ => decide (func < 1012) && decide (pair < 64)
  | .cqHead func pair _ => decide (func < 1012) && decide (pair < 64)
  | .commandFetch func pair _ => decide (func < 1012) && decide (pair < 64)
  | .cmdNop k => k.wf
  | .createQpair k => k.wf
  | .deleteQpair k => k.wf
  | .qpairDeleted func pair => decide (func < 1012) && decide (pair < 64)
  | .queryObject k => k.wf
  | .ssetCreate k _ => k.wf
  | .ssetAddShards k _ => k.wf
  | .ssetStart k => k.wf
  | .ssetPause k => k.wf
  | .ssetResume k => k.wf
  | .ssetDrain k => k.wf
  | .ssetDestroy k => k.wf
  | .ctxMove k => k.wf
  | .tileVacate k => k.wf
  | .tileAdmit k => k.wf
  | .resvCfg k => k.wf
  | .sampleStart _ => true
  | .packSeal _ => true
  | .sourceRead _ _ _ _ => true
  | .demuxPacket _ _ => true
  | .decode tile _ _ => decide (tile < 32)
  | .parse tile _ _ => decide (tile < 32)
  | .releaseSlot tile => decide (tile < 32)
  | .shape tile _ => decide (tile < 32)
  | .run tile _ => decide (tile < 32)
  | .emitText tile _ => decide (tile < 32)
  | .itemLimit tile eng _ => decide (tile < 32) && decide (eng < 4)
  | .tensorItemLimit tile _ _ => decide (tile < 32)
  | .shpProfileLoad k _ => k.wf
  | .shpProfileDrop k => k.wf
  | .shardProbe k _ _ => k.wf
  | .shardProbeTimeout k _ => k.wf
  | .graphLoad k _ => k.wf
  | .weightCopyDone tile _ => decide (tile < 32)
  | .graphDrop k => k.wf
  | .refillEnd tile => decide (tile < 32)
  | .sramScrub tile _ _ => decide (tile < 32)
  | .illegal x => x.wf
  | .nop x => x.wf
  | .fence x => x.wf
  | .trap x _ => x.wf
  | .mov x d r => x.wf && decide (d < 16) && decide (r < 16)
  | .movi x d _ => x.wf && decide (d < 16)
  | .movi64 x d _ => x.wf && decide (d < 16)
  | .add x d r => x.wf && decide (d < 16) && decide (r < 16)
  | .adc x d r => x.wf && decide (d < 16) && decide (r < 16)
  | .sub x d r => x.wf && decide (d < 16) && decide (r < 16)
  | .sbb x d r => x.wf && decide (d < 16) && decide (r < 16)
  | .and x d r => x.wf && decide (d < 16) && decide (r < 16)
  | .or x d r => x.wf && decide (d < 16) && decide (r < 16)
  | .xor x d r => x.wf && decide (d < 16) && decide (r < 16)
  | .cmp x d r => x.wf && decide (d < 16) && decide (r < 16)
  | .tst x d r => x.wf && decide (d < 16) && decide (r < 16)
  | .addi x d _ => x.wf && decide (d < 16)
  | .cmpi x d _ => x.wf && decide (d < 16)
  | .andi x d _ => x.wf && decide (d < 16)
  | .shl x d r => x.wf && decide (d < 16) && decide (r < 16)
  | .shr x d r => x.wf && decide (d < 16) && decide (r < 16)
  | .sar x d r => x.wf && decide (d < 16) && decide (r < 16)
  | .rol x d r => x.wf && decide (d < 16) && decide (r < 16)
  | .shli x d _ => x.wf && decide (d < 16)
  | .shri x d _ => x.wf && decide (d < 16)
  | .sari x d _ => x.wf && decide (d < 16)
  | .roli x d _ => x.wf && decide (d < 16)
  | .mul x d r => x.wf && decide (d < 16) && decide (r < 16)
  | .mulhu x d r => x.wf && decide (d < 16) && decide (r < 16)
  | .divu x d r => x.wf && decide (d < 16) && decide (r < 16)
  | .remu x d r => x.wf && decide (d < 16) && decide (r < 16)
  | .divs x d r => x.wf && decide (d < 16) && decide (r < 16)
  | .rems x d r => x.wf && decide (d < 16) && decide (r < 16)
  | .ld x d b _ => x.wf && decide (d < 16) && decide (b < 16)
  | .st x r b _ => x.wf && decide (r < 16) && decide (b < 16)
  | .lds x d b _ => x.wf && decide (d < 16) && decide (b < 16)
  | .xchg x d r => x.wf && decide (d < 16) && decide (r < 16)
  | .cas x d b r => x.wf && decide (d < 16) && decide (b < 16) && decide (r < 16)
  | .amoadd x d r => x.wf && decide (d < 16) && decide (r < 16)
  | .br x _ => x.wf
  | .bc x _ _ => x.wf
  | .jmp x r => x.wf && decide (r < 16)
  | .call x _ => x.wf
  | .callr x r => x.wf && decide (r < 16)
  | .ret x => x.wf
  | .daa x d => x.wf && decide (d < 16)
  | .das x d => x.wf && decide (d < 16)
  | .bcdadd x d r => x.wf && decide (d < 16) && decide (r < 16)
  | .bcdadc x d r => x.wf && decide (d < 16) && decide (r < 16)
  | .bcdsub x d r => x.wf && decide (d < 16) && decide (r < 16)
  | .bcdsbb x d r => x.wf && decide (d < 16) && decide (r < 16)
  | .bcdcmp x d r => x.wf && decide (d < 16) && decide (r < 16)
  | .bcdchk x r => x.wf && decide (r < 16)
  | .b2bcd x d r => x.wf && decide (d < 16) && decide (r < 16)
  | .bcd2b x d r => x.wf && decide (d < 16) && decide (r < 16)
  | .tcadd x d r _ => x.wf && decide (d < 16) && decide (r < 16)
  | .tcsub x d r _ => x.wf && decide (d < 16) && decide (r < 16)
  | .tc2f x d r _ => x.wf && decide (d < 16) && decide (r < 16)
  | .f2tc x d r _ => x.wf && decide (d < 16) && decide (r < 16)
  | .tcchk x r _ => x.wf && decide (r < 16)
  | .mfs x d _ => x.wf && decide (d < 16)
  | .mts x _ r => x.wf && decide (r < 16)
  | .gcall x _ => x.wf
  | .gret x _ => x.wf
  | .sigu x _ => x.wf
  | .sigck x _ => x.wf
  | .rsspill x _ => x.wf
  | .rsfill x _ => x.wf
  | .eret x => x.wf
  | .wfi x => x.wf
  | .rtsync x => x.wf
  | .isync x => x.wf
  | .wdkick x => x.wf
  | .dpush x _ r => x.wf && decide (r < 16)
  | .bread x d _ => x.wf && decide (d < 16)
  | .rpop x d => x.wf && decide (d < 16)
  | .wait x d m => x.wf && decide (d < 16) && decide (m < 16)
  | .interruptTake core => decide (core < 37)
  | .watchdogExpiry core => decide (core < 37)
  | .coreStopResponse _ core => decide (core < 37)
  | .phyTrainDone _ link _ _ => decide (link < 48)
  | .flitLockDone _ link _ _ => decide (link < 48)
  | .bringUpLimit _ link => decide (link < 48)
  | .linkRetry _ link => decide (link < 48)
  | .param _ link _ => decide (link < 48)
  | .paramAck _ link => decide (link < 48)
  | .flitReceive _ link lane _ _ _ _ => decide (link < 48) && decide (lane < 2)
  | .replayTimeout _ link => decide (link < 48)
  | .linkDown _ link => decide (link < 48)
  | .laneFault _ link lane => decide (link < 48) && decide (lane < 2)
  | .laneDrop _ link lane => decide (link < 48) && decide (lane < 2)
  | .laneDropAck _ link => decide (link < 48)
  | .retrain _ link => decide (link < 48)
  | .patSelect _ link _ => decide (link < 48)
  | .patClear link => decide (link < 48)
  | .linkWrite link _ _ => decide (link < 48)
  | .linkRead link _ _ _ _ => decide (link < 48)
  | .readResp _ link _ _ _ _ => decide (link < 48)
  | .captureReadTimeout _ link _ => decide (link < 48)
  | .packReject link _ _ _ => decide (link < 48)
  | .feedDoorbell link _ _ => decide (link < 48)
  | .rmtAccDoorbell link _ _ => decide (link < 48)
  | .ringCreate k _ => k.wf
  | .ringStart k => k.wf
  | .ringStop k => k.wf
  | .ringResume k => k.wf
  | .ringDestroy k => k.wf
  | .xchgGroup k _ => k.wf
  | .packDraw _ _ _ _ => true
  | .portDownLimit port => decide (port < 32)
  | .xchgSend _ _ _ _ _ => true
  | .xchgFlushDone _ => true
  | .rmtPacketReceive _ subPort _ _ _ => decide (subPort < 16)
  | .rmtDbHi func _ => decide (func < 1012)
  | .wqeFetch _ _ _ _ => true
  | .rmtSend _ _ _ => true
  | .rmtWrite _ _ _ => true
  | .rmtRead _ _ => true
  | .rmtFlush _ _ => true
  | .hitch _ _ => true
  | .hitchRelease _ _ => true
  | .rmtRecv _ _ => true
  | .rtoExpiry _ _ _ => true
  | .ackTimer _ _ => true
  | .rnrRetryExpiry _ _ => true
  | .qpCreate k => k.wf
  | .qpConnect k => k.wf
  | .qpModify k => k.wf
  | .qpReset k => k.wf
  | .qpDestroy k => k.wf
  | .quiescingEnd _ => true
  | .egressTransmit _ subPort => decide (subPort < 16)
  | .gateEntry _ port => decide (port < 4)
  | .ethFrameReceive _ subPort _ levels _ _ => decide (subPort < 16) && levels.all fun e => decide (e.1 < 8)
  | .pfcPauseExpiry _ subPort prio => decide (subPort < 16) && decide (prio < 8)
  | .subportDown _ subPort => decide (subPort < 16)
  | .flr _ func => decide (func < 1012)
  | .busMasterDisable _ func => decide (func < 1012)
  | .vfDisable _ pf => decide (pf < 4)
  | .perst _ link => decide (link < 2)
  | .hostLinkDown _ link => decide (link < 2)
  | .completionReceive _ link func _ _ _ => decide (link < 2) && decide (func < 1012)
  | .cplTimeout _ func _ _ _ => decide (func < 1012)
  | .quarantineExpiry _ link _ => decide (link < 2)
  | .hostWindowAccess func _ _ _ => decide (func < 1012)
  | .funcAssign k => k.wf
  | .funcFreeze k => k.wf
  | .freezeDone _ func => decide (func < 1012)
  | .freezeTimeout _ func => decide (func < 1012)
  | .funcSave k => k.wf
  | .funcRestore k _ => k.wf
  | .funcThaw k => k.wf
  | .dirtyLogStart k => k.wf
  | .dirtyLogSync k => k.wf
  | .dirtyLogStop k => k.wf
  | .heartbeat _ func _ => decide (func < 1012)
  | .heartbeatTimeout func => decide (func < 1012)
  | .adopt _ func _ => decide (func < 1012)
  | .funcReset _ func => decide (func < 1012)
  | .funcResetDone _ func => decide (func < 1012)
  | .graceEnd _ => true
  | .nvmeDoorbell func _ _ _ => decide (func < 1012)
  | .nvmeCommandFetch _ func _ _ => decide (func < 1012)
  | .controllerEnable _ func _ _ _ _ => decide (func < 1012)
  | .controllerReset _ func => decide (func < 1012)
  | .shutdownNotify _ func => decide (func < 1012)
  | .createIoSq _ func _ cid => decide (func < 1012) && decide (cid < 65536)
  | .deleteIoSq _ func _ cid => decide (func < 1012) && decide (cid < 65536)
  | .createIoCq _ func _ cid => decide (func < 1012) && decide (cid < 65536)
  | .deleteIoCq _ func _ cid => decide (func < 1012) && decide (cid < 65536)
  | .getLogPage _ func _ cid _ _ => decide (func < 1012) && decide (cid < 65536)
  | .identify _ func _ cid _ _ => decide (func < 1012) && decide (cid < 65536)
  | .abort _ func _ cid => decide (func < 1012) && decide (cid < 65536)
  | .setFeatures _ func _ cid => decide (func < 1012) && decide (cid < 65536)
  | .getFeatures _ func _ cid => decide (func < 1012) && decide (cid < 65536)
  | .asyncEventRequest _ func _ cid => decide (func < 1012) && decide (cid < 65536)
  | .nsCreate _ func _ cid _ _ => decide (func < 1012) && decide (cid < 65536)
  | .nsDelete _ func _ cid => decide (func < 1012) && decide (cid < 65536)
  | .nsAttach _ func _ cid _ _ => decide (func < 1012) && decide (cid < 65536)
  | .nsDetach _ func _ cid _ _ => decide (func < 1012) && decide (cid < 65536)
  | .firmwareCommit _ func _ cid _ => decide (func < 1012) && decide (cid < 65536)
  | .firmwareImageDownload _ func _ cid _ _ => decide (func < 1012) && decide (cid < 65536)
  | .formatNvm _ func _ cid => decide (func < 1012) && decide (cid < 65536)
  | .formatDone _ _ => true
  | .sanitize _ func _ cid => decide (func < 1012) && decide (cid < 65536)
  | .sanitizeDone _ => true
  | .nvmeWrite _ func _ cid _ _ _ _ _ => decide (func < 1012) && decide (cid < 65536)
  | .writeProgrammed _ func _ cid => decide (func < 1012) && decide (cid < 65536)
  | .nvmeRead _ func _ cid _ _ _ => decide (func < 1012) && decide (cid < 65536)
  | .nvmeFlush _ func _ cid => decide (func < 1012) && decide (cid < 65536)
  | .nvmeCompare _ func _ cid _ _ _ _ => decide (func < 1012) && decide (cid < 65536)
  | .writeZeroes _ func _ cid _ _ => decide (func < 1012) && decide (cid < 65536)
  | .datasetManagement _ func _ cid _ _ => decide (func < 1012) && decide (cid < 65536)
  | .nvmeVerify _ func _ cid _ => decide (func < 1012) && decide (cid < 65536)
  | .mediumRead _ die _ _ _ _ _ _ => decide (die < 1024)
  | .dieUnresponsive _ die => decide (die < 1024)
  | .rebuildDone _ die _ _ => decide (die < 1024)
  | .fold _ _ _ _ _ _ => true
  | .patrolRead _ die _ _ _ _ _ => decide (die < 1024)
  | .wlMove _ die _ => decide (die < 1024)
  | .programFail _ die _ => decide (die < 1024)
  | .eraseFail _ die _ => decide (die < 1024)
  | .ftlRecovery _ _ _ _ _ _ _ => true
  | .groupForm k _ => k.wf
  | .groupFormTimeout _ => true
  | .groupShrink k => k.wf
  | .groupLeave k => k.wf
  | .sessionOpen k => k.wf
  | .sessionStart k => k.wf
  | .sessionAbort k => k.wf
  | .sessionClose k => k.wf
  | .restoreScan k => k.wf
  | .shardExport k => k.wf
  | .captureTimeout _ => true
  | .hello _ _ _ _ => true
  | .unit _ _ _ _ => true
  | .unitLand _ _ => true
  | .unitAck _ _ _ _ => true
  | .manifest _ _ _ => true
  | .manifestAck _ _ _ => true
  | .landed _ _ => true
  | .failed _ _ _ => true
  | .lost _ _ _ => true
  | .progress _ _ => true
  | .unitReq _ _ => true
  | .unitData _ _ _ _ => true
  | .verdict _ _ _ _ _ => true
  | .mirror _ _ _ _ _ _ _ => true
  | .mirrorAck _ _ _ => true
  | .tickFrame _ _ _ _ _ _ _ => true
  | .hawserHalyard _ _ _ _ => true
  | .resync _ _ _ _ _ _ _ _ _ => true
  | .resyncAck _ _ _ => true
  | .join _ _ _ _ _ _ => true
  | .joinSend _ => true
  | .takeoverNotice _ _ => true
  | .leaveNotice _ => true
  | .pairJoin k => k.wf
  | .pairLeave k => k.wf
  | .witness _ _ _ _ _ _ => true
  | .witnessSend _ => true
  | .leaseExpiry _ => true
  | .takeover _ _ => true
  | .splitEntry _ => true
  | .keyGen k => k.wf
  | .keyImport k _ => k.wf
  | .keyExport k => k.wf
  | .keyDestroy k => k.wf
  | .keyErase _ => true
  | .gcmEnc k _ _ _ => k.wf
  | .gcmDec k _ _ _ => k.wf
  | .xtsEnc k _ _ _ => k.wf
  | .xtsDec k _ _ _ => k.wf
  | .gmacGen k _ _ _ => k.wf
  | .gmacVer k _ _ _ => k.wf
  | .hmacGen k _ _ _ => k.wf
  | .hmacVer k _ _ _ => k.wf
  | .sha256 k _ _ _ => k.wf
  | .sha3256 k _ _ _ => k.wf
  | .lstRun _ _ _ => true
  | .mbistRun _ _ _ => true
  | .suspectForce _ => true
  | .injectSramSingle _ => true
  | .injectSramDouble _ => true
  | .injectDramSingle _ => true
  | .injectDramDouble _ => true
  | .injectSliceFail _ => true
  | .lstSlice _ _ _ => true
  | .lstDefer _ => true
  | .lstForce _ _ _ _ => true
  | .checkedError _ p _ => p.wf
  | .dramScrub _ _ _ _ _ _ => true
  | .memcRecal _ m ch => decide (m < 16) && decide (ch < 4)
  | .memcRetrain _ m ch _ => decide (m < 16) && decide (ch < 4)
  | .sensorSample _ _ _ => true
  | .logCommit _ _ => true
  | .bootReady _ => true
  | .mssWatchdog _ => true
  | .mssReset _ => true
  | .setEndpointId _ _ _ => true
  | .getVersion _ _ _ _ => true
  | .getCapabilities _ _ _ _ => true
  | .negotiateAlgorithms _ _ _ _ => true
  | .getDigests _ _ _ _ => true
  | .getCertificate _ _ _ _ => true
  | .challenge _ _ _ _ => true
  | .getMeasurements _ _ _ _ => true
  | .keyExchange _ _ _ _ => true
  | .finish _ _ _ _ => true
  | .spdmHeartbeat _ _ _ _ => true
  | .keyUpdate _ _ _ _ => true
  | .endSession _ _ _ _ => true
  | .chunkSend _ _ _ _ => true
  | .chunkGet _ _ _ _ => true
  | .pqSig _ _ _ _ => true
  | .pqCert _ _ _ _ => true
  | .getTid _ _ _ => true
  | .setTid _ _ _ => true
  | .getPldmVersion _ _ _ => true
  | .getPldmTypes _ _ _ => true
  | .getPldmCommands _ _ _ => true
  | .getPdr _ _ _ => true
  | .getPdrRepositoryInfo _ _ _ => true
  | .getSensorReading _ _ _ => true
  | .setSensorThresholds _ _ _ => true
  | .getSensorThresholds _ _ _ => true
  | .setEventReceiver _ _ _ => true
  | .pollForPlatformEventMessage _ _ _ => true
  | .setNumericEffecterValue _ _ _ => true
  | .getNumericEffecterValue _ _ _ => true
  | .requestUpdate _ => true
  | .activateFirmware _ _ => true
  | .spliceCommit _ _ => true
  | .spliceRollback _ _ core _ => decide (core < 256)
  | .pcCtlWrite a p idx _ => a.wf && p.wf && decide (idx < 8)
  | .pcClear a p idx => a.wf && p.wf && decide (idx < 8)
  | .pcValLoRead a p idx => a.wf && p.wf && decide (idx < 8)
  | .counterWrap p idx _ => p.wf && decide (idx < 8)
  | .perfRead k => k.wf
  | .precClear a _ => a.wf
  | .hostLinkUp _ link _ _ => decide (link < 2)
  | .perstDeassert _ link => decide (link < 2)
  | .hotReset _ link => decide (link < 2)
  | .vfEnable _ pf _ => decide (pf < 4)
  | .subportUp _ subPort => decide (subPort < 16)
  | .postDone _ _ _ packages _ => packages.all fun m => decide (m < 16)
  | .atsInvalidate _ link _ => decide (link < 2)
  | .doeDiscovery _ => true
  | .updateComponent _ _ _ _ => true
  | .paramSend _ link => decide (link < 48)
  | .laneDropResend _ link => decide (link < 48)
  | .dynamicAddressAssign _ _ => true
  | .interruptCoalescingExpiry _ func _ => decide (func < 1012)
  | .recoveryRequest _ => true

end Sys2Proof
end

