-- ==== Sys2Proof/Safety.lean ====
section
/-! DEFINITION. The terms in which claims about the machine are made: well-kept states, the flags an instruction sets, a core
that carries an instruction out, and the course of a command when nothing stops it. -/

namespace Sys2Proof.Machine

/-! ### Well-kept states -/

/-- Every map the state holds directly lists its keys rising, and memory lists no byte that reads 0: equal contents are equal
data. -/
abbrev State.Canon (s : State) : Prop :=
  mwf s.regs = true ∧ mwf s.shadow = true ∧ mwf s.latches = true ∧ mwf s.tabAct = true ∧ mwf s.tabSh = true ∧
  mwf s.pairs = true ∧ mwf s.tags.prec = true ∧ s.mem.wf = true

/-- A well-kept state: canonical, with the 37 Ilesh cores of R227, and no more than 65,536 entries in the event log (R553). -/
def State.WellKept (s : State) : Prop := s.Canon ∧ s.cores.length = 37 ∧ s.log.length ≤ 65536

/-- Registers are the part of the state a page access reads; two states agree on all but the register at `p`, `off`. -/
def SameButReg (p : Page) (off : Nat) (s t : State) : Prop :=
  t = { s with regs := t.regs } ∧ ∀ k, k ≠ pageAt p off → mget t.regs k = mget s.regs k

/-! ### Ilesh instructions -/

/-- The flags after an instruction: the listed bits as given, every other bit as before. -/
def FlagsAre (old new : Nat) (l : List (Nat × Bool)) : Prop :=
  ∀ i, bitOf new i = (match l.lookup i with | some b => b | none => bitOf old i)

/-- A signed result does not fit `n` bits. -/
def signedOver (n : Nat) (z : Int) : Bool := decide (z < -(2 ^ (n - 1) : Int)) || decide ((2 ^ (n - 1) : Int) ≤ z)

/-- The core runs, nothing holds it, and the bytes of an instruction are fetched, mapped and allowed: none of the checks that
stand before its decoding stops it (R253, R258, R262, R532). -/
def IlFetched (x : Ilx) (s : State) : Prop :=
  x.core < 37 ∧ (getCore s x.core).act = .running ∧ coreHeld s x.core = false ∧ x.parity = false ∧
  mapped s x.core (getCore s x.core).pc x.bytes.length = true ∧
  regionRefuses (getCore s x.core) ⟨false, false, true⟩ (getCore s x.core).pc x.bytes.length = none

/-- The core has fetched the bytes of an instruction, and they spell `i` (R233 to R237). -/
def IlReady (x : Ilx) (i : Instr) (s : State) : Prop := IlFetched x s ∧ ilDecode x = some i

/-- The address of the next instruction. -/
def ilNext (x : Ilx) (c : Core) : Nat := (c.pc + x.bytes.length) % 2 ^ 64

/-- The cycles of a stream core's instruction are charged to its tile budget, those in a stretch twice (R71, R263). -/
def ilCharge (x : Ilx) (s : State) : State :=
  if x.core < 32 then chargeBudget x.core 0 (x.cycles + min x.slow x.cycles) s else s

/-- The instruction retires: the core becomes `c'`, a deck core's precise record is offered the instruction (R599), and its
cycles are charged. `s` holds what the instruction did outside the core, `c` is the core as the instruction found it. -/
def ilDone (x : Ilx) (c c' : Core) (s : State) : State :=
  ilCharge x (precRecord x c.pc c.cmp none (putCore x.core c' s))

/-- The instruction raises an exception that leaves its effect undone: the handler returns to it (R258, R259). -/
def ilRaise (x : Ilx) (c : Core) (cause sub info : Nat) (s : State) : State :=
  ilCharge x (enterException x.core cause sub info c.pc (precRecord x c.pc c.cmp (some cause) s))

/-- The core with a result in a register, the flags unless NF keeps them, and the next address. -/
def ilWrite (x : Ilx) (c : Core) (d v f : Nat) : Core :=
  { setG c d v with flags := (if x.nf then c.flags else f), pc := ilNext x c }

/-- The core with flags alone, unless NF keeps them, and the next address. -/
def ilFlags (x : Ilx) (c : Core) (f : Nat) : Core :=
  { c with flags := (if x.nf then c.flags else f), pc := ilNext x c }

/-! ### Service commands -/

/-- The command that `k` names is in hand, not begun, of the opcode, free to begin by the order of its queue, not late, and the
device is not in a quiesce: what stands before a command's own checks (R107, R114, R52). -/
def SvcReady (k : CmdRef) (op : Nat) (c : SvcCmd) (s : State) : Prop :=
  findCmd s k = some c ∧ c.begun = false ∧ c.op = op ∧ orderedOk s c = true ∧ lateCmd s c = false ∧ quiescing s = false

/-- An integrity request with parameters `d` is free to run: a ready service command, or one of the device's own, whose three
parameter dwords it carries (R530, R531, R538, R542). -/
def IntgReady (q : IntgReq) (op : Nat) (d : Nat → Nat) (s : State) : Prop :=
  match q with
  | .svc k => ∃ c, SvcReady k op c s ∧ d = fun i => c.d i
  | .own d4 d5 d6 => d = fun i => [d4, d5, d6].getD (i - 4) 0

/-- An integrity request found in `s` ends with a status and a result in the state `w`: a completion, or the answer to the
device's own firmware. -/
def intgDone (q : IntgReq) (op status result : Nat) (s w : State) : State :=
  match q with
  | .svc k => (match findCmd s k with | some c => complete c status result w | none => w)
  | .own _ _ _ => emit (.fwDone op status result) w

/-! ### NVMe commands -/

/-- At time `t`, command `c` with this CID waits in a submission queue of a function's controller and its turn has come: the
function is not held back, nothing pauses the deck, the controllers run, and the function's share lets it begin
(R386, R388). -/
def NvmeReady (t f sq cid : Nat) (c : NCmd) (s : State) : Prop :=
  findNCmd (atTime t s) f sq cid = some c ∧ c.begun = false ∧ nvmeHeld (atTime t s) f = false ∧
  deckPaused (atTime t s) = false ∧ blkRunning (atTime t s) pNVME = true ∧
  limited (atTime t s) f (nvmeCost (atTime t s) c) = false ∧ (shareTurn (atTime t s) f (nvmeCost (atTime t s) c)).isSome = true

/-- The state in which a ready command has just begun: the share is charged, the events of its start counted. -/
def nvmeBegun (t f sq cid : Nat) (c : NCmd) (s : State) : State :=
  let u := atTime t s
  let cost := nvmeCost u c
  let r := (shareTurn u f cost).getD 0
  let v := chargeShare f cost r (putNCmd f { c with begun := true } u)
  tagStage 3 (nvmeTag f sq cid) 0 false (perfEvent pNVME 0x101 0xFF cost (perfEvent pNVME 0x100 0xFF 1 v))

/-! ### Messages of the checkpoint group -/

/-- At time `t`, message `m` reaches the checkpoint service of a member of group `g`, whose sender has UNIT_ID `uid`: the
service runs, and the message is of the group and of format 1 (R441). -/
def CkHeard (t : Nat) (m : CkMsg) (g : CkGroup) (uid : Nat) (s : State) : Prop :=
  ckptOn (atTime t s) = true ∧ s.ckpt.group = some g ∧ m.group = g.id ∧ m.format = 1 ∧ ckUid g m.sender = some uid

end Sys2Proof.Machine
end

