-- ==== Sys2Proof/Certificates/Slice0/Obligations.lean ====
section
/-! DEFINITION. The statements about the block for the provers, each from the rules of the manual its docstring names. -/

open Sys2Proof Sys2Proof.Machine

/-- On a ready core, NOP, FENCE and ISYNC go on at the next instruction and change nothing else; MOV writes the source at
the operand width, zero-extended, MOVI the sign-extended imm32 and MOVI64 the imm64 to d, with the flags kept; TRAP
raises TRAP with EINFO imm8 after its effect, so the saved address is that of the next instruction; bytes that R234
makes illegal raise ILLEGAL with their first eight bytes in EINFO. (R237; R231; R234; R258) -/
def Obligations.IleshMovesAndMarks : Prop :=
  ∀ (x : Ilx) (s : State),
    let c := getCore s x.core
    let does (i : Instr) (t : State) : Prop := IlReady x i s → exec i s = .next t
    let on : Core := { c with pc := ilNext x c }
    (does (.nop x) (ilDone x c on s) ∧ does (.fence x) (ilDone x c on s) ∧
      does (.isync x) (ilDone x c on s)) ∧
    (∀ d r,
      does (.mov x d r) (ilDone x c { setG c d (gReg c r % 2 ^ widthBits x.width) with pc := ilNext x c } s)) ∧
    (∀ d (imm : Dword),
      does (.movi x d imm) (ilDone x c { setG c d (imm.signExtend 64).toNat with pc := ilNext x c } s)) ∧
    (∀ d (imm : Qword),
      does (.movi64 x d imm) (ilDone x c { setG c d imm.toNat with pc := ilNext x c } s)) ∧
    (∀ imm, imm < 256 → does (.trap x imm) (ilCharge x (enterException x.core cause.TRAP 0 imm (ilNext x c)
        (precRecord x c.pc c.cmp (some cause.TRAP) (putCore x.core on s))))) ∧
    (IlFetched x s → ilDecode x = none →
      exec (.illegal x) s = .next (ilRaise x c cause.ILLEGAL 0 (leNat (x.bytes.take 8)) s))

/-- On a ready core, ADD, ADC and ADDI write the sum modulo 2^width and set C to the carry out of the top bit, H to the
carry out of bit 3, V on signed overflow; SUB and SBB write the difference, CMP and CMPI write no register, and set C
when d is below s plus the borrow in, H when d[3:0] is below s[3:0] plus the borrow, V on signed overflow. Z and N are
those of the result. NF keeps the flags. Every other flag, register and the rest of the state are unchanged but for
the next address (R237). (R238) -/
def Obligations.IleshAddAndSubtract : Prop :=
  ∀ (x : Ilx) (s : State) (d r : Nat) (imm : Dword),
    let c := getCore s x.core
    let does (i : Instr) (t : State) : Prop := IlReady x i s → exec i s = .next t
    let n := widthBits x.width
    let a := gReg c d % 2 ^ n
    let b := gReg c r % 2 ^ n
    let i := (imm.toInt % (2 ^ n : Nat)).toNat
    let cy := if bitOf c.flags fC then 1 else 0
    let sum (i : Instr) (b cin : Nat) : Prop :=
      let v := (a + b + cin) % 2 ^ n
      ∃ f, FlagsAre c.flags f [(fC, decide (2 ^ n ≤ a + b + cin)), (fH, decide (16 ≤ a % 16 + b % 16 + cin)),
          (fV, signedOver n (signed n a + signed n b + cin)), (fZ, v == 0), (fN, bitOf v (n - 1))] ∧
        does i (ilDone x c (ilWrite x c d v f) s)
    let difference (i : Instr) (b bin : Nat) (write : Bool) : Prop :=
      ∃ v f, v < 2 ^ n ∧ (v + b + bin) % 2 ^ n = a ∧
        FlagsAre c.flags f [(fC, decide (a < b + bin)), (fH, decide (a % 16 < b % 16 + bin)),
          (fV, signedOver n (signed n a - signed n b - bin)), (fZ, v == 0), (fN, bitOf v (n - 1))] ∧
        does i (ilDone x c (if write then ilWrite x c d v f else ilFlags x c f) s)
    (sum (.add x d r) b 0 ∧ sum (.adc x d r) b cy ∧ sum (.addi x d imm) i 0 ∧
      difference (.sub x d r) b 0 true ∧ difference (.sbb x d r) b cy true ∧ difference (.cmpi x d imm) i 0 false) ∧
    (difference (.cmp x d r) b 0 false)

/-- On a ready core AND, OR and XOR write the bitwise result of d and s at the operand width, ANDI that of d and the sign-
extended imm32, and TST writes no register. Z and N are those of the result, C and V become 0, no other flag changes,
and NF keeps them all. Every other register and the rest of the state stay, but for the next address. (R237) -/
def Obligations.IleshLogic : Prop :=
  ∀ (x : Ilx) (s : State) (d r : Nat) (imm : Dword),
    let c := getCore s x.core
    let does (i : Instr) (t : State) : Prop := IlReady x i s → exec i s = .next t
    let n := widthBits x.width
    let a := gReg c d % 2 ^ n
    let b := gReg c r % 2 ^ n
    let i := (imm.toInt % (2 ^ n : Nat)).toNat
    let logic (i : Instr) (v : Nat) (write : Bool) : Prop :=
      ∃ f, FlagsAre c.flags f [(fC, false), (fV, false), (fZ, v == 0), (fN, bitOf v (n - 1))] ∧
        does i (ilDone x c (if write then ilWrite x c d v f else ilFlags x c f) s)
    (logic (.and x d r) (a &&& b) true ∧ logic (.or x d r) (a ||| b) true ∧
      logic (.xor x d r) (a ^^^ b) true ∧ logic (.andi x d imm) (a &&& i) true) ∧
    (logic (.tst x d r) (a &&& b) false)

/-- On a ready core each shift or rotate moves d by k, which is s modulo the width, or imm8, and writes the result with Z
and N of it, V cleared and C the last bit shifted out. With k = 0 no bit goes out: C is then an open value (the
model's choice, log entry 48: a free value, the count of open values advancing), d and the other flags as stated. An
imm8 at or above the width raises ILLEGAL with the instruction's bytes in EINFO. (R237) -/
def Obligations.IleshShifts : Prop :=
  ∀ (x : Ilx) (s : State) (d : Nat),
    let c := getCore s x.core
    let does (i : Instr) (t : State) : Prop := IlReady x i s → exec i s = .next t
    let n := widthBits x.width
    let a := gReg c d % 2 ^ n
    let shift (i : Instr) (k v : Nat) (out : Bool) : Prop :=
      ∃ f open_, FlagsAre c.flags f [(fV, false), (fZ, v == 0), (fN, bitOf v (n - 1)), (fC, if k = 0 then open_ else out)] ∧
        does i (ilDone x c (ilWrite x c d v f) (if k = 0 then { s with fresh := s.fresh + 1 } else s))
    let left (i : Instr) (k : Nat) := shift i k (a * 2 ^ k % 2 ^ n) (bitOf a (n - k))
    let right (i : Instr) (k : Nat) := shift i k (a / 2 ^ k) (bitOf a (k - 1))
    let arith (i : Instr) (k : Nat) := shift i k (signed n a / (2 ^ k : Nat) % (2 ^ n : Nat)).toNat (bitOf a (k - 1))
    let rotate (i : Instr) (k : Nat) := shift i k (a * 2 ^ k % 2 ^ n ||| a / 2 ^ (n - k)) (bitOf a (n - k))
    (∀ r, left (.shl x d r) (gReg c r % n) ∧ right (.shr x d r) (gReg c r % n) ∧ arith (.sar x d r) (gReg c r % n) ∧
      rotate (.rol x d r) (gReg c r % n)) ∧
    (∀ k, k < n → left (.shli x d k) k ∧ right (.shri x d k) k ∧ arith (.sari x d k) k ∧ rotate (.roli x d k) k) ∧
    (∀ k, n ≤ k → ∀ i ∈ [Instr.shli x d k, .shri x d k, .sari x d k, .roli x d k],
      does i (ilRaise x c cause.ILLEGAL 0 (leNat (x.bytes.take 8)) s))

/-- On a ready core MUL writes the low half and MULHU the unsigned high half of the product, DIVU and REMU the unsigned
quotient and remainder, DIVS and REMS the truncating signed quotient and remainder, each with Z and N of the result
alone and NF keeping the flags. A zero divisor raises DIV_ZERO with nothing written. The quotient of the most negative
value by -1, which no rule states, is some value of the width (log entry 49); a division takes one open value whatever
its operands. (R237; R258) -/
def Obligations.IleshProductsAndQuotients : Prop :=
  ∀ (x : Ilx) (s : State) (d r : Nat),
    let c := getCore s x.core
    let does (i : Instr) (t : State) : Prop := IlReady x i s → exec i s = .next t
    let n := widthBits x.width
    let a := gReg c d % 2 ^ n
    let b := gReg c r % 2 ^ n
    let gives (i : Instr) (t : State) (v : Nat) : Prop :=
      ∃ f, FlagsAre c.flags f [(fZ, v == 0), (fN, bitOf v (n - 1))] ∧ does i (ilDone x c (ilWrite x c d v f) t)
    let t : State := { s with fresh := s.fresh + 1 }
    gives (.mul x d r) s (a * b % 2 ^ n) ∧ gives (.mulhu x d r) s (a * b / 2 ^ n) ∧
    (b = 0 → ∀ i ∈ [Instr.divu x d r, .remu x d r, .divs x d r, .rems x d r],
      does i (ilRaise x c cause.DIV_ZERO 0 0 s)) ∧
    (b ≠ 0 → gives (.divu x d r) t (a / b) ∧ gives (.remu x d r) t (a % b) ∧
      gives (.rems x d r) t (Int.tmod (signed n a) (signed n b) % (2 ^ n : Nat)).toNat ∧
      (¬ (a = 2 ^ (n - 1) ∧ b = 2 ^ n - 1) → gives (.divs x d r) t (Int.tdiv (signed n a) (signed n b) % (2 ^ n : Nat)).toNat) ∧
      (∃ v, v < 2 ^ n ∧ gives (.divs x d r) t v))

/-- On a ready core: when either operand holds a digit above 9, BCDADD, BCDADC, BCDSUB, BCDSBB and BCDCMP set BI and
change nothing else. Otherwise BI becomes 0; BCDADD and BCDADC write the digits of the decimal sum (with DC as carry
in for BCDADC) modulo 10^digits, DC telling that it goes beyond, and H the carry out of digit 0; BCDSUB and BCDSBB
write those of the difference, BCDCMP writes no register and leaves H, DC telling that d is below s plus the borrow; Z
tells a zero result. BCDCHK sets BI to whether s holds a digit above 9. B2BCD and BCD2B convert, with Z, or set BI
alone. DAA and DAS correct d[7:0] by the rule of R239 and leave d[63:8]. (R239; R240; R241; R237) -/
def Obligations.IleshDecimal : Prop :=
  ∀ (x : Ilx) (s : State) (d r : Nat),
    let c := getCore s x.core
    let does (i : Instr) (t : State) : Prop := IlReady x i s → exec i s = .next t
    let n := widthBits x.width / 4
    let a := gReg c d % 2 ^ widthBits x.width
    let b := gReg c r % 2 ^ widthBits x.width
    let cy := if bitOf c.flags fDC then 1 else 0
    let bad : Core := { c with flags := flagSet c.flags fBI true, pc := ilNext x c }
    let wrote (v f : Nat) : Core := { setG c d v with flags := f, pc := ilNext x c }
    let sum (i : Instr) (cin : Nat) : Prop :=
      ∃ v f, v < 16 ^ n ∧ bcdOk n v = true ∧ ofBcd n v = (ofBcd n a + ofBcd n b + cin) % 10 ^ n ∧
        FlagsAre c.flags f [(fBI, false), (fDC, decide (10 ^ n ≤ ofBcd n a + ofBcd n b + cin)), (fZ, v == 0),
          (fH, decide (10 ≤ a % 16 + b % 16 + cin))] ∧
        does i (ilDone x c (wrote v f) s)
    let difference (i : Instr) (bin : Nat) : Prop :=
      ∃ v f, v < 16 ^ n ∧ bcdOk n v = true ∧ (ofBcd n v + ofBcd n b + bin) % 10 ^ n = ofBcd n a ∧
        FlagsAre c.flags f [(fBI, false), (fDC, decide (ofBcd n a < ofBcd n b + bin)), (fZ, v == 0),
          (fH, decide (a % 16 < b % 16 + bin))] ∧
        does i (ilDone x c (wrote v f) s)
    (¬ (bcdOk n a = true ∧ bcdOk n b = true) →
      ∀ i ∈ [Instr.bcdadd x d r, .bcdadc x d r, .bcdsub x d r, .bcdsbb x d r, .bcdcmp x d r], does i (ilDone x c bad s)) ∧
    (bcdOk n a = true → bcdOk n b = true →
      sum (.bcdadd x d r) 0 ∧ sum (.bcdadc x d r) cy ∧ difference (.bcdsub x d r) 0 ∧ difference (.bcdsbb x d r) cy ∧
      ∃ f, FlagsAre c.flags f [(fBI, false), (fDC, decide (ofBcd n a < ofBcd n b)), (fZ, a == b)] ∧
        does (.bcdcmp x d r) (ilDone x c { c with flags := f, pc := ilNext x c } s)) ∧
    (does (.bcdchk x r) (ilDone x c { c with flags := flagSet c.flags fBI (!bcdOk n b), pc := ilNext x c } s)) ∧
    (10 ^ n ≤ b → does (.b2bcd x d r) (ilDone x c bad s)) ∧
    (b < 10 ^ n → ∃ v f, v < 16 ^ n ∧ bcdOk n v = true ∧ ofBcd n v = b ∧
      FlagsAre c.flags f [(fBI, false), (fZ, v == 0)] ∧ does (.b2bcd x d r) (ilDone x c (wrote v f) s)) ∧
    (bcdOk n b = false → does (.bcd2b x d r) (ilDone x c bad s)) ∧
    (bcdOk n b = true → ∃ f, FlagsAre c.flags f [(fBI, false), (fZ, ofBcd n b == 0)] ∧
      does (.bcd2b x d r) (ilDone x c (wrote (ofBcd n b) f) s)) ∧
    (∀ minus : Bool,
      let v := gReg c d
      let high := bitOf c.flags fC || decide (0x99 < v % 256)
      let corr := (if bitOf c.flags fH || decide (9 < v % 16) then 6 else 0) + (if high then 0x60 else 0)
      let low := (if minus then v % 256 + 256 - corr else v % 256 + corr) % 256
      ∃ f, FlagsAre c.flags f [(fC, high), (fDC, high), (fZ, low == 0), (fH, false)] ∧
        does (if minus then .das x d else .daa x d) (ilDone x c (wrote (v / 256 * 256 + low) f) s))

/-- For the eight rate codes of R242: the label of an index below N is valid by R243 and its index is that index again; a
valid label, at most 32 bits wide, has an index below N and is the label of that index. (R244) -/
def Obligations.TimecodeLabelsAndIndexes : Prop :=
  ∀ rate, rate < 8 →
    (∀ i, i < tcDay rate → tcValid rate (tcLabelOf rate i) = true ∧ tcIndex rate (tcLabelOf rate i) = i) ∧
    (∀ l, l < 2 ^ 32 → tcValid rate l = true → tcIndex rate l < tcDay rate ∧ tcLabelOf rate (tcIndex rate l) = l)

/-- On a ready core and a rate below 8: an invalid label sets BI and changes nothing else. TCADD writes the label of the
index of d plus the signed 64-bit s modulo N, DC telling that it left 0 to N - 1; TCSUB writes the difference of the
indexes modulo N, DC telling that d is below s; TC2F writes the index, DC 0; F2TC writes the label of s modulo N, DC
telling that s is N or more; each clears BI and sets Z for a zero result. TCCHK sets BI to whether s is no valid
label. A rate field of 8 or more raises ILLEGAL. (R242; R243; R244; R245; R237) -/
def Obligations.IleshTimecode : Prop :=
  ∀ (x : Ilx) (s : State) (d r rate : Nat),
    let c := getCore s x.core
    let does (i : Instr) (t : State) : Prop := IlReady x i s → exec i s = .next t
    let ld := gReg c d % 2 ^ 32
    let lr := gReg c r % 2 ^ 32
    let N := tcDay rate
    let bad : Core := { c with flags := flagSet c.flags fBI true, pc := ilNext x c }
    let gives (i : Instr) (v : Nat) (dc : Bool) : Prop :=
      ∃ f, FlagsAre c.flags f [(fBI, false), (fDC, dc), (fZ, v == 0)] ∧
        does i (ilDone x c { setG c d v with flags := f, pc := ilNext x c } s)
    (8 ≤ rate → ∀ i ∈ [Instr.tcadd x d r rate, .tcsub x d r rate, .tc2f x d r rate, .f2tc x d r rate, .tcchk x r rate],
      does i (ilRaise x c cause.ILLEGAL 0 (leNat (x.bytes.take 8)) s)) ∧
    (rate < 8 → does (.tcchk x r rate) (ilDone x c { c with flags := flagSet c.flags fBI (!tcValid rate lr), pc := ilNext x c } s)) ∧
    (rate < 8 → tcValid rate ld = false → ∀ i ∈ [Instr.tcadd x d r rate, .tcsub x d r rate], does i (ilDone x c bad s)) ∧
    (rate < 8 → tcValid rate lr = false → ∀ i ∈ [Instr.tcsub x d r rate, .tc2f x d r rate], does i (ilDone x c bad s)) ∧
    (rate < 8 → tcValid rate ld = true →
      let sumIx := (tcIndex rate ld : Int) + signed 64 (gReg c r)
      gives (.tcadd x d r rate) (tcLabelOf rate (sumIx % (N : Int)).toNat) (decide (sumIx < 0) || decide ((N : Int) ≤ sumIx))) ∧
    (rate < 8 → tcValid rate ld = true → tcValid rate lr = true →
      gives (.tcsub x d r rate) ((tcIndex rate ld + N - tcIndex rate lr) % N)
        (decide (tcIndex rate ld < tcIndex rate lr))) ∧
    (rate < 8 → tcValid rate lr = true → gives (.tc2f x d r rate) (tcIndex rate lr) false) ∧
    (rate < 8 → gives (.f2tc x d r rate) (tcLabelOf rate (gReg c r % N)) (decide (N ≤ gReg c r)))

/-- On a ready core BR goes to the next address plus disp modulo 2^64, BC there when its condition holds and else on, JMP
to s. CALL and CALLR push the next address with the current compartment, GATE 0 and go to their target while the stack
holds fewer than 16 entries; on a full stack they raise RS_OVER with EINFO 16 in fault mode (CCTL bit 0), and in wrap
mode drop the oldest entry, count it in RS_LOST, and go on unless that entry is a gate entry. RET pops the newest
entry and goes to its address; an empty stack raises RS_UNDER and a gate entry GATE_FAULT with EINFO 0x100. Nothing
else changes. (R237; R236; R246; R247; R248) -/
def Obligations.IleshBranchesAndCalls : Prop :=
  ∀ (x : Ilx) (s : State) (disp : Int) (r : Nat),
    let c := getCore s x.core
    let does (i : Instr) (t : State) : Prop := IlReady x i s → exec i s = .next t
    let next := ilNext x c
    let far := (((next : Int) + disp) % 2 ^ 64).toNat
    let e : RetEntry := { addr := next % 2 ^ 48, cmp := c.cmp, gate := false, sig := 0 }
    does (.br x disp) (ilDone x c { c with pc := far } s) ∧
    (∀ k, k < 16 → does (.bc x k disp) (ilDone x c { c with pc := if condHolds k c.flags then far else next } s)) ∧
    does (.jmp x r) (ilDone x c { c with pc := gReg c r } s) ∧
    (c.stack.length < 16 →
      does (.call x disp) (ilDone x c { c with stack := c.stack ++ [e], pc := far } s) ∧
      does (.callr x r) (ilDone x c { c with stack := c.stack ++ [e], pc := gReg c r } s)) ∧
    (16 ≤ c.stack.length → bitOf c.cctl 0 = true →
      does (.call x disp) (ilRaise x c cause.RS_OVER 0 c.stack.length s) ∧
      does (.callr x r) (ilRaise x c cause.RS_OVER 0 c.stack.length s)) ∧
    (∀ old l, 16 ≤ c.stack.length → bitOf c.cctl 0 = false → c.stack = old :: l →
      let went (a : Nat) : State :=
        if old.gate then ilRaise x c cause.RS_OVER 0 c.stack.length s
        else ilDone x c { c with stack := l ++ [e], rsLost := min 0xFFFFFFFF (c.rsLost + 1), pc := a } s
      does (.call x disp) (went far) ∧ does (.callr x r) (went (gReg c r))) ∧
    (c.stack = [] → does (.ret x) (ilRaise x c cause.RS_UNDER 0 0 s)) ∧
    (∀ l top, c.stack = l ++ [top] →
      does (.ret x) (if top.gate then ilRaise x c cause.GATE_FAULT 0 0x100 s
        else ilDone x c { c with stack := l, pc := top.addr } s))

/-- On a ready core, an access that the checks of alignment, address map and regions refuse raises the cause those checks
give, with its address in EINFO and no effect. Otherwise, for normal memory whose words carry no uncorrectable error:
LD writes the little-endian value at b + disp, zero-extended, and LDS sign-extends it; ST writes the low bytes of the
data register, least significant first; XCHG writes d and reads the old value into d; CAS writes s only where the old
value equals d, with Z telling so, and reads the old value into d; AMOADD writes the sum modulo the width and reads
the old value. The read counts and corrects what it touches; the write goes to the bytes at the computed address
alone. An uncorrectable word raises POISON with its address. Memory outside the stored bytes, every other register and
flag stay. (R230; R232; R237; R253; R258; R206) -/
def Obligations.IleshMemoryAccesses : Prop :=
  ∀ (x : Ilx) (s : State) (d b r : Nat) (disp : Int) (key : Nat),
    let c := getCore s x.core
    let does (i : Instr) (t : State) : Prop := IlReady x i s → exec i s = .next t
    let n := widthBits x.width / 8
    let far := (((gReg c b : Int) + disp) % (2 ^ 64 : Nat)).toNat
    let old (a : Nat) : Nat := leNat (coreBytes s x.core a n)
    let t (a : Nat) : State := coreTouch x.core a n s
    let after (a d v : Nat) : Core := { setG (getCore (t a) x.core) d v with pc := ilNext x c }
    (∀ why sub, accessCheck s x.core c ⟨true, false, false⟩ false far n = some (why, sub) →
      does (.ld x d b disp) (ilRaise x c why sub far s) ∧ does (.lds x d b disp) (ilRaise x c why sub far s)) ∧
    (accessCheck s x.core c ⟨true, false, false⟩ false far n = none → place s x.core far = .normal key →
      poisonAt s x.core far n = none →
      does (.ld x d b disp) (ilDone x c (after far d (old far)) (t far)) ∧
      does (.lds x d b disp) (ilDone x c
        (after far d (if bitOf (old far) (8 * n - 1) then old far + (2 ^ 64 - 2 ^ (8 * n)) else old far)) (t far))) ∧
    (accessCheck s x.core c ⟨true, false, false⟩ false far n = none → place s x.core far = .normal key →
      ∀ p, poisonAt s x.core far n = some p → does (.ld x d b disp) (ilRaise x c cause.POISON 0 p (t far))) ∧
    (∀ why sub, accessCheck s x.core c ⟨false, true, false⟩ false far n = some (why, sub) →
      does (.st x r b disp) (ilRaise x c why sub far s)) ∧
    (accessCheck s x.core c ⟨false, true, false⟩ false far n = none → place s x.core far = .normal key →
      does (.st x r b disp) (ilDone x c { c with pc := ilNext x c }
        (coreWrite x.core far (leBytes n (gReg c r % 2 ^ (8 * n))) s))) ∧
    (∀ why sub a, accessCheck s x.core c ⟨true, true, false⟩ true a n = some (why, sub) →
      (a = gReg c r → does (.xchg x d r) (ilRaise x c why sub a s) ∧
        does (.amoadd x d r) (ilRaise x c why sub a s)) ∧
      (a = gReg c b → does (.cas x d b r) (ilRaise x c why sub a s))) ∧
    (∀ a, accessCheck s x.core c ⟨true, true, false⟩ true a n = none → place s x.core a = .normal key →
      poisonAt s x.core a n = none →
      let put (v : Nat) : State := coreWrite x.core a (leBytes n v) (t a)
      let cd := gReg c d % 2 ^ (8 * n)
      (a = gReg c r → does (.xchg x d r) (ilDone x c { setG (getCore (put cd) x.core) d (old a) with pc := ilNext x c } (put cd))) ∧
      (a = gReg c r →
        let v := (old a + cd) % 2 ^ (8 * n)
        does (.amoadd x d r) (ilDone x c { setG (getCore (put v) x.core) d (old a) with pc := ilNext x c } (put v))) ∧
      (a = gReg c b →
        let u := if old a = cd then put (gReg c r % 2 ^ (8 * n)) else t a
        let k := getCore u x.core
        does (.cas x d b r) (ilDone x c { setG k d (old a) with flags := flagSet k.flags fZ (old a == gReg k d % 2 ^ (8 * n)), pc := ilNext x c } u)))

/-- On a ready core SIGU sets SIG to its rotation XOR v; SIGCK goes on, but raises CF_SIG with SIG and v in EINFO when
SIG_EN is 1 and SIG differs. GCALL raises GATE_FAULT with EINFO k where GTN, REG_EN or the gate entry in memory
forbids it; else, with room on the stack, it pushes the next address, the compartment and SIG as a gate entry, enters
the target compartment, whose region table is read, and goes to the target with SIG the seed. GRET on a gate entry
whose signature check passes pops it and restores compartment, SIG and PC; a check that fails raises CF_SIG, an
ordinary entry GATE_FAULT with EINFO 0x100, an empty stack RS_UNDER. (R257; R256) -/
def Obligations.IleshGatesAndSignatures : Prop :=
  ∀ (x : Ilx) (s : State) (v k : Nat), v < 65536 →
    let c := getCore s x.core
    let does (i : Instr) (t : State) : Prop := IlReady x i s → exec i s = .next t
    let next := ilNext x c
    let info := c.sig + v * 65536
    let bad : Prop := bitOf c.cctl 1 = true ∧ c.sig ≠ v
    let g := coreBytes s x.core (c.gtb + 16 * k) 16
    let target := leAt g 0 8
    let cmp := leAt g 8 1
    let shut : Prop := c.gtn ≤ k ∨ bitOf c.cctl 2 = false ∨ leAt g 9 1 ≠ 1 ∨ cmp = 0 ∨ 31 < cmp ∨ 2 ^ 48 ≤ target ∨
      bitOf (leAt g 0xC 4) c.cmp = false
    does (.sigu x v) (ilDone x c
      { c with sig := (c.sig * 2 % 65536 + c.sig / 32768) ^^^ v, pc := next } s) ∧
    (bad → does (.sigck x v) (ilRaise x c cause.CF_SIG 0 info s)) ∧
    (¬ bad → does (.sigck x v) (ilDone x c { c with pc := next } s)) ∧
    (shut → does (.gcall x k) (ilRaise x c cause.GATE_FAULT 0 k s)) ∧
    (¬ shut → c.stack.length < 16 →
      does (.gcall x k) (ilDone x c
        { c with
          stack := c.stack ++ [{ addr := next % 2 ^ 48, cmp := c.cmp, gate := true, sig := c.sig }]
          cmp := cmp, regions := readRegions s x.core c cmp, sig := leAt g 0xA 2, pc := target } s)) ∧
    (c.stack = [] → bad → does (.gret x v) (ilRaise x c cause.CF_SIG 0 info s)) ∧
    (c.stack = [] → ¬ bad → does (.gret x v) (ilRaise x c cause.RS_UNDER 0 0 s)) ∧
    (∀ l e, c.stack = l ++ [e] →
      (e.gate = false → does (.gret x v) (ilRaise x c cause.GATE_FAULT 0 0x100 s)) ∧
      (e.gate = true → bad → does (.gret x v) (ilRaise x c cause.CF_SIG 0 info s)) ∧
      (e.gate = true → ¬ bad → does (.gret x v) (ilDone x c
        { c with stack := l, cmp := e.cmp, regions := readRegions s x.core c e.cmp, sig := e.sig, pc := e.addr } s)))

/-- On a ready core in compartment 0, with every 16-byte slot allowed by R249, RSSPILL k takes the oldest min(k, depth)
entries off the stack, writes each below the one before from RSP downward in the layout of R250 and lowers RSP; RSFILL
k takes min(k, what RSBASE - RSP holds, the room on the stack) entries from RSP upward, the first read the newest of
the moved, puts them under the others and raises RSP; Z tells that none moved. Outside compartment 0 both raise PRIV;
an imm8 of 0 or above 16 is ILLEGAL. (R249; R250; R237) -/
def Obligations.IleshSpillAndFill : Prop :=
  ∀ (x : Ilx) (s : State) (k : Nat),
    let c := getCore s x.core
    let does (i : Instr) (t : State) : Prop := IlReady x i s → exec i s = .next t
    let n := min k c.stack.length
    let m := min (min k ((c.rsbase - c.rsp) / 16)) (16 - c.stack.length)
    (k = 0 ∨ 16 < k → does (.rsspill x k) (ilRaise x c cause.ILLEGAL 0 (leNat (x.bytes.take 8)) s) ∧
      does (.rsfill x k) (ilRaise x c cause.ILLEGAL 0 (leNat (x.bytes.take 8)) s)) ∧
    (1 ≤ k → k ≤ 16 → c.cmp ≠ 0 → does (.rsspill x k) (ilRaise x c cause.PRIV 0 0 s) ∧
      does (.rsfill x k) (ilRaise x c cause.PRIV 0 0 s)) ∧
    (1 ≤ k → k ≤ 16 → c.cmp = 0 → (∀ i, i < n → 16 * (i + 1) ≤ c.rsp ∧ spillOk s x.core c (c.rsp - 16 * (i + 1)) = true) →
      does (.rsspill x k) (ilDone x c
        { c with stack := c.stack.drop n, rsp := c.rsp - 16 * n, flags := flagSet c.flags fZ (n == 0), pc := ilNext x c }
        (spillAll x.core (c.stack.take n) c.rsp s))) ∧
    (1 ≤ k → k ≤ 16 → c.cmp = 0 → (∀ i, i < m → spillOk s x.core c (c.rsp + 16 * i) = true) →
      poisonAt s x.core c.rsp (16 * m) = none →
      let t := coreTouch x.core c.rsp (16 * m) s
      let filled := (List.range m).map fun i => entryOfSpill (coreBytes s x.core (c.rsp + 16 * i) 16)
      does (.rsfill x k) (ilDone x c
        { getCore t x.core with
          stack := filled.reverse ++ c.stack, rsp := c.rsp + 16 * m, flags := flagSet c.flags fZ (m == 0), pc := ilNext x c } t))

/-- For each of the 37 cores: with FLAGS.EXL 0 and EVB written, entry saves the given return address in EPC, FLAGS in
EFLAGS, CMP in ECMP, the cause with its sub-code in ECAUSE and the information in EINFO, sets EXL, clears IE and keeps
every other flag, enters compartment 0 reading its region table, and goes to EVB + 0x40 x cause; the general
registers, the return stack and SIG stay, and no other core and no other part of the state changes. With EVB not yet
written the core does the same towards the boot ROM and then stops with the cause. With EXL 1 the core stops with the
cause and keeps its registers. (R259; R262; R268; R252) -/
def Obligations.ExceptionEntrySavesAndVectors : Prop :=
  ∀ (i cause sub info epc : Nat) (s : State), i < s.cores.length →
    let c := getCore s i
    let saved (pc f : Nat) : Core :=
      { c with
        epc := epc, eflags := c.flags, ecmp := c.cmp, ecause := sub * 256 + cause, einfo := info, flags := f
        cmp := 0, regions := readRegions s i c 0, pc := pc }
    (bitOf c.flags fEXL = true → enterException i cause sub info epc s =
      { s with cores := s.cores.set i { c with act := .stopped cause } }) ∧
    (bitOf c.flags fEXL = false → ∃ f, FlagsAre c.flags f [(fEXL, true), (fIE, false)] ∧
      (∀ base, c.evb = some base → enterException i cause sub info epc s =
        { s with cores := s.cores.set i (saved (base + 0x40 * cause) f) }) ∧
      (c.evb = none → enterException i cause sub info epc s =
        { s with cores := s.cores.set i { saved (romBase + 0x40 * cause) f with act := .stopped cause } }))

/-- On a ready core MFS reads the special register's value zero-extended, and raises ILLEGAL for an unlisted number (0x17
is listed on stream cores alone). MTS raises ILLEGAL for an unlisted or read-only register, PRIV for a C0 register
outside compartment 0 (all but FLAGS and SIG), and else writes: CCTL[2:0], RSP and RSBASE in steps of 16, RS_LOST, RTB
by 4 KiB, GTB by 64, GTN, SIG[15:0], EVB by 4 KiB, EPC, EFLAGS, ECAUSE, EINFO, ECMP, WDT[15:0], IMASK; a 1 written to
IPEND clears the bit; FLAGS takes bits [6:0], and bits [9:8] in compartment 0 alone. (R228; R237) -/
def Obligations.IleshSpecialRegisters : Prop :=
  ∀ (x : Ilx) (s : State) (d r : Nat),
    let c := getCore s x.core
    let does (i : Instr) (t : State) : Prop := IlReady x i s → exec i s = .next t
    let v := gReg c r
    let reads (n v : Nat) : Prop := does (.mfs x d n) (ilDone x c { setG c d v with pc := ilNext x c } s)
    let writes (n : Nat) (c' : Core) : Prop := does (.mts x n r) (ilDone x c { c' with pc := ilNext x c } s)
    let illegal := ilRaise x c cause.ILLEGAL 0 (leNat (x.bytes.take 8)) s
    (reads 0x00 c.pc ∧ reads 0x01 c.flags ∧ reads 0x02 c.cctl ∧ reads 0x03 c.rsp ∧ reads 0x04 c.rsbase ∧
      reads 0x05 c.stack.length ∧ reads 0x06 c.rsLost ∧ reads 0x07 c.cmp ∧ reads 0x08 c.rtb ∧ reads 0x09 c.gtb ∧
      reads 0x0A c.gtn ∧ reads 0x0B c.sig ∧ reads 0x0C (c.evb.getD 0) ∧ reads 0x0D c.epc ∧ reads 0x0E c.eflags ∧
      reads 0x0F c.ecause ∧ reads 0x10 c.einfo ∧ reads 0x11 c.ecmp ∧ reads 0x12 (ipendOf s x.core) ∧ reads 0x13 c.imask ∧
      reads 0x14 (if x.core < 32 then x.core else if x.core < 36 then 256 + (x.core - 32) else 512) ∧
      reads 0x15 (s.tick.count % 2 ^ 64) ∧ reads 0x16 c.wdt) ∧
    (x.core < 32 → reads 0x17 (blkEpoch s (pTILE x.core))) ∧
    (∀ n, 0x18 ≤ n ∨ n = 0x17 ∧ 32 ≤ x.core → does (.mfs x d n) illegal ∧ does (.mts x n r) illegal) ∧
    (∀ n ∈ [0x00, 0x05, 0x07, 0x14, 0x15, 0x17], does (.mts x n r) illegal) ∧
    (c.cmp ≠ 0 → ∀ n ∈ [0x02, 0x03, 0x04, 0x06, 0x08, 0x09, 0x0A, 0x0C, 0x0D, 0x0E, 0x0F, 0x10, 0x11, 0x12, 0x13, 0x16],
      does (.mts x n r) (ilRaise x c cause.PRIV 0 0 s)) ∧
    (writes 0x0B { c with sig := v % 65536 } ∧
      writes 0x01 { c with flags := (v &&& 0x7F) + (if c.cmp = 0 then bitsOf v 8 2 else bitsOf c.flags 8 2) * 256 }) ∧
    (c.cmp = 0 →
      writes 0x02 { c with cctl := v % 8 } ∧ writes 0x03 { c with rsp := v / 16 * 16 } ∧ writes 0x04 { c with rsbase := v / 16 * 16 } ∧
      writes 0x06 { c with rsLost := min v 0xFFFFFFFF } ∧ writes 0x08 { c with rtb := v / 4096 * 4096 } ∧
      writes 0x09 { c with gtb := v / 64 * 64 } ∧ writes 0x0A { c with gtn := min v 256 } ∧
      writes 0x0C { c with evb := some (v / 4096 * 4096) } ∧ writes 0x0D { c with epc := v } ∧
      writes 0x0E { c with eflags := v &&& 0x37F } ∧ writes 0x0F { c with ecause := v % 65536 } ∧ writes 0x10 { c with einfo := v } ∧
      writes 0x11 { c with ecmp := v % 32 } ∧ writes 0x12 { c with ipend := c.ipend - (c.ipend &&& v) } ∧
      writes 0x13 { c with imask := v } ∧ writes 0x16 { c with wdt := v % 65536 })

/-- On a ready core in compartment 0: ERET restores PC, FLAGS and CMP from EPC, EFLAGS and ECMP, reading the region table
of that compartment; WFI goes on at once where an enabled line is pending and else sleeps with the next address kept;
RTSYNC reads the table of the current compartment again; WDKICK clears the count. Outside compartment 0 each raises
PRIV. INTERRUPT_TAKE on a running core not held, with IE 1 and EXL 0, takes the lowest pending enabled line with EINFO
the line and the current PC saved. WATCHDOG_EXPIRY on a running core raises WATCHDOG once, with EINFO the count, when
the count has reached WDT, and stops the core when it has reached twice WDT. (R259; R260; R261; R252; R262; R237) -/
def Obligations.IleshReturnSleepAndWatchdog : Prop :=
  ∀ (x : Ilx) (s : State) (core line : Nat),
    let c := getCore s x.core
    let does (i : Instr) (t : State) : Prop := IlReady x i s → exec i s = .next t
    let next := ilNext x c
    let k := getCore s core
    let pending := ipendOf s core &&& k.imask
    (c.cmp ≠ 0 → ∀ i ∈ [Instr.eret x, .wfi x, .rtsync x, .wdkick x],
      does i (ilRaise x c cause.PRIV 0 0 s)) ∧
    (c.cmp = 0 →
      does (.eret x) (ilDone x c
        { c with pc := c.epc, flags := c.eflags, cmp := c.ecmp, regions := readRegions s x.core c c.ecmp } s) ∧
      does (.wfi x) (ilDone x c
        (if ipendOf s x.core &&& c.imask = 0 then { c with act := .wfi next } else { c with pc := next }) s) ∧
      does (.rtsync x) (ilDone x c { c with regions := readRegions s x.core c c.cmp, pc := next } s) ∧
      does (.wdkick x) (ilDone x c { c with wdCount := 0, wdRaised := false, pc := next } s)) ∧
    (core < 37 → k.act = .running → coreHeld s core = false → bitOf k.flags fIE = true → bitOf k.flags fEXL = false →
      watchdogDue k = false → line < 64 → bitOf pending line = true → (∀ j, j < line → bitOf pending j = false) →
      exec (.interruptTake core) s = .next (enterException core cause.INTERRUPT 0 line k.pc s)) ∧
    (core < 37 → k.act = .running → coreHeld s core = false → k.wdt ≠ 0 → 2 * k.wdt ≤ k.wdCount →
      exec (.watchdogExpiry core) s = .next (putCore core { k with act := .stopped cause.WATCHDOG } s)) ∧
    (core < 37 → k.act = .running → coreHeld s core = false → k.wdRaised = false → k.wdt ≤ k.wdCount → k.wdCount < 2 * k.wdt →
      exec (.watchdogExpiry core) s =
        .next (enterException core cause.WATCHDOG 0 k.wdCount k.pc (putCore core { k with wdRaised := true } s)))

/-- On a ready stream core: DPUSH of engine 1 to 3 at a 64-byte aligned slice address that the regions allow and whose
bytes carry no uncorrectable error sets C when 64 descriptors are outstanding, C and V when the engine's remaining
budget is below EST_CYC, and else appends the descriptor to the engine's queue with the tick and clears both; an
engine code of 0 or above 3 is ILLEGAL and a misaligned address raises ALIGN. BREAD reads the remaining budget of
engine e as a signed 64-bit value, a code above 3 being ILLEGAL. RPOP of an even d pops the oldest result into d and d
+ 1 with Z 0, sets Z alone on an empty ring, and is ILLEGAL for an odd d. WAIT with a mask of 1 to 7 goes on at once
with the conditions in d where any holds and else sleeps; mask 0 and bits [7:3] are ILLEGAL. (R263; R264; R265; R266;
R181; R126) -/
def Obligations.IleshStreamExtensions : Prop :=
  ∀ (x : Ilx) (s : State) (d e r m : Nat),
    let c := getCore s x.core
    let does (i : Instr) (t : State) : Prop := IlReady x i s → exec i s = .next t
    let a := gReg c r
    let next := ilNext x c
    let illegal := ilRaise x c cause.ILLEGAL 0 (leNat (x.bytes.take 8)) s
    let desc := memRead s.mem (sliceKey x.core a) 64
    let flags (cf vf : Bool) : Core := { c with flags := flagSet (flagSet c.flags fC cf) fV vf, pc := next }
    (e = 0 ∨ 3 < e → does (.dpush x e r) illegal) ∧
    (1 ≤ e → e ≤ 3 → a % 64 ≠ 0 → does (.dpush x e r) (ilRaise x c cause.ALIGN 0 a s)) ∧
    (1 ≤ e → e ≤ 3 → a % 64 = 0 → a < sliceBytes → regionRefuses c ⟨true, false, false⟩ a 64 = none →
      sliceTouch x.core a 64 s = s → poisonIn s x.core a 64 = none →
      (64 ≤ outstanding s x.core e → does (.dpush x e r) (ilDone x c (flags true false) s)) ∧
      (outstanding s x.core e < 64 → quiescing s = true ∨ remaining s x.core e < leAt desc 0xC 4 →
        does (.dpush x e r) (ilDone x c (flags true true) s)) ∧
      (outstanding s x.core e < 64 → quiescing s = false → ¬ remaining s x.core e < leAt desc 0xC 4 →
        let q := getEng s x.core e
        does (.dpush x e r) (ilDone x c (flags false false) (putEng x.core e
          { q with
            queue := q.queue ++ [{ desc := desc, tick := s.tick.count }]
            start := if q.queue = [] then s.tick.count else q.start } s)))) ∧
    (3 < e → does (.bread x d e) illegal) ∧
    (e ≤ 3 → does (.bread x d e) (ilDone x c { setG c d (remaining s x.core e % (2 ^ 64 : Nat)).toNat with pc := next } s)) ∧
    (d % 2 = 1 → does (.rpop x d) illegal) ∧
    (d % 2 = 0 → ringOf s x.core = [] → does (.rpop x d) (ilDone x c { c with flags := flagSet c.flags fZ true, pc := next } s)) ∧
    (∀ top l, d % 2 = 0 → ringOf s x.core = top :: l → does (.rpop x d) (ilDone x c
        { setG (setG c d (top.dw.getD 0 0 + 2 ^ 32 * top.dw.getD 1 0)) (d + 1) (top.dw.getD 2 0 + 2 ^ 32 * top.dw.getD 3 0) with
          flags := flagSet c.flags fZ false, pc := next } (putRing x.core l s))) ∧
    (m = 0 ∨ 8 ≤ m → does (.wait x d m) illegal) ∧
    (1 ≤ m → m < 8 →
      let w := waitConds s x.core false
      does (.wait x d m) (ilDone x c
        (if w &&& m = 0 then { c with act := .wait d m next false } else { setG c d w with pc := next }) s))

/-- JUNCTION_SAMPLE stores the temperature and the cooling times and enters (the model's reading, log entry 14) every step
whose entry temperature (98, 102, 105) is reached above the step in force, lowest first; at 112, not yet tripped, it
also latches the trip, logs it with cause 3, drives THERM_TRIP_N low and takes the main rails off where they were on.
THERM_STEP_LEAVE leaves to the highest step whose 100 ms of cooling have not run, releasing THERM3 when it leaves step
3. MAIN_SAMPLE stores the reading and moves the runs below 62, 56 and 52 V and the times at or above 64 V, within 62
to 80 V, within 60 to 80 V and above 84 V, forgets a failed rail below 40 V with the rails off, raises pennant 9 above
80 V and, with the rails on, acts on the sag steps of R51. AUX_SAMPLE stores its reading and takes the input into use
at 60 V. SAG_STEP1_LEAVE leaves step 1 after 100 ms at or above 64 V; INPUT_OVERVOLTAGE opens the input after 50 us
above 84 V and starts the shutdown with cause 2. (R16; R17; R31; R51; R53; R604; R607) -/
def Obligations.ThermalStepsAndInputSamples : Prop :=
  ∀ (t v x : Nat) (s : State),
    let u := atTime t s
    let entered : State :=
      let w : State := setFld u pPWR R.PWR.THERM_STAT 0 8 (min v 255)
      let w : State := { w with power := { w.power with
        cool1 := coolOf t v 1 w.power.cool1, cool2 := coolOf t v 2 w.power.cool2, cool3 := coolOf t v 3 w.power.cool3 } }
      let up (k entry : Nat) (s : State) : State :=
        if entry ≤ v ∧ thermStep s < k then
          let s := logEvent 0x000E (some pPWR) [k, v] (penBit pPWR (3 + k) (setFld s pPWR R.PWR.THERM_STAT 8 2 k))
          if k = 3 then setAlert 0 true s else s
        else s
      showLimit (up 3 105 (up 2 102 (up 1 98 w)))
    let tripped : State :=
      let w := logEvent 0x0005 (some pPWR) [3] (setAlert 6 true entered)
      breakSplice (emit (.pin "THERM_TRIP_N" false)
        { w with power := { w.power with thermTrip := true, tripLatched := true, downCause := 3, cold := true } })
    let left := showLimit (setFld u pPWR R.PWR.THERM_STAT 8 2 (thermAfter u t))
    let sampled : State :=
      let w := setFld u pPWR R.PWR.IN_STAT 0 16 (min v 65535)
      let p := w.power
      let since (b : Bool) (old : Option Nat) : Option Nat := if b then some (old.getD t) else none
      let w : State := { w with power := { p with
        below62 := if v < 6200 then p.below62 + 1 else 0, below56 := if v < 5600 then p.below56 + 1 else 0
        below52 := if v < 5200 then p.below52 + 1 else 0
        ge64Since := since (decide (6400 ≤ v)) p.ge64Since
        in6280Since := since (decide (6200 ≤ v ∧ v ≤ 8000)) p.in6280Since
        in6080Since := since (decide (6000 ≤ v ∧ v ≤ 8000)) p.in6080Since
        gt84Since := since (decide (8400 < v)) p.gt84Since } }
      let w : State := { w with power := { w.power with absentSince := since (bothAbsent w) w.power.absentSince } }
      let w : State := if v < 4000 ∧ w.power.phase = .off then
          { w with power := { w.power with railFailAt := none, railRetried := false } } else w
      auxLow (if 8000 < v then penBit pPWR 9 w else w)
    let aux : State :=
      let w := setFld u pPWR R.PWR.AUX_STAT 0 16 (min v 65535)
      let w : State := { w with power := { w.power with auxInUse := w.power.auxInUse || (w.power.alwaysOn && decide (6000 ≤ v)) } }
      { w with power := { w.power with absentSince := if bothAbsent w then some (w.power.absentSince.getD t) else none } }
    (v < 112 ∨ entered.power.thermTrip = true → exec (.junctionSample t v) s = .next entered) ∧
    (112 ≤ v → entered.power.thermTrip = false →
      exec (.junctionSample t v) s = .next (if tripped.power.phase = .off then tripped else mainOff tripped)) ∧
    (thermAfter u t < thermStep u →
      exec (.thermStepLeave t) s = .next (if thermStep u = 3 then setAlert 0 false left else left)) ∧
    (thermStep u ≤ thermAfter u t → exec (.thermStepLeave t) s = .next u) ∧
    exec (.mainSample t v) s = .next (if sampled.power.phase = .off then sampled else sagAct sampled) ∧
    exec (.auxSample t v) s = .next (auxLow aux) ∧
    (s.power.ge64Since = some x → sagStep s = 1 → x + 100000000 ≤ t →
      exec (.sagStep1Leave t) s = .next (showLimit (setFld u pPWR R.PWR.IN_STAT 16 2 0))) ∧
    (s.power.gt84Since = some x → x + 50000 ≤ t → s.power.inputOpen = false →
      exec (.inputOvervoltage t) s =
        .next (startShutdown 2 { u with power := { s.power with inputOpen := true, downCause := 2 } }))

/-- With the boot allowing it, MAIN_STAGE_ENABLE, MGMT_POWER_ON after a trip or a failed rail, RAIL_RETRY,
OVERVOLTAGE_RESTART and MAIN_RESTART start the main stage: the whole main domain is reset and the rails ramp from t.
RAILS_GOOD asserts PWR_OK and, with RESET_N high, releases the reset; RAIL_FAIL removes the rails, logs the sensor and
drives ALERT_N. MGMT_RESET and RESET_N low for 10 us request a main reset, which waits for NAND programs and the
quiesce and else takes effect; RESET_N_RISE releases a domain held in reset with PWR_OK asserted;
MAIN_RESET_TAKE_EFFECT performs a waiting request. QUIESCE_END and SHUTDOWN_RAILS_OFF write the root dies and take the
rails off, a waiting reset being performed first. ALWAYS_ON_START at 60 V on either input is a cold start with the ROM's
keys and boot, and the MSS reports ready 3 to 400 ms later; ALWAYS_ON_STOP, both inputs absent for 20 ms, resets and stops
both domains. (R17; R31; R34; R35; R37; R38; R41; R52; R53; R54; R607) -/
def Obligations.PowerUpAndResets : Prop :=
  ∀ (t v w x sensor : Nat) (refused : Bool) (s : State),
    let u := atTime t s
    let on (s : State) : State :=
      let m := mainReset (atTime t s)
      { m with power := { m.power with phase := .ramping, startAt := t } }
    let p := s.power
    let may : Prop := p.phase = .off ∧ p.alwaysOn = true ∧ p.mssUpAt ≤ t ∧ p.inputOpen = false ∧
      5800 ≤ fld s pPWR R.PWR.IN_STAT 0 16
    let untrip (s : State) : State := setAlert 6 false (emit (.pin "THERM_TRIP_N" true)
      { s with power := { s.power with tripLatched := false, thermTrip := false } })
    (may → p.tripLatched = false → p.downCause = 0 → p.railFailAt = none → bootAllows s = true →
      exec (.mainStageEnable t) s = .next (on s)) ∧
    (may → p.tripLatched = false → p.railFailAt = some x →
      let c := setAlert 2 false { s with power := { p with railFailAt := none, railRetried := false } }
      bootAllows c = true → exec (.mgmtPowerOn t) s = .next (on c)) ∧
    (may → p.tripLatched = true → fld s pPWR R.PWR.THERM_STAT 0 8 < 90 →
      bootAllows (untrip s) = true → exec (.mgmtPowerOn t) s = .next (on (untrip s))) ∧
    (may → p.tripLatched = false → p.railFailAt = some x → x + 1000000000 ≤ t → p.railRetried = false → bootAllows s = true →
      exec (.railRetry t) s = .next (on { s with power := { p with railRetried := true } })) ∧
    (p.in6080Since = some x → p.phase = .off → p.alwaysOn = true → p.inputOpen = true → p.tripLatched = false →
      x + 1000000000 ≤ t → bootAllows s = true →
      exec (.overvoltageRestart t) s = .next (on { s with power := { p with inputOpen := false } })) ∧
    (p.in6280Since = some x → p.phase = .off → p.alwaysOn = true → p.inputOpen = false → p.tripLatched = false →
      p.railFailAt = none → p.downCause ≠ 0 → x + 1000000000 ≤ t → bootAllows s = true →
      exec (.mainRestart t) s = .next (on s)) ∧
    (p.phase = .ramping →
      let good := setAlert 2 false (emit (.pin "PWR_OK" true) { u with power := { p with
        phase := .inReset, pwrOk := true, flashPfail := false, railFailAt := none, railRetried := false, downCause := 0 } })
      exec (.railsGood t) s = .next (if good.power.resetN then releaseReset t good else good)) ∧
    (p.phase = .ramping → exec (.railFail t sensor) s = .next (setAlert 2 true (logEvent 0x0006 (some pPWR) [sensor]
      { u with power := { p with phase := .off, pwrOk := false, railFailAt := some t } }))) ∧
    (p.tripLatched = false → p.phase = .running ∨ p.phase = .inReset →
      exec (.mgmtReset t) s = .next (if (breakSplice u).flash.begun = [] ∧ (breakSplice u).power.quiesce = none
        then mainResetNow t (breakSplice u)
        else { breakSplice u with power := { (breakSplice u).power with resetPending := true } })) ∧
    (x + 10000 ≤ t → exec (.resetNLow x t) s =
      .next (requestMainReset t { u with power := { p with resetN := false, resetLowSince := some x } })) ∧
    (p.phase = .inReset → p.pwrOk = true → s.mgmt.hold = false → exec (.resetNRise t) s =
      .next (releaseReset t { u with power := { p with resetN := true, resetLowSince := none } })) ∧
    (p.resetPending = true → s.flash.begun = [] → p.quiesce = none → p.phase = .running ∨ p.phase = .inReset →
      exec (.mainResetTakeEffect t) s =
      .next (mainResetNow t { s with power := { p with resetPending := false } })) ∧
    (p.quiesce ≠ none → s.flash.begun = [] → p.phase = .running ∨ p.phase = .inReset →
      let q := atTime t (writeRoots { s with power := { p with powerLossWritten := true } })
      exec (.quiesceEnd t) s = .next (mainOff (if p.resetPending then mainReset q else q))) ∧
    (p.phase = .shutdown → s.flash.begun = [] → exec (.shutdownRailsOff t) s =
      .next (mainOff (writeRoots { u with power := { u.power with powerLossWritten := true } }))) ∧
    (p.alwaysOn = false → 6000 ≤ v ∨ 6000 ≤ w →
      let b := setFld (setFld (mssStarts t (romBoot (romKeys refused (atTime t (coldStart s))))) pPWR R.PWR.IN_STAT 0 16 v)
        pPWR R.PWR.AUX_STAT 0 16 w
      exec (.alwaysOnStart t (v, w) refused) s = .next { b with power := { b.power with auxInUse := decide (6000 ≤ w) } }) ∧
    (p.absentSince = some x → p.alwaysOn = true → x + 20000000 ≤ t →
      let m := mainReset u
      exec (.alwaysOnStop t) s = .next { m with power := { m.power with
        phase := .off, alwaysOn := false, pwrOk := false, auxInUse := false, aux18 := false, cold := true } })

/-- POWER_SAMPLE stores the sample, and with the main domain running the mean of the last 1,000, the excursion run above
the effective limit and what is left of the excursion length. CAP_EXCURSION_LIMIT, when the last sample exceeds 720 W
or the excursion has reached its length, forces every tile to half its clock until the next tick, where the budgets are
cut, and raises pennant 2. DROOP_TRIP above a tile's threshold stretches the tile and raises pennant 7; DROOP_RELEASE
after 64 clean stretched cycles ends it. CONFIG_REQUEST answers Retry Status while the domain does not run, or firmware
is not ready and 1,000 ms have not run, and is else served; a served write of a function on the link sets what it
writes, a completion timeout held to 50 us to 10 ms, and Bus Master Enable ends a silencing unless the function is
frozen, resetting or absent. (R36; R42; R43; R44; R45; R46; R47; R353; R368) -/
def Obligations.PowerCapDroopAndConfiguration : Prop :=
  ∀ (t v tile func : Nat) (bme : Bool) (c : CfgWrite) (s : State),
    let u := atTime t s
    let sampled : State :=
      let u := firmwareRestart t u
      let l := (v :: u.power.samples).take 1000
      let run := if 10 * (effLimit u).1 < v then u.power.excRun + 1 else 0
      let w : State := { u with power := { u.power with samples := l, excRun := run } }
      let w := setFld w pPWR R.PWR.IN_POWER 0 16 (min v 65535)
      let w := setFld w pPWR R.PWR.IN_POWER 16 16 (l.sum / l.length)
      let w := setFld w pPWR R.PWR.CAP_STAT 19 1 (if run = 0 then 0 else 1)
      setFld w pPWR R.PWR.CAP_STAT 20 4 (if run = 0 then 0 else excLength w - run / 10)
    let retry (link : Nat) : Prop := s.power.phase ≠ .running ∨
      s.power.fwReady.getD link false = false ∧ t < max s.power.releaseAt (s.power.perstAt.getD link 0) + 1000000000
    let written (link : Nat) : State := modFn func (fun x => { x with
      cto := (match c.cto with | some 0 => 10000000 | some n => max 50000 (min 10000000 n) | none => x.cto)
      tag10 := c.tag10.getD x.tag10, tag14 := c.tag14.getD x.tag14, relaxed := c.relaxed.getD x.relaxed })
      (emit (.config link false) u)
    ((firmwareRestart t u).power.phase = .running → exec (.powerSample t v) s = .next sampled) ∧
    ((firmwareRestart t u).power.phase ≠ .running →
      exec (.powerSample t v) s = .next (setFld (firmwareRestart t u) pPWR R.PWR.IN_POWER 0 16 (min v 65535))) ∧
    (excReached s = true → exec (.capExcursionLimit t) s = .next (penBit pPWR 2
      (showStretch t { u with power := { s.power with forced := true, capCut := true } }))) ∧
    (tile < 32 → droopThr s tile * 5 < v → exec (.droopTrip t tile v) s = .next (penBit pPWR 7
      (showStretch t { u with power := { s.power with droop := mput s.power.droop tile t } }))) ∧
    (∀ x, mget s.power.droop tile = some x → 64 ≤ (t - x) * Config.tileMhz / 2000 → exec (.droopRelease t tile) s =
      .next (showStretch t { u with power := { s.power with droop := mdel s.power.droop tile } })) ∧
    (∀ link, retry link → exec (.configRequest t link func bme c) s = .next (emit (.config link true) u)) ∧
    (∀ link, ¬ retry link → 1012 ≤ func ∨ hostLink s func ≠ link →
      exec (.configRequest t link func bme c) s = .next (emit (.config link false) u)) ∧
    (∀ link, ¬ retry link → func < 1012 → hostLink s func = link →
      exec (.configRequest t link func false c) s = .next (written link)) ∧
    (∀ link, ¬ retry link → func < 1012 → hostLink s func = link →
      let b := modFn func (fun x => { x with bme := true }) (written link)
      let st := blkState b (pFUNC func)
      exec (.configRequest t link func true c) s = .next (if st = 0x80 ∨ st = 4 ∨ st = 0x82 then b else unsilence func b))

/-- With the main domain running and the tick started, TICK_EDGE at or after the end of the current tick carries out, at
the edge's own time (log entry 22), the steps of R73 in their order, a restart of the MSS firmware that is due first; with no
switch due the count rises by one, tick
time by the period in force, and TICK_OUT rises with the new number before every other step but the pages' edge
events. Before that time it changes nothing. (R57; R68; R73) -/
def Obligations.TickEdgeRunsTheOrderedSteps : Prop :=
  ∀ (t : Nat) (s : State),
    let e := s.tick.edgeAt + s.tick.len
    let u := edgeEvents (firmwareRestart t (atTime t s))
    let counted : State := emit (.tickOut (u.tick.count + 1)) { u with tick := { u.tick with
      count := u.tick.count + 1, edgeAt := e, timeUs := u.tick.timeUs + u.tick.period, carried := u.tick.carried.map (· + 1) } }
    (t < e → exec (.tickEdge t) s = .next s) ∧
    (e ≤ t → s.tick.started = true → s.power.phase = .running → u.tick.pendSwitch = none →
      exec (.tickEdge t) s = .next (halyardAfterEdge s.tick.count (edgeHandOvers (edgeBudgets e (edgeGates
        (edgeLength e (chooseSource (edgeSource e (edgePeriod (edgeCommits e (halyardEdge s.tick.count e (edgeHawser counted))))))))))))

/-- On a qualified TICK_IN an edge more than 2 us from the prediction is ignored and counted with pennant 2, and a nearer
one is taken as the last, the source's frequency following it; on an unqualified one the eighth edge in a row within 500 ns of the prediction qualifies the
source and the source is chosen again. A Sync of the configured domain and port stores its time and the runs at or
below 250 ns and above 1 us. The loss of a qualified source takes its qualification; that of the active one holds its
frequency, raises pennant 0 and starts holdover before the choice. 10 s after the loss, still in holdover, pennant 3
rises. A read of COUNT_LO latches COUNT[63:32] for that reader alone. (R58; R60; R61; R62; R64; R65; R66) -/
def Obligations.TickSourcesAndHoldover : Prop :=
  ∀ (t src : Nat) (a : Agent) (s : State),
    let u := atTime t s
    let e := t - 4 * fld s pTICK R.TICK.PTP_CFG 24 8
    let d := distance e (predicted u 1 e)
    let last := u.tick.lastSeen.getD 1 0
    let follows (goesOn : Bool) (own : Nat) : State :=
      let w := trackFreq 1 goesOn (e - last) own u
      { w with tick := { w.tick with lastSeen := w.tick.lastSeen.set 1 e } }
    let seen := follows true (max 1 (periodsTo u 1 e) * (u.tick.period * 1000))
    let ok := decide (last ≠ 0) && decide (d ≤ 500)
    let n := if ok then u.tick.good.getD 1 0 + 1 else 0
    let counted : State :=
      let w := follows ok (predicted u 1 e - last)
      { w with tick := { w.tick with good := w.tick.good.set 1 n } }
    let gone : State :=
      let w := setQualified src false u
      { w with tick := { w.tick with
        good := w.tick.good.set src 0, bad := w.tick.bad.set src 0, unusable := w.tick.unusable.set src false
        wasLost := w.tick.wasLost.set src true, run := w.tick.run.set src (0, 0)
        hold := if activeSource u = src then freqOf u src else w.tick.hold } }
    (sourceQualified u 1 = true → 2000 < d → exec (.tickinEdge t) s = .next (penBit pTICK 2
      (setFld u pTICK R.TICK.SRC_STAT 16 16 (min 0xFFFF (fld u pTICK R.TICK.SRC_STAT 16 16 + 1))))) ∧
    (sourceQualified u 1 = true → d ≤ 2000 → exec (.tickinEdge t) s =
      .next (if activeSource seen = 1 then showPhase (phaseAgainst seen e) seen else seen)) ∧
    (sourceQualified u 1 = false → n < 8 → exec (.tickinEdge t) s = .next counted) ∧
    (sourceQualified u 1 = false → 8 ≤ n → exec (.tickinEdge t) s = .next (chooseSource (setQualified 1 true counted))) ∧
    (∀ port dom offset ns, bitOf (reg s pTICK R.TICK.PTP_CFG) 4 = true → bitsOf (reg s pTICK R.TICK.PTP_CFG) 16 8 = dom →
      bitsOf (reg s pTICK R.TICK.PTP_CFG) 0 4 = port →
      let good := if offset.natAbs ≤ 250 then u.tick.good.getD 2 0 + 1 else 0
      let bad := if 1000 < offset.natAbs then u.tick.bad.getD 2 0 + 1 else 0
      let w := match u.tick.ptpRef with
        | some r => trackFreq 2 (decide (offset.natAbs ≤ 1000)) (t - r.1) (ns - r.2) u
        | none => u
      let w : State := { w with tick := { w.tick with
        good := w.tick.good.set 2 good, bad := w.tick.bad.set 2 bad, lastSeen := w.tick.lastSeen.set 2 t, ptpRef := some (t, ns) } }
      let w := if activeSource w = 2 then showPhase offset w else w
      exec (.ptpMessage t port dom true offset ns) s =
        .next (if 16 ≤ good ∧ sourceQualified w 2 = false then chooseSource (setQualified 2 true w) else w)) ∧
    (sourceLost s t src = true → sourceQualified s src = true → activeSource u ≠ src →
      exec (.srcLost t src) s = .next (chooseSource gone)) ∧
    (sourceLost s t src = true → sourceQualified s src = true → activeSource u = src →
      let h := setFld (penBit pTICK 0 gone) pTICK R.TICK.SRC_STAT 8 1 1
      exec (.srcLost t src) s = .next (chooseSource { h with tick := { h.tick with holdoverSince := some t, rem := 0 } })) ∧
    (∀ x, s.tick.holdoverSince = some x → x + 10000000000 ≤ t → inHoldover s = true →
      exec (.holdoverExpiry t) s = .next (penBit pTICK 3 u)) ∧
    (sees s a pTICK = true → exec (.tickCountLoRead (a, pageAt pTICK R.TICK.COUNT_LO)) s = .next { s with
      latches := mput s.latches (latchKey a (pageAt pTICK R.TICK.COUNT_HI)) (BitVec.ofNat 32 (s.tick.count / 2 ^ 32)) })

/-- A write of 1 to HALYARD_FIRE raises source 0, a rising HALYARD_IN source 1, a management trigger source 4; a write
without bit 0 raises none. In tick mode an enabled source waits for the next edge, one trigger at a time; in immediate
mode an enabled source that comes 1 us or more after the last trigger and not within 20 ns before the edge is latched
at once with its offset; a source not enabled, or the halyard not armed, changes nothing but the time. Clearing
SNAP_STAT.VALID of a present page re-arms it. (R77; R78; R79; R80; R81; R82) -/
def Obligations.HalyardAndSnapshots : Prop :=
  ∀ (t v : Nat) (p : Page) (s : State),
    let u := atTime t s
    let raises (src : Nat) (i : Instr) (u : State) : Prop :=
      let ctl := reg u pTICK R.TICK.HALYARD_CTL
      (bitOf ctl 0 = false ∨ bitOf ctl (4 + src) = false → exec i s = .next u) ∧
      (bitOf ctl 0 = true → bitOf ctl (4 + src) = true → bitOf ctl 1 = false → exec i s =
        .next (if u.tick.halWait.isSome then u else { u with tick := { u.tick with halWait := some ⟨src, t⟩ } })) ∧
      (bitOf ctl 0 = true → bitOf ctl (4 + src) = true → bitOf ctl 1 = true → (∀ x, u.tick.halLast = some x → x + 1000 ≤ t) →
        u.tick.edgeAt + u.tick.len ≤ t ∨ t + 20 ≤ u.tick.edgeAt + u.tick.len →
        exec i s = .next (halyardLatch src 1 (t - u.tick.edgeAt) { u with tick := { u.tick with halLast := some t } }))
    (v % 2 = 1 → raises 0 (.halyardFire t v) u) ∧ (v % 2 = 0 → exec (.halyardFire t v) s = .next u) ∧
    raises 1 (.halyardIn t) { u with power := { s.power with halyardIn := true } } ∧
    raises 4 (.halyardMgmtTrigger t) u ∧
    (pagePresent s p = true → exec (.snapValidClear p) s = .next (setFld s p R.SNAP_STAT 31 1 0))

/-- For every page, aligned register and field of it, in a state whose register map lists its keys rising: after a write,
an RW field holds the written bits, a W1C field its old bits less the written 1s, a W1S field its old bits and the
written 1s, an RWL field the written bits unless its block's lock holds, and every field of another type its old value
in force; an RWS field's shadow holds the written bits where the register is no view of a table entry. Every other
register and everything but registers and shadows is as before. (R8; R58; R74) -/
def Obligations.RegisterFieldsTakeWritesByAccess : Prop :=
  ∀ (a : Agent) (p : Page) (off v : Nat) (s : State) (f : RegField), mwf s.regs = true → off % 4 = 0 → off < 0x1000 →
    f ∈ fieldsAt p.ty off →
    let t := writeFields s a p off v
    let n := f.hi + 1 - f.lo
    let old := fld s p off f.lo n
    let w := bitsOf v f.lo n
    let new := fld t p off f.lo n
    (match viewType a p off f with
      | .rw => new = w
      | .w1c => new = old &&& (2 ^ n - 1 - w)
      | .w1s => new = old ||| w
      | .rwl => new = if blkLocked s p then old else w
      | _ => new = old) ∧
    (viewType a p off f = .rws → tabSlot s p off = none → mwf s.shadow = true →
      bitsOf (getShadow t p off).toNat f.lo n = w) ∧
    (∀ key, key ≠ pageAt p off → mget t.regs key = mget s.regs key) ∧
    (∀ key, key ≠ pageAt p off → mget t.shadow key = mget s.shadow key) ∧
    { t with regs := s.regs, shadow := s.shadow, tabSh := s.tabSh } = s

/-- A REGISTER_WRITE of an ordinary register that the agent sees is the field-by-field write; of PENNANT_EN it sends the
page's message where an enabled pennant appears, of BLK_CTL it is SRESET alone or ROUTE, HAL_ARM, ENABLE and FENCE, and of
a register whose write is a command of its own it is that command. An aligned 64-bit write is two, the lower address
first. PENNANT_WRITE clears the written bits and sends a message while enabled bits remain; PENNANT_FORCE sets the
defined bits as hardware would; both let ALERT_STAT.LOG follow MSS.PENNANT. BLK_COMMIT marks the page pending with the
time of the first write. GLB_DRV_ABI and FUNC_DRV_ABI, with no queue pair of the function, store the offer and agree on
ABI 1.0 where MIN and MAX allow it, or set NONE and raise the page's pennant; with a pair they change nothing. A write
R91 does not take, and BAD_ACCESS in PF0's BAR0 or of a FUNC page, are recorded in GLB.BAD_ACCESS with pennant 0;
BAD_ACCESS of another BAR's unassigned offset raises the function's pennant 1. (R8; R90; R91; R98; R99; R100; R101;
R74; R323; R356; R555; log entry 161) -/
def Obligations.RegisterCommands : Prop :=
  ∀ (a : Agent) (p : Page) (addr off t func size : Nat) (v w : Dword) (wr : Bool) (s : State),
    let here : Prop := pageOf addr = some p ∧ addr % 0x1000 = off ∧ off % 4 = 0 ∧ sees s a p = true
    let plain : Prop := here ∧ ownWrite p off = false
    let put := writeFields s a p off v.toNat
    let enabled (s : State) := reg s p R.PENNANT &&& reg s p R.PENNANT_EN
    let logged (s : State) := if p.ty = .mss then setAlert 4 (decide (reg s pMSS R.PENNANT % 4 ≠ 0)) s else s
    let agreed := if 0x100 ≤ v.toNat / 2 ^ 16 ∧ v.toNat % 2 ^ 16 ≤ 0x100 then 0x80000100 else 0x40000000
    let record (write : Bool) (addr : Nat) :=
      penBit pGLB 0 (setRegN s pGLB R.GLB.BAD_ACCESS ((if write then 2 ^ 31 else 0) + addr % 2 ^ 26))
    let write := exec (.registerWrite a addr v none) s
    (plain → off ≠ R.BLK_CTL → off ≠ R.PENNANT_EN → ¬ (p.ty = .func ∧ off = 0x3F8) →
      ¬ (p.ty = .perf ∧ (off = R.PERF.TAG_SEED ∨ off = R.PERF.PREC_SEL)) → write = .next put) ∧
    (plain → p.ty = .func → off = 0x3F8 → write = .next { s with rmt := { s.rmt with dbLo := mput s.rmt.dbLo p.inst v.toNat } }) ∧
    (plain → p.ty = .perf → off = R.PERF.TAG_SEED → write = .next { put with tags := { put.tags with lfsr := none } }) ∧
    (plain → p.ty = .perf → off = R.PERF.PREC_SEL → write = .next (if bitOf v.toNat 31 then precClear put else put)) ∧
    (plain → off = R.PENNANT_EN → write = .next (if enabled s = 0 ∧ enabled put ≠ 0 then notifyPage p put else put)) ∧
    (here → off = R.BLK_CTL → bitOf v.toNat 2 = true → sresetOk s p = true → write = .next (softReset p s)) ∧
    (here → off = R.BLK_CTL → ¬ (bitOf v.toNat 2 = true ∧ sresetOk s p = true) →
      let x := setFld (setFld s p off 16 2 (bitsOf v.toNat 16 2)) p off 4 1 (bitsOf v.toNat 4 1)
      let x := if bitOf v.toNat 0 then enableBlock p x else disableBlock p x
      write = .next (if bitOf v.toNat 1 then writeFence p x else writeUnfence p x)) ∧
    (here → off = R.PENNANT → write = exec (.pennantWrite a p v) s) ∧
    (here → off = R.PENNANT_FORCE → write = exec (.pennantForce a p v) s) ∧
    (here → off = R.BLK_COMMIT → bitOf v.toNat 0 = true → write = exec (.blkCommit s.now p) s) ∧
    (here → p.ty = .glb → off = R.GLB.DRV_ABI → write = exec (.glbDrvAbi v) s) ∧
    (here → p.ty = .func → off = R.FUNC.DRV_ABI → write = exec (.funcDrvAbi p.inst v) s) ∧
    (∀ u, here → addr % 8 = 0 → write = .next u → pagePresent u p = true →
      exec (.registerWrite a addr v (some w)) s = exec (.registerWrite a (addr + 4) w none) u) ∧
    (badAccess s addr 4 = true → write = .next (record true addr)) ∧
    (badAccess s addr 8 = true → exec (.registerWrite a addr v (some w)) s = .next (record true addr)) ∧
    (pageOf addr = some p → off = addr % 0x1000 → off % 4 = 0 → pagePresent s p = true → sees s a p = false → write = .next s) ∧
    (sees s a p = true →
      let u := logged (writeFields s a p R.PENNANT v.toNat)
      exec (.pennantWrite a p v) s = .next (if enabled u = 0 then u else notifyPage p u)) ∧
    (sees s a p = true →
      exec (.pennantForce a p v) s = .next (logged (pennant p (v.toNat &&& pennantMask p.ty) s))) ∧
    (pagePresent s p = true →
      let u := setFld (atTime t s) p R.BLK_COMMIT 0 1 1
      exec (.blkCommit t p) s = .next
        (if (mget s.commits (pageAt p 0)).isSome then u else { u with commits := mput s.commits (pageAt p 0) t })) ∧
    (anyPair s 0 = true → exec (.glbDrvAbi v) s = .next s) ∧
    (anyPair s 0 = false →
      let u := setRegN (setReg s pGLB R.GLB.DRV_ABI v) pGLB R.GLB.ABI_AGREED agreed
      exec (.glbDrvAbi v) s = .next (if agreed = 0x80000100 then u else penBit pGLB 1 u)) ∧
    (anyPair s func = true → exec (.funcDrvAbi func v) s = .next s) ∧
    (func ≠ 0 → func < 1012 → anyPair s func = false →
      let u := setRegN (setReg s (pFUNC func) R.FUNC.DRV_ABI v) (pFUNC func) R.FUNC.ABI_AGREED agreed
      exec (.funcDrvAbi func v) s = .next (if agreed = 0x80000100 then u else penBit (pFUNC func) 10 u)) ∧
    (badAccess s addr size = true → exec (.badAccess none addr size wr) s = .next (record wr addr)) ∧
    (func < 1012 → barAssigned s func addr = false →
      exec (.badAccess (some func) addr size wr) s = .next (penBit (pFUNC func) 1 s)) ∧
    (func ≠ 0 → func < 1012 → barAssigned s func addr = true → addr / 0x1000 = 4 → alignedAccess addr size = false →
      exec (.badAccess (some func) addr size wr) s = .next (record wr (pageAt (pFUNC func) (addr % 0x1000))))

/-- For a page the agent sees: ENABLE 1 sets the bit and a DISABLED block enters its running state (a partition that
leaves WORK too little is refused with its error). ENABLE 0 of a block that can be disabled clears the bit; one that runs
enters STOPPING, a function's pairs being deleted and a link going down, or DISABLED at once where it has no work in
hand; BLK_STOPPED ends STOPPING. FENCE 1 on a block that can be fenced and is not resetting fences it;
FENCE 0 on a FENCED block clears the bit and enters REJOINING, but a tile that needs a test refuses with pennant 8.
SRESET on a block that allows it first aborts the commands that name it, then returns its page to reset and enters
RESETTING; SOFT_RESET_DONE ends it with the next epoch. (R87; R88; R89; R90; R226; R532; R534; R603; R606) -/
def Obligations.BlockStatesFollowTheControlBits : Prop :=
  ∀ (t : Nat) (a : Agent) (p : Page) (s : State), sees s a p = true →
    let u := atTime t s
    let tooSmall : Prop := p.ty = .sramt ∧ fld u p R.BLK_CTL 0 1 = 0 ∧ 176 < partOthers u p.inst
    let off := setFld u p R.BLK_CTL 0 1 0
    let stopping : State :=
      let w := setBlkState (if p.ty = .pair then setPairX off fun x => { x with stopMode := pairMode off } else off) p 2
      match p.ty with
      | .func => (w.pairs.filter fun e => e.1 / 64 == p.inst).foldl (fun s e => deletePair p.inst (e.1 % 64) s) w
      | .link => quietLink p.inst w
      | _ => w
    let underTest : Prop := p.ty = .tile ∧ (u.intg.runs.any fun r => r.tile == p.inst) = true
    (tooSmall → exec (.blkEnable t a p) s = .next (errInfo p 3 (partAll u p.inst) (penBit p 3 u))) ∧
    (¬ tooSmall → exec (.blkEnable t a p) s =
      .next (let w := setFld u p R.BLK_CTL 0 1 1
             if blkState u p = 0 then enterRunning p w else w)) ∧
    (alwaysEnabled p.ty = true → exec (.blkDisable t a p) s = .next u) ∧
    (alwaysEnabled p.ty = false → enabledState p (blkState off p) = false → exec (.blkDisable t a p) s = .next off) ∧
    (alwaysEnabled p.ty = false → enabledState p (blkState off p) = true →
      exec (.blkDisable t a p) s = .next (if workInHand stopping p then stopping else toDisabled p stopping)) ∧
    (blkState u p = 2 → workInHand u p = false → exec (.blkStopped t p) s = .next (toDisabled p u)) ∧
    (fenceOk u p = true → blkState u p ≠ 4 → exec (.blkFence t a p) s = .next (fenceBlock p u)) ∧
    (fenceOk u p = true → blkState u p = 3 → ¬ underTest → (p.ty = .tile → needsTest u p.inst = false) →
      exec (.blkUnfence t a p) s = .next (setBlkState (setFld u p R.BLK_CTL 1 1 0) p 5)) ∧
    (fenceOk u p = true → blkState u p = 3 → p.ty = .tile → needsTest u p.inst = true →
      exec (.blkUnfence t a p) s = .next (penBit pINTG 8 u)) ∧
    (sresetOk u p = true → exec (.blkSoftReset t a p) s = .next (setBlkState (resetTables p
      (resetPage (resetFirst p ((u.cmds.filter (namesPage p)).foldl abortHeld u)) p [R.BLK_STAT])) p 4)) ∧
    (blkState u p = 4 → p.ty ≠ .func → ¬ underTest → exec (.softResetDone t p) s = .next (endSoftReset p u))

/-- A doorbell within the depth of an existing pair moves SQ_TAIL or CQ_HEAD; any other sets FUNC.PENNANT.DB_ERR and
records nothing. COMMAND_FETCH of an ACTIVE pair with a waiting entry and a completion entry to reserve takes one
command: a failed read puts the pair in ERROR; else the head moves by one in the ring, and the command is completed
with VERSION or INVALID_FIELD, or stays in hand. CMD_NOP and QUERY_OBJECT (of no fenced block) complete OK;
CREATE_QPAIR of an ABSENT index within RES_SVC makes the pair of the given layout; DELETE_QPAIR puts an ACTIVE or
ERROR pair in DELETING, which QPAIR_DELETED makes ABSENT when no command of it is in hand, completing the
DELETE_QPAIR. (R105; R107; R109; R111; R112; R114; R363) -/
def Obligations.ServiceQueuesAndControlCommands : Prop :=
  ∀ (func pair index : Nat) (k : CmdRef) (c : SvcCmd) (p : QPair) (dw : List Dword) (s : State),
    let taken : SvcCmd := {
      func := func, pair := pair, cid := bitsOf (dw.getD 0 0).toNat 16 16, dw := dw, begun := false
      seq := s.cmdSeq, tick := s.tick.count }
    let inHand : State :=
      let w := setPair s func pair { p with sqHead := (p.sqHead + 1) % p.sqDepth }
      { w with cmds := w.cmds ++ [taken], cmdSeq := w.cmdSeq + 1 }
    let fetches : Prop := getPair s func pair = some p ∧ p.state = 1 ∧ p.sqHead ≠ p.sqTail ∧
      cqUsed s func pair p + 1 < p.cqDepth ∧ fetchAllowed s func = true
    let abiOk : Prop := bitOf (agreement inHand func) 31 = true ∧ bitsOf (agreement inHand func) 8 8 = bitsOf (taken.d 0) 12 4
    let pend := match begunOn s 0x95 c.func with | some d => bitsOf (d.d 7) 0 7 | none => 64
    (getPair s func pair = some p → index < p.sqDepth →
      exec (.sqTail func pair index) s = .next (setPair s func pair { p with sqTail := index })) ∧
    (getPair s func pair = some p → index < p.cqDepth →
      exec (.cqHead func pair index) s = .next (setPair s func pair { p with cqHead := index })) ∧
    (getPair s func pair = none ∨ getPair s func pair = some p ∧ p.sqDepth ≤ index →
      exec (.sqTail func pair index) s = .next (penBit (pFUNC func) 0 s)) ∧
    (getPair s func pair = none ∨ getPair s func pair = some p ∧ p.cqDepth ≤ index →
      exec (.cqHead func pair index) s = .next (penBit (pFUNC func) 0 s)) ∧
    (fetches → exec (.commandFetch func pair none) s = .next (setPair s func pair { p with state := 3 })) ∧
    (fetches → ¬ abiOk → exec (.commandFetch func pair (some dw)) s = .next (complete taken st.VERSION 0 inHand)) ∧
    (fetches → abiOk → fieldOffence s taken = some index →
      exec (.commandFetch func pair (some dw)) s = .next (complete taken st.INVALID_FIELD index inHand)) ∧
    (fetches → abiOk → fieldOffence s taken = none →
      exec (.commandFetch func pair (some dw)) s = .next inHand) ∧
    (SvcReady k 0 c s → exec (.cmdNop k) s = .next (complete c st.OK 0 s)) ∧
    (SvcReady k 3 c s → objFenced c s = false → exec (.queryObject k) s = .next (complete c st.OK 0 s)) ∧
    (SvcReady k 3 c s → objFenced c s = true → exec (.queryObject k) s = .next (complete c st.FENCED 0 s)) ∧
    (SvcReady k 1 c s → c.obj < fld s (pFUNC c.func) R.FUNC.RES_SVC 0 7 → c.obj < pend → pairState s c.func c.obj = 0 →
      exec (.createQpair k) s = .next (complete c st.OK 0 (setPair s c.func c.obj (newPair (c.q 4) (c.q 6) (c.d 8))))) ∧
    (SvcReady k 2 c s → pairState s c.func c.obj = 1 ∨ pairState s c.func c.obj = 3 →
      exec (.deleteQpair k) s = .next (markBegun c (deletePair c.func c.obj s))) ∧
    (pairState s func pair = 2 → s.cmds.all (fun c => !(c.func == func && c.pair == pair)) = true →
      exec (.qpairDeleted func pair) s = .next (finishCmds (fun c => c.func == func && c.op == 2 && c.obj == pair) st.OK 0
        { s with pairs := mdel s.pairs (pairKey func pair) }))

/-- For a ready command: SSET_CREATE of an ABSENT index allowed to this device, with a sound descriptor, loaded graphs and
profile that match, defines the set. SSET_ADD_SHARDS in DEFINED, ACTIVE or PAUSED appends the entries and answers the
shard count. SSET_START of a DEFINED set with shards reserves a slot per context as R122 picks them, in turn, makes
the set ACTIVE and waits. SSET_PAUSE makes an ACTIVE set PAUSING and waits; SSET_RESUME makes a PAUSED set ACTIVE and
waits; SSET_DRAIN makes an ACTIVE set DRAINING, DONE where every context is IDLE. SSET_DESTROY in DEFINED, PAUSED or DONE frees the contexts and, with PURGE,
the set's free packs. CTX_MOVE to another RUNNING tile with a free slot holds it, the context MOVING. TILE_VACATE
holds slots for the tile's contexts, VACATING; TILE_ADMIT makes a VACANT tile RUNNING; RESV_CFG in range waits for the
edge. (R138; R139; R140; R141; R142; R143; R144; R145; R122; R137; R210; R488) -/
def Obligations.StreamSetCommands : Prop :=
  ∀ (k : CmdRef) (c : SvcCmd) (desc : List Byte) (entries : List (List Byte)) (x : StreamSet) (key i : Nat) (y : Ctx)
      (l : List (Nat × Nat)) (s : State),
    let on := s.foundry.ctxs.filter fun e =>
      (match e.2.num with | some n => tileOfNum n == c.obj | none => false) && e.2.state != 3
    let want := on.map fun e => ((match getSet s e.2.sset with | some x => x.mask | none => 0), some c.obj)
    let gone (p : Pack) : Bool :=
      bitOf (c.d 4) 0 && !p.peer && packSet p == c.obj && p.rank == x.rank && p.ring.isNone && !p.chosen
    let cleared :=
      let w := (ctxsOf s c.obj).foldl (fun s e => putMedia e.1 Media.empty (returnHeld e.1 (discardSample e.1 s))) s
      (w.foundry.packs.filter gone).foldl (fun s p => tagEnd 1 p.id 1 s) w
    (SvcReady k 0x10 c s → descOffence (setDesc c s desc) = none → getSet s c.obj = none → halfWrong s c.obj = false →
      let y := setOfDesc (setDesc c s desc)
      (bitOf y.outputs 0 = true → graphLoaded s y.vis = true) → (bitOf y.outputs 2 = true → graphLoaded s y.aud = true) →
      profileLoaded s y.prof = true → graphMismatch s y = false →
      exec (.ssetCreate k desc) s = .next (complete c st.OK 0 (putSet c.obj y s))) ∧
    (SvcReady k 0x11 c s → 1 ≤ c.d 6 → c.d 6 ≤ 65536 →
      let new := shardList c s entries
      listOffence s new = none → getSet s c.obj = some x →
      x.state = 1 ∨ x.state = 2 ∨ x.state = 4 → x.shards.length + new.length ≤ 16777216 →
      exec (.ssetAddShards k entries) s = .next (complete c st.OK (x.shards.length + new.length)
        (putSet c.obj { x with shards := x.shards ++ new.map shardOf } s))) ∧
    (SvcReady k 0x12 c s → getSet s c.obj = some x → x.state = 1 → x.shards ≠ [] →
      planSlots s (List.replicate x.contexts (x.mask, none)) [] = some l →
      exec (.ssetStart k) s = .next (markBegun c (setFoundry (putSet c.obj { x with state := 2 } s)
        fun f => { f with slots := f.slots ++ (enumFrom 0 l).map fun e => (c.seq, e.1, e.2.1, e.2.2) }))) ∧
    (SvcReady k 0x12 c s → getSet s c.obj = some x → x.state = 1 → x.shards ≠ [] →
      planSlots s (List.replicate x.contexts (x.mask, none)) [] = none →
      exec (.ssetStart k) s = .next (complete c st.NO_RESOURCE 0 s)) ∧
    (SvcReady k 0x13 c s → getSet s c.obj = some x → x.state = 2 →
      exec (.ssetPause k) s = .next (markBegun c (putSet c.obj { x with state := 3, pauseAt := s.tick.count } s))) ∧
    (SvcReady k 0x14 c s → getSet s c.obj = some x → x.state = 4 →
      exec (.ssetResume k) s = .next (markBegun c (putSet c.obj { x with state := 2 } s))) ∧
    (SvcReady k 0x15 c s → getSet s c.obj = some x → x.state = 2 →
      exec (.ssetDrain k) s = .next (complete c st.OK 0 (drainSets (putSet c.obj { x with state := 5 } s)))) ∧
    (SvcReady k 0x16 c s → getSet s c.obj = some x → x.state = 1 ∨ x.state = 4 ∨ x.state = 6 →
      exec (.ssetDestroy k) s = .next (complete c st.OK (s.foundry.packs.filter gone).length
        (showBound (setFoundry cleared fun f => { f with
          sets := mdel f.sets c.obj, ctxs := f.ctxs.filter fun e => e.2.sset != c.obj
          packs := f.packs.filter fun p => !gone p })))) ∧
    (SvcReady k 0x17 c s → c.d 4 < 32 → objFenced c s = false → ctxAt s c.obj = some (key, y) → y.state ≠ 3 →
      blkState s (pTILE (c.d 4)) = 1 → c.d 4 ≠ tileOfNum c.obj → lowestFree (takenOn s (c.d 4)) = some i →
      exec (.ctxMove k) s = .next (markBegun c
        (setFoundry (putCtx key { y with state := 3, former := y.state, target := some (c.d 4) } s)
          fun f => { f with slots := f.slots ++ [(c.seq, key, c.d 4, i)] }))) ∧
    (SvcReady k 0x18 c s → objFenced c s = false → blkState s (pTILE c.obj) = 1 → planSlots s want [] = some l →
      exec (.tileVacate k) s = .next (markBegun c (setBlkState
        (setFoundry s fun f => { f with slots := f.slots ++ (on.zip l).map fun e => (c.seq, e.1.1, e.2.1, e.2.2) })
        (pTILE c.obj) 0x80))) ∧
    (SvcReady k 0x19 c s → objFenced c s = false → blkState s (pTILE c.obj) = 0x81 →
      exec (.tileAdmit k) s = .next (complete c st.OK 0 (setBlkState s (pTILE c.obj) 1))) ∧
    (SvcReady k 0x1A c s → 1 ≤ c.d 4 → c.d 4 ≤ 640 → c.d 5 ≤ 65535 → c.d 6 ≤ 256 →
      exec (.resvCfg k) s = .next (markBegun c s))

/-- On a RUNNING tile, an ACTIVE context with an open shard and no sample, of a set that takes samples whose graphs fit,
outside a quiesce, not refused in this tick and with no sample to make again: SAMPLE_START reserves PACK_MAX and names
the sample where it fits, and else counts a stall and shows pennant 0. PACK_SEAL of a whole sample within PACK_MAX
appends the pack of the records read from RECORD, goes on to the next sample and counts SEALED; past it, it shows
pennant 2 and drops the sample. SOURCE_READ adds to the cache up to READAHEAD; a failed one ends what is read. Of the
next transport packet of a chosen PID, TEI is a continuity loss, an exact repeat is passed over once, the next in
sequence moves the counter; a byte that is no sync byte loses synchronisation. An audio gap drops the sample under its
policy. A ready item within the budget, in its turn, joins its engine's queue with the space it takes; one past the
base budget is never issued. (R118; R120; R124; R125; R126; R129; R130; R134; R148; R149; R169; R176) -/
def Obligations.SamplesAndPacks : Prop :=
  ∀ (num k n off dur tag est : Nat) (c : Ctx) (x : StreamSet) (y : Sample) (r : Bool) (l d : List Byte) (m' : Media)
      (holds : List Hold) (writes : List (Nat × List Byte)) (w : State) (s : State),
    ctxAt s num = some (k, c) → getCtx s k = some c → getSet s c.sset = some x →
    let tile := numTile num
    let id := packIdOf c
    let first := id % 2 ^ 24 * x.stride
    let t0 := x.startOff + first * x.interval
    let m := getMedia s k
    let startable : Prop := c.state = 1 ∧ c.cur = none ∧ shardDone c = false ∧ c.off = false ∧ takesSamples s x = true ∧
      blkState s (pTILE tile) = 1 ∧ quiescing s = false ∧ setNoFit s tile x = false ∧ m.sel.isSome = true ∧
      c.refused ≠ s.tick.count + 1 ∧ s.pair.remake = []
    let read := touchRecords tile y.records s
    let len := packLen y.records
    let epoch := blkEpoch read (pTILE tile)
    let data := padTo 64 (packHeader y.flags y.records.length len x.rank y.packId read.tick.count epoch tile num
      y.srcOffset ++ y.records.flatMap (sealedBytes read tile))
    let staged := tagStage 1 y.packId 4 true (endSampleMedia k read)
    let sealed := setFoundry (afterSample k c y.packId staged) fun f =>
      { f with packs := f.packs ++ [⟨x.rank, y.packId, len, tile, epoch, read.tick.count, none, false, false, none, data⟩] }
    let takes : Prop := c.shard.isSome = true ∧ c.ended = false ∧ blkState s (pTILE tile) ≠ 3 ∧ blkState s (pTILE tile) ≠ 4
    let byte := cacheByte s x k c.cachePos
    let p := parsePacket ((List.range 188).map fun i => cacheByte s x k (c.cachePos + i))
    let next : Prop := takes ∧ m.synced = true ∧ 188 ≤ c.cached ∧ byte = 0x47 ∧ (m.sel.map fun z => usesPid z p.pid) = some true
    let past := passBytes k 188 s
    let fresh := l.take (x.readahead * 2 ^ 20 - c.cached)
    let issues : List (IssueKind × DemuxItem) :=
      [(.pic, .decode tag), (.band, .shape tag), (.visual, .visual tag), (.audio, .audioRun tag), (.text, .text tag)]
    (startable → resvUsed s + x.packMax ≤ s.foundry.capGiB * 2 ^ 30 →
      exec (.sampleStart num) s = .next (tagCandidate 1 tile id (putCtx k { c with cur := some {
        packId := id, reserve := x.packMax, firstFrame := first, lastFrame := first + x.clip - 1
        audioFrom := t0, audioTo := t0 + x.clip * x.interval, records := [], flags := 0, srcOffset := 0
        startTick := s.tick.count } } s))) ∧
    (startable → s.foundry.capGiB * 2 ^ 30 < resvUsed s + x.packMax →
      exec (.sampleStart num) s = .next (penBit (pTILE tile) 0
        (addReg (putCtx k { c with refused := s.tick.count + 1 } s) (pTILE tile) R.TILE.STALLS 1))) ∧
    (c.cur = some y → sampleDone s num k x y = true → len ≤ x.packMax → staged.pair.remake = [] → exec (.packSeal num) s =
      .next (releaseSealed tile k
        (setReg64 sealed (pTILE tile) R.TILE.SEALED_LO (reg64 sealed (pTILE tile) R.TILE.SEALED_LO + 1)))) ∧
    (c.cur = some y → sampleDone s num k x y = true → x.packMax < len →
      exec (.packSeal num) s = .next (dropSample k (penBit (pTILE tile) 2 s))) ∧
    (c.shard.isSome = true → c.failed = false → off = c.cachePos + c.cached → exec (.sourceRead num off (some l) (some dur)) s =
      .next (putCtx k { c with cached := c.cached + fresh.length, total := some (sampleCount x dur) }
        ((enumFrom 0 fresh).foldl (fun s e => putDram (cacheAddr x k (off + e.1)) [e.2] s) s))) ∧
    (c.shard.isSome = true → c.failed = false →
      exec (.sourceRead num off none none) s = .next (putCtx k { c with failed := true } s)) ∧
    (next → p.tei = true → exec (.demuxPacket num .packet) s = .next (ccLoss tile num k p.pid past)) ∧
    (next → p.tei = false → mget m.cc p.pid = some (p.cc, false) → p.payload = true → p.disc = false →
      exec (.demuxPacket num .packet) s = .next (putMedia k { m with cc := mput m.cc p.pid (p.cc, true) } past)) ∧
    (next → p.tei = false → mget m.cc p.pid = some (n, r) → p.payload = true → p.cc = (n + 1) % 16 → n < 16 →
      p.start = false → (m.sel.map (·.pcr)).join ≠ some p.pid →
      exec (.demuxPacket num .packet) s = .next (putMedia k { m with cc := mput m.cc p.pid (p.cc, false) } past)) ∧
    (takes → m.synced = true → 188 ≤ c.cached → byte ≠ 0x47 →
      exec (.demuxPacket num .packet) s = .next (putMedia k { m with synced := false } (passBytes k 1 s))) ∧
    (takes → c.cur = some y → audioGaps m x y = true → bitOf x.policy 2 = true →
      exec (.demuxPacket num (.audioRun tag)) s = .next (dropSample k s)) ∧
    (∀ i ∈ issues, takes → c.cur = some y → (i.1 = .audio → audioGaps m x y = false) → mayIssue s tile i.1.engine = true →
      pickKind s i.1 num k tag x y = .item est d m' holds writes → outstanding s tile i.1.engine < 64 →
      est ≤ remaining s tile i.1.engine → takeTurn tile i.1.engine k est c s = some w →
      let v := writes.foldl (fun s e => sliceWrite tile 2 e.1 e.2 s)
        (holds.foldl (fun s h => holdSpace h.tile h.ctx h.region h.off h.len s) (putMedia k m' { w with fresh := w.fresh + 1 }))
      let v := pushDesc tile i.1.engine d v
      exec (.demuxPacket num i.2) s = .next (if i.1 = .pic then showPool tile v else v)) ∧
    (takes → c.cur = some y → mayIssue s tile 2 = true → pickBand s num k tag x y = .never d →
      exec (.demuxPacket num (.shape tag)) s = .next (dropSample k (addReg s (pSHP tile) (R.SHP.COUNT + 16) 1)))

/-- For an accepting engine whose head descriptor names it: a descriptor of another tile epoch is dropped without a
result; one with a reserved code or bit ends with BAD_DESC (6). DECODE and PARSE of a picture taken before this tick,
with a pool entry, end with REF_MISSING (2) where a reference is missing without CONCEAL, else with the item's status,
after the picture's bookkeeping. RELEASE frees its slot. SHAPE ends with REF_MISSING where a source slot is not held;
of ready slots it shows the frame's events and ends with SCALE_RANGE (5) or OUT_SHORT (7), the sample dropped, or
writes the band's pieces and ends with 0. RUN of a sound item whose input is not fresh runs its ops and ends by what
they emitted; EMIT_TEXT writes one caption record of the text read. An item at twice its estimate ends with LIMIT (3),
its picture damaged or its sample dropped; an item 8 edges old ends with BUDGET (4) and its sample is dropped. (R72;
R127; R165; R178; R181; R183; R184; R189; R190; R206; R222; R224) -/
def Obligations.EngineItemsOfATile : Prop :=
  ∀ (tile k eng aft slow left : Nat) (d : List Byte) (e : ItemEnd) (cyc : Cycles) (mo : CodedMotion) (c : Ctx)
      (p : Pic) (x : PoolSlot) (s : State),
    let num := leAt d 4 2
    let tag := leAt d 8 4
    let head (g : Nat) : Prop := headDesc s tile g = some d
    let within (cyc : Cycles) : Prop := workCycles cyc < 2 * leAt d 0xC 4
    let named : Prop := stale s tile d = false ∧ descCtx s tile d = some (k, c)
    let m := getMedia s k
    let g := graphImage s (leAt d 2 2)
    let prof := profileBytes s (byteAt d 1)
    let planes := framePlanes prof d m
    let crop := nextCrop prof d m.crop (planes.getD 0 [])
    let dflt := matrixDefault prof d (constantLuminance m d) && leAt d 0x1C 2 == 0
    let lo := (if crop.1 != m.crop then 1 else 0) + (if crop.2 then 2 else 0) + (if dflt then 4 else 0)
    let v := freeVal (cropEvents tile (crop.1 != m.crop) crop.2 dflt (putMedia k { m with crop := crop.1 } s))
    let area := crop.1.getD { x := 0, y := 0, w := leAt d 0x14 2, h := leAt d 0x16 2 }
    let dw := displayWidth prof d v.1 area.w
    let ph := byteAt prof 0x19
    let out := outputPlanes prof (frameColour prof d) planes area.x area.w area.y area.h (fitOf prof area.h dw.1 dw.2)
      (leAt d 0x1C 2 * ph) (leAt d 0x1E 2 * ph)
    let wrote := (bandWrites prof d out).foldl (fun s w => sliceWrite tile 2 w.1 w.2 s) v.2
    let noted := noteBand k (leAt d 0x20 8) (leAt d 0x1E 2) wrote.tick.count wrote
    let shaped := if leAt prof 0x16 2 / max 1 ph ≤ leAt d 0x1C 2 + leAt d 0x1E 2 then
      perfEvent (pSHP tile) 0x100 0xFF 1 (shpCount tile 0 noted) else noted
    let slots := if byteAt d 0x2C = 0xFF then [byteAt d 0x10] else [byteAt d 0x10, byteAt d 0x2C]
    let shapes : Prop := head 2 ∧ named ∧ badShapeDesc s d = false ∧ (∀ y ∈ slots, slotReady s m y = true) ∧ within cyc
    let n := leAt d 0x30 2
    let src := leAt d 0x2C 4
    let read := sliceTouch tile src (4 + n) s
    let text := memRead read.mem (sliceKey tile src) (4 + n)
    let cap := tokenRecord 5 (recordFlags d) 0 n (leAt d 0x18 4) (leAt d 0x16 2) (byteAt d 0x32) text
    let cost := 128 + ceilDiv (recordLen (4 + n)) 64
    let spent : Cycles := { used := cost - aft, after := min aft cost, slow := slow }
    (head 1 → stale s tile d = true → byteAt d 0 = 1 → exec (.decode tile e mo) s = .next (dropStale tile 1 s)) ∧
    (head 1 → stale s tile d = false → badDecodeDesc d = true → byteAt d 0 = 1 →
      exec (.decode tile e mo) s = .next (endItem tile 1 6 num tag e.cyc 0 0 s)) ∧
    (∀ op ∈ [1, 2], head 1 → byteAt d 0 = op → named → badDecodeDesc d = false → descPic m d = some p →
      pictureFresh s p = false → within e.cyc → poolEntry s tile k (byteAt d 0x24) p (op == 2) = some x →
      let status := if refMissing m d ∧ ¬ descFlag d 4 then 2 else if e.status = 1 ∨ e.status = 5 then e.status else 0
      let left := if x.stopped ∨ status = 2 then leAt d 0x20 4
        else (itemBad p.hdr (leAt d 0x1C 4) (leAt d 0x20 4) [] e.bad).length
      exec (if op = 1 then .decode tile e mo else .parse tile e mo) s =
        .next (endItem tile 1 status num tag e.cyc left 0
          (finishPicItem tile num k d (op == 2) p x status e.bad mo (tagStage 1 (curPack s k) 0 false s)))) ∧
    (head 1 → byteAt d 0 = 3 → named → badDecodeDesc d = false →
      exec (.releaseSlot tile) s = .next (endItem tile 1 0 num tag ⟨0, 0, 0⟩ 0 0
      (showPool tile (putMedia k { m with pool := m.pool.filter fun x => x.slot != byteAt d 0x24 } s)))) ∧
    (head 2 → named → badShapeDesc s d = false → (∃ y ∈ slots, slotHeld m y = false) →
      exec (.shape tile cyc) s = .next (endItem tile 2 2 num tag cyc 0 0 s)) ∧
    (shapes → scaleOk prof area dw.1 dw.2 = false → exec (.shape tile cyc) s = .next (endItem tile 2 5 num tag cyc 0 lo
      (dropSample k (errInfo (pSHP tile) 1 num (penBit (pSHP tile) 3 (shpCount tile 4 v.2)))))) ∧
    (shapes → scaleOk prof area dw.1 dw.2 = true → leAt d 0x28 4 < frameBytes prof → exec (.shape tile cyc) s =
      .next (endItem tile 2 7 num tag cyc 0 lo (dropSample k (errInfo (pSHP tile) 2 num (shpCount tile 4 v.2))))) ∧
    (shapes → scaleOk prof area dw.1 dw.2 = true → frameBytes prof ≤ leAt d 0x28 4 →
      exec (.shape tile cyc) s = .next (endItem tile 2 0 num tag cyc 0 lo (tagStage 1 (curPack shaped k) 2 true shaped))) ∧
    (head 3 → byteAt d 0 = 1 → named → badTensorDesc s tile d = false → inputFresh s tile k d = false →
      overLimit d cyc = false → exec (.run tile cyc) s =
      .next (let r := runOps tile k d g (leAt d 0x12 2) (leAt d 0x10 2) (EmitAcc.start s tile d) s
             finishTensor tile num k d r.1 (bitOf (img.flags g) 0 && r.1.reached) cyc r.2)) ∧
    (head 3 → byteAt d 0 = 2 → named → badTensorDesc s tile d = false → writtenNow s k src (4 + n) = false →
      overLimit d spent = false → exec (.emitText tile (aft, slow)) s =
      .next (let r := putRecord tile k cap { EmitAcc.start read tile d with poison := poisonsIn s tile src (4 + n) } read
             finishTensor tile num k d r.1 false spent (freeSpace k 2 (src - regionBase r.2 tile 2) r.2))) ∧
    (head 1 → 2 * leAt d 0xC 4 ≤ workCycles e.cyc → named →
      let w := decEvent tile num 9 5 3 s
      descPic (getMedia w k) d = some p → poolEntry w tile k (byteAt d 0x24) p (byteAt d 0 == 2) = some x →
      exec (.itemLimit tile 1 e) s = .next (endItem tile 1 3 num tag e.cyc
        (itemBad p.hdr (leAt d 0x1C 4) (leAt d 0x20 4) [] e.bad).length 0
        (finishPicItem tile num k d (byteAt d 0 == 2) p x 3 e.bad ⟨[], []⟩ w))) ∧
    (head 2 → 2 * leAt d 0xC 4 ≤ workCycles e.cyc → named →
      exec (.itemLimit tile 2 e) s = .next (endItem tile 2 3 num tag e.cyc 0 0
        (dropSample k (errInfo (pSHP tile) 3 num (shpCount tile 4 s))))) ∧
    (head 3 → overLimit d cyc = true → stale s tile d = false →
      let w := endItem tile 3 3 num tag cyc 0 0 (errInfo (pTEN tile) 2 num (penBit (pTEN tile) 2 (tenCount tile 1 1 s)))
      descCtx w tile d = some (k, c) → exec (.tensorItemLimit tile cyc.used (cyc.after, cyc.slow)) s = .next (dropSample k (freeRun k d w))) ∧
    (1 ≤ eng → eng ≤ 3 → head eng → (getEng s tile eng).start + 8 ≤ s.tick.count →
      let w := endItem tile eng 4 num tag cyc left 0 s
      (stale s tile d = true → exec (.itemExpiry tile eng cyc left) s = .next (dropStale tile eng s)) ∧
      (stale s tile d = false → descCtx w tile d = some (k, c) →
        exec (.itemExpiry tile eng cyc left) s = .next (dropSample k w)))

/-- SHP_PROFILE_LOAD of a free number with a sound profile stores it and shows it in every shaper; SHP_PROFILE_DROP of a
loaded one that no set names removes it. SHARD_PROBE, its entry sound, begins; it ends with INTEGRITY where the shard
cannot be read, with its 64-byte report written where it ends in time, and with TIMEOUT 100 ms after it began. GRAPH_LOAD of a
free number with a sound image, room for it and a fit on every ready tile begins its copies. WEIGHT_COPY_DONE of a
copy under way writes the weights and lets the load end; of a refill it strikes the graph off. REFILL_END of an
emptied refill counts it and shows pennant 5. GRAPH_DROP of a loaded graph that no set names clears its map and ready
bits and forgets it. SRAM_SCRUB reads the line of an enabled slice and writes the seconds of a finished pass. (R191;
R193; R194; R195; R205; R206; R218; R219; R220; R221; R226; R540) -/
def Obligations.ProfilesProbesAndGraphs : Prop :=
  ∀ (k : CmdRef) (c : SvcCmd) (bytes : List Byte) (info : ShardInfo) (tile g off t b : Nat) (l : List Nat) (s : State),
    let prof := c.d 4 % 256
    let gr := c.d 4 % 1024
    let profile := profData c s bytes
    let image := imageData c s bytes
    let total := (s.media.graphs.map fun e => e.2.image.length).sum + image.length
    let base := weightBase (placedParts s) (residentBytes image)
    let unshown := forN 32 (showGraph gr false s) fun t s => setReady t gr false s
    let ended : State := { s with media := { s.media with probes := mdel s.media.probes c.seq } }
    (SvcReady k 0x20 c s → profileLoaded s prof = false → profileOffence profile = none →
      exec (.shpProfileLoad k bytes) s = .next (complete c st.OK 0 (showProfile prof true
        { s with media := { s.media with profiles := mput s.media.profiles prof profile } }))) ∧
    (SvcReady k 0x21 c s → profileLoaded s prof = true → (s.foundry.sets.any fun e => e.2.prof == prof) = false →
      exec (.shpProfileDrop k) s = .next (complete c st.OK 0 (showProfile prof false
        { s with media := { s.media with profiles := mdel s.media.profiles prof } }))) ∧
    (SvcReady k 0x22 c s → shardOffence s (probeEntry c s bytes) = none → exec (.shardProbe k bytes .running) s =
      .next (markBegun c { s with media := { s.media with probes := mput s.media.probes c.seq s.now } })) ∧
    (findCmd s k = some c → c.begun = true → mget s.media.probes c.seq = some b →
      exec (.shardProbe k bytes .unreadable) s = .next (complete c st.INTEGRITY 0 ended) ∧
      exec (.shardProbe k bytes (.report info)) s = .next (if b + 100000000 < s.now then complete c st.TIMEOUT 0 ended
        else complete c st.OK 0 (dmaWrite c.func (c.d 8 % 2) (c.q 6) (probeReport 0 info) ended))) ∧
    (findCmd s k = some c → mget s.media.probes c.seq = some b → b + 100000000 ≤ t →
      exec (.shardProbeTimeout k t) s = .next (complete c st.TIMEOUT 0 (atTime t ended))) ∧
    (SvcReady k 0x30 c s → mget s.media.graphs gr = none → imageOffence image = none → s.media.graphs.length < 64 →
      total ≤ 2 ^ 32 → (∀ t < 32, readyTile s t = true → base + residentBytes image ≤ regionSize s t 1) →
      exec (.graphLoad k bytes) s = .next (finishLoads 65 (markBegun c (beginCopies { s with media := { s.media with
        graphs := mput s.media.graphs gr { image := image, loading := true, base := base, seq := c.seq, began := nextBegan s } } })))) ∧
    (s.media.copies.contains (g, tile) = true →
      let w := if readyTile s tile then writeWeights tile g s else s
      exec (.weightCopyDone tile g) s = .next (finishLoads 65
        { w with media := { w.media with copies := w.media.copies.filter (· != (g, tile)) } })) ∧
    (s.media.copies.contains (g, tile) = false → mget s.media.refills tile = some l → l.contains g = true →
      let w := if readyTile s tile then writeWeights tile g s else s
      exec (.weightCopyDone tile g) s =
        .next { w with media := { w.media with refills := mput w.media.refills tile (l.filter (· != g)) } }) ∧
    (mget s.media.refills tile = some [] → exec (.refillEnd tile) s = .next (penBit (pTEN tile) 5 (tenCount tile 6 1
      { s with media := { s.media with refills := mdel s.media.refills tile } }))) ∧
    (SvcReady k 0x31 c s → graphLoaded s gr = true → graphNamed s gr = false → exec (.graphDrop k) s = .next (complete c st.OK 0
      { unshown with media := { unshown.media with graphs := mdel unshown.media.graphs gr
                                                   refills := unshown.media.refills.map fun e => (e.1, e.2.filter (· != gr))
                                                   refillDue := unshown.media.refillDue.map fun e => (e.1, e.2.1.filter (· != gr), e.2.2) } })) ∧
    (tile < 32 → sliceOn s tile = true →
      exec (.sramScrub tile off none) s = .next (sliceTouch tile (off / 64 * 64) 64 s) ∧
      exec (.sramScrub tile off (some b)) s = .next (setFld (sliceTouch tile (off / 64 * 64) 64 s) (pSRAMT tile)
        R.SRAMT.SCRUB_STAT 0 16 (min b 0xFFFF)))

/-- CORE_STOP_RESPONSE acts on a stopped core once. LST_SLICE runs the slice that waits first when its unit is idle and it
is not deferred; LST_DEFER, 50 us after the edge, defers a slice whose unit still runs and counts it; LST_FORCE, nine
ticks after the slice fell due, stops the running items with BUDGET, counts, shows pennant 7 and runs it. LST_RUN of a
FENCED tile not run in the last second with fewer than 2 runs begins; 2,064,000 cycles later it ends; a tile not
FENCED answers 0xF0. MBIST_RUN of a DISABLED slice clears it, captures and repairs the failing locations, fences the
tile where a spare is wanting, and answers the failing rows; else 0xF3. POST_DONE with no failure reports DONE, brings
the channels up, starts the cores and remembers the self-test; with more than four failing tiles, another unit
or an LPDDR5X package failing, it holds the main domain. (R262; R519; R523; R524; R525; R526; R530; R531; R535; R536; R538; R539) -/
def Obligations.SelfTestSlicesAndCoreStops : Prop :=
  ∀ (t core n u : Nat) (ok ver : Bool) (w : WaitSlice) (l : List WaitSlice) (r : LstRun) (q : IntgReq) (d : Nat → Nat)
      (tiles packages : List Nat) (mf : List MbistFail) (cy : List (Nat × Cycles × Nat)) (s : State),
    let v := atTime t s
    let tile := d 4 % 256
    let stopped := (w.run.foldl (fun s e => match headDesc s (sliceUnit w.idx) e with
      | some d =>
        let c := ((cy.find? fun c => c.1 == e).map (·.2)).getD (⟨0, 0, 0⟩, 0)
        budgetStop (sliceUnit w.idx) e c.1 c.2 d s
      | none => s) v)
    let found := mbistAll (mf.filter fun f => f.unit == tile) (clearSlice tile v)
    let up := forN 16 (setRegN v pINTG R.INTG.POST_STAT (2 ^ 31)) fun m s =>
      setRegN (setBlkState s (pMEMC m) 1) (pMEMC m) R.MEMC.STAT (10667 * 2 ^ 16 + 0xF0 + 1)
    (core < 37 → s.intg.answered.contains core = false → (getCore s core).act = .stopped n →
      exec (.coreStopResponse t core) s = .next (coreStop core n (setIntg v fun x => { x with answered := addSorted core x.answered }))) ∧
    (s.intg.wait = w :: l → w.run = [] → w.late = false → exec (.lstSlice t ok ver) s = .next (runSlice w ok ver v)) ∧
    (s.intg.wait = w :: l → w.run ≠ [] → w.late = false → s.tick.edgeAt + 50000 ≤ t → exec (.lstDefer t) s =
      .next (intgCount 3 (setIntg v fun x => { x with wait := { w with late := true } :: l }))) ∧
    (s.intg.wait = w :: l → w.run ≠ [] → w.due + 9 ≤ s.tick.count →
      exec (.lstForce t ok ver cy) s = .next (runSlice w ok ver (intgPen 7 (intgCount 4 stopped)))) ∧
    (runOf v q = some r → r.began + 2064000000 / Config.tileMhz ≤ t → exec (.lstRun q t none) s = .next (endRun r none v)) ∧
    (runOf v (.own u 0 0) = none → u < 32 → blkState s (pTILE u) = 3 → mget s.intg.lastRun u = none → s.intg.runs.length < 2 →
      exec (.lstRun (.own u 0 0) t none) s = .next (setIntg v fun x => { x with
        runs := x.runs ++ [{ tile := u, began := t, seq := none }], lastRun := mput x.lastRun u t })) ∧
    (runOf v q = none → IntgReady q 0x80 d v → tile < 32 → blkState s (pTILE tile) ≠ 3 →
      exec (.lstRun q t none) s = .next (intgDone q 0x80 0xF0 0 v v)) ∧
    (IntgReady q 0x81 d v → tile < 32 → blkState s (pSRAMT tile) = 0 →
      exec (.mbistRun q t mf) s = .next (intgDone q 0x81 st.OK (failRows (mf.filter fun f => f.unit == tile)) v
        (if found.2 then intgEvent (faultTile tile 4 found.1) else found.1))) ∧
    (IntgReady q 0x81 d v → tile < 32 → blkState s (pSRAMT tile) ≠ 0 →
      exec (.mbistRun q t mf) s = .next (intgDone q 0x81 0xF3 0 v v)) ∧
    (s.power.phase = .running → s.mgmt.posted = false → s.mgmt.hold = false →
      exec (.postDone t [] none [] []) s =
        .next (watchStat (setMgmt (startParts (match s.mgmt.fw with | some x => x.parts | none => []) up) fun m => { m with posted := true })) ∧
      exec (.postDone t tiles (some u) [] []) s = .next (holdPost pINTG u v) ∧
      (∀ m, (List.range 16).find? packages.contains = some m →
        exec (.postDone t [] none packages []) s = .next (holdPost (pMEMC m) m v)) ∧
      (4 < ((List.range 32).filter tiles.contains).length → exec (.postDone t tiles none [] []) s =
        .next (holdPost pINTG (((List.range 32).filter tiles.contains).headD 0) v)))

/-- For a ready request: SUSPECT_FORCE of a tile makes a suspect interval up to the current tick. ERR_INJECT of a sound
tile or offset plants, by its type, a single or double error in the addressed word of a slice or of the LPDDR5X, or a
slice failure of the tile; a type of 0 or above 5 is an INVALID_FIELD at 16 whichever row carries it. CHECKED_ERROR of
a present page counts, captures and shows the error, and one in control state of a block that can be fenced fences it.
DRAM_SCRUB below 2^40 reads the burst: its correctable words are corrected and counted, its uncorrectable ones
reported. MEMC_RECAL records the time of a channel's recalibration when none lies within the second; MEMC_RETRAIN
after more than 1,000 corrected bursts counts a retraining, and a failed one logs and asks for the quiesce. (R513;
R529; R541; R542; R544; R545; R547) -/
def Obligations.InjectionReportsAndDeviceMemory : Prop :=
  ∀ (t off m ch : Nat) (q : IntgReq) (d : Nat → Nat) (p : Page) (ctl : Bool) (s : State),
    let v := atTime t s
    let tile := bitsOf (d 4) 8 8
    let word := d 5 + 2 ^ 32 * d 6
    let checked := checkedError p v
    let sound (kind : Nat) : Prop := IntgReady q 0x84 d s ∧ injectKind s q = kind ∧ injectOffence d = none
    let done (w : State) := intgDone q 0x84 st.OK 0 s w
    let base := off / 64 * 64
    let quiet := addSat v (pMEMC (dramPkg off)) R.MEMC.LINK_RETRY 0 0xFFFFFFFF
    let hit := quiet.media.dram.filter fun d => decide (base < d.1 + 8) && decide (d.1 < base + 64)
    let reported := (hit.filter (·.2)).foldl (fun s _ => checkedError (pMEMC (dramPkg off)) (intgPen 9 (intgCount 9 s)))
      ((hit.filter fun d => !d.2).foldl (fun s _ => intgCount 8 s) (dramTouch base 64 quiet))
    let shown := penBit (pMEMC m) 3 (addSat (setIntg v fun x => { x with linkCe := mdel x.linkCe (chanKey m ch) }) (pMEMC m)
      R.MEMC.RETRAINS 1 0xFFFFFFFF)
    (IntgReady q 0x82 d s → d 4 % 256 < 32 →
      exec (.suspectForce q) s = .next (intgDone q 0x82 st.OK 0 s (suspectTile (d 4 % 256) s.tick.count s))) ∧
    (sound 1 → exec (.injectSramSingle q) s = .next (done (plantSram false tile word s))) ∧
    (sound 2 → exec (.injectSramDouble q) s = .next (done (plantSram true tile word s))) ∧
    (sound 3 → exec (.injectDramSingle q) s = .next (done (plantDram false word s))) ∧
    (sound 4 → exec (.injectDramDouble q) s = .next (done (plantDram true word s))) ∧
    (sound 5 → exec (.injectSliceFail q) s = .next (done (setIntg s fun x => { x with inject := addSorted tile x.inject }))) ∧
    (∀ d4 d5 d6, d4 % 16 = 0 ∨ 5 < d4 % 16 →
      ∀ i ∈ [Instr.injectSramSingle (.own d4 d5 d6), .injectSramDouble (.own d4 d5 d6), .injectDramSingle (.own d4 d5 d6),
        .injectDramDouble (.own d4 d5 d6), .injectSliceFail (.own d4 d5 d6)],
      exec i s = .next (emit (.fwDone 0x84 st.INVALID_FIELD 16) s)) ∧
    (pagePresent s p = true → exec (.checkedError t p ctl) s =
      .next (if ctl = true ∧ fld checked p R.BLK_CAP0 30 1 = 1 then hwFence p checked else checked)) ∧
    (off < 2 ^ 40 → exec (.dramScrub t off 0 0 false none) s = .next (watchStat reported)) ∧
    (m < 16 → ch < 4 → s.power.phase = .running → mget s.intg.recalAt (chanKey m ch) = none → exec (.memcRecal t m ch) s =
      .next (setIntg v fun x => { x with recalAt := mput x.recalAt (chanKey m ch) t })) ∧
    (m < 16 → ch < 4 → 1000 < (mgetD s.intg.linkCe (chanKey m ch) (0, 0)).2 →
      exec (.memcRetrain t m ch true) s = .next shown ∧
      exec (.memcRetrain t m ch false) s =
        .next (setIntg (logEvent 0x0007 (some (pMEMC m)) [m] (errInfo (pMEMC m) 3 (ch * 256) (penBit (pMEMC m) 5 shown)))
          fun x => { x with quiesceDue := some 4 }))

/-- For a link below 48: PHY_TRAIN_DONE in TRAIN adds the lanes done and enters FLIT_LOCK once every enabled lane has
passed or failed and one passed; FLIT_LOCK_DONE does the same into PARAM, sending the PARAM. BRING_UP_LIMIT fails a
step at its limit (500 ms, 1 ms, 100 us) with code 1 and the step's number where no lane passed, and the PARAM step
always. A FAILED link starts again after a second. PARAM is recorded in the PARAM step, answered with PARAM_ACK and
settled; PARAM_ACK marks this end's PARAM acknowledged and settles; PARAM_SEND sends it again. RETRAIN of a running
page with a role takes the link down and starts it. A write of PAT_CTL stores it and, with role 0 and another pattern,
starts the link; PAT_CLEAR zeroes both error counts. (R98; R274; R275; R281; R282; R283; R308) -/
def Obligations.LinkBringUp : Prop :=
  ∀ (t l a b v : Nat) (payload : List Byte) (s : State), l < 48 →
    let u := atTime t s
    let x := getLink s l
    let en := linkLanes s l
    let phy := (x.phy ||| a) &&& en
    let phyFailed := (x.phyFailed ||| b) &&& en
    let lock := (x.lock ||| a) &&& x.phy
    let lockFailed := (x.lockFailed ||| b) &&& x.phy
    (lstate s l = 1 → exec (.phyTrainDone t l a b) s =
      .next (let w := putLink l { x with phy := phy, phyFailed := phyFailed } u
             if (phy ||| phyFailed) = en ∧ phy ≠ 0 then enterLock l w else w)) ∧
    (lstate s l = 2 → exec (.flitLockDone t l a b) s =
      .next (let w := putLink l { x with lock := lock, lockFailed := lockFailed } u
             if (lock ||| lockFailed) = x.phy ∧ lock ≠ 0 then enterParam l w else w)) ∧
    (lstate s l = 1 → x.stepAt + 500000000 ≤ t → x.phy = 0 → exec (.bringUpLimit t l) s = .next (failLink l 1 1 u)) ∧
    (lstate s l = 1 → x.stepAt + 500000000 ≤ t → x.phy ≠ 0 → exec (.bringUpLimit t l) s = .next (enterLock l u)) ∧
    (lstate s l = 2 → x.stepAt + 1000000 ≤ t → x.lock = 0 → exec (.bringUpLimit t l) s = .next (failLink l 1 2 u)) ∧
    (lstate s l = 3 → x.stepAt + 100000 ≤ t → exec (.bringUpLimit t l) s = .next (failLink l 1 3 u)) ∧
    (lstate s l = 6 → x.stepAt + 1000000000 ≤ t → exec (.linkRetry t l) s = .next (startLink l u)) ∧
    (lstate s l = 3 → exec (.param t l payload) s =
      .next (let w := putLink l { x with peer := some (parseParam payload) } u
             settleParam l (sendCtrl l (linkParam w l 2) w))) ∧
    (lstate s l ≠ 3 → linkUp s l = true → exec (.param t l payload) s =
      .next (settleParam l (sendCtrl l (linkParam u l 2) u))) ∧
    (lstate s l = 3 → exec (.paramAck t l) s = .next (settleParam l (putLink l { x with acked := true } u)) ∧
      exec (.paramSend t l) s = .next (sendCtrl l (linkParam u l 1) u)) ∧
    (blkRunning s (pLINK l) = true → linkRole s l ≠ 0 → exec (.retrain t l) s = .next (downLink l false u)) ∧
    (let w := setRegN u (pLINK l) R.LINK.PAT_CTL (bitsOf v 0 3 + bitsOf v 4 2 * 16)
     exec (.patSelect t l v) s = .next
       (if linkRole w l = 0 ∧ blkRunning w (pLINK l) = true ∧ fld s (pLINK l) R.LINK.PAT_CTL 0 3 ≠ bitsOf v 0 3 then startLink l w else w)) ∧
    exec (.patClear l) s = .next (setRegN (setRegN s (pLINK l) (R.LINK.COUNT + 44) 0) (pLINK l) (R.LINK.COUNT + 48) 0)

/-- On an up link below 48, a 256-byte flit with a right CRC and no error in its fixed fields: its ACK_SEQ is taken where
valid, its credit counts are taken, a NAK more than 2 us after the last one taken replays the unacknowledged flits, a
DATA flit is taken in sequence (its successor is expected and a NULL flit answers), and what then may be sent is. A
flit whose CRC fails is counted, and a DATA flit among them asks for a replay. After 2 us without an advance
REPLAY_TIMEOUT replays; after four replays without one, 100 us without a good flit, or with no lane left, LINK_DOWN
counts the down and starts the link again. LANE_FAULT of an up lane beside another sends LANE_DROP on both lanes and
counts it, LANE_DROP_RESEND repeats it, LANE_DROP_ACK removes the lane; the peer's LANE_DROP is acknowledged, counted and done;
without another lane the link goes down. (R277; R278; R279; R280; R283; R285) -/
def Obligations.LinkTraffic : Prop :=
  ∀ (t l lane : Nat) (bytes : List Byte) (s : State), l < 48 → linkUp s l = true →
    let u := atTime t s
    let x := getLink s l
    let fh := leAt bytes 0 4
    let crcOk := bytes.length == 256 && crc32c (bytes.take 252) == leAt bytes 252 4
    let clean : Prop := crcOk = true ∧ fh / 2 ^ 30 < 3 ∧ fh % 16 = 0 ∧ leAt bytes 0xF8 4 / 16 = 0 ∧
      (fh / 2 ^ 30 ≠ 1 → bitsOf fh 18 12 = 0)
    let counted := linkCount l (6 + lane % 2) 0 (linkCount l (4 + lane % 2) 0 u)
    let good := putLink l { getLink counted l with lastGood := t } counted
    let acked := if bitOf fh 4 then takeAck l (bitsOf fh 6 12) good else good
    let credited := takeCredits l ((List.range 4).map fun v => leAt bytes (4 + v) 1) acked
    let one := withBits (lanesUp s l) lane 1 0
    (clean → bitOf fh 5 = false → exec (.flitReceive t l lane 0 0 0 bytes) s = .next (pump l
      (if fh / 2 ^ 30 = 1 then rxData l (bitsOf fh 18 12) ((bytes.drop 8).take 240) credited else credited))) ∧
    (crcOk = false → exec (.flitReceive t l lane 0 0 0 bytes) s = .next
      (let w := linkCount l 0 1 counted
       if fh / 2 ^ 30 = 1 then sendNull l (putLink l { getLink w l with nak := true } w) else w)) ∧
    (x.unacked ≠ [] → x.lastAdv + 2000 ≤ t → exec (.replayTimeout t l) s = .next (replay l u)) ∧
    (4 ≤ x.replays ∨ x.lastGood + 100000 ≤ t ∨ lanesUp s l = 0 → exec (.linkDown t l) s = .next (downLink l true u)) ∧
    (lane < 2 → bitOf (lanesUp s l) lane = true → one ≠ 0 → x.dropping ≠ some (1 - lane) →
      let w := noteDrop l u
      exec (.laneFault t l lane) s =
        .next (sendDrop l lane (putLink l { getLink w l with dropping := some lane } w))) ∧
    (lane < 2 → bitOf (lanesUp s l) lane = true → one = 0 → exec (.laneFault t l lane) s =
      .next (removeLane l lane (setLanesUp l (2 ^ lane) (noteDrop l u)))) ∧
    (x.dropping = some lane →
      exec (.laneDropResend t l) s = .next (sendDrop l lane u) ∧
      exec (.laneDropAck t l) s = .next (removeLane l lane u)) ∧
    (lane < 2 → bitOf (lanesUp s l) lane = true →
      exec (.laneDrop t l lane) s = .next (removeLane l lane (noteDrop l (sendCtrl l (leBytes 1 4) u))))

/-- On an up link below 48 of a port, FEED not FENCED for LINK_WRITE and LINK_READ: a WRITE or READ whose length or alignment breaks R284 is counted as a bad packet. A
WRITE of which any 16-byte chunk is refused writes nothing, is counted and shown with pennant 2, and is answered by
WINDOW_ERR with the first code; else every chunk is placed where its window maps it. A READ refused is answered with
status 1, one that meets poison with status 2, else with the bytes read, and the errors met in device memory are
counted. A READ_RESP that completes a capture READ
places its bytes and hands the read over as done; one with a status fails the read; one for a quarantined tag is
counted as late. A timed-out READ leaves the outstanding list, its tag in quarantine, and is issued again or failed.
(R284; R287; R288; R305; R306; R307; R448) -/
def Obligations.WindowAccessesAndCaptureReads : Prop :=
  ∀ (t l port tag addr off code len : Nat) (data : List Byte) (host : Option (List Byte)) (r : CapRead) (s : State),
    l < 48 → linkUp s l = true → linkPort s l = some port →
    let hits := winChunks s port true addr data.length
    let rhits := winChunks s port false addr len
    let stat (c : Nat) : Pkt := { vc := 2, h := [3 + c * 256 + tag % 4096 * 2 ^ 16, 0, 0, 0], data := [], ref := .plain }
    let poisoned := rhits.any fun e => match e.2 with
      | .dram off => dramPoison s off 16
      | _ => host.isNone
    let serves : Prop := blkFenced s pFEED = false
    let met := rhits.foldl (fun s e => match e.2 with | .dram off => dramTouch off 16 s | _ => s) s
    let read := rhits.flatMap fun e => match e.2 with
      | .dram off => memRead met.mem (dramKey off) 16
      | _ => ((host.getD []).drop e.1).take 16 ++ List.replicate (16 - (((host.getD []).drop e.1).take 16).length) 0
    let u := expireTags l (atTime t s)
    let x := getLink u l
    let after (s : State) : State := pumpCapture (drainCap s)
    (serves → badLen addr data.length = true → exec (.linkWrite l addr data) s = .next (linkCount l 13 1 s)) ∧
    (serves → badLen addr data.length = false → winRefusal hits = some code → exec (.linkWrite l addr data) s = .next (sendPkt l
      (msgPkt 2 port code (leBytes 8 addr ++ leBytes 2 data.length ++ leBytes 6 0) (.again port)) (winRefused port s))) ∧
    (serves → badLen addr data.length = false → winRefusal hits = none → exec (.linkWrite l addr data) s =
      .next (hits.foldl (fun s e => placeChunk e.2 ((data.drop e.1).take 16) s) s)) ∧
    (serves → badLen addr len = true → exec (.linkRead l tag addr len host) s = .next (linkCount l 13 1 s)) ∧
    (serves → badLen addr len = false → winRefusal rhits = some code →
      exec (.linkRead l tag addr len host) s = .next (sendPkt l (stat 1) (winRefused port s))) ∧
    (serves → badLen addr len = false → winRefusal rhits = none → exec (.linkRead l tag addr len host) s =
      .next (if poisoned then sendPkt l (stat 2) met else sendResps l (tag % 4096) 32 addr 0 read met)) ∧
    (x.reads.find? (fun r => r.tag == tag) = some r → off + data.length ≤ r.len → r.len ≤ r.got + data.length →
      let w := putLink l { x with reads := x.reads.filter fun q => q.tag != tag } (putDram (r.dst + off) data u)
      exec (.readResp t l tag 0 off data) s = .next (after
        (setFeed w fun f => { f with capDone := f.capDone ++ [(r.session, r.region, r.addr, r.len, true)] }))) ∧
    (x.reads.find? (fun r => r.tag == tag) = some r → code ≠ 0 → exec (.readResp t l tag code off data) s =
      .next (after (readFailed r (putLink l { x with reads := x.reads.filter fun q => q.tag != tag } u)))) ∧
    (x.reads.find? (fun r => r.tag == tag) = none → (x.quar.map (·.1)).contains tag = true →
      exec (.readResp t l tag code off data) s = .next (after (expireTags l (penBit (pLINK l) 6 (linkCount l 9 1
        (putLink l { x with quar := x.quar.filter fun e => e.1 != tag } u)))))) ∧
    (let y := getLink s l
     y.reads.find? (fun r => r.tag == tag) = some r → r.sentAt + rdTimeout s ≤ t → exec (.captureReadTimeout t l tag) s =
      .next (after (expireTags l (readTimedOut l (some port) r (putLink l { y with
        reads := y.reads.filter fun q => q.tag != tag, quar := y.quar ++ [(tag, t + rdTimeout s)] } (atTime t s))))))

/-- For a ready command with FEED not fenced: RING_CREATE of an ABSENT ring with a sound descriptor whose sets exist and
whose size is twice their largest PACK_MAX defines it; RING_START of a DEFINED and RING_RESUME of a STOPPED ring whose
port is up wait for the edge, with a port down they answer 0x91; RING_STOP makes a RUNNING ring STOPPING and waits;
RING_DESTROY of a ring not RUNNING gives its written, uncommitted packs back. XCHG_GROUP of at most 256 holds its
list. A doorbell of a live ring of the port moves CI and commits; one beyond PI, or behind CI, puts the ring in ERROR.
PACK_REJECT marks the pack's uncommitted entry. PACK_DRAW with credit and space writes the pack picked, without a
candidate marks the ring idle, and drops a poisoned one. A port down at 40 edges puts its live rings in ERROR. (R136;
R293; R294; R296; R297; R301; R302; R303; R304; R309; R310; R311) -/
def Obligations.RingsAndTheirPacks : Prop :=
  ∀ (k : CmdRef) (c : SvcCmd) (desc : List Byte) (qps : List Nat) (t l ring v rank id pick link : Nat) (x : Ring) (p : Pack)
      (s : State),
    let read := ringDesc c s desc
    let y := ringOfDesc read
    let waiting := s.cmds.any (fun d => d.begun && d.obj == c.obj && (d.op == 0x41 || d.op == 0x43))
    let names := (x.ledger.filter fun e => !e.committed).map (fun e => (e.rank, e.id)) ++ x.again
    let back := names.filter fun n => (findPack s n.1 n.2).isSome
    let rung := raiseLine 33 3 s
    let d := (v + 2 ^ 32 - x.ci % 2 ^ 32) % 2 ^ 32
    let u := atTime t s
    let cand := s.foundry.packs.filter fun p => drawable s p && x.sets.contains (packSet p)
    let cost := skipBytes x p.len + p.len
    let draws : Prop := getRing s ring = some x ∧ x.link = some link ∧ x.state = 2 ∧ x.idle = false ∧ blkRunning s pFEED = true ∧
      quiescing s = false ∧ mget s.pair.adopted ring = none
    (SvcReady k 0x40 c s → objFenced c s = false → ringOffence read = none → getRing s c.obj = none → halfWrong s c.obj = false →
      (∀ i ∈ y.sets, (getSet s i).isSome = true) →
      2 * ((y.sets.map fun i => match getSet s i with | some z => z.packMax | none => 0).foldl max 0) ≤ 2 ^ y.sizeLog →
      exec (.ringCreate k desc) s = .next (complete c st.OK 0 (putRingF c.obj y s))) ∧
    (SvcReady k 0x41 c s → objFenced c s = false → getRing s c.obj = some x → x.state = 1 → waiting = false →
      exec (.ringStart k) s = .next (if portUp s x.port then markBegun c s else complete c 0x91 0 s)) ∧
    (SvcReady k 0x43 c s → objFenced c s = false → getRing s c.obj = some x → x.state = 4 → waiting = false →
      exec (.ringResume k) s = .next (if portUp s x.port then markBegun c s else complete c 0x91 0 s)) ∧
    (SvcReady k 0x42 c s → objFenced c s = false → getRing s c.obj = some x → x.state = 2 →
      exec (.ringStop k) s = .next (markBegun c (putRingF c.obj (stoppedRing x) s))) ∧
    (SvcReady k 0x44 c s → objFenced c s = false → getRing s c.obj = some x → x.state ≠ 2 →
      let w := setFeed s fun f => { f with rings := mdel f.rings c.obj, returned := f.returned ++ back }
      exec (.ringDestroy k) s = .next (complete c st.OK back.length (ringState c.obj x.port 0
        (finishCmds (fun d => (d.op == 0x42 || d.op == 0x41 || d.op == 0x43) && d.obj == c.obj) st.ABORTED 0 w)))) ∧
    (SvcReady k 0x45 c s → c.d 6 ≤ 256 → exec (.xchgGroup k qps) s =
      .next (markBegun c (setFeed s fun f => { f with groupNext := mput f.groupNext c.seq (groupList c s qps) }))) ∧
    (l < 48 → linkUp s l = true → getRing rung ring = some x → ringLive x = true → linkPort rung l = some x.port →
      mget rung.pair.adopted ring = none →
      (d < 2 ^ 31 → x.ci + d ≤ x.pi → exec (.feedDoorbell l ring v) s =
        .next (ringStopped ring (commitRing ring (putRingF ring { x with ci := x.ci + d } rung)))) ∧
      (2 ^ 31 ≤ d ∨ x.pi < x.ci + d → exec (.feedDoorbell l ring v) s =
        .next (ringError ring (errInfo pFEED 1 ring (feedCount 12 rung)))) ∧
      exec (.packReject l ring rank id) s = .next (putRingF ring { x with ledger := x.ledger.map fun e =>
        if e.rank = rank ∧ e.id = id ∧ ¬ e.committed then { e with rejected := true, rewrite := e.rewrite || e.rejected } else e } rung)) ∧
    (draws → cand = [] → exec (.packDraw t ring pick false) s = .next (putRingF ring { x with idle := true } u)) ∧
    (draws → cand[pick % cand.length]? = some p → cost ≤ x.deficit → ringSpace x p.len = true →
      let w := modPack p.rank p.id (fun q => { q with ring := some ring }) u
      exec (.packDraw t ring pick true) s = .next (penBit pFEED 1 (feedCount 2 (removePack p.rank p.id u))) ∧
      exec (.packDraw t ring pick false) s = .next (feedCount 0 (writePack ring link { x with deficit := x.deficit - cost } p false
        (if p.peer then w else tagStage 1 p.id 6 true w)))) ∧
    (40 ≤ s.feed.portDown.getD l 0 → exec (.portDownLimit l) s =
      .next ((s.feed.rings.filter fun e => e.2.port == l && ringLive e.2).foldl (fun s e => ringError e.1 s) s))

/-- With the next entry of a READY QP of the command's operation, RMT running or stopping, its function not freezing and
its buffer in no silenced function's memory: RMT_SEND and RMT_WRITE send the message read from its buffer (a raw QP's SEND its frame), RMT_READ with fewer than 64 READs outstanding sends
a request under a free id, RMT_FLUSH sends a flush, and HITCH is released at once where its count is reached, broken
with 0x0A where its queue is in ERROR, QUIESCING or gone, and else waits; then the QP settles. HITCH_RELEASE completes
a waiting WAIT whose count is reached. WQE_FETCH takes the next entry where a CQ entry can be reserved, and flushes it
in ERROR. RMT_RECV posts the oldest fetched RECV. RTO_EXPIRY sends the packet again or, past RETRY, fails its request
with status 4; ACK_TIMER sends the ACK due; RNR_RETRY_EXPIRY lets refused packets go again. RMT_PACKET_RECEIVE takes a
packet on an up sub-port. Doorbells act on the QP or are ignored and shown. (R319; R323; R324; R326; R327; R328; R329;
R330; R334; R335; R336; R338) -/
def Obligations.WorkRequestsAndTransport : Prop :=
  ∀ (t q v n : Nat) (x : Qp) (w : Wqe) (p : TxPkt) (bytes : List Byte) (host : Option (List Byte)) (hb : List Byte) (rq ce : Bool)
      (s : State), getQp s q = some x →
    let u := atTime t s
    let begins (op : Nat) : Prop := nextWr x = some w ∧ x.state = 2 ∧ w.op = op ∧ freezing s x.func = false ∧
      spotWaits s w.spot = false ∧ (blkState s pRMT = 1 ∨ blkState s pRMT = 2)
    let id := ((List.range 64).find? fun i => !(readIds x).contains i).getD 0
    let next := if rq then x.rqNext else x.sqNext
    let tail := if rq then x.rqTail else x.sqTail
    let e := newWqe next bytes (checkWqe u x rq bytes)
    let moved := if rq then { x with rqNext := (next + 1) % 65536 } else { x with sqNext := (next + 1) % 65536 }
    let named := if rq = false ∧ 1 ≤ e.op ∧ e.op ≤ 3 then tagStart 2 x.portMask (rmtTag q e.idx) (q * 2 ^ 32 + x.msn) u else u
    let fetches : Prop := x.ty ≠ 2 ∧ next ≠ tail ∧ cqTaken x + 1 < qpDepth x.cqLog ∧ rmtFetch s x.func = true ∧ blkRunning s pRMT = true
    let gone : Bool := match getQp s w.waitQp with | some y => y.state == 3 || y.state == 4 | none => true
    (begins 1 → exec (.rmtSend t q host) s =
      .next (settleQp q (if x.ty = 1 then sendRaw q x w host u else sendMsg q 1 x w host u))) ∧
    (begins 2 → exec (.rmtWrite t q host) s = .next (settleQp q (sendMsg q 2 x w host u))) ∧
    (begins 3 → (readIds x).length < 64 → exec (.rmtRead t q) s = .next (settleQp q
      (addTx q [newTx 3 0 x.msn w.rkey 0 w.len w.raddr id [] (some w.idx)]
        (tagName 2 (rmtTag q w.idx) (q * 2 ^ 32 + x.msn) (setWqe q { w with begun := true, readId := id, psn := x.psn } u))))) ∧
    (begins 4 → exec (.rmtFlush t q) s = .next (settleQp q
      (addTx q [newTx 5 0 x.msn 0 0 0 0 0 [] (some w.idx)] (setWqe q { w with begun := true, psn := x.psn } u)))) ∧
    (begins 5 → exec (.hitch t q) s = .next (settleQp q (setWqe q { w with
      begun := true, status := if hitchReached s w then some 0 else if gone then some 0x0A else none } u))) ∧
    (x.sq.find? (fun w => w.op == 5 && w.begun && w.status.isNone) = some w →
      exec (.hitchRelease t q) s = .next (if hitchReached u w then settleQp q (setWqe q { w with status := some 0 } u) else u)) ∧
    (fetches → x.state = 2 → exec (.wqeFetch t q rq bytes) s = .next (settleQp q
      (putQp q (if rq then { moved with rq := moved.rq ++ [e] } else { moved with sq := moved.sq ++ [e] }) named))) ∧
    (fetches → x.state = 3 → exec (.wqeFetch t q rq bytes) s = .next (finishWqe q rq e 1 (putQp q moved named))) ∧
    (x.rq.find? (fun w => !w.posted) = some w → x.state = 2 → exec (.rmtRecv t q) s = .next (putQp q
      { x with rq := x.rq.map fun v => if v.idx = w.idx then { v with posted := true } else v } u)) ∧
    (x.tx.find? (fun p => p.psn == n) = some p → x.state = 2 → p.st = 2 →
      p.sentAt + max 10 (fld s pRMT R.RMT.TIMERS 16 16) * 1000 ≤ t →
      (fld s pRMT R.RMT.TIMERS 12 4 < p.tries → exec (.rtoExpiry t q n) s = .next (failWr q p.wqe 4 u)) ∧
      (p.tries ≤ fld s pRMT R.RMT.TIMERS 12 4 → exec (.rtoExpiry t q n) s = .next
        (letIn q (putQp q { x with tx := x.tx.map fun r => if r.psn = n then { r with st := 0 } else r } u)))) ∧
    (x.ackAt = some n → n ≤ t → x.state = 2 → exec (.ackTimer t q) s = .next (sendAck q u)) ∧
    (x.state = 2 → exec (.rnrRetryExpiry t q) s = .next (letIn q (putQp q
      { x with tx := x.tx.map fun r => if r.st = 3 ∧ r.until_ ≤ t then { r with st := 0 } else r } u))) ∧
    (subUp s n = true → blkRunning s pRMT = true →
      exec (.rmtPacketReceive t n ce bytes hb) s = .next (rmtReceive (n / 4) ce bytes hb u)) ∧
    (n < 1012 → v % 2 ^ 24 = q → qpInRange s n q = true → x.ty ≠ 2 → x.acc = false →
      exec (.rmtDbHi n v) s = .next ((ringQp q (mgetD s.rmt.dbLo n 0) x s).getD (penBit (pFUNC n) 0 s))) ∧
    (n < 48 → linkUp s n = true → v % 2 ^ 24 = q → bitsOf v 24 4 = 0 → x.acc = true → linkPort s n = some x.accPort →
      exec (.rmtAccDoorbell n v t) s = .next ((ringQp q t x s).getD (penBit (pFUNC 0) 0 s)))

/-- For a ready command whose QP lies in its function's range, RMT not fenced: QP_CREATE with sound fields of an ABSENT QP
makes the DEFINED QP of its fields. QP_CONNECT of a DEFINED QP not yet connecting waits for the edge, or answers
NO_PORT or RAW_EXISTS. QP_MODIFY of a DEFINED or READY QP with a subscriber in range waits, or answers NO_PORT.
QP_RESET of a READY or ERROR QP outside the exchange group sends it through QUIESCING to DEFINED and waits; QP_DESTROY
to ABSENT, or at once from DEFINED. QUIESCING_END at its tick makes the QP fresh or ABSENT and completes the command.
XCHG_SEND of a chosen pack not in flight to a READY exchange member posts it with its FLUSH and remembers it, a
poisoned one is dropped; XCHG_FLUSH_DONE removes the packs whose FLUSH completed. (R304; R322; R336; R337; R339; R340;
R341; R363; R89) -/
def Obligations.QueuePairCommandsAndExchange : Prop :=
  ∀ (k : CmdRef) (c : SvcCmd) (x : Qp) (t q rank id member : Nat) (p : Pack) (s : State),
    let at_ (op : Nat) : Prop := SvcReady k op c s ∧ objFenced c s = false ∧ qpInRange s c.func c.obj = true
    let ports := portOffence s c.obj x (bitsOf (c.d 4) 0 16)
    let picks : Prop := bitOf (c.d 4) 13 = true → subscrInRange s c.func (bitsOf (c.d 4) 0 10) = true
    let u := atTime t s
    let done (e : Nat × Nat × Nat × Nat) : Bool := e.1 == q && s.feed.flushed.contains (q, e.2.1)
    let sends : Prop := findPack s rank id = some p ∧ s.feed.group[member % s.feed.group.length]? = some q ∧
      getQp s q = some x ∧ p.chosen = true ∧ (s.feed.flight.any fun e => e.2.2 == (rank, id)) = false ∧ x.state = 2 ∧ x.ty = 2 ∧
      blkRunning s pFEED = true ∧ quiescing s = false
    (SvcReady k 0x90 c s → objFenced c s = false → qpCreateOffence c s = none → getQp s c.obj = none →
      exec (.qpCreate k) s = .next (complete c st.OK 0 (putQp c.obj (newQp c) s))) ∧
    (SvcReady k 0x90 c s → qpInRange s c.func c.obj = false →
      exec (.qpCreate k) s = .next (complete c st.INVALID_FIELD 4 s)) ∧
    (at_ 0x91 → getQp s c.obj = some x → x.state = 1 → begunOn s 0x91 c.obj = none → exec (.qpConnect k) s =
      .next (match ports with | some e => complete c e 0 s | none => markBegun c s)) ∧
    (at_ 0x92 → picks → getQp s c.obj = some x → x.state = 1 ∨ x.state = 2 →
      (bitOf (c.d 4) 15 = false → exec (.qpModify k) s = .next (markBegun c s)) ∧
      (bitOf (c.d 4) 15 = true → portOffence s c.obj x (bitsOf (c.d 4) 16 16) = some 0xA0 →
        exec (.qpModify k) s = .next (complete c 0xA0 0 s))) ∧
    (at_ 0x93 → getQp s c.obj = some x → x.state = 2 ∨ x.state = 3 → s.feed.group.contains c.obj = false →
      exec (.qpReset k) s = .next (markBegun c (leaveQp c.obj 1 s))) ∧
    (at_ 0x93 → getQp s c.obj = some x → x.state = 2 ∨ x.state = 3 → s.feed.group.contains c.obj = true →
      exec (.qpReset k) s = .next (complete c 0xA2 0 s)) ∧
    (at_ 0x94 → getQp s c.obj = some x → s.feed.group.contains c.obj = false →
      (x.state = 1 → exec (.qpDestroy k) s = .next (complete c st.OK 0 (absentQp c.obj s))) ∧
      (x.state = 2 ∨ x.state = 3 → exec (.qpDestroy k) s = .next (markBegun c (leaveQp c.obj 0 s)))) ∧
    (getQp s q = some x → x.state = 4 → x.quietTick ≤ s.tick.count → exec (.quiescingEnd q) s =
      .next (finishCmds (fun c => (c.op == 0x93 || c.op == 0x94) && c.obj == q) st.OK 0
        (if x.target = 1 then putQp q (freshQp x) s else absentQp q s))) ∧
    (sends → exec (.xchgSend t rank id member false) s = .next (postExchange q p.data 0 true
        (setFeed u fun f => { f with flight := f.flight ++ [(q, x.sqNext, rank, id)] })) ∧
      exec (.xchgSend t rank id member true) s = .next (penBit pFEED 1 (feedCount 2 (removePack rank id u)))) ∧
    (let w := (s.feed.flight.filter done).foldl (fun s e => feedCount 8 (removePack e.2.2.1 e.2.2.2 (tagEnd 1 e.2.2.2 0 s))) s
     exec (.xchgFlushDone q) s = .next (setFeed w fun f => { f with
      flight := f.flight.filter fun e => !done e, flushed := f.flushed.filter fun e => e.1 != q }))

/-- On a free, up sub-port with EGS and its port running, EGRESS_TRANSMIT admits what may wait, sends the frame the
scheduler chooses and occupies the sub-port for it, or with none chosen sends nothing. A frame received on an up sub-
port of a running port is counted with its FEC counts, and the receive buffers' levels send the pauses due; a bad FCS is counted and shown with pennant 3; fewer than 18 or
more than 9,216 bytes are dropped; a priority flow control frame sets pauses; a UDP datagram to the transport's port
with a right checksum goes to the transport. GATE_ENTRY of ports 0 to 3 shows the gate in force; PFC_PAUSE_EXPIRY ends
a pause that is over. SUBPORT_UP of an existing sub-port not up marks it, shows pennant 0 and admits what waits;
SUBPORT_DOWN takes it down. (R312; R332; R344; R347; R349; R350; R351; R352) -/
def Obligations.EthernetAndEgress : Prop :=
  ∀ (t sub prio n corr ucw dport ecn : Nat) (levels : List (Nat × Nat)) (f : Frame) (w : State) (bytes body : List Byte)
      (host : Option (List Byte)) (s : State),
    let u := atTime t s
    let page := pETH (sub / 4)
    let up : Prop := subUp s sub = true ∧ blkRunning s page = true
    let counted := levels.foldl (fun s e => rxLevel sub e s) (ethCount (sub / 4) 4 ucw (ethCount (sub / 4) 3 corr (ethCount (sub / 4) 0 1 u)))
    let b := bytes.take (bytes.length - 4)
    let good : Prop := leAt bytes (bytes.length - 4) 4 = crc32 b
    (up → blkRunning s pEGS = true → s.rmt.busy.getD sub 0 ≤ t → schedule sub (admitAll u) = (some f, w) →
      exec (.egressTransmit t sub) s = .next (if f.kind = 0 then transmitData f (occupy sub f.len w)
        else if f.kind = 1 then transmitCtl f (occupy sub f.len w) else transmitRaw f (occupy sub f.len w))) ∧
    (up → blkRunning s pEGS = true → s.rmt.busy.getD sub 0 ≤ t → schedule sub (admitAll u) = (none, w) →
      exec (.egressTransmit t sub) s = .next w) ∧
    (up → ¬ good → exec (.ethFrameReceive t sub (corr, ucw) levels bytes host) s = .next (penBit page 3 (ethCount (sub / 4) 2 1 counted))) ∧
    (up → good → bytes.length < 18 ∨ 9216 < bytes.length →
      exec (.ethFrameReceive t sub (corr, ucw) levels bytes host) s = .next counted) ∧
    (up → good → 18 ≤ bytes.length → bytes.length ≤ 9216 → (etherOf b).2 = 0x8808 → beAt b (etherOf b).1 2 = 0x0101 →
      exec (.ethFrameReceive t sub (corr, ucw) levels bytes host) s = .next (takePfc sub b counted)) ∧
    (up → good → 18 ≤ bytes.length → bytes.length ≤ 9216 → (etherOf b).2 ≠ 0x8808 → ptpOf counted b = none →
      udpOf counted b = some (dport, ecn, body, true) → dport = fld counted pRMT R.RMT.CFG 16 16 → blkRunning counted pRMT = true →
      exec (.ethFrameReceive t sub (corr, ucw) levels bytes host) s = .next (rmtReceive (sub / 4) (ecn == 3) body host counted)) ∧
    (sub < 4 → exec (.gateEntry t sub) s = .next (showGate sub u)) ∧
    (mget s.rmt.pause (sub * 8 + prio) = some n → n ≤ t → exec (.pfcPauseExpiry t sub prio) s =
      .next (setRmt u fun r => { r with pause := mdel r.pause (sub * 8 + prio) })) ∧
    exec (.subportDown t sub) s = .next (subportDown sub u) ∧
    (subExists s sub = true → subUp s sub = false → blkRunning s page = true → exec (.subportUp t sub) s =
      .next (admitAll (penBit page 0 (setFld u page R.ETH.STAT (sub % 4) 1 1))))

/-- For a ready command: KEY_GEN with sound attributes of an EMPTY service slot fills it with random bytes. A plain
KEY_IMPORT needs CFG.PLAIN (else 0xE2) and shows pennant 3; a wrapped one under a READY import KEK unwraps, a blob
that does not verify answers AUTH_FAIL; an unreadable source, in the window or in host memory, answers INTEGRITY. KEY_EXPORT of a READY exportable key
under a READY export KEK writes the 96-byte blob. KEY_DESTROY of a READY slot waits, and KEY_ERASE of the DESTROYING
slot empties it and completes. A sound CIPH_OP of a keyed operation runs on a READY slot of its key type and
permission (else 0xE1); the two that make IVs refuse a key 65,536 boots old with 0xE0 and ended counters with 0xE3. A
hash of host bytes read whole writes its output descriptor with the digest and completes OK. (R496; R499; R500; R503;
R504; R505; R506; R507; R509; R510; R511; R512) -/
def Obligations.CipherKeysAndJobs : Prop :=
  ∀ (k : CmdRef) (c : SvcCmd) (b desc : List Byte) (src : Option (List Byte)) (unit slot : Nat) (x : CipherIn) (y z : KeySlot) (s : State),
    let job := jobBytes c desc s
    let kek := bitsOf (c.d 9) 16 12
    let kek' := bitsOf (c.d 4) 0 12
    let g := freeBytes (askedBytes c) s
    let body := (b.drop 0x10).take (leAt b 6 1)
    let w := keyWrap z.key (leBytes 4 y.attr ++ leBytes 4 y.keyId ++ y.key)
    let blob := leBytes 4 0x42574B45 ++ leBytes 1 1 ++ leBytes 1 (keyType y) ++ leBytes 1 w.length ++ leBytes 1 0 ++
      leBytes 4 z.keyId ++ leBytes 4 0 ++ w ++ List.replicate (80 - w.length) 0
    let imports (wrapped : Bool) : Prop := SvcReady k 0x71 c s ∧ keyOffence c wrapped = none ∧ bitOf (c.d 9) 1 = wrapped ∧
      slotFree s c.obj = true
    let plainOk : Prop := allZero ((b.drop (askedBytes c)).take (64 - askedBytes c)) = true
    let runs (op : Nat) : Prop := SvcReady k 0x74 c s ∧ jobOffence c job = none ∧ leAt job 0 1 = op ∧ unit < 8 ∧
      s.ciph.counters.getD unit 0 < 2 ^ 64 - 1
    let ended (e : SvcEnd) : State := match e with | .done a r w => complete c a r w | .wait w => markBegun c w
    let ops : List (Nat × Instr) := [(1, .gcmEnc k desc unit x), (2, .gcmDec k desc unit x), (3, .xtsEnc k desc unit x),
      (4, .xtsDec k desc unit x), (5, .gmacGen k desc unit x), (6, .gmacVer k desc unit x), (7, .hmacGen k desc unit x), (8, .hmacVer k desc unit x)]
    let allEnded : Bool := (List.range 8).all fun i => decide (2 ^ 64 - 1 ≤ s.ciph.counters.getD i 0)
    (SvcReady k 0x70 c s → keyOffence c false = none → slotFree s c.obj = true → exec (.keyGen k) s =
      .next (complete c st.OK 0 (fillSlot c.obj (slotOf c (c.d 4) (c.d 5) g.1 g.2) g.2))) ∧
    (imports false → importSource c src s = some b → plainOk → exec (.keyImport k src) s =
      .next (if fld s pCIPH R.CIPH.CFG 0 1 = 0 then complete c 0xE2 0 s
             else complete c st.OK 0 (penBit pCIPH 3 (fillSlot c.obj (slotOf c (c.d 4) (c.d 5) (b.take (askedBytes c)) s) s)))) ∧
    (imports true → importSource c src s = none → exec (.keyImport k src) s = .next (complete c st.INTEGRITY 0 s)) ∧
    (imports true → importSource c src s = some b → blobOffence b = none → getSlot s kek = some z → z.state = 1 → keyType z = 4 → bitOf z.attr 7 = true →
      (keyUnwrap z.key body = none → exec (.keyImport k src) s = .next (complete c st.AUTH_FAIL 0 (authFail c.obj s))) ∧
      (∀ p, keyUnwrap z.key body = some p → attrBad (leAt p 0 4) = false → leAt p 0 4 < 2 ^ 13 → bitsOf (leAt p 0 4) 0 4 = leAt b 5 1 →
        (p.drop 8).length = keyBytes (bitsOf (leAt p 0 4) 0 4) (p.drop 8).length → exec (.keyImport k src) s =
          .next (complete c st.OK 0 (fillSlot c.obj (slotOf c (leAt p 0 4) (leAt p 4 4) (p.drop 8) s) s)))) ∧
    (SvcReady k 0x72 c s → getSlot s c.obj = some y → y.state = 1 → getSlot s kek' = some z → z.state = 1 → bitOf y.attr 8 = true →
      keyType z = 4 → bitOf z.attr 6 = true →
      exec (.keyExport k) s = .next (complete c st.OK 96 (dmaWrite 0 (c.d 7 % 2) (c.q 5) blob s))) ∧
    (SvcReady k 0x73 c s → getSlot s c.obj = some y → y.state = 1 → exec (.keyDestroy k) s =
      .next (markBegun c (setCiph s fun f => { f with slots := mput f.slots c.obj { y with state := 2 } }))) ∧
    (getSlot s slot = some y → y.state = 2 → exec (.keyErase slot) s =
      .next (finishCmds (fun c => c.op == 0x73 && c.obj == slot) st.OK 0 (eraseSlot slot s))) ∧
    (∀ e ∈ ops, runs e.1 → getSlot s c.obj = some y → y.state = 1 →
      (keyType y = opKeyType e.1 → bitOf y.attr (if opProtects e.1 then 4 else 5) = true →
        (e.1 = 1 ∨ e.1 = 5 → reg s pMSS R.MSS.BOOT_COUNT - y.bootAt < 65536) →
        exec e.2 s = .next (ended (jobRun e.1 unit job x s))) ∧
      (keyType y ≠ opKeyType e.1 → exec e.2 s = .next (complete c 0xE1 0 s)) ∧
      (keyType y = opKeyType e.1 → bitOf y.attr 4 = true → e.1 = 1 ∨ e.1 = 5 → 65536 ≤ reg s pMSS R.MSS.BOOT_COUNT - y.bootAt →
        exec e.2 s = .next (complete c 0xE0 0 (errInfo pCIPH 3 c.obj (penBit pCIPH 2 (ciphCount 3 s)))))) ∧
    (∀ e ∈ ops, SvcReady k 0x74 c s → jobOffence c job = none → leAt job 0 1 = e.1 → unit < 8 → e.1 = 1 ∨ e.1 = 5 → allEnded = true →
      getSlot s c.obj = some y → y.state = 1 → keyType y = opKeyType e.1 → bitOf y.attr 4 = true →
      reg s pMSS R.MSS.BOOT_COUNT - y.bootAt < 65536 → exec e.2 s = .next (complete c 0xE3 0 s)) ∧
    (x.failAt = none → x.aadFail = false → x.outFail = false → bitOf (leAt job 1 1) 0 = false →
      let out (digest : List Byte) : State := complete c st.OK 0
        (dmaWrite 0 (leAt job 1 1 % 2) (leAt job 0x38 8) (outDesc st.OK 0 [] digest 0) (ciphCount 0 s))
      (runs 9 → exec (.sha256 k desc unit x) s = .next (out (sha256 x.src))) ∧
      (runs 10 → exec (.sha3256 k desc unit x) s = .next (out (sha3 x.src))))

/-- With the FTL serving: a codeword read that decodes at step 1 with few bits raised in a quiesce counts the read alone;
one that needed step 3 or more or more bits than REFRESH_BITS, with background work on, refreshes its block, as the
patrol's reads do. An unresponsive die is lost; a failed program or erase of a die in use is counted and shown, and
its block retired. FOLD of a position in use counts the row and moves a block whose sequence still holds there,
releasing its staged copy at steps 1 and 2 after the final pass; where the block already lies there it programs nothing.
REBUILD_DONE that found no space enters READ_ONLY. WL_MOVE erases the least worn block of its pool when the pool's span
passes the limit. FTL_RECOVERY acts in the recovery state alone, takes both root records and the time, and without a valid
record counts the power-up unclean unless the medium is fresh. A held coalesced interrupt is sent when its
time is over. (R405; R413; R419; R420; R421; R422; R423; R426; R427; R428; R429; R432) -/
def Obligations.FlashMediumAndItsCare : Prop :=
  ∀ (t die block step entry bits pos page f cq : Nat) (k : Nat) (final : Bool) (b : LBlk) (q : NCq) (s : State), die < 1024 →
    let u := atTime t s
    let ch := dieCh die
    let x := getBlock s die block
    let read := perfEvent (pFCH ch) 0x100 0xFF 1 (fchCount ch 0 1 u)
    let fails (i bit code : Nat) : State :=
      retireBlock t die block (errInfo (pFCH ch) code (diePos die) (penBit (pFCH ch) bit (fchCount ch i 1 u)))
    (ftlReady s = true → stepOk s die step entry = true → exec (.mediumRead t die block step entry bits false false) s =
      .next (mediumRead t die block step entry bits false false u)) ∧
    (ftlReady s = true → quiescing s = true →
      let w := fchCount ch 6 0 (fchCount ch 5 0 (fchCount ch 4 0 (fchCount ch 3 0 read)))
      exec (.mediumRead t die block 1 entry bits false false) s = .next (putBlock die block
        { x with reads := x.reads + 1, staging := false }
        (setFlash w fun f => { f with recovery := List.zipWith (· + ·) f.recovery [0, 0, 0, 0] }))) ∧
    (backgroundOn s = true → stepOk s die step entry = true → exec (.patrolRead t die block step entry bits false) s =
      .next (mediumRead t die block step entry bits x.staging false u)) ∧
    (ftlReady s = true → exec (.dieUnresponsive t die) s = .next (loseDie die false u)) ∧
    (ftlReady s = true → dieState s die = 1 →
      exec (.programFail t die block) s = .next (fails 7 1 3) ∧ exec (.eraseFail t die block) s = .next (fails 8 2 4)) ∧
    (backgroundOn s = true → pos < 32 → bitOf s.flash.inUse pos = true → exec (.fold t pos (block, page) step final []) s =
      .next (setFlash (ftlCount 0 1 (forN 32 (rejoin pos u) fun ch s =>
        if dieState s (32 * ch + pos) = 1 then perfEvent (pFCH ch) 0x101 0xFF 1 (fchCount ch 1 1 s) else s))
        fun f => { f with medBytes := f.medBytes + 32 * 16384 })) ∧
    (backgroundOn s = true → pos < 32 → bitOf s.flash.inUse pos = true → mget s.flash.map (k * 2 ^ 64 + bits) = some b →
      exec (.fold t pos (block, page) step final [(k, bits, b.seq)]) s =
        .next (setFlash (if b.folded = some (pos, block, page) then u else foldRow pos u) fun f => { f with
          map := mput f.map (k * 2 ^ 64 + bits) { b with
            folded := some (pos, block, page), staged := if final = true ∧ step ≤ 2 then none else b.staged } })) ∧
    (s.flash.rebuild.contains die = true → exec (.rebuildDone t die 0 true) s = .next (checkSpares false (enterReadOnly u))) ∧
    (backgroundOn s = true → fld s pFTL R.FTL.WL 0 16 < (eraseSpan x.staging s).1 - (eraseSpan x.staging s).2 →
      x.erases = (eraseSpan x.staging s).2 →
      exec (.wlMove t die block) s = .next (eraseBlock die block (setFlash (ftlCount 3 1 u) fun f =>
        { f with medBytes := f.medBytes + famMib f.family * 2 ^ 20 }))) ∧
    (blkState s pFTL ≠ 0x80 → exec (.ftlRecovery t [] false false false 0 0) s = .next u) ∧
    (blkState s pFTL = 0x80 → ∃ w, exec (.ftlRecovery t [] false false false 0 0) s = .next w ∧
      w.flash.roots = [none, none] ∧ w.flash.lastMs = 0 ∧ w.flash.unclean = s.flash.init ∧
      w.flash.powerUps = if s.flash.init then [s.flash.powerUps.getD 0 0, s.flash.powerUps.getD 1 0 + 1]
        else [s.flash.powerUps.getD 0 0 + 1, s.flash.powerUps.getD 1 0]) ∧
    (mget (getCtrl s f).cqs cq = some q → q.held ≠ 0 → q.heldAt + bitsOf (getCtrl s f).coal 8 8 * 100000 ≤ t →
      exec (.interruptCoalescingExpiry t f cq) s = .next (emitMsix f q.vec
        (putCtrl f { getCtrl s f with cqs := mput (getCtrl s f).cqs cq { q with held := 0 } } u)))

/-- CC.EN of a present function's idle controller makes it ready with the Admin queues AQA, ASQ and ACQ give; CC.EN to 0
resets a ready one; a shutdown is complete at once. A doorbell of an existing queue, within its size, moves its tail
or head; any other is an event. A fetch from the queue arbitration picks takes one entry, and an unreadable one stops
the controller; an opcode that does not pass completes with its status. A ready command: Create I/O queue of a free
number, size, and completion queue or vector makes the queue; Delete removes it, a completion queue in use excepted;
an Abort of the Admin queue misses, of a waiting command completes it; an Asynchronous Event Request takes the oldest
event, or waits; Get and Set Features answer and set a feature, and Identify writes its structure. SHARE cannot be set
(0x10E). (R382; R383; R385; R386; R388; R389; R397; R399; R404; R405) -/
def Obligations.NvmeControllersAndQueues : Prop :=
  ∀ (t f q v cid cc aqa asq acq : Nat) (x y : Ctrl) (sq : NSq) (cq : NCq) (c d : NCmd) (dw : List Nat)
      (segs : List (Nat × Nat)) (s : State),
    let u := atTime t s
    let b := { c with begun := true }
    let w := nvmeBegun t f q cid c s
    let ready (op : Nat) : Prop := NvmeReady t f q cid c s ∧ q = 0 ∧ c.op = op
    let created : NCmd := {
      sq := q, cid := bitsOf ((dw.map (· % 2 ^ 32)).getD 0 0) 16 16, dw := dw.map (· % 2 ^ 32), num := s.nvme.num
      begun := false, drop := false, data := [], pi := [], kind := 0, ranges := [], place := none, programmed := false, record := none }
    let fetches : Prop := x.rdy = true ∧ x.cfs = false ∧ nvmeHeld u f = false ∧ (getFn u f).freezing = false ∧
      blkRunning u pNVME = true ∧ quiescing u = false ∧ arbPick x = some (q, y)
    let moved : Ctrl := { y with sqs := mput y.sqs q { sq with head := ringNext sq.head sq.size } }
    let counted : State := setNvme u fun n => { n with num := n.num + 1 }
    let id := bitsOf (c.d 10) 0 16
    let size := bitsOf (c.d 10) 16 16
    let hi := bitsOf (c.d 11) 16 16
    let newCq : NCq := {
      base := c.d 6 + 2 ^ 32 * c.d 7, size := size + 1, vec := hi, ien := bitOf (c.d 11) 1, head := 0, tail := 0, phase := true
      held := 0, heldAt := 0, wait := [] }
    let newSq : NSq := { base := c.d 6 + 2 ^ 32 * c.d 7, size := size + 1, prio := bitsOf (c.d 11) 1 2, cq := hi, head := 0, tail := 0 }
    let idOk : Prop := id ≠ 0 ∧ id ≤ ioQueues f ∧ size ≠ 0 ∧ size ≤ 4095 ∧ c.d 11 % 2 = 1
    getCtrl s f = x →
    (f < 1012 → blkState s (pFUNC f) ≠ 0x82 → blkRunning u pNVME = true → x.rdy = false → x.cfs = false → cc % 2 = 1 →
      exec (.controllerEnable t f cc aqa asq acq) s = .next (putCtrl f { x with
        cc := cc, rdy := true, aqa := aqa, asq := asq, acq := acq
        sqs := [(0, { base := asq, size := bitsOf aqa 0 12 + 1, prio := 0, cq := 0, head := 0, tail := 0 })]
        cqs := [(0, { base := acq, size := bitsOf aqa 16 12 + 1, vec := 0, ien := true, head := 0, tail := 0, phase := true, held := 0, heldAt := 0, wait := [] })] } u)) ∧
    (x.rdy = true → exec (.controllerReset t f) s = .next (resetCtrl f u) ∧
      exec (.shutdownNotify t f) s = .next (putCtrl f { x with shst := 2 } u)) ∧
    (x.rdy = true → mget x.sqs q = some sq → v < sq.size → v < 65536 →
      exec (.nvmeDoorbell f q false v) s = .next (putCtrl f { x with sqs := mput x.sqs q { sq with tail := v } } s)) ∧
    (x.rdy = true → mget x.cqs q = some cq → v < cq.size → v < 65536 →
      exec (.nvmeDoorbell f q true v) s = .next (drainCq f q (putCtrl f { x with cqs := mput x.cqs q { cq with head := v } } s))) ∧
    (x.rdy = true → mget x.sqs q = none → exec (.nvmeDoorbell f q false v) s = .next (asyncEvent f 0 0 1 s)) ∧
    (fetches → exec (.nvmeCommandFetch t f q none) s = .next (nvmeFetchFail f (putCtrl f { y with cfs := true } u))) ∧
    (fetches → mget y.sqs q = some sq → fetchStatus f q y created = 0 → exec (.nvmeCommandFetch t f q (some dw)) s =
      .next (tagCandidate 3 f (nvmeTag f q created.cid) (putCtrl f { moved with
        cmds := moved.cmds ++ [created], deficit := if !(moved.cmds.any fun d => !d.begun) then 0 else moved.deficit } counted))) ∧
    (fetches → mget y.sqs q = some sq → fetchStatus f q y created ≠ 0 → exec (.nvmeCommandFetch t f q (some dw)) s =
      .next (postNvme f q created.cid (fetchStatus f q y created) 0 (putCtrl f moved counted))) ∧
    (ready 5 → idOk → mget (getCtrl w f).cqs id = none → hi ≤ 64 → exec (.createIoCq t f q cid) s =
      .next (endNvme f b 0 0 (putCtrl f { getCtrl w f with cqs := mput (getCtrl w f).cqs id newCq } w))) ∧
    (ready 1 → idOk → mget (getCtrl w f).sqs id = none → hi ≠ 0 → (mget (getCtrl w f).cqs hi).isSome = true →
      exec (.createIoSq t f q cid) s =
        .next (endNvme f b 0 0 (putCtrl f { getCtrl w f with sqs := mput (getCtrl w f).sqs id newSq } w))) ∧
    (ready 0 → id ≠ 0 → mget (getCtrl w f).sqs id = some sq → (getCtrl w f).cmds.all (fun d => d.sq != id) = true →
      exec (.deleteIoSq t f q cid) s = .next (endNvme f b 0 0 (putCtrl f { getCtrl w f with
        sqs := mdel (getCtrl w f).sqs id, cmds := (getCtrl w f).cmds } w))) ∧
    (ready 4 → id ≠ 0 → mget (getCtrl w f).cqs id = some cq → exec (.deleteIoCq t f q cid) s =
      .next (if (getCtrl w f).sqs.any (fun e => e.2.cq == id) = true then endNvme f b nv.Q_DELETION 0 w
             else endNvme f b 0 0 (putCtrl f { getCtrl w f with cqs := mdel (getCtrl w f).cqs id } w))) ∧
    (ready 8 → id = 0 → exec (.abort t f q cid) s = .next (endNvme f b 0 1 (nvmeCount 2 w))) ∧
    (ready 8 → id ≠ 0 → findNCmd w f id size = some d → exec (.abort t f q cid) s =
      .next (if d.begun = true then endNvme f b 0 1 (nvmeCount 2 w)
             else endNvme f b 0 0 (nvmeCount 1 (endNvme f d nv.ABORTED 0 w)))) ∧
    (ready 0x0C → (getCtrl w f).events = [] → exec (.asyncEventRequest t f q cid) s = .next (putCtrl f { getCtrl w f with
        cmds := (getCtrl w f).cmds.filter (fun d => d.num != c.num), aers := (getCtrl w f).aers ++ [cid] } w)) ∧
    (∀ e l, ready 0x0C → (getCtrl w f).events = e :: l →
      exec (.asyncEventRequest t f q cid) s = .next (endNvme f b 0 e (putCtrl f { getCtrl w f with events := l } w))) ∧
    (ready 0x0A → c.d 10 = 1 → exec (.getFeatures t f q cid) s = .next (endNvme f b 0 (getCtrl w f).arb w)) ∧
    (ready 9 → c.d 10 = 1 → exec (.setFeatures t f q cid) s = .next (endNvme f b 0 0 (putCtrl f { getCtrl w f with arb := c.d 11 } w))) ∧
    (ready 9 → c.d 10 = 0xC0 → exec (.setFeatures t f q cid) s = .next (endNvme f b 0x10E 0 w)) ∧
    (ready 6 → (identData f b w).1.1 = 0 → exec (.identify t f q cid segs false) s =
      .next (endNvme f b 0 0 (dmaSegs f segs (identData f b w).1.2 (identData f b w).2)))

/-- For a ready Admin command: Namespace Management creates a namespace of a kind, a format and whole GiB with its key
under the lowest free NSID, UNATTACHED, where capacity and the FTL allow it; it deletes a namespace with its blocks
and key. Attachment of an UNATTACHED owned namespace of kind 0 or 1 to one controller, and detachment from the
controller that holds it, answer success and tell the controller. Format NVM puts the namespace in FORMATTING and
FORMAT_DONE ends it with no block mapped. Sanitize of block or crypto erase puts all in SANITIZING, and SANITIZE_DONE
ends it with an event. Get Log Page writes the page of a known identifier from its offset. Only PF0 takes Firmware
Image Download in pieces of 4 KiB multiples, and Firmware Commit, whose actions 0 to 3 act on the slots and start the
splice. (R391; R396; R400; R403; R404; R406; R407; R408; R409; R575) -/
def Obligations.NvmeNamespacesSanitizeAndFirmware : Prop :=
  ∀ (t f q cid gib id nsid : Nat) (n : Ns) (c e : NCmd) (data : List Byte) (chk : ImgCheck) (segs : List (Nat × Nat)) (s : State),
    let u := atTime t s
    let b := { c with begun := true }
    let w := nvmeBegun t f q cid c s
    let ready (op : Nat) : Prop := NvmeReady t f q cid c s ∧ q = 0 ∧ c.op = op
    let lbaf := leAt data 26 1 % 16
    let kind := leAt data 3072 1
    let size := leAt data 0 8
    let made (guid : List Byte) : Ns := {
      state := 1, former := 1, kind := kind, lbaf := lbaf, ext := bitOf (leAt data 26 1) 4, dps := leAt data 29 1, gib := gib, size := size
      nguid := guid, ctrl := none, policy := 0, owned := true, mirror := if kind = 1 ∧ ¬ pairSynced w then 1 else 0, ackTick := 0
      degBytes := 0, leftBytes := 0 }
    let dps := bitsOf (c.d 10) 5 3 + 8 * bitsOf (c.d 10) 8 1
    let formatted : Ns := { n with
      state := n.former, lbaf := bitsOf (e.d 10) 0 4, ext := bitOf (e.d 10) 4, dps := bitsOf (e.d 10) 5 3 + 8 * bitsOf (e.d 10) 8 1
      size := n.size * lbaBytes n.lbaf / lbaBytes (bitsOf (e.d 10) 0 4) }
    let page := logPage f (bitsOf (c.d 10) 0 8) (bitOf (c.d 10) 15) w
    let len := 4 * (bitsOf (c.d 10) 16 16 + 65536 * bitsOf (c.d 11) 0 16 + 1)
    let off := c.d 12 + 2 ^ 32 * c.d 13
    let pad := freeBytes (min (segs.map (·.2)).sum len - (page.1.2.length - off)) page.2
    let slot := bitsOf (c.d 10) 0 3
    let image := parseImage (downloaded w.nvme.image) chk
    let spent (s : State) : State := setMgmt (setNvme s fun n => { n with image := [] }) fun m => { m with
      update := match m.update with | some ⟨2, _⟩ => none | u => u }
    (ready 0x0D → bitsOf (c.d 10) 0 4 = 0 → ftlReady w = true → w.nvme.sanitize = none → kind ≤ 2 → leAt data 26 1 < 32 →
      leAt data 30 1 = 0 → formatOk lbaf (leAt data 29 1) = true → leAt data 8 8 = size → size ≠ 0 →
      gib = ceilDiv (size * lbaBytes lbaf) (2 ^ 30) → gibUsed w + gib ≤ w.flash.usable → blkState w pFTL ≠ 0x82 → kind ≠ 1 →
      ((List.range 256).find? fun i => (getNs w (i + 1)).isNone) = some id →
      exec (.nsCreate t f q cid data false) s = .next (endNvme f b 0 (id + 1) (newDeviceKey (id + 1)
        (putNs (id + 1) (made (freeBytes 16 w).1) (freeBytes 16 w).2)))) ∧
    (ready 0x0D → bitsOf (c.d 10) 0 4 = 1 → c.nsid ≠ 0xFFFFFFFF → getNs w c.nsid = some n → n.state ≠ 3 → n.state ≠ 4 →
      exec (.nsDelete t f q cid) s = .next (endNvme f b 0 0 (dropNs c.nsid w))) ∧
    (ready 0x15 → bitsOf (c.d 10) 0 4 = 0 → getNs w c.nsid = some n → n.state = 1 → n.kind ≠ 2 → n.owned = true →
      oneCtrl w data = some id → exec (.nsAttach t f q cid data false) s =
        .next (endNvme f b 0 0 (nsChanged id c.nsid (putNs c.nsid { n with state := 2, ctrl := some id } w)))) ∧
    (ready 0x15 → bitsOf (c.d 10) 0 4 = 1 → getNs w c.nsid = some n → n.state = 2 → n.ctrl = some id →
      oneCtrl w data = some id → exec (.nsDetach t f q cid data false) s =
        .next (endNvme f b 0 0 (nsChanged id c.nsid (putNs c.nsid { n with state := 1, ctrl := none } w)))) ∧
    (ready 0x80 → getNs w c.nsid = some n → n.state ≠ 3 → n.state ≠ 4 → ftlReady w = true → blkState w pFTL ≠ 0x82 →
      bitsOf (c.d 10) 9 3 ≤ 2 → formatOk (bitsOf (c.d 10) 0 4) dps = true →
      exec (.formatNvm t f q cid) s = .next (putNs c.nsid { n with state := 3, former := n.state } w)) ∧
    (getNs u nsid = some n → n.state = 3 → n.ctrl = none → bitsOf (e.d 10) 9 3 ≠ 2 →
      (u.nvme.ctrls.findSome? fun x => (x.2.cmds.find? fun c => c.sq == 0 && c.op == 0x80 && c.begun && c.nsid == nsid).map fun c => (x.1, c)) = some (f, e) →
      exec (.formatDone t nsid) s = .next (endNvme f e 0 0 (wipeArea nsid (setFlash (putNs nsid formatted u) fun x => unmapRange nsid 0 (2 ^ 64) x)))) ∧
    (ready 0x84 → w.nvme.sanitize = none → w.nvme.nss.any (fun x => x.2.state == 3) = false → ftlReady w = true →
      bitsOf (c.d 10) 0 3 = 2 ∨ bitsOf (c.d 10) 0 3 = 4 → exec (.sanitize t f q cid) s =
        .next (endNvme f b 0 0 (setNvme w fun v => { v with
          sanitize := some (bitsOf (c.d 10) 0 3), sanStat := 2, sanCdw10 := c.d 10
          nss := v.nss.map fun x => (x.1, { x.2 with former := x.2.state, state := 4 }) }))) ∧
    (s.nvme.sanitize = some 2 → exec (.sanitizeDone t) s = .next (asyncAll 6 1 0x81 (penBit pNVME 3 (setNvme
      (setFlash { u with ckpt := u.ckpt.wiped } fun x => { x with map := [] }) fun v => { v with
        sanitize := none, sanStat := 1, nss := v.nss.map fun x => (x.1, { x.2 with state := x.2.former }) })))) ∧
    (ready 2 → page.1.1 = 0 → bitsOf (c.d 10) 0 8 ≠ 2 → off % 4 = 0 → off ≤ page.1.2.length →
      exec (.getLogPage t f q cid segs false) s =
        .next (endNvme f b 0 0 (dmaSegs f segs ((page.1.2.drop off).take len ++ pad.1) pad.2))) ∧
    (ready 0x11 → f = 0 → (4 * (c.d 10 + 1)) % 4096 = 0 → 4 * c.d 11 % 4096 = 0 → w.mgmt.update = none →
      exec (.firmwareImageDownload t f q cid data false) s = .next (endNvme f b 0 0 (setNvme
        (setMgmt w fun m => { m with update := some { path := 2, done := [] } }) fun v => { v with
          image := mput v.image (4 * c.d 11) (data.take (4 * (c.d 10 + 1))) }))) ∧
    (ready 0x11 → f ≠ 0 → exec (.firmwareImageDownload t f q cid data false) s = .next (endNvme f b nv.OPCODE 0 w)) ∧
    (ready 0x10 → f = 0 → w.mgmt.splice = none → (slot = 1 ∨ slot = 2) →
      (bitsOf (c.d 10) 3 3 = 2 → slotIntact w.mgmt (slot - 1) = true →
        exec (.firmwareCommit t f q cid chk) s = .next (endNvme f b 0 0 (raiseSlot (slot - 1) w))) ∧
      (bitsOf (c.d 10) 3 3 = 3 → slot - 1 ≠ w.mgmt.running → w.nvme.image = [] →
        exec (.firmwareCommit t f q cid chk) s = .next (startSplice (slot - 1) (some (f, c.num)) w)) ∧
      (bitsOf (c.d 10) 3 3 < 2 → w.nvme.image ≠ [] → imageOk w.mgmt image = true →
        exec (.firmwareCommit t f q cid chk) s = .next (endNvme f b 0 0
          (if bitsOf (c.d 10) 3 3 = 1 then raiseSlot (slot - 1) (storeSlot (slot - 1) image (spent w))
           else storeSlot (slot - 1) image (spent w)))))

/-- For a ready I/O command on a namespace attached to its controller with the medium serving and its range within the
namespace: a write whose protection information passes begins the programs given, as Write Zeroes and a deallocating
Dataset Management do; one that could not be fetched completes with Data Transfer Error. When its blocks and mapping
are on the medium, a write of a namespace of kind 0 completes; of a mirrored one in a synchronised pair joins its
mirror record; of a degraded one lands counted. A read writes the blocks' bytes and metadata to the host and completes
with their status, a verify completes with that status alone, and a compare with COMPARE where the bytes differ. Flush
completes successfully. (R390; R391; R393; R394; R395; R397; R401; R403; R409; R422; R430) -/
def Obligations.NvmeReadsAndWrites : Prop :=
  ∀ (t f q cid : Nat) (n : Ns) (c : NCmd) (data mdata : List Byte) (progs bad segs ranges : List (Nat × Nat)) (s : State),
    let u := atTime t s
    let b := { c with begun := true }
    let w := nvmeBegun t f q cid c s
    let io (op : Nat) : Prop := NvmeReady t f q cid c s ∧ q ≠ 0 ∧ c.op = op ∧ getNs w c.nsid = some n ∧ ioStatus w f b = 0
    let ranged (moves : Bool) : Prop := rangeStatus n b moves = 0 ∧ piFieldStatus n b = 0
    let given := splitBlocks n b data mdata
    let got := readBlocks n b bad w
    let st := readStatus n b got.1.2 got.2
    let wire := readWire n b got.1.1
    let sent :=
      let got := readBlocks n b bad (tagStage 3 (nvmeTag f q cid) 2 false w)
      let st := readStatus n b got.1.2 got.2
      let wire := readWire n b got.1.1
      ((st.1, dmaSegs f segs wire.1 st.2), wire)
    let zeros : List Byte := if n.lbaf % 2 = 0 then [] else List.replicate (16 * b.blocks) 0
    (io 1 → ranged true → changeStatus w n = 0 → getNs u c.nsid = some n → (data.length, mdata.length) = wireBytes n c →
      mayProgram u (c.blocks * lbaBytes n.lbaf) progs none = true → writePiStatus n b given.1 given.2 = 0 →
      exec (.nvmeWrite t f q cid data mdata false progs none) s = .next (beginProgram f
        { b with data := given.1, pi := given.2, kind := 0, ranges := [(b.lba, b.blocks)], place := none } progs
        (tagStage 3 (nvmeTag f q cid) 1 false w))) ∧
    (io 1 → ranged true → changeStatus w n = 0 → exec (.nvmeWrite t f q cid data mdata true progs none) s =
      .next (endIo f b nv.TRANSFER (nvmeFetchFail f w))) ∧
    (io 8 → ranged false → changeStatus w n = 0 → getNs u c.nsid = some n → bitOf (c.d 12) 25 = false → hasPi n = false →
      mayProgram u (c.blocks * lbaBytes n.lbaf) progs none = true → exec (.writeZeroes t f q cid progs none) s =
        .next (beginProgram f { b with pi := zeros, kind := 1, ranges := [(b.lba, b.blocks)], place := none } progs w)) ∧
    (io 9 → bitOf (c.d 11) 2 = true → changeStatus w n = 0 → ranges.length = bitsOf (c.d 10) 0 8 + 1 →
      ranges.any (fun r => decide (n.size < r.1 + r.2)) = false → exec (.datasetManagement t f q cid ranges false) s =
        .next (beginProgram f { b with kind := 2, ranges := ranges } [] w)) ∧
    (((getCtrl u f).cmds.find? fun c => c.sq == q && c.cid == cid && c.begun && !c.programmed && (mget u.flash.begun c.num).isSome) = some c →
      getNs u c.nsid = some n →
      (n.kind ≠ 1 → exec (.writeProgrammed t f q cid) s = .next (landNvme f c false u)) ∧
      (n.kind = 1 → pairSynced u = true → n.mirror = 0 → exec (.writeProgrammed t f q cid) s = .next (joinRecord f c u)) ∧
      (n.kind = 1 → n.mirror = 1 → n.policy = 0 → exec (.writeProgrammed t f q cid) s = .next (landNvme f c true u))) ∧
    (io 2 → ranged true → exec (.nvmeRead t f q cid segs false bad) s =
      .next (endIo f b sent.1.1 (if sent.2.2 = [] then sent.1.2 else hostWrite f none true (c.d 4 + 2 ^ 32 * c.d 5) sent.2.2 sent.1.2))) ∧
    (io 0x0C → ranged false → exec (.nvmeVerify t f q cid bad) s = .next (endIo f b st.1 st.2)) ∧
    (io 5 → ranged true → st.1 = 0 → exec (.nvmeCompare t f q cid data mdata false bad) s =
      .next (endIo f b (if wire = (data, mdata) then 0 else nv.COMPARE) st.2)) ∧
    (io 0 → exec (.nvmeFlush t f q cid) s = .next (endIo f b 0 w))

/-- HOST_LINK_UP of a present link records rate, width and flit mode and shows pennant 0; HOST_LINK_DOWN of an up link
counts, shows pennant 1, silences each present function and makes RUNNING and STOPPING ones orphans with cause 2.
PERST makes the firmware unready and resets the link, as HOT_RESET does; PERST_DEASSERT notes its time. VF_ENABLE of
at most TotalVFs makes those VFs present. A read incomplete at its timeout counts, quarantines its tag and fails what
it was for; a completion of a quarantined tag is late and frees it, one of a tag that is neither outstanding nor
quarantined is unexpected; a quarantine ends at its expiry. A write within a function's allotment lands in its window
and a read is answered with its bytes; beyond it WIN_ERR is set, a write does nothing else and a read returns 0. An ATS invalidation is answered, and DOE Discovery lists the three protocols.
(R36; R38; R353; R354; R355; R357; R360; R361; R368; R371; R605) -/
def Obligations.HostLinksResetsAndTags : Prop :=
  ∀ (t link func tag rate width num pf issued off len until_ : Nat) (outs : Bool) (err : Nat) (eng : ReadEngine) (l : List Byte)
      (s : State),
    let u := atTime t s
    let k := link * 65536 + tag
    let kf := hostLink s func * 65536 + tag
    let hl := hostLink s func
    let down := penBit (pHOST link) 1 (hostCount link 5 (setRegN u (pHOST link) R.HOST.LINK_STAT 0))
    let enabled := setHost u fun h => { h with vfEnable := h.vfEnable.set pf true, numVfs := h.numVfs.set pf num }
    let late := penBit (pHOST link) 5 (penBit (pFUNC func) 8 (hostCount link 1 u))
    let timed := errInfo (pHOST hl) 1 func (penBit (pHOST hl) 4 (penBit (pFUNC func) 7
      (emit (.pcie hl "CompletionTimeout" [func]) (hostCount hl 0 u))))
    (link < 2 → pagePresent s (pHOST link) = true →
      exec (.hostLinkUp t link rate width) s = .next (penBit (pHOST link) 0 (setRegN u (pHOST link) R.HOST.LINK_STAT
        (2 ^ 11 + (if 6 ≤ rate then 2 ^ 10 else 0) + width % 64 * 16 + rate % 16))) ∧
      exec (.perst t link) s =
        .next (hostReset link { u with power := { u.power with fwReady := u.power.fwReady.set link false } }) ∧
      exec (.hotReset t link) s = .next (hostReset link u)) ∧
    (link < 2 → exec (.perstDeassert t link) s =
        .next { u with power := { u.power with perstAt := u.power.perstAt.set link t } } ∧
      exec (.atsInvalidate t link tag) s = .next (emit (.pcie link "InvalidateCompletion" [tag]) u)) ∧
    (link < 2 → fld s (pHOST link) R.HOST.LINK_STAT 11 1 = 1 → exec (.hostLinkDown t link) s =
      .next ((linkFuncs s link).foldl (fun s f =>
        if blkState s (pFUNC f) = 0x82 then s else orphanRunning f 2 (agreement s f) (silence f s)) down)) ∧
    (pf < 4 → num ≤ totalVfs s pf → s.host.vfEnable.getD pf true = false → exec (.vfEnable t pf num) s =
      .next ((vfsOf s pf num).foldl (fun s f =>
        let w := modFn f (fun x => { x with gone := false }) s
        if blkState w (pFUNC f) = 0x82 then setBlkState w (pFUNC f) 0 else w) enabled)) ∧
    (link < 2 → tag < 65536 → mget s.host.quar k = some (func, until_) →
      exec (.completionReceive t link num tag outs err) s = .next (setHost late fun h => { h with quar := mdel h.quar k })) ∧
    (link < 2 → tag < 65536 → mget s.host.quar k = none → exec (.completionReceive t link func tag false err) s =
      .next (emit (.pcie link "UnexpectedCompletion" [func, tag]) (hostCount link 3 u))) ∧
    (link < 2 → tag < 65536 → mget s.host.quar k = none → exec (.completionReceive t link func tag true 2) s =
      .next (hostCount link 7 u)) ∧
    (func < 1012 → tag < tagSpace s func → issued + (getFn s func).cto ≤ t → mget s.host.quar kf = none →
      exec (.cplTimeout t func tag issued eng) s = .next (failRead func eng (setHost timed fun h => { h with
        quar := mput h.quar kf (func, t + (getFn s func).cto) }))) ∧
    (mget s.host.quar k = some (func, until_) → until_ ≤ t → exec (.quarantineExpiry t link tag) s =
      .next (hostCount link 2 (setHost u fun h => { h with quar := mdel h.quar k }))) ∧
    (func < 1012 → windowHas s func off l.length = true →
      exec (.hostWindowAccess func off len (some l)) s = .next (windowPut func off l s)) ∧
    (func < 1012 → windowHas s func off len = true → exec (.hostWindowAccess func off len none) s =
      .next (emit (.pcie hl "Completion" ((windowRead s func off len).map (·.toNat))) (dramTouch (Config.winBase func + off) len s))) ∧
    (func < 1012 → windowHas s func off len = false → exec (.hostWindowAccess func off len none) s =
      .next (emit (.pcie hl "Completion" (List.replicate len 0)) (penBit (pFUNC func) 2 s))) ∧
    (func < 1012 → windowHas s func off l.length = false →
      exec (.hostWindowAccess func off len (some l)) s = .next (penBit (pFUNC func) 2 s)) ∧
    (exec (.doeDiscovery 0) s = .next (emit (.pcie 0 "DOE" [1, 0, 1]) s) ∧
      exec (.doeDiscovery 2) s = .next (emit (.pcie 0 "DOE" [1, 2, 0]) s))

/-- FLR counts, shows its pennants, silences the function, resets its configuration, and makes a RUNNING, STOPPING or
FROZEN function an orphan with cause 3 whose agreement is cleared. Bus Master Enable written 0 silences, and orphans
with cause 5. VF Enable written 0 starts the reset of the PF's present VFs. Any write of HEARTBEAT restarts the timer,
and a function whose timer is past its limit at the edge is silenced and enters ORPHAN with cause 1. ADOPT of an
ORPHAN with the recorded ABI, Bus Master Enable and no reset of its link runs it again, replays what was held, and
agrees the ABI; one refused sets ADOPT_ERR alone. ORPHAN_CTL's RESET starts the reset of an ORPHAN, which ends
DISABLED, or ABSENT for a VF that went. At the grace time's end, running sets pause and PF0's rings stop. (R355; R364;
R366; R368; R369; R370; R371; R372; R373; R374; R381) -/
def Obligations.OrphansAdoptionAndFunctionResets : Prop :=
  ∀ (t func pf abi : Nat) (v : Dword) (s : State),
    let u := atTime t s
    let p := pFUNC func
    let link := hostLink s func
    let quiet := penBit p 5 (penBit (pHOST link) 3 (hostCount link 4 (clearConfig func (silence func u))))
    let live (n : Nat) : Prop := n = 1 ∨ n = 2 ∨ n = 0x81
    let unbused := silence func (modFn func (fun x => { x with bme := false }) u)
    let adopted := setAgreement func (2 ^ 31 + abi) (setFld u p R.FUNC.ORPHAN_STAT 5 1 0)
    let replayed := modFn func (fun x => { x with hbAt := t }) (setFld (replayHeld func (unsilence func adopted)) p R.FUNC.HELD 0 16 0)
    let paused := setFoundry u fun f => { f with sets := f.sets.map fun e => if e.2.state = 2 then (e.1, pausedSet u e.2) else e }
    let stopped : State := { paused with feed := { paused.feed with rings := paused.feed.rings.map fun e => if e.2.state = 2 then (e.1, stoppedRing e.2) else e } }
    (4 ≤ func → func < 1012 → live (blkState s p) →
      exec (.flr t func) s = .next (clearAgreement func (enterOrphan func 3 (agreement u func) quiet))) ∧
    (4 ≤ func → func < 1012 → blkState s p = 0 → exec (.flr t func) s = .next (clearAgreement func (dropFreeze func quiet))) ∧
    (func < 1012 → live (blkState unbused p) → exec (.busMasterDisable t func) s =
      .next (enterOrphan func 5 (agreement unbused func) unbused)) ∧
    (func < 1012 → blkState unbused p = 0 → exec (.busMasterDisable t func) s = .next unbused) ∧
    (pf < 4 → s.host.vfEnable.getD pf false = true → exec (.vfDisable t pf) s = .next (vfDisable t pf u)) ∧
    (func < 1012 → exec (.heartbeat t func v) s = .next (modFn func (fun x => { x with hbAt := t }) (setReg u p R.FUNC.HEARTBEAT v))) ∧
    (func < 1012 → blkState s p = 1 ∨ blkState s p = 2 → hbLimit s func ≠ 0 →
      (getFn s func).hbAt + hbLimit s func ≤ s.tick.edgeAt → exec (.heartbeatTimeout func) s =
        .next (enterOrphan func 1 (agreement s func) (silence func s))) ∧
    (hbLimit s func = 0 ∨ s.tick.edgeAt < (getFn s func).hbAt + hbLimit s func → exec (.heartbeatTimeout func) s = .next s) ∧
    (func < 1012 → blkState s p = 0x80 → fld s p R.FUNC.ORPHAN_STAT 4 1 = 0 → abi = fld s p R.FUNC.ORPHAN_STAT 16 16 →
      (getFn s func).bme = true → exec (.adopt t func abi) s = .next (penBit p 4 (setBlkState replayed p 1))) ∧
    (func < 1012 → blkState s p = 0x80 → fld s p R.FUNC.ORPHAN_STAT 4 1 = 1 ∨ abi ≠ fld s p R.FUNC.ORPHAN_STAT 16 16 ∨
      (getFn s func).bme = false → exec (.adopt t func abi) s = .next (setFld u p R.FUNC.ORPHAN_STAT 5 1 1)) ∧
    (func < 1012 → blkState s p = 0x80 → exec (.funcReset t func) s = .next (startReset t func false u)) ∧
    (blkState s p = 4 → (getFn s func).resetAt ≠ none → exec (.funcResetDone t func) s =
      .next (putFn func { getFn s func with resetAt := none, gone := false }
        (setBlkState u p (if (getFn s func).gone = true ∨ vfOn u func = false then 0x82 else 0)))) ∧
    (blkState s (pFUNC 0) = 0x80 → (getFn s 0).graceDone = false → fld s (pFUNC 0) R.FUNC.HB_CFG 16 16 ≠ 0xFFFF →
      (getFn s 0).orphanAt + fld s (pFUNC 0) R.FUNC.HB_CFG 16 16 * 10 ^ 9 ≤ t → exec (.graceEnd t) s =
        .next (penBit (pHOST 0) 6 (penBit (pFUNC 0) 9 (putFn 0 { getFn s 0 with graceDone := true } stopped))))

/-- For a ready command: FUNC_ASSIGN of sound ranges that overlap no other function's, exclude nothing in use and fit the
window total waits for the edge; an overlap answers 0xB0, something in use 0xB1. FUNC_FREEZE of a DISABLED or RUNNING
VF with a limit of 1 to 10,000 ms waits; FREEZE_DONE of a drained freezing function makes it FROZEN and completes with
the length of its blob, and FREEZE_TIMEOUT at the limit completes with TIMEOUT and lets it revert. FUNC_SAVE of a
FROZEN VF writes the blob, or answers 0xB2 with its length where the room is short. FUNC_RESTORE of a sound blob that
fits the VF's resources places it; a bad check answers INTEGRITY. FUNC_THAW of a FROZEN VF waits. DIRTY_LOG_START
makes a log, SYNC writes the bits of the pages asked and clears them, STOP ends it; the last two need one. FUNC_SAVE
naming a PF is refused at 4. (R363; R364; R365; R366; R367; R375; R376; R377; R378; R379; R380; R411) -/
def Obligations.FunctionCommandsAndMigration : Prop :=
  ∀ (t func : Nat) (k : CmdRef) (c : SvcCmd) (blob : List Byte) (parts : List BlobPart) (g : DirtyLog) (s : State),
    let u := atTime t s
    let p := pFUNC c.obj
    let x := getFn s c.obj
    let state := blkState s p
    let ranges : Prop := c.d 4 % 65536 + c.d 4 / 65536 ≤ 16384 ∧ c.d 5 % 65536 + c.d 5 / 65536 ≤ 1024 ∧
      bitsOf (c.d 7) 0 7 ≠ 0 ∧ bitsOf (c.d 7) 0 7 ≤ 64
    let assigns : Prop := SvcReady k 0x95 c s ∧ begunOn s 0x95 c.obj = none ∧ ranges ∧ state ≠ 2 ∧ state ≠ 4
    let meets : Prop := overlaps s c.obj R.FUNC.RES_QP 4 (c.d 4) = true ∨ overlaps s c.obj R.FUNC.RES_SUB 5 (c.d 5) = true
    let b := (if bitOf (c.d 7) 0 = true then windowRead s c.func (c.q 4) (c.d 6) else blob.take (c.d 6)).take (leAt (if bitOf (c.d 7) 0 = true then windowRead s c.func (c.q 4) (c.d 6) else blob.take (c.d 6)) 8 4)
    let intact : Prop := leAt b 0 4 = 0x47494D45 ∧ leAt b 8 4 = b.length ∧ 64 ≤ b.length ∧
      leAt b 0x3C 4 = crc32c (b.take 0x3C ++ zeros 4 ++ b.drop 0x40)
    let fits : Prop := leAt b 4 1 = 1 ∧ leAt b 5 1 = 1 ∧ parts.any (fun x => partUnknown x && decide (x.ty < 2 ^ 15)) = false ∧
      fld s p R.FUNC.RES_QP 0 16 = leAt b 0x20 2 ∧ leAt b 0x22 2 ≤ fld s p R.FUNC.RES_QP 16 16 ∧
      leAt b 0x26 2 ≤ fld s p R.FUNC.RES_SUB 16 16 ∧ leAt b 0x28 4 ≤ reg s p R.FUNC.RES_WIN ∧ leAt b 0x2C 1 ≤ reg s p R.FUNC.RES_SVC ∧
      ((blobNsids (partOf parts 5)).find? fun e => !((nsOf s c.obj).contains e.1)) = none
    let dirty (sub : Nat) : Prop := SvcReady k 0x9A c s ∧ bitsOf (c.d 4) 0 2 = sub ∧ (state = 1 ∨ state = 0x80 ∨ state = 0x81)
    (assigns → ¬ meets → inUse s c = false → windowSum s c.obj (c.d 6) ≤ 65536 → exec (.funcAssign k) s = .next (markBegun c s)) ∧
    (assigns → meets → exec (.funcAssign k) s = .next (complete c 0xB0 0 s)) ∧
    (assigns → ¬ meets → inUse s c = true → exec (.funcAssign k) s = .next (complete c 0xB1 0 s)) ∧
    (SvcReady k 0x96 c s → 4 ≤ c.obj → 1 ≤ c.d 4 → c.d 4 ≤ 10000 → state = 0 ∨ state = 1 → begunOn s 0x96 c.obj = none →
      exec (.funcFreeze k) s =
        .next (markBegun c (modFn c.obj (fun x => { x with freezeBy := some (s.now + c.d 4 * 1000000) }) s))) ∧
    ((getFn s func).freezing = true → (getFn s func).revert = false → drained u func = true →
      exec (.freezeDone t func) s = .next (finishCmds (fun c => c.op == 0x96 && c.obj == func) st.OK
        (saveBlob (freezeNow func u) func).length (freezeNow func u))) ∧
    (∀ d, (getFn s func).freezeBy = some d → d ≤ t → exec (.freezeTimeout t func) s =
      .next (finishCmds (fun c => c.op == 0x96 && c.obj == func) st.TIMEOUT 0
        (putFn func { getFn s func with freezeBy := none, revert := true } u))) ∧
    (SvcReady k 0x97 c s → c.obj < 4 → exec (.funcSave k) s = .next (complete c st.INVALID_FIELD 4 s)) ∧
    (SvcReady k 0x97 c s → 4 ≤ c.obj → state = 0x81 → exec (.funcSave k) s =
      .next (if c.d 6 < (saveBlob s c.obj).length then complete c 0xB2 (saveBlob s c.obj).length s
             else complete c st.OK (saveBlob s c.obj).length (dmaWrite c.func (c.d 7 % 2) (c.q 4) (saveBlob s c.obj) s))) ∧
    (SvcReady k 0x98 c s → 4 ≤ c.obj → state = 0x81 → ¬ intact → exec (.funcRestore k blob) s = .next (complete c st.INTEGRITY 0 s)) ∧
    (SvcReady k 0x98 c s → 4 ≤ c.obj → state = 0x81 → intact → blobParts b (leAt b 0x0C 2) 64 = some parts → fits →
      s.pairs.any (fun e => e.1 / 64 == c.obj) = false → qpsOf s c.obj = [] →
      exec (.funcRestore k blob) s = .next (complete c st.OK 0 (placeBlob c.obj b parts s))) ∧
    (SvcReady k 0x99 c s → 4 ≤ c.obj → state = 0x81 → begunOn s 0x99 c.obj = none → exec (.funcThaw k) s = .next (markBegun c s)) ∧
    (dirty 0 → c.q 5 % 4096 = 0 → c.q 7 % 32768 = 0 → c.q 7 ≠ 0 → c.q 7 ≤ 2 ^ 44 → c.d 9 = 0 → x.dirty = none →
      logBytes s + c.q 7 / 32768 ≤ 2 ^ 32 → exec (.dirtyLogStart k) s = .next (complete c st.OK 0 (setRegN
        (putFn c.obj { x with dirty := some { base := c.q 5, len := c.q 7, pages := [] } } s) p R.FUNC.DIRTY_STAT (2 ^ 31)))) ∧
    (dirty 1 → x.dirty = some g → c.d 7 % 8 = 0 → c.d 8 % 8 = 0 → c.d 7 + c.d 8 ≤ g.len / 4096 → exec (.dirtyLogSync k) s =
      .next (complete c st.OK 0 (dmaWrite c.func (c.d 9 % 2) (c.q 5) (pageBits g.pages (c.d 7) (c.d 8)) (putFn c.obj { x with
        dirty := some { g with pages := g.pages.filter fun n => !(decide (c.d 7 ≤ n) && decide (n < c.d 7 + c.d 8)) } } s)))) ∧
    (dirty 2 → c.d 5 = 0 → c.d 6 = 0 → c.d 7 = 0 → c.d 8 = 0 → c.d 9 = 0 → exec (.dirtyLogStop k) s =
      .next (if x.dirty.isSome = true then complete c st.OK 0 (setFld (putFn c.obj { x with dirty := none } s) p R.FUNC.DIRTY_STAT 31 1 0)
             else complete c st.STATE_CONFLICT 0 s))

/-- For a ready command, with no fenced CKPT: GROUP_FORM of a sound descriptor in NO_GROUP with a landing area begins the
group and sends HELLO to every other member. A HELLO that matches joins its rank; one that differs, or of no member's rank,
ends the forming with MISMATCH and the sender's rank, as ten seconds without all of them end it with TIMEOUT. In a formed group:
GROUP_SHRINK of a removable rank waits; GROUP_LEAVE with no session in progress drops the group, giving up what was
under way; SESSION_OPEN of an absent session of a new step opens it; SESSION_START of an OPEN one arms a capture
within the staging room, and restores otherwise, unless another is in its way (BUSY); SESSION_ABORT fails a session in
progress with ABORTED at the next edge, SESSION_CLOSE removes one that is not. CAPTURE_TIMEOUT makes a session whose
CAPTURE_MS or COMMIT_S is over fail with reason 4. (R436; R438; R440; R442; R443; R444; R445; R447; R465; R466; R468) -/
def Obligations.CheckpointGroupAndSessions : Prop :=
  ∀ (t uid i a : Nat) (k : CmdRef) (c : SvcCmd) (desc body man : List Byte) (g : CkGroup) (m : CkMsg) (x : CkSession) (s : State),
    let u := atTime t s
    let ready (op : Nat) : Prop := SvcReady k op c s ∧ blkFenced s pCKPT = false
    let formed : Prop := s.ckpt.group = some g ∧ ckptMode s = 0x82 ∧ g.formed = true
    let described := groupOf (groupDesc c s desc) s.now
    let matches' : Prop := leAt body 0 1 = leAt g.head 0 1 ∧ leAt body 1 2 = leAt g.head 1 2 ∧ leAt body 5 2 = leAt g.head 5 2 ∧
      leAt body 7 4 = leAt g.head 7 4 ∧ leAt body 15 4 = leAt g.head 15 4 ∧ (body.drop 19).take 32 = memberDigest g
    let regions := tableRegions s x
    let total := (regions.map (·.len)).sum
    let room := max 16 (min 512 (fld s pCKPT R.CKPT.CFG 0 16)) * 2 ^ 30
    let opened : Prop := getSess s c.obj = some x ∧ x.state = 1 ∧ startRefused s c.obj x = false
    (ready 0x50 → groupOffence s (groupDesc c s desc) = some i → exec (.groupForm k desc) s = .next (complete c st.INVALID_FIELD (0x100 + i) s)) ∧
    (ready 0x50 → groupOffence s (groupDesc c s desc) = none → ckptMode s = 0x80 → s.ckpt.areaNs.isSome = true →
      exec (.groupForm k desc) s = .next (markBegun c (ckTell (fun _ => true) 1 0 described.rank (described.head ++ memberDigest described)
        (setCkptMode 0x81 (setCkpt s fun x => { x with group := some described, lostPend := [] }))))) ∧
    (CkHeard t m g uid s → g.formed = false → m.sender ≠ g.rank → matches' → exec (.hello t m uid body) s =
      .next (setCkpt u fun c => { c with group := some { g with hello := addSorted m.sender g.hello } })) ∧
    (CkHeard t m g uid s → g.formed = false → m.sender ≠ g.rank → i ≠ uid ∨ ¬ matches' → exec (.hello t m i body) s =
      .next (formFails ck.MISMATCH m.sender u)) ∧
    (ckptOn u = true → s.ckpt.group = some g → m.group = g.id → m.format = 1 → ckUid g m.sender = none → g.formed = false →
      m.sender ≠ g.rank → exec (.hello t m i body) s = .next (formFails ck.MISMATCH m.sender u)) ∧
    (s.ckpt.group = some g → g.formed = false → g.formAt + 10000000000 ≤ t → exec (.groupFormTimeout t) s =
      .next (formFails st.TIMEOUT 0 u)) ∧
    (ready 0x51 → formed → shrinkOk g (c.d 4) = true → exec (.groupShrink k) s = .next (markBegun c s)) ∧
    (ready 0x51 → formed → shrinkOk g (c.d 4) = false → exec (.groupShrink k) s = .next (complete c st.INVALID_FIELD 16 s)) ∧
    (ready 0x52 → formed → exec (.groupLeave k) s = .next (if s.ckpt.sessions.any (fun e => sessBusy e.2) = true then complete c ck.BUSY 0 s
      else complete c st.OK 0 (dropGroup (finishCmds (fun c => c.op == 0x51 || c.op == 0x57 || c.op == 0x58) st.ABORTED 0 s)))) ∧
    (ready 0x53 → formed → sessionOffence c s = none → getSess s c.obj = none → c.d 4 ≠ 2 →
      exec (.sessionOpen k) s = .next (if c.q 5 ≤ reg64 s pCKPT R.CKPT.LAST_COMMIT_LO ∨ s.ckpt.sessions.any (fun e => e.2.step == c.q 5) = true
        then complete c ck.EXISTS 0 s else complete c st.OK 0 (putSess c.obj (newSession c 0) s))) ∧
    (ready 0x53 → formed → sessionOffence c s = none → getSess s c.obj = none → c.d 4 = 2 → s.ckpt.selected = some (c.q 5) →
      bitOf (c.d 10) 16 = true → exec (.sessionOpen k) s = .next (complete c st.OK 0 (putSess c.obj (newSession c (bitsOf (c.d 10) 0 16)) s))) ∧
    (ready 0x54 → formed → opened → x.mode ≠ 2 → total + s.ckpt.stageBytes ≤ room → exec (.sessionStart k) s =
      .next (markBegun c (putSess c.obj { x with
        state := 2, at_ := c.q 4, stage := total, uids := g.members.map (·.uid), p := g.p, unit := g.unit, self := g.rank
        lost := g.lost.filterMap (ckUid g) } s))) ∧
    (ready 0x54 → formed → opened → x.mode ≠ 2 → room < total + s.ckpt.stageBytes →
      exec (.sessionStart k) s = .next (complete c st.NO_RESOURCE 0 s)) ∧
    (ready 0x54 → formed → opened → x.mode = 2 → x.fail = none → shapeBad man regions = false →
      (s.ckpt.manifests.find? fun b => manGroup b == g.id && manStep b == x.step && manRank b == x.rank && manIntact s b) = some man →
      exec (.sessionStart k) s = .next (markBegun c (putSess c.obj { x with
        state := 9, regions := regions, self := x.rank, manifest := some man } s))) ∧
    (ready 0x54 → formed → getSess s c.obj = some x → x.state = 1 → startRefused s c.obj x = true →
      exec (.sessionStart k) s = .next (complete c ck.BUSY 0 s)) ∧
    (ready 0x55 → getSess s c.obj = some x → exec (.sessionAbort k) s =
      .next (if sessBusy x = true then markBegun c (failLater c.obj 9 s) else complete c st.STATE_CONFLICT 0 s)) ∧
    (ready 0x56 → getSess s c.obj = some x → exec (.sessionClose k) s = .next (if sessBusy x = true then complete c st.STATE_CONFLICT 0 s
      else complete c st.OK 0 (setCkpt s fun f => { f with sessions := mdel f.sessions c.obj }))) ∧
    (s.ckpt.sessions = [(i, x)] → x.atNs = some a → 2 ≤ x.state → x.state ≤ 4 → a + captureNs s ≤ t →
      exec (.captureTimeout t) s = .next (failLater i 4 u))

/-- A message of another group or format is counted and discarded; these hold of one that is heard. A UNIT begins its
landing; one that lands is kept and answered with OK, another digest or no room. An ACK of an owed unit with its
digest clears the debt, one of another digest sends it once more, and one without room fails the session. An intact
MANIFEST is kept and acknowledged, a broken one refused; its acknowledgement clears the debt. LANDED is noted for its
step, FAILED fails the sessions of the step at the next edge, LOST queues the rank, PROGRESS changes nothing. A
UNIT_REQ is answered with the unit or its absence, a UNIT_DATA of an asked unit is taken. RESTORE_SCAN tells this
device's candidates, VERDICT records a member's first list and then results, and SHARD_EXPORT of the selected step
waits for its units, or says what room it needs. (R441; R444; R455; R456; R458; R459; R460; R462; R463; R465; R467) -/
def Obligations.CheckpointUnitsManifestsAndRestore : Prop :=
  ∀ (t i uid rank reason shard code : Nat) (k : CmdRef) (c : SvcCmd) (g : CkGroup) (m : CkMsg) (digest data body man : List Byte)
      (steps : List Nat) (l : CkLanding) (x : CkSession) (s : State),
    let u := atTime t s
    let heard := CkHeard t m g uid s
    let ready (op : Nat) : Prop := SvcReady k op c s ∧ blkFenced s pCKPT = false ∧ s.ckpt.group = some g ∧ ckptMode s = 0x82
    let w := setCkpt u fun c => { c with landing := c.landing.eraseIdx i }
    let room := areaHas w l.u.data.length
    let owes : Prop := sessOfStep u m.step = some (i, x) ∧ x.state = 5 ∧ m.src = x.self ∧
      x.uids.getD (unitRank x.uids.length x.self m.stripe m.unit) 0 = uid ∧ mget x.owed (owedKey m.stripe m.unit) = some false
    let again := { x with owed := x.owed.map fun e => if e.1 = owedKey m.stripe m.unit then (e.1, true) else e }
    let key : UnitKey := (m.step, m.src, m.stripe, m.unit)
    let answer := match ownUnitData u g.id m.step m.src m.stripe m.unit with
      | some d => leBytes 1 0 ++ List.replicate 31 0 ++ d
      | none => leBytes 1 1 ++ List.replicate 31 0
    let list := ownCandidates s g
    let told := leBytes 1 0 ++ leBytes 1 0 ++ leBytes 2 list.length ++ leBytes 4 0xFFFFFFFF ++ list.flatMap (leBytes 8)
    let need := 64 + leAt man (manShard man (c.d 7) + 8) 8
    (ckptOn u = true → s.ckpt.group = some g → m.group ≠ g.id ∨ m.format ≠ 1 →
      exec (.progress t m) s = .next (rmtCount 7 u)) ∧
    (heard → exec (.progress t m) s = .next u) ∧
    (heard → exec (.unit t m digest data) s = .next (setCkpt u fun c => { c with landing := c.landing ++ [{
      from_ := some m.sender, digest := digest
      u := { group := g.id, step := m.step, src := m.src, stripe := m.stripe, unit := m.unit, data := data } }] })) ∧
    (s.ckpt.landing[i]? = some l → l.from_ = some rank → exec (.unitLand t i) s =
      .next (ckSend rank 3 l.u.step l.u.src l.u.unit l.u.stripe (leBytes 1 (if room = false then 1 else if sha256 l.u.data = l.digest then 0 else 2) ++
        List.replicate 31 0 ++ sha256 l.u.data) (if room = true then landUnit l.u w else w))) ∧
    (heard → owes → code ≠ 1 → digest = sha256 (stripeUnit u i x m.stripe m.unit) →
      exec (.unitAck t m code digest) s = .next (unitLanded i m.stripe m.unit u)) ∧
    (heard → owes → code ≠ 1 → digest ≠ sha256 (stripeUnit u i x m.stripe m.unit) →
      exec (.unitAck t m code digest) s = .next (sendUnit i again m.stripe m.unit (ckCount 5 1 (putSess i again u)))) ∧
    (heard → owes → exec (.unitAck t m 1 digest) s = .next (failLater i 5 u)) ∧
    (heard → manIntact u body = true → areaHas u body.length = true → exec (.manifest t m body) s =
      .next (ckSend m.sender 5 m.step m.src 0 0 (leBytes 1 0 ++ List.replicate 7 0) (landManifest body u))) ∧
    (heard → manIntact u body = false → exec (.manifest t m body) s =
      .next (ckSend m.sender 5 m.step m.src 0 0 (leBytes 1 2 ++ List.replicate 7 0) u)) ∧
    (heard → sessOfStep u m.step = some (i, x) → x.state = 5 → x.manOwed.contains uid = true → exec (.manifestAck t m code) s =
      .next (if code = 0 then putSess i { x with manOwed := x.manOwed.filter (· != uid) } u
             else failLater i (if code = 1 then 5 else 7) u)) ∧
    (heard → exec (.landed t m) s =
      .next (setCkpt u fun c => { c with landed := (c.landed.filter (· != (m.step, uid))) ++ [(m.step, uid)] })) ∧
    (heard → s.ckpt.sessions = [(i, x)] → x.step = m.step → x.state = 4 → exec (.failed t m reason) s = .next (failLater i 8 u)) ∧
    (heard → rank < g.members.length → rank ≠ g.rank → exec (.lost t m rank) s =
      .next (setCkpt u fun c => { c with lostPend := c.lostPend ++ [rank] })) ∧
    (heard → exec (.unitReq t m) s = .next (ckSend m.sender 11 m.step m.src m.unit m.stripe answer u)) ∧
    (heard → s.ckpt.asked.contains key = true → exec (.unitData t m code data) s = .next (fetchGoOn (setCkpt u fun c => { c with
      asked := c.asked.filter (· != key), replies := c.replies ++ [(key, if code = 0 then some data else none)] }))) ∧
    (ready 0x57 → s.ckpt.scan.active = false → exec (.restoreScan k) s = .next (scanTry (markBegun c
      (ckTell (fun _ => true) 12 0 g.rank told (setScan s fun c => { c with active := true }))))) ∧
    (heard → (s.ckpt.scan.firsts.map (·.1)).contains uid = false → exec (.verdict t m reason shard steps) s =
      .next (scanTry (setScan u fun c => { c with firsts := c.firsts ++ [(uid, steps)] }))) ∧
    (heard → (s.ckpt.scan.firsts.map (·.1)).contains uid = true → scanResult s m.step m.src = none →
      exec (.verdict t m reason shard steps) s =
        .next (scanTry (setScan u fun c => { c with results := c.results ++ [(m.step, m.src, reason, shard)] }))) ∧
    (ready 0x58 → exportOffence c s = none → s.ckpt.selected = some (c.q 4) → rankManifest s (c.q 4) (c.d 6) = some man →
      exec (.shardExport k) s = .next (fetchGoOn (if c.d 10 < need then complete c ck.SHORT need s else markBegun c s)))

/-- A frame of another epoch is counted and discarded; one of this epoch notes that the partner was heard, and in SPLIT
makes the device seek it again at the next edge. MIRROR and RESYNC parts enter the record being put together; MIRROR_ACK advances the
acknowledged record and completes its writes in SYNCED; TICK_FRAME notes lease and partner edge; HAWSER_HALYARD
triggers source 3; RESYNC_ACK of the base acknowledges the image. In JOINING: JOIN without a clash is kept for the
edge, one with a clash ends the joining there, and JOIN_SEND sends JOIN on each up hawser link. TAKEOVER_NOTICE notes the last record; LEAVE_NOTICE leads to
SOLO, PAIR_JOIN to JOINING at the next edge; PAIR_LEAVE waits. A witness of the partner is held, WITNESS_SEND sends one. At the edge of its
lease's end a device gives up rings, sets and packs and is SOLO. TAKEOVER at an edge in SYNCED with the partner lost
ends with an empty replica; SPLIT needs a silent hawser and a live partner. (R471; R472; R475; R479; R481; R482; R483;
R484; R485; R490; R491; R493) -/
def Obligations.PairHawserWitnessAndTakeover : Prop :=
  ∀ (t epoch seq part parts count lease echo ofs hold uid last final main seen : Nat) (data digest : List Byte)
      (forms : List NsForm) (kept ties : List Nat) (reads : List AdoptRead) (k : CmdRef) (c : SvcCmd) (s : State),
    let u := atTime t s
    let mode := pairMode s
    let framed : Prop := epoch = pairEpoch s ∧ mode ≠ 0x84
    let heard := raiseLine 34 3 (setPairX u fun p => { p with lastFrame := some s.tick.count, lastHeard := some s.tick.count, heard := true })
    let noted := setPairX heard fun p => { p with ackPend := some (max seq (p.ackPend.getD 0)) }
    let delay := (t - (s.tick.edgeAt - (s.tick.count - echo) * (s.tick.period * 1000)) - hold) / 2
    let edge := t - delay - ofs
    let carried := if s.tick.edgeAt + s.tick.len < edge + s.tick.period * 500 then count else count + 1
    let ticked := setPairX heard fun p => { p with echo := some (count, t), leaseIn := max p.leaseIn lease }
    let witnessed := raiseLine 36 3 (raiseLine 36 1 u)
    let enabled : Prop := fld s pMSS R.MSS.WITNESS_CFG 31 1 = 1
    let message (l : Nat) (w : State) : List Byte :=
      beBytes 4 0xE34D ++ leBytes 1 1 ++ leBytes 1 1 ++ leBytes 2 (pairEpoch w) ++ leBytes 8 (ownUnit w) ++
        leBytes 1 (mainState w) ++ leBytes 1 (if hawserSeen w = true then 1 else 0) ++ leBytes 2 0 ++ leBytes 8 l
    (epoch ≠ pairEpoch s → exec (.resyncAck t epoch seq) s = .next (penBit pPAIR 5 (pairCount 2 1 u))) ∧
    (epoch = pairEpoch s → mode = 0x84 → exec (.hawserHalyard t epoch count seq) s = .next (halyardTrigger 3 t
      (raiseLine 34 3 (atNextEdge 0x81 (setPairX u fun p => { p with lastFrame := some s.tick.count, lastHeard := some s.tick.count, heard := true }))))) ∧
    (framed → exec (.hawserHalyard t epoch count seq) s = .next (halyardTrigger 3 t heard)) ∧
    (framed → exec (.mirror t epoch seq part parts data forms) s = .next (takePart false seq part parts data forms [] [] heard)) ∧
    (framed → exec (.resync t epoch seq part parts data forms kept ties) s =
      .next (takePart true seq part parts data forms kept ties heard)) ∧
    (framed → mode ≠ 0x83 → exec (.mirrorAck t epoch seq) s = .next noted) ∧
    (framed → mode = 0x83 → mirrorCmds heard = [] → exec (.mirrorAck t epoch seq) s = .next noted) ∧
    (framed → exec (.tickFrame t epoch count lease echo ofs hold) s =
      .next (sourceEdge 3 edge { ticked with tick := { ticked.tick with carried := some carried } })) ∧
    (framed → mode = 0x82 → seq = s.pair.base → exec (.resyncAck t epoch seq) s =
      .next (setPairX heard fun p => { p with acked := true })) ∧
    (mode = 0x81 → s.pair.expected = 0 ∨ s.pair.expected = uid → indexClash s uid = false → exec (.join t uid last 0x81 digest false) s =
      .next (setPairX u fun p => { p with join := some { uid := uid, last := last } })) ∧
    (mode = 0x81 → s.pair.expected = 0 ∨ s.pair.expected = uid → exec (.join t uid last 0x81 digest true) s =
      .next (atNextEdge 0x80 u)) ∧
    (mode = 0x81 → exec (.joinSend t) s = .next ((hawserLinks u).foldl (fun s l =>
      emit (.hawser "JOIN" ([l, pairEpoch s, ownUnit s, s.pair.lastEpoch, 0x81] ++ (joinDigest s).map (·.toNat))) s) u)) ∧
    (mode = 0x83 → exec (.takeoverNotice t final) s = .next (setPairX u fun p => { p with finalSeq := some final })) ∧
    (0x82 ≤ mode → mode ≤ 0x84 → exec (.leaveNotice t) s = .next (atNextEdge 0x85 u)) ∧
    (SvcReady k 0x60 c s → mode = 0x80 ∨ mode = 0x85 → exec (.pairJoin k) s =
      .next (markBegun c (setPairX (atNextEdge 0x81 s) fun p => { p with expected := c.q 4 }))) ∧
    (SvcReady k 0x61 c s → 0x81 ≤ mode → mode ≤ 0x85 → exec (.pairLeave k) s = .next (markBegun c s)) ∧
    (SvcReady k 0x61 c s → mode = 0x80 → exec (.pairLeave k) s = .next (complete c st.STATE_CONFLICT 0 s)) ∧
    (fld (raiseLine 36 1 u) pMSS R.MSS.WITNESS_CFG 31 1 = 1 → uid = partnerId (raiseLine 36 1 u) →
      exec (.witness t uid epoch main seen lease) s = .next (setPairX witnessed fun p => { p with
        witness := some { at_ := t, main := main, seen := seen, lease := lease }, leaseIn := max p.leaseIn lease
        lastHeard := some witnessed.tick.count, heard := true })) ∧
    (enabled → mainState s ≠ 1 → s.pair.witness = some ⟨t, main, seen, lease⟩ → exec (.witnessSend t) s =
      .next (noteLease (grantNow u) (emit (.sideband "MCTP" "WITNESS" (message (grantNow u) u)) u))) ∧
    (t = s.tick.edgeAt → mode = 0x83 ∨ mode = 0x84 → s.pair.leaseIn ≠ 0 → s.pair.leaseIn ≤ s.tick.count →
      ∃ w, exec (.leaseExpiry t) s = .next (penBit pPAIR 4 (enterSolo w)) ∧ w.feed.rings = [] ∧ w.foundry.sets = [] ∧
        w.foundry.ctxs = [] ∧ w.pair.taken = []) ∧
    (t = s.tick.edgeAt → mode = 0x83 → partnerLost u = true → ∃ w, exec (.takeover t reads) s = .next w ∧ w.pair.replica = .empty) ∧
    (t = s.tick.edgeAt → mode = 0x83 → hawserSeen s = false → ((freshWitness u).any fun w => w.main == 0) = true →
      exec (.splitEntry t) s = .next (penBit pPAIR 2 (leaveSync 0x84 u)))

/-- A sample of a sensor without thresholds is kept; the LPDDR5X ones derate at 85 degrees. LOG_COMMIT commits the entry.
BOOT_READY after the self-test makes the firmware ready, clears the slot's attempts and logs the boot. The watchdog
and the management command reset the MSS. Set Endpoint ID with a legal identifier on an open bus sets and answers it;
a first dynamic address is kept. A recovery request with the main domain off runs the loader, with its alert and log
entry. RequestUpdate with none under way starts one, else is answered 0x81. A component of it is written: an image to
the spare slot, a checked configuration block, a checked loader. ActivateFirmware ends it: with an image, by raising
the slot's SEQ, or the splice where self-contained. While a splice hands over, SPLICE_COMMIT with every
block accepted commits it and SPLICE_ROLLBACK for 3 to 5 rolls it back. (R38; R404; R549; R550; R551; R553; R566; R570; R576; R577; R583) -/
def Obligations.ManagementBootUpdatesAndSplices : Prop :=
  ∀ (t id seq eid addr reason core' comp' : Nat) (v : Int) (bus : SideBus) (static : Bool) (bytes : List Byte) (chk : ImgCheck)
      (x : Splice) (done accepted : List Nat) (s : State),
    let u := atTime t s
    let parts := match (slotAt u.mgmt x.slot).image with | some y => y.parts | none => []
    let f := sideFrame u
    let k := s.mgmt.running
    let readied := setMgmt u fun m => { m with
      ready := true, slots := if k < 2 then m.slots.set k { slotAt m k with attempts := 0 } else m.slots }
    let armed := applyArb { readied with power := { readied.power with fwReady := [true, true] } }
    let b := sideFrame s
    let logged := logEvent 0x0003 none [(freeVal (breakSplice f)).1 % 256] (setAlert 5 true (freeVal (breakSplice f)).2)
    let three := freeBytes 3 f
    let spare := spareSlot u.mgmt
    let image := parseImage bytes chk
    let open' : FwUpdate := { path := 1, done := done }
    let ended := setMgmt f fun m => { m with update := none }
    let two := freeBytes 2 ended
    let answered := emit (.sideband "PLDM" "ActivateFirmware" (0 :: two.1)) two.2
    (isSensor id = true → ¬ (80 ≤ id ∧ id ≤ 95) → mget s.mgmt.thresholds id = none →
      exec (.sensorSample t id v) s = .next (setMgmt u fun m => { m with sensors := mput m.sensors id v })) ∧
    (isSensor 80 = true → mget s.mgmt.thresholds 80 = none → fld s (pMEMC 0) R.MEMC.STAT 1 1 = 0 → 85 ≤ v →
      ∃ w, exec (.sensorSample t 80 v) s = .next w ∧ fld w (pMEMC 0) R.MEMC.STAT 1 1 = 1) ∧
    exec (.logCommit t seq) s =
      .next { u with log := u.log.map fun e => if e.seq = seq then { e with committed := true } else e } ∧
    (s.power.phase = .running → s.mgmt.posted = true → s.mgmt.ready = false → exec (.bootReady t) s =
      .next (showMss (logEvent 0x0001 none [k, reg armed pMSS R.MSS.FW_VER] armed))) ∧
    exec (.mssWatchdog t) s = .next (mssReset t u) ∧ exec (.mssReset t) s = .next (mssReset t u) ∧
    (busOpen s bus = true → bus ≠ .doe → 1 ≤ eid → eid ≤ 254 → exec (.setEndpointId bus 0 eid) s =
      .next (emit (.sideband "MCTP" "SetEndpointID" ([0, 0] ++ leBytes 1 eid ++ [0]))
        (setMgmt b fun m => { m with eids := mput m.eids (busNum bus) eid }))) ∧
    (busOpen s bus = true → bus ≠ .doe → exec (.setEndpointId bus 0 0) s = .next (emit (.sideband "MCTP" "SetEndpointID" [2]) b)) ∧
    (s.power.alwaysOn = true → s.mgmt.dynAddr = none → addr < 128 → exec (.dynamicAddressAssign addr static) s =
      .next (setMgmt s fun m => { m with dynAddr := some addr })) ∧
    (∀ a, s.mgmt.dynAddr = some a → exec (.dynamicAddressAssign addr static) s = .next s) ∧
    (s.power.alwaysOn = true → f.mgmt.running ≠ 2 → (breakSplice f).power.phase = .off → exec (.recoveryRequest t) s =
      .next (showMss (startMssPart (setMgmt logged fun m => { m with
        running := 2, fw := m.loader.filter (imageOk m), fallback := false, ready := false, update := none })))) ∧
    (s.power.alwaysOn = true → f.mgmt.splice = none → f.mgmt.update = none → exec (.requestUpdate t) s =
      .next (emit (.sideband "PLDM" "RequestUpdate" (0 :: three.1)) (setMgmt three.2 fun m => { m with update := some { path := 1, done := [] } }))) ∧
    (s.power.alwaysOn = true → f.mgmt.update = some open' → exec (.requestUpdate t) s =
      .next (emit (.sideband "PLDM" "RequestUpdate" [0x81]) f)) ∧
    (s.mgmt.update = some open' → s.mgmt.running ≠ 2 →
      exec (.updateComponent t 1 bytes chk) s = .next (componentDone 1 open' (writeSlot spare image u)) ∧
      (imageOk s.mgmt image = true → exec (.updateComponent t 3 bytes chk) s =
        .next (componentDone 3 open' (setMgmt u fun m => { m with loader := some image }))) ∧
      (configOk s.mgmt bytes chk.trailer = true → exec (.updateComponent t 2 bytes chk) s =
        .next (componentDone 2 open' (setMgmt u fun m => { m with
          pendCfg := some (parseConfig bytes) })))) ∧
    (s.power.alwaysOn = true → f.mgmt.update = some open' → done.contains 1 = true →
      exec (.activateFirmware t false) s = .next (raiseSlot (spareSlot f.mgmt) answered) ∧
      (f.power.phase = .running → exec (.activateFirmware t true) s = .next (startSplice (spareSlot f.mgmt) none answered))) ∧
    (s.power.alwaysOn = true → f.mgmt.update = none → exec (.activateFirmware t static) s =
      .next (emit (.sideband "PLDM" "ActivateFirmware" [0x80]) f)) ∧
    (s.mgmt.splice = some x → deckPaused u = true →
      ((handedOver u.mgmt).all accepted.contains = true → exec (.spliceCommit t accepted) s = .next (commitSplice x (enterImage parts u))) ∧
      (reason = 3 ∨ reason = 5 → exec (.spliceRollback t reason core' comp') s = .next (rollSplice reason core' comp' u)) ∧
      (x.at_ + 3 ≤ s.tick.count → s.tick.edgeAt + s.tick.len ≤ t →
        exec (.spliceRollback t 4 core' comp') s = .next (rollSplice 4 core' comp' u)))

/-- A write of PC_CTL of a page the agent sees writes its fields, and shows PERF pennant 1 for an event that is not
defined there; PC_CLEAR also leaves the counter's 48-bit value 0. A read of PC_VAL_LO latches the high half for its
reader, and stamps the tick and the offset within it. A selected, enabled counter that is not chained counts n events
while the gate is open, modulo 2^48, and sets its bit of PC_OVF with OVERFLOW when it wraps; a closed gate counts
nothing. PERF_READ of a present page, 400 ns before the next edge or earlier, writes the tick, the offsets, PC_OVF and
the eight values and completes OK. PREC_SEL with CLR empties the selected core's precise record and its fill level.
(R586; R587; R588; R589; R590; R591; R592; R593; R594; R595; R599) -/
def Obligations.CountersClearsAndSamples : Prop :=
  ∀ (a : Agent) (p : Page) (i n : Nat) (v : Dword) (k : CmdRef) (c : SvcCmd) (s : State),
    let ctl := reg s p (R.PC_CTL + 4 * i)
    let counts : Prop := pagePresent s p = true ∧ i < 8 ∧ bitOf ctl 31 = true ∧ eventDefined p.ty (bitsOf ctl 0 16) = true ∧
      (i % 2 = 1 → bitOf ctl 30 = false)
    let sample := freeVal s
    let first := s.now - s.tick.edgeAt
    let bytes := leBytes 8 s.tick.count ++ leBytes 4 first ++ leBytes 4 (first + sample.1 % 401) ++ leBytes 1 (reg sample.2 p R.PC_OVF) ++
      List.replicate 7 0 ++ ((List.range 8).flatMap fun i => leBytes 8 (pcVal sample.2 p i)) ++ List.replicate 8 0
    (sees s a p = true → i < 8 → bitOf v.toNat 29 = false → exec (.pcCtlWrite a p i v) s =
      .next (if eventDefined p.ty (bitsOf v.toNat 0 16) = true then writeFields s a p (R.PC_CTL + 4 * i) v.toNat
             else penBit pPERF 1 (writeFields s a p (R.PC_CTL + 4 * i) v.toNat))) ∧
    (s.Canon → sees s a p = true → i < 8 → ∃ w, pcVal w p i = 0 ∧ exec (.pcClear a p i) s =
      .next (if eventDefined p.ty (bitsOf ctl 0 16) = true then w else penBit pPERF 1 w)) ∧
    (s.Canon → sees s a p = true → i < 8 → mget s.latches (latchKey a (pageAt p (R.PC_VAL_LO + 8 * i))) = none → pcChained s p i = false →
      ∃ w, exec (.pcValLoRead a p i) s = .next w ∧
        mget w.latches (latchKey a (pageAt p (R.PC_VAL_HI + 8 * i))) = some (BitVec.ofNat 32 (fld s p (R.PC_VAL_HI + 8 * i) 0 16)) ∧
        reg w p R.PC_STAMP_LO = s.tick.count % 2 ^ 32 ∧ reg w p R.PC_STAMP_OFS = (s.now - s.tick.edgeAt) % 2 ^ 32) ∧
    (counts → fld s pPERF R.PERF.GATE 0 1 = 1 → exec (.counterWrap p i n) s = .next (pcAdd p i n s)) ∧
    (s.Canon → counts → fld s pPERF R.PERF.GATE 0 1 = 1 → pcVal s p i + n < 2 ^ 48 →
      ∃ w, exec (.counterWrap p i n) s = .next w ∧ pcVal w p i = pcVal s p i + n) ∧
    (fld s pPERF R.PERF.GATE 0 1 = 0 → exec (.counterWrap p i n) s = .next s) ∧
    (SvcReady k 0xA0 c s → s.now + 400 ≤ s.tick.edgeAt + s.tick.len → pageOf (bitsOf (c.d 4) 12 14 * 0x1000) = some p →
      pagePresent s p = true → exec (.perfRead k) s =
        .next (complete c st.OK 0 (dmaWrite 0 (bitsOf (c.d 7) 0 1) (c.q 5) bytes sample.2))) ∧
    (exec (.precClear (.func 0) v) s = .next (precClear (writeFields s (.func 0) pPERF R.PERF.PREC_SEL (withBits v.toNat 31 1 1))) ∧
      (s.Canon → ∃ w, exec (.precClear (.func 0) v) s = .next w ∧ mget w.tags.prec (fld w pPERF R.PERF.PREC_SEL 16 2) = none))

/-- On a medium that is open, a request of version 1.3 from a requester of no stated limit, in a connection far enough
along, is answered on that medium: GET_VERSION starts the connection anew with version 1.3; GET_CAPABILITIES answers
the capabilities and keeps the requester's limit; NEGOTIATE_ALGORITHMS takes SHA-384, secp384r1 and RSAPSS 3072;
GET_DIGESTS and GET_CERTIFICATE answer slot 0; CHALLENGE and a signed GET_MEASUREMENTS keep the signed response for
PQ_SIG; GET_MEASUREMENTS of one index answers its block, index 8 C0, C1 and the running slot; KEY_EXCHANGE opens a
session that FINISH establishes and END_SESSION ends; HEARTBEAT and KEY_UPDATE answer in an established one;
CHUNK_SEND collects and CHUNK_GET hands out chunks. PQ_SIG of a signed response, asked for at its bound or later, and
PQ_CERT answer the part asked for; a part past the chain's end fails with status 2, in GET_CERTIFICATE error 0x01. A
message of an unknown session, and any on a closed medium, get no answer; another version is error 0x41, a request too
early 0x04. Message codes and layouts are PRESUMED from the DMTF specification the rules name (log entry 143). (R578;
R579; R580) -/
def Obligations.SpdmConnectionSessionsAndSignatures : Prop :=
  ∀ (t i key : Nat) (bus : SideBus) (sess : Option Nat) (req p : List Byte) (s : State),
    let v := atTime t s
    let w := if bus = .doe then v else sideFrame v
    let x := getConn w bus
    let say (q : Option Nat) (r : List Byte) (z : State) : Host.Outcome State Fault Refusal := .next
      (if bus = .doe then emit (.pcie 0 "DOE" (r.map (·.toNat))) z
       else emit (.sideband "SPDM" (if q.isSome then "secured" else "") r) z)
    let asks (code phase : Nat) : Prop :=
      busOpen v bus = true ∧ leAt req 1 1 = code ∧ leAt req 0 1 = 0x13 ∧ phase ≤ x.phase ∧ x.limit = 0
    let isIn (on : Bool) : Prop := (x.sessions.any fun e => e.1 == i && e.2.1 == on) = true
    let at_ (on : Bool → Bool) := putConn bus { x with sessions := x.sessions.map fun e => if e.1 = i then (i, on e.2.1, t) else e } w
    let kept (r : Nat) := keepSigned bus r t w.fresh
    let free (n : Nat) := freeBytes n w
    (busOpen v bus = true → leAt req 1 1 = 0x84 → leAt req 0 1 = 0x10 → exec (.getVersion t bus none req) s =
      say none [0x10, 0x04, 0, 0, 0, 1, 0, 0x13] (putConn bus { SpdmConn.reset with phase := 1 } w)) ∧
    (asks 0xE1 1 → leAt req 12 4 = 0 ∨ 20 ≤ leAt req 12 4 → exec (.getCapabilities t bus none req) s =
      say none (spdmMsg 0x61 0 0 ([0] ++ (free 9).1.take 1 ++ [0, 0] ++ leBytes 4 0x262D6 ++ (free 9).1.drop 1))
        (putConn bus { x with phase := 2, limit := leAt req 12 4 } (free 9).2)) ∧
    (asks 0xE3 2 → bitOf (leAt req 8 4) 3 = true → bitOf (leAt req 12 4) 1 = true →
      exec (.negotiateAlgorithms t bus none req) s = say none (spdmMsg 0x63 3 0 (leBytes 2 48 ++ [1, 0] ++ leBytes 4 4 ++
        leBytes 4 8 ++ leBytes 4 2 ++ List.replicate 16 0 ++ [2, 0x20, 0x10, 0, 3, 0x20, 2, 0, 5, 0x20, 1, 0]))
        (putConn bus { x with phase := 3 } w)) ∧
    (asks 0x81 3 → exec (.getDigests t bus none req) s = say none (spdmMsg 0x01 1 1 (attestBytes 2 0 48)) w) ∧
    (asks 0x82 3 → leAt req 2 1 = 0 →
      let n := min (leAt req 6 2) (Config.attestLen 0 - leAt req 4 2)
      exec (.getCertificate t bus none req) s = if leAt req 4 2 < Config.attestLen 0 then say none (spdmMsg 0x02 0 0
        (leBytes 2 n ++ leBytes 2 (Config.attestLen 0 - leAt req 4 2 - n) ++ attestBytes 0 (leAt req 4 2) n)) w
        else say none (spdmMsg 0x7F 0x01 0 []) w) ∧
    (asks 0x83 3 → leAt req 2 1 = 0 → leAt req 3 1 = 0 → exec (.challenge t bus none req) s =
      say none (spdmMsg 0x03 0 1 (attestBytes 2 0 48 ++ (free 416).1.take 32 ++ leBytes 2 0 ++ (req.drop 36).take 8 ++
        (free 416).1.drop 32)) (kept 0 (free 416).2)) ∧
    (asks 0xE0 3 → leAt req 2 1 % 2 = 0 → 1 ≤ leAt req 3 1 → leAt req 3 1 ≤ 8 → exec (.getMeasurements t bus none req) s =
      say none (spdmMsg 0x60 0 0 (leBytes 1 1 ++ leBytes 3 (measureBlock w (leAt req 3 1)).length ++
        measureBlock w (leAt req 3 1) ++ (free 32).1 ++ leBytes 2 0 ++ (req.drop 4).take 8)) (free 32).2) ∧
    measureValue w 8 = leBytes 4 w.mgmt.c0 ++ leBytes 4 w.mgmt.c1 ++ leBytes 1 w.mgmt.running ∧
    (asks 0xE0 3 → leAt req 2 1 % 2 = 1 → leAt req 3 1 = 0 → leAt req 36 1 % 16 = 0 → exec (.getMeasurements t bus none req) s =
      say none (spdmMsg 0x60 8 0 ([0] ++ [0, 0, 0] ++ (free 416).1.take 32 ++ leBytes 2 0 ++ (req.drop 37).take 8 ++
        (free 416).1.drop 32)) (kept 1 (free 416).2)) ∧
    (asks 0xE4 3 → leAt req 3 1 = 0 → leAt req 2 1 = 0 → ∃ r id, leAt r 0 1 = 0x13 ∧ leAt r 1 1 = 0x64 ∧ id % 65536 = leAt req 4 2 ∧
      exec (.keyExchange t bus none req) s =
        say none r (kept 2 (putConn bus { x with sessions := x.sessions ++ [(id, false, t)] } (free 563).2))) ∧
    (asks 0xE5 3 → isIn false → exec (.finish t bus (some i) req) s = say (some i) (spdmMsg 0x65 0 0 []) (at_ fun _ => true)) ∧
    (asks 0xE8 3 → isIn true → exec (.spdmHeartbeat t bus (some i) req) s = say (some i) (spdmMsg 0x68 0 0 []) (at_ id)) ∧
    (asks 0xE9 3 → isIn true → 1 ≤ leAt req 2 1 → leAt req 2 1 ≤ 3 → exec (.keyUpdate t bus (some i) req) s =
      say (some i) (spdmMsg 0x69 (leAt req 2 1) (leAt req 3 1) []) (at_ id)) ∧
    (asks 0xEC 3 → isIn true → exec (.endSession t bus (some i) req) s =
      say (some i) (spdmMsg 0x6C 0 0 []) (putConn bus { x with sessions := x.sessions.filter fun e => e.1 != i } w)) ∧
    (asks 0x85 3 → bitOf (leAt req 2 1) 0 = false → leAt req 4 2 ≠ 0 → exec (.chunkSend t bus none req) s =
      say none ([0x13, 0x05, 0] ++ (req.drop 3).take 1 ++ leBytes 2 (leAt req 4 2))
        (putConn bus { x with chunkIn := x.chunkIn ++ (req.drop 12).take (leAt req 8 4) } w)) ∧
    (asks 0x86 3 → leAt req 4 2 ≠ 0 → x.chunkOut.length = 1 → exec (.chunkGet t bus none req) s =
      say none ([0x13, 0x06, 1] ++ (req.drop 3).take 1 ++ leBytes 2 (leAt req 4 2) ++ [0, 0] ++ leBytes 4 1 ++ x.chunkOut)
        (putConn bus { x with chunkOut := [] } w)) ∧
    (asks 0xFE 3 → vendorReq req = some p → leAt p 1 1 = 1 →
      let n := leAt p 8 4
      1 ≤ n → n ≤ 4096 →
      (leAt p 0 1 = 1 → mget x.signed (leAt p 2 1) = some (i, key) → i + 60000000000 ≤ t → leAt p 4 4 + n ≤ 16224 →
        let part (o k : Nat) : List Byte := (List.range k).map fun j => Config.freeByte key (2 ^ 20 + o + j)
        exec (.pqSig t bus none req) s = say none (vendorMsg (leBytes 1 1 ++ [1, 0, 0] ++ leBytes 4 16224 ++ leBytes 4 (leAt p 4 4) ++
          leBytes 4 n ++ part (2 ^ 20) 48 ++ part (leAt p 4 4) n)) { w with fresh := w.fresh + 1 }) ∧
      (leAt p 0 1 = 2 → leAt p 2 1 = 0 →
        exec (.pqCert t bus none req) s = if leAt p 4 4 + n ≤ Config.attestLen 1 then say none (vendorMsg (leBytes 1 2 ++
          [1, 0, 0] ++ leBytes 4 (Config.attestLen 1) ++ leBytes 4 (leAt p 4 4) ++ leBytes 4 n ++ attestBytes 3 0 48 ++
          attestBytes 1 (leAt p 4 4) n)) w
          else say none (vendorMsg (leBytes 1 2 ++ [1, 2, 0] ++ (free 60).1)) (free 60).2)) ∧
    (∀ c ∈ [Instr.getVersion t bus sess req, .getCapabilities t bus sess req, .negotiateAlgorithms t bus sess req,
        .getDigests t bus sess req, .getCertificate t bus sess req, .challenge t bus sess req, .getMeasurements t bus sess req,
        .keyExchange t bus sess req, .finish t bus sess req, .spdmHeartbeat t bus sess req, .keyUpdate t bus sess req,
        .endSession t bus sess req, .chunkSend t bus sess req, .chunkGet t bus sess req, .pqSig t bus sess req, .pqCert t bus sess req],
      (busOpen v bus = false → exec c s = .next v) ∧
      (sess = some i → busOpen v bus = true → (x.sessions.any fun e => e.1 == i) = false → exec c s = .next v ∨ exec c s = .next w)) ∧
    (busOpen v bus = true → leAt req 1 1 = 0x81 → x.limit = 0 →
      (leAt req 0 1 ≠ 0x13 → exec (.getDigests t bus none req) s = say none (spdmMsg 0x7F 0x41 0 []) w) ∧
      (leAt req 0 1 = 0x13 → x.phase < 3 → exec (.getDigests t bus none req) s = say none (spdmMsg 0x7F 0x04 0 []) w))

/-- On an open medium, SET_TID keeps an identifier of 1 to 254 and GET_TID answers it; GET_PLDM_VERSION answers a version
for types 0, 2 and 5, GET_PLDM_TYPES base, platform and firmware update, GET_PLDM_COMMANDS the commands of the list;
GET_PDR answers a part of a record of the repository and GET_PDR_REPOSITORY_INFO that it is available;
GET_SENSOR_READING answers the last sample as a signed 32-bit number and its state, SET_SENSOR_THRESHOLDS keeps six
limits and GET_SENSOR_THRESHOLDS answers them, and a sensor that does not exist is answered 0x80; SET_EVENT_RECEIVER
keeps the receiver or none, and POLL_FOR_PLATFORM_EVENT_MESSAGE answers the oldest event that waits;
SET_NUMERIC_EFFECTER_VALUE of effecter 1 or 2 writes LIMIT_W or EXC_MS of CAP_MGMT's shadow and commits the PWR page,
and GET_NUMERIC_EFFECTER_VALUE answers the shadow and the value in force. On a closed medium nothing is answered.
Codes and layouts are PRESUMED from the DMTF specifications the rule names (log entry 143). (R551; R582; R48; R49;
R74) -/
def Obligations.PldmBaseAndPlatformCommands : Prop :=
  ∀ (t id n size val : Nat) (bus : SideBus) (req b : List Byte) (rest : List (Nat × List Byte)) (x : SensorThr) (s : State),
    let v := atTime t s
    let w := sideFrame v
    let open_ : Prop := busOpen v bus = true ∧ bus ≠ .doe
    let say (name : String) (r : List Byte) (z : State) : Host.Outcome State Fault Refusal := .next (emit (.sideband "PLDM" name r) z)
    let free (k : Nat) := freeBytes k w
    let cap := (getShadow w pPWR R.PWR.CAP_MGMT).toNat
    let capWith (lo k : Nat) : State := commitReq t pPWR (setShadow w pPWR R.PWR.CAP_MGMT (BitVec.ofNat 32 (withBits cap lo k val)))
    let waits : List Byte := if mget w.commits (pageAt pPWR 0) = none then [1] else [0]
    let limits := (List.range 6).map fun i => some (pldmInt size (req.drop 3) i)
    (open_ → exec (.getTid t bus req) s = say "GetTID" (0 :: leBytes 1 w.mgmt.tid) w) ∧
    (open_ → leAt req 0 1 = n → 1 ≤ n → n ≤ 254 → exec (.setTid t bus req) s =
      say "SetTID" [0] (setMgmt w fun m => { m with tid := n })) ∧
    (open_ → leAt req 5 1 = 2 ∨ leAt req 5 1 = 5 → exec (.getPldmVersion t bus req) s =
      say "GetPLDMVersion" ([0, 0, 0, 0, 0, 5] ++ leBytes 4 0xF1F3F000 ++ leBytes 4 (crc32 (leBytes 4 0xF1F3F000))) (free 4).2) ∧
    (open_ → leAt req 5 1 = 0 → exec (.getPldmVersion t bus req) s =
      say "GetPLDMVersion" ([0, 0, 0, 0, 0, 5] ++ (free 4).1 ++ leBytes 4 (crc32 (free 4).1)) (free 4).2) ∧
    (open_ → exec (.getPldmTypes t bus req) s = say "GetPLDMTypes" [0, 0x25, 0, 0, 0, 0, 0, 0, 0] w) ∧
    (open_ → (leAt req 0 1 = 0 → exec (.getPldmCommands t bus req) s =
        say "GetPLDMCommands" ([0, 0x3E] ++ List.replicate 31 0) w) ∧
      (leAt req 0 1 = 2 → exec (.getPldmCommands t bus req) s =
        say "GetPLDMCommands" ([0, 0x10, 0x0C, 0x0E, 0, 0, 0, 6, 0, 0, 0, 3] ++ List.replicate 22 0) w) ∧
      (leAt req 0 1 = 5 → exec (.getPldmCommands t bus req) s = say "GetPLDMCommands" (0 :: (free 32).1) (free 32).2)) ∧
    (open_ → leAt req 8 1 = 1 →
      let h := leAt req 0 4
      let k := min (leAt req 9 2) (Config.pdrLen h)
      exec (.getPdr t bus req) s = if Config.pdrLen h = 0 then say "GetPDR" [0x82] w
        else say "GetPDR" ([0] ++ leBytes 4 (Config.pdrNext h) ++ (if k = Config.pdrLen h then [0, 0, 0, 0, 5] else leBytes 4 k ++ [0]) ++
          leBytes 2 k ++ (List.range k).map (Config.pdr h)) w) ∧
    (open_ → exec (.getPdrRepositoryInfo t bus req) s = say "GetPDRRepositoryInfo" ([0, 0] ++ (free 39).1) (free 39).2) ∧
    (open_ → leAt req 0 2 = id →
      (isSensor id = true → mget w.mgmt.thresholds id = none → exec (.getSensorReading t bus req) s =
        say "GetSensorReading" ([0, 5, 0, 0, 1, 1, 1] ++ int32 (sensorValue w id)) w) ∧
      (isSensor id = true → mget w.mgmt.thresholds id = some x → exec (.getSensorReading t bus req) s =
        say "GetSensorReading" ([0, 5, 0, 0] ++ List.replicate 3 (BitVec.ofNat 8 (sensorState x.beyond)) ++ int32 (sensorValue w id)) w) ∧
      (isSensor id = true → leAt req 2 1 = size → size ≤ 5 → exec (.setSensorThresholds t bus req) s =
        say "SetSensorThresholds" [0] (setMgmt w fun m => { m with
          thresholds := mput m.thresholds id { limits := limits, beyond := beyondOf limits (sensorValue w id) } })) ∧
      (isSensor id = true → mget w.mgmt.thresholds id = some x → exec (.getSensorThresholds t bus req) s =
        say "GetSensorThresholds" ([0, 5] ++ x.limits.flatMap fun l => int32 (l.getD 0)) w) ∧
      (isSensor id = false → exec (.getSensorReading t bus req) s = say "GetSensorReading" [0x80] w ∧
        exec (.setSensorThresholds t bus req) s = say "SetSensorThresholds" [0x80] w ∧
        exec (.getSensorThresholds t bus req) s = say "GetSensorThresholds" [0x80] w)) ∧
    (open_ → leAt req 0 1 = n →
      (n = 0 → exec (.setEventReceiver t bus req) s =
        say "SetEventReceiver" [0] (setMgmt w fun m => { m with receiver := none, polling := false, events := [] })) ∧
      (1 ≤ n → n ≤ 3 → leAt req 1 1 = 0 → exec (.setEventReceiver t bus req) s =
        say "SetEventReceiver" [0] (setMgmt w fun m => { m with receiver := some (leAt req 2 1), polling := n == 2, events := [] }))) ∧
    (open_ → leAt req 6 2 = 0 →
      (w.mgmt.events = [] → exec (.pollForPlatformEventMessage t bus req) s =
        say "PollForPlatformEventMessage" ([0] ++ leBytes 1 w.mgmt.tid ++ [0, 0]) w) ∧
      (w.mgmt.events = (n, b) :: rest → exec (.pollForPlatformEventMessage t bus req) s =
        say "PollForPlatformEventMessage" ([0] ++ leBytes 1 w.mgmt.tid ++ leBytes 2 n ++ [0, 0, 0, 0, 5] ++ b.take 1 ++
          leBytes 4 (b.drop 1).length ++ b.drop 1 ++ leBytes 4 (crc32 (b.drop 1))) w)) ∧
    (open_ → leAt req 2 1 = size → size ≤ 5 → leAt req 3 (2 ^ (size / 2)) = val →
      (leAt req 0 2 = 1 → val < 65536 → exec (.setNumericEffecterValue t bus req) s =
        say "SetNumericEffecterValue" [0] (capWith 0 16)) ∧
      (leAt req 0 2 = 2 → val < 16 → exec (.setNumericEffecterValue t bus req) s =
        say "SetNumericEffecterValue" [0] (capWith 16 4))) ∧
    (open_ → leAt req 0 2 = 1 → exec (.getNumericEffecterValue t bus req) s = say "GetNumericEffecterValue"
      ([0, 2] ++ waits ++ leBytes 2 (bitsOf cap 0 16) ++ leBytes 2 (fld w pPWR R.PWR.CAP_MGMT 0 16)) w) ∧
    (open_ → leAt req 0 2 = 2 → exec (.getNumericEffecterValue t bus req) s = say "GetNumericEffecterValue"
      ([0, 2] ++ waits ++ leBytes 2 (bitsOf cap 16 4) ++ leBytes 2 (fld w pPWR R.PWR.CAP_MGMT 16 4)) w) ∧
    (∀ c ∈ [Instr.getTid t bus req, .setTid t bus req, .getPldmVersion t bus req, .getPldmTypes t bus req,
        .getPldmCommands t bus req, .getPdr t bus req, .getPdrRepositoryInfo t bus req, .getSensorReading t bus req,
        .setSensorThresholds t bus req, .getSensorThresholds t bus req, .setEventReceiver t bus req,
        .pollForPlatformEventMessage t bus req, .setNumericEffecterValue t bus req, .getNumericEffecterValue t bus req],
      busOpen v bus = false ∨ bus = .doe → exec c s = .next v)

/-- For every command c and state s with c at the front of the queue, step s is exec of c on s with the queue's rest. On
an empty queue the block idles and the state is unchanged, which is the model's choice (log entry 1).
(03_control_plane) -/
def Obligations.StepRunsTheFrontCommand : Prop :=
  ∀ (c : Instr) (rest : List Instr) (s : State),
    (s.pending = c :: rest → step s = exec c { s with pending := rest }) ∧ (s.pending = [] → step s = .next s)

/-- For every command and state, exec answers a next state. In it the queue of waiting commands is what it was, everything
sent before still stands at the head of the output in its order, and the number of the next open value has not fallen,
so that no open value is drawn twice. The output and the open values are the model's own (log entries 9 and 8).
(01_module; 03_control_plane) -/
def Obligations.EveryCommandAnswersKeepsTheQueueAndOnlyAppends : Prop :=
  ∀ (c : Instr) (s : State), ∃ t, exec c s = .next t ∧ t.pending = s.pending ∧ s.out <+: t.out ∧ s.fresh ≤ t.fresh

/-- For every state s that is well kept, if step s answers next t, t is well kept: every map the state holds directly
lists its keys rising, memory lists rising addresses and no byte equal to what an unlisted one reads, there are 37
cores, and the event log holds at most 65,536 entries. (R227; R553; R233) -/
def Obligations.EveryStepKeepsTheStateWellKept : Prop :=
  ∀ (s t : State), s.WellKept → step s = .next t → t.WellKept

/-- State.reset is well kept. In it every register in force and every shadow reads the reset value of its field table
(R10), the tick count is 0 (R57), memory lists nothing, and the queue, the output, the commands in hand and the event
log are empty. (R10; R57; R227; R553) -/
def Obligations.ResetStateIsWellKept : Prop :=
  State.reset.WellKept ∧ (∀ p off, getReg State.reset p off = resetReg p off ∧ getShadow State.reset p off = resetReg p off) ∧
    State.reset.tick.count = 0 ∧ (∀ a, memGet State.reset.mem a = 0) ∧ State.reset.pending = [] ∧ State.reset.out = [] ∧
    State.reset.cmds = [] ∧ State.reset.log = []

/-- In memory of canonical form, a byte set at an address reads back there and leaves every other address as it was; a
list of bytes written from an address upwards reads back as that list; an address outside it reads as before; bytes
cleared read 0 and no others change. (R5; R204; R229) -/
def Obligations.MemoryReadsWhatWasWritten : Prop :=
  ∀ (m : Memory) (a x hi : Nat) (b : Byte) (l : List Byte), m.wf = true →
    memGet (memSet m a b) x = (if x = a then b else memGet m x) ∧ memRead (memWrite m a l) a l.length = l ∧
    (x < a ∨ a + l.length ≤ x → memGet (memWrite m a l) x = memGet m x) ∧
    memGet (memClear m a hi) x = (if a ≤ x ∧ x < hi then 0 else memGet m x)

/-- In a state whose register map lists its keys rising, the register at a page and offset, once set, reads the value, and
every register at another BAR0 offset reads as before; shadows and memory do not change. The same holds of a shadow.
Setting a register to its reset value leaves the map without an entry for it. (R8; R10) -/
def Obligations.RegistersReadBack : Prop :=
  ∀ (p q : Page) (off o : Nat) (v : Dword) (s : State), mwf s.regs = true → mwf s.shadow = true →
    let t := setReg s p off v
    let u := setShadow s p off v
    getReg t p off = v ∧ getShadow u p off = v ∧ t = { s with regs := t.regs } ∧ u = { s with shadow := u.shadow } ∧
    (pageAt q o ≠ pageAt p off → getReg t q o = getReg s q o ∧ getShadow u q o = getShadow s q o) ∧
    mget (setReg s p off (resetReg p off)).regs (pageAt p off) = none
end

