-- ==== Sys2Proof/Laws/Ilesh.lean ====
section
/-! SUPPORT. What the common course of an Ilesh instruction does, said once: a ready instruction runs its own part, and its end
decides the next state; and what the flag operations do to each bit. -/

namespace Sys2Proof.Machine

/-- A running core is awake. -/
theorem wakeCore_running {i : Nat} {s : State} (h : (getCore s i).act = .running) : wakeCore i s = s := by
  simp [wakeCore, h]

/-- The general law: a ready instruction goes on to its own part, and its end decides the state. -/
theorem runIl_ready {i : Instr} {x : Ilx} {s : State} (body : Core → Nat → State → IlEnd) (h : IlReady x i s) :
    runIl i x body s = (match body (getCore s x.core) (ilNext x (getCore s x.core)) s with
      | .done c' t => ilDone x (getCore s x.core) c' t
      | .exc cause sub info => ilRaise x (getCore s x.core) cause sub info s
      | .excIn t cause sub info => ilRaise x (getCore s x.core) cause sub info t
      | .next c' t cause sub info => ilCharge x (enterException x.core cause sub info c'.pc
          (precRecord x (getCore s x.core).pc (getCore s x.core).cmp (some cause) (putCore x.core c' t)))) := by
  obtain ⟨⟨h1, h2, h3, h4, h5, h6⟩, h7⟩ := h
  have h1' : ¬ 37 ≤ x.core := by omega
  have h8 : spells i x = true := by simp [spells, h7]
  unfold runIl
  simp only [h1', h8, if_false, wakeCore_running h2, h2, h3, h4, h5, h6, h7]
  simp only [ne_eq, not_true, or_self, if_false, Bool.false_eq_true, reduceCtorEq, ilNext]
  cases body (getCore s x.core) (((getCore s x.core).pc + x.bytes.length) % 2 ^ 64) s <;>
    simp [ilDone, ilRaise, ilCharge, isStream]

/-- An instruction that ends with the core's new state retires. -/
theorem runIl_done {i : Instr} {x : Ilx} {s t : State} {c' : Core} {body : Core → Nat → State → IlEnd} (h : IlReady x i s)
    (hb : body (getCore s x.core) (ilNext x (getCore s x.core)) s = .done c' t) :
    runIl i x body s = ilDone x (getCore s x.core) c' t := by
  rw [runIl_ready body h, hb]

/-- An instruction that ends in an exception of its own leaves its effect undone. -/
theorem runIl_exc {i : Instr} {x : Ilx} {s : State} {cs sub info : Nat} {body : Core → Nat → State → IlEnd} (h : IlReady x i s)
    (hb : body (getCore s x.core) (ilNext x (getCore s x.core)) s = .exc cs sub info) :
    runIl i x body s = ilRaise x (getCore s x.core) cs sub info s := by
  rw [runIl_ready body h, hb]

/-- Fetched bytes that spell nothing raise ILLEGAL, whatever instruction the command names. -/
theorem runIl_illegal {i : Instr} {x : Ilx} {s : State} {body : Core → Nat → State → IlEnd} (h : IlFetched x s)
    (hd : ilDecode x = none) :
    runIl i x body s = ilRaise x (getCore s x.core) cause.ILLEGAL 0 (einfoBytes x) s := by
  obtain ⟨h1, h2, h3, h4, h5, h6⟩ := h
  have h1' : ¬ 37 ≤ x.core := by omega
  have h8 : spells i x = true := by simp [spells, hd]
  unfold runIl
  simp only [h1', h8, if_false, wakeCore_running h2, h2, h3, h4, h5, h6, hd]
  simp [ilRaise, ilCharge, isStream]

/-- A bit of a natural number is its test bit. -/
theorem bitOf_eq_testBit (w i : Nat) : bitOf w i = w.testBit i := by
  rw [bitOf, Nat.testBit_eq_decide_div_mod_eq]; rfl

/-- Replacing one bit, as a sum of what stands above it, the bit and what stands below. -/
theorem withBits_one (f i v : Nat) (hv : v < 2) :
    withBits f i 1 v = 2 ^ i * (f / 2 ^ i / 2 * 2 + v) + f % 2 ^ i := by
  have hd : bitsOf f i 1 = f / 2 ^ i % 2 := by simp [bitsOf]
  have e : withBits f i 1 v = f - f / 2 ^ i % 2 * 2 ^ i + v * 2 ^ i := by
    unfold withBits
    rw [hd, pow_one, Nat.mod_eq_of_lt hv]
  have h1 := Nat.div_add_mod f (2 ^ i)
  have h2 := Nat.div_add_mod (f / 2 ^ i) 2
  rw [e]
  generalize f / 2 ^ i = q at *
  generalize f % 2 ^ i = r at *
  generalize 2 ^ i = p at *
  have hq : p * q = q / 2 * 2 * p + q % 2 * p := by
    calc p * q = (2 * (q / 2) + q % 2) * p := by rw [h2, Nat.mul_comm]
      _ = _ := by ring
  have hr : p * (q / 2 * 2 + v) = q / 2 * 2 * p + v * p := by ring
  omega

/-- Replacing one bit leaves the others. -/
theorem testBit_withBits_one (f i j v : Nat) (hv : v < 2) :
    (withBits f i 1 v).testBit j = if j = i then v.testBit 0 else f.testBit j := by
  have hr := Nat.mod_lt f (Nat.two_pow_pos i)
  rw [withBits_one f i v hv]
  rcases Nat.lt_trichotomy j i with hj | hj | hj
  · rw [if_neg (by omega), Nat.testBit_two_pow_mul_add _ hr, if_pos hj, Nat.testBit_mod_two_pow]
    simp [hj]
  · subst hj
    rw [if_pos rfl, Nat.testBit_two_pow_mul_add _ hr, if_neg (by omega), Nat.sub_self, Nat.testBit_zero, Nat.testBit_zero]
    congr 1
    apply propext
    constructor <;> intro h <;> omega
  · rw [if_neg (by omega), Nat.testBit_two_pow_mul_add _ hr, if_neg (by omega)]
    obtain ⟨k, rfl⟩ : ∃ k, j = k + 1 + i := ⟨j - i - 1, by omega⟩
    rw [Nat.add_sub_cancel, Nat.testBit_succ, show (f / 2 ^ i / 2 * 2 + v) / 2 = f / 2 ^ i / 2 by omega, ← Nat.testBit_succ,
      Nat.testBit_div_two_pow]

/-- Setting a flag changes that bit alone. -/
theorem bitOf_flagSet (f i j : Nat) (b : Bool) : bitOf (flagSet f i b) j = if j = i then b else bitOf f j := by
  rw [bitOf_eq_testBit, bitOf_eq_testBit, flagSet, testBit_withBits_one _ _ _ _ (by cases b <;> decide)]
  cases b <;> rfl

/-- Setting one flag, as a change of the listed flags. -/
theorem FlagsAre.set {old new : Nat} {l : List (Nat × Bool)} (h : FlagsAre old new l) (i : Nat) (b : Bool) :
    FlagsAre old (flagSet new i b) ((i, b) :: l) := by
  intro j
  rw [bitOf_flagSet]
  by_cases e : j = i
  · subst e; simp [List.lookup]
  · have e' : (j == i) = false := by simpa using e
    simp only [e, if_false, List.lookup, e']
    exact h j

theorem FlagsAre.nil (f : Nat) : FlagsAre f f [] := by intro i; rfl

end Sys2Proof.Machine
end

