-- ==== Sys2Proof/Laws/Flags.lean ====
section
/-! SUPPORT. What the arithmetic of the cores computes: results, and which flags they set (R238, R240, R241). -/

namespace Sys2Proof.Machine

/-- A flag update that lists its changes from the last to the first reads the same in any order of distinct flags. -/
theorem FlagsAre.congr {old new : Nat} {l m : List (Nat × Bool)} (h : FlagsAre old new l)
    (e : ∀ i, l.lookup i = m.lookup i) : FlagsAre old new m := by
  intro i; rw [← e i]; exact h i

/-- The carry flag as a number. -/
theorem carryIn_eq (c : Core) : bitsOf c.flags fC 1 = if bitOf c.flags fC then 1 else 0 := by
  unfold bitsOf bitOf
  simp only [pow_zero, Nat.div_one, pow_one, beq_iff_eq]
  split <;> omega

/-- Operand widths. -/
theorem widthBits_cases (w : Nat) : widthBits w = 8 ∨ widthBits w = 16 ∨ widthBits w = 32 ∨ widthBits w = 64 := by
  unfold widthBits; split_ifs <;> simp

/-- The overflow test of an addition is signed overflow. -/
theorem add_over {n a b cin : Nat} (hn : n = 8 ∨ n = 16 ∨ n = 32 ∨ n = 64) (ha : a < 2 ^ n) (hb : b < 2 ^ n) (hc : cin ≤ 1) :
    (topBit n a == topBit n b && topBit n ((a + b + cin) % 2 ^ n) != topBit n a)
      = signedOver n (signed n a + signed n b + cin) := by
  rcases hn with rfl | rfl | rfl | rfl <;> simp only [topBit, bitOf, signedOver, signed, Nat.reducePow, Nat.reduceSub] at * <;>
    (rw [Bool.eq_iff_iff]; simp only [Bool.and_eq_true, beq_iff_eq, bne_iff_ne, ne_eq, Bool.or_eq_true, decide_eq_true_eq]
     split_ifs <;> simp only [beq_eq_beq] at * <;> norm_num at * <;> omega)

/-- The overflow test of a subtraction is signed overflow. -/
theorem sub_over {n a b bin : Nat} (hn : n = 8 ∨ n = 16 ∨ n = 32 ∨ n = 64) (ha : a < 2 ^ n) (hb : b < 2 ^ n) (hc : bin ≤ 1) :
    (topBit n a != topBit n b && topBit n ((a + 2 * 2 ^ n - b - bin) % 2 ^ n) != topBit n a)
      = signedOver n (signed n a - signed n b - bin) := by
  rcases hn with rfl | rfl | rfl | rfl <;> simp only [topBit, bitOf, signedOver, signed, Nat.reducePow, Nat.reduceSub] at * <;>
    (rw [Bool.eq_iff_iff]; simp only [Bool.and_eq_true, bne_iff_ne, ne_eq, Bool.or_eq_true, decide_eq_true_eq]
     split_ifs <;> simp only [beq_eq_beq, beq_iff_eq] at * <;> norm_num at * <;> omega)

/-- R238 for ADD, ADC and ADDI. -/
theorem aluAdd_flags {n a b cin : Nat} (hn : n = 8 ∨ n = 16 ∨ n = 32 ∨ n = 64) (ha : a < 2 ^ n) (hb : b < 2 ^ n)
    (hc : cin ≤ 1) (f : Nat) :
    FlagsAre f (aluAdd n a b cin f).2 [(fC, decide (2 ^ n ≤ a + b + cin)), (fH, decide (16 ≤ a % 16 + b % 16 + cin)),
      (fV, signedOver n (signed n a + signed n b + cin)), (fZ, (a + b + cin) % 2 ^ n == 0),
      (fN, bitOf ((a + b + cin) % 2 ^ n) (n - 1))] := by
  rw [← add_over hn ha hb hc]
  refine ((((((FlagsAre.nil f).set fC _).set fH _).set fV _).set fZ _).set fN _).congr fun i => ?_
  rcases i with _ | _ | _ | _ | _ | _ | i <;> rfl

/-- R238 for SUB, SBB and CMP. -/
theorem aluSub_flags {n a b bin : Nat} (hn : n = 8 ∨ n = 16 ∨ n = 32 ∨ n = 64) (ha : a < 2 ^ n) (hb : b < 2 ^ n)
    (hc : bin ≤ 1) (f : Nat) :
    FlagsAre f (aluSub n a b bin f).2 [(fC, decide (a < b + bin)), (fH, decide (a % 16 < b % 16 + bin)),
      (fV, signedOver n (signed n a - signed n b - bin)), (fZ, (aluSub n a b bin f).1 == 0),
      (fN, bitOf (aluSub n a b bin f).1 (n - 1))] := by
  rw [← sub_over hn ha hb hc]
  refine ((((((FlagsAre.nil f).set fC _).set fH _).set fV _).set fZ _).set fN _).congr fun i => ?_
  rcases i with _ | _ | _ | _ | _ | _ | i <;> rfl

theorem aluSub_lt (n a b bin f : Nat) : (aluSub n a b bin f).1 < 2 ^ n := Nat.mod_lt _ (Nat.two_pow_pos n)

/-- The difference, read back as a sum. -/
theorem aluSub_value {n a b bin : Nat} (hn : n = 8 ∨ n = 16 ∨ n = 32 ∨ n = 64) (ha : a < 2 ^ n) (hb : b < 2 ^ n) (hc : bin ≤ 1)
    (f : Nat) : ((aluSub n a b bin f).1 + b + bin) % 2 ^ n = a := by
  rcases hn with rfl | rfl | rfl | rfl <;> simp only [aluSub] <;> norm_num at * <;> omega

/-- AND, OR, XOR, TST: Z and N of the result, C and V cleared. -/
theorem aluLogic_flags (n r f : Nat) :
    FlagsAre f (aluLogic n r f).2 [(fC, false), (fV, false), (fZ, r == 0), (fN, bitOf r (n - 1))] := by
  refine (((((FlagsAre.nil f).set fC _).set fV _).set fZ _).set fN _).congr fun i => ?_
  rcases i with _ | _ | _ | _ | _ | _ | i <;> rfl

/-- Z and N of a result. -/
theorem setZN_flags (n r f : Nat) : FlagsAre f (setZN n r f) [(fZ, r == 0), (fN, bitOf r (n - 1))] := by
  refine (((FlagsAre.nil f).set fZ _).set fN _).congr fun i => ?_
  rcases i with _ | _ | _ | _ | _ | _ | i <;> rfl

end Sys2Proof.Machine
end

