-- ==== Sys2Proof/Laws/Decimal.lean ====
section
/-! SUPPORT. Packed BCD: what the digit loop of R240 computes, and that conversion to BCD and back agree (R241). -/

namespace Sys2Proof.Machine

theorem digit_shift (v i j : Nat) : digit v (i + j) = digit (v / 16 ^ i) j := by
  simp only [digit, bitsOf, Nat.mul_add, pow_add, ← Nat.div_div_eq_div_mul]
  rw [show (2 : Nat) ^ (4 * i) = 16 ^ i by rw [pow_mul]; norm_num]

theorem ofBcd_succ (n v : Nat) : ofBcd (n + 1) v = v % 16 + 10 * ofBcd n (v / 16) := rfl

theorem digit_zero (v : Nat) : digit v 0 = v % 16 := by simp [digit, bitsOf]

theorem bcdOk_succ (n v : Nat) : bcdOk (n + 1) v = (decide (v % 16 ≤ 9) && bcdOk n (v / 16)) := by
  simp only [bcdOk, List.range_succ_eq_map, List.all_cons, List.all_map, digit_zero]
  congr 1
  apply List.all_congr rfl
  intro i
  have := digit_shift v 1 i
  simp only [pow_one] at this
  simp only [Function.comp, Nat.succ_eq_add_one, Nat.add_comm i 1, this]

theorem ofBcd_lt {n v : Nat} (h : bcdOk n v = true) : ofBcd n v < 10 ^ n := by
  induction n generalizing v with
  | zero => simp [ofBcd]
  | succ n ih =>
    rw [bcdOk_succ, Bool.and_eq_true, decide_eq_true_eq] at h
    have := ih h.2
    rw [ofBcd_succ, pow_succ]
    omega

/-- The digit loop adds or subtracts the remaining digits, as numbers in base ten. -/
theorem bcdLoop_spec (a b : Nat) (sub : Bool) (n i k : Nat) (hk : k ≤ 1) (ha : bcdOk n (a / 16 ^ i) = true)
    (hb : bcdOk n (b / 16 ^ i) = true) :
    ∃ r, (bcdLoop a b sub n i k).1 = 16 ^ i * r ∧ r < 16 ^ n ∧ bcdOk n r = true ∧ (bcdLoop a b sub n i k).2 ≤ 1 ∧
      (if sub then ofBcd n r + ofBcd n (b / 16 ^ i) + k = ofBcd n (a / 16 ^ i) + 10 ^ n * (bcdLoop a b sub n i k).2
       else ofBcd n r + 10 ^ n * (bcdLoop a b sub n i k).2 = ofBcd n (a / 16 ^ i) + ofBcd n (b / 16 ^ i) + k) := by
  induction n generalizing i k with
  | zero => exact ⟨0, by simp [bcdLoop], by simp, by simp [bcdOk], by simpa [bcdLoop] using hk, by cases sub <;> simp [bcdLoop, ofBcd]⟩
  | succ n ih =>
    rw [bcdOk_succ, Bool.and_eq_true, decide_eq_true_eq, Nat.div_div_eq_div_mul, ← pow_succ] at ha hb
    have da : digit a i = a / 16 ^ i % 16 := by have := digit_shift a i 0; simpa [digit_zero] using this
    have db : digit b i = b / 16 ^ i % 16 := by have := digit_shift b i 0; simpa [digit_zero] using this
    simp only [bcdLoop, da, db]
    generalize hA : a / 16 ^ i % 16 = x at *
    generalize hB : b / 16 ^ i % 16 = y at *
    have oa : ofBcd (n + 1) (a / 16 ^ i) = x + 10 * ofBcd n (a / 16 ^ (i + 1)) := by
      rw [ofBcd_succ, hA, Nat.div_div_eq_div_mul, ← pow_succ]
    have ob : ofBcd (n + 1) (b / 16 ^ i) = y + 10 * ofBcd n (b / 16 ^ (i + 1)) := by
      rw [ofBcd_succ, hB, Nat.div_div_eq_div_mul, ← pow_succ]
    rw [oa, ob]
    have step : ∀ (t k' : Nat), k' ≤ 1 → t ≤ 9 →
        (if sub then t + y + k = x + 10 * k' else t + 10 * k' = x + y + k) →
        ∃ r, t * 16 ^ i + (bcdLoop a b sub n (i + 1) k').1 = 16 ^ i * r ∧ r < 16 ^ (n + 1) ∧ bcdOk (n + 1) r = true ∧
          (bcdLoop a b sub n (i + 1) k').2 ≤ 1 ∧
          (if sub then ofBcd (n + 1) r + (y + 10 * ofBcd n (b / 16 ^ (i + 1))) + k
              = (x + 10 * ofBcd n (a / 16 ^ (i + 1))) + 10 ^ (n + 1) * (bcdLoop a b sub n (i + 1) k').2
            else ofBcd (n + 1) r + 10 ^ (n + 1) * (bcdLoop a b sub n (i + 1) k').2
              = (x + 10 * ofBcd n (a / 16 ^ (i + 1))) + (y + 10 * ofBcd n (b / 16 ^ (i + 1))) + k) := by
      intro t k' hk' ht hs
      obtain ⟨r, h1, h2, h3, h4, h5⟩ := ih (i + 1) k' hk' ha.2 hb.2
      have hm : (t + 16 * r) % 16 = t := by omega
      have hd : (t + 16 * r) / 16 = r := by omega
      refine ⟨t + 16 * r, ?_, ?_, ?_, h4, ?_⟩
      · rw [h1, pow_succ]; ring
      · rw [pow_succ]; omega
      · rw [bcdOk_succ, hm, hd, h3]; simpa using ht
      · rw [ofBcd_succ, hm, hd]
        generalize (bcdLoop a b sub n (i + 1) k').2 = c at *
        have e : 10 ^ (n + 1) * c = 10 * (10 ^ n * c) := by rw [pow_succ]; ring
        cases sub <;> simp only [Bool.false_eq_true, if_false, if_true] at * <;> rw [e] <;> omega
    cases sub with
    | true =>
      simp only [if_true] at step ⊢
      by_cases hlt : ((x : Int) - y - k) < 0
      · simp only [hlt, if_true]
        exact step _ 1 (by omega) (by omega) (by omega)
      · simp only [hlt, if_false]
        exact step _ 0 (by omega) (by omega) (by omega)
    | false =>
      simp only [Bool.false_eq_true, if_false] at step ⊢
      by_cases hlt : 9 < ((x : Int) + y + k)
      · simp only [hlt, if_true]
        exact step _ 1 (by omega) (by omega) (by omega)
      · simp only [hlt, if_false]
        exact step _ 0 (by omega) (by omega) (by omega)

/-- A decimal addition: the sum modulo 10^n, and whether it goes beyond n digits. -/
theorem bcdOp_add {n a b k : Nat} (hk : k ≤ 1) (ha : bcdOk n a = true) (hb : bcdOk n b = true) :
    (bcdOp n a b false k).1 < 16 ^ n ∧ bcdOk n (bcdOp n a b false k).1 = true ∧
    ofBcd n (bcdOp n a b false k).1 = (ofBcd n a + ofBcd n b + k) % 10 ^ n ∧
    ((bcdOp n a b false k).2.1 == 1) = decide (10 ^ n ≤ ofBcd n a + ofBcd n b + k) := by
  obtain ⟨r, h1, h2, h3, h4, h5⟩ := bcdLoop_spec a b false n 0 k hk (by simpa using ha) (by simpa using hb)
  simp only [pow_zero, Nat.one_mul, Nat.div_one, Bool.false_eq_true, if_false] at h1 h5
  have e1 : (bcdOp n a b false k).1 = r := h1
  have e2 : (bcdOp n a b false k).2.1 = (bcdLoop a b false n 0 k).2 := rfl
  rw [e1, e2]
  have hr := ofBcd_lt h3
  generalize (bcdLoop a b false n 0 k).2 = c at *
  refine ⟨h2, h3, ?_, ?_⟩
  · rw [← h5, Nat.add_mul_mod_self_left, Nat.mod_eq_of_lt hr]
  · rw [← h5, Bool.eq_iff_iff, beq_iff_eq, decide_eq_true_eq]
    have : c = 0 ∨ c = 1 := by omega
    rcases this with rfl | rfl <;> simp <;> omega

/-- A decimal subtraction: the difference modulo 10^n, and whether it borrows. -/
theorem bcdOp_sub {n a b k : Nat} (hk : k ≤ 1) (ha : bcdOk n a = true) (hb : bcdOk n b = true) :
    (bcdOp n a b true k).1 < 16 ^ n ∧ bcdOk n (bcdOp n a b true k).1 = true ∧
    (ofBcd n (bcdOp n a b true k).1 + ofBcd n b + k) % 10 ^ n = ofBcd n a ∧
    ((bcdOp n a b true k).2.1 == 1) = decide (ofBcd n a < ofBcd n b + k) := by
  obtain ⟨r, h1, h2, h3, h4, h5⟩ := bcdLoop_spec a b true n 0 k hk (by simpa using ha) (by simpa using hb)
  simp only [pow_zero, Nat.one_mul, Nat.div_one, if_true] at h1 h5
  have e1 : (bcdOp n a b true k).1 = r := h1
  have e2 : (bcdOp n a b true k).2.1 = (bcdLoop a b true n 0 k).2 := rfl
  rw [e1, e2]
  have hr := ofBcd_lt h3
  have hA := ofBcd_lt ha
  generalize (bcdLoop a b true n 0 k).2 = c at *
  refine ⟨h2, h3, ?_, ?_⟩
  · rw [h5, Nat.add_mul_mod_self_left, Nat.mod_eq_of_lt hA]
  · rw [Bool.eq_iff_iff, beq_iff_eq, decide_eq_true_eq]
    have : c = 0 ∨ c = 1 := by omega
    rcases this with rfl | rfl <;> simp at * <;> omega

/-- Packed BCD of n digits is determined by its value. -/
theorem ofBcd_inj {n v w : Nat} (hv : v < 16 ^ n) (hw : w < 16 ^ n) (ov : bcdOk n v = true) (ow : bcdOk n w = true)
    (h : ofBcd n v = ofBcd n w) : v = w := by
  induction n generalizing v w with
  | zero => simp at hv hw; omega
  | succ n ih =>
    rw [bcdOk_succ, Bool.and_eq_true, decide_eq_true_eq] at ov ow
    rw [ofBcd_succ, ofBcd_succ] at h
    rw [pow_succ] at hv hw
    have := ih (v := v / 16) (w := w / 16) (by omega) (by omega) ov.2 ow.2 (by omega)
    omega

theorem ofBcd_zero (n : Nat) : ofBcd n 0 = 0 := by induction n with | zero => rfl | succ n ih => simp [ofBcd_succ, ih]

theorem bcdOk_zero (n : Nat) : bcdOk n 0 = true := by induction n with | zero => rfl | succ n ih => simp [bcdOk_succ, ih]

/-- A difference of 0 tells equal operands. -/
theorem bcdOp_sub_zero {n a b : Nat} (la : a < 16 ^ n) (lb : b < 16 ^ n) (ha : bcdOk n a = true) (hb : bcdOk n b = true) :
    ((bcdOp n a b true 0).1 == 0) = (a == b) := by
  obtain ⟨h1, h2, h3, -⟩ := bcdOp_sub (k := 0) (by omega) ha hb
  have oa := ofBcd_lt ha
  have ob := ofBcd_lt hb
  have ov := ofBcd_lt h2
  rw [Bool.eq_iff_iff, beq_iff_eq, beq_iff_eq]
  constructor
  · intro e
    rw [e, ofBcd_zero, Nat.zero_add, Nat.add_zero, Nat.mod_eq_of_lt ob] at h3
    exact ofBcd_inj la lb ha hb h3.symm
  · intro e
    subst e
    refine ofBcd_inj h1 (Nat.pos_of_ne_zero (by positivity)) h2 (bcdOk_zero n) ?_
    rw [ofBcd_zero]
    generalize ofBcd n (bcdOp n a a true 0).1 = v at *
    generalize ofBcd n a = w at *
    rw [Nat.add_zero] at h3
    by_contra hne
    by_cases hc : v + w < 10 ^ n
    · rw [Nat.mod_eq_of_lt hc] at h3; omega
    · rw [Nat.mod_eq_sub_mod (by omega), Nat.mod_eq_of_lt (by omega)] at h3; omega

/-- The half carry is the carry of digit 0. -/
theorem bcdOp_half (n a b k : Nat) (sub : Bool) :
    ((bcdOp n a b sub k).2.2 == 1) = (if sub then decide (a % 16 < b % 16 + k) else decide (10 ≤ a % 16 + b % 16 + k)) := by
  simp only [bcdOp, bcdLoop, digit_zero]
  cases sub <;> simp only [if_true, if_false, Bool.false_eq_true] <;> rw [Bool.eq_iff_iff] <;> split <;> simp at * <;> omega

/-- A value that fits the digits becomes BCD and reads back. -/
theorem toBcd_spec {n v : Nat} (h : v < 10 ^ n) : toBcd n v < 16 ^ n ∧ bcdOk n (toBcd n v) = true ∧ ofBcd n (toBcd n v) = v := by
  induction n generalizing v with
  | zero => simp [toBcd, bcdOk, ofBcd] at *; omega
  | succ n ih =>
    rw [pow_succ] at h
    obtain ⟨h1, h2, h3⟩ := ih (v := v / 10) (by omega)
    have hm : (v % 10 + 16 * toBcd n (v / 10)) % 16 = v % 10 := by omega
    have hd : (v % 10 + 16 * toBcd n (v / 10)) / 16 = toBcd n (v / 10) := by omega
    refine ⟨?_, ?_, ?_⟩
    · rw [toBcd, pow_succ]; omega
    · rw [toBcd, bcdOk_succ, hm, hd, h2]; simp; omega
    · rw [toBcd, ofBcd_succ, hm, hd, h3]; omega

end Sys2Proof.Machine
end

