-- ==== Sys2Proof/Laws/Exec.lean ====
section
/-! SUPPORT. What `exec` calls for each command: one equation per constructor, so that no proof unfolds the dispatch. -/

namespace Sys2Proof.Machine

theorem exec_junctionSample {t tj s} : exec (.junctionSample t tj) s = execJunctionSample t tj s := rfl

theorem exec_thermStepLeave {t s} : exec (.thermStepLeave t) s = execThermStepLeave t s := rfl

theorem exec_mgmtPowerOn {t s} : exec (.mgmtPowerOn t) s = execMgmtPowerOn t s := rfl

theorem exec_mgmtReset {t s} : exec (.mgmtReset t) s = execMgmtReset t s := rfl

theorem exec_mainSample {t v s} : exec (.mainSample t v) s = execMainSample t v s := rfl

theorem exec_sagStep1Leave {t s} : exec (.sagStep1Leave t) s = execSagStep1Leave t s := rfl

theorem exec_quiesceEnd {t s} : exec (.quiesceEnd t) s = execQuiesceEnd t s := rfl

theorem exec_shutdownRailsOff {t s} : exec (.shutdownRailsOff t) s = execShutdownRailsOff t s := rfl

theorem exec_inputOvervoltage {t s} : exec (.inputOvervoltage t) s = execInputOvervoltage t s := rfl

theorem exec_overvoltageRestart {t s} : exec (.overvoltageRestart t) s = execOvervoltageRestart t s := rfl

theorem exec_mainRestart {t s} : exec (.mainRestart t) s = execMainRestart t s := rfl

theorem exec_auxSample {t v s} : exec (.auxSample t v) s = execAuxSample t v s := rfl

theorem exec_alwaysOnStart {t v refused s} : exec (.alwaysOnStart t v refused) s = execAlwaysOnStart t v refused s := rfl

theorem exec_alwaysOnStop {t s} : exec (.alwaysOnStop t) s = execAlwaysOnStop t s := rfl

theorem exec_mainStageEnable {t s} : exec (.mainStageEnable t) s = execMainStageEnable t s := rfl

theorem exec_railsGood {t s} : exec (.railsGood t) s = execRailsGood t s := rfl

theorem exec_railFail {t sensor s} : exec (.railFail t sensor) s = execRailFail t sensor s := rfl

theorem exec_railRetry {t s} : exec (.railRetry t) s = execRailRetry t s := rfl

theorem exec_resetNLow {since t s} : exec (.resetNLow since t) s = execResetNLow since t s := rfl

theorem exec_resetNRise {t s} : exec (.resetNRise t) s = execResetNRise t s := rfl

theorem exec_mainResetTakeEffect {t s} : exec (.mainResetTakeEffect t) s = execMainResetTakeEffect t s := rfl

theorem exec_powerSample {t w s} : exec (.powerSample t w) s = execPowerSample t w s := rfl

theorem exec_capExcursionLimit {t s} : exec (.capExcursionLimit t) s = execCapExcursionLimit t s := rfl

theorem exec_droopTrip {t tile mv s} : exec (.droopTrip t tile mv) s = execDroopTrip t tile mv s := rfl

theorem exec_droopRelease {t tile s} : exec (.droopRelease t tile) s = execDroopRelease t tile s := rfl

theorem exec_configRequest {t link func bme w s} :
    exec (.configRequest t link func bme w) s = execConfigRequest t link func bme w s := rfl

theorem exec_tickEdge {t s} : exec (.tickEdge t) s = execTickEdge t s := rfl

theorem exec_itemExpiry {tile eng cyc left s} :
    exec (.itemExpiry tile eng cyc left) s = execItemExpiry tile eng cyc left s := rfl

theorem exec_tickinEdge {t s} : exec (.tickinEdge t) s = execTickinEdge t s := rfl

theorem exec_ptpMessage {t port domain sync offset ptpNs s} :
    exec (.ptpMessage t port domain sync offset ptpNs) s = execPtpMessage t port domain sync offset ptpNs s := rfl

theorem exec_srcLost {t src s} : exec (.srcLost t src) s = execSrcLost t src s := rfl

theorem exec_holdoverExpiry {t s} : exec (.holdoverExpiry t) s = execHoldoverExpiry t s := rfl

theorem exec_tickCountLoRead {r s} : exec (.tickCountLoRead r) s = execTickCountLoRead r s := rfl

theorem exec_blkCommit {t p s} : exec (.blkCommit t p) s = execBlkCommit t p s := rfl

theorem exec_halyardFire {t v s} : exec (.halyardFire t v) s = execHalyardFire t v s := rfl

theorem exec_halyardIn {t s} : exec (.halyardIn t) s = execHalyardIn t s := rfl

theorem exec_halyardMgmtTrigger {t s} : exec (.halyardMgmtTrigger t) s = execHalyardMgmtTrigger t s := rfl

theorem exec_snapValidClear {p s} : exec (.snapValidClear p) s = execSnapValidClear p s := rfl

theorem exec_badAccess {func addr size write s} :
    exec (.badAccess func addr size write) s = execBadAccess func addr size write s := rfl

theorem exec_registerWrite {a addr v hi s} : exec (.registerWrite a addr v hi) s = execRegisterWrite a addr v hi s := rfl

theorem exec_pennantWrite {a p v s} : exec (.pennantWrite a p v) s = execPennantWrite a p v s := rfl

theorem exec_pennantForce {a p v s} : exec (.pennantForce a p v) s = execPennantForce a p v s := rfl

theorem exec_glbDrvAbi {v s} : exec (.glbDrvAbi v) s = execGlbDrvAbi v s := rfl

theorem exec_funcDrvAbi {func v s} : exec (.funcDrvAbi func v) s = execFuncDrvAbi func v s := rfl

theorem exec_blkEnable {t a p s} : exec (.blkEnable t a p) s = execBlkEnable t a p s := rfl

theorem exec_blkDisable {t a p s} : exec (.blkDisable t a p) s = execBlkDisable t a p s := rfl

theorem exec_blkStopped {t p s} : exec (.blkStopped t p) s = execBlkStopped t p s := rfl

theorem exec_blkFence {t a p s} : exec (.blkFence t a p) s = execBlkFence t a p s := rfl

theorem exec_blkUnfence {t a p s} : exec (.blkUnfence t a p) s = execBlkUnfence t a p s := rfl

theorem exec_blkSoftReset {t a p s} : exec (.blkSoftReset t a p) s = execBlkSoftReset t a p s := rfl

theorem exec_softResetDone {t p s} : exec (.softResetDone t p) s = execSoftResetDone t p s := rfl

theorem exec_sqTail {func pair index s} : exec (.sqTail func pair index) s = execSqTail func pair index s := rfl

theorem exec_cqHead {func pair index s} : exec (.cqHead func pair index) s = execCqHead func pair index s := rfl

theorem exec_commandFetch {func pair dw s} : exec (.commandFetch func pair dw) s = execCommandFetch func pair dw s := rfl

theorem exec_cmdNop {k s} : exec (.cmdNop k) s = execCmdNop k s := rfl

theorem exec_createQpair {k s} : exec (.createQpair k) s = execCreateQpair k s := rfl

theorem exec_deleteQpair {k s} : exec (.deleteQpair k) s = execDeleteQpair k s := rfl

theorem exec_qpairDeleted {func pair s} : exec (.qpairDeleted func pair) s = execQpairDeleted func pair s := rfl

theorem exec_queryObject {k s} : exec (.queryObject k) s = execQueryObject k s := rfl

theorem exec_ssetCreate {k desc s} : exec (.ssetCreate k desc) s = execSsetCreate k desc s := rfl

theorem exec_ssetAddShards {k entries s} : exec (.ssetAddShards k entries) s = execSsetAddShards k entries s := rfl

theorem exec_ssetStart {k s} : exec (.ssetStart k) s = execSsetStart k s := rfl

theorem exec_ssetPause {k s} : exec (.ssetPause k) s = execSsetPause k s := rfl

theorem exec_ssetResume {k s} : exec (.ssetResume k) s = execSsetResume k s := rfl

theorem exec_ssetDrain {k s} : exec (.ssetDrain k) s = execSsetDrain k s := rfl

theorem exec_ssetDestroy {k s} : exec (.ssetDestroy k) s = execSsetDestroy k s := rfl

theorem exec_ctxMove {k s} : exec (.ctxMove k) s = execCtxMove k s := rfl

theorem exec_tileVacate {k s} : exec (.tileVacate k) s = execTileVacate k s := rfl

theorem exec_tileAdmit {k s} : exec (.tileAdmit k) s = execTileAdmit k s := rfl

theorem exec_resvCfg {k s} : exec (.resvCfg k) s = execResvCfg k s := rfl

theorem exec_sampleStart {num s} : exec (.sampleStart num) s = execSampleStart num s := rfl

theorem exec_packSeal {num s} : exec (.packSeal num) s = execPackSeal num s := rfl

theorem exec_sourceRead {num off bytes dur s} :
    exec (.sourceRead num off bytes dur) s = execSourceRead num off bytes dur s := rfl

theorem exec_demuxPacket {num item s} : exec (.demuxPacket num item) s = execDemuxPacket num item s := rfl

theorem exec_decode {tile e motion s} : exec (.decode tile e motion) s = execDecode tile e motion s := rfl

theorem exec_parse {tile e motion s} : exec (.parse tile e motion) s = execParse tile e motion s := rfl

theorem exec_releaseSlot {tile s} : exec (.releaseSlot tile) s = execReleaseSlot tile s := rfl

theorem exec_shape {tile cyc s} : exec (.shape tile cyc) s = execShape tile cyc s := rfl

theorem exec_run {tile cyc s} : exec (.run tile cyc) s = execRun tile cyc s := rfl

theorem exec_emitText {tile late s} : exec (.emitText tile late) s = execEmitText tile late s := rfl

theorem exec_itemLimit {tile eng e s} : exec (.itemLimit tile eng e) s = execItemLimit tile eng e s := rfl

theorem exec_tensorItemLimit {tile used late s} :
    exec (.tensorItemLimit tile used late) s = execTensorItemLimit tile used late s := rfl

theorem exec_shpProfileLoad {k bytes s} : exec (.shpProfileLoad k bytes) s = execShpProfileLoad k bytes s := rfl

theorem exec_shpProfileDrop {k s} : exec (.shpProfileDrop k) s = execShpProfileDrop k s := rfl

theorem exec_shardProbe {k entry e s} : exec (.shardProbe k entry e) s = execShardProbe k entry e s := rfl

theorem exec_shardProbeTimeout {k t s} : exec (.shardProbeTimeout k t) s = execShardProbeTimeout k t s := rfl

theorem exec_graphLoad {k image s} : exec (.graphLoad k image) s = execGraphLoad k image s := rfl

theorem exec_weightCopyDone {tile g s} : exec (.weightCopyDone tile g) s = execWeightCopyDone tile g s := rfl

theorem exec_graphDrop {k s} : exec (.graphDrop k) s = execGraphDrop k s := rfl

theorem exec_refillEnd {tile s} : exec (.refillEnd tile) s = execRefillEnd tile s := rfl

theorem exec_sramScrub {tile off pass s} : exec (.sramScrub tile off pass) s = execSramScrub tile off pass s := rfl

theorem exec_illegal {x s} : exec (.illegal x) s = execIllegal x s := rfl

theorem exec_nop {x s} : exec (.nop x) s = execNop x s := rfl

theorem exec_fence {x s} : exec (.fence x) s = execFence x s := rfl

theorem exec_trap {x imm s} : exec (.trap x imm) s = execTrap x imm s := rfl

theorem exec_mov {x d r s} : exec (.mov x d r) s = execMov x d r s := rfl

theorem exec_movi {x d imm s} : exec (.movi x d imm) s = execMovi x d imm s := rfl

theorem exec_movi64 {x d imm s} : exec (.movi64 x d imm) s = execMovi64 x d imm s := rfl

theorem exec_add {x d r s} : exec (.add x d r) s = execAdd x d r s := rfl

theorem exec_adc {x d r s} : exec (.adc x d r) s = execAdc x d r s := rfl

theorem exec_sub {x d r s} : exec (.sub x d r) s = execSub x d r s := rfl

theorem exec_sbb {x d r s} : exec (.sbb x d r) s = execSbb x d r s := rfl

theorem exec_and {x d r s} : exec (.and x d r) s = execAnd x d r s := rfl

theorem exec_or {x d r s} : exec (.or x d r) s = execOr x d r s := rfl

theorem exec_xor {x d r s} : exec (.xor x d r) s = execXor x d r s := rfl

theorem exec_cmp {x d r s} : exec (.cmp x d r) s = execCmp x d r s := rfl

theorem exec_tst {x d r s} : exec (.tst x d r) s = execTst x d r s := rfl

theorem exec_addi {x d imm s} : exec (.addi x d imm) s = execAddi x d imm s := rfl

theorem exec_cmpi {x d imm s} : exec (.cmpi x d imm) s = execCmpi x d imm s := rfl

theorem exec_andi {x d imm s} : exec (.andi x d imm) s = execAndi x d imm s := rfl

theorem exec_shl {x d r s} : exec (.shl x d r) s = execShl x d r s := rfl

theorem exec_shr {x d r s} : exec (.shr x d r) s = execShr x d r s := rfl

theorem exec_sar {x d r s} : exec (.sar x d r) s = execSar x d r s := rfl

theorem exec_rol {x d r s} : exec (.rol x d r) s = execRol x d r s := rfl

theorem exec_shli {x d k s} : exec (.shli x d k) s = execShli x d k s := rfl

theorem exec_shri {x d k s} : exec (.shri x d k) s = execShri x d k s := rfl

theorem exec_sari {x d k s} : exec (.sari x d k) s = execSari x d k s := rfl

theorem exec_roli {x d k s} : exec (.roli x d k) s = execRoli x d k s := rfl

theorem exec_mul {x d r s} : exec (.mul x d r) s = execMul x d r s := rfl

theorem exec_mulhu {x d r s} : exec (.mulhu x d r) s = execMulhu x d r s := rfl

theorem exec_divu {x d r s} : exec (.divu x d r) s = execDivu x d r s := rfl

theorem exec_remu {x d r s} : exec (.remu x d r) s = execRemu x d r s := rfl

theorem exec_divs {x d r s} : exec (.divs x d r) s = execDivs x d r s := rfl

theorem exec_rems {x d r s} : exec (.rems x d r) s = execRems x d r s := rfl

theorem exec_ld {x d b disp s} : exec (.ld x d b disp) s = execLd x d b disp s := rfl

theorem exec_st {x r b disp s} : exec (.st x r b disp) s = execSt x r b disp s := rfl

theorem exec_lds {x d b disp s} : exec (.lds x d b disp) s = execLds x d b disp s := rfl

theorem exec_xchg {x d r s} : exec (.xchg x d r) s = execXchg x d r s := rfl

theorem exec_cas {x d b r s} : exec (.cas x d b r) s = execCas x d b r s := rfl

theorem exec_amoadd {x d r s} : exec (.amoadd x d r) s = execAmoadd x d r s := rfl

theorem exec_br {x disp s} : exec (.br x disp) s = execBr x disp s := rfl

theorem exec_bc {x cond disp s} : exec (.bc x cond disp) s = execBc x cond disp s := rfl

theorem exec_jmp {x r s} : exec (.jmp x r) s = execJmp x r s := rfl

theorem exec_call {x disp s} : exec (.call x disp) s = execCall x disp s := rfl

theorem exec_callr {x r s} : exec (.callr x r) s = execCallr x r s := rfl

theorem exec_ret {x s} : exec (.ret x) s = execRet x s := rfl

theorem exec_daa {x d s} : exec (.daa x d) s = execDaa x d s := rfl

theorem exec_das {x d s} : exec (.das x d) s = execDas x d s := rfl

theorem exec_bcdadd {x d r s} : exec (.bcdadd x d r) s = execBcdadd x d r s := rfl

theorem exec_bcdadc {x d r s} : exec (.bcdadc x d r) s = execBcdadc x d r s := rfl

theorem exec_bcdsub {x d r s} : exec (.bcdsub x d r) s = execBcdsub x d r s := rfl

theorem exec_bcdsbb {x d r s} : exec (.bcdsbb x d r) s = execBcdsbb x d r s := rfl

theorem exec_bcdcmp {x d r s} : exec (.bcdcmp x d r) s = execBcdcmp x d r s := rfl

theorem exec_bcdchk {x r s} : exec (.bcdchk x r) s = execBcdchk x r s := rfl

theorem exec_b2bcd {x d r s} : exec (.b2bcd x d r) s = execB2bcd x d r s := rfl

theorem exec_bcd2b {x d r s} : exec (.bcd2b x d r) s = execBcd2b x d r s := rfl

theorem exec_tcadd {x d r rate s} : exec (.tcadd x d r rate) s = execTcadd x d r rate s := rfl

theorem exec_tcsub {x d r rate s} : exec (.tcsub x d r rate) s = execTcsub x d r rate s := rfl

theorem exec_tc2f {x d r rate s} : exec (.tc2f x d r rate) s = execTc2f x d r rate s := rfl

theorem exec_f2tc {x d r rate s} : exec (.f2tc x d r rate) s = execF2tc x d r rate s := rfl

theorem exec_tcchk {x r rate s} : exec (.tcchk x r rate) s = execTcchk x r rate s := rfl

theorem exec_mfs {x d n s} : exec (.mfs x d n) s = execMfs x d n s := rfl

theorem exec_mts {x n r s} : exec (.mts x n r) s = execMts x n r s := rfl

theorem exec_gcall {x k s} : exec (.gcall x k) s = execGcall x k s := rfl

theorem exec_gret {x v s} : exec (.gret x v) s = execGret x v s := rfl

theorem exec_sigu {x v s} : exec (.sigu x v) s = execSigu x v s := rfl

theorem exec_sigck {x v s} : exec (.sigck x v) s = execSigck x v s := rfl

theorem exec_rsspill {x k s} : exec (.rsspill x k) s = execRsspill x k s := rfl

theorem exec_rsfill {x k s} : exec (.rsfill x k) s = execRsfill x k s := rfl

theorem exec_eret {x s} : exec (.eret x) s = execEret x s := rfl

theorem exec_wfi {x s} : exec (.wfi x) s = execWfi x s := rfl

theorem exec_rtsync {x s} : exec (.rtsync x) s = execRtsync x s := rfl

theorem exec_isync {x s} : exec (.isync x) s = execIsync x s := rfl

theorem exec_wdkick {x s} : exec (.wdkick x) s = execWdkick x s := rfl

theorem exec_dpush {x eng r s} : exec (.dpush x eng r) s = execDpush x eng r s := rfl

theorem exec_bread {x d eng s} : exec (.bread x d eng) s = execBread x d eng s := rfl

theorem exec_rpop {x d s} : exec (.rpop x d) s = execRpop x d s := rfl

theorem exec_wait {x d m s} : exec (.wait x d m) s = execWait x d m s := rfl

theorem exec_interruptTake {core s} : exec (.interruptTake core) s = execInterruptTake core s := rfl

theorem exec_watchdogExpiry {core s} : exec (.watchdogExpiry core) s = execWatchdogExpiry core s := rfl

theorem exec_coreStopResponse {t core s} : exec (.coreStopResponse t core) s = execCoreStopResponse t core s := rfl

theorem exec_phyTrainDone {t link passed failed s} :
    exec (.phyTrainDone t link passed failed) s = execPhyTrainDone t link passed failed s := rfl

theorem exec_flitLockDone {t link passed failed s} :
    exec (.flitLockDone t link passed failed) s = execFlitLockDone t link passed failed s := rfl

theorem exec_bringUpLimit {t link s} : exec (.bringUpLimit t link) s = execBringUpLimit t link s := rfl

theorem exec_linkRetry {t link s} : exec (.linkRetry t link) s = execLinkRetry t link s := rfl

theorem exec_param {t link payload s} : exec (.param t link payload) s = execParam t link payload s := rfl

theorem exec_paramAck {t link s} : exec (.paramAck t link) s = execParamAck t link s := rfl

theorem exec_flitReceive {t link lane corr ucw errs bytes s} :
    exec (.flitReceive t link lane corr ucw errs bytes) s = execFlitReceive t link lane corr ucw errs bytes s := rfl

theorem exec_replayTimeout {t link s} : exec (.replayTimeout t link) s = execReplayTimeout t link s := rfl

theorem exec_linkDown {t link s} : exec (.linkDown t link) s = execLinkDown t link s := rfl

theorem exec_laneFault {t link lane s} : exec (.laneFault t link lane) s = execLaneFault t link lane s := rfl

theorem exec_laneDrop {t link lane s} : exec (.laneDrop t link lane) s = execLaneDrop t link lane s := rfl

theorem exec_laneDropAck {t link s} : exec (.laneDropAck t link) s = execLaneDropAck t link s := rfl

theorem exec_retrain {t link s} : exec (.retrain t link) s = execRetrain t link s := rfl

theorem exec_patSelect {t link v s} : exec (.patSelect t link v) s = execPatSelect t link v s := rfl

theorem exec_patClear {link s} : exec (.patClear link) s = execPatClear link s := rfl

theorem exec_linkWrite {link addr data s} : exec (.linkWrite link addr data) s = execLinkWrite link addr data s := rfl

theorem exec_linkRead {link tag addr len host s} :
    exec (.linkRead link tag addr len host) s = execLinkRead link tag addr len host s := rfl

theorem exec_readResp {t link tag status off data s} :
    exec (.readResp t link tag status off data) s = execReadResp t link tag status off data s := rfl

theorem exec_captureReadTimeout {t link tag s} :
    exec (.captureReadTimeout t link tag) s = execCaptureReadTimeout t link tag s := rfl

theorem exec_packReject {link ring rank id s} :
    exec (.packReject link ring rank id) s = execPackReject link ring rank id s := rfl

theorem exec_feedDoorbell {link ring value s} :
    exec (.feedDoorbell link ring value) s = execFeedDoorbell link ring value s := rfl

theorem exec_rmtAccDoorbell {link target value s} :
    exec (.rmtAccDoorbell link target value) s = execRmtAccDoorbell link target value s := rfl

theorem exec_ringCreate {k desc s} : exec (.ringCreate k desc) s = execRingCreate k desc s := rfl

theorem exec_ringStart {k s} : exec (.ringStart k) s = execRingStart k s := rfl

theorem exec_ringStop {k s} : exec (.ringStop k) s = execRingStop k s := rfl

theorem exec_ringResume {k s} : exec (.ringResume k) s = execRingResume k s := rfl

theorem exec_ringDestroy {k s} : exec (.ringDestroy k) s = execRingDestroy k s := rfl

theorem exec_xchgGroup {k qps s} : exec (.xchgGroup k qps) s = execXchgGroup k qps s := rfl

theorem exec_packDraw {t ring pick poison s} : exec (.packDraw t ring pick poison) s = execPackDraw t ring pick poison s := rfl

theorem exec_portDownLimit {port s} : exec (.portDownLimit port) s = execPortDownLimit port s := rfl

theorem exec_xchgSend {t rank id member poison s} :
    exec (.xchgSend t rank id member poison) s = execXchgSend t rank id member poison s := rfl

theorem exec_xchgFlushDone {q s} : exec (.xchgFlushDone q) s = execXchgFlushDone q s := rfl

theorem exec_rmtPacketReceive {t sub ce bytes host s} :
    exec (.rmtPacketReceive t sub ce bytes host) s = execRmtPacketReceive t sub ce bytes host s := rfl

theorem exec_rmtDbHi {func v s} : exec (.rmtDbHi func v) s = execRmtDbHi func v s := rfl

theorem exec_wqeFetch {t q rq bytes s} : exec (.wqeFetch t q rq bytes) s = execWqeFetch t q rq bytes s := rfl

theorem exec_rmtSend {t q host s} : exec (.rmtSend t q host) s = execRmtSend t q host s := rfl

theorem exec_rmtWrite {t q host s} : exec (.rmtWrite t q host) s = execRmtWrite t q host s := rfl

theorem exec_rmtRead {t q s} : exec (.rmtRead t q) s = execRmtRead t q s := rfl

theorem exec_rmtFlush {t q s} : exec (.rmtFlush t q) s = execRmtFlush t q s := rfl

theorem exec_hitch {t q s} : exec (.hitch t q) s = execHitch t q s := rfl

theorem exec_hitchRelease {t q s} : exec (.hitchRelease t q) s = execHitchRelease t q s := rfl

theorem exec_rmtRecv {t q s} : exec (.rmtRecv t q) s = execRmtRecv t q s := rfl

theorem exec_rtoExpiry {t q psn s} : exec (.rtoExpiry t q psn) s = execRtoExpiry t q psn s := rfl

theorem exec_ackTimer {t q s} : exec (.ackTimer t q) s = execAckTimer t q s := rfl

theorem exec_rnrRetryExpiry {t q s} : exec (.rnrRetryExpiry t q) s = execRnrRetryExpiry t q s := rfl

theorem exec_qpCreate {k s} : exec (.qpCreate k) s = execQpCreate k s := rfl

theorem exec_qpConnect {k s} : exec (.qpConnect k) s = execQpConnect k s := rfl

theorem exec_qpModify {k s} : exec (.qpModify k) s = execQpModify k s := rfl

theorem exec_qpReset {k s} : exec (.qpReset k) s = execQpReset k s := rfl

theorem exec_qpDestroy {k s} : exec (.qpDestroy k) s = execQpDestroy k s := rfl

theorem exec_quiescingEnd {q s} : exec (.quiescingEnd q) s = execQuiescingEnd q s := rfl

theorem exec_egressTransmit {t sub s} : exec (.egressTransmit t sub) s = execEgressTransmit t sub s := rfl

theorem exec_gateEntry {t port s} : exec (.gateEntry t port) s = execGateEntry t port s := rfl

theorem exec_ethFrameReceive {t sub fec levels bytes host s} :
    exec (.ethFrameReceive t sub fec levels bytes host) s = execEthFrameReceive t sub fec levels bytes host s := rfl

theorem exec_pfcPauseExpiry {t sub prio s} : exec (.pfcPauseExpiry t sub prio) s = execPfcPauseExpiry t sub prio s := rfl

theorem exec_subportDown {t sub s} : exec (.subportDown t sub) s = execSubportDown t sub s := rfl

theorem exec_flr {t func s} : exec (.flr t func) s = execFlr t func s := rfl

theorem exec_busMasterDisable {t func s} : exec (.busMasterDisable t func) s = execBusMasterDisable t func s := rfl

theorem exec_vfDisable {t pf s} : exec (.vfDisable t pf) s = execVfDisable t pf s := rfl

theorem exec_perst {t link s} : exec (.perst t link) s = execPerst t link s := rfl

theorem exec_hostLinkDown {t link s} : exec (.hostLinkDown t link) s = execHostLinkDown t link s := rfl

theorem exec_completionReceive {t link func tag outstanding err s} :
    exec (.completionReceive t link func tag outstanding err) s = execCompletionReceive t link func tag outstanding err s := rfl

theorem exec_cplTimeout {t func tag issued engine s} :
    exec (.cplTimeout t func tag issued engine) s = execCplTimeout t func tag issued engine s := rfl

theorem exec_quarantineExpiry {t link tag s} : exec (.quarantineExpiry t link tag) s = execQuarantineExpiry t link tag s := rfl

theorem exec_hostWindowAccess {func off len data s} :
    exec (.hostWindowAccess func off len data) s = execHostWindowAccess func off len data s := rfl

theorem exec_funcAssign {k s} : exec (.funcAssign k) s = execFuncAssign k s := rfl

theorem exec_funcFreeze {k s} : exec (.funcFreeze k) s = execFuncFreeze k s := rfl

theorem exec_freezeDone {t func s} : exec (.freezeDone t func) s = execFreezeDone t func s := rfl

theorem exec_freezeTimeout {t func s} : exec (.freezeTimeout t func) s = execFreezeTimeout t func s := rfl

theorem exec_funcSave {k s} : exec (.funcSave k) s = execFuncSave k s := rfl

theorem exec_funcRestore {k blob s} : exec (.funcRestore k blob) s = execFuncRestore k blob s := rfl

theorem exec_funcThaw {k s} : exec (.funcThaw k) s = execFuncThaw k s := rfl

theorem exec_dirtyLogStart {k s} : exec (.dirtyLogStart k) s = execDirtyLogStart k s := rfl

theorem exec_dirtyLogSync {k s} : exec (.dirtyLogSync k) s = execDirtyLogSync k s := rfl

theorem exec_dirtyLogStop {k s} : exec (.dirtyLogStop k) s = execDirtyLogStop k s := rfl

theorem exec_heartbeat {t func v s} : exec (.heartbeat t func v) s = execHeartbeat t func v s := rfl

theorem exec_heartbeatTimeout {func s} : exec (.heartbeatTimeout func) s = execHeartbeatTimeout func s := rfl

theorem exec_adopt {t func abi s} : exec (.adopt t func abi) s = execAdopt t func abi s := rfl

theorem exec_funcReset {t func s} : exec (.funcReset t func) s = execFuncReset t func s := rfl

theorem exec_funcResetDone {t func s} : exec (.funcResetDone t func) s = execFuncResetDone t func s := rfl

theorem exec_graceEnd {t s} : exec (.graceEnd t) s = execGraceEnd t s := rfl

theorem exec_nvmeDoorbell {func queue cq value s} :
    exec (.nvmeDoorbell func queue cq value) s = execNvmeDoorbell func queue cq value s := rfl

theorem exec_nvmeCommandFetch {t func queue sqe s} :
    exec (.nvmeCommandFetch t func queue sqe) s = execNvmeCommandFetch t func queue sqe s := rfl

theorem exec_controllerEnable {t func cc aqa asq acq s} :
    exec (.controllerEnable t func cc aqa asq acq) s = execControllerEnable t func cc aqa asq acq s := rfl

theorem exec_controllerReset {t func s} : exec (.controllerReset t func) s = execControllerReset t func s := rfl

theorem exec_shutdownNotify {t func s} : exec (.shutdownNotify t func) s = execShutdownNotify t func s := rfl

theorem exec_createIoSq {t func sq cid s} : exec (.createIoSq t func sq cid) s = execCreateIoSq t func sq cid s := rfl

theorem exec_deleteIoSq {t func sq cid s} : exec (.deleteIoSq t func sq cid) s = execDeleteIoSq t func sq cid s := rfl

theorem exec_createIoCq {t func sq cid s} : exec (.createIoCq t func sq cid) s = execCreateIoCq t func sq cid s := rfl

theorem exec_deleteIoCq {t func sq cid s} : exec (.deleteIoCq t func sq cid) s = execDeleteIoCq t func sq cid s := rfl

theorem exec_getLogPage {t func sq cid segs fail s} :
    exec (.getLogPage t func sq cid segs fail) s = execGetLogPage t func sq cid segs fail s := rfl

theorem exec_identify {t func sq cid segs fail s} :
    exec (.identify t func sq cid segs fail) s = execIdentify t func sq cid segs fail s := rfl

theorem exec_abort {t func sq cid s} : exec (.abort t func sq cid) s = execAbort t func sq cid s := rfl

theorem exec_setFeatures {t func sq cid s} : exec (.setFeatures t func sq cid) s = execSetFeatures t func sq cid s := rfl

theorem exec_getFeatures {t func sq cid s} : exec (.getFeatures t func sq cid) s = execGetFeatures t func sq cid s := rfl

theorem exec_asyncEventRequest {t func sq cid s} :
    exec (.asyncEventRequest t func sq cid) s = execAsyncEventRequest t func sq cid s := rfl

theorem exec_nsCreate {t func sq cid data fail s} :
    exec (.nsCreate t func sq cid data fail) s = execNsCreate t func sq cid data fail s := rfl

theorem exec_nsDelete {t func sq cid s} : exec (.nsDelete t func sq cid) s = execNsDelete t func sq cid s := rfl

theorem exec_nsAttach {t func sq cid data fail s} :
    exec (.nsAttach t func sq cid data fail) s = execNsAttach t func sq cid data fail s := rfl

theorem exec_nsDetach {t func sq cid data fail s} :
    exec (.nsDetach t func sq cid data fail) s = execNsDetach t func sq cid data fail s := rfl

theorem exec_firmwareCommit {t func sq cid chk s} :
    exec (.firmwareCommit t func sq cid chk) s = execFirmwareCommit t func sq cid chk s := rfl

theorem exec_firmwareImageDownload {t func sq cid data fail s} :
    exec (.firmwareImageDownload t func sq cid data fail) s = execFirmwareImageDownload t func sq cid data fail s := rfl

theorem exec_formatNvm {t func sq cid s} : exec (.formatNvm t func sq cid) s = execFormatNvm t func sq cid s := rfl

theorem exec_formatDone {t nsid s} : exec (.formatDone t nsid) s = execFormatDone t nsid s := rfl

theorem exec_sanitize {t func sq cid s} : exec (.sanitize t func sq cid) s = execSanitize t func sq cid s := rfl

theorem exec_sanitizeDone {t s} : exec (.sanitizeDone t) s = execSanitizeDone t s := rfl

theorem exec_nvmeWrite {t func sq cid data mdata fail progs place s} :
    exec (.nvmeWrite t func sq cid data mdata fail progs place) s = execNvmeWrite t func sq cid data mdata fail progs place s := rfl

theorem exec_writeProgrammed {t func sq cid s} :
    exec (.writeProgrammed t func sq cid) s = execWriteProgrammed t func sq cid s := rfl

theorem exec_nvmeRead {t func sq cid segs fail bad s} :
    exec (.nvmeRead t func sq cid segs fail bad) s = execNvmeRead t func sq cid segs fail bad s := rfl

theorem exec_nvmeFlush {t func sq cid s} : exec (.nvmeFlush t func sq cid) s = execNvmeFlush t func sq cid s := rfl

theorem exec_nvmeCompare {t func sq cid data mdata fail bad s} :
    exec (.nvmeCompare t func sq cid data mdata fail bad) s = execNvmeCompare t func sq cid data mdata fail bad s := rfl

theorem exec_writeZeroes {t func sq cid progs place s} :
    exec (.writeZeroes t func sq cid progs place) s = execWriteZeroes t func sq cid progs place s := rfl

theorem exec_datasetManagement {t func sq cid ranges fail s} :
    exec (.datasetManagement t func sq cid ranges fail) s = execDatasetManagement t func sq cid ranges fail s := rfl

theorem exec_nvmeVerify {t func sq cid bad s} :
    exec (.nvmeVerify t func sq cid bad) s = execNvmeVerify t func sq cid bad s := rfl

theorem exec_mediumRead {t die block step entry bits staged found s} :
    exec (.mediumRead t die block step entry bits staged found) s = execMediumRead t die block step entry bits staged found s := rfl

theorem exec_dieUnresponsive {t die s} : exec (.dieUnresponsive t die) s = execDieUnresponsive t die s := rfl

theorem exec_rebuildDone {t die rows full s} : exec (.rebuildDone t die rows full) s = execRebuildDone t die rows full s := rfl

theorem exec_fold {t pos place step final items s} :
    exec (.fold t pos place step final items) s = execFold t pos place step final items s := rfl

theorem exec_patrolRead {t die block step entry bits found s} :
    exec (.patrolRead t die block step entry bits found) s = execPatrolRead t die block step entry bits found s := rfl

theorem exec_wlMove {t die block s} : exec (.wlMove t die block) s = execWlMove t die block s := rfl

theorem exec_programFail {t die block s} : exec (.programFail t die block) s = execProgramFail t die block s := rfl

theorem exec_eraseFail {t die block s} : exec (.eraseFail t die block) s = execEraseFail t die block s := rfl

theorem exec_ftlRecovery {t dies valid0 valid1 differ clashes ms s} :
    exec (.ftlRecovery t dies valid0 valid1 differ clashes ms) s = execFtlRecovery t dies valid0 valid1 differ clashes ms s := rfl

theorem exec_groupForm {k desc s} : exec (.groupForm k desc) s = execGroupForm k desc s := rfl

theorem exec_groupFormTimeout {t s} : exec (.groupFormTimeout t) s = execGroupFormTimeout t s := rfl

theorem exec_groupShrink {k s} : exec (.groupShrink k) s = execGroupShrink k s := rfl

theorem exec_groupLeave {k s} : exec (.groupLeave k) s = execGroupLeave k s := rfl

theorem exec_sessionOpen {k s} : exec (.sessionOpen k) s = execSessionOpen k s := rfl

theorem exec_sessionStart {k s} : exec (.sessionStart k) s = execSessionStart k s := rfl

theorem exec_sessionAbort {k s} : exec (.sessionAbort k) s = execSessionAbort k s := rfl

theorem exec_sessionClose {k s} : exec (.sessionClose k) s = execSessionClose k s := rfl

theorem exec_restoreScan {k s} : exec (.restoreScan k) s = execRestoreScan k s := rfl

theorem exec_shardExport {k s} : exec (.shardExport k) s = execShardExport k s := rfl

theorem exec_captureTimeout {t s} : exec (.captureTimeout t) s = execCaptureTimeout t s := rfl

theorem exec_hello {t m uid body s} : exec (.hello t m uid body) s = execHello t m uid body s := rfl

theorem exec_unit {t m digest data s} : exec (.unit t m digest data) s = execUnit t m digest data s := rfl

theorem exec_unitLand {t unit s} : exec (.unitLand t unit) s = execUnitLand t unit s := rfl

theorem exec_unitAck {t m code digest s} : exec (.unitAck t m code digest) s = execUnitAck t m code digest s := rfl

theorem exec_manifest {t m body s} : exec (.manifest t m body) s = execManifest t m body s := rfl

theorem exec_manifestAck {t m code s} : exec (.manifestAck t m code) s = execManifestAck t m code s := rfl

theorem exec_landed {t m s} : exec (.landed t m) s = execLanded t m s := rfl

theorem exec_failed {t m reason s} : exec (.failed t m reason) s = execFailed t m reason s := rfl

theorem exec_lost {t m rank s} : exec (.lost t m rank) s = execLost t m rank s := rfl

theorem exec_progress {t m s} : exec (.progress t m) s = execProgress t m s := rfl

theorem exec_unitReq {t m s} : exec (.unitReq t m) s = execUnitReq t m s := rfl

theorem exec_unitData {t m code data s} : exec (.unitData t m code data) s = execUnitData t m code data s := rfl

theorem exec_verdict {t m reason shard steps s} :
    exec (.verdict t m reason shard steps) s = execVerdict t m reason shard steps s := rfl

theorem exec_mirror {t epoch seq part parts data forms s} :
    exec (.mirror t epoch seq part parts data forms) s = execMirror t epoch seq part parts data forms s := rfl

theorem exec_mirrorAck {t epoch seq s} : exec (.mirrorAck t epoch seq) s = execMirrorAck t epoch seq s := rfl

theorem exec_tickFrame {t epoch count lease echo ofs hold s} :
    exec (.tickFrame t epoch count lease echo ofs hold) s = execTickFrame t epoch count lease echo ofs hold s := rfl

theorem exec_hawserHalyard {t epoch count seq s} :
    exec (.hawserHalyard t epoch count seq) s = execHawserHalyard t epoch count seq s := rfl

theorem exec_resync {t epoch seq part parts data forms kept ties s} :
    exec (.resync t epoch seq part parts data forms kept ties) s = execResync t epoch seq part parts data forms kept ties s := rfl

theorem exec_resyncAck {t epoch base s} : exec (.resyncAck t epoch base) s = execResyncAck t epoch base s := rfl

theorem exec_join {t uid last state digest clash s} :
    exec (.join t uid last state digest clash) s = execJoin t uid last state digest clash s := rfl

theorem exec_joinSend {t s} : exec (.joinSend t) s = execJoinSend t s := rfl

theorem exec_takeoverNotice {t final s} : exec (.takeoverNotice t final) s = execTakeoverNotice t final s := rfl

theorem exec_leaveNotice {t s} : exec (.leaveNotice t) s = execLeaveNotice t s := rfl

theorem exec_pairJoin {k s} : exec (.pairJoin k) s = execPairJoin k s := rfl

theorem exec_pairLeave {k s} : exec (.pairLeave k) s = execPairLeave k s := rfl

theorem exec_witness {t uid epoch main seen lease s} :
    exec (.witness t uid epoch main seen lease) s = execWitness t uid epoch main seen lease s := rfl

theorem exec_witnessSend {t s} : exec (.witnessSend t) s = execWitnessSend t s := rfl

theorem exec_leaseExpiry {t s} : exec (.leaseExpiry t) s = execLeaseExpiry t s := rfl

theorem exec_takeover {t reads s} : exec (.takeover t reads) s = execTakeover t reads s := rfl

theorem exec_splitEntry {t s} : exec (.splitEntry t) s = execSplitEntry t s := rfl

theorem exec_keyGen {k s} : exec (.keyGen k) s = execKeyGen k s := rfl

theorem exec_keyImport {k src s} : exec (.keyImport k src) s = execKeyImport k src s := rfl

theorem exec_keyExport {k s} : exec (.keyExport k) s = execKeyExport k s := rfl

theorem exec_keyDestroy {k s} : exec (.keyDestroy k) s = execKeyDestroy k s := rfl

theorem exec_keyErase {slot s} : exec (.keyErase slot) s = execKeyErase slot s := rfl

theorem exec_gcmEnc {k job unit x s} : exec (.gcmEnc k job unit x) s = execGcmEnc k job unit x s := rfl

theorem exec_gcmDec {k job unit x s} : exec (.gcmDec k job unit x) s = execGcmDec k job unit x s := rfl

theorem exec_xtsEnc {k job unit x s} : exec (.xtsEnc k job unit x) s = execXtsEnc k job unit x s := rfl

theorem exec_xtsDec {k job unit x s} : exec (.xtsDec k job unit x) s = execXtsDec k job unit x s := rfl

theorem exec_gmacGen {k job unit x s} : exec (.gmacGen k job unit x) s = execGmacGen k job unit x s := rfl

theorem exec_gmacVer {k job unit x s} : exec (.gmacVer k job unit x) s = execGmacVer k job unit x s := rfl

theorem exec_hmacGen {k job unit x s} : exec (.hmacGen k job unit x) s = execHmacGen k job unit x s := rfl

theorem exec_hmacVer {k job unit x s} : exec (.hmacVer k job unit x) s = execHmacVer k job unit x s := rfl

theorem exec_sha256 {k job unit x s} : exec (.sha256 k job unit x) s = execSha256 k job unit x s := rfl

theorem exec_sha3256 {k job unit x s} : exec (.sha3256 k job unit x) s = execSha3256 k job unit x s := rfl

theorem exec_lstRun {q t fail s} : exec (.lstRun q t fail) s = execLstRun q t fail s := rfl

theorem exec_mbistRun {q t fails s} : exec (.mbistRun q t fails) s = execMbistRun q t fails s := rfl

theorem exec_suspectForce {q s} : exec (.suspectForce q) s = execSuspectForce q s := rfl

theorem exec_injectSramSingle {q s} : exec (.injectSramSingle q) s = execInjectSramSingle q s := rfl

theorem exec_injectSramDouble {q s} : exec (.injectSramDouble q) s = execInjectSramDouble q s := rfl

theorem exec_injectDramSingle {q s} : exec (.injectDramSingle q) s = execInjectDramSingle q s := rfl

theorem exec_injectDramDouble {q s} : exec (.injectDramDouble q) s = execInjectDramDouble q s := rfl

theorem exec_injectSliceFail {q s} : exec (.injectSliceFail q) s = execInjectSliceFail q s := rfl

theorem exec_lstSlice {t ok verified s} : exec (.lstSlice t ok verified) s = execLstSlice t ok verified s := rfl

theorem exec_lstDefer {t s} : exec (.lstDefer t) s = execLstDefer t s := rfl

theorem exec_lstForce {t ok verified cycles s} :
    exec (.lstForce t ok verified cycles) s = execLstForce t ok verified cycles s := rfl

theorem exec_checkedError {t p control s} : exec (.checkedError t p control) s = execCheckedError t p control s := rfl

theorem exec_dramScrub {t off linkCe retries fail pass s} :
    exec (.dramScrub t off linkCe retries fail pass) s = execDramScrub t off linkCe retries fail pass s := rfl

theorem exec_memcRecal {t m ch s} : exec (.memcRecal t m ch) s = execMemcRecal t m ch s := rfl

theorem exec_memcRetrain {t m ch ok s} : exec (.memcRetrain t m ch ok) s = execMemcRetrain t m ch ok s := rfl

theorem exec_sensorSample {t id v s} : exec (.sensorSample t id v) s = execSensorSample t id v s := rfl

theorem exec_logCommit {t seq s} : exec (.logCommit t seq) s = execLogCommit t seq s := rfl

theorem exec_bootReady {t s} : exec (.bootReady t) s = execBootReady t s := rfl

theorem exec_mssWatchdog {t s} : exec (.mssWatchdog t) s = execMssWatchdog t s := rfl

theorem exec_mssReset {t s} : exec (.mssReset t) s = execMssReset t s := rfl

theorem exec_setEndpointId {bus op eid s} : exec (.setEndpointId bus op eid) s = execSetEndpointId bus op eid s := rfl

theorem exec_getVersion {t bus sess req s} : exec (.getVersion t bus sess req) s = execGetVersion t bus sess req s := rfl

theorem exec_getCapabilities {t bus sess req s} :
    exec (.getCapabilities t bus sess req) s = execGetCapabilities t bus sess req s := rfl

theorem exec_negotiateAlgorithms {t bus sess req s} :
    exec (.negotiateAlgorithms t bus sess req) s = execNegotiateAlgorithms t bus sess req s := rfl

theorem exec_getDigests {t bus sess req s} : exec (.getDigests t bus sess req) s = execGetDigests t bus sess req s := rfl

theorem exec_getCertificate {t bus sess req s} :
    exec (.getCertificate t bus sess req) s = execGetCertificate t bus sess req s := rfl

theorem exec_challenge {t bus sess req s} : exec (.challenge t bus sess req) s = execChallenge t bus sess req s := rfl

theorem exec_getMeasurements {t bus sess req s} :
    exec (.getMeasurements t bus sess req) s = execGetMeasurements t bus sess req s := rfl

theorem exec_keyExchange {t bus sess req s} : exec (.keyExchange t bus sess req) s = execKeyExchange t bus sess req s := rfl

theorem exec_finish {t bus sess req s} : exec (.finish t bus sess req) s = execFinish t bus sess req s := rfl

theorem exec_spdmHeartbeat {t bus sess req s} :
    exec (.spdmHeartbeat t bus sess req) s = execSpdmHeartbeat t bus sess req s := rfl

theorem exec_keyUpdate {t bus sess req s} : exec (.keyUpdate t bus sess req) s = execKeyUpdate t bus sess req s := rfl

theorem exec_endSession {t bus sess req s} : exec (.endSession t bus sess req) s = execEndSession t bus sess req s := rfl

theorem exec_chunkSend {t bus sess req s} : exec (.chunkSend t bus sess req) s = execChunkSend t bus sess req s := rfl

theorem exec_chunkGet {t bus sess req s} : exec (.chunkGet t bus sess req) s = execChunkGet t bus sess req s := rfl

theorem exec_pqSig {t bus sess req s} : exec (.pqSig t bus sess req) s = execPqSig t bus sess req s := rfl

theorem exec_pqCert {t bus sess req s} : exec (.pqCert t bus sess req) s = execPqCert t bus sess req s := rfl

theorem exec_getTid {t bus req s} : exec (.getTid t bus req) s = execGetTid t bus req s := rfl

theorem exec_setTid {t bus req s} : exec (.setTid t bus req) s = execSetTid t bus req s := rfl

theorem exec_getPldmVersion {t bus req s} : exec (.getPldmVersion t bus req) s = execGetPldmVersion t bus req s := rfl

theorem exec_getPldmTypes {t bus req s} : exec (.getPldmTypes t bus req) s = execGetPldmTypes t bus req s := rfl

theorem exec_getPldmCommands {t bus req s} : exec (.getPldmCommands t bus req) s = execGetPldmCommands t bus req s := rfl

theorem exec_getPdr {t bus req s} : exec (.getPdr t bus req) s = execGetPdr t bus req s := rfl

theorem exec_getPdrRepositoryInfo {t bus req s} :
    exec (.getPdrRepositoryInfo t bus req) s = execGetPdrRepositoryInfo t bus req s := rfl

theorem exec_getSensorReading {t bus req s} : exec (.getSensorReading t bus req) s = execGetSensorReading t bus req s := rfl

theorem exec_setSensorThresholds {t bus req s} :
    exec (.setSensorThresholds t bus req) s = execSetSensorThresholds t bus req s := rfl

theorem exec_getSensorThresholds {t bus req s} :
    exec (.getSensorThresholds t bus req) s = execGetSensorThresholds t bus req s := rfl

theorem exec_setEventReceiver {t bus req s} : exec (.setEventReceiver t bus req) s = execSetEventReceiver t bus req s := rfl

theorem exec_pollForPlatformEventMessage {t bus req s} :
    exec (.pollForPlatformEventMessage t bus req) s = execPollForPlatformEventMessage t bus req s := rfl

theorem exec_setNumericEffecterValue {t bus req s} :
    exec (.setNumericEffecterValue t bus req) s = execSetNumericEffecterValue t bus req s := rfl

theorem exec_getNumericEffecterValue {t bus req s} :
    exec (.getNumericEffecterValue t bus req) s = execGetNumericEffecterValue t bus req s := rfl

theorem exec_requestUpdate {t s} : exec (.requestUpdate t) s = execRequestUpdate t s := rfl

theorem exec_activateFirmware {t self s} : exec (.activateFirmware t self) s = execActivateFirmware t self s := rfl

theorem exec_spliceCommit {t accepted s} : exec (.spliceCommit t accepted) s = execSpliceCommit t accepted s := rfl

theorem exec_spliceRollback {t reason core comp s} :
    exec (.spliceRollback t reason core comp) s = execSpliceRollback t reason core comp s := rfl

theorem exec_pcCtlWrite {a p idx v s} : exec (.pcCtlWrite a p idx v) s = execPcCtlWrite a p idx v s := rfl

theorem exec_pcClear {a p idx s} : exec (.pcClear a p idx) s = execPcClear a p idx s := rfl

theorem exec_pcValLoRead {a p idx s} : exec (.pcValLoRead a p idx) s = execPcValLoRead a p idx s := rfl

theorem exec_counterWrap {p idx n s} : exec (.counterWrap p idx n) s = execCounterWrap p idx n s := rfl

theorem exec_perfRead {k s} : exec (.perfRead k) s = execPerfRead k s := rfl

theorem exec_precClear {a v s} : exec (.precClear a v) s = execPrecClear a v s := rfl

theorem exec_hostLinkUp {t link rate width s} :
    exec (.hostLinkUp t link rate width) s = execHostLinkUp t link rate width s := rfl

theorem exec_perstDeassert {t link s} : exec (.perstDeassert t link) s = execPerstDeassert t link s := rfl

theorem exec_hotReset {t link s} : exec (.hotReset t link) s = execHotReset t link s := rfl

theorem exec_vfEnable {t pf num s} : exec (.vfEnable t pf num) s = execVfEnable t pf num s := rfl

theorem exec_subportUp {t sub s} : exec (.subportUp t sub) s = execSubportUp t sub s := rfl

theorem exec_postDone {t tiles other packages fails s} :
    exec (.postDone t tiles other packages fails) s = execPostDone t tiles other packages fails s := rfl

theorem exec_atsInvalidate {t link itag s} : exec (.atsInvalidate t link itag) s = execAtsInvalidate t link itag s := rfl

theorem exec_doeDiscovery {index s} : exec (.doeDiscovery index) s = execDoeDiscovery index s := rfl

theorem exec_updateComponent {t comp bytes chk s} :
    exec (.updateComponent t comp bytes chk) s = execUpdateComponent t comp bytes chk s := rfl

theorem exec_paramSend {t link s} : exec (.paramSend t link) s = execParamSend t link s := rfl

theorem exec_laneDropResend {t link s} : exec (.laneDropResend t link) s = execLaneDropResend t link s := rfl

theorem exec_dynamicAddressAssign {addr static s} :
    exec (.dynamicAddressAssign addr static) s = execDynamicAddressAssign addr static s := rfl

theorem exec_interruptCoalescingExpiry {t func cq s} :
    exec (.interruptCoalescingExpiry t func cq) s = execInterruptCoalescingExpiry t func cq s := rfl

theorem exec_recoveryRequest {t s} : exec (.recoveryRequest t) s = execRecoveryRequest t s := rfl

end Sys2Proof.Machine
end

