-- ==== Sys2Proof/Laws/Maps.lean ====
section
/-! SUPPORT. Laws of the sorted maps and of memory: what reads back, and that every operation keeps the canonical form. -/

namespace Sys2Proof.Machine

/-! ### Maps -/

theorem mwf_cons {α : Type} {e : Nat × α} {m : List (Nat × α)} :
    mwf (e :: m) = true ↔ (∀ x ∈ m.head?, e.1 < x.1) ∧ mwf m = true := by
  cases m <;> simp [mwf]

theorem head_mput {α : Type} (m : List (Nat × α)) (k : Nat) (v : α) (b : Nat) (hk : b < k) (hm : ∀ x ∈ m.head?, b < x.1) :
    ∀ x ∈ (mput m k v).head?, b < x.1 := by
  cases m with
  | nil => simpa [mput]
  | cons e m =>
    unfold mput; split
    · simpa
    · split <;> simp_all

theorem mwf_mput {α : Type} {m : List (Nat × α)} (k : Nat) (v : α) (h : mwf m = true) : mwf (mput m k v) = true := by
  induction m with
  | nil => rfl
  | cons e m ih =>
    obtain ⟨h1, h2⟩ := mwf_cons.mp h
    unfold mput; split
    · exact mwf_cons.mpr ⟨by simpa, h⟩
    · split
      · exact mwf_cons.mpr ⟨by simp_all, h2⟩
      · exact mwf_cons.mpr ⟨head_mput m k v _ (by omega) h1, ih h2⟩

/-- In a sorted map every later key is greater than the first. -/
theorem mwf_lt {α : Type} {e : Nat × α} {m : List (Nat × α)} (h : mwf (e :: m) = true) : ∀ x ∈ m, e.1 < x.1 := by
  induction m generalizing e with
  | nil => simp
  | cons y m ih =>
    obtain ⟨h1, h2⟩ := mwf_cons.mp h
    intro x hx
    have : e.1 < y.1 := h1 y (by simp)
    rcases List.mem_cons.mp hx with rfl | hx
    · exact this
    · exact Nat.lt_trans this (ih h2 x hx)

theorem mwf_of_lt {α : Type} {e : Nat × α} {m : List (Nat × α)} (h : ∀ x ∈ m, e.1 < x.1) (hm : mwf m = true) :
    mwf (e :: m) = true :=
  mwf_cons.mpr ⟨fun x hx => h x (List.mem_of_mem_head? hx), hm⟩

theorem mwf_filter {α : Type} {m : List (Nat × α)} (p : Nat × α → Bool) (h : mwf m = true) : mwf (m.filter p) = true := by
  induction m with
  | nil => rfl
  | cons e m ih =>
    have h2 := (mwf_cons.mp h).2
    rw [List.filter_cons]; split
    · exact mwf_of_lt (fun x hx => mwf_lt h x (List.mem_filter.mp hx).1) (ih h2)
    · exact ih h2

theorem mdel_mem {α : Type} {m : List (Nat × α)} {k : Nat} {x : Nat × α} (h : x ∈ mdel m k) : x ∈ m := by
  induction m with
  | nil => exact h
  | cons e m ih =>
    unfold mdel at h; split at h
    · exact List.mem_cons_of_mem _ h
    · rcases List.mem_cons.mp h with rfl | h
      · simp
      · exact List.mem_cons_of_mem _ (ih h)

theorem mwf_mdel {α : Type} {m : List (Nat × α)} (k : Nat) (h : mwf m = true) : mwf (mdel m k) = true := by
  induction m with
  | nil => rfl
  | cons e m ih =>
    have h2 := (mwf_cons.mp h).2
    unfold mdel; split
    · exact h2
    · exact mwf_of_lt (fun x hx => mwf_lt h x (mdel_mem hx)) (ih h2)

theorem mwf_mputD {α : Type} [DecidableEq α] {m : List (Nat × α)} (k : Nat) (d v : α) (h : mwf m = true) :
    mwf (mputD m k d v) = true := by
  unfold mputD; split
  · exact mwf_mdel k h
  · exact mwf_mput k v h

theorem mwf_puts {α β : Type} (l : List β) (k : β → Nat) (v : β → α) {m : List (Nat × α)} (h : mwf m = true) :
    mwf (l.foldl (fun m e => mput m (k e) (v e)) m) = true := by
  induction l generalizing m with
  | nil => exact h
  | cons x l ih => exact ih (mwf_mput _ _ h)

/-! ### Memory -/

theorem mem_mput {α : Type} {m : List (Nat × α)} {k : Nat} {v : α} {x : Nat × α} (h : x ∈ mput m k v) : x = (k, v) ∨ x ∈ m := by
  induction m with
  | nil => simpa [mput] using h
  | cons e m ih =>
    unfold mput at h; split at h
    · rcases List.mem_cons.mp h with h | h <;> simp_all
    · split at h
      · rcases List.mem_cons.mp h with h | h <;> simp_all
      · rcases List.mem_cons.mp h with h | h
        · simp_all
        · rcases ih h with h | h <;> simp_all

theorem Memory.wf_iff {m : Memory} : m.wf = true ↔ mwf m = true ∧ ∀ x ∈ m, x.2 ≠ 0 := by
  simp [Memory.wf]

theorem memSet_wf {m : Memory} (a : Nat) (b : Byte) (h : m.wf = true) : Memory.wf (memSet m a b) = true := by
  obtain ⟨h1, h2⟩ := Memory.wf_iff.mp h
  refine Memory.wf_iff.mpr ⟨mwf_mputD a 0 b h1, fun x hx => ?_⟩
  unfold memSet mputD at hx; split at hx
  · exact h2 x (mdel_mem hx)
  · rcases mem_mput hx with rfl | hx
    · assumption
    · exact h2 x hx

theorem memWrite_wf {m : Memory} (a : Nat) (l : List Byte) (h : m.wf = true) : Memory.wf (memWrite m a l) = true := by
  induction l generalizing m a with
  | nil => exact h
  | cons b l ih => exact ih _ (memSet_wf a b h)

theorem mem_filter_wf {m : Memory} (p : Host.Cell → Bool) (h : m.wf = true) : Memory.wf (m.filter p) = true := by
  obtain ⟨h1, h2⟩ := Memory.wf_iff.mp h
  exact Memory.wf_iff.mpr ⟨mwf_filter p h1, fun x hx => h2 x (List.mem_filter.mp hx).1⟩

theorem memClear_wf {m : Memory} (lo hi : Nat) (h : m.wf = true) : Memory.wf (memClear m lo hi) = true := mem_filter_wf _ h

/-! ### Reading back -/

/-- A key set in any map reads back, and every other key reads as before. -/
theorem mget_mput {α} (m : List (Nat × α)) (k : Nat) (v : α) (x : Nat) : mget (mput m k v) x = if x = k then some v else mget m x := by
  induction m with
  | nil => simp [mput, mget, eq_comm]
  | cons e m ih =>
    obtain ⟨a, w⟩ := e
    simp only [mput]; split
    · simp only [mget, eq_comm]
    · split
      · subst_vars; simp only [mget, eq_comm]; split <;> simp_all
      · simp only [mget, ih]; split <;> split <;> simp_all

/-- A key that no entry has is not listed. -/
theorem mget_none {α} {m : List (Nat × α)} {k : Nat} (h : ∀ x ∈ m, k ≠ x.1) : mget m k = none := by
  induction m with
  | nil => rfl
  | cons e m ih =>
    obtain ⟨a, w⟩ := e
    simp only [mget]; rw [if_neg]
    · exact ih fun x hx => h x (List.mem_cons_of_mem _ hx)
    · exact fun e => h (a, w) (by simp) e.symm

/-- A key deleted from a sorted map is no longer listed, and every other key reads as before. -/
theorem mget_mdel {α} {m : List (Nat × α)} (k : Nat) (h : mwf m = true) (x : Nat) : mget (mdel m k) x = if x = k then none else mget m x := by
  induction m with
  | nil => simp [mdel, mget]
  | cons e m ih =>
    have hlt := mwf_lt h
    obtain ⟨a, w⟩ := e
    simp only [mdel]; split
    · subst_vars; simp only [mget]
      split
      · subst_vars; exact mget_none fun x hx => Nat.ne_of_lt (hlt x hx)
      · rw [if_neg]; intro e; exact absurd e.symm ‹_›
    · simp only [mget, ih (mwf_cons.mp h).2]; split <;> split <;> simp_all

/-- The same of maps whose unlisted keys read as a default. -/
theorem mgetD_mputD {α} [DecidableEq α] {m : List (Nat × α)} (k : Nat) (d v : α) (h : mwf m = true) (x : Nat) :
    mgetD (mputD m k d v) x d = if x = k then v else mgetD m x d := by
  unfold mgetD mputD; split
  · subst_vars; rw [mget_mdel _ h]; split <;> rfl
  · rw [mget_mput]; split <;> rfl

/-- A filter by key. -/
theorem mget_filter {α} (m : List (Nat × α)) (p : Nat → Bool) (x : Nat) : mget (m.filter fun e => p e.1) x = if p x then mget m x else none := by
  induction m with
  | nil => simp [mget]
  | cons e m ih =>
    obtain ⟨a, w⟩ := e
    rw [List.filter_cons]; simp only [mget]
    split
    · simp only [mget, ih]; split <;> simp_all
    · rw [ih]; by_cases e : a = x <;> simp_all

/-! ### Byte lists -/

/-- The bytes of a number read back as the number, as far as they reach. -/
theorem leNat_leBytes (n v : Nat) : leNat (leBytes n v) = v % 256 ^ n := by
  induction n generalizing v with
  | zero => simp [leBytes, leNat, Nat.mod_one]
  | succ n ih =>
    rw [leBytes, leNat, ih, BitVec.toNat_ofNat, show 256 ^ (n + 1) = 256 * 256 ^ n from Nat.pow_succ']
    exact Nat.mod_mul.symm

end Sys2Proof.Machine
end

