-- ==== Sys2Proof/Laws/Keeps.lean ====
section
/-! SUPPORT. What every operation of the machine keeps, said once: maps stay sorted, memory stays canonical, 37 cores, at most
65,536 log entries, the waiting commands untouched, the output only appended to, and no open value drawn twice. -/

namespace Sys2Proof.Machine

/-- From `a` to `s` nothing that must stay well kept was broken, no command left or joined the queue, nothing sent was taken
back, and the number of the next open value did not fall. -/
def Keeps (a s : State) : Prop :=
  (a.Canon → s.Canon) ∧ (a.cores.length = 37 → s.cores.length = 37) ∧ (a.log.length ≤ 65536 → s.log.length ≤ 65536) ∧
  s.pending = a.pending ∧ a.out <+: s.out ∧ a.fresh ≤ s.fresh

/-- What a service command's own part leaves. -/
inductive EndKeeps (a : State) : SvcEnd → Prop where
  | done {n r : Nat} {s : State} (h : Keeps a s) : EndKeeps a (.done n r s)
  | wait {s : State} (h : Keeps a s) : EndKeeps a (.wait s)

/-- What an instruction's own part leaves. -/
inductive IlKeeps (a : State) : IlEnd → Prop where
  | done {c : Core} {s : State} (h : Keeps a s) : IlKeeps a (.done c s)
  | exc {x y z : Nat} : IlKeeps a (.exc x y z)
  | excIn {s : State} {x y z : Nat} (h : Keeps a s) : IlKeeps a (.excIn s x y z)
  | next {c : Core} {s : State} {x y z : Nat} (h : Keeps a s) : IlKeeps a (.next c s x y z)

/-- What a command leaves: it always answers a next state. -/
inductive OutKeeps (a : State) : Host.Outcome State Fault Refusal → Prop where
  | next {s : State} (h : Keeps a s) : OutKeeps a (.next s)

theorem Keeps.refl (s : State) : Keeps s s := ⟨id, id, id, rfl, List.prefix_refl _, Nat.le_refl _⟩

/-! ### Composition -/

section
variable {a s : State}

theorem keeps_ite {c : Prop} {_ : Decidable c} {x y : State} (h1 : Keeps a x) (h2 : Keeps a y) : Keeps a (if c then x else y) := by
  split <;> assumption

theorem keeps_ite_snd {α : Type} {c : Prop} {_ : Decidable c} {x y : α × State} (h1 : Keeps a x.2) (h2 : Keeps a y.2) :
    Keeps a (if c then x else y).2 := by
  split <;> assumption

theorem keeps_ite_fst {α : Type} {c : Prop} {_ : Decidable c} {x y : State × α} (h1 : Keeps a x.1) (h2 : Keeps a y.1) :
    Keeps a (if c then x else y).1 := by
  split <;> assumption

theorem end_ite {c : Prop} {_ : Decidable c} {x y : SvcEnd} (h1 : EndKeeps a x) (h2 : EndKeeps a y) :
    EndKeeps a (if c then x else y) := by
  split <;> assumption

theorem il_ite {c : Prop} {_ : Decidable c} {x y : IlEnd} (h1 : IlKeeps a x) (h2 : IlKeeps a y) : IlKeeps a (if c then x else y) := by
  split <;> assumption

theorem out_ite {c : Prop} {_ : Decidable c} {x y : Host.Outcome State Fault Refusal} (h1 : OutKeeps a x) (h2 : OutKeeps a y) :
    OutKeeps a (if c then x else y) := by
  split <;> assumption

theorem keeps_of_snd {α : Type} {p : α × State} {x : α} {z : State} (e : p = (x, z)) (h : Keeps a p.2) : Keeps a z := by
  rw [e] at h; exact h

theorem keeps_of_mid {α β : Type} {p : α × β × State} {x : α} {y : β} {z : State} (e : p = (x, y, z)) (h : Keeps a p.2.2) :
    Keeps a z := by
  rw [e] at h; exact h

theorem keeps_ite_mid {α β : Type} {c : Prop} {_ : Decidable c} {x y : α × β × State} (h1 : Keeps a x.2.2) (h2 : Keeps a y.2.2) :
    Keeps a (if c then x else y).2.2 := by
  split <;> assumption

theorem il_of_done {e : IlEnd} {c : Core} {z : State} (h : e = .done c z) (k : IlKeeps a e) : Keeps a z := by
  subst h; cases k; assumption
theorem il_of_excIn {e : IlEnd} {x y w : Nat} {z : State} (h : e = .excIn z x y w) (k : IlKeeps a e) : Keeps a z := by
  subst h; cases k; assumption
theorem il_of_next {e : IlEnd} {c : Core} {x y w : Nat} {z : State} (h : e = .next c z x y w) (k : IlKeeps a e) : Keeps a z := by
  subst h; cases k; assumption

theorem keeps_of_fst {α : Type} {p : State × α} {x : α} {z : State} (e : p = (z, x)) (h : Keeps a p.1) : Keeps a z := by
  rw [e] at h; exact h

theorem end_done {n r : Nat} (h : Keeps a s) : EndKeeps a (.done n r s) := .done h
theorem end_wait (h : Keeps a s) : EndKeeps a (.wait s) := .wait h
theorem end_of_done {e : SvcEnd} {n r : Nat} {z : State} (h : e = .done n r z) (k : EndKeeps a e) : Keeps a z := by
  subst h; cases k; assumption
theorem end_of_wait {e : SvcEnd} {z : State} (h : e = .wait z) (k : EndKeeps a e) : Keeps a z := by subst h; cases k; assumption
theorem il_done {c : Core} (h : Keeps a s) : IlKeeps a (.done c s) := .done h
theorem il_exc {x y z : Nat} : IlKeeps a (.exc x y z) := .exc
theorem il_excIn {x y z : Nat} (h : Keeps a s) : IlKeeps a (.excIn s x y z) := .excIn h
theorem il_next {c : Core} {x y z : Nat} (h : Keeps a s) : IlKeeps a (.next c s x y z) := .next h
theorem out_next (h : Keeps a s) : OutKeeps a (.next s) := .next h
theorem keeps_of_next {o : Host.Outcome State Fault Refusal} {z : State} (e : o = .next z) (h : OutKeeps a o) : Keeps a z := by
  subst e; cases h; assumption

theorem keeps_foldl {β : Type} {f : State → β → State} {l : List β} (hf : ∀ z x, Keeps a z → Keeps a (f z x)) (h : Keeps a s) :
    Keeps a (l.foldl f s) := by
  induction l generalizing s with
  | nil => exact h
  | cons x l ih => exact ih (hf _ _ h)

theorem keeps_foldl_snd {α β : Type} {f : α × State → β → α × State} {l : List β} {p : α × State}
    (hf : ∀ q x, Keeps a q.2 → Keeps a (f q x).2) (h : Keeps a p.2) : Keeps a (l.foldl f p).2 := by
  induction l generalizing p with
  | nil => exact h
  | cons x l ih => exact ih (hf _ _ h)

theorem keeps_foldl_fst {α β : Type} {f : State × α → β → State × α} {l : List β} {p : State × α}
    (hf : ∀ q x, Keeps a q.1 → Keeps a (f q x).1) (h : Keeps a p.1) : Keeps a (l.foldl f p).1 := by
  induction l generalizing p with
  | nil => exact h
  | cons x l ih => exact ih (hf _ _ h)

theorem keeps_foldl_mid {α γ β : Type} {f : α × γ × State → β → α × γ × State} {l : List β} {p : α × γ × State}
    (hf : ∀ q x, Keeps a q.2.2 → Keeps a (f q x).2.2) (h : Keeps a p.2.2) : Keeps a (l.foldl f p).2.2 := by
  induction l generalizing p with
  | nil => exact h
  | cons x l ih => exact ih (hf _ _ h)

/-- An update of the fields no invariant speaks of, and of the tags but for the precise records. -/
theorem keeps_updT {n : Nat} {cm : List (Nat × Nat)} {hd : List (Nat × Emit)} {hD : List (Nat × Nat × Nat × List Byte)} {pw : Power}
    {tk : Tick} {cs : List SvcCmd} {cq : Nat} {fo : Foundry} {me : MediaState} {fe : Feed} {rm : Rmt} {ho : HostState} {ci : Ciph}
    {fl : Flash} {nv : Nvme} {ck : Ckpt} {pa : Pair} {ig : Intg} {mg : Mgmt} {t : Tags}
    (e : t.prec = s.tags.prec) (h : Keeps a s) :
    Keeps a ⟨n, s.fresh, s.regs, s.shadow, s.latches, s.tabAct, s.tabSh, cm, s.out, hd, hD, pw, tk, s.pairs, cs, cq, s.log,
      t, fo, me, fe, rm, ho, ci, fl, nv, ck, pa, ig, mg, s.cores, s.mem, s.pending⟩ := by
  unfold Keeps State.Canon at h ⊢; rw [e]; exact h

/-- An update of the fields no invariant speaks of. -/
theorem keeps_upd {n : Nat} {cm : List (Nat × Nat)} {hd : List (Nat × Emit)} {hD : List (Nat × Nat × Nat × List Byte)} {pw : Power}
    {tk : Tick} {cs : List SvcCmd} {cq : Nat} {fo : Foundry} {me : MediaState} {fe : Feed} {rm : Rmt} {ho : HostState} {ci : Ciph}
    {fl : Flash} {nv : Nvme} {ck : Ckpt} {pa : Pair} {ig : Intg} {mg : Mgmt} (h : Keeps a s) :
    Keeps a ⟨n, s.fresh, s.regs, s.shadow, s.latches, s.tabAct, s.tabSh, cm, s.out, hd, hD, pw, tk, s.pairs, cs, cq, s.log,
      s.tags, fo, me, fe, rm, ho, ci, fl, nv, ck, pa, ig, mg, s.cores, s.mem, s.pending⟩ := h

/-- One more open value is drawn, and fields no invariant speaks of change. -/
theorem keeps_draw {n : Nat} (h : Keeps a s) : Keeps a { s with fresh := s.fresh + n } :=
  ⟨h.1, h.2.1, h.2.2.1, h.2.2.2.1, h.2.2.2.2.1, Nat.le_trans h.2.2.2.2.2 (Nat.le_add_right _ _)⟩

/-- Something is sent. -/
theorem keeps_out {e : Emit} (h : Keeps a s) : Keeps a { s with out := s.out ++ [e] } :=
  ⟨h.1, h.2.1, h.2.2.1, h.2.2.2.1, h.2.2.2.2.1.trans (List.prefix_append _ _), h.2.2.2.2.2⟩

theorem keeps_mem {m : Memory} (hm : s.mem.wf = true → m.wf = true) (h : Keeps a s) : Keeps a { s with mem := m } :=
  ⟨fun c => ⟨(h.1 c).1, (h.1 c).2.1, (h.1 c).2.2.1, (h.1 c).2.2.2.1, (h.1 c).2.2.2.2.1, (h.1 c).2.2.2.2.2.1, (h.1 c).2.2.2.2.2.2.1,
    hm (h.1 c).2.2.2.2.2.2.2⟩, h.2⟩

theorem keeps_memWrite {k : Nat} {l : List Byte} (h : Keeps a s) : Keeps a { s with mem := memWrite s.mem k l } :=
  keeps_mem (memWrite_wf k l) h

theorem keeps_memClear {x y : Nat} (h : Keeps a s) : Keeps a { s with mem := memClear s.mem x y } := keeps_mem (memClear_wf x y) h

theorem keeps_memFilter {p : Host.Cell → Bool} (h : Keeps a s) : Keeps a { s with mem := s.mem.filter p } :=
  keeps_mem (mem_filter_wf p) h

theorem keeps_regs {m : List (Nat × Dword)} (hm : mwf s.regs = true → mwf m = true) (h : Keeps a s) : Keeps a { s with regs := m } :=
  ⟨fun c => ⟨hm (h.1 c).1, (h.1 c).2⟩, h.2⟩

theorem keeps_shadow {m : List (Nat × Dword)} (hm : mwf s.shadow = true → mwf m = true) (h : Keeps a s) :
    Keeps a { s with shadow := m } :=
  ⟨fun c => ⟨(h.1 c).1, hm (h.1 c).2.1, (h.1 c).2.2⟩, h.2⟩

theorem keeps_latches {m : List (Nat × Dword)} (hm : mwf s.latches = true → mwf m = true) (h : Keeps a s) :
    Keeps a { s with latches := m } :=
  ⟨fun c => ⟨(h.1 c).1, (h.1 c).2.1, hm (h.1 c).2.2.1, (h.1 c).2.2.2⟩, h.2⟩

theorem keeps_tabAct {m : List (Nat × Dword)} (hm : mwf s.tabAct = true → mwf m = true) (h : Keeps a s) :
    Keeps a { s with tabAct := m } :=
  ⟨fun c => ⟨(h.1 c).1, (h.1 c).2.1, (h.1 c).2.2.1, hm (h.1 c).2.2.2.1, (h.1 c).2.2.2.2⟩, h.2⟩

theorem keeps_tabSh {m : List (Nat × Dword)} (hm : mwf s.tabSh = true → mwf m = true) (h : Keeps a s) :
    Keeps a { s with tabSh := m } :=
  ⟨fun c => ⟨(h.1 c).1, (h.1 c).2.1, (h.1 c).2.2.1, (h.1 c).2.2.2.1, hm (h.1 c).2.2.2.2.1, (h.1 c).2.2.2.2.2⟩, h.2⟩

theorem keeps_pairs {m : List (Nat × QPair)} (hm : mwf s.pairs = true → mwf m = true) (h : Keeps a s) :
    Keeps a { s with pairs := m } :=
  ⟨fun c => ⟨(h.1 c).1, (h.1 c).2.1, (h.1 c).2.2.1, (h.1 c).2.2.2.1, (h.1 c).2.2.2.2.1, hm (h.1 c).2.2.2.2.2.1,
    (h.1 c).2.2.2.2.2.2⟩, h.2⟩

theorem keeps_prec {m : List (Nat × List (List Byte))} (hm : mwf s.tags.prec = true → mwf m = true) (h : Keeps a s) :
    Keeps a { s with tags := { s.tags with prec := m } } :=
  ⟨fun c => ⟨(h.1 c).1, (h.1 c).2.1, (h.1 c).2.2.1, (h.1 c).2.2.2.1, (h.1 c).2.2.2.2.1, (h.1 c).2.2.2.2.2.1,
    hm (h.1 c).2.2.2.2.2.2.1, (h.1 c).2.2.2.2.2.2.2⟩, h.2⟩

theorem keeps_cores {l : List Core} (hl : s.cores.length = 37 → l.length = 37) (h : Keeps a s) : Keeps a { s with cores := l } :=
  ⟨h.1, fun c => hl (h.2.1 c), h.2.2⟩

theorem keeps_log {l : List LogEntry} (hl : s.log.length ≤ 65536 → l.length ≤ 65536) (h : Keeps a s) : Keeps a { s with log := l } :=
  ⟨h.1, h.2.1, fun c => hl (h.2.2.1 c), h.2.2.2⟩

end

end Sys2Proof.Machine
end

