-- ==== Sys2Proof/Laws/KeepsShared.lean ====
section
/-! SUPPORT. What the shared operations: registers, output, pages, tags, resets, commands, queues, ticks, counters and cores keep (Laws/Keeps.lean): one lemma per function. -/

namespace Sys2Proof.Machine

theorem setReg_keeps {a0 s p off v} (h_s : Keeps a0 s) : Keeps a0 (setReg s p off v) := keeps_regs (mwf_mputD _ _ _) h_s

theorem setShadow_keeps {a0 s p off v} (h_s : Keeps a0 s) : Keeps a0 (setShadow s p off v) := keeps_shadow (mwf_mputD _ _
    _) h_s

theorem setRegN_keeps {a0 s p off v} (h_s : Keeps a0 s) : Keeps a0 (setRegN s p off v) := setReg_keeps h_s

theorem setFld_keeps {a0 s p off lo n v} (h_s : Keeps a0 s) : Keeps a0 (setFld s p off lo n v) := setRegN_keeps h_s

theorem addReg_keeps {a0 s p off n} (h_s : Keeps a0 s) : Keeps a0 (addReg s p off n) := setRegN_keeps h_s

theorem addSat_keeps {a0 s p off n max} (h_s : Keeps a0 s) : Keeps a0 (addSat s p off n max) := setRegN_keeps h_s

theorem setReg64_keeps {a0 s p off v} (h_s : Keeps a0 s) : Keeps a0 (setReg64 s p off v) := setRegN_keeps (setRegN_keeps h_s)

theorem setBlkState_keeps {a0 s p v} (h_s : Keeps a0 s) : Keeps a0 (setBlkState s p v) := setFld_keeps h_s

theorem setBlkEpoch_keeps {a0 s p v} (h_s : Keeps a0 s) : Keeps a0 (setBlkEpoch s p v) := setFld_keeps h_s

theorem putShadow_keeps {a0 s p off v} (h_s : Keeps a0 s) : Keeps a0 (putShadow s p off v) := by
  unfold putShadow
  split
  · exact keeps_tabSh (mwf_mputD _ _ _) h_s
  · exact setShadow_keeps h_s

theorem writeFields_keeps {a0 s a p off v} (h_s : Keeps a0 s) : Keeps a0 (writeFields s a p off v) := by
  unfold writeFields
  extract_lets
  rename_i v0 v1 v2 v3 v4
  clear_value v0 v1 v2 v3 v4
  exact putShadow_keeps (setRegN_keeps h_s)

theorem resetPage_keeps {a0 s p keep} (h_s : Keeps a0 s) : Keeps a0 (resetPage s p keep) :=
  keeps_latches (mwf_filter _) (keeps_shadow (mwf_filter _) (keeps_regs (mwf_filter _) h_s))

theorem forN_keeps {a0 n s f} (h_s : Keeps a0 s) (h_f : ∀ y0 y1, Keeps a0 y1 → Keeps a0 (f y0 y1)) : Keeps a0 (forN n s f)
    := keeps_foldl (fun _ _ h2 => h_f _ _ h2) h_s

theorem atTime_keeps {a0 t s} (h_s : Keeps a0 s) : Keeps a0 (atTime t s) := keeps_upd h_s

theorem freeVal_keeps {a0 s} (h_s : Keeps a0 s) : Keeps a0 (freeVal s).2 := keeps_draw h_s

theorem freeBytes_keeps {a0 n s} (h_s : Keeps a0 s) : Keeps a0 (freeBytes n s).2 := keeps_draw h_s

theorem emit_keeps {a0 e s} (h_s : Keeps a0 s) : Keeps a0 (emit e s) := keeps_out h_s

theorem sendHawser_keeps {a0 kind words s} (h_s : Keeps a0 s) : Keeps a0 (sendHawser kind words s) := by
  unfold sendHawser
  split
  · rename_i v0 v1
    exact h_s
  · rename_i v2 v3 v4 v5
    exact emit_keeps h_s

theorem putFn_keeps {a0 f x s} (h_s : Keeps a0 s) : Keeps a0 (putFn f x s) := keeps_upd h_s

theorem noteDirty_keeps {a0 f pasid addr len s} (h_s : Keeps a0 s) : Keeps a0 (noteDirty f pasid addr len s) := by
  unfold noteDirty
  extract_lets
  rename_i v0 v1 v2
  clear_value v0 v1 v2
  split
  · rename_i v3 v4
    exact h_s
  · rename_i v5 v6 v7
    refine keeps_ite (setFld_keeps h_s) ?_
    extract_lets
    rename_i v8 v9 v10
    clear_value v8 v9
    have k11 : Keeps a0 v10 := putFn_keeps h_s
    clear_value v10
    exact keeps_ite k11 (setFld_keeps k11)

theorem putDram_keeps {a0 off l s} (h_s : Keeps a0 s) : Keeps a0 (putDram off l s) := keeps_memWrite h_s

theorem windowPut_keeps {a0 f off l s} (h_s : Keeps a0 s) : Keeps a0 (windowPut f off l s) := keeps_ite (putDram_keeps h_s)
    h_s

theorem hostWrite_keeps {a0 f pasid bulk addr l s} (h_s : Keeps a0 s) : Keeps a0 (hostWrite f pasid bulk addr l s) :=
    keeps_ite (keeps_upd h_s) (emit_keeps (noteDirty_keeps h_s))

theorem dmaWrite_keeps {a0 func loc addr l s} (h_s : Keeps a0 s) : Keeps a0 (dmaWrite func loc addr l s) := keeps_ite
    (windowPut_keeps h_s) (hostWrite_keeps h_s)

theorem postEntry_keeps {a0 f loc addr bytes e s} (h_s : Keeps a0 s) : Keeps a0 (postEntry f loc addr bytes e s) := by
  unfold postEntry
  refine keeps_ite (setFld_keeps (keeps_upd h_s)) ?_
  extract_lets
  rename_i v0
  clear_value v0
  exact emit_keeps (keeps_ite (windowPut_keeps h_s) (noteDirty_keeps h_s))

theorem emitMsix_keeps {a0 f vector s} (h_s : Keeps a0 s) : Keeps a0 (emitMsix f vector s) := keeps_ite h_s (emit_keeps h_s)

theorem notifyPage_keeps {a0 p s} (h_s : Keeps a0 s) : Keeps a0 (notifyPage p s) := by
  unfold notifyPage
  extract_lets
  rename_i v0 v1
  clear_value v0
  have k2 : Keeps a0 v1 := by
    unfold v1
    refine keeps_ite ?_ h_s
    split
    · rename_i v3 v4
      exact emitMsix_keeps h_s
    · rename_i v5 v6
      exact emitMsix_keeps h_s
  clear_value v1
  exact keeps_ite (emit_keeps k2) k2

theorem pennantRaw_keeps {a0 p mask s} (h_s : Keeps a0 s) : Keeps a0 (pennantRaw p mask s) := by
  unfold pennantRaw
  extract_lets
  rename_i v0 v1 v2 v3
  clear_value v0 v1 v2
  have k4 : Keeps a0 v3 := setRegN_keeps h_s
  clear_value v3
  exact keeps_ite (notifyPage_keeps k4) k4

theorem errInfo_keeps {a0 p code detail s} (h_s : Keeps a0 s) : Keeps a0 (errInfo p code detail s) := keeps_ite h_s
    (setRegN_keeps h_s)

theorem setPcVal_keeps {a0 s p i v} (h_s : Keeps a0 s) : Keeps a0 (setPcVal s p i v) := setRegN_keeps (setRegN_keeps h_s)

theorem pcWrapped_keeps {a0 p i s} (h_s : Keeps a0 s) : Keeps a0 (pcWrapped p i s) := by
  unfold pcWrapped
  extract_lets
  rename_i v0 v1 v2 v3
  have k4 : ∀ z0 z1, Keeps a0 z1 → Keeps a0 (v0 z0 z1) := by
    intro y5 y6 h7
    unfold v0
    exact setRegN_keeps h7
  clear_value v0
  have k8 : ∀ z0, Keeps a0 z0 → Keeps a0 (v1 z0) := by
    intro y9 h10
    unfold v1
    exact errInfo_keeps (pennantRaw_keeps h10)
  clear_value v1 v2
  have k11 : Keeps a0 v3 := k4 _ _ (setPcVal_keeps h_s)
  clear_value v3
  exact keeps_ite (keeps_ite (k8 _ (k4 _ _ k11)) k11) (k8 _ (k4 _ _ h_s))

theorem pcAdd_keeps {a0 p i n s} (h_s : Keeps a0 s) : Keeps a0 (pcAdd p i n s) := by
  unfold pcAdd
  extract_lets
  rename_i v0 v1
  clear_value v0
  have k2 : Keeps a0 v1 := setPcVal_keeps h_s
  clear_value v1
  exact keeps_ite (pcWrapped_keeps k2) k2

theorem perfEvent_keeps {a0 p code qual n s} (h_s : Keeps a0 s) : Keeps a0 (perfEvent p code qual n s) := by
  unfold perfEvent
  refine forN_keeps h_s ?_
  intro y0 y1 h2
  split
  · rename_i v3 v4
    exact h2
  · rename_i v5 v6 v7
    extract_lets
    rename_i v8 v9
    clear_value v8 v9
    exact keeps_ite (pcAdd_keeps h2) h2

theorem pennant_keeps {a0 p mask s} (h_s : Keeps a0 s) : Keeps a0 (pennant p mask s) := by
  unfold pennant
  extract_lets
  rename_i v0 v1
  clear_value v0
  have k2 : Keeps a0 v1 := pennantRaw_keeps h_s
  clear_value v1
  exact keeps_ite k2 (forN_keeps k2 (fun _ _ h5 => keeps_ite (perfEvent_keeps h5) h5))

theorem penBit_keeps {a0 p b s} (h_s : Keeps a0 s) : Keeps a0 (penBit p b s) := pennant_keeps h_s

theorem setAlert_keeps {a0 bit on s} (h_s : Keeps a0 s) : Keeps a0 (setAlert bit on s) := by
  unfold setAlert
  extract_lets
  rename_i v0 v1 v2
  clear_value v0 v1
  have k3 : Keeps a0 v2 := setRegN_keeps h_s
  clear_value v2
  exact keeps_ite (emit_keeps k3) (keeps_ite (emit_keeps k3) k3)

theorem platformEvent_keeps {a0 cls data s} (h_s : Keeps a0 s) : Keeps a0 (platformEvent cls data s) := by
  unfold platformEvent
  split
  · rename_i v0 v1
    exact h_s
  · rename_i v2 v3 v4
    exact keeps_ite (keeps_upd h_s) (emit_keeps h_s)

theorem logMessage_keeps {a0 code s} (h_s : Keeps a0 s) : Keeps a0 (logMessage code s) := by
  unfold logMessage
  split
  · rename_i v0 v1
    exact h_s
  · rename_i v2 v3 v4
    split
    · rename_i v5 v6 v7 v8
      exact platformEvent_keeps (keeps_of_snd v8 (freeVal_keeps h_s))

theorem logEvent_keeps {a0 code p detail s} (h_s : Keeps a0 s) : Keeps a0 (logEvent code p detail s) := by
  unfold logEvent
  extract_lets n cls e kept w
  have hk : Keeps a0 w := setReg64_keeps (keeps_log (fun _ => by simp only [kept, List.length_append]; split <;> simp <;>
      omega)
      h_s)
  clear_value w
  exact keeps_ite (logMessage_keeps (setAlert_keeps (penBit_keeps hk)))
    (keeps_ite (logMessage_keeps (setAlert_keeps (penBit_keeps hk))) hk)

theorem setPair_keeps {a0 s f q p} (h_s : Keeps a0 s) : Keeps a0 (setPair s f q p) := keeps_pairs (mwf_mput _ _) h_s

theorem complete_keeps {a0 c status result s} (h_s : Keeps a0 s) : Keeps a0 (complete c status result s) := by
  unfold complete
  extract_lets
  rename_i v0
  have k1 : Keeps a0 v0 := keeps_upd h_s
  clear_value v0
  split
  · rename_i v2 v3
    exact k1
  · rename_i v4 v5 v6
    extract_lets
    rename_i v7 v8 v9 v10
    have k11 : Keeps a0 v10 := setPair_keeps k1
    clear_value v10
    exact keeps_ite (setPair_keeps k1) (emitMsix_keeps (postEntry_keeps k11))

theorem markBegun_keeps {a0 c s} (h_s : Keeps a0 s) : Keeps a0 (markBegun c s) := keeps_upd h_s

theorem runSvc_keeps {a0 k op inv fenced body s} (h_body : ∀ y0 y1, Keeps a0 y1 → EndKeeps a0 (body y0 y1)) (h_s : Keeps a0
    s) : Keeps a0 (runSvc k op inv fenced body s) := by
  unfold runSvc
  split
  · rename_i v0 v1
    exact h_s
  · rename_i v2 v3 v4
    refine keeps_ite h_s ?_
    split
    · rename_i v5 v6 v7
      exact complete_keeps h_s
    · rename_i v8 v9
      refine keeps_ite (complete_keeps h_s) (keeps_ite (complete_keeps h_s) (keeps_ite (complete_keeps h_s) ?_))
      split
      · rename_i v10 v11 v12 v13 v14
        exact complete_keeps (end_of_done v14 (h_body _ _ h_s))
      · rename_i v15 v16 v17
        exact markBegun_keeps (end_of_wait v17 (h_body _ _ h_s))

theorem finishCmds_keeps {a0 p status result s} (h_s : Keeps a0 s) : Keeps a0 (finishCmds p status result s) := keeps_foldl
    (fun _ _ h2 => complete_keeps h2) h_s

theorem abortCmds_keeps {a0 p status s} (h_s : Keeps a0 s) : Keeps a0 (abortCmds p status s) := keeps_foldl (fun _ _ h2 =>
    complete_keeps h2) h_s

theorem tagStart_keeps {a0 kind unit key id s} (h_s : Keeps a0 s) : Keeps a0 (tagStart kind unit key id s) := by
  unfold tagStart
  extract_lets
  rename_i v0 v1 v2 v3 v4 v5 v6
  clear_value v0 v1 v2
  have k7 : Keeps a0 v4 := keeps_updT rfl h_s
  clear_value v4 v5
  exact keeps_ite h_s (keeps_ite (keeps_updT rfl k7) k7)

theorem tagCandidate_keeps {a0 kind unit id s} (h_s : Keeps a0 s) : Keeps a0 (tagCandidate kind unit id s) :=
    tagStart_keeps h_s

theorem tagName_keeps {a0 kind key id s} (h_s : Keeps a0 s) : Keeps a0 (tagName kind key id s) := keeps_updT rfl h_s

theorem tagStage_keeps {a0 kind id stage last s} (h_s : Keeps a0 s) : Keeps a0 (tagStage kind id stage last s) := by
  unfold tagStage
  split
  · rename_i v0 v1
    exact h_s
  · rename_i v2 v3 v4
    exact keeps_ite h_s (keeps_updT rfl h_s)

theorem tagEnd_keeps {a0 kind id flags s} (h_s : Keeps a0 s) : Keeps a0 (tagEnd kind id flags s) := by
  unfold tagEnd
  split
  · rename_i v0 v1
    exact h_s
  · rename_i v2 v3 v4
    extract_lets
    rename_i v5 v6 v7 v8 v9 v10
    have k11 : Keeps a0 v6 := keeps_updT rfl h_s
    clear_value v6 v7 v8 v9
    have k12 : Keeps a0 v10 := windowPut_keeps k11
    clear_value v10
    exact keeps_ite (penBit_keeps (addSat_keeps k11)) (setRegN_keeps k12)

theorem setMgmt_keeps {a0 s f} (h_s : Keeps a0 s) : Keeps a0 (setMgmt s f) := keeps_upd h_s

theorem showMss_keeps {a0 s} (h_s : Keeps a0 s) : Keeps a0 (showMss s) := by
  unfold showMss
  extract_lets
  rename_i v0
  clear_value v0
  split
  · rename_i v1 v2 v3 v4 v5
    extract_lets
    rename_i v6 v7 v8
    clear_value v6
    have k9 : Keeps a0 v7 := setRegN_keeps (setRegN_keeps h_s)
    clear_value v7
    have k10 : Keeps a0 v8 := setRegN_keeps (setRegN_keeps k9)
    clear_value v8
    exact setRegN_keeps k10

theorem loadMssPart_keeps {a0 parts s} (h_s : Keeps a0 s) : Keeps a0 (loadMssPart parts s) := keeps_foldl (fun _ _ h2 =>
    keeps_ite (keeps_memWrite h2) h2) h_s

theorem startMssPart_keeps {a0 s} (h_s : Keeps a0 s) : Keeps a0 (startMssPart s) := by
  unfold startMssPart
  split
  · rename_i v0 v1 v2
    exact loadMssPart_keeps h_s
  · rename_i v3 v4
    exact h_s

theorem romBoot_keeps {a0 s} (h_s : Keeps a0 s) : Keeps a0 (romBoot s) := by
  unfold romBoot
  extract_lets
  rename_i v0 v1 v2
  have k3 : Keeps a0 v0 := setMgmt_keeps h_s
  clear_value v0 v1 v2
  split
  · rename_i v4 v5 v6 v7
    extract_lets
    rename_i v8 v9
    have k10 : Keeps a0 v8 := keeps_ite (logEvent_keeps k3) k3
    clear_value v8 v9
    split
    · rename_i v11 v12 v13 v14
      extract_lets
      rename_i v15 v16
      have k17 : Keeps a0 v15 := by
        unfold v15
        split
        · rename_i v18 v19
          exact logEvent_keeps (errInfo_keeps (penBit_keeps (keeps_of_snd v14 (freeVal_keeps k10))))
        · rename_i v20
          exact keeps_of_snd v14 (freeVal_keeps k10)
      clear_value v15
      have k21 : Keeps a0 v16 := keeps_ite (logEvent_keeps (setAlert_keeps k17)) (setAlert_keeps k17)
      clear_value v16
      exact showMss_keeps (startMssPart_keeps (setMgmt_keeps k21))

theorem countBoot_keeps {a0 s} (h_s : Keeps a0 s) : Keeps a0 (countBoot s) := showMss_keeps (setMgmt_keeps h_s)

theorem latchPage_keeps {a0 src mode seq ofs p s} (h_s : Keeps a0 s) : Keeps a0 (latchPage src mode seq ofs p s) := by
  unfold latchPage
  refine keeps_ite ?_ ?_
  · extract_lets
    rename_i v0
    clear_value v0
    exact penBit_keeps (setFld_keeps h_s)
  · extract_lets
    rename_i v1 v2 v3
    clear_value v1 v2
    have k4 : Keeps a0 v3 := keeps_foldl (fun _ _ h7 => setRegN_keeps h7) h_s
    clear_value v3
    exact keeps_foldl (fun _ _ h10 => setRegN_keeps h10) k4

theorem halyardLatch_keeps {a0 src mode ofs s} (h_s : Keeps a0 s) : Keeps a0 (halyardLatch src mode ofs s) := by
  unfold halyardLatch
  extract_lets
  rename_i v0 v1 v2 v3 v4 v5 v6
  clear_value v0 v1
  have k7 : Keeps a0 v2 := setFld_keeps h_s
  clear_value v2
  have k8 : Keeps a0 v3 := keeps_foldl (fun _ _ h11 => latchPage_keeps h11) k7
  clear_value v3
  have k12 : Keeps a0 v4 := penBit_keeps k8
  clear_value v4
  have k13 : Keeps a0 v5 := keeps_ite (setFld_keeps k12) k12
  clear_value v5
  have k14 : Keeps a0 v6 := keeps_ite (emit_keeps k13) k13
  clear_value v6
  exact keeps_ite (sendHawser_keeps k14) k14

theorem halyardTrigger_keeps {a0 src t s} (h_s : Keeps a0 s) : Keeps a0 (halyardTrigger src t s) := by
  unfold halyardTrigger
  extract_lets
  rename_i v0 v1 v2 v3 v4
  clear_value v0 v1 v2
  have k5 : Keeps a0 v3 := keeps_upd h_s
  clear_value v3 v4
  refine keeps_ite (keeps_ite (keeps_ite k5 (keeps_ite (keeps_upd k5) (halyardLatch_keeps k5))) ?_) h_s
  split
  · rename_i v6 v7 v8
    exact h_s
  · rename_i v9 v10
    exact keeps_upd h_s

theorem halyardEdge_keeps {a0 prev t s} (h_s : Keeps a0 s) : Keeps a0 (halyardEdge prev t s) := by
  unfold halyardEdge
  extract_lets
  rename_i v0 v1 v2 v3 v4 v5
  clear_value v0 v1 v2 v3
  have k6 : Keeps a0 v4 := keeps_ite (keeps_upd h_s) h_s
  clear_value v4 v5
  split
  · rename_i v7 v8 v9
    exact halyardLatch_keeps (keeps_upd k6)
  · rename_i v10 v11
    exact k6

theorem halyardAfterEdge_keeps {a0 prev s} (h_s : Keeps a0 s) : Keeps a0 (halyardAfterEdge prev s) := by
  unfold halyardAfterEdge
  extract_lets
  rename_i v0 v1 v2 v3 v4 v5
  clear_value v0 v1 v2 v3 v4
  have k6 : Keeps a0 v5 := keeps_upd h_s
  clear_value v5
  refine keeps_ite (keeps_ite k6 ?_) h_s
  split
  · rename_i v7 v8 v9 v10
    exact halyardLatch_keeps (keeps_of_snd v10 (freeVal_keeps k6))

theorem execHalyardFire_keeps {a0 t v s} (h_s : Keeps a0 s) : OutKeeps a0 (execHalyardFire t v s) := out_next (keeps_ite
    (halyardTrigger_keeps (atTime_keeps h_s)) (atTime_keeps h_s))

theorem execHalyardIn_keeps {a0 t s} (h_s : Keeps a0 s) : OutKeeps a0 (execHalyardIn t s) := by
  unfold execHalyardIn
  refine out_next (halyardTrigger_keeps ?_)
  extract_lets
  rename_i v0 v1
  have k2 : Keeps a0 v0 := atTime_keeps h_s
  clear_value v0 v1
  exact keeps_upd k2

theorem execHalyardMgmtTrigger_keeps {a0 t s} (h_s : Keeps a0 s) : OutKeeps a0 (execHalyardMgmtTrigger t s) := out_next
    (halyardTrigger_keeps (atTime_keeps h_s))

theorem execSnapValidClear_keeps {a0 p s} (h_s : Keeps a0 s) : OutKeeps a0 (execSnapValidClear p s) := out_next (keeps_ite
    (setFld_keeps h_s) h_s)

theorem precClear_keeps {a0 s} (h_s : Keeps a0 s) : Keeps a0 (precClear s) := by
  unfold precClear
  extract_lets
  rename_i v0 v1
  clear_value v0
  exact setRegN_keeps (keeps_prec (mwf_mdel _) h_s)

theorem enableWrite_keeps {a0 a p v s} (h_s : Keeps a0 s) : Keeps a0 (enableWrite a p v s) := by
  unfold enableWrite
  extract_lets
  rename_i v0 v1
  clear_value v0
  have k2 : Keeps a0 v1 := writeFields_keeps h_s
  clear_value v1
  exact keeps_ite (notifyPage_keeps k2) k2

theorem plainWrite_keeps {a0 a addr v s} (h_s : Keeps a0 s) : Keeps a0 (plainWrite a addr v s) := by
  unfold plainWrite
  split
  · rename_i v0 v1
    exact h_s
  · rename_i v2 v3 v4
    extract_lets
    rename_i v5 v6 v7 v8
    clear_value v5 v6
    have k9 : Keeps a0 v7 := writeFields_keeps h_s
    clear_value v7
    exact keeps_ite h_s (keeps_ite (setFld_keeps (setFld_keeps h_s)) (keeps_ite (enableWrite_keeps h_s) (keeps_ite (keeps_upd
        h_s) (keeps_ite (keeps_updT rfl k9) (keeps_ite (precClear_keeps k9) k9)))))

theorem logAlert_keeps {a0 p s} (h_s : Keeps a0 s) : Keeps a0 (logAlert p s) := keeps_ite (setAlert_keeps h_s) h_s

theorem execPennantWrite_keeps {a0 a p v s} (h_s : Keeps a0 s) : OutKeeps a0 (execPennantWrite a p v s) := by
  unfold execPennantWrite
  refine out_next (keeps_ite ?_ h_s)
  extract_lets
  rename_i v0
  have k1 : Keeps a0 v0 := logAlert_keeps (writeFields_keeps h_s)
  clear_value v0
  exact keeps_ite (notifyPage_keeps k1) k1

theorem execPennantForce_keeps {a0 a p v s} (h_s : Keeps a0 s) : OutKeeps a0 (execPennantForce a p v s) := out_next
    (keeps_ite (logAlert_keeps (pennant_keeps h_s)) h_s)

theorem commitReq_keeps {a0 t p s} (h_s : Keeps a0 s) : Keeps a0 (commitReq t p s) := by
  unfold commitReq
  extract_lets
  rename_i v0 v1
  clear_value v0
  have k2 : Keeps a0 v1 := setFld_keeps h_s
  clear_value v1
  split
  · rename_i v3 v4 v5
    exact k2
  · rename_i v6 v7
    exact keeps_upd k2

theorem execGlbDrvAbi_keeps {a0 v s} (h_s : Keeps a0 s) : OutKeeps a0 (execGlbDrvAbi v s) := by
  unfold execGlbDrvAbi
  refine out_next (keeps_ite h_s ?_)
  extract_lets
  rename_i v0 v1
  clear_value v0
  have k2 : Keeps a0 v1 := setRegN_keeps (setReg_keeps h_s)
  clear_value v1
  exact keeps_ite (penBit_keeps k2) k2

theorem execFuncDrvAbi_keeps {a0 func v s} (h_s : Keeps a0 s) : OutKeeps a0 (execFuncDrvAbi func v s) := by
  unfold execFuncDrvAbi
  refine out_next (keeps_ite h_s ?_)
  extract_lets
  rename_i v0 v1
  clear_value v0
  have k2 : Keeps a0 v1 := setRegN_keeps (setReg_keeps h_s)
  clear_value v1
  exact keeps_ite (penBit_keeps k2) k2

theorem execSqTail_keeps {a0 func pair index s} (h_s : Keeps a0 s) : OutKeeps a0 (execSqTail func pair index s) := by
  unfold execSqTail
  refine out_next ?_
  split
  · rename_i v0 v1 v2
    exact keeps_ite (setPair_keeps h_s) (penBit_keeps h_s)
  · rename_i v3 v4
    exact penBit_keeps h_s

theorem execCqHead_keeps {a0 func pair index s} (h_s : Keeps a0 s) : OutKeeps a0 (execCqHead func pair index s) := by
  unfold execCqHead
  refine out_next ?_
  split
  · rename_i v0 v1 v2
    exact keeps_ite (setPair_keeps h_s) (penBit_keeps h_s)
  · rename_i v3 v4
    exact penBit_keeps h_s

theorem pcCtlWrite_keeps {a0 a p i v s} (h_s : Keeps a0 s) : Keeps a0 (pcCtlWrite a p i v s) := by
  unfold pcCtlWrite
  refine keeps_ite h_s ?_
  extract_lets
  rename_i v0 v1
  have k2 : Keeps a0 v0 := writeFields_keeps h_s
  clear_value v0
  have k3 : Keeps a0 v1 := keeps_ite (setPcVal_keeps k2) k2
  clear_value v1
  exact keeps_ite k3 (penBit_keeps k3)

theorem flitOn_keeps {a0 l lane ftype seq first payload s} (h_s : Keeps a0 s) : Keeps a0 (flitOn l lane ftype seq first
    payload s) := perfEvent_keeps (emit_keeps h_s)

theorem clearAgreement_keeps {a0 f s} (h_s : Keeps a0 s) : Keeps a0 (clearAgreement f s) := keeps_ite (setRegN_keeps
    (setRegN_keeps h_s)) (setRegN_keeps (setRegN_keeps h_s))

theorem setNvme_keeps {a0 s f} (h_s : Keeps a0 s) : Keeps a0 (setNvme s f) := keeps_upd h_s

theorem putCtrl_keeps {a0 f x s} (h_s : Keeps a0 s) : Keeps a0 (putCtrl f x s) := setNvme_keeps h_s

theorem setAgreement_keeps {a0 f v s} (h_s : Keeps a0 s) : Keeps a0 (setAgreement f v s) := keeps_ite (setRegN_keeps h_s)
    (setRegN_keeps h_s)

theorem deletePair_keeps {a0 func pair s} (h_s : Keeps a0 s) : Keeps a0 (deletePair func pair s) := by
  unfold deletePair
  split
  · rename_i v0 v1
    exact h_s
  · rename_i v2 v3 v4
    extract_lets
    rename_i v5
    have k6 : Keeps a0 v5 := setPair_keeps h_s
    clear_value v5
    exact abortCmds_keeps k6

theorem setCkptMode_keeps {a0 v s} (h_s : Keeps a0 s) : Keeps a0 (setCkptMode v s) := keeps_ite h_s (setBlkState_keeps h_s)

theorem putNs_keeps {a0 i x s} (h_s : Keeps a0 s) : Keeps a0 (putNs i x s) := setNvme_keeps h_s

theorem nvmeCount_keeps {a0 i s} (h_s : Keeps a0 s) : Keeps a0 (nvmeCount i s) := addReg_keeps h_s

theorem cqSignal_keeps {a0 f qid s} (h_s : Keeps a0 s) : Keeps a0 (cqSignal f qid s) := by
  unfold cqSignal
  extract_lets
  rename_i v0
  clear_value v0
  split
  · rename_i v1 v2
    exact h_s
  · rename_i v3 v4 v5
    exact keeps_ite h_s (keeps_ite (emitMsix_keeps h_s) (keeps_ite (emitMsix_keeps (putCtrl_keeps h_s)) (putCtrl_keeps h_s)))

theorem putCqe_keeps {a0 f qid dw s} (h_s : Keeps a0 s) : Keeps a0 (putCqe f qid dw s) := by
  unfold putCqe
  extract_lets
  rename_i v0
  clear_value v0
  split
  · rename_i v1 v2
    exact h_s
  · rename_i v3 v4 v5
    refine keeps_ite (putCtrl_keeps h_s) ?_
    extract_lets
    rename_i v6 v7 v8 v9
    clear_value v6 v7 v8
    have k10 : Keeps a0 v9 := putCtrl_keeps h_s
    clear_value v9
    exact cqSignal_keeps (postEntry_keeps k10)

theorem noteError_keeps {a0 f sq cid status s} (h_s : Keeps a0 s) : Keeps a0 (noteError f sq cid status s) := by
  unfold noteError
  split
  · rename_i v0 v1 v2 v3
    exact putCtrl_keeps (keeps_of_snd v3 (freeBytes_keeps h_s))

theorem postNvme_keeps {a0 f sq cid status dw0 s} (h_s : Keeps a0 s) : Keeps a0 (postNvme f sq cid status dw0 s) := by
  unfold postNvme
  extract_lets
  rename_i v0 v1 v2
  clear_value v0
  have k3 : Keeps a0 v1 := keeps_ite h_s (noteError_keeps h_s)
  clear_value v1
  have k4 : Keeps a0 v2 := keeps_ite k3 (nvmeCount_keeps k3)
  clear_value v2
  split
  · rename_i v5 v6
    exact h_s
  · rename_i v7 v8 v9
    exact putCqe_keeps k4

theorem asyncEvent_keeps {a0 f ty info page s} (h_s : Keeps a0 s) : Keeps a0 (asyncEvent f ty info page s) := by
  unfold asyncEvent
  extract_lets
  rename_i v0 v1
  clear_value v0 v1
  split
  · rename_i v2 v3 v4 v5
    exact postNvme_keeps (putCtrl_keeps h_s)
  · rename_i v6 v7
    exact keeps_ite h_s (putCtrl_keeps h_s)

theorem asyncAll_keeps {a0 ty info page s} (h_s : Keeps a0 s) : Keeps a0 (asyncAll ty info page s) := keeps_foldl (fun _ _
    h2 => asyncEvent_keeps h2) h_s

theorem endNvme_keeps {a0 f c status dw0 s} (h_s : Keeps a0 s) : Keeps a0 (endNvme f c status dw0 s) := by
  unfold endNvme
  extract_lets
  rename_i v0 v1 v2 v3 v4 v5
  have k6 : Keeps a0 v0 := tagStage_keeps h_s
  clear_value v0
  have k7 : Keeps a0 v1 := tagEnd_keeps k6
  clear_value v1 v2
  have k8 : Keeps a0 v3 := putCtrl_keeps k7
  clear_value v3 v4
  have k9 : Keeps a0 v5 := keeps_upd k8
  clear_value v5
  exact keeps_ite k9 (postNvme_keeps k9)

theorem setFlash_keeps {a0 s f} (h_s : Keeps a0 s) : Keeps a0 (setFlash s f) := keeps_upd h_s

theorem setDie_keeps {a0 d state cause family s} (h_s : Keeps a0 s) : Keeps a0 (setDie d state cause family s) := by
  unfold setDie
  extract_lets
  rename_i v0 v1
  clear_value v0 v1
  exact setFld_keeps (setFld_keeps (setFld_keeps h_s))

theorem updateWarn_keeps {a0 s} (h_s : Keeps a0 s) : Keeps a0 (updateWarn s) := by
  unfold updateWarn
  extract_lets
  rename_i v0 v1
  clear_value v0
  exact keeps_ite h_s (asyncAll_keeps (setFlash_keeps h_s))

theorem enterReadOnly_keeps {a0 s} (h_s : Keeps a0 s) : Keeps a0 (enterReadOnly s) := keeps_ite h_s (penBit_keeps
    (setBlkState_keeps h_s))

theorem checkSpares_keeps {a0 low s} (h_s : Keeps a0 s) : Keeps a0 (checkSpares low s) := by
  unfold checkSpares
  extract_lets
  rename_i v0 v1 v2
  clear_value v0
  have k3 : Keeps a0 v1 := keeps_ite (penBit_keeps h_s) h_s
  clear_value v1
  have k4 : Keeps a0 v2 := keeps_ite (enterReadOnly_keeps k3) k3
  clear_value v2
  exact updateWarn_keeps k4

theorem losePosition_keeps {a0 p s} (h_s : Keeps a0 s) : Keeps a0 (losePosition p s) := by
  unfold losePosition
  extract_lets
  rename_i v0 v1 v2 v3
  clear_value v0 v1
  have k4 : Keeps a0 v2 := setFlash_keeps h_s
  clear_value v2
  have k5 : Keeps a0 v3 := errInfo_keeps (penBit_keeps k4)
  clear_value v3
  exact keeps_foldl (fun _ _ h8 => logEvent_keeps h8) k5

theorem loseDie_keeps {a0 d back s} (h_s : Keeps a0 s) : Keeps a0 (loseDie d back s) := by
  unfold loseDie
  refine keeps_ite h_s ?_
  extract_lets
  rename_i v0 v1 v2 v3 v4 v5 v6 v7 v8
  clear_value v0 v1 v2
  have k9 : Keeps a0 v3 := setDie_keeps h_s
  clear_value v3
  have k10 : Keeps a0 v4 := errInfo_keeps (penBit_keeps k9)
  clear_value v4
  have k11 : Keeps a0 v5 := setFlash_keeps k10
  clear_value v5
  have k12 : Keeps a0 v6 := penBit_keeps k11
  clear_value v6
  have k13 : Keeps a0 v7 := keeps_ite (losePosition_keeps k12) k12
  clear_value v7
  have k14 : Keeps a0 v8 := keeps_ite (setBlkState_keeps k13) k13
  clear_value v8
  exact checkSpares_keeps k14

theorem fenceChannel_keeps {a0 ch s} (h_s : Keeps a0 s) : Keeps a0 (fenceChannel ch s) := forN_keeps h_s (fun _ _ h2 =>
    loseDie_keeps h2)

theorem returnHeld_keeps {a0 k s} (h_s : Keeps a0 s) : Keeps a0 (returnHeld k s) := keeps_upd h_s

theorem recordBad_keeps {a0 addr write s} (h_s : Keeps a0 s) : Keeps a0 (recordBad addr write s) := penBit_keeps
    (setRegN_keeps h_s)

theorem execBlkCommit_keeps {a0 t p s} (h_s : Keeps a0 s) : OutKeeps a0 (execBlkCommit t p s) := by
  unfold execBlkCommit
  refine out_next ?_
  extract_lets
  rename_i v0
  have k1 : Keeps a0 v0 := atTime_keeps h_s
  clear_value v0
  exact keeps_ite k1 (commitReq_keeps k1)

theorem setQualified_keeps {a0 src on s} (h_s : Keeps a0 s) : Keeps a0 (setQualified src on s) := setFld_keeps h_s

theorem chooseSource_keeps {a0 s} (h_s : Keeps a0 s) : Keeps a0 (chooseSource s) := by
  unfold chooseSource
  extract_lets
  rename_i v0 v1 v2 v3
  clear_value v0 v1
  have k4 : Keeps a0 v2 := setFld_keeps h_s
  clear_value v2 v3
  exact keeps_ite (keeps_ite (keeps_upd k4) (keeps_ite (keeps_upd h_s) h_s)) (keeps_ite (keeps_upd h_s) (keeps_ite h_s
      (keeps_upd h_s)))

theorem showPhase_keeps {a0 d s} (h_s : Keeps a0 s) : Keeps a0 (showPhase d s) := setReg_keeps h_s

theorem trackFreq_keeps {a0 src goesOn dev own s} (h_s : Keeps a0 s) : Keeps a0 (trackFreq src goesOn dev own s) := by
  unfold trackFreq
  extract_lets
  rename_i v0 v1 v2
  clear_value v0 v1 v2
  exact keeps_upd h_s

theorem sourceEdge_keeps {a0 src e s} (h_s : Keeps a0 s) : Keeps a0 (sourceEdge src e s) := by
  unfold sourceEdge
  extract_lets
  rename_i v0 v1 v2 v3 v4 v5 v6 v7 v8 v9 v10 v11
  clear_value v0 v1 v2
  have k12 : Keeps a0 v3 := trackFreq_keeps h_s
  clear_value v3 v4
  have k13 : Keeps a0 v5 := keeps_upd k12
  clear_value v5 v6 v7 v8
  have k14 : Keeps a0 v9 := trackFreq_keeps h_s
  clear_value v9 v10
  have k15 : Keeps a0 v11 := keeps_upd k14
  clear_value v11
  exact keeps_ite (keeps_ite (keeps_ite (penBit_keeps (setFld_keeps h_s)) h_s) (keeps_ite (showPhase_keeps k13) k13))
      (keeps_ite (chooseSource_keeps (setQualified_keeps k15)) k15)

theorem execTickinEdge_keeps {a0 t s} (h_s : Keeps a0 s) : OutKeeps a0 (execTickinEdge t s) := out_next (sourceEdge_keeps
    (atTime_keeps h_s))

theorem execPtpMessage_keeps {a0 t port domain sync offset ptpNs s} (h_s : Keeps a0 s) : OutKeeps a0 (execPtpMessage t port
    domain sync offset ptpNs s) := by
  unfold execPtpMessage
  refine out_next ?_
  extract_lets
  rename_i v0 v1 v2 v3 v4 v5 v6 v7 v8
  clear_value v0
  have k9 : Keeps a0 v1 := atTime_keeps h_s
  clear_value v1 v2 v3 v4
  have k10 : Keeps a0 v5 := by
    unfold v5
    split
    · rename_i v11 v12 v13
      exact trackFreq_keeps k9
    · rename_i v14 v15
      exact k9
  clear_value v5 v6
  have k16 : Keeps a0 v7 := keeps_upd k10
  clear_value v7
  have k17 : Keeps a0 v8 := keeps_ite (showPhase_keeps k16) k16
  clear_value v8
  exact keeps_ite (keeps_ite (chooseSource_keeps (setQualified_keeps k17)) k17) (atTime_keeps h_s)

theorem execSrcLost_keeps {a0 t src s} (h_s : Keeps a0 s) : OutKeeps a0 (execSrcLost t src s) := by
  unfold execSrcLost
  refine out_next (keeps_ite ?_ h_s)
  extract_lets
  rename_i v0 v1 v2 v3 v4 v5
  clear_value v0
  have k6 : Keeps a0 v1 := setQualified_keeps (atTime_keeps h_s)
  clear_value v1 v2
  have k7 : Keeps a0 v3 := keeps_upd k6
  clear_value v3
  have k8 : Keeps a0 v4 := setFld_keeps (penBit_keeps k7)
  clear_value v4 v5
  exact keeps_ite (chooseSource_keeps (keeps_upd k8)) (chooseSource_keeps k7)

theorem execHoldoverExpiry_keeps {a0 t s} (h_s : Keeps a0 s) : OutKeeps a0 (execHoldoverExpiry t s) := by
  unfold execHoldoverExpiry
  refine out_next ?_
  split
  · rename_i v0 v1 v2
    exact keeps_ite (penBit_keeps (atTime_keeps h_s)) h_s
  · rename_i v3 v4
    exact h_s

theorem setLatch_keeps {a0 a p off v s} (h_s : Keeps a0 s) : Keeps a0 (setLatch a p off v s) := keeps_latches (mwf_mput _
    _) h_s

theorem pcRead_keeps {a0 a p i s} (h_s : Keeps a0 s) : Keeps a0 (pcRead a p i s) := by
  unfold pcRead
  extract_lets
  rename_i v0 v1 v2 v3
  clear_value v0
  have k4 : Keeps a0 v2 := setLatch_keeps h_s
  clear_value v2
  have k5 : Keeps a0 v3 := by
    unfold v3
    split
    · rename_i v6 v7 v8
      exact keeps_latches (mwf_mdel _) h_s
    · rename_i v9 v10
      exact keeps_ite (setLatch_keeps (setLatch_keeps k4)) k4
  clear_value v3
  exact setRegN_keeps (setRegN_keeps k5)

theorem execCommandFetch_keeps {a0 func pair dw s} (h_s : Keeps a0 s) : OutKeeps a0 (execCommandFetch func pair dw s) := by
  unfold execCommandFetch
  refine out_next ?_
  split
  · rename_i v0 v1
    exact h_s
  · rename_i v2 v3 v4
    refine keeps_ite h_s ?_
    split
    · rename_i v5
      exact setPair_keeps h_s
    · rename_i v6 v7
      extract_lets
      rename_i v8 v9 v10 v11 v12
      clear_value v8 v9
      have k13 : Keeps a0 v10 := setPair_keeps h_s
      clear_value v10
      have k14 : Keeps a0 v11 := keeps_upd k13
      clear_value v11 v12
      refine keeps_ite (complete_keeps k14) ?_
      split
      · rename_i v15 v16
        exact complete_keeps k14
      · rename_i v17
        exact k14

theorem execCmdNop_keeps {a0 k s} (h_s : Keeps a0 s) : OutKeeps a0 (execCmdNop k s) := out_next (runSvc_keeps (fun _ _ h2
    => end_done h2) h_s)

theorem execCreateQpair_keeps {a0 k s} (h_s : Keeps a0 s) : OutKeeps a0 (execCreateQpair k s) := out_next (runSvc_keeps
    (fun _ _ h2 => end_ite (end_done h2) (end_done (setPair_keeps h2))) h_s)

theorem execDeleteQpair_keeps {a0 k s} (h_s : Keeps a0 s) : OutKeeps a0 (execDeleteQpair k s) := by
  unfold execDeleteQpair
  refine out_next (runSvc_keeps ?_ h_s)
  intro y0 y1 h2
  extract_lets
  rename_i v3
  clear_value v3
  exact end_ite (end_wait (deletePair_keeps h2)) (end_done h2)

theorem execQpairDeleted_keeps {a0 func pair s} (h_s : Keeps a0 s) : OutKeeps a0 (execQpairDeleted func pair s) := by
  unfold execQpairDeleted
  refine out_next (keeps_ite ?_ h_s)
  extract_lets
  rename_i v0
  have k1 : Keeps a0 v0 := keeps_pairs (mwf_mdel _) h_s
  clear_value v0
  exact finishCmds_keeps k1

theorem execQueryObject_keeps {a0 k s} (h_s : Keeps a0 s) : OutKeeps a0 (execQueryObject k s) := out_next (runSvc_keeps
    (fun _ _ h2 => end_done h2) h_s)

theorem keepMedium_keeps {a0 old s} (h_old : Keeps a0 old) (h_s : Keeps a0 s) : Keeps a0 (keepMedium old s) := keeps_upd h_s

theorem writeRoots_keeps {a0 s} (h_s : Keeps a0 s) : Keeps a0 (writeRoots s) := keeps_upd h_s

theorem releaseReset_keeps {a0 t s} (h_s : Keeps a0 s) : Keeps a0 (releaseReset t s) := by
  unfold releaseReset
  extract_lets
  rename_i v0 v1 v2 v3 v4 v5 v6
  have k7 : Keeps a0 v0 := atTime_keeps h_s
  clear_value v0 v1
  have k8 : Keeps a0 v2 := countBoot_keeps k7
  clear_value v2
  have k9 : Keeps a0 v3 := keeps_ite k8 (forN_keeps k8 (fun _ _ h12 => setRegN_keeps h12))
  clear_value v3 v4 v5 v6
  exact emit_keeps (keeps_upd k9)

theorem unitsOff_keeps {a0 s} (h_s : Keeps a0 s) : Keeps a0 (unitsOff s) := by
  unfold unitsOff
  extract_lets r s1
  have h1 : Keeps a0 s1 := setRegN_keeps h_s
  clear_value s1
  refine ⟨fun c => ?_, fun c => ?_, h1.2.2⟩
  · obtain ⟨c1, c2, c3, -, -, -, -, c8⟩ := h1.1 c
    exact ⟨mwf_filter _ c1, mwf_filter _ c2, mwf_filter _ c3, rfl, rfl, rfl, rfl, mem_filter_wf _ c8⟩
  · have h37 : (r.cores.take 36).length = 36 := by decide
    have := h1.2.1 c
    simp only [List.length_append, h37, List.length_drop]; omega

theorem mainReset_keeps {a0 s} (h_s : Keeps a0 s) : Keeps a0 (mainReset s) := by
  unfold mainReset
  extract_lets vin vaux s1 s2 u s3
  have h1 : Keeps a0 s1 := setAlert_keeps (setAlert_keeps h_s)
  have h2 : Keeps a0 s2 := setRegN_keeps (keeps_ite (romBoot_keeps h1) h1)
  clear_value s2
  have hu : Keeps a0 u := unitsOff_keeps h2
  clear_value u
  refine setRegN_keeps (setRegN_keeps (keepMedium_keeps h2 ⟨fun c => ?_, hu.2⟩))
  obtain ⟨c1, c2, c3, c4, c5, c6, c7, c8⟩ := hu.1 c
  exact ⟨mwf_filter _ c1, mwf_filter _ c2, c3, c4, c5, c6, c7, c8⟩

theorem mainResetNow_keeps {a0 t s} (h_s : Keeps a0 s) : Keeps a0 (mainResetNow t s) := by
  unfold mainResetNow
  extract_lets
  rename_i v0 v1 v2
  have k3 : Keeps a0 v0 := mainReset_keeps (atTime_keeps h_s)
  clear_value v0
  have k4 : Keeps a0 v1 := keeps_ite (emit_keeps k3) k3
  clear_value v1 v2
  exact keeps_ite (keeps_upd k4) (keeps_ite (releaseReset_keeps k3) k3)

theorem setCiph_keeps {a0 s f} (h_s : Keeps a0 s) : Keeps a0 (setCiph s f) := keeps_upd h_s

theorem ciphCount_keeps {a0 i s} (h_s : Keeps a0 s) : Keeps a0 (ciphCount i s) := addReg_keeps h_s

theorem authFail_keeps {a0 slot s} (h_s : Keeps a0 s) : Keeps a0 (authFail slot s) := errInfo_keeps (penBit_keeps
    (ciphCount_keeps h_s))

theorem ciphIntegrity_keeps {a0 slot s} (h_s : Keeps a0 s) : Keeps a0 (ciphIntegrity slot s) := errInfo_keeps (penBit_keeps
    (ciphCount_keeps h_s))

theorem fillSlot_keeps {a0 i k s} (h_s : Keeps a0 s) : Keeps a0 (fillSlot i k s) := by
  unfold fillSlot
  extract_lets
  rename_i v0
  have k1 : Keeps a0 v0 := ciphCount_keeps (setCiph_keeps h_s)
  clear_value v0
  exact keeps_ite (penBit_keeps k1) k1

theorem eraseSlot_keeps {a0 i s} (h_s : Keeps a0 s) : Keeps a0 (eraseSlot i s) := ciphCount_keeps (setCiph_keeps h_s)

theorem newDeviceKey_keeps {a0 nsid s} (h_s : Keeps a0 s) : Keeps a0 (newDeviceKey nsid s) := by
  unfold newDeviceKey
  extract_lets
  rename_i v0 v1
  clear_value v0
  have k2 : Keeps a0 v1 := keeps_ite (eraseSlot_keeps h_s) h_s
  clear_value v1
  split
  · rename_i v3 v4 v5 v6
    extract_lets
    rename_i v7
    clear_value v7
    exact fillSlot_keeps (keeps_of_snd v6 (freeBytes_keeps k2))

theorem dropDeviceKey_keeps {a0 nsid s} (h_s : Keeps a0 s) : Keeps a0 (dropDeviceKey nsid s) := keeps_ite (eraseSlot_keeps
    h_s) h_s

theorem useKey_keeps {a0 i s} (h_s : Keeps a0 s) : Keeps a0 (useKey i s) := by
  unfold useKey
  refine keeps_ite h_s ?_
  extract_lets
  rename_i v0
  have k1 : Keeps a0 v0 := ciphCount_keeps h_s
  clear_value v0
  refine keeps_ite (setCiph_keeps k1) ?_
  split
  · rename_i v2 v3 v4 v5
    exact setCiph_keeps (keeps_of_snd v5 (freeVal_keeps k1))

theorem execKeyGen_keeps {a0 k s} (h_s : Keeps a0 s) : OutKeeps a0 (execKeyGen k s) := by
  unfold execKeyGen
  refine out_next (runSvc_keeps ?_ h_s)
  intro y0 y1 h2
  refine end_ite (end_done h2) ?_
  split
  · rename_i v3 v4 v5 v6
    exact end_done (fillSlot_keeps (keeps_of_snd v6 (freeBytes_keeps h2)))

theorem kekConflict_keeps {a0 c kek s} (h_s : Keeps a0 s) : EndKeeps a0 (kekConflict c kek s) := end_wait (complete_keeps h_s)

theorem execKeyImport_keeps {a0 k src s} (h_s : Keeps a0 s) : OutKeeps a0 (execKeyImport k src s) := by
  unfold execKeyImport
  refine out_next (runSvc_keeps ?_ h_s)
  intro y0 y1 h2
  extract_lets
  rename_i v3
  clear_value v3
  split
  · rename_i v4 v5
    exact end_done h2
  · rename_i v6 v7 v8
    refine end_ite (end_done h2) ?_
    refine end_ite (end_ite (end_done h2) (end_done (penBit_keeps (fillSlot_keeps h2)))) ?_
    split
    · rename_i v9 v10
      exact kekConflict_keeps h2
    · rename_i v11 v12 v13
      refine end_ite (kekConflict_keeps h2) (end_ite (end_done h2) ?_)
      split
      · rename_i v14 v15
        exact end_done (authFail_keeps h2)
      · rename_i v16 v17 v18
        extract_lets
        rename_i v19 v20
        clear_value v19 v20
        exact end_ite (end_done h2) (end_done (fillSlot_keeps h2))

theorem execKeyExport_keeps {a0 k s} (h_s : Keeps a0 s) : OutKeeps a0 (execKeyExport k s) := by
  unfold execKeyExport
  refine out_next (runSvc_keeps ?_ h_s)
  intro y0 y1 h2
  extract_lets
  rename_i v3
  clear_value v3
  split
  · rename_i v4 v5 v6
    exact end_done h2
  · rename_i v7 v8 v9 v10
    refine end_ite (end_done h2) ?_
    split
    · rename_i v11 v12
      exact kekConflict_keeps h2
    · rename_i v13 v14 v15
      refine end_ite (kekConflict_keeps h2) (end_ite (end_done h2) ?_)
      extract_lets
      rename_i v16 v17
      clear_value v16 v17
      exact end_done (dmaWrite_keeps h2)

theorem execKeyDestroy_keeps {a0 k s} (h_s : Keeps a0 s) : OutKeeps a0 (execKeyDestroy k s) := by
  unfold execKeyDestroy
  refine out_next (runSvc_keeps ?_ h_s)
  intro y0 y1 h2
  split
  · rename_i v3 v4
    exact end_done h2
  · rename_i v5 v6 v7
    exact end_ite (end_done h2) (end_wait (setCiph_keeps h2))

theorem execKeyErase_keeps {a0 slot s} (h_s : Keeps a0 s) : OutKeeps a0 (execKeyErase slot s) := by
  unfold execKeyErase
  refine out_next ?_
  split
  · rename_i v0 v1
    exact h_s
  · rename_i v2 v3 v4
    exact keeps_ite h_s (finishCmds_keeps (eraseSlot_keeps h_s))

theorem execPcCtlWrite_keeps {a0 a p i v s} (h_s : Keeps a0 s) : OutKeeps a0 (execPcCtlWrite a p i v s) := out_next
    (pcCtlWrite_keeps h_s)

theorem execPcClear_keeps {a0 a p i s} (h_s : Keeps a0 s) : OutKeeps a0 (execPcClear a p i s) := out_next (pcCtlWrite_keeps
    h_s)

theorem execPcValLoRead_keeps {a0 a p i s} (h_s : Keeps a0 s) : OutKeeps a0 (execPcValLoRead a p i s) := out_next
    (keeps_ite (pcRead_keeps h_s) h_s)

theorem execCounterWrap_keeps {a0 p i n s} (h_s : Keeps a0 s) : OutKeeps a0 (execCounterWrap p i n s) := by
  unfold execCounterWrap
  refine out_next ?_
  extract_lets
  rename_i v0
  clear_value v0
  exact keeps_ite (pcAdd_keeps h_s) h_s

theorem execPerfRead_keeps {a0 k s} (h_s : Keeps a0 s) : OutKeeps a0 (execPerfRead k s) := by
  unfold execPerfRead
  refine out_next (keeps_ite h_s (runSvc_keeps ?_ h_s))
  intro y0 y1 h2
  split
  · rename_i v3 v4
    exact end_done h2
  · rename_i v5 v6 v7
    split
    · rename_i v8 v9 v10 v11
      extract_lets
      rename_i v12 v13
      clear_value v12 v13
      exact end_done (dmaWrite_keeps (keeps_of_snd v11 (freeVal_keeps h2)))

theorem execPrecClear_keeps {a0 a v s} (h_s : Keeps a0 s) : OutKeeps a0 (execPrecClear a v s) := out_next (plainWrite_keeps
    h_s)

theorem execInterruptCoalescingExpiry_keeps {a0 t func cq s} (h_s : Keeps a0 s) : OutKeeps a0
    (execInterruptCoalescingExpiry t func cq s) := by
  unfold execInterruptCoalescingExpiry
  refine out_next ?_
  extract_lets
  rename_i v0 v1
  have k2 : Keeps a0 v0 := atTime_keeps h_s
  clear_value v0 v1
  split
  · rename_i v3 v4
    exact k2
  · rename_i v5 v6 v7
    exact keeps_ite k2 (emitMsix_keeps (putCtrl_keeps k2))

theorem fchCount_keeps {a0 ch i n s} (h_s : Keeps a0 s) : Keeps a0 (fchCount ch i n s) := addReg_keeps h_s

theorem ftlCount_keeps {a0 i n s} (h_s : Keeps a0 s) : Keeps a0 (ftlCount i n s) := addReg_keeps h_s

theorem execDieUnresponsive_keeps {a0 t die s} (h_s : Keeps a0 s) : OutKeeps a0 (execDieUnresponsive t die s) := out_next
    (keeps_ite (loseDie_keeps (atTime_keeps h_s)) (atTime_keeps h_s))

theorem retireBlock_keeps {a0 t d b s} (h_s : Keeps a0 s) : Keeps a0 (retireBlock t d b s) := by
  unfold retireBlock
  extract_lets
  rename_i v0 v1 v2 v3 v4 v5
  clear_value v0 v1 v2
  have k6 : Keeps a0 v3 := setFld_keeps h_s
  clear_value v3 v4 v5
  split
  · rename_i v7 v8
    exact h_s
  · rename_i v9 v10 v11
    extract_lets
    rename_i v12 v13 v14
    clear_value v12
    have k15 : Keeps a0 v13 := setFlash_keeps k6
    clear_value v13
    have k16 : Keeps a0 v14 := checkSpares_keeps k15
    clear_value v14
    exact keeps_ite (loseDie_keeps k16) k16

theorem execProgramFail_keeps {a0 t die block s} (h_s : Keeps a0 s) : OutKeeps a0 (execProgramFail t die block s) := by
  unfold execProgramFail
  refine out_next ?_
  extract_lets
  rename_i v0
  have k1 : Keeps a0 v0 := atTime_keeps h_s
  clear_value v0
  exact keeps_ite (retireBlock_keeps (errInfo_keeps (penBit_keeps (fchCount_keeps k1)))) k1

theorem execEraseFail_keeps {a0 t die block s} (h_s : Keeps a0 s) : OutKeeps a0 (execEraseFail t die block s) := by
  unfold execEraseFail
  refine out_next ?_
  extract_lets
  rename_i v0
  have k1 : Keeps a0 v0 := atTime_keeps h_s
  clear_value v0
  exact keeps_ite (retireBlock_keeps (errInfo_keeps (penBit_keeps (fchCount_keeps k1)))) k1

theorem putBlock_keeps {a0 d b x s} (h_s : Keeps a0 s) : Keeps a0 (putBlock d b x s) := setFlash_keeps h_s

theorem eraseBlock_keeps {a0 d b s} (h_s : Keeps a0 s) : Keeps a0 (eraseBlock d b s) := by
  unfold eraseBlock
  extract_lets
  rename_i v0 v1 v2 v3 v4
  clear_value v0 v1
  have k5 : Keeps a0 v2 := fchCount_keeps (putBlock_keeps h_s)
  clear_value v2 v3
  have k6 : Keeps a0 v4 := putBlock_keeps k5
  clear_value v4
  refine keeps_ite ?_ k5
  split
  · rename_i v7 v8
    exact putBlock_keeps k6
  · rename_i v9
    exact k6

theorem refreshBlock_keeps {a0 t d b rebuilt disturb s} (h_s : Keeps a0 s) : Keeps a0 (refreshBlock t d b rebuilt disturb
    s) := by
  unfold refreshBlock
  extract_lets
  rename_i v0 v1 v2
  have k3 : Keeps a0 v0 := penBit_keeps (ftlCount_keeps h_s)
  clear_value v0
  have k4 : Keeps a0 v1 := keeps_ite (ftlCount_keeps k3) k3
  clear_value v1
  have k5 : Keeps a0 v2 := setFlash_keeps k4
  clear_value v2
  exact keeps_ite (retireBlock_keeps k5) (eraseBlock_keeps k5)

theorem mediumRead_keeps {a0 t d b step entry bits staged found s} (h_s : Keeps a0 s) : Keeps a0 (mediumRead t d b step
    entry bits staged found s) := by
  unfold mediumRead
  extract_lets
  rename_i v0 v1 v2 v3 v4 v5 v6 v7 v8 v9 v10 v11 v12 v13
  clear_value v0 v1 v2 v3
  have k14 : Keeps a0 v4 := perfEvent_keeps (fchCount_keeps h_s)
  clear_value v4
  have k15 : Keeps a0 v5 := fchCount_keeps k14
  clear_value v5
  have k16 : Keeps a0 v6 := fchCount_keeps k15
  clear_value v6
  have k17 : Keeps a0 v7 := fchCount_keeps k16
  clear_value v7
  have k18 : Keeps a0 v8 := fchCount_keeps k17
  clear_value v8
  have k19 : Keeps a0 v9 := keeps_ite (penBit_keeps k18) k18
  clear_value v9
  have k20 : Keeps a0 v10 := setFlash_keeps k19
  clear_value v10 v11
  have k21 : Keeps a0 v12 := putBlock_keeps k20
  clear_value v12 v13
  exact keeps_ite k21 (keeps_ite (refreshBlock_keeps k21) (keeps_ite (keeps_ite (refreshBlock_keeps k21) (putBlock_keeps
      k21)) k21))

theorem execMediumRead_keeps {a0 t die block step entry bits staged found s} (h_s : Keeps a0 s) : OutKeeps a0
    (execMediumRead t die block step entry bits staged found s) := by
  unfold execMediumRead
  refine out_next ?_
  extract_lets
  rename_i v0
  have k1 : Keeps a0 v0 := atTime_keeps h_s
  clear_value v0
  exact keeps_ite (mediumRead_keeps k1) k1

theorem execPatrolRead_keeps {a0 t die block step entry bits found s} (h_s : Keeps a0 s) : OutKeeps a0 (execPatrolRead t
    die block step entry bits found s) := by
  unfold execPatrolRead
  refine out_next ?_
  extract_lets
  rename_i v0
  have k1 : Keeps a0 v0 := atTime_keeps h_s
  clear_value v0
  exact keeps_ite (mediumRead_keeps k1) k1

theorem execWlMove_keeps {a0 t die block s} (h_s : Keeps a0 s) : OutKeeps a0 (execWlMove t die block s) := by
  unfold execWlMove
  refine out_next ?_
  extract_lets
  rename_i v0
  have k1 : Keeps a0 v0 := atTime_keeps h_s
  clear_value v0
  split
  · rename_i v2 v3 v4 v5
    exact keeps_ite (eraseBlock_keeps (setFlash_keeps (ftlCount_keeps k1))) k1

theorem rejoin_keeps {a0 pos s} (h_s : Keeps a0 s) : Keeps a0 (rejoin pos s) := by
  unfold rejoin
  refine forN_keeps h_s ?_
  intro y0 y1 h2
  extract_lets
  rename_i v3
  clear_value v3
  split
  · rename_i v4 v5 v6
    exact keeps_ite (setDie_keeps (setFlash_keeps h2)) h2
  · rename_i v7 v8
    exact h2

theorem foldRow_keeps {a0 pos s} (h_s : Keeps a0 s) : Keeps a0 (foldRow pos s) := by
  unfold foldRow
  extract_lets
  rename_i v0
  have k1 : Keeps a0 v0 := forN_keeps (rejoin_keeps h_s) (fun _ _ h4 => keeps_ite (perfEvent_keeps (fchCount_keeps h4)) h4)
  clear_value v0
  exact setFlash_keeps (ftlCount_keeps k1)

theorem execFold_keeps {a0 t pos place step final items s} (h_s : Keeps a0 s) : OutKeeps a0 (execFold t pos place step
    final items s) := by
  unfold execFold
  refine out_next ?_
  extract_lets
  rename_i v0 v1 v2
  have k3 : Keeps a0 v0 := atTime_keeps h_s
  clear_value v0 v1
  have k4 : Keeps a0 v2 := keeps_ite k3 (foldRow_keeps k3)
  clear_value v2
  refine keeps_ite k3 (keeps_foldl ?_ k4)
  intro y5 y6 h7
  extract_lets
  rename_i v8
  clear_value v8
  split
  · rename_i v9 v10
    exact h7
  · rename_i v11 v12 v13
    exact keeps_ite h7 (setFlash_keeps h7)

theorem execRebuildDone_keeps {a0 t die rows full s} (h_s : Keeps a0 s) : OutKeeps a0 (execRebuildDone t die rows full s)
    := by
  unfold execRebuildDone
  refine out_next ?_
  extract_lets
  rename_i v0 v1 v2 v3 v4
  have k5 : Keeps a0 v0 := atTime_keeps h_s
  clear_value v0 v1
  have k6 : Keeps a0 v2 := penBit_keeps (ftlCount_keeps k5)
  clear_value v2
  have k7 : Keeps a0 v3 := setFlash_keeps k6
  clear_value v3
  have k8 : Keeps a0 v4 := keeps_ite (setBlkState_keeps k7) k7
  clear_value v4
  exact keeps_ite k5 (keeps_ite (checkSpares_keeps (enterReadOnly_keeps k5)) (checkSpares_keeps k8))

theorem showDie_keeps {a0 family d s} (h_s : Keeps a0 s) : Keeps a0 (showDie family d s) := by
  unfold showDie
  extract_lets
  rename_i v0 v1 v2 v3
  clear_value v0
  have k4 : Keeps a0 v1 := setFld_keeps h_s
  clear_value v1
  have k5 : Keeps a0 v2 := setFld_keeps k4
  clear_value v2 v3
  exact keeps_ite h_s (keeps_ite (setDie_keeps k5) (errInfo_keeps (penBit_keeps (setDie_keeps k5))))

theorem takeLayout_keeps {a0 s} (h_s : Keeps a0 s) : Keeps a0 (takeLayout s) := by
  unfold takeLayout
  extract_lets
  rename_i v0 v1
  clear_value v0 v1
  exact keeps_ite (setFlash_keeps h_s) (keeps_ite (penBit_keeps h_s) h_s)

theorem initMedium_keeps {a0 family l s} (h_s : Keeps a0 s) : Keeps a0 (initMedium family l s) := by
  unfold initMedium
  extract_lets
  rename_i v0 v1 v2
  clear_value v0 v1 v2
  exact keeps_ite h_s (setFlash_keeps h_s)

theorem placeDies_keeps {a0 found s} (h_s : Keeps a0 s) : Keeps a0 (placeDies found s) := by
  unfold placeDies
  refine keeps_foldl ?_ h_s
  intro y0 y1 h2
  extract_lets
  rename_i v3 v4 v5 v6
  clear_value v3 v4 v5
  have k7 : Keeps a0 v6 := setFlash_keeps h2
  clear_value v6
  exact keeps_ite (setDie_keeps k7) (keeps_ite (setDie_keeps k7) (loseDie_keeps (setDie_keeps k7)))

theorem ftlDiverged_keeps {a0 s} (h_s : Keeps a0 s) : Keeps a0 (ftlDiverged s) := errInfo_keeps (penBit_keeps
    (logEvent_keeps h_s))

theorem execFtlRecovery_keeps {a0 t dies valid0 valid1 differ clashes ms s} (h_s : Keeps a0 s) : OutKeeps a0
    (execFtlRecovery t dies valid0 valid1 differ clashes ms s) := by
  unfold execFtlRecovery
  refine out_next ?_
  extract_lets
  rename_i v0 v1 v2 v3 v4 v5 v6 v7
  have k8 : Keeps a0 v0 := atTime_keeps h_s
  clear_value v0 v1
  have k9 : Keeps a0 v2 := keeps_foldl (fun _ _ h12 => showDie_keeps h12) (takeLayout_keeps k8)
  clear_value v2 v3
  have k13 : Keeps a0 v4 := keeps_ite (initMedium_keeps k9) k9
  clear_value v4
  have k14 : Keeps a0 v5 := placeDies_keeps k13
  clear_value v5 v6 v7
  refine keeps_ite k8 ?_
  split
  · rename_i v15 v16 v17 v18
    extract_lets
    rename_i v19 v20 v21 v22 v23 v24
    have k25 : Keeps a0 v19 := keeps_ite (ftlDiverged_keeps k14) k14
    clear_value v19 v20
    have k26 : Keeps a0 v21 := keeps_ite k25 (penBit_keeps k25)
    clear_value v21
    have k27 : Keeps a0 v22 := forN_keeps k26 (fun _ _ h30 => keeps_ite h30 (ftlDiverged_keeps h30))
    clear_value v22
    have k31 : Keeps a0 v23 := setFlash_keeps k27
    clear_value v23
    have k32 : Keeps a0 v24 := setBlkState_keeps k31
    clear_value v24
    exact checkSpares_keeps k32

theorem setSplice_keeps {a0 st result core comp s} (h_s : Keeps a0 s) : Keeps a0 (setSplice st result core comp s) :=
    setRegN_keeps h_s

theorem endCommit_keeps {a0 status s} (h_s : Keeps a0 s) : Keeps a0 (endCommit status s) := by
  unfold endCommit
  split
  · rename_i v0 v1 v2
    split
    · rename_i v3 v4 v5 v6
      split
      · rename_i v7 v8 v9
        exact endNvme_keeps h_s
      · rename_i v10 v11
        exact h_s
    · rename_i v12 v13
      exact h_s
  · rename_i v14 v15
    exact h_s

theorem rollSplice_keeps {a0 result core comp s} (h_s : Keeps a0 s) : Keeps a0 (rollSplice result core comp s) := by
  unfold rollSplice
  extract_lets
  rename_i v0 v1
  have k2 : Keeps a0 v0 := setMgmt_keeps (endCommit_keeps h_s)
  clear_value v0
  have k3 : Keeps a0 v1 := errInfo_keeps (penBit_keeps (setSplice_keeps k2))
  clear_value v1
  exact logEvent_keeps k3

theorem breakSplice_keeps {a0 s} (h_s : Keeps a0 s) : Keeps a0 (breakSplice s) := keeps_ite (rollSplice_keeps h_s) h_s

theorem startSplice_keeps {a0 slot cmd s} (h_s : Keeps a0 s) : Keeps a0 (startSplice slot cmd s) := by
  unfold startSplice
  extract_lets
  rename_i v0 v1 v2 v3
  have k4 : Keeps a0 v0 := setSplice_keeps (setMgmt_keeps h_s)
  clear_value v0 v1 v2 v3
  split
  · rename_i v5 v6 v7 v8 v9 v10
    exact keeps_ite (setSplice_keeps (setMgmt_keeps k4)) (rollSplice_keeps k4)
  · rename_i v11 v12 v13
    exact rollSplice_keeps k4

theorem showLimit_keeps {a0 s} (h_s : Keeps a0 s) : Keeps a0 (showLimit s) := setFld_keeps (setFld_keeps h_s)

theorem showStretch_keeps {a0 t s} (h_s : Keeps a0 s) : Keeps a0 (showStretch t s) := by
  unfold showStretch
  extract_lets
  rename_i v0 v1 v2 v3
  clear_value v0
  have k4 : Keeps a0 v1 := keeps_foldl (fun _ _ h7 => addReg_keeps h7) h_s
  clear_value v1 v2
  have k8 : Keeps a0 v3 := keeps_upd k4
  clear_value v3
  exact setRegN_keeps k8

theorem mainOff_keeps {a0 s} (h_s : Keeps a0 s) : Keeps a0 (mainOff s) := by
  unfold mainOff
  extract_lets
  rename_i v0 v1 v2 v3
  clear_value v0 v1
  have k4 : Keeps a0 v2 := unitsOff_keeps (keeps_upd h_s)
  clear_value v2
  have k5 : Keeps a0 v3 := setAlert_keeps k4
  clear_value v3
  exact keeps_ite (emit_keeps k5) k5

theorem startQuiesce_keeps {a0 cause s} (h_s : Keeps a0 s) : Keeps a0 (startQuiesce cause s) := by
  unfold startQuiesce
  split
  · rename_i v0 v1 v2
    exact h_s
  · rename_i v3 v4
    extract_lets
    rename_i v5 v6 v7
    clear_value v5
    have k8 : Keeps a0 v6 := keeps_upd h_s
    clear_value v6
    have k9 : Keeps a0 v7 := breakSplice_keeps (logEvent_keeps (setAlert_keeps k8))
    clear_value v7
    exact sendHawser_keeps k9

theorem startShutdown_keeps {a0 cause s} (h_s : Keeps a0 s) : Keeps a0 (startShutdown cause s) := by
  unfold startShutdown
  refine keeps_ite h_s ?_
  extract_lets
  rename_i v0 v1 v2
  clear_value v0
  have k3 : Keeps a0 v1 := unitsOff_keeps (keeps_upd h_s)
  clear_value v1
  have k4 : Keeps a0 v2 := breakSplice_keeps (emit_keeps (emit_keeps k3))
  clear_value v2
  exact logEvent_keeps (setAlert_keeps k4)

theorem enterTherm_keeps {a0 k tj s} (h_s : Keeps a0 s) : Keeps a0 (enterTherm k tj s) := by
  unfold enterTherm
  extract_lets
  rename_i v0 v1
  have k2 : Keeps a0 v0 := setFld_keeps h_s
  clear_value v0
  have k3 : Keeps a0 v1 := logEvent_keeps (penBit_keeps k2)
  clear_value v1
  exact keeps_ite (setAlert_keeps k3) k3

theorem junctionSample_keeps {a0 t tj s} (h_s : Keeps a0 s) : Keeps a0 (junctionSample t tj s) := by
  unfold junctionSample
  extract_lets
  rename_i v0 v1 v2 v3 v4 v5 v6 v7 v8 v9
  have k10 : Keeps a0 v0 := atTime_keeps h_s
  clear_value v0
  have k11 : Keeps a0 v1 := setFld_keeps k10
  clear_value v1 v2
  have k12 : Keeps a0 v3 := keeps_upd k11
  clear_value v3
  have k13 : ∀ z0 z1, Keeps a0 z1 → Keeps a0 (v4 z0 z1) := by
    intro y14 y15 h16
    unfold v4
    exact keeps_ite (enterTherm_keeps h16) h16
  clear_value v4
  have k17 : Keeps a0 v5 := showLimit_keeps (k13 _ _ (k13 _ _ (k13 _ _ k12)))
  clear_value v5
  have k18 : Keeps a0 v6 := logEvent_keeps (setAlert_keeps k17)
  clear_value v6 v7
  have k19 : Keeps a0 v8 := keeps_upd k18
  clear_value v8
  have k20 : Keeps a0 v9 := breakSplice_keeps (emit_keeps k19)
  clear_value v9
  exact keeps_ite (keeps_ite k17 (keeps_ite k20 (mainOff_keeps k20))) k17

theorem execJunctionSample_keeps {a0 t tj s} (h_s : Keeps a0 s) : OutKeeps a0 (execJunctionSample t tj s) := out_next
    (junctionSample_keeps h_s)

theorem thermStepLeave_keeps {a0 t s} (h_s : Keeps a0 s) : Keeps a0 (thermStepLeave t s) := by
  unfold thermStepLeave
  extract_lets
  rename_i v0 v1 v2 v3
  have k4 : Keeps a0 v0 := atTime_keeps h_s
  clear_value v0 v1 v2
  have k5 : Keeps a0 v3 := showLimit_keeps (setFld_keeps k4)
  clear_value v3
  exact keeps_ite (keeps_ite (setAlert_keeps k5) k5) k4

theorem execThermStepLeave_keeps {a0 t s} (h_s : Keeps a0 s) : OutKeeps a0 (execThermStepLeave t s) := out_next
    (thermStepLeave_keeps h_s)

theorem stageEnable_keeps {a0 t s} (h_s : Keeps a0 s) : Keeps a0 (stageEnable t s) := by
  unfold stageEnable
  refine keeps_ite h_s ?_
  extract_lets
  rename_i v0 v1
  have k2 : Keeps a0 v0 := mainReset_keeps (atTime_keeps h_s)
  clear_value v0 v1
  exact keeps_upd k2

theorem execMgmtPowerOn_keeps {a0 t s} (h_s : Keeps a0 s) : OutKeeps a0 (execMgmtPowerOn t s) := by
  unfold execMgmtPowerOn
  refine out_next ?_
  extract_lets
  rename_i v0
  clear_value v0
  exact keeps_ite (keeps_ite (keeps_ite (stageEnable_keeps (setAlert_keeps (emit_keeps (keeps_upd h_s)))) h_s) (keeps_ite
      (stageEnable_keeps (setAlert_keeps (keeps_upd h_s))) h_s)) h_s

theorem requestMainReset_keeps {a0 t s} (h_s : Keeps a0 s) : Keeps a0 (requestMainReset t s) := by
  unfold requestMainReset
  extract_lets
  rename_i v0 v1 v2 v3
  have k4 : Keeps a0 v0 := atTime_keeps h_s
  clear_value v0 v1
  have k5 : Keeps a0 v2 := breakSplice_keeps k4
  clear_value v2 v3
  exact keeps_ite (keeps_ite (stageEnable_keeps (setAlert_keeps (emit_keeps (keeps_upd k4)))) k4) (keeps_ite k4 (keeps_ite
      (keeps_upd k5) (mainResetNow_keeps k5)))

theorem execMgmtReset_keeps {a0 t s} (h_s : Keeps a0 s) : OutKeeps a0 (execMgmtReset t s) := out_next
    (requestMainReset_keeps h_s)

theorem execMainResetTakeEffect_keeps {a0 t s} (h_s : Keeps a0 s) : OutKeeps a0 (execMainResetTakeEffect t s) := out_next
    (keeps_ite (mainResetNow_keeps (keeps_upd h_s)) h_s)

theorem execResetNLow_keeps {a0 since t s} (h_s : Keeps a0 s) : OutKeeps a0 (execResetNLow since t s) := by
  unfold execResetNLow
  refine out_next ?_
  extract_lets
  rename_i v0 v1
  clear_value v0
  have k2 : Keeps a0 v1 := atTime_keeps (keeps_upd h_s)
  clear_value v1
  exact keeps_ite (requestMainReset_keeps k2) k2

theorem execResetNRise_keeps {a0 t s} (h_s : Keeps a0 s) : OutKeeps a0 (execResetNRise t s) := by
  unfold execResetNRise
  refine out_next ?_
  extract_lets
  rename_i v0 v1
  clear_value v0
  have k2 : Keeps a0 v1 := atTime_keeps (keeps_upd h_s)
  clear_value v1
  exact keeps_ite (releaseReset_keeps k2) k2

theorem execMainStageEnable_keeps {a0 t s} (h_s : Keeps a0 s) : OutKeeps a0 (execMainStageEnable t s) := out_next
    (keeps_ite (stageEnable_keeps h_s) h_s)

theorem execRailsGood_keeps {a0 t s} (h_s : Keeps a0 s) : OutKeeps a0 (execRailsGood t s) := by
  unfold execRailsGood
  refine out_next (keeps_ite ?_ h_s)
  extract_lets
  rename_i v0 v1 v2 v3
  have k4 : Keeps a0 v0 := atTime_keeps h_s
  clear_value v0 v1
  have k5 : Keeps a0 v2 := emit_keeps (keeps_upd k4)
  clear_value v2
  have k6 : Keeps a0 v3 := setAlert_keeps k5
  clear_value v3
  exact keeps_ite (releaseReset_keeps k6) k6

theorem execRailFail_keeps {a0 t sensor s} (h_s : Keeps a0 s) : OutKeeps a0 (execRailFail t sensor s) := by
  unfold execRailFail
  refine out_next (keeps_ite ?_ h_s)
  extract_lets
  rename_i v0 v1 v2
  have k3 : Keeps a0 v0 := atTime_keeps h_s
  clear_value v0 v1
  have k4 : Keeps a0 v2 := keeps_upd k3
  clear_value v2
  exact setAlert_keeps (logEvent_keeps k4)

theorem execRailRetry_keeps {a0 t s} (h_s : Keeps a0 s) : OutKeeps a0 (execRailRetry t s) := by
  unfold execRailRetry
  refine out_next ?_
  split
  · rename_i v0 v1 v2
    exact keeps_ite (stageEnable_keeps (keeps_upd h_s)) h_s
  · rename_i v3 v4
    exact h_s

theorem auxLow_keeps {a0 s} (h_s : Keeps a0 s) : Keeps a0 (auxLow s) := keeps_ite (penBit_keeps h_s) h_s

theorem sagAct_keeps {a0 s} (h_s : Keeps a0 s) : Keeps a0 (sagAct s) := by
  unfold sagAct
  extract_lets
  rename_i v0 v1 v2
  have k3 : Keeps a0 v0 := keeps_ite (penBit_keeps (setFld_keeps h_s)) h_s
  clear_value v0
  have k4 : Keeps a0 v1 := keeps_ite (startQuiesce_keeps (penBit_keeps (setFld_keeps k3))) k3
  clear_value v1
  have k5 : Keeps a0 v2 := showLimit_keeps k4
  clear_value v2
  exact keeps_ite (startShutdown_keeps k5) k5

theorem mainSample_keeps {a0 t v s} (h_s : Keeps a0 s) : Keeps a0 (mainSample t v s) := by
  unfold mainSample
  extract_lets
  rename_i v0 v1 v2 v3 v4 v5 v6 v7 v8 v9 v10
  have k11 : Keeps a0 v0 := atTime_keeps h_s
  have k12 : Keeps a0 v1 := setFld_keeps k11
  have k13 : Keeps a0 v4 := keeps_upd k12
  have k14 : Keeps a0 v6 := keeps_upd k13
  have k15 : Keeps a0 v8 := keeps_ite (keeps_upd k14) k14
  clear_value v8
  have k16 : Keeps a0 v9 := keeps_ite (penBit_keeps k15) k15
  clear_value v9
  have k17 : Keeps a0 v10 := auxLow_keeps k16
  clear_value v10
  exact keeps_ite k17 (sagAct_keeps k17)

theorem execMainSample_keeps {a0 t v s} (h_s : Keeps a0 s) : OutKeeps a0 (execMainSample t v s) := out_next
    (mainSample_keeps h_s)

theorem execSagStep1Leave_keeps {a0 t s} (h_s : Keeps a0 s) : OutKeeps a0 (execSagStep1Leave t s) := by
  unfold execSagStep1Leave
  refine out_next ?_
  split
  · rename_i v0 v1 v2
    exact keeps_ite (showLimit_keeps (setFld_keeps (atTime_keeps h_s))) h_s
  · rename_i v3 v4
    exact h_s

theorem execQuiesceEnd_keeps {a0 t s} (h_s : Keeps a0 s) : OutKeeps a0 (execQuiesceEnd t s) := by
  unfold execQuiesceEnd
  refine out_next (keeps_ite ?_ h_s)
  extract_lets
  rename_i v0 v1
  clear_value v0
  have k2 : Keeps a0 v1 := atTime_keeps (writeRoots_keeps (keeps_upd h_s))
  clear_value v1
  exact mainOff_keeps (keeps_ite (mainReset_keeps k2) k2)

theorem execShutdownRailsOff_keeps {a0 t s} (h_s : Keeps a0 s) : OutKeeps a0 (execShutdownRailsOff t s) := by
  unfold execShutdownRailsOff
  refine out_next (keeps_ite (mainOff_keeps (writeRoots_keeps ?_)) h_s)
  extract_lets
  rename_i v0 v1
  have k2 : Keeps a0 v0 := atTime_keeps h_s
  clear_value v0 v1
  exact keeps_upd k2

theorem execInputOvervoltage_keeps {a0 t s} (h_s : Keeps a0 s) : OutKeeps a0 (execInputOvervoltage t s) := by
  unfold execInputOvervoltage
  refine out_next ?_
  split
  · rename_i v0 v1 v2
    refine keeps_ite (startShutdown_keeps ?_) h_s
    extract_lets
    rename_i v3 v4
    have k5 : Keeps a0 v3 := atTime_keeps h_s
    clear_value v3 v4
    exact keeps_upd k5
  · rename_i v6 v7
    exact h_s

theorem execOvervoltageRestart_keeps {a0 t s} (h_s : Keeps a0 s) : OutKeeps a0 (execOvervoltageRestart t s) := by
  unfold execOvervoltageRestart
  refine out_next ?_
  split
  · rename_i v0 v1 v2
    refine keeps_ite ?_ h_s
    extract_lets
    rename_i v3 v4
    clear_value v3
    have k5 : Keeps a0 v4 := keeps_upd h_s
    clear_value v4
    exact keeps_ite k5 (stageEnable_keeps k5)
  · rename_i v6 v7
    exact h_s

theorem execMainRestart_keeps {a0 t s} (h_s : Keeps a0 s) : OutKeeps a0 (execMainRestart t s) := by
  unfold execMainRestart
  refine out_next ?_
  split
  · rename_i v0 v1 v2
    exact keeps_ite (stageEnable_keeps h_s) h_s
  · rename_i v3 v4
    exact h_s

theorem execAuxSample_keeps {a0 t v s} (h_s : Keeps a0 s) : OutKeeps a0 (execAuxSample t v s) := by
  unfold execAuxSample
  refine out_next ?_
  extract_lets
  rename_i v0 v1 v2 v3 v4 v5
  have k6 : Keeps a0 v0 := atTime_keeps h_s
  clear_value v0
  have k7 : Keeps a0 v1 := setFld_keeps k6
  clear_value v1 v2
  have k8 : Keeps a0 v3 := keeps_upd k7
  clear_value v3 v4
  have k9 : Keeps a0 v5 := keeps_upd k8
  clear_value v5
  exact auxLow_keeps k9

theorem coldStart_keeps {a0 s} (h_s : Keeps a0 s) : Keeps a0 (coldStart s) := by
  refine setReg64_keeps (keepMedium_keeps h_s ⟨fun _ => ⟨rfl, rfl, rfl, rfl, rfl, rfl, rfl, rfl⟩, fun _ => rfl, fun c => ?_,
      h_s.2.2.2⟩)
  exact Nat.le_trans (List.length_filter_le _ _) (h_s.2.2.1 c)

theorem romKeys_keeps {a0 refused s} (h_s : Keeps a0 s) : Keeps a0 (romKeys refused s) := by
  unfold romKeys
  extract_lets
  rename_i v0
  clear_value v0
  exact setMgmt_keeps h_s

theorem mssStarts_keeps {a0 t s} (h_s : Keeps a0 s) : Keeps a0 (mssStarts t s) := by
  unfold mssStarts
  split
  · rename_i v0 v1 v2 v3
    exact keeps_upd (keeps_of_snd v3 (freeVal_keeps h_s))

theorem execAlwaysOnStart_keeps {a0 t v refused s} (h_s : Keeps a0 s) : OutKeeps a0 (execAlwaysOnStart t v refused s) := by
  unfold execAlwaysOnStart
  refine out_next (keeps_ite ?_ h_s)
  extract_lets
  rename_i v0 v1 v2 v3
  have k4 : Keeps a0 v0 := mssStarts_keeps (romBoot_keeps (romKeys_keeps (atTime_keeps (coldStart_keeps h_s))))
  clear_value v0
  have k5 : Keeps a0 v1 := setFld_keeps k4
  clear_value v1
  have k6 : Keeps a0 v2 := setFld_keeps k5
  clear_value v2 v3
  exact keeps_upd k6

theorem execAlwaysOnStop_keeps {a0 t s} (h_s : Keeps a0 s) : OutKeeps a0 (execAlwaysOnStop t s) := by
  unfold execAlwaysOnStop
  refine out_next ?_
  split
  · rename_i v0 v1 v2
    refine keeps_ite ?_ h_s
    extract_lets
    rename_i v3 v4
    have k5 : Keeps a0 v3 := mainReset_keeps (atTime_keeps h_s)
    clear_value v3 v4
    exact keeps_upd k5
  · rename_i v6 v7
    exact h_s

theorem firmwareRestart_keeps {a0 t s} (h_s : Keeps a0 s) : Keeps a0 (firmwareRestart t s) := by
  unfold firmwareRestart
  refine keeps_ite ?_ h_s
  extract_lets
  rename_i v0 v1
  clear_value v0 v1
  exact showLimit_keeps (setShadow_keeps (setReg_keeps (keeps_upd h_s)))

theorem powerSample_keeps {a0 t w s} (h_s : Keeps a0 s) : Keeps a0 (powerSample t w s) := by
  unfold powerSample
  extract_lets
  rename_i v0 v1 v2 v3 v4 v5 v6 v7 v8
  have k9 : Keeps a0 v0 := firmwareRestart_keeps (atTime_keeps h_s)
  clear_value v0 v1 v2 v3 v4
  have k10 : Keeps a0 v5 := keeps_upd k9
  clear_value v5
  have k11 : Keeps a0 v6 := setFld_keeps k10
  clear_value v6
  have k12 : Keeps a0 v7 := setFld_keeps k11
  clear_value v7
  have k13 : Keeps a0 v8 := setFld_keeps k12
  clear_value v8
  exact keeps_ite (setFld_keeps k9) (setFld_keeps k13)

theorem execPowerSample_keeps {a0 t w s} (h_s : Keeps a0 s) : OutKeeps a0 (execPowerSample t w s) := out_next
    (powerSample_keeps h_s)

theorem execCapExcursionLimit_keeps {a0 t s} (h_s : Keeps a0 s) : OutKeeps a0 (execCapExcursionLimit t s) := by
  unfold execCapExcursionLimit
  refine out_next (keeps_ite ?_ h_s)
  extract_lets
  rename_i v0 v1 v2
  have k3 : Keeps a0 v0 := atTime_keeps h_s
  clear_value v0 v1
  have k4 : Keeps a0 v2 := showStretch_keeps (keeps_upd k3)
  clear_value v2
  exact penBit_keeps k4

theorem execDroopTrip_keeps {a0 t tile mv s} (h_s : Keeps a0 s) : OutKeeps a0 (execDroopTrip t tile mv s) := by
  unfold execDroopTrip
  refine out_next (keeps_ite ?_ h_s)
  extract_lets
  rename_i v0 v1 v2
  have k3 : Keeps a0 v0 := atTime_keeps h_s
  clear_value v0 v1
  have k4 : Keeps a0 v2 := showStretch_keeps (keeps_upd k3)
  clear_value v2
  exact penBit_keeps k4

theorem execDroopRelease_keeps {a0 t tile s} (h_s : Keeps a0 s) : OutKeeps a0 (execDroopRelease t tile s) := by
  unfold execDroopRelease
  refine out_next ?_
  split
  · rename_i v0 v1 v2
    refine keeps_ite ?_ h_s
    extract_lets
    rename_i v3 v4
    have k5 : Keeps a0 v3 := atTime_keeps h_s
    clear_value v3 v4
    exact showStretch_keeps (keeps_upd k5)
  · rename_i v6 v7
    exact h_s

theorem layBits_keeps {a0 k addr x l s} (h_s : Keeps a0 s) : Keeps a0 (layBits k addr x l s) := by
  unfold layBits
  extract_lets
  rename_i v0
  clear_value v0
  exact keeps_ite (putDram_keeps h_s) h_s

theorem holdSpace_keeps {a0 tile k region off n s} (h_s : Keeps a0 s) : Keeps a0 (holdSpace tile k region off n s) :=
    keeps_upd h_s

theorem freeSpace_keeps {a0 k region off s} (h_s : Keeps a0 s) : Keeps a0 (freeSpace k region off s) := keeps_upd h_s

theorem freeRun_keeps {a0 k d s} (h_s : Keeps a0 s) : Keeps a0 (freeRun k d s) := by
  unfold freeRun
  refine keeps_ite h_s ?_
  extract_lets
  rename_i v0
  have k1 : Keeps a0 v0 := freeSpace_keeps h_s
  clear_value v0
  exact keeps_ite k1 (freeSpace_keeps k1)

theorem sendDrop_keeps {a0 l lane s} (h_s : Keeps a0 s) : Keeps a0 (sendDrop l lane s) := by
  unfold sendDrop
  extract_lets
  rename_i v0
  clear_value v0
  exact flitOn_keeps (flitOn_keeps h_s)

end Sys2Proof.Machine
end

