-- ==== Sys2Proof/Laws/KeepsFoundry.lean ====
section
/-! SUPPORT. What the Foundry: samples, decode, shaping, tensors and the Ilesh instructions keep (Laws/Keeps.lean): one lemma per function. -/

namespace Sys2Proof.Machine

theorem dueRefill_keeps {a0 tile gs all s} (h_s : Keeps a0 s) : Keeps a0 (dueRefill tile gs all s) := by
  unfold dueRefill
  extract_lets
  rename_i v0 v1
  clear_value v0 v1
  exact keeps_upd h_s

theorem refillAll_keeps {a0 tile s} (h_s : Keeps a0 s) : Keeps a0 (refillAll tile s) := dueRefill_keeps (keeps_upd h_s)

theorem setReady_keeps {a0 tile g on s} (h_s : Keeps a0 s) : Keeps a0 (setReady tile g on s) := setFld_keeps h_s

theorem setFoundry_keeps {a0 s f} (h_s : Keeps a0 s) : Keeps a0 (setFoundry s f) := keeps_upd h_s

theorem putCtx_keeps {a0 k x s} (h_s : Keeps a0 s) : Keeps a0 (putCtx k x s) := setFoundry_keeps h_s

theorem putMedia_keeps {a0 k m s} (h_s : Keeps a0 s) : Keeps a0 (putMedia k m s) := keeps_upd h_s

theorem endSampleMedia_keeps {a0 k s} (h_s : Keeps a0 s) : Keeps a0 (endSampleMedia k s) := putMedia_keeps
    (returnHeld_keeps h_s)

theorem discardSample_keeps {a0 k s} (h_s : Keeps a0 s) : Keeps a0 (discardSample k s) := by
  unfold discardSample
  split
  · rename_i v0 v1 v2
    split
    · rename_i v3 v4 v5
      exact tagEnd_keeps (putCtx_keeps (endSampleMedia_keeps h_s))
    · rename_i v6 v7
      exact h_s
  · rename_i v8 v9
    exact h_s

theorem dropHeld_keeps {a0 seq s} (h_s : Keeps a0 s) : Keeps a0 (dropHeld seq s) := setFoundry_keeps h_s

theorem showPool_keeps {a0 tile s} (h_s : Keeps a0 s) : Keeps a0 (showPool tile s) := setFld_keeps h_s

theorem abortHeld_keeps {a0 s c} (h_s : Keeps a0 s) : Keeps a0 (abortHeld s c) := by
  unfold abortHeld
  extract_lets
  rename_i v0
  have k1 : Keeps a0 v0 := complete_keeps (dropHeld_keeps h_s)
  clear_value v0
  refine keeps_ite ?_ k1
  split
  · rename_i v2 v3 v4 v5
    exact putCtx_keeps k1
  · rename_i v6 v7
    exact k1

theorem putSet_keeps {a0 i x s} (h_s : Keeps a0 s) : Keeps a0 (putSet i x s) := setFoundry_keeps h_s

theorem showBound_keeps {a0 s} (h_s : Keeps a0 s) : Keeps a0 (showBound s) := by
  unfold showBound
  refine forN_keeps h_s ?_
  intro y0 y1 h2
  extract_lets
  rename_i v3
  clear_value v3
  exact setFld_keeps h2

theorem bindShard.showOwn_keeps {a0 c s} (h_s : Keeps a0 s) : Keeps a0 (bindShard.showOwn c s) := by
  unfold bindShard.showOwn
  split
  · rename_i v0 v1 v2
    exact showPool_keeps h_s
  · rename_i v3 v4
    exact h_s

theorem bindShard_keeps {a0 k s} (h_s : Keeps a0 s) : Keeps a0 (bindShard k s) := by
  unfold bindShard
  split
  · rename_i v0 v1
    exact h_s
  · rename_i v2 v3 v4
    split
    · rename_i v5 v6
      exact h_s
    · rename_i v7 v8 v9
      exact keeps_ite (putCtx_keeps (bindShard.showOwn_keeps (putMedia_keeps (putSet_keeps h_s)))) (putCtx_keeps h_s)

theorem moveCtx_keeps {a0 k tile idx s} (h_s : Keeps a0 s) : Keeps a0 (moveCtx k tile idx s) := by
  unfold moveCtx
  extract_lets
  rename_i v0 v1
  have k2 : Keeps a0 v0 := discardSample_keeps h_s
  clear_value v0
  have k3 : Keeps a0 v1 := putMedia_keeps k2
  clear_value v1
  split
  · rename_i v4 v5
    exact k3
  · rename_i v6 v7 v8
    extract_lets
    rename_i v9 v10 v11
    clear_value v9
    have k12 : Keeps a0 v10 := putCtx_keeps k3
    clear_value v10
    have k13 : Keeps a0 v11 := penBit_keeps k12
    clear_value v11
    split
    · rename_i v14 v15
      exact showPool_keeps (penBit_keeps k13)
    · rename_i v16
      exact k13

theorem unplaceCtx_keeps {a0 k s} (h_s : Keeps a0 s) : Keeps a0 (unplaceCtx k s) := by
  unfold unplaceCtx
  extract_lets
  rename_i v0 v1
  have k2 : Keeps a0 v0 := discardSample_keeps h_s
  clear_value v0
  have k3 : Keeps a0 v1 := putMedia_keeps k2
  clear_value v1
  split
  · rename_i v4 v5
    exact k3
  · rename_i v6 v7 v8
    extract_lets
    rename_i v9
    have k10 : Keeps a0 v9 := putCtx_keeps k3
    clear_value v9
    split
    · rename_i v11 v12 v13
      exact showPool_keeps (penBit_keeps k10)
    · rename_i v14 v15
      exact k10

theorem placeCtx_keeps {a0 k excl s} (h_s : Keeps a0 s) : Keeps a0 (placeCtx k excl s) := by
  unfold placeCtx
  split
  · rename_i v0 v1
    exact h_s
  · rename_i v2 v3 v4
    extract_lets
    rename_i v5
    clear_value v5
    split
    · rename_i v6 v7 v8 v9
      exact moveCtx_keeps h_s
    · rename_i v10 v11
      exact keeps_ite h_s (unplaceCtx_keeps h_s)

theorem execSsetCreate_keeps {a0 k desc s} (h_s : Keeps a0 s) : OutKeeps a0 (execSsetCreate k desc s) := by
  unfold execSsetCreate
  refine out_next (runSvc_keeps ?_ h_s)
  intro y0 y1 h2
  refine end_ite (end_done h2) (end_ite (end_done h2) ?_)
  extract_lets
  rename_i v3
  clear_value v3
  exact end_ite (end_done h2) (end_ite (end_done h2) (end_ite (end_done h2) (end_done (putSet_keeps h2))))

theorem execSsetAddShards_keeps {a0 k entries s} (h_s : Keeps a0 s) : OutKeeps a0 (execSsetAddShards k entries s) := by
  unfold execSsetAddShards
  refine out_next (runSvc_keeps ?_ h_s)
  intro y0 y1 h2
  split
  · rename_i v3 v4
    exact end_done h2
  · rename_i v5 v6 v7
    extract_lets
    rename_i v8
    clear_value v8
    exact end_ite (end_done h2) (end_ite (end_done h2) (end_done (putSet_keeps h2)))

theorem execSsetStart_keeps {a0 k s} (h_s : Keeps a0 s) : OutKeeps a0 (execSsetStart k s) := by
  unfold execSsetStart
  refine out_next (runSvc_keeps ?_ h_s)
  intro y0 y1 h2
  split
  · rename_i v3 v4
    exact end_done h2
  · rename_i v5 v6 v7
    refine end_ite (end_done h2) ?_
    split
    · rename_i v8 v9
      exact end_done h2
    · rename_i v10 v11 v12
      extract_lets
      rename_i v13
      clear_value v13
      exact end_wait (setFoundry_keeps (putSet_keeps h2))

theorem execSsetPause_keeps {a0 k s} (h_s : Keeps a0 s) : OutKeeps a0 (execSsetPause k s) := by
  unfold execSsetPause
  refine out_next (runSvc_keeps ?_ h_s)
  intro y0 y1 h2
  split
  · rename_i v3 v4 v5
    exact end_ite (end_wait (putSet_keeps h2)) (end_done h2)
  · rename_i v6 v7
    exact end_done h2

theorem execSsetResume_keeps {a0 k s} (h_s : Keeps a0 s) : OutKeeps a0 (execSsetResume k s) := by
  unfold execSsetResume
  refine out_next (runSvc_keeps ?_ h_s)
  intro y0 y1 h2
  split
  · rename_i v3 v4 v5
    exact end_ite (end_wait (putSet_keeps h2)) (end_done h2)
  · rename_i v6 v7
    exact end_done h2

theorem drainSets_keeps {a0 s} (h_s : Keeps a0 s) : Keeps a0 (drainSets s) := keeps_foldl (fun _ _ h2 => keeps_ite
    (putSet_keeps h2) h2) h_s

theorem execSsetDrain_keeps {a0 k s} (h_s : Keeps a0 s) : OutKeeps a0 (execSsetDrain k s) := by
  unfold execSsetDrain
  refine out_next (runSvc_keeps ?_ h_s)
  intro y0 y1 h2
  split
  · rename_i v3 v4 v5
    exact end_ite (end_done (drainSets_keeps (putSet_keeps h2))) (end_done h2)
  · rename_i v6 v7
    exact end_done h2

theorem execSsetDestroy_keeps {a0 k s} (h_s : Keeps a0 s) : OutKeeps a0 (execSsetDestroy k s) := by
  unfold execSsetDestroy
  refine out_next (runSvc_keeps ?_ h_s)
  intro y0 y1 h2
  split
  · rename_i v3 v4
    exact end_done h2
  · rename_i v5 v6 v7
    refine end_ite ?_ (end_done h2)
    extract_lets
    rename_i v8 v9 v10 v11
    clear_value v8 v9
    have k12 : Keeps a0 v10 := keeps_foldl (fun _ _ h15 => putMedia_keeps (returnHeld_keeps (discardSample_keeps h15))) h2
    clear_value v10
    have k16 : Keeps a0 v11 := keeps_foldl (fun _ _ h19 => tagEnd_keeps h19) k12
    clear_value v11
    exact end_done (showBound_keeps (setFoundry_keeps k16))

theorem execCtxMove_keeps {a0 k s} (h_s : Keeps a0 s) : OutKeeps a0 (execCtxMove k s) := by
  unfold execCtxMove
  refine out_next (runSvc_keeps ?_ h_s)
  intro y0 y1 h2
  split
  · rename_i v3 v4
    exact end_done h2
  · rename_i v5 v6 v7 v8
    refine end_ite (end_done h2) (end_ite (end_done h2) ?_)
    split
    · rename_i v9 v10
      exact end_done h2
    · rename_i v11 v12 v13
      exact end_wait (setFoundry_keeps (putCtx_keeps h2))

theorem execTileVacate_keeps {a0 k s} (h_s : Keeps a0 s) : OutKeeps a0 (execTileVacate k s) := by
  unfold execTileVacate
  refine out_next (runSvc_keeps ?_ h_s)
  intro y0 y1 h2
  refine end_ite (end_done h2) ?_
  extract_lets
  rename_i v3 v4
  clear_value v3 v4
  split
  · rename_i v5 v6
    exact end_done h2
  · rename_i v7 v8 v9
    extract_lets
    rename_i v10
    clear_value v10
    exact end_wait (setBlkState_keeps (setFoundry_keeps h2))

theorem execTileAdmit_keeps {a0 k s} (h_s : Keeps a0 s) : OutKeeps a0 (execTileAdmit k s) := out_next (runSvc_keeps (fun _
    _ h2 => end_ite (end_done (setBlkState_keeps h2)) (end_done h2)) h_s)

theorem execResvCfg_keeps {a0 k s} (h_s : Keeps a0 s) : OutKeeps a0 (execResvCfg k s) := out_next (runSvc_keeps (fun _ _ h2
    => end_wait h2) h_s)

theorem afterSample_keeps {a0 k c id s} (h_s : Keeps a0 s) : Keeps a0 (afterSample k c id s) := keeps_ite (putCtx_keeps
    (keeps_upd h_s)) (putCtx_keeps h_s)

theorem dropSample_keeps {a0 k s} (h_s : Keeps a0 s) : Keeps a0 (dropSample k s) := by
  unfold dropSample
  split
  · rename_i v0 v1
    exact h_s
  · rename_i v2 v3 v4
    split
    · rename_i v5 v6
      exact h_s
    · rename_i v7 v8 v9
      extract_lets
      rename_i v10 v11
      clear_value v10
      have k12 : Keeps a0 v11 := tagEnd_keeps (endSampleMedia_keeps h_s)
      clear_value v11
      exact penBit_keeps (addReg_keeps (afterSample_keeps k12))

theorem releaseSealed_keeps {a0 tile k s} (h_s : Keeps a0 s) : Keeps a0 (releaseSealed tile k s) := by
  unfold releaseSealed
  split
  · rename_i v0 v1
    exact h_s
  · rename_i v2 v3 v4
    split
    · rename_i v5 v6
      exact h_s
    · rename_i v7 v8 v9
      extract_lets
      rename_i v10 v11 v12
      clear_value v10 v11 v12
      exact keeps_ite (showPool_keeps (putMedia_keeps h_s)) h_s

theorem sramUe_keeps {a0 x s} (h_s : Keeps a0 s) : Keeps a0 (sramUe x s) := by
  unfold sramUe
  extract_lets
  rename_i v0 v1
  clear_value v0 v1
  exact errInfo_keeps (penBit_keeps (setRegN_keeps (addSat_keeps h_s)))

theorem sramCe_keeps {a0 x s} (h_s : Keeps a0 s) : Keeps a0 (sramCe x s) := by
  unfold sramCe
  extract_lets
  rename_i v0 v1
  clear_value v0
  have k2 : Keeps a0 v1 := keeps_upd h_s
  clear_value v1
  exact penBit_keeps (addSat_keeps k2)

theorem sliceTouch_keeps {a0 tile off len s} (h_s : Keeps a0 s) : Keeps a0 (sliceTouch tile off len s) := keeps_foldl (fun
    _ _ h2 => keeps_ite (sramUe_keeps h2) (sramCe_keeps h2)) h_s

theorem touchRecords_keeps {a0 tile l s} (h_s : Keeps a0 s) : Keeps a0 (touchRecords tile l s) := keeps_foldl (fun _ _ h2
    => keeps_ite (sliceTouch_keeps h2) h2) h_s

theorem execPackSeal_keeps {a0 num s} (h_s : Keeps a0 s) : OutKeeps a0 (execPackSeal num s) := by
  unfold execPackSeal
  refine out_next ?_
  split
  · rename_i v0 v1
    exact h_s
  · rename_i v2 v3 v4 v5
    split
    · rename_i v6 v7 v8 v9 v10 v11
      extract_lets
      rename_i v12 v13 v14 v15 v16 v17 v18 v19 v20 v21
      clear_value v12 v13
      have k22 : Keeps a0 v14 := touchRecords_keeps h_s
      clear_value v14 v15 v16 v17 v18
      have k23 : Keeps a0 v19 := tagStage_keeps (endSampleMedia_keeps k22)
      clear_value v19
      have k24 : Keeps a0 v20 := keeps_ite (addReg_keeps k23) k23
      clear_value v20
      have k25 : Keeps a0 v21 := setFoundry_keeps (afterSample_keeps k24)
      clear_value v21
      exact keeps_ite h_s (keeps_ite (dropSample_keeps (penBit_keeps h_s)) (releaseSealed_keeps (setReg64_keeps k25)))
    · rename_i v26 v27 v28
      exact h_s

theorem execSourceRead_keeps {a0 num off bytes dur s} (h_s : Keeps a0 s) : OutKeeps a0 (execSourceRead num off bytes dur s) := by
  unfold execSourceRead
  refine out_next ?_
  split
  · rename_i v0 v1
    exact h_s
  · rename_i v2 v3 v4 v5
    split
    · rename_i v6 v7
      exact h_s
    · rename_i v8 v9 v10
      refine keeps_ite h_s ?_
      split
      · exact putCtx_keeps h_s
      · extract_lets
        rename_i v11 v12 v13
        clear_value v11 v12
        have k14 : Keeps a0 v13 := keeps_foldl (fun _ _ h17 => putDram_keeps h17) h_s
        clear_value v13
        exact putCtx_keeps k14

theorem edgeResidence_keeps {a0 s} (h_s : Keeps a0 s) : Keeps a0 (edgeResidence s) := by
  unfold edgeResidence
  extract_lets
  rename_i v0 v1
  clear_value v0
  have k2 : Keeps a0 v1 := keeps_foldl (fun _ _ h5 => keeps_ite h5 (tagStage_keeps h5)) h_s
  clear_value v1
  exact setFoundry_keeps k2

theorem edgeResvCfg_keeps {a0 s} (h_s : Keeps a0 s) : Keeps a0 (edgeResvCfg s) := keeps_foldl (fun _ _ h2 => complete_keeps
    (setFoundry_keeps h2)) h_s

theorem takeHeld_keeps {a0 seq k s} (h_s : Keeps a0 s) : Keeps a0 (takeHeld seq k s) := setFoundry_keeps h_s

theorem startOne_keeps {a0 sset tile idx s} (h_s : Keeps a0 s) : Keeps a0 (startOne sset tile idx s) := by
  unfold startOne
  extract_lets
  rename_i v0 v1 v2 v3
  clear_value v0 v1
  have k4 : Keeps a0 v2 := setFoundry_keeps h_s
  clear_value v2
  have k5 : Keeps a0 v3 := keeps_ite (putCtx_keeps k4) (placeCtx_keeps k4)
  clear_value v3
  exact bindShard_keeps k5

theorem edgeStart_keeps {a0 c s} (h_s : Keeps a0 s) : Keeps a0 (edgeStart c s) := by
  unfold edgeStart
  extract_lets
  rename_i v0 v1 v2
  clear_value v0
  have k3 : Keeps a0 v1 := keeps_foldl (fun _ _ h6 => startOne_keeps (takeHeld_keeps h6)) h_s
  clear_value v1 v2
  exact complete_keeps (dropHeld_keeps k3)

theorem edgeMove_keeps {a0 c s} (h_s : Keeps a0 s) : Keeps a0 (edgeMove c s) := by
  unfold edgeMove
  extract_lets
  rename_i v0 v1 v2
  clear_value v0
  have k3 : Keeps a0 v1 := by
    unfold v1
    refine keeps_foldl ?_ h_s
    intro y4 y5 h6
    extract_lets
    rename_i v7
    have k8 : Keeps a0 v7 := takeHeld_keeps h6
    clear_value v7
    exact keeps_ite (moveCtx_keeps k8) (placeCtx_keeps k8)
  clear_value v1 v2
  exact complete_keeps (dropHeld_keeps k3)

theorem edgeVacate_keeps {a0 c s} (h_s : Keeps a0 s) : Keeps a0 (edgeVacate c s) := by
  unfold edgeVacate
  extract_lets
  rename_i v0 v1 v2
  have k3 : Keeps a0 v0 := by
    unfold v0
    refine keeps_foldl ?_ h_s
    intro y4 y5 h6
    extract_lets
    rename_i v7
    have k8 : Keeps a0 v7 := takeHeld_keeps h6
    clear_value v7
    exact keeps_ite (moveCtx_keeps k8) (placeCtx_keeps k8)
  clear_value v0
  have k9 : Keeps a0 v1 := dropHeld_keeps k3
  clear_value v1
  have k10 : Keeps a0 v2 := keeps_ite (setBlkState_keeps k9) k9
  clear_value v2
  exact complete_keeps k10

theorem edgeDisplaced_keeps {a0 s} (h_s : Keeps a0 s) : Keeps a0 (edgeDisplaced s) := keeps_foldl (fun _ _ h2 =>
    placeCtx_keeps h2) h_s

theorem edgeShards_keeps {a0 s} (h_s : Keeps a0 s) : Keeps a0 (edgeShards s) := by
  unfold edgeShards
  extract_lets
  rename_i v0
  clear_value v0
  exact keeps_foldl (fun _ _ h3 => bindShard_keeps h3) h_s

theorem edgeResume_keeps {a0 s} (h_s : Keeps a0 s) : Keeps a0 (edgeResume s) := keeps_foldl (fun _ _ h2 => complete_keeps
    (keeps_foldl (fun _ _ h5 => keeps_ite (putCtx_keeps h5) h5) h2)) h_s

theorem edgeSets_keeps {a0 s} (h_s : Keeps a0 s) : Keeps a0 (edgeSets s) := by
  unfold edgeSets
  refine keeps_foldl ?_ h_s
  intro y0 y1 h2
  extract_lets
  rename_i v3 v4 v5
  have k6 : Keeps a0 v5 := keeps_foldl (fun _ _ h9 => putCtx_keeps h9) (putSet_keeps h2)
  clear_value v5
  exact keeps_ite (finishCmds_keeps k6) h2

theorem edgeCredit_keeps {a0 s} (h_s : Keeps a0 s) : Keeps a0 (edgeCredit s) := setFoundry_keeps h_s

theorem edgeFoundry_keeps {a0 s} (h_s : Keeps a0 s) : Keeps a0 (edgeFoundry s) := by
  unfold edgeFoundry
  extract_lets
  rename_i v0 v1
  have k2 : Keeps a0 v0 := edgeResidence_keeps (edgeResvCfg_keeps h_s)
  clear_value v0
  have k3 : Keeps a0 v1 := keeps_foldl (fun _ _ h6 => keeps_ite (edgeStart_keeps h6) (keeps_ite (edgeMove_keeps h6)
      (edgeVacate_keeps h6))) k2
  clear_value v1
  exact showBound_keeps (drainSets_keeps (edgeShards_keeps (edgeSets_keeps (edgeResume_keeps (edgeDisplaced_keeps k3)))))

theorem putCore_keeps {a0 i c s} (h_s : Keeps a0 s) : Keeps a0 (putCore i c s) := keeps_cores (fun h => by simpa) h_s

theorem raiseLine_keeps {a0 i line s} (h_s : Keeps a0 s) : Keeps a0 (raiseLine i line s) := by
  unfold raiseLine
  extract_lets
  rename_i v0
  clear_value v0
  exact putCore_keeps h_s

theorem wakeCore_keeps {a0 i s} (h_s : Keeps a0 s) : Keeps a0 (wakeCore i s) := by
  unfold wakeCore
  extract_lets
  rename_i v0
  clear_value v0
  split
  · rename_i v1 v2 v3
    exact keeps_ite (putCore_keeps h_s) h_s
  · rename_i v4 v5 v6 v7 v8 v9
    extract_lets
    rename_i v10 v11
    clear_value v10 v11
    exact keeps_ite h_s (putCore_keeps h_s)
  · rename_i v12 v13 v14
    exact h_s

theorem stopCore_keeps {a0 i cause s} (h_s : Keeps a0 s) : Keeps a0 (stopCore i cause s) := putCore_keeps h_s

theorem enterException_keeps {a0 i cause sub info epc s} (h_s : Keeps a0 s) : Keeps a0 (enterException i cause sub info epc
    s) := by
  unfold enterException
  extract_lets
  rename_i v0 v1 v2
  clear_value v0 v1
  have k3 : Keeps a0 v2 := putCore_keeps h_s
  clear_value v2
  exact keeps_ite (stopCore_keeps h_s) (keeps_ite (stopCore_keeps k3) k3)

theorem resetCore_keeps {a0 i act s} (h_s : Keeps a0 s) : Keeps a0 (resetCore i act s) := by
  unfold resetCore
  extract_lets
  rename_i v0 v1 v2
  clear_value v0
  have k3 : Keeps a0 v1 := putCore_keeps (keeps_upd h_s)
  clear_value v1 v2
  exact keeps_ite (keeps_upd k3) k3

theorem putEng_keeps {a0 tile e x s} (h_s : Keeps a0 s) : Keeps a0 (putEng tile e x s) := keeps_upd h_s

theorem chargeBudget_keeps {a0 tile e cycles s} (h_s : Keeps a0 s) : Keeps a0 (chargeBudget tile e cycles s) := keeps_upd h_s

theorem addCarry_keeps {a0 tile cycles s} (h_s : Keeps a0 s) : Keeps a0 (addCarry tile cycles s) := keeps_upd h_s

theorem putRing_keeps {a0 tile l s} (h_s : Keeps a0 s) : Keeps a0 (putRing tile l s) := keeps_upd h_s

theorem popEng_keeps {a0 tile e s} (h_s : Keeps a0 s) : Keeps a0 (popEng tile e s) := by
  unfold popEng
  extract_lets
  rename_i v0
  have k1 : Keeps a0 v0 := keeps_upd h_s
  clear_value v0
  split
  · rename_i v2 v3
    exact k1
  · rename_i v4 v5 v6
    exact putEng_keeps k1
  · rename_i v7 v8 v9 v10 v11
    exact putEng_keeps k1

theorem endItem_keeps {a0 tile e status ctx tag c hi lo s} (h_s : Keeps a0 s) : Keeps a0 (endItem tile e status ctx tag c
    hi lo s) := by
  unfold endItem
  extract_lets
  rename_i v0 v1 v2
  have k3 : Keeps a0 v0 := perfEvent_keeps h_s
  clear_value v0
  have k4 : Keeps a0 v1 := addCarry_keeps (chargeBudget_keeps (popEng_keeps k3))
  clear_value v1 v2
  exact wakeCore_keeps (putRing_keeps k4)

theorem dropStale_keeps {a0 tile e s} (h_s : Keeps a0 s) : Keeps a0 (dropStale tile e s) := penBit_keeps (addReg_keeps
    (popEng_keeps h_s))

theorem regionErr_keeps {a0 tile r s} (h_s : Keeps a0 s) : Keeps a0 (regionErr tile r s) := errInfo_keeps (penBit_keeps h_s)

theorem clearSram_keeps {a0 tile off len s} (h_s : Keeps a0 s) : Keeps a0 (clearSram tile off len s) := keeps_upd h_s

theorem sliceWrite_keeps {a0 tile r off l s} (h_s : Keeps a0 s) : Keeps a0 (sliceWrite tile r off l s) := by
  unfold sliceWrite
  refine keeps_ite h_s ?_
  extract_lets
  rename_i v0 v1 v2
  clear_value v0 v1
  have k3 : Keeps a0 v2 := perfEvent_keeps h_s
  clear_value v2
  exact keeps_ite (clearSram_keeps (keeps_memWrite k3)) (regionErr_keeps k3)

theorem addRecord_keeps {a0 k r s} (h_s : Keeps a0 s) : Keeps a0 (addRecord k r s) := by
  unfold addRecord
  split
  · rename_i v0 v1 v2
    split
    · rename_i v3 v4 v5
      exact putCtx_keeps h_s
    · rename_i v6 v7
      exact h_s
  · rename_i v8 v9
    exact h_s

theorem packFlag_keeps {a0 k bits s} (h_s : Keeps a0 s) : Keeps a0 (packFlag k bits s) := by
  unfold packFlag
  split
  · rename_i v0 v1 v2
    split
    · rename_i v3 v4 v5
      exact putCtx_keeps h_s
    · rename_i v6 v7
      exact h_s
  · rename_i v8 v9
    exact h_s

theorem decCount_keeps {a0 tile i s} (h_s : Keeps a0 s) : Keeps a0 (decCount tile i s) := setRegN_keeps h_s

theorem decEvent_keeps {a0 tile num i bit code s} (h_s : Keeps a0 s) : Keeps a0 (decEvent tile num i bit code s) :=
    errInfo_keeps (penBit_keeps (decCount_keeps h_s))

theorem damagePic_keeps {a0 tile num k id s} (h_s : Keeps a0 s) : Keeps a0 (damagePic tile num k id s) := by
  unfold damagePic
  extract_lets
  rename_i v0 v1 v2
  clear_value v0 v1
  have k3 : Keeps a0 v2 := putMedia_keeps h_s
  clear_value v2
  split
  · rename_i v4 v5 v6
    split
    · rename_i v7 v8 v9
      exact keeps_ite (dropSample_keeps (decEvent_keeps k3)) k3
    · rename_i v10 v11
      exact k3
  · rename_i v12 v13
    exact k3

theorem ccLoss_keeps {a0 tile num k pid s} (h_s : Keeps a0 s) : Keeps a0 (ccLoss tile num k pid s) := by
  unfold ccLoss
  extract_lets
  rename_i v0 v1
  clear_value v0
  have k2 : Keeps a0 v1 := decEvent_keeps (putMedia_keeps h_s)
  clear_value v1
  split
  · rename_i v3 v4 v5
    exact damagePic_keeps k2
  · rename_i v6 v7
    exact k2

theorem newSegment_keeps {a0 tile k s} (h_s : Keeps a0 s) : Keeps a0 (newSegment tile k s) := penBit_keeps (decCount_keeps
    (putMedia_keeps h_s))

theorem takePcr_keeps {a0 tile k pos p s} (h_s : Keeps a0 s) : Keeps a0 (takePcr tile k pos p s) := by
  unfold takePcr
  extract_lets
  rename_i v0 v1 v2
  clear_value v0 v1
  have k3 : Keeps a0 v2 := by
    unfold v2
    split
    · rename_i v4 v5 v6
      exact putMedia_keeps h_s
    · rename_i v7 v8
      exact keeps_ite (putMedia_keeps h_s) h_s
  clear_value v2
  exact keeps_ite h_s (keeps_ite (newSegment_keeps k3) k3)

theorem takePacket_keeps {a0 tile num k pos p s} (h_s : Keeps a0 s) : Keeps a0 (takePacket tile num k pos p s) := by
  unfold takePacket
  extract_lets
  rename_i v0 v1 v2 v3 v4 v5 v6 v7 v8
  clear_value v0 v1 v2 v3 v4
  have k9 : Keeps a0 v5 := putMedia_keeps h_s
  clear_value v5
  have k10 : Keeps a0 v6 := keeps_ite (ccLoss_keeps k9) k9
  clear_value v6 v7
  have k11 : Keeps a0 v8 := keeps_ite (putMedia_keeps k10) k10
  clear_value v8
  exact keeps_ite h_s (keeps_ite (ccLoss_keeps h_s) (keeps_ite (putMedia_keeps h_s) (takePcr_keeps k11)))

theorem takeShard_keeps {a0 tile num k x i s} (h_s : Keeps a0 s) : Keeps a0 (takeShard tile num k x i s) := by
  unfold takeShard
  split
  · rename_i v0 v1 v2
    split
    · rename_i v3 v4 v5 v6
      exact putMedia_keeps h_s
  · rename_i v7 v8
    extract_lets
    rename_i v9
    have k10 : Keeps a0 v9 := decEvent_keeps (discardSample_keeps h_s)
    clear_value v9
    split
    · rename_i v11 v12 v13
      exact putCtx_keeps k10
    · rename_i v14 v15
      exact k10

theorem takeChange_keeps {a0 k x i dur s} (h_s : Keeps a0 s) : Keeps a0 (takeChange k x i dur s) := by
  unfold takeChange
  refine keeps_ite h_s ?_
  extract_lets
  rename_i v0 v1 v2 v3
  clear_value v0
  have k4 : Keeps a0 v1 := by
    unfold v1
    split
    · rename_i v5 v6 v7
      exact keeps_ite (discardSample_keeps h_s) h_s
    · rename_i v8 v9
      exact h_s
  clear_value v1 v2
  have k10 : Keeps a0 v3 := putMedia_keeps k4
  clear_value v3
  split
  · rename_i v11 v12 v13
    exact putCtx_keeps k10
  · rename_i v14 v15
    exact k10

theorem releasePool_keeps {a0 tile num k s} (h_s : Keeps a0 s) : Keeps a0 (releasePool tile num k s) := by
  unfold releasePool
  extract_lets
  rename_i v0 v1 v2
  clear_value v0 v1 v2
  exact showPool_keeps (putMedia_keeps h_s)

theorem takePicture_keeps {a0 tile num k h labels s} (h_s : Keeps a0 s) : Keeps a0 (takePicture tile num k h labels s) := by
  unfold takePicture
  extract_lets
  rename_i v0 v1 v2 v3 v4 v5 v6 v7 v8 v9 v10 v11 v12
  clear_value v0 v1 v2 v3 v4 v5 v6 v7 v8 v9 v10 v11 v12
  split
  · rename_i v13 v14 v15 v16
    split
    · rename_i v17 v18 v19 v20
      extract_lets
      rename_i v21 v22
      clear_value v21
      have k23 : Keeps a0 v22 := putMedia_keeps h_s
      clear_value v22
      exact keeps_ite (releasePool_keeps k23) k23

theorem anchorTargets_keeps {a0 tile num k x prof x1 x2 x3} (h_x3 : Keeps a0 x3) : Keeps a0 (anchorTargets tile num k x
    prof x1
    x2 x3).2 := by
  induction x1 generalizing x2 x3 with
  | nil =>
    unfold anchorTargets
    exact h_x3
  | cons e x1 ih =>
    unfold anchorTargets
    extract_lets
    rename_i v0 v1 v2
    clear_value v0
    have k3 : Keeps a0 v1 := keeps_ite h_x3 (decEvent_keeps h_x3)
    clear_value v1 v2
    refine keeps_ite_snd (ih h_x3) (keeps_ite_snd (dropSample_keeps k3) (keeps_ite_snd ?_ (ih (packFlag_keeps k3))))
    split
    · rename_i v4 v5 v6
      exact ih (packFlag_keeps (decCount_keeps k3))
    · rename_i v7 v8
      exact dropSample_keeps k3

theorem planContext.noteSource_keeps {a0 k s} (h_s : Keeps a0 s) : Keeps a0 (planContext.noteSource k s) := by
  unfold planContext.noteSource
  extract_lets
  rename_i v0
  clear_value v0
  split
  · rename_i v1 v2
    exact h_s
  · rename_i v3 v4 v5
    split
    · rename_i v6 v7 v8 v9 v10 v11 v12
      exact putCtx_keeps h_s
    · rename_i v13 v14 v15
      exact h_s

theorem planContext_keeps {a0 num k s} (h_s : Keeps a0 s) : Keeps a0 (planContext num k s) := by
  unfold planContext
  split
  · rename_i v0 v1
    exact h_s
  · rename_i v2 v3 v4
    split
    · rename_i v5 v6 v7 v8 v9 v10
      extract_lets
      rename_i v11 v12 v13 v14 v15 v16 v17 v18
      clear_value v11 v12 v13 v14 v15 v16
      have k19 : Keeps a0 v17 := keeps_ite (packFlag_keeps (decCount_keeps h_s)) h_s
      clear_value v17 v18
      refine keeps_ite h_s ?_
      split
      · rename_i v20 v21 v22 v23
        split
        · rename_i v24
          exact keeps_of_snd v23 (anchorTargets_keeps k19)
        · rename_i v25 v26
          extract_lets
          rename_i v27 v28 v29
          clear_value v27
          have k30 : Keeps a0 v28 := putMedia_keeps (keeps_of_snd v23 (anchorTargets_keeps k19))
          clear_value v28
          have k31 : Keeps a0 v29 := planContext.noteSource_keeps k30
          clear_value v29
          exact keeps_ite (releasePool_keeps k31) k31
    · rename_i v32 v33 v34
      exact h_s

theorem takeAudioGap_keeps {a0 k s} (h_s : Keeps a0 s) : Keeps a0 (takeAudioGap k s) := by
  unfold takeAudioGap
  split
  · rename_i v0 v1 v2
    split
    · rename_i v3 v4 v5
      exact keeps_ite (dropSample_keeps h_s) (packFlag_keeps h_s)
    · rename_i v6 v7
      exact h_s
  · rename_i v8 v9
    exact h_s

theorem neverIssued_keeps {a0 tile num k engine s} (h_s : Keeps a0 s) : Keeps a0 (neverIssued tile num k engine s) :=
    keeps_ite (dropSample_keeps (addReg_keeps h_s)) (dropSample_keeps (errInfo_keeps (penBit_keeps (addReg_keeps h_s))))

theorem takeAudio_keeps {a0 tile k f s} (h_s : Keeps a0 s) : Keeps a0 (takeAudio tile k f s) := by
  unfold takeAudio
  extract_lets
  rename_i v0
  clear_value v0
  exact keeps_ite h_s (chargeBudget_keeps (putMedia_keeps h_s))

theorem stageRecord_keeps {a0 tile k r s} (h_s : Keeps a0 s) : Keeps a0 (stageRecord tile k r s) := by
  unfold stageRecord
  split
  · rename_i v0 v1 v2
    extract_lets
    rename_i v3
    clear_value v3
    exact addRecord_keeps (sliceWrite_keeps (holdSpace_keeps h_s))
  · rename_i v4 v5
    exact addRecord_keeps h_s

theorem addMotion_keeps {a0 num k t s} (h_s : Keeps a0 s) : Keeps a0 (addMotion num k t s) := by
  unfold addMotion
  split
  · rename_i v0 v1
    exact h_s
  · rename_i v2 v3 v4
    split
    · rename_i v5 v6 v7 v8 v9 v10
      extract_lets
      rename_i v11 v12 v13
      clear_value v11 v12
      have k14 : Keeps a0 v13 := putMedia_keeps h_s
      clear_value v13
      split
      · rename_i v15 v16
        exact h_s
      · rename_i v17 v18 v19
        split
        · rename_i v20 v21
          exact h_s
        · rename_i v22 v23 v24
          refine keeps_ite h_s ?_
          extract_lets
          rename_i v25
          clear_value v25
          exact stageRecord_keeps (addReg_keeps k14)
    · rename_i v26 v27 v28
      exact h_s

theorem addMotions_keeps {a0 num k s} (h_s : Keeps a0 s) : Keeps a0 (addMotions num k s) := keeps_foldl (fun _ _ h2 =>
    addMotion_keeps h2) h_s

theorem putPool_keeps {a0 k x s} (h_s : Keeps a0 s) : Keeps a0 (putPool k x s) := by
  unfold putPool
  extract_lets
  rename_i v0
  clear_value v0
  exact putMedia_keeps h_s

theorem concealTargets_keeps {a0 k x total s} (h_s : Keeps a0 s) : Keeps a0 (concealTargets k x total s) := by
  unfold concealTargets
  refine keeps_ite h_s ?_
  extract_lets
  rename_i v0 v1 v2
  clear_value v0 v1
  have k3 : Keeps a0 v2 := packFlag_keeps (putMedia_keeps h_s)
  clear_value v2
  exact keeps_ite h_s (keeps_ite (dropSample_keeps k3) k3)

theorem finishPicItem_keeps {a0 tile num k d parsed p x status bad motion s} (h_s : Keeps a0 s) : Keeps a0 (finishPicItem
    tile num k d parsed p x status bad motion s) := by
  unfold finishPicItem
  extract_lets
  rename_i v0 v1 v2 v3 v4 v5 v6 v7 v8 v9 v10 v11 v12 v13 v14 v15 v16 v17 v18 v19
  clear_value v0 v1 v2 v3 v4 v5 v6 v7 v8 v9 v10 v11
  have k20 : Keeps a0 v12 := showPool_keeps (putPool_keeps h_s)
  clear_value v12
  have k21 : Keeps a0 v13 := keeps_ite (decEvent_keeps k20) k20
  clear_value v13
  have k22 : Keeps a0 v14 := keeps_ite (damagePic_keeps k21) k21
  clear_value v14
  have k23 : Keeps a0 v15 := decCount_keeps k22
  clear_value v15
  have k24 : Keeps a0 v16 := perfEvent_keeps k23
  clear_value v16
  have k25 : Keeps a0 v17 := keeps_ite k24 (perfEvent_keeps k24)
  clear_value v17
  have k26 : Keeps a0 v18 := keeps_ite k25 (decCount_keeps k25)
  clear_value v18
  have k27 : Keeps a0 v19 := keeps_ite (addMotions_keeps (concealTargets_keeps k26)) k22
  clear_value v19
  exact tagStage_keeps k27

theorem skipPicItem_keeps {a0 tile num k d s} (h_s : Keeps a0 s) : Keeps a0 (skipPicItem tile num k d s) := by
  unfold skipPicItem
  split
  · rename_i v0 v1
    exact h_s
  · rename_i v2 v3 v4
    split
    · rename_i v5 v6
      exact h_s
    · rename_i v7 v8 v9
      extract_lets
      rename_i v10
      clear_value v10
      exact finishPicItem_keeps (decCount_keeps h_s)

theorem noteStall_keeps {a0 tile num k work s} (h_s : Keeps a0 s) : Keeps a0 (noteStall tile num k work s) := by
  unfold noteStall
  extract_lets
  rename_i v0 v1
  clear_value v0 v1
  exact keeps_ite (keeps_ite h_s (penBit_keeps (addReg_keeps (putMedia_keeps h_s)))) (keeps_ite h_s (decEvent_keeps
      (putMedia_keeps h_s)))

theorem pushDesc_keeps {a0 tile e d s} (h_s : Keeps a0 s) : Keeps a0 (pushDesc tile e d s) := by
  unfold pushDesc
  extract_lets
  rename_i v0 v1
  clear_value v0 v1
  exact putEng_keeps h_s

theorem takeTurn_keeps {a0 tile e k est c s t} (h : takeTurn tile e k est c s = some t) (h_s : Keeps a0 s) : Keeps a0 t := by
  unfold takeTurn at h
  extract_lets others n s1 at h
  split at h
  · cases h
  · have h1 : Keeps a0 s1 := keeps_ite h_s (keeps_foldl (fun _ _ h => putCtx_keeps h) h_s)
    cases h
    exact putCtx_keeps h1

theorem issueNext_keeps {a0 i num k tag c x smp s} (h_s : Keeps a0 s) : Keeps a0 (issueNext i num k tag c x smp s) := by
  unfold issueNext
  extract_lets tile e
  refine keeps_ite h_s ?_
  split
  · exact h_s
  · exact noteStall_keeps h_s
  · exact noteStall_keeps h_s
  · exact keeps_ite (skipPicItem_keeps h_s) (neverIssued_keeps h_s)
  · refine keeps_ite h_s ?_
    split
    · exact h_s
    · rename_i t ht
      have hk : Keeps a0 t := takeTurn_keeps ht h_s
      extract_lets s1 s2 s3 s4
      have h1 : Keeps a0 s1 := putMedia_keeps (keeps_draw hk)
      have h2 : Keeps a0 s2 := keeps_foldl (fun _ _ h => holdSpace_keeps h) h1
      have h3 : Keeps a0 s3 := keeps_foldl (fun _ _ h => sliceWrite_keeps h) h2
      have h4 : Keeps a0 s4 := pushDesc_keeps h3
      exact keeps_ite (showPool_keeps h4) h4

theorem issueAudio_keeps {a0 num k tag c x smp s} (h_s : Keeps a0 s) : Keeps a0 (issueAudio num k tag c x smp s) := by
  unfold issueAudio
  refine keeps_ite ?_ (issueNext_keeps h_s)
  extract_lets
  rename_i v0
  have k1 : Keeps a0 v0 := takeAudioGap_keeps h_s
  clear_value v0
  split
  · rename_i v2 v3 v4
    split
    · rename_i v5 v6 v7
      exact issueNext_keeps k1
    · rename_i v8 v9
      exact k1
  · rename_i v10 v11
    exact k1

theorem endShard_keeps {a0 tile num k dur inside c x s} (h_s : Keeps a0 s) : Keeps a0 (endShard tile num k dur inside c x
    s) := by
  unfold endShard
  refine keeps_ite h_s ?_
  extract_lets
  rename_i v0 v1 v2
  clear_value v0 v1
  have k3 : Keeps a0 v2 := putCtx_keeps (putMedia_keeps h_s)
  clear_value v2
  split
  · rename_i v4 v5 v6
    exact keeps_ite (damagePic_keeps k3) k3
  · rename_i v7 v8
    exact k3

theorem passBytes_keeps {a0 k n s} (h_s : Keeps a0 s) : Keeps a0 (passBytes k n s) := by
  unfold passBytes
  split
  · rename_i v0 v1 v2
    extract_lets
    rename_i v3
    clear_value v3
    exact putCtx_keeps h_s
  · rename_i v4 v5
    exact h_s

theorem nextPacket_keeps {a0 tile num k c x s} (h_s : Keeps a0 s) : Keeps a0 (nextPacket tile num k c x s) := by
  unfold nextPacket
  extract_lets
  rename_i v0 v1
  clear_value v0 v1
  refine keeps_ite (keeps_ite h_s (keeps_ite (takePacket_keeps (passBytes_keeps h_s)) (putMedia_keeps (passBytes_keeps
      h_s)))) ?_
  split
  · rename_i v2 v3 v4
    exact putMedia_keeps (passBytes_keeps h_s)
  · rename_i v5 v6
    exact passBytes_keeps h_s

theorem takeItem_keeps {a0 num k c x item s} (h_s : Keeps a0 s) : Keeps a0 (takeItem num k c x item s) := by
  unfold takeItem
  extract_lets
  rename_i v0
  clear_value v0
  split
  · rename_i v1
    exact nextPacket_keeps h_s
  · rename_i v2 v3
    exact passBytes_keeps h_s
  · rename_i v4 v5
    exact takeShard_keeps h_s
  · rename_i v6 v7 v8
    exact takeChange_keeps h_s
  · rename_i v9 v10 v11
    exact takePicture_keeps h_s
  · rename_i v12 v13 v14
    exact layBits_keeps h_s
  · rename_i v15 v16 v17
    exact endShard_keeps h_s
  · rename_i v18 v19
    exact putMedia_keeps h_s
  · rename_i v20 v21
    exact takeAudio_keeps h_s
  · rename_i v22
    exact planContext_keeps h_s
  · rename_i v23 v24
    split
    · rename_i v25 v26 v27
      exact issueNext_keeps h_s
    · rename_i v28 v29
      exact h_s
  · rename_i v30 v31
    split
    · rename_i v32 v33 v34
      exact issueNext_keeps h_s
    · rename_i v35 v36
      exact h_s
  · rename_i v37 v38
    split
    · rename_i v39 v40 v41
      exact issueNext_keeps h_s
    · rename_i v42 v43
      exact h_s
  · rename_i v44 v45
    split
    · rename_i v46 v47 v48
      exact issueAudio_keeps h_s
    · rename_i v49 v50
      exact h_s
  · rename_i v51 v52
    split
    · rename_i v53 v54 v55
      exact issueNext_keeps h_s
    · rename_i v56 v57
      exact h_s

theorem execDemuxPacket_keeps {a0 num item s} (h_s : Keeps a0 s) : OutKeeps a0 (execDemuxPacket num item s) := by
  unfold execDemuxPacket
  refine out_next ?_
  split
  · rename_i v0 v1
    exact h_s
  · rename_i v2 v3 v4 v5
    split
    · rename_i v6 v7
      exact h_s
    · rename_i v8 v9 v10
      exact keeps_ite h_s (takeItem_keeps h_s)

theorem edgeReplan_keeps {a0 s} (h_s : Keeps a0 s) : Keeps a0 (edgeReplan s) := by
  unfold edgeReplan
  refine keeps_foldl ?_ h_s
  intro y0 y1 h2
  split
  · rename_i v3 v4 v5
    split
    · rename_i v6 v7 v8
      exact addMotions_keeps (planContext_keeps h2)
    · rename_i v9 v10
      exact h2
  · rename_i v11 v12
    exact h2

theorem precRecord_keeps {a0 x pc cmp exc s} (h_s : Keeps a0 s) : Keeps a0 (precRecord x pc cmp exc s) := by
  unfold precRecord
  extract_lets
  rename_i v0 v1 v2 v3 v4 v5 v6 v7 v8 v9 v10
  clear_value v0 v1 v2 v3
  have k15 : Keeps a0 v5 := keeps_updT rfl h_s
  clear_value v5 v6 v7 v8 v9
  refine keeps_ite h_s ?_
  split
  extract_lets
  rename_i m0 m1 m2
  clear_value m0 m1 m2
  cases m2 with
  | none => exact k15
  | some code =>
    refine keeps_ite k15 ?_
    extract_lets
    rename_i v19 v20 v21
    clear_value v19
    have k22 : Keeps a0 v20 := keeps_prec (mwf_mput _ _) k15
    clear_value v20
    have k23 : Keeps a0 v21 := setRegN_keeps k22
    clear_value v21
    exact keeps_ite (penBit_keeps k23) k23

theorem runIl_keeps {a0 x a body s} (h_body : ∀ y0 y1 y2, Keeps a0 y2 → IlKeeps a0 (body y0 y1 y2)) (h_s : Keeps a0 s) :
    Keeps a0
    (runIl x a body s) := by
  unfold runIl
  refine keeps_ite h_s ?_
  extract_lets
  rename_i v0 v1 v2 v3 v4
  have k5 : Keeps a0 v0 := wakeCore_keeps h_s
  clear_value v0 v1 v2
  have k6 : IlKeeps a0 v3 := by
    refine il_ite il_exc ?_
    split
    · rename_i v7 v8 v9
      exact il_exc
    · rename_i v10 v11
      exact il_ite il_exc (h_body _ _ _ k5)
  clear_value v3
  have k12 : Keeps a0 v4 := by
    unfold v4
    split
    · rename_i v13 v14 v15
      exact precRecord_keeps (putCore_keeps (il_of_done rfl k6))
    · rename_i v16 v17 v18 v19
      exact enterException_keeps (precRecord_keeps k5)
    · rename_i v20 v21 v22 v23 v24
      exact enterException_keeps (precRecord_keeps (il_of_excIn rfl k6))
    · rename_i v25 v26 v27 v28 v29 v30
      exact enterException_keeps (precRecord_keeps (putCore_keeps (il_of_next rfl k6)))
  clear_value v4
  exact keeps_ite k5 (keeps_ite (stopCore_keeps k5) (keeps_ite (chargeBudget_keeps k12) k12))

theorem retire_keeps {a0 c x d v f next s} (h_s : Keeps a0 s) : IlKeeps a0 (retire c x d v f next s) := il_done h_s

theorem skipTo_keeps {a0 c next s} (h_s : Keeps a0 s) : IlKeeps a0 (skipTo c next s) := il_done h_s

theorem execIllegal_keeps {a0 x s} (h_s : Keeps a0 s) : OutKeeps a0 (execIllegal x s) := out_next (runIl_keeps (fun _ _ _
    h3 => il_exc) h_s)

theorem execNop_keeps {a0 x s} (h_s : Keeps a0 s) : OutKeeps a0 (execNop x s) := out_next (runIl_keeps (fun _ _ _ h3 =>
    skipTo_keeps h3) h_s)

theorem execFence_keeps {a0 x s} (h_s : Keeps a0 s) : OutKeeps a0 (execFence x s) := out_next (runIl_keeps (fun _ _ _ h3 =>
    skipTo_keeps h3) h_s)

theorem execTrap_keeps {a0 x imm s} (h_s : Keeps a0 s) : OutKeeps a0 (execTrap x imm s) := out_next (runIl_keeps (fun _ _ _
    h3 => il_next h3) h_s)

theorem execMov_keeps {a0 x d r s} (h_s : Keeps a0 s) : OutKeeps a0 (execMov x d r s) := out_next (runIl_keeps (fun _ _ _
    h3 => retire_keeps h3) h_s)

theorem execMovi_keeps {a0 x d imm s} (h_s : Keeps a0 s) : OutKeeps a0 (execMovi x d imm s) := out_next (runIl_keeps (fun _
    _ _ h3 => retire_keeps h3) h_s)

theorem execMovi64_keeps {a0 x d imm s} (h_s : Keeps a0 s) : OutKeeps a0 (execMovi64 x d imm s) := out_next (runIl_keeps
    (fun _ _ _ h3 => retire_keeps h3) h_s)

theorem aluWrite_keeps {a0 i x d f s} (h_s : Keeps a0 s) : Keeps a0 (aluWrite i x d f s) := runIl_keeps (fun _ _ _ h3 =>
    retire_keeps h3) h_s

theorem aluTest_keeps {a0 i x f s} (h_s : Keeps a0 s) : Keeps a0 (aluTest i x f s) := runIl_keeps (fun _ _ _ h3 => il_done
    h3) h_s

theorem execAdd_keeps {a0 x d r s} (h_s : Keeps a0 s) : OutKeeps a0 (execAdd x d r s) := out_next (aluWrite_keeps h_s)

theorem execAdc_keeps {a0 x d r s} (h_s : Keeps a0 s) : OutKeeps a0 (execAdc x d r s) := out_next (aluWrite_keeps h_s)

theorem execSub_keeps {a0 x d r s} (h_s : Keeps a0 s) : OutKeeps a0 (execSub x d r s) := out_next (aluWrite_keeps h_s)

theorem execSbb_keeps {a0 x d r s} (h_s : Keeps a0 s) : OutKeeps a0 (execSbb x d r s) := out_next (aluWrite_keeps h_s)

theorem execAnd_keeps {a0 x d r s} (h_s : Keeps a0 s) : OutKeeps a0 (execAnd x d r s) := out_next (aluWrite_keeps h_s)

theorem execOr_keeps {a0 x d r s} (h_s : Keeps a0 s) : OutKeeps a0 (execOr x d r s) := out_next (aluWrite_keeps h_s)

theorem execXor_keeps {a0 x d r s} (h_s : Keeps a0 s) : OutKeeps a0 (execXor x d r s) := out_next (aluWrite_keeps h_s)

theorem execCmp_keeps {a0 x d r s} (h_s : Keeps a0 s) : OutKeeps a0 (execCmp x d r s) := out_next (aluTest_keeps h_s)

theorem execTst_keeps {a0 x d r s} (h_s : Keeps a0 s) : OutKeeps a0 (execTst x d r s) := out_next (aluTest_keeps h_s)

theorem execAddi_keeps {a0 x d imm s} (h_s : Keeps a0 s) : OutKeeps a0 (execAddi x d imm s) := out_next (aluWrite_keeps h_s)

theorem execCmpi_keeps {a0 x d imm s} (h_s : Keeps a0 s) : OutKeeps a0 (execCmpi x d imm s) := out_next (aluTest_keeps h_s)

theorem execAndi_keeps {a0 x d imm s} (h_s : Keeps a0 s) : OutKeeps a0 (execAndi x d imm s) := out_next (aluWrite_keeps h_s)

theorem shiftBy_keeps {a0 x kind d k c next s} (h_s : Keeps a0 s) : IlKeeps a0 (shiftBy x kind d k c next s) := by
  unfold shiftBy
  extract_lets
  rename_i v0 v1
  clear_value v0
  have k2 : Keeps a0 v1 := keeps_ite (keeps_draw h_s) h_s
  clear_value v1
  split
  · rename_i v3 v4 v5 v6
    exact retire_keeps k2

theorem shiftReg_keeps {a0 i x kind d r s} (h_s : Keeps a0 s) : Keeps a0 (shiftReg i x kind d r s) := runIl_keeps (fun _ _
    _ h3 => shiftBy_keeps h3) h_s

theorem shiftImm_keeps {a0 i x kind d k s} (h_s : Keeps a0 s) : Keeps a0 (shiftImm i x kind d k s) := runIl_keeps (fun _ _
    _ h3 => il_ite il_exc (shiftBy_keeps h3)) h_s

theorem execShl_keeps {a0 x d r s} (h_s : Keeps a0 s) : OutKeeps a0 (execShl x d r s) := out_next (shiftReg_keeps h_s)

theorem execShr_keeps {a0 x d r s} (h_s : Keeps a0 s) : OutKeeps a0 (execShr x d r s) := out_next (shiftReg_keeps h_s)

theorem execSar_keeps {a0 x d r s} (h_s : Keeps a0 s) : OutKeeps a0 (execSar x d r s) := out_next (shiftReg_keeps h_s)

theorem execRol_keeps {a0 x d r s} (h_s : Keeps a0 s) : OutKeeps a0 (execRol x d r s) := out_next (shiftReg_keeps h_s)

theorem execShli_keeps {a0 x d k s} (h_s : Keeps a0 s) : OutKeeps a0 (execShli x d k s) := out_next (shiftImm_keeps h_s)

theorem execShri_keeps {a0 x d k s} (h_s : Keeps a0 s) : OutKeeps a0 (execShri x d k s) := out_next (shiftImm_keeps h_s)

theorem execSari_keeps {a0 x d k s} (h_s : Keeps a0 s) : OutKeeps a0 (execSari x d k s) := out_next (shiftImm_keeps h_s)

theorem execRoli_keeps {a0 x d k s} (h_s : Keeps a0 s) : OutKeeps a0 (execRoli x d k s) := out_next (shiftImm_keeps h_s)

theorem znWrite_keeps {a0 i x d f r s} (h_s : Keeps a0 s) : Keeps a0 (znWrite i x d f r s) := aluWrite_keeps h_s

theorem execMul_keeps {a0 x d r s} (h_s : Keeps a0 s) : OutKeeps a0 (execMul x d r s) := out_next (znWrite_keeps h_s)

theorem execMulhu_keeps {a0 x d r s} (h_s : Keeps a0 s) : OutKeeps a0 (execMulhu x d r s) := out_next (znWrite_keeps h_s)

theorem divide_keeps {a0 i x d r f s} (h_s : Keeps a0 s) : Keeps a0 (divide i x d r f s) := by
  unfold divide
  refine runIl_keeps ?_ h_s
  intro y0 y1 y2 h3
  extract_lets
  rename_i v4 v5
  clear_value v4 v5
  refine il_ite il_exc ?_
  split
  · rename_i v6 v7 v8 v9
    extract_lets
    rename_i v10
    clear_value v10
    exact retire_keeps (keeps_of_snd v9 (freeVal_keeps h3))

theorem execDivu_keeps {a0 x d r s} (h_s : Keeps a0 s) : OutKeeps a0 (execDivu x d r s) := out_next (divide_keeps h_s)

theorem execRemu_keeps {a0 x d r s} (h_s : Keeps a0 s) : OutKeeps a0 (execRemu x d r s) := out_next (divide_keeps h_s)

theorem execDivs_keeps {a0 x d r s} (h_s : Keeps a0 s) : OutKeeps a0 (execDivs x d r s) := out_next (divide_keeps h_s)

theorem execRems_keeps {a0 x d r s} (h_s : Keeps a0 s) : OutKeeps a0 (execRems x d r s) := out_next (divide_keeps h_s)

theorem limitPicItem_keeps {a0 tile e d s} (h_s : Keeps a0 s) : Keeps a0 (limitPicItem tile e d s) := by
  unfold limitPicItem
  extract_lets
  rename_i v0 v1 v2
  clear_value v0
  have k3 : ∀ z0 z1, Keeps a0 z1 → Keeps a0 (v1 z0 z1) := by
    intro y4 y5 h6
    unfold v1
    exact endItem_keeps h6
  clear_value v1
  have k7 : Keeps a0 v2 := decEvent_keeps h_s
  clear_value v2
  refine keeps_ite (dropStale_keeps h_s) ?_
  split
  · rename_i v8 v9
    exact k3 _ _ h_s
  · rename_i v10 v11 v12 v13
    extract_lets
    rename_i v14
    clear_value v14
    split
    · rename_i v15 v16
      exact k3 _ _ k7
    · rename_i v17 v18 v19
      split
      · rename_i v20 v21
        exact k3 _ _ k7
      · rename_i v22 v23 v24
        extract_lets
        rename_i v25
        clear_value v25
        exact k3 _ _ (finishPicItem_keeps k7)

theorem runPicItem_keeps {a0 op tile e motion s} (h_s : Keeps a0 s) : Keeps a0 (runPicItem op tile e motion s) := by
  unfold runPicItem
  split
  · rename_i v0 v1
    exact h_s
  · rename_i v2 v3 v4
    extract_lets
    rename_i v5 v6 v7
    clear_value v5
    have k8 : ∀ z0 z1 z2, Keeps a0 z2 → Keeps a0 (v6 z0 z1 z2) := by
      intro y9 y10 y11 h12
      unfold v6
      exact endItem_keeps h12
    clear_value v6 v7
    refine keeps_ite (dropStale_keeps h_s) (keeps_ite (k8 _ _ _ h_s) ?_)
    split
    · rename_i v13 v14
      exact k8 _ _ _ h_s
    · rename_i v15 v16 v17 v18
      extract_lets
      rename_i v19 v20 v21
      clear_value v19
      have k22 : Keeps a0 v20 := tagStage_keeps h_s
      clear_value v20 v21
      split
      · rename_i v23 v24
        exact k8 _ _ _ h_s
      · rename_i v25 v26 v27
        refine keeps_ite h_s (keeps_ite (limitPicItem_keeps h_s) ?_)
        split
        · rename_i v28 v29
          exact keeps_ite h_s (decEvent_keeps (putEng_keeps h_s))
        · rename_i v30 v31 v32
          extract_lets
          rename_i v33
          clear_value v33
          exact k8 _ _ _ (finishPicItem_keeps k22)

theorem execDecode_keeps {a0 tile e motion s} (h_s : Keeps a0 s) : OutKeeps a0 (execDecode tile e motion s) := out_next
    (runPicItem_keeps h_s)

theorem execParse_keeps {a0 tile e motion s} (h_s : Keeps a0 s) : OutKeeps a0 (execParse tile e motion s) := out_next
    (runPicItem_keeps h_s)

theorem execReleaseSlot_keeps {a0 tile s} (h_s : Keeps a0 s) : OutKeeps a0 (execReleaseSlot tile s) := by
  unfold execReleaseSlot
  refine out_next ?_
  split
  · rename_i v0 v1
    exact h_s
  · rename_i v2 v3 v4
    extract_lets
    rename_i v5 v6
    clear_value v5
    have k7 : ∀ z0 z1, Keeps a0 z1 → Keeps a0 (v6 z0 z1) := by
      intro y8 y9 h10
      unfold v6
      exact endItem_keeps h10
    clear_value v6
    refine keeps_ite (dropStale_keeps h_s) (keeps_ite (k7 _ _ h_s) ?_)
    split
    · rename_i v11 v12
      exact k7 _ _ h_s
    · rename_i v13 v14 v15 v16
      extract_lets
      rename_i v17
      clear_value v17
      exact k7 _ _ (showPool_keeps (putMedia_keeps h_s))

theorem adjust_keeps {a0 i x d subtract s} (h_s : Keeps a0 s) : Keeps a0 (adjust i x d subtract s) := by
  unfold adjust
  refine runIl_keeps ?_ h_s
  intro y0 y1 y2 h3
  extract_lets
  rename_i v4
  clear_value v4
  split
  · rename_i v5 v6 v7 v8
    exact il_done h3

theorem execDaa_keeps {a0 x d s} (h_s : Keeps a0 s) : OutKeeps a0 (execDaa x d s) := out_next (adjust_keeps h_s)

theorem execDas_keeps {a0 x d s} (h_s : Keeps a0 s) : OutKeeps a0 (execDas x d s) := out_next (adjust_keeps h_s)

theorem badInput_keeps {a0 c next s} (h_s : Keeps a0 s) : IlKeeps a0 (badInput c next s) := il_done h_s

theorem bcdInstr_keeps {a0 i x d r subtract carry write s} (h_s : Keeps a0 s) : Keeps a0 (bcdInstr i x d r subtract carry
    write s) := by
  unfold bcdInstr
  refine runIl_keeps ?_ h_s
  intro y0 y1 y2 h3
  extract_lets
  rename_i v4 v5 v6
  clear_value v4 v5 v6
  refine il_ite (badInput_keeps h3) ?_
  split
  · rename_i v7 v8 v9 v10 v11
    extract_lets
    rename_i v12 v13 v14
    clear_value v12 v13 v14
    exact il_done h3

theorem execBcdadd_keeps {a0 x d r s} (h_s : Keeps a0 s) : OutKeeps a0 (execBcdadd x d r s) := out_next (bcdInstr_keeps h_s)

theorem execBcdadc_keeps {a0 x d r s} (h_s : Keeps a0 s) : OutKeeps a0 (execBcdadc x d r s) := out_next (bcdInstr_keeps h_s)

theorem execBcdsub_keeps {a0 x d r s} (h_s : Keeps a0 s) : OutKeeps a0 (execBcdsub x d r s) := out_next (bcdInstr_keeps h_s)

theorem execBcdsbb_keeps {a0 x d r s} (h_s : Keeps a0 s) : OutKeeps a0 (execBcdsbb x d r s) := out_next (bcdInstr_keeps h_s)

theorem execBcdcmp_keeps {a0 x d r s} (h_s : Keeps a0 s) : OutKeeps a0 (execBcdcmp x d r s) := out_next (bcdInstr_keeps h_s)

theorem execBcdchk_keeps {a0 x r s} (h_s : Keeps a0 s) : OutKeeps a0 (execBcdchk x r s) := out_next (runIl_keeps (fun _ _ _
    h3 => il_done h3) h_s)

theorem convert_keeps {a0 i x d f s} (h_s : Keeps a0 s) : Keeps a0 (convert i x d f s) := by
  unfold convert
  refine runIl_keeps ?_ h_s
  intro y0 y1 y2 h3
  split
  · rename_i v4 v5
    exact badInput_keeps h3
  · rename_i v6 v7 v8
    exact il_done h3

theorem execB2bcd_keeps {a0 x d r s} (h_s : Keeps a0 s) : OutKeeps a0 (execB2bcd x d r s) := out_next (convert_keeps h_s)

theorem execBcd2b_keeps {a0 x d r s} (h_s : Keeps a0 s) : OutKeeps a0 (execBcd2b x d r s) := out_next (convert_keeps h_s)

theorem tcInstr_keeps {a0 i x d rate f s} (h_s : Keeps a0 s) : Keeps a0 (tcInstr i x d rate f s) := by
  unfold tcInstr
  refine runIl_keeps ?_ h_s
  intro y0 y1 y2 h3
  refine il_ite il_exc ?_
  split
  · rename_i v4 v5
    exact badInput_keeps h3
  · rename_i v6 v7 v8 v9
    exact il_done h3

theorem execTcadd_keeps {a0 x d r rate s} (h_s : Keeps a0 s) : OutKeeps a0 (execTcadd x d r rate s) := out_next
    (tcInstr_keeps h_s)

theorem execTcsub_keeps {a0 x d r rate s} (h_s : Keeps a0 s) : OutKeeps a0 (execTcsub x d r rate s) := out_next
    (tcInstr_keeps h_s)

theorem execTc2f_keeps {a0 x d r rate s} (h_s : Keeps a0 s) : OutKeeps a0 (execTc2f x d r rate s) := out_next
    (tcInstr_keeps h_s)

theorem execF2tc_keeps {a0 x d r rate s} (h_s : Keeps a0 s) : OutKeeps a0 (execF2tc x d r rate s) := out_next
    (tcInstr_keeps h_s)

theorem execTcchk_keeps {a0 x r rate s} (h_s : Keeps a0 s) : OutKeeps a0 (execTcchk x r rate s) := out_next (runIl_keeps
    (fun _ _ _ h3 => il_ite il_exc (il_done h3)) h_s)

theorem execBr_keeps {a0 x disp s} (h_s : Keeps a0 s) : OutKeeps a0 (execBr x disp s) := out_next (runIl_keeps (fun _ _ _
    h3 => skipTo_keeps h3) h_s)

theorem execBc_keeps {a0 x cond disp s} (h_s : Keeps a0 s) : OutKeeps a0 (execBc x cond disp s) := out_next (runIl_keeps
    (fun _ _ _ h3 => skipTo_keeps h3) h_s)

theorem execJmp_keeps {a0 x r s} (h_s : Keeps a0 s) : OutKeeps a0 (execJmp x r s) := out_next (runIl_keeps (fun _ _ _ h3 =>
    skipTo_keeps h3) h_s)

theorem callTo_keeps {a0 i x target s} (h_s : Keeps a0 s) : Keeps a0 (callTo i x target s) := by
  unfold callTo
  refine runIl_keeps ?_ h_s
  intro y0 y1 y2 h3
  split
  · rename_i v4 v5
    exact il_exc
  · rename_i v6 v7 v8
    exact skipTo_keeps h3

theorem execCall_keeps {a0 x disp s} (h_s : Keeps a0 s) : OutKeeps a0 (execCall x disp s) := out_next (callTo_keeps h_s)

theorem execCallr_keeps {a0 x r s} (h_s : Keeps a0 s) : OutKeeps a0 (execCallr x r s) := out_next (callTo_keeps h_s)

theorem execRet_keeps {a0 x s} (h_s : Keeps a0 s) : OutKeeps a0 (execRet x s) := by
  unfold execRet
  refine out_next (runIl_keeps ?_ h_s)
  intro y0 y1 y2 h3
  split
  · rename_i v4 v5
    exact il_exc
  · rename_i v6 v7 v8
    exact il_ite il_exc (skipTo_keeps h3)

theorem execGcall_keeps {a0 x k s} (h_s : Keeps a0 s) : OutKeeps a0 (execGcall x k s) := by
  unfold execGcall
  refine out_next (runIl_keeps ?_ h_s)
  intro y0 y1 y2 h3
  extract_lets
  rename_i v4 v5 v6 v7
  clear_value v4 v5 v6 v7
  refine il_ite il_exc ?_
  split
  · rename_i v8 v9
    exact il_exc
  · rename_i v10 v11 v12
    exact il_done h3

theorem execGret_keeps {a0 x v s} (h_s : Keeps a0 s) : OutKeeps a0 (execGret x v s) := by
  unfold execGret
  refine out_next (runIl_keeps ?_ h_s)
  intro y0 y1 y2 h3
  split
  · rename_i v4 v5
    exact il_ite il_exc il_exc
  · rename_i v6 v7 v8
    exact il_ite il_exc (il_ite il_exc (il_done h3))

theorem execSigu_keeps {a0 x v s} (h_s : Keeps a0 s) : OutKeeps a0 (execSigu x v s) := out_next (runIl_keeps (fun _ _ _ h3
    => skipTo_keeps h3) h_s)

theorem execSigck_keeps {a0 x v s} (h_s : Keeps a0 s) : OutKeeps a0 (execSigck x v s) := out_next (runIl_keeps (fun _ _ _
    h3 => il_ite il_exc (skipTo_keeps h3)) h_s)

theorem coreWrite_keeps {a0 i a l s} (h_s : Keeps a0 s) : Keeps a0 (coreWrite i a l s) := by
  unfold coreWrite
  split
  · rename_i v0 v1 v2
    extract_lets
    rename_i v3 v4
    have k5 : Keeps a0 v3 := keeps_memWrite h_s
    clear_value v3 v4
    exact keeps_ite (clearSram_keeps k5) (keeps_upd k5)
  · rename_i v6 v7
    exact h_s

theorem spillAll_keeps {a0 i x1 x2 x3} (h_x3 : Keeps a0 x3) : Keeps a0 (spillAll i x1 x2 x3) := by
  induction x1 generalizing x2 x3 with
  | nil =>
    unfold spillAll
    exact h_x3
  | cons e x1 ih =>
    unfold spillAll
    exact ih (coreWrite_keeps h_x3)

theorem onlyC0_keeps {a0 c e} (h_e : IlKeeps a0 e) : IlKeeps a0 (onlyC0 c e) := il_ite il_exc h_e

theorem execRsspill_keeps {a0 x k s} (h_s : Keeps a0 s) : OutKeeps a0 (execRsspill x k s) := by
  unfold execRsspill
  refine out_next (runIl_keeps ?_ h_s)
  intro y0 y1 y2 h3
  refine il_ite il_exc (onlyC0_keeps ?_)
  extract_lets
  rename_i v4 v5
  clear_value v4
  have k6 : Keeps a0 v5 := spillAll_keeps h3
  clear_value v5
  split
  · rename_i v7 v8 v9
    exact il_exc
  · rename_i v10 v11
    exact il_done k6

theorem shpCount_keeps {a0 tile i s} (h_s : Keeps a0 s) : Keeps a0 (shpCount tile i s) := setRegN_keeps h_s

theorem limitShape_keeps {a0 tile cyc d s} (h_s : Keeps a0 s) : Keeps a0 (limitShape tile cyc d s) := by
  unfold limitShape
  extract_lets
  rename_i v0 v1 v2
  clear_value v0
  have k3 : ∀ z0, Keeps a0 z0 → Keeps a0 (v1 z0) := by
    intro y4 h5
    unfold v1
    exact endItem_keeps h5
  clear_value v1
  have k6 : Keeps a0 v2 := errInfo_keeps (shpCount_keeps h_s)
  clear_value v2
  refine keeps_ite (dropStale_keeps h_s) ?_
  split
  · rename_i v7 v8
    exact k3 _ k6
  · rename_i v9 v10 v11 v12
    exact k3 _ (dropSample_keeps k6)

theorem cropEvents_keeps {a0 tile changed rejected dflt s} (h_s : Keeps a0 s) : Keeps a0 (cropEvents tile changed rejected
    dflt s) := by
  unfold cropEvents
  extract_lets
  rename_i v0 v1
  have k2 : Keeps a0 v0 := keeps_ite (penBit_keeps (shpCount_keeps h_s)) h_s
  clear_value v0
  have k3 : Keeps a0 v1 := keeps_ite (penBit_keeps (shpCount_keeps k2)) k2
  clear_value v1
  exact keeps_ite (penBit_keeps (shpCount_keeps k3)) k3

theorem noteBand_keeps {a0 k out rows tick s} (h_s : Keeps a0 s) : Keeps a0 (noteBand k out rows tick s) := by
  unfold noteBand
  extract_lets
  rename_i v0
  clear_value v0
  exact keeps_ite (putMedia_keeps h_s) (putMedia_keeps h_s)

theorem runShape_keeps {a0 tile cyc s} (h_s : Keeps a0 s) : Keeps a0 (runShape tile cyc s) := by
  unfold runShape
  split
  · rename_i v0 v1
    exact h_s
  · rename_i v2 v3 v4
    extract_lets
    rename_i v5 v6 v7 v8 v9 v10
    clear_value v5
    have k11 : ∀ z0 z1 z2, Keeps a0 z2 → Keeps a0 (v6 z0 z1 z2) := by
      intro y12 y13 y14 h15
      unfold v6
      exact endItem_keeps h15
    clear_value v6 v7 v8 v9 v10
    refine keeps_ite (dropStale_keeps h_s) (keeps_ite (k11 _ _ _ h_s) ?_)
    split
    · rename_i v16 v17
      exact k11 _ _ _ h_s
    · rename_i v18 v19 v20 v21
      extract_lets
      rename_i v22 v23 v24
      clear_value v22 v23 v24
      refine keeps_ite (k11 _ _ _ h_s) (keeps_ite h_s (keeps_ite (limitShape_keeps h_s) ?_))
      split
      · rename_i v25 v26 v27 v28
        extract_lets
        rename_i v29 v30 v31 v32
        clear_value v29
        have k33 : Keeps a0 v30 := cropEvents_keeps (putMedia_keeps h_s)
        clear_value v30 v31 v32
        split
        · rename_i v34 v35 v36 v37
          split
          · rename_i v38 v39 v40 v41
            refine keeps_ite (k11 _ _ _ (dropSample_keeps (errInfo_keeps (penBit_keeps (shpCount_keeps (keeps_of_snd v37
                (freeVal_keeps k33))))))) ?_
            refine keeps_ite (k11 _ _ _ (dropSample_keeps (errInfo_keeps (shpCount_keeps (keeps_of_snd v37 (freeVal_keeps
                k33)))))) ?_
            extract_lets
            rename_i v42 v43 v44 v45
            clear_value v42
            have k46 : Keeps a0 v43 := keeps_foldl (fun _ _ h49 => sliceWrite_keeps h49) (keeps_of_snd v37 (freeVal_keeps
                k33))
            clear_value v43
            have k50 : Keeps a0 v44 := noteBand_keeps k46
            clear_value v44
            have k51 : Keeps a0 v45 := keeps_ite (perfEvent_keeps (shpCount_keeps k50)) k50
            clear_value v45
            exact k11 _ _ _ (tagStage_keeps k51)

theorem execShape_keeps {a0 tile cyc s} (h_s : Keeps a0 s) : OutKeeps a0 (execShape tile cyc s) := out_next (runShape_keeps
    h_s)

theorem execItemLimit_keeps {a0 tile eng e s} (h_s : Keeps a0 s) : OutKeeps a0 (execItemLimit tile eng e s) := by
  unfold execItemLimit
  refine out_next ?_
  split
  · rename_i v0 v1
    exact h_s
  · rename_i v2 v3 v4
    exact keeps_ite h_s (keeps_ite (limitPicItem_keeps h_s) (keeps_ite (limitShape_keeps h_s) h_s))

theorem budgetStop_keeps {a0 tile eng cyc left d s} (h_s : Keeps a0 s) : Keeps a0 (budgetStop tile eng cyc left d s) := by
  unfold budgetStop
  refine keeps_ite (dropStale_keeps h_s) ?_
  extract_lets
  rename_i v0
  have k1 : Keeps a0 v0 := endItem_keeps h_s
  clear_value v0
  split
  · rename_i v2 v3
    exact k1
  · rename_i v4 v5 v6 v7
    exact dropSample_keeps k1

theorem execItemExpiry_keeps {a0 tile eng cyc left s} (h_s : Keeps a0 s) : OutKeeps a0 (execItemExpiry tile eng cyc left s)
    := by
  unfold execItemExpiry
  refine out_next (keeps_ite h_s ?_)
  split
  · rename_i v0 v1
    exact h_s
  · rename_i v2 v3 v4
    exact keeps_ite h_s (budgetStop_keeps h_s)

theorem showProfile_keeps {a0 p on s} (h_s : Keeps a0 s) : Keeps a0 (showProfile p on s) := forN_keeps h_s (fun _ _ h2 =>
    setFld_keeps h2)

theorem execShpProfileLoad_keeps {a0 k bytes s} (h_s : Keeps a0 s) : OutKeeps a0 (execShpProfileLoad k bytes s) := by
  unfold execShpProfileLoad
  refine out_next (runSvc_keeps ?_ h_s)
  intro y0 y1 h2
  extract_lets
  rename_i v3 v4 v5
  clear_value v3 v4 v5
  refine end_ite (end_done h2) ?_
  split
  · rename_i v6 v7 v8
    exact end_done h2
  · rename_i v9 v10
    exact end_done (showProfile_keeps (keeps_upd h2))

theorem execShpProfileDrop_keeps {a0 k s} (h_s : Keeps a0 s) : OutKeeps a0 (execShpProfileDrop k s) := by
  unfold execShpProfileDrop
  refine out_next (runSvc_keeps ?_ h_s)
  intro y0 y1 h2
  extract_lets
  rename_i v3 v4
  clear_value v3 v4
  exact end_ite (end_done h2) (end_ite (end_done h2) (end_done (showProfile_keeps (keeps_upd h2))))

theorem execShardProbe_keeps {a0 k entry e s} (h_s : Keeps a0 s) : OutKeeps a0 (execShardProbe k entry e s) := by
  unfold execShardProbe
  refine out_next ?_
  split
  · rename_i v0 v1
    exact h_s
  · rename_i v2 v3 v4
    extract_lets
    rename_i v5 v6
    have k7 : ∀ z0, Keeps a0 z0 → Keeps a0 (v5 z0) := by
      intro y8 h9
      unfold v5
      exact keeps_upd h9
    clear_value v5
    have k10 : Keeps a0 v6 := keeps_ite h_s (runSvc_keeps (fun _ _ h13 => end_wait (keeps_upd h13)) h_s)
    clear_value v6
    split
    · rename_i v14 v15
      exact k10
    · rename_i v16 v17 v18
      split
      · rename_i v19
        exact k10
      · rename_i v20
        exact complete_keeps (k7 _ k10)
      · rename_i v21 v22
        exact keeps_ite (complete_keeps (k7 _ k10)) (complete_keeps (dmaWrite_keeps (k7 _ k10)))

theorem execShardProbeTimeout_keeps {a0 k t s} (h_s : Keeps a0 s) : OutKeeps a0 (execShardProbeTimeout k t s) := by
  unfold execShardProbeTimeout
  refine out_next ?_
  extract_lets
  rename_i v0 v1
  have k2 : Keeps a0 v0 := atTime_keeps h_s
  clear_value v0 v1
  split
  · rename_i v3 v4
    exact k2
  · rename_i v5 v6 v7
    split
    · rename_i v8 v9
      exact k2
    · rename_i v10 v11 v12
      exact keeps_ite (complete_keeps (keeps_upd k2)) k2

theorem execMfs_keeps {a0 x d n s} (h_s : Keeps a0 s) : OutKeeps a0 (execMfs x d n s) := by
  unfold execMfs
  refine out_next (runIl_keeps ?_ h_s)
  intro y0 y1 y2 h3
  split
  · rename_i v4 v5
    exact il_exc
  · rename_i v6 v7 v8
    exact retire_keeps h3

theorem execMts_keeps {a0 x n r s} (h_s : Keeps a0 s) : OutKeeps a0 (execMts x n r s) := out_next (runIl_keeps (fun _ _ _
    h3 => il_ite il_exc (il_ite il_exc (skipTo_keeps h3))) h_s)

theorem execEret_keeps {a0 x s} (h_s : Keeps a0 s) : OutKeeps a0 (execEret x s) := out_next (runIl_keeps (fun _ _ _ h3 =>
    onlyC0_keeps (il_done h3)) h_s)

theorem execWfi_keeps {a0 x s} (h_s : Keeps a0 s) : OutKeeps a0 (execWfi x s) := out_next (runIl_keeps (fun _ _ _ h3 =>
    onlyC0_keeps (il_ite (skipTo_keeps h3) (il_done h3))) h_s)

theorem execRtsync_keeps {a0 x s} (h_s : Keeps a0 s) : OutKeeps a0 (execRtsync x s) := out_next (runIl_keeps (fun _ _ _ h3
    => onlyC0_keeps (skipTo_keeps h3)) h_s)

theorem execIsync_keeps {a0 x s} (h_s : Keeps a0 s) : OutKeeps a0 (execIsync x s) := out_next (runIl_keeps (fun _ _ _ h3 =>
    skipTo_keeps h3) h_s)

theorem execWdkick_keeps {a0 x s} (h_s : Keeps a0 s) : OutKeeps a0 (execWdkick x s) := out_next (runIl_keeps (fun _ _ _ h3
    => onlyC0_keeps (skipTo_keeps h3)) h_s)

theorem execInterruptTake_keeps {a0 core s} (h_s : Keeps a0 s) : OutKeeps a0 (execInterruptTake core s) := by
  unfold execInterruptTake
  refine out_next (keeps_ite h_s ?_)
  extract_lets
  rename_i v0 v1 v2
  have k3 : Keeps a0 v0 := wakeCore_keeps h_s
  clear_value v0 v1 v2
  refine keeps_ite k3 ?_
  split
  · rename_i v4 v5
    exact k3
  · rename_i v6 v7 v8
    exact enterException_keeps k3

theorem execWatchdogExpiry_keeps {a0 core s} (h_s : Keeps a0 s) : OutKeeps a0 (execWatchdogExpiry core s) := by
  unfold execWatchdogExpiry
  refine out_next (keeps_ite h_s ?_)
  extract_lets
  rename_i v0 v1 v2
  clear_value v0 v1 v2
  exact keeps_ite h_s (keeps_ite (stopCore_keeps h_s) (keeps_ite h_s (enterException_keeps (putCore_keeps h_s))))

theorem execDpush_keeps {a0 x eng r s} (h_s : Keeps a0 s) : OutKeeps a0 (execDpush x eng r s) := by
  unfold execDpush
  refine out_next (runIl_keeps ?_ h_s)
  intro y0 y1 y2 h3
  extract_lets
  rename_i v4 v5 v6 v7 v8 v9
  clear_value v4
  have k10 : Keeps a0 v5 := sliceTouch_keeps h3
  clear_value v5 v6
  have k11 : ∀ z0 z1 z2, Keeps a0 z2 → IlKeeps a0 (v7 z0 z1 z2) := by
    intro y12 y13 y14 h15
    unfold v7
    exact il_done h15
  clear_value v7 v8 v9
  refine il_ite il_exc (il_ite il_exc (il_ite il_exc ?_))
  split
  · rename_i v16 v17 v18
    exact il_exc
  · rename_i v19 v20
    split
    · rename_i v21 v22 v23
      exact il_excIn (sliceTouch_keeps h3)
    · rename_i v24 v25
      exact il_ite (k11 _ _ _ k10) (il_ite (k11 _ _ _ k10) (k11 _ _ _ (putEng_keeps k10)))

theorem execBread_keeps {a0 x d eng s} (h_s : Keeps a0 s) : OutKeeps a0 (execBread x d eng s) := out_next (runIl_keeps (fun
    _ _ _ h3 => il_ite il_exc (retire_keeps h3)) h_s)

theorem execRpop_keeps {a0 x d s} (h_s : Keeps a0 s) : OutKeeps a0 (execRpop x d s) := by
  unfold execRpop
  refine out_next (runIl_keeps ?_ h_s)
  intro y0 y1 y2 h3
  refine il_ite il_exc ?_
  split
  · rename_i v4 v5
    exact il_done h3
  · rename_i v6 v7 v8 v9
    extract_lets
    rename_i v10 v11
    clear_value v10 v11
    exact il_done (putRing_keeps h3)

theorem execWait_keeps {a0 x d m s} (h_s : Keeps a0 s) : OutKeeps a0 (execWait x d m s) := by
  unfold execWait
  refine out_next (runIl_keeps ?_ h_s)
  intro y0 y1 y2 h3
  refine il_ite il_exc ?_
  extract_lets
  rename_i v4
  clear_value v4
  exact il_ite (retire_keeps h3) (il_done h3)

theorem edgeCore_keeps {a0 i s} (h_s : Keeps a0 s) : Keeps a0 (edgeCore i s) := by
  unfold edgeCore
  extract_lets
  rename_i v0 v1 v2
  clear_value v0 v1 v2
  exact wakeCore_keeps (putCore_keeps h_s)

theorem edgeCores_keeps {a0 s} (h_s : Keeps a0 s) : Keeps a0 (edgeCores s) := forN_keeps h_s (fun _ _ h2 => edgeCore_keeps h2)

theorem tenCount_keeps {a0 tile i n s} (h_s : Keeps a0 s) : Keeps a0 (tenCount tile i n s) := setRegN_keeps h_s

theorem noFit_keeps {a0 tile g s} (h_s : Keeps a0 s) : Keeps a0 (noFit tile g s) := errInfo_keeps (penBit_keeps h_s)

theorem writeWeights_keeps {a0 tile g s} (h_s : Keeps a0 s) : Keeps a0 (writeWeights tile g s) := by
  unfold writeWeights
  split
  · rename_i v0 v1
    exact h_s
  · rename_i v2 v3 v4
    extract_lets
    rename_i v5
    have k6 : Keeps a0 v5 := by
      unfold v5
      refine keeps_foldl ?_ h_s
      intro y7 y8 h9
      extract_lets
      rename_i v10
      clear_value v10
      exact keeps_ite (sliceWrite_keeps h9) h9
    clear_value v5
    exact setReady_keeps k6

theorem startRefill_keeps {a0 tile gs s} (h_s : Keeps a0 s) : Keeps a0 (startRefill tile gs s) := by
  unfold startRefill
  extract_lets
  rename_i v0 v1 v2 v3 v4
  have k5 : Keeps a0 v0 := keeps_foldl (fun _ _ h8 => setReady_keeps h8) h_s
  clear_value v0 v1
  have k9 : Keeps a0 v2 := keeps_foldl (fun _ _ h12 => noFit_keeps h12) k5
  clear_value v2 v3 v4
  exact keeps_ite k9 (keeps_upd k9)

theorem showGraph_keeps {a0 g on s} (h_s : Keeps a0 s) : Keeps a0 (showGraph g on s) := forN_keeps h_s (fun _ _ h2 =>
    setFld_keeps h2)

theorem beginCopies_keeps {a0 s} (h_s : Keeps a0 s) : Keeps a0 (beginCopies s) := by
  unfold beginCopies
  split
  · rename_i v0 v1
    exact h_s
  · rename_i v2 v3 v4 v5
    refine keeps_ite h_s ?_
    extract_lets
    rename_i v6 v7
    clear_value v6 v7
    exact keeps_upd h_s

theorem dueRefills_keeps {a0 s} (h_s : Keeps a0 s) : Keeps a0 (dueRefills s) := by
  unfold dueRefills
  extract_lets
  rename_i v0 v1
  clear_value v0 v1
  exact keeps_foldl (fun _ _ h4 => keeps_ite (startRefill_keeps h4) h4) (keeps_upd h_s)

theorem settleLoad_keeps {a0 g x s} (h_s : Keeps a0 s) : Keeps a0 (settleLoad g x s) := forN_keeps h_s (fun _ _ h2 =>
    keeps_ite h2 (keeps_ite (dueRefill_keeps h2) (noFit_keeps h2)))

theorem finishLoads_keeps {a0 x1 x2} (h_x2 : Keeps a0 x2) : Keeps a0 (finishLoads x1 x2) := by
  induction x1 generalizing x2 with
  | zero => exact h_x2
  | succ x1 ih =>
    unfold finishLoads
    split
    · exact h_x2
    · refine keeps_ite h_x2 ?_
      extract_lets m s1 s2 s3
      have k1 : Keeps a0 s1 := keeps_upd h_x2
      clear_value s1
      have k2 : Keeps a0 s2 := settleLoad_keeps (showGraph_keeps k1)
      clear_value s2
      have k3 : Keeps a0 s3 := keeps_foldl (fun _ _ h => complete_keeps h) k2
      clear_value s3
      exact ih (beginCopies_keeps k3)

theorem edgeRefill_keeps {a0 s} (h_s : Keeps a0 s) : Keeps a0 (edgeRefill s) := finishLoads_keeps (dueRefills_keeps h_s)

theorem putRecord_keeps {a0 tile k r a s} (h_s : Keeps a0 s) : Keeps a0 (putRecord tile k r a s).2 := keeps_ite_snd h_s
    (addRecord_keeps (sliceWrite_keeps h_s))

theorem runEmit_keeps {a0 tile k d g n bad a s} (h_s : Keeps a0 s) : Keeps a0 (runEmit tile k d g n bad a s).2 := by
  unfold runEmit
  extract_lets
  rename_i v0
  clear_value v0
  split
  · rename_i v1 v2 v3 v4
    extract_lets
    rename_i v5
    clear_value v5
    split
    · rename_i v6 v7 v8 v9
      exact putRecord_keeps (keeps_of_snd v4 (freeBytes_keeps h_s))

theorem storeRows_keeps {a0 tile at_ t e0 p s} (h_s : Keeps a0 s) : Keeps a0 (storeRows tile at_ t e0 p s) :=
    sliceWrite_keeps (sliceWrite_keeps h_s)

theorem runOp_keeps {a0 tile d g n bad a s} (h_s : Keeps a0 s) : Keeps a0 (runOp tile d g n bad a s).2 := by
  unfold runOp
  extract_lets
  rename_i v0 v1 v2 v3 v4 v5 v6 v7
  clear_value v0 v1 v2 v3
  have k8 : Keeps a0 v4 := keeps_draw h_s
  clear_value v4 v5 v6 v7
  exact keeps_foldl (fun _ _ h11 => storeRows_keeps h11) k8

theorem poisonWeights_keeps {a0 tile g s x} (h_s : Keeps a0 s) : Keeps a0 (poisonWeights tile g s x) := keeps_ite
    (dueRefill_keeps (setReady_keeps h_s)) h_s

theorem finishTensor_keeps {a0 tile num k d a trapped cyc s} (h_s : Keeps a0 s) : Keeps a0 (finishTensor tile num k d a
    trapped cyc s) := by
  unfold finishTensor
  extract_lets
  rename_i v0 v1 v2 v3 v4 v5 v6 v7 v8 v9 v10
  have k11 : Keeps a0 v3 := keeps_ite (keeps_foldl (fun _ _ h14 => poisonWeights_keeps h14) (errInfo_keeps (penBit_keeps
      (tenCount_keeps h_s)))) h_s
  clear_value v3
  have k15 : Keeps a0 v4 := keeps_ite (penBit_keeps (tenCount_keeps k11)) k11
  clear_value v4
  have k16 : Keeps a0 v5 := keeps_ite (errInfo_keeps k15) k15
  clear_value v5
  have k17 : Keeps a0 v6 := keeps_ite (penBit_keeps (tenCount_keeps k16)) k16
  clear_value v6
  have k18 : Keeps a0 v7 := tenCount_keeps k17
  clear_value v7
  have k19 : Keeps a0 v8 := keeps_ite (tenCount_keeps k18) k18
  clear_value v8
  have k20 : Keeps a0 v9 := tagStage_keeps (keeps_ite (freeRun_keeps k19) k19)
  clear_value v9
  have k21 : Keeps a0 v10 := endItem_keeps k20
  clear_value v10
  exact keeps_ite (dropSample_keeps (keeps_ite (penBit_keeps k21) k21)) k21

theorem limitTensor_keeps {a0 tile cyc d s} (h_s : Keeps a0 s) : Keeps a0 (limitTensor tile cyc d s) := by
  unfold limitTensor
  extract_lets
  rename_i v0 v1 v2
  clear_value v0
  have k3 : Keeps a0 v1 := errInfo_keeps (penBit_keeps (tenCount_keeps h_s))
  clear_value v1
  have k4 : Keeps a0 v2 := endItem_keeps k3
  clear_value v2
  refine keeps_ite (dropStale_keeps h_s) ?_
  split
  · rename_i v5 v6
    exact k4
  · rename_i v7 v8 v9 v10
    exact dropSample_keeps (freeRun_keeps k4)

theorem streamWeights_keeps {a0 tile d g o s} (h_s : Keeps a0 s) : Keeps a0 (streamWeights tile d g o s) := keeps_foldl
    (fun _ _ h2 => keeps_ite (sliceWrite_keeps h2) h2) h_s

theorem runOps_keeps {a0 tile k d g x1 x2 x3 x4} (h_x4 : Keeps a0 x4) : Keeps a0 (runOps tile k d g x1 x2 x3 x4).2 := by
  induction x1 generalizing x2 x3 x4 with
  | zero => exact h_x4
  | succ x1 ih =>
    unfold runOps
    extract_lets o s1 reads words bad a s2
    have k1 : Keeps a0 s1 := streamWeights_keeps h_x4
    clear_value s1
    have k2 : Keeps a0 s2 := keeps_foldl (fun _ _ h => sliceTouch_keeps h) k1
    clear_value s2
    split
    rename_i e
    exact ih (keeps_of_snd e (keeps_ite_snd (runEmit_keeps k2) (runOp_keeps k2)))

theorem execRun_keeps {a0 tile cyc s} (h_s : Keeps a0 s) : OutKeeps a0 (execRun tile cyc s) := by
  unfold execRun
  refine out_next ?_
  split
  · rename_i v0 v1
    exact h_s
  · rename_i v2 v3 v4
    extract_lets
    rename_i v5 v6 v7
    clear_value v5
    have k8 : ∀ z0, Keeps a0 z0 → Keeps a0 (v6 z0) := by
      intro y9 h10
      unfold v6
      exact endItem_keeps h10
    clear_value v6 v7
    refine keeps_ite (dropStale_keeps h_s) ?_
    split
    · rename_i v11 v12
      exact k8 _ h_s
    · rename_i v13 v14 v15 v16
      refine keeps_ite (dropSample_keeps (k8 _ h_s)) (keeps_ite h_s (keeps_ite (limitTensor_keeps h_s) ?_))
      split
      · rename_i v17 v18 v19 v20
        exact finishTensor_keeps (keeps_of_snd v20 (runOps_keeps h_s))

theorem execEmitText_keeps {a0 tile late s} (h_s : Keeps a0 s) : OutKeeps a0 (execEmitText tile late s) := by
  unfold execEmitText
  refine out_next ?_
  split
  · rename_i v0 v1
    exact h_s
  · rename_i v2 v3 v4
    extract_lets
    rename_i v5 v6 v7 v8 v9 v10 v11 v12 v13 v14 v15
    clear_value v5 v6 v7 v8
    have k16 : ∀ z0, Keeps a0 z0 → Keeps a0 (v9 z0) := by
      intro y17 h18
      unfold v9
      exact endItem_keeps h18
    clear_value v9 v10 v11
    have k19 : Keeps a0 v12 := sliceTouch_keeps h_s
    clear_value v12 v13 v14 v15
    refine keeps_ite (dropStale_keeps h_s) ?_
    split
    · rename_i v20 v21
      exact k16 _ h_s
    · rename_i v22 v23 v24 v25
      refine keeps_ite (dropSample_keeps (k16 _ h_s)) (keeps_ite h_s (keeps_ite (limitTensor_keeps h_s) ?_))
      split
      · rename_i v26 v27 v28 v29
        exact finishTensor_keeps (freeSpace_keeps (keeps_of_snd v29 (putRecord_keeps k19)))

theorem execTensorItemLimit_keeps {a0 tile used late s} (h_s : Keeps a0 s) : OutKeeps a0 (execTensorItemLimit tile used late s) := by
  unfold execTensorItemLimit
  refine out_next ?_
  split
  · rename_i v0 v1
    exact h_s
  · rename_i v2 v3 v4
    exact keeps_ite (limitTensor_keeps h_s) h_s

theorem execGraphLoad_keeps {a0 k image s} (h_s : Keeps a0 s) : OutKeeps a0 (execGraphLoad k image s) := by
  unfold execGraphLoad
  refine out_next (finishLoads_keeps (runSvc_keeps ?_ h_s))
  intro y0 y1 h2
  extract_lets
  rename_i v3 v4 v5 v6 v7 v8
  clear_value v3 v4 v5 v6 v7 v8
  refine end_ite (end_done h2) ?_
  split
  · rename_i v9 v10 v11
    exact end_done h2
  · rename_i v12 v13
    exact end_ite (end_done h2) (end_wait (beginCopies_keeps (keeps_upd h2)))

theorem copyDone_keeps {a0 tile g s} (h_s : Keeps a0 s) : Keeps a0 (copyDone tile g s) := keeps_ite (writeWeights_keeps
    h_s) h_s

theorem execWeightCopyDone_keeps {a0 tile g s} (h_s : Keeps a0 s) : OutKeeps a0 (execWeightCopyDone tile g s) := by
  unfold execWeightCopyDone
  refine out_next (keeps_ite ?_ ?_)
  · extract_lets
    rename_i v0 v1
    have k2 : Keeps a0 v0 := copyDone_keeps h_s
    clear_value v0 v1
    exact finishLoads_keeps (keeps_upd k2)
  · extract_lets
    rename_i v3 v4 v5
    clear_value v3
    have k6 : Keeps a0 v4 := copyDone_keeps h_s
    clear_value v4 v5
    exact keeps_ite (keeps_upd k6) h_s

theorem execRefillEnd_keeps {a0 tile s} (h_s : Keeps a0 s) : OutKeeps a0 (execRefillEnd tile s) := by
  unfold execRefillEnd
  refine out_next ?_
  split
  · rename_i v0 v1
    exact penBit_keeps (tenCount_keeps (keeps_upd h_s))
  · rename_i v2 v3
    exact h_s

theorem execGraphDrop_keeps {a0 k s} (h_s : Keeps a0 s) : OutKeeps a0 (execGraphDrop k s) := by
  unfold execGraphDrop
  refine out_next (runSvc_keeps ?_ h_s)
  intro y0 y1 h2
  extract_lets
  rename_i v3 v4 v5
  clear_value v3
  have k6 : Keeps a0 v4 := forN_keeps (showGraph_keeps h2) (fun _ _ h9 => setReady_keeps h9)
  clear_value v4 v5
  exact end_ite (end_done h2) (end_ite (end_done h2) (end_done (keeps_upd k6)))

theorem execSampleStart_keeps {a0 num s} (h_s : Keeps a0 s) : OutKeeps a0 (execSampleStart num s) := by
  unfold execSampleStart
  refine out_next ?_
  split
  · rename_i v0 v1
    exact h_s
  · rename_i v2 v3 v4 v5
    split
    · rename_i v6 v7
      exact h_s
    · rename_i v8 v9 v10
      extract_lets
      rename_i v11 v12 v13 v14 v15
      clear_value v11 v12 v13 v14 v15
      exact keeps_ite h_s (keeps_ite (penBit_keeps (addReg_keeps (putCtx_keeps h_s))) (tagCandidate_keeps (putCtx_keeps h_s)))

theorem execSramScrub_keeps {a0 tile off pass s} (h_s : Keeps a0 s) : OutKeeps a0 (execSramScrub tile off pass s) := by
  unfold execSramScrub
  refine out_next (keeps_ite h_s ?_)
  extract_lets
  rename_i v0
  have k1 : Keeps a0 v0 := sliceTouch_keeps h_s
  clear_value v0
  split
  · rename_i v2 v3
    exact setFld_keeps k1
  · rename_i v4
    exact k1

theorem applyArb_keeps {a0 s} (h_s : Keeps a0 s) : Keeps a0 (applyArb s) := by
  unfold applyArb
  split
  · rename_i v0 v1 v2
    exact keeps_ite (showMss_keeps (setMgmt_keeps h_s)) h_s
  · rename_i v3 v4
    exact h_s

theorem commitSplice_keeps {a0 x s} (h_s : Keeps a0 s) : Keeps a0 (commitSplice x s) := by
  unfold commitSplice
  extract_lets
  rename_i v0 v1 v2 v3 v4 v5 v6
  clear_value v0
  have k7 : Keeps a0 v1 := setSplice_keeps h_s
  clear_value v1 v2
  have k8 : Keeps a0 v3 := endCommit_keeps k7
  clear_value v3
  have k9 : Keeps a0 v4 := setMgmt_keeps k8
  clear_value v4
  have k10 : Keeps a0 v5 := showMss_keeps (applyArb_keeps k9)
  clear_value v5 v6
  exact penBit_keeps (logEvent_keeps k10)

theorem mssReset_keeps {a0 t s} (h_s : Keeps a0 s) : Keeps a0 (mssReset t s) := by
  unfold mssReset
  extract_lets
  rename_i v0 v1 v2 v3 v4 v5 v6 v7 v8 v9 v10 v11 v12
  have k13 : Keeps a0 v0 := by
    unfold v0
    refine keeps_ite ?_ h_s
    split
    · rename_i v14 v15 v16 v17
      exact rollSplice_keeps (keeps_of_snd v17 (freeVal_keeps h_s))
  clear_value v0 v1 v2 v3
  have k18 : Keeps a0 v4 := setReg64_keeps (resetPage_keeps k13)
  clear_value v4
  have k19 : Keeps a0 v5 := resetCore_keeps k18
  clear_value v5
  have k20 : Keeps a0 v6 := setMgmt_keeps k19
  clear_value v6
  have k21 : Keeps a0 v7 := keeps_ite (showMss_keeps (startMssPart_keeps k20)) (romBoot_keeps k20)
  clear_value v7
  have k22 : Keeps a0 v8 := setMgmt_keeps k21
  clear_value v8
  have k23 : Keeps a0 v9 := setRegN_keeps k22
  clear_value v9
  have k24 : Keeps a0 v10 := keeps_ite (emit_keeps k23) k23
  clear_value v10
  have k25 : Keeps a0 v11 := mssStarts_keeps k24
  clear_value v11 v12
  exact keeps_upd k25

theorem execMssWatchdog_keeps {a0 t s} (h_s : Keeps a0 s) : OutKeeps a0 (execMssWatchdog t s) := out_next (mssReset_keeps
    (atTime_keeps h_s))

theorem execMssReset_keeps {a0 t s} (h_s : Keeps a0 s) : OutKeeps a0 (execMssReset t s) := out_next (mssReset_keeps
    (atTime_keeps h_s))

theorem clearTable_keeps {a0 t s} (h_s : Keeps a0 s) : Keeps a0 (clearTable t s) := by
  unfold clearTable
  extract_lets
  rename_i v0
  clear_value v0
  exact showBound_keeps (keeps_foldl (fun _ _ h3 => putCtx_keeps h3) h_s)

end Sys2Proof.Machine
end

