-- ==== Sys2Proof/Laws/KeepsFeed.lean ====
section
/-! SUPPORT. What the feed links, the remote memory transport and the Ethernet egress keep (Laws/Keeps.lean): one lemma per function. -/

namespace Sys2Proof.Machine

theorem linkCount_keeps {a0 l i n s} (h_s : Keeps a0 s) : Keeps a0 (linkCount l i n s) := addSat_keeps h_s

theorem setFeed_keeps {a0 s f} (h_s : Keeps a0 s) : Keeps a0 (setFeed s f) := keeps_upd h_s

theorem putLink_keeps {a0 l x s} (h_s : Keeps a0 s) : Keeps a0 (putLink l x s) := setFeed_keeps h_s

theorem setLstate_keeps {a0 l v s} (h_s : Keeps a0 s) : Keeps a0 (setLstate l v s) := setFld_keeps h_s

theorem setLanesUp_keeps {a0 l v s} (h_s : Keeps a0 s) : Keeps a0 (setLanesUp l v s) := setFld_keeps h_s

theorem sendFlit_keeps {a0 l ftype seq first payload s} (h_s : Keeps a0 s) : Keeps a0 (sendFlit l ftype seq first payload
    s) := by
  unfold sendFlit
  extract_lets
  rename_i v0 v1
  have k2 : Keeps a0 v0 := flitOn_keeps h_s
  clear_value v0 v1
  exact putLink_keeps k2

theorem sendData_keeps {a0 l f s} (h_s : Keeps a0 s) : Keeps a0 (sendData l f s) := sendFlit_keeps h_s

theorem pumpList_keeps {a0 l t x1 x2 x3} (h_x3 : Keeps a0 x3) : Keeps a0 (pumpList l t x1 x2 x3) := by
  induction x1 generalizing x2 x3 with
  | nil => exact h_x3
  | cons e x1 ih =>
    unfold pumpList
    exact keeps_ite (ih (putLink_keeps h_x3)) (ih (putLink_keeps (keeps_foldl (fun _ _ h => sendData_keeps h) h_x3)))

theorem pump_keeps {a0 l s} (h_s : Keeps a0 s) : Keeps a0 (pump l s) := by
  unfold pump
  extract_lets
  rename_i v0
  clear_value v0
  exact keeps_ite (pumpList_keeps (putLink_keeps h_s)) h_s

theorem sendPkt_keeps {a0 l p s} (h_s : Keeps a0 s) : Keeps a0 (sendPkt l p s) := by
  unfold sendPkt
  extract_lets
  rename_i v0
  clear_value v0
  exact keeps_ite (pump_keeps (putLink_keeps h_s)) h_s

theorem sendOnPort_keeps {a0 port p s} (h_s : Keeps a0 s) : Keeps a0 (sendOnPort port p s) := by
  unfold sendOnPort
  split
  · rename_i v0 v1 v2 v3
    exact sendPkt_keeps h_s
  · rename_i v4 v5
    exact setFeed_keeps h_s

theorem readFailed_keeps {a0 r s} (h_s : Keeps a0 s) : Keeps a0 (readFailed r s) := setFeed_keeps h_s

theorem issueRead_keeps {a0 port avoid r s} (h_s : Keeps a0 s) : ∀ z, issueRead port avoid r s = some z → Keeps a0 z := by
  intro z h
  unfold issueRead at h
  split at h
  · cases h
  · extract_lets x at h
    split at h
    · cases h
    · cases h; exact sendPkt_keeps (putLink_keeps h_s)

theorem readTimedOut_keeps {a0 l port r s} (h_s : Keeps a0 s) : Keeps a0 (readTimedOut l port r s) := by
  unfold readTimedOut
  extract_lets
  rename_i v0
  have k1 : Keeps a0 v0 := penBit_keeps (linkCount_keeps h_s)
  clear_value v0
  refine keeps_ite (readFailed_keeps k1) ?_
  split
  · rename_i v2
    exact readFailed_keeps k1
  · rename_i v3 v4
    split
    · rename_i v5 v6 v7
      exact issueRead_keeps k1 _ v7
    · rename_i v8 v9
      exact readFailed_keeps k1

theorem endSession_keeps {a0 l s} (h_s : Keeps a0 s) : Keeps a0 (endSession l s) := by
  unfold endSession
  extract_lets
  rename_i v0 v1 v2 v3 v4 v5 v6 v7
  clear_value v0 v1 v2
  have k8 : Keeps a0 v3 := setRegN_keeps (putLink_keeps h_s)
  clear_value v3
  have k9 : Keeps a0 v4 := setFeed_keeps k8
  clear_value v4
  have k10 : Keeps a0 v5 := setLanesUp_keeps (setLstate_keeps k9)
  clear_value v5
  have k11 : Keeps a0 v6 := by
    unfold v6
    refine keeps_foldl ?_ k10
    intro y12 y13 h14
    split
    · rename_i v15 v16 v17
      exact sendOnPort_keeps h14
    · rename_i v18 v19
      exact h14
  clear_value v6
  have k20 : Keeps a0 v7 := keeps_foldl (fun _ _ h23 => readTimedOut_keeps h23) k11
  clear_value v7
  split
  · rename_i v24 v25
    exact keeps_ite (penBit_keeps k20) k20
  · rename_i v26
    exact k20

theorem startLink_keeps {a0 l s} (h_s : Keeps a0 s) : Keeps a0 (startLink l s) := by
  unfold startLink
  extract_lets
  rename_i v0 v1 v2 v3
  clear_value v0 v1 v2 v3
  exact setLanesUp_keeps (setLstate_keeps (putLink_keeps h_s))

theorem downLink_keeps {a0 l counted s} (h_s : Keeps a0 s) : Keeps a0 (downLink l counted s) := by
  unfold downLink
  extract_lets
  rename_i v0 v1 v2 v3
  clear_value v0
  have k4 : Keeps a0 v1 := endSession_keeps h_s
  clear_value v1
  have k5 : Keeps a0 v2 := keeps_ite (penBit_keeps k4) k4
  clear_value v2
  have k6 : Keeps a0 v3 := keeps_ite (linkCount_keeps k5) k5
  clear_value v3
  exact startLink_keeps k6

theorem execRetrain_keeps {a0 t link s} (h_s : Keeps a0 s) : OutKeeps a0 (execRetrain t link s) := by
  unfold execRetrain
  refine out_next ?_
  extract_lets
  rename_i v0
  have k1 : Keeps a0 v0 := atTime_keeps h_s
  clear_value v0
  exact keeps_ite (downLink_keeps k1) k1

theorem execPatSelect_keeps {a0 t link v s} (h_s : Keeps a0 s) : OutKeeps a0 (execPatSelect t link v s) := by
  unfold execPatSelect
  refine out_next ?_
  extract_lets
  rename_i v0 v1 v2 v3
  have k4 : Keeps a0 v0 := atTime_keeps h_s
  clear_value v0 v1 v2
  have k5 : Keeps a0 v3 := setRegN_keeps k4
  clear_value v3
  exact keeps_ite k4 (keeps_ite (startLink_keeps k5) k5)

theorem execPatClear_keeps {a0 link s} (h_s : Keeps a0 s) : OutKeeps a0 (execPatClear link s) := out_next (keeps_ite
    (setRegN_keeps (setRegN_keeps h_s)) h_s)

theorem setRmt_keeps {a0 s f} (h_s : Keeps a0 s) : Keeps a0 (setRmt s f) := keeps_upd h_s

theorem putQp_keeps {a0 q x s} (h_s : Keeps a0 s) : Keeps a0 (putQp q x s) := setRmt_keeps h_s

theorem ringQp_keeps {a0 q v x s} (h_s : Keeps a0 s) : ∀ z, ringQp q v x s = some z → Keeps a0 z := by
  intro z h
  unfold ringQp at h
  extract_lets at h
  split at h
  · split at h <;> cases h; exact putQp_keeps h_s
  · split at h <;> cases h; exact putQp_keeps h_s
  · cases h; exact putQp_keeps h_s
  · cases h

theorem execRmtDbHi_keeps {a0 func v s} (h_s : Keeps a0 s) : OutKeeps a0 (execRmtDbHi func v s) := by
  unfold execRmtDbHi
  refine out_next ?_
  extract_lets
  rename_i v0 v1
  clear_value v0
  have k2 : Keeps a0 v1 := penBit_keeps h_s
  clear_value v1
  refine keeps_ite h_s ?_
  split
  · rename_i v3 v4
    exact k2
  · rename_i v5 v6 v7
    refine keeps_ite k2 (keeps_ite h_s ?_)
    split
    · rename_i v8 v9 v10
      exact ringQp_keeps h_s _ v10
    · rename_i v11 v12
      exact k2

theorem breakHitches_keeps {a0 q s} (h_s : Keeps a0 s) : Keeps a0 (breakHitches q s).2 := by
  unfold breakHitches
  refine keeps_foldl_snd ?_ h_s
  intro y0 y1 h2
  split
  · rename_i v3 v4 v5
    extract_lets
    rename_i v6 v7
    clear_value v7
    exact keeps_ite_snd (putQp_keeps h2) h2

theorem dropFrames_keeps {a0 q s} (h_s : Keeps a0 s) : Keeps a0 (dropFrames q s) := setRmt_keeps h_s

theorem returnFlight_keeps {a0 pick s} (h_s : Keeps a0 s) : Keeps a0 (returnFlight pick s) := by
  unfold returnFlight
  extract_lets
  rename_i v0 v1
  clear_value v0
  have k2 : Keeps a0 v1 := setFeed_keeps h_s
  clear_value v1
  exact addReg_keeps k2

theorem postCqe_keeps {a0 q w status s} (h_s : Keeps a0 s) : Keeps a0 (postCqe q w status s) := by
  unfold postCqe
  split
  · rename_i v0 v1
    exact h_s
  · rename_i v2 v3 v4
    refine keeps_ite h_s ?_
    extract_lets
    rename_i v5 v6 v7 v8 v9 v10 v11 v12 v13 v14
    clear_value v5 v6 v7 v8 v9 v10 v11 v12 v13
    have k15 : Keeps a0 v14 := postEntry_keeps (putQp_keeps h_s)
    clear_value v14
    exact keeps_ite k15 (emitMsix_keeps k15)

theorem finishWqe_keeps {a0 q rq w status s} (h_s : Keeps a0 s) : Keeps a0 (finishWqe q rq w status s) := by
  unfold finishWqe
  split
  · rename_i v0 v1
    exact h_s
  · rename_i v2 v3 v4
    extract_lets
    rename_i v5 v6 v7
    have k8 : Keeps a0 v5 := keeps_ite h_s (keeps_ite (putQp_keeps h_s) (putQp_keeps h_s))
    clear_value v5
    have k9 : Keeps a0 v6 := postCqe_keeps k8
    clear_value v6
    have k10 : Keeps a0 v7 := keeps_ite k8 (keeps_ite k9 (tagStage_keeps k9))
    clear_value v7
    exact keeps_ite k10 (keeps_ite (tagEnd_keeps k10) (keeps_ite (tagEnd_keeps k10) k10))

theorem flushQp_keeps {a0 q cause s} (h_s : Keeps a0 s) : Keeps a0 (flushQp q cause s) := by
  unfold flushQp
  split
  · rename_i v0 v1
    exact h_s
  · rename_i v2 v3 v4
    extract_lets
    rename_i v5 v6 v7
    have k8 : Keeps a0 v5 := putQp_keeps h_s
    clear_value v5 v6
    have k9 : Keeps a0 v7 := keeps_foldl (fun _ _ h12 => finishWqe_keeps h12) k8
    clear_value v7
    exact keeps_foldl (fun _ _ h15 => finishWqe_keeps h15) k9

theorem rmtCount_keeps {a0 i s} (h_s : Keeps a0 s) : Keeps a0 (rmtCount i s) := addReg_keeps h_s

theorem noteLost_keeps {a0 q s} (h_s : Keeps a0 s) : Keeps a0 (noteLost q s) := by
  unfold noteLost
  split
  · rename_i v0 v1 v2
    exact keeps_upd h_s
  · rename_i v3 v4
    exact h_s

theorem enterError_keeps {a0 q cause s} (h_s : Keeps a0 s) : Keeps a0 (enterError q cause s).2 := by
  unfold enterError
  split
  · rename_i v0 v1
    exact h_s
  · rename_i v2 v3 v4
    refine keeps_ite_snd h_s ?_
    extract_lets
    rename_i v5 v6
    have k7 : Keeps a0 v5 := noteLost_keeps (flushQp_keeps (dropFrames_keeps (putQp_keeps h_s)))
    clear_value v5
    have k8 : Keeps a0 v6 := errInfo_keeps (penBit_keeps (rmtCount_keeps k7))
    clear_value v6
    exact breakHitches_keeps (returnFlight_keeps k8)

theorem settle_both {a0 n} : ∀ {l s}, Keeps a0 s → Keeps a0 (settle n l s) ∧ (∀ q x, Keeps a0 (settle.settleRq n q l x s))
    := by
  induction n with
  | zero => intro l s h; exact ⟨by unfold settle; exact h, fun q x => by unfold settle.settleRq; exact h⟩
  | succ n ih =>
    intro l s h
    have rq : ∀ {l s} q x, Keeps a0 s → Keeps a0 (settle.settleRq (n + 1) q l x s) := by
      intro l s q x h
      unfold settle.settleRq
      dsimp only
      split
      · split
        · exact (ih (finishWqe_keeps (putQp_keeps h))).1
        · exact (ih (enterError_keeps h)).1
        · exact (ih h).1
      · exact (ih h).1
    refine ⟨?_, fun q x => rq q x h⟩
    unfold settle
    split
    · exact h
    · exact h
    · rename_i m q rest w e
      cases e
      split
      · exact (ih h).1
      · refine keeps_ite (ih h).1 ?_
        split
        · split
          · exact keeps_ite (ih (finishWqe_keeps (putQp_keeps h))).1 (ih (enterError_keeps h)).1
          · exact (ih h).2 _ _
        · exact (ih h).2 _ _

theorem settle_keeps {a0 n l s} (h_s : Keeps a0 s) : Keeps a0 (settle n l s) := (settle_both h_s).1

theorem leaveQp_keeps {a0 q target s} (h_s : Keeps a0 s) : Keeps a0 (leaveQp q target s) := by
  unfold leaveQp
  split
  · rename_i v0 v1
    exact h_s
  · rename_i v2 v3 v4
    extract_lets
    rename_i v5 v6
    have k7 : Keeps a0 v5 := keeps_ite (returnFlight_keeps (flushQp_keeps (dropFrames_keeps (putQp_keeps h_s)))) h_s
    clear_value v5
    have k8 : Keeps a0 v6 := setRmt_keeps k7
    clear_value v6
    split
    · rename_i v9 v10
      exact k8
    · rename_i v11 v12 v13
      extract_lets
      rename_i v14
      have k15 : Keeps a0 v14.2 := breakHitches_keeps (putQp_keeps k8)
      clear_value v14
      exact settle_keeps k15

theorem absentQp_keeps {a0 q s} (h_s : Keeps a0 s) : Keeps a0 (absentQp q s) := by
  unfold absentQp
  extract_lets
  rename_i v0 v1
  have k2 : Keeps a0 v0 := setRmt_keeps (dropFrames_keeps h_s)
  clear_value v0
  have k3 : Keeps a0 v1.2 := breakHitches_keeps k2
  clear_value v1
  exact settle_keeps k3

theorem quietLink_keeps {a0 l s} (h_s : Keeps a0 s) : Keeps a0 (quietLink l s) := by
  unfold quietLink
  extract_lets
  rename_i v0 v1
  clear_value v0
  have k2 : Keeps a0 v1 := endSession_keeps h_s
  clear_value v1
  exact keeps_ite (penBit_keeps k2) k2

theorem pushFrame_keeps {a0 f s} (h_s : Keeps a0 s) : Keeps a0 (pushFrame f s) := setRmt_keeps h_s

theorem sendCtl_keeps {a0 q h s} (h_s : Keeps a0 s) : Keeps a0 (sendCtl q h s) := by
  unfold sendCtl
  split
  · rename_i v0 v1
    exact h_s
  · rename_i v2 v3 v4
    split
    · rename_i v5 v6
      exact h_s
    · rename_i v7 v8 v9 v10
      exact pushFrame_keeps h_s

theorem egsCount_keeps {a0 i s} (h_s : Keeps a0 s) : Keeps a0 (egsCount i s) := addReg_keeps h_s

theorem joinQueue_keeps {a0 f s} (h_s : Keeps a0 s) : Keeps a0 (joinQueue f s) := by
  unfold joinQueue
  extract_lets
  rename_i v0
  clear_value v0
  exact keeps_ite (pushFrame_keeps (penBit_keeps (egsCount_keeps h_s))) (pushFrame_keeps h_s)

theorem admitList_keeps {a0 q x1 x2} (h_x2 : Keeps a0 x2) : Keeps a0 (admitList q x1 x2) := by
  induction x1 generalizing x2 with
  | nil =>
    unfold admitList
    exact h_x2
  | cons e x1 ih =>
    unfold admitList
    split
    · rename_i v0 v1
      exact h_x2
    · rename_i v2 v3 v4
      split
      · rename_i v5 v6
        exact ih h_x2
      · rename_i v7 v8 v9
        refine keeps_ite (ih h_x2) (keeps_ite h_x2 (keeps_ite (keeps_ite h_x2 (penBit_keeps (rmtCount_keeps (setRmt_keeps
            h_x2)))) ?_))
        split
        · rename_i v10 v11
          exact h_x2
        · rename_i v12 v13 v14
          extract_lets
          rename_i v15 v16 v17
          clear_value v15 v16 v17
          exact ih (joinQueue_keeps (putQp_keeps (setRmt_keeps h_x2)))

theorem letIn_keeps {a0 q s} (h_s : Keeps a0 s) : Keeps a0 (letIn q s) := by
  unfold letIn
  split
  · rename_i v0 v1 v2
    exact keeps_ite (admitList_keeps h_s) h_s
  · rename_i v3 v4
    exact h_s

theorem admitAll_keeps {a0 s} (h_s : Keeps a0 s) : Keeps a0 (admitAll s) := keeps_foldl (fun _ _ h2 => keeps_ite h2
    (letIn_keeps h2)) h_s

theorem subportDown_keeps {a0 sub s} (h_s : Keeps a0 s) : Keeps a0 (subportDown sub s) := by
  unfold subportDown
  refine keeps_ite h_s ?_
  extract_lets
  rename_i v0 v1 v2 v3 v4
  have k5 : Keeps a0 v0 := setFld_keeps h_s
  clear_value v0
  have k6 : Keeps a0 v1 := errInfo_keeps (penBit_keeps k5)
  clear_value v1 v2
  have k7 : Keeps a0 v3 := setRmt_keeps k6
  clear_value v3
  have k8 : Keeps a0 v4 := by
    unfold v4
    refine keeps_foldl ?_ k7
    intro y9 y10 h11
    split
    · rename_i v12 v13
      exact h11
    · rename_i v14 v15 v16
      exact keeps_ite (putQp_keeps h11) (keeps_ite (sendCtl_keeps h11) h11)
  clear_value v4
  exact admitAll_keeps k8

theorem addTx_keeps {a0 q l s} (h_s : Keeps a0 s) : Keeps a0 (addTx q l s) := by
  unfold addTx
  split
  · rename_i v0 v1
    exact h_s
  · rename_i v2 v3 v4
    extract_lets
    rename_i v5
    clear_value v5
    exact letIn_keeps (putQp_keeps h_s)

theorem feedCount_keeps {a0 i s} (h_s : Keeps a0 s) : Keeps a0 (feedCount i s) := addReg_keeps h_s

theorem sendNull_keeps {a0 l s} (h_s : Keeps a0 s) : Keeps a0 (sendNull l s) := sendFlit_keeps h_s

theorem sendCtrl_keeps {a0 l msg s} (h_s : Keeps a0 s) : Keeps a0 (sendCtrl l msg s) := sendFlit_keeps h_s

theorem sendWrites_keeps {a0 l x1 x2 x3 x4} (h_x4 : Keeps a0 x4) : Keeps a0 (sendWrites l x1 x2 x3 x4) := by
  induction x1 generalizing x2 x3 x4 with
  | zero =>
    unfold sendWrites
    exact h_x4
  | succ x1 ih =>
    unfold sendWrites
    refine keeps_ite h_x4 ?_
    extract_lets
    rename_i v0
    clear_value v0
    exact ih (sendPkt_keeps h_x4)

theorem expireTags_keeps {a0 l s} (h_s : Keeps a0 s) : Keeps a0 (expireTags l s) := by
  unfold expireTags
  extract_lets
  rename_i v0 v1
  clear_value v0 v1
  exact setRegN_keeps (putLink_keeps h_s)

theorem failLink_keeps {a0 l code detail s} (h_s : Keeps a0 s) : Keeps a0 (failLink l code detail s) := by
  unfold failLink
  extract_lets
  rename_i v0 v1
  have k2 : Keeps a0 v0 := errInfo_keeps h_s
  clear_value v0 v1
  exact setLstate_keeps (putLink_keeps k2)

theorem settleParam_keeps {a0 l s} (h_s : Keeps a0 s) : Keeps a0 (settleParam l s) := by
  unfold settleParam
  extract_lets
  rename_i v0 v1 v2
  clear_value v0 v1 v2
  split
  · rename_i v3 v4
    exact h_s
  · rename_i v5 v6 v7
    refine keeps_ite h_s ?_
    extract_lets
    rename_i v8 v9 v10
    clear_value v8 v9 v10
    split
    · rename_i v11 v12 v13 v14 v15 v16
      refine keeps_ite ?_ (penBit_keeps (failLink_keeps h_s))
      extract_lets
      rename_i v17 v18 v19 v20
      have k21 : Keeps a0 v17 := setRegN_keeps h_s
      clear_value v17
      have k22 : Keeps a0 v18 := setRegN_keeps (setRegN_keeps k21)
      clear_value v18
      have k23 : Keeps a0 v19 := setBlkEpoch_keeps k22
      clear_value v19
      have k24 : Keeps a0 v20 := setLanesUp_keeps (setLstate_keeps k23)
      clear_value v20
      exact penBit_keeps (putLink_keeps k24)
    · rename_i v25 v26 v27
      exact penBit_keeps (failLink_keeps h_s)

theorem enterLock_keeps {a0 l s} (h_s : Keeps a0 s) : Keeps a0 (enterLock l s) := setLstate_keeps (putLink_keeps h_s)

theorem enterParam_keeps {a0 l s} (h_s : Keeps a0 s) : Keeps a0 (enterParam l s) := by
  unfold enterParam
  extract_lets
  rename_i v0 v1
  clear_value v0
  have k2 : Keeps a0 v1 := setLstate_keeps (putLink_keeps h_s)
  clear_value v1
  exact sendCtrl_keeps k2

theorem execPhyTrainDone_keeps {a0 t link passed failed s} (h_s : Keeps a0 s) : OutKeeps a0 (execPhyTrainDone t link passed
    failed s) := by
  unfold execPhyTrainDone
  refine out_next ?_
  extract_lets
  rename_i v0 v1 v2 v3 v4
  have k5 : Keeps a0 v0 := atTime_keeps h_s
  clear_value v0 v1 v2 v3
  have k6 : Keeps a0 v4 := putLink_keeps k5
  clear_value v4
  exact keeps_ite k5 (keeps_ite (enterLock_keeps k6) k6)

theorem execFlitLockDone_keeps {a0 t link passed failed s} (h_s : Keeps a0 s) : OutKeeps a0 (execFlitLockDone t link passed
    failed s) := by
  unfold execFlitLockDone
  refine out_next ?_
  extract_lets
  rename_i v0 v1 v2 v3
  have k4 : Keeps a0 v0 := atTime_keeps h_s
  clear_value v0 v1 v2
  have k5 : Keeps a0 v3 := putLink_keeps k4
  clear_value v3
  exact keeps_ite k4 (keeps_ite (enterParam_keeps k5) k5)

theorem execBringUpLimit_keeps {a0 t link s} (h_s : Keeps a0 s) : OutKeeps a0 (execBringUpLimit t link s) := by
  unfold execBringUpLimit
  refine out_next ?_
  extract_lets
  rename_i v0 v1 v2
  have k3 : Keeps a0 v0 := atTime_keeps h_s
  clear_value v0 v1 v2
  refine keeps_ite k3 ?_
  split
  · rename_i v4 v5
    exact keeps_ite k3 (keeps_ite (enterLock_keeps k3) (failLink_keeps k3))
  · rename_i v6 v7
    exact keeps_ite k3 (keeps_ite (enterParam_keeps k3) (failLink_keeps k3))
  · rename_i v8 v9
    exact keeps_ite k3 (failLink_keeps k3)
  · rename_i v10 v11 v12 v13
    exact k3

theorem execLinkRetry_keeps {a0 t link s} (h_s : Keeps a0 s) : OutKeeps a0 (execLinkRetry t link s) := by
  unfold execLinkRetry
  refine out_next ?_
  extract_lets
  rename_i v0
  have k1 : Keeps a0 v0 := atTime_keeps h_s
  clear_value v0
  exact keeps_ite (startLink_keeps k1) k1

theorem execParam_keeps {a0 t link payload s} (h_s : Keeps a0 s) : OutKeeps a0 (execParam t link payload s) := by
  unfold execParam
  refine out_next ?_
  extract_lets
  rename_i v0 v1 v2
  have k3 : Keeps a0 v0 := atTime_keeps h_s
  clear_value v0 v1
  have k4 : Keeps a0 v2 := keeps_ite (putLink_keeps k3) k3
  clear_value v2
  exact keeps_ite k3 (settleParam_keeps (sendCtrl_keeps k4))

theorem execParamAck_keeps {a0 t link s} (h_s : Keeps a0 s) : OutKeeps a0 (execParamAck t link s) := by
  unfold execParamAck
  refine out_next ?_
  extract_lets
  rename_i v0 v1
  have k2 : Keeps a0 v0 := atTime_keeps h_s
  clear_value v0 v1
  exact keeps_ite k2 (settleParam_keeps (putLink_keeps k2))

theorem execParamSend_keeps {a0 t link s} (h_s : Keeps a0 s) : OutKeeps a0 (execParamSend t link s) := by
  unfold execParamSend
  refine out_next ?_
  extract_lets
  rename_i v0
  have k1 : Keeps a0 v0 := atTime_keeps h_s
  clear_value v0
  exact keeps_ite (sendCtrl_keeps k1) k1

theorem replay_keeps {a0 l s} (h_s : Keeps a0 s) : Keeps a0 (replay l s) := by
  unfold replay
  extract_lets
  rename_i v0 v1 v2 v3
  clear_value v0
  have k4 : Keeps a0 v1 := keeps_foldl (fun _ _ h7 => sendData_keeps h7) h_s
  clear_value v1 v2
  have k8 : Keeps a0 v3 := putLink_keeps k4
  clear_value v3
  exact penBit_keeps (linkCount_keeps k8)

theorem ackPkt_keeps {a0 p s} (h_s : Keeps a0 s) : Keeps a0 (ackPkt p s) := by
  unfold ackPkt
  split
  · rename_i v0 v1 v2 v3
    exact setFeed_keeps h_s
  · rename_i v4 v5
    exact h_s

theorem takeAck_keeps {a0 l a s} (h_s : Keeps a0 s) : Keeps a0 (takeAck l a s) := by
  unfold takeAck
  extract_lets
  rename_i v0 v1 v2 v3
  clear_value v0 v1 v2
  have k4 : Keeps a0 v3 := putLink_keeps h_s
  clear_value v3
  exact keeps_ite (keeps_foldl (fun _ _ h7 => ackPkt_keeps h7) k4) h_s

theorem takeCredits_keeps {a0 l cr s} (h_s : Keeps a0 s) : Keeps a0 (takeCredits l cr s) := by
  unfold takeCredits
  extract_lets
  rename_i v0 v1
  clear_value v0 v1
  exact putLink_keeps h_s

theorem rxChunks_keeps {a0 l x1 x2} (h_x2 : Keeps a0 x2) : Keeps a0 (rxChunks l x1 x2) := by
  induction x1 generalizing x2 with
  | nil =>
    unfold rxChunks
    exact h_x2
  | cons e x1 ih =>
    unfold rxChunks
    extract_lets
    rename_i v0 v1 v2 v3 v4 v5 v6 v7 v8 v9
    clear_value v0 v2 v3 v4 v5 v6 v7
    have k10 : Keeps a0 v8 := putLink_keeps h_x2
    clear_value v8
    have k11 : Keeps a0 v9 := by
      unfold v9
      split
      · rename_i v12 v13
        exact linkCount_keeps k10
      · rename_i v14 v15
        exact feedCount_keeps k10
      · rename_i v16 v17
        exact feedCount_keeps k10
      · rename_i v18 v19 v20 v21
        exact k10
    clear_value v9
    exact keeps_ite (ih (putLink_keeps h_x2)) (keeps_ite h_x2 (ih k11))

theorem rxData_keeps {a0 l seq payload s} (h_s : Keeps a0 s) : Keeps a0 (rxData l seq payload s) := by
  unfold rxData
  extract_lets
  rename_i v0 v1 v2
  clear_value v0
  have k3 : Keeps a0 v1 := putLink_keeps h_s
  clear_value v1 v2
  exact keeps_ite (sendNull_keeps (rxChunks_keeps (perfEvent_keeps k3))) (keeps_ite h_s (sendNull_keeps (putLink_keeps h_s)))

theorem patErrors_keeps {a0 l lane n s} (h_s : Keeps a0 s) : Keeps a0 (patErrors l lane n s) := by
  unfold patErrors
  refine keeps_ite h_s ?_
  extract_lets
  rename_i v0
  clear_value v0
  exact penBit_keeps (addSat_keeps h_s)

theorem patFlit_keeps {a0 l bytes crcOk s} (h_s : Keeps a0 s) : Keeps a0 (patFlit l bytes crcOk s) := by
  unfold patFlit
  extract_lets
  rename_i v0 v1 v2 v3 v4
  clear_value v0 v1 v2 v3
  have k5 : Keeps a0 v4 := putLink_keeps h_s
  clear_value v4
  exact keeps_ite k5 (patErrors_keeps k5)

theorem execFlitReceive_keeps {a0 t link lane corr ucw errs bytes s} (h_s : Keeps a0 s) : OutKeeps a0 (execFlitReceive t
    link lane corr ucw errs bytes s) := by
  unfold execFlitReceive
  refine out_next ?_
  extract_lets
  rename_i v0 v1 v2 v3 v4 v5 v6 v7 v8 v9 v10 v11 v12 v13 v14 v15
  have k16 : Keeps a0 v0 := atTime_keeps h_s
  clear_value v0
  have k17 : Keeps a0 v1 := linkCount_keeps (linkCount_keeps k16)
  clear_value v1 v2 v3 v4 v5 v6
  have k18 : Keeps a0 v7 := keeps_ite (putLink_keeps k17) k17
  clear_value v7
  have k19 : Keeps a0 v8 := linkCount_keeps k18
  have k20 : Keeps a0 v10 := keeps_ite (takeAck_keeps k18) k18
  clear_value v10
  have k21 : Keeps a0 v11 := takeCredits_keeps k20
  clear_value v11 v12 v13
  have k22 : Keeps a0 v14 := keeps_ite (replay_keeps (putLink_keeps k21)) k21
  clear_value v14
  have k23 : Keeps a0 v15 := keeps_ite (rxData_keeps k22) k22
  clear_value v15
  exact keeps_ite k16 (keeps_ite (keeps_ite (patFlit_keeps k17) (patErrors_keeps k17)) (keeps_ite k17 (keeps_ite (keeps_ite
      (sendNull_keeps (putLink_keeps k19)) k19) (keeps_ite k18 (pump_keeps k23)))))

theorem execReplayTimeout_keeps {a0 t link s} (h_s : Keeps a0 s) : OutKeeps a0 (execReplayTimeout t link s) := by
  unfold execReplayTimeout
  refine out_next ?_
  extract_lets
  rename_i v0 v1
  have k2 : Keeps a0 v0 := atTime_keeps h_s
  clear_value v0 v1
  exact keeps_ite (replay_keeps k2) k2

theorem execLinkDown_keeps {a0 t link s} (h_s : Keeps a0 s) : OutKeeps a0 (execLinkDown t link s) := by
  unfold execLinkDown
  refine out_next ?_
  extract_lets
  rename_i v0 v1
  have k2 : Keeps a0 v0 := atTime_keeps h_s
  clear_value v0 v1
  exact keeps_ite (downLink_keeps k2) k2

theorem removeLane_keeps {a0 l lane s} (h_s : Keeps a0 s) : Keeps a0 (removeLane l lane s) := by
  unfold removeLane
  extract_lets
  rename_i v0 v1 v2
  clear_value v0 v1
  have k3 : Keeps a0 v2 := putLink_keeps h_s
  clear_value v2
  exact keeps_ite (downLink_keeps (setLanesUp_keeps k3)) (setLstate_keeps (setLanesUp_keeps k3))

theorem noteDrop_keeps {a0 l s} (h_s : Keeps a0 s) : Keeps a0 (noteDrop l s) := penBit_keeps (linkCount_keeps h_s)

theorem execLaneFault_keeps {a0 t link lane s} (h_s : Keeps a0 s) : OutKeeps a0 (execLaneFault t link lane s) := by
  unfold execLaneFault
  refine out_next ?_
  extract_lets
  rename_i v0 v1 v2
  have k3 : Keeps a0 v0 := atTime_keeps h_s
  clear_value v0
  have k4 : Keeps a0 v1 := noteDrop_keeps k3
  clear_value v1 v2
  exact keeps_ite k3 (keeps_ite (removeLane_keeps (setLanesUp_keeps k4)) (sendDrop_keeps (putLink_keeps k4)))

theorem execLaneDropResend_keeps {a0 t link s} (h_s : Keeps a0 s) : OutKeeps a0 (execLaneDropResend t link s) := by
  unfold execLaneDropResend
  refine out_next ?_
  extract_lets
  rename_i v0
  have k1 : Keeps a0 v0 := atTime_keeps h_s
  clear_value v0
  split
  · rename_i v2 v3 v4
    exact keeps_ite (sendDrop_keeps k1) k1
  · rename_i v5 v6
    exact k1

theorem execLaneDrop_keeps {a0 t link lane s} (h_s : Keeps a0 s) : OutKeeps a0 (execLaneDrop t link lane s) := by
  unfold execLaneDrop
  refine out_next ?_
  extract_lets
  rename_i v0 v1
  have k2 : Keeps a0 v0 := atTime_keeps h_s
  clear_value v0
  have k3 : Keeps a0 v1 := sendCtrl_keeps k2
  clear_value v1
  exact keeps_ite k2 (keeps_ite (removeLane_keeps (noteDrop_keeps k3)) k3)

theorem execLaneDropAck_keeps {a0 t link s} (h_s : Keeps a0 s) : OutKeeps a0 (execLaneDropAck t link s) := by
  unfold execLaneDropAck
  refine out_next ?_
  extract_lets
  rename_i v0
  have k1 : Keeps a0 v0 := atTime_keeps h_s
  clear_value v0
  refine keeps_ite k1 ?_
  split
  · rename_i v2 v3 v4
    exact removeLane_keeps k1
  · rename_i v5 v6
    exact k1

theorem winRefused_keeps {a0 port s} (h_s : Keeps a0 s) : Keeps a0 (winRefused port s) := errInfo_keeps (penBit_keeps
    (feedCount_keeps h_s))

theorem placeChunk_keeps {a0 h l s} (h_s : Keeps a0 s) : Keeps a0 (placeChunk h l s) := by
  unfold placeChunk
  split
  · rename_i v0 v1
    exact putDram_keeps h_s
  · rename_i v2 v3 v4 v5
    exact hostWrite_keeps h_s
  · rename_i v6 v7
    exact h_s

theorem execLinkWrite_keeps {a0 link addr data s} (h_s : Keeps a0 s) : OutKeeps a0 (execLinkWrite link addr data s) := by
  unfold execLinkWrite
  refine out_next ?_
  split
  · rename_i v0 v1
    exact h_s
  · rename_i v2 v3 v4
    refine keeps_ite h_s (keeps_ite (linkCount_keeps h_s) ?_)
    extract_lets
    rename_i v5 v6
    clear_value v5
    have k7 : Keeps a0 v6 := winRefused_keeps h_s
    clear_value v6
    split
    · rename_i v8 v9 v10
      exact sendPkt_keeps k7
    · rename_i v11 v12
      exact keeps_foldl (fun _ _ h15 => placeChunk_keeps h15) h_s

theorem sendResps_keeps {a0 l tag x1 x2 x3 x4 x5} (h_x5 : Keeps a0 x5) : Keeps a0 (sendResps l tag x1 x2 x3 x4 x5) := by
  induction x1 generalizing x2 x3 x4 x5 with
  | zero =>
    unfold sendResps
    exact h_x5
  | succ x1 ih =>
    unfold sendResps
    refine keeps_ite h_x5 ?_
    extract_lets
    rename_i v0 v1 v2
    clear_value v0 v1 v2
    exact ih (sendPkt_keeps h_x5)

theorem readResp_keeps {a0 t link tag status off data s} (h_s : Keeps a0 s) : Keeps a0 (readResp t link tag status off data
    s) := by
  unfold readResp
  extract_lets
  rename_i v0 v1 v2 v3 v4
  have k5 : Keeps a0 v0 := atTime_keeps h_s
  clear_value v0
  have k6 : Keeps a0 v1 := expireTags_keeps k5
  clear_value v1 v2 v3
  have k7 : Keeps a0 v4 := putLink_keeps k6
  clear_value v4
  refine keeps_ite k5 ?_
  split
  · rename_i v8 v9 v10
    refine keeps_ite (readFailed_keeps (putLink_keeps k6)) (keeps_ite (linkCount_keeps k6) ?_)
    extract_lets
    rename_i v11 v12
    have k13 : Keeps a0 v11 := putDram_keeps k6
    clear_value v11
    exact keeps_ite (setFeed_keeps (putLink_keeps k13)) (putLink_keeps k13)
  · rename_i v14 v15
    exact keeps_ite (expireTags_keeps (penBit_keeps (linkCount_keeps k7))) k6

theorem captureReadTimeout_keeps {a0 t link tag s} (h_s : Keeps a0 s) : Keeps a0 (captureReadTimeout t link tag s) := by
  unfold captureReadTimeout
  extract_lets
  rename_i v0 v1 v2
  have k3 : Keeps a0 v0 := atTime_keeps h_s
  clear_value v0 v1
  have k4 : Keeps a0 v2 := putLink_keeps k3
  clear_value v2
  refine keeps_ite k3 ?_
  split
  · rename_i v5 v6
    exact k3
  · rename_i v7 v8 v9
    exact keeps_ite k3 (expireTags_keeps (readTimedOut_keeps k4))

theorem putRingF_keeps {a0 i x s} (h_s : Keeps a0 s) : Keeps a0 (putRingF i x s) := setFeed_keeps h_s

theorem ringState_keeps {a0 i port st s} (h_s : Keeps a0 s) : Keeps a0 (ringState i port st s) := sendOnPort_keeps h_s

theorem ringError_keeps {a0 i s} (h_s : Keeps a0 s) : Keeps a0 (ringError i s) := by
  unfold ringError
  split
  · rename_i v0 v1
    exact h_s
  · rename_i v2 v3 v4
    extract_lets
    rename_i v5
    have k6 : Keeps a0 v5 := penBit_keeps (putRingF_keeps h_s)
    clear_value v5
    exact finishCmds_keeps (ringState_keeps k6)

theorem modPack_keeps {a0 rank id g s} (h_s : Keeps a0 s) : Keeps a0 (modPack rank id g s) := setFoundry_keeps h_s

theorem removePack_keeps {a0 rank id s} (h_s : Keeps a0 s) : Keeps a0 (removePack rank id s) := by
  unfold removePack
  extract_lets
  rename_i v0
  have k1 : Keeps a0 v0 := by
    unfold v0
    split
    · rename_i v2 v3 v4
      exact keeps_ite h_s (tagEnd_keeps h_s)
    · rename_i v5 v6
      exact h_s
  clear_value v0
  exact setFoundry_keeps k1

theorem writeRing_keeps {a0 l x idx data s} (h_s : Keeps a0 s) : Keeps a0 (writeRing l x idx data s) := sendWrites_keeps h_s

theorem producerRecord_keeps {a0 l i x s} (h_s : Keeps a0 s) : Keeps a0 (producerRecord l i x s) := sendPkt_keeps h_s

theorem writePack_keeps {a0 i l x p again s} (h_s : Keeps a0 s) : Keeps a0 (writePack i l x p again s) := by
  unfold writePack
  extract_lets
  rename_i v0 v1 v2 v3 v4 v5 v6
  clear_value v0 v1
  have k7 : Keeps a0 v2 := keeps_ite h_s (writeRing_keeps h_s)
  clear_value v2
  have k8 : Keeps a0 v3 := writeRing_keeps k7
  clear_value v3
  have k9 : Keeps a0 v4 := keeps_ite k8 (tagStage_keeps k8)
  clear_value v4 v5
  have k10 : Keeps a0 v6 := perfEvent_keeps (putRingF_keeps k9)
  clear_value v6
  exact producerRecord_keeps k10

theorem writeAgain_keeps {a0 i x1 x2} (h_x2 : Keeps a0 x2) : Keeps a0 (writeAgain i x1 x2) := by
  induction x1 generalizing x2 with
  | zero =>
    unfold writeAgain
    exact h_x2
  | succ x1 ih =>
    unfold writeAgain
    split
    · rename_i v0 v1
      exact h_x2
    · rename_i v2 v3 v4
      split
      · rename_i v5 v6 v7 v8 v9 v10 v11 v12
        split
        · rename_i v13 v14
          exact ih (putRingF_keeps h_x2)
        · rename_i v15 v16 v17
          exact keeps_ite (ih (feedCount_keeps (writePack_keeps h_x2))) h_x2
      · rename_i v18 v19 v20
        exact h_x2

theorem commitEntry_keeps {a0 i e s} (h_s : Keeps a0 s) : Keeps a0 (commitEntry i e s) := by
  unfold commitEntry
  split
  · rename_i v0 v1
    exact h_s
  · rename_i v2 v3 v4
    refine keeps_ite (putRingF_keeps h_s) ?_
    extract_lets
    rename_i v5 v6 v7
    clear_value v5
    have k8 : Keeps a0 v6 := keeps_ite (tagEnd_keeps (tagStage_keeps h_s)) h_s
    clear_value v6
    have k9 : Keeps a0 v7 := feedCount_keeps (setFeed_keeps k8)
    clear_value v7
    exact keeps_ite (penBit_keeps (feedCount_keeps k9)) k9

theorem commitRing_keeps {a0 i s} (h_s : Keeps a0 s) : Keeps a0 (commitRing i s) := by
  unfold commitRing
  split
  · rename_i v0 v1
    exact h_s
  · rename_i v2 v3 v4
    extract_lets
    rename_i v5 v6 v7
    clear_value v5
    have k8 : Keeps a0 v6 := putRingF_keeps h_s
    clear_value v6
    have k9 : Keeps a0 v7 := keeps_foldl (fun _ _ h12 => commitEntry_keeps h12) k8
    clear_value v7
    exact writeAgain_keeps k9

theorem ringStopped_keeps {a0 i s} (h_s : Keeps a0 s) : Keeps a0 (ringStopped i s) := by
  unfold ringStopped
  split
  · rename_i v0 v1
    exact h_s
  · rename_i v2 v3 v4
    refine keeps_ite ?_ h_s
    extract_lets
    rename_i v5
    have k6 : Keeps a0 v5 := ringState_keeps (putRingF_keeps h_s)
    clear_value v5
    exact finishCmds_keeps k6

theorem execFeedDoorbell_keeps {a0 link ring value s} (h_s : Keeps a0 s) : OutKeeps a0 (execFeedDoorbell link ring value s)
    := by
  unfold execFeedDoorbell
  refine out_next (keeps_ite h_s ?_)
  extract_lets
  rename_i v0 v1 v2
  have k3 : Keeps a0 v0 := raiseLine_keeps h_s
  clear_value v0 v1
  have k4 : Keeps a0 v2 := keeps_upd k3
  clear_value v2
  split
  · rename_i v5 v6
    exact feedCount_keeps k3
  · rename_i v7 v8 v9
    refine keeps_ite (feedCount_keeps k3) ?_
    split
    · rename_i v10 v11 v12 v13
      extract_lets
      rename_i v14
      clear_value v14
      exact keeps_ite (ringError_keeps (errInfo_keeps (feedCount_keeps k3))) (ringStopped_keeps (commitRing_keeps
          (putRingF_keeps k4)))
    · rename_i v15 v16
      extract_lets
      rename_i v17
      clear_value v17
      exact keeps_ite (ringError_keeps (errInfo_keeps (feedCount_keeps k3))) (ringStopped_keeps (commitRing_keeps
          (putRingF_keeps k3)))

theorem execPackReject_keeps {a0 link ring rank id s} (h_s : Keeps a0 s) : OutKeeps a0 (execPackReject link ring rank id s)
    := by
  unfold execPackReject
  refine out_next (keeps_ite h_s ?_)
  extract_lets
  rename_i v0
  have k1 : Keeps a0 v0 := raiseLine_keeps h_s
  clear_value v0
  split
  · rename_i v2 v3
    exact k1
  · rename_i v4 v5 v6
    exact keeps_ite k1 (putRingF_keeps k1)

theorem execPackDraw_keeps {a0 t ring pick poison s} (h_s : Keeps a0 s) : OutKeeps a0 (execPackDraw t ring pick poison s)
    := by
  unfold execPackDraw
  refine out_next ?_
  extract_lets
  rename_i v0
  have k1 : Keeps a0 v0 := atTime_keeps h_s
  clear_value v0
  split
  · rename_i v2 v3
    exact k1
  · rename_i v4 v5 v6
    extract_lets
    rename_i v7 v8
    clear_value v8
    split
    · rename_i v9 v10
      exact k1
    · rename_i v11 v12 v13
      refine keeps_ite k1 ?_
      split
      · rename_i v14 v15
        exact putRingF_keeps k1
      · rename_i v16 v17 v18
        extract_lets
        rename_i v19 v20 v21 v22
        clear_value v19
        have k23 : Keeps a0 v20 := modPack_keeps k1
        clear_value v20
        have k24 : Keeps a0 v21 := keeps_ite k23 (tagStage_keeps k23)
        clear_value v21
        have k25 : Keeps a0 v22 := keeps_ite k24 (setFeed_keeps k24)
        clear_value v22
        exact keeps_ite k1 (keeps_ite (perfEvent_keeps (putRingF_keeps k1)) (keeps_ite (penBit_keeps (feedCount_keeps
            (removePack_keeps k1))) (feedCount_keeps (writePack_keeps k25))))

theorem execPortDownLimit_keeps {a0 port s} (h_s : Keeps a0 s) : OutKeeps a0 (execPortDownLimit port s) := out_next
    (keeps_ite (keeps_foldl (fun _ _ h2 => ringError_keeps h2) h_s) h_s)

theorem execRingCreate_keeps {a0 k desc s} (h_s : Keeps a0 s) : OutKeeps a0 (execRingCreate k desc s) := by
  unfold execRingCreate
  refine out_next (runSvc_keeps ?_ h_s)
  intro y0 y1 h2
  extract_lets
  rename_i v3 v4
  clear_value v3 v4
  exact end_ite (end_done h2) (end_ite (end_done h2) (end_ite (end_done h2) (end_ite (end_done h2) (end_done
      (putRingF_keeps h2)))))

theorem ringBegin_keeps {a0 from_ c s} (h_s : Keeps a0 s) : EndKeeps a0 (ringBegin from_ c s) := by
  unfold ringBegin
  split
  · rename_i v0 v1
    exact end_done h_s
  · rename_i v2 v3 v4
    exact end_ite (end_done h_s) (end_ite (end_done h_s) (end_wait h_s))

theorem execRingStart_keeps {a0 k s} (h_s : Keeps a0 s) : OutKeeps a0 (execRingStart k s) := out_next (runSvc_keeps (fun _
    _ h2 => ringBegin_keeps h2) h_s)

theorem execRingResume_keeps {a0 k s} (h_s : Keeps a0 s) : OutKeeps a0 (execRingResume k s) := out_next (runSvc_keeps (fun
    _ _ h2 => ringBegin_keeps h2) h_s)

theorem execRingStop_keeps {a0 k s} (h_s : Keeps a0 s) : OutKeeps a0 (execRingStop k s) := by
  unfold execRingStop
  refine out_next (runSvc_keeps ?_ h_s)
  intro y0 y1 h2
  split
  · rename_i v3 v4
    exact end_done h2
  · rename_i v5 v6 v7
    exact end_ite (end_wait (putRingF_keeps h2)) (end_done h2)

theorem execRingDestroy_keeps {a0 k s} (h_s : Keeps a0 s) : OutKeeps a0 (execRingDestroy k s) := by
  unfold execRingDestroy
  refine out_next (runSvc_keeps ?_ h_s)
  intro y0 y1 h2
  split
  · rename_i v3 v4
    exact end_done h2
  · rename_i v5 v6 v7
    refine end_ite (end_done h2) ?_
    extract_lets
    rename_i v8 v9 v10 v11
    clear_value v8 v9
    have k12 : Keeps a0 v10 := setFeed_keeps h2
    clear_value v10
    have k13 : Keeps a0 v11 := finishCmds_keeps k12
    clear_value v11
    exact end_done (ringState_keeps k13)

theorem execXchgGroup_keeps {a0 k qps s} (h_s : Keeps a0 s) : OutKeeps a0 (execXchgGroup k qps s) := out_next (runSvc_keeps
    (fun _ _ h2 => end_wait (setFeed_keeps h2)) h_s)

theorem suspectRing_keeps {a0 x short i r s} (h_s : Keeps a0 s) : Keeps a0 (suspectRing x short i r s) := by
  unfold suspectRing
  extract_lets
  rename_i v0 v1 v2 v3 v4
  clear_value v0 v1 v2
  have k5 : Keeps a0 v3 := setFeed_keeps h_s
  clear_value v3
  have k6 : Keeps a0 v4 := by
    unfold v4
    refine keeps_foldl ?_ k5
    intro y7 y8 h9
    extract_lets
    rename_i v10
    clear_value v10
    exact feedCount_keeps (sendOnPort_keeps h9)
  clear_value v4
  exact penBit_keeps k6

theorem suspectOne_keeps {a0 x s} (h_s : Keeps a0 s) : Keeps a0 (suspectOne x s) := by
  unfold suspectOne
  extract_lets
  rename_i v0 v1 v2 v3 v4
  clear_value v0 v1
  have k5 : Keeps a0 v2 := keeps_foldl (fun _ _ h8 => tagEnd_keeps h8) h_s
  clear_value v2
  have k9 : Keeps a0 v3 := addReg_keeps (setFoundry_keeps k5)
  clear_value v3 v4
  exact keeps_foldl (fun _ _ h12 => suspectRing_keeps h12) k9

theorem edgePacks_keeps {a0 s} (h_s : Keeps a0 s) : Keeps a0 (edgePacks s) := by
  unfold edgePacks
  extract_lets
  rename_i v0 v1
  have k2 : Keeps a0 v0 := keeps_foldl (fun _ _ h5 => removePack_keeps h5) h_s
  clear_value v0
  have k6 : Keeps a0 v1 := keeps_foldl (fun _ _ h9 => modPack_keeps h9) k2
  clear_value v1
  exact setFeed_keeps k6

theorem edgeJoin_keeps {a0 s} (h_s : Keeps a0 s) : Keeps a0 (edgeJoin s) := by
  unfold edgeJoin
  extract_lets
  rename_i v0 v1 v2 v3
  have k4 : Keeps a0 v0 := setFeed_keeps h_s
  clear_value v0 v1
  have k5 : Keeps a0 v2 := setFeed_keeps k4
  clear_value v2
  have k6 : Keeps a0 v3 := keeps_foldl (fun _ _ h9 => sendOnPort_keeps h9) k5
  clear_value v3
  exact setFeed_keeps k6

theorem edgeRingCmds_keeps {a0 s} (h_s : Keeps a0 s) : Keeps a0 (edgeRingCmds s) := by
  unfold edgeRingCmds
  refine keeps_foldl ?_ h_s
  intro y0 y1 h2
  refine keeps_ite (complete_keeps (setFeed_keeps h2)) ?_
  split
  · rename_i v3 v4
    exact complete_keeps h2
  · rename_i v5 v6 v7
    refine keeps_ite (complete_keeps h2) ?_
    extract_lets
    rename_i v8 v9
    clear_value v8
    have k10 : Keeps a0 v9 := putRingF_keeps h2
    clear_value v9
    exact complete_keeps k10

theorem rewriteFrom_keeps {a0 i l from_ x s} (h_s : Keeps a0 s) : Keeps a0 (rewriteFrom i l from_ x s) := by
  unfold rewriteFrom
  extract_lets
  rename_i v0
  have k1 : Keeps a0 v0 := by
    unfold v0
    refine keeps_foldl ?_ h_s
    intro y2 y3 h4
    extract_lets
    rename_i v5
    have k6 : Keeps a0 v5 := keeps_ite (writeRing_keeps h4) h4
    clear_value v5
    split
    · rename_i v7 v8 v9
      exact writeRing_keeps k6
    · rename_i v10 v11
      exact k6
  clear_value v0
  exact producerRecord_keeps k1

theorem edgeMoveRing_keeps {a0 i s} (h_s : Keeps a0 s) : Keeps a0 (edgeMoveRing i s) := by
  unfold edgeMoveRing
  split
  · rename_i v0 v1
    exact h_s
  · rename_i v2 v3 v4
    refine keeps_ite ?_ h_s
    split
    · rename_i v5 v6
      exact h_s
    · rename_i v7 v8 v9
      extract_lets
      rename_i v10
      clear_value v10
      exact rewriteFrom_keeps (feedCount_keeps (putRingF_keeps h_s))

theorem edgeRing_keeps {a0 i s} (h_s : Keeps a0 s) : Keeps a0 (edgeRing i s) := by
  unfold edgeRing
  extract_lets
  rename_i v0 v1
  have k2 : Keeps a0 v0 := writeAgain_keeps (edgeMoveRing_keeps h_s)
  clear_value v0 v1
  split
  · rename_i v3 v4
    exact k2
  · rename_i v5 v6 v7
    extract_lets
    rename_i v8 v9 v10
    clear_value v8 v9 v10
    exact ringStopped_keeps (putRingF_keeps k2)

theorem chooseExchange_keeps {a0 x1 x2} (h_x2 : Keeps a0 x2) : Keeps a0 (chooseExchange x1 x2) := by
  induction x1 generalizing x2 with
  | zero =>
    unfold chooseExchange
    exact h_x2
  | succ x1 ih =>
    unfold chooseExchange
    extract_lets
    rename_i v0
    clear_value v0
    split
    rename_i v1 v2 v3 v4
    split
    · rename_i v5 v6
      exact keeps_of_snd v4 (freeVal_keeps h_x2)
    · rename_i v7 v8 v9
      exact ih (modPack_keeps (keeps_of_snd v4 (freeVal_keeps h_x2)))

theorem edgeExchange_keeps {a0 s} (h_s : Keeps a0 s) : Keeps a0 (edgeExchange s) := keeps_ite h_s (chooseExchange_keeps h_s)

theorem edgeTags_keeps {a0 s} (h_s : Keeps a0 s) : Keeps a0 (edgeTags s) := keeps_foldl (fun _ _ h2 => expireTags_keeps h2)
    h_s

theorem edgeFeed_keeps {a0 s} (h_s : Keeps a0 s) : Keeps a0 (edgeFeed s) := by
  unfold edgeFeed
  extract_lets
  rename_i v0 v1 v2 v3
  have k4 : Keeps a0 v0 := edgeRingCmds_keeps (edgeJoin_keeps (edgePacks_keeps h_s))
  clear_value v0
  have k5 : Keeps a0 v1 := keeps_foldl (fun _ _ h8 => edgeRing_keeps h8) k4
  clear_value v1 v2
  have k9 : Keeps a0 v3 := keeps_foldl (fun _ _ h12 => suspectOne_keeps h12) (setFeed_keeps k5)
  clear_value v3
  exact edgeExchange_keeps (edgeTags_keeps k9)

theorem ownSuspect_keeps {a0 tile epoch frm upto s} (h_s : Keeps a0 s) : Keeps a0 (ownSuspect tile epoch frm upto s) := by
  unfold ownSuspect
  extract_lets
  rename_i v0 v1
  clear_value v0 v1
  exact setFeed_keeps h_s

theorem ethCount_keeps {a0 port i n s} (h_s : Keeps a0 s) : Keeps a0 (ethCount port i n s) := addReg_keeps h_s

theorem setGateStat_keeps {a0 port v s} (h_s : Keeps a0 s) : Keeps a0 (setGateStat port v s) := setFld_keeps h_s

theorem showGate_keeps {a0 port s} (h_s : Keeps a0 s) : Keeps a0 (showGate port s) := by
  unfold showGate
  split
  · rename_i v0 v1
    exact setGateStat_keeps h_s
  · rename_i v2 v3
    exact setGateStat_keeps h_s

theorem edgeGates_keeps {a0 s} (h_s : Keeps a0 s) : Keeps a0 (edgeGates s) := forN_keeps h_s (fun _ _ h2 => showGate_keeps h2)

theorem execGateEntry_keeps {a0 t port s} (h_s : Keeps a0 s) : OutKeeps a0 (execGateEntry t port s) := out_next (keeps_ite
    (showGate_keeps (atTime_keeps h_s)) (atTime_keeps h_s))

theorem holdFrame_keeps {a0 f gate s} (h_s : Keeps a0 s) : Keeps a0 (holdFrame f gate s) := by
  unfold holdFrame
  refine keeps_ite h_s ?_
  extract_lets
  rename_i v0
  clear_value v0
  exact egsCount_keeps (setRmt_keeps h_s)

theorem refreshSubs_keeps {a0 sub s} (h_s : Keeps a0 s) : Keeps a0 (refreshSubs sub s) := by
  unfold refreshSubs
  refine forN_keeps h_s ?_
  intro y0 y1 h2
  extract_lets
  rename_i v3 v4 v5 v6 v7
  clear_value v3 v4 v5 v6 v7
  exact keeps_ite h2 (setRmt_keeps h2)

theorem readyClasses_keeps {a0 sub s} (h_s : Keeps a0 s) : Keeps a0 (readyClasses sub s).2 := by
  unfold readyClasses
  refine keeps_foldl_snd ?_ h_s
  intro y0 y1 h2
  split
  · rename_i v3 v4 v5
    split
    · rename_i v6 v7
      exact h2
    · rename_i v8 v9 v10
      extract_lets
      rename_i v11
      clear_value v11
      exact keeps_ite_snd h2 (keeps_ite_snd (holdFrame_keeps h2) (keeps_ite_snd (holdFrame_keeps h2) h2))

theorem schedule_keeps {a0 sub s} (h_s : Keeps a0 s) : Keeps a0 (schedule sub s).2 := by
  unfold schedule
  extract_lets
  rename_i v0
  have k1 : Keeps a0 v0 := refreshSubs_keeps h_s
  clear_value v0
  split
  · rename_i v2 v3 v4 v5
    extract_lets
    rename_i v6 v7
    clear_value v6
    have k8 : Keeps a0 v7 := setRmt_keeps (keeps_of_snd v5 (readyClasses_keeps k1))
    clear_value v7
    split
    · rename_i v9 v10
      exact k8
    · rename_i v11 v12 v13 v14
      extract_lets
      rename_i v15 v16 v17 v18 v19 v20 v21
      clear_value v15
      have k22 : Keeps a0 v16 := keeps_ite k8 (setRmt_keeps k8)
      clear_value v16 v17 v18 v19 v20
      have k23 : Keeps a0 v21 := keeps_ite k22 (setRmt_keeps k22)
      clear_value v21
      exact setRmt_keeps k23

theorem occupy_keeps {a0 sub len s} (h_s : Keeps a0 s) : Keeps a0 (occupy sub len s) := by
  unfold occupy
  extract_lets
  rename_i v0 v1
  clear_value v0 v1
  exact setRmt_keeps h_s

theorem putWire_keeps {a0 sub cls bytes s} (h_s : Keeps a0 s) : Keeps a0 (putWire sub cls bytes s) := by
  unfold putWire
  extract_lets
  rename_i v0
  have k1 : Keeps a0 v0 := perfEvent_keeps h_s
  clear_value v0
  exact ethCount_keeps (emit_keeps k1)

theorem execPfcPauseExpiry_keeps {a0 t sub prio s} (h_s : Keeps a0 s) : OutKeeps a0 (execPfcPauseExpiry t sub prio s) := by
  unfold execPfcPauseExpiry
  refine out_next ?_
  extract_lets
  rename_i v0
  have k1 : Keeps a0 v0 := atTime_keeps h_s
  clear_value v0
  split
  · rename_i v2 v3 v4
    exact keeps_ite (setRmt_keeps k1) k1
  · rename_i v5 v6
    exact k1

theorem placeAt_keeps {a0 p off l s} (h_s : Keeps a0 s) : Keeps a0 (placeAt p off l s) := by
  unfold placeAt
  split
  · rename_i v0 v1
    exact putDram_keeps h_s
  · rename_i v2 v3 v4 v5
    exact hostWrite_keeps h_s
  · rename_i v6
    exact h_s

theorem settleQp_keeps {a0 q s} (h_s : Keeps a0 s) : Keeps a0 (settleQp q s) := settle_keeps h_s

theorem failWr_keeps {a0 q wqe status s} (h_s : Keeps a0 s) : Keeps a0 (failWr q wqe status s) := by
  unfold failWr
  extract_lets
  rename_i v0
  have k1 : Keeps a0 v0.2 := enterError_keeps h_s
  clear_value v0
  exact settle_keeps k1

theorem setWqe_keeps {a0 q w s} (h_s : Keeps a0 s) : Keeps a0 (setWqe q w s) := by
  unfold setWqe
  split
  · rename_i v0 v1 v2
    exact putQp_keeps h_s
  · rename_i v3 v4
    exact h_s

theorem beginWr_keeps {a0 q op f s} (h_f : ∀ y0 y1 y2, Keeps a0 y2 → Keeps a0 (f y0 y1 y2)) (h_s : Keeps a0 s) : Keeps a0
    (beginWr q op f s) := by
  unfold beginWr
  split
  · rename_i v0 v1
    exact h_s
  · rename_i v2 v3 v4
    split
    · rename_i v5 v6
      exact h_s
    · rename_i v7 v8 v9
      exact keeps_ite (settleQp_keeps (h_f _ _ _ h_s)) h_s

theorem sendRaw_keeps {a0 q x w host s} (h_s : Keeps a0 s) : Keeps a0 (sendRaw q x w host s) := by
  unfold sendRaw
  split
  · rename_i v0 v1 v2
    exact setWqe_keeps h_s
  · rename_i v3 v4 v5 v6 v7 v8
    exact pushFrame_keeps (setWqe_keeps h_s)
  · rename_i v9 v10 v11 v12 v13
    exact h_s

theorem execRmtRead_keeps {a0 t q s} (h_s : Keeps a0 s) : OutKeeps a0 (execRmtRead t q s) := by
  unfold execRmtRead
  refine out_next (beginWr_keeps ?_ (atTime_keeps h_s))
  intro y0 y1 y2 h3
  extract_lets
  rename_i v4 v5 v6
  clear_value v4 v5
  have k7 : Keeps a0 v6 := tagName_keeps (setWqe_keeps h3)
  clear_value v6
  exact keeps_ite h3 (addTx_keeps k7)

theorem execRmtFlush_keeps {a0 t q s} (h_s : Keeps a0 s) : OutKeeps a0 (execRmtFlush t q s) := out_next (beginWr_keeps (fun
    _ _ _ h3 => addTx_keeps (setWqe_keeps h3)) (atTime_keeps h_s))

theorem execHitch_keeps {a0 t q s} (h_s : Keeps a0 s) : OutKeeps a0 (execHitch t q s) := by
  unfold execHitch
  refine out_next (beginWr_keeps ?_ (atTime_keeps h_s))
  intro y0 y1 y2 h3
  extract_lets
  rename_i v4
  clear_value v4
  exact setWqe_keeps h3

theorem execHitchRelease_keeps {a0 t q s} (h_s : Keeps a0 s) : OutKeeps a0 (execHitchRelease t q s) := by
  unfold execHitchRelease
  refine out_next ?_
  extract_lets
  rename_i v0
  have k1 : Keeps a0 v0 := atTime_keeps h_s
  clear_value v0
  split
  · rename_i v2 v3
    exact k1
  · rename_i v4 v5 v6
    split
    · rename_i v7 v8 v9
      exact keeps_ite (settleQp_keeps (setWqe_keeps k1)) k1
    · rename_i v10 v11
      exact k1

theorem execWqeFetch_keeps {a0 t q rq bytes s} (h_s : Keeps a0 s) : OutKeeps a0 (execWqeFetch t q rq bytes s) := by
  unfold execWqeFetch
  refine out_next ?_
  extract_lets
  rename_i v0
  have k1 : Keeps a0 v0 := atTime_keeps h_s
  clear_value v0
  split
  · rename_i v2 v3
    exact k1
  · rename_i v4 v5 v6
    extract_lets
    rename_i v7 v8 v9 v10 v11
    have k12 : Keeps a0 v11 := keeps_ite (tagStart_keeps k1) k1
    clear_value v11
    exact keeps_ite k1 (keeps_ite (finishWqe_keeps (putQp_keeps k12)) (settleQp_keeps (putQp_keeps k12)))

theorem execRmtRecv_keeps {a0 t q s} (h_s : Keeps a0 s) : OutKeeps a0 (execRmtRecv t q s) := by
  unfold execRmtRecv
  refine out_next ?_
  extract_lets
  rename_i v0
  have k1 : Keeps a0 v0 := atTime_keeps h_s
  clear_value v0
  split
  · rename_i v2 v3
    exact k1
  · rename_i v4 v5 v6
    split
    · rename_i v7 v8 v9
      exact keeps_ite (putQp_keeps k1) k1
    · rename_i v10 v11
      exact k1

theorem sendAck_keeps {a0 q s} (h_s : Keeps a0 s) : Keeps a0 (sendAck q s) := by
  unfold sendAck
  split
  · rename_i v0 v1
    exact h_s
  · rename_i v2 v3 v4
    exact sendCtl_keeps (putQp_keeps h_s)

theorem sendNak_keeps {a0 q code psn s} (h_s : Keeps a0 s) : Keeps a0 (sendNak q code psn s) := by
  unfold sendNak
  split
  · rename_i v0 v1
    exact h_s
  · rename_i v2 v3 v4
    extract_lets
    rename_i v5
    clear_value v5
    exact keeps_ite h_s (rmtCount_keeps (sendCtl_keeps (putQp_keeps h_s)))

theorem unqueue_keeps {a0 q gone s} (h_s : Keeps a0 s) : Keeps a0 (unqueue q gone s) := setRmt_keeps h_s

theorem takeAck0_keeps {a0 q psn bits s} (h_s : Keeps a0 s) : Keeps a0 (takeAck0 q psn bits s) := by
  unfold takeAck0
  split
  · rename_i v0 v1
    exact h_s
  · rename_i v2 v3 v4
    extract_lets
    rename_i v5 v6 v7 v8 v9 v10 v11 v12
    clear_value v5 v6 v7 v8 v9 v10 v11
    have k13 : Keeps a0 v12 := by
      unfold v12
      refine keeps_foldl ?_ h_s
      intro y14 y15 h16
      extract_lets
      rename_i v17 v18
      have k19 : Keeps a0 v17 := tagStage_keeps h16
      clear_value v17
      have k20 : Keeps a0 v18 := tagStage_keeps k19
      clear_value v18
      exact keeps_ite k19 (keeps_ite k20 (tagEnd_keeps k20))
    clear_value v12
    exact letIn_keeps (unqueue_keeps (putQp_keeps k13))

theorem takeNak_keeps {a0 q code psn s} (h_s : Keeps a0 s) : Keeps a0 (takeNak q code psn s) := by
  unfold takeNak
  extract_lets
  rename_i v0 v1 v2 v3
  have k4 : Keeps a0 v0 := rmtCount_keeps h_s
  clear_value v0 v1 v2 v3
  split
  · rename_i v5 v6
    exact k4
  · rename_i v7 v8 v9
    extract_lets
    rename_i v10 v11 v12 v13 v14
    clear_value v10 v11 v12
    have k15 : Keeps a0 v13 := unqueue_keeps (putQp_keeps k4)
    clear_value v13
    have k16 : Keeps a0 v14 := returnFlight_keeps k15
    clear_value v14
    refine keeps_ite ?_ ?_
    · split
      · rename_i v17 v18
        exact k4
      · rename_i v19 v20 v21
        refine keeps_ite k4 (keeps_ite (failWr_keeps k4) ?_)
        extract_lets
        rename_i v22 v23
        clear_value v22 v23
        exact unqueue_keeps (putQp_keeps k4)
    · refine keeps_ite ?_ (failWr_keeps k4)
      split
      · rename_i v24 v25 v26
        exact settleQp_keeps (setWqe_keeps k16)
      · rename_i v27 v28
        exact k16

theorem takeCnp_keeps {a0 q s} (h_s : Keeps a0 s) : Keeps a0 (takeCnp q s) := by
  unfold takeCnp
  extract_lets
  rename_i v0 v1
  have k2 : Keeps a0 v0 := rmtCount_keeps h_s
  clear_value v0 v1
  split
  · rename_i v3 v4
    exact k2
  · rename_i v5 v6 v7
    extract_lets
    rename_i v8 v9
    clear_value v8 v9
    exact keeps_ite (putQp_keeps k2) (putQp_keeps k2)

theorem execRtoExpiry_keeps {a0 t q psn s} (h_s : Keeps a0 s) : OutKeeps a0 (execRtoExpiry t q psn s) := by
  unfold execRtoExpiry
  refine out_next ?_
  extract_lets
  rename_i v0 v1
  have k2 : Keeps a0 v0 := atTime_keeps h_s
  clear_value v0 v1
  split
  · rename_i v3 v4
    exact k2
  · rename_i v5 v6 v7
    split
    · rename_i v8 v9
      exact k2
    · rename_i v10 v11 v12
      exact keeps_ite k2 (keeps_ite (failWr_keeps k2) (letIn_keeps (putQp_keeps k2)))

theorem execAckTimer_keeps {a0 t q s} (h_s : Keeps a0 s) : OutKeeps a0 (execAckTimer t q s) := by
  unfold execAckTimer
  refine out_next ?_
  extract_lets
  rename_i v0
  have k1 : Keeps a0 v0 := atTime_keeps h_s
  clear_value v0
  split
  · rename_i v2 v3 v4
    split
    · rename_i v5 v6 v7
      exact keeps_ite (sendAck_keeps k1) k1
    · rename_i v8 v9
      exact k1
  · rename_i v10 v11
    exact k1

theorem execRnrRetryExpiry_keeps {a0 t q s} (h_s : Keeps a0 s) : OutKeeps a0 (execRnrRetryExpiry t q s) := by
  unfold execRnrRetryExpiry
  refine out_next ?_
  extract_lets
  rename_i v0
  have k1 : Keeps a0 v0 := atTime_keeps h_s
  clear_value v0
  split
  · rename_i v2 v3
    exact k1
  · rename_i v4 v5 v6
    exact keeps_ite k1 (letIn_keeps (putQp_keeps k1))

theorem answerFlushes_keeps {a0 q s} (h_s : Keeps a0 s) : Keeps a0 (answerFlushes q s) := by
  unfold answerFlushes
  split
  · rename_i v0 v1
    exact h_s
  · rename_i v2 v3 v4
    extract_lets
    rename_i v5
    clear_value v5
    exact addTx_keeps (putQp_keeps h_s)

theorem ackAfter_keeps {a0 q now_ s} (h_s : Keeps a0 s) : Keeps a0 (ackAfter q now_ s) := by
  unfold ackAfter
  split
  · rename_i v0 v1
    exact h_s
  · rename_i v2 v3 v4
    extract_lets
    rename_i v5 v6
    clear_value v5
    have k7 : Keeps a0 v6 := putQp_keeps h_s
    clear_value v6
    exact keeps_ite (sendAck_keeps k7) k7

theorem takePack_keeps {a0 b s} (h_s : Keeps a0 s) : Keeps a0 (takePack b s) := by
  unfold takePack
  extract_lets
  rename_i v0 v1 v2
  clear_value v0 v1 v2
  exact keeps_ite (feedCount_keeps h_s) (feedCount_keeps (setFoundry_keeps h_s))

theorem takeSuspect_keeps {a0 b s} (h_s : Keeps a0 s) : Keeps a0 (takeSuspect b s) := setFeed_keeps h_s

theorem settleExchange_keeps {a0 x1 x2 x3} (h_x3 : Keeps a0 x3) : Keeps a0 (settleExchange x1 x2 x3) := by
  induction x1 generalizing x2 x3 with
  | zero =>
    unfold settleExchange
    exact h_x3
  | succ x1 ih =>
    unfold settleExchange
    split
    · rename_i v0 v1
      exact h_x3
    · rename_i v2 v3 v4
      split
      · rename_i v5 v6 v7
        refine keeps_ite ?_ h_x3
        extract_lets
        rename_i v8 v9
        clear_value v8
        have k10 : Keeps a0 v9 := putQp_keeps h_x3
        clear_value v9
        exact ih (keeps_ite (takeSuspect_keeps k10) (takePack_keeps k10))
      · rename_i v11 v12
        exact h_x3

theorem rxExchange_keeps {a0 q x h payload s} (h_s : Keeps a0 s) : ∀ z, rxExchange q x h payload s = some z → Keeps a0 z.1
    := by
  intro z e
  unfold rxExchange at e
  extract_lets at e
  split at e
  · cases e
  · cases e; exact settleExchange_keeps (putQp_keeps h_s)

theorem countRecv_keeps {a0 q h n send w s} (h_s : Keeps a0 s) : Keeps a0 (countRecv q h n send w s).1 := by
  unfold countRecv
  split
  · rename_i v0 v1
    exact h_s
  · rename_i v2 v3 v4
    extract_lets
    rename_i v5 v6 v7 v8 v9 v10
    clear_value v5 v6 v7 v8 v9
    have k11 : Keeps a0 v10 := putQp_keeps h_s
    clear_value v10
    exact keeps_ite_fst (settleQp_keeps k11) (putQp_keeps h_s)

theorem countWrite_keeps {a0 q h n s} (h_s : Keeps a0 s) : Keeps a0 (countWrite q h n s).1 := by
  unfold countWrite
  split
  · rename_i v0 v1
    exact h_s
  · rename_i v2 v3 v4
    extract_lets
    rename_i v5 v6 v7
    clear_value v5 v6 v7
    exact keeps_ite_fst (putQp_keeps h_s) (putQp_keeps h_s)

theorem takeResp_keeps {a0 q h payload s} (h_s : Keeps a0 s) : Keeps a0 (takeResp q h payload s).1 := by
  unfold takeResp
  split
  · rename_i v0 v1
    exact h_s
  · rename_i v2 v3 v4
    split
    · rename_i v5 v6
      exact h_s
    · rename_i v7 v8 v9
      extract_lets
      rename_i v10 v11 v12
      have k13 : Keeps a0 v10 := placeAt_keeps h_s
      clear_value v10 v11 v12
      exact settleQp_keeps (setWqe_keeps k13)

theorem takeFlushResp_keeps {a0 q h s} (h_s : Keeps a0 s) : Keeps a0 (takeFlushResp q h s) := by
  unfold takeFlushResp
  split
  · rename_i v0 v1
    exact h_s
  · rename_i v2 v3 v4
    split
    · rename_i v5 v6 v7
      extract_lets
      rename_i v8
      have k9 : Keeps a0 v8 := keeps_ite (setFeed_keeps h_s) h_s
      clear_value v8
      exact settleQp_keeps (setWqe_keeps k9)
    · rename_i v10 v11
      exact h_s

theorem police_keeps {a0 x n s} (h_s : Keeps a0 s) : Keeps a0 (police x n s).2 := by
  unfold police
  extract_lets
  rename_i v0 v1
  clear_value v0 v1
  exact keeps_ite_snd h_s (keeps_ite_snd (setRmt_keeps h_s) (penBit_keeps (egsCount_keeps (setRmt_keeps h_s))))

theorem sendCnp_keeps {a0 q s} (h_s : Keeps a0 s) : Keeps a0 (sendCnp q s) := by
  unfold sendCnp
  split
  · rename_i v0 v1
    exact h_s
  · rename_i v2 v3 v4
    extract_lets
    rename_i v5
    clear_value v5
    exact keeps_ite h_s (rmtCount_keeps (sendCtl_keeps (putQp_keeps h_s)))

theorem refuseKey_keeps {a0 q code h s} (h_s : Keeps a0 s) : Keeps a0 (refuseKey q code h s) := sendNak_keeps
    (errInfo_keeps (penBit_keeps (rmtCount_keeps h_s)))

theorem execRmtAccDoorbell_keeps {a0 link target value s} (h_s : Keeps a0 s) : OutKeeps a0 (execRmtAccDoorbell link target
    value
    s) := by
  unfold execRmtAccDoorbell
  refine out_next ?_
  extract_lets
  rename_i v0
  have k1 : Keeps a0 v0 := feedCount_keeps h_s
  clear_value v0
  refine keeps_ite h_s ?_
  split
  · rename_i v2 v3
    exact k1
  · rename_i v4 v5 v6
    refine keeps_ite k1 ?_
    split
    · rename_i v7 v8 v9
      exact ringQp_keeps h_s _ v9
    · rename_i v10 v11
      exact penBit_keeps h_s

theorem execQpCreate_keeps {a0 k s} (h_s : Keeps a0 s) : OutKeeps a0 (execQpCreate k s) := out_next (runSvc_keeps (fun _ _
    h2 => end_ite (end_done h2) (end_done (putQp_keeps h2))) h_s)

theorem execQpConnect_keeps {a0 k s} (h_s : Keeps a0 s) : OutKeeps a0 (execQpConnect k s) := by
  unfold execQpConnect
  refine out_next (runSvc_keeps ?_ h_s)
  intro y0 y1 h2
  split
  · rename_i v3 v4
    exact end_done h2
  · rename_i v5 v6 v7
    refine end_ite (end_done h2) ?_
    split
    · rename_i v8 v9 v10
      exact end_done h2
    · rename_i v11 v12
      exact end_wait h2

theorem execQpModify_keeps {a0 k s} (h_s : Keeps a0 s) : OutKeeps a0 (execQpModify k s) := by
  unfold execQpModify
  refine out_next (runSvc_keeps ?_ h_s)
  intro y0 y1 h2
  split
  · rename_i v3 v4
    exact end_done h2
  · rename_i v5 v6 v7
    refine end_ite (end_done h2) (end_ite ?_ (end_wait h2))
    split
    · rename_i v8 v9
      exact end_done h2
    · rename_i v10 v11
      exact end_wait h2

theorem execQpReset_keeps {a0 k s} (h_s : Keeps a0 s) : OutKeeps a0 (execQpReset k s) := by
  unfold execQpReset
  refine out_next (runSvc_keeps ?_ h_s)
  intro y0 y1 h2
  split
  · rename_i v3 v4
    exact end_done h2
  · rename_i v5 v6 v7
    exact end_ite (end_done h2) (end_ite (end_done h2) (end_wait (leaveQp_keeps h2)))

theorem execQpDestroy_keeps {a0 k s} (h_s : Keeps a0 s) : OutKeeps a0 (execQpDestroy k s) := by
  unfold execQpDestroy
  refine out_next (runSvc_keeps ?_ h_s)
  intro y0 y1 h2
  split
  · rename_i v3 v4
    exact end_done h2
  · rename_i v5 v6 v7
    exact end_ite (end_done h2) (end_ite (end_done h2) (end_ite (end_done (absentQp_keeps h2)) (end_wait (leaveQp_keeps h2))))

theorem execQuiescingEnd_keeps {a0 q s} (h_s : Keeps a0 s) : OutKeeps a0 (execQuiescingEnd q s) := by
  unfold execQuiescingEnd
  refine out_next ?_
  split
  · rename_i v0 v1
    exact h_s
  · rename_i v2 v3 v4
    refine keeps_ite h_s ?_
    extract_lets
    rename_i v5
    have k6 : Keeps a0 v5 := keeps_ite (putQp_keeps h_s) (absentQp_keeps h_s)
    clear_value v5
    exact finishCmds_keeps k6

theorem postExchange_keeps {a0 q data imm flush s} (h_s : Keeps a0 s) : Keeps a0 (postExchange q data imm flush s) := by
  unfold postExchange
  split
  · rename_i v0 v1
    exact h_s
  · rename_i v2 v3 v4
    extract_lets
    rename_i v5 v6 v7 v8
    clear_value v5 v6
    have k9 : Keeps a0 v7 := putQp_keeps h_s
    clear_value v7
    have k10 : Keeps a0 v8 := addTx_keeps k9
    clear_value v8
    refine keeps_ite k10 ?_
    split
    · rename_i v11 v12
      exact k10
    · rename_i v13 v14 v15
      extract_lets
      rename_i v16 v17 v18
      clear_value v16 v17
      have k19 : Keeps a0 v18 := putQp_keeps k10
      clear_value v18
      exact addTx_keeps k19

theorem execXchgSend_keeps {a0 t rank id member poison s} (h_s : Keeps a0 s) : OutKeeps a0 (execXchgSend t rank id member
    poison s) := by
  unfold execXchgSend
  refine out_next ?_
  extract_lets
  rename_i v0 v1
  have k2 : Keeps a0 v0 := atTime_keeps h_s
  clear_value v0 v1
  split
  · rename_i v3 v4 v5 v6 v7 v8
    split
    · rename_i v9 v10
      exact k2
    · rename_i v11 v12 v13
      exact keeps_ite k2 (keeps_ite (penBit_keeps (feedCount_keeps (removePack_keeps k2))) (postExchange_keeps
          (setFeed_keeps k2)))
  · rename_i v14 v15 v16
    exact k2

theorem execXchgFlushDone_keeps {a0 q s} (h_s : Keeps a0 s) : OutKeeps a0 (execXchgFlushDone q s) := by
  unfold execXchgFlushDone
  refine out_next ?_
  extract_lets
  rename_i v0 v1
  clear_value v0
  have k2 : Keeps a0 v1 := keeps_foldl (fun _ _ h5 => feedCount_keeps (removePack_keeps (tagEnd_keeps h5))) h_s
  clear_value v1
  exact setFeed_keeps k2

theorem tellGroup_keeps {a0 l s} (h_s : Keeps a0 s) : Keeps a0 (tellGroup l s) := by
  unfold tellGroup
  refine keeps_foldl ?_ h_s
  intro y0 y1 h2
  refine keeps_foldl ?_ h2
  intro y3 y4 h5
  split
  · rename_i v6 v7 v8
    exact keeps_ite (postExchange_keeps h5) h5
  · rename_i v9 v10
    exact h5

theorem connectQp_keeps {a0 c x s} (h_s : Keeps a0 s) : Keeps a0 (connectQp c x s) := by
  unfold connectQp
  extract_lets
  rename_i v0 v1 v2
  clear_value v0 v1 v2
  exact putQp_keeps h_s

theorem edgeQpCmds_keeps {a0 s} (h_s : Keeps a0 s) : Keeps a0 (edgeQpCmds s) := by
  unfold edgeQpCmds
  refine keeps_foldl ?_ h_s
  intro y0 y1 h2
  split
  · rename_i v3 v4
    exact complete_keeps h2
  · rename_i v5 v6 v7
    exact keeps_ite (keeps_ite (complete_keeps (connectQp_keeps h2)) (complete_keeps h2)) (keeps_ite (complete_keeps
        (putQp_keeps h2)) (complete_keeps h2))

theorem edgeRates_keeps {a0 s} (h_s : Keeps a0 s) : Keeps a0 (edgeRates s) := by
  unfold edgeRates
  extract_lets
  rename_i v0
  clear_value v0
  exact setRmt_keeps h_s

theorem edgeQps_keeps {a0 s} (h_s : Keeps a0 s) : Keeps a0 (edgeQps s) := admitAll_keeps (edgeRates_keeps (edgeQpCmds_keeps
    h_s))

theorem transmitData_keeps {a0 f s} (h_s : Keeps a0 s) : Keeps a0 (transmitData f s) := by
  unfold transmitData
  split
  · rename_i v0 v1
    exact h_s
  · rename_i v2 v3 v4
    split
    · rename_i v5 v6
      exact h_s
    · rename_i v7 v8 v9
      extract_lets
      rename_i v10 v11 v12 v13 v14 v15 v16 v17 v18
      clear_value v10 v11 v12 v13 v14 v15
      have k19 : Keeps a0 v16 := putQp_keeps h_s
      clear_value v16
      have k20 : Keeps a0 v17 := rmtCount_keeps (keeps_ite (rmtCount_keeps k19) k19)
      clear_value v17
      have k21 : Keeps a0 v18 := by
        unfold v18
        split
        · rename_i v22 v23 v24
          exact tagStage_keeps (tagStage_keeps k20)
        · rename_i v25 v26
          exact k20
      clear_value v18
      exact settleQp_keeps (perfEvent_keeps (putWire_keeps k21))

theorem transmitCtl_keeps {a0 f s} (h_s : Keeps a0 s) : Keeps a0 (transmitCtl f s) := by
  unfold transmitCtl
  split
  · rename_i v0 v1
    exact h_s
  · rename_i v2 v3 v4
    exact putWire_keeps h_s

theorem transmitRaw_keeps {a0 f s} (h_s : Keeps a0 s) : Keeps a0 (transmitRaw f s) := by
  unfold transmitRaw
  extract_lets
  rename_i v0
  have k1 : Keeps a0 v0 := putWire_keeps h_s
  clear_value v0
  split
  · rename_i v2 v3
    exact k1
  · rename_i v4 v5 v6
    exact settleQp_keeps (putQp_keeps k1)

theorem execEgressTransmit_keeps {a0 t sub s} (h_s : Keeps a0 s) : OutKeeps a0 (execEgressTransmit t sub s) := by
  unfold execEgressTransmit
  refine out_next ?_
  extract_lets
  rename_i v0
  have k1 : Keeps a0 v0 := atTime_keeps h_s
  clear_value v0
  refine keeps_ite k1 ?_
  split
  · rename_i v2 v3 v4 v5
    split
    · rename_i v6
      exact keeps_of_snd v5 (schedule_keeps (admitAll_keeps k1))
    · rename_i v7 v8
      extract_lets
      rename_i v9
      have k10 : Keeps a0 v9 := occupy_keeps (keeps_of_snd v5 (schedule_keeps (admitAll_keeps k1)))
      clear_value v9
      exact keeps_ite (transmitData_keeps k10) (keeps_ite (transmitCtl_keeps k10) (transmitRaw_keeps k10))

theorem takePfc_keeps {a0 sub b s} (h_s : Keeps a0 s) : Keeps a0 (takePfc sub b s) := by
  unfold takePfc
  extract_lets
  rename_i v0 v1 v2
  clear_value v0 v1
  have k3 : Keeps a0 v2 := by
    unfold v2
    refine keeps_foldl ?_ h_s
    intro y4 y5 h6
    refine keeps_ite ?_ h6
    extract_lets
    rename_i v7 v8
    clear_value v7 v8
    exact setRmt_keeps h6
  clear_value v2
  exact keeps_ite k3 (penBit_keeps (ethCount_keeps k3))

theorem takeRaw_keeps {a0 sub b ts s} (h_s : Keeps a0 s) : Keeps a0 (takeRaw sub b ts s) := by
  unfold takeRaw
  extract_lets
  rename_i v0
  have k1 : Keeps a0 v0 := penBit_keeps (ethCount_keeps h_s)
  clear_value v0
  split
  · rename_i v2 v3
    exact k1
  · rename_i v4 v5 v6 v7
    split
    · rename_i v8 v9
      exact k1
    · rename_i v10 v11 v12
      refine keeps_ite k1 ?_
      extract_lets
      rename_i v13
      have k14 : Keeps a0 v13 := placeAt_keeps h_s
      clear_value v13
      split
      · rename_i v15 v16
        exact k14
      · rename_i v17 v18 v19
        exact settleQp_keeps (putQp_keeps k14)

theorem sendPfc_keeps {a0 sub prio quanta s} (h_s : Keeps a0 s) : Keeps a0 (sendPfc sub prio quanta s) := by
  unfold sendPfc
  extract_lets
  rename_i v0 v1
  clear_value v0 v1
  exact ethCount_keeps (ethCount_keeps (emit_keeps h_s))

theorem rxLevel_keeps {a0 sub e s} (h_s : Keeps a0 s) : Keeps a0 (rxLevel sub e s) := by
  unfold rxLevel
  extract_lets
  rename_i v0 v1 v2
  clear_value v0 v1 v2
  exact keeps_ite h_s (keeps_ite (sendPfc_keeps (setRmt_keeps h_s)) (keeps_ite (sendPfc_keeps (setRmt_keeps h_s)) h_s))

theorem execSubportDown_keeps {a0 t sub s} (h_s : Keeps a0 s) : OutKeeps a0 (execSubportDown t sub s) := out_next
    (subportDown_keeps (atTime_keeps h_s))

theorem execSubportUp_keeps {a0 t sub s} (h_s : Keeps a0 s) : OutKeeps a0 (execSubportUp t sub s) := by
  unfold execSubportUp
  refine out_next ?_
  extract_lets
  rename_i v0
  have k1 : Keeps a0 v0 := atTime_keeps h_s
  clear_value v0
  exact keeps_ite k1 (admitAll_keeps (penBit_keeps (setFld_keeps k1)))

theorem ethModeChange_keeps {a0 port mode s} (h_s : Keeps a0 s) : Keeps a0 (ethModeChange port mode s) := keeps_ite h_s
    (setFld_keeps (forN_keeps h_s (fun _ _ h2 => subportDown_keeps h2)))

theorem gateCommit_keeps {a0 port s} (h_s : Keeps a0 s) : Keeps a0 (gateCommit port s) := by
  unfold gateCommit
  extract_lets
  rename_i v0 v1 v2
  clear_value v0
  have k3 : Keeps a0 v1 := setFld_keeps h_s
  clear_value v1
  have k4 : Keeps a0 v2 := forN_keeps k3 (fun _ _ h7 => setRegN_keeps h7)
  clear_value v2
  exact keeps_ite h_s (errInfo_keeps (penBit_keeps k4))

theorem ckTake_keeps {a0 t m f s} (h_f : ∀ y0 y1 y2, Keeps a0 y2 → Keeps a0 (f y0 y1 y2)) (h_s : Keeps a0 s) : Keeps a0
    (ckTake t m f s) := by
  unfold ckTake
  extract_lets
  rename_i v0
  have k1 : Keeps a0 v0 := atTime_keeps h_s
  clear_value v0
  refine keeps_ite k1 ?_
  split
  · rename_i v2 v3
    exact rmtCount_keeps k1
  · rename_i v4 v5 v6
    exact keeps_ite (rmtCount_keeps k1) (h_f _ _ _ k1)

end Sys2Proof.Machine
end

