-- ==== Sys2Proof/Laws/KeepsStorage.lean ====
section
/-! SUPPORT. What the NVMe controllers, hosts and functions keep (Laws/Keeps.lean): one lemma per function. -/

namespace Sys2Proof.Machine

theorem resetCtrl_keeps {a0 f s} (h_s : Keeps a0 s) : Keeps a0 (resetCtrl f s) := by
  unfold resetCtrl
  extract_lets
  rename_i v0 v1 v2
  clear_value v0 v1 v2
  exact putCtrl_keeps h_s

theorem modFn_keeps {a0 f g s} (h_s : Keeps a0 s) : Keeps a0 (modFn f g s) := putFn_keeps h_s

theorem silence_keeps {a0 f s} (h_s : Keeps a0 s) : Keeps a0 (silence f s) := setFld_keeps h_s

theorem thawQps_keeps {a0 f s} (h_s : Keeps a0 s) : Keeps a0 (thawQps f s) := keeps_foldl (fun _ _ h2 => keeps_ite
    (putQp_keeps h2) h2) h_s

theorem dropFreeze_keeps {a0 f s} (h_s : Keeps a0 s) : Keeps a0 (dropFreeze f s) := by
  unfold dropFreeze
  extract_lets
  rename_i v0
  have k1 : Keeps a0 v0 := thawQps_keeps (modFn_keeps h_s)
  clear_value v0
  exact finishCmds_keeps k1

theorem zeroWindow_keeps {a0 f s} (h_s : Keeps a0 s) : Keeps a0 (zeroWindow f s) := by
  unfold zeroWindow
  extract_lets
  rename_i v0 v1
  clear_value v0 v1
  exact keeps_memFilter h_s

theorem startReset_keeps {a0 t f gone s} (h_s : Keeps a0 s) : Keeps a0 (startReset t f gone s) := by
  unfold startReset
  extract_lets
  rename_i v0 v1 v2 v3 v4 v5 v6 v7 v8 v9 v10
  clear_value v0
  have k11 : Keeps a0 v1 := silence_keeps (dropFreeze_keeps h_s)
  clear_value v1
  have k12 : Keeps a0 v2 := keeps_pairs (mwf_filter _) k11
  clear_value v2
  have k13 : Keeps a0 v3 := keeps_foldl (fun _ _ h16 => keeps_ite h16 (keeps_ite (absentQp_keeps h16) (leaveQp_keeps h16)))
      k12
  clear_value v3 v4 v5
  have k17 : Keeps a0 v6 := keeps_upd k13
  clear_value v6
  have k18 : Keeps a0 v7 := zeroWindow_keeps (resetCtrl_keeps k17)
  clear_value v7
  have k19 : Keeps a0 v8 := resetPage_keeps k18
  clear_value v8
  have k20 : Keeps a0 v9 := clearAgreement_keeps (setBlkState_keeps k19)
  clear_value v9 v10
  exact modFn_keeps k20

theorem execFuncReset_keeps {a0 t func s} (h_s : Keeps a0 s) : OutKeeps a0 (execFuncReset t func s) := by
  unfold execFuncReset
  refine out_next ?_
  extract_lets
  rename_i v0
  have k1 : Keeps a0 v0 := atTime_keeps h_s
  clear_value v0
  exact keeps_ite (startReset_keeps k1) k1

theorem execHeartbeat_keeps {a0 t func v s} (h_s : Keeps a0 s) : OutKeeps a0 (execHeartbeat t func v s) := by
  unfold execHeartbeat
  refine out_next ?_
  extract_lets
  rename_i v0
  have k1 : Keeps a0 v0 := atTime_keeps h_s
  clear_value v0
  exact keeps_ite k1 (modFn_keeps (setReg_keeps k1))

theorem unsilence_keeps {a0 f s} (h_s : Keeps a0 s) : Keeps a0 (unsilence f s) := setFld_keeps h_s

theorem replayHeld_keeps {a0 f s} (h_s : Keeps a0 s) : Keeps a0 (replayHeld f s) := by
  unfold replayHeld
  extract_lets
  rename_i v0 v1 v2 v3
  clear_value v0 v1 v2
  have k4 : Keeps a0 v3 := keeps_upd h_s
  clear_value v3
  refine keeps_foldl ?_ k4
  intro y5 y6 h7
  extract_lets
  rename_i v8
  have k9 : Keeps a0 v8 := postEntry_keeps h7
  clear_value v8
  split
  · rename_i v10 v11 v12
    exact emitMsix_keeps k9
  · rename_i v13 v14
    exact k9

theorem execAdopt_keeps {a0 t func abi s} (h_s : Keeps a0 s) : OutKeeps a0 (execAdopt t func abi s) := by
  unfold execAdopt
  refine out_next ?_
  extract_lets
  rename_i v0 v1 v2 v3 v4
  have k5 : Keeps a0 v0 := atTime_keeps h_s
  clear_value v0 v1
  have k6 : Keeps a0 v2 := setAgreement_keeps (setFld_keeps k5)
  clear_value v2
  have k7 : Keeps a0 v3 := replayHeld_keeps (unsilence_keeps k6)
  clear_value v3
  have k8 : Keeps a0 v4 := modFn_keeps (setFld_keeps k7)
  clear_value v4
  exact keeps_ite k5 (keeps_ite (setFld_keeps k5) (penBit_keeps (setBlkState_keeps k8)))

theorem mirrorState_keeps {a0 nsid v s} (h_s : Keeps a0 s) : Keeps a0 (mirrorState nsid v s) := by
  unfold mirrorState
  split
  · rename_i v0 v1
    exact h_s
  · rename_i v2 v3 v4
    refine keeps_ite h_s ?_
    extract_lets
    rename_i v5
    have k6 : Keeps a0 v5 := putNs_keeps h_s
    clear_value v5
    exact keeps_ite k6 (asyncAll_keeps (penBit_keeps k6))

theorem guardError_keeps {a0 nsid s} (h_s : Keeps a0 s) : Keeps a0 (guardError nsid s) := errInfo_keeps (penBit_keeps
    (nvmeCount_keeps h_s))

theorem endIo_keeps {a0 f c status s} (h_s : Keeps a0 s) : Keeps a0 (endIo f c status s) := endNvme_keeps (keeps_ite
    (guardError_keeps h_s) h_s)

theorem landNvme_keeps {a0 f c degraded s} (h_s : Keeps a0 s) : Keeps a0 (landNvme f c degraded s) := by
  unfold landNvme
  extract_lets
  rename_i v0 v1
  have k2 : Keeps a0 v0 := setFlash_keeps h_s
  clear_value v0
  have k3 : Keeps a0 v1 := by
    unfold v1
    refine keeps_ite ?_ k2
    split
    · rename_i v4 v5 v6
      exact nvmeCount_keeps (putNs_keeps k2)
    · rename_i v7 v8
      exact k2
  clear_value v1
  exact endIo_keeps (tagStage_keeps k3)

theorem setIntg_keeps {a0 s f} (h_s : Keeps a0 s) : Keeps a0 (setIntg s f) := keeps_upd h_s

theorem stopTile_keeps {a0 t s} (h_s : Keeps a0 s) : Keeps a0 (stopTile t s) := by
  unfold stopTile
  extract_lets
  rename_i v0 v1 v2 v3 v4 v5
  clear_value v0
  have k6 : Keeps a0 v1 := keeps_upd h_s
  clear_value v1 v2
  have k7 : Keeps a0 v3 := by
    unfold v3
    refine keeps_foldl ?_ k6
    intro y8 y9 h10
    extract_lets
    rename_i v11 v12
    have k13 : Keeps a0 v11 := discardSample_keeps h10
    clear_value v11
    have k14 : Keeps a0 v12 := putMedia_keeps k13
    clear_value v12
    split
    · rename_i v15 v16 v17
      exact putCtx_keeps k14
    · rename_i v18 v19
      exact k14
  clear_value v3
  have k20 : Keeps a0 v4 := showPool_keeps k7
  clear_value v4
  have k21 : Keeps a0 v5 := keeps_foldl (fun _ _ h24 => complete_keeps (dropHeld_keeps h24)) k20
  clear_value v5
  exact setIntg_keeps k21

theorem stopBlock_keeps {a0 p s} (h_s : Keeps a0 s) : Keeps a0 (stopBlock p s) := by
  unfold stopBlock
  split
  · rename_i v0 v1
    exact stopTile_keeps h_s
  · rename_i v2 v3
    exact quietLink_keeps h_s
  · rename_i v4 v5
    exact forN_keeps h_s (fun _ _ h8 => keeps_ite (subportDown_keeps h8) h8)
  · rename_i v9 v10
    exact fenceChannel_keeps h_s
  · rename_i v11 v12 v13 v14 v15
    exact h_s

theorem fenceBlock_keeps {a0 p s} (h_s : Keeps a0 s) : Keeps a0 (fenceBlock p s) := by
  unfold fenceBlock
  extract_lets
  rename_i v0 v1
  clear_value v0
  have k2 : Keeps a0 v1 := setFld_keeps (setBlkState_keeps (stopBlock_keeps h_s))
  clear_value v1
  exact keeps_ite h_s (keeps_ite (logEvent_keeps k2) k2)

theorem nvmeFetchFail_keeps {a0 f s} (h_s : Keeps a0 s) : Keeps a0 (nvmeFetchFail f s) := errInfo_keeps (penBit_keeps
    (nvmeCount_keeps h_s))

theorem drainCq_keeps {a0 f qid s} (h_s : Keeps a0 s) : Keeps a0 (drainCq f qid s) := by
  unfold drainCq
  extract_lets
  rename_i v0
  clear_value v0
  split
  · rename_i v1 v2
    exact h_s
  · rename_i v3 v4 v5
    exact keeps_foldl (fun _ _ h8 => putCqe_keeps h8) (putCtrl_keeps h_s)

theorem execNvmeDoorbell_keeps {a0 func queue cq value s} (h_s : Keeps a0 s) : OutKeeps a0 (execNvmeDoorbell func queue cq
    value s) := by
  unfold execNvmeDoorbell
  refine out_next ?_
  extract_lets
  rename_i v0 v1
  clear_value v0 v1
  refine keeps_ite h_s (keeps_ite ?_ ?_)
  · split
    · rename_i v2 v3
      exact asyncEvent_keeps h_s
    · rename_i v4 v5 v6
      exact keeps_ite (asyncEvent_keeps h_s) (drainCq_keeps (putCtrl_keeps h_s))
  · split
    · rename_i v7 v8
      exact asyncEvent_keeps h_s
    · rename_i v9 v10 v11
      exact keeps_ite (asyncEvent_keeps h_s) (putCtrl_keeps h_s)

theorem execNvmeCommandFetch_keeps {a0 t func queue sqe s} (h_s : Keeps a0 s) : OutKeeps a0 (execNvmeCommandFetch t func
    queue sqe s) := by
  unfold execNvmeCommandFetch
  refine out_next ?_
  extract_lets
  rename_i v0 v1 v2
  have k3 : Keeps a0 v0 := atTime_keeps h_s
  clear_value v0 v1
  have k4 : Keeps a0 v2 := setNvme_keeps k3
  clear_value v2
  refine keeps_ite k3 ?_
  split
  · rename_i v5 v6
    exact k3
  · rename_i v7 v8 v9 v10
    refine keeps_ite k3 ?_
    split
    · rename_i v11 v12
      exact nvmeFetchFail_keeps (putCtrl_keeps k3)
    · rename_i v13 v14 v15 v16 v17
      exact k3
    · rename_i v18 v19 v20 v21 v22
      extract_lets
      rename_i v23 v24 v25 v26 v27 v28 v29
      clear_value v23 v24 v25 v26 v27 v28 v29
      exact keeps_ite (postNvme_keeps (putCtrl_keeps k4)) (tagCandidate_keeps (putCtrl_keeps k4))

theorem chargeShare_keeps {a0 f cost rounds s} (h_s : Keeps a0 s) : Keeps a0 (chargeShare f cost rounds s) := by
  unfold chargeShare
  extract_lets
  rename_i v0 v1 v2 v3 v4
  clear_value v0 v1
  have k5 : Keeps a0 v2 := setNvme_keeps h_s
  clear_value v2 v3 v4
  exact putCtrl_keeps k5

theorem putNCmd_keeps {a0 f c s} (h_s : Keeps a0 s) : Keeps a0 (putNCmd f c s) := by
  unfold putNCmd
  extract_lets
  rename_i v0
  clear_value v0
  exact putCtrl_keeps h_s

theorem runNvme_keeps {a0 t f sq cid admin ok body s} (h_body : ∀ y0 y1, Keeps a0 y1 → Keeps a0 (body y0 y1)) (h_s : Keeps
    a0 s) : Keeps a0 (runNvme t f sq cid admin ok body s) := by
  unfold runNvme
  extract_lets
  rename_i v0 v1
  have k2 : Keeps a0 v0 := atTime_keeps h_s
  clear_value v0 v1
  split
  · rename_i v3 v4
    exact k2
  · rename_i v5 v6 v7
    refine keeps_ite k2 ?_
    extract_lets
    rename_i v8 v9
    clear_value v8 v9
    refine keeps_ite (putCtrl_keeps k2) ?_
    split
    · rename_i v10 v11
      exact k2
    · rename_i v12 v13 v14
      extract_lets
      rename_i v15 v16
      have k17 : Keeps a0 v15 := chargeShare_keeps (putNCmd_keeps k2)
      clear_value v15
      have k18 : Keeps a0 v16 := perfEvent_keeps (perfEvent_keeps k17)
      clear_value v16
      exact h_body _ _ (tagStage_keeps k18)

theorem edgeShares_keeps {a0 s} (h_s : Keeps a0 s) : Keeps a0 (edgeShares s) := by
  unfold edgeShares
  extract_lets
  rename_i v0
  clear_value v0
  exact setNvme_keeps h_s

theorem notReadyAll_keeps {a0 s} (h_s : Keeps a0 s) : Keeps a0 (notReadyAll s) := keeps_foldl (fun _ _ h2 => keeps_foldl
    (fun _ _ h5 => endNvme_keeps h5) h2) h_s

theorem countPrograms_keeps {a0 progs s} (h_s : Keeps a0 s) : Keeps a0 (countPrograms progs s) := keeps_foldl (fun _ _ h2
    => perfEvent_keeps (fchCount_keeps h2)) h_s

theorem beginProgram_keeps {a0 f c progs s} (h_s : Keeps a0 s) : Keeps a0 (beginProgram f c progs s) := by
  unfold beginProgram
  extract_lets
  rename_i v0 v1
  have k2 : Keeps a0 v0 := setFlash_keeps (putNCmd_keeps h_s)
  clear_value v0
  have k3 : Keeps a0 v1 := keeps_ite (ftlCount_keeps k2) k2
  clear_value v1
  exact tagStage_keeps (countPrograms_keeps k3)

theorem execNvmeWrite_keeps {a0 t func sq cid data mdata fail progs place s} (h_s : Keeps a0 s) : OutKeeps a0
    (execNvmeWrite t func sq cid data mdata fail progs place s) := by
  unfold execNvmeWrite
  refine out_next ?_
  extract_lets
  rename_i v0
  clear_value v0
  refine runNvme_keeps ?_ h_s
  intro y1 y2 h3
  split
  · rename_i v4 v5
    exact endIo_keeps h3
  · rename_i v6 v7 v8
    extract_lets
    rename_i v9 v10
    clear_value v9
    have k11 : Keeps a0 v10 := tagStage_keeps h3
    clear_value v10
    refine keeps_ite (endIo_keeps h3) (keeps_ite (endIo_keeps (nvmeFetchFail_keeps h3)) ?_)
    split
    · rename_i v12 v13 v14 v15
      extract_lets
      rename_i v16
      clear_value v16
      exact keeps_ite (endIo_keeps k11) (beginProgram_keeps k11)

theorem execWriteZeroes_keeps {a0 t func sq cid progs place s} (h_s : Keeps a0 s) : OutKeeps a0 (execWriteZeroes t func sq
    cid progs place s) := by
  unfold execWriteZeroes
  refine out_next ?_
  extract_lets
  rename_i v0 v1
  clear_value v0 v1
  refine runNvme_keeps ?_ h_s
  intro y2 y3 h4
  split
  · rename_i v5 v6
    exact endIo_keeps h4
  · rename_i v7 v8 v9
    extract_lets
    rename_i v10 v11 v12 v13 v14
    clear_value v10 v11 v12 v13 v14
    exact keeps_ite (endIo_keeps h4) (beginProgram_keeps h4)

theorem execDatasetManagement_keeps {a0 t func sq cid ranges fail s} (h_s : Keeps a0 s) : OutKeeps a0
    (execDatasetManagement t func sq cid ranges fail s) := by
  unfold execDatasetManagement
  refine out_next (runNvme_keeps ?_ h_s)
  intro y0 y1 h2
  split
  · rename_i v3 v4
    exact endIo_keeps h2
  · rename_i v5 v6 v7
    extract_lets
    rename_i v8 v9 v10
    clear_value v8 v9 v10
    exact keeps_ite (endIo_keeps (keeps_ite (nvmeFetchFail_keeps h2) h2)) (keeps_ite (endIo_keeps h2) (beginProgram_keeps h2))

theorem joinRecord_keeps {a0 f c s} (h_s : Keeps a0 s) : Keeps a0 (joinRecord f c s) := by
  unfold joinRecord
  extract_lets
  rename_i v0
  clear_value v0
  exact keeps_ite (putNCmd_keeps h_s) (penBit_keeps (putNCmd_keeps h_s))

theorem execWriteProgrammed_keeps {a0 t func sq cid s} (h_s : Keeps a0 s) : OutKeeps a0 (execWriteProgrammed t func sq cid
    s) := by
  unfold execWriteProgrammed
  refine out_next ?_
  extract_lets
  rename_i v0
  have k1 : Keeps a0 v0 := atTime_keeps h_s
  clear_value v0
  split
  · rename_i v2 v3
    exact k1
  · rename_i v4 v5 v6
    split
    · rename_i v7 v8
      exact endIo_keeps k1
    · rename_i v9 v10 v11
      exact keeps_ite (landNvme_keeps k1) (keeps_ite (joinRecord_keeps k1) (keeps_ite (endIo_keeps k1) (landNvme_keeps
          (keeps_ite (mirrorState_keeps k1) k1))))

theorem readBlock_keeps {a0 n c bad i s} (h_s : Keeps a0 s) : Keeps a0 (readBlock n c bad i s).2 := by
  unfold readBlock
  extract_lets
  rename_i v0 v1
  clear_value v0 v1
  split
  · rename_i v2 v3
    split
    · rename_i v4 v5 v6 v7
      exact keeps_of_snd v7 (freeBytes_keeps h_s)
  · rename_i v8 v9 v10
    exact h_s

theorem readBlocks_keeps {a0 n c bad s} (h_s : Keeps a0 s) : Keeps a0 (readBlocks n c bad s).2 := by
  unfold readBlocks
  refine keeps_foldl_snd ?_ h_s
  intro y0 y1 h2
  refine keeps_ite_snd h2 ?_
  split
  · rename_i v3 v4 v5 v6
    exact keeps_of_snd v6 (readBlock_keeps h2)

theorem readStatus_keeps {a0 n c st s} (h_s : Keeps a0 s) : Keeps a0 (readStatus n c st s).2 := keeps_ite_snd
    (guardError_keeps h_s) h_s

theorem dmaSegs_keeps {a0 f x1 x2 x3} (h_x3 : Keeps a0 x3) : Keeps a0 (dmaSegs f x1 x2 x3) := by
  induction x1 generalizing x2 x3 with
  | nil =>
    unfold dmaSegs
    exact h_x3
  | cons e x1 ih =>
    unfold dmaSegs
    exact ih (keeps_ite h_x3 (hostWrite_keeps h_x3))

theorem execNvmeRead_keeps {a0 t func sq cid segs fail bad s} (h_s : Keeps a0 s) : OutKeeps a0 (execNvmeRead t func sq cid
    segs fail bad s) := by
  unfold execNvmeRead
  refine out_next (runNvme_keeps ?_ h_s)
  intro y0 y1 h2
  split
  · rename_i v3 v4
    exact endIo_keeps h2
  · rename_i v5 v6 v7
    extract_lets
    rename_i v8 v9
    clear_value v8
    have k10 : Keeps a0 v9 := tagStage_keeps h2
    clear_value v9
    refine keeps_ite (endIo_keeps h2) (keeps_ite (endIo_keeps (nvmeFetchFail_keeps h2)) ?_)
    split
    · rename_i v11 v12 v13 v14 v15
      split
      · rename_i v16 v17 v18 v19
        split
        · rename_i v20 v21 v22 v23
          extract_lets
          rename_i v24 v25
          have k26 : Keeps a0 v24 := dmaSegs_keeps (keeps_of_snd v19 (readStatus_keeps (keeps_of_snd v15 (readBlocks_keeps
              k10))))
          clear_value v24
          have k27 : Keeps a0 v25 := keeps_ite k26 (hostWrite_keeps k26)
          clear_value v25
          exact endIo_keeps k27

theorem execNvmeVerify_keeps {a0 t func sq cid bad s} (h_s : Keeps a0 s) : OutKeeps a0 (execNvmeVerify t func sq cid bad s)
    := by
  unfold execNvmeVerify
  refine out_next (runNvme_keeps ?_ h_s)
  intro y0 y1 h2
  split
  · rename_i v3 v4
    exact endIo_keeps h2
  · rename_i v5 v6 v7
    extract_lets
    rename_i v8
    clear_value v8
    refine keeps_ite (endIo_keeps h2) ?_
    split
    · rename_i v9 v10 v11 v12 v13
      split
      · rename_i v14 v15 v16 v17
        exact endIo_keeps (keeps_of_snd v17 (readStatus_keeps (keeps_of_snd v13 (readBlocks_keeps h2))))

theorem execNvmeCompare_keeps {a0 t func sq cid data mdata fail bad s} (h_s : Keeps a0 s) : OutKeeps a0 (execNvmeCompare t
    func sq cid data mdata fail bad s) := by
  unfold execNvmeCompare
  refine out_next (runNvme_keeps ?_ h_s)
  intro y0 y1 h2
  split
  · rename_i v3 v4
    exact endIo_keeps h2
  · rename_i v5 v6 v7
    extract_lets
    rename_i v8
    clear_value v8
    refine keeps_ite (endIo_keeps h2) (keeps_ite (endIo_keeps (nvmeFetchFail_keeps h2)) ?_)
    split
    · rename_i v9 v10 v11 v12 v13
      split
      · rename_i v14 v15 v16 v17
        extract_lets
        rename_i v18
        clear_value v18
        exact endIo_keeps (keeps_of_snd v17 (readStatus_keeps (keeps_of_snd v13 (readBlocks_keeps h2))))

theorem execNvmeFlush_keeps {a0 t func sq cid s} (h_s : Keeps a0 s) : OutKeeps a0 (execNvmeFlush t func sq cid s) := by
  unfold execNvmeFlush
  refine out_next (runNvme_keeps ?_ h_s)
  intro y0 y1 h2
  extract_lets
  rename_i v3
  clear_value v3
  exact endIo_keeps h2

theorem execControllerEnable_keeps {a0 t func cc aqa asq acq s} (h_s : Keeps a0 s) : OutKeeps a0 (execControllerEnable t
    func cc aqa asq acq s) := by
  unfold execControllerEnable
  refine out_next ?_
  extract_lets
  rename_i v0 v1 v2 v3
  have k4 : Keeps a0 v0 := atTime_keeps h_s
  clear_value v0 v1 v2 v3
  exact keeps_ite k4 (putCtrl_keeps k4)

theorem execControllerReset_keeps {a0 t func s} (h_s : Keeps a0 s) : OutKeeps a0 (execControllerReset t func s) := by
  unfold execControllerReset
  refine out_next ?_
  extract_lets
  rename_i v0 v1
  have k2 : Keeps a0 v0 := atTime_keeps h_s
  clear_value v0 v1
  exact keeps_ite (resetCtrl_keeps k2) k2

theorem execShutdownNotify_keeps {a0 t func s} (h_s : Keeps a0 s) : OutKeeps a0 (execShutdownNotify t func s) := by
  unfold execShutdownNotify
  refine out_next ?_
  extract_lets
  rename_i v0 v1
  have k2 : Keeps a0 v0 := atTime_keeps h_s
  clear_value v0 v1
  exact keeps_ite (putCtrl_keeps k2) k2

theorem execCreateIoCq_keeps {a0 t func sq cid s} (h_s : Keeps a0 s) : OutKeeps a0 (execCreateIoCq t func sq cid s) := by
  unfold execCreateIoCq
  refine out_next (runNvme_keeps ?_ h_s)
  intro y0 y1 h2
  extract_lets
  rename_i v3 v4 v5 v6 v7 v8
  clear_value v3 v4 v5 v6 v7 v8
  exact keeps_ite (endNvme_keeps h2) (endNvme_keeps (putCtrl_keeps h2))

theorem execCreateIoSq_keeps {a0 t func sq cid s} (h_s : Keeps a0 s) : OutKeeps a0 (execCreateIoSq t func sq cid s) := by
  unfold execCreateIoSq
  refine out_next (runNvme_keeps ?_ h_s)
  intro y0 y1 h2
  extract_lets
  rename_i v3 v4 v5 v6 v7 v8
  clear_value v3 v4 v5 v6 v7 v8
  exact keeps_ite (endNvme_keeps h2) (endNvme_keeps (putCtrl_keeps h2))

theorem execDeleteIoSq_keeps {a0 t func sq cid s} (h_s : Keeps a0 s) : OutKeeps a0 (execDeleteIoSq t func sq cid s) := by
  unfold execDeleteIoSq
  refine out_next (runNvme_keeps ?_ h_s)
  intro y0 y1 h2
  extract_lets
  rename_i v3 v4 v5 v6
  clear_value v3
  have k7 : Keeps a0 v4 := keeps_foldl (fun _ _ h10 => endNvme_keeps h10) h2
  clear_value v4 v5 v6
  exact keeps_ite (endNvme_keeps h2) (endNvme_keeps (putCtrl_keeps k7))

theorem execDeleteIoCq_keeps {a0 t func sq cid s} (h_s : Keeps a0 s) : OutKeeps a0 (execDeleteIoCq t func sq cid s) := by
  unfold execDeleteIoCq
  refine out_next (runNvme_keeps ?_ h_s)
  intro y0 y1 h2
  extract_lets
  rename_i v3 v4 v5
  clear_value v3 v4 v5
  exact endNvme_keeps (keeps_ite h2 (putCtrl_keeps h2))

theorem execAbort_keeps {a0 t func sq cid s} (h_s : Keeps a0 s) : OutKeeps a0 (execAbort t func sq cid s) := by
  unfold execAbort
  refine out_next (runNvme_keeps ?_ h_s)
  intro y0 y1 h2
  extract_lets
  rename_i v3 v4
  clear_value v3
  have k5 : ∀ z0, Keeps a0 z0 → Keeps a0 (v4 z0) := by
    intro y6 h7
    unfold v4
    exact endNvme_keeps (nvmeCount_keeps h7)
  clear_value v4
  refine keeps_ite (k5 _ h2) ?_
  split
  · rename_i v8 v9 v10
    exact keeps_ite (k5 _ h2) (endNvme_keeps (nvmeCount_keeps (endNvme_keeps h2)))
  · rename_i v11 v12
    exact k5 _ h2

theorem execAsyncEventRequest_keeps {a0 t func sq cid s} (h_s : Keeps a0 s) : OutKeeps a0 (execAsyncEventRequest t func sq
    cid s) := by
  unfold execAsyncEventRequest
  refine out_next (runNvme_keeps ?_ h_s)
  intro y0 y1 h2
  extract_lets
  rename_i v3
  clear_value v3
  split
  · rename_i v4 v5 v6 v7
    exact endNvme_keeps (putCtrl_keeps h2)
  · rename_i v8 v9
    exact putCtrl_keeps h2

theorem execGetFeatures_keeps {a0 t func sq cid s} (h_s : Keeps a0 s) : OutKeeps a0 (execGetFeatures t func sq cid s) := by
  unfold execGetFeatures
  refine out_next (runNvme_keeps ?_ h_s)
  intro y0 y1 h2
  extract_lets
  rename_i v3 v4 v5
  clear_value v3 v4 v5
  split
  · rename_i v6 v7
    exact endNvme_keeps h2
  · rename_i v8 v9 v10
    exact keeps_ite (endNvme_keeps h2) (endNvme_keeps h2)

theorem setFeature_keeps {a0 s f c} (h_s : Keeps a0 s) : Keeps a0 (setFeature s f c).2.2 := by
  unfold setFeature
  extract_lets
  rename_i v0 v1 v2 v3 v4 v5
  clear_value v0 v1 v2 v3 v4 v5
  split
  · rename_i v6 v7
    exact putCtrl_keeps h_s
  · rename_i v8 v9
    exact h_s
  · rename_i v10 v11
    exact keeps_ite_mid (putCtrl_keeps h_s) h_s
  · rename_i v12 v13
    exact keeps_ite_mid h_s (putCtrl_keeps h_s)
  · rename_i v14 v15
    exact putCtrl_keeps h_s
  · rename_i v16 v17
    exact keeps_ite_mid (putCtrl_keeps h_s) h_s
  · rename_i v18 v19
    exact putCtrl_keeps h_s
  · rename_i v20 v21
    exact h_s
  · rename_i v22 v23
    split
    · rename_i v24 v25 v26
      exact keeps_ite_mid (putNs_keeps h_s) h_s
    · rename_i v27 v28
      exact h_s
  · rename_i v29 v30 v31 v32 v33 v34 v35 v36 v37 v38
    exact h_s

theorem execSetFeatures_keeps {a0 t func sq cid s} (h_s : Keeps a0 s) : OutKeeps a0 (execSetFeatures t func sq cid s) := by
  unfold execSetFeatures
  refine out_next (runNvme_keeps ?_ h_s)
  intro y0 y1 h2
  refine keeps_ite (endNvme_keeps h2) (keeps_ite (endNvme_keeps h2) ?_)
  split
  · rename_i v3 v4 v5 v6 v7
    exact endNvme_keeps (keeps_of_mid v7 (setFeature_keeps h2))

theorem identCtrl_keeps {a0 f s} (h_s : Keeps a0 s) : Keeps a0 (identCtrl f s).2 := by
  unfold identCtrl
  split
  · rename_i v0 v1 v2 v3
    exact keeps_of_snd v3 (freeBytes_keeps h_s)

theorem identData_keeps {a0 f c s} (h_s : Keeps a0 s) : Keeps a0 (identData f c s).2 := by
  unfold identData
  extract_lets
  rename_i v0 v1 v2 v3 v4
  clear_value v0 v1 v2 v3 v4
  split
  · rename_i v5 v6
    exact keeps_ite_snd h_s (keeps_ite_snd h_s h_s)
  · rename_i v7 v8
    split
    · rename_i v9 v10 v11 v12
      exact keeps_of_snd v12 (identCtrl_keeps h_s)
  · rename_i v13 v14
    exact h_s
  · rename_i v15 v16
    split
    · rename_i v17 v18
      exact h_s
    · rename_i v19
      exact h_s
  · rename_i v20 v21
    exact keeps_ite_snd h_s (keeps_ite_snd h_s h_s)
  · rename_i v22 v23
    exact keeps_ite_snd h_s h_s
  · rename_i v24 v25
    exact h_s
  · rename_i v26 v27
    exact keeps_ite_snd h_s h_s
  · rename_i v28 v29
    split
    · rename_i v30 v31
      exact h_s
    · rename_i v32
      exact keeps_ite_snd h_s h_s
  · rename_i v33 v34
    exact h_s
  · rename_i v35 v36 v37 v38 v39 v40 v41 v42 v43 v44 v45
    exact h_s

theorem execIdentify_keeps {a0 t func sq cid segs fail s} (h_s : Keeps a0 s) : OutKeeps a0 (execIdentify t func sq cid segs
    fail s) := by
  unfold execIdentify
  refine out_next (runNvme_keeps ?_ h_s)
  intro y0 y1 h2
  refine keeps_ite (endNvme_keeps (nvmeFetchFail_keeps h2)) ?_
  split
  · rename_i v3 v4 v5 v6 v7
    exact endNvme_keeps (keeps_ite (dmaSegs_keeps (keeps_of_snd v7 (identData_keeps h2))) (keeps_of_snd v7 (identData_keeps
        h2)))

theorem nsChanged_keeps {a0 f nsid s} (h_s : Keeps a0 s) : Keeps a0 (nsChanged f nsid s) := by
  unfold nsChanged
  extract_lets
  rename_i v0
  clear_value v0
  exact keeps_ite (asyncEvent_keeps (putCtrl_keeps h_s)) h_s

theorem execNsCreate_keeps {a0 t func sq cid data fail s} (h_s : Keeps a0 s) : OutKeeps a0 (execNsCreate t func sq cid data
    fail s) := by
  unfold execNsCreate
  refine out_next (runNvme_keeps ?_ h_s)
  intro y0 y1 h2
  extract_lets
  rename_i v3 v4 v5 v6 v7 v8 v9 v10 v11
  clear_value v3 v4 v5 v6 v7 v8 v9 v10 v11
  refine keeps_ite (endNvme_keeps (keeps_ite (nvmeFetchFail_keeps h2) h2)) ?_
  split
  · rename_i v12 v13 v14 v15
    extract_lets
    rename_i v16
    clear_value v16
    exact endNvme_keeps (newDeviceKey_keeps (putNs_keeps (keeps_of_snd v15 (freeBytes_keeps h2))))

theorem wipeArea_keeps {a0 nsid s} (h_s : Keeps a0 s) : Keeps a0 (wipeArea nsid s) := keeps_ite (keeps_upd h_s) h_s

theorem dropNs_keeps {a0 nsid s} (h_s : Keeps a0 s) : Keeps a0 (dropNs nsid s) := by
  unfold dropNs
  split
  · rename_i v0 v1
    exact h_s
  · rename_i v2 v3 v4
    extract_lets
    rename_i v5 v6 v7 v8 v9
    have k10 : Keeps a0 v5 := setNvme_keeps h_s
    clear_value v5
    have k11 : Keeps a0 v6 := wipeArea_keeps k10
    clear_value v6 v7
    have k12 : Keeps a0 v8 := keeps_ite (keeps_upd k11) k11
    clear_value v8
    have k13 : Keeps a0 v9 := dropDeviceKey_keeps (setFlash_keeps k12)
    clear_value v9
    split
    · rename_i v14 v15 v16
      exact nsChanged_keeps k13
    · rename_i v17 v18
      exact k13

theorem execNsDelete_keeps {a0 t func sq cid s} (h_s : Keeps a0 s) : OutKeeps a0 (execNsDelete t func sq cid s) := by
  unfold execNsDelete
  refine out_next (runNvme_keeps ?_ h_s)
  intro y0 y1 h2
  extract_lets
  rename_i v3 v4 v5
  clear_value v3 v4 v5
  exact endNvme_keeps (keeps_ite h2 (keeps_foldl (fun _ _ h8 => dropNs_keeps h8) h2))

theorem execNsAttach_keeps {a0 t func sq cid data fail s} (h_s : Keeps a0 s) : OutKeeps a0 (execNsAttach t func sq cid data
    fail s) := by
  unfold execNsAttach
  refine out_next (runNvme_keeps ?_ h_s)
  intro y0 y1 h2
  refine keeps_ite (endNvme_keeps h2) (keeps_ite (endNvme_keeps (nvmeFetchFail_keeps h2)) ?_)
  split
  · rename_i v3 v4 v5
    exact endNvme_keeps h2
  · rename_i v6 v7 v8 v9
    extract_lets
    rename_i v10 v11
    clear_value v10 v11
    split
    · rename_i v12 v13
      exact endNvme_keeps h2
    · rename_i v14 v15 v16
      exact keeps_ite (endNvme_keeps h2) (endNvme_keeps (nsChanged_keeps (putNs_keeps h2)))

theorem execNsDetach_keeps {a0 t func sq cid data fail s} (h_s : Keeps a0 s) : OutKeeps a0 (execNsDetach t func sq cid data
    fail s) := by
  unfold execNsDetach
  refine out_next (runNvme_keeps ?_ h_s)
  intro y0 y1 h2
  refine keeps_ite (endNvme_keeps (nvmeFetchFail_keeps h2)) ?_
  split
  · rename_i v3 v4 v5
    exact endNvme_keeps h2
  · rename_i v6 v7 v8 v9
    extract_lets
    rename_i v10 v11
    clear_value v10 v11
    exact keeps_ite (endNvme_keeps h2) (endNvme_keeps (nsChanged_keeps (putNs_keeps h2)))

theorem execFormatNvm_keeps {a0 t func sq cid s} (h_s : Keeps a0 s) : OutKeeps a0 (execFormatNvm t func sq cid s) := by
  unfold execFormatNvm
  refine out_next (runNvme_keeps ?_ h_s)
  intro y0 y1 h2
  split
  · rename_i v3 v4
    exact endNvme_keeps h2
  · rename_i v5 v6 v7
    extract_lets
    rename_i v8 v9 v10 v11
    clear_value v8 v9 v10 v11
    exact keeps_ite (endNvme_keeps h2) (putNs_keeps h2)

theorem execFormatDone_keeps {a0 t nsid s} (h_s : Keeps a0 s) : OutKeeps a0 (execFormatDone t nsid s) := by
  unfold execFormatDone
  refine out_next ?_
  extract_lets
  rename_i v0 v1
  have k2 : Keeps a0 v0 := atTime_keeps h_s
  clear_value v0 v1
  split
  · rename_i v3 v4
    exact k2
  · rename_i v5 v6 v7
    refine keeps_ite k2 ?_
    split
    · rename_i v8
      exact putNs_keeps k2
    · rename_i v9 v10 v11
      extract_lets
      rename_i v12 v13 v14 v15 v16
      clear_value v12 v13
      have k17 : Keeps a0 v14 := wipeArea_keeps (setFlash_keeps (putNs_keeps k2))
      clear_value v14
      have k18 : Keeps a0 v15 := keeps_ite (newDeviceKey_keeps k17) k17
      clear_value v15
      have k19 : Keeps a0 v16 := by
        unfold v16
        split
        · rename_i v20 v21 v22
          exact nsChanged_keeps k18
        · rename_i v23 v24
          exact k18
      clear_value v16
      exact endNvme_keeps k19

theorem execSanitize_keeps {a0 t func sq cid s} (h_s : Keeps a0 s) : OutKeeps a0 (execSanitize t func sq cid s) := by
  unfold execSanitize
  refine out_next (runNvme_keeps ?_ h_s)
  intro y0 y1 h2
  extract_lets
  rename_i v3 v4 v5
  clear_value v3 v4 v5
  exact keeps_ite (endNvme_keeps h2) (endNvme_keeps (setNvme_keeps h2))

theorem execSanitizeDone_keeps {a0 t s} (h_s : Keeps a0 s) : OutKeeps a0 (execSanitizeDone t s) := by
  unfold execSanitizeDone
  refine out_next ?_
  extract_lets
  rename_i v0 v1 v2
  have k3 : Keeps a0 v0 := atTime_keeps h_s
  clear_value v0
  have k4 : Keeps a0 v1 := setFlash_keeps (keeps_upd k3)
  clear_value v1 v2
  split
  · rename_i v5 v6
    exact k3
  · rename_i v7 v8 v9
    extract_lets
    rename_i v10 v11
    have k12 : Keeps a0 v10 := keeps_ite (keeps_foldl (fun _ _ h15 => newDeviceKey_keeps h15) k4) k4
    clear_value v10
    have k16 : Keeps a0 v11 := setNvme_keeps k12
    clear_value v11
    exact asyncAll_keeps (penBit_keeps k16)

theorem edgeTemp_keeps {a0 s} (h_s : Keeps a0 s) : Keeps a0 (edgeTemp s) := by
  unfold edgeTemp
  extract_lets
  rename_i v0
  clear_value v0
  refine keeps_foldl ?_ h_s
  intro y1 y2 h3
  extract_lets
  rename_i v4 v5 v6
  clear_value v4 v5
  have k7 : Keeps a0 v6 := putCtrl_keeps h3
  clear_value v6
  exact keeps_ite h3 (keeps_ite (asyncEvent_keeps k7) k7)

theorem smartPage_keeps {a0 f s} (h_s : Keeps a0 s) : Keeps a0 (smartPage f s).2 := by
  unfold smartPage
  split
  · rename_i v0 v1 v2 v3
    extract_lets
    rename_i v4 v5 v6
    clear_value v4 v5 v6
    exact keeps_of_snd v3 (freeBytes_keeps h_s)

theorem firmwarePage_keeps {a0 s} (h_s : Keeps a0 s) : Keeps a0 (firmwarePage s).2 := by
  unfold firmwarePage
  extract_lets
  rename_i v0 v1 v2
  clear_value v0 v1 v2
  split
  · rename_i v3 v4 v5 v6
    split
    · rename_i v7 v8 v9 v10
      split
      · rename_i v11 v12 v13 v14
        extract_lets
        rename_i v15 v16
        clear_value v15 v16
        exact keeps_of_snd v14 (freeBytes_keeps (keeps_of_snd v10 (freeBytes_keeps (keeps_of_snd v6 (freeVal_keeps h_s)))))

theorem effectsPage_keeps {a0 f s} (h_s : Keeps a0 s) : Keeps a0 (effectsPage f s).2 := by
  unfold effectsPage
  split
  · rename_i v0 v1 v2 v3
    extract_lets
    rename_i v4 v5 v6
    clear_value v4 v5 v6
    exact keeps_of_snd v3 (freeBytes_keeps h_s)

theorem sanitizePage_keeps {a0 s} (h_s : Keeps a0 s) : Keeps a0 (sanitizePage s).2 := by
  unfold sanitizePage
  split
  · rename_i v0 v1 v2 v3
    extract_lets
    rename_i v4 v5
    clear_value v4 v5
    exact keeps_of_snd v3 (freeBytes_keeps h_s)

theorem logPage_keeps {a0 f lid keep s} (h_s : Keeps a0 s) : Keeps a0 (logPage f lid keep s).2 := by
  unfold logPage
  split
  · rename_i v0
    exact h_s
  · rename_i v1
    split
    · rename_i v2 v3 v4 v5
      exact keeps_of_snd v5 (smartPage_keeps h_s)
  · rename_i v6
    split
    · rename_i v7 v8 v9 v10
      exact keeps_of_snd v10 (firmwarePage_keeps h_s)
  · rename_i v11
    extract_lets
    rename_i v12
    clear_value v12
    exact keeps_ite h_s (putCtrl_keeps h_s)
  · rename_i v13
    split
    · rename_i v14 v15 v16 v17
      exact keeps_of_snd v17 (effectsPage_keeps h_s)
  · rename_i v18
    split
    · rename_i v19 v20 v21 v22
      exact keeps_of_snd v22 (sanitizePage_keeps h_s)
  · rename_i v23
    exact h_s
  · rename_i v24
    exact h_s
  · rename_i v25
    exact keeps_ite_snd h_s h_s
  · rename_i v26 v27 v28 v29 v30 v31 v32 v33 v34 v35
    exact h_s

theorem execGetLogPage_keeps {a0 t func sq cid segs fail s} (h_s : Keeps a0 s) : OutKeeps a0 (execGetLogPage t func sq cid
    segs fail s) := by
  unfold execGetLogPage
  refine out_next (runNvme_keeps ?_ h_s)
  intro y0 y1 h2
  extract_lets
  rename_i v3 v4 v5
  clear_value v3 v4 v5
  split
  · rename_i v6 v7 v8 v9 v10
    extract_lets
    rename_i v11
    clear_value v11
    refine keeps_ite (endNvme_keeps (keeps_ite (nvmeFetchFail_keeps h2) h2)) ?_
    split
    · rename_i v12 v13 v14 v15
      exact endNvme_keeps (dmaSegs_keeps (keeps_of_snd v15 (freeBytes_keeps (keeps_of_snd v10 (logPage_keeps h2)))))

theorem setHost_keeps {a0 s f} (h_s : Keeps a0 s) : Keeps a0 (setHost s f) := keeps_upd h_s

theorem hostCount_keeps {a0 l i s} (h_s : Keeps a0 s) : Keeps a0 (hostCount l i s) := addReg_keeps h_s

theorem enterOrphan_keeps {a0 f cause abi s} (h_s : Keeps a0 s) : Keeps a0 (enterOrphan f cause abi s) := by
  unfold enterOrphan
  extract_lets
  rename_i v0 v1 v2 v3 v4
  clear_value v0 v1
  have k5 : Keeps a0 v2 := setBlkState_keeps (dropFreeze_keeps h_s)
  clear_value v2
  have k6 : Keeps a0 v3 := setRegN_keeps k5
  clear_value v3
  have k7 : Keeps a0 v4 := modFn_keeps (setReg64_keeps k6)
  clear_value v4
  exact errInfo_keeps (penBit_keeps (penBit_keeps k7))

theorem orphanRunning_keeps {a0 f cause abi s} (h_s : Keeps a0 s) : Keeps a0 (orphanRunning f cause abi s) := by
  unfold orphanRunning
  extract_lets
  rename_i v0
  clear_value v0
  exact keeps_ite (enterOrphan_keeps h_s) h_s

theorem clearMsix_keeps {a0 f s} (h_s : Keeps a0 s) : Keeps a0 (clearMsix f s) := setHost_keeps h_s

theorem clearConfig_keeps {a0 f s} (h_s : Keeps a0 s) : Keeps a0 (clearConfig f s) := clearMsix_keeps (modFn_keeps h_s)

theorem execFuncResetDone_keeps {a0 t func s} (h_s : Keeps a0 s) : OutKeeps a0 (execFuncResetDone t func s) := by
  unfold execFuncResetDone
  refine out_next ?_
  extract_lets
  rename_i v0 v1
  have k2 : Keeps a0 v0 := atTime_keeps h_s
  clear_value v0 v1
  exact keeps_ite k2 (putFn_keeps (setBlkState_keeps k2))

theorem vfDisable_keeps {a0 t pf s} (h_s : Keeps a0 s) : Keeps a0 (vfDisable t pf s) := by
  unfold vfDisable
  extract_lets
  rename_i v0 v1
  clear_value v0
  have k2 : Keeps a0 v1 := setHost_keeps h_s
  clear_value v1
  exact keeps_foldl (fun _ _ h5 => keeps_ite h5 (startReset_keeps h5)) k2

theorem execVfDisable_keeps {a0 t pf s} (h_s : Keeps a0 s) : OutKeeps a0 (execVfDisable t pf s) := by
  unfold execVfDisable
  refine out_next ?_
  extract_lets
  rename_i v0
  have k1 : Keeps a0 v0 := atTime_keeps h_s
  clear_value v0
  exact keeps_ite (vfDisable_keeps k1) k1

theorem execVfEnable_keeps {a0 t pf num s} (h_s : Keeps a0 s) : OutKeeps a0 (execVfEnable t pf num s) := by
  unfold execVfEnable
  refine out_next ?_
  extract_lets
  rename_i v0 v1
  have k2 : Keeps a0 v0 := atTime_keeps h_s
  clear_value v0
  have k3 : Keeps a0 v1 := setHost_keeps k2
  clear_value v1
  refine keeps_ite k2 (keeps_foldl ?_ k3)
  intro y4 y5 h6
  extract_lets
  rename_i v7
  have k8 : Keeps a0 v7 := modFn_keeps h6
  clear_value v7
  exact keeps_ite (setBlkState_keeps k8) k8

theorem execFlr_keeps {a0 t func s} (h_s : Keeps a0 s) : OutKeeps a0 (execFlr t func s) := by
  unfold execFlr
  refine out_next ?_
  extract_lets
  rename_i v0 v1 v2 v3 v4 v5 v6 v7
  have k8 : Keeps a0 v0 := atTime_keeps h_s
  clear_value v0 v1 v2 v3
  have k9 : Keeps a0 v4 := clearConfig_keeps (silence_keeps k8)
  clear_value v4
  have k10 : Keeps a0 v5 := penBit_keeps (penBit_keeps (hostCount_keeps k9))
  clear_value v5
  have k11 : Keeps a0 v6 := keeps_ite (vfDisable_keeps k10) k10
  clear_value v6
  have k12 : Keeps a0 v7 := keeps_ite (modFn_keeps k11) (keeps_ite (enterOrphan_keeps k11) (keeps_ite (dropFreeze_keeps
      k11) k11))
  clear_value v7
  exact keeps_ite k8 (clearAgreement_keeps k12)

theorem execBusMasterDisable_keeps {a0 t func s} (h_s : Keeps a0 s) : OutKeeps a0 (execBusMasterDisable t func s) := by
  unfold execBusMasterDisable
  refine out_next ?_
  extract_lets
  rename_i v0 v1 v2
  have k3 : Keeps a0 v0 := atTime_keeps h_s
  clear_value v0
  have k4 : Keeps a0 v1 := silence_keeps (modFn_keeps k3)
  clear_value v1 v2
  exact keeps_ite k3 (keeps_ite (enterOrphan_keeps k4) k4)

theorem execConfigRequest_keeps {a0 t link func bme w s} (h_s : Keeps a0 s) :
    OutKeeps a0 (execConfigRequest t link func bme w s) := by
  unfold execConfigRequest
  refine out_next ?_
  extract_lets
  rename_i v0 v1 v2 v3 v4 v5
  have k6 : Keeps a0 v0 := atTime_keeps h_s
  clear_value v0 v1
  have k7 : Keeps a0 v2 := emit_keeps k6
  clear_value v2
  have k8 : Keeps a0 v3 := modFn_keeps k7
  clear_value v3
  have k9 : Keeps a0 v4 := modFn_keeps k8
  clear_value v4 v5
  exact keeps_ite (emit_keeps k6) (keeps_ite k7 (keeps_ite k8 (keeps_ite k9 (unsilence_keeps k9))))

theorem execHostLinkUp_keeps {a0 t link rate width s} (h_s : Keeps a0 s) : OutKeeps a0 (execHostLinkUp t link rate width s)
    := by
  unfold execHostLinkUp
  refine out_next ?_
  extract_lets
  rename_i v0
  have k1 : Keeps a0 v0 := atTime_keeps h_s
  clear_value v0
  exact keeps_ite k1 (penBit_keeps (setRegN_keeps k1))

theorem execHostLinkDown_keeps {a0 t link s} (h_s : Keeps a0 s) : OutKeeps a0 (execHostLinkDown t link s) := by
  unfold execHostLinkDown
  refine out_next ?_
  extract_lets
  rename_i v0 v1
  have k2 : Keeps a0 v0 := atTime_keeps h_s
  clear_value v0
  have k3 : Keeps a0 v1 := penBit_keeps (hostCount_keeps (setRegN_keeps k2))
  clear_value v1
  exact keeps_ite k2 (keeps_foldl (fun _ _ h6 => keeps_ite h6 (orphanRunning_keeps (silence_keeps h6))) k3)

theorem hostReset_keeps {a0 link s} (h_s : Keeps a0 s) : Keeps a0 (hostReset link s) := by
  unfold hostReset
  extract_lets
  rename_i v0 v1 v2
  clear_value v0 v1
  have k3 : Keeps a0 v2 := setHost_keeps (resetPage_keeps h_s)
  clear_value v2
  refine keeps_foldl ?_ k3
  intro y4 y5 h6
  extract_lets
  rename_i v7 v8 v9 v10 v11
  clear_value v7 v8
  have k12 : Keeps a0 v9 := resetPage_keeps (silence_keeps (clearConfig_keeps h6))
  clear_value v9
  have k13 : Keeps a0 v10 := modFn_keeps k12
  clear_value v10
  have k14 : Keeps a0 v11 := keeps_ite (setBlkState_keeps k13) (orphanRunning_keeps k13)
  clear_value v11
  exact keeps_ite (resetPage_keeps h6) (keeps_ite (setFld_keeps k14) (setFld_keeps k14))

theorem execPerst_keeps {a0 t link s} (h_s : Keeps a0 s) : OutKeeps a0 (execPerst t link s) := by
  unfold execPerst
  refine out_next ?_
  extract_lets
  rename_i v0 v1
  have k2 : Keeps a0 v0 := atTime_keeps h_s
  clear_value v0 v1
  exact keeps_ite k2 (hostReset_keeps (keeps_upd k2))

theorem execPerstDeassert_keeps {a0 t link s} (h_s : Keeps a0 s) : OutKeeps a0 (execPerstDeassert t link s) := by
  unfold execPerstDeassert
  refine out_next ?_
  extract_lets
  rename_i v0 v1
  have k2 : Keeps a0 v0 := atTime_keeps h_s
  clear_value v0 v1
  exact keeps_ite k2 (keeps_upd k2)

theorem execHotReset_keeps {a0 t link s} (h_s : Keeps a0 s) : OutKeeps a0 (execHotReset t link s) := by
  unfold execHotReset
  refine out_next ?_
  extract_lets
  rename_i v0
  have k1 : Keeps a0 v0 := atTime_keeps h_s
  clear_value v0
  exact keeps_ite k1 (hostReset_keeps k1)

theorem execCompletionReceive_keeps {a0 t link func tag outstanding err s} (h_s : Keeps a0 s) : OutKeeps a0
    (execCompletionReceive t link func tag outstanding err s) := by
  unfold execCompletionReceive
  refine out_next ?_
  extract_lets
  rename_i v0 v1
  have k2 : Keeps a0 v0 := atTime_keeps h_s
  clear_value v0 v1
  refine keeps_ite k2 ?_
  split
  · rename_i v3 v4 v5
    extract_lets
    rename_i v6
    have k7 : Keeps a0 v6 := penBit_keeps (penBit_keeps (hostCount_keeps k2))
    clear_value v6
    exact setHost_keeps k7
  · rename_i v8 v9
    exact keeps_ite (keeps_ite (hostCount_keeps k2) (keeps_ite (hostCount_keeps k2) k2)) (emit_keeps (hostCount_keeps k2))

theorem failRead_keeps {a0 f e s} (h_s : Keeps a0 s) : Keeps a0 (failRead f e s) := by
  unfold failRead
  split
  · rename_i v0 v1
    split
    · rename_i v2 v3 v4
      exact keeps_ite (setPair_keeps h_s) h_s
    · rename_i v5 v6
      exact h_s
  · rename_i v7 v8 v9
    exact failWr_keeps h_s
  · rename_i v10
    exact nvmeFetchFail_keeps (putCtrl_keeps h_s)
  · rename_i v11 v12 v13
    split
    · rename_i v14 v15 v16
      exact keeps_ite h_s (endNvme_keeps (nvmeFetchFail_keeps h_s))
    · rename_i v17 v18
      exact h_s
  · rename_i v19 v20 v21
    exact sendPkt_keeps h_s

theorem execCplTimeout_keeps {a0 t func tag issued engine s} (h_s : Keeps a0 s) : OutKeeps a0 (execCplTimeout t func tag
    issued engine s) := by
  unfold execCplTimeout
  refine out_next ?_
  extract_lets
  rename_i v0 v1 v2 v3 v4 v5
  have k6 : Keeps a0 v0 := atTime_keeps h_s
  clear_value v0 v1 v2 v3
  have k7 : Keeps a0 v4 := emit_keeps (hostCount_keeps k6)
  clear_value v4
  have k8 : Keeps a0 v5 := errInfo_keeps (penBit_keeps (penBit_keeps k7))
  clear_value v5
  exact keeps_ite k6 (failRead_keeps (setHost_keeps k8))

theorem execQuarantineExpiry_keeps {a0 t link tag s} (h_s : Keeps a0 s) : OutKeeps a0 (execQuarantineExpiry t link tag s)
    := by
  unfold execQuarantineExpiry
  refine out_next ?_
  extract_lets
  rename_i v0 v1
  have k2 : Keeps a0 v0 := atTime_keeps h_s
  clear_value v0 v1
  split
  · rename_i v3 v4 v5
    exact keeps_ite k2 (hostCount_keeps (setHost_keeps k2))
  · rename_i v6 v7
    exact k2

theorem execAtsInvalidate_keeps {a0 t link itag s} (h_s : Keeps a0 s) : OutKeeps a0 (execAtsInvalidate t link itag s) :=
    out_next (keeps_ite (atTime_keeps h_s) (emit_keeps (atTime_keeps h_s)))

theorem execDoeDiscovery_keeps {a0 index s} (h_s : Keeps a0 s) : OutKeeps a0 (execDoeDiscovery index s) := out_next
    (emit_keeps h_s)

theorem execHeartbeatTimeout_keeps {a0 func s} (h_s : Keeps a0 s) : OutKeeps a0 (execHeartbeatTimeout func s) := by
  unfold execHeartbeatTimeout
  refine out_next ?_
  extract_lets
  rename_i v0
  clear_value v0
  exact keeps_ite (enterOrphan_keeps (silence_keeps h_s)) h_s

theorem execGraceEnd_keeps {a0 t s} (h_s : Keeps a0 s) : OutKeeps a0 (execGraceEnd t s) := by
  unfold execGraceEnd
  refine out_next ?_
  extract_lets
  rename_i v0 v1 v2 v3 v4 v5
  have k6 : Keeps a0 v0 := atTime_keeps h_s
  clear_value v0 v1 v2
  have k7 : Keeps a0 v3 := setFoundry_keeps k6
  clear_value v3 v4
  have k8 : Keeps a0 v5 := keeps_upd k7
  clear_value v5
  exact keeps_ite k6 (penBit_keeps (penBit_keeps (putFn_keeps k8)))

theorem execBadAccess_keeps {a0 func addr size write s} (h_s : Keeps a0 s) : OutKeeps a0 (execBadAccess func addr size
    write s) := by
  unfold execBadAccess
  refine out_next ?_
  split
  · rename_i v0 v1
    exact keeps_ite h_s (keeps_ite (penBit_keeps h_s) (keeps_ite (recordBad_keeps h_s) h_s))
  · rename_i v2
    exact keeps_ite (recordBad_keeps h_s) h_s

theorem execFuncAssign_keeps {a0 k s} (h_s : Keeps a0 s) : OutKeeps a0 (execFuncAssign k s) := by
  unfold execFuncAssign
  refine out_next ?_
  split
  · rename_i v0 v1
    exact h_s
  · rename_i v2 v3 v4
    refine keeps_ite h_s (runSvc_keeps ?_ h_s)
    intro y5 y6 h7
    extract_lets
    rename_i v8
    clear_value v8
    exact end_ite (end_done h7) (end_ite (end_done h7) (end_ite (end_done h7) (end_ite (end_done h7) (end_wait h7))))

theorem execFuncFreeze_keeps {a0 k s} (h_s : Keeps a0 s) : OutKeeps a0 (execFuncFreeze k s) := by
  unfold execFuncFreeze
  refine out_next (runSvc_keeps ?_ h_s)
  intro y0 y1 h2
  extract_lets
  rename_i v3
  clear_value v3
  exact end_ite (end_done h2) (end_wait (modFn_keeps h2))

theorem freezeNow_keeps {a0 f s} (h_s : Keeps a0 s) : Keeps a0 (freezeNow f s) := by
  unfold freezeNow
  extract_lets
  rename_i v0 v1 v2
  clear_value v0
  have k3 : Keeps a0 v1 := keeps_foldl (fun _ _ h6 => keeps_ite (putQp_keeps h6) h6) h_s
  clear_value v1
  have k7 : Keeps a0 v2 := modFn_keeps k3
  clear_value v2
  exact setBlkState_keeps k7

theorem execFreezeDone_keeps {a0 t func s} (h_s : Keeps a0 s) : OutKeeps a0 (execFreezeDone t func s) := by
  unfold execFreezeDone
  refine out_next ?_
  extract_lets
  rename_i v0 v1
  have k2 : Keeps a0 v0 := atTime_keeps h_s
  clear_value v0
  have k3 : Keeps a0 v1 := freezeNow_keeps k2
  clear_value v1
  exact keeps_ite k2 (finishCmds_keeps k3)

theorem execFreezeTimeout_keeps {a0 t func s} (h_s : Keeps a0 s) : OutKeeps a0 (execFreezeTimeout t func s) := by
  unfold execFreezeTimeout
  refine out_next ?_
  extract_lets
  rename_i v0 v1
  have k2 : Keeps a0 v0 := atTime_keeps h_s
  clear_value v0 v1
  split
  · rename_i v3 v4
    exact k2
  · rename_i v5 v6 v7
    exact keeps_ite k2 (finishCmds_keeps (putFn_keeps k2))

theorem execFuncSave_keeps {a0 k s} (h_s : Keeps a0 s) : OutKeeps a0 (execFuncSave k s) := by
  unfold execFuncSave
  refine out_next (runSvc_keeps ?_ h_s)
  intro y0 y1 h2
  refine end_ite (end_done h2) ?_
  extract_lets
  rename_i v3
  clear_value v3
  exact end_ite (end_done h2) (end_done (dmaWrite_keeps h2))

theorem nvmeFrom_keeps {a0 f p s} (h_s : Keeps a0 s) : Keeps a0 (nvmeFrom f p s) := by
  unfold nvmeFrom
  extract_lets
  rename_i v0 v1 v2 v3 v4 v5
  clear_value v0 v1 v2 v3 v5
  refine keeps_ite h_s ?_
  split
  rename_i v6 v7 v8 v9
  split
  rename_i v10 v11 v12 v13
  extract_lets
  rename_i v14 v15
  clear_value v14 v15
  refine putCtrl_keeps (keeps_of_snd v13 (freeVal_keeps (keeps_of_snd v9 (keeps_foldl_snd ?_ h_s))))
  intro _ _ h18
  split
  rename_i v19 v20 v21 v22
  exact keeps_of_snd v22 (freeVal_keeps h18)

theorem placeBlob_keeps {a0 f b l s} (h_s : Keeps a0 s) : Keeps a0 (placeBlob f b l s) := by
  unfold placeBlob
  extract_lets
  rename_i v0 v1 v2 v3 v4 v5 v6 v7 v8 v9 v10 v11
  clear_value v0 v1
  have k12 : Keeps a0 v2 := setRegN_keeps (setRegN_keeps h_s)
  clear_value v2
  have k13 : Keeps a0 v3 := setRegN_keeps (setRegN_keeps k12)
  clear_value v3
  have k14 : Keeps a0 v4 := setAgreement_keeps k13
  clear_value v4 v5
  have k15 : Keeps a0 v6 := setHost_keeps (clearMsix_keeps k14)
  clear_value v6
  have k16 : Keeps a0 v7 := keeps_foldl (fun _ _ h19 => setPair_keeps h19) k15
  clear_value v7 v8 v9
  have k20 : Keeps a0 v10 := keeps_foldl (fun _ _ h23 => putQp_keeps h23) k16
  clear_value v10
  have k24 : Keeps a0 v11 := windowPut_keeps (nvmeFrom_keeps k20)
  clear_value v11
  exact modFn_keeps k24

theorem execFuncRestore_keeps {a0 k blob s} (h_s : Keeps a0 s) : OutKeeps a0 (execFuncRestore k blob s) := by
  unfold execFuncRestore
  refine out_next (runSvc_keeps ?_ h_s)
  intro y0 y1 h2
  extract_lets
  rename_i v3 v4 v5 v6 v7
  clear_value v3 v4 v5 v6 v7
  refine end_ite (end_done h2) (end_ite (end_done h2) ?_)
  split
  · rename_i v8 v9
    exact end_done h2
  · rename_i v10 v11 v12
    refine end_ite (end_done h2) ?_
    extract_lets
    rename_i v13
    clear_value v13
    split
    · rename_i v14 v15
      exact end_done h2
    · rename_i v16
      exact end_ite (end_done h2) (end_done (placeBlob_keeps h2))

theorem execFuncThaw_keeps {a0 k s} (h_s : Keeps a0 s) : OutKeeps a0 (execFuncThaw k s) := out_next (runSvc_keeps (fun _ _
    h2 => end_ite (end_done h2) (end_wait h2)) h_s)

theorem edgeFuncs_keeps {a0 s} (h_s : Keeps a0 s) : Keeps a0 (edgeFuncs s) := by
  unfold edgeFuncs
  extract_lets
  rename_i v0 v1 v2
  have k3 : Keeps a0 v0 := by
    unfold v0
    refine keeps_foldl ?_ h_s
    intro y4 y5 h6
    extract_lets
    rename_i v7 v8 v9
    clear_value v7
    have k10 : Keeps a0 v8 := setRegN_keeps (setRegN_keeps h6)
    clear_value v8
    have k11 : Keeps a0 v9 := setRegN_keeps (setRegN_keeps k10)
    clear_value v9
    exact complete_keeps (penBit_keeps k11)
  clear_value v0
  have k12 : Keeps a0 v1 := keeps_foldl (fun _ _ h15 => keeps_ite (putFn_keeps h15) h15) k3
  clear_value v1
  have k16 : Keeps a0 v2 := by
    unfold v2
    refine keeps_foldl ?_ k12
    intro y17 y18 h19
    extract_lets
    rename_i v20 v21 v22
    clear_value v20
    have k23 : Keeps a0 v21 := freezeNow_keeps h19
    clear_value v21
    have k24 : Keeps a0 v22 := modFn_keeps h19
    clear_value v22
    refine keeps_ite (complete_keeps k23) (keeps_ite (keeps_foldl ?_ k24) h19)
    intro y25 y26 h27
    extract_lets
    rename_i v28 v29
    clear_value v28 v29
    exact putQp_keeps h27
  clear_value v2
  refine keeps_foldl ?_ k16
  intro y30 y31 h32
  refine keeps_ite (complete_keeps h32) ?_
  extract_lets
  rename_i v33 v34
  have k35 : Keeps a0 v33 := thawQps_keeps h32
  clear_value v33
  have k36 : Keeps a0 v34 := setBlkState_keeps k35
  clear_value v34
  exact complete_keeps k36

theorem dirtyOp_keeps {a0 sub k inv body s} (h_body : ∀ y0 y1 y2, Keeps a0 y2 → EndKeeps a0 (body y0 y1 y2)) (h_s : Keeps
    a0 s) : Keeps a0 (dirtyOp sub k inv body s) := by
  unfold dirtyOp
  split
  · rename_i v0 v1
    exact h_s
  · rename_i v2 v3 v4
    extract_lets
    rename_i v5
    clear_value v5
    refine keeps_ite h_s (runSvc_keeps ?_ h_s)
    intro y6 y7 h8
    extract_lets
    rename_i v9
    clear_value v9
    exact end_ite (end_done h8) (h_body _ _ _ h8)

theorem execDirtyLogStart_keeps {a0 k s} (h_s : Keeps a0 s) : OutKeeps a0 (execDirtyLogStart k s) := by
  unfold execDirtyLogStart
  refine out_next (dirtyOp_keeps ?_ h_s)
  intro y0 y1 y2 h3
  extract_lets
  rename_i v4 v5
  clear_value v4
  have k6 : Keeps a0 v5 := putFn_keeps h3
  clear_value v5
  exact end_ite (end_done h3) (end_done (setRegN_keeps k6))

theorem execDirtyLogSync_keeps {a0 k s} (h_s : Keeps a0 s) : OutKeeps a0 (execDirtyLogSync k s) := by
  unfold execDirtyLogSync
  refine out_next (dirtyOp_keeps ?_ h_s)
  intro y0 y1 y2 h3
  split
  · rename_i v4 v5
    exact end_done h3
  · rename_i v6 v7 v8
    extract_lets
    rename_i v9 v10
    clear_value v9 v10
    exact end_done (dmaWrite_keeps (putFn_keeps h3))

theorem execDirtyLogStop_keeps {a0 k s} (h_s : Keeps a0 s) : OutKeeps a0 (execDirtyLogStop k s) := by
  unfold execDirtyLogStop
  refine out_next (dirtyOp_keeps ?_ h_s)
  intro y0 y1 y2 h3
  split
  · rename_i v4 v5
    exact end_done h3
  · rename_i v6 v7 v8
    exact end_done (setFld_keeps (putFn_keeps h3))

theorem needTest_keeps {a0 t cause s} (h_s : Keeps a0 s) : Keeps a0 (needTest t cause s) := by
  unfold needTest
  extract_lets
  rename_i v0 v1
  clear_value v0
  have k2 : Keeps a0 v1 := setFld_keeps (setFld_keeps h_s)
  clear_value v1
  exact setFld_keeps k2

theorem hwFence_keeps {a0 p s} (h_s : Keeps a0 s) : Keeps a0 (hwFence p s) := keeps_ite (setFld_keeps h_s)
    (fenceBlock_keeps h_s)

theorem faultTile_keeps {a0 t cause s} (h_s : Keeps a0 s) : Keeps a0 (faultTile t cause s) := hwFence_keeps (needTest_keeps
    h_s)

theorem showPass_keeps {a0 t s} (h_s : Keeps a0 s) : Keeps a0 (showPass t s) := setRegN_keeps h_s

theorem startStream_keeps {a0 t s} (h_s : Keeps a0 s) : Keeps a0 (startStream t s) := by
  unfold startStream
  extract_lets
  rename_i v0
  have k1 : Keeps a0 v0 := resetCore_keeps h_s
  clear_value v0
  split
  · rename_i v2 v3
    exact k1
  · rename_i v4 v5 v6
    refine keeps_ite k1 ?_
    split
    · rename_i v7 v8 v9 v10
      exact setIntg_keeps (stopCore_keeps (keeps_of_snd v10 (freeVal_keeps k1)))

theorem newEpoch_keeps {a0 t s} (h_s : Keeps a0 s) : Keeps a0 (newEpoch t s) := by
  unfold newEpoch
  extract_lets
  rename_i v0 v1
  have k2 : Keeps a0 v0 := setIntg_keeps h_s
  clear_value v0
  have k3 : Keeps a0 v1 := showPass_keeps (startStream_keeps (clearTable_keeps k2))
  clear_value v1
  exact refillAll_keeps (keeps_foldl (fun _ _ h6 => setReady_keeps h6) k3)

theorem bumpEpoch_keeps {a0 p s} (h_s : Keeps a0 s) : Keeps a0 (bumpEpoch p s) := setBlkEpoch_keeps h_s

theorem reloadStream_keeps {a0 t s} (h_s : Keeps a0 s) : Keeps a0 (reloadStream t s) := by
  unfold reloadStream
  split
  · rename_i v0 v1 v2 v3 v4 v5
    extract_lets
    rename_i v6
    clear_value v6
    exact startStream_keeps (keeps_memWrite h_s)
  · rename_i v7 v8 v9
    exact h_s

theorem edgeReload_keeps {a0 s} (h_s : Keeps a0 s) : Keeps a0 (edgeReload s) := keeps_foldl (fun _ _ h2 =>
    reloadStream_keeps h2) (setIntg_keeps h_s)

end Sys2Proof.Machine
end

