-- ==== Sys2Proof/Laws/KeepsPair.lean ====
section
/-! SUPPORT. What checkpoints, the pair, integrity and commits keep (Laws/Keeps.lean): one lemma per function. -/

namespace Sys2Proof.Machine

theorem clearSlice_keeps {a0 t s} (h_s : Keeps a0 s) : Keeps a0 (clearSlice t s) := keeps_memClear h_s

theorem setPairX_keeps {a0 s f} (h_s : Keeps a0 s) : Keeps a0 (setPairX s f) := keeps_upd h_s

theorem setCkpt_keeps {a0 s f} (h_s : Keeps a0 s) : Keeps a0 (setCkpt s f) := keeps_upd h_s

theorem dropGroup_keeps {a0 s} (h_s : Keeps a0 s) : Keeps a0 (dropGroup s) := setCkptMode_keeps (setCkpt_keeps h_s)

theorem setPairState_keeps {a0 v s} (h_s : Keeps a0 s) : Keeps a0 (setPairState v s) := keeps_ite (setPairX_keeps h_s)
    (setBlkState_keeps h_s)

theorem loseSync_keeps {a0 s} (h_s : Keeps a0 s) : Keeps a0 (loseSync s) := by
  unfold loseSync
  refine keeps_foldl ?_ h_s
  intro y0 y1 h2
  split
  · rename_i v3 v4
    exact endIo_keeps h2
  · rename_i v5 v6 v7
    exact keeps_ite h2 (keeps_ite (endIo_keeps h2) (landNvme_keeps (keeps_ite (mirrorState_keeps h2) h2)))

theorem leaveSync_keeps {a0 v s} (h_s : Keeps a0 s) : Keeps a0 (leaveSync v s) := by
  unfold leaveSync
  extract_lets
  rename_i v0
  have k1 : Keeps a0 v0 := keeps_ite (loseSync_keeps (setPairState_keeps h_s)) (setPairState_keeps h_s)
  clear_value v0
  exact setPairX_keeps k1

theorem enterUnpaired_keeps {a0 s} (h_s : Keeps a0 s) : Keeps a0 (enterUnpaired s) := setPairX_keeps (leaveSync_keeps h_s)

theorem intgPen_keeps {a0 b s} (h_s : Keeps a0 s) : Keeps a0 (intgPen b s) := penBit_keeps h_s

theorem ckCount_keeps {a0 i n s} (h_s : Keeps a0 s) : Keeps a0 (ckCount i n s) := addReg_keeps h_s

theorem putSess_keeps {a0 i x s} (h_s : Keeps a0 s) : Keeps a0 (putSess i x s) := setCkpt_keeps h_s

theorem ckSend_keeps {a0 rank ty step src unit stripe body s} (h_s : Keeps a0 s) : Keeps a0 (ckSend rank ty step src unit
    stripe body s) := by
  unfold ckSend
  split
  · rename_i v0 v1
    exact h_s
  · rename_i v2 v3 v4
    split
    · rename_i v5 v6
      exact h_s
    · rename_i v7 v8 v9
      split
      · rename_i v10 v11
        exact h_s
      · rename_i v12 v13 v14
        refine keeps_ite h_s ?_
        extract_lets
        rename_i v15 v16
        clear_value v15
        have k17 : Keeps a0 v16 := putQp_keeps (emit_keeps h_s)
        clear_value v16
        exact addTx_keeps k17

theorem ckTell_keeps {a0 who ty step src body s} (h_s : Keeps a0 s) : Keeps a0 (ckTell who ty step src body s) := by
  unfold ckTell
  split
  · rename_i v0 v1
    exact h_s
  · rename_i v2 v3 v4
    exact forN_keeps h_s (fun _ _ h7 => keeps_ite (ckSend_keeps h7) h7)

theorem failSession_keeps {a0 i reason s} (h_s : Keeps a0 s) : Keeps a0 (failSession i reason s) := by
  unfold failSession
  split
  · rename_i v0 v1
    exact h_s
  · rename_i v2 v3 v4
    extract_lets
    rename_i v5 v6 v7 v8
    have k9 : Keeps a0 v5 := putSess_keeps h_s
    clear_value v5
    have k10 : Keeps a0 v6 := penBit_keeps (ckCount_keeps k9)
    clear_value v6
    have k11 : Keeps a0 v7 := ckTell_keeps k10
    clear_value v7
    have k12 : Keeps a0 v8 := finishCmds_keeps k11
    clear_value v8
    exact finishCmds_keeps k12

theorem ckptSoftReset_keeps {a0 s} (h_s : Keeps a0 s) : Keeps a0 (ckptSoftReset s) := by
  unfold ckptSoftReset
  extract_lets
  rename_i v0
  have k1 : Keeps a0 v0 := keeps_foldl (fun _ _ h4 => keeps_ite (failSession_keeps h4) h4) h_s
  clear_value v0
  exact dropGroup_keeps (finishCmds_keeps k1)

theorem leavePair_keeps {a0 s} (h_s : Keeps a0 s) : Keeps a0 (leavePair s) := by
  unfold leavePair
  extract_lets
  rename_i v0
  have k1 : Keeps a0 v0 := keeps_ite (sendHawser_keeps h_s) h_s
  clear_value v0
  exact finishCmds_keeps (enterUnpaired_keeps k1)

theorem pairSoftReset_keeps {a0 s} (h_s : Keeps a0 s) : Keeps a0 (pairSoftReset s) := finishCmds_keeps (keeps_ite
    (leavePair_keeps h_s) h_s)

theorem dramUe_keeps {a0 off s} (h_s : Keeps a0 s) : Keeps a0 (dramUe off s) := by
  unfold dramUe
  extract_lets
  rename_i v0 v1
  clear_value v0
  have k2 : Keeps a0 v1 := setReg64_keeps (addSat_keeps h_s)
  clear_value v1
  exact errInfo_keeps (penBit_keeps k2)

theorem dramTouch_keeps {a0 off len s} (h_s : Keeps a0 s) : Keeps a0 (dramTouch off len s) := by
  unfold dramTouch
  refine keeps_foldl ?_ h_s
  intro y0 y1 h2
  refine keeps_ite (dramUe_keeps h2) ?_
  extract_lets
  rename_i v3 v4
  clear_value v3 v4
  exact penBit_keeps (addSat_keeps (keeps_upd h2))

theorem jobRun_keeps {a0 op unit b x s} (h_s : Keeps a0 s) : EndKeeps a0 (jobRun op unit b x s) := by
  unfold jobRun
  extract_lets
  rename_i v0 v1 v2 v3 v4 v5 v6 v7 v8 v9 v10 v11 v12 v13 v14
  clear_value v0 v1 v2 v3 v4 v5 v6 v7 v8
  have k15 : Keeps a0 v9 := keeps_ite (dramTouch_keeps (dramTouch_keeps h_s)) h_s
  clear_value v9
  have k16 : Keeps a0 v10 := ciphCount_keeps (keeps_ite k15 (useKey_keeps k15))
  clear_value v10
  have k17 : Keeps a0 v11 := keeps_ite (setCiph_keeps k16) k16
  clear_value v11 v12 v13 v14
  split
  · rename_i v18 v19 v20 v21 v22
    extract_lets
    rename_i v23 v24 v25 v26 v27
    clear_value v23 v24 v25 v26 v27
    split
    · rename_i v28 v29 v30 v31
      extract_lets
      rename_i v32 v33 v34 v35
      have k36 : Keeps a0 v32 := keeps_ite (keeps_of_snd v31 (keeps_ite_snd (freeBytes_keeps k17) k17)) (dmaWrite_keeps
          (keeps_of_snd v31 (keeps_ite_snd (freeBytes_keeps k17) k17)))
      clear_value v32 v33
      have k37 : Keeps a0 v34 := keeps_ite k36 (dmaWrite_keeps k36)
      clear_value v34
      have k38 : Keeps a0 v35 := keeps_ite (ciphIntegrity_keeps k37) (keeps_ite (authFail_keeps k37) k37)
      clear_value v35
      exact end_done k38

theorem ciphOp_keeps {a0 op k job unit x s} (h_s : Keeps a0 s) : Keeps a0 (ciphOp op k job unit x s) := by
  unfold ciphOp
  extract_lets
  rename_i v0 v1 v2
  clear_value v0 v1 v2
  refine keeps_ite h_s (runSvc_keeps ?_ h_s)
  intro y3 y4 h5
  refine end_ite (jobRun_keeps h5) ?_
  split
  · rename_i v6 v7
    exact end_done h5
  · rename_i v8 v9 v10
    exact end_ite (end_done h5) (end_ite (end_done h5) (end_ite (end_done (errInfo_keeps (penBit_keeps (ciphCount_keeps
        h5)))) (end_ite (end_done h5) (jobRun_keeps h5))))

theorem execGcmEnc_keeps {a0 k job unit x s} (h_s : Keeps a0 s) : OutKeeps a0 (execGcmEnc k job unit x s) := out_next
    (ciphOp_keeps h_s)

theorem execGcmDec_keeps {a0 k job unit x s} (h_s : Keeps a0 s) : OutKeeps a0 (execGcmDec k job unit x s) := out_next
    (ciphOp_keeps h_s)

theorem execXtsEnc_keeps {a0 k job unit x s} (h_s : Keeps a0 s) : OutKeeps a0 (execXtsEnc k job unit x s) := out_next
    (ciphOp_keeps h_s)

theorem execXtsDec_keeps {a0 k job unit x s} (h_s : Keeps a0 s) : OutKeeps a0 (execXtsDec k job unit x s) := out_next
    (ciphOp_keeps h_s)

theorem execGmacGen_keeps {a0 k job unit x s} (h_s : Keeps a0 s) : OutKeeps a0 (execGmacGen k job unit x s) := out_next
    (ciphOp_keeps h_s)

theorem execGmacVer_keeps {a0 k job unit x s} (h_s : Keeps a0 s) : OutKeeps a0 (execGmacVer k job unit x s) := out_next
    (ciphOp_keeps h_s)

theorem execHmacGen_keeps {a0 k job unit x s} (h_s : Keeps a0 s) : OutKeeps a0 (execHmacGen k job unit x s) := out_next
    (ciphOp_keeps h_s)

theorem execHmacVer_keeps {a0 k job unit x s} (h_s : Keeps a0 s) : OutKeeps a0 (execHmacVer k job unit x s) := out_next
    (ciphOp_keeps h_s)

theorem execSha256_keeps {a0 k job unit x s} (h_s : Keeps a0 s) : OutKeeps a0 (execSha256 k job unit x s) := out_next
    (ciphOp_keeps h_s)

theorem execSha3256_keeps {a0 k job unit x s} (h_s : Keeps a0 s) : OutKeeps a0 (execSha3256 k job unit x s) := out_next
    (ciphOp_keeps h_s)

theorem execLinkRead_keeps {a0 link tag addr len host s} (h_s : Keeps a0 s) : OutKeeps a0 (execLinkRead link tag addr len
    host s) := by
  unfold execLinkRead
  refine out_next ?_
  split
  · rename_i v0 v1
    exact h_s
  · rename_i v2 v3 v4
    refine keeps_ite h_s (keeps_ite (linkCount_keeps h_s) ?_)
    extract_lets
    rename_i v5 v6 v7 v8 v9 v10
    clear_value v5 v6 v7
    have k11 : Keeps a0 v8 := by
      unfold v8
      refine keeps_foldl ?_ h_s
      intro y12 y13 h14
      split
      · rename_i v15 v16 v17
        exact dramTouch_keeps h14
      · rename_i v18 v19
        exact h14
    clear_value v8 v9 v10
    split
    · rename_i v20 v21 v22
      exact sendPkt_keeps (winRefused_keeps h_s)
    · rename_i v23 v24
      exact keeps_ite (sendPkt_keeps k11) (sendResps_keeps k11)

theorem touchSpot_keeps {a0 p len s} (h_s : Keeps a0 s) : Keeps a0 (touchSpot p len s) := by
  unfold touchSpot
  split
  · rename_i v0 v1
    exact dramTouch_keeps h_s
  · rename_i v2 v3
    exact h_s

theorem sendMsg_keeps {a0 q opc x w host s} (h_s : Keeps a0 s) : Keeps a0 (sendMsg q opc x w host s) := by
  unfold sendMsg
  split
  · rename_i v0 v1
    exact setWqe_keeps (touchSpot_keeps h_s)
  · rename_i v2 v3 v4
    extract_lets
    rename_i v5 v6 v7 v8 v9
    have k10 : Keeps a0 v5 := touchSpot_keeps h_s
    clear_value v5 v6
    have k11 : Keeps a0 v7 := tagName_keeps (setWqe_keeps k10)
    clear_value v7
    have k12 : Keeps a0 v8 := by
      unfold v8
      split
      · rename_i v13 v14 v15
        exact keeps_ite (putQp_keeps k11) k11
      · rename_i v16 v17
        exact k11
    clear_value v8 v9
    exact addTx_keeps k12

theorem execRmtSend_keeps {a0 t q host s} (h_s : Keeps a0 s) : OutKeeps a0 (execRmtSend t q host s) := out_next
    (beginWr_keeps (fun _ _ _ h3 => keeps_ite (sendRaw_keeps h3) (sendMsg_keeps h3)) (atTime_keeps h_s))

theorem execRmtWrite_keeps {a0 t q host s} (h_s : Keeps a0 s) : OutKeeps a0 (execRmtWrite t q host s) := out_next
    (beginWr_keeps (fun _ _ _ h3 => sendMsg_keeps h3) (atTime_keeps h_s))

theorem answerRead_keeps {a0 q x h p host s} (h_s : Keeps a0 s) : Keeps a0 (answerRead q x h p host s) := by
  unfold answerRead
  extract_lets
  rename_i v0 v1 v2 v3 v4 v5 v6
  clear_value v0 v1 v2 v3
  have k7 : Keeps a0 v4 := touchSpot_keeps h_s
  clear_value v4 v5
  have k8 : Keeps a0 v6 := addTx_keeps k7
  clear_value v6
  exact keeps_ite (sendNak_keeps k8) k8

theorem takeData_keeps {a0 q x h payload host s} (h_s : Keeps a0 s) : Keeps a0 (takeData q x h payload host s) := by
  unfold takeData
  extract_lets
  rename_i v0 v1 v2 vInto v3
  have k4 : ∀ y5_0, Keeps a0 y5_0 → Keeps a0 (v0 y5_0) := by
    intro y5_0 y5h0
    unfold v0
    split
    · rename_i v6 v7 v8
      exact putQp_keeps y5h0
    · rename_i v9 v10
      exact y5h0
  clear_value v0
  have k11 : ∀ y12_0, Keeps a0 y12_0.1 → Keeps a0 (v1 y12_0) := by
    intro y12_0 y12h0
    unfold v1
    exact ackAfter_keeps (answerFlushes_keeps y12h0)
  clear_value v1
  have k13 : Keeps a0 v2 := sendNak_keeps h_s
  clear_value v2
  have k14 : Keeps a0 v3 := by
    unfold v3
    exact k4 _ h_s
  clear_value v3
  split
  · rename_i v15 v16
    refine keeps_ite ?_ (keeps_ite (k11 _ (k4 _ h_s)) ?_)
    · split
      · rename_i v17 v18
        exact sendNak_keeps h_s
      · rename_i v19 v20 v21
        exact k11 _ (rxExchange_keeps h_s _ v21)
    · split
      · rename_i v22 v23
        exact sendNak_keeps h_s
      · rename_i v24 v25 v26
        refine keeps_ite (sendNak_keeps h_s) (keeps_ite ?_ (k11 _ (countRecv_keeps (k4 _ (placeAt_keeps h_s)))))
        extract_lets
        rename_i v27
        have k28 : Keeps a0 v27.2 := by
          unfold v27
          exact enterError_keeps k13
        clear_value v27
        exact settle_keeps k28
  · rename_i v29 v30
    split
    · rename_i v31 v32 v33
      exact refuseKey_keeps h_s
    · rename_i v34 v35 v36
      refine keeps_ite (sendNak_keeps h_s) (keeps_ite ?_ (k11 _ (countWrite_keeps (k4 _ (placeAt_keeps h_s)))))
      split
      · rename_i v37 v38
        exact sendNak_keeps h_s
      · rename_i v39 v40 v41
        exact k11 _ (countRecv_keeps (k4 _ (placeAt_keeps h_s)))
  · rename_i v42 v43
    split
    · rename_i v44 v45 v46
      exact refuseKey_keeps h_s
    · rename_i v47 v48 v49
      exact keeps_ite (sendNak_keeps h_s) (k11 _ (answerRead_keeps (k4 _ h_s)))
  · rename_i v50 v51
    exact keeps_ite (sendNak_keeps h_s) (k11 _ (takeResp_keeps (k4 _ h_s)))
  · rename_i v52 v53
    refine k11 _ ?_
    split
    · rename_i v54 v55 v56
      exact putQp_keeps k14
    · rename_i v57 v58
      exact k14
  · rename_i v59 v60 v61 v62 v63 v64
    exact k11 _ (takeFlushResp_keeps (k4 _ h_s))

theorem rmtReceive_keeps {a0 port ce b host s} (h_s : Keeps a0 s) : Keeps a0 (rmtReceive port ce b host s) := by
  unfold rmtReceive
  extract_lets
  rename_i v0 v1 v2 v3 v4 v5 v6 v7
  clear_value v0 v1
  have k8 : Keeps a0 v2 := rmtCount_keeps h_s
  clear_value v2 v3 v4 v5
  have k9 : Keeps a0 v6 := perfEvent_keeps k8
  clear_value v6
  have k10 : Keeps a0 v7 := keeps_ite (ethCount_keeps (sendCnp_keeps k9)) k9
  clear_value v7
  refine keeps_ite (penBit_keeps (rmtCount_keeps h_s)) (keeps_ite (penBit_keeps (rmtCount_keeps k8)) ?_)
  split
  · rename_i v11 v12
    exact rmtCount_keeps k8
  · rename_i v13 v14 v15
    refine keeps_ite (rmtCount_keeps k8) (keeps_ite (errInfo_keeps (penBit_keeps (rmtCount_keeps k8))) ?_)
    refine keeps_ite (keeps_ite (takeAck0_keeps k8) (takeNak_keeps k8)) ?_
    refine keeps_ite (takeCnp_keeps k8) (keeps_ite (sendNak_keeps k8) ?_)
    extract_lets
    rename_i v16 v17
    clear_value v16
    have k18 : Keeps a0 v17.2 := police_keeps k10
    clear_value v17
    refine keeps_ite (sendAck_keeps (rmtCount_keeps k10)) ?_
    refine keeps_ite (rmtCount_keeps k10) (keeps_ite k10 (keeps_ite k18 ?_))
    split
    · rename_i v19 v20 v21
      exact takeData_keeps k18
    · rename_i v22 v23
      exact k18

theorem execRmtPacketReceive_keeps {a0 t sub ce bytes host s} (h_s : Keeps a0 s) : OutKeeps a0 (execRmtPacketReceive t sub
    ce bytes host s) := by
  unfold execRmtPacketReceive
  refine out_next ?_
  extract_lets
  rename_i v0
  have k1 : Keeps a0 v0 := atTime_keeps h_s
  clear_value v0
  exact keeps_ite (rmtReceive_keeps k1) k1

theorem execEthFrameReceive_keeps {a0 t sub fec levels bytes host s} (h_s : Keeps a0 s) : OutKeeps a0
    (execEthFrameReceive t sub fec levels bytes host s) := by
  unfold execEthFrameReceive
  refine out_next ?_
  extract_lets
  rename_i v0 v1 v2 v3 v4 v5
  have k6 : Keeps a0 v0 := atTime_keeps h_s
  clear_value v0 v1
  have k7 : Keeps a0 v2 := ethCount_keeps (ethCount_keeps (ethCount_keeps k6))
  clear_value v2
  have k8 : Keeps a0 v3 := keeps_foldl (fun _ _ h11 => rxLevel_keeps h11) k7
  clear_value v3 v4
  have k12 : Keeps a0 v5 := ethCount_keeps k8
  clear_value v5
  refine keeps_ite k6 ?_
  refine keeps_ite (penBit_keeps (ethCount_keeps k8)) (keeps_ite k8 (keeps_ite (takePfc_keeps k8) ?_))
  split
  · rename_i v13 v14 v15
    exact keeps_ite k12 (takeRaw_keeps k12)
  · rename_i v16 v17
    split
    · rename_i v18 v19 v20 v21 v22 v23
      exact keeps_ite (takeRaw_keeps k8) (keeps_ite k8 (keeps_ite (penBit_keeps (rmtCount_keeps k8)) (rmtReceive_keeps k8)))
    · rename_i v24 v25
      exact takeRaw_keeps k8

theorem execHostWindowAccess_keeps {a0 func off len data s} (h_s : Keeps a0 s) : OutKeeps a0 (execHostWindowAccess func off
    len data s) := by
  unfold execHostWindowAccess
  refine out_next ?_
  extract_lets
  rename_i v0 v1
  clear_value v0
  have k2 : ∀ z0 z1, Keeps a0 z1 → Keeps a0 (v1 z0 z1) := by
    intro y3 y4 h5
    unfold v1
    exact keeps_ite h5 (emit_keeps h5)
  clear_value v1
  refine keeps_ite h_s (keeps_ite ?_ (k2 _ _ (penBit_keeps h_s)))
  split
  · rename_i v6 v7
    exact windowPut_keeps h_s
  · rename_i v8
    exact k2 _ _ (dramTouch_keeps h_s)

theorem ckRecv_keeps {a0 t m f s} (h_f : ∀ y0 y1 y2, Keeps a0 y2 → Keeps a0 (f y0 y1 y2)) (h_s : Keeps a0 s) : Keeps a0
    (ckRecv t m f s) := by
  unfold ckRecv
  refine ckTake_keeps ?_ h_s
  intro y0 y1 y2 h3
  split
  · rename_i v4 v5
    exact h_f _ _ _ h3
  · rename_i v6
    exact h3

theorem createArea_keeps {a0 s} (h_s : Keeps a0 s) : Keeps a0 (createArea s) := by
  unfold createArea
  split
  · rename_i v0 v1
    exact h_s
  · rename_i v2 v3 v4
    extract_lets
    rename_i v5
    clear_value v5
    split
    · rename_i v6 v7 v8 v9
      extract_lets
      rename_i v10
      clear_value v10
      exact newDeviceKey_keeps (putNs_keeps (setCkpt_keeps (keeps_of_snd v9 (freeBytes_keeps h_s))))

theorem execGroupForm_keeps {a0 k desc s} (h_s : Keeps a0 s) : OutKeeps a0 (execGroupForm k desc s) := by
  unfold execGroupForm
  refine out_next (runSvc_keeps ?_ h_s)
  intro y0 y1 h2
  refine end_ite (end_done h2) ?_
  split
  · rename_i v3 v4 v5
    exact end_done h2
  · rename_i v6 v7
    extract_lets
    rename_i v8 v9 v10
    have k11 : Keeps a0 v8 := keeps_ite h2 (createArea_keeps h2)
    clear_value v8 v9
    have k12 : Keeps a0 v10 := setCkptMode_keeps (setCkpt_keeps k11)
    clear_value v10
    exact end_wait (ckTell_keeps k12)

theorem formFails_keeps {a0 status result s} (h_s : Keeps a0 s) : Keeps a0 (formFails status result s) := finishCmds_keeps
    (dropGroup_keeps h_s)

theorem execHello_keeps {a0 t m uid body s} (h_s : Keeps a0 s) : OutKeeps a0 (execHello t m uid body s) := by
  unfold execHello
  refine out_next (ckTake_keeps ?_ h_s)
  intro y0 y1 y2 h3
  refine keeps_ite h3 ?_
  extract_lets
  rename_i v4
  clear_value v4
  exact keeps_ite (setCkpt_keeps h3) (formFails_keeps h3)

theorem execGroupFormTimeout_keeps {a0 t s} (h_s : Keeps a0 s) : OutKeeps a0 (execGroupFormTimeout t s) := by
  unfold execGroupFormTimeout
  refine out_next ?_
  extract_lets
  rename_i v0
  have k1 : Keeps a0 v0 := atTime_keeps h_s
  clear_value v0
  split
  · rename_i v2 v3 v4
    exact keeps_ite (formFails_keeps k1) k1
  · rename_i v5 v6
    exact k1

theorem formedOnly_keeps {a0 s f} (h_s : Keeps a0 s) (h_f : ∀ y0, EndKeeps a0 (f y0)) : EndKeeps a0 (formedOnly s f) := by
  unfold formedOnly
  split
  · rename_i v0 v1 v2
    exact end_ite (h_f _) (end_done h_s)
  · rename_i v3 v4
    exact end_done h_s

theorem execGroupShrink_keeps {a0 k s} (h_s : Keeps a0 s) : OutKeeps a0 (execGroupShrink k s) := out_next (runSvc_keeps
    (fun _ _ h2 => formedOnly_keeps h2 (fun _ => end_wait h2)) h_s)

theorem execGroupLeave_keeps {a0 k s} (h_s : Keeps a0 s) : OutKeeps a0 (execGroupLeave k s) := out_next (runSvc_keeps (fun
    _ _ h2 => formedOnly_keeps h2 (fun _ => end_ite (end_done h2) (end_done (dropGroup_keeps (finishCmds_keeps h2))))) h_s)

theorem areaCheck_keeps {a0 s} (h_s : Keeps a0 s) : Keeps a0 (areaCheck s) := keeps_ite (penBit_keeps h_s) h_s

theorem landUnit_keeps {a0 u s} (h_s : Keeps a0 s) : Keeps a0 (landUnit u s) := by
  unfold landUnit
  extract_lets
  rename_i v0
  clear_value v0
  exact areaCheck_keeps (ckCount_keeps (setCkpt_keeps h_s))

theorem landManifest_keeps {a0 b s} (h_s : Keeps a0 s) : Keeps a0 (landManifest b s) := areaCheck_keeps (setCkpt_keeps h_s)

theorem failLater_keeps {a0 i reason s} (h_s : Keeps a0 s) : Keeps a0 (failLater i reason s) := by
  unfold failLater
  split
  · rename_i v0 v1 v2
    exact keeps_ite (putSess_keeps h_s) h_s
  · rename_i v3 v4
    exact h_s

theorem execSessionOpen_keeps {a0 k s} (h_s : Keeps a0 s) : OutKeeps a0 (execSessionOpen k s) := by
  unfold execSessionOpen
  refine out_next (runSvc_keeps ?_ h_s)
  intro y0 y1 h2
  refine formedOnly_keeps h2 ?_
  intro y3
  extract_lets
  rename_i v4 v5
  clear_value v4 v5
  refine end_ite (end_done h2) ?_
  refine end_ite (end_ite (end_done h2) (end_done (putSess_keeps h2))) (end_ite (end_done h2) ?_)
  split
  · rename_i v6 v7 v8
    exact end_done (putSess_keeps h2)
  · rename_i v9 v10
    exact end_done h2

theorem execSessionStart_keeps {a0 k s} (h_s : Keeps a0 s) : OutKeeps a0 (execSessionStart k s) := by
  unfold execSessionStart
  refine out_next (runSvc_keeps ?_ h_s)
  intro y0 y1 h2
  refine formedOnly_keeps h2 ?_
  intro y3
  split
  · rename_i v4 v5
    exact end_done h2
  · rename_i v6 v7 v8
    refine end_ite (end_done h2) (end_ite (end_done h2) ?_)
    extract_lets
    rename_i v9 v10 v11 v12
    clear_value v9 v10 v11 v12
    exact end_ite (end_done h2) (end_ite (end_wait (putSess_keeps h2)) (end_wait (putSess_keeps h2)))

theorem execSessionAbort_keeps {a0 k s} (h_s : Keeps a0 s) : OutKeeps a0 (execSessionAbort k s) := by
  unfold execSessionAbort
  refine out_next (runSvc_keeps ?_ h_s)
  intro y0 y1 h2
  split
  · rename_i v3 v4 v5
    exact end_ite (end_wait (failLater_keeps h2)) (end_done h2)
  · rename_i v6 v7
    exact end_done h2

theorem execSessionClose_keeps {a0 k s} (h_s : Keeps a0 s) : OutKeeps a0 (execSessionClose k s) := by
  unfold execSessionClose
  refine out_next (runSvc_keeps ?_ h_s)
  intro y0 y1 h2
  split
  · rename_i v3 v4 v5
    exact end_ite (end_done h2) (end_done (setCkpt_keeps h2))
  · rename_i v6 v7
    exact end_done h2

theorem execCaptureTimeout_keeps {a0 t s} (h_s : Keeps a0 s) : OutKeeps a0 (execCaptureTimeout t s) := by
  unfold execCaptureTimeout
  refine out_next ?_
  extract_lets
  rename_i v0
  have k1 : Keeps a0 v0 := atTime_keeps h_s
  clear_value v0
  refine keeps_foldl ?_ k1
  intro y2 y3 h4
  extract_lets
  rename_i v5
  clear_value v5
  split
  · rename_i v6 v7
    exact h4
  · rename_i v8 v9 v10
    exact keeps_ite (failLater_keeps h4) h4

theorem modRegion_keeps {a0 i j f s} (h_s : Keeps a0 s) : Keeps a0 (modRegion i j f s) := by
  unfold modRegion
  split
  · rename_i v0 v1 v2
    exact putSess_keeps h_s
  · rename_i v3 v4
    exact h_s

theorem captureRegion_keeps {a0 i j x1 x2} (h_x2 : Keeps a0 x2) : Keeps a0 (captureRegion i j x1 x2) := by
  induction x1 generalizing x2 with
  | zero =>
    unfold captureRegion
    exact h_x2
  | succ x1 ih =>
    unfold captureRegion
    split
    · rename_i v0 v1
      exact h_x2
    · rename_i v2 v3 v4
      split
      · rename_i v5 v6
        exact h_x2
      · rename_i v7 v8 v9
        extract_lets
        rename_i v10 v11 v12 v13
        clear_value v10 v11 v12 v13
        refine keeps_ite (failLater_keeps h_x2) (keeps_ite h_x2 ?_)
        split
        · rename_i v14 v15
          exact h_x2
        · rename_i v16 v17 v18
          exact ih (setCkpt_keeps (modRegion_keeps (issueRead_keeps h_x2 _ v18)))

theorem pumpCapture_keeps {a0 s} (h_s : Keeps a0 s) : Keeps a0 (pumpCapture s) := keeps_ite h_s (keeps_foldl (fun _ _ h2 =>
    keeps_ite (keeps_foldl (fun _ _ h5 => captureRegion_keeps h5) h2) h2) h_s)

theorem drainCap_keeps {a0 s} (h_s : Keeps a0 s) : Keeps a0 (drainCap s) := by
  unfold drainCap
  extract_lets
  rename_i v0
  clear_value v0
  refine keeps_foldl ?_ (setFeed_keeps h_s)
  intro y1 y2 h3
  split
  · rename_i v4 v5
    exact h3
  · rename_i v6 v7 v8
    exact keeps_ite h3 (keeps_ite (modRegion_keeps h3) (failLater_keeps h3))

theorem execReadResp_keeps {a0 t link tag status off data s} (h_s : Keeps a0 s) : OutKeeps a0 (execReadResp t link tag
    status off data s) := out_next (pumpCapture_keeps (drainCap_keeps (readResp_keeps h_s)))

theorem execCaptureReadTimeout_keeps {a0 t link tag s} (h_s : Keeps a0 s) : OutKeeps a0 (execCaptureReadTimeout t link tag
    s) := out_next (pumpCapture_keeps (drainCap_keeps (captureReadTimeout_keeps h_s)))

theorem releaseAll_keeps {a0 i x s} (h_s : Keeps a0 s) : Keeps a0 (releaseAll i x s) := by
  unfold releaseAll
  extract_lets
  rename_i v0
  clear_value v0
  exact keeps_foldl (fun _ _ h3 => keeps_foldl (fun _ _ h6 => sendPkt_keeps h6) h3) h_s

theorem edgeRelease_keeps {a0 i s} (h_s : Keeps a0 s) : Keeps a0 (edgeRelease i s) := by
  unfold edgeRelease
  split
  · rename_i v0 v1
    exact h_s
  · rename_i v2 v3 v4
    extract_lets
    rename_i v5 v6
    clear_value v5
    have k7 : Keeps a0 v6 := by
      unfold v6
      refine keeps_foldl ?_ h_s
      intro y8 y9 h10
      extract_lets
      rename_i v11 v12
      have k13 : Keeps a0 v11 := windowPut_keeps h10
      clear_value v11 v12
      exact sendOnPort_keeps (modRegion_keeps k13)
    clear_value v6
    split
    · rename_i v14 v15
      exact k7
    · rename_i v16 v17 v18
      exact keeps_ite (releaseAll_keeps (putSess_keeps k7)) k7

theorem edgeCompare_keeps {a0 i s} (h_s : Keeps a0 s) : Keeps a0 (edgeCompare i s) := by
  unfold edgeCompare
  split
  · rename_i v0 v1
    exact h_s
  · rename_i v2 v3 v4
    refine keeps_foldl ?_ h_s
    intro y5 y6 h7
    extract_lets
    rename_i v8 v9
    exact keeps_ite h7 (keeps_ite (keeps_ite (modRegion_keeps h7) (failLater_keeps (errInfo_keeps (penBit_keeps
        (ckCount_keeps h7))))) (keeps_ite (modRegion_keeps h7) h7))

theorem sendUnit_keeps {a0 i x z j s} (h_s : Keeps a0 s) : Keeps a0 (sendUnit i x z j s) := by
  unfold sendUnit
  split
  · rename_i v0 v1
    exact h_s
  · rename_i v2 v3 v4
    extract_lets
    rename_i v5 v6 v7
    clear_value v5 v6 v7
    refine keeps_ite (setCkpt_keeps h_s) ?_
    split
    · rename_i v8 v9 v10
      exact ckCount_keeps (ckSend_keeps h_s)
    · rename_i v11 v12
      exact h_s

theorem startStriping_keeps {a0 i s} (h_s : Keeps a0 s) : Keeps a0 (startStriping i s) := by
  unfold startStriping
  split
  · rename_i v0 v1
    exact h_s
  · rename_i v2 v3 v4
    extract_lets
    rename_i v5 v6 v7 v8
    clear_value v5 v6 v7 v8
    exact keeps_foldl (fun _ _ h11 => sendUnit_keeps h11) (putSess_keeps h_s)

theorem tryManifest_keeps {a0 i s} (h_s : Keeps a0 s) : Keeps a0 (tryManifest i s) := by
  unfold tryManifest
  split
  · rename_i v0 v1 v2 v3 v4 v5
    refine keeps_ite h_s ?_
    extract_lets
    rename_i v6 v7 v8 v9
    clear_value v6 v7 v8
    have k10 : Keeps a0 v9 := putSess_keeps (landManifest_keeps h_s)
    clear_value v9
    refine keeps_ite (failLater_keeps h_s) (keeps_ite (failLater_keeps h_s) (keeps_foldl ?_ k10))
    intro y11 y12 h13
    split
    · rename_i v14 v15 v16
      exact ckSend_keeps h13
    · rename_i v17 v18
      exact h13
  · rename_i v19 v20 v21
    exact h_s

theorem unitLanded_keeps {a0 i z j s} (h_s : Keeps a0 s) : Keeps a0 (unitLanded i z j s) := by
  unfold unitLanded
  split
  · rename_i v0 v1 v2
    exact tryManifest_keeps (putSess_keeps h_s)
  · rename_i v3 v4
    exact h_s

theorem execUnit_keeps {a0 t m digest data s} (h_s : Keeps a0 s) : OutKeeps a0 (execUnit t m digest data s) := out_next
    (ckRecv_keeps (fun _ _ _ h3 => setCkpt_keeps h3) h_s)

theorem execUnitLand_keeps {a0 t i s} (h_s : Keeps a0 s) : OutKeeps a0 (execUnitLand t i s) := by
  unfold execUnitLand
  refine out_next ?_
  extract_lets
  rename_i v0 v1
  have k2 : Keeps a0 v0 := atTime_keeps h_s
  clear_value v0
  have k3 : Keeps a0 v1 := setCkpt_keeps k2
  clear_value v1
  split
  · rename_i v4 v5
    exact k2
  · rename_i v6 v7 v8
    extract_lets
    rename_i v9 v10 v11 v12
    clear_value v9 v10
    have k13 : Keeps a0 v11 := keeps_ite (landUnit_keeps k3) k3
    clear_value v11 v12
    split
    · rename_i v14 v15 v16
      exact ckSend_keeps k13
    · rename_i v17 v18
      split
      · rename_i v19 v20 v21
        exact keeps_ite (unitLanded_keeps k13) (failLater_keeps k13)
      · rename_i v22 v23
        exact k13

theorem execUnitAck_keeps {a0 t m code digest s} (h_s : Keeps a0 s) : OutKeeps a0 (execUnitAck t m code digest s) := by
  unfold execUnitAck
  refine out_next (ckRecv_keeps ?_ h_s)
  intro y0 y1 y2 h3
  split
  · rename_i v4 v5
    exact h3
  · rename_i v6 v7 v8 v9
    extract_lets
    rename_i v10 v11
    clear_value v10 v11
    split
    · rename_i v12 v13
      exact h3
    · rename_i v14 v15 v16
      exact keeps_ite h3 (keeps_ite (failLater_keeps h3) (keeps_ite (unitLanded_keeps h3) (keeps_ite (failLater_keeps
          (errInfo_keeps h3)) (sendUnit_keeps (ckCount_keeps (putSess_keeps h3))))))

theorem execManifest_keeps {a0 t m body s} (h_s : Keeps a0 s) : OutKeeps a0 (execManifest t m body s) := by
  unfold execManifest
  refine out_next (ckRecv_keeps ?_ h_s)
  intro y0 y1 y2 h3
  extract_lets
  rename_i v4 v5 v6 v7
  clear_value v4 v5 v6
  have k8 : Keeps a0 v7 := keeps_ite (landManifest_keeps h3) h3
  clear_value v7
  exact ckSend_keeps k8

theorem execManifestAck_keeps {a0 t m code s} (h_s : Keeps a0 s) : OutKeeps a0 (execManifestAck t m code s) := by
  unfold execManifestAck
  refine out_next (ckRecv_keeps ?_ h_s)
  intro y0 y1 y2 h3
  split
  · rename_i v4 v5
    exact h3
  · rename_i v6 v7 v8 v9
    exact keeps_ite h3 (keeps_ite (putSess_keeps h3) (failLater_keeps h3))

theorem execLanded_keeps {a0 t m s} (h_s : Keeps a0 s) : OutKeeps a0 (execLanded t m s) := out_next (ckRecv_keeps (fun _ _
    _ h3 => setCkpt_keeps h3) h_s)

theorem execFailed_keeps {a0 t m x2 s} (h_s : Keeps a0 s) : OutKeeps a0 (execFailed t m x2 s) := out_next (ckRecv_keeps
    (fun _ _ _ h3 => keeps_foldl (fun _ _ h6 => keeps_ite (failLater_keeps h6) h6) h3) h_s)

theorem execLost_keeps {a0 t m rank s} (h_s : Keeps a0 s) : OutKeeps a0 (execLost t m rank s) := out_next (ckRecv_keeps
    (fun _ _ _ h3 => keeps_ite (setCkpt_keeps h3) h3) h_s)

theorem execProgress_keeps {a0 t m s} (h_s : Keeps a0 s) : OutKeeps a0 (execProgress t m s) := out_next (ckRecv_keeps (fun
    _ _ _ h3 => h3) h_s)

theorem edgeForm_keeps {a0 s} (h_s : Keeps a0 s) : Keeps a0 (edgeForm s) := by
  unfold edgeForm
  split
  · rename_i v0 v1
    exact h_s
  · rename_i v2 v3 v4
    refine keeps_ite h_s ?_
    extract_lets
    rename_i v5 v6 v7
    clear_value v5
    have k8 : Keeps a0 v6 := setReg64_keeps h_s
    clear_value v6
    have k9 : Keeps a0 v7 := setCkptMode_keeps (setCkpt_keeps k8)
    clear_value v7
    exact finishCmds_keeps k9

theorem loseMember_keeps {a0 rank s} (h_s : Keeps a0 s) : Keeps a0 (loseMember rank s) := by
  unfold loseMember
  split
  · rename_i v0 v1
    exact h_s
  · rename_i v2 v3 v4
    split
    · rename_i v5 v6
      exact h_s
    · rename_i v7 v8 v9
      refine keeps_ite h_s ?_
      extract_lets
      rename_i v10 v11 v12 v13
      have k14 : Keeps a0 v10 := setCkpt_keeps h_s
      clear_value v10
      have k15 : Keeps a0 v11 := errInfo_keeps (penBit_keeps k14)
      clear_value v11
      have k16 : Keeps a0 v12 := ckTell_keeps k15
      clear_value v12 v13
      exact setCkpt_keeps k16

theorem edgeLost_keeps {a0 s} (h_s : Keeps a0 s) : Keeps a0 (edgeLost s) := by
  unfold edgeLost
  extract_lets
  rename_i v0 v1
  clear_value v0 v1
  exact keeps_foldl (fun _ _ h4 => loseMember_keeps h4) (setCkpt_keeps h_s)

theorem edgeShrink_keeps {a0 s} (h_s : Keeps a0 s) : Keeps a0 (edgeShrink s) := by
  unfold edgeShrink
  refine keeps_foldl ?_ h_s
  intro y0 y1 h2
  split
  · rename_i v3 v4
    exact h2
  · rename_i v5 v6 v7
    refine keeps_ite (complete_keeps h2) ?_
    extract_lets
    rename_i v8
    clear_value v8
    exact complete_keeps (setCkpt_keeps h2)

theorem commitSession_keeps {a0 i x g s} (h_s : Keeps a0 s) : Keeps a0 (commitSession i x g s) := by
  unfold commitSession
  extract_lets
  rename_i v0 v1 v2 v3 v4 v5 v6 v7 v8 v9 v10 v11
  clear_value v0
  have k12 : Keeps a0 v1 := setCkpt_keeps h_s
  clear_value v1
  have k13 : Keeps a0 v2 := putSess_keeps k12
  clear_value v2
  have k14 : Keeps a0 v3 := setReg64_keeps k13
  clear_value v3
  have k15 : Keeps a0 v4 := penBit_keeps (ckCount_keeps k14)
  clear_value v4
  have k16 : Keeps a0 v5 := keeps_ite (penBit_keeps k15) k15
  clear_value v5 v6 v7 v8 v9 v10
  have k17 : Keeps a0 v11 := setCkpt_keeps k16
  clear_value v11
  exact finishCmds_keeps (areaCheck_keeps k17)

theorem edgeCommit_keeps {a0 i s} (h_s : Keeps a0 s) : Keeps a0 (edgeCommit i s) := by
  unfold edgeCommit
  split
  · rename_i v0 v1 v2 v3 v4 v5
    refine keeps_ite h_s ?_
    extract_lets
    rename_i v6
    clear_value v6
    exact keeps_ite (failSession_keeps h_s) (keeps_ite (commitSession_keeps h_s) h_s)
  · rename_i v7 v8 v9
    exact h_s

theorem edgeSession_keeps {a0 i s} (h_s : Keeps a0 s) : Keeps a0 (edgeSession i s) := by
  unfold edgeSession
  split
  · rename_i v0 v1
    exact h_s
  · rename_i v2 v3 v4
    extract_lets
    rename_i v5 v6 v7 v8 v9 v10
    have k11 : Keeps a0 v5 := keeps_memClear h_s
    clear_value v5
    have k12 : Keeps a0 v6 := keeps_ite (putSess_keeps k11) h_s
    clear_value v6
    have k13 : Keeps a0 v7 := by
      unfold v7
      split
      · rename_i v14 v15 v16
        exact keeps_ite (putSess_keeps k12) k12
      · rename_i v17 v18
        exact k12
    clear_value v7
    have k19 : Keeps a0 v8 := edgeRelease_keeps k13
    clear_value v8
    have k20 : Keeps a0 v9 := by
      unfold v9
      split
      · rename_i v21 v22 v23
        refine keeps_ite ?_ k13
        split
        · rename_i v24 v25 v26
          exact keeps_ite (putSess_keeps k19) k19
        · rename_i v27 v28
          exact k19
      · rename_i v29 v30
        exact k13
    clear_value v9
    have k31 : Keeps a0 v10 := by
      unfold v10
      split
      · rename_i v32 v33 v34
        exact keeps_ite (edgeCompare_keeps k20) k20
      · rename_i v35 v36
        exact k20
    clear_value v10
    split
    · rename_i v37 v38
      exact k31
    · rename_i v39 v40 v41
      split
      · rename_i v42 v43 v44
        exact keeps_ite (failSession_keeps k31) k31
      · rename_i v45 v46
        exact keeps_ite (startStriping_keeps k31) (keeps_ite (ckTell_keeps (putSess_keeps k31)) (keeps_ite
            (tryManifest_keeps k31) k31))

theorem edgeProgress_keeps {a0 s} (h_s : Keeps a0 s) : Keeps a0 (edgeProgress s) := keeps_ite h_s (keeps_foldl (fun _ _ h2
    => keeps_ite (ckTell_keeps h2) h2) h_s)

theorem edgeFails_keeps {a0 s} (h_s : Keeps a0 s) : Keeps a0 (edgeFails s) := by
  unfold edgeFails
  refine keeps_foldl ?_ h_s
  intro y0 y1 h2
  split
  · rename_i v3 v4 v5
    exact keeps_ite (failSession_keeps h2) h2
  · rename_i v6 v7
    exact h2

theorem edgeCapture_keeps {a0 s} (h_s : Keeps a0 s) : Keeps a0 (edgeCapture s) := by
  unfold edgeCapture
  extract_lets
  rename_i v0 v1 v2 v3
  clear_value v0
  have k4 : Keeps a0 v1 := edgeFails_keeps (edgeForm_keeps (edgeLost_keeps (setCkpt_keeps h_s)))
  clear_value v1
  have k5 : Keeps a0 v2 := keeps_foldl (fun _ _ h8 => edgeSession_keeps h8) k4
  clear_value v2
  have k9 : Keeps a0 v3 := keeps_foldl (fun _ _ h12 => edgeCommit_keeps h12) k5
  clear_value v3
  exact pumpCapture_keeps (edgeProgress_keeps (edgeShrink_keeps k9))

theorem askUnit_keeps {a0 b z j s} (h_s : Keeps a0 s) : Keeps a0 (askUnit b z j s) := by
  unfold askUnit
  extract_lets
  rename_i v0 v1 v2
  clear_value v0 v1
  have k3 : ∀ z0, Keeps a0 (v2 z0) := by
    intro y4
    unfold v2
    exact setCkpt_keeps h_s
  clear_value v2
  split
  · rename_i v5 v6
    exact h_s
  · rename_i v7 v8 v9
    exact keeps_ite h_s (keeps_ite (k3 _) (keeps_ite (k3 _) (keeps_ite h_s (ckSend_keeps (setCkpt_keeps h_s)))))

theorem askStripes_keeps {a0 b zs s} (h_s : Keeps a0 s) : Keeps a0 (askStripes b zs s) := keeps_foldl (fun _ _ h2 =>
    forN_keeps h2 (fun _ _ h5 => askUnit_keeps h5)) h_s

theorem noteDivergence_keeps {a0 i s} (h_s : Keeps a0 s) : Keeps a0 (noteDivergence i s) := errInfo_keeps (penBit_keeps
    (ckCount_keeps (logEvent_keeps h_s)))

theorem setScan_keeps {a0 s f} (h_s : Keeps a0 s) : Keeps a0 (setScan s f) := setCkpt_keeps h_s

theorem giveVerdict_keeps {a0 step r reason shard s} (h_s : Keeps a0 s) : Keeps a0 (giveVerdict step r reason shard s) := by
  unfold giveVerdict
  extract_lets
  rename_i v0
  clear_value v0
  exact ckTell_keeps (setScan_keeps h_s)

theorem shardVerdict_keeps {a0 b x1 x2 x3} (h_x3 : Keeps a0 x3) : Keeps a0 (shardVerdict b x1 x2 x3) := by
  induction x1 generalizing x2 x3 with
  | zero =>
    unfold shardVerdict
    exact giveVerdict_keeps h_x3
  | succ x1 ih =>
    unfold shardVerdict
    split
    · rename_i v0 v1 v2 v3
      exact ih (keeps_ite (noteDivergence_keeps h_x3) h_x3)
    · rename_i v4 v5 v6
      exact giveVerdict_keeps h_x3

theorem verifyRank_keeps {a0 g uids step r s} (h_s : Keeps a0 s) : Keeps a0 (verifyRank g uids step r s) := by
  unfold verifyRank
  refine keeps_ite h_s ?_
  split
  · rename_i v0 v1
    exact giveVerdict_keeps h_s
  · rename_i v2 v3 v4
    extract_lets
    rename_i v5 v6
    clear_value v5
    have k7 : Keeps a0 v6 := askStripes_keeps h_s
    clear_value v6
    exact keeps_ite (shardVerdict_keeps k7) k7
  · rename_i v8 v9 v10 v11 v12
    exact giveVerdict_keeps (noteDivergence_keeps h_s)

theorem clearFetched_keeps {a0 s} (h_s : Keeps a0 s) : Keeps a0 (clearFetched s) := keeps_ite h_s (setCkpt_keeps h_s)

theorem endScan_keeps {a0 sel newer s} (h_s : Keeps a0 s) : Keeps a0 (endScan sel newer s) := by
  unfold endScan
  extract_lets
  rename_i v0 v1 v2 v3
  clear_value v0 v1
  have k4 : Keeps a0 v2 := setCkpt_keeps h_s
  clear_value v2
  have k5 : Keeps a0 v3 := by
    unfold v3
    refine keeps_foldl ?_ k4
    intro y6 y7 h8
    refine keeps_ite (complete_keeps h8) ?_
    extract_lets
    rename_i v9
    have k10 : Keeps a0 v9 := dmaWrite_keeps h8
    clear_value v9
    split
    · rename_i v11 v12
      exact complete_keeps k10
    · rename_i v13
      exact complete_keeps k10
  clear_value v3
  exact clearFetched_keeps k5

theorem scanFrom_keeps {a0 g x1 x2 x3} (h_x3 : Keeps a0 x3) : Keeps a0 (scanFrom g x1 x2 x3) := by
  induction x1 generalizing x2 x3 with
  | nil =>
    unfold scanFrom
    exact endScan_keeps h_x3
  | cons e x1 ih =>
    unfold scanFrom
    split
    · rename_i v0 v1
      exact ih (keeps_ite h_x3 (setScan_keeps h_x3))
    · rename_i v2 v3 v4
      extract_lets
      rename_i v5 v6 v7
      clear_value v5
      have k8 : Keeps a0 v6 := keeps_foldl (fun _ _ h11 => verifyRank_keeps h11) h_x3
      clear_value v6 v7
      exact keeps_ite k8 (keeps_ite (endScan_keeps k8) (ih k8))

theorem scanTry_keeps {a0 s} (h_s : Keeps a0 s) : Keeps a0 (scanTry s) := by
  unfold scanTry
  split
  · rename_i v0 v1
    exact h_s
  · rename_i v2 v3 v4
    extract_lets
    rename_i v5 v6
    clear_value v5 v6
    exact keeps_ite h_s (scanFrom_keeps h_s)

theorem execRestoreScan_keeps {a0 k s} (h_s : Keeps a0 s) : OutKeeps a0 (execRestoreScan k s) := by
  unfold execRestoreScan
  extract_lets
  rename_i v0
  have k1 : Keeps a0 v0 := by
    unfold v0
    refine runSvc_keeps ?_ h_s
    intro y2 y3 h4
    refine formedOnly_keeps h4 ?_
    intro y5
    refine end_ite (end_done h4) ?_
    extract_lets
    rename_i v6 v7
    clear_value v6 v7
    exact end_wait (ckTell_keeps (setScan_keeps h4))
  clear_value v0
  exact out_next (scanTry_keeps k1)

theorem execVerdict_keeps {a0 t m reason shard steps s} (h_s : Keeps a0 s) : OutKeeps a0 (execVerdict t m reason shard
    steps s) := by
  unfold execVerdict
  refine out_next (ckRecv_keeps ?_ h_s)
  intro y0 y1 y2 h3
  extract_lets
  rename_i v4 v5
  clear_value v4
  have k6 : Keeps a0 v5 := keeps_ite (setScan_keeps h3) (keeps_ite h3 (setScan_keeps h3))
  clear_value v5
  exact scanTry_keeps k6

theorem writeShard_keeps {a0 i j r d s} (h_s : Keeps a0 s) : Keeps a0 (writeShard i j r d s) := by
  unfold writeShard
  split
  · rename_i v0 v1
    exact h_s
  · rename_i v2 v3 v4 v5
    extract_lets
    rename_i v6
    have k7 : Keeps a0 v6 := sendWrites_keeps h_s
    clear_value v6
    exact modRegion_keeps k7

theorem restoreTry_keeps {a0 i s} (h_s : Keeps a0 s) : Keeps a0 (restoreTry i s) := by
  unfold restoreTry
  split
  · rename_i v0 v1
    exact h_s
  · rename_i v2 v3 v4
    split
    · rename_i v5 v6
      exact h_s
    · rename_i v7 v8 v9
      refine keeps_ite h_s (keeps_foldl ?_ h_s)
      intro y10 y11 h12
      refine keeps_ite h12 ?_
      extract_lets
      rename_i v13 v14
      clear_value v13
      have k15 : Keeps a0 v14 := askStripes_keeps h12
      clear_value v14
      refine keeps_ite k15 ?_
      split
      · rename_i v16 v17 v18
        exact failLater_keeps k15
      · rename_i v19 v20 v21 v22
        extract_lets
        rename_i v23
        have k24 : Keeps a0 v23 := keeps_ite (noteDivergence_keeps k15) k15
        clear_value v23
        exact writeShard_keeps (ckCount_keeps k24)

theorem exportTry_keeps {a0 c s} (h_s : Keeps a0 s) : Keeps a0 (exportTry c s) := by
  unfold exportTry
  split
  · rename_i v0 v1
    exact complete_keeps h_s
  · rename_i v2 v3 v4
    extract_lets
    rename_i v5 v6
    clear_value v5
    have k7 : Keeps a0 v6 := askStripes_keeps h_s
    clear_value v6
    refine keeps_ite k7 ?_
    split
    · rename_i v8 v9 v10
      exact complete_keeps k7
    · rename_i v11 v12 v13 v14
      extract_lets
      rename_i v15 v16
      have k17 : Keeps a0 v15 := keeps_ite (noteDivergence_keeps k7) k7
      clear_value v15 v16
      exact complete_keeps (dmaWrite_keeps (ckCount_keeps k17))

theorem fetchGoOn_keeps {a0 s} (h_s : Keeps a0 s) : Keeps a0 (fetchGoOn s) := by
  unfold fetchGoOn
  extract_lets
  rename_i v0 v1 v2
  have k3 : Keeps a0 v0 := scanTry_keeps h_s
  clear_value v0
  have k4 : Keeps a0 v1 := keeps_foldl (fun _ _ h7 => restoreTry_keeps h7) k3
  clear_value v1
  have k8 : Keeps a0 v2 := keeps_foldl (fun _ _ h11 => exportTry_keeps h11) k4
  clear_value v2
  exact clearFetched_keeps k8

theorem execShardExport_keeps {a0 k s} (h_s : Keeps a0 s) : OutKeeps a0 (execShardExport k s) := by
  unfold execShardExport
  extract_lets
  rename_i v0
  have k1 : Keeps a0 v0 := by
    unfold v0
    refine runSvc_keeps ?_ h_s
    intro y2 y3 h4
    refine formedOnly_keeps h4 ?_
    intro y5
    refine end_ite (end_done h4) ?_
    split
    · rename_i v6 v7
      exact end_done h4
    · rename_i v8 v9 v10
      extract_lets
      rename_i v11
      clear_value v11
      exact end_ite (end_done h4) (end_wait h4)
  clear_value v0
  exact out_next (fetchGoOn_keeps k1)

theorem execUnitReq_keeps {a0 t m s} (h_s : Keeps a0 s) : OutKeeps a0 (execUnitReq t m s) := by
  unfold execUnitReq
  refine out_next (ckRecv_keeps ?_ h_s)
  intro y0 y1 y2 h3
  extract_lets
  rename_i v4
  clear_value v4
  exact ckSend_keeps h3

theorem execUnitData_keeps {a0 t m code data s} (h_s : Keeps a0 s) : OutKeeps a0 (execUnitData t m code data s) := by
  unfold execUnitData
  refine out_next (ckRecv_keeps ?_ h_s)
  intro y0 y1 y2 h3
  extract_lets
  rename_i v4
  clear_value v4
  exact keeps_ite h3 (fetchGoOn_keeps (setCkpt_keeps h3))

theorem edgeRestore_keeps {a0 i s} (h_s : Keeps a0 s) : Keeps a0 (edgeRestore i s) := by
  unfold edgeRestore
  split
  · rename_i v0 v1
    exact h_s
  · rename_i v2 v3 v4
    exact keeps_ite h_s (keeps_ite (finishCmds_keeps (penBit_keeps (putSess_keeps h_s))) (edgeRelease_keeps h_s))

theorem edgeCkpt_keeps {a0 s} (h_s : Keeps a0 s) : Keeps a0 (edgeCkpt s) := by
  unfold edgeCkpt
  refine keeps_ite h_s ?_
  extract_lets
  rename_i v0 v1
  have k2 : Keeps a0 v0 := edgeCapture_keeps h_s
  clear_value v0
  have k3 : Keeps a0 v1 := keeps_foldl (fun _ _ h6 => edgeRestore_keeps h6) k2
  clear_value v1
  exact fetchGoOn_keeps k3

theorem intgCount_keeps {a0 i s} (h_s : Keeps a0 s) : Keeps a0 (intgCount i s) := addReg_keeps h_s

theorem intgEvent_keeps {a0 s} (h_s : Keeps a0 s) : Keeps a0 (intgEvent s) := halyardTrigger_keeps (keeps_foldl (fun _ _ h2
    => raiseLine_keeps h2) h_s)

theorem watchStat_keeps {a0 s} (h_s : Keeps a0 s) : Keeps a0 (watchStat s) := by
  unfold watchStat
  extract_lets
  rename_i v0 v1 v2 v3
  clear_value v0 v1 v2
  have k4 : Keeps a0 v3 := setRegN_keeps h_s
  clear_value v3
  exact keeps_ite (intgPen_keeps k4) k4

theorem suspectTile_keeps {a0 t upto s} (h_s : Keeps a0 s) : Keeps a0 (suspectTile t upto s) := by
  unfold suspectTile
  extract_lets
  rename_i v0 v1 v2 v3 v4 v5
  clear_value v0 v1
  have k6 : Keeps a0 v2 := setRegN_keeps h_s
  clear_value v2
  have k7 : Keeps a0 v3 := setReg64_keeps (setReg64_keeps k6)
  clear_value v3
  have k8 : Keeps a0 v4 := setFld_keeps k7
  clear_value v4
  have k9 : Keeps a0 v5 := setIntg_keeps k8
  clear_value v5
  exact ownSuspect_keeps (intgPen_keeps (intgCount_keeps k9))

theorem suspectFault_keeps {a0 t s} (h_s : Keeps a0 s) : Keeps a0 (suspectFault t s) := keeps_ite h_s (suspectTile_keeps
    (setIntg_keeps h_s))

theorem coreStop_keeps {a0 core ecause s} (h_s : Keeps a0 s) : Keeps a0 (coreStop core ecause s) := by
  unfold coreStop
  extract_lets
  rename_i v0 v1 v2 v3
  clear_value v0
  have k4 : Keeps a0 v1 := errInfo_keeps (intgPen_keeps h_s)
  clear_value v1
  have k5 : Keeps a0 v2 := logEvent_keeps k4
  clear_value v2
  have k6 : Keeps a0 v3 := intgEvent_keeps k5
  clear_value v3
  exact keeps_ite (suspectFault_keeps (faultTile_keeps k6)) (keeps_ite (setIntg_keeps k6) (mssReset_keeps k6))

theorem execCoreStopResponse_keeps {a0 t core s} (h_s : Keeps a0 s) : OutKeeps a0 (execCoreStopResponse t core s) := by
  unfold execCoreStopResponse
  refine out_next (keeps_ite h_s ?_)
  split
  · rename_i v0 v1 v2
    exact coreStop_keeps (setIntg_keeps (atTime_keeps h_s))
  · rename_i v3 v4
    exact h_s

theorem showLst_keeps {a0 s} (h_s : Keeps a0 s) : Keeps a0 (showLst s) := by
  unfold showLst
  extract_lets
  rename_i v0
  clear_value v0
  exact setRegN_keeps h_s

theorem cycleEnd_keeps {a0 n s} (h_s : Keeps a0 s) : Keeps a0 (cycleEnd n s) := by
  unfold cycleEnd
  refine keeps_ite ?_ h_s
  split
  · rename_i v0 v1 v2
    extract_lets
    rename_i v3 v4 v5
    clear_value v3 v4 v5
    exact setRegN_keeps h_s
  · rename_i v6 v7
    exact h_s

theorem lstCommit_keeps {a0 s} (h_s : Keeps a0 s) : Keeps a0 (lstCommit s) := by
  unfold lstCommit
  extract_lets
  rename_i v0
  clear_value v0
  exact setIntg_keeps h_s

theorem chargeOne_keeps {a0 s} (h_s : Keeps a0 s) : Keeps a0 (chargeOne s) := by
  unfold chargeOne
  extract_lets
  rename_i v0 v1 v2
  clear_value v0 v1
  have k3 : Keeps a0 v2 := setIntg_keeps h_s
  clear_value v2
  exact keeps_ite (addCarry_keeps k3) k3

theorem lstStep6_keeps {a0 s} (h_s : Keeps a0 s) : Keeps a0 (lstStep6 s) := by
  unfold lstStep6
  extract_lets
  rename_i v0 v1 v2 v3
  clear_value v0
  have k4 : Keeps a0 v1 := keeps_ite (keeps_ite (setIntg_keeps h_s) (setIntg_keeps h_s)) h_s
  clear_value v1
  have k5 : ∀ z0, Keeps a0 z0 → Keeps a0 (v2 z0) := by
    intro y6 h7
    unfold v2
    split
    · rename_i v8 v9 v10
      extract_lets
      rename_i v11
      clear_value v11
      exact keeps_foldl (fun _ _ h14 => chargeOne_keeps h14) h7
    · rename_i v15 v16
      exact h7
  clear_value v2
  have k17 : Keeps a0 v3 := k5 _ k4
  clear_value v3
  split
  · rename_i v18 v19 v20
    extract_lets
    rename_i v21
    clear_value v21
    exact keeps_ite (k5 _ (setIntg_keeps k17)) k17
  · rename_i v22 v23
    exact k17

theorem pickOne_keeps {a0 s} (h_s : Keeps a0 s) : Keeps a0 (pickOne s) := by
  unfold pickOne
  split
  · rename_i v0 v1
    exact h_s
  · rename_i v2 v3 v4 v5 v6
    refine keeps_ite h_s ?_
    extract_lets
    rename_i v7 v8 v9
    clear_value v7
    have k10 : Keeps a0 v8 := setIntg_keeps h_s
    clear_value v8 v9
    exact keeps_ite (cycleEnd_keeps (intgCount_keeps k10)) (setIntg_keeps k10)

theorem lstStep7_keeps {a0 s} (h_s : Keeps a0 s) : Keeps a0 (lstStep7 s) := by
  unfold lstStep7
  extract_lets
  rename_i v0
  have k1 : Keeps a0 v0 := setIntg_keeps h_s
  clear_value v0
  exact showLst_keeps (keeps_foldl (fun _ _ h4 => pickOne_keeps h4) k1)

theorem sliceFailed_keeps {a0 t sl s} (h_s : Keeps a0 s) : Keeps a0 (sliceFailed t sl s) := by
  unfold sliceFailed
  extract_lets
  rename_i v0 v1 v2
  have k3 : Keeps a0 v0 := faultTile_keeps h_s
  clear_value v0
  have k4 : Keeps a0 v1 := setRegN_keeps k3
  clear_value v1
  have k5 : Keeps a0 v2 := errInfo_keeps (intgCount_keeps k4)
  clear_value v2
  exact intgEvent_keeps (intgPen_keeps (suspectFault_keeps k5))

theorem coreSliceFailed_keeps {a0 u sl s} (h_s : Keeps a0 s) : Keeps a0 (coreSliceFailed u sl s) := by
  unfold coreSliceFailed
  extract_lets
  rename_i v0 v1 v2
  have k3 : Keeps a0 v0 := setRegN_keeps h_s
  clear_value v0
  have k4 : Keeps a0 v1 := intgPen_keeps (errInfo_keeps (intgCount_keeps k3))
  clear_value v1 v2
  exact coreStop_keeps (stopCore_keeps (setIntg_keeps k4))

theorem saveFailed_keeps {a0 u s} (h_s : Keeps a0 s) : Keeps a0 (saveFailed u s) := by
  unfold saveFailed
  extract_lets
  rename_i v0 v1
  have k2 : Keeps a0 v0 := errInfo_keeps h_s
  clear_value v0 v1
  exact keeps_ite (intgEvent_keeps (suspectFault_keeps (faultTile_keeps k2))) (coreStop_keeps (stopCore_keeps
      (setIntg_keeps k2)))

theorem slicePassed_keeps {a0 n s} (h_s : Keeps a0 s) : Keeps a0 (slicePassed n s) := by
  unfold slicePassed
  extract_lets
  rename_i v0 v1
  have k2 : Keeps a0 v0 := intgCount_keeps h_s
  clear_value v0 v1
  exact keeps_ite (showPass_keeps (setIntg_keeps k2)) k2

theorem releaseTile_keeps {a0 t s} (h_s : Keeps a0 s) : Keeps a0 (releaseTile t s) := by
  unfold releaseTile
  refine keeps_foldl ?_ h_s
  intro y0 y1 h2
  extract_lets
  rename_i v3
  clear_value v3
  exact keeps_ite h2 (putEng_keeps h2)

theorem runSlice_keeps {a0 w ok verified s} (h_s : Keeps a0 s) : Keeps a0 (runSlice w ok verified s) := by
  unfold runSlice
  extract_lets
  rename_i v0 v1 v2 v3 v4 v5
  clear_value v0
  have k6 : Keeps a0 v1 := setIntg_keeps h_s
  clear_value v1 v2
  have k7 : Keeps a0 v3 := setIntg_keeps k6
  clear_value v3
  have k8 : Keeps a0 v4 := keeps_ite (releaseTile_keeps k7) k7
  clear_value v4
  have k9 : Keeps a0 v5 := keeps_ite (saveFailed_keeps k8) (keeps_ite (slicePassed_keeps k8) (keeps_ite (sliceFailed_keeps
      k8) (coreSliceFailed_keeps k8)))
  clear_value v5
  exact keeps_ite (showLst_keeps (cycleEnd_keeps (intgCount_keeps k6))) (watchStat_keeps (showLst_keeps (cycleEnd_keeps k9)))

theorem execLstSlice_keeps {a0 t ok verified s} (h_s : Keeps a0 s) : OutKeeps a0 (execLstSlice t ok verified s) := by
  unfold execLstSlice
  refine out_next ?_
  extract_lets
  rename_i v0
  have k1 : Keeps a0 v0 := atTime_keeps h_s
  clear_value v0
  split
  · rename_i v2 v3
    exact k1
  · rename_i v4 v5 v6 v7
    exact keeps_ite k1 (runSlice_keeps k1)

theorem execLstDefer_keeps {a0 t s} (h_s : Keeps a0 s) : OutKeeps a0 (execLstDefer t s) := by
  unfold execLstDefer
  refine out_next ?_
  extract_lets
  rename_i v0
  have k1 : Keeps a0 v0 := atTime_keeps h_s
  clear_value v0
  split
  · rename_i v2 v3
    exact k1
  · rename_i v4 v5 v6 v7
    exact keeps_ite k1 (intgCount_keeps (setIntg_keeps k1))

theorem execLstForce_keeps {a0 t ok verified cycles s} (h_s : Keeps a0 s) : OutKeeps a0 (execLstForce t ok verified cycles
    s) := by
  unfold execLstForce
  refine out_next ?_
  extract_lets
  rename_i v0
  have k1 : Keeps a0 v0 := atTime_keeps h_s
  clear_value v0
  split
  · rename_i v2 v3
    exact k1
  · rename_i v4 v5 v6 v7
    refine keeps_ite k1 ?_
    extract_lets
    rename_i v8 v9
    clear_value v8
    have k10 : Keeps a0 v9 := by
      unfold v9
      refine keeps_foldl ?_ k1
      intro y11 y12 h13
      split
      · rename_i v14 v15 v16 v17 v18 v19
        exact budgetStop_keeps h13
      · rename_i v20 v21 v22 v23 v24
        exact budgetStop_keeps h13
      · rename_i v25 v26 v27
        exact h13
    clear_value v9
    exact runSlice_keeps (intgPen_keeps (intgCount_keeps k10))

theorem intgRun_keeps {a0 q op inv body s} (h_body : ∀ y0 y1 y2, Keeps a0 y2 → EndKeeps a0 (body y0 y1 y2)) (h_s : Keeps a0
    s) : Keeps a0 (intgRun q op inv body s) := by
  unfold intgRun
  split
  · rename_i v0 v1
    exact runSvc_keeps (fun _ _ h4 => h_body _ _ _ h4) h_s
  · rename_i v5 v6 v7 v8
    extract_lets
    rename_i v9
    clear_value v9
    split
    · rename_i v10 v11 v12
      exact emit_keeps h_s
    · rename_i v13 v14
      split
      · rename_i v15 v16 v17 v18 v19
        exact emit_keeps (end_of_done v19 (h_body _ _ _ h_s))
      · rename_i v20 v21 v22
        exact end_of_wait v22 (h_body _ _ _ h_s)

theorem intgEnd_keeps {a0 op seq status result s} (h_s : Keeps a0 s) : Keeps a0 (intgEnd op seq status result s) := by
  unfold intgEnd
  split
  · rename_i v0 v1
    split
    · rename_i v2 v3 v4
      exact complete_keeps h_s
    · rename_i v5 v6
      exact h_s
  · rename_i v7
    exact emit_keeps h_s

theorem endRun_keeps {a0 r fail s} (h_s : Keeps a0 s) : Keeps a0 (endRun r fail s) := by
  unfold endRun
  extract_lets
  rename_i v0 v1 v2 v3 v4 v5 v6 v7
  clear_value v0 v1 v2
  have k8 : Keeps a0 v3 := setIntg_keeps h_s
  clear_value v3
  have k9 : Keeps a0 v4 := setFld_keeps k8
  clear_value v4
  have k10 : Keeps a0 v5 := setIntg_keeps k9
  clear_value v5
  have k11 : Keeps a0 v6 := addReg_keeps (showPass_keeps k10)
  clear_value v6
  have k12 : Keeps a0 v7 := needTest_keeps k8
  clear_value v7
  split
  · rename_i v13
    exact intgEnd_keeps k11
  · rename_i v14 v15 v16
    extract_lets
    rename_i v17 v18 v19
    have k20 : Keeps a0 v17 := setRegN_keeps k12
    clear_value v17
    have k21 : Keeps a0 v18 := errInfo_keeps (addReg_keeps (addReg_keeps k20))
    clear_value v18
    have k22 : Keeps a0 v19 := keeps_ite k21 (suspectTile_keeps k21)
    clear_value v19
    exact intgEnd_keeps (intgEvent_keeps (intgPen_keeps k22))

theorem execLstRun_keeps {a0 q t fail s} (h_s : Keeps a0 s) : OutKeeps a0 (execLstRun q t fail s) := by
  unfold execLstRun
  refine out_next ?_
  extract_lets
  rename_i v0
  have k1 : Keeps a0 v0 := atTime_keeps h_s
  clear_value v0
  split
  · rename_i v2 v3 v4
    exact keeps_ite k1 (endRun_keeps k1)
  · rename_i v5 v6
    refine intgRun_keeps ?_ k1
    intro y7 y8 y9 h10
    extract_lets
    rename_i v11
    clear_value v11
    refine end_ite (end_done h10) ?_
    split
    · rename_i v12 v13 v14
      exact end_done h10
    · rename_i v15 v16
      exact end_ite (end_done h10) (end_wait (setIntg_keeps h10))

theorem mbistFound_keeps {a0 f s} (h_s : Keeps a0 s) : Keeps a0 (mbistFound f s).1 := by
  unfold mbistFound
  extract_lets
  rename_i v0 v1 v2
  have k3 : Keeps a0 v0 := errInfo_keeps (intgPen_keeps h_s)
  clear_value v0
  have k4 : Keeps a0 v1 := keeps_ite k3 (setIntg_keeps (setRegN_keeps (setRegN_keeps k3)))
  clear_value v1
  have k5 : Keeps a0 v2 := setMgmt_keeps k4
  clear_value v2
  exact keeps_ite_fst k4 (keeps_ite_fst (logEvent_keeps (intgPen_keeps (intgCount_keeps k5))) k4)

theorem mbistAll_keeps {a0 l s} (h_s : Keeps a0 s) : Keeps a0 (mbistAll l s).1 := by
  unfold mbistAll
  refine keeps_foldl_fst ?_ h_s
  intro y0 y1 h2
  extract_lets
  rename_i v3
  have k4 : Keeps a0 v3.1 := mbistFound_keeps h2
  clear_value v3
  exact k4

theorem execMbistRun_keeps {a0 q t fails s} (h_s : Keeps a0 s) : OutKeeps a0 (execMbistRun q t fails s) := by
  unfold execMbistRun
  refine out_next (intgRun_keeps ?_ (atTime_keeps h_s))
  intro y0 y1 y2 h3
  extract_lets
  rename_i v4 v5
  clear_value v4 v5
  refine end_ite (end_done h3) ?_
  split
  · rename_i v6 v7 v8 v9
    extract_lets
    rename_i v10
    have k11 : Keeps a0 v10 := keeps_ite (intgEvent_keeps (faultTile_keeps (keeps_of_fst v9 (mbistAll_keeps
        (clearSlice_keeps h3))))) (keeps_of_fst v9 (mbistAll_keeps (clearSlice_keeps h3)))
    clear_value v10
    exact end_done k11

theorem execSuspectForce_keeps {a0 q s} (h_s : Keeps a0 s) : OutKeeps a0 (execSuspectForce q s) := out_next (intgRun_keeps
    (fun _ _ _ h3 => end_done (suspectTile_keeps h3)) h_s)

theorem injectRun_keeps {a0 kind q act s} (h_act : ∀ y0 y1 y2, Keeps a0 y2 → Keeps a0 (act y0 y1 y2)) (h_s : Keeps a0 s) :
    Keeps a0 (injectRun kind q act s) := by
  unfold injectRun
  extract_lets
  rename_i v0
  clear_value v0
  exact keeps_ite h_s (intgRun_keeps (fun _ _ _ h4 => end_done (h_act _ _ _ h4)) h_s)

theorem plantSram_keeps {a0 bad t off s} (h_s : Keeps a0 s) : Keeps a0 (plantSram bad t off s) := keeps_upd h_s

theorem plantDram_keeps {a0 bad off s} (h_s : Keeps a0 s) : Keeps a0 (plantDram bad off s) := keeps_upd h_s

theorem execInjectSramSingle_keeps {a0 q s} (h_s : Keeps a0 s) : OutKeeps a0 (execInjectSramSingle q s) := out_next
    (injectRun_keeps (fun _ _ _ h3 => plantSram_keeps h3) h_s)

theorem execInjectSramDouble_keeps {a0 q s} (h_s : Keeps a0 s) : OutKeeps a0 (execInjectSramDouble q s) := out_next
    (injectRun_keeps (fun _ _ _ h3 => plantSram_keeps h3) h_s)

theorem execInjectDramSingle_keeps {a0 q s} (h_s : Keeps a0 s) : OutKeeps a0 (execInjectDramSingle q s) := out_next
    (injectRun_keeps (fun _ _ _ h3 => plantDram_keeps h3) h_s)

theorem execInjectDramDouble_keeps {a0 q s} (h_s : Keeps a0 s) : OutKeeps a0 (execInjectDramDouble q s) := out_next
    (injectRun_keeps (fun _ _ _ h3 => plantDram_keeps h3) h_s)

theorem execInjectSliceFail_keeps {a0 q s} (h_s : Keeps a0 s) : OutKeeps a0 (execInjectSliceFail q s) := out_next
    (injectRun_keeps (fun _ _ _ h3 => setIntg_keeps h3) h_s)

theorem checkedError_keeps {a0 p s} (h_s : Keeps a0 s) : Keeps a0 (checkedError p s) := intgEvent_keeps (errInfo_keeps
    (intgCount_keeps (intgPen_keeps h_s)))

theorem execCheckedError_keeps {a0 t p control s} (h_s : Keeps a0 s) : OutKeeps a0 (execCheckedError t p control s) := by
  unfold execCheckedError
  refine out_next (keeps_ite (atTime_keeps h_s) ?_)
  extract_lets
  rename_i v0
  have k1 : Keeps a0 v0 := checkedError_keeps (atTime_keeps h_s)
  clear_value v0
  exact keeps_ite (hwFence_keeps k1) k1

theorem linkCe_keeps {a0 m ch n s} (h_s : Keeps a0 s) : Keeps a0 (linkCe m ch n s) := by
  unfold linkCe
  extract_lets
  rename_i v0 v1 v2
  have k3 : Keeps a0 v0 := addSat_keeps h_s
  clear_value v0 v1 v2
  exact setIntg_keeps k3

theorem burstFailed_keeps {a0 off s} (h_s : Keeps a0 s) : Keeps a0 (burstFailed off s) := by
  unfold burstFailed
  extract_lets
  rename_i v0 v1 v2 v3 v4
  clear_value v0 v1
  have k5 : Keeps a0 v2 := addSat_keeps h_s
  clear_value v2
  have k6 : Keeps a0 v3 := errInfo_keeps (penBit_keeps k5)
  clear_value v3
  have k7 : Keeps a0 v4 := setIntg_keeps k6
  clear_value v4
  exact plantDram_keeps k7

theorem execDramScrub_keeps {a0 t off ce retries fail pass s} (h_s : Keeps a0 s) : OutKeeps a0 (execDramScrub t off ce
    retries fail pass s) := by
  unfold execDramScrub
  refine out_next ?_
  extract_lets
  rename_i v0 v1 v2 v3 v4 v5 v6 v7 v8 v9 v10
  have k11 : Keeps a0 v0 := atTime_keeps h_s
  clear_value v0 v1 v2
  have k12 : Keeps a0 v3 := keeps_ite k11 (linkCe_keeps k11)
  clear_value v3
  have k13 : Keeps a0 v4 := addSat_keeps k12
  clear_value v4
  have k14 : Keeps a0 v5 := keeps_ite (burstFailed_keeps k13) k13
  clear_value v5 v6
  have k15 : Keeps a0 v7 := dramTouch_keeps k14
  clear_value v7
  have k16 : Keeps a0 v8 := keeps_foldl (fun _ _ h19 => intgCount_keeps h19) k15
  clear_value v8
  have k20 : Keeps a0 v9 := keeps_foldl (fun _ _ h23 => checkedError_keeps (intgPen_keeps (intgCount_keeps h23))) k16
  clear_value v9
  have k24 : Keeps a0 v10 := by
    unfold v10
    split
    · rename_i v25 v26
      exact setIntg_keeps (setFld_keeps k20)
    · rename_i v27
      exact k20
  clear_value v10
  exact keeps_ite k11 (watchStat_keeps k24)

theorem execMemcRecal_keeps {a0 t m ch s} (h_s : Keeps a0 s) : OutKeeps a0 (execMemcRecal t m ch s) := by
  unfold execMemcRecal
  refine out_next ?_
  extract_lets
  rename_i v0
  have k1 : Keeps a0 v0 := atTime_keeps h_s
  clear_value v0
  refine keeps_ite k1 ?_
  split
  · rename_i v2 v3 v4
    exact k1
  · rename_i v5 v6
    exact setIntg_keeps k1

theorem execMemcRetrain_keeps {a0 t m ch ok s} (h_s : Keeps a0 s) : OutKeeps a0 (execMemcRetrain t m ch ok s) := by
  unfold execMemcRetrain
  refine out_next ?_
  extract_lets
  rename_i v0 v1 v2 v3 v4
  have k5 : Keeps a0 v0 := atTime_keeps h_s
  clear_value v0 v1
  have k6 : Keeps a0 v2 := setIntg_keeps k5
  clear_value v2
  have k7 : Keeps a0 v3 := penBit_keeps (addSat_keeps k6)
  clear_value v3
  have k8 : Keeps a0 v4 := errInfo_keeps (penBit_keeps k7)
  clear_value v4
  exact keeps_ite k5 (keeps_ite k7 (setIntg_keeps (logEvent_keeps k8)))

theorem dueQuiesce_keeps {a0 s} (h_s : Keeps a0 s) : Keeps a0 (dueQuiesce s) := by
  unfold dueQuiesce
  split
  · rename_i v0 v1 v2
    exact startQuiesce_keeps (setIntg_keeps h_s)
  · rename_i v3 v4
    exact h_s

theorem pairCount_keeps {a0 i n s} (h_s : Keeps a0 s) : Keeps a0 (pairCount i n s) := addReg_keeps h_s

theorem sendRecord_keeps {a0 kind seq b s} (h_s : Keeps a0 s) : Keeps a0 (sendRecord kind seq b s) := by
  unfold sendRecord
  extract_lets
  rename_i v0 v1
  clear_value v0 v1
  exact keeps_ite h_s (forN_keeps h_s (fun _ _ h4 => emit_keeps h4))

theorem closeRecord_keeps {a0 n s} (h_s : Keeps a0 s) : Keeps a0 (closeRecord n s) := by
  unfold closeRecord
  extract_lets
  rename_i v0 v1 v2 v3
  clear_value v0 v1 v2
  have k4 : Keeps a0 v3 := setPairX_keeps h_s
  clear_value v3
  exact pairCount_keeps (sendRecord_keeps k4)

theorem sendImage_keeps {a0 s} (h_s : Keeps a0 s) : Keeps a0 (sendImage s) := by
  unfold sendImage
  extract_lets
  rename_i v0 v1
  clear_value v0 v1
  exact sendRecord_keeps (setPairX_keeps h_s)

theorem applyManifests_keeps {a0 x1 x2 x3} (h_x3 : Keeps a0 x3) : Keeps a0 (applyManifests x1 x2 x3) := by
  induction x1 generalizing x2 x3 with
  | zero =>
    unfold applyManifests
    exact h_x3
  | succ x1 ih =>
    unfold applyManifests
    extract_lets
    rename_i v0 v1 v2
    clear_value v0 v1
    have k3 : Keeps a0 v2 := keeps_ite h_x3 (setPairX_keeps (keeps_ite (landManifest_keeps h_x3) h_x3))
    clear_value v2
    exact ih k3

theorem replicaNs_keeps {a0 forms nsid s} (h_s : Keeps a0 s) : Keeps a0 (replicaNs forms nsid s) := by
  unfold replicaNs
  refine keeps_ite h_s ?_
  extract_lets
  rename_i v0
  clear_value v0
  exact newDeviceKey_keeps (putNs_keeps h_s)

theorem replicaBlock_keeps {a0 nsid lba data pi s} (h_s : Keeps a0 s) : Keeps a0 (replicaBlock nsid lba data pi s) :=
    setFlash_keeps h_s

theorem applyWrites_keeps {a0 forms kept x1 x2 x3} (h_x3 : Keeps a0 x3) : Keeps a0 (applyWrites forms kept x1 x2 x3) := by
  induction x1 generalizing x2 x3 with
  | zero =>
    unfold applyWrites
    exact h_x3
  | succ x1 ih =>
    unfold applyWrites
    extract_lets
    rename_i v0 v1 v2 v3 v4 v5 v6 v7 v8 v9 v10
    clear_value v0 v1 v2 v3
    have k11 : Keeps a0 v4 := replicaNs_keeps h_x3
    clear_value v4 v5 v6 v7 v8 v9
    have k12 : Keeps a0 v10 := keeps_ite k11 (keeps_ite (setFlash_keeps k11) (forN_keeps k11 (fun _ _ h15 => keeps_ite
        (replicaBlock_keeps h15) (replicaBlock_keeps h15))))
    clear_value v10
    exact ih k12

theorem applySections_keeps {a0 forms kept x1 x2 x3} (h_x3 : Keeps a0 x3) : Keeps a0 (applySections forms kept x1 x2 x3) := by
  induction x1 generalizing x2 x3 with
  | zero =>
    unfold applySections
    exact h_x3
  | succ x1 ih =>
    unfold applySections
    extract_lets
    rename_i v0 v1 v2 v3 v4
    clear_value v0 v1 v2
    have k5 : ∀ y6_0, Keeps a0 (v3 y6_0) := by
      intro y6_0
      unfold v3
      exact setPairX_keeps h_x3
    clear_value v3
    have k7 : Keeps a0 v4 := by
      unfold v4
      split
      · rename_i v8 v9
        exact k5 _
      · rename_i v10 v11
        exact k5 _
      · rename_i v12 v13
        exact k5 _
      · rename_i v14 v15
        exact k5 _
      · rename_i v16 v17
        exact k5 _
      · rename_i v18 v19
        exact k5 _
      · rename_i v20 v21
        exact applyManifests_keeps h_x3
      · rename_i v22 v23
        exact applyWrites_keeps h_x3
      · rename_i v24 v25 v26 v27 v28 v29 v30 v31 v32
        exact h_x3
    clear_value v4
    exact ih k7

theorem dropParts_keeps {a0 image seq s} (h_s : Keeps a0 s) : Keeps a0 (dropParts image seq s) := setPairX_keeps h_s

theorem applyReady_keeps {a0 forms kept ties x1 x2} (h_x2 : Keeps a0 x2) : Keeps a0 (applyReady forms kept ties x1 x2) := by
  induction x1 generalizing x2 with
  | zero =>
    unfold applyReady
    exact h_x2
  | succ x1 ih =>
    unfold applyReady
    refine keeps_ite ?_ ?_
    · split
      · rename_i v0 v1
        exact h_x2
      · rename_i v2 v3 v4
        extract_lets
        rename_i v5 v6 v7 v8
        have k9 : Keeps a0 v5 := dropParts_keeps h_x2
        clear_value v5
        have k10 : Keeps a0 v6 := setPairX_keeps k9
        clear_value v6
        have k11 : Keeps a0 v7 := applySections_keeps k10
        clear_value v7
        have k12 : Keeps a0 v8 := keeps_foldl (fun _ _ h15 => errInfo_keeps (penBit_keeps (pairCount_keeps (logEvent_keeps
            h15)))) k11
        clear_value v8
        exact keeps_ite (ih k9) (ih (sendHawser_keeps k12))
    · extract_lets
      rename_i v16 v17
      clear_value v16
      have k18 : Keeps a0 v17 := dropParts_keeps h_x2
      clear_value v17
      split
      · rename_i v19 v20
        exact h_x2
      · rename_i v21 v22 v23
        refine keeps_ite (ih k18) ?_
        extract_lets
        rename_i v24
        have k25 : Keeps a0 v24 := applySections_keeps (setPairX_keeps k18)
        clear_value v24
        exact ih (sendHawser_keeps (pairCount_keeps k25))

theorem noteLease_keeps {a0 v s} (h_s : Keeps a0 s) : Keeps a0 (noteLease v s) := keeps_ite (setPairX_keeps (setReg64_keeps
    h_s)) h_s

theorem enterSolo_keeps {a0 s} (h_s : Keeps a0 s) : Keeps a0 (enterSolo s) := finishCmds_keeps (leaveSync_keeps h_s)

theorem seekAgain_keeps {a0 s} (h_s : Keeps a0 s) : Keeps a0 (seekAgain s) := setPairX_keeps (leaveSync_keeps h_s)

theorem atNextEdge_keeps {a0 v s} (h_s : Keeps a0 s) : Keeps a0 (atNextEdge v s) := setPairX_keeps h_s

theorem hawserFrame_keeps {a0 t epoch f s} (h_f : ∀ y0, Keeps a0 y0 → Keeps a0 (f y0)) (h_s : Keeps a0 s) : Keeps a0
    (hawserFrame t epoch f s) := by
  unfold hawserFrame
  extract_lets
  rename_i v0 v1 v2
  have k3 : Keeps a0 v0 := atTime_keeps h_s
  clear_value v0 v1
  have k4 : Keeps a0 v2 := setPairX_keeps k3
  clear_value v2
  exact keeps_ite (penBit_keeps (pairCount_keeps k3)) (h_f _ (raiseLine_keeps (keeps_ite (atNextEdge_keeps k4) k4)))

theorem replicaCheck_keeps {a0 s} (h_s : Keeps a0 s) : Keeps a0 (replicaCheck s) := keeps_ite (atNextEdge_keeps
    (penBit_keeps h_s)) h_s

theorem takePart_keeps {a0 image seq part parts data forms kept ties s} (h_s : Keeps a0 s) : Keeps a0 (takePart image seq
    part parts data forms kept ties s) := by
  unfold takePart
  refine keeps_ite h_s (keeps_ite (keeps_ite (sendHawser_keeps h_s) h_s) ?_)
  extract_lets
  rename_i v0
  have k1 : Keeps a0 v0 := setPairX_keeps h_s
  clear_value v0
  exact replicaCheck_keeps (applyReady_keeps k1)

theorem execMirror_keeps {a0 t epoch seq part parts data forms s} (h_s : Keeps a0 s) : OutKeeps a0 (execMirror t epoch seq
    part parts data forms s) := out_next (hawserFrame_keeps (fun _ h1 => takePart_keeps h1) h_s)

theorem execResync_keeps {a0 t epoch seq part parts data forms kept ties s} (h_s : Keeps a0 s) : OutKeeps a0 (execResync t
    epoch seq part parts data forms kept ties s) := out_next (hawserFrame_keeps (fun _ h1 => takePart_keeps h1) h_s)

theorem execMirrorAck_keeps {a0 t epoch seq s} (h_s : Keeps a0 s) : OutKeeps a0 (execMirrorAck t epoch seq s) := by
  unfold execMirrorAck
  refine out_next (hawserFrame_keeps ?_ h_s)
  intro y0 h1
  extract_lets
  rename_i v2
  have k3 : Keeps a0 v2 := setPairX_keeps h1
  clear_value v2
  refine keeps_ite k3 (keeps_foldl ?_ k3)
  intro y4 y5 h6
  extract_lets
  rename_i v7
  have k8 : Keeps a0 v7 := by
    unfold v7
    split
    · rename_i v9 v10 v11
      exact putNs_keeps h6
    · rename_i v12 v13
      exact h6
  clear_value v7
  exact landNvme_keeps k8

theorem execTickFrame_keeps {a0 t epoch count lease echo ofs hold s} (h_s : Keeps a0 s) : OutKeeps a0 (execTickFrame t
    epoch count lease echo ofs hold s) := by
  unfold execTickFrame
  refine out_next (hawserFrame_keeps ?_ h_s)
  intro y0 h1
  extract_lets
  rename_i v2 v3 v4 v5 v6 v7
  clear_value v2 v3
  have k8 : Keeps a0 v4 := setPairX_keeps h1
  clear_value v4 v5 v6 v7
  exact sourceEdge_keeps (keeps_upd k8)

theorem execHawserHalyard_keeps {a0 t epoch x2 x3 s} (h_s : Keeps a0 s) : OutKeeps a0 (execHawserHalyard t epoch x2 x3 s)
    := out_next (hawserFrame_keeps (fun _ h1 => halyardTrigger_keeps h1) h_s)

theorem execResyncAck_keeps {a0 t epoch base s} (h_s : Keeps a0 s) : OutKeeps a0 (execResyncAck t epoch base s) := out_next
    (hawserFrame_keeps (fun _ h1 => keeps_ite (setPairX_keeps h1) h1) h_s)

theorem execJoin_keeps {a0 t uid last state x4 clash s} (h_s : Keeps a0 s) : OutKeeps a0 (execJoin t uid last state x4
    clash s) := by
  unfold execJoin
  refine out_next ?_
  extract_lets
  rename_i v0
  have k1 : Keeps a0 v0 := atTime_keeps h_s
  clear_value v0
  exact keeps_ite k1 (keeps_ite (atNextEdge_keeps k1) (setPairX_keeps k1))

theorem execJoinSend_keeps {a0 t s} (h_s : Keeps a0 s) : OutKeeps a0 (execJoinSend t s) := by
  unfold execJoinSend
  refine out_next ?_
  extract_lets
  rename_i v0
  have k1 : Keeps a0 v0 := atTime_keeps h_s
  clear_value v0
  exact keeps_ite k1 (keeps_foldl (fun _ _ h4 => emit_keeps h4) k1)

theorem execTakeoverNotice_keeps {a0 t final s} (h_s : Keeps a0 s) : OutKeeps a0 (execTakeoverNotice t final s) := by
  unfold execTakeoverNotice
  refine out_next ?_
  extract_lets
  rename_i v0
  have k1 : Keeps a0 v0 := atTime_keeps h_s
  clear_value v0
  exact keeps_ite (setPairX_keeps k1) k1

theorem execLeaveNotice_keeps {a0 t s} (h_s : Keeps a0 s) : OutKeeps a0 (execLeaveNotice t s) := by
  unfold execLeaveNotice
  refine out_next ?_
  extract_lets
  rename_i v0
  have k1 : Keeps a0 v0 := atTime_keeps h_s
  clear_value v0
  exact keeps_ite (atNextEdge_keeps k1) k1

theorem execPairJoin_keeps {a0 k s} (h_s : Keeps a0 s) : OutKeeps a0 (execPairJoin k s) := out_next (runSvc_keeps (fun _ _
    h2 => end_ite (end_done h2) (end_wait (setPairX_keeps (atNextEdge_keeps h2)))) h_s)

theorem execPairLeave_keeps {a0 k s} (h_s : Keeps a0 s) : OutKeeps a0 (execPairLeave k s) := out_next (runSvc_keeps (fun _
    _ h2 => end_ite (end_wait h2) (end_done h2)) h_s)

theorem execWitness_keeps {a0 t uid x2 main seen lease s} (h_s : Keeps a0 s) : OutKeeps a0 (execWitness t uid x2 main seen
    lease s) := by
  unfold execWitness
  refine out_next ?_
  extract_lets
  rename_i v0 v1 v2 v3
  have k4 : Keeps a0 v0 := atTime_keeps h_s
  clear_value v0
  have k5 : Keeps a0 v1 := raiseLine_keeps k4
  clear_value v1
  have k6 : Keeps a0 v2 := raiseLine_keeps k5
  clear_value v2 v3
  exact keeps_ite k5 (setPairX_keeps k6)

theorem execWitnessSend_keeps {a0 t s} (h_s : Keeps a0 s) : OutKeeps a0 (execWitnessSend t s) := by
  unfold execWitnessSend
  refine out_next ?_
  extract_lets
  rename_i v0 v1 v2 v3 v4
  have k5 : Keeps a0 v0 := atTime_keeps h_s
  clear_value v0 v1
  have k6 : Keeps a0 v2 := keeps_ite (penBit_keeps k5) k5
  clear_value v2 v3 v4
  exact keeps_ite k5 (noteLease_keeps (emit_keeps k6))

theorem execLeaseExpiry_keeps {a0 t s} (h_s : Keeps a0 s) : OutKeeps a0 (execLeaseExpiry t s) := by
  unfold execLeaseExpiry
  refine out_next ?_
  extract_lets
  rename_i v0 v1 v2 v3 v4 v5
  have k6 : Keeps a0 v0 := atTime_keeps h_s
  clear_value v0
  have k7 : Keeps a0 v1 := finishCmds_keeps k6
  clear_value v1
  have k8 : Keeps a0 v2 := keeps_foldl (fun _ _ h11 => putMedia_keeps (discardSample_keeps h11)) k7
  clear_value v2
  have k12 : Keeps a0 v3 := keeps_foldl (fun _ _ h15 => tagEnd_keeps h15) k8
  clear_value v3
  have k16 : Keeps a0 v4 := setFoundry_keeps k12
  clear_value v4
  have k17 : Keeps a0 v5 := showBound_keeps (setFeed_keeps k16)
  clear_value v5
  exact keeps_ite k6 (penBit_keeps (enterSolo_keeps (setPairX_keeps k17)))

theorem adoptFail_keeps {a0 i s} (h_s : Keeps a0 s) : Keeps a0 (adoptFail i s) := errInfo_keeps (pairCount_keeps h_s)

theorem adoptRing_keeps {a0 reads i d s} (h_s : Keeps a0 s) : Keeps a0 (adoptRing reads i d s) := by
  unfold adoptRing
  extract_lets
  rename_i v0 v1 v2 v3 v4 v5
  clear_value v0 v1 v2 v3 v4 v5
  split
  · rename_i v6 v7 v8 v9 v10
    extract_lets
    rename_i v11 v12
    clear_value v11
    have k13 : Keeps a0 v12 := setPairX_keeps (putRingF_keeps h_s)
    clear_value v12
    exact ringState_keeps (pairCount_keeps k13)
  · rename_i v14 v15 v16
    exact adoptFail_keeps (setPairX_keeps (putRingF_keeps h_s))

theorem adoptCtx_keeps {a0 sset s} (h_s : Keeps a0 s) : Keeps a0 (adoptCtx sset s) := by
  unfold adoptCtx
  extract_lets
  rename_i v0
  clear_value v0
  exact bindShard_keeps (placeCtx_keeps (setFoundry_keeps h_s))

theorem adoptSet_keeps {a0 i d s} (h_s : Keeps a0 s) : Keeps a0 (adoptSet i d s) := by
  unfold adoptSet
  extract_lets
  rename_i v0 v1 v2 v3 v4 v5 v6
  clear_value v0 v1 v2 v3
  have k7 : Keeps a0 v4 := putSet_keeps h_s
  clear_value v4
  have k8 : Keeps a0 v5 := setPairX_keeps k7
  clear_value v5
  have k9 : Keeps a0 v6 := keeps_ite (forN_keeps k8 (fun _ _ h12 => adoptCtx_keeps h12)) k8
  clear_value v6
  exact keeps_ite (adoptFail_keeps h_s) (pairCount_keeps (showBound_keeps k9))

theorem adoptPack_keeps {a0 b s} (h_s : Keeps a0 s) : Keeps a0 (adoptPack b s) := by
  unfold adoptPack
  refine keeps_ite h_s ?_
  extract_lets
  rename_i v0
  clear_value v0
  exact setFoundry_keeps h_s

theorem execTakeover_keeps {a0 t reads s} (h_s : Keeps a0 s) : OutKeeps a0 (execTakeover t reads s) := by
  unfold execTakeover
  refine out_next ?_
  extract_lets
  rename_i v0 v1 v2 v3 v4 v5 v6 v7 v8 v9 v10 v11
  have k12 : Keeps a0 v0 := atTime_keeps h_s
  clear_value v0 v1
  have k13 : Keeps a0 v2 := enterSolo_keeps k12
  clear_value v2
  have k14 : Keeps a0 v3 := keeps_foldl (fun _ _ h17 => adoptSet_keeps h17) k13
  clear_value v3
  have k18 : Keeps a0 v4 := keeps_foldl (fun _ _ h21 => adoptRing_keeps h21) k14
  clear_value v4 v5 v6 v7
  have k22 : Keeps a0 v8 := setPairX_keeps k18
  clear_value v8
  have k23 : Keeps a0 v9 := pairCount_keeps k22
  clear_value v9
  have k24 : Keeps a0 v10 := keeps_foldl (fun _ _ h27 => adoptPack_keeps h27) k23
  clear_value v10
  have k28 : Keeps a0 v11 := keeps_foldl (fun _ _ h31 => keeps_ite (mirrorState_keeps (putNs_keeps h31)) h31) k24
  clear_value v11
  exact keeps_ite k12 (setPairX_keeps (logEvent_keeps (penBit_keeps (pairCount_keeps k28))))

theorem execSplitEntry_keeps {a0 t s} (h_s : Keeps a0 s) : OutKeeps a0 (execSplitEntry t s) := by
  unfold execSplitEntry
  refine out_next ?_
  extract_lets
  rename_i v0 v1
  have k2 : Keeps a0 v0 := atTime_keeps h_s
  clear_value v0 v1
  exact keeps_ite (penBit_keeps (leaveSync_keeps k2)) k2

theorem edgeHawser_keeps {a0 s} (h_s : Keeps a0 s) : Keeps a0 (edgeHawser s) := by
  unfold edgeHawser
  extract_lets
  rename_i v0 v1
  clear_value v0 v1
  split
  · rename_i v2 v3 v4 v5
    extract_lets
    rename_i v6
    have k7 : Keeps a0 v6 := keeps_foldl (fun _ _ h10 => emit_keeps h10) (keeps_of_snd v5 (freeVal_keeps h_s))
    clear_value v6
    exact noteLease_keeps k7

theorem edgePairUp_keeps {a0 s} (h_s : Keeps a0 s) : Keeps a0 (edgePairUp s) := by
  unfold edgePairUp
  split
  · rename_i v0 v1
    exact h_s
  · rename_i v2 v3 v4
    refine keeps_ite h_s ?_
    extract_lets
    rename_i v5 v6 v7 v8 v9 v10 v11 v12
    clear_value v5 v6
    have k13 : Keeps a0 v7 := setFld_keeps (setFld_keeps h_s)
    clear_value v7
    have k14 : Keeps a0 v8 := setRegN_keeps (setRegN_keeps k13)
    clear_value v8
    have k15 : Keeps a0 v9 := setReg64_keeps k14
    clear_value v9
    have k16 : Keeps a0 v10 := setPairX_keeps k15
    clear_value v10
    have k17 : Keeps a0 v11 := setPairState_keeps k16
    clear_value v11
    have k18 : Keeps a0 v12 := keeps_foldl (fun _ _ h21 => keeps_ite (mirrorState_keeps h21) h21) k17
    clear_value v12
    exact sendImage_keeps (finishCmds_keeps k18)

theorem edgeSynced_keeps {a0 s} (h_s : Keeps a0 s) : Keeps a0 (edgeSynced s) := by
  unfold edgeSynced
  refine keeps_ite ?_ h_s
  extract_lets
  rename_i v0
  have k1 : Keeps a0 v0 := penBit_keeps (setPairState_keeps h_s)
  clear_value v0
  exact keeps_foldl (fun _ _ h4 => keeps_ite (mirrorState_keeps h4) h4) k1

theorem edgeNext_keeps {a0 s} (h_s : Keeps a0 s) : Keeps a0 (edgeNext s) := by
  unfold edgeNext
  split
  · rename_i v0 v1
    exact h_s
  · rename_i v2 v3 v4
    exact keeps_ite (finishCmds_keeps (enterUnpaired_keeps h_s)) (keeps_ite (enterSolo_keeps h_s) (keeps_ite
        (setPairX_keeps (leaveSync_keeps h_s)) (seekAgain_keeps h_s)))

theorem edgePair_keeps {a0 s} (h_s : Keeps a0 s) : Keeps a0 (edgePair s) := by
  unfold edgePair
  refine keeps_ite h_s ?_
  extract_lets
  rename_i v0 v1 v2 v3 v4 v5 v6 v7
  have k8 : Keeps a0 v0 := by
    unfold v0
    split
    · rename_i v9 v10 v11
      exact setPairX_keeps (setReg64_keeps h_s)
    · rename_i v12 v13
      exact h_s
  clear_value v0
  have k14 : Keeps a0 v1 := edgeNext_keeps k8
  clear_value v1
  have k15 : Keeps a0 v2 := keeps_ite (finishCmds_keeps (leavePair_keeps k14)) k14
  clear_value v2 v3
  have k16 : Keeps a0 v4 := edgeSynced_keeps (edgePairUp_keeps k15)
  clear_value v4
  have k17 : Keeps a0 v5 := closeRecord_keeps k16
  clear_value v5
  have k18 : Keeps a0 v6 := keeps_ite (keeps_foldl (fun _ _ h21 => joinRecord_keeps h21) k17) k16
  clear_value v6
  have k22 : Keeps a0 v7 := keeps_ite (penBit_keeps k18) k18
  clear_value v7
  exact keeps_ite (enterSolo_keeps k22) k22

theorem loadParts_keeps {a0 parts s} (h_s : Keeps a0 s) : Keeps a0 (loadParts parts s) := keeps_foldl (fun _ _ h2 =>
    keeps_ite (forN_keeps h2 (fun _ _ h5 => keeps_ite (keeps_memWrite h5) h5)) (keeps_ite (forN_keeps (putDram_keeps h2)
        (fun _ _ h8 => keeps_memWrite h8)) h2)) h_s

theorem startParts_keeps {a0 parts s} (h_s : Keeps a0 s) : Keeps a0 (startParts parts s) := forN_keeps (loadParts_keeps
    h_s) (fun _ _ h2 => keeps_ite (startStream_keeps h2) (resetCore_keeps h2))

theorem holdPost_keeps {a0 p unit s} (h_s : Keeps a0 s) : Keeps a0 (holdPost p unit s) := by
  unfold holdPost
  extract_lets
  rename_i v0 v1
  have k2 : Keeps a0 v0 := mainReset_keeps h_s
  clear_value v0
  have k3 : Keeps a0 v1 := setMgmt_keeps k2
  clear_value v1
  exact logEvent_keeps (setAlert_keeps k3)

theorem applyReg_keeps {a0 p off s} (h_s : Keeps a0 s) : Keeps a0 (applyReg p off s) := by
  unfold applyReg
  extract_lets
  rename_i v0 v1
  clear_value v0 v1
  exact setRegN_keeps h_s

theorem applyTable_keeps {a0 tab s} (h_s : Keeps a0 s) : Keeps a0 (applyTable tab s) :=
  keeps_tabAct (fun h => mwf_puts _ _ _ (mwf_filter _ h)) h_s

theorem clampCommit_keeps {a0 p off lo n min_ max_ a} (h_a : Keeps a0 (a).1) : Keeps a0 (clampCommit p off lo n min_ max_
    a).1 := by
  unfold clampCommit
  extract_lets
  rename_i v0
  clear_value v0
  exact keeps_ite_fst (setFld_keeps h_a) (keeps_ite_fst (setFld_keeps h_a) h_a)

theorem commitPwr_keeps {a0 s} (h_s : Keeps a0 s) : Keeps a0 (commitPwr s) := by
  unfold commitPwr
  extract_lets
  rename_i v0 v1 v2
  have k3 : ∀ z0 z1, Keeps a0 (z1).1 → Keeps a0 (v0 z0 z1).1 := by
    intro y4 y5 h6
    unfold v0
    exact clampCommit_keeps (clampCommit_keeps h6)
  clear_value v0
  have k7 : Keeps a0 v1.1 := k3 _ _ (k3 _ _ h_s)
  clear_value v1
  have k8 : Keeps a0 v2.1 := keeps_foldl_fst (fun _ _ h11 => clampCommit_keeps h11) k7
  clear_value v2
  exact showLimit_keeps (keeps_ite (penBit_keeps k8) k8)

theorem commitTick_keeps {a0 s} (h_s : Keeps a0 s) : Keeps a0 (commitTick s) := by
  unfold commitTick
  extract_lets
  rename_i v0 v1 v2 v3 v4 v5 v6
  have k7 : Keeps a0 v0.1 := clampCommit_keeps (clampCommit_keeps h_s)
  clear_value v0
  have k8 : Keeps a0 v1 := keeps_ite (penBit_keeps k7) k7
  clear_value v1 v2 v3 v4
  have k9 : Keeps a0 v5 := keeps_ite (penBit_keeps k8) k8
  clear_value v5 v6
  exact keeps_ite (keeps_upd k8) (keeps_ite k8 (keeps_upd k9))

theorem commitRmt_keeps {a0 s} (h_s : Keeps a0 s) : Keeps a0 (commitRmt s) := by
  unfold commitRmt
  extract_lets
  rename_i v0
  have k1 : Keeps a0 v0.1 := clampCommit_keeps h_s
  clear_value v0
  exact keeps_ite (penBit_keeps k1) k1

theorem commitHook_keeps {a0 p s} (h_s : Keeps a0 s) : Keeps a0 (commitHook p s) := by
  unfold commitHook
  split
  · rename_i v0 v1
    exact commitPwr_keeps h_s
  · rename_i v2 v3
    exact commitTick_keeps h_s
  · rename_i v4 v5
    exact commitRmt_keeps h_s
  · rename_i v6 v7
    exact forN_keeps h_s (fun _ _ h10 => gateCommit_keeps h10)
  · rename_i v11 v12
    exact lstCommit_keeps (clampCommit_keeps h_s)
  · rename_i v13 v14
    exact ethModeChange_keeps h_s
  · rename_i v15 v16 v17 v18 v19 v20 v21
    exact h_s

theorem commitLink_keeps {a0 p apply s} (h_apply : ∀ y0, Keeps a0 y0 → Keeps a0 (apply y0)) (h_s : Keeps a0 s) : Keeps a0
    (commitLink p apply s) := keeps_ite (h_apply _ h_s) (startLink_keeps (h_apply _ (quietLink_keeps h_s)))

theorem applyCommit_keeps {a0 p s} (h_s : Keeps a0 s) : Keeps a0 (applyCommit p s) := by
  unfold applyCommit
  extract_lets
  rename_i v0 v1
  have k2 : ∀ z0, Keeps a0 z0 → Keeps a0 (v0 z0) := by
    intro y3 h4
    unfold v0
    extract_lets
    rename_i v5
    have k6 : Keeps a0 v5 := keeps_foldl (fun _ _ h9 => applyReg_keeps h9) h4
    clear_value v5
    split
    · rename_i v10 v11 v12
      exact applyTable_keeps k6
    · rename_i v13 v14
      exact k6
  clear_value v0
  have k15 : Keeps a0 v1 := commitHook_keeps (keeps_ite (commitLink_keeps (fun _ h17 => k2 _ h17) h_s) (k2 _ h_s))
  clear_value v1
  exact setRegN_keeps (setFld_keeps k15)

theorem edgeCommits_keeps {a0 edge s} (h_s : Keeps a0 s) : Keeps a0 (edgeCommits edge s) := by
  unfold edgeCommits
  extract_lets
  rename_i v0 v1 v2
  clear_value v0 v1 v2
  exact keeps_foldl (fun _ _ h5 => applyCommit_keeps h5) (keeps_upd h_s)

theorem execPostDone_keeps {a0 t tiles other packages fails s} (h_s : Keeps a0 s) :
    OutKeeps a0 (execPostDone t tiles other packages fails s) := by
  unfold execPostDone
  refine out_next ?_
  extract_lets
  rename_i v0
  have k1 : Keeps a0 v0 := atTime_keeps h_s
  clear_value v0
  refine keeps_ite k1 ?_
  split
  rename_i v2 v3 v4 v5
  have k6 : Keeps a0 v3 := by
    refine keeps_of_fst v5 (keeps_foldl_fst ?_ k1)
    intro _ _ h7
    extract_lets
    rename_i v8
    have k9 : Keeps a0 v8.1 := by
      unfold v8
      exact mbistFound_keeps h7
    clear_value v8
    exact k9
  clear v5
  extract_lets
  rename_i v6 v7 v8 v9 v10 v11
  clear_value v6 v7
  have k12 : Keeps a0 v8 := keeps_foldl (fun _ _ h15 => faultTile_keeps h15) k6
  clear_value v8
  have k21 : Keeps a0 v9 := setRegN_keeps k12
  clear_value v9
  have k22 : Keeps a0 v10 := forN_keeps k21 (fun _ _ h25 => setRegN_keeps (setBlkState_keeps h25))
  clear_value v10
  have k26 : Keeps a0 v11 := startParts_keeps k22
  clear_value v11
  split
  · exact holdPost_keeps k6
  · exact holdPost_keeps k6
  · exact keeps_ite (holdPost_keeps k6) (watchStat_keeps (setMgmt_keeps k26))

end Sys2Proof.Machine
end

