-- ==== Sys2Proof/Laws/KeepsManagement.lean ====
section
/-! SUPPORT. What blocks, management, the tick edge, the sideband protocols and the memory instructions keep (Laws/Keeps.lean): one lemma per function. -/

namespace Sys2Proof.Machine

theorem clampFld_keeps {a0 p off lo n a b s} (h_s : Keeps a0 s) : Keeps a0 (clampFld p off lo n a b s) := setFld_keeps h_s

theorem enterRunning_keeps {a0 p s} (h_s : Keeps a0 s) : Keeps a0 (enterRunning p s) := by
  unfold enterRunning
  extract_lets
  rename_i v0 v1 v2
  have k3 : Keeps a0 v0 := setBlkState_keeps h_s
  clear_value v0
  have k4 : Keeps a0 v1 := keeps_ite (penBit_keeps k3) k3
  clear_value v1
  have k5 : Keeps a0 v2 := setPair_keeps k3
  clear_value v2
  split
  · rename_i v6 v7
    exact refillAll_keeps k3
  · rename_i v8 v9
    exact clampFld_keeps k3
  · rename_i v10 v11
    exact clampFld_keeps k3
  · rename_i v12 v13
    exact clampFld_keeps k3
  · rename_i v14 v15
    exact clampFld_keeps k3
  · rename_i v16 v17
    exact startLink_keeps k3
  · rename_i v18 v19
    exact refillAll_keeps (clearSlice_keeps k4)
  · rename_i v20 v21
    exact modFn_keeps k5
  · rename_i v22 v23 v24 v25 v26 v27 v28 v29 v30
    exact k3

theorem enableBlock_keeps {a0 p s} (h_s : Keeps a0 s) : Keeps a0 (enableBlock p s) := by
  unfold enableBlock
  refine keeps_ite (errInfo_keeps (penBit_keeps h_s)) ?_
  extract_lets
  rename_i v0 v1
  clear_value v0
  have k2 : Keeps a0 v1 := setFld_keeps h_s
  clear_value v1
  exact keeps_ite (enterRunning_keeps k2) k2

theorem sliceOff_keeps {a0 t s} (h_s : Keeps a0 s) : Keeps a0 (sliceOff t s) := keeps_foldl (fun _ _ h2 => setReady_keeps
    h2) (clearSlice_keeps h_s)

theorem toDisabled_keeps {a0 p s} (h_s : Keeps a0 s) : Keeps a0 (toDisabled p s) := by
  unfold toDisabled
  split
  · rename_i v0 v1
    exact sliceOff_keeps (setBlkState_keeps h_s)
  · rename_i v2 v3
    exact setBlkState_keeps (dropGroup_keeps h_s)
  · rename_i v4 v5
    exact setBlkState_keeps (enterUnpaired_keeps h_s)
  · rename_i v6 v7 v8 v9
    exact setBlkState_keeps h_s

theorem disableBlock_keeps {a0 p s} (h_s : Keeps a0 s) : Keeps a0 (disableBlock p s) := by
  unfold disableBlock
  refine keeps_ite h_s ?_
  extract_lets
  rename_i v0 v1 v2 v3
  have k4 : Keeps a0 v0 := setFld_keeps h_s
  clear_value v0
  have k5 : Keeps a0 v1 := keeps_ite (setPairX_keeps k4) k4
  clear_value v1
  have k6 : Keeps a0 v2 := setBlkState_keeps k5
  clear_value v2
  have k7 : Keeps a0 v3 := by
    unfold v3
    split
    · rename_i v8 v9
      exact keeps_foldl (fun _ _ h12 => deletePair_keeps h12) k6
    · rename_i v13 v14
      exact quietLink_keeps k6
    · rename_i v15 v16 v17
      exact k6
  clear_value v3
  exact keeps_ite k4 (keeps_ite k7 (toDisabled_keeps k7))

theorem writeFence_keeps {a0 p s} (h_s : Keeps a0 s) : Keeps a0 (writeFence p s) := keeps_ite (fenceBlock_keeps h_s) h_s

theorem writeUnfence_keeps {a0 p s} (h_s : Keeps a0 s) : Keeps a0 (writeUnfence p s) := keeps_ite h_s (keeps_ite
    (intgPen_keeps h_s) (keeps_ite h_s (setBlkState_keeps (setFld_keeps h_s))))

theorem resetFirst_keeps {a0 p s} (h_s : Keeps a0 s) : Keeps a0 (resetFirst p s) := by
  unfold resetFirst
  split
  · rename_i v0 v1
    exact ckptSoftReset_keeps h_s
  · rename_i v2 v3
    exact pairSoftReset_keeps h_s
  · rename_i v4 v5
    exact h_s
  · rename_i v6 v7 v8 v9
    exact stopBlock_keeps h_s

theorem resetTables_keeps {a0 p s} (h_s : Keeps a0 s) : Keeps a0 (resetTables p s) := by
  have drop : ∀ tab {z : State}, Keeps a0 z → Keeps a0 { z with
      tabAct := z.tabAct.filter fun e => e.1 / 2 ^ 20 != tab, tabSh := z.tabSh.filter fun e => e.1 / 2 ^ 20 != tab } :=
    fun tab z h => keeps_tabSh (mwf_filter _) (keeps_tabAct (mwf_filter _) h)
  unfold resetTables
  extract_lets d
  split
  · exact drop 1 h_s
  · exact drop 2 h_s
  · exact keeps_prec (fun _ => rfl) (keeps_updT rfl h_s)
  · exact h_s

theorem softReset_keeps {a0 p s} (h_s : Keeps a0 s) : Keeps a0 (softReset p s) := by
  unfold softReset
  refine keeps_ite h_s ?_
  extract_lets
  rename_i v0 v1
  have k2 : Keeps a0 v0 := keeps_foldl (fun _ _ h5 => abortHeld_keeps h5) h_s
  clear_value v0
  have k6 : Keeps a0 v1 := resetFirst_keeps k2
  clear_value v1
  exact setBlkState_keeps (resetTables_keeps (resetPage_keeps k6))

theorem blkCtlWrite_keeps {a0 a p v s} (h_s : Keeps a0 s) : Keeps a0 (blkCtlWrite a p v s) := by
  unfold blkCtlWrite
  refine keeps_ite h_s (keeps_ite (softReset_keeps h_s) ?_)
  extract_lets
  rename_i v0 v1
  have k2 : Keeps a0 v0 := plainWrite_keeps h_s
  clear_value v0
  have k3 : Keeps a0 v1 := keeps_ite (enableBlock_keeps k2) (disableBlock_keeps k2)
  clear_value v1
  exact keeps_ite (writeFence_keeps k3) (writeUnfence_keeps k3)

theorem thenState_keeps {a0 o s} (h_o : OutKeeps a0 o) (h_s : Keeps a0 s) : Keeps a0 (thenState o s) := by
  unfold thenState
  split
  · rename_i v0 v1
    exact keeps_of_next rfl h_o
  · rename_i v2 v3
    exact h_s
  · rename_i v4 v5
    exact h_s

theorem deviceWrite_keeps {a0 a addr v s} (h_s : Keeps a0 s) : Keeps a0 (deviceWrite a addr v s) := by
  unfold deviceWrite
  split
  · rename_i v0 v1
    exact h_s
  · rename_i v2 v3 v4
    extract_lets
    rename_i v5 v6 v7 v8
    clear_value v5 v6
    have k9 : Keeps a0 v7 := keeps_ite (thenState_keeps (execPatClear_keeps h_s) h_s) h_s
    clear_value v7 v8
    refine keeps_ite h_s (keeps_ite (thenState_keeps (execPennantWrite_keeps h_s) h_s) ?_)
    refine keeps_ite (thenState_keeps (execPennantForce_keeps h_s) h_s) ?_
    refine keeps_ite (blkCtlWrite_keeps h_s) (keeps_ite (keeps_ite (commitReq_keeps h_s) h_s) ?_)
    refine keeps_ite (keeps_ite (thenState_keeps (execSnapValidClear_keeps h_s) h_s) h_s) ?_
    refine keeps_ite (pcCtlWrite_keeps h_s) (keeps_ite (plainWrite_keeps h_s) ?_)
    split
    · rename_i v10 v11
      exact thenState_keeps (execGlbDrvAbi_keeps h_s) h_s
    · rename_i v12 v13
      exact thenState_keeps (execHalyardFire_keeps h_s) h_s
    · rename_i v14 v15
      exact keeps_ite (keeps_ite (thenState_keeps (execRetrain_keeps h_s) h_s) h_s) (thenState_keeps (execPatSelect_keeps
          k9) k9)
    · rename_i v16 v17
      exact keeps_ite (thenState_keeps (execFuncDrvAbi_keeps h_s) h_s) (keeps_ite (thenState_keeps (execHeartbeat_keeps
          h_s) h_s) (keeps_ite (keeps_ite (thenState_keeps (execAdopt_keeps h_s) h_s) (keeps_ite (thenState_keeps
              (execFuncReset_keeps h_s) h_s) h_s)) (keeps_ite (thenState_keeps (execRmtDbHi_keeps h_s) h_s) (keeps_ite
                  (thenState_keeps (execSqTail_keeps h_s) h_s) (thenState_keeps (execCqHead_keeps h_s) h_s)))))
    · rename_i v18 v19 v20 v21 v22
      exact h_s

theorem deviceStore_keeps {a0 a addr size v s} (h_s : Keeps a0 s) : Keeps a0 (deviceStore a addr size v s) := keeps_ite
    (recordBad_keeps h_s) (keeps_ite (deviceWrite_keeps (deviceWrite_keeps h_s)) (deviceWrite_keeps h_s))

theorem execRegisterWrite_keeps {a0 a addr v hi s} (h_s : Keeps a0 s) : OutKeeps a0 (execRegisterWrite a addr v hi s) := by
  unfold execRegisterWrite
  refine out_next ?_
  split
  · rename_i v0 v1
    exact deviceStore_keeps h_s
  · rename_i v2
    exact deviceStore_keeps h_s

theorem deviceRead_keeps {a0 a addr s} (h_s : Keeps a0 s) : Keeps a0 (deviceRead a addr s).2 := by
  unfold deviceRead
  split
  · rename_i v0 v1
    exact h_s
  · rename_i v2 v3 v4
    extract_lets
    rename_i v5 v6 v7 v8
    clear_value v5 v6 v7
    have k9 : Keeps a0 v8 := keeps_ite (pcRead_keeps h_s) (keeps_ite (setLatch_keeps h_s) (keeps_ite (keeps_upd h_s) h_s))
    clear_value v8
    exact keeps_ite_snd h_s k9

theorem deviceLoad_keeps {a0 a addr size s} (h_s : Keeps a0 s) : Keeps a0 (deviceLoad a addr size s).2 := by
  unfold deviceLoad
  refine keeps_ite_snd (recordBad_keeps h_s) (keeps_ite_snd ?_ (deviceRead_keeps h_s))
  split
  · rename_i v0 v1 v2 v3
    split
    · rename_i v4 v5 v6 v7
      exact keeps_of_snd v7 (deviceRead_keeps (keeps_of_snd v3 (deviceRead_keeps h_s)))

theorem execTickCountLoRead_keeps {a0 r s} (h_s : Keeps a0 s) : OutKeeps a0 (execTickCountLoRead r s) := out_next
    (deviceLoad_keeps h_s)

theorem rejoinPage_keeps {a0 p s} (h_s : Keeps a0 s) : Keeps a0 (rejoinPage p s) := by
  unfold rejoinPage
  extract_lets
  rename_i v0 v1
  have k2 : Keeps a0 v0 := bumpEpoch_keeps h_s
  clear_value v0
  have k3 : Keeps a0 v1 := setBlkState_keeps k2
  clear_value v1
  split
  · rename_i v4 v5
    exact newEpoch_keeps k3
  · rename_i v6 v7
    exact startLink_keeps k3
  · rename_i v8 v9
    exact keeps_ite (refillAll_keeps k3) (sliceOff_keeps k3)
  · rename_i v10 v11 v12 v13
    exact k3

theorem edgeRejoin_keeps {a0 s} (h_s : Keeps a0 s) : Keeps a0 (edgeRejoin s) := keeps_foldl (fun _ _ h2 => rejoinPage_keeps
    h2) h_s

theorem endSoftReset_keeps {a0 p s} (h_s : Keeps a0 s) : Keeps a0 (endSoftReset p s) := by
  unfold endSoftReset
  extract_lets
  rename_i v0 v1
  have k2 : Keeps a0 v0 := bumpEpoch_keeps h_s
  clear_value v0
  have k3 : Keeps a0 v1 := setBlkState_keeps k2
  clear_value v1
  split
  · rename_i v4 v5
    exact newEpoch_keeps k3
  · rename_i v6 v7
    exact sliceOff_keeps k3
  · rename_i v8 v9 v10
    exact k3

theorem execBlkEnable_keeps {a0 t a p s} (h_s : Keeps a0 s) : OutKeeps a0 (execBlkEnable t a p s) := out_next (keeps_ite
    (enableBlock_keeps (atTime_keeps h_s)) (atTime_keeps h_s))

theorem execBlkDisable_keeps {a0 t a p s} (h_s : Keeps a0 s) : OutKeeps a0 (execBlkDisable t a p s) := out_next (keeps_ite
    (disableBlock_keeps (atTime_keeps h_s)) (atTime_keeps h_s))

theorem execBlkStopped_keeps {a0 t p s} (h_s : Keeps a0 s) : OutKeeps a0 (execBlkStopped t p s) := by
  unfold execBlkStopped
  refine out_next ?_
  extract_lets
  rename_i v0
  have k1 : Keeps a0 v0 := atTime_keeps h_s
  clear_value v0
  exact keeps_ite (toDisabled_keeps k1) k1

theorem execBlkFence_keeps {a0 t a p s} (h_s : Keeps a0 s) : OutKeeps a0 (execBlkFence t a p s) := out_next (keeps_ite
    (writeFence_keeps (atTime_keeps h_s)) (atTime_keeps h_s))

theorem execBlkUnfence_keeps {a0 t a p s} (h_s : Keeps a0 s) : OutKeeps a0 (execBlkUnfence t a p s) := out_next (keeps_ite
    (writeUnfence_keeps (atTime_keeps h_s)) (atTime_keeps h_s))

theorem execBlkSoftReset_keeps {a0 t a p s} (h_s : Keeps a0 s) : OutKeeps a0 (execBlkSoftReset t a p s) := out_next
    (keeps_ite (softReset_keeps (atTime_keeps h_s)) (atTime_keeps h_s))

theorem execSoftResetDone_keeps {a0 t p s} (h_s : Keeps a0 s) : OutKeeps a0 (execSoftResetDone t p s) := by
  unfold execSoftResetDone
  refine out_next ?_
  extract_lets
  rename_i v0
  have k1 : Keeps a0 v0 := atTime_keeps h_s
  clear_value v0
  exact keeps_ite k1 (endSoftReset_keeps k1)

theorem derate_keeps {a0 m v s} (h_s : Keeps a0 s) : Keeps a0 (derate m v s) := by
  unfold derate
  extract_lets
  rename_i v0
  clear_value v0
  exact keeps_ite (penBit_keeps (setFld_keeps h_s)) (keeps_ite (setFld_keeps h_s) h_s)

theorem checkSensor_keeps {a0 id v s} (h_s : Keeps a0 s) : Keeps a0 (checkSensor id v s) := by
  unfold checkSensor
  split
  · rename_i v0 v1
    exact h_s
  · rename_i v2 v3 v4
    extract_lets
    rename_i v5 v6
    clear_value v5
    have k7 : Keeps a0 v6 := setMgmt_keeps h_s
    clear_value v6
    exact keeps_ite h_s (platformEvent_keeps (penBit_keeps k7))

theorem execSensorSample_keeps {a0 t id v s} (h_s : Keeps a0 s) : OutKeeps a0 (execSensorSample t id v s) := by
  unfold execSensorSample
  refine out_next ?_
  extract_lets
  rename_i v0 v1 v2
  have k3 : Keeps a0 v0 := atTime_keeps h_s
  clear_value v0
  have k4 : Keeps a0 v1 := setMgmt_keeps k3
  clear_value v1
  have k5 : Keeps a0 v2 := keeps_ite (derate_keeps k4) k4
  clear_value v2
  exact keeps_ite k3 (checkSensor_keeps k5)

theorem execLogCommit_keeps {a0 t seq s} (h_s : Keeps a0 s) : OutKeeps a0 (execLogCommit t seq s) :=
  .next (keeps_log (fun h => by simpa using h) (atTime_keeps h_s))

theorem execBootReady_keeps {a0 t s} (h_s : Keeps a0 s) : OutKeeps a0 (execBootReady t s) := by
  unfold execBootReady
  refine out_next ?_
  extract_lets
  rename_i v0 v1 v2 v3 v4
  have k5 : Keeps a0 v0 := atTime_keeps h_s
  clear_value v0 v1
  have k6 : Keeps a0 v2 := setMgmt_keeps k5
  clear_value v2 v3
  have k7 : Keeps a0 v4 := applyArb_keeps (keeps_upd k6)
  clear_value v4
  exact keeps_ite k5 (showMss_keeps (logEvent_keeps k7))

theorem sideFrame_keeps {a0 s} (h_s : Keeps a0 s) : Keeps a0 (sideFrame s) := raiseLine_keeps h_s

theorem execSetEndpointId_keeps {a0 bus op eid s} (h_s : Keeps a0 s) : OutKeeps a0 (execSetEndpointId bus op eid s) := by
  unfold execSetEndpointId
  refine out_next (keeps_ite h_s ?_)
  extract_lets
  rename_i v0 v1 v2 v3 v4
  have k5 : Keeps a0 v0 := sideFrame_keeps h_s
  clear_value v0 v1 v2 v3
  have k6 : Keeps a0 v4 := keeps_ite (setMgmt_keeps k5) k5
  clear_value v4
  exact emit_keeps k6

theorem execDynamicAddressAssign_keeps {a0 addr static s} (h_s : Keeps a0 s) : OutKeeps a0 (execDynamicAddressAssign addr
    static s) := out_next (keeps_ite h_s (setMgmt_keeps h_s))

theorem execRecoveryRequest_keeps {a0 t s} (h_s : Keeps a0 s) : OutKeeps a0 (execRecoveryRequest t s) := by
  unfold execRecoveryRequest
  refine out_next ?_
  extract_lets
  rename_i v0 v1 v2 v3
  have k4 : Keeps a0 v0 := atTime_keeps h_s
  clear_value v0
  have k5 : Keeps a0 v1 := sideFrame_keeps k4
  clear_value v1
  have k6 : Keeps a0 v2 := breakSplice_keeps k5
  clear_value v2
  have k7 : Keeps a0 v3 := by
    unfold v3
    split
    · rename_i v8 v9
      exact startShutdown_keeps k6
    · rename_i v10 v11
      exact k6
    · rename_i v12 v13
      exact k6
    · rename_i v14 v15 v16 v17
      exact mainOff_keeps k6
  clear_value v3
  refine keeps_ite k4 (keeps_ite k5 ?_)
  split
  · rename_i v18 v19 v20 v21
    extract_lets
    rename_i v22
    have k23 : Keeps a0 v22 := logEvent_keeps (setAlert_keeps (keeps_of_snd v21 (freeVal_keeps k7)))
    clear_value v22
    exact showMss_keeps (startMssPart_keeps (setMgmt_keeps k23))

theorem writeSlot_keeps {a0 k x s} (h_s : Keeps a0 s) : Keeps a0 (writeSlot k x s) := setMgmt_keeps h_s

theorem raiseSlot_keeps {a0 k s} (h_s : Keeps a0 s) : Keeps a0 (raiseSlot k s) := setMgmt_keeps h_s

theorem execRequestUpdate_keeps {a0 t s} (h_s : Keeps a0 s) : OutKeeps a0 (execRequestUpdate t s) := by
  unfold execRequestUpdate
  refine out_next ?_
  extract_lets
  rename_i v0 v1
  have k2 : Keeps a0 v0 := atTime_keeps h_s
  clear_value v0
  have k3 : Keeps a0 v1 := sideFrame_keeps k2
  clear_value v1
  refine keeps_ite k2 (keeps_ite (emit_keeps k3) ?_)
  split
  · rename_i v4 v5 v6 v7
    exact emit_keeps (setMgmt_keeps (keeps_of_snd v7 (freeBytes_keeps k3)))

theorem componentDone_keeps {a0 comp u s} (h_s : Keeps a0 s) : Keeps a0 (componentDone comp u s) := penBit_keeps
    (setMgmt_keeps h_s)

theorem execUpdateComponent_keeps {a0 t comp bytes chk s} (h_s : Keeps a0 s) : OutKeeps a0 (execUpdateComponent t comp
    bytes chk s) := by
  unfold execUpdateComponent
  refine out_next ?_
  extract_lets
  rename_i v0 v1 v2
  have k3 : Keeps a0 v0 := atTime_keeps h_s
  clear_value v0 v1 v2
  split
  · rename_i v4 v5
    exact k3
  · rename_i v6 v7 v8
    exact keeps_ite k3 (keeps_ite (componentDone_keeps (writeSlot_keeps k3)) (keeps_ite (componentDone_keeps (setMgmt_keeps
        k3)) (keeps_ite (keeps_ite (keeps_ite k3 (showMss_keeps (startMssPart_keeps (setMgmt_keeps k3))))
            (componentDone_keeps (setMgmt_keeps k3))) k3)))

theorem execActivateFirmware_keeps {a0 t self s} (h_s : Keeps a0 s) : OutKeeps a0 (execActivateFirmware t self s) := by
  unfold execActivateFirmware
  refine out_next ?_
  extract_lets
  rename_i v0 v1 v2 v3 v4
  have k5 : Keeps a0 v0 := atTime_keeps h_s
  clear_value v0
  have k6 : ∀ z0 z1, Keeps a0 z1 → Keeps a0 (v1 z0 z1) := by
    intro y7 y8 h9
    unfold v1
    exact emit_keeps h9
  clear_value v1
  have k10 : Keeps a0 v2 := sideFrame_keeps k5
  clear_value v2 v3
  have k11 : Keeps a0 v4 := setMgmt_keeps k10
  clear_value v4
  refine keeps_ite k5 ?_
  split
  · rename_i v12 v13
    exact k6 _ _ k10
  · rename_i v14 v15 v16
    refine keeps_ite (k6 _ _ k10) (keeps_ite (k6 _ _ k10) ?_)
    extract_lets
    rename_i v17
    clear_value v17
    refine keeps_ite (k6 _ _ k10) ?_
    split
    · rename_i v18 v19 v20 v21
      extract_lets
      rename_i v22
      have k23 : Keeps a0 v22 := k6 _ _ (keeps_of_snd v21 (freeBytes_keeps k11))
      clear_value v22
      exact keeps_ite k23 (keeps_ite (startSplice_keeps k23) (raiseSlot_keeps k23))

theorem execFirmwareImageDownload_keeps {a0 t func sq cid data fail s} (h_s : Keeps a0 s) : OutKeeps a0
    (execFirmwareImageDownload t func sq cid data fail s) := by
  unfold execFirmwareImageDownload
  refine out_next (runNvme_keeps ?_ h_s)
  intro y0 y1 h2
  extract_lets
  rename_i v3 v4 v5
  clear_value v3 v4
  have k6 : Keeps a0 v5 := setMgmt_keeps h2
  clear_value v5
  refine keeps_ite (endNvme_keeps h2) ?_
  refine keeps_ite (endNvme_keeps h2) (keeps_ite (endNvme_keeps (nvmeFetchFail_keeps h2)) ?_)
  split
  · rename_i v7 v8 v9
    exact endNvme_keeps h2
  · rename_i v10 v11
    exact endNvme_keeps (setNvme_keeps k6)

theorem storeSlot_keeps {a0 k x s} (h_s : Keeps a0 s) : Keeps a0 (storeSlot k x s) := setMgmt_keeps h_s

theorem execFirmwareCommit_keeps {a0 t func sq cid chk s} (h_s : Keeps a0 s) : OutKeeps a0 (execFirmwareCommit t func sq
    cid chk s) := by
  unfold execFirmwareCommit
  refine out_next (runNvme_keeps ?_ h_s)
  intro y0 y1 h2
  extract_lets
  rename_i v3 v4 v5 v6 v7 v8
  clear_value v3 v4 v5 v6
  have k9 : ∀ z0, Keeps a0 z0 → Keeps a0 (v7 z0) := by
    intro y10 h11
    unfold v7
    exact setMgmt_keeps (setNvme_keeps h11)
  clear_value v7
  have k12 : Keeps a0 v8 := by
    unfold v8
    split
    · rename_i v13 v14
      exact k9 _ (writeSlot_keeps h2)
    · rename_i v15
      exact h2
  clear_value v8
  refine keeps_ite (endNvme_keeps h2) ?_
  refine keeps_ite (endNvme_keeps h2) (keeps_ite (endNvme_keeps h2) (keeps_ite (endNvme_keeps h2) ?_))
  refine keeps_ite (keeps_ite (endNvme_keeps (raiseSlot_keeps h2)) (endNvme_keeps h2)) ?_
  refine keeps_ite (startSplice_keeps k12) ?_
  split
  · rename_i v16
    exact endNvme_keeps h2
  · rename_i v17 v18
    refine keeps_ite (endNvme_keeps (k9 _ h2)) ?_
    extract_lets
    rename_i v19
    have k20 : Keeps a0 v19 := storeSlot_keeps (k9 _ h2)
    clear_value v19
    exact endNvme_keeps (keeps_ite (raiseSlot_keeps k20) k20)

theorem enterImage_keeps {a0 parts s} (h_s : Keeps a0 s) : Keeps a0 (enterImage parts s) := by
  unfold enterImage
  refine forN_keeps (loadMssPart_keeps (loadParts_keeps h_s)) ?_
  intro y0 y1 h2
  split
  · rename_i v3 v4 v5
    exact h2
  · rename_i v6 v7
    exact h2
  · rename_i v8 v9 v10
    exact putCore_keeps h2

theorem execSpliceCommit_keeps {a0 t accepted s} (h_s : Keeps a0 s) : OutKeeps a0 (execSpliceCommit t accepted s) := by
  unfold execSpliceCommit
  refine out_next ?_
  extract_lets
  rename_i v0
  have k1 : Keeps a0 v0 := atTime_keeps h_s
  clear_value v0
  split
  · rename_i v2 v3
    exact k1
  · rename_i v4 v5 v6
    extract_lets
    rename_i v7
    clear_value v7
    exact keeps_ite (commitSplice_keeps (enterImage_keeps k1)) k1

theorem execSpliceRollback_keeps {a0 t reason core comp s} (h_s : Keeps a0 s) : OutKeeps a0 (execSpliceRollback t reason
    core comp s) := by
  unfold execSpliceRollback
  refine out_next ?_
  extract_lets
  rename_i v0
  have k1 : Keeps a0 v0 := atTime_keeps h_s
  clear_value v0
  split
  · rename_i v2 v3
    exact k1
  · rename_i v4 v5 v6
    exact keeps_ite k1 (keeps_ite k1 (rollSplice_keeps k1))

theorem putConn_keeps {a0 b x s} (h_s : Keeps a0 s) : Keeps a0 (putConn b x s) := setMgmt_keeps h_s

theorem keepSigned_keeps {a0 b ref t key s} (h_s : Keeps a0 s) : Keeps a0 (keepSigned b ref t key s) := by
  unfold keepSigned
  extract_lets
  rename_i v0
  clear_value v0
  exact putConn_keeps h_s

theorem needPhase_keeps {a0 n f x1 x2 x3 x4 x5} (h_f : ∀ y0 y1 y2 y3 y4, Keeps a0 y4 → Keeps a0 (f y0 y1 y2 y3 y4).2) (h_x5 :
    Keeps a0 x5) : Keeps a0 (needPhase n f x1 x2 x3 x4 x5).2 :=
  keeps_ite_snd h_x5 (keeps_ite_snd h_x5 (h_f _ _ _ _ _ h_x5))

theorem needSession_keeps {a0 open_ f x1 x2 x3 x4 x5} (h_f : ∀ y0 y1 y2 y3 y4 y5, Keeps a0 y5 → Keeps a0 (f y0 y1 y2 y3 y4
    y5).2)
    (h_x5 : Keeps a0 x5) : Keeps a0 (needSession open_ f x1 x2 x3 x4 x5).2 := by
  unfold needSession
  split
  · rename_i v0
    exact h_x5
  · rename_i v1 v2
    exact keeps_ite_snd (h_f _ _ _ _ _ _ (putConn_keeps h_x5)) h_x5

theorem spdmVersion_keeps {a0 x1 x2 x3 x4 x5} (h_x5 : Keeps a0 x5) : Keeps a0 (spdmVersion x1 x2 x3 x4 x5).2 :=
  keeps_ite_snd h_x5 (keeps_ite_snd h_x5 (putConn_keeps h_x5))

theorem spdmCapabilities_keeps {a0 x1 x2 x3 x4 x5} (h_x5 : Keeps a0 x5) : Keeps a0 (spdmCapabilities x1 x2 x3 x4 x5).2 := by
  unfold spdmCapabilities
  refine needPhase_keeps ?_ h_x5
  intro _ _ _ _ _ h5
  split
  rename_i v6 v7 v8 v9
  extract_lets
  rename_i v10 v11
  clear_value v10 v11
  exact putConn_keeps (keeps_of_snd v9 (freeBytes_keeps h5))

theorem spdmAlgorithms_keeps {a0 x1 x2 x3 x4 x5} (h_x5 : Keeps a0 x5) : Keeps a0 (spdmAlgorithms x1 x2 x3 x4 x5).2 := by
  unfold spdmAlgorithms
  refine needPhase_keeps ?_ h_x5
  intro _ _ _ _ _ h5
  refine keeps_ite_snd h5 ?_
  extract_lets
  rename_i v6 v7
  clear_value v6 v7
  exact putConn_keeps h5

theorem spdmDigests_keeps {a0 x1 x2 x3 x4 x5} (h_x5 : Keeps a0 x5) : Keeps a0 (spdmDigests x1 x2 x3 x4 x5).2 :=
  needPhase_keeps (fun _ _ _ _ _ h5 => h5) h_x5

theorem spdmCertificate_keeps {a0 x1 x2 x3 x4 x5} (h_x5 : Keeps a0 x5) : Keeps a0 (spdmCertificate x1 x2 x3 x4 x5).2 := by
  unfold spdmCertificate
  refine needPhase_keeps ?_ h_x5
  intro _ _ _ _ _ h5
  extract_lets
  rename_i v6 v7 v8
  clear_value v6 v7 v8
  exact keeps_ite_snd h5 h5

theorem spdmChallenge_keeps {a0 x1 x2 x3 x4 x5} (h_x5 : Keeps a0 x5) : Keeps a0 (spdmChallenge x1 x2 x3 x4 x5).2 := by
  unfold spdmChallenge
  refine needPhase_keeps ?_ h_x5
  intro _ _ _ _ _ h5
  refine keeps_ite_snd h5 ?_
  extract_lets
  rename_i v6 v7
  clear_value v6 v7
  split
  rename_i v8 v9 v10 v11
  extract_lets
  rename_i v12
  clear_value v12
  exact keepSigned_keeps (keeps_of_snd v11 (freeBytes_keeps h5))

theorem spdmMeasurements_keeps {a0 x1 x2 x3 x4 x5} (h_x5 : Keeps a0 x5) : Keeps a0 (spdmMeasurements x1 x2 x3 x4 x5).2 := by
  unfold spdmMeasurements
  refine needPhase_keeps ?_ h_x5
  intro _ _ _ _ _ h5
  extract_lets
  rename_i v6 v7 v8 v9 v10 v11
  clear_value v6 v7 v8 v9 v10 v11
  refine keeps_ite_snd h5 ?_
  split
  rename_i v12 v13 v14 v15
  extract_lets
  rename_i v16
  clear_value v16
  exact keeps_ite (keepSigned_keeps (keeps_of_snd v15 (freeBytes_keeps h5))) (keeps_of_snd v15 (freeBytes_keeps h5))

theorem spdmKeyExchange_keeps {a0 x1 x2 x3 x4 x5} (h_x5 : Keeps a0 x5) : Keeps a0 (spdmKeyExchange x1 x2 x3 x4 x5).2 := by
  unfold spdmKeyExchange
  refine needPhase_keeps ?_ h_x5
  intro _ _ _ _ _ h5
  refine keeps_ite_snd h5 ?_
  extract_lets
  rename_i v6 v7
  clear_value v6 v7
  split
  rename_i v8 v9 v10 v11
  extract_lets
  rename_i v12 v13 v14
  clear_value v12 v13 v14
  exact keepSigned_keeps (putConn_keeps (keeps_of_snd v11 (freeBytes_keeps h5)))

theorem spdmFinish_keeps {a0 x1 x2 x3 x4 x5} (h_x5 : Keeps a0 x5) : Keeps a0 (spdmFinish x1 x2 x3 x4 x5).2 := by
  unfold spdmFinish
  refine needPhase_keeps ?_ h_x5
  intro _ _ _ _ _ h5
  refine needSession_keeps ?_ h5
  intro _ _ _ _ _ _ h12
  extract_lets
  rename_i v13
  clear_value v13
  exact putConn_keeps h12

theorem spdmHeartbeat_keeps {a0 x1 x2 x3 x4 x5} (h_x5 : Keeps a0 x5) : Keeps a0 (spdmHeartbeat x1 x2 x3 x4 x5).2 :=
  needPhase_keeps (fun _ _ _ _ _ h5 => needSession_keeps (fun _ _ _ _ _ _ h12 => h12) h5) h_x5

theorem spdmKeyUpdate_keeps {a0 x1 x2 x3 x4 x5} (h_x5 : Keeps a0 x5) : Keeps a0 (spdmKeyUpdate x1 x2 x3 x4 x5).2 := by
  unfold spdmKeyUpdate
  refine needPhase_keeps ?_ h_x5
  intro _ _ _ _ _ h5
  refine needSession_keeps ?_ h5
  intro _ _ _ _ _ _ h12
  extract_lets
  rename_i v13
  clear_value v13
  exact keeps_ite_snd h12 h12

theorem spdmEndSession_keeps {a0 x1 x2 x3 x4 x5} (h_x5 : Keeps a0 x5) : Keeps a0 (spdmEndSession x1 x2 x3 x4 x5).2 := by
  unfold spdmEndSession
  refine needPhase_keeps ?_ h_x5
  intro _ _ _ _ _ h5
  refine needSession_keeps ?_ h5
  intro _ _ _ _ _ _ h12
  extract_lets
  rename_i v13
  clear_value v13
  exact putConn_keeps h12

theorem pqFail_keeps {a0 op status s} (h_s : Keeps a0 s) : Keeps a0 (pqFail op status s).2 := by
  unfold pqFail
  split
  · rename_i v0 v1 v2 v3
    exact keeps_of_snd v3 (freeBytes_keeps h_s)

theorem pqAnswer_keeps {a0 op total p digest data s} (h_s : Keeps a0 s) : Keeps a0 (pqAnswer op total p digest data s).2 := by
  unfold pqAnswer
  extract_lets
  rename_i v0 v1
  clear_value v0 v1
  exact keeps_ite_snd (pqFail_keeps h_s) h_s

theorem spdmPqSig_keeps {a0 x1 x2 x3 x4 x5} (h_x5 : Keeps a0 x5) : Keeps a0 (spdmPqSig x1 x2 x3 x4 x5).2 := by
  unfold spdmPqSig
  refine needPhase_keeps ?_ h_x5
  intro _ _ _ _ _ h5
  split
  · rename_i v6 v7
    exact h5
  · rename_i v8 v9 v10
    refine keeps_ite_snd (pqFail_keeps h5) ?_
    split
    · rename_i v11 v12
      exact pqFail_keeps h5
    · rename_i v13 v14 v15 v16
      extract_lets
      rename_i v17 v18 v19 v20
      clear_value v17 v18
      have k21 : Keeps a0 v19 := keeps_draw h5
      clear_value v19
      exact keeps_ite_snd (pqFail_keeps k21) (pqAnswer_keeps k21)

theorem spdmPqCert_keeps {a0 x1 x2 x3 x4 x5} (h_x5 : Keeps a0 x5) : Keeps a0 (spdmPqCert x1 x2 x3 x4 x5).2 := by
  unfold spdmPqCert
  refine needPhase_keeps ?_ h_x5
  intro _ _ _ _ _ h5
  split
  · rename_i v6 v7
    exact h5
  · rename_i v8 v9 v10
    exact keeps_ite_snd (pqFail_keeps h5) (pqAnswer_keeps h5)

theorem spdmByCode_keeps {a0 req} : ∀ f, spdmByCode req = some f →
    ∀ b sess t r s, Keeps a0 s → Keeps a0 (f b sess t r s).2 := by
  intro f h b sess t r s hs
  unfold spdmByCode at h
  split at h <;> cases h
  · exact spdmVersion_keeps hs
  · exact spdmCapabilities_keeps hs
  · exact spdmAlgorithms_keeps hs
  · exact spdmDigests_keeps hs
  · exact spdmCertificate_keeps hs
  · exact spdmChallenge_keeps hs
  · exact spdmMeasurements_keeps hs
  · exact spdmKeyExchange_keeps hs
  · exact spdmFinish_keeps hs
  · exact spdmHeartbeat_keeps hs
  · exact spdmKeyUpdate_keeps hs
  · exact spdmEndSession_keeps hs
  · split
    · exact spdmPqCert_keeps hs
    · exact spdmPqSig_keeps hs

theorem spdmChunkSend_keeps {a0 x1 x2 x3 x4 x5} (h_x5 : Keeps a0 x5) : Keeps a0 (spdmChunkSend x1 x2 x3 x4 x5).2 := by
  unfold spdmChunkSend
  refine needPhase_keeps (fun b sess t req s h => ?_) h_x5
  extract_lets
  split
  · exact putConn_keeps h
  · split
    · rename_i e
      exact spdmByCode_keeps _ e _ _ _ _ _ (putConn_keeps h)
    · exact putConn_keeps h

theorem spdmChunkGet_keeps {a0 x1 x2 x3 x4 x5} (h_x5 : Keeps a0 x5) : Keeps a0 (spdmChunkGet x1 x2 x3 x4 x5).2 := by
  unfold spdmChunkGet
  refine needPhase_keeps ?_ h_x5
  intro _ _ _ _ _ h5
  extract_lets
  rename_i v6 v7 v8 v9 v10
  clear_value v6 v7 v8 v9 v10
  exact keeps_ite_snd h5 (putConn_keeps h5)

theorem spdmRequest_keeps {a0 t b sess code req f s} (h_f : ∀ y0 y1 y2 y3 y4, Keeps a0 y4 → Keeps a0 (f y0 y1 y2 y3 y4).2)
    (h_s :
    Keeps a0 s) : Keeps a0 (spdmRequest t b sess code req f s) := by
  unfold spdmRequest
  extract_lets
  rename_i v0 v1 v2
  have k3 : Keeps a0 v0 := atTime_keeps h_s
  clear_value v0 v1
  have k4 : Keeps a0 v2 := keeps_ite k3 (sideFrame_keeps k3)
  clear_value v2
  refine keeps_ite k3 (keeps_ite k4 ?_)
  split
  rename_i v5 v6 v7 v8
  extract_lets
  rename_i v9
  clear_value v9
  split
  rename_i v10 v11 v12 v13
  refine keeps_ite (emit_keeps (keeps_of_snd v13 (keeps_ite_snd ?_ (keeps_of_snd v8 (h_f _ _ _ _ _ k4))))) (emit_keeps
      (keeps_of_snd v13 (keeps_ite_snd ?_ (keeps_of_snd v8 (h_f _ _ _ _ _ k4)))))
  · split
    rename_i v14 v15 v16 v17
    exact putConn_keeps (keeps_of_snd v17 (freeBytes_keeps (keeps_of_snd v8 (h_f _ _ _ _ _ k4))))
  · split
    rename_i v18 v19 v20 v21
    exact putConn_keeps (keeps_of_snd v21 (freeBytes_keeps (keeps_of_snd v8 (h_f _ _ _ _ _ k4))))

theorem execGetVersion_keeps {a0 t bus sess req s} (h_s : Keeps a0 s) : OutKeeps a0 (execGetVersion t bus sess req s) :=
  out_next (spdmRequest_keeps (fun _ _ _ _ _ h5 => spdmVersion_keeps h5) h_s)

theorem execGetCapabilities_keeps {a0 t bus sess req s} (h_s : Keeps a0 s) : OutKeeps a0 (execGetCapabilities t bus sess
    req s) :=
  out_next (spdmRequest_keeps (fun _ _ _ _ _ h5 => spdmCapabilities_keeps h5) h_s)

theorem execNegotiateAlgorithms_keeps {a0 t bus sess req s} (h_s : Keeps a0 s) : OutKeeps a0 (execNegotiateAlgorithms t bus
    sess
    req s) :=
  out_next (spdmRequest_keeps (fun _ _ _ _ _ h5 => spdmAlgorithms_keeps h5) h_s)

theorem execGetDigests_keeps {a0 t bus sess req s} (h_s : Keeps a0 s) : OutKeeps a0 (execGetDigests t bus sess req s) :=
  out_next (spdmRequest_keeps (fun _ _ _ _ _ h5 => spdmDigests_keeps h5) h_s)

theorem execGetCertificate_keeps {a0 t bus sess req s} (h_s : Keeps a0 s) : OutKeeps a0 (execGetCertificate t bus sess req
    s) :=
  out_next (spdmRequest_keeps (fun _ _ _ _ _ h5 => spdmCertificate_keeps h5) h_s)

theorem execChallenge_keeps {a0 t bus sess req s} (h_s : Keeps a0 s) : OutKeeps a0 (execChallenge t bus sess req s) :=
  out_next (spdmRequest_keeps (fun _ _ _ _ _ h5 => spdmChallenge_keeps h5) h_s)

theorem execGetMeasurements_keeps {a0 t bus sess req s} (h_s : Keeps a0 s) : OutKeeps a0 (execGetMeasurements t bus sess
    req s) :=
  out_next (spdmRequest_keeps (fun _ _ _ _ _ h5 => spdmMeasurements_keeps h5) h_s)

theorem execKeyExchange_keeps {a0 t bus sess req s} (h_s : Keeps a0 s) : OutKeeps a0 (execKeyExchange t bus sess req s) :=
  out_next (spdmRequest_keeps (fun _ _ _ _ _ h5 => spdmKeyExchange_keeps h5) h_s)

theorem execFinish_keeps {a0 t bus sess req s} (h_s : Keeps a0 s) : OutKeeps a0 (execFinish t bus sess req s) :=
  out_next (spdmRequest_keeps (fun _ _ _ _ _ h5 => spdmFinish_keeps h5) h_s)

theorem execSpdmHeartbeat_keeps {a0 t bus sess req s} (h_s : Keeps a0 s) : OutKeeps a0 (execSpdmHeartbeat t bus sess req s) :=
  out_next (spdmRequest_keeps (fun _ _ _ _ _ h5 => spdmHeartbeat_keeps h5) h_s)

theorem execKeyUpdate_keeps {a0 t bus sess req s} (h_s : Keeps a0 s) : OutKeeps a0 (execKeyUpdate t bus sess req s) :=
  out_next (spdmRequest_keeps (fun _ _ _ _ _ h5 => spdmKeyUpdate_keeps h5) h_s)

theorem execEndSession_keeps {a0 t bus sess req s} (h_s : Keeps a0 s) : OutKeeps a0 (execEndSession t bus sess req s) :=
  out_next (spdmRequest_keeps (fun _ _ _ _ _ h5 => spdmEndSession_keeps h5) h_s)

theorem execChunkSend_keeps {a0 t bus sess req s} (h_s : Keeps a0 s) : OutKeeps a0 (execChunkSend t bus sess req s) :=
  out_next (spdmRequest_keeps (fun _ _ _ _ _ h5 => spdmChunkSend_keeps h5) h_s)

theorem execChunkGet_keeps {a0 t bus sess req s} (h_s : Keeps a0 s) : OutKeeps a0 (execChunkGet t bus sess req s) :=
  out_next (spdmRequest_keeps (fun _ _ _ _ _ h5 => spdmChunkGet_keeps h5) h_s)

theorem execPqSig_keeps {a0 t bus sess req s} (h_s : Keeps a0 s) : OutKeeps a0 (execPqSig t bus sess req s) :=
  out_next (spdmRequest_keeps (fun _ _ _ _ _ h5 => spdmPqSig_keeps h5) h_s)

theorem execPqCert_keeps {a0 t bus sess req s} (h_s : Keeps a0 s) : OutKeeps a0 (execPqCert t bus sess req s) :=
  out_next (spdmRequest_keeps (fun _ _ _ _ _ h5 => spdmPqCert_keeps h5) h_s)

theorem pldm_keeps {a0 t b name f s} (h_f : ∀ y0, Keeps a0 y0 → Keeps a0 (f y0).2) (h_s : Keeps a0 s) : Keeps a0 (pldm t b
    name f s) := by
  unfold pldm
  extract_lets
  rename_i v0
  have k1 : Keeps a0 v0 := atTime_keeps h_s
  clear_value v0
  refine keeps_ite k1 ?_
  split
  · rename_i v2 v3 v4 v5
    exact emit_keeps (keeps_of_snd v5 (h_f _ (sideFrame_keeps k1)))

theorem execGetTid_keeps {a0 t bus x2 s} (h_s : Keeps a0 s) : OutKeeps a0 (execGetTid t bus x2 s) := out_next (pldm_keeps
    (fun _ h1 => h1) h_s)

theorem execSetTid_keeps {a0 t bus req s} (h_s : Keeps a0 s) : OutKeeps a0 (execSetTid t bus req s) := by
  unfold execSetTid
  refine out_next (pldm_keeps ?_ h_s)
  intro y0 h1
  extract_lets
  rename_i v2
  clear_value v2
  exact keeps_ite_snd h1 (setMgmt_keeps h1)

theorem execGetPldmVersion_keeps {a0 t bus req s} (h_s : Keeps a0 s) : OutKeeps a0 (execGetPldmVersion t bus req s) := by
  unfold execGetPldmVersion
  refine out_next (pldm_keeps ?_ h_s)
  intro y0 h1
  extract_lets
  rename_i v2
  clear_value v2
  refine keeps_ite_snd h1 ?_
  split
  · rename_i v3 v4 v5 v6
    extract_lets
    rename_i v7
    clear_value v7
    exact keeps_of_snd v6 (freeBytes_keeps h1)

theorem execGetPldmTypes_keeps {a0 t bus x2 s} (h_s : Keeps a0 s) : OutKeeps a0 (execGetPldmTypes t bus x2 s) := out_next
    (pldm_keeps (fun _ h1 => h1) h_s)

theorem execGetPldmCommands_keeps {a0 t bus req s} (h_s : Keeps a0 s) : OutKeeps a0 (execGetPldmCommands t bus req s) := by
  unfold execGetPldmCommands
  refine out_next (pldm_keeps ?_ h_s)
  intro y0 h1
  extract_lets
  rename_i v2
  clear_value v2
  split
  · rename_i v3 v4
    exact h1
  · rename_i v5 v6
    exact h1
  · rename_i v7 v8
    split
    · rename_i v9 v10 v11 v12
      exact keeps_of_snd v12 (freeBytes_keeps h1)
  · rename_i v13 v14 v15 v16
    exact h1

theorem execGetPdr_keeps {a0 t bus req s} (h_s : Keeps a0 s) : OutKeeps a0 (execGetPdr t bus req s) := by
  unfold execGetPdr
  refine out_next (pldm_keeps ?_ h_s)
  intro y0 h1
  extract_lets
  rename_i v2 v3 v4 v5 v6
  clear_value v2
  clear_value v3
  clear_value v4
  clear_value v6
  exact keeps_ite_snd h1 h1

theorem execGetPdrRepositoryInfo_keeps {a0 t bus x2 s} (h_s : Keeps a0 s) : OutKeeps a0 (execGetPdrRepositoryInfo t bus x2
    s) := by
  unfold execGetPdrRepositoryInfo
  refine out_next (pldm_keeps ?_ h_s)
  intro y0 h1
  split
  · rename_i v2 v3 v4 v5
    exact keeps_of_snd v5 (freeBytes_keeps h1)

theorem execGetSensorReading_keeps {a0 t bus req s} (h_s : Keeps a0 s) : OutKeeps a0 (execGetSensorReading t bus req s) := by
  unfold execGetSensorReading
  refine out_next (pldm_keeps ?_ h_s)
  intro y0 h1
  extract_lets
  rename_i v2 v3
  clear_value v2 v3
  exact keeps_ite_snd h1 h1

theorem execSetSensorThresholds_keeps {a0 t bus req s} (h_s : Keeps a0 s) : OutKeeps a0 (execSetSensorThresholds t bus req
    s) := by
  unfold execSetSensorThresholds
  refine out_next (pldm_keeps ?_ h_s)
  intro y0 h1
  extract_lets
  rename_i v2 v3 v4
  clear_value v2 v3 v4
  exact keeps_ite_snd h1 (keeps_ite_snd h1 (setMgmt_keeps h1))

theorem execGetSensorThresholds_keeps {a0 t bus req s} (h_s : Keeps a0 s) : OutKeeps a0 (execGetSensorThresholds t bus req
    s) := by
  unfold execGetSensorThresholds
  refine out_next (pldm_keeps ?_ h_s)
  intro y0 h1
  extract_lets
  rename_i v2
  clear_value v2
  refine keeps_ite_snd h1 ?_
  split
  · rename_i v3 v4 v5
    exact h1
  · rename_i v6 v7
    split
    · rename_i v8 v9 v10 v11
      exact keeps_of_snd v11 (freeBytes_keeps h1)

theorem execSetEventReceiver_keeps {a0 t bus req s} (h_s : Keeps a0 s) : OutKeeps a0 (execSetEventReceiver t bus req s) := by
  unfold execSetEventReceiver
  refine out_next (pldm_keeps ?_ h_s)
  intro y0 h1
  extract_lets
  rename_i v2 v3
  clear_value v2 v3
  exact keeps_ite_snd h1 (keeps_ite_snd h1 (setMgmt_keeps h1))

theorem execPollForPlatformEventMessage_keeps {a0 t bus req s} (h_s : Keeps a0 s) : OutKeeps a0
    (execPollForPlatformEventMessage t bus req s) := by
  unfold execPollForPlatformEventMessage
  refine out_next (pldm_keeps ?_ h_s)
  intro y0 h1
  extract_lets
  rename_i v2 v3 v4
  clear_value v2
  have k5 : Keeps a0 v3 := keeps_ite h1 (setMgmt_keeps h1)
  clear_value v3 v4
  split
  · rename_i v6 v7
    exact k5
  · rename_i v8 v9 v10 v11 v12
    exact k5

theorem execSetNumericEffecterValue_keeps {a0 t bus req s} (h_s : Keeps a0 s) : OutKeeps a0 (execSetNumericEffecterValue t
    bus req s) := by
  unfold execSetNumericEffecterValue
  refine out_next (pldm_keeps ?_ h_s)
  intro y0 h1
  split
  · rename_i v2 v3
    exact h1
  · rename_i v4 v5 v6 v7
    extract_lets
    rename_i v8 v9 v10 v11
    clear_value v8 v9 v10
    have k12 : Keeps a0 v11 := setShadow_keeps h1
    clear_value v11
    exact keeps_ite_snd h1 (commitReq_keeps k12)

theorem execGetNumericEffecterValue_keeps {a0 t bus req s} (h_s : Keeps a0 s) : OutKeeps a0 (execGetNumericEffecterValue t
    bus req s) := by
  unfold execGetNumericEffecterValue
  refine out_next (pldm_keeps ?_ h_s)
  intro y0 h1
  split
  · rename_i v2 v3
    exact h1
  · rename_i v4 v5 v6 v7
    exact h1

theorem coreTouch_keeps {a0 i a n s} (h_s : Keeps a0 s) : Keeps a0 (coreTouch i a n s) := by
  unfold coreTouch
  split
  · rename_i v0 v1 v2
    exact keeps_ite (sliceTouch_keeps h_s) (keeps_ite (dramTouch_keeps h_s) h_s)
  · rename_i v3 v4
    exact h_s

theorem coreLoad_keeps {a0 i a n s} (h_s : Keeps a0 s) : Keeps a0 (coreLoad i a n s).2 := by
  unfold coreLoad
  split
  · rename_i v0 v1 v2
    split
    · rename_i v3 v4 v5 v6
      exact keeps_of_snd v6 (deviceLoad_keeps h_s)
  · rename_i v7 v8
    exact coreTouch_keeps h_s

theorem loadIl_keeps {a0 i x d b disp ext s} (h_s : Keeps a0 s) : Keeps a0 (loadIl i x d b disp ext s) := by
  unfold loadIl
  refine runIl_keeps ?_ h_s
  intro y0 y1 y2 h3
  extract_lets
  rename_i v4 v5
  clear_value v4 v5
  split
  · rename_i v6 v7 v8 v9
    exact il_exc
  · rename_i v10 v11
    split
    · rename_i v12 v13 v14 v15 v16
      split
      · rename_i v17 v18
        exact il_excIn (keeps_of_snd v16 (coreLoad_keeps h3))
      · rename_i v19
        exact il_done (keeps_of_snd v16 (coreLoad_keeps h3))

theorem execLd_keeps {a0 x d b disp s} (h_s : Keeps a0 s) : OutKeeps a0 (execLd x d b disp s) := out_next (loadIl_keeps h_s)

theorem execLds_keeps {a0 x d b disp s} (h_s : Keeps a0 s) : OutKeeps a0 (execLds x d b disp s) := out_next (loadIl_keeps h_s)

theorem afterDevice_keeps {a0 i c next s} (h_s : Keeps a0 s) : IlKeeps a0 (afterDevice i c next s) := by
  unfold afterDevice
  extract_lets
  rename_i v0
  clear_value v0
  exact il_ite (il_done h_s) (il_done h_s)

theorem execSt_keeps {a0 x r b disp s} (h_s : Keeps a0 s) : OutKeeps a0 (execSt x r b disp s) := by
  unfold execSt
  refine out_next (runIl_keeps ?_ h_s)
  intro y0 y1 y2 h3
  extract_lets
  rename_i v4 v5 v6
  clear_value v4 v5 v6
  split
  · rename_i v7 v8 v9 v10
    exact il_exc
  · rename_i v11 v12
    split
    · rename_i v13 v14 v15
      exact afterDevice_keeps (deviceStore_keeps h3)
    · rename_i v16 v17
      exact il_done (coreWrite_keeps h3)

theorem atomicIl_keeps {a0 i x addr new fin s} (h_s : Keeps a0 s) : Keeps a0 (atomicIl i x addr new fin s) := by
  unfold atomicIl
  refine runIl_keeps ?_ h_s
  intro y0 y1 y2 h3
  extract_lets
  rename_i v4 v5
  clear_value v4 v5
  split
  · rename_i v6 v7 v8 v9
    exact il_exc
  · rename_i v10 v11
    split
    · rename_i v12 v13 v14 v15 v16
      split
      · rename_i v17 v18
        exact il_excIn (keeps_of_snd v16 (coreLoad_keeps h3))
      · rename_i v19
        extract_lets
        rename_i v20 v21
        have k22 : Keeps a0 v20 := by
          unfold v20
          split
          · rename_i v23 v24 v25
            exact coreWrite_keeps (keeps_of_snd v16 (coreLoad_keeps h3))
          · rename_i v26 v27
            exact keeps_of_snd v16 (coreLoad_keeps h3)
        clear_value v20 v21
        exact il_done k22

theorem execXchg_keeps {a0 x d r s} (h_s : Keeps a0 s) : OutKeeps a0 (execXchg x d r s) := out_next (atomicIl_keeps h_s)

theorem execCas_keeps {a0 x d b r s} (h_s : Keeps a0 s) : OutKeeps a0 (execCas x d b r s) := out_next (atomicIl_keeps h_s)

theorem execAmoadd_keeps {a0 x d r s} (h_s : Keeps a0 s) : OutKeeps a0 (execAmoadd x d r s) := out_next (atomicIl_keeps h_s)

theorem execRsfill_keeps {a0 x k s} (h_s : Keeps a0 s) : OutKeeps a0 (execRsfill x k s) := by
  unfold execRsfill
  refine out_next (runIl_keeps ?_ h_s)
  intro y0 y1 y2 h3
  refine il_ite il_exc (onlyC0_keeps ?_)
  extract_lets
  rename_i v4 v5 v6 v7 v8
  clear_value v4 v5 v6
  have k9 : Keeps a0 v7 := coreTouch_keeps h3
  clear_value v7 v8
  split
  · rename_i v10 v11 v12
    exact il_exc
  · rename_i v13 v14
    split
    · rename_i v15 v16
      exact il_excIn k9
    · rename_i v17
      exact il_done k9

theorem setTick_keeps {a0 s f} (h_s : Keeps a0 s) : Keeps a0 (setTick s f) := keeps_upd h_s

theorem adoptCount_keeps {a0 e s} (h_s : Keeps a0 s) : Keeps a0 (adoptCount e s).2 := by
  unfold adoptCount
  extract_lets
  rename_i v0
  clear_value v0
  split
  · rename_i v1 v2
    exact h_s
  · rename_i v3 v4 v5
    split
    · rename_i v6 v7
      exact h_s
    · rename_i v8 v9 v10
      refine keeps_ite_snd h_s ?_
      extract_lets
      rename_i v11
      have k12 : Keeps a0 v11 := setTick_keeps h_s
      clear_value v11
      exact penBit_keeps k12

theorem edgeCount_keeps {a0 e s} (h_s : Keeps a0 s) : Keeps a0 (edgeCount e s) := by
  unfold edgeCount
  split
  · rename_i v0 v1 v2 v3
    extract_lets
    rename_i v4 v5
    clear_value v4
    have k6 : Keeps a0 v5 := setTick_keeps (keeps_of_snd v3 (adoptCount_keeps h_s))
    clear_value v5
    exact emit_keeps k6

theorem edgePeriod_keeps {a0 s} (h_s : Keeps a0 s) : Keeps a0 (edgePeriod s) := by
  unfold edgePeriod
  split
  · rename_i v0 v1 v2 v3
    exact keeps_ite h_s (setTick_keeps h_s)
  · rename_i v4 v5
    exact h_s

theorem edgeSource_keeps {a0 e s} (h_s : Keeps a0 s) : Keeps a0 (edgeSource e s) := by
  unfold edgeSource
  split
  · rename_i v0 v1
    exact h_s
  · rename_i v2 v3 v4
    extract_lets
    rename_i v5 v6 v7
    clear_value v5
    have k8 : Keeps a0 v6 := setFld_keeps (setFld_keeps h_s)
    clear_value v6
    have k9 : Keeps a0 v7 := setTick_keeps k8
    clear_value v7
    exact penBit_keeps (showPhase_keeps k9)

theorem edgeLength_keeps {a0 e s} (h_s : Keeps a0 s) : Keeps a0 (edgeLength e s) := by
  unfold edgeLength
  extract_lets
  rename_i v0 v1 v2 v3 v4 v5
  clear_value v0 v1 v2 v3 v4 v5
  exact keeps_ite (setTick_keeps h_s) (keeps_ite (setTick_keeps h_s) (setTick_keeps h_s))

theorem edgeOverrun_keeps {a0 tile e s} (h_s : Keeps a0 s) : Keeps a0 (edgeOverrun tile e s) := by
  unfold edgeOverrun
  extract_lets
  rename_i v0 v1
  clear_value v0
  have k2 : Keeps a0 v1 := putEng_keeps h_s
  clear_value v1
  exact keeps_ite h_s (keeps_ite (putEng_keeps h_s) (penBit_keeps (addReg_keeps k2)))

theorem setBudget_keeps {a0 tile s} (h_s : Keeps a0 s) : Keeps a0 (setBudget tile s) := by
  unfold setBudget
  extract_lets
  rename_i v0 v1
  clear_value v0 v1
  split
  · rename_i v2 v3 v4 v5
    extract_lets
    rename_i v6
    clear_value v6
    exact setTick_keeps (keeps_of_snd v5 (keeps_ite_snd (freeVal_keeps h_s) h_s))

theorem edgeBudgets_keeps {a0 e s} (h_s : Keeps a0 s) : Keeps a0 (edgeBudgets e s) := by
  unfold edgeBudgets
  extract_lets
  rename_i v0 v1 v2 v3
  have k4 : Keeps a0 v0 := forN_keeps h_s (fun _ _ h7 => keeps_foldl (fun _ _ h10 => edgeOverrun_keeps h10) h7)
  clear_value v0
  have k11 : Keeps a0 v1 := forN_keeps (lstStep6_keeps k4) (fun _ _ h14 => setBudget_keeps h14)
  clear_value v1
  have k15 : Keeps a0 v2 := keeps_ite (penBit_keeps k11) k11
  clear_value v2 v3
  exact showStretch_keeps (keeps_upd k15)

theorem edgeSplice_keeps {a0 s} (h_s : Keeps a0 s) : Keeps a0 (edgeSplice s) := by
  unfold edgeSplice
  split
  · rename_i v0 v1
    exact h_s
  · rename_i v2 v3 v4
    extract_lets
    rename_i v5
    clear_value v5
    refine keeps_ite (keeps_foldl (fun _ _ h8 => raiseLine_keeps h8) (setSplice_keeps h_s)) (keeps_ite ?_ h_s)
    split
    · rename_i v9 v10 v11 v12
      exact rollSplice_keeps (keeps_of_snd v12 (freeVal_keeps h_s))

theorem edgeNvme_keeps {a0 s} (h_s : Keeps a0 s) : Keeps a0 (edgeNvme s) := by
  unfold edgeNvme
  extract_lets
  rename_i v0 v1
  have k2 : Keeps a0 v0 := edgeShares_keeps h_s
  clear_value v0
  have k3 : Keeps a0 v1 := by
    unfold v1
    split
    · rename_i v4 v5 v6
      exact keeps_ite (notReadyAll_keeps k2) k2
    · rename_i v7 v8
      exact k2
  clear_value v1
  exact edgeTemp_keeps k3

theorem edgeHandOvers_keeps {a0 s} (h_s : Keeps a0 s) : Keeps a0 (edgeHandOvers s) := by
  unfold edgeHandOvers
  extract_lets
  rename_i v0 v1 v2 v3 v4
  have k5 : Keeps a0 v0 := dueQuiesce_keeps h_s
  clear_value v0
  have k6 : Keeps a0 v1 := edgeRefill_keeps (edgeRejoin_keeps (edgeReload_keeps (edgeReplan_keeps (edgeFoundry_keeps
      (edgeCredit_keeps k5)))))
  clear_value v1 v2
  have k7 : Keeps a0 v3 := tellGroup_keeps (edgeFeed_keeps k6)
  clear_value v3
  have k8 : Keeps a0 v4 := edgePair_keeps (edgeCkpt_keeps (edgeFuncs_keeps (edgeNvme_keeps (edgeQps_keeps k7))))
  clear_value v4
  exact watchStat_keeps (lstStep7_keeps (edgeCores_keeps (edgeSplice_keeps k8)))

theorem edgeEvents_keeps {a0 s} (h_s : Keeps a0 s) : Keeps a0 (edgeEvents s) := by
  unfold edgeEvents
  extract_lets
  rename_i v0
  clear_value v0
  exact keeps_foldl (fun _ _ h3 => perfEvent_keeps h3) h_s

theorem tickEdge_keeps {a0 e s} (h_s : Keeps a0 s) : Keeps a0 (tickEdge e s) := by
  unfold tickEdge
  extract_lets
  rename_i v0 v1 v2 v3 v4
  clear_value v0
  have k5 : Keeps a0 v1 := edgeHawser_keeps (edgeCount_keeps (edgeEvents_keeps h_s))
  clear_value v1
  have k6 : Keeps a0 v2 := edgeCommits_keeps (halyardEdge_keeps k5)
  clear_value v2
  have k7 : Keeps a0 v3 := edgeLength_keeps (chooseSource_keeps (edgeSource_keeps (edgePeriod_keeps k6)))
  clear_value v3
  have k8 : Keeps a0 v4 := edgeBudgets_keeps (edgeGates_keeps k7)
  clear_value v4
  exact halyardAfterEdge_keeps (edgeHandOvers_keeps k8)

theorem execTickEdge_keeps {a0 t s} (h_s : Keeps a0 s) : OutKeeps a0 (execTickEdge t s) := by
  unfold execTickEdge
  refine out_next ?_
  extract_lets
  rename_i v0
  clear_value v0
  exact keeps_ite h_s (tickEdge_keeps (firmwareRestart_keeps (atTime_keeps h_s)))

theorem exec_keeps {a0 i s} (h_s : Keeps a0 s) : OutKeeps a0 (exec i s) := by
  unfold exec
  split
  · exact execJunctionSample_keeps h_s
  · exact execThermStepLeave_keeps h_s
  · exact execMgmtPowerOn_keeps h_s
  · exact execMgmtReset_keeps h_s
  · exact execMainSample_keeps h_s
  · exact execSagStep1Leave_keeps h_s
  · exact execQuiesceEnd_keeps h_s
  · exact execShutdownRailsOff_keeps h_s
  · exact execInputOvervoltage_keeps h_s
  · exact execOvervoltageRestart_keeps h_s
  · exact execMainRestart_keeps h_s
  · exact execAuxSample_keeps h_s
  · exact execAlwaysOnStart_keeps h_s
  · exact execAlwaysOnStop_keeps h_s
  · exact execMainStageEnable_keeps h_s
  · exact execRailsGood_keeps h_s
  · exact execRailFail_keeps h_s
  · exact execRailRetry_keeps h_s
  · exact execResetNLow_keeps h_s
  · exact execResetNRise_keeps h_s
  · exact execMainResetTakeEffect_keeps h_s
  · exact execPowerSample_keeps h_s
  · exact execCapExcursionLimit_keeps h_s
  · exact execDroopTrip_keeps h_s
  · exact execDroopRelease_keeps h_s
  · exact execConfigRequest_keeps h_s
  · exact execTickEdge_keeps h_s
  · exact execItemExpiry_keeps h_s
  · exact execTickinEdge_keeps h_s
  · exact execPtpMessage_keeps h_s
  · exact execSrcLost_keeps h_s
  · exact execHoldoverExpiry_keeps h_s
  · exact execTickCountLoRead_keeps h_s
  · exact execBlkCommit_keeps h_s
  · exact execHalyardFire_keeps h_s
  · exact execHalyardIn_keeps h_s
  · exact execHalyardMgmtTrigger_keeps h_s
  · exact execSnapValidClear_keeps h_s
  · exact execBadAccess_keeps h_s
  · exact execRegisterWrite_keeps h_s
  · exact execPennantWrite_keeps h_s
  · exact execPennantForce_keeps h_s
  · exact execGlbDrvAbi_keeps h_s
  · exact execFuncDrvAbi_keeps h_s
  · exact execBlkEnable_keeps h_s
  · exact execBlkDisable_keeps h_s
  · exact execBlkStopped_keeps h_s
  · exact execBlkFence_keeps h_s
  · exact execBlkUnfence_keeps h_s
  · exact execBlkSoftReset_keeps h_s
  · exact execSoftResetDone_keeps h_s
  · exact execSqTail_keeps h_s
  · exact execCqHead_keeps h_s
  · exact execCommandFetch_keeps h_s
  · exact execCmdNop_keeps h_s
  · exact execCreateQpair_keeps h_s
  · exact execDeleteQpair_keeps h_s
  · exact execQpairDeleted_keeps h_s
  · exact execQueryObject_keeps h_s
  · exact execSsetCreate_keeps h_s
  · exact execSsetAddShards_keeps h_s
  · exact execSsetStart_keeps h_s
  · exact execSsetPause_keeps h_s
  · exact execSsetResume_keeps h_s
  · exact execSsetDrain_keeps h_s
  · exact execSsetDestroy_keeps h_s
  · exact execCtxMove_keeps h_s
  · exact execTileVacate_keeps h_s
  · exact execTileAdmit_keeps h_s
  · exact execResvCfg_keeps h_s
  · exact execSampleStart_keeps h_s
  · exact execPackSeal_keeps h_s
  · exact execSourceRead_keeps h_s
  · exact execDemuxPacket_keeps h_s
  · exact execDecode_keeps h_s
  · exact execParse_keeps h_s
  · exact execReleaseSlot_keeps h_s
  · exact execShape_keeps h_s
  · exact execRun_keeps h_s
  · exact execEmitText_keeps h_s
  · exact execItemLimit_keeps h_s
  · exact execTensorItemLimit_keeps h_s
  · exact execShpProfileLoad_keeps h_s
  · exact execShpProfileDrop_keeps h_s
  · exact execShardProbe_keeps h_s
  · exact execShardProbeTimeout_keeps h_s
  · exact execGraphLoad_keeps h_s
  · exact execWeightCopyDone_keeps h_s
  · exact execGraphDrop_keeps h_s
  · exact execRefillEnd_keeps h_s
  · exact execSramScrub_keeps h_s
  · exact execIllegal_keeps h_s
  · exact execNop_keeps h_s
  · exact execFence_keeps h_s
  · exact execTrap_keeps h_s
  · exact execMov_keeps h_s
  · exact execMovi_keeps h_s
  · exact execMovi64_keeps h_s
  · exact execAdd_keeps h_s
  · exact execAdc_keeps h_s
  · exact execSub_keeps h_s
  · exact execSbb_keeps h_s
  · exact execAnd_keeps h_s
  · exact execOr_keeps h_s
  · exact execXor_keeps h_s
  · exact execCmp_keeps h_s
  · exact execTst_keeps h_s
  · exact execAddi_keeps h_s
  · exact execCmpi_keeps h_s
  · exact execAndi_keeps h_s
  · exact execShl_keeps h_s
  · exact execShr_keeps h_s
  · exact execSar_keeps h_s
  · exact execRol_keeps h_s
  · exact execShli_keeps h_s
  · exact execShri_keeps h_s
  · exact execSari_keeps h_s
  · exact execRoli_keeps h_s
  · exact execMul_keeps h_s
  · exact execMulhu_keeps h_s
  · exact execDivu_keeps h_s
  · exact execRemu_keeps h_s
  · exact execDivs_keeps h_s
  · exact execRems_keeps h_s
  · exact execLd_keeps h_s
  · exact execSt_keeps h_s
  · exact execLds_keeps h_s
  · exact execXchg_keeps h_s
  · exact execCas_keeps h_s
  · exact execAmoadd_keeps h_s
  · exact execBr_keeps h_s
  · exact execBc_keeps h_s
  · exact execJmp_keeps h_s
  · exact execCall_keeps h_s
  · exact execCallr_keeps h_s
  · exact execRet_keeps h_s
  · exact execDaa_keeps h_s
  · exact execDas_keeps h_s
  · exact execBcdadd_keeps h_s
  · exact execBcdadc_keeps h_s
  · exact execBcdsub_keeps h_s
  · exact execBcdsbb_keeps h_s
  · exact execBcdcmp_keeps h_s
  · exact execBcdchk_keeps h_s
  · exact execB2bcd_keeps h_s
  · exact execBcd2b_keeps h_s
  · exact execTcadd_keeps h_s
  · exact execTcsub_keeps h_s
  · exact execTc2f_keeps h_s
  · exact execF2tc_keeps h_s
  · exact execTcchk_keeps h_s
  · exact execMfs_keeps h_s
  · exact execMts_keeps h_s
  · exact execGcall_keeps h_s
  · exact execGret_keeps h_s
  · exact execSigu_keeps h_s
  · exact execSigck_keeps h_s
  · exact execRsspill_keeps h_s
  · exact execRsfill_keeps h_s
  · exact execEret_keeps h_s
  · exact execWfi_keeps h_s
  · exact execRtsync_keeps h_s
  · exact execIsync_keeps h_s
  · exact execWdkick_keeps h_s
  · exact execDpush_keeps h_s
  · exact execBread_keeps h_s
  · exact execRpop_keeps h_s
  · exact execWait_keeps h_s
  · exact execInterruptTake_keeps h_s
  · exact execWatchdogExpiry_keeps h_s
  · exact execCoreStopResponse_keeps h_s
  · exact execPhyTrainDone_keeps h_s
  · exact execFlitLockDone_keeps h_s
  · exact execBringUpLimit_keeps h_s
  · exact execLinkRetry_keeps h_s
  · exact execParam_keeps h_s
  · exact execParamAck_keeps h_s
  · exact execFlitReceive_keeps h_s
  · exact execReplayTimeout_keeps h_s
  · exact execLinkDown_keeps h_s
  · exact execLaneFault_keeps h_s
  · exact execLaneDrop_keeps h_s
  · exact execLaneDropAck_keeps h_s
  · exact execRetrain_keeps h_s
  · exact execPatSelect_keeps h_s
  · exact execPatClear_keeps h_s
  · exact execLinkWrite_keeps h_s
  · exact execLinkRead_keeps h_s
  · exact execReadResp_keeps h_s
  · exact execCaptureReadTimeout_keeps h_s
  · exact execPackReject_keeps h_s
  · exact execFeedDoorbell_keeps h_s
  · exact execRmtAccDoorbell_keeps h_s
  · exact execRingCreate_keeps h_s
  · exact execRingStart_keeps h_s
  · exact execRingStop_keeps h_s
  · exact execRingResume_keeps h_s
  · exact execRingDestroy_keeps h_s
  · exact execXchgGroup_keeps h_s
  · exact execPackDraw_keeps h_s
  · exact execPortDownLimit_keeps h_s
  · exact execXchgSend_keeps h_s
  · exact execXchgFlushDone_keeps h_s
  · exact execRmtPacketReceive_keeps h_s
  · exact execRmtDbHi_keeps h_s
  · exact execWqeFetch_keeps h_s
  · exact execRmtSend_keeps h_s
  · exact execRmtWrite_keeps h_s
  · exact execRmtRead_keeps h_s
  · exact execRmtFlush_keeps h_s
  · exact execHitch_keeps h_s
  · exact execHitchRelease_keeps h_s
  · exact execRmtRecv_keeps h_s
  · exact execRtoExpiry_keeps h_s
  · exact execAckTimer_keeps h_s
  · exact execRnrRetryExpiry_keeps h_s
  · exact execQpCreate_keeps h_s
  · exact execQpConnect_keeps h_s
  · exact execQpModify_keeps h_s
  · exact execQpReset_keeps h_s
  · exact execQpDestroy_keeps h_s
  · exact execQuiescingEnd_keeps h_s
  · exact execEgressTransmit_keeps h_s
  · exact execGateEntry_keeps h_s
  · exact execEthFrameReceive_keeps h_s
  · exact execPfcPauseExpiry_keeps h_s
  · exact execSubportDown_keeps h_s
  · exact execFlr_keeps h_s
  · exact execBusMasterDisable_keeps h_s
  · exact execVfDisable_keeps h_s
  · exact execPerst_keeps h_s
  · exact execHostLinkDown_keeps h_s
  · exact execCompletionReceive_keeps h_s
  · exact execCplTimeout_keeps h_s
  · exact execQuarantineExpiry_keeps h_s
  · exact execHostWindowAccess_keeps h_s
  · exact execFuncAssign_keeps h_s
  · exact execFuncFreeze_keeps h_s
  · exact execFreezeDone_keeps h_s
  · exact execFreezeTimeout_keeps h_s
  · exact execFuncSave_keeps h_s
  · exact execFuncRestore_keeps h_s
  · exact execFuncThaw_keeps h_s
  · exact execDirtyLogStart_keeps h_s
  · exact execDirtyLogSync_keeps h_s
  · exact execDirtyLogStop_keeps h_s
  · exact execHeartbeat_keeps h_s
  · exact execHeartbeatTimeout_keeps h_s
  · exact execAdopt_keeps h_s
  · exact execFuncReset_keeps h_s
  · exact execFuncResetDone_keeps h_s
  · exact execGraceEnd_keeps h_s
  · exact execNvmeDoorbell_keeps h_s
  · exact execNvmeCommandFetch_keeps h_s
  · exact execControllerEnable_keeps h_s
  · exact execControllerReset_keeps h_s
  · exact execShutdownNotify_keeps h_s
  · exact execCreateIoSq_keeps h_s
  · exact execDeleteIoSq_keeps h_s
  · exact execCreateIoCq_keeps h_s
  · exact execDeleteIoCq_keeps h_s
  · exact execGetLogPage_keeps h_s
  · exact execIdentify_keeps h_s
  · exact execAbort_keeps h_s
  · exact execSetFeatures_keeps h_s
  · exact execGetFeatures_keeps h_s
  · exact execAsyncEventRequest_keeps h_s
  · exact execNsCreate_keeps h_s
  · exact execNsDelete_keeps h_s
  · exact execNsAttach_keeps h_s
  · exact execNsDetach_keeps h_s
  · exact execFirmwareCommit_keeps h_s
  · exact execFirmwareImageDownload_keeps h_s
  · exact execFormatNvm_keeps h_s
  · exact execFormatDone_keeps h_s
  · exact execSanitize_keeps h_s
  · exact execSanitizeDone_keeps h_s
  · exact execNvmeWrite_keeps h_s
  · exact execWriteProgrammed_keeps h_s
  · exact execNvmeRead_keeps h_s
  · exact execNvmeFlush_keeps h_s
  · exact execNvmeCompare_keeps h_s
  · exact execWriteZeroes_keeps h_s
  · exact execDatasetManagement_keeps h_s
  · exact execNvmeVerify_keeps h_s
  · exact execMediumRead_keeps h_s
  · exact execDieUnresponsive_keeps h_s
  · exact execRebuildDone_keeps h_s
  · exact execFold_keeps h_s
  · exact execPatrolRead_keeps h_s
  · exact execWlMove_keeps h_s
  · exact execProgramFail_keeps h_s
  · exact execEraseFail_keeps h_s
  · exact execFtlRecovery_keeps h_s
  · exact execGroupForm_keeps h_s
  · exact execGroupFormTimeout_keeps h_s
  · exact execGroupShrink_keeps h_s
  · exact execGroupLeave_keeps h_s
  · exact execSessionOpen_keeps h_s
  · exact execSessionStart_keeps h_s
  · exact execSessionAbort_keeps h_s
  · exact execSessionClose_keeps h_s
  · exact execRestoreScan_keeps h_s
  · exact execShardExport_keeps h_s
  · exact execCaptureTimeout_keeps h_s
  · exact execHello_keeps h_s
  · exact execUnit_keeps h_s
  · exact execUnitLand_keeps h_s
  · exact execUnitAck_keeps h_s
  · exact execManifest_keeps h_s
  · exact execManifestAck_keeps h_s
  · exact execLanded_keeps h_s
  · exact execFailed_keeps h_s
  · exact execLost_keeps h_s
  · exact execProgress_keeps h_s
  · exact execUnitReq_keeps h_s
  · exact execUnitData_keeps h_s
  · exact execVerdict_keeps h_s
  · exact execMirror_keeps h_s
  · exact execMirrorAck_keeps h_s
  · exact execTickFrame_keeps h_s
  · exact execHawserHalyard_keeps h_s
  · exact execResync_keeps h_s
  · exact execResyncAck_keeps h_s
  · exact execJoin_keeps h_s
  · exact execJoinSend_keeps h_s
  · exact execTakeoverNotice_keeps h_s
  · exact execLeaveNotice_keeps h_s
  · exact execPairJoin_keeps h_s
  · exact execPairLeave_keeps h_s
  · exact execWitness_keeps h_s
  · exact execWitnessSend_keeps h_s
  · exact execLeaseExpiry_keeps h_s
  · exact execTakeover_keeps h_s
  · exact execSplitEntry_keeps h_s
  · exact execKeyGen_keeps h_s
  · exact execKeyImport_keeps h_s
  · exact execKeyExport_keeps h_s
  · exact execKeyDestroy_keeps h_s
  · exact execKeyErase_keeps h_s
  · exact execGcmEnc_keeps h_s
  · exact execGcmDec_keeps h_s
  · exact execXtsEnc_keeps h_s
  · exact execXtsDec_keeps h_s
  · exact execGmacGen_keeps h_s
  · exact execGmacVer_keeps h_s
  · exact execHmacGen_keeps h_s
  · exact execHmacVer_keeps h_s
  · exact execSha256_keeps h_s
  · exact execSha3256_keeps h_s
  · exact execLstRun_keeps h_s
  · exact execMbistRun_keeps h_s
  · exact execSuspectForce_keeps h_s
  · exact execInjectSramSingle_keeps h_s
  · exact execInjectSramDouble_keeps h_s
  · exact execInjectDramSingle_keeps h_s
  · exact execInjectDramDouble_keeps h_s
  · exact execInjectSliceFail_keeps h_s
  · exact execLstSlice_keeps h_s
  · exact execLstDefer_keeps h_s
  · exact execLstForce_keeps h_s
  · exact execCheckedError_keeps h_s
  · exact execDramScrub_keeps h_s
  · exact execMemcRecal_keeps h_s
  · exact execMemcRetrain_keeps h_s
  · exact execSensorSample_keeps h_s
  · exact execLogCommit_keeps h_s
  · exact execBootReady_keeps h_s
  · exact execMssWatchdog_keeps h_s
  · exact execMssReset_keeps h_s
  · exact execSetEndpointId_keeps h_s
  · exact execGetVersion_keeps h_s
  · exact execGetCapabilities_keeps h_s
  · exact execNegotiateAlgorithms_keeps h_s
  · exact execGetDigests_keeps h_s
  · exact execGetCertificate_keeps h_s
  · exact execChallenge_keeps h_s
  · exact execGetMeasurements_keeps h_s
  · exact execKeyExchange_keeps h_s
  · exact execFinish_keeps h_s
  · exact execSpdmHeartbeat_keeps h_s
  · exact execKeyUpdate_keeps h_s
  · exact execEndSession_keeps h_s
  · exact execChunkSend_keeps h_s
  · exact execChunkGet_keeps h_s
  · exact execPqSig_keeps h_s
  · exact execPqCert_keeps h_s
  · exact execGetTid_keeps h_s
  · exact execSetTid_keeps h_s
  · exact execGetPldmVersion_keeps h_s
  · exact execGetPldmTypes_keeps h_s
  · exact execGetPldmCommands_keeps h_s
  · exact execGetPdr_keeps h_s
  · exact execGetPdrRepositoryInfo_keeps h_s
  · exact execGetSensorReading_keeps h_s
  · exact execSetSensorThresholds_keeps h_s
  · exact execGetSensorThresholds_keeps h_s
  · exact execSetEventReceiver_keeps h_s
  · exact execPollForPlatformEventMessage_keeps h_s
  · exact execSetNumericEffecterValue_keeps h_s
  · exact execGetNumericEffecterValue_keeps h_s
  · exact execRequestUpdate_keeps h_s
  · exact execActivateFirmware_keeps h_s
  · exact execSpliceCommit_keeps h_s
  · exact execSpliceRollback_keeps h_s
  · exact execPcCtlWrite_keeps h_s
  · exact execPcClear_keeps h_s
  · exact execPcValLoRead_keeps h_s
  · exact execCounterWrap_keeps h_s
  · exact execPerfRead_keeps h_s
  · exact execPrecClear_keeps h_s
  · exact execHostLinkUp_keeps h_s
  · exact execPerstDeassert_keeps h_s
  · exact execHotReset_keeps h_s
  · exact execVfEnable_keeps h_s
  · exact execSubportUp_keeps h_s
  · exact execPostDone_keeps h_s
  · exact execAtsInvalidate_keeps h_s
  · exact execDoeDiscovery_keeps h_s
  · exact execUpdateComponent_keeps h_s
  · exact execParamSend_keeps h_s
  · exact execLaneDropResend_keeps h_s
  · exact execDynamicAddressAssign_keeps h_s
  · exact execInterruptCoalescingExpiry_keeps h_s
  · exact execRecoveryRequest_keeps h_s

end Sys2Proof.Machine
end

