-- ==== Sys2Proof/Laws/Service.lean ====
section
/-! SUPPORT. What the common course of a service command does, said once (R107, R114, R115), and of an NVMe command
(R386, R388). -/

namespace Sys2Proof.Machine

/-- A ready command is checked for its parameters, then for fences, then runs its own part. -/
theorem runSvc_ready {k : CmdRef} {op : Nat} {c : SvcCmd} {s : State} (inv : SvcCmd → State → Option Nat)
    (fenced : SvcCmd → State → Bool) (body : SvcCmd → State → SvcEnd) (h : SvcReady k op c s) :
    runSvc k op inv fenced body s = (match inv c s with
      | some off => complete c st.INVALID_FIELD off s
      | none => if fenced c s = true then complete c st.FENCED 0 s
        else match body c s with
          | .done status result s' => complete c status result s'
          | .wait s' => markBegun c s') := by
  obtain ⟨h1, h2, h3, h4, h5, h6⟩ := h
  simp only [runSvc, h1, h2, h3, h4, h5, h6]
  cases inv c s with
  | some off => simp
  | none => cases fenced c s <;> simp <;> cases body c s <;> rfl

/-- A command that no queue has in hand changes nothing. -/
theorem runSvc_absent {k : CmdRef} {op : Nat} {s : State} (inv : SvcCmd → State → Option Nat)
    (fenced : SvcCmd → State → Bool) (body : SvcCmd → State → SvcEnd) (h : findCmd s k = none) :
    runSvc k op inv fenced body s = s := by
  simp only [runSvc, h]

/-- A ready command past its deadline completes with TIMEOUT, once its parameters are in order. -/
theorem runSvc_late {k : CmdRef} {op : Nat} {c : SvcCmd} {s : State} {inv : SvcCmd → State → Option Nat}
    (fenced : SvcCmd → State → Bool) (body : SvcCmd → State → SvcEnd) (h1 : findCmd s k = some c) (h2 : c.begun = false)
    (h3 : c.op = op) (h4 : orderedOk s c = true) (h5 : inv c s = none) (h6 : lateCmd s c = true) :
    runSvc k op inv fenced body s = complete c st.TIMEOUT 0 s := by
  simp only [runSvc, h1, h2, h3, h4, h5, h6]
  simp

/-- A ready integrity request whose parameters are in order and that its body ends is done with the body's answer. -/
theorem intgRun_done {q : IntgReq} {op status result : Nat} {d : Nat → Nat} {s w : State}
    {inv : (Nat → Nat) → Option Nat} {body : Option SvcCmd → (Nat → Nat) → State → SvcEnd} (h : IntgReady q op d s)
    (h1 : inv d = none) (h2 : ∀ c, body c d s = .done status result w) :
    intgRun q op inv body s = intgDone q op status result s w := by
  cases q with
  | svc k =>
    obtain ⟨c, hc, rfl⟩ := h
    have hf := hc.1
    simp only [intgRun, runSvc_ready _ _ _ hc, h1, noFence, h2, intgDone, hf]
    simp
  | own d4 d5 d6 =>
    obtain rfl := h
    simp only [intgRun, h1, h2, intgDone]

/-- A ready NVMe command of its opcode begins and runs its own part. -/
theorem runNvme_ready {t f sq cid : Nat} {admin : Bool} {ok : NCmd → Bool} {c : NCmd} {s : State}
    (body : NCmd → State → State) (h : NvmeReady t f sq cid c s) (h1 : (sq == 0) = admin) (h2 : ok c = true) :
    runNvme t f sq cid admin ok body s = body { c with begun := true } (nvmeBegun t f sq cid c s) := by
  obtain ⟨a1, a2, a3, a4, a5, a6, a7⟩ := h
  obtain ⟨r, hr⟩ := Option.isSome_iff_exists.mp a7
  simp only [runNvme, nvmeBegun, a1, a2, a3, a4, a5, a6, h1, h2, hr]
  simp

/-- A message of the group reaches what takes it. -/
theorem ckRecv_heard {t : Nat} {m : CkMsg} {g : CkGroup} {uid : Nat} {s : State} (f : CkGroup → Nat → State → State)
    (h : CkHeard t m g uid s) : ckRecv t m f s = f g uid (atTime t s) := by
  obtain ⟨h1, h2, h3, h4, h5⟩ := h
  have h2' : (atTime t s).ckpt.group = some g := h2
  simp only [ckRecv, ckTake, h1, h2', h3, h4, h5]
  simp

/-- A message of another group or format is counted and discarded. -/
theorem ckRecv_other {t : Nat} {m : CkMsg} {g : CkGroup} {s : State} (f : CkGroup → Nat → State → State)
    (h1 : ckptOn (atTime t s) = true) (h2 : s.ckpt.group = some g) (h3 : m.group ≠ g.id ∨ m.format ≠ 1) :
    ckRecv t m f s = rmtCount 7 (atTime t s) := by
  have h2' : (atTime t s).ckpt.group = some g := h2
  simp only [ckRecv, ckTake, h1, h2']
  simp [h3]

end Sys2Proof.Machine
end

