-- ==== Sys2Proof/Laws/State.lean ====
section
/-! SUPPORT. What each named update of the state leaves in each of its fields. -/

namespace Sys2Proof.Machine

/-! ### setReg -/

@[simp] theorem setReg_now {s p off v} : (setReg s p off v).now = s.now := rfl
@[simp] theorem setReg_fresh {s p off v} : (setReg s p off v).fresh = s.fresh := rfl
@[simp] theorem setReg_regs {s p off v} : (setReg s p off v).regs = mputD s.regs (pageAt p off) (resetReg p off) v := rfl
@[simp] theorem setReg_shadow {s p off v} : (setReg s p off v).shadow = s.shadow := rfl
@[simp] theorem setReg_latches {s p off v} : (setReg s p off v).latches = s.latches := rfl
@[simp] theorem setReg_tabAct {s p off v} : (setReg s p off v).tabAct = s.tabAct := rfl
@[simp] theorem setReg_tabSh {s p off v} : (setReg s p off v).tabSh = s.tabSh := rfl
@[simp] theorem setReg_commits {s p off v} : (setReg s p off v).commits = s.commits := rfl
@[simp] theorem setReg_out {s p off v} : (setReg s p off v).out = s.out := rfl
@[simp] theorem setReg_held {s p off v} : (setReg s p off v).held = s.held := rfl
@[simp] theorem setReg_heldData {s p off v} : (setReg s p off v).heldData = s.heldData := rfl
@[simp] theorem setReg_power {s p off v} : (setReg s p off v).power = s.power := rfl
@[simp] theorem setReg_tick {s p off v} : (setReg s p off v).tick = s.tick := rfl
@[simp] theorem setReg_pairs {s p off v} : (setReg s p off v).pairs = s.pairs := rfl
@[simp] theorem setReg_cmds {s p off v} : (setReg s p off v).cmds = s.cmds := rfl
@[simp] theorem setReg_cmdSeq {s p off v} : (setReg s p off v).cmdSeq = s.cmdSeq := rfl
@[simp] theorem setReg_log {s p off v} : (setReg s p off v).log = s.log := rfl
@[simp] theorem setReg_tags {s p off v} : (setReg s p off v).tags = s.tags := rfl
@[simp] theorem setReg_foundry {s p off v} : (setReg s p off v).foundry = s.foundry := rfl
@[simp] theorem setReg_media {s p off v} : (setReg s p off v).media = s.media := rfl
@[simp] theorem setReg_feed {s p off v} : (setReg s p off v).feed = s.feed := rfl
@[simp] theorem setReg_rmt {s p off v} : (setReg s p off v).rmt = s.rmt := rfl
@[simp] theorem setReg_host {s p off v} : (setReg s p off v).host = s.host := rfl
@[simp] theorem setReg_ciph {s p off v} : (setReg s p off v).ciph = s.ciph := rfl
@[simp] theorem setReg_flash {s p off v} : (setReg s p off v).flash = s.flash := rfl
@[simp] theorem setReg_nvme {s p off v} : (setReg s p off v).nvme = s.nvme := rfl
@[simp] theorem setReg_ckpt {s p off v} : (setReg s p off v).ckpt = s.ckpt := rfl
@[simp] theorem setReg_pair {s p off v} : (setReg s p off v).pair = s.pair := rfl
@[simp] theorem setReg_intg {s p off v} : (setReg s p off v).intg = s.intg := rfl
@[simp] theorem setReg_mgmt {s p off v} : (setReg s p off v).mgmt = s.mgmt := rfl
@[simp] theorem setReg_cores {s p off v} : (setReg s p off v).cores = s.cores := rfl
@[simp] theorem setReg_mem {s p off v} : (setReg s p off v).mem = s.mem := rfl
@[simp] theorem setReg_pending {s p off v} : (setReg s p off v).pending = s.pending := rfl

/-! ### setShadow -/

@[simp] theorem setShadow_now {s p off v} : (setShadow s p off v).now = s.now := rfl
@[simp] theorem setShadow_fresh {s p off v} : (setShadow s p off v).fresh = s.fresh := rfl
@[simp] theorem setShadow_regs {s p off v} : (setShadow s p off v).regs = s.regs := rfl
@[simp] theorem setShadow_shadow {s p off v} : (setShadow s p off v).shadow = mputD s.shadow (pageAt p off) (resetReg p off) v := rfl
@[simp] theorem setShadow_latches {s p off v} : (setShadow s p off v).latches = s.latches := rfl
@[simp] theorem setShadow_tabAct {s p off v} : (setShadow s p off v).tabAct = s.tabAct := rfl
@[simp] theorem setShadow_tabSh {s p off v} : (setShadow s p off v).tabSh = s.tabSh := rfl
@[simp] theorem setShadow_commits {s p off v} : (setShadow s p off v).commits = s.commits := rfl
@[simp] theorem setShadow_out {s p off v} : (setShadow s p off v).out = s.out := rfl
@[simp] theorem setShadow_held {s p off v} : (setShadow s p off v).held = s.held := rfl
@[simp] theorem setShadow_heldData {s p off v} : (setShadow s p off v).heldData = s.heldData := rfl
@[simp] theorem setShadow_power {s p off v} : (setShadow s p off v).power = s.power := rfl
@[simp] theorem setShadow_tick {s p off v} : (setShadow s p off v).tick = s.tick := rfl
@[simp] theorem setShadow_pairs {s p off v} : (setShadow s p off v).pairs = s.pairs := rfl
@[simp] theorem setShadow_cmds {s p off v} : (setShadow s p off v).cmds = s.cmds := rfl
@[simp] theorem setShadow_cmdSeq {s p off v} : (setShadow s p off v).cmdSeq = s.cmdSeq := rfl
@[simp] theorem setShadow_log {s p off v} : (setShadow s p off v).log = s.log := rfl
@[simp] theorem setShadow_tags {s p off v} : (setShadow s p off v).tags = s.tags := rfl
@[simp] theorem setShadow_foundry {s p off v} : (setShadow s p off v).foundry = s.foundry := rfl
@[simp] theorem setShadow_media {s p off v} : (setShadow s p off v).media = s.media := rfl
@[simp] theorem setShadow_feed {s p off v} : (setShadow s p off v).feed = s.feed := rfl
@[simp] theorem setShadow_rmt {s p off v} : (setShadow s p off v).rmt = s.rmt := rfl
@[simp] theorem setShadow_host {s p off v} : (setShadow s p off v).host = s.host := rfl
@[simp] theorem setShadow_ciph {s p off v} : (setShadow s p off v).ciph = s.ciph := rfl
@[simp] theorem setShadow_flash {s p off v} : (setShadow s p off v).flash = s.flash := rfl
@[simp] theorem setShadow_nvme {s p off v} : (setShadow s p off v).nvme = s.nvme := rfl
@[simp] theorem setShadow_ckpt {s p off v} : (setShadow s p off v).ckpt = s.ckpt := rfl
@[simp] theorem setShadow_pair {s p off v} : (setShadow s p off v).pair = s.pair := rfl
@[simp] theorem setShadow_intg {s p off v} : (setShadow s p off v).intg = s.intg := rfl
@[simp] theorem setShadow_mgmt {s p off v} : (setShadow s p off v).mgmt = s.mgmt := rfl
@[simp] theorem setShadow_cores {s p off v} : (setShadow s p off v).cores = s.cores := rfl
@[simp] theorem setShadow_mem {s p off v} : (setShadow s p off v).mem = s.mem := rfl
@[simp] theorem setShadow_pending {s p off v} : (setShadow s p off v).pending = s.pending := rfl

/-! ### setPair -/

@[simp] theorem setPair_now {s f q p} : (setPair s f q p).now = s.now := rfl
@[simp] theorem setPair_fresh {s f q p} : (setPair s f q p).fresh = s.fresh := rfl
@[simp] theorem setPair_regs {s f q p} : (setPair s f q p).regs = s.regs := rfl
@[simp] theorem setPair_shadow {s f q p} : (setPair s f q p).shadow = s.shadow := rfl
@[simp] theorem setPair_latches {s f q p} : (setPair s f q p).latches = s.latches := rfl
@[simp] theorem setPair_tabAct {s f q p} : (setPair s f q p).tabAct = s.tabAct := rfl
@[simp] theorem setPair_tabSh {s f q p} : (setPair s f q p).tabSh = s.tabSh := rfl
@[simp] theorem setPair_commits {s f q p} : (setPair s f q p).commits = s.commits := rfl
@[simp] theorem setPair_out {s f q p} : (setPair s f q p).out = s.out := rfl
@[simp] theorem setPair_held {s f q p} : (setPair s f q p).held = s.held := rfl
@[simp] theorem setPair_heldData {s f q p} : (setPair s f q p).heldData = s.heldData := rfl
@[simp] theorem setPair_power {s f q p} : (setPair s f q p).power = s.power := rfl
@[simp] theorem setPair_tick {s f q p} : (setPair s f q p).tick = s.tick := rfl
@[simp] theorem setPair_pairs {s f q p} : (setPair s f q p).pairs = mput s.pairs (pairKey f q) p := rfl
@[simp] theorem setPair_cmds {s f q p} : (setPair s f q p).cmds = s.cmds := rfl
@[simp] theorem setPair_cmdSeq {s f q p} : (setPair s f q p).cmdSeq = s.cmdSeq := rfl
@[simp] theorem setPair_log {s f q p} : (setPair s f q p).log = s.log := rfl
@[simp] theorem setPair_tags {s f q p} : (setPair s f q p).tags = s.tags := rfl
@[simp] theorem setPair_foundry {s f q p} : (setPair s f q p).foundry = s.foundry := rfl
@[simp] theorem setPair_media {s f q p} : (setPair s f q p).media = s.media := rfl
@[simp] theorem setPair_feed {s f q p} : (setPair s f q p).feed = s.feed := rfl
@[simp] theorem setPair_rmt {s f q p} : (setPair s f q p).rmt = s.rmt := rfl
@[simp] theorem setPair_host {s f q p} : (setPair s f q p).host = s.host := rfl
@[simp] theorem setPair_ciph {s f q p} : (setPair s f q p).ciph = s.ciph := rfl
@[simp] theorem setPair_flash {s f q p} : (setPair s f q p).flash = s.flash := rfl
@[simp] theorem setPair_nvme {s f q p} : (setPair s f q p).nvme = s.nvme := rfl
@[simp] theorem setPair_ckpt {s f q p} : (setPair s f q p).ckpt = s.ckpt := rfl
@[simp] theorem setPair_pair {s f q p} : (setPair s f q p).pair = s.pair := rfl
@[simp] theorem setPair_intg {s f q p} : (setPair s f q p).intg = s.intg := rfl
@[simp] theorem setPair_mgmt {s f q p} : (setPair s f q p).mgmt = s.mgmt := rfl
@[simp] theorem setPair_cores {s f q p} : (setPair s f q p).cores = s.cores := rfl
@[simp] theorem setPair_mem {s f q p} : (setPair s f q p).mem = s.mem := rfl
@[simp] theorem setPair_pending {s f q p} : (setPair s f q p).pending = s.pending := rfl

/-! ### putCore -/

@[simp] theorem putCore_now {i c s} : (putCore i c s).now = s.now := rfl
@[simp] theorem putCore_fresh {i c s} : (putCore i c s).fresh = s.fresh := rfl
@[simp] theorem putCore_regs {i c s} : (putCore i c s).regs = s.regs := rfl
@[simp] theorem putCore_shadow {i c s} : (putCore i c s).shadow = s.shadow := rfl
@[simp] theorem putCore_latches {i c s} : (putCore i c s).latches = s.latches := rfl
@[simp] theorem putCore_tabAct {i c s} : (putCore i c s).tabAct = s.tabAct := rfl
@[simp] theorem putCore_tabSh {i c s} : (putCore i c s).tabSh = s.tabSh := rfl
@[simp] theorem putCore_commits {i c s} : (putCore i c s).commits = s.commits := rfl
@[simp] theorem putCore_out {i c s} : (putCore i c s).out = s.out := rfl
@[simp] theorem putCore_held {i c s} : (putCore i c s).held = s.held := rfl
@[simp] theorem putCore_heldData {i c s} : (putCore i c s).heldData = s.heldData := rfl
@[simp] theorem putCore_power {i c s} : (putCore i c s).power = s.power := rfl
@[simp] theorem putCore_tick {i c s} : (putCore i c s).tick = s.tick := rfl
@[simp] theorem putCore_pairs {i c s} : (putCore i c s).pairs = s.pairs := rfl
@[simp] theorem putCore_cmds {i c s} : (putCore i c s).cmds = s.cmds := rfl
@[simp] theorem putCore_cmdSeq {i c s} : (putCore i c s).cmdSeq = s.cmdSeq := rfl
@[simp] theorem putCore_log {i c s} : (putCore i c s).log = s.log := rfl
@[simp] theorem putCore_tags {i c s} : (putCore i c s).tags = s.tags := rfl
@[simp] theorem putCore_foundry {i c s} : (putCore i c s).foundry = s.foundry := rfl
@[simp] theorem putCore_media {i c s} : (putCore i c s).media = s.media := rfl
@[simp] theorem putCore_feed {i c s} : (putCore i c s).feed = s.feed := rfl
@[simp] theorem putCore_rmt {i c s} : (putCore i c s).rmt = s.rmt := rfl
@[simp] theorem putCore_host {i c s} : (putCore i c s).host = s.host := rfl
@[simp] theorem putCore_ciph {i c s} : (putCore i c s).ciph = s.ciph := rfl
@[simp] theorem putCore_flash {i c s} : (putCore i c s).flash = s.flash := rfl
@[simp] theorem putCore_nvme {i c s} : (putCore i c s).nvme = s.nvme := rfl
@[simp] theorem putCore_ckpt {i c s} : (putCore i c s).ckpt = s.ckpt := rfl
@[simp] theorem putCore_pair {i c s} : (putCore i c s).pair = s.pair := rfl
@[simp] theorem putCore_intg {i c s} : (putCore i c s).intg = s.intg := rfl
@[simp] theorem putCore_mgmt {i c s} : (putCore i c s).mgmt = s.mgmt := rfl
@[simp] theorem putCore_cores {i c s} : (putCore i c s).cores = s.cores.set i c := rfl
@[simp] theorem putCore_mem {i c s} : (putCore i c s).mem = s.mem := rfl
@[simp] theorem putCore_pending {i c s} : (putCore i c s).pending = s.pending := rfl

/-! ### atTime -/

@[simp] theorem atTime_now {t s} : (atTime t s).now = max s.now t := rfl
@[simp] theorem atTime_fresh {t s} : (atTime t s).fresh = s.fresh := rfl
@[simp] theorem atTime_regs {t s} : (atTime t s).regs = s.regs := rfl
@[simp] theorem atTime_shadow {t s} : (atTime t s).shadow = s.shadow := rfl
@[simp] theorem atTime_latches {t s} : (atTime t s).latches = s.latches := rfl
@[simp] theorem atTime_tabAct {t s} : (atTime t s).tabAct = s.tabAct := rfl
@[simp] theorem atTime_tabSh {t s} : (atTime t s).tabSh = s.tabSh := rfl
@[simp] theorem atTime_commits {t s} : (atTime t s).commits = s.commits := rfl
@[simp] theorem atTime_out {t s} : (atTime t s).out = s.out := rfl
@[simp] theorem atTime_held {t s} : (atTime t s).held = s.held := rfl
@[simp] theorem atTime_heldData {t s} : (atTime t s).heldData = s.heldData := rfl
@[simp] theorem atTime_power {t s} : (atTime t s).power = s.power := rfl
@[simp] theorem atTime_tick {t s} : (atTime t s).tick = s.tick := rfl
@[simp] theorem atTime_pairs {t s} : (atTime t s).pairs = s.pairs := rfl
@[simp] theorem atTime_cmds {t s} : (atTime t s).cmds = s.cmds := rfl
@[simp] theorem atTime_cmdSeq {t s} : (atTime t s).cmdSeq = s.cmdSeq := rfl
@[simp] theorem atTime_log {t s} : (atTime t s).log = s.log := rfl
@[simp] theorem atTime_tags {t s} : (atTime t s).tags = s.tags := rfl
@[simp] theorem atTime_foundry {t s} : (atTime t s).foundry = s.foundry := rfl
@[simp] theorem atTime_media {t s} : (atTime t s).media = s.media := rfl
@[simp] theorem atTime_feed {t s} : (atTime t s).feed = s.feed := rfl
@[simp] theorem atTime_rmt {t s} : (atTime t s).rmt = s.rmt := rfl
@[simp] theorem atTime_host {t s} : (atTime t s).host = s.host := rfl
@[simp] theorem atTime_ciph {t s} : (atTime t s).ciph = s.ciph := rfl
@[simp] theorem atTime_flash {t s} : (atTime t s).flash = s.flash := rfl
@[simp] theorem atTime_nvme {t s} : (atTime t s).nvme = s.nvme := rfl
@[simp] theorem atTime_ckpt {t s} : (atTime t s).ckpt = s.ckpt := rfl
@[simp] theorem atTime_pair {t s} : (atTime t s).pair = s.pair := rfl
@[simp] theorem atTime_intg {t s} : (atTime t s).intg = s.intg := rfl
@[simp] theorem atTime_mgmt {t s} : (atTime t s).mgmt = s.mgmt := rfl
@[simp] theorem atTime_cores {t s} : (atTime t s).cores = s.cores := rfl
@[simp] theorem atTime_mem {t s} : (atTime t s).mem = s.mem := rfl
@[simp] theorem atTime_pending {t s} : (atTime t s).pending = s.pending := rfl

/-! ### emit -/

@[simp] theorem emit_now {e s} : (emit e s).now = s.now := rfl
@[simp] theorem emit_fresh {e s} : (emit e s).fresh = s.fresh := rfl
@[simp] theorem emit_regs {e s} : (emit e s).regs = s.regs := rfl
@[simp] theorem emit_shadow {e s} : (emit e s).shadow = s.shadow := rfl
@[simp] theorem emit_latches {e s} : (emit e s).latches = s.latches := rfl
@[simp] theorem emit_tabAct {e s} : (emit e s).tabAct = s.tabAct := rfl
@[simp] theorem emit_tabSh {e s} : (emit e s).tabSh = s.tabSh := rfl
@[simp] theorem emit_commits {e s} : (emit e s).commits = s.commits := rfl
@[simp] theorem emit_out {e s} : (emit e s).out = s.out ++ [e] := rfl
@[simp] theorem emit_held {e s} : (emit e s).held = s.held := rfl
@[simp] theorem emit_heldData {e s} : (emit e s).heldData = s.heldData := rfl
@[simp] theorem emit_power {e s} : (emit e s).power = s.power := rfl
@[simp] theorem emit_tick {e s} : (emit e s).tick = s.tick := rfl
@[simp] theorem emit_pairs {e s} : (emit e s).pairs = s.pairs := rfl
@[simp] theorem emit_cmds {e s} : (emit e s).cmds = s.cmds := rfl
@[simp] theorem emit_cmdSeq {e s} : (emit e s).cmdSeq = s.cmdSeq := rfl
@[simp] theorem emit_log {e s} : (emit e s).log = s.log := rfl
@[simp] theorem emit_tags {e s} : (emit e s).tags = s.tags := rfl
@[simp] theorem emit_foundry {e s} : (emit e s).foundry = s.foundry := rfl
@[simp] theorem emit_media {e s} : (emit e s).media = s.media := rfl
@[simp] theorem emit_feed {e s} : (emit e s).feed = s.feed := rfl
@[simp] theorem emit_rmt {e s} : (emit e s).rmt = s.rmt := rfl
@[simp] theorem emit_host {e s} : (emit e s).host = s.host := rfl
@[simp] theorem emit_ciph {e s} : (emit e s).ciph = s.ciph := rfl
@[simp] theorem emit_flash {e s} : (emit e s).flash = s.flash := rfl
@[simp] theorem emit_nvme {e s} : (emit e s).nvme = s.nvme := rfl
@[simp] theorem emit_ckpt {e s} : (emit e s).ckpt = s.ckpt := rfl
@[simp] theorem emit_pair {e s} : (emit e s).pair = s.pair := rfl
@[simp] theorem emit_intg {e s} : (emit e s).intg = s.intg := rfl
@[simp] theorem emit_mgmt {e s} : (emit e s).mgmt = s.mgmt := rfl
@[simp] theorem emit_cores {e s} : (emit e s).cores = s.cores := rfl
@[simp] theorem emit_mem {e s} : (emit e s).mem = s.mem := rfl
@[simp] theorem emit_pending {e s} : (emit e s).pending = s.pending := rfl

/-! ### setMgmt -/

@[simp] theorem setMgmt_now {s f} : (setMgmt s f).now = s.now := rfl
@[simp] theorem setMgmt_fresh {s f} : (setMgmt s f).fresh = s.fresh := rfl
@[simp] theorem setMgmt_regs {s f} : (setMgmt s f).regs = s.regs := rfl
@[simp] theorem setMgmt_shadow {s f} : (setMgmt s f).shadow = s.shadow := rfl
@[simp] theorem setMgmt_latches {s f} : (setMgmt s f).latches = s.latches := rfl
@[simp] theorem setMgmt_tabAct {s f} : (setMgmt s f).tabAct = s.tabAct := rfl
@[simp] theorem setMgmt_tabSh {s f} : (setMgmt s f).tabSh = s.tabSh := rfl
@[simp] theorem setMgmt_commits {s f} : (setMgmt s f).commits = s.commits := rfl
@[simp] theorem setMgmt_out {s f} : (setMgmt s f).out = s.out := rfl
@[simp] theorem setMgmt_held {s f} : (setMgmt s f).held = s.held := rfl
@[simp] theorem setMgmt_heldData {s f} : (setMgmt s f).heldData = s.heldData := rfl
@[simp] theorem setMgmt_power {s f} : (setMgmt s f).power = s.power := rfl
@[simp] theorem setMgmt_tick {s f} : (setMgmt s f).tick = s.tick := rfl
@[simp] theorem setMgmt_pairs {s f} : (setMgmt s f).pairs = s.pairs := rfl
@[simp] theorem setMgmt_cmds {s f} : (setMgmt s f).cmds = s.cmds := rfl
@[simp] theorem setMgmt_cmdSeq {s f} : (setMgmt s f).cmdSeq = s.cmdSeq := rfl
@[simp] theorem setMgmt_log {s f} : (setMgmt s f).log = s.log := rfl
@[simp] theorem setMgmt_tags {s f} : (setMgmt s f).tags = s.tags := rfl
@[simp] theorem setMgmt_foundry {s f} : (setMgmt s f).foundry = s.foundry := rfl
@[simp] theorem setMgmt_media {s f} : (setMgmt s f).media = s.media := rfl
@[simp] theorem setMgmt_feed {s f} : (setMgmt s f).feed = s.feed := rfl
@[simp] theorem setMgmt_rmt {s f} : (setMgmt s f).rmt = s.rmt := rfl
@[simp] theorem setMgmt_host {s f} : (setMgmt s f).host = s.host := rfl
@[simp] theorem setMgmt_ciph {s f} : (setMgmt s f).ciph = s.ciph := rfl
@[simp] theorem setMgmt_flash {s f} : (setMgmt s f).flash = s.flash := rfl
@[simp] theorem setMgmt_nvme {s f} : (setMgmt s f).nvme = s.nvme := rfl
@[simp] theorem setMgmt_ckpt {s f} : (setMgmt s f).ckpt = s.ckpt := rfl
@[simp] theorem setMgmt_pair {s f} : (setMgmt s f).pair = s.pair := rfl
@[simp] theorem setMgmt_intg {s f} : (setMgmt s f).intg = s.intg := rfl
@[simp] theorem setMgmt_mgmt {s f} : (setMgmt s f).mgmt = f s.mgmt := rfl
@[simp] theorem setMgmt_cores {s f} : (setMgmt s f).cores = s.cores := rfl
@[simp] theorem setMgmt_mem {s f} : (setMgmt s f).mem = s.mem := rfl
@[simp] theorem setMgmt_pending {s f} : (setMgmt s f).pending = s.pending := rfl

/-! ### setCiph -/

@[simp] theorem setCiph_now {s f} : (setCiph s f).now = s.now := rfl
@[simp] theorem setCiph_fresh {s f} : (setCiph s f).fresh = s.fresh := rfl
@[simp] theorem setCiph_regs {s f} : (setCiph s f).regs = s.regs := rfl
@[simp] theorem setCiph_shadow {s f} : (setCiph s f).shadow = s.shadow := rfl
@[simp] theorem setCiph_latches {s f} : (setCiph s f).latches = s.latches := rfl
@[simp] theorem setCiph_tabAct {s f} : (setCiph s f).tabAct = s.tabAct := rfl
@[simp] theorem setCiph_tabSh {s f} : (setCiph s f).tabSh = s.tabSh := rfl
@[simp] theorem setCiph_commits {s f} : (setCiph s f).commits = s.commits := rfl
@[simp] theorem setCiph_out {s f} : (setCiph s f).out = s.out := rfl
@[simp] theorem setCiph_held {s f} : (setCiph s f).held = s.held := rfl
@[simp] theorem setCiph_heldData {s f} : (setCiph s f).heldData = s.heldData := rfl
@[simp] theorem setCiph_power {s f} : (setCiph s f).power = s.power := rfl
@[simp] theorem setCiph_tick {s f} : (setCiph s f).tick = s.tick := rfl
@[simp] theorem setCiph_pairs {s f} : (setCiph s f).pairs = s.pairs := rfl
@[simp] theorem setCiph_cmds {s f} : (setCiph s f).cmds = s.cmds := rfl
@[simp] theorem setCiph_cmdSeq {s f} : (setCiph s f).cmdSeq = s.cmdSeq := rfl
@[simp] theorem setCiph_log {s f} : (setCiph s f).log = s.log := rfl
@[simp] theorem setCiph_tags {s f} : (setCiph s f).tags = s.tags := rfl
@[simp] theorem setCiph_foundry {s f} : (setCiph s f).foundry = s.foundry := rfl
@[simp] theorem setCiph_media {s f} : (setCiph s f).media = s.media := rfl
@[simp] theorem setCiph_feed {s f} : (setCiph s f).feed = s.feed := rfl
@[simp] theorem setCiph_rmt {s f} : (setCiph s f).rmt = s.rmt := rfl
@[simp] theorem setCiph_host {s f} : (setCiph s f).host = s.host := rfl
@[simp] theorem setCiph_ciph {s f} : (setCiph s f).ciph = f s.ciph := rfl
@[simp] theorem setCiph_flash {s f} : (setCiph s f).flash = s.flash := rfl
@[simp] theorem setCiph_nvme {s f} : (setCiph s f).nvme = s.nvme := rfl
@[simp] theorem setCiph_ckpt {s f} : (setCiph s f).ckpt = s.ckpt := rfl
@[simp] theorem setCiph_pair {s f} : (setCiph s f).pair = s.pair := rfl
@[simp] theorem setCiph_intg {s f} : (setCiph s f).intg = s.intg := rfl
@[simp] theorem setCiph_mgmt {s f} : (setCiph s f).mgmt = s.mgmt := rfl
@[simp] theorem setCiph_cores {s f} : (setCiph s f).cores = s.cores := rfl
@[simp] theorem setCiph_mem {s f} : (setCiph s f).mem = s.mem := rfl
@[simp] theorem setCiph_pending {s f} : (setCiph s f).pending = s.pending := rfl

/-! ### setCkpt -/

@[simp] theorem setCkpt_now {s f} : (setCkpt s f).now = s.now := rfl
@[simp] theorem setCkpt_fresh {s f} : (setCkpt s f).fresh = s.fresh := rfl
@[simp] theorem setCkpt_regs {s f} : (setCkpt s f).regs = s.regs := rfl
@[simp] theorem setCkpt_shadow {s f} : (setCkpt s f).shadow = s.shadow := rfl
@[simp] theorem setCkpt_latches {s f} : (setCkpt s f).latches = s.latches := rfl
@[simp] theorem setCkpt_tabAct {s f} : (setCkpt s f).tabAct = s.tabAct := rfl
@[simp] theorem setCkpt_tabSh {s f} : (setCkpt s f).tabSh = s.tabSh := rfl
@[simp] theorem setCkpt_commits {s f} : (setCkpt s f).commits = s.commits := rfl
@[simp] theorem setCkpt_out {s f} : (setCkpt s f).out = s.out := rfl
@[simp] theorem setCkpt_held {s f} : (setCkpt s f).held = s.held := rfl
@[simp] theorem setCkpt_heldData {s f} : (setCkpt s f).heldData = s.heldData := rfl
@[simp] theorem setCkpt_power {s f} : (setCkpt s f).power = s.power := rfl
@[simp] theorem setCkpt_tick {s f} : (setCkpt s f).tick = s.tick := rfl
@[simp] theorem setCkpt_pairs {s f} : (setCkpt s f).pairs = s.pairs := rfl
@[simp] theorem setCkpt_cmds {s f} : (setCkpt s f).cmds = s.cmds := rfl
@[simp] theorem setCkpt_cmdSeq {s f} : (setCkpt s f).cmdSeq = s.cmdSeq := rfl
@[simp] theorem setCkpt_log {s f} : (setCkpt s f).log = s.log := rfl
@[simp] theorem setCkpt_tags {s f} : (setCkpt s f).tags = s.tags := rfl
@[simp] theorem setCkpt_foundry {s f} : (setCkpt s f).foundry = s.foundry := rfl
@[simp] theorem setCkpt_media {s f} : (setCkpt s f).media = s.media := rfl
@[simp] theorem setCkpt_feed {s f} : (setCkpt s f).feed = s.feed := rfl
@[simp] theorem setCkpt_rmt {s f} : (setCkpt s f).rmt = s.rmt := rfl
@[simp] theorem setCkpt_host {s f} : (setCkpt s f).host = s.host := rfl
@[simp] theorem setCkpt_ciph {s f} : (setCkpt s f).ciph = s.ciph := rfl
@[simp] theorem setCkpt_flash {s f} : (setCkpt s f).flash = s.flash := rfl
@[simp] theorem setCkpt_nvme {s f} : (setCkpt s f).nvme = s.nvme := rfl
@[simp] theorem setCkpt_ckpt {s f} : (setCkpt s f).ckpt = f s.ckpt := rfl
@[simp] theorem setCkpt_pair {s f} : (setCkpt s f).pair = s.pair := rfl
@[simp] theorem setCkpt_intg {s f} : (setCkpt s f).intg = s.intg := rfl
@[simp] theorem setCkpt_mgmt {s f} : (setCkpt s f).mgmt = s.mgmt := rfl
@[simp] theorem setCkpt_cores {s f} : (setCkpt s f).cores = s.cores := rfl
@[simp] theorem setCkpt_mem {s f} : (setCkpt s f).mem = s.mem := rfl
@[simp] theorem setCkpt_pending {s f} : (setCkpt s f).pending = s.pending := rfl

/-! ### setRmt -/

@[simp] theorem setRmt_now {s f} : (setRmt s f).now = s.now := rfl
@[simp] theorem setRmt_fresh {s f} : (setRmt s f).fresh = s.fresh := rfl
@[simp] theorem setRmt_regs {s f} : (setRmt s f).regs = s.regs := rfl
@[simp] theorem setRmt_shadow {s f} : (setRmt s f).shadow = s.shadow := rfl
@[simp] theorem setRmt_latches {s f} : (setRmt s f).latches = s.latches := rfl
@[simp] theorem setRmt_tabAct {s f} : (setRmt s f).tabAct = s.tabAct := rfl
@[simp] theorem setRmt_tabSh {s f} : (setRmt s f).tabSh = s.tabSh := rfl
@[simp] theorem setRmt_commits {s f} : (setRmt s f).commits = s.commits := rfl
@[simp] theorem setRmt_out {s f} : (setRmt s f).out = s.out := rfl
@[simp] theorem setRmt_held {s f} : (setRmt s f).held = s.held := rfl
@[simp] theorem setRmt_heldData {s f} : (setRmt s f).heldData = s.heldData := rfl
@[simp] theorem setRmt_power {s f} : (setRmt s f).power = s.power := rfl
@[simp] theorem setRmt_tick {s f} : (setRmt s f).tick = s.tick := rfl
@[simp] theorem setRmt_pairs {s f} : (setRmt s f).pairs = s.pairs := rfl
@[simp] theorem setRmt_cmds {s f} : (setRmt s f).cmds = s.cmds := rfl
@[simp] theorem setRmt_cmdSeq {s f} : (setRmt s f).cmdSeq = s.cmdSeq := rfl
@[simp] theorem setRmt_log {s f} : (setRmt s f).log = s.log := rfl
@[simp] theorem setRmt_tags {s f} : (setRmt s f).tags = s.tags := rfl
@[simp] theorem setRmt_foundry {s f} : (setRmt s f).foundry = s.foundry := rfl
@[simp] theorem setRmt_media {s f} : (setRmt s f).media = s.media := rfl
@[simp] theorem setRmt_feed {s f} : (setRmt s f).feed = s.feed := rfl
@[simp] theorem setRmt_rmt {s f} : (setRmt s f).rmt = f s.rmt := rfl
@[simp] theorem setRmt_host {s f} : (setRmt s f).host = s.host := rfl
@[simp] theorem setRmt_ciph {s f} : (setRmt s f).ciph = s.ciph := rfl
@[simp] theorem setRmt_flash {s f} : (setRmt s f).flash = s.flash := rfl
@[simp] theorem setRmt_nvme {s f} : (setRmt s f).nvme = s.nvme := rfl
@[simp] theorem setRmt_ckpt {s f} : (setRmt s f).ckpt = s.ckpt := rfl
@[simp] theorem setRmt_pair {s f} : (setRmt s f).pair = s.pair := rfl
@[simp] theorem setRmt_intg {s f} : (setRmt s f).intg = s.intg := rfl
@[simp] theorem setRmt_mgmt {s f} : (setRmt s f).mgmt = s.mgmt := rfl
@[simp] theorem setRmt_cores {s f} : (setRmt s f).cores = s.cores := rfl
@[simp] theorem setRmt_mem {s f} : (setRmt s f).mem = s.mem := rfl
@[simp] theorem setRmt_pending {s f} : (setRmt s f).pending = s.pending := rfl

/-! ### setIntg -/

@[simp] theorem setIntg_now {s f} : (setIntg s f).now = s.now := rfl
@[simp] theorem setIntg_fresh {s f} : (setIntg s f).fresh = s.fresh := rfl
@[simp] theorem setIntg_regs {s f} : (setIntg s f).regs = s.regs := rfl
@[simp] theorem setIntg_shadow {s f} : (setIntg s f).shadow = s.shadow := rfl
@[simp] theorem setIntg_latches {s f} : (setIntg s f).latches = s.latches := rfl
@[simp] theorem setIntg_tabAct {s f} : (setIntg s f).tabAct = s.tabAct := rfl
@[simp] theorem setIntg_tabSh {s f} : (setIntg s f).tabSh = s.tabSh := rfl
@[simp] theorem setIntg_commits {s f} : (setIntg s f).commits = s.commits := rfl
@[simp] theorem setIntg_out {s f} : (setIntg s f).out = s.out := rfl
@[simp] theorem setIntg_held {s f} : (setIntg s f).held = s.held := rfl
@[simp] theorem setIntg_heldData {s f} : (setIntg s f).heldData = s.heldData := rfl
@[simp] theorem setIntg_power {s f} : (setIntg s f).power = s.power := rfl
@[simp] theorem setIntg_tick {s f} : (setIntg s f).tick = s.tick := rfl
@[simp] theorem setIntg_pairs {s f} : (setIntg s f).pairs = s.pairs := rfl
@[simp] theorem setIntg_cmds {s f} : (setIntg s f).cmds = s.cmds := rfl
@[simp] theorem setIntg_cmdSeq {s f} : (setIntg s f).cmdSeq = s.cmdSeq := rfl
@[simp] theorem setIntg_log {s f} : (setIntg s f).log = s.log := rfl
@[simp] theorem setIntg_tags {s f} : (setIntg s f).tags = s.tags := rfl
@[simp] theorem setIntg_foundry {s f} : (setIntg s f).foundry = s.foundry := rfl
@[simp] theorem setIntg_media {s f} : (setIntg s f).media = s.media := rfl
@[simp] theorem setIntg_feed {s f} : (setIntg s f).feed = s.feed := rfl
@[simp] theorem setIntg_rmt {s f} : (setIntg s f).rmt = s.rmt := rfl
@[simp] theorem setIntg_host {s f} : (setIntg s f).host = s.host := rfl
@[simp] theorem setIntg_ciph {s f} : (setIntg s f).ciph = s.ciph := rfl
@[simp] theorem setIntg_flash {s f} : (setIntg s f).flash = s.flash := rfl
@[simp] theorem setIntg_nvme {s f} : (setIntg s f).nvme = s.nvme := rfl
@[simp] theorem setIntg_ckpt {s f} : (setIntg s f).ckpt = s.ckpt := rfl
@[simp] theorem setIntg_pair {s f} : (setIntg s f).pair = s.pair := rfl
@[simp] theorem setIntg_intg {s f} : (setIntg s f).intg = f s.intg := rfl
@[simp] theorem setIntg_mgmt {s f} : (setIntg s f).mgmt = s.mgmt := rfl
@[simp] theorem setIntg_cores {s f} : (setIntg s f).cores = s.cores := rfl
@[simp] theorem setIntg_mem {s f} : (setIntg s f).mem = s.mem := rfl
@[simp] theorem setIntg_pending {s f} : (setIntg s f).pending = s.pending := rfl

/-! ### setFlash -/

@[simp] theorem setFlash_now {s f} : (setFlash s f).now = s.now := rfl
@[simp] theorem setFlash_fresh {s f} : (setFlash s f).fresh = s.fresh := rfl
@[simp] theorem setFlash_regs {s f} : (setFlash s f).regs = s.regs := rfl
@[simp] theorem setFlash_shadow {s f} : (setFlash s f).shadow = s.shadow := rfl
@[simp] theorem setFlash_latches {s f} : (setFlash s f).latches = s.latches := rfl
@[simp] theorem setFlash_tabAct {s f} : (setFlash s f).tabAct = s.tabAct := rfl
@[simp] theorem setFlash_tabSh {s f} : (setFlash s f).tabSh = s.tabSh := rfl
@[simp] theorem setFlash_commits {s f} : (setFlash s f).commits = s.commits := rfl
@[simp] theorem setFlash_out {s f} : (setFlash s f).out = s.out := rfl
@[simp] theorem setFlash_held {s f} : (setFlash s f).held = s.held := rfl
@[simp] theorem setFlash_heldData {s f} : (setFlash s f).heldData = s.heldData := rfl
@[simp] theorem setFlash_power {s f} : (setFlash s f).power = s.power := rfl
@[simp] theorem setFlash_tick {s f} : (setFlash s f).tick = s.tick := rfl
@[simp] theorem setFlash_pairs {s f} : (setFlash s f).pairs = s.pairs := rfl
@[simp] theorem setFlash_cmds {s f} : (setFlash s f).cmds = s.cmds := rfl
@[simp] theorem setFlash_cmdSeq {s f} : (setFlash s f).cmdSeq = s.cmdSeq := rfl
@[simp] theorem setFlash_log {s f} : (setFlash s f).log = s.log := rfl
@[simp] theorem setFlash_tags {s f} : (setFlash s f).tags = s.tags := rfl
@[simp] theorem setFlash_foundry {s f} : (setFlash s f).foundry = s.foundry := rfl
@[simp] theorem setFlash_media {s f} : (setFlash s f).media = s.media := rfl
@[simp] theorem setFlash_feed {s f} : (setFlash s f).feed = s.feed := rfl
@[simp] theorem setFlash_rmt {s f} : (setFlash s f).rmt = s.rmt := rfl
@[simp] theorem setFlash_host {s f} : (setFlash s f).host = s.host := rfl
@[simp] theorem setFlash_ciph {s f} : (setFlash s f).ciph = s.ciph := rfl
@[simp] theorem setFlash_flash {s f} : (setFlash s f).flash = f s.flash := rfl
@[simp] theorem setFlash_nvme {s f} : (setFlash s f).nvme = s.nvme := rfl
@[simp] theorem setFlash_ckpt {s f} : (setFlash s f).ckpt = s.ckpt := rfl
@[simp] theorem setFlash_pair {s f} : (setFlash s f).pair = s.pair := rfl
@[simp] theorem setFlash_intg {s f} : (setFlash s f).intg = s.intg := rfl
@[simp] theorem setFlash_mgmt {s f} : (setFlash s f).mgmt = s.mgmt := rfl
@[simp] theorem setFlash_cores {s f} : (setFlash s f).cores = s.cores := rfl
@[simp] theorem setFlash_mem {s f} : (setFlash s f).mem = s.mem := rfl
@[simp] theorem setFlash_pending {s f} : (setFlash s f).pending = s.pending := rfl

/-! ### setFoundry -/

@[simp] theorem setFoundry_now {s f} : (setFoundry s f).now = s.now := rfl
@[simp] theorem setFoundry_fresh {s f} : (setFoundry s f).fresh = s.fresh := rfl
@[simp] theorem setFoundry_regs {s f} : (setFoundry s f).regs = s.regs := rfl
@[simp] theorem setFoundry_shadow {s f} : (setFoundry s f).shadow = s.shadow := rfl
@[simp] theorem setFoundry_latches {s f} : (setFoundry s f).latches = s.latches := rfl
@[simp] theorem setFoundry_tabAct {s f} : (setFoundry s f).tabAct = s.tabAct := rfl
@[simp] theorem setFoundry_tabSh {s f} : (setFoundry s f).tabSh = s.tabSh := rfl
@[simp] theorem setFoundry_commits {s f} : (setFoundry s f).commits = s.commits := rfl
@[simp] theorem setFoundry_out {s f} : (setFoundry s f).out = s.out := rfl
@[simp] theorem setFoundry_held {s f} : (setFoundry s f).held = s.held := rfl
@[simp] theorem setFoundry_heldData {s f} : (setFoundry s f).heldData = s.heldData := rfl
@[simp] theorem setFoundry_power {s f} : (setFoundry s f).power = s.power := rfl
@[simp] theorem setFoundry_tick {s f} : (setFoundry s f).tick = s.tick := rfl
@[simp] theorem setFoundry_pairs {s f} : (setFoundry s f).pairs = s.pairs := rfl
@[simp] theorem setFoundry_cmds {s f} : (setFoundry s f).cmds = s.cmds := rfl
@[simp] theorem setFoundry_cmdSeq {s f} : (setFoundry s f).cmdSeq = s.cmdSeq := rfl
@[simp] theorem setFoundry_log {s f} : (setFoundry s f).log = s.log := rfl
@[simp] theorem setFoundry_tags {s f} : (setFoundry s f).tags = s.tags := rfl
@[simp] theorem setFoundry_foundry {s f} : (setFoundry s f).foundry = f s.foundry := rfl
@[simp] theorem setFoundry_media {s f} : (setFoundry s f).media = s.media := rfl
@[simp] theorem setFoundry_feed {s f} : (setFoundry s f).feed = s.feed := rfl
@[simp] theorem setFoundry_rmt {s f} : (setFoundry s f).rmt = s.rmt := rfl
@[simp] theorem setFoundry_host {s f} : (setFoundry s f).host = s.host := rfl
@[simp] theorem setFoundry_ciph {s f} : (setFoundry s f).ciph = s.ciph := rfl
@[simp] theorem setFoundry_flash {s f} : (setFoundry s f).flash = s.flash := rfl
@[simp] theorem setFoundry_nvme {s f} : (setFoundry s f).nvme = s.nvme := rfl
@[simp] theorem setFoundry_ckpt {s f} : (setFoundry s f).ckpt = s.ckpt := rfl
@[simp] theorem setFoundry_pair {s f} : (setFoundry s f).pair = s.pair := rfl
@[simp] theorem setFoundry_intg {s f} : (setFoundry s f).intg = s.intg := rfl
@[simp] theorem setFoundry_mgmt {s f} : (setFoundry s f).mgmt = s.mgmt := rfl
@[simp] theorem setFoundry_cores {s f} : (setFoundry s f).cores = s.cores := rfl
@[simp] theorem setFoundry_mem {s f} : (setFoundry s f).mem = s.mem := rfl
@[simp] theorem setFoundry_pending {s f} : (setFoundry s f).pending = s.pending := rfl

/-! ### setHost -/

@[simp] theorem setHost_now {s f} : (setHost s f).now = s.now := rfl
@[simp] theorem setHost_fresh {s f} : (setHost s f).fresh = s.fresh := rfl
@[simp] theorem setHost_regs {s f} : (setHost s f).regs = s.regs := rfl
@[simp] theorem setHost_shadow {s f} : (setHost s f).shadow = s.shadow := rfl
@[simp] theorem setHost_latches {s f} : (setHost s f).latches = s.latches := rfl
@[simp] theorem setHost_tabAct {s f} : (setHost s f).tabAct = s.tabAct := rfl
@[simp] theorem setHost_tabSh {s f} : (setHost s f).tabSh = s.tabSh := rfl
@[simp] theorem setHost_commits {s f} : (setHost s f).commits = s.commits := rfl
@[simp] theorem setHost_out {s f} : (setHost s f).out = s.out := rfl
@[simp] theorem setHost_held {s f} : (setHost s f).held = s.held := rfl
@[simp] theorem setHost_heldData {s f} : (setHost s f).heldData = s.heldData := rfl
@[simp] theorem setHost_power {s f} : (setHost s f).power = s.power := rfl
@[simp] theorem setHost_tick {s f} : (setHost s f).tick = s.tick := rfl
@[simp] theorem setHost_pairs {s f} : (setHost s f).pairs = s.pairs := rfl
@[simp] theorem setHost_cmds {s f} : (setHost s f).cmds = s.cmds := rfl
@[simp] theorem setHost_cmdSeq {s f} : (setHost s f).cmdSeq = s.cmdSeq := rfl
@[simp] theorem setHost_log {s f} : (setHost s f).log = s.log := rfl
@[simp] theorem setHost_tags {s f} : (setHost s f).tags = s.tags := rfl
@[simp] theorem setHost_foundry {s f} : (setHost s f).foundry = s.foundry := rfl
@[simp] theorem setHost_media {s f} : (setHost s f).media = s.media := rfl
@[simp] theorem setHost_feed {s f} : (setHost s f).feed = s.feed := rfl
@[simp] theorem setHost_rmt {s f} : (setHost s f).rmt = s.rmt := rfl
@[simp] theorem setHost_host {s f} : (setHost s f).host = f s.host := rfl
@[simp] theorem setHost_ciph {s f} : (setHost s f).ciph = s.ciph := rfl
@[simp] theorem setHost_flash {s f} : (setHost s f).flash = s.flash := rfl
@[simp] theorem setHost_nvme {s f} : (setHost s f).nvme = s.nvme := rfl
@[simp] theorem setHost_ckpt {s f} : (setHost s f).ckpt = s.ckpt := rfl
@[simp] theorem setHost_pair {s f} : (setHost s f).pair = s.pair := rfl
@[simp] theorem setHost_intg {s f} : (setHost s f).intg = s.intg := rfl
@[simp] theorem setHost_mgmt {s f} : (setHost s f).mgmt = s.mgmt := rfl
@[simp] theorem setHost_cores {s f} : (setHost s f).cores = s.cores := rfl
@[simp] theorem setHost_mem {s f} : (setHost s f).mem = s.mem := rfl
@[simp] theorem setHost_pending {s f} : (setHost s f).pending = s.pending := rfl

/-! ### setFeed -/

@[simp] theorem setFeed_now {s f} : (setFeed s f).now = s.now := rfl
@[simp] theorem setFeed_fresh {s f} : (setFeed s f).fresh = s.fresh := rfl
@[simp] theorem setFeed_regs {s f} : (setFeed s f).regs = s.regs := rfl
@[simp] theorem setFeed_shadow {s f} : (setFeed s f).shadow = s.shadow := rfl
@[simp] theorem setFeed_latches {s f} : (setFeed s f).latches = s.latches := rfl
@[simp] theorem setFeed_tabAct {s f} : (setFeed s f).tabAct = s.tabAct := rfl
@[simp] theorem setFeed_tabSh {s f} : (setFeed s f).tabSh = s.tabSh := rfl
@[simp] theorem setFeed_commits {s f} : (setFeed s f).commits = s.commits := rfl
@[simp] theorem setFeed_out {s f} : (setFeed s f).out = s.out := rfl
@[simp] theorem setFeed_held {s f} : (setFeed s f).held = s.held := rfl
@[simp] theorem setFeed_heldData {s f} : (setFeed s f).heldData = s.heldData := rfl
@[simp] theorem setFeed_power {s f} : (setFeed s f).power = s.power := rfl
@[simp] theorem setFeed_tick {s f} : (setFeed s f).tick = s.tick := rfl
@[simp] theorem setFeed_pairs {s f} : (setFeed s f).pairs = s.pairs := rfl
@[simp] theorem setFeed_cmds {s f} : (setFeed s f).cmds = s.cmds := rfl
@[simp] theorem setFeed_cmdSeq {s f} : (setFeed s f).cmdSeq = s.cmdSeq := rfl
@[simp] theorem setFeed_log {s f} : (setFeed s f).log = s.log := rfl
@[simp] theorem setFeed_tags {s f} : (setFeed s f).tags = s.tags := rfl
@[simp] theorem setFeed_foundry {s f} : (setFeed s f).foundry = s.foundry := rfl
@[simp] theorem setFeed_media {s f} : (setFeed s f).media = s.media := rfl
@[simp] theorem setFeed_feed {s f} : (setFeed s f).feed = f s.feed := rfl
@[simp] theorem setFeed_rmt {s f} : (setFeed s f).rmt = s.rmt := rfl
@[simp] theorem setFeed_host {s f} : (setFeed s f).host = s.host := rfl
@[simp] theorem setFeed_ciph {s f} : (setFeed s f).ciph = s.ciph := rfl
@[simp] theorem setFeed_flash {s f} : (setFeed s f).flash = s.flash := rfl
@[simp] theorem setFeed_nvme {s f} : (setFeed s f).nvme = s.nvme := rfl
@[simp] theorem setFeed_ckpt {s f} : (setFeed s f).ckpt = s.ckpt := rfl
@[simp] theorem setFeed_pair {s f} : (setFeed s f).pair = s.pair := rfl
@[simp] theorem setFeed_intg {s f} : (setFeed s f).intg = s.intg := rfl
@[simp] theorem setFeed_mgmt {s f} : (setFeed s f).mgmt = s.mgmt := rfl
@[simp] theorem setFeed_cores {s f} : (setFeed s f).cores = s.cores := rfl
@[simp] theorem setFeed_mem {s f} : (setFeed s f).mem = s.mem := rfl
@[simp] theorem setFeed_pending {s f} : (setFeed s f).pending = s.pending := rfl

/-! ### setPairX -/

@[simp] theorem setPairX_now {s f} : (setPairX s f).now = s.now := rfl
@[simp] theorem setPairX_fresh {s f} : (setPairX s f).fresh = s.fresh := rfl
@[simp] theorem setPairX_regs {s f} : (setPairX s f).regs = s.regs := rfl
@[simp] theorem setPairX_shadow {s f} : (setPairX s f).shadow = s.shadow := rfl
@[simp] theorem setPairX_latches {s f} : (setPairX s f).latches = s.latches := rfl
@[simp] theorem setPairX_tabAct {s f} : (setPairX s f).tabAct = s.tabAct := rfl
@[simp] theorem setPairX_tabSh {s f} : (setPairX s f).tabSh = s.tabSh := rfl
@[simp] theorem setPairX_commits {s f} : (setPairX s f).commits = s.commits := rfl
@[simp] theorem setPairX_out {s f} : (setPairX s f).out = s.out := rfl
@[simp] theorem setPairX_held {s f} : (setPairX s f).held = s.held := rfl
@[simp] theorem setPairX_heldData {s f} : (setPairX s f).heldData = s.heldData := rfl
@[simp] theorem setPairX_power {s f} : (setPairX s f).power = s.power := rfl
@[simp] theorem setPairX_tick {s f} : (setPairX s f).tick = s.tick := rfl
@[simp] theorem setPairX_pairs {s f} : (setPairX s f).pairs = s.pairs := rfl
@[simp] theorem setPairX_cmds {s f} : (setPairX s f).cmds = s.cmds := rfl
@[simp] theorem setPairX_cmdSeq {s f} : (setPairX s f).cmdSeq = s.cmdSeq := rfl
@[simp] theorem setPairX_log {s f} : (setPairX s f).log = s.log := rfl
@[simp] theorem setPairX_tags {s f} : (setPairX s f).tags = s.tags := rfl
@[simp] theorem setPairX_foundry {s f} : (setPairX s f).foundry = s.foundry := rfl
@[simp] theorem setPairX_media {s f} : (setPairX s f).media = s.media := rfl
@[simp] theorem setPairX_feed {s f} : (setPairX s f).feed = s.feed := rfl
@[simp] theorem setPairX_rmt {s f} : (setPairX s f).rmt = s.rmt := rfl
@[simp] theorem setPairX_host {s f} : (setPairX s f).host = s.host := rfl
@[simp] theorem setPairX_ciph {s f} : (setPairX s f).ciph = s.ciph := rfl
@[simp] theorem setPairX_flash {s f} : (setPairX s f).flash = s.flash := rfl
@[simp] theorem setPairX_nvme {s f} : (setPairX s f).nvme = s.nvme := rfl
@[simp] theorem setPairX_ckpt {s f} : (setPairX s f).ckpt = s.ckpt := rfl
@[simp] theorem setPairX_pair {s f} : (setPairX s f).pair = f s.pair := rfl
@[simp] theorem setPairX_intg {s f} : (setPairX s f).intg = s.intg := rfl
@[simp] theorem setPairX_mgmt {s f} : (setPairX s f).mgmt = s.mgmt := rfl
@[simp] theorem setPairX_cores {s f} : (setPairX s f).cores = s.cores := rfl
@[simp] theorem setPairX_mem {s f} : (setPairX s f).mem = s.mem := rfl
@[simp] theorem setPairX_pending {s f} : (setPairX s f).pending = s.pending := rfl

/-! ### setNvme -/

@[simp] theorem setNvme_now {s f} : (setNvme s f).now = s.now := rfl
@[simp] theorem setNvme_fresh {s f} : (setNvme s f).fresh = s.fresh := rfl
@[simp] theorem setNvme_regs {s f} : (setNvme s f).regs = s.regs := rfl
@[simp] theorem setNvme_shadow {s f} : (setNvme s f).shadow = s.shadow := rfl
@[simp] theorem setNvme_latches {s f} : (setNvme s f).latches = s.latches := rfl
@[simp] theorem setNvme_tabAct {s f} : (setNvme s f).tabAct = s.tabAct := rfl
@[simp] theorem setNvme_tabSh {s f} : (setNvme s f).tabSh = s.tabSh := rfl
@[simp] theorem setNvme_commits {s f} : (setNvme s f).commits = s.commits := rfl
@[simp] theorem setNvme_out {s f} : (setNvme s f).out = s.out := rfl
@[simp] theorem setNvme_held {s f} : (setNvme s f).held = s.held := rfl
@[simp] theorem setNvme_heldData {s f} : (setNvme s f).heldData = s.heldData := rfl
@[simp] theorem setNvme_power {s f} : (setNvme s f).power = s.power := rfl
@[simp] theorem setNvme_tick {s f} : (setNvme s f).tick = s.tick := rfl
@[simp] theorem setNvme_pairs {s f} : (setNvme s f).pairs = s.pairs := rfl
@[simp] theorem setNvme_cmds {s f} : (setNvme s f).cmds = s.cmds := rfl
@[simp] theorem setNvme_cmdSeq {s f} : (setNvme s f).cmdSeq = s.cmdSeq := rfl
@[simp] theorem setNvme_log {s f} : (setNvme s f).log = s.log := rfl
@[simp] theorem setNvme_tags {s f} : (setNvme s f).tags = s.tags := rfl
@[simp] theorem setNvme_foundry {s f} : (setNvme s f).foundry = s.foundry := rfl
@[simp] theorem setNvme_media {s f} : (setNvme s f).media = s.media := rfl
@[simp] theorem setNvme_feed {s f} : (setNvme s f).feed = s.feed := rfl
@[simp] theorem setNvme_rmt {s f} : (setNvme s f).rmt = s.rmt := rfl
@[simp] theorem setNvme_host {s f} : (setNvme s f).host = s.host := rfl
@[simp] theorem setNvme_ciph {s f} : (setNvme s f).ciph = s.ciph := rfl
@[simp] theorem setNvme_flash {s f} : (setNvme s f).flash = s.flash := rfl
@[simp] theorem setNvme_nvme {s f} : (setNvme s f).nvme = f s.nvme := rfl
@[simp] theorem setNvme_ckpt {s f} : (setNvme s f).ckpt = s.ckpt := rfl
@[simp] theorem setNvme_pair {s f} : (setNvme s f).pair = s.pair := rfl
@[simp] theorem setNvme_intg {s f} : (setNvme s f).intg = s.intg := rfl
@[simp] theorem setNvme_mgmt {s f} : (setNvme s f).mgmt = s.mgmt := rfl
@[simp] theorem setNvme_cores {s f} : (setNvme s f).cores = s.cores := rfl
@[simp] theorem setNvme_mem {s f} : (setNvme s f).mem = s.mem := rfl
@[simp] theorem setNvme_pending {s f} : (setNvme s f).pending = s.pending := rfl

/-! ### setTick -/

@[simp] theorem setTick_now {s f} : (setTick s f).now = s.now := rfl
@[simp] theorem setTick_fresh {s f} : (setTick s f).fresh = s.fresh := rfl
@[simp] theorem setTick_regs {s f} : (setTick s f).regs = s.regs := rfl
@[simp] theorem setTick_shadow {s f} : (setTick s f).shadow = s.shadow := rfl
@[simp] theorem setTick_latches {s f} : (setTick s f).latches = s.latches := rfl
@[simp] theorem setTick_tabAct {s f} : (setTick s f).tabAct = s.tabAct := rfl
@[simp] theorem setTick_tabSh {s f} : (setTick s f).tabSh = s.tabSh := rfl
@[simp] theorem setTick_commits {s f} : (setTick s f).commits = s.commits := rfl
@[simp] theorem setTick_out {s f} : (setTick s f).out = s.out := rfl
@[simp] theorem setTick_held {s f} : (setTick s f).held = s.held := rfl
@[simp] theorem setTick_heldData {s f} : (setTick s f).heldData = s.heldData := rfl
@[simp] theorem setTick_power {s f} : (setTick s f).power = s.power := rfl
@[simp] theorem setTick_tick {s f} : (setTick s f).tick = f s.tick := rfl
@[simp] theorem setTick_pairs {s f} : (setTick s f).pairs = s.pairs := rfl
@[simp] theorem setTick_cmds {s f} : (setTick s f).cmds = s.cmds := rfl
@[simp] theorem setTick_cmdSeq {s f} : (setTick s f).cmdSeq = s.cmdSeq := rfl
@[simp] theorem setTick_log {s f} : (setTick s f).log = s.log := rfl
@[simp] theorem setTick_tags {s f} : (setTick s f).tags = s.tags := rfl
@[simp] theorem setTick_foundry {s f} : (setTick s f).foundry = s.foundry := rfl
@[simp] theorem setTick_media {s f} : (setTick s f).media = s.media := rfl
@[simp] theorem setTick_feed {s f} : (setTick s f).feed = s.feed := rfl
@[simp] theorem setTick_rmt {s f} : (setTick s f).rmt = s.rmt := rfl
@[simp] theorem setTick_host {s f} : (setTick s f).host = s.host := rfl
@[simp] theorem setTick_ciph {s f} : (setTick s f).ciph = s.ciph := rfl
@[simp] theorem setTick_flash {s f} : (setTick s f).flash = s.flash := rfl
@[simp] theorem setTick_nvme {s f} : (setTick s f).nvme = s.nvme := rfl
@[simp] theorem setTick_ckpt {s f} : (setTick s f).ckpt = s.ckpt := rfl
@[simp] theorem setTick_pair {s f} : (setTick s f).pair = s.pair := rfl
@[simp] theorem setTick_intg {s f} : (setTick s f).intg = s.intg := rfl
@[simp] theorem setTick_mgmt {s f} : (setTick s f).mgmt = s.mgmt := rfl
@[simp] theorem setTick_cores {s f} : (setTick s f).cores = s.cores := rfl
@[simp] theorem setTick_mem {s f} : (setTick s f).mem = s.mem := rfl
@[simp] theorem setTick_pending {s f} : (setTick s f).pending = s.pending := rfl

end Sys2Proof.Machine
end

