-- ==== Sys2Proof/Machine/CapTable.lean ====
section
/-! DEFINITION. The capability table that PF0's expansion-ROM BAR exposes: a read-only header and one entry per block type
(R95, R96). -/

namespace Sys2Proof.Machine

/-- Block types in ascending TYPE (R96). -/
def capTypes : List PageType := [
  .glb, .tick, .mss, .pwr, .tile, .dec, .shp, .ten, .feed, .link, .rmt, .eth, .egs, .host, .func, .nvme, .fch, .ftl,
  .ckpt, .pair, .ciph, .intg, .memc, .sramt, .perf]

/-- An entry: TYPE, COUNT, BASE, VER, STRIDE, FLAGS; FUNC alone has pages in the BARs of other functions (R93, R96). -/
def capEntry (ty : PageType) : List Byte :=
  leBytes 2 (pageCode ty) ++ leBytes 2 (pageInstances ty) ++ leBytes 4 (pageBase ty) ++ leBytes 4 0x01010000 ++
    leBytes 2 1 ++ [if ty = .func then 1 else 0, 0]

/-- The entries, and the header without its own CRC (R95). -/
def capEntries : List Byte := capTypes.flatMap capEntry

def capHead : List Byte :=
  leBytes 4 0x50414345 ++ leBytes 1 1 ++ leBytes 1 1 ++ leBytes 2 64 ++ leBytes 2 16 ++ leBytes 2 25 ++ leBytes 4 464 ++
    leBytes 1 0x42 ++ leBytes 1 26 ++ leBytes 2 0x0100 ++ leBytes 2 0x0100 ++ List.replicate 34 0 ++
    leBytes 4 (crc32 capEntries)

/-- The table: header, HDR_CRC, entries; 464 bytes (R95). -/
def capTable : List Byte := capHead ++ leBytes 4 (crc32 capHead) ++ capEntries

end Sys2Proof.Machine
end

