-- ==== Sys2Proof/Machine/FlashPage.lean ====
section
/-! DEFINITION. What stands on a page of the medium: its codewords (R396, R418). The map holds logical blocks in clear; this
view says which bytes a codeword of them has. -/

namespace Sys2Proof.Machine

/-- The FTL tag of a codeword: namespace, first LBA, write sequence, kind and CRC-32C (R418). -/
def ftlTag (nsid lba seq kind : Nat) : List Byte :=
  let b := leBytes 4 nsid ++ leBytes 8 lba ++ leBytes 8 seq ++ leBytes 1 kind ++ List.replicate 7 0
  b ++ leBytes 4 (crc32c b)

/-- The 4,608 bytes of a codeword that one write put there: 4,096 bytes of data in clear from LBA `lba` on, in blocks of `bs`
bytes, with the 16-byte entries of its blocks. Each block is one data unit of AES-XTS under the namespace's key slot, its
LBA the tweak. -/
def codeword (key : List Byte) (bs nsid lba seq kind : Nat) (data entries : List Byte) : List Byte :=
  let body := xts true key bs lba data ++ entries ++ List.replicate (128 - entries.length) 0 ++ ftlTag nsid lba seq kind
  body ++ (Config.ldpcParity body).toList

/-- The codeword of a logical block of a 4 KiB format, as staged (kind 0) or folded (kind 1). -/
def blockCodeword (nsid lba : Nat) (s : State) : Option (List Byte) :=
  match mget s.flash.map (lbaKey nsid lba), getSlot s (0xF00 + nsid - 1) with
  | some b, some k => some (codeword k.key 4096 nsid lba b.seq (if b.staged.isSome then 0 else 1) b.data b.pi)
  | _, _ => none

end Sys2Proof.Machine
end

