-- ==== Sys2Proof/Tests/Slice0.lean ====
section
/-! SUPPORT. Tests: ill-formed operands are refused, worked examples of the manual, and for every statement a state and
operands that meet its hypotheses. -/

namespace Sys2Proof.Tests
open Sys2Proof Sys2Proof.Machine

set_option Elab.async false

/-- The reset state, where core 36 runs. -/
abbrev reset36 : State := State.reset

/-- An instruction of these bytes on core 36, in one cycle. -/
abbrev il (b : List Byte) (w : Nat := 0) : Ilx := ⟨36, w, false, false, false, b, 1, 0, false⟩

/-- Each of these bytes spells the instruction beside it, and the core has fetched them. -/
abbrev AllReady (s : State) (x : List Byte → Ilx) (l : List (List Byte × (Ilx → Instr))) : Prop :=
  ∀ e ∈ l, IlReady (x e.1) (e.2 (x e.1)) s

/-- The block waiting to run: a page in a given block state. -/
abbrev inState (p : Page) (n : Nat) (s : State) : State := setBlkState s p n

/-- A service command of PF0's pair 0 with CID 7, an opcode, an object type and index, and its parameter dwords. -/
abbrev cmdOf (op ty obj : Nat) (params : List Nat) : SvcCmd :=
  ⟨0, 0, 7, [BitVec.ofNat 32 (0x00071000 + op), BitVec.ofNat 32 (ty * 2 ^ 24 + obj), 0, 0] ++ params.map (BitVec.ofNat 32), false, 5, 0⟩

abbrev cmd7 : CmdRef := ⟨0, 0, 7⟩

/-- The command is the one in hand. -/
abbrev handed (c : SvcCmd) (s : State) : State := { s with cmds := [c] }

/-- A command in hand of a device in no quiesce is ready. -/
theorem ready_handed (op ty obj : Nat) (params : List Nat) (s : State) (h : (cmdOf op ty obj params).op = op)
    (q : s.power.quiesce = none) : SvcReady cmd7 op (cmdOf op ty obj params) (handed (cmdOf op ty obj params) s) := by
  refine ⟨by simp [findCmd], rfl, h, ?_, ?_, ?_⟩
  · simp [orderedOk]
  · simp [lateCmd, SvcCmd.deadline, SvcCmd.q, SvcCmd.d]
  · simp [quiescing, q]

/-- A tokenizer graph of its input, four INT32 values in SHAPE, and one EMIT op. -/
abbrev testGraph : List Byte :=
  [69, 71, 82, 70, 1, 0, 0, 0, 1, 0, 1] ++ List.replicate 9 0 ++ [64, 0, 0, 0, 64, 0, 0, 0, 96, 0, 0, 0, 128, 0, 0, 0, 128] ++ List.replicate 23 0 ++ [194, 29, 250, 238, 33, 1, 2, 0, 0, 0, 0, 0, 4, 0, 1, 0, 1, 0, 1, 0, 1] ++ List.replicate 15 0 ++ [13, 0, 255, 255, 0, 0, 255, 255, 255, 255, 1, 3] ++ List.replicate 20 0

/-- A shaper profile of a 16 by 16 frame in one patch row. -/
abbrev testProfile : List Byte :=
  [1] ++ List.replicate 9 0 ++ [50] ++ List.replicate 9 0 ++ [16, 0, 16, 0, 16, 16] ++ List.replicate 38 0

/-! Witnesses of IleshMovesAndMarks. The bytes here and below are written out from R233, R235 and R237: prefixes, opcode,
then d in [7:4] and s in [3:0] of the first operand byte, immediates least significant byte first. -/

theorem witness_IleshMovesAndMarks : AllReady reset36 il [([1], .nop), ([3], .fence), ([0xF0, 0x35], .isync),
      ([8, 0x12], fun x => .mov x 1 2), ([9, 0x10, 1, 0, 0, 0x80], fun x => .movi x 1 0x80000001),
      ([0x0A, 0x10, 1, 0, 0, 0, 0, 0, 0, 0x80], fun x => .movi64 x 1 0x8000000000000001), ([4, 5], fun x => .trap x 5)] ∧
    IlReady (il [0xF2, 8, 0x12] 1) (.mov (il [0xF2, 8, 0x12] 1) 1 2) reset36 ∧ IlFetched (il [0]) reset36 ∧ ilDecode (il [0]) = none ∧
    ilDecode (il [0xF2, 0xF3, 8, 0x12]) = none ∧ ilDecode (il [0xF5, 8, 0x12]) = none ∧ ilDecode (il [9, 0x11, 1, 0, 0, 0]) = none := by
  unfold AllReady IlReady IlFetched; decide

/-! Witnesses of IleshAddAndSubtract. -/

theorem witness_IleshAddAndSubtract : AllReady reset36 il [([0x10, 0x12], fun x => .add x 1 2), ([0x11, 0x12], fun x => .adc x 1 2),
      ([0x12, 0x12], fun x => .sub x 1 2), ([0x13, 0x12], fun x => .sbb x 1 2), ([0x17, 0x12], fun x => .cmp x 1 2),
      ([0x19, 0x10, 7, 0, 0, 0], fun x => .addi x 1 7), ([0x1A, 0x10, 7, 0, 0, 0], fun x => .cmpi x 1 7)] ∧
    (let x : Ilx := ⟨36, 2, true, false, false, [0xF5, 0xF3, 0x10, 0x12], 1, 0, false⟩
     IlReady x (.add x 1 2) reset36) := by
  unfold AllReady IlReady IlFetched; decide

/-! Witnesses of IleshLogic. -/

theorem witness_IleshLogic : AllReady reset36 il [([0x14, 0x12], fun x => .and x 1 2), ([0x15, 0x12], fun x => .or x 1 2),
    ([0x16, 0x12], fun x => .xor x 1 2), ([0x18, 0x12], fun x => .tst x 1 2), ([0x1B, 0x10, 7, 0, 0, 0], fun x => .andi x 1 7)] := by
  unfold AllReady IlReady IlFetched; decide

/-! Witnesses of IleshShifts. -/

theorem witness_IleshShifts : AllReady reset36 il [([0x20, 0x12], fun x => .shl x 1 2), ([0x21, 0x12], fun x => .shr x 1 2),
      ([0x22, 0x12], fun x => .sar x 1 2), ([0x23, 0x12], fun x => .rol x 1 2), ([0x24, 0x10, 63], fun x => .shli x 1 63),
      ([0x25, 0x10, 63], fun x => .shri x 1 63), ([0x26, 0x10, 63], fun x => .sari x 1 63), ([0x27, 0x10, 63], fun x => .roli x 1 63),
      ([0x24, 0x10, 64], fun x => .shli x 1 64)] ∧ 63 < widthBits 0 ∧ widthBits 0 ≤ 64 := by
  unfold AllReady IlReady IlFetched; decide

/-! Witnesses of IleshProductsAndQuotients. -/

/-- Registers 1 and 2 of core 36 hold two values. -/
abbrev regs36 (a b : Nat) : State := putCore 36 (setG (setG (getCore State.reset 36) 1 a) 2 b) State.reset

/-- MUL, MULHU and the four divisions of register 1 by register 2. -/
abbrev quotients : List (List Byte × (Ilx → Instr)) := [([0x28, 0x12], fun x => .mul x 1 2), ([0x29, 0x12], fun x => .mulhu x 1 2),
  ([0x2A, 0x12], fun x => .divu x 1 2), ([0x2B, 0x12], fun x => .remu x 1 2), ([0x2C, 0x12], fun x => .divs x 1 2),
  ([0x2D, 0x12], fun x => .rems x 1 2)]

theorem witness_IleshProductsAndQuotients : AllReady reset36 il quotients ∧ gReg (getCore reset36 36) 2 % 2 ^ 64 = 0 ∧
    AllReady (regs36 7 2) il quotients ∧ gReg (getCore (regs36 7 2) 36) 2 % 2 ^ 64 ≠ 0 ∧
    AllReady (regs36 (2 ^ 63) (2 ^ 64 - 1)) il quotients ∧ gReg (getCore (regs36 (2 ^ 63) (2 ^ 64 - 1)) 36) 1 = 2 ^ 63 := by
  unfold AllReady IlReady IlFetched; decide

/-! Witnesses of IleshDecimal. -/

/-- The page-1 decimal instructions of registers 1 and 2. -/
abbrev decimals : List (List Byte × (Ilx → Instr)) := [([0xF0, 4, 0x12], fun x => .bcdadd x 1 2), ([0xF0, 5, 0x12], fun x => .bcdadc x 1 2),
  ([0xF0, 6, 0x12], fun x => .bcdsub x 1 2), ([0xF0, 7, 0x12], fun x => .bcdsbb x 1 2), ([0xF0, 8, 0x12], fun x => .bcdcmp x 1 2),
  ([0xF0, 9, 2], fun x => .bcdchk x 2), ([0xF0, 0x0C, 0x12], fun x => .b2bcd x 1 2), ([0xF0, 0x0D, 0x12], fun x => .bcd2b x 1 2),
  ([0xF0, 1, 0x10], fun x => .daa x 1), ([0xF0, 2, 0x10], fun x => .das x 1)]

theorem witness_IleshDecimal : AllReady (regs36 0x0999 0xA) il decimals ∧ bcdOk 16 0xA = false ∧
    AllReady (regs36 0x0999 1) il decimals ∧ bcdOk 16 0x0999 = true ∧ AllReady (regs36 0x9A 1) il decimals ∧
    10 ^ 16 ≤ gReg (getCore (regs36 0 (10 ^ 16)) 36) 2 ∧ gReg (getCore (regs36 0 (10 ^ 16 - 1)) 36) 2 < 10 ^ 16 := by
  unfold AllReady IlReady IlFetched; decide

/-! Witnesses of TimecodeLabelsAndIndexes. -/

theorem witness_TimecodeLabelsAndIndexes : tcValid 3 0x01234502 = true ∧ tcValid 3 0x01230001 = false ∧ tcDay 7 = 5178816 := by decide

/-! Witnesses of IleshTimecode. -/

theorem witness_IleshTimecode : AllReady (regs36 0x23595923 1) il [([0xF0, 0x10, 0x12, 3], fun x => .tcadd x 1 2 3),
      ([0xF0, 0x11, 0x12, 0], fun x => .tcsub x 1 2 0), ([0xF0, 0x12, 0x12, 3], fun x => .tc2f x 1 2 3),
      ([0xF0, 0x13, 0x12, 3], fun x => .f2tc x 1 2 3), ([0xF0, 0x14, 2, 3], fun x => .tcchk x 2 3),
      ([0xF0, 0x10, 0x12, 8], fun x => .tcadd x 1 2 8)] ∧ tcValid 0 0x23595923 = true ∧
    tcValid 3 0x23595923 = true ∧ tcValid 0 0x00000024 = false := by
  unfold AllReady IlReady IlFetched; decide

/-! Witnesses of IleshBranchesAndCalls. -/

/-- Core 36 with a return stack. -/
abbrev stack36 (l : List RetEntry) (cctl : Nat) : State := putCore 36 { getCore State.reset 36 with stack := l, cctl := cctl } State.reset

/-- Branches with a displacement of 1 back, jumps and calls to register 2, and RET. -/
abbrev branches : List (List Byte × (Ilx → Instr)) := [([0x40, 0xFF], fun x => .br x (-1)), ([0x41, 0xFF, 0xFF, 0xFF, 0xFF], fun x => .br x (-1)),
  ([0x42, 0x0F, 0xFF], fun x => .bc x 15 (-1)), ([0x44, 2], fun x => .jmp x 2), ([0x48, 4, 0, 0, 0], fun x => .call x 4),
  ([0x49, 2], fun x => .callr x 2), ([0x4A], fun x => .ret x)]

theorem witness_IleshBranchesAndCalls : AllReady reset36 il branches ∧ (getCore reset36 36).stack = [] ∧
    AllReady (stack36 (List.replicate 16 ⟨0, 0, false, 0⟩) 3) il branches ∧ bitOf 3 0 = true ∧
    AllReady (stack36 (List.replicate 16 ⟨0, 0, false, 0⟩) 2) il branches ∧ bitOf 2 0 = false ∧
    AllReady (stack36 [⟨8, 0, true, 0⟩] 3) il branches ∧ AllReady (stack36 [⟨8, 0, false, 0⟩] 3) il branches := by
  unfold AllReady IlReady IlFetched; decide

/-! Witnesses of IleshMemoryAccesses. -/

/-- Core 36 with an address in register 1, in its own SRAM. -/
theorem witness_IleshMemoryAccesses :
    AllReady (regs36 0x10000010 2) il [([0x30, 0x31, 0], fun x => .ld x 3 1 0), ([0x31, 0x31, 0xF0, 0xFF, 0xFF, 0xFF], fun x => .ld x 3 1 (-16)),
      ([0x34, 0x31, 0], fun x => .lds x 3 1 0), ([0x32, 0x21, 0], fun x => .st x 2 1 0), ([0x38, 0x21], fun x => .xchg x 2 1),
      ([0x39, 0x31, 0x20], fun x => .cas x 3 1 2), ([0x3A, 0x21], fun x => .amoadd x 2 1)] ∧
    accessCheck (regs36 0x10000010 2) 36 (getCore (regs36 0x10000010 2) 36) ⟨true, false, false⟩ false 0x10000010 8 = none ∧
    accessCheck (regs36 0x10000010 2) 36 (getCore (regs36 0x10000010 2) 36) ⟨true, true, false⟩ true 0x10000010 8 = none ∧
    accessCheck (regs36 0x10000010 2) 36 (getCore (regs36 0x10000010 2) 36) ⟨false, true, false⟩ false 0x10000010 8 = none ∧
    place (regs36 0x10000010 2) 36 0x10000010 = .normal (mssKey 16) ∧ poisonAt (regs36 0x10000010 2) 36 0x10000010 8 = none ∧
    accessCheck (regs36 0x10000012 2) 36 (getCore (regs36 0x10000012 2) 36) ⟨true, true, false⟩ true 0x10000012 8 = some (0x0A, 0) := by
  unfold AllReady IlReady IlFetched; decide

/-! Witnesses of IleshGatesAndSignatures. -/

/-- Core 36 with one gate open to compartment 0: VALID, target compartment 1, seed 7, at address 0x40. -/
abbrev gated36 : State :=
  let s := putCore 36 { getCore State.reset 36 with cctl := 4, gtn := 1, gtb := 0x10000000, rtb := 0x10001000, regions :=
    [⟨romBase / 4096, romBase / 4096, true, false, true, false⟩] } State.reset
  { s with mem := memWrite s.mem (mssKey 0) ([0x40, 0, 0, 0, 0, 0, 0, 0, 1, 1, 7, 0, 1, 0, 0, 0]) }

/-- Gates and signatures: the second half of the number lies in the second byte. -/
abbrev gates : List (List Byte × (Ilx → Instr)) := [([0xF0, 0x28, 0], fun x => .gcall x 0), ([0xF0, 0x29, 5, 1], fun x => .gret x 0x105),
  ([0xF0, 0x2A, 5, 0], fun x => .sigu x 5), ([0xF0, 0x2B, 5, 0], fun x => .sigck x 5), ([0xF0, 0x2B, 0, 0], fun x => .sigck x 0)]

theorem witness_IleshGatesAndSignatures : AllReady reset36 il gates ∧ bitOf (getCore reset36 36).cctl 1 = true ∧
    (getCore reset36 36).sig ≠ 5 ∧ (getCore reset36 36).sig = 0 ∧ (getCore reset36 36).stack = [] ∧
    AllReady gated36 il gates ∧ leAt (coreBytes gated36 36 0x10000000 16) 8 1 = 1 ∧
    bitOf (leAt (coreBytes gated36 36 0x10000000 16) 0xC 4) 0 = true ∧
    AllReady (stack36 [⟨8, 0, true, 0⟩] 3) il gates ∧ AllReady (stack36 [⟨8, 0, false, 0⟩] 3) il gates := by
  unfold AllReady IlReady IlFetched; decide

/-! Witnesses of IleshSpillAndFill. -/

abbrev spills : List (List Byte × (Ilx → Instr)) := [([0xF0, 0x30, 1], fun x => .rsspill x 1), ([0xF0, 0x31, 16], fun x => .rsfill x 16),
  ([0xF0, 0x31, 0], fun x => .rsfill x 0)]

theorem witness_IleshSpillAndFill : AllReady (stack36 [⟨8, 0, false, 0⟩] 3) il spills ∧
    AllReady (putCore 36 { getCore State.reset 36 with cmp := 1 } State.reset) il spills ∧
    spillOk (putCore 36 { getCore State.reset 36 with rsp := 0x10000010, rsbase := 0x10000020, stack := [⟨8, 0, false, 0⟩] } State.reset) 36
      { getCore State.reset 36 with rsp := 0x10000010, rsbase := 0x10000020, stack := [⟨8, 0, false, 0⟩] } 0x10000000 = true ∧
    poisonAt State.reset 36 0x10000010 16 = none := by
  unfold AllReady IlReady IlFetched; decide

/-! Witnesses of ExceptionEntrySavesAndVectors. -/

theorem witness_ExceptionEntrySavesAndVectors : 36 < State.reset.cores.length ∧ bitOf (getCore State.reset 36).flags fEXL = false ∧
    (getCore State.reset 36).evb = none ∧
    (getCore (putCore 36 { getCore State.reset 36 with evb := some 0x10000000 } State.reset) 36).evb = some 0x10000000 ∧
    bitOf 512 fEXL = true := by decide

/-! Witnesses of IleshSpecialRegisters. -/

abbrev specials : List (List Byte × (Ilx → Instr)) := [([0xF0, 0x20, 0x30, 0], fun x => .mfs x 3 0), ([0xF0, 0x20, 0x30, 0x18], fun x => .mfs x 3 0x18),
  ([0xF0, 0x21, 0x20, 1], fun x => .mts x 1 2), ([0xF0, 0x21, 0x20, 0x13], fun x => .mts x 0x13 2)]

/-- An instruction on stream core 0. -/
abbrev il0 (b : List Byte) : Ilx := ⟨0, 0, false, false, false, b, 1, 0, false⟩

/-- Core 0 runs at its ROM and its tile is in service. -/
abbrev stream0 : State := putCore 0 (Core.reset .running) (setBlkState State.reset (pTILE 0) 1)

theorem witness_IleshSpecialRegisters : AllReady reset36 il specials ∧ (getCore reset36 36).cmp = 0 ∧
    AllReady (putCore 36 { getCore State.reset 36 with cmp := 1 } State.reset) il specials ∧
    AllReady stream0 il0 [([0xF0, 0x20, 0x30, 0x17], fun x => .mfs x 3 0x17)] := by
  unfold AllReady IlReady IlFetched; decide

/-! Witnesses of IleshReturnSleepAndWatchdog. -/

abbrev returns : List (List Byte × (Ilx → Instr)) := [([0xF0, 0x32], .eret), ([0xF0, 0x33], .wfi), ([0xF0, 0x34], .rtsync), ([0xF0, 0x36], .wdkick)]

theorem witness_IleshReturnSleepAndWatchdog : AllReady reset36 il returns ∧ (getCore reset36 36).cmp = 0 ∧
    AllReady (putCore 36 { getCore State.reset 36 with cmp := 1 } State.reset) il returns ∧
    coreHeld State.reset 36 = false ∧ bitOf 256 fIE = true ∧ bitOf 256 fEXL = false ∧
    ipendOf (putCore 36 { getCore State.reset 36 with ipend := 1, imask := 1, flags := 256 } State.reset) 36 &&& 1 = 1 := by
  unfold AllReady IlReady IlFetched; decide

/-! Witnesses of IleshStreamExtensions. -/

theorem witness_IleshStreamExtensions : AllReady stream0 il0 [([0xF1, 1, 0x12], fun x => .dpush x 1 2), ([0xF1, 1, 0x02], fun x => .dpush x 0 2),
      ([0xF1, 2, 0x13], fun x => .bread x 1 3), ([0xF1, 2, 0x14], fun x => .bread x 1 4), ([0xF1, 3, 0x20], fun x => .rpop x 2),
      ([0xF1, 3, 0x10], fun x => .rpop x 1), ([0xF1, 4, 0x10, 7], fun x => .wait x 1 7)] ∧ ilDecode (il [0xF1, 3, 0x20]) = none ∧
    gReg (getCore stream0 0) 2 % 64 = 0 ∧ regionRefuses (getCore stream0 0) ⟨true, false, false⟩ 0 64 = none ∧
    sliceTouch 0 0 64 stream0 = stream0 ∧
    poisonIn stream0 0 0 64 = none ∧ outstanding stream0 0 1 < 64 ∧ ¬ remaining stream0 0 1 < 0 ∧ ringOf stream0 0 = [] := by
  unfold AllReady IlReady IlFetched; decide +kernel

/-! Witnesses of ThermalStepsAndInputSamples. -/

theorem witness_ThermalStepsAndInputSamples :
    thermAfter State.reset 5 = 0 ∧ thermStep (setFld State.reset pPWR R.PWR.THERM_STAT 8 2 1) = 1 ∧
    thermAfter { setFld State.reset pPWR R.PWR.THERM_STAT 8 2 1 with power := { State.reset.power with cool1 := some 0 } } 100000000 = 0 ∧
    sagStep (setFld State.reset pPWR R.PWR.IN_STAT 16 2 1) = 1 ∧ State.reset.power.inputOpen = false ∧
    State.reset.power.thermTrip = false := by decide

/-! Witnesses of PowerUpAndResets. -/

theorem witness_PowerUpAndResets :
    let off : State := { setFld State.reset pPWR R.PWR.IN_STAT 0 16 5800 with power := { State.reset.power with phase := .off } }
    let failed : State := { off with power := { off.power with railFailAt := some 5 } }
    let cold : State := { off with power := { off.power with alwaysOn := false, absentSince := some 0 } }
    let good : State := { off with power := { off.power with phase := .ramping } }
    let untrip := setAlert 6 false (emit (.pin "THERM_TRIP_N" true) off)
    let high : State := { off with power := { off.power with in6080Since := some 0, in6280Since := some 0, downCause := 2 } }
    off.power.phase = .off ∧ off.power.alwaysOn = true ∧ off.power.mssUpAt ≤ 0 ∧ off.power.tripLatched = false ∧ off.power.downCause = 0 ∧
    5800 ≤ fld off pPWR R.PWR.IN_STAT 0 16 ∧ off.power.inputOpen = false ∧ bootAllows off = true ∧ off.power.railFailAt = none ∧
    failed.power.railFailAt = some 5 ∧ bootAllows failed = true ∧ failed.power.railRetried = false ∧ bootAllows untrip = true ∧
    fld off pPWR R.PWR.THERM_STAT 0 8 < 90 ∧ high.power.in6280Since = some 0 ∧ high.power.in6080Since = some 0 ∧
    high.power.downCause ≠ 0 ∧ bootAllows high = true ∧ 0 + 1000000000 ≤ 1000000005 ∧ good.power.phase = .ramping ∧
    off.flash.begun = [] ∧ State.reset.power.quiesce = none ∧ State.reset.power.tripLatched = false ∧
    State.reset.power.phase = .running ∧ (breakSplice (atTime 1 State.reset)).flash.begun = [] ∧
    (breakSplice (atTime 1 State.reset)).power.quiesce = none ∧ State.reset.mgmt.hold = false ∧ cold.power.alwaysOn = false ∧
    cold.power.absentSince = some 0 := by decide

/-! Witnesses of PowerCapDroopAndConfiguration. -/

theorem witness_PowerCapDroopAndConfiguration : excReached { State.reset with power := { State.reset.power with samples := [7201] } } = true ∧
    (firmwareRestart 5 (atTime 5 State.reset)).power.phase = .running ∧
    (firmwareRestart 5 (atTime 5 { State.reset with power := { State.reset.power with phase := .off } })).power.phase ≠ .running ∧
    droopThr State.reset 0 * 5 < 10000 ∧ mget [(3, 0)] 3 = some 0 ∧ 64 ≤ (60000 - 0) * Config.tileMhz / 2000 ∧
    State.reset.power.fwReady.getD 0 false = false ∧ 5 < max State.reset.power.releaseAt (State.reset.power.perstAt.getD 0 0) + 1000000000 ∧
    ({ State.reset with power := { State.reset.power with fwReady := [true, true] } } : State).power.fwReady.getD 0 false = true ∧
    hostLink State.reset 0 = 0 ∧ hostLink State.reset 0 ≠ 1 := by decide

/-! Witnesses of TickEdgeRunsTheOrderedSteps. -/

theorem witness_TickEdgeRunsTheOrderedSteps : State.reset.tick.edgeAt + State.reset.tick.len ≤ 250000 ∧
    State.reset.tick.started = true ∧ State.reset.power.phase = .running ∧
    (edgeEvents (firmwareRestart 250000 (atTime 250000 State.reset))).tick.pendSwitch = none ∧ 5 < State.reset.tick.edgeAt + State.reset.tick.len := by decide

/-! Witnesses of TickSourcesAndHoldover. -/

theorem witness_TickSourcesAndHoldover :
    let on := setQualified 1 true State.reset
    sourceQualified on 1 = true ∧ sourceQualified State.reset 1 = false ∧
    2000 < distance 240000 (predicted on 1 240000) ∧ distance 250000 (predicted on 1 250000) ≤ 2000 ∧
    State.reset.tick.good.getD 1 0 + 1 < 8 ∧ 8 ≤ ({ State.reset with tick := { State.reset.tick with good := [0, 7, 0, 0] } } : State).tick.good.getD 1 0 + 1 ∧
    bitOf (reg (setRegN State.reset pTICK R.TICK.PTP_CFG 16) pTICK R.TICK.PTP_CFG) 4 = true ∧
    sourceLost on 10000000000 1 = true ∧ activeSource on ≠ 1 ∧
    activeSource (setFld on pTICK R.TICK.SRC_STAT 0 4 1) = 1 ∧ sees State.reset .mss pTICK = true ∧
    inHoldover (setFld State.reset pTICK R.TICK.SRC_STAT 8 1 1) = true := by decide

/-! Witnesses of HalyardAndSnapshots. -/

theorem witness_HalyardAndSnapshots :
    bitOf (reg State.reset pTICK R.TICK.HALYARD_CTL) 0 = false ∧
    bitOf (reg (setRegN State.reset pTICK R.TICK.HALYARD_CTL 0x11) pTICK R.TICK.HALYARD_CTL) 4 = true ∧
    bitOf (reg (setRegN State.reset pTICK R.TICK.HALYARD_CTL 0x13) pTICK R.TICK.HALYARD_CTL) 1 = true ∧
    (atTime 100 State.reset).tick.halLast = none ∧ 100 + 20 ≤ State.reset.tick.edgeAt + State.reset.tick.len ∧
    pagePresent State.reset (pTILE 0) = true := by decide

/-! Witnesses of RegisterFieldsTakeWritesByAccess. -/

theorem witness_RegisterFieldsTakeWritesByAccess : mwf State.reset.regs = true ∧ mwf State.reset.shadow = true ∧
    (∃ f ∈ fieldsAt .tile R.PENNANT, viewType .mss (pTILE 0) R.PENNANT f = .w1c) ∧
    (∃ f ∈ fieldsAt .pwr R.PWR.CAP_HOST, viewType (.func 0) pPWR R.PWR.CAP_HOST f = .rws) ∧
    tabSlot State.reset pPWR R.PWR.CAP_HOST = none := by decide

/-! Witnesses of RegisterCommands. -/

theorem witness_RegisterCommands : pageOf (pageAt pPWR R.PWR.CAP_HOST) = some pPWR ∧ sees State.reset (.func 0) pPWR = true ∧
    ownWrite pPWR R.PWR.CAP_HOST = false ∧ R.PWR.CAP_HOST % 4 = 0 ∧ sees State.reset .mss (pTILE 3) = true ∧ pagePresent State.reset (pTILE 3) = true ∧
    mget State.reset.commits (pageAt (pTILE 3) 0) = none ∧ anyPair State.reset 0 = false ∧ anyPair State.reset 5 = false ∧
    badAccess State.reset 2 4 = true ∧ badAccess State.reset 4 8 = true ∧ sees State.reset (.func 5) (pTILE 3) = false ∧
    alignedAccess 0x4002 4 = false ∧ barAssigned State.reset 5 0x4002 = true ∧ barAssigned State.reset 5 0x3000 = false ∧ ownWrite pPWR R.BLK_CTL = false := by decide

/-! Witnesses of BlockStatesFollowTheControlBits. -/

theorem witness_BlockStatesFollowTheControlBits : sees State.reset (.func 0) (pTILE 0) = true ∧ sees State.reset .mss pTICK = true ∧
    176 < partOthers (setRegN State.reset (pSRAMT 0) R.SRAMT.PART0 0xFFFFFF) 0 ∧ ¬ 176 < partOthers State.reset 0 ∧
    alwaysEnabled .tick = true ∧ alwaysEnabled .dec = false ∧ fenceOk State.reset (pTILE 0) = true ∧
    enabledState (pDEC 0) (blkState State.reset (pDEC 0)) = false ∧ enabledState (pDEC 0) (blkState (setBlkState State.reset (pDEC 0) 1) (pDEC 0)) = true ∧
    enabledState pPAIR 0x83 = true ∧
    blkState State.reset (pTILE 0) = 0 ∧ blkState (setBlkState State.reset (pDEC 0) 2) (pDEC 0) = 2 ∧
    workInHand (setBlkState State.reset (pDEC 0) 2) (pDEC 0) = false ∧ fenceOk (setBlkState State.reset (pLINK 0) 3) (pLINK 0) = true ∧
    (State.reset.intg.runs.any fun r => r.tile == 0) = false ∧ needsTest State.reset 0 = false ∧
    needsTest (setBlkState (needTest 0 1 State.reset) (pTILE 0) 3) 0 = true ∧ sresetOk State.reset (pDEC 0) = true ∧
    blkState (setBlkState State.reset (pDEC 0) 4) (pDEC 0) = 4 := by decide

/-! Witnesses of ServiceQueuesAndControlCommands. -/

theorem witness_ServiceQueuesAndControlCommands :
    let s := setPair State.reset 0 0 (newPair 0 0 0x00030003)
    let s1 := setRegN (inState (pFUNC 0) 1 s) pGLB R.GLB.ABI_AGREED 0x80000100
    let f := setPair s1 0 0 { newPair 0 0 0x00030003 with sqTail := 1 }
    let c := cmdOf 1 1 1 [0, 0, 0, 0, 0x00030003]
    let d : SvcCmd := { c with seq := 0 }
    getPair s 0 0 = some (newPair 0 0 0x00030003) ∧ (newPair 0 0 0x00030003).sqDepth = 4 ∧
    (newPair 0 0 0x00030003).cqDepth = 4 ∧ getPair s 0 1 = none ∧ (newPair 0 0 0x00030003).state = 1 ∧
    cqUsed f 0 0 { newPair 0 0 0x00030003 with sqTail := 1 } + 1 < 4 ∧ fetchAllowed f 0 = true ∧
    bitOf (agreement f 0) 31 = true ∧ bitsOf (agreement f 0) 8 8 = bitsOf (c.d 0) 12 4 ∧ fieldOffence f d = none ∧
    lateCmd f d = false ∧ 1 < fld f (pFUNC 0) R.FUNC.RES_SVC 0 7 ∧ pairState f 0 1 = 0 ∧
    pairState (deletePair 0 0 s) 0 0 = 2 ∧ objFenced (cmdOf 3 2 0 []) f = false ∧
    objFenced (cmdOf 3 2 0 []) (inState (pTILE 0) 3 f) = true := by decide

theorem witness_ServiceQueues_ready : SvcReady cmd7 0 (cmdOf 0 0 0 []) (handed (cmdOf 0 0 0 []) State.reset) ∧
    SvcReady cmd7 1 (cmdOf 1 1 1 []) (handed (cmdOf 1 1 1 []) State.reset) ∧
    SvcReady cmd7 2 (cmdOf 2 1 1 []) (handed (cmdOf 2 1 1 []) State.reset) ∧
    SvcReady cmd7 3 (cmdOf 3 1 1 []) (handed (cmdOf 3 1 1 []) State.reset) :=
  ⟨ready_handed _ _ _ _ _ rfl rfl, ready_handed _ _ _ _ _ rfl rfl, ready_handed _ _ _ _ _ rfl rfl, ready_handed _ _ _ _ _ rfl rfl⟩

/-! Witnesses of StreamSetCommands. -/

/-- A context of set 3 on a tile, and a set of one context on tiles 0 and 1. -/
abbrev testCtx (num : Nat) : Ctx := { newCtx 3 with num := some num, shard := some 0 }

abbrev testDesc : List Byte := [1, 0, 2, 0, 0x84, 3, 0, 0, 0, 0, 0, 0, 1, 0, 1, 0, 1, 0, 0, 0, 0, 0x10, 0, 0, 3, 0, 0, 0, 1, 0, 1, 0] ++
  List.replicate 12 0 ++ [1, 0] ++ List.replicate 18 0

abbrev testEntry : List Byte := [3] ++ List.replicate 15 0 ++ [188] ++ List.replicate 15 0

theorem witness_StreamSetCommands :
    let x := setOfDesc testDesc
    let run := inState (pTILE 1) 1 (inState (pTILE 0) 1 State.reset)
    let on := putSet 3 x (putCtx 0 (testCtx 2) run)
    descOffence testDesc = none ∧ halfWrong State.reset 3 = false ∧ bitOf x.outputs 0 = false ∧ bitOf x.outputs 2 = false ∧
    profileLoaded (setRegN State.reset (pSHP 0) R.SHP.PROFILE_MAP 1) x.prof = true ∧
    graphMismatch State.reset x = false ∧ x.state = 1 ∧ listOffence State.reset [testEntry] = none ∧
    planSlots run [(1, none)] [] = some [(0, 0)] ∧ planSlots State.reset [(1, none)] [] = none ∧
    ctxAt on 2 = some (0, testCtx 2) ∧ (testCtx 2).state ≠ 3 ∧ blkState on (pTILE 1) = 1 ∧ tileOfNum 2 = 0 ∧
    lowestFree (takenOn on 1) = some 0 ∧ objFenced (cmdOf 0x18 2 0 []) on = false ∧ planSlots on [(x.mask, some 0)] [] = some [(1, 0)] ∧
    blkState (inState (pTILE 0) 0x81 State.reset) (pTILE 0) = 0x81 := by decide +kernel

theorem witness_StreamSetCommands_ready : SvcReady cmd7 0x10 (cmdOf 0x10 3 3 []) (handed (cmdOf 0x10 3 3 []) State.reset) ∧
    SvcReady cmd7 0x1A (cmdOf 0x1A 0 0 [640, 5, 256]) (handed (cmdOf 0x1A 0 0 [640, 5, 256]) State.reset) :=
  ⟨ready_handed _ _ _ _ _ rfl rfl, ready_handed _ _ _ _ _ rfl rfl⟩

/-! Witnesses of SamplesAndPacks. -/

/-- A shown intra picture of 16 by 16 without references, one unit of 8 bits, and one of no coded units at all. -/
abbrev testHdr (id : Nat) : PicHdr := {
  id := id, codec := 1, kind := 0, field := 0, second := false, shown := true, pts := 0, dts := 0, period := 3600, pid := 0, pos := 0
  refs := ⟨[], [], false, false, 0, [], 0, none, .none, none, false, false, false, 0, false⟩
  code := { addr := 0, bits := [8], unit := 256, slices := [0], cavlc := false }
  disp := { width := 16, height := 16, profileLevel := 0, window := ⟨0, 0, 16, 16⟩, progressive := true, interlaced := false
            tff := false, sarN := 1, sarD := 1, afd := none, srcFmt := 0, matrix := 1, range := 1 } }

abbrev testPic (id : Nat) : Pic := {
  hdr := testHdr id, time := 0, dtime := 0, era := 0, refs := [], colloc := none, broken := false, brokenParse := false
  damaged := false, shows := none, labels := [], tick := 0 }

/-- Pool slot 0 with picture 7, whole. -/
abbrev testSlot : PoolSlot := { freshSlot 0 0 (testPic 7) false with
  done := true, units := 1, issued := 1, planes := [List.replicate 16 (List.replicate 16 80), List.replicate 8 (List.replicate 8 128),
    List.replicate 8 (List.replicate 8 128)] }

/-- A set of visual records, its profile, and the first sample of a context of it. -/
abbrev testSet : StreamSet := { setOfDesc testDesc with state := 2, outputs := 1, shards := [⟨3, 0, 0, 188⟩], next := 1 }

abbrev testSample : Sample := ⟨packIdOf (testCtx 0), 4096, 0, 0, 0, 900, [⟨0, 64, []⟩], 0, 0, 0⟩

abbrev testSel : Sel := { container := 1, video := 5, codec := 1, audio := none, text := none, pcr := none, audios := 0, start := 0 }

/-- Tile 0 at work in tick 5 on a context of the set, with an ingest state. -/
abbrev working (c : Ctx) (x : StreamSet) (m : Media) : State :=
  let s := putMedia 0 m (putCtx 0 c (putSet 3 x (inState (pTEN 0) 1 (inState (pSHP 0) 1 (inState (pDEC 0) 1 (inState (pTILE 0) 1
    (inState (pSRAMT 0) 1 State.reset)))))))
  let s := showProfile 0 true { s with media := { s.media with profiles := [(0, testProfile)] } }
  { s with tick := { s.tick with count := 5 } }

/-- The context with its sample, and one in which picture 7 is the next target. -/
abbrev sampling : Ctx := { testCtx 0 with cur := some testSample, cached := 188 }

abbrev planned : Media := { Media.empty with
  sel := some testSel, synced := true, pics := [testPic 7], targets := [⟨0, [7], false, false, false, false⟩], plan := ⟨[7], [], []⟩ }

theorem witness_SamplesAndPacks :
    let s := working (testCtx 0) testSet { Media.empty with sel := some testSel }
    let sealable := working sampling { testSet with outputs := 2 } { planned with targets := [⟨0, [7], true, false, true, false⟩] }
    let x := { testSet with outputs := 4, policy := 4 }
    let gap : Media := { planned with sel := some { testSel with audio := some 6 }, demuxed := true }
    ctxAt s 0 = some (0, testCtx 0) ∧ getCtx s 0 = some (testCtx 0) ∧ getSet s 3 = some testSet ∧ shardDone (testCtx 0) = false ∧
    takesSamples s testSet = true ∧ blkState s (pTILE 0) = 1 ∧ quiescing s = false ∧ setNoFit s 0 testSet = false ∧
    (getMedia s 0).sel.isSome = true ∧ (testCtx 0).refused ≠ s.tick.count + 1 ∧ s.pair.remake = [] ∧
    resvUsed s + testSet.packMax ≤ s.foundry.capGiB * 2 ^ 30 ∧
    (setFoundry s fun f => { f with capGiB := 0 }).foundry.capGiB * 2 ^ 30 < resvUsed s + testSet.packMax ∧
    sampleDone sealable 0 0 { testSet with outputs := 2 } testSample = true ∧ packLen testSample.records ≤ 4096 ∧
    sealable.pair.remake = [] ∧ 4096 < packLen [⟨0, 5000, []⟩] ∧ sampling.failed = false ∧ sampling.ended = false ∧
    audioGaps gap x testSample = true ∧ bitOf x.policy 2 = true := by decide +kernel

theorem witness_SamplesAndPacks_items :
    let s := working sampling testSet planned
    let band := working sampling testSet { planned with pool := [testSlot] }
    let fed (p : Pick) : Bool := match p with | .item est _ _ _ _ => decide ((est : Int) ≤ 495000) | _ => false
    let left : State := { band with tick := { band.tick with period := 0 } }
    mayIssue s 0 1 = true ∧ fed (pickKind s .pic 0 0 9 testSet testSample) = true ∧ outstanding s 0 1 < 64 ∧
    (takeTurn 0 1 0 200 sampling s).isSome = true ∧ remaining s 0 1 = 495000 ∧ mayIssue band 0 2 = true ∧
    fed (pickKind band .band 0 0 9 testSet testSample) = true ∧ (takeTurn 0 2 0 200 sampling band).isSome = true ∧
    (match pickBand left 0 0 9 testSet testSample with | .never _ => true | _ => false) = true := by decide +kernel

/-- Bytes 0 to 3 of the cache of context 0: sync byte, flags and PID 5, counter. -/
abbrev cached4 (a f c : Byte) (m : Media) : State :=
  let b := Config.cacheBase 0 % 2 ^ 39
  { working sampling testSet m with mem := [(b, a), (b + 1, f), (b + 2, 5), (b + 3, c)] }

theorem mgetD_four (b i : Nat) (a f c : Byte) :
    mgetD [(b, a), (b + 1, f), (b + 2, 5), (b + 3, c)] (b + i) 0 = [a, f, 5, c].getD i 0 := by
  match i with
  | 0 => simp [mgetD, mget]
  | 1 => simp [mgetD, mget]
  | 2 => simp [mgetD, mget]
  | 3 => simp [mgetD, mget]
  | n + 4 => simp [mgetD, mget]

theorem cacheByte_cached4 (a f c : Byte) (m : Media) (i : Nat) (h : i < 188) :
    cacheByte (cached4 a f c m) testSet 0 (0 + i) = [a, f, 5, c].getD i 0 := by
  have : (0 + i) % (testSet.readahead * 2 ^ 20) = i := by
    have e : testSet.readahead = 1 := by decide
    rw [e]; omega
  unfold cacheByte cacheAddr
  rw [this]
  exact mgetD_four _ i a f c

/-- The packet at the head of the cache. -/
theorem packet_cached4 (a f c : Byte) (m : Media) :
    parsePacket ((List.range 188).map fun i => cacheByte (cached4 a f c m) testSet 0 (0 + i)) =
      parsePacket ((List.range 188).map fun i => [a, f, 5, c].getD i 0) := by
  congr 1
  exact List.map_congr_left fun i h => cacheByte_cached4 a f c m i (List.mem_range.mp h)

theorem witness_SamplesAndPacks_packets :
    let m : Media := { planned with cc := [(5, 1, false)] }
    let p (f c : Byte) := parsePacket ((List.range 188).map fun i => [0x47, f, 5, c].getD i 0)
    cacheByte (cached4 0x47 0xA0 0x11 m) testSet 0 0 = 0x47 ∧ cacheByte (cached4 0x46 0x20 0x11 m) testSet 0 0 ≠ 0x47 ∧
    parsePacket ((List.range 188).map fun i => cacheByte (cached4 0x47 0xA0 0x11 m) testSet 0 (0 + i)) = p 0xA0 0x11 ∧
    (p 0xA0 0x11).tei = true ∧ usesPid testSel (p 0xA0 0x11).pid = true ∧
    (p 0x20 0x11).tei = false ∧ mget m.cc (p 0x20 0x11).pid = some ((p 0x20 0x11).cc, false) ∧ (p 0x20 0x11).payload = true ∧
    (p 0x20 0x11).disc = false ∧ (p 0x20 0x12).cc = (1 + 1) % 16 ∧ (p 0x20 0x12).start = false ∧
    (some testSel |>.map (·.pcr)).join ≠ some (p 0x20 0x12).pid := by
  refine ⟨?_, ?_, packet_cached4 _ _ _ _, by decide +kernel⟩
  · exact cacheByte_cached4 _ _ _ _ 0 (by omega)
  · exact fun h => absurd ((cacheByte_cached4 0x46 0x20 0x11 _ 0 (by omega)).symm.trans h) (by decide)

/-! Witnesses of EngineItemsOfATile. -/

/-- A descriptor of context 0 in tick 5: OP, byte 1, flags, and further bytes; estimate 1,000. -/
abbrev item (op b1 flags : Nat) (more : List (Nat × List Byte)) : List Byte :=
  structOf 64 ([(0, leBytes 1 op ++ leBytes 1 b1 ++ leBytes 2 flags), (0xC, leBytes 4 1000)] ++ more)

/-- Engine `e` of tile 0 with a descriptor at its head. -/
abbrev queued (e : Nat) (d : List Byte) (s : State) : State := putEng 0 e { queue := [⟨d, 5⟩], start := 5, late := false, stall := 0 } s

theorem witness_EngineItemsOfATile :
    let s := working sampling testSet planned
    let full := working sampling testSet { planned with pool := [testSlot] }
    let pic (op flags : Nat) := item op 1 flags [(0x20, [1])]
    let shape (len : Nat) := item 1 0 0 [(0x11, [0]), (0x12, [1, 1]), (0x14, [16, 0, 16, 0, 1, 0, 1, 0, 0, 0, 1, 0]), (0x28, leBytes 4 len), (0x2C, [0xFF])]
    let d := shape 768
    let v : Nat := 0
    headDesc (queued 1 (pic 1 4) s) 0 1 = some (pic 1 4) ∧ headDesc (queued 2 d s) 0 2 = some d ∧ stale s 0 d = false ∧
    stale s 0 (item 1 1 0 [(6, [5])]) = true ∧ badDecodeDesc (pic 1 0) = false ∧ badDecodeDesc (item 1 0 0 []) = true ∧
    badDecodeDesc (pic 3 0) = false ∧ descCtx s 0 d = some (0, sampling) ∧ descPic (getMedia s 0) (pic 1 12) = some (testPic 7) ∧
    pictureFresh s (testPic 7) = false ∧ workCycles ⟨500, 0, 0⟩ < 2 * leAt d 0xC 4 ∧ 2 * leAt d 0xC 4 ≤ workCycles ⟨2000, 0, 0⟩ ∧
    (poolEntry s 0 0 0 (testPic 7) false).isSome = true ∧ (poolEntry s 0 0 0 (testPic 7) true).isSome = true ∧
    badShapeDesc s d = false ∧ slotReady full (getMedia full 0) 0 = true ∧ slotHeld (getMedia s 0) 0 = false ∧
    scaleOk testProfile ⟨0, 0, 16, 16⟩ (displayWidth testProfile d v 16).1 (displayWidth testProfile d v 16).2 = true ∧
    scaleOk testProfile ⟨0, 0, 1, 1⟩ 1 1 = false ∧
    frameBytes testProfile ≤ leAt d 0x28 4 ∧ leAt (shape 767) 0x28 4 < frameBytes testProfile ∧
    (nextCrop testProfile d none []).1 = none ∧ s.tick.count + 8 ≤ 13 := by decide +kernel

theorem witness_EngineItemsOfATile_tensor :
    let s := setReady 0 0 true (showGraph 0 true (working sampling testSet planned))
    let s := { s with media := { s.media with graphs := [(0, { image := testGraph, loading := false, base := 0, seq := 0, began := 0 })] } }
    let run := item 1 0 0 [(0x12, [1, 0, 0, 1])]
    let text := item 2 0 0 [(0x30, [3, 0, 1])]
    badTensorDesc s 0 run = false ∧ badTensorDesc s 0 text = false ∧ inputFresh s 0 0 run = false ∧ writtenNow s 0 0 7 = false ∧
    overLimit run ⟨500, 0, 0⟩ = false ∧ overLimit run ⟨2000, 0, 0⟩ = true ∧ headDesc (queued 3 run s) 0 3 = some run ∧
    descCtx s 0 run = some (0, sampling) ∧ descCtx s 0 text = some (0, sampling) := by decide +kernel

/-! Witnesses of ProfilesProbesAndGraphs. -/

theorem witness_ProfilesProbesAndGraphs :
    let probe := cmdOf 0x22 0 0 [5, 0, 0x1000, 0, 0]
    let probing : State := { handed { probe with begun := true } State.reset with
      media := { State.reset.media with probes := [(probe.seq, 5)] } }
    let copying : State := { State.reset with media := { State.reset.media with copies := [(0, 3)], refills := [(4, [0]), (5, [])] } }
    imageOffence testGraph = none ∧ profileOffence testProfile = none ∧ residentBytes testGraph = 0 ∧
    profileLoaded State.reset 0 = false ∧ profileLoaded (showProfile 0 true State.reset) 0 = true ∧
    shardOffence State.reset testEntry = none ∧ mget State.reset.media.graphs 0 = none ∧ State.reset.media.graphs.length < 64 ∧
    (List.range 32).all (fun t => !readyTile State.reset t) = true ∧
    graphLoaded (setRegN State.reset (pTEN 0) R.TEN.GRAPH_MAP 1) 0 = true ∧ graphNamed State.reset 0 = false ∧
    findCmd probing cmd7 = some { probe with begun := true } ∧ mget probing.media.probes probe.seq = some 5 ∧
    copying.media.copies.contains (0, 3) = true ∧ copying.media.copies.contains (0, 4) = false ∧
    mget copying.media.refills 4 = some [0] ∧ mget copying.media.refills 5 = some [] ∧
    sliceOn (inState (pSRAMT 0) 1 State.reset) 0 = true := by decide +kernel

theorem witness_ProfilesProbesAndGraphs_ready :
    SvcReady cmd7 0x20 (cmdOf 0x20 0 0 []) (handed (cmdOf 0x20 0 0 []) State.reset) ∧
    SvcReady cmd7 0x21 (cmdOf 0x21 0 0 []) (handed (cmdOf 0x21 0 0 []) State.reset) ∧
    SvcReady cmd7 0x22 (cmdOf 0x22 0 0 []) (handed (cmdOf 0x22 0 0 []) State.reset) ∧
    SvcReady cmd7 0x30 (cmdOf 0x30 0 0 []) (handed (cmdOf 0x30 0 0 []) State.reset) ∧
    SvcReady cmd7 0x31 (cmdOf 0x31 0 0 []) (handed (cmdOf 0x31 0 0 []) State.reset) :=
  ⟨ready_handed _ _ _ _ _ rfl rfl, ready_handed _ _ _ _ _ rfl rfl, ready_handed _ _ _ _ _ rfl rfl,
   ready_handed _ _ _ _ _ rfl rfl, ready_handed _ _ _ _ _ rfl rfl⟩

/-! Witnesses of SelfTestSlicesAndCoreStops. -/

theorem witness_SelfTestSlicesAndCoreStops :
    let w : WaitSlice := { idx := 0, due := 0, run := [1], late := false }
    let s := { State.reset with intg := { State.reset.intg with wait := [w], runs := [⟨3, 0, none⟩] } }
    let stopped := putCore 5 { getCore State.reset 5 with act := .stopped 2 } State.reset
    (getCore stopped 5).act = .stopped 2 ∧ stopped.intg.answered.contains 5 = false ∧ s.intg.wait = [w] ∧
    s.tick.edgeAt + 50000 ≤ 50000 ∧ ({ s with tick := { s.tick with count := 9 } } : State).tick.count = 9 ∧
    runOf s (.own 3 0 0) = some ⟨3, 0, none⟩ ∧ runOf State.reset (.own 3 0 0) = none ∧
    blkState (inState (pTILE 3) 3 State.reset) (pTILE 3) = 3 ∧ mget State.reset.intg.lastRun 3 = none ∧
    blkState State.reset (pSRAMT 3) = 0 ∧ blkState (inState (pSRAMT 3) 1 State.reset) (pSRAMT 3) ≠ 0 ∧
    State.reset.power.phase = .running ∧ State.reset.mgmt.posted = false ∧ State.reset.mgmt.hold = false ∧
    4 < ((List.range 32).filter [0, 1, 2, 3, 4].contains).length ∧
    (List.range 16).find? [15].contains = some 15 := by decide +kernel

theorem witness_SelfTest_ready : IntgReady (.own 3 0 0) 0x81 (fun i => [3, 0, 0].getD (i - 4) 0) State.reset ∧
    IntgReady (.svc cmd7) 0x80 (fun i => (cmdOf 0x80 2 3 [3]).d i) (handed (cmdOf 0x80 2 3 [3]) State.reset) :=
  ⟨rfl, _, ready_handed _ _ _ _ _ rfl rfl, rfl⟩

/-! Witnesses of InjectionReportsAndDeviceMemory. -/

theorem witness_InjectionReportsAndDeviceMemory :
    let d (a b : Nat) : Nat → Nat := fun i => [a, b, 0].getD (i - 4) 0
    injectOffence (d 0x301 64) = none ∧ injectOffence (d 0x302 64) = none ∧ injectOffence (d 3 64) = none ∧
    injectOffence (d 4 64) = none ∧ injectOffence (d 0x305 0) = none ∧ injectKind State.reset (.own 0x302 64 0) = 2 ∧
    pagePresent State.reset (pDEC 3) = true ∧ mget State.reset.intg.recalAt (chanKey 3 1) = none ∧
    State.reset.power.phase = .running ∧
    1000 < (mgetD (setIntg State.reset fun x => { x with linkCe := [(chanKey 3 1, 0, 1001)] }).intg.linkCe (chanKey 3 1) (0, 0)).2 := by
  decide +kernel

theorem witness_Injection_ready : IntgReady (.own 0x301 64 0) 0x84 (fun i => [0x301, 64, 0].getD (i - 4) 0) State.reset ∧
    IntgReady (.own 3 0 0) 0x82 (fun i => [3, 0, 0].getD (i - 4) 0) State.reset := ⟨rfl, rfl⟩

/-! Witnesses of LinkBringUp. -/

theorem witness_LinkBringUp :
    let st (n : Nat) : State := setLstate 3 n (inState (pLINK 3) 1 State.reset)
    lstate (st 1) 3 = 1 ∧ lstate (st 2) 3 = 2 ∧ lstate (st 3) 3 = 3 ∧ lstate (st 6) 3 = 6 ∧ linkUp (st 4) 3 = true ∧
    lstate (st 4) 3 ≠ 3 ∧ (getLink State.reset 3).phy = 0 ∧ (getLink State.reset 3).lock = 0 ∧
    (getLink (putLink 3 { Link.down with phy := 2 } State.reset) 3).phy ≠ 0 ∧ (getLink State.reset 3).stepAt = 0 ∧
    blkRunning (st 1) (pLINK 3) = true ∧ (List.range 8).any (fun r => linkRole (setFld State.reset (pLINK 3) R.LINK.CFG 0 3 r) 3 != 0) = true := by
  decide +kernel

/-! Witnesses of LinkTraffic. -/

theorem witness_LinkTraffic :
    let null := flitBytes Link.down 0 0 15 (payload240 [])
    let up := setLanesUp 3 3 (setLstate 3 4 (inState (pLINK 3) 1 State.reset))
    let one := setLanesUp 3 1 (setLstate 3 5 (inState (pLINK 3) 1 State.reset))
    linkUp up 3 = true ∧ null.length = 256 ∧ crc32c (null.take 252) = leAt null 252 4 ∧ leAt null 0 4 / 2 ^ 30 = 0 ∧
    leAt null 0 4 % 16 = 0 ∧ bitsOf (leAt null 0 4) 18 12 = 0 ∧ leAt null 0xF8 4 / 16 = 0 ∧ bitOf (leAt null 0 4) 5 = false ∧
    bitOf (lanesUp up 3) 1 = true ∧ withBits (lanesUp up 3) 1 1 0 ≠ 0 ∧ bitOf (lanesUp one 3) 0 = true ∧
    withBits (lanesUp one 3) 0 1 0 = 0 ∧ lanesUp (setLanesUp 3 0 up) 3 = 0 := by decide +kernel

/-! Witnesses of WindowAccessesAndCaptureReads. -/

theorem witness_WindowAccessesAndCaptureReads :
    let cfg := setRegN (inState (pLINK 3) 1 State.reset) (pLINK 3) R.LINK.CFG 1
    let up := { setLanesUp 3 3 (setLstate 3 4 cfg) with feed := { State.reset.feed with links := [(3, { Link.down with joined := true, reads := [⟨9, 0, 16, 0, 0, 0, false, 0, 0⟩], quar := [(8, 10)] })] } }
    let open_ := { up with tabAct := [(4, 0x70C)] }
    linkUp up 3 = true ∧ linkPort up 3 = some 0 ∧ blkFenced up pFEED = false ∧ winRefusal (winChunks open_ 0 true 0 16) = none ∧
    winRefusal (winChunks open_ 0 false 0 16) = none ∧ badLen 8 16 = true ∧ badLen 0 16 = false ∧
    winRefusal (winChunks up 0 true 0 16) = some 0 ∧ winRefusal (winChunks up 0 false 0 16) = some 0 ∧
    ((getLink (expireTags 3 up) 3).reads.find? (fun r => r.tag == 9)).isSome = true ∧
    ((getLink (expireTags 3 up) 3).reads.find? (fun r => r.tag == 8)).isNone = true ∧
    ((getLink (expireTags 3 up) 3).quar.map (·.1)).contains 8 = true := by decide +kernel

/-! Witnesses of RingsAndTheirPacks. -/

theorem witness_RingsAndTheirPacks :
    let d : List Byte := [1, 0, 16, 0, 1, 0, 0, 0] ++ List.replicate 16 0 ++ [3, 0] ++ List.replicate 14 255 ++ List.replicate 24 0
    let x := ringOfDesc d
    let z : StreamSet := { testSet with outputs := 2 }
    let p : Pack := ⟨0, 3 * 2 ^ 48, 64, 0, 1, 0, some 0, false, false, none, List.replicate 64 0⟩
    let up := setLanesUp 3 3 (setLstate 3 4 (setRegN (inState (pLINK 3) 1 (inState pFEED 1 State.reset)) (pLINK 3) R.LINK.CFG 1))
    let s := setFoundry (putRingF 5 { x with state := 2, link := some 3, deficit := 100 } (putSet 3 z up)) fun f => { f with packs := [p] }
    ringOffence d = none ∧ getRing State.reset 5 = none ∧ halfWrong State.reset 5 = false ∧ x.sets = [3] ∧ x.sizeLog = 16 ∧
    (getSet s 3).isSome = true ∧ objFenced (cmdOf 0x40 5 5 []) s = false ∧ linkUp s 3 = true ∧ linkPort s 3 = some 0 ∧
    ringLive { x with state := 2 } = true ∧ blkRunning s pFEED = true ∧ quiescing s = false ∧ drawable s p = true ∧
    x.sets.contains (packSet p) = true ∧ ringSpace x 64 = true ∧ skipBytes x 64 = 0 ∧ mget s.pair.adopted 5 = none ∧
    ringDesc (cmdOf 0x40 5 5 [0, 0, 0]) s d = d ∧
    40 ≤ (setFeed s fun f => { f with portDown := [40] }).feed.portDown.getD 0 0 := by decide +kernel

theorem witness_Rings_ready : SvcReady cmd7 0x40 (cmdOf 0x40 5 5 []) (handed (cmdOf 0x40 5 5 []) State.reset) ∧
    SvcReady cmd7 0x45 (cmdOf 0x45 0 0 [0, 0, 2]) (handed (cmdOf 0x45 0 0 [0, 0, 2]) State.reset) :=
  ⟨ready_handed _ _ _ _ _ rfl rfl, ready_handed _ _ _ _ _ rfl rfl⟩

/-! Witnesses of WorkRequestsAndTransport. -/

theorem witness_WorkRequestsAndTransport :
    let c := cmdOf 0x90 6 5 [0, 0, 0, 0, 0, 0, 0, 0x644, 0]
    let w : Wqe := newWqe 0 ([1] ++ List.replicate 63 0) (.inr .none)
    let x : Qp := { newQp c with state := 2, sq := [w], sqTail := 2, sqNext := 1, ackAt := some 0 }
    let up := putQp 5 x (inState pRMT 1 (inState (pETH 0) 1 (setFld (setFld State.reset (pETH 0) R.ETH.STAT 0 1 1) (pETH 0) R.ETH.CFG 0 2 0)))
    let f := inState (pFUNC 0) 1 up
    getQp up 5 = some x ∧ nextWr x = some w ∧ freezing up 0 = false ∧ (readIds x).length < 64 ∧ x.ty ≠ 2 ∧ x.acc = false ∧
    cqTaken x + 1 < qpDepth x.cqLog ∧ rmtFetch f 0 = true ∧ blkRunning f pRMT = true ∧ qpInRange f 0 5 = true ∧ w.op = 1 ∧
    spotWaits f w.spot = false ∧ blkState f pRMT = 1 ∧ subUp f 0 = true := by decide +kernel

theorem witness_WorkRequestsAndTransport_more :
    let wait : Wqe := { newWqe 0 ([5] ++ List.replicate 63 0) (.inr .none) with begun := true }
    let recv : Wqe := newWqe 0 (List.replicate 64 0) (.inr .none)
    let sent : TxPkt := { newTx 1 0 0 0 0 0 0 0 [] (some 0) with st := 2 }
    let x : Qp := { newQp (cmdOf 0x90 6 5 [0, 0, 0, 0, 0, 0, 0, 0x644, 0]) with
      state := 2, sq := [wait], rq := [recv], tx := [sent, { sent with psn := 1, tries := 16 }], ackAt := some 0 }
    x.sq.find? (fun w => w.op == 5 && w.begun && w.status.isNone) = some wait ∧ x.rq.find? (fun w => !w.posted) = some recv ∧
    x.tx.find? (fun p => p.psn == 0) = some sent ∧ sent.tries ≤ fld State.reset pRMT R.RMT.TIMERS 12 4 ∧
    fld State.reset pRMT R.RMT.TIMERS 12 4 < 16 ∧ max 10 (fld State.reset pRMT R.RMT.TIMERS 16 16) * 1000 ≤ 100000000 ∧
    bitsOf 5 24 4 = 0 ∧ { x with acc := true }.acc = true := by decide +kernel

/-! Witnesses of QueuePairCommandsAndExchange. -/

theorem witness_QueuePairCommandsAndExchange :
    let c := cmdOf 0x90 6 5 [0, 0, 0, 0, 0, 0, 0, 0x544, 0]
    let p : Pack := ⟨0, 9, 64, 0, 1, 0, some 0, false, true, none, []⟩
    let x : Qp := { newQp c with state := 2, ty := 2 }
    let s := setFeed (setFoundry (putQp 5 x (inState pFEED 1 State.reset)) fun f => { f with packs := [p] }) fun f => { f with group := [5] }
    qpInRange State.reset 0 5 = true ∧ qpCreateOffence c State.reset = none ∧ getQp State.reset 5 = none ∧
    objFenced c State.reset = false ∧ begunOn State.reset 0x91 5 = none ∧ findPack s 0 9 = some p ∧
    s.feed.group[0 % s.feed.group.length]? = some 5 ∧ getQp s 5 = some x ∧ blkRunning s pFEED = true ∧ quiescing s = false ∧
    subscrInRange State.reset 0 0 = true ∧ qpInRange State.reset 3 16383 = false ∧ p.chosen = true ∧
    (s.feed.flight.any fun e => e.2.2 == (0, 9)) = false ∧ x.state = 2 ∧ x.ty = 2 ∧ State.reset.feed.group.contains 5 = false ∧
    portOffence State.reset 5 { x with state := 1 } 0 = some 0xA0 := by decide +kernel

/-! Witnesses of EthernetAndEgress. -/

theorem witness_EthernetAndEgress :
    let s := inState pEGS 1 (inState pRMT 1 (inState (pETH 0) 1 State.reset))
    let up := setFld s (pETH 0) R.ETH.STAT 0 1 1
    let pfc : List Byte := List.replicate 12 0 ++ [0x88, 0x08, 1, 1] ++ List.replicate 44 0
    subExists s 0 = true ∧ subUp s 0 = false ∧ subUp up 0 = true ∧ blkRunning up (pETH 0) = true ∧ blkRunning up pEGS = true ∧
    (schedule 0 (admitAll up)).1 = none ∧ (etherOf pfc).2 = 0x8808 ∧ beAt pfc (etherOf pfc).1 2 = 0x0101 ∧
    leAt (pfc ++ leBytes 4 (crc32 pfc)) 60 4 = crc32 pfc ∧ leAt (List.replicate 8 0) 4 4 ≠ crc32 (List.replicate 4 0) := by
  decide +kernel

/-- A UDP datagram of no payload from 10.0.0.2 to the device's 10.0.0.1, to the transport's port. -/
theorem witness_EthernetAndEgress_datagram :
    let s := inState pRMT 1 (setRegN State.reset (pETH 0) R.ETH.ADDR_IPV4 0x0A000001)
    let port := fld s pRMT R.RMT.CFG 16 16
    let b : List Byte := List.replicate 12 0 ++ [8, 0, 0x45, 0, 0, 28, 0, 0, 0x40, 0, 64, 17, 0, 0, 10, 0, 0, 2, 10, 0, 0, 1, 0, 9] ++
      beBytes 2 port ++ [0, 8, 0, 0] ++ List.replicate 18 0
    (etherOf b).2 ≠ 0x8808 ∧ ptpOf s b = none ∧ udpOf s b = some (port, 0, [], true) ∧ blkRunning s pRMT = true ∧ 18 ≤ b.length + 4 := by
  decide +kernel

/-! Witnesses of CipherKeysAndJobs. -/

theorem witness_CipherKeysAndJobs :
    let key (st' ty attr : Nat) : KeySlot := ⟨st', attr * 16 + ty, 0, 0, false, 0, List.replicate 32 0⟩
    let s := setCiph State.reset fun f => { f with slots := [(5, key 1 1 0x13), (6, key 1 4 0xC), (7, key 2 1 3)] }
    let job (op : Nat) : List Byte := [BitVec.ofNat 8 op, 0, 5, 0] ++ List.replicate 60 0
    let gen := cmdOf 0x70 11 9 [0x31, 0, 0]
    keyOffence gen false = none ∧ slotFree s 9 = true ∧ getSlot s 5 = some (key 1 1 0x13) ∧ getSlot s 6 = some (key 1 4 0xC) ∧
    keyType (key 1 4 0xC) = 4 ∧ bitOf (key 1 4 0xC).attr 7 = true ∧ bitOf (key 1 4 0xC).attr 6 = true ∧
    bitOf (key 1 1 0x13).attr 8 = true ∧ jobOffence (cmdOf 0x74 11 5 []) (job 1) = none ∧
    jobOffence (cmdOf 0x74 0 0 []) (job 9) = none ∧ keyType (key 1 1 0x13) = opKeyType 1 ∧
    bitOf (key 1 1 0x13).attr 4 = true ∧ s.ciph.counters.getD 0 0 < 2 ^ 64 - 1 ∧
    reg s pMSS R.MSS.BOOT_COUNT - 0 < 65536 ∧ keyOffence (cmdOf 0x71 11 9 [0x31, 0, 0, 0, 0, 0]) false = none ∧
    keyUnwrap (List.replicate 32 0) (List.replicate 8 0) = none ∧
    blobOffence ([0x45, 0x4B, 0x57, 0x42, 1, 1, 48] ++ List.replicate 17 0) = none ∧
    importSource (cmdOf 0x71 11 9 [0x31, 0, 0, 0, 0, 0]) (some (List.replicate 64 0)) s = some (List.replicate 64 0) ∧
    importSource (cmdOf 0x71 11 9 [0x31, 0, 0, 0, 0, 2]) none s = none ∧
    allZero (((List.replicate 64 (0 : Byte)).drop 32).take 32) = true ∧ getSlot s 7 = some (key 2 1 3) ∧
    ((List.range 8).all fun i => decide (2 ^ 64 - 1 ≤ (List.replicate 8 (2 ^ 64 - 1)).getD i 0)) = true ∧
    keyUnwrap (List.replicate 32 0) (List.replicate 8 0xA6) = some [] ∧
    blobOffence ([0x45, 0x4B, 0x57, 0x42, 1, 0, 48] ++ List.replicate 9 0 ++ List.replicate 8 0xA6) = none := by decide +kernel

theorem witness_Cipher_ready : SvcReady cmd7 0x74 (cmdOf 0x74 11 5 []) (handed (cmdOf 0x74 11 5 []) State.reset) ∧
    SvcReady cmd7 0x71 (cmdOf 0x71 11 5 [0x31, 0, 0, 0, 0, 2]) (handed (cmdOf 0x71 11 5 [0x31, 0, 0, 0, 0, 2]) State.reset) ∧
    SvcReady cmd7 0x72 (cmdOf 0x72 11 5 [6]) (handed (cmdOf 0x72 11 5 [6]) State.reset) :=
  ⟨ready_handed _ _ _ _ _ rfl rfl, ready_handed _ _ _ _ _ rfl rfl, ready_handed _ _ _ _ _ rfl rfl⟩

/-! Witnesses of FlashMediumAndItsCare. -/

theorem witness_FlashMediumAndItsCare :
    let run := inState pFTL 1 (inState (pFCH 0) 1 { State.reset with power := { State.reset.power with phase := .running } })
    let quiet := { run with power := { run.power with quiesce := some 0 } }
    let used := setFlash (setDie 5 1 0 1 run) fun f => { f with inUse := 32, rebuild := [5], blocks := [(5 * 65536 + 3, ⟨2, 0, false, false, none⟩)] }
    ftlReady run = true ∧ backgroundOn run = true ∧ ftlReady quiet = true ∧ dieState used 5 = 1 ∧
    bitOf used.flash.inUse 5 = true ∧ used.flash.rebuild.contains 5 = true ∧ blkState run pFTL ≠ 0x80 ∧
    blkState (inState pFTL 0x80 run) pFTL = 0x80 ∧ stepOk run 5 1 0 = true ∧ quiescing quiet = true ∧
    fld used pFTL R.FTL.WL 0 16 < (eraseSpan false { used with flash := { used.flash with blocks := [(5, ⟨60000, 0, false, false, none⟩)] } }).1 ∧
    mget [(1 * 2 ^ 64 + 4, (7 : Nat))] (1 * 2 ^ 64 + 4) = some 7 ∧ 0 + bitsOf 0x100 8 8 * 100000 ≤ 100000 := by decide +kernel

/-! Witnesses of NvmeControllersAndQueues. -/

/-- A submission queue entry in hand of queue `sq` with CID 7: an opcode, an NSID and dwords 10 on. -/
abbrev nCmd (sq op nsid : Nat) (cdw : List Nat) : NCmd :=
  ⟨sq, 7, [op + 7 * 65536, nsid, 0, 0, 0, 0, 0x1000, 0, 0, 0] ++ cdw, 0, false, false, [], [], 0, [], none, false, none⟩

abbrev adminSq : NSq := ⟨0x100000, 32, 0, 0, 0, 1⟩
abbrev adminCq : NCq := ⟨0x200000, 32, 0, true, 0, 0, true, 0, 0, []⟩

/-- PF0's controller enabled, with I/O queue pair 1 and one command in hand. -/
abbrev nvmeWith (c : NCmd) : State :=
  let s := inState pFTL 1 (inState (pFUNC 0) 1 (inState pNVME 1 State.reset))
  putCtrl 0 { Ctrl.reset with rdy := true, sqs := [(0, adminSq), (1, adminSq)], cqs := [(0, adminCq), (1, adminCq)], cmds := [c] } s

theorem ready_nvme : NvmeReady 0 0 0 7 (nCmd 0 5 0 [0x000F0002, 0x00010003]) (nvmeWith (nCmd 0 5 0 [0x000F0002, 0x00010003])) ∧
    NvmeReady 0 0 0 7 (nCmd 0 1 0 [0x000F0002, 0x00010001]) (nvmeWith (nCmd 0 1 0 [0x000F0002, 0x00010001])) ∧
    NvmeReady 0 0 0 7 (nCmd 0 8 0 [0x00090001]) (nvmeWith (nCmd 0 8 0 [0x00090001])) := by
  unfold NvmeReady; decide +kernel

theorem witness_NvmeControllersAndQueues :
    let c := nCmd 0 5 0 [0x000F0002, 0x00010003]
    let s := nvmeWith c
    let w := nvmeBegun 0 0 0 7 c s
    let x := getCtrl s 0
    x.rdy = true ∧ x.cfs = false ∧ nvmeHeld s 0 = false ∧ (getFn s 0).freezing = false ∧ blkRunning s pNVME = true ∧
    quiescing s = false ∧ arbPick x = some (0, x) ∧ mget x.sqs 1 = some adminSq ∧ mget x.cqs 1 = some adminCq ∧ mget x.sqs 2 = none ∧
    fetchStatus 0 0 { x with cmds := [] } c = 0 ∧ fetchStatus 0 0 x (nCmd 0 3 0 []) = nv.OPCODE ∧
    blkState s (pFUNC 0) ≠ 0x82 ∧ (getCtrl State.reset 0).rdy = false ∧
    2 ≤ ioQueues 0 ∧ bitsOf (c.d 10) 0 16 = 2 ∧ bitsOf (c.d 10) 16 16 = 15 ∧ c.d 11 % 2 = 1 ∧ mget (getCtrl w 0).cqs 2 = none ∧
    mget (getCtrl w 0).sqs 2 = none ∧ (mget (getCtrl w 0).cqs 1).isSome = true ∧
    ((getCtrl w 0).cmds.all fun d => d.sq != 1) = true ∧ (getCtrl w 0).events = [] ∧
    findNCmd (nvmeBegun 0 0 0 7 (nCmd 0 8 0 [0x00090001]) (putCtrl 0 { x with cmds := [nCmd 0 8 0 [0x00090001], { nCmd 1 2 1 [] with cid := 9, num := 1 }] } s)) 0 1 9 =
      some { nCmd 1 2 1 [] with cid := 9, num := 1 } ∧
    (identData 0 (nCmd 0 6 1 [0x10]) s).1.1 = 0 := by decide +kernel

/-! Witnesses of NvmeNamespacesSanitizeAndFirmware. -/

/-- A namespace of one GiB, UNATTACHED. -/
abbrev testNs : Ns := ⟨1, 1, 0, 0, false, 0, 1, 262144, List.replicate 16 0, none, 0, true, 0, 0, 0, 0⟩

/-- An enabled controller with namespace 1 and room for more. -/
abbrev nsWith (n : Ns) (c : NCmd) : State :=
  putNs 1 n (setFlash (nvmeWith c) fun f => { f with init := true, family := 1, dies := [(5, ⟨5460, 0, 0, [], 0, true, false⟩)] })

abbrev nsData : List Byte := structOf 4096 [(0, leBytes 8 262144), (8, leBytes 8 262144)]

theorem witness_Namespaces_ready : NvmeReady 0 0 0 7 (nCmd 0 0x0D 0 [0]) (nsWith testNs (nCmd 0 0x0D 0 [0])) ∧
    NvmeReady 0 0 0 7 (nCmd 0 0x15 1 [0]) (nsWith testNs (nCmd 0 0x15 1 [0])) ∧
    NvmeReady 0 0 0 7 (nCmd 0 0x10 0 [0x12]) (nsWith testNs (nCmd 0 0x10 0 [0x12])) ∧
    NvmeReady 0 0 0 7 (nCmd 0 0x11 0 [1023, 0]) (nsWith testNs (nCmd 0 0x11 0 [1023, 0])) := by unfold NvmeReady; decide +kernel

theorem witness_NvmeNamespacesSanitizeAndFirmware :
    let c := nCmd 0 0x0D 0 [0]
    let w := nvmeBegun 0 0 0 7 c (nsWith testNs c)
    let run := { w with power := { w.power with phase := .running } }
    let a := nCmd 0 0x15 1 [0]
    let v := nvmeBegun 0 0 0 7 a (nsWith testNs a)
    let att : Ns := { testNs with state := 2, ctrl := some 0 }
    let e : NCmd := { nCmd 0 0x80 1 [0] with begun := true }
    let y := nsWith { testNs with state := 3, former := 1 } e
    ftlReady run = true ∧ w.nvme.sanitize = none ∧ leAt nsData 26 1 = 0 ∧ leAt nsData 30 1 = 0 ∧ leAt nsData 3072 1 = 0 ∧
    formatOk 0 (leAt nsData 29 1) = true ∧ leAt nsData 8 8 = leAt nsData 0 8 ∧ ceilDiv (leAt nsData 0 8 * lbaBytes 0) (2 ^ 30) = 1 ∧
    gibUsed w + 1 ≤ w.flash.usable ∧ blkState w pFTL ≠ 0x82 ∧
    ((List.range 256).find? fun i => (getNs w (i + 1)).isNone) = some 1 ∧ getNs v 1 = some testNs ∧
    oneCtrl v (structOf 4096 [(0, [1, 0, 0, 0])]) = some 0 ∧
    getNs (nsWith att a) 1 = some att ∧ getNs y 1 = some { testNs with state := 3, former := 1 } ∧
    (y.nvme.ctrls.findSome? fun x => (x.2.cmds.find? fun c => c.sq == 0 && c.op == 0x80 && c.begun && c.nsid == 1).map fun c => (x.1, c)) = some (0, e) ∧
    (w.nvme.nss.any fun x => x.2.state == 3) = false ∧ (logPage 0 4 false w).1.1 = 0 ∧ w.mgmt.update = none ∧
    w.mgmt.splice = none ∧ slotIntact w.mgmt 0 = true ∧ 1 ≠ w.mgmt.running ∧ bitsOf 0x12 3 3 = 2 ∧ bitsOf 0x1A 3 3 = 3 ∧
    bitsOf 0x0A 3 3 = 1 := by decide +kernel

/-! Witnesses of NvmeReadsAndWrites. -/

theorem witness_Io_ready : NvmeReady 0 0 1 7 (nCmd 1 2 1 [0, 0, 0]) (nsWith testNs (nCmd 1 2 1 [0, 0, 0])) ∧
    NvmeReady 0 0 1 7 (nCmd 1 9 1 [0, 4]) (nsWith testNs (nCmd 1 9 1 [0, 4])) := by unfold NvmeReady; decide +kernel

theorem witness_NvmeReadsAndWrites :
    let att : Ns := { testNs with state := 2, ctrl := some 0 }
    let c := nCmd 1 1 1 [0, 0, 0]
    let b := { c with begun := true }
    let w := nvmeBegun 0 0 1 7 c (nsWith att c)
    let dies := setDie 5 1 0 1 (setDie 600 1 0 1 (setFlash (nsWith att c) fun f => { f with stage := 20 }))
    let wrote : NCmd := { c with begun := true, kind := 0 }
    let z := setFlash (nsWith att wrote) fun f => { f with begun := [(0, [(5, 600)])] }
    getNs w 1 = some att ∧ ioStatus w 0 b = 0 ∧ rangeStatus att b true = 0 ∧ piFieldStatus att b = 0 ∧
    changeStatus w att = 0 ∧ wireBytes att c = (4096, 0) ∧
    mayProgram dies (c.blocks * lbaBytes att.lbaf) [(5, 600)] none = true ∧ writePiStatus att b [] [] = 0 ∧
    bitOf ((nCmd 1 9 1 [0, 4]).d 11) 2 = true ∧ bitsOf ((nCmd 1 9 1 [0, 4]).d 10) 0 8 = 0 ∧ hasPi att = false ∧
    ((getCtrl z 0).cmds.find? fun c => c.sq == 1 && c.cid == 7 && c.begun && !c.programmed && (mget z.flash.begun c.num).isSome) = some wrote ∧
    pairSynced (inState pPAIR 0x83 z) = true ∧
    (readStatus att b (readBlocks att b [] w).1.2 (readBlocks att b [] w).2).1 = 0 := by decide +kernel

/-! Witnesses of HostLinksResetsAndTags. -/

theorem witness_HostLinksResetsAndTags :
    let s := setRegN State.reset (pHOST 0) R.HOST.LINK_STAT (2 ^ 11)
    let v := setFld State.reset (pFUNC 0) R.FUNC.RES_WIN 0 17 1
    let q := setHost State.reset fun h => { h with quar := [(9, (0, 5))] }
    pagePresent s (pHOST 0) = true ∧ fld s (pHOST 0) R.HOST.LINK_STAT 11 1 = 1 ∧ 8 ≤ totalVfs s 1 ∧
    s.host.vfEnable.getD 1 true = false ∧ mget q.host.quar (0 * 65536 + 9) = some (0, 5) ∧
    mget State.reset.host.quar (0 * 65536 + 9) = none ∧ 0 + (getFn s 0).cto ≤ 10000000 ∧ windowHas v 0 0 64 = true ∧
    windowHas v 0 (2 ^ 20) 64 = false ∧ 9 < tagSpace s 0 := by decide +kernel

/-! Witnesses of OrphansAdoptionAndFunctionResets. -/

theorem witness_OrphansAdoptionAndFunctionResets :
    let run := inState (pFUNC 4) 1 State.reset
    let orphan := modFn 4 (fun x => { x with bme := true }) (inState (pFUNC 4) 0x80 (setFld State.reset (pFUNC 4) R.FUNC.ORPHAN_STAT 16 16 1))
    let beat := { inState (pFUNC 0) 1 (setFld State.reset (pFUNC 0) R.FUNC.HB_CFG 0 16 3) with tick := { State.reset.tick with edgeAt := 10 ^ 12 } }
    let gone := modFn 4 (fun x => { x with resetAt := some 0, gone := true }) (inState (pFUNC 4) 4 State.reset)
    let grace := inState (pFUNC 0) 0x80 (setFld State.reset (pFUNC 0) R.FUNC.HB_CFG 16 16 5)
    blkState run (pFUNC 4) = 1 ∧ blkState (silence 4 (modFn 4 (fun x => { x with bme := false }) run)) (pFUNC 4) = 1 ∧
    blkState (inState (pFUNC 4) 0 State.reset) (pFUNC 4) = 0 ∧
    ((setHost State.reset fun h => { h with vfEnable := [true, false, false, false] }).host.vfEnable.getD 0 false) = true ∧
    hbLimit beat 0 ≠ 0 ∧ (getFn beat 0).hbAt + hbLimit beat 0 ≤ beat.tick.edgeAt ∧
    State.reset.tick.edgeAt < (getFn beat 0).hbAt + hbLimit beat 0 ∧
    blkState orphan (pFUNC 4) = 0x80 ∧ fld orphan (pFUNC 4) R.FUNC.ORPHAN_STAT 4 1 = 0 ∧
    1 = fld orphan (pFUNC 4) R.FUNC.ORPHAN_STAT 16 16 ∧ (getFn orphan 4).bme = true ∧ blkState gone (pFUNC 4) = 4 ∧
    (getFn gone 4).resetAt ≠ none ∧ (getFn gone 4).gone = true ∧ blkState grace (pFUNC 0) = 0x80 ∧ (getFn grace 0).graceDone = false ∧
    fld grace (pFUNC 0) R.FUNC.HB_CFG 16 16 ≠ 0xFFFF ∧
    (getFn grace 0).orphanAt + fld grace (pFUNC 0) R.FUNC.HB_CFG 16 16 * 10 ^ 9 ≤ 6 * 10 ^ 9 := by decide +kernel

/-! Witnesses of FunctionCommandsAndMigration. -/

theorem witness_FunctionCommandsAndMigration :
    let c := cmdOf 0x95 9 5 [0x00100010, 0x00040004, 2, 4]
    let s := setRegN (setRegN (handed c State.reset) (pFUNC 0) R.FUNC.RES_QP 0) (pFUNC 0) R.FUNC.RES_SUB 0
    let fz := modFn 5 (fun x => { x with freezing := true, freezeBy := some 9 }) State.reset
    let v := inState (pFUNC 5) 0x81 State.reset
    let logged := modFn 5 (fun x => { x with dirty := some { base := 0, len := 32768, pages := [1] } }) v
    let d := cmdOf 0x9A 9 5 [1, 0, 0, 0, 8, 0]
    begunOn s 0x95 5 = none ∧ c.d 4 % 65536 + c.d 4 / 65536 ≤ 16384 ∧ bitsOf (c.d 7) 0 7 = 4 ∧ blkState s (pFUNC 5) ≠ 2 ∧
    blkState s (pFUNC 5) ≠ 4 ∧ overlaps s 5 R.FUNC.RES_QP 4 (c.d 4) = false ∧ overlaps s 5 R.FUNC.RES_SUB 5 (c.d 5) = false ∧
    overlaps (setRegN s (pFUNC 6) R.FUNC.RES_QP 0x00100010) 5 R.FUNC.RES_QP 4 (c.d 4) = true ∧
    inUse s c = false ∧ inUse (setPair s 5 9 (newPair 0 0 0x00030003)) c = true ∧ windowSum s 5 (c.d 6) ≤ 65536 ∧
    blkState (inState (pFUNC 5) 0 s) (pFUNC 5) = 0 ∧ (getFn fz 5).freezing = true ∧ (getFn fz 5).revert = false ∧ drained fz 5 = true ∧
    (getFn fz 5).freezeBy = some 9 ∧ blkState v (pFUNC 5) = 0x81 ∧
    (getFn logged 5).dirty = some { base := 0, len := 32768, pages := [1] } ∧ d.d 8 + d.d 7 ≤ 32768 / 4096 ∧ bitsOf (d.d 4) 0 2 = 1 ∧
    logBytes v + 2 ^ 20 / 32768 ≤ 2 ^ 32 := by decide +kernel

/-- A blob of no sections is intact and fits a function without resources. -/
theorem witness_FunctionRestore :
    let v := inState (pFUNC 5) 0x81 State.reset
    let b : List Byte := [0x45, 0x4D, 0x49, 0x47, 1, 1, 0, 0, 64] ++ List.replicate 51 0 ++ [182, 245, 143, 110]
    leAt b 0 4 = 0x47494D45 ∧ leAt b 8 4 = b.length ∧ 64 ≤ b.length ∧
    leAt b 0x3C 4 = crc32c (b.take 0x3C ++ zeros 4 ++ b.drop 0x40) ∧ leAt b 4 1 = 1 ∧ leAt b 5 1 = 1 ∧
    blobParts b (leAt b 0x0C 2) 64 = some [] ∧
    fld v (pFUNC 5) R.FUNC.RES_QP 0 16 = leAt b 0x20 2 ∧ leAt b 0x22 2 ≤ fld v (pFUNC 5) R.FUNC.RES_QP 16 16 ∧
    leAt b 0x26 2 ≤ fld v (pFUNC 5) R.FUNC.RES_SUB 16 16 ∧ leAt b 0x28 4 ≤ reg v (pFUNC 5) R.FUNC.RES_WIN ∧
    leAt b 0x2C 1 ≤ reg v (pFUNC 5) R.FUNC.RES_SVC ∧
    ((blobNsids (partOf [] 5)).find? fun e => !((nsOf v 5).contains e.1)) = none ∧ qpsOf v 5 = [] := by decide +kernel

/-! Witnesses of CheckpointGroupAndSessions. -/

/-- A formed group of three, this device being rank 0, and its three UNIT_IDs. -/
abbrev testGroup : CkGroup := {
  p := 1, unit := 262144, id := 9, keySlot := 5, keyId := 0, rank := 0, members := [⟨20, 0⟩, ⟨21, 1⟩, ⟨22, 2⟩, ⟨23, 3⟩]
  hello := [], formed := true, formAt := 0, head := List.replicate 19 0, lost := [] }

abbrev ckFormed : State := setCkpt (inState pCKPT 0x82 State.reset) fun c => { c with group := some testGroup }
abbrev ckForming : State := setCkpt (inState pCKPT 0x81 State.reset) fun c => { c with group := some { testGroup with formed := false } }

abbrev testSession : CkSession := newSession (cmdOf 0x53 13 1 [0, 5, 0, 0, 0, 1, 0]) 0

theorem witness_Checkpoint_ready : SvcReady cmd7 0x51 (cmdOf 0x51 13 0 [1]) (handed (cmdOf 0x51 13 0 [1]) ckFormed) ∧
    SvcReady cmd7 0x53 (cmdOf 0x53 13 1 [0, 5, 0, 0, 0, 1, 0]) (handed (cmdOf 0x53 13 1 [0, 5, 0, 0, 0, 1, 0]) ckFormed) :=
  ⟨ready_handed _ _ _ _ _ rfl rfl, ready_handed _ _ _ _ _ rfl rfl⟩

theorem witness_Checkpoint_heard : CkHeard 0 ⟨1, 2, 9, 5, 0, 0, 0⟩ testGroup 22 ckFormed ∧
    CkHeard 0 ⟨1, 2, 9, 0, 0, 0, 0⟩ { testGroup with formed := false } 22 ckForming := by unfold CkHeard; decide +kernel

/-- A member that the group has not. -/
theorem witness_Checkpoint_stranger : ckptOn ckForming = true ∧ ckUid { testGroup with formed := false } 9 = none ∧
    (0 : Nat) + 10000000000 ≤ 10000000000 := by decide +kernel

theorem witness_CheckpointGroupAndSessions :
    let s := ckFormed
    let c := cmdOf 0x53 13 1 [0, 5, 0, 0, 0, 1, 0]
    let x : CkSession := { testSession with state := 2, atNs := some 0 }
    let y := putSess 1 x s
    blkFenced s pCKPT = false ∧ groupOffence s [] = some 0 ∧ blkState (inState pCKPT 0x80 s) pCKPT = 0x80 ∧
    shrinkOk testGroup 1 = true ∧ shrinkOk testGroup 0 = false ∧ sessionOffence c s = none ∧ getSess s 1 = none ∧ c.q 5 = 5 ∧
    bitOf ((cmdOf 0x53 13 1 [2, 5, 0, 0, 0, 1, 0x10000]).d 10) 16 = true ∧ testSession.state = 1 ∧
    startRefused (putSess 1 testSession s) 1 testSession = false ∧ startRefused y 2 testSession = true ∧
    ((tableRegions s testSession).map (·.len)).sum + s.ckpt.stageBytes ≤ 2 ^ 30 ∧
    max 16 (min 512 (fld s pCKPT R.CKPT.CFG 0 16)) * 2 ^ 30 < 0 + (putSess 1 { testSession with stage := 2 ^ 40 } s).ckpt.stageBytes ∧
    sessBusy x = true ∧ sessBusy testSession = false ∧ y.ckpt.sessions = [(1, x)] ∧ 0 + captureNs y ≤ 30000000000 := by decide +kernel

/-! Witnesses of CheckpointUnitsManifestsAndRestore. -/

theorem witness_CheckpointUnitsManifestsAndRestore :
    let x : CkSession := { testSession with state := 5, self := 0, uids := [20, 21, 22, 23], owed := [(owedKey 0 2, false)], manOwed := [22] }
    let s := putSess 1 x ckFormed
    let l : CkLanding := ⟨some 2, [], ⟨9, 5, 0, 0, 0, []⟩⟩
    let key : UnitKey := (5, 0, 0, 2)
    let z := setCkpt ckFormed fun c => { c with landing := [l], asked := [key], scan := { c.scan with firsts := [(22, [])] }, sessions := [(1, { x with state := 4 })] }
    ckptOn s = true ∧ sessOfStep s 5 = some (1, x) ∧ x.uids.getD (unitRank 4 0 0 2) 0 = 22 ∧
    mget x.owed (owedKey 0 2) = some false ∧ manIntact s [] = false ∧ x.manOwed.contains 22 = true ∧ z.ckpt.landing[0]? = some l ∧
    z.ckpt.sessions = [(1, { x with state := 4 })] ∧ z.ckpt.asked.contains key = true ∧ s.ckpt.scan.active = false ∧
    (s.ckpt.scan.firsts.map (·.1)).contains 22 = false ∧ (z.ckpt.scan.firsts.map (·.1)).contains 22 = true ∧
    scanResult z 5 0 = none ∧ exportOffence (cmdOf 0x58 13 0 [5]) s = none := by decide +kernel

/-! Witnesses of PairHawserWitnessAndTakeover. -/

theorem witness_Pair_ready : SvcReady cmd7 0x60 (cmdOf 0x60 14 0 [21, 0]) (handed (cmdOf 0x60 14 0 [21, 0]) State.reset) ∧
    SvcReady cmd7 0x61 (cmdOf 0x61 14 0 []) (handed (cmdOf 0x61 14 0 []) State.reset) :=
  ⟨ready_handed _ _ _ _ _ rfl rfl, ready_handed _ _ _ _ _ rfl rfl⟩

theorem witness_PairHawserWitnessAndTakeover :
    let p (n : Nat) : State := inState pPAIR n State.reset
    let on := setFld State.reset pMSS R.MSS.WITNESS_CFG 31 1 1
    let lost := setPairX (p 0x83) fun x => { x with witness := some ⟨0, 1, 0, 0⟩, leaseIn := 5 }
    let split := setPairX (p 0x83) fun x => { x with witness := some ⟨0, 0, 0, 0⟩ }
    pairEpoch (p 0x83) = 0 ∧ pairMode (p 0x84) = 0x84 ∧ pairMode (p 0x83) = 0x83 ∧ mirrorCmds (p 0x83) = [] ∧
    pairMode (p 0x82) = 0x82 ∧ (p 0x82).pair.base = 0 ∧ pairMode (p 0x81) = 0x81 ∧ (p 0x81).pair.expected = 0 ∧
    indexClash (p 0x81) 21 = false ∧ pairMode (p 0x80) = 0x80 ∧ fld (raiseLine 36 1 on) pMSS R.MSS.WITNESS_CFG 31 1 = 1 ∧
    partnerId (raiseLine 36 1 on) = 0 ∧ fld on pMSS R.MSS.WITNESS_CFG 31 1 = 1 ∧
    mainState { on with power := { on.power with pwrOk := true, phase := .running } } ≠ 1 ∧
    lost.pair.leaseIn ≤ ({ lost with tick := { lost.tick with count := 9 } } : State).tick.count ∧ partnerLost lost = true ∧
    hawserSeen split = false ∧ ((freshWitness split).any fun w => w.main == 0) = true := by decide +kernel

/-! Witnesses of ManagementBootUpdatesAndSplices. -/

theorem witness_ManagementBootUpdatesAndSplices :
    let on : State := { State.reset with power := { State.reset.power with phase := .running } }
    let posted := setMgmt on fun m => { m with posted := true }
    let upd := setMgmt on fun m => { m with update := some { path := 1, done := [1] } }
    let off : State := { State.reset with power := { State.reset.power with phase := .off } }
    let handing := setSplice 3 0 0 0 (setMgmt on fun m => { m with splice := some { slot := 1, at_ := 0, cmd := none } })
    isSensor 16 = true ∧ isSensor 80 = true ∧ mget on.mgmt.thresholds 16 = none ∧ fld on (pMEMC 0) R.MEMC.STAT 1 1 = 0 ∧
    posted.mgmt.posted = true ∧ posted.mgmt.ready = false ∧ busOpen on .i3c = true ∧ on.power.alwaysOn = true ∧ on.mgmt.dynAddr = none ∧
    (sideFrame off).mgmt.running ≠ 2 ∧ (breakSplice (sideFrame off)).power.phase = .off ∧ (sideFrame on).mgmt.splice = none ∧
    (sideFrame on).mgmt.update = none ∧ (sideFrame upd).mgmt.update = some { path := 1, done := [1] } ∧ upd.mgmt.running ≠ 2 ∧
    (sideFrame upd).power.phase = .running ∧ deckPaused handing = true ∧ (handedOver (atTime 0 handing).mgmt).all [].contains = true ∧
    0 + 3 ≤ ({ handing with tick := { handing.tick with count := 3 } } : State).tick.count ∧
    imageOk on.mgmt (parseImage [] ⟨true⟩) = false := by decide +kernel

/-- An image of one empty MSS component, and a configuration block of this unit, pass their checks. -/
theorem witness_Management_image : imageOk State.reset.mgmt (parseImage (structOf 128 [(0, [0x45, 0x46, 0x57, 0x49, 1, 1, 1]),
    (0x10, [1]), (0x40, [1]), (0x50, sha384 [])]) ⟨true⟩) = true := by decide +kernel

theorem witness_Management_config : configOk State.reset.mgmt
    ([0x45, 0x43, 0x46, 0x47, 1, 0, 0, 0] ++ leBytes 8 Config.unitId) true = true := by
  have h : leAt ([0x45, 0x43, 0x46, 0x47, 1, 0, 0, 0] ++ leBytes 8 Config.unitId) 8 8 = Config.unitId % 2 ^ 64 :=
    leNat_leBytes 8 Config.unitId
  unfold configOk
  rw [h]
  simp only [beq_self_eq_true, Bool.and_true]
  rfl

/-! Witnesses of CountersClearsAndSamples. -/

theorem witness_CountersClearsAndSamples :
    let s := setRegN (setFld State.reset pPERF R.PERF.GATE 0 1 1) (pTEN 0) R.PC_CTL (2 ^ 31 + 0x101)
    let c := cmdOf 0xA0 1 0 [pageAt (pTEN 0) 0, 0, 0, 0]
    s.Canon ∧ sees s (.func 0) (pTEN 0) = true ∧ eventDefined (pTEN 0).ty 0x101 = true ∧ eventDefined (pTEN 0).ty 0 = false ∧
    mget s.latches (latchKey (.func 0) (pageAt (pTEN 0) R.PC_VAL_LO)) = none ∧ pcChained s (pTEN 0) 0 = false ∧ pagePresent s (pTEN 0) = true ∧
    bitOf (reg s (pTEN 0) R.PC_CTL) 31 = true ∧ bitsOf (reg s (pTEN 0) R.PC_CTL) 0 16 = 0x101 ∧ fld s pPERF R.PERF.GATE 0 1 = 1 ∧
    fld (setFld s pPERF R.PERF.GATE 0 1 0) pPERF R.PERF.GATE 0 1 = 0 ∧ pcVal s (pTEN 0) 0 + 5 < 2 ^ 48 ∧
    s.now + 400 ≤ s.tick.edgeAt + s.tick.len ∧ pageOf (bitsOf (c.d 4) 12 14 * 0x1000) = some (pTEN 0) := by decide +kernel

theorem witness_Counters_ready : SvcReady cmd7 0xA0 (cmdOf 0xA0 1 0 [0]) (handed (cmdOf 0xA0 1 0 [0]) State.reset) :=
  ready_handed _ _ _ _ _ rfl rfl

/-! Witnesses of SpdmConnectionSessionsAndSignatures. -/

def spdmOn (x : SpdmConn) : State := putConn .i3c x { State.reset with power := { State.reset.power with phase := .running } }
def spdmReady : SpdmConn := { SpdmConn.reset with
  phase := 3, sessions := [(7, false, 0), (9, true, 0)], chunkOut := [0xAA], signed := [(1, 0, 5)] }
def spdmAsk (code : Byte) (rest : List Byte) : List Byte := [0x13, code] ++ rest

theorem witness_SpdmConnectionSessionsAndSignatures :
    let s := spdmOn spdmReady
    let w := sideFrame (atTime 60000000000 s)
    let x := getConn w .i3c
    busOpen (atTime 60000000000 s) .i3c = true ∧ busOpen (atTime 0 State.reset) .doe = false ∧ x.phase = 3 ∧ x.limit = 0 ∧
    leAt (spdmAsk 0xE1 []) 0 1 = 0x13 ∧ leAt (spdmAsk 0xE1 []) 1 1 = 0xE1 ∧ leAt (spdmAsk 0xE1 []) 12 4 = 0 ∧
    leAt [(0x10 : Byte), 0x84, 0, 0] 0 1 = 0x10 ∧
    bitOf (leAt (spdmAsk 0xE3 ([0, 0, 0, 0, 0, 0, 8, 0, 0, 0, 2, 0, 0, 0])) 8 4) 3 = true ∧
    bitOf (leAt (spdmAsk 0xE3 ([0, 0, 0, 0, 0, 0, 8, 0, 0, 0, 2, 0, 0, 0])) 12 4) 1 = true := by decide +kernel

theorem witness_SpdmSessionsChunksAndSignatures :
    let s := spdmOn spdmReady
    let w := sideFrame (atTime 60000000000 s)
    let x := getConn w .i3c
    let sig : List Byte := spdmAsk 0xFE ([0, 0, 4, 0, 4] ++ leBytes 4 0xE34D ++ [16, 0, 1, 1, 1, 0, 0, 0, 0, 0, 1, 0, 0, 0, 0, 0, 0, 0])
    let cert : List Byte := spdmAsk 0xFE ([0, 0, 4, 0, 4] ++ leBytes 4 0xE34D ++ [16, 0, 2, 1, 0, 0, 0, 0, 0, 0, 1, 0, 0, 0, 0, 0, 0, 0])
    leAt (spdmAsk 0x82 [0, 0]) 2 1 = 0 ∧ leAt (spdmAsk 0xE0 [0, 8]) 3 1 = 8 ∧ leAt (spdmAsk 0xE0 [1, 0]) 2 1 % 2 = 1 ∧
    leAt (spdmAsk 0xE0 [1, 0]) 36 1 % 16 = 0 ∧ (x.sessions.any fun e => e.1 == 7 && e.2.1 == false) = true ∧
    (x.sessions.any fun e => e.1 == 9 && e.2.1 == true) = true ∧ (x.sessions.any fun e => e.1 == 8) = false ∧
    leAt (spdmAsk 0xE9 [3, 0]) 2 1 = 3 ∧ bitOf (leAt (spdmAsk 0x85 [0, 0, 1, 0]) 2 1) 0 = false ∧
    leAt (spdmAsk 0x85 [0, 0, 1, 0]) 4 2 ≠ 0 ∧ x.chunkOut.length = 1 ∧
    (vendorReq sig).map (fun p => (leAt p 0 1, leAt p 1 1, leAt p 2 1, leAt p 4 4, leAt p 8 4)) = some (1, 1, 1, 0, 1) ∧
    mget x.signed 1 = some (0, 5) ∧
    (vendorReq cert).map (fun p => (leAt p 0 1, leAt p 1 1, leAt p 2 1, leAt p 4 4, leAt p 8 4)) = some (2, 1, 0, 0, 1) ∧
    (getConn (sideFrame State.reset) .i3c).phase < 3 := by decide +kernel

/-! Witnesses of PldmBaseAndPlatformCommands. -/

theorem witness_PldmBaseAndPlatformCommands :
    let on : State := { State.reset with power := { State.reset.power with phase := .running } }
    let w := sideFrame (atTime 5 on)
    let thr := sideFrame (setMgmt on fun m => { m with
      thresholds := [(16, { limits := [none], beyond := [false] })], events := [(1, [3, 4])] })
    busOpen (atTime 5 on) .smbus = true ∧ busOpen on .uart = false ∧ leAt [(254 : Byte)] 0 1 = 254 ∧
    leAt [(0 : Byte), 0, 0, 0, 0, 2] 5 1 = 2 ∧ leAt [(0 : Byte), 0, 0, 0, 0, 0] 5 1 = 0 ∧
    leAt [(1 : Byte), 0, 0, 0, 0, 0, 0, 0, 1, 64, 0] 8 1 = 1 ∧ isSensor 16 = true ∧ isSensor 9999 = false ∧
    mget w.mgmt.thresholds 16 = none ∧ (mget thr.mgmt.thresholds 16).isSome = true ∧
    leAt [(16 : Byte), 0, 5] 0 2 = 16 ∧ leAt [(16 : Byte), 0, 5] 2 1 = 5 ∧ leAt [(2 : Byte), 0, 8] 0 1 = 2 ∧ leAt [(2 : Byte), 0, 8] 1 1 = 0 ∧
    leAt [(0 : Byte), 0, 0, 0, 0, 0, 0, 0] 6 2 = 0 ∧ w.mgmt.events = [] ∧ thr.mgmt.events = [(1, [3, 4])] ∧
    leAt [(1 : Byte), 0, 2, 0xFF, 0xFF] 0 2 = 1 ∧ leAt [(1 : Byte), 0, 2, 0xFF, 0xFF] 3 2 = 65535 ∧
    leAt [(2 : Byte), 0, 0, 15] 3 1 = 15 ∧ leAt [(2 : Byte), 0, 0, 15] 0 2 = 2 := by decide +kernel

/-! Witnesses of StepRunsTheFrontCommand. -/

theorem witness_StepRunsTheFrontCommand :
    ({ State.reset with pending := [.mssReset 0] } : State).pending = [.mssReset 0] ∧ State.reset.pending = [] := by decide +kernel

/-! Witnesses of MemoryReadsWhatWasWritten. -/

theorem witness_MemoryReadsWhatWasWritten :
    Memory.wf [(3, 5), (9, 1)] = true ∧ Memory.wf [(9, 1), (3, 5)] = false ∧ Memory.wf [(3, 0)] = false ∧
    memWrite [(3, 5), (9, 1)] 8 [0, 0, 7] = [(3, 5), (10, 7)] ∧ (7 < 8 ∨ 8 + 3 ≤ 7) := by decide

/-! Witnesses of RegistersReadBack. -/

theorem witness_RegistersReadBack :
    mwf (setReg State.reset pTICK 0 5).regs = true ∧ pageAt pTICK 4 ≠ pageAt pTICK 0 := by decide +kernel

/-! Ill-formed operands: for each kind of check a command that it refuses. -/

/-- Instances beyond a block type's pages. -/
theorem test_wf_page : Instr.wf (.blkCommit 0 ⟨.glb, 1⟩) = false ∧ Instr.wf (.snapValidClear ⟨.tile, 32⟩) = false ∧
    Instr.wf (.blkStopped 0 ⟨.link, 48⟩) = false := by decide

/-- A function, queue pair or CID out of range in a command reference. -/
theorem test_wf_command_reference : Instr.wf (.cmdNop ⟨1012, 0, 0⟩) = false ∧ Instr.wf (.cmdNop ⟨0, 64, 0⟩) = false ∧
    Instr.wf (.cmdNop ⟨0, 0, 65536⟩) = false ∧ Instr.wf (.cmdNop ⟨1011, 63, 65535⟩) = true := by decide

/-- Accesses from a function or core that does not exist. -/
theorem test_wf_agent : Instr.wf (.tickCountLoRead (.func 1012, 0)) = false ∧ Instr.wf (.tickCountLoRead (.core 37, 0)) = false := by decide

/-- Ilesh instructions: core, width, length, registers. -/
theorem test_wf_ilesh : Instr.wf (.nop { il [1] with core := 37 }) = false ∧ Instr.wf (.nop (il [1] 4)) = false ∧
    Instr.wf (.nop (il [])) = false ∧ Instr.wf (.nop (il (List.replicate 16 1))) = false ∧
    Instr.wf (.add (il [0x10, 0x12]) 16 0) = false ∧ Instr.wf (.add (il [0x10, 0x12]) 0 16) = false ∧
    Instr.wf (.cas (il [0x39, 0xFF, 0xF0]) 15 15 15) = true := by decide

/-- Tiles, engines, cores, links, lanes and ports. -/
theorem test_wf_indices : Instr.wf (.droopRelease 0 32) = false ∧ Instr.wf (.itemExpiry 0 4 ⟨0, 0, 0⟩ 0) = false ∧
    Instr.wf (.interruptTake 37) = false ∧ Instr.wf (.retrain 0 48) = false ∧ Instr.wf (.laneFault 0 0 2) = false ∧
    Instr.wf (.perst 0 2) = false ∧ Instr.wf (.flr 0 1012) = false ∧ Instr.wf (.ptpMessage 0 16 0 true 0 0) = false ∧
    Instr.wf (.portDownLimit 32) = false ∧ Instr.wf (.subportDown 0 16) = false ∧ Instr.wf (.pfcPauseExpiry 0 0 8) = false ∧
    Instr.wf (.gateEntry 0 4) = false ∧ Instr.wf (.vfDisable 0 4) = false ∧ Instr.wf (.dieUnresponsive 0 1024) = false ∧
    Instr.wf (.memcRecal 0 16 0) = false ∧ Instr.wf (.memcRecal 0 0 4) = false ∧ Instr.wf (.abort 0 0 0 65536) = false ∧
    Instr.wf (.counterWrap ⟨.glb, 0⟩ 8 1) = false ∧ Instr.wf (.spliceRollback 0 0 256 0) = false := by decide

/-! Worked examples of the manual. -/

/-- The worked motion token (R175) with no residual: vector (−24, +6) in half samples, distance 3, energy 31 a sample. -/
theorem test_motion_token :
    motionToken 0 1 ⟨0, 0, 16, 16⟩ false ⟨[⟨⟨0, 0, 16, 16⟩, .forward, 1, -24, 6, 3, 0, 0, 0⟩], [⟨⟨0, 0, 16, 16⟩, false, 0, 0, 0, 31 * 256⟩]⟩ =
      0x1301_0FFC_0000_0050 := by decide

/-- The state of a next outcome. -/
abbrev after : Host.Outcome State Fault Refusal → State
  | .next s => s
  | _ => State.reset

/-- Core 36 after a command. -/
abbrev core36 (o : Host.Outcome State Fault Refusal) : Core := getCore (after o) 36

/-- The worked timecode example: 01:10:59;28 and 4 frames at rate 3 (after R245). -/
theorem test_tcadd_example : let c := core36 (exec (.tcadd (il [0xF0, 0x10, 0x12, 3]) 1 2 3) (regs36 0x01105928 4))
    gReg c 1 = 0x01110004 ∧ c.flags.testBit fDC = false ∧ c.flags.testBit fBI = false ∧ c.flags.testBit fZ = false := by decide

theorem test_tcadd_day : let c := core36 (exec (.tcadd (il [0xF0, 0x10, 0x12, 3]) 1 2 3) (regs36 0x23595929 1))
    gReg c 1 = 0 ∧ c.flags.testBit fDC = true := by decide

theorem test_tcsub_example :
    gReg (core36 (exec (.tcsub (il [0xF0, 0x11, 0x12, 3]) 1 2 3) (regs36 0x01110004 0x01105928))) 1 = 4 := by decide

/-- An 8-bit ADD of 0x99 and 0x01, then DAA (after R239). -/
theorem test_add_then_daa : let s := after (exec (.add (il [0xF4, 0x10, 0x12] 3) 1 2) (regs36 0x99 1))
    let c := core36 (exec (.daa (il [0xF0, 1, 0x10]) 1) s)
    gReg (getCore s 36) 1 = 0x9A ∧ (getCore s 36).flags.testBit fH = false ∧ gReg c 1 = 0 ∧ c.flags.testBit fC = true ∧
      c.flags.testBit fDC = true := by decide

/-- BCDADD of 0x0999 and 0x0001 (after R241). -/
theorem test_bcdadd_example : let c := core36 (exec (.bcdadd (il [0xF0, 4, 0x12]) 1 2) (regs36 0x0999 1))
    gReg c 1 = 0x1000 ∧ c.flags.testBit fH = true ∧ c.flags.testBit fDC = false ∧ c.flags.testBit fZ = false := by decide

/-- A CALL at 16 entries in trap mode raises RS_OVER: ECAUSE 8, EINFO 16, the core at EVB + 0x200 (worked example after R250, in local SRAM of core 36). -/
theorem test_call_over : let s := putCore 36 { getCore State.reset 36 with
      pc := 0x10042A10, evb := some 0x10000, cctl := 3, stack := List.replicate 16 ⟨0x42A15, 0, false, 0⟩ } State.reset
    let c := core36 (exec (.call (il [0x48, 0xFF, 0xFF, 0xFF, 0xFF]) (-1)) s)
    c.epc = 0x10042A10 ∧ c.ecause = 8 ∧ c.einfo = 16 ∧ c.pc = 0x10200 ∧ c.stack.length = 16 := by decide

/-- Epoch 0x0002 is newer than 0xFFF0 (R9). -/
theorem test_epoch_example : epochNewer 2 0xFFF0 = true ∧ epochNewer 0xFFF0 2 = false := by decide

/-- Class 2 with a payload of 4,096: 44 ns on an 800G port (after R348). -/
theorem test_guard_band_800 : guardBand (setFld State.reset pEGS (R.EGS.CLASS_SH + 8) 20 2 2) 0 2 = 44 := by decide +kernel

/-- The same on a 200G sub-port: 176 ns. -/
theorem test_guard_band_200 :
    guardBand (setFld (setFld State.reset pEGS (R.EGS.CLASS_SH + 8) 20 2 2) (pETH 0) R.ETH.STAT 4 2 2) 0 2 = 176 := by decide +kernel

/-- A trigger of source 2, mode 0, sequence 0x12: SNAP_STAT is 0x8800_0012, as in the worked example of the tick chapter. -/
theorem test_snap_stat : reg (latchPage 2 0 0x12 0 ⟨.feed, 0⟩ State.reset) ⟨.feed, 0⟩ R.SNAP_STAT = 0x88000012 := by decide +kernel

/-- A codeword's body is data, entries and a tag of 32 bytes: 4,096 + 128 + 32 bytes before its parity (R418). -/
theorem test_ftl_tag : (ftlTag 1 2 3 0).length = 32 ∧ leAt (ftlTag 1 2 3 0) 4 8 = 2 ∧
    leAt (ftlTag 1 2 3 0) 28 4 = crc32c ((ftlTag 1 2 3 0).take 28) := by decide +kernel

end Sys2Proof.Tests
end

/-! SUPPORT. Memory: what a read returns after writes and clears of bytes (R5, R204, R229). -/

namespace Sys2Proof.Machine

section
variable {m : Memory}

theorem memGet_memSet (h : m.wf = true) (a x : Nat) (b : Byte) : memGet (memSet m a b) x = if x = a then b else memGet m x :=
  mgetD_mputD a 0 b (Memory.wf_iff.mp h).1 x

/-- A list of bytes leaves every address outside it as it was. -/
theorem memGet_memWrite_outside (h : m.wf = true) {a x : Nat} {l : List Byte} (hx : x < a ∨ a + l.length ≤ x) :
    memGet (memWrite m a l) x = memGet m x := by
  induction l generalizing m a with
  | nil => rfl
  | cons b l ih =>
    rw [List.length_cons] at hx
    rw [memWrite, ih (memSet_wf a b h) (by omega), memGet_memSet h, if_neg (by omega)]

/-- The head of the list stands below what the rest of the list writes. -/
theorem memRead_memWrite (h : m.wf = true) (a : Nat) (l : List Byte) : memRead (memWrite m a l) a l.length = l := by
  induction l generalizing m a with
  | nil => rfl
  | cons b l ih =>
    have head : memGet (memWrite (memSet m a b) (a + 1) l) a = b := by
      rw [memGet_memWrite_outside (memSet_wf a b h) (by omega), memGet_memSet h, if_pos rfl]
    rw [memWrite, List.length_cons, memRead, head, ih (memSet_wf a b h)]

theorem memGet_memClear (m : Memory) (lo hi x : Nat) :
    memGet (memClear m lo hi) x = if lo ≤ x ∧ x < hi then 0 else memGet m x := by
  have kept := mget_filter m (fun k => !(decide (lo ≤ k) && decide (k < hi))) x
  unfold memGet memClear mgetD
  rw [kept]
  by_cases hx : lo ≤ x ∧ x < hi
  · simp [hx]
  · rw [if_pos (by simp only [Bool.not_eq_true', Bool.and_eq_false_iff, decide_eq_false_iff_not]; omega), if_neg hx]

end

/-- Settles O59: bytes and lists of bytes read back, by induction on the list written. -/
theorem memoryReadsWhatWasWritten : Obligations.MemoryReadsWhatWasWritten := by
  intro m a x hi b l h
  exact ⟨memGet_memSet h a x b, memRead_memWrite h a l, memGet_memWrite_outside h, memGet_memClear m a hi x⟩

end Sys2Proof.Machine

/-! SUPPORT. Registers and shadows: one that is set reads back, and what it leaves unchanged (R8, R10). -/

namespace Sys2Proof.Machine

/-- A key other than the deleted one reads as before, in any map. -/
theorem mget_mdel_of_ne {α : Type} (m : List (Nat × α)) {k x : Nat} (h : x ≠ k) : mget (mdel m k) x = mget m x := by
  induction m with
  | nil => rfl
  | cons e m ih =>
    obtain ⟨a, w⟩ := e
    rw [mdel]; split
    · rw [mget, if_neg (by omega)]
    · rw [mget, mget, ih]

theorem mget_mputD_of_ne {α : Type} [DecidableEq α] (m : List (Nat × α)) {k x : Nat} (d v : α) (h : x ≠ k) :
    mget (mputD m k d v) x = mget m x := by
  unfold mputD; split
  · exact mget_mdel_of_ne m h
  · rw [mget_mput, if_neg h]

theorem getReg_eq_mgetD (s : State) (p : Page) (off : Nat) : getReg s p off = mgetD s.regs (pageAt p off) (resetReg p off) := by
  unfold getReg mgetD; split <;> simp [*]

theorem getShadow_eq_mgetD (s : State) (p : Page) (off : Nat) :
    getShadow s p off = mgetD s.shadow (pageAt p off) (resetReg p off) := by
  unfold getShadow mgetD; split <;> simp [*]

section
variable {s : State}

theorem getReg_setReg_same (h : mwf s.regs = true) (p : Page) (off : Nat) (v : Dword) : getReg (setReg s p off v) p off = v := by
  rw [getReg_eq_mgetD, setReg_regs, mgetD_mputD _ _ _ h, if_pos rfl]

theorem getShadow_setShadow_same (h : mwf s.shadow = true) (p : Page) (off : Nat) (v : Dword) :
    getShadow (setShadow s p off v) p off = v := by
  rw [getShadow_eq_mgetD, setShadow_shadow, mgetD_mputD _ _ _ h, if_pos rfl]

theorem getReg_setReg_of_ne {p q : Page} {off o : Nat} (v : Dword) (h : pageAt q o ≠ pageAt p off) :
    getReg (setReg s p off v) q o = getReg s q o := by
  rw [getReg_eq_mgetD, getReg_eq_mgetD, setReg_regs, mgetD, mgetD, mget_mputD_of_ne _ _ _ h]

theorem getShadow_setShadow_of_ne {p q : Page} {off o : Nat} (v : Dword) (h : pageAt q o ≠ pageAt p off) :
    getShadow (setShadow s p off v) q o = getShadow s q o := by
  rw [getShadow_eq_mgetD, getShadow_eq_mgetD, setShadow_shadow, mgetD, mgetD, mget_mputD_of_ne _ _ _ h]

/-- A register that is set to its reset value is not listed. -/
theorem mget_setReg_resetReg (h : mwf s.regs = true) (p : Page) (off : Nat) :
    mget (setReg s p off (resetReg p off)).regs (pageAt p off) = none := by
  rw [setReg_regs, mputD, if_pos rfl, mget_mdel _ h, if_pos rfl]

end

/-- Settles O60: a register and its shadow are the entry of their map at the BAR0 offset, the reset value where none is listed. -/
theorem registersReadBack : Obligations.RegistersReadBack := by
  intro p q off o v s hr hs
  exact ⟨getReg_setReg_same hr p off v, getShadow_setShadow_same hs p off v, rfl, rfl,
    fun hne => ⟨getReg_setReg_of_ne v hne, getShadow_setShadow_of_ne v hne⟩, mget_setReg_resetReg hr p off⟩

end Sys2Proof.Machine

/-! SUPPORT. The state after reset (R10, R57). -/

namespace Sys2Proof.Machine

/-- At reset no map lists an entry. -/
theorem reset_canon : State.reset.Canon := ⟨rfl, rfl, rfl, rfl, rfl, rfl, rfl, rfl⟩

/-- Settles O58: the maps of the reset state are empty, so that every register reads its reset value. -/
theorem resetStateIsWellKept : Obligations.ResetStateIsWellKept :=
  ⟨⟨reset_canon, rfl, Nat.zero_le _⟩, fun _ _ => ⟨rfl, rfl⟩, rfl, fun _ => rfl, rfl, rfl, rfl, rfl⟩

end Sys2Proof.Machine

/-! SUPPORT. Bit fields of a word: what a field reads after bits were replaced. -/

namespace Sys2Proof.Machine

/-- A word in three parts: what stands above a field, the field, what stands below it. -/
theorem eq_parts (w lo n : Nat) : w = 2 ^ lo * (2 ^ n * (w / 2 ^ lo / 2 ^ n) + bitsOf w lo n) + w % 2 ^ lo := by
  rw [bitsOf, Nat.div_add_mod, Nat.div_add_mod]

theorem withBits_eq_parts (w lo n v : Nat) :
    withBits w lo n v = 2 ^ lo * (2 ^ n * (w / 2 ^ lo / 2 ^ n) + v % 2 ^ n) + w % 2 ^ lo := by
  have hw := eq_parts w lo n
  rw [Nat.mul_add] at hw ⊢
  rw [withBits, Nat.mul_comm (bitsOf w lo n), Nat.mul_comm (v % 2 ^ n)]
  omega

theorem withBits_mod (w lo n v : Nat) : withBits w lo n v % 2 ^ lo = w % 2 ^ lo := by
  rw [withBits_eq_parts, Nat.mul_add_mod, Nat.mod_mod]

theorem withBits_div (w lo n v : Nat) : withBits w lo n v / 2 ^ lo = 2 ^ n * (w / 2 ^ lo / 2 ^ n) + v % 2 ^ n := by
  rw [withBits_eq_parts, Nat.mul_add_div (by positivity), Nat.div_eq_of_lt (Nat.mod_lt _ (by positivity)), Nat.add_zero]

/-- The bits put in read back. -/
theorem bitsOf_withBits_same (w lo n v : Nat) : bitsOf (withBits w lo n v) lo n = v % 2 ^ n := by
  rw [bitsOf, withBits_div, Nat.mul_add_mod, Nat.mod_mod]

/-- A field depends on no bit from `m` upwards when it ends at or below `m`. -/
theorem bitsOf_mod {lo n m : Nat} (h : lo + n ≤ m) (w : Nat) : bitsOf (w % 2 ^ m) lo n = bitsOf w lo n := by
  obtain ⟨k, rfl⟩ := Nat.exists_eq_add_of_le h
  rw [bitsOf, bitsOf, Nat.add_assoc, pow_add 2 lo, Nat.mod_mul_right_div_self,
    Nat.mod_mod_of_dvd _ (pow_dvd_pow 2 (Nat.le_add_right n k))]

/-- A field depends on no bit below `m` when it begins at or above `m`. -/
theorem bitsOf_div {lo n m : Nat} (h : m ≤ lo) (w : Nat) : bitsOf w lo n = bitsOf (w / 2 ^ m) (lo - m) n := by
  rw [bitsOf, bitsOf, Nat.div_div_eq_div_mul, ← pow_add, Nat.add_sub_cancel' h]

/-- Bits replaced elsewhere leave a field as it was. -/
theorem bitsOf_withBits_of_disjoint {lo n lo' n' : Nat} (h : lo + n ≤ lo' ∨ lo' + n' ≤ lo) (w v : Nat) :
    bitsOf (withBits w lo n v) lo' n' = bitsOf w lo' n' := by
  rcases h with h | h
  · have above : withBits w lo n v / 2 ^ (lo + n) = w / 2 ^ (lo + n) := by
      rw [pow_add, ← Nat.div_div_eq_div_mul, ← Nat.div_div_eq_div_mul, withBits_div, Nat.mul_add_div (by positivity),
        Nat.div_eq_of_lt (Nat.mod_lt v (by positivity)), Nat.add_zero]
    rw [bitsOf_div h, above, ← bitsOf_div h]
  · rw [← bitsOf_mod h, withBits_mod, bitsOf_mod h]

theorem bitsOf_lt (w lo n : Nat) : bitsOf w lo n < 2 ^ n := Nat.mod_lt _ (by positivity)

/-- A field replaced by itself changes nothing. -/
theorem withBits_self (w lo n : Nat) : withBits w lo n (bitsOf w lo n) = w := by
  rw [withBits_eq_parts, Nat.mod_eq_of_lt (bitsOf_lt w lo n), ← eq_parts]

end Sys2Proof.Machine

/-! SUPPORT. The fields of a register: they stand side by side in 32 bits, so that a write that takes its fields one after
another gives each what its own rule says (R8). -/

namespace Sys2Proof.Machine

/-- The number of bits of a field. -/
def fieldWidth (f : RegField) : Nat := f.hi + 1 - f.lo

/-- Two fields share no bit. -/
abbrev FieldsApart (f g : RegField) : Prop := f.hi < g.lo ∨ g.hi < f.lo

/-- Fields that lie in a 32-bit register, no two of them on one bit. -/
abbrev FieldsFit (fs : List RegField) : Prop := fs.Pairwise FieldsApart ∧ ∀ f ∈ fs, f.lo ≤ f.hi ∧ f.hi < 32

theorem commonRows_fit : ∀ r ∈ commonRows, FieldsFit r.fields := by decide

theorem ownRows_fit (ty : PageType) : ∀ r ∈ ownRows ty, FieldsFit r.fields := by cases ty <;> decide

/-- Another access type or reset value leaves the fields where they are. -/
theorem FieldsFit.retype {fs : List RegField} (h : FieldsFit fs) (ty : Access) (reset : Nat) :
    FieldsFit (fs.map fun f => { f with ty := ty, reset := reset }) :=
  ⟨List.pairwise_map.mpr h.1, by simpa using h.2⟩

theorem rowAt_mem {rows : List RegRow} {off : Nat} {r : RegRow} (h : rowAt rows off = some r) : r ∈ rows :=
  List.mem_of_find?_eq_some h

theorem fieldsFit_nil : FieldsFit [] := ⟨List.Pairwise.nil, by simp⟩

theorem pennantBits_fit (ty : PageType) : FieldsFit (pennantBits ty) := by
  unfold pennantBits; split
  · exact ownRows_fit ty _ (rowAt_mem ‹_›)
  · exact fieldsFit_nil

/-- The fields of every register of every page fit. -/
theorem fieldsAt_fit (ty : PageType) (off : Nat) : FieldsFit (fieldsAt ty off) := by
  unfold fieldsAt
  split
  · exact (pennantBits_fit ty).retype _ _
  split
  · exact (pennantBits_fit ty).retype _ _
  split
  · exact commonRows_fit _ (rowAt_mem ‹_›)
  split
  · exact ownRows_fit ty _ (rowAt_mem ‹_›)
  · exact fieldsFit_nil

/-- Puts into a field what `val` makes of its bits. -/
def putField (val : RegField → Nat → Nat) (w : Nat) (f : RegField) : Nat :=
  withBits w f.lo (fieldWidth f) (val f (bitsOf w f.lo (fieldWidth f)))

section
variable {val : RegField → Nat → Nat} {f : RegField} {fs : List RegField}

/-- Fields apart from `f` leave its bits as they were. -/
theorem bitsOf_putField_apart {g : RegField} (h : FieldsApart g f) (hf : f.lo ≤ f.hi) (hg : g.lo ≤ g.hi) (w : Nat) :
    bitsOf (putField val w g) f.lo (fieldWidth f) = bitsOf w f.lo (fieldWidth f) :=
  bitsOf_withBits_of_disjoint (by unfold FieldsApart at h; unfold fieldWidth; omega) w _

theorem bitsOf_putFields_apart (hf : f.lo ≤ f.hi) (h : ∀ g ∈ fs, FieldsApart g f ∧ g.lo ≤ g.hi) (w : Nat) :
    bitsOf (fs.foldl (putField val) w) f.lo (fieldWidth f) = bitsOf w f.lo (fieldWidth f) := by
  induction fs generalizing w with
  | nil => rfl
  | cons g fs ih =>
    obtain ⟨hg, hle⟩ := h g (by simp)
    rw [List.foldl_cons, ih fun x hx => h x (List.mem_cons_of_mem _ hx), bitsOf_putField_apart hg hf hle]

/-- Each field takes its own value, whatever the fields before and after it take. -/
theorem bitsOf_putFields (h : FieldsFit fs) (hf : f ∈ fs) (w : Nat) :
    bitsOf (fs.foldl (putField val) w) f.lo (fieldWidth f) = val f (bitsOf w f.lo (fieldWidth f)) % 2 ^ fieldWidth f := by
  induction fs generalizing w with
  | nil => simp at hf
  | cons g fs ih =>
    obtain ⟨hp, hb⟩ := h
    obtain ⟨hg, hp⟩ := List.pairwise_cons.mp hp
    have hb' : ∀ x ∈ fs, x.lo ≤ x.hi ∧ x.hi < 32 := fun x hx => hb x (List.mem_cons_of_mem _ hx)
    rw [List.foldl_cons]
    rcases List.mem_cons.mp hf with rfl | hf
    · rw [bitsOf_putFields_apart (hb f (by simp)).1 fun x hx => ⟨Or.symm (hg x hx), (hb' x hx).1⟩, putField, bitsOf_withBits_same]
    · rw [ih ⟨hp, hb'⟩ hf, bitsOf_putField_apart (hg f hf) (hb' f hf).1 (hb g (by simp)).1]

end

end Sys2Proof.Machine

/-! SUPPORT. A software write of a register, field by field (R8). -/

namespace Sys2Proof.Machine

/-- What a write of `v` leaves of a field's old bits in force (R8). -/
def writtenField (s : State) (a : Agent) (p : Page) (off v : Nat) (f : RegField) (old : Nat) : Nat :=
  match viewType a p off f with
  | .rw => bitsOf v f.lo (fieldWidth f)
  | .w1c => old &&& (2 ^ fieldWidth f - 1 - bitsOf v f.lo (fieldWidth f))
  | .w1s => old ||| bitsOf v f.lo (fieldWidth f)
  | .rwl => if blkLocked s p then old else bitsOf v f.lo (fieldWidth f)
  | _ => old

/-- What a write of `v` leaves of a field's old bits in the shadow (R8, RWS). -/
def writtenShadow (a : Agent) (p : Page) (off v : Nat) (f : RegField) (old : Nat) : Nat :=
  if viewType a p off f = .rws then bitsOf v f.lo (fieldWidth f) else old

/-- A write puts each field's new bits into the register in force and into the shadow. -/
theorem writeFields_eq (s : State) (a : Agent) (p : Page) (off v : Nat) :
    writeFields s a p off v = putShadow
      (setRegN s p off ((fieldsAt p.ty off).foldl (putField (writtenField s a p off v)) (reg s p off))) p off
      ((fieldsAt p.ty off).foldl (putField (writtenShadow a p off v)) (shadowOf s p off)) := by
  simp only [writeFields]
  congr 2
  · congr 1
    funext w f
    unfold putField writtenField fieldWidth
    cases viewType a p off f <;> simp only [withBits_self]
    split <;> simp only [withBits_self]
  · funext w f
    unfold putField writtenShadow fieldWidth
    split <;> simp only [withBits_self]

section
variable {s : State} {a : Agent} {p : Page} {off v : Nat} {f : RegField}

/-- A field's new bits fit it. -/
theorem writtenField_lt {old : Nat} (h : old < 2 ^ fieldWidth f) : writtenField s a p off v f old < 2 ^ fieldWidth f := by
  have hw := bitsOf_lt v f.lo (fieldWidth f)
  unfold writtenField
  cases viewType a p off f with
  | rw => exact hw
  | w1c => exact Nat.lt_of_le_of_lt Nat.and_le_left h
  | w1s => exact Nat.or_lt_two_pow h hw
  | rwl => dsimp only; split <;> assumption
  | ro | wo | rws | rsv => exact h

/-! ### What setting a shadow leaves unchanged -/

@[simp] theorem putShadow_regs : (putShadow s p off v).regs = s.regs := by
  unfold putShadow; split <;> rfl

theorem mget_putShadow_of_ne {k : Nat} (h : k ≠ pageAt p off) : mget (putShadow s p off v).shadow k = mget s.shadow k := by
  unfold putShadow; split
  · rfl
  · exact mget_mputD_of_ne _ _ _ h

/-- Whether a register is a view of a table entry depends on no state. -/
theorem tabSlot_eq_none {t : State} (h : tabSlot s p off = none) : tabSlot t p off = none := by
  unfold tabSlot at h ⊢
  cases hty : p.ty <;> simp only [hty] at h ⊢
  case feed | rmt | egs | nvme =>
    split_ifs at h with inShadow inForce
    rw [if_neg inShadow, if_neg inForce]

theorem putShadow_of_no_slot (h : tabSlot s p off = none) : putShadow s p off v = setShadow s p off (BitVec.ofNat 32 v) := by
  simp only [putShadow, h]

/-! ### What a write leaves in each field -/

/-- A field within 32 bits reads the same of the register that holds the word. -/
theorem bitsOf_toNat_ofNat (hb : f.lo ≤ f.hi ∧ f.hi < 32) (w : Nat) :
    bitsOf (BitVec.ofNat 32 w).toNat f.lo (fieldWidth f) = bitsOf w f.lo (fieldWidth f) := by
  rw [BitVec.toNat_ofNat]
  exact bitsOf_mod (by unfold fieldWidth; omega) w

theorem fld_writeFields (h : mwf s.regs = true) (hf : f ∈ fieldsAt p.ty off) :
    fld (writeFields s a p off v) p off f.lo (fieldWidth f) = writtenField s a p off v f (fld s p off f.lo (fieldWidth f)) := by
  have fit := fieldsAt_fit p.ty off
  rw [writeFields_eq, fld, reg, getReg_eq_mgetD, putShadow_regs, ← getReg_eq_mgetD, setRegN, getReg_setReg_same h,
    bitsOf_toNat_ofNat (fit.2 f hf), bitsOf_putFields fit hf, Nat.mod_eq_of_lt (writtenField_lt (bitsOf_lt _ _ _)), fld]

theorem shadow_writeFields (h : mwf s.shadow = true) (hslot : tabSlot s p off = none) (hf : f ∈ fieldsAt p.ty off)
    (hty : viewType a p off f = .rws) :
    bitsOf (getShadow (writeFields s a p off v) p off).toNat f.lo (fieldWidth f) = bitsOf v f.lo (fieldWidth f) := by
  have fit := fieldsAt_fit p.ty off
  rw [writeFields_eq, putShadow_of_no_slot (tabSlot_eq_none hslot), getShadow_setShadow_same (by exact h),
    bitsOf_toNat_ofNat (fit.2 f hf), bitsOf_putFields fit hf, writtenShadow, if_pos hty, Nat.mod_eq_of_lt (bitsOf_lt _ _ _)]

theorem regs_writeFields_of_ne {k : Nat} (h : k ≠ pageAt p off) : mget (writeFields s a p off v).regs k = mget s.regs k := by
  rw [writeFields_eq, putShadow_regs]
  exact mget_mputD_of_ne _ _ _ h

theorem shadow_writeFields_of_ne {k : Nat} (h : k ≠ pageAt p off) :
    mget (writeFields s a p off v).shadow k = mget s.shadow k := by
  rw [writeFields_eq, mget_putShadow_of_ne h]; rfl

/-- A write changes registers and shadows alone. -/
theorem writeFields_frame : { writeFields s a p off v with regs := s.regs, shadow := s.shadow, tabSh := s.tabSh } = s := by
  rw [writeFields_eq]; unfold putShadow; split <;> rfl

end

/-- Settles O23: the fields of a register stand apart, so that each takes what its access type makes of its own bits. -/
theorem registerFieldsTakeWritesByAccess : Obligations.RegisterFieldsTakeWritesByAccess := by
  intro a p off v s f hregs _ _ hf
  refine ⟨?_, fun hty hslot hsh => shadow_writeFields hsh hslot hf hty, fun _ => regs_writeFields_of_ne,
    fun _ => shadow_writeFields_of_ne, writeFields_frame⟩
  have new := fld_writeFields (a := a) (v := v) hregs hf
  unfold writtenField fieldWidth at new
  cases hty : viewType a p off f <;> simpa only [hty] using new

end Sys2Proof.Machine

/-! SUPPORT. Where a page stands in the map (R94), and which accesses R91 takes. -/

namespace Sys2Proof.Machine

theorem pageBase_mod (ty : PageType) : pageBase ty % 0x1000 = 0 := by cases ty <;> rfl

section
variable {a : Agent} {p : Page} {addr off : Nat} {s : State}

/-- An offset of the map is that of its page and the rest. -/
theorem pageAt_of_pageOf (h : pageOf addr = some p) : pageAt p (addr % 0x1000) = addr := by
  obtain ⟨ty, -, hty⟩ := List.exists_of_findSome?_eq_some h
  split at hty
  next hin =>
    obtain rfl := Option.some.inj hty
    have := pageBase_mod ty
    simp only [pageAt]
    omega
  next => cases hty

/-- The upper half of an aligned 64-bit access lies in the page of the lower. -/
theorem pageOf_add_four (h : addr % 8 = 0) : pageOf (addr + 4) = pageOf addr := by
  unfold pageOf
  congr 1
  funext ty
  have := pageBase_mod ty
  have hin : (pageBase ty ≤ addr + 4 ∧ addr + 4 < pageBase ty + 0x1000 * pageInstances ty) ↔
      (pageBase ty ≤ addr ∧ addr < pageBase ty + 0x1000 * pageInstances ty) := by omega
  simp only [hin]
  split
  · rw [show (addr + 4 - pageBase ty) / 0x1000 = (addr - pageBase ty) / 0x1000 by omega]
  · rfl

theorem sees_present (h : sees s a p = true) : pagePresent s p = true := by
  simp only [sees, Bool.and_eq_true] at h
  exact h.1

theorem badAccess_eq_false {size : Nat} (hp : pageOf addr = some p) (hs : pagePresent s p = true)
    (hal : alignedAccess addr size = true) : badAccess s addr size = false := by
  simp [badAccess, hp, hs, hal]

/-! ### Writes of a register that the agent sees -/

/-- The address is that of the register at `off` of page `p`, which the agent sees. -/
def Reaches (s : State) (a : Agent) (p : Page) (addr off : Nat) : Prop :=
  pageOf addr = some p ∧ addr % 0x1000 = off ∧ off % 4 = 0 ∧ sees s a p = true

/-- A register with no command of its own is none of the registers that have one on every page. -/
theorem off_of_not_ownWrite (h : ownWrite p off = false) : off ≠ R.PENNANT ∧ off ≠ R.PENNANT_FORCE ∧ off ≠ R.BLK_COMMIT ∧
    off ≠ R.SNAP_STAT ∧ ¬ (R.PC_CTL ≤ off ∧ off < R.PC_CTL + 32) := by
  simp only [ownWrite, Bool.or_eq_false_iff, beq_eq_false_iff_ne, Bool.and_eq_false_iff, decide_eq_false_iff_not] at h
  obtain ⟨⟨⟨⟨⟨h1, h2⟩, h3⟩, h4⟩, h5⟩, -⟩ := h
  exact ⟨h1, h2, h3, h4, by omega⟩

theorem ownWrite_blkCtl (p : Page) : ownWrite p R.BLK_CTL = false := by
  obtain ⟨ty, inst⟩ := p
  cases ty <;> rfl

/-- A 32-bit write in a page that is present is the write of the register. -/
theorem exec_registerWrite_word (hp : pageOf addr = some p) (hal : addr % 4 = 0) (hs : pagePresent s p = true) (v : Dword) :
    exec (.registerWrite a addr v none) s = .next (deviceWrite a addr v.toNat s) := by
  have hb : badAccess s addr 4 = false := badAccess_eq_false hp hs (by simp [alignedAccess, hal])
  simp [exec_registerWrite, execRegisterWrite, deviceStore, hb, Nat.mod_eq_of_lt v.isLt]

/-- A 64-bit write in a page that is present is two, the lower address first. -/
theorem exec_registerWrite_pair (hp : pageOf addr = some p) (hal : addr % 8 = 0) (hs : pagePresent s p = true) (v w : Dword) :
    exec (.registerWrite a addr v (some w)) s =
      .next (deviceWrite a (addr + 4) w.toNat (deviceWrite a addr v.toNat s)) := by
  have hb : badAccess s addr 8 = false := badAccess_eq_false hp hs (by simp [alignedAccess, hal])
  have hlo : (v.toNat + 2 ^ 32 * w.toNat) % 2 ^ 32 = v.toNat := by rw [Nat.add_mul_mod_self_left, Nat.mod_eq_of_lt v.isLt]
  have hhi : (v.toNat + 2 ^ 32 * w.toNat) / 2 ^ 32 = w.toNat := by
    rw [Nat.add_mul_div_left _ _ (by positivity), Nat.div_eq_of_lt v.isLt, Nat.zero_add]
  simp only [exec_registerWrite, execRegisterWrite, deviceStore, hb, hlo, hhi, Bool.false_eq_true, if_false, if_true]

theorem deviceWrite_unseen (hp : pageOf addr = some p) (hs : sees s a p = false) (v : Nat) : deviceWrite a addr v s = s := by
  simp [deviceWrite, hp, hs]

section
variable (h : Reaches s a p addr off)
include h

theorem Reaches.exec_eq (v : Dword) : exec (.registerWrite a addr v none) s = .next (deviceWrite a addr v.toNat s) := by
  obtain ⟨hp, rfl, hal, hs⟩ := h
  exact exec_registerWrite_word hp (by omega) (sees_present hs) v

/-- What a write of a register does, by the register's offset. -/
theorem Reaches.deviceWrite_pennant (ho : off = R.PENNANT) (v : Dword) :
    deviceWrite a addr v.toNat s = thenState (execPennantWrite a p v s) s := by
  obtain ⟨hp, rfl, -, hs⟩ := h
  simp [deviceWrite, hp, hs, ho]

theorem Reaches.deviceWrite_pennantForce (ho : off = R.PENNANT_FORCE) (v : Dword) :
    deviceWrite a addr v.toNat s = thenState (execPennantForce a p v s) s := by
  obtain ⟨hp, rfl, -, hs⟩ := h
  simp [deviceWrite, hp, hs, ho]

theorem Reaches.deviceWrite_blkCtl (ho : off = R.BLK_CTL) (v : Nat) : deviceWrite a addr v s = blkCtlWrite a p v s := by
  obtain ⟨hp, rfl, -, hs⟩ := h
  simp [deviceWrite, hp, hs, ho]

theorem Reaches.deviceWrite_blkCommit (ho : off = R.BLK_COMMIT) (v : Nat) :
    deviceWrite a addr v s = if bitOf v 0 then commitReq s.now p s else s := by
  obtain ⟨hp, rfl, -, hs⟩ := h
  simp [deviceWrite, hp, hs, ho]

theorem Reaches.deviceWrite_plain (hown : ownWrite p off = false) (ho : off ≠ R.BLK_CTL) (v : Nat) :
    deviceWrite a addr v s = plainWrite a addr v s := by
  obtain ⟨hp, rfl, -, hs⟩ := h
  obtain ⟨h1, h2, h3, h4, h5⟩ := off_of_not_ownWrite hown
  simp only [deviceWrite, hp, hs, not_true_eq_false, if_false, if_neg h1, if_neg h2, if_neg ho, if_neg h3, if_neg h4,
    if_neg h5, hown, Bool.false_eq_true, not_false_eq_true, if_true]

theorem Reaches.deviceWrite_glbDrvAbi (hty : p.ty = .glb) (ho : off = R.GLB.DRV_ABI) (v : Dword) :
    deviceWrite a addr v.toNat s = thenState (execGlbDrvAbi v s) s := by
  obtain ⟨hp, rfl, -, hs⟩ := h
  have noCounter : ¬ (R.PC_CTL ≤ R.GLB.DRV_ABI ∧ R.GLB.DRV_ABI < R.PC_CTL + 32) := by decide
  simp only [deviceWrite, hp, hs, ho, noCounter]; simp [hty, ownWrite]

theorem Reaches.deviceWrite_funcDrvAbi (hty : p.ty = .func) (ho : off = R.FUNC.DRV_ABI) (v : Dword) :
    deviceWrite a addr v.toNat s = thenState (execFuncDrvAbi p.inst v s) s := by
  obtain ⟨hp, rfl, -, hs⟩ := h
  have noCounter : ¬ (R.PC_CTL ≤ R.FUNC.DRV_ABI ∧ R.FUNC.DRV_ABI < R.PC_CTL + 32) := by decide
  simp only [deviceWrite, hp, hs, ho, noCounter]; simp [hty, ownWrite]

/-! ### Plain writes -/

theorem Reaches.plainWrite_blkCtl (ho : off = R.BLK_CTL) (v : Nat) :
    plainWrite a addr v s = setFld (setFld s p off 16 2 (bitsOf v 16 2)) p off 4 1 (bitsOf v 4 1) := by
  obtain ⟨hp, rfl, -, hs⟩ := h
  have haligned : R.BLK_CTL % 4 = 0 := rfl
  simp [plainWrite, hp, hs, ho, ownWrite_blkCtl, haligned]

/-- A plain write of another register than BLK_CTL. -/
theorem Reaches.plainWrite_eq (hown : ownWrite p off = false) (ho : off ≠ R.BLK_CTL) (v : Nat) :
    plainWrite a addr v s =
      if off = R.PENNANT_EN then enableWrite a p v s
      else if p.ty = .func ∧ off = 0x3F8 then { s with rmt := { s.rmt with dbLo := mput s.rmt.dbLo p.inst v } }
      else if p.ty = .perf ∧ off = R.PERF.TAG_SEED then
        { writeFields s a p off v with tags := { (writeFields s a p off v).tags with lfsr := none } }
      else if p.ty = .perf ∧ off = R.PERF.PREC_SEL ∧ bitOf v 31 then precClear (writeFields s a p off v)
      else writeFields s a p off v := by
  obtain ⟨hp, rfl, hal, hs⟩ := h
  simp [plainWrite, hp, hs, hal, hown, ho]

/-- A write of an ordinary register is the plain write. -/
theorem Reaches.exec_plain (hown : ownWrite p off = false) (ho : off ≠ R.BLK_CTL) (v : Dword) :
    exec (.registerWrite a addr v none) s = .next (plainWrite a addr v.toNat s) := by
  rw [h.exec_eq, h.deviceWrite_plain hown ho]

theorem Reaches.exec_blkCtl (ho : off = R.BLK_CTL) (v : Dword) :
    exec (.registerWrite a addr v none) s = .next (blkCtlWrite a p v.toNat s) := by
  rw [h.exec_eq, h.deviceWrite_blkCtl ho]

/-- BLK_CTL without SRESET: ROUTE and HAL_ARM, then ENABLE, then FENCE (R90). -/
theorem Reaches.blkCtlWrite_eq (ho : off = R.BLK_CTL) {v : Nat} (hr : ¬ (bitOf v 2 = true ∧ sresetOk s p = true)) :
    blkCtlWrite a p v s =
      let x := setFld (setFld s p off 16 2 (bitsOf v 16 2)) p off 4 1 (bitsOf v 4 1)
      let x := if bitOf v 0 then enableBlock p x else disableBlock p x
      if bitOf v 1 then writeFence p x else writeUnfence p x := by
  have haddr : pageAt p R.BLK_CTL = addr := by
    obtain ⟨hp, hoff, -, -⟩ := h
    rw [← ho, ← hoff, pageAt_of_pageOf hp]
  have hs : sees s a p = true := h.2.2.2
  simp only [blkCtlWrite, hs, haddr, h.plainWrite_blkCtl ho, if_neg hr, not_true_eq_false, if_false]

end

/-! ### Version negotiation -/

/-- Only ABI 1.0 is agreed on (R98). -/
theorem abiAgreed_eq (v : Nat) :
    abiAgreed v = if 0x100 ≤ v / 2 ^ 16 ∧ v % 2 ^ 16 ≤ 0x100 then 0x80000100 else 0x40000000 := by
  simp only [abiAgreed]
  split <;> split <;> omega

/-- NONE is set where ABI 1.0 is not agreed on. -/
theorem bitOf_abiAgreed (v : Nat) : bitOf (abiAgreed v) 30 = true ↔ abiAgreed v ≠ 0x80000100 := by
  rw [abiAgreed_eq]
  split <;> decide

/-! ### The clauses on REGISTER_WRITE -/

section
variable (h : Reaches s a p addr off) (v : Dword)
include h

theorem Reaches.exec_ordinary (hown : ownWrite p off = false) (hctl : off ≠ R.BLK_CTL) (hen : off ≠ R.PENNANT_EN)
    (hdb : ¬ (p.ty = .func ∧ off = 0x3F8)) (hperf : ¬ (p.ty = .perf ∧ (off = R.PERF.TAG_SEED ∨ off = R.PERF.PREC_SEL))) :
    exec (.registerWrite a addr v none) s = .next (writeFields s a p off v.toNat) := by
  rw [h.exec_plain hown hctl, h.plainWrite_eq hown hctl, if_neg hen, if_neg hdb, if_neg fun c => hperf ⟨c.1, .inl c.2⟩,
    if_neg fun c => hperf ⟨c.1, .inr c.2.1⟩]

theorem Reaches.exec_rmtDbLo (hown : ownWrite p off = false) (hty : p.ty = .func) (ho : off = 0x3F8) :
    exec (.registerWrite a addr v none) s =
      .next { s with rmt := { s.rmt with dbLo := mput s.rmt.dbLo p.inst v.toNat } } := by
  subst ho
  rw [h.exec_plain hown (by decide), h.plainWrite_eq hown (by decide), if_neg (by decide), if_pos ⟨hty, rfl⟩]

theorem Reaches.exec_tagSeed (hown : ownWrite p off = false) (hty : p.ty = .perf) (ho : off = R.PERF.TAG_SEED) :
    exec (.registerWrite a addr v none) s =
      .next { writeFields s a p off v.toNat with tags := { (writeFields s a p off v.toNat).tags with lfsr := none } } := by
  subst ho
  rw [h.exec_plain hown (by decide), h.plainWrite_eq hown (by decide), if_neg (by decide), if_neg (by simp [hty]),
    if_pos ⟨hty, rfl⟩]

theorem Reaches.exec_precSel (hown : ownWrite p off = false) (hty : p.ty = .perf) (ho : off = R.PERF.PREC_SEL) :
    exec (.registerWrite a addr v none) s =
      .next (if bitOf v.toNat 31 then precClear (writeFields s a p off v.toNat) else writeFields s a p off v.toNat) := by
  subst ho
  rw [h.exec_plain hown (by decide), h.plainWrite_eq hown (by decide), if_neg (by decide), if_neg (by simp [hty]),
    if_neg fun c => absurd c.2 (by decide)]
  simp only [hty, true_and]

theorem Reaches.exec_pennantEn (hown : ownWrite p off = false) (ho : off = R.PENNANT_EN) :
    exec (.registerWrite a addr v none) s = .next (enableWrite a p v.toNat s) := by
  rw [h.exec_plain hown (by rw [ho]; decide), h.plainWrite_eq hown (by rw [ho]; decide), if_pos ho]

theorem Reaches.exec_softReset (ho : off = R.BLK_CTL) (hbit : bitOf v.toNat 2 = true) (hok : sresetOk s p = true) :
    exec (.registerWrite a addr v none) s = .next (softReset p s) := by
  have hs : sees s a p = true := h.2.2.2
  rw [h.exec_blkCtl ho, blkCtlWrite, if_neg (not_not_intro hs), if_pos ⟨hbit, hok⟩]

theorem Reaches.exec_pennant (ho : off = R.PENNANT) :
    exec (.registerWrite a addr v none) s = exec (.pennantWrite a p v) s := by
  rw [h.exec_eq, h.deviceWrite_pennant ho]; rfl

theorem Reaches.exec_pennantForce (ho : off = R.PENNANT_FORCE) :
    exec (.registerWrite a addr v none) s = exec (.pennantForce a p v) s := by
  rw [h.exec_eq, h.deviceWrite_pennantForce ho]; rfl

theorem Reaches.exec_glbDrvAbi (hty : p.ty = .glb) (ho : off = R.GLB.DRV_ABI) :
    exec (.registerWrite a addr v none) s = exec (.glbDrvAbi v) s := by
  rw [h.exec_eq, h.deviceWrite_glbDrvAbi hty ho]; rfl

theorem Reaches.exec_funcDrvAbi (hty : p.ty = .func) (ho : off = R.FUNC.DRV_ABI) :
    exec (.registerWrite a addr v none) s = exec (.funcDrvAbi p.inst v) s := by
  rw [h.exec_eq, h.deviceWrite_funcDrvAbi hty ho]; rfl

/-- A write of BLK_COMMIT is the commit at the machine's own time. -/
theorem Reaches.exec_blkCommit (ho : off = R.BLK_COMMIT) (hbit : bitOf v.toNat 0 = true) :
    exec (.registerWrite a addr v none) s = exec (.blkCommit s.now p) s := by
  have hp : pagePresent s p = true := sees_present h.2.2.2
  have hnow : atTime s.now s = s := by simp [atTime]
  rw [h.exec_eq, h.deviceWrite_blkCommit ho, if_pos hbit, Machine.exec_blkCommit, execBlkCommit, hnow, if_neg (not_not_intro hp)]

/-- The upper half of a 64-bit write finds the state the lower half left. -/
theorem Reaches.exec_pair (hal : addr % 8 = 0) (w : Dword) {u : State}
    (hu : exec (.registerWrite a addr v none) s = .next u) (hpr : pagePresent u p = true) :
    exec (.registerWrite a addr v (some w)) s = exec (.registerWrite a (addr + 4) w none) u := by
  obtain rfl : deviceWrite a addr v.toNat s = u := by rw [h.exec_eq] at hu; exact Host.Outcome.next.inj hu
  obtain ⟨hp, -, -, hs⟩ := h
  rw [exec_registerWrite_pair hp hal (sees_present hs),
    exec_registerWrite_word ((pageOf_add_four hal).trans hp) (by omega) hpr]

end

/-! ### The clauses on the other commands -/

/-- A 32-bit write that R91 does not take is recorded. -/
theorem exec_registerWrite_bad (h : badAccess s addr 4 = true) (v : Dword) :
    exec (.registerWrite a addr v none) s = .next (recordBad addr true s) := by
  simp only [exec_registerWrite, execRegisterWrite, deviceStore, h, if_true]

theorem exec_registerWrite_bad_pair (h : badAccess s addr 8 = true) (v w : Dword) :
    exec (.registerWrite a addr v (some w)) s = .next (recordBad addr true s) := by
  simp only [exec_registerWrite, execRegisterWrite, deviceStore, h, if_true]

theorem exec_pennantWrite_seen (h : sees s a p = true) (v : Dword) : exec (.pennantWrite a p v) s =
    .next (let u := logAlert p (writeFields s a p R.PENNANT v.toNat)
           if reg u p R.PENNANT &&& reg u p R.PENNANT_EN = 0 then u else notifyPage p u) := by
  simp only [exec_pennantWrite, execPennantWrite, h, if_true, ite_not]

theorem exec_pennantForce_seen (h : sees s a p = true) (v : Dword) :
    exec (.pennantForce a p v) s = .next (logAlert p (pennant p (v.toNat &&& pennantMask p.ty) s)) := by
  simp only [exec_pennantForce, execPennantForce, h, if_true]

/-- A commit keeps the time of the first write. -/
theorem commitReq_eq (t : Nat) : commitReq t p s =
    let u := setFld s p R.BLK_COMMIT 0 1 1
    if (mget s.commits (pageAt p 0)).isSome then u else { u with commits := mput s.commits (pageAt p 0) t } := by
  have hc : (setFld s p R.BLK_COMMIT 0 1 1).commits = s.commits := rfl
  simp only [commitReq, hc]
  cases mget s.commits (pageAt p 0) <;> rfl

theorem exec_blkCommit_present (h : pagePresent s p = true) (t : Nat) :
    exec (.blkCommit t p) s = .next (commitReq t p (atTime t s)) := by
  have hp : pagePresent (atTime t s) p = true := h
  rw [exec_blkCommit, execBlkCommit, if_neg (not_not_intro hp)]

section
variable (v : Dword)

theorem exec_glbDrvAbi_pair (h : anyPair s 0 = true) : exec (.glbDrvAbi v) s = .next s := by
  rw [exec_glbDrvAbi, execGlbDrvAbi, if_pos h]

theorem exec_glbDrvAbi_offer (h : anyPair s 0 = false) : exec (.glbDrvAbi v) s =
    .next (let u := setRegN (setReg s pGLB R.GLB.DRV_ABI v) pGLB R.GLB.ABI_AGREED (abiAgreed v.toNat)
           if abiAgreed v.toNat = 0x80000100 then u else penBit pGLB 1 u) := by
  simp only [exec_glbDrvAbi, execGlbDrvAbi, h, Bool.false_eq_true, if_false, bitOf_abiAgreed, ne_eq, ite_not]

theorem exec_funcDrvAbi_pair {f : Nat} (h : anyPair s f = true) : exec (.funcDrvAbi f v) s = .next s := by
  rw [exec_funcDrvAbi, execFuncDrvAbi, if_pos (.inr (.inr h))]

theorem exec_funcDrvAbi_offer {f : Nat} (h0 : f ≠ 0) (hf : f < 1012) (h : anyPair s f = false) : exec (.funcDrvAbi f v) s =
    .next (let u := setRegN (setReg s (pFUNC f) R.FUNC.DRV_ABI v) (pFUNC f) R.FUNC.ABI_AGREED (abiAgreed v.toNat)
           if abiAgreed v.toNat = 0x80000100 then u else penBit (pFUNC f) 10 u) := by
  simp only [exec_funcDrvAbi, execFuncDrvAbi, h, h0, Nat.not_le.mpr hf, Bool.false_eq_true, or_self, if_false, bitOf_abiAgreed,
    ne_eq, ite_not]

end

section
variable {size f : Nat} {write : Bool}

theorem exec_badAccess_map (h : badAccess s addr size = true) :
    exec (.badAccess none addr size write) s = .next (recordBad addr write s) := by
  simp only [exec_badAccess, execBadAccess, h, if_true]

theorem exec_badAccess_unassigned (hf : f < 1012) (h : barAssigned s f addr = false) :
    exec (.badAccess (some f) addr size write) s = .next (penBit (pFUNC f) 1 s) := by
  simp only [exec_badAccess, execBadAccess, Nat.not_le.mpr hf, h, Bool.false_eq_true, not_false_eq_true, if_false, if_true]

theorem exec_badAccess_own (h0 : f ≠ 0) (hf : f < 1012) (h : barAssigned s f addr = true) (hpage : addr / 0x1000 = 4)
    (hal : alignedAccess addr size = false) : exec (.badAccess (some f) addr size write) s =
      .next (recordBad (pageAt (pFUNC f) (addr % 0x1000)) write s) := by
  simp only [exec_badAccess, execBadAccess, Nat.not_le.mpr hf, h, not_true_eq_false, if_false]
  rw [if_pos ⟨h0, hpage, by simp [hal]⟩]

end

end

/-- Settles O24: each clause is the branch of the command's own function that its conditions select. -/
theorem registerCommands : Obligations.RegisterCommands := by
  intro a p addr off t func size v w wr s here plain put enabled logged agreed record write
  have reach : here → Reaches s a p addr off := id
  have hagreed : agreed = abiAgreed v.toNat := (abiAgreed_eq _).symm
  refine ⟨fun h => (reach h.1).exec_ordinary v h.2, fun h => (reach h.1).exec_rmtDbLo v h.2,
    fun h => (reach h.1).exec_tagSeed v h.2, fun h => (reach h.1).exec_precSel v h.2, ?enable,
    fun h => (reach h).exec_softReset v, ?blkCtl, fun h => (reach h).exec_pennant v, fun h => (reach h).exec_pennantForce v,
    fun h => (reach h).exec_blkCommit v, fun h => (reach h).exec_glbDrvAbi v, fun h => (reach h).exec_funcDrvAbi v,
    fun _ h hal => (reach h).exec_pair v hal w, fun h => exec_registerWrite_bad h v,
    fun h => exec_registerWrite_bad_pair h v w, ?unseen, fun h => exec_pennantWrite_seen h v,
    fun h => exec_pennantForce_seen h v, ?commit, exec_glbDrvAbi_pair v, ?glb, exec_funcDrvAbi_pair v, ?func,
    exec_badAccess_map, exec_badAccess_unassigned, exec_badAccess_own⟩
  case enable =>
    rintro ⟨h, hown⟩ rfl
    exact (reach h).exec_pennantEn v hown rfl
  case blkCtl =>
    intro h ho hr
    exact ((reach h).exec_blkCtl ho v).trans (congrArg _ ((reach h).blkCtlWrite_eq ho hr))
  case unseen =>
    rintro hp rfl hal hpr hs
    exact (exec_registerWrite_word hp (by omega) hpr v).trans (congrArg _ (deviceWrite_unseen hp hs _))
  case commit =>
    intro h
    exact (exec_blkCommit_present h t).trans (congrArg _ (commitReq_eq t))
  case glb =>
    rw [hagreed]
    exact exec_glbDrvAbi_offer v
  case func =>
    rw [hagreed]
    exact exec_funcDrvAbi_offer v

end Sys2Proof.Machine

/-! SUPPORT. Thermal steps and the samples of the inputs (R16, R17, R31, R51, R604). -/

namespace Sys2Proof.Machine

section
variable {t x : Nat} {s : State}

/-- Steps that have cooled are left, for the highest one that has not. -/
theorem exec_thermStepLeave_cooled (h : thermAfter (atTime t s) t < thermStep (atTime t s)) :
    exec (.thermStepLeave t) s = .next
      (let left := showLimit (setFld (atTime t s) pPWR R.PWR.THERM_STAT 8 2 (thermAfter (atTime t s) t))
       if thermStep (atTime t s) = 3 then setAlert 0 false left else left) :=
  congrArg _ (if_pos h)

theorem exec_thermStepLeave_warm (h : thermStep (atTime t s) ≤ thermAfter (atTime t s) t) :
    exec (.thermStepLeave t) s = .next (atTime t s) :=
  congrArg _ (if_neg (Nat.not_lt.mpr h))

/-- A time that is noted once and forgotten when its condition ends. -/
theorem sinceIf_eq (b : Bool) (t : Nat) (old : Option Nat) : sinceIf b t old = if b then some (old.getD t) else none := by
  cases old <;> rfl

theorem exec_auxSample_eq (v : Nat) : exec (.auxSample t v) s = .next
    (let w := setFld (atTime t s) pPWR R.PWR.AUX_STAT 0 16 (min v 65535)
     let w : State := { w with power := { w.power with auxInUse := w.power.auxInUse || (w.power.alwaysOn && decide (6000 ≤ v)) } }
     auxLow { w with power := { w.power with
       absentSince := if bothAbsent w then some (w.power.absentSince.getD t) else none } }) := by
  simp only [exec_auxSample, execAuxSample, sinceIf_eq]

theorem exec_sagStep1Leave_risen (h : s.power.ge64Since = some x) (hs : sagStep s = 1) (ht : x + 100000000 ≤ t) :
    exec (.sagStep1Leave t) s = .next (showLimit (setFld (atTime t s) pPWR R.PWR.IN_STAT 16 2 0)) := by
  simp only [exec_sagStep1Leave, execSagStep1Leave, h]
  rw [if_pos ⟨hs, ht⟩]

theorem exec_inputOvervoltage_open (h : s.power.gt84Since = some x) (ht : x + 50000 ≤ t) (ho : s.power.inputOpen = false) :
    exec (.inputOvervoltage t) s =
      .next (startShutdown 2 { atTime t s with power := { s.power with inputOpen := true, downCause := 2 } }) := by
  simp only [exec_inputOvervoltage, execInputOvervoltage, h]
  rw [if_pos ⟨ht, by simp [ho]⟩]

end

/-- Settles O17: a junction sample enters its steps and then, from 112 degrees on, trips once; each other clause is the branch of
its command that the conditions select. -/
theorem thermalStepsAndInputSamples : Obligations.ThermalStepsAndInputSamples := by
  intro t v x s u entered tripped left sampled aux
  have junction : exec (.junctionSample t v) s = .next (if 112 ≤ v then
      if entered.power.thermTrip then entered else if tripped.power.phase = .off then tripped else mainOff tripped
    else entered) := rfl
  refine ⟨?entered, ?tripped, exec_thermStepLeave_cooled, exec_thermStepLeave_warm, ?main, exec_auxSample_eq v,
    exec_sagStep1Leave_risen, exec_inputOvervoltage_open⟩
  case entered =>
    rintro (h | h) <;> rw [junction]
    · rw [if_neg (by omega)]
    · rw [if_pos h, ite_self]
  case tripped =>
    intro hv h
    rw [junction, if_pos hv, if_neg (by simp [h])]
  case main =>
    rw [exec_mainSample, execMainSample, mainSample]
    simp only [sinceIf_eq, ← Bool.decide_and]
    rfl
end Sys2Proof.Machine

/-! SUPPORT. Power-up, resets of the main domain and the ends of a quiesce and a shutdown (R31, R34 to R41, R52 to R54). -/

namespace Sys2Proof.Machine

section
variable {t v w x sensor : Nat} {s : State}

/-- What the main stage needs to start (R31, R34). -/
theorem mayStart_iff : mayStart t s = true ↔ s.power.phase = .off ∧ s.power.alwaysOn = true ∧ s.power.mssUpAt ≤ t ∧
    s.power.inputOpen = false ∧ 5800 ≤ fld s pPWR R.PWR.IN_STAT 0 16 := by
  simp only [mayStart, Bool.and_eq_true, beq_iff_eq, decide_eq_true_eq, Bool.not_eq_true', and_assoc]

/-- Outside recovery the main stage starts with a reset of the whole main domain (R38, R570). -/
theorem stageEnable_allowed (h : bootAllows s = true) : stageEnable t s =
    { mainReset (atTime t s) with power := { (mainReset (atTime t s)).power with phase := .ramping, startAt := t } } :=
  if_neg (not_not_intro h)

/-! ### Starts of the main stage -/

theorem exec_mainStageEnable_start (hm : mayStart t s = true) (ht : s.power.tripLatched = false) (hd : s.power.downCause = 0)
    (hr : s.power.railFailAt = none) : exec (.mainStageEnable t) s = .next (stageEnable t s) :=
  congrArg _ (if_pos ⟨hm, by simp [ht], hd, hr⟩)

theorem exec_mgmtPowerOn_failed (hm : mayStart t s = true) (ht : s.power.tripLatched = false) (hr : s.power.railFailAt = some x) :
    exec (.mgmtPowerOn t) s = .next
      (stageEnable t (setAlert 2 false { s with power := { s.power with railFailAt := none, railRetried := false } })) := by
  simp only [exec_mgmtPowerOn, execMgmtPowerOn, hm, ht, hr, Option.isSome_some, Bool.false_eq_true, if_true, if_false]

theorem exec_mgmtPowerOn_tripped (hm : mayStart t s = true) (ht : s.power.tripLatched = true)
    (hv : fld s pPWR R.PWR.THERM_STAT 0 8 < 90) : exec (.mgmtPowerOn t) s = .next
      (stageEnable t (setAlert 6 false (emit (.pin "THERM_TRIP_N" true)
        { s with power := { s.power with tripLatched := false, thermTrip := false } }))) := by
  simp only [exec_mgmtPowerOn, execMgmtPowerOn, hm, ht, hv, if_true]

theorem exec_railRetry_once (hm : mayStart t s = true) (ht : s.power.tripLatched = false) (hr : s.power.railFailAt = some x)
    (hx : x + 1000000000 ≤ t) (hn : s.power.railRetried = false) : exec (.railRetry t) s = .next
      (stageEnable t { s with power := { s.power with railRetried := true } }) := by
  simp only [exec_railRetry, execRailRetry, hr]
  rw [if_pos ⟨hm, by simp [ht], hx, by simp [hn]⟩]

theorem exec_overvoltageRestart_start (h : s.power.in6080Since = some x) (hp : s.power.phase = .off) (ha : s.power.alwaysOn = true)
    (ho : s.power.inputOpen = true) (ht : s.power.tripLatched = false) (hx : x + 1000000000 ≤ t) :
    exec (.overvoltageRestart t) s = .next (stageEnable t { s with power := { s.power with inputOpen := false } }) := by
  simp only [exec_overvoltageRestart, execOvervoltageRestart, h, ht]
  rw [if_pos ⟨hp, ha, ho, hx⟩, if_neg Bool.false_ne_true]

theorem exec_mainRestart_start (h : s.power.in6280Since = some x) (hp : s.power.phase = .off) (ha : s.power.alwaysOn = true)
    (ho : s.power.inputOpen = false) (ht : s.power.tripLatched = false) (hr : s.power.railFailAt = none)
    (hd : s.power.downCause ≠ 0) (hx : x + 1000000000 ≤ t) : exec (.mainRestart t) s = .next (stageEnable t s) := by
  simp only [exec_mainRestart, execMainRestart, h]
  rw [if_pos ⟨hp, ha, by simp [ho], by simp [ht], hr, hd, hx⟩]

/-! ### Rails -/

theorem exec_railsGood_ramping (h : s.power.phase = .ramping) : exec (.railsGood t) s = .next
    (let good := setAlert 2 false (emit (.pin "PWR_OK" true) { atTime t s with power := { s.power with
       phase := .inReset, pwrOk := true, flashPfail := false, railFailAt := none, railRetried := false, downCause := 0 } })
     if good.power.resetN then releaseReset t good else good) :=
  congrArg _ (if_pos h)

theorem exec_railFail_ramping (h : s.power.phase = .ramping) : exec (.railFail t sensor) s = .next
    (setAlert 2 true (logEvent 0x0006 (some pPWR) [sensor]
      { atTime t s with power := { s.power with phase := .off, pwrOk := false, railFailAt := some t } })) :=
  congrArg _ (if_pos h)

/-! ### Resets of the main domain -/

/-- No program and no quiesce holds a reset back (R41). -/
theorem resetWaits_iff : ¬ (nandBusy s = true ∨ quiescing s = true) ↔ s.flash.begun = [] ∧ s.power.quiesce = none := by
  simp [nandBusy, quiescing]

/-- A powered domain that has not tripped takes a requested reset at once, or waits with it (R41). -/
theorem requestMainReset_powered (ht : s.power.tripLatched = false) (hp : s.power.phase = .running ∨ s.power.phase = .inReset) :
    requestMainReset t s =
      if (breakSplice (atTime t s)).flash.begun = [] ∧ (breakSplice (atTime t s)).power.quiesce = none then
        mainResetNow t (breakSplice (atTime t s))
      else { breakSplice (atTime t s) with power := { (breakSplice (atTime t s)).power with resetPending := true } } := by
  have unpowered : ¬ (s.power.phase = .off ∨ s.power.phase = .shutdown ∨ s.power.phase = .ramping) := by
    rcases hp with hp | hp <;> simp [hp]
  simp only [requestMainReset, atTime_power, ht, Bool.false_eq_true, if_false, if_neg unpowered, ← resetWaits_iff, ite_not]

theorem exec_resetNLow_held (h : x + 10000 ≤ t) : exec (.resetNLow x t) s = .next
    (requestMainReset t { atTime t s with power := { s.power with resetN := false, resetLowSince := some x } }) :=
  congrArg _ (if_pos h)

theorem exec_resetNRise_inReset (hp : s.power.phase = .inReset) (hk : s.power.pwrOk = true) (hh : s.mgmt.hold = false) :
    exec (.resetNRise t) s = .next
      (releaseReset t { atTime t s with power := { s.power with resetN := true, resetLowSince := none } }) :=
  congrArg _ (if_pos ⟨hp, hk, by simp [hh]⟩)

theorem exec_mainResetTakeEffect_due (hr : s.power.resetPending = true) (hf : s.flash.begun = []) (hq : s.power.quiesce = none)
    (hp : s.power.phase = .running ∨ s.power.phase = .inReset) : exec (.mainResetTakeEffect t) s = .next
      (mainResetNow t { s with power := { s.power with resetPending := false } }) :=
  congrArg _ (if_pos ⟨hr, by simp [nandBusy, hf], hq, hp⟩)

/-! ### Ends of a quiesce and a shutdown -/

theorem exec_quiesceEnd_idle (hq : s.power.quiesce ≠ none) (hf : s.flash.begun = [])
    (hp : s.power.phase = .running ∨ s.power.phase = .inReset) : exec (.quiesceEnd t) s = .next
      (let q := atTime t (writeRoots { s with power := { s.power with powerLossWritten := true } })
       mainOff (if s.power.resetPending then mainReset q else q)) :=
  congrArg _ (if_pos ⟨Option.isSome_iff_ne_none.mpr hq, by simp [nandBusy, hf], by rcases hp with hp | hp <;> simp [hp]⟩)

theorem exec_shutdownRailsOff_idle (hp : s.power.phase = .shutdown) (hf : s.flash.begun = []) :
    exec (.shutdownRailsOff t) s = .next
      (mainOff (writeRoots { atTime t s with power := { (atTime t s).power with powerLossWritten := true } })) :=
  congrArg _ (if_pos ⟨hp, by simp [nandBusy, hf]⟩)

/-! ### The always-on domain -/

theorem exec_alwaysOnStart_off {refused : Bool} (h : s.power.alwaysOn = false) (hv : 6000 ≤ v ∨ 6000 ≤ w) :
    exec (.alwaysOnStart t (v, w) refused) s = .next
      (let b := setFld (setFld (mssStarts t (romBoot (romKeys refused (atTime t (coldStart s))))) pPWR R.PWR.IN_STAT 0 16 v)
         pPWR R.PWR.AUX_STAT 0 16 w
       { b with power := { b.power with auxInUse := decide (6000 ≤ w) } }) := by
  simp only [exec_alwaysOnStart, execAlwaysOnStart]
  rw [if_pos ⟨by simp [h], hv⟩]

theorem exec_alwaysOnStop_absent (h : s.power.absentSince = some x) (ha : s.power.alwaysOn = true) (hx : x + 20000000 ≤ t) :
    exec (.alwaysOnStop t) s = .next
      (let m := mainReset (atTime t s)
       { m with power := { m.power with
         phase := .off, alwaysOn := false, pwrOk := false, auxInUse := false, aux18 := false, cold := true } }) := by
  simp only [exec_alwaysOnStop, execAlwaysOnStop, h]
  rw [if_pos ⟨ha, hx⟩]

end

/-- Settles O18: each clause is the branch of the command's own function that its conditions select. -/
theorem powerUpAndResets : Obligations.PowerUpAndResets := by
  intro t v w x sensor refused s u on p may untrip
  have starts {i : Instr} {m : State} (h : exec i s = .next (stageEnable t m)) (hb : bootAllows m = true) :
      exec i s = .next (on m) := h.trans (congrArg _ (stageEnable_allowed hb))
  have can (h : may) : mayStart t s = true := mayStart_iff.mpr h
  exact ⟨fun h ht hd hr => starts (exec_mainStageEnable_start (can h) ht hd hr),
    fun h ht hr => starts (exec_mgmtPowerOn_failed (can h) ht hr),
    fun h ht hv => starts (exec_mgmtPowerOn_tripped (can h) ht hv),
    fun h ht hr hx hn hb => starts (exec_railRetry_once (can h) ht hr hx hn) (by exact hb),
    fun h hp ha ho ht hx hb => starts (exec_overvoltageRestart_start h hp ha ho ht hx) (by exact hb),
    fun h hp ha ho ht hr hd hx => starts (exec_mainRestart_start h hp ha ho ht hr hd hx),
    exec_railsGood_ramping, exec_railFail_ramping, fun ht hp => congrArg Host.Outcome.next (requestMainReset_powered ht hp),
    exec_resetNLow_held, exec_resetNRise_inReset, exec_mainResetTakeEffect_due, exec_quiesceEnd_idle,
    exec_shutdownRailsOff_idle, exec_alwaysOnStart_off, exec_alwaysOnStop_absent⟩
end Sys2Proof.Machine

/-! SUPPORT. Power samples, droop stretching and configuration requests (R36, R42 to R47, R353, R368). -/

namespace Sys2Proof.Machine

section
variable {t v x tile link func : Nat} {bme : Bool} {c : CfgWrite} {s : State}

/-! ### Power samples and droop -/

theorem exec_capExcursionLimit_reached (h : excReached s = true) : exec (.capExcursionLimit t) s = .next
    (penBit pPWR 2 (showStretch t { atTime t s with power := { s.power with forced := true, capCut := true } })) :=
  congrArg _ (if_pos h)

theorem exec_droopTrip_beyond (ht : tile < 32) (hv : droopThr s tile * 5 < v) : exec (.droopTrip t tile v) s = .next
    (penBit pPWR 7 (showStretch t { atTime t s with power := { s.power with droop := mput s.power.droop tile t } })) :=
  congrArg _ (if_pos ⟨ht, hv⟩)

theorem exec_droopRelease_clean (h : mget s.power.droop tile = some x) (hx : 64 ≤ (t - x) * Config.tileMhz / 2000) :
    exec (.droopRelease t tile) s = .next
      (showStretch t { atTime t s with power := { s.power with droop := mdel s.power.droop tile } }) := by
  simp only [exec_droopRelease, execDroopRelease, h]
  rw [if_pos hx]; rfl

/-! ### Configuration requests -/

/-- A request on the link is answered with Retry Status: the domain does not run, or its firmware is not ready and 1,000 ms have
not run (R36). -/
def ConfigRetry (t link : Nat) (s : State) : Prop :=
  s.power.phase ≠ .running ∨
    s.power.fwReady.getD link false = false ∧ t < max s.power.releaseAt (s.power.perstAt.getD link 0) + 1000000000

theorem configRetry_iff : ConfigRetry t link s ↔ s.power.phase ≠ .running ∨ ¬ (s.power.fwReady.getD link false = true ∨
    max s.power.releaseAt (s.power.perstAt.getD link 0) + 1000 * 1000000 ≤ t) := by
  rw [ConfigRetry, not_or, Bool.not_eq_true, Nat.not_le]

/-- What a served write makes of what the function holds (R353, R359, R360). -/
def cfgWritten (c : CfgWrite) (x : FuncX) : FuncX :=
  { x with
    cto := (match c.cto with | some n => if n = 0 then 10000000 else max 50000 (min 10000000 n) | none => x.cto)
    tag10 := c.tag10.getD x.tag10, tag14 := c.tag14.getD x.tag14, relaxed := c.relaxed.getD x.relaxed }

theorem cfgWritten_eq : cfgWritten c = fun x => { x with
    cto := (match c.cto with | some 0 => 10000000 | some n => max 50000 (min 10000000 n) | none => x.cto)
    tag10 := c.tag10.getD x.tag10, tag14 := c.tag14.getD x.tag14, relaxed := c.relaxed.getD x.relaxed } := by
  obtain ⟨cto, tag10, tag14, relaxed⟩ := c
  rcases cto with _ | _ | n <;> rfl

theorem exec_configRequest_retry (h : ConfigRetry t link s) :
    exec (.configRequest t link func bme c) s = .next (emit (.config link true) (atTime t s)) :=
  congrArg _ (if_pos (configRetry_iff.mp h))

theorem exec_configRequest_elsewhere (h : ¬ ConfigRetry t link s) (hf : 1012 ≤ func ∨ hostLink s func ≠ link) :
    exec (.configRequest t link func bme c) s = .next (emit (.config link false) (atTime t s)) :=
  congrArg _ ((if_neg (mt configRetry_iff.mpr h)).trans (if_pos hf))

/-- A served request of a function on the link writes the function, and ends its silencing with Bus Master Enable (R368). -/
theorem exec_configRequest_served (h : ¬ ConfigRetry t link s) (hf : func < 1012) (hl : hostLink s func = link) :
    exec (.configRequest t link func bme c) s = .next
      (let w := modFn func (cfgWritten c) (emit (.config link false) (atTime t s))
       if ¬ bme then w
       else
         let b := modFn func (fun x => { x with bme := true }) w
         if blkState b (pFUNC func) = 0x80 ∨ blkState b (pFUNC func) = 4 ∨ blkState b (pFUNC func) = 0x82 then b
         else unsilence func b) := by
  have here : ¬ (1012 ≤ func ∨ hostLink s func ≠ link) := by simp [hl, Nat.not_le.mpr hf]
  exact congrArg _ ((if_neg (mt configRetry_iff.mpr h)).trans (if_neg here))

end

/-- Settles O19: each clause is the branch of its command that the conditions select. -/
theorem powerCapDroopAndConfiguration : Obligations.PowerCapDroopAndConfiguration := by
  intro t v tile func bme c s u sampled retry written
  have hw (link : Nat) : written link = modFn func (cfgWritten c) (emit (.config link false) u) :=
    (congrArg (modFn func · (emit (.config link false) u)) cfgWritten_eq).symm
  refine ⟨fun h => congrArg Host.Outcome.next (if_neg (not_not_intro h)), fun h => congrArg Host.Outcome.next (if_pos h),
    exec_capExcursionLimit_reached, exec_droopTrip_beyond, fun x => exec_droopRelease_clean,
    fun link => exec_configRequest_retry, fun link => exec_configRequest_elsewhere, fun link h hf hl => ?read, fun link h hf hl => ?bme⟩
  case read =>
    rw [exec_configRequest_served h hf hl, hw, if_pos Bool.false_ne_true]
  case bme =>
    rw [exec_configRequest_served h hf hl, hw]
    exact congrArg _ (if_neg (not_not_intro rfl))
end Sys2Proof.Machine

/-! SUPPORT. Reports of events: which properties of the state pennants, error captures and counters keep (R84, R86, R586). -/

namespace Sys2Proof.Machine

/-- A property that reports of events keep: pennants, captures and counters stand in the first 0x400 and the last 0x100 bytes of a
page (R84, R86, R586), and what a report sends is appended to the output. -/
structure ReportStable (P : State → Prop) : Prop where
  reg : ∀ {s : State} {p : Page} {off : Nat} {v : Dword}, off < 0x400 ∨ 0xF00 ≤ off ∧ off < 0x1000 → P s → P (setReg s p off v)
  out : ∀ {s : State} {e : Emit}, P s → P (emit e s)

section
variable {P : State → Prop} {s : State} {p : Page} {i n : Nat}

theorem ReportStable.emitMsix {f vector : Nat} (hP : ReportStable P) (h : P s) : P (emitMsix f vector s) := by
  unfold Machine.emitMsix; split
  · exact h
  · exact hP.out h

theorem ReportStable.notifyPage (hP : ReportStable P) (h : P s) : P (notifyPage p s) := by
  have msix : P (if fld s p R.BLK_CTL 16 2 % 2 = 1 then
      (match p.ty with | .func => Machine.emitMsix p.inst 0 s | _ => Machine.emitMsix 0 (65 + pageClass p.ty) s) else s) := by
    split
    · split <;> exact hP.emitMsix h
    · exact h
  unfold Machine.notifyPage
  dsimp only
  split
  · exact hP.out msix
  · exact msix

theorem ReportStable.pennantRaw {mask : Nat} (hP : ReportStable P) (h : P s) : P (pennantRaw p mask s) := by
  have set : P (setRegN s p R.PENNANT (Machine.reg s p R.PENNANT ||| mask)) := hP.reg (by decide) h
  unfold Machine.pennantRaw
  dsimp only
  split
  · exact hP.notifyPage set
  · exact set

theorem ReportStable.errInfo {code detail : Nat} (hP : ReportStable P) (h : P s) : P (errInfo p code detail s) := by
  unfold Machine.errInfo; split
  · exact h
  · exact hP.reg (by decide) h

theorem ReportStable.setPcVal {v : Nat} (hP : ReportStable P) (hi : i ≤ 8) (h : P s) : P (setPcVal s p i v) :=
  hP.reg (by unfold R.PC_VAL_HI; omega) (hP.reg (by unfold R.PC_VAL_LO; omega) h)

theorem ReportStable.pcWrapped (hP : ReportStable P) (hi : i < 8) (h : P s) : P (pcWrapped p i s) := by
  have ovf {w : State} {v : Nat} (hw : P w) : P (setRegN w p R.PC_OVF v) := hP.reg (by decide) hw
  have report {w : State} {d : Nat} (hw : P w) : P (Machine.errInfo pPERF 1 d (Machine.pennantRaw pPERF 1 w)) :=
    hP.errInfo (hP.pennantRaw hw)
  unfold Machine.pcWrapped
  dsimp only
  split
  · have carried : P (Machine.setPcVal s p (i + 1) ((pcVal s p (i + 1) + 1) % 2 ^ 48)) := hP.setPcVal hi h
    split
    · exact report (ovf (ovf carried))
    · exact ovf carried
  · exact report (ovf h)

theorem ReportStable.pcAdd (hP : ReportStable P) (hi : i < 8) (h : P s) : P (pcAdd p i n s) := by
  have set : P (Machine.setPcVal s p i ((pcVal s p i + n) % 2 ^ 48)) := hP.setPcVal hi.le h
  unfold Machine.pcAdd
  dsimp only
  split
  · exact hP.pcWrapped hi set
  · exact set

theorem ReportStable.forN {f : Nat → State → State} (hf : ∀ i < n, ∀ w, P w → P (f i w)) (h : P s) : P (forN n s f) :=
  List.foldlRecOn _ _ h fun w hw i hi => hf i (List.mem_range.mp hi) w hw

theorem ReportStable.perfEvent {code qual : Nat} (hP : ReportStable P) (h : P s) : P (perfEvent p code qual n s) := by
  refine forN (fun i hi w hw => ?_) h
  split
  · exact hw
  · dsimp only
    split
    · exact hP.pcAdd hi hw
    · exact hw

theorem ReportStable.pennant {mask : Nat} (hP : ReportStable P) (h : P s) : P (pennant p mask s) := by
  have raw : P (Machine.pennantRaw p mask s) := hP.pennantRaw h
  unfold Machine.pennant
  dsimp only
  split
  · exact raw
  · refine forN (fun i _ w hw => ?_) raw
    split
    · exact hP.perfEvent hw
    · exact hw

theorem ReportStable.penBit {b : Nat} (hP : ReportStable P) (h : P s) : P (penBit p b s) := hP.pennant h

end

/-- Reports leave what the MSS holds. -/
theorem reportStable_mgmt (m : Mgmt) : ReportStable fun w => w.mgmt = m := ⟨fun _ h => h, fun h => h⟩

theorem pageAt_mod (p : Page) {off : Nat} (h : off < 0x1000) : pageAt p off % 0x1000 = off := by
  have := pageBase_mod p.ty
  unfold pageAt; omega

/-- Reports leave a register that stands between the header and the counters of its page. -/
theorem reportStable_getReg (q : Page) {o : Nat} (ho : 0x400 ≤ o ∧ o < 0xF00) (v : Dword) :
    ReportStable fun w => getReg w q o = v where
  reg := fun {_ p off _} hoff h => by
    have hne : pageAt q o ≠ pageAt p off := fun e => by
      have := congrArg (· % 0x1000) e
      simp only [pageAt_mod q (by omega : o < 0x1000), pageAt_mod p (by omega : off < 0x1000)] at this
      omega
    exact (getReg_setReg_of_ne _ hne).trans h
  out := fun h => h

section
variable {s : State} {p q : Page} {b o : Nat}

@[simp] theorem penBit_mgmt : (penBit p b s).mgmt = s.mgmt := (reportStable_mgmt s.mgmt).penBit rfl

theorem errInfo_mgmt {code detail : Nat} : (errInfo p code detail s).mgmt = s.mgmt := (reportStable_mgmt s.mgmt).errInfo rfl

theorem fld_penBit (ho : 0x400 ≤ o ∧ o < 0xF00) (lo n : Nat) : fld (penBit p b s) q o lo n = fld s q o lo n := by
  have same : getReg (penBit p b s) q o = getReg s q o := (reportStable_getReg q ho _).penBit rfl
  rw [fld, fld, reg, reg, same]

/-- Words of the LPDDR5X that fail their code are counted and reported; the MSS keeps what it holds. -/
theorem dramTouch_mgmt {off len : Nat} : (dramTouch off len s).mgmt = s.mgmt := by
  refine List.foldlRecOn (motive := fun w : State => w.mgmt = s.mgmt) _ _ rfl fun w hw d _ => ?_
  split
  · exact errInfo_mgmt.trans (penBit_mgmt.trans hw)
  · exact penBit_mgmt.trans hw

end
end Sys2Proof.Machine

/-! SUPPORT. Host links, completion tags and window accesses (R353 to R361, R368, R605). -/

namespace Sys2Proof.Machine

section
variable {t link func tag rate width num pf issued off len until_ : Nat} {s : State}

/-! ### Links -/

/-- Which link a function is on rests on the configuration block alone (R354, R355). -/
theorem hostLink_of_mgmt {w : State} (h : w.mgmt = s.mgmt) (f : Nat) : hostLink w f = hostLink s f := by
  unfold hostLink bifurcated totalVfs
  rw [h]

theorem linkFuncs_of_mgmt {w : State} (h : w.mgmt = s.mgmt) (l : Nat) : linkFuncs w l = linkFuncs s l := by
  simp only [linkFuncs, hostLink_of_mgmt h]

theorem exec_hostLinkUp_present (hl : link < 2) (hp : pagePresent s (pHOST link) = true) :
    exec (.hostLinkUp t link rate width) s = .next (penBit (pHOST link) 0 (setRegN (atTime t s) (pHOST link) R.HOST.LINK_STAT
      (2 ^ 11 + (if 6 ≤ rate then 2 ^ 10 else 0) + width % 64 * 16 + rate % 16))) :=
  exec_hostLinkUp.trans (congrArg _ (if_neg (not_or.mpr ⟨not_not_intro hp, Nat.not_le.mpr hl⟩)))

theorem exec_hostLinkDown_up (hl : link < 2) (hs : fld s (pHOST link) R.HOST.LINK_STAT 11 1 = 1) :
    exec (.hostLinkDown t link) s = .next ((linkFuncs s link).foldl (fun s f =>
      if blkState s (pFUNC f) = 0x82 then s else orphanRunning f 2 (agreement s f) (silence f s))
      (penBit (pHOST link) 1 (hostCount link 5 (setRegN (atTime t s) (pHOST link) R.HOST.LINK_STAT 0)))) := by
  have up : ¬ (link ≥ 2 ∨ fld (atTime t s) (pHOST link) R.HOST.LINK_STAT 11 1 = 0) :=
    not_or.mpr ⟨Nat.not_le.mpr hl, fun h => Nat.one_ne_zero (hs.symm.trans h)⟩
  rw [exec_hostLinkDown, execHostLinkDown]
  simp only [if_neg up]
  rw [linkFuncs_of_mgmt penBit_mgmt]
  rfl

theorem not_link_absent (hl : link < 2) (hp : pagePresent s (pHOST link) = true) :
    ¬ (2 ≤ link ∨ ¬ pagePresent (atTime t s) (pHOST link) = true) :=
  not_or.mpr ⟨Nat.not_le.mpr hl, not_not_intro hp⟩

theorem exec_perst_present (hl : link < 2) (hp : pagePresent s (pHOST link) = true) : exec (.perst t link) s = .next
    (hostReset link { atTime t s with power := { (atTime t s).power with fwReady := (atTime t s).power.fwReady.set link false } }) := by
  rw [exec_perst, execPerst, if_neg (not_link_absent hl hp)]

theorem exec_hotReset_present (hl : link < 2) (hp : pagePresent s (pHOST link) = true) :
    exec (.hotReset t link) s = .next (hostReset link (atTime t s)) := by
  rw [exec_hotReset, execHotReset, if_neg (not_link_absent hl hp)]

theorem exec_perstDeassert_link (hl : link < 2) : exec (.perstDeassert t link) s = .next
    { atTime t s with power := { (atTime t s).power with perstAt := (atTime t s).power.perstAt.set link t } } :=
  exec_perstDeassert.trans (congrArg _ (if_neg (Nat.not_le.mpr hl)))

theorem exec_atsInvalidate_link (hl : link < 2) :
    exec (.atsInvalidate t link tag) s = .next (emit (.pcie link "InvalidateCompletion" [tag]) (atTime t s)) :=
  exec_atsInvalidate.trans (congrArg _ (if_neg (Nat.not_le.mpr hl)))

theorem exec_vfEnable_vfs (hp : pf < 4) (hn : num ≤ totalVfs s pf) (he : s.host.vfEnable.getD pf true = false) :
    exec (.vfEnable t pf num) s = .next ((vfsOf s pf num).foldl (fun s f =>
      let w := modFn f (fun x => { x with gone := false }) s
      if blkState w (pFUNC f) = 0x82 then setBlkState w (pFUNC f) 0 else w)
      (setHost (atTime t s) fun h => { h with vfEnable := h.vfEnable.set pf true, numVfs := h.numVfs.set pf num })) := by
  have absent : ¬ (4 ≤ pf ∨ totalVfs (atTime t s) pf < num ∨ (atTime t s).host.vfEnable.getD pf true = true) :=
    not_or.mpr ⟨Nat.not_le.mpr hp, not_or.mpr ⟨Nat.not_lt.mpr hn, fun h => Bool.false_ne_true (he.symm.trans h)⟩⟩
  exact exec_vfEnable.trans (congrArg _ (if_neg absent))

/-! ### Tags -/

section
variable {outs : Bool} {err : Nat} (hl : link < 2) (ht : tag < 65536)
include hl ht

theorem not_linkTag_beyond : ¬ (2 ≤ link ∨ 65536 ≤ tag) := by omega

theorem exec_completionReceive_late (h : mget s.host.quar (link * 65536 + tag) = some (func, until_)) :
    exec (.completionReceive t link num tag outs err) s = .next
      (setHost (penBit (pHOST link) 5 (penBit (pFUNC func) 8 (hostCount link 1 (atTime t s)))) fun h =>
        { h with quar := mdel h.quar (link * 65536 + tag) }) := by
  simp only [exec_completionReceive, execCompletionReceive, if_neg (not_linkTag_beyond hl ht), atTime_host, h]

theorem exec_completionReceive_unexpected (h : mget s.host.quar (link * 65536 + tag) = none) :
    exec (.completionReceive t link func tag false err) s = .next
      (emit (.pcie link "UnexpectedCompletion" [func, tag]) (hostCount link 3 (atTime t s))) := by
  simp only [exec_completionReceive, execCompletionReceive, if_neg (not_linkTag_beyond hl ht), atTime_host, h, Bool.false_eq_true,
    if_false]

theorem exec_completionReceive_ecrc (h : mget s.host.quar (link * 65536 + tag) = none) :
    exec (.completionReceive t link func tag true 2) s = .next (hostCount link 7 (atTime t s)) := by
  simp only [exec_completionReceive, execCompletionReceive, if_neg (not_linkTag_beyond hl ht), atTime_host, h, if_true]
  rfl

end

theorem exec_cplTimeout_incomplete {eng : ReadEngine} (hf : func < 1012) (ht : tag < tagSpace s func)
    (hi : issued + (getFn s func).cto ≤ t) (hq : mget s.host.quar (hostLink s func * 65536 + tag) = none) :
    exec (.cplTimeout t func tag issued eng) s = .next (failRead func eng
      (setHost (errInfo (pHOST (hostLink s func)) 1 func (penBit (pHOST (hostLink s func)) 4 (penBit (pFUNC func) 7
        (emit (.pcie (hostLink s func) "CompletionTimeout" [func]) (hostCount (hostLink s func) 0 (atTime t s)))))) fun h =>
        { h with quar := mput h.quar (hostLink s func * 65536 + tag) (func, t + (getFn s func).cto) })) := by
  have due : ¬ (1012 ≤ func ∨ tagSpace (atTime t s) func ≤ tag ∨ t < issued + (getFn (atTime t s) func).cto ∨
      (mget (atTime t s).host.quar (hostLink (atTime t s) func * 65536 + tag)).isSome = true) := by
    simp only [not_or, Nat.not_le, Nat.not_lt]
    exact ⟨hf, ht, hi, fun h => Option.isSome_iff_ne_none.mp h hq⟩
  exact exec_cplTimeout.trans (congrArg _ (if_neg due))

theorem exec_quarantineExpiry_due (h : mget s.host.quar (link * 65536 + tag) = some (func, until_)) (ht : until_ ≤ t) :
    exec (.quarantineExpiry t link tag) s = .next
      (hostCount link 2 (setHost (atTime t s) fun h => { h with quar := mdel h.quar (link * 65536 + tag) })) := by
  simp only [exec_quarantineExpiry, execQuarantineExpiry, atTime_host, h, if_neg (Nat.not_lt.mpr ht)]

/-! ### Windows -/

section
variable {l : List Byte} (hf : func < 1012)
include hf

theorem exec_hostWindowAccess_write (h : windowHas s func off l.length = true) :
    exec (.hostWindowAccess func off len (some l)) s = .next (windowPut func off l s) := by
  simp only [exec_hostWindowAccess, execHostWindowAccess, if_neg (Nat.not_le.mpr hf), h, if_true]

theorem exec_hostWindowAccess_write_beyond (h : windowHas s func off l.length = false) :
    exec (.hostWindowAccess func off len (some l)) s = .next (penBit (pFUNC func) 2 s) := by
  simp only [exec_hostWindowAccess, execHostWindowAccess, if_neg (Nat.not_le.mpr hf), h, Bool.false_eq_true, if_false,
    Option.isSome_some, if_true]

/-- The words the read meets are touched before its bytes are sent; the link of the answer is as before. -/
theorem exec_hostWindowAccess_read (h : windowHas s func off len = true) :
    exec (.hostWindowAccess func off len none) s = .next
      (emit (.pcie (hostLink s func) "Completion" ((windowRead s func off len).map (·.toNat)))
        (dramTouch (Config.winBase func + off) len s)) := by
  simp only [exec_hostWindowAccess, execHostWindowAccess, if_neg (Nat.not_le.mpr hf), h, if_true, Option.isSome_none,
    Bool.false_eq_true, if_false, hostLink_of_mgmt dramTouch_mgmt]

theorem exec_hostWindowAccess_read_beyond (h : windowHas s func off len = false) :
    exec (.hostWindowAccess func off len none) s = .next
      (emit (.pcie (hostLink s func) "Completion" (List.replicate len 0)) (penBit (pFUNC func) 2 s)) := by
  simp only [exec_hostWindowAccess, execHostWindowAccess, if_neg (Nat.not_le.mpr hf), h, Option.isSome_none,
    Bool.false_eq_true, if_false, hostLink_of_mgmt penBit_mgmt, List.map_replicate]
  rfl

end

end

/-- Settles O45: each clause is the branch of its command that the conditions select; what a command counts and shows leaves the
configuration block, and with it the link of each function. -/
theorem hostLinksResetsAndTags : Obligations.HostLinksResetsAndTags := by
  intro t link func tag rate width num pf issued off len until_ outs err eng l s u k kf hl down enabled late timed
  exact ⟨fun h hp => ⟨exec_hostLinkUp_present h hp, exec_perst_present h hp, exec_hotReset_present h hp⟩,
    fun h => ⟨exec_perstDeassert_link h, exec_atsInvalidate_link h⟩, exec_hostLinkDown_up, exec_vfEnable_vfs,
    exec_completionReceive_late, exec_completionReceive_unexpected, exec_completionReceive_ecrc, exec_cplTimeout_incomplete,
    exec_quarantineExpiry_due, exec_hostWindowAccess_write, exec_hostWindowAccess_read, exec_hostWindowAccess_read_beyond,
    exec_hostWindowAccess_write_beyond, exec_doeDiscovery, exec_doeDiscovery⟩
end Sys2Proof.Machine

/-! SUPPORT. Sensors, ready, sideband assignments, recovery, updates and the end of a splice (R404, R546 to R583). -/

namespace Sys2Proof.Machine

section
variable {t id seq eid addr reason core comp : Nat} {v : Int} {bus : SideBus} {static : Bool} {bytes : List Byte} {chk : ImgCheck}
  {x : Splice} {done accepted : List Nat} {s : State} {p : Page} {off lo n : Nat}

/-! ### Sensors -/

/-- In any map of registers, one that is set to another value than its reset value reads back. -/
theorem getReg_setReg_of_ne_resetReg {d : Dword} (h : d ≠ resetReg p off) : getReg (setReg s p off d) p off = d := by
  rw [getReg_eq_mgetD, setReg_regs, mputD, if_neg h, mgetD, mget_mput, if_pos rfl, Option.getD_some]

theorem fld_setFld_of_ne_reset {w : Nat} (hb : lo + n ≤ 32) (h : w % 2 ^ n ≠ bitsOf (resetReg p off).toNat lo n) :
    fld (setFld s p off lo n w) p off lo n = w % 2 ^ n := by
  have new : bitsOf (BitVec.ofNat 32 (withBits (reg s p off) lo n w)).toNat lo n = w % 2 ^ n := by
    rw [BitVec.toNat_ofNat, bitsOf_mod hb, bitsOf_withBits_same]
  have ne : BitVec.ofNat 32 (withBits (reg s p off) lo n w) ≠ resetReg p off := fun e => h (by rw [← e, new])
  rw [fld, reg, setFld, setRegN, getReg_setReg_of_ne_resetReg ne, new]

theorem checkSensor_no_thresholds (h : mget s.mgmt.thresholds id = none) : checkSensor id v s = s := by
  simp only [checkSensor, h]

theorem exec_sensorSample_kept (hs : isSensor id = true) (hp : ¬ (80 ≤ id ∧ id ≤ 95)) (h : mget s.mgmt.thresholds id = none) :
    exec (.sensorSample t id v) s = .next (setMgmt (atTime t s) fun m => { m with sensors := mput m.sensors id v }) := by
  simp only [exec_sensorSample, execSensorSample, hs, not_true_eq_false, if_false, if_neg hp]
  rw [checkSensor_no_thresholds (by exact h)]

/-- The first package derates at 85 degrees, and shows it (R546). -/
theorem exec_sensorSample_hot (hs : isSensor 80 = true) (h : mget s.mgmt.thresholds 80 = none)
    (hd : fld s (pMEMC 0) R.MEMC.STAT 1 1 = 0) (hv : 85 ≤ v) : exec (.sensorSample t 80 v) s = .next (penBit (pMEMC 0) 4
      (setFld (setMgmt (atTime t s) fun m => { m with sensors := mput m.sensors 80 v }) (pMEMC 0) R.MEMC.STAT 1 1 1)) := by
  have derates {w : State} (hw : fld w (pMEMC 0) R.MEMC.STAT 1 1 = 0) :
      derate 0 v w = penBit (pMEMC 0) 4 (setFld w (pMEMC 0) R.MEMC.STAT 1 1 1) := if_pos ⟨hw, hv⟩
  have package : 80 ≤ 80 ∧ 80 ≤ 95 := by decide
  simp only [exec_sensorSample, execSensorSample, hs, not_true_eq_false, if_false, if_pos package, Nat.sub_self]
  rw [derates (by exact hd), checkSensor_no_thresholds (by rw [penBit_mgmt]; exact h)]

/-! ### Ready, addresses and recovery -/

theorem exec_bootReady_posted (hp : s.power.phase = .running) (hm : s.mgmt.posted = true) (hr : s.mgmt.ready = false) :
    exec (.bootReady t) s = .next
      (let readied := setMgmt (atTime t s) fun m => { m with
         ready := true
         slots := if s.mgmt.running < 2 then m.slots.set s.mgmt.running { slotAt m s.mgmt.running with attempts := 0 } else m.slots }
       let armed := applyArb { readied with power := { readied.power with fwReady := [true, true] } }
       showMss (logEvent 0x0001 none [s.mgmt.running, reg armed pMSS R.MSS.FW_VER] armed)) := by
  have due : ¬ (s.power.phase ≠ .running ∨ ¬ s.mgmt.posted = true ∨ s.mgmt.ready = true) := by simp [hp, hm, hr]
  simp only [exec_bootReady, execBootReady]
  exact congrArg _ (if_neg due)

section
variable (ho : busOpen s bus = true) (hb : bus ≠ .doe)
include ho hb

theorem not_bus_silent : ¬ (¬ busOpen s bus = true ∨ bus = .doe) := not_or.mpr ⟨not_not_intro ho, hb⟩

theorem exec_setEndpointId_legal (h1 : 1 ≤ eid) (h2 : eid ≤ 254) : exec (.setEndpointId bus 0 eid) s = .next
    (emit (.sideband "MCTP" "SetEndpointID" ([0, 0] ++ leBytes 1 eid ++ [0]))
      (setMgmt (sideFrame s) fun m => { m with eids := mput m.eids (busNum bus) eid })) := by
  have legal : (eid == 0 || decide (255 ≤ eid)) = false := by simp; omega
  rw [exec_setEndpointId, execSetEndpointId, if_neg (not_bus_silent ho hb)]
  simp [legal]

theorem exec_setEndpointId_null : exec (.setEndpointId bus 0 0) s = .next
    (emit (.sideband "MCTP" "SetEndpointID" [2]) (sideFrame s)) := by
  rw [exec_setEndpointId, execSetEndpointId, if_neg (not_bus_silent ho hb)]
  rfl

end

theorem exec_dynamicAddressAssign_first (ha : s.power.alwaysOn = true) (hd : s.mgmt.dynAddr = none) (h : addr < 128) :
    exec (.dynamicAddressAssign addr static) s = .next (setMgmt s fun m => { m with dynAddr := some addr }) := by
  have first : ¬ (¬ s.power.alwaysOn = true ∨ s.mgmt.dynAddr.isSome = true ∨ 128 ≤ addr) := by simp [ha, hd, h]
  exact exec_dynamicAddressAssign.trans (congrArg _ (if_neg first))

theorem exec_dynamicAddressAssign_kept {a : Nat} (hd : s.mgmt.dynAddr = some a) :
    exec (.dynamicAddressAssign addr static) s = .next s :=
  exec_dynamicAddressAssign.trans (congrArg _ (if_pos (.inr (.inl (by simp [hd])))))

section
variable {u : FwUpdate} (ha : s.power.alwaysOn = true)
include ha

/-- A device whose main domain is off has nothing to take down before the loader runs (R570). -/
theorem exec_recoveryRequest_off (hr : (sideFrame (atTime t s)).mgmt.running ≠ 2)
    (hp : (breakSplice (sideFrame (atTime t s))).power.phase = .off) : exec (.recoveryRequest t) s = .next
      (let b := breakSplice (sideFrame (atTime t s))
       showMss (startMssPart (setMgmt (logEvent 0x0003 none [(freeVal b).1 % 256] (setAlert 5 true (freeVal b).2)) fun m => { m with
         running := 2, fw := m.loader.filter (imageOk m), fallback := false, ready := false, update := none }))) := by
  simp only [exec_recoveryRequest, execRecoveryRequest, atTime_power, ha, not_true_eq_false, if_false, if_neg hr, hp]

/-! ### Updates -/

theorem exec_requestUpdate_first (hs : (sideFrame (atTime t s)).mgmt.splice = none) (hu : (sideFrame (atTime t s)).mgmt.update = none) :
    exec (.requestUpdate t) s = .next
      (let b := freeBytes 3 (sideFrame (atTime t s))
       emit (.sideband "PLDM" "RequestUpdate" (0 :: b.1)) (setMgmt b.2 fun m => { m with update := some { path := 1, done := [] } })) := by
  simp only [exec_requestUpdate, execRequestUpdate, atTime_power, ha, not_true_eq_false, if_false, hs, hu, Option.isSome_none,
    Bool.false_eq_true, or_self]

theorem exec_requestUpdate_second (hu : (sideFrame (atTime t s)).mgmt.update = some u) :
    exec (.requestUpdate t) s = .next (emit (.sideband "PLDM" "RequestUpdate" [0x81]) (sideFrame (atTime t s))) := by
  simp only [exec_requestUpdate, execRequestUpdate, atTime_power, ha, not_true_eq_false, if_false, hu, Option.isSome_some, or_true,
    if_true]

end

/-- Outside ROM recovery a component of a PLDM update is written by its kind (R583). -/
theorem exec_updateComponent_eq (hu : s.mgmt.update = some { path := 1, done := done }) (hr : s.mgmt.running ≠ 2) :
    exec (.updateComponent t comp bytes chk) s = .next
      (if comp = 1 then
         componentDone 1 { path := 1, done := done } (writeSlot (spareSlot (atTime t s).mgmt) (parseImage bytes chk) (atTime t s))
       else if comp = 2 ∧ configOk s.mgmt bytes chk.trailer = true then
         componentDone 2 { path := 1, done := done } (setMgmt (atTime t s) fun m => { m with pendCfg := some (parseConfig bytes) })
       else if comp = 3 ∧ imageOk s.mgmt (parseImage bytes chk) = true then
         componentDone 3 { path := 1, done := done } (setMgmt (atTime t s) fun m => { m with loader := some (parseImage bytes chk) })
       else atTime t s) := by
  have noRom : (s.mgmt.running == 2 && s.mgmt.fw.isNone) = false := by simp [hr]
  simp only [exec_updateComponent, execUpdateComponent, atTime_mgmt, hu, noRom, ne_eq, not_true_eq_false, if_false,
    Bool.false_eq_true, not_false_eq_true, true_and, and_true]

section
variable (ha : s.power.alwaysOn = true)
include ha

theorem exec_activateFirmware_none (hu : (sideFrame (atTime t s)).mgmt.update = none) : exec (.activateFirmware t static) s = .next
    (emit (.sideband "PLDM" "ActivateFirmware" [0x80]) (sideFrame (atTime t s))) := by
  simp only [exec_activateFirmware, execActivateFirmware, atTime_power, ha, not_true_eq_false, if_false, hu]

/-- A written image takes effect by splice where self-contained activation is asked for, else by its slot's SEQ (R583). -/
theorem exec_activateFirmware_image (hu : (sideFrame (atTime t s)).mgmt.update = some { path := 1, done := done })
    (hd : done.contains 1 = true) (hp : static = true → (sideFrame (atTime t s)).power.phase = .running) :
    exec (.activateFirmware t static) s = .next
      (let f := sideFrame (atTime t s)
       let two := freeBytes 2 (setMgmt f fun m => { m with update := none })
       let answered := emit (.sideband "PLDM" "ActivateFirmware" (0 :: two.1)) two.2
       if static then startSplice (spareSlot f.mgmt) none answered else raiseSlot (spareSlot f.mgmt) answered) := by
  have hne : done ≠ [] := by rintro rfl; simp at hd
  have runs : ¬ (static = true ∧ (sideFrame (atTime t s)).power.phase ≠ .running) := fun h => h.2 (hp h.1)
  simp only [exec_activateFirmware, execActivateFirmware, atTime_power, ha, not_true_eq_false, if_false, hu, hd, hne, true_and,
    if_neg runs, ne_eq]

end

/-! ### The end of a splice -/

section
variable (hx : s.mgmt.splice = some x) (hd : deckPaused (atTime t s) = true)
include hx hd

theorem exec_spliceCommit_accepted (h : (handedOver (atTime t s).mgmt).all accepted.contains = true) :
    exec (.spliceCommit t accepted) s = .next (commitSplice x
      (enterImage (match (slotAt (atTime t s).mgmt x.slot).image with | some y => y.parts | none => []) (atTime t s))) := by
  have found : (atTime t s).mgmt.splice = some x := hx
  simp only [exec_spliceCommit, execSpliceCommit, found]
  exact congrArg _ (if_pos ⟨hd, h⟩)

theorem exec_spliceRollback_reason (h3 : 3 ≤ reason) (h5 : reason ≤ 5)
    (h4 : reason = 4 → x.at_ + 3 ≤ s.tick.count ∧ s.tick.edgeAt + s.tick.len ≤ t) :
    exec (.spliceRollback t reason core comp) s = .next (rollSplice reason core comp (atTime t s)) := by
  have told : ¬ (¬ deckPaused (atTime t s) = true ∨ reason < 3 ∨ 5 < reason) := by simp [hd, h3, h5]
  have due : ¬ (reason = 4 ∧ (s.tick.count < x.at_ + 3 ∨ t < s.tick.edgeAt + s.tick.len)) := by omega
  have found : (atTime t s).mgmt.splice = some x := hx
  simp only [exec_spliceRollback, execSpliceRollback, found, if_neg told]
  exact congrArg _ (if_neg due)

end

end

/-- Settles O51: each clause is the branch of its command that the conditions select; the pennant of a derated package leaves the
bit that shows the derating. -/
theorem managementBootUpdatesAndSplices : Obligations.ManagementBootUpdatesAndSplices := by
  intro t id seq eid addr reason core' comp' v bus static bytes chk x done accepted s u parts f k readied armed b logged three spare
    image open' ended two answered
  refine ⟨exec_sensorSample_kept, ?derated, rfl, exec_bootReady_posted, exec_mssWatchdog, exec_mssReset, exec_setEndpointId_legal,
    exec_setEndpointId_null, exec_dynamicAddressAssign_first, fun a => exec_dynamicAddressAssign_kept, exec_recoveryRequest_off,
    exec_requestUpdate_first, exec_requestUpdate_second, ?component, ?activate, exec_activateFirmware_none, ?splice⟩
  case derated =>
    intro hs ht hd hv
    refine ⟨_, exec_sensorSample_hot hs ht hd hv, ?_⟩
    rw [fld_penBit (by decide)]
    exact fld_setFld_of_ne_reset (by decide) (by decide)
  case component =>
    intro hu hr
    refine ⟨?_, fun hi => ?_, fun hc => ?_⟩ <;> rw [exec_updateComponent_eq hu hr]
    · rw [if_pos rfl]
    · rw [if_neg (by decide), if_neg (by simp), if_pos ⟨rfl, hi⟩]
    · rw [if_neg (by decide), if_pos ⟨rfl, hc⟩]
  case activate =>
    intro ha hu hd
    exact ⟨exec_activateFirmware_image ha hu hd nofun, fun hp => exec_activateFirmware_image ha hu hd fun _ => hp⟩
  case splice =>
    intro hx hd
    exact ⟨exec_spliceCommit_accepted hx hd,
      fun h => exec_spliceRollback_reason hx hd (by omega) (by omega) (by omega),
      fun ht he => exec_spliceRollback_reason hx hd (by omega) (by omega) fun _ => ⟨ht, he⟩⟩
end Sys2Proof.Machine

/-! SUPPORT. The tick edge as a whole (R57, R64, R73). -/

namespace Sys2Proof.Machine

section
variable {t e : Nat} {s : State}

theorem showLimit_tick : (showLimit s).tick = s.tick := by unfold showLimit; rfl

/-- A restart of the MSS firmware leaves the tick. -/
theorem firmwareRestart_tick : (firmwareRestart t s).tick = s.tick := by
  unfold firmwareRestart
  split
  · exact showLimit_tick
  · rfl

/-- With no switch due the count rises by one, and tick time by the period in force. -/
theorem edgeCount_no_switch (h : s.tick.pendSwitch = none) : edgeCount e s = emit (.tickOut (s.tick.count + 1))
    { s with tick := { s.tick with
      count := s.tick.count + 1, edgeAt := e, timeUs := s.tick.timeUs + s.tick.period, carried := s.tick.carried.map (· + 1) } } := by
  have own : adoptCount e s = (s.tick.count + 1, s) := by simp only [adoptCount, h]
  simp only [edgeCount, own, Nat.add_sub_cancel_left, Nat.mul_one]
  rfl

theorem exec_tickEdge_early (h : t < s.tick.edgeAt + s.tick.len) : exec (.tickEdge t) s = .next s :=
  congrArg _ (if_pos (.inl h))

theorem exec_tickEdge_due (h : s.tick.edgeAt + s.tick.len ≤ t) (hs : s.tick.started = true) (hp : s.power.phase = .running) :
    exec (.tickEdge t) s = .next (tickEdge (s.tick.edgeAt + s.tick.len) (firmwareRestart t (atTime t s))) :=
  congrArg _ (if_neg (by simp [hs, hp, h]))

end

/-- Settles O20: a due edge is `tickEdge`, whose step 1 adopts no count where no switch is due. -/
theorem tickEdgeRunsTheOrderedSteps : Obligations.TickEdgeRunsTheOrderedSteps := by
  intro t s e u counted
  refine ⟨exec_tickEdge_early, fun h hs hp hn => ?_⟩
  rw [exec_tickEdge_due h hs hp, tickEdge, edgeCount_no_switch hn, firmwareRestart_tick]
  rfl

end Sys2Proof.Machine

/-! SUPPORT. Tick sources: edges, messages, losses and the count latch (R58 to R66). -/

namespace Sys2Proof.Machine

section
variable {t e src n : Nat} {s : State}

/-! ### Edges of a source -/

theorem sourceEdge_beyond (hq : sourceQualified s 1 = true) (hd : 2000 < distance e (predicted s 1 e)) :
    sourceEdge 1 e s = penBit pTICK 2
      (setFld s pTICK R.TICK.SRC_STAT 16 16 (min 0xFFFF (fld s pTICK R.TICK.SRC_STAT 16 16 + 1))) := by
  simp only [sourceEdge, hq, hd, if_true]

/-- A near edge of a qualified source goes on with its run and is taken as the last. -/
def edgeTaken (src e : Nat) (s : State) : State :=
  let w := trackFreq src true (e - s.tick.lastSeen.getD src 0) (max 1 (periodsTo s src e) * (s.tick.period * 1000)) s
  { w with tick := { w.tick with lastSeen := w.tick.lastSeen.set src e } }

theorem sourceEdge_near (hq : sourceQualified s src = true) (hd : distance e (predicted s src e) ≤ 2000) :
    sourceEdge src e s =
      if activeSource (edgeTaken src e s) = src then showPhase (phaseAgainst (edgeTaken src e s) e) (edgeTaken src e s)
      else edgeTaken src e s := by
  simp only [sourceEdge, hq, if_neg (Nat.not_lt.mpr hd), if_true]
  rfl

/-- An edge of an unqualified source is good within 500 ns of the prediction that an earlier edge gives. -/
def goodEdge (src e : Nat) (s : State) : Bool :=
  decide (s.tick.lastSeen.getD src 0 ≠ 0) && decide (distance e (predicted s src e) ≤ 500)

/-- The good edges in a row, with the one at `e`. -/
def goodRun (src e : Nat) (s : State) : Nat := if goodEdge src e s then s.tick.good.getD src 0 + 1 else 0

/-- An edge of an unqualified source is taken as the last and counted. -/
def edgeCounted (src e : Nat) (s : State) : State :=
  let last := s.tick.lastSeen.getD src 0
  let w := trackFreq src (goodEdge src e s) (e - last) (predicted s src e - last) s
  { w with tick := { w.tick with lastSeen := w.tick.lastSeen.set src e, good := w.tick.good.set src (goodRun src e s) } }

theorem sourceEdge_unqualified (hq : sourceQualified s src = false) : sourceEdge src e s =
    if 8 ≤ goodRun src e s then chooseSource (setQualified src true (edgeCounted src e s)) else edgeCounted src e s := by
  simp only [sourceEdge, hq, Bool.false_eq_true, if_false]
  rfl

/-! ### Losses and holdover -/

/-- What a qualified source loses with its qualification; the frequency of the active one is held (R61, R64, R65). -/
def sourceGone (src : Nat) (s : State) : State :=
  let w := setQualified src false s
  { w with tick := { w.tick with
    good := w.tick.good.set src 0, bad := w.tick.bad.set src 0, unusable := w.tick.unusable.set src false
    wasLost := w.tick.wasLost.set src true, run := w.tick.run.set src (0, 0)
    hold := if activeSource s = src then freqOf s src else w.tick.hold } }

section
variable (hl : sourceLost s t src = true) (hq : sourceQualified s src = true)
include hl hq

theorem exec_srcLost_inactive (ha : activeSource (atTime t s) ≠ src) :
    exec (.srcLost t src) s = .next (chooseSource (sourceGone src (atTime t s))) := by
  have other : (activeSource s == src) = false := beq_false_of_ne ha
  simp only [exec_srcLost, execSrcLost, hl, hq, other, and_self, if_true, Bool.false_eq_true, if_false, sourceGone, if_neg ha]

theorem exec_srcLost_active (ha : activeSource (atTime t s) = src) : exec (.srcLost t src) s = .next
    (let h := setFld (penBit pTICK 0 (sourceGone src (atTime t s))) pTICK R.TICK.SRC_STAT 8 1 1
     chooseSource { h with tick := { h.tick with holdoverSince := some t, rem := 0 } }) := by
  have same : (activeSource s == src) = true := beq_of_eq ha
  simp only [exec_srcLost, execSrcLost, hl, hq, same, and_self, if_true, sourceGone, if_pos ha]
  rfl

end

theorem exec_holdoverExpiry_due {x : Nat} (h : s.tick.holdoverSince = some x) (hx : x + 10000000000 ≤ t)
    (hh : inHoldover s = true) : exec (.holdoverExpiry t) s = .next (penBit pTICK 3 (atTime t s)) := by
  simp only [exec_holdoverExpiry, execHoldoverExpiry, h, hx, hh, and_self, if_true]

/-! ### Messages and the count latch -/

/-- The Syncs in a row at or below 250 ns, with one of servo offset `offset` (R61). -/
def goodSyncs (offset : Int) (s : State) : Nat := if offset.natAbs ≤ 250 then s.tick.good.getD 2 0 + 1 else 0

/-- What a Sync stores of the servo offset and the PTP time it carries (R60, R61). -/
def syncStored (t : Nat) (offset : Int) (ns : Nat) (s : State) : State :=
  let w := match s.tick.ptpRef with
    | some r => trackFreq 2 (decide (offset.natAbs ≤ 1000)) (t - r.1) (ns - r.2) s
    | none => s
  let w : State := { w with tick := { w.tick with
    good := w.tick.good.set 2 (goodSyncs offset s)
    bad := w.tick.bad.set 2 (if 1000 < offset.natAbs then s.tick.bad.getD 2 0 + 1 else 0)
    lastSeen := w.tick.lastSeen.set 2 t, ptpRef := some (t, ns) } }
  if activeSource w = 2 then showPhase offset w else w

theorem exec_ptpMessage_sync {port dom ns : Nat} {offset : Int} (he : bitOf (reg s pTICK R.TICK.PTP_CFG) 4 = true)
    (hd : bitsOf (reg s pTICK R.TICK.PTP_CFG) 16 8 = dom) (hp : bitsOf (reg s pTICK R.TICK.PTP_CFG) 0 4 = port) :
    exec (.ptpMessage t port dom true offset ns) s = .next
      (let w := syncStored t offset ns (atTime t s)
       if 16 ≤ goodSyncs offset (atTime t s) ∧ sourceQualified w 2 = false then chooseSource (setQualified 2 true w) else w) := by
  simp only [← Bool.not_eq_true]
  exact congrArg _ (if_pos ⟨he, hd, hp, rfl⟩)

/-- A read of the low half of the count latches the high half for the reader alone (R58). -/
theorem exec_tickCountLoRead_seen {a : Agent} (h : sees s a pTICK = true) :
    exec (.tickCountLoRead (a, pageAt pTICK R.TICK.COUNT_LO)) s = .next { s with
      latches := mput s.latches (latchKey a (pageAt pTICK R.TICK.COUNT_HI)) (BitVec.ofNat 32 (s.tick.count / 2 ^ 32)) } := by
  have here : pageOf (pageAt pTICK R.TICK.COUNT_LO) = some pTICK := by decide
  have good : badAccess s (pageAt pTICK R.TICK.COUNT_LO) 4 = false := badAccess_eq_false here (sees_present h) (by decide)
  have off : pageAt pTICK R.TICK.COUNT_LO % 0x1000 = R.TICK.COUNT_LO := by decide
  have noCounter : ¬ (R.PC_VAL_LO ≤ R.TICK.COUNT_LO ∧ R.TICK.COUNT_LO < R.PC_VAL_LO + 64 ∧
    (R.TICK.COUNT_LO - R.PC_VAL_LO) % 8 = 0) := by decide
  have latches : latchLow pTICK R.TICK.COUNT_LO = true := by decide
  simp only [exec_tickCountLoRead, execTickCountLoRead, deviceLoad, good, deviceRead, here, h, off, if_neg noCounter, latches,
    Bool.false_eq_true, not_true_eq_false, if_false, if_true, Nat.reduceEqDiff]
  rfl

end

/-- Settles O21: each clause is the branch of its command that the conditions select. -/
theorem tickSourcesAndHoldover : Obligations.TickSourcesAndHoldover := by
  intro t src a s u e d last follows seen ok n counted gone
  have taken : exec (.tickinEdge t) s = .next (sourceEdge 1 e u) := rfl
  refine ⟨fun hq hd => ?far, fun hq hd => ?near, fun hq hn => ?unqualified, fun hq hn => ?qualifies,
    fun port dom offset ns he hd hp => exec_ptpMessage_sync he hd hp, exec_srcLost_inactive, exec_srcLost_active,
    fun x => exec_holdoverExpiry_due, exec_tickCountLoRead_seen⟩
  case far => rw [taken, sourceEdge_beyond hq hd]
  case near => rw [taken, sourceEdge_near hq hd]; rfl
  case unqualified =>
    rw [taken, sourceEdge_unqualified hq, if_neg (show ¬ 8 ≤ goodRun 1 e u from Nat.not_le.mpr hn)]; rfl
  case qualifies => rw [taken, sourceEdge_unqualified hq, if_pos (show 8 ≤ goodRun 1 e u from hn)]; rfl

end Sys2Proof.Machine

/-! SUPPORT. Triggers of the halyard (R77 to R80). -/

namespace Sys2Proof.Machine

section
variable {src t : Nat} {s : State}

theorem halyardTrigger_disabled (h : bitOf (reg s pTICK R.TICK.HALYARD_CTL) 0 = false ∨
    bitOf (reg s pTICK R.TICK.HALYARD_CTL) (4 + src) = false) : halyardTrigger src t s = s :=
  if_neg (by rcases h with h | h <;> simp [h])

section
variable (h0 : bitOf (reg s pTICK R.TICK.HALYARD_CTL) 0 = true)
  (hs : bitOf (reg s pTICK R.TICK.HALYARD_CTL) (4 + src) = true)
include h0 hs

/-- In tick mode a trigger waits for the edge, one at a time. -/
theorem halyardTrigger_tick (h1 : bitOf (reg s pTICK R.TICK.HALYARD_CTL) 1 = false) : halyardTrigger src t s =
    if s.tick.halWait.isSome then s else { s with tick := { s.tick with halWait := some ⟨src, t⟩ } } := by
  simp only [halyardTrigger, h0, hs, h1, and_self, if_true, Bool.false_eq_true, if_false]
  cases s.tick.halWait <;> rfl

/-- In immediate mode a trigger on its own latches at once, unless the edge follows within 20 ns. -/
theorem halyardTrigger_immediate (h1 : bitOf (reg s pTICK R.TICK.HALYARD_CTL) 1 = true)
    (hl : ∀ x, s.tick.halLast = some x → x + 1000 ≤ t)
    (he : s.tick.edgeAt + s.tick.len ≤ t ∨ t + 20 ≤ s.tick.edgeAt + s.tick.len) : halyardTrigger src t s =
    halyardLatch src 1 (t - s.tick.edgeAt) { s with tick := { s.tick with halLast := some t } } := by
  have clear : ¬ (t < s.tick.edgeAt + s.tick.len ∧ s.tick.edgeAt + s.tick.len < t + 20) := by omega
  have first (x : Nat) (h : s.tick.halLast = some x) : decide (t < x + 1000) = false :=
    decide_eq_false (Nat.not_lt.mpr (hl x h))
  simp only [halyardTrigger, h0, hs, h1, and_self, if_true, if_neg clear]
  cases h : s.tick.halLast with
  | none => rfl
  | some x => exact if_neg (by simp [first x h])

end

theorem exec_halyardFire_set {v : Nat} (h : v % 2 = 1) :
    exec (.halyardFire t v) s = .next (halyardTrigger 0 t (atTime t s)) := congrArg _ (if_pos h)

theorem exec_halyardFire_clear {v : Nat} (h : v % 2 = 0) : exec (.halyardFire t v) s = .next (atTime t s) :=
  congrArg _ (if_neg (by omega))

theorem exec_snapValidClear_present {p : Page} (h : pagePresent s p = true) :
    exec (.snapValidClear p) s = .next (setFld s p R.SNAP_STAT 31 1 0) := congrArg _ (if_pos h)

end

/-- Settles O22: the three commands raise their sources, and what a source raises is `halyardTrigger`. -/
theorem halyardAndSnapshots : Obligations.HalyardAndSnapshots := by
  intro t v p s u raises
  have raised {src : Nat} {i : Instr} {w : State} (h : exec i s = .next (halyardTrigger src t w)) : raises src i w :=
    ⟨fun hc => h.trans (congrArg _ (halyardTrigger_disabled hc)),
      fun h0 hs h1 => h.trans (congrArg _ (halyardTrigger_tick h0 hs h1)),
      fun h0 hs h1 hl he => h.trans (congrArg _ (halyardTrigger_immediate h0 hs h1 hl he))⟩
  exact ⟨fun hv => raised (exec_halyardFire_set hv), exec_halyardFire_clear, raised rfl, raised rfl, exec_snapValidClear_present⟩

end Sys2Proof.Machine

/-! SUPPORT. Items of a tile's engines: the descriptor at the head of a queue, and how it runs or is stopped (R72, R127, R165,
R178 to R190, R206, R217, R222 to R225). -/

namespace Sys2Proof.Machine

section
variable {tile k eng op aft slow left : Nat} {d : List Byte} {e : ItemEnd} {cyc : Cycles} {mo : CodedMotion} {c : Ctx} {p : Pic}
  {x : PoolSlot} {s : State}

/-! ### Items of the decode slice -/

theorem decodeHead_of_op (hd : headDesc s tile 1 = some d) (ho : byteAt d 0 = op) : decodeHead s tile op = some d := by
  simp only [decodeHead, hd, ho, true_or, if_true]

section
variable (hd : decodeHead s tile op = some d)
include hd

theorem runPicItem_stale (hs : stale s tile d = true) : runPicItem op tile e mo s = dropStale tile 1 s := by
  simp only [runPicItem, hd, hs, if_true]

theorem runPicItem_bad (hs : stale s tile d = false) (hb : badDecodeDesc d = true) :
    runPicItem op tile e mo s = endItem tile 1 6 (leAt d 4 2) (leAt d 8 4) e.cyc 0 0 s := by
  simp only [runPicItem, hd, hs, hb, Bool.false_eq_true, if_false, if_true]

/-- The status a picture's item ends with: a missing reference comes first (R165, R183). -/
def picItemStatus (m : Media) (d : List Byte) (e : ItemEnd) : Nat :=
  if refMissing m d ∧ ¬ descFlag d 4 then 2 else if e.status = 1 ∨ e.status = 5 then e.status else 0

/-- The units a picture's item leaves undecoded (R183). -/
def picItemLeft (d : List Byte) (p : Pic) (x : PoolSlot) (status : Nat) (bad : List Nat) : Nat :=
  if x.stopped ∨ status = 2 then leAt d 0x20 4 else (itemBad p.hdr (leAt d 0x1C 4) (leAt d 0x20 4) [] bad).length

theorem runPicItem_pooled (hs : stale s tile d = false) (hc : descCtx s tile d = some (k, c)) (hb : badDecodeDesc d = false)
    (hp : descPic (getMedia s k) d = some p) (hf : pictureFresh s p = false) (hw : workCycles e.cyc < 2 * leAt d 0xC 4)
    (hx : poolEntry s tile k (byteAt d 0x24) p (op == 2) = some x) : runPicItem op tile e mo s =
    (let status := picItemStatus (getMedia s k) d e
     endItem tile 1 status (leAt d 4 2) (leAt d 8 4) e.cyc (picItemLeft d p x status e.bad) 0
       (finishPicItem tile (leAt d 4 2) k d (op == 2) p x status e.bad mo (tagStage 1 (curPack s k) 0 false s))) := by
  simp only [runPicItem, hd, hs, hb, hc, hp, hf, hx, Bool.false_eq_true, if_false, if_neg (Nat.not_le.mpr hw)]
  rfl

end

theorem exec_releaseSlot_named (hd : decodeHead s tile 3 = some d) (hs : stale s tile d = false)
    (hc : descCtx s tile d = some (k, c)) (hb : badDecodeDesc d = false) : exec (.releaseSlot tile) s = .next
    (endItem tile 1 0 (leAt d 4 2) (leAt d 8 4) ⟨0, 0, 0⟩ 0 0 (showPool tile (putMedia k
      { getMedia s k with pool := (getMedia s k).pool.filter fun x => x.slot != byteAt d 0x24 } s))) := by
  simp only [exec_releaseSlot, execReleaseSlot, hd, hs, hb, hc, Bool.false_eq_true, if_false]

/-! ### Items of the shaper -/

/-- The slots that hold a descriptor's source pictures (R186). -/
def shapeSlots (d : List Byte) : List Nat := if byteAt d 0x2C = 0xFF then [byteAt d 0x10] else [byteAt d 0x10, byteAt d 0x2C]

theorem slotHeld_of_ready {m : Media} {y : Nat} (h : slotReady s m y = true) : slotHeld m y = true := by
  obtain ⟨x, hx, hr⟩ := List.any_eq_true.mp h
  exact List.any_eq_true.mpr ⟨x, hx, (Bool.and_eq_true_iff.mp hr).1⟩

theorem exec_shape_missing (hd : headDesc s tile 2 = some d) (hs : stale s tile d = false)
    (hc : descCtx s tile d = some (k, c)) (hb : badShapeDesc s d = false)
    (hm : ∃ y ∈ shapeSlots d, slotHeld (getMedia s k) y = false) :
    exec (.shape tile cyc) s = .next (endItem tile 2 2 (leAt d 4 2) (leAt d 8 4) cyc 0 0 s) := by
  have missing : ((shapeSlots d).any fun y => !slotHeld (getMedia s k) y) = true := by simpa using hm
  simp only [exec_shape, execShape, runShape, hd, hs, hb, hc, Bool.false_eq_true, if_false]
  exact congrArg _ (if_pos missing)

/-- The area a crop leaves of the descriptor's frame (R187). -/
def cropArea (crop : Option Area) (d : List Byte) : Area := crop.getD { x := 0, y := 0, w := leAt d 0x14 2, h := leAt d 0x16 2 }

/-- The first band of a frame whose matrix or range is a default (R188). -/
def firstDefault (m : Media) (prof d : List Byte) : Bool :=
  matrixDefault prof d (constantLuminance m d) && leAt d 0x1C 2 == 0

/-- The state in which a frame's crop is held and its events shown (R187, R188). -/
def cropShown (tile k : Nat) (crop : Option Area) (rejected : Bool) (prof d : List Byte) (s : State) : State :=
  cropEvents tile (crop != (getMedia s k).crop) rejected (firstDefault (getMedia s k) prof d)
    (putMedia k { getMedia s k with crop := crop } s)

/-- Bits 0 to 2 of a shaper result's dword 3 (R183). -/
def shapeFlags (m : Media) (crop : Option Area) (rejected : Bool) (prof d : List Byte) : Nat :=
  (if crop != m.crop then 1 else 0) + (if rejected then 2 else 0) + (if firstDefault m prof d then 4 else 0)

/-- The band's pieces are written and noted, and a frame whose last band this is counts (R190). -/
def bandShaped (tile k : Nat) (prof d : List Byte) (out : List (List Byte)) (s : State) : State :=
  let wrote := (bandWrites prof d out).foldl (fun s w => sliceWrite tile 2 w.1 w.2 s) s
  let noted := noteBand k (leAt d 0x20 8) (leAt d 0x1E 2) wrote.tick.count wrote
  if leAt prof 0x16 2 / max 1 (byteAt prof 0x19) ≤ leAt d 0x1C 2 + leAt d 0x1E 2 then
    perfEvent (pSHP tile) 0x100 0xFF 1 (shpCount tile 0 noted)
  else noted

/-- A band of ready slots ends by the scale and by the length of its output (R189, R190, R224). -/
theorem exec_shape_ready {crop : Option Area} {rejected : Bool} {prof : List Byte} {v dw dd : Nat} {w : State}
    (hd : headDesc s tile 2 = some d) (hs : stale s tile d = false) (hc : descCtx s tile d = some (k, c))
    (hb : badShapeDesc s d = false) (hr : ∀ y ∈ shapeSlots d, slotReady s (getMedia s k) y = true)
    (hw : workCycles cyc < 2 * leAt d 0xC 4) (hp : profileBytes s (byteAt d 1) = prof)
    (hcrop : nextCrop prof d (getMedia s k).crop ((framePlanes prof d (getMedia s k)).getD 0 []) = (crop, rejected))
    (hv : freeVal (cropShown tile k crop rejected prof d s) = (v, w))
    (hdw : displayWidth prof d v (cropArea crop d).w = (dw, dd)) : exec (.shape tile cyc) s = .next
      (let num := leAt d 4 2
       let ends (status : Nat) (u : State) : State :=
         endItem tile 2 status num (leAt d 8 4) cyc 0 (shapeFlags (getMedia s k) crop rejected prof d) u
       let a := cropArea crop d
       let ph := byteAt prof 0x19
       let shaped := bandShaped tile k prof d (outputPlanes prof (frameColour prof d) (framePlanes prof d (getMedia s k)) a.x a.w a.y a.h
         (fitOf prof a.h dw dd) (leAt d 0x1C 2 * ph) (leAt d 0x1E 2 * ph)) w
       if ¬ scaleOk prof a dw dd = true then
         ends 5 (dropSample k (errInfo (pSHP tile) 1 num (penBit (pSHP tile) 3 (shpCount tile 4 w))))
       else if leAt d 0x28 4 < frameBytes prof then ends 7 (dropSample k (errInfo (pSHP tile) 2 num (shpCount tile 4 w)))
       else ends 0 (tagStage 1 (curPack shaped k) 2 true shaped)) := by
  have held : ((shapeSlots d).any fun y => !slotHeld (getMedia s k) y) = false := by
    simpa using fun y hy => slotHeld_of_ready (hr y hy)
  have ready : ((shapeSlots d).any fun y => !slotReady s (getMedia s k) y) = false := by simpa using hr
  simp only [cropShown, firstDefault] at hv
  simp only [cropArea] at hdw
  simp only [shapeSlots] at held ready
  simp only [exec_shape, execShape, runShape, hd, hs, hc, hb, hp, held, ready, if_neg (Nat.not_le.mpr hw), hcrop, hv, hdw,
    Bool.false_eq_true, if_false, shapeFlags, firstDefault, cropArea, bandShaped, decide_eq_true_eq]
  rfl

/-! ### Items of the tensor block -/

theorem tensorHead_of_op (hd : headDesc s tile 3 = some d) (ho : byteAt d 0 = op) : tensorHead s tile op = some d := by
  simp only [tensorHead, hd, ho, true_or, if_true]

theorem exec_run_complete (hd : tensorHead s tile 1 = some d) (hs : stale s tile d = false)
    (hc : descCtx s tile d = some (k, c)) (hb : badTensorDesc s tile d = false) (hf : inputFresh s tile k d = false)
    (hl : overLimit d cyc = false) : exec (.run tile cyc) s = .next
    (let g := graphImage s (leAt d 2 2)
     let r := runOps tile k d g (leAt d 0x12 2) (leAt d 0x10 2) (EmitAcc.start s tile d) s
     finishTensor tile (leAt d 4 2) k d r.1 (bitOf (img.flags g) 0 && r.1.reached) cyc r.2) := by
  simp only [exec_run, execRun, hd, hs, hc, hb, hf, hl, Bool.false_eq_true, if_false]

/-- EMIT_TEXT costs 128 cycles and one for each 64 bytes of its record, `aft` of them after a tick edge (R222). -/
def textCycles (n aft slow : Nat) : Cycles :=
  { used := 128 + ceilDiv (recordLen (4 + n)) 64 - aft, after := min aft (128 + ceilDiv (recordLen (4 + n)) 64), slow := slow }

theorem exec_emitText_complete (hd : tensorHead s tile 2 = some d) (hs : stale s tile d = false)
    (hc : descCtx s tile d = some (k, c)) (hb : badTensorDesc s tile d = false)
    (hf : writtenNow s k (leAt d 0x2C 4) (4 + leAt d 0x30 2) = false)
    (hl : overLimit d (textCycles (leAt d 0x30 2) aft slow) = false) : exec (.emitText tile (aft, slow)) s = .next
    (let n := leAt d 0x30 2
     let src := leAt d 0x2C 4
     let read := sliceTouch tile src (4 + n) s
     let cap := tokenRecord 5 (recordFlags d) 0 n (leAt d 0x18 4) (leAt d 0x16 2) (byteAt d 0x32)
       (memRead read.mem (sliceKey tile src) (4 + n))
     let r := putRecord tile k cap { EmitAcc.start read tile d with poison := poisonsIn s tile src (4 + n) } read
     finishTensor tile (leAt d 4 2) k d r.1 false (textCycles n aft slow) (freeSpace k 2 (src - regionBase r.2 tile 2) r.2)) := by
  unfold textCycles at hl
  simp only [exec_emitText, execEmitText, hd, hs, hc, hb, hf, hl, Bool.false_eq_true, if_false]
  rfl

/-! ### Items that are stopped -/

/-- Reports leave streams, sets and contexts. -/
theorem reportStable_foundry (f : Foundry) : ReportStable fun w => w.foundry = f := ⟨fun _ h => h, fun h => h⟩

/-- The context a descriptor names rests on the contexts alone. -/
theorem descCtx_of_foundry {w : State} (h : w.foundry = s.foundry) : descCtx w tile d = descCtx s tile d := by
  simp only [descCtx, ctxAt, h]

section
variable (hs : stale s tile d = false)
include hs

theorem exec_itemLimit_picture (hd : headDesc s tile 1 = some d) (hw : 2 * leAt d 0xC 4 ≤ workCycles e.cyc)
    (hc : descCtx s tile d = some (k, c)) (hp : descPic (getMedia (decEvent tile (leAt d 4 2) 9 5 3 s) k) d = some p)
    (hx : poolEntry (decEvent tile (leAt d 4 2) 9 5 3 s) tile k (byteAt d 0x24) p (byteAt d 0 == 2) = some x) :
    exec (.itemLimit tile 1 e) s = .next
      (endItem tile 1 3 (leAt d 4 2) (leAt d 8 4) e.cyc (itemBad p.hdr (leAt d 0x1C 4) (leAt d 0x20 4) [] e.bad).length 0
        (finishPicItem tile (leAt d 4 2) k d (byteAt d 0 == 2) p x 3 e.bad ⟨[], []⟩ (decEvent tile (leAt d 4 2) 9 5 3 s))) := by
  simp only [exec_itemLimit, execItemLimit, hd, if_neg (Nat.not_lt.mpr hw), if_true, limitPicItem, hs, hc, hp, hx,
    Bool.false_eq_true, if_false]

theorem exec_itemLimit_shape (hd : headDesc s tile 2 = some d) (hw : 2 * leAt d 0xC 4 ≤ workCycles e.cyc)
    (hc : descCtx s tile d = some (k, c)) : exec (.itemLimit tile 2 e) s = .next
      (endItem tile 2 3 (leAt d 4 2) (leAt d 8 4) e.cyc 0 0
        (dropSample k (errInfo (pSHP tile) 3 (leAt d 4 2) (shpCount tile 4 s)))) := by
  have reported : (errInfo (pSHP tile) 3 (leAt d 4 2) (shpCount tile 4 s)).foundry = s.foundry :=
    (reportStable_foundry s.foundry).errInfo rfl
  simp only [exec_itemLimit, execItemLimit, hd, if_neg (Nat.not_lt.mpr hw), limitShape, hs, descCtx_of_foundry reported, hc,
    Bool.false_eq_true, if_false, if_true, OfNat.ofNat_ne_one]

theorem exec_tensorItemLimit_reached (hd : headDesc s tile 3 = some d) (hl : overLimit d cyc = true)
    (hc : descCtx (endItem tile 3 3 (leAt d 4 2) (leAt d 8 4) cyc 0 0
      (errInfo (pTEN tile) 2 (leAt d 4 2) (penBit (pTEN tile) 2 (tenCount tile 1 1 s)))) tile d = some (k, c)) :
    exec (.tensorItemLimit tile cyc.used (cyc.after, cyc.slow)) s = .next
      (dropSample k (freeRun k d (endItem tile 3 3 (leAt d 4 2) (leAt d 8 4) cyc 0 0
        (errInfo (pTEN tile) 2 (leAt d 4 2) (penBit (pTEN tile) 2 (tenCount tile 1 1 s)))))) := by
  simp only [exec_tensorItemLimit, execTensorItemLimit, hd, hl, if_true, limitTensor, hs, hc, Bool.false_eq_true, if_false]

theorem budgetStop_named (hc : descCtx (endItem tile eng 4 (leAt d 4 2) (leAt d 8 4) cyc left 0 s) tile d = some (k, c)) :
    budgetStop tile eng cyc left d s = dropSample k (endItem tile eng 4 (leAt d 4 2) (leAt d 8 4) cyc left 0 s) := by
  simp only [budgetStop, hs, hc, Bool.false_eq_true, if_false]

end

theorem budgetStop_stale (hs : stale s tile d = true) : budgetStop tile eng cyc left d s = dropStale tile eng s := if_pos hs

theorem exec_itemExpiry_due (h1 : 1 ≤ eng) (h3 : eng ≤ 3) (hd : headDesc s tile eng = some d)
    (ht : (getEng s tile eng).start + 8 ≤ s.tick.count) :
    exec (.itemExpiry tile eng cyc left) s = .next (budgetStop tile eng cyc left d s) := by
  simp only [exec_itemExpiry, execItemExpiry, hd, if_neg (show ¬ (eng < 1 ∨ 3 < eng) by omega), if_neg (Nat.not_lt.mpr ht)]

end

/-- Settles O29: each clause is the branch of its command that the head descriptor and its conditions select; the shaper's three
ends of ready slots are one branch, told apart by the scale and the length of the output. -/
theorem engineItemsOfATile : Obligations.EngineItemsOfATile := by
  intro tile k eng aft slow left d e cyc mo c p x s num tag head within named m g prof planes crop dflt lo v area dw ph out wrote noted
    shaped slots shapes n src read text cap cost spent
  -- The branch of ready slots, with its pairs written as their halves.
  have shape (h : shapes) := by
    obtain ⟨hd, ⟨hs, hc⟩, hb, hr, hw⟩ := h
    exact exec_shape_ready (crop := crop.1) (rejected := crop.2) (v := v.1) (w := v.2) (dw := dw.1) (dd := dw.2) hd hs hc hb hr hw rfl
      Prod.mk.eta.symm Prod.mk.eta.symm Prod.mk.eta.symm
  refine ⟨fun hd hs ho => congrArg _ (runPicItem_stale (decodeHead_of_op hd ho) hs),
    fun hd hs hb ho => congrArg _ (runPicItem_bad (decodeHead_of_op hd ho) hs hb), ?picture,
    fun hd ho ⟨hs, hc⟩ hb => exec_releaseSlot_named (decodeHead_of_op hd ho) hs hc hb,
    fun hd ⟨hs, hc⟩ hb hm => exec_shape_missing hd hs hc hb hm,
    fun h hz => (shape h).trans (congrArg _ (if_pos (ne_true_of_eq_false hz))),
    fun h hz hl => (shape h).trans (congrArg _ ((if_neg (not_not_intro hz)).trans (if_pos hl))),
    fun h hz hl => (shape h).trans (congrArg _ ((if_neg (not_not_intro hz)).trans (if_neg (Nat.not_lt.mpr hl)))),
    fun hd ho ⟨hs, hc⟩ hb hf hl => exec_run_complete (tensorHead_of_op hd ho) hs hc hb hf hl,
    fun hd ho ⟨hs, hc⟩ hb hf hl => exec_emitText_complete (tensorHead_of_op hd ho) hs hc hb hf hl,
    fun hd hw ⟨hs, hc⟩ hp hx => exec_itemLimit_picture hs hd hw hc hp hx,
    fun hd hw ⟨hs, hc⟩ => exec_itemLimit_shape hs hd hw hc,
    fun hd hl hs hc => exec_tensorItemLimit_reached hs hd hl hc, ?expiry⟩
  case picture =>
    intro op hop hd ho ⟨hs, hc⟩ hb hp hf hw hx
    have item := runPicItem_pooled (mo := mo) (decodeHead_of_op hd ho) hs hc hb hp hf hw hx
    rcases List.mem_pair.mp hop with rfl | rfl
    · rw [if_pos rfl, exec_decode, execDecode, item]; rfl
    · rw [if_neg (show ¬ 2 = 1 by decide), exec_parse, execParse, item]; rfl
  case expiry =>
    intro h1 h3 hd ht
    exact ⟨fun hs => (exec_itemExpiry_due h1 h3 hd ht).trans (congrArg _ (budgetStop_stale hs)),
      fun hs hc => (exec_itemExpiry_due h1 h3 hd ht).trans (congrArg _ (budgetStop_named hs hc))⟩

end Sys2Proof.Machine

/-! SUPPORT. Writes of BLK_CTL as commands, and the block states they lead to (R87, R88, R90, R226, R532, R534, R603, R606). -/

namespace Sys2Proof.Machine

section
variable {t : Nat} {a : Agent} {p : Page} {s : State}

/-! ### What the page of the agent does at the command's time -/

theorem exec_blkEnable_seen (h : sees s a p = true) : exec (.blkEnable t a p) s = .next (enableBlock p (atTime t s)) := by
  rw [exec_blkEnable, execBlkEnable, if_pos h]

theorem exec_blkDisable_seen (h : sees s a p = true) : exec (.blkDisable t a p) s = .next (disableBlock p (atTime t s)) := by
  rw [exec_blkDisable, execBlkDisable, if_pos h]

theorem exec_blkFence_seen (h : sees s a p = true) : exec (.blkFence t a p) s = .next (writeFence p (atTime t s)) := by
  rw [exec_blkFence, execBlkFence, if_pos h]

theorem exec_blkUnfence_seen (h : sees s a p = true) : exec (.blkUnfence t a p) s = .next (writeUnfence p (atTime t s)) := by
  rw [exec_blkUnfence, execBlkUnfence, if_pos h]

theorem exec_blkSoftReset_seen (h : sees s a p = true) : exec (.blkSoftReset t a p) s = .next (softReset p (atTime t s)) := by
  rw [exec_blkSoftReset, execBlkSoftReset, if_pos h]

/-! ### Enabling and disabling -/

/-- The partition leaves WORK less than 16 MiB (R226). -/
def PartTooSmall (p : Page) (s : State) : Prop := p.ty = .sramt ∧ fld s p R.BLK_CTL 0 1 = 0 ∧ 176 < partOthers s p.inst

theorem enableBlock_tooSmall (h : PartTooSmall p s) : enableBlock p s = errInfo p 3 (partAll s p.inst) (penBit p 3 s) := if_pos h

theorem enableBlock_enters (h : ¬ PartTooSmall p s) :
    enableBlock p s = if blkState s p = 0 then enterRunning p (setFld s p R.BLK_CTL 0 1 1) else setFld s p R.BLK_CTL 0 1 1 :=
  if_neg h

theorem disableBlock_always (h : alwaysEnabled p.ty = true) : disableBlock p s = s := if_pos h

theorem disableBlock_idle (h : alwaysEnabled p.ty = false)
    (hst : enabledState p (blkState (setFld s p R.BLK_CTL 0 1 0) p) = false) : disableBlock p s = setFld s p R.BLK_CTL 0 1 0 :=
  (if_neg (ne_true_of_eq_false h)).trans (if_pos (ne_true_of_eq_false hst))

/-- A running block with its ENABLE cleared, as it enters STOPPING (R88): a function's pairs are deleted (R603), a link goes down
(R606), PAIR keeps its mode. -/
def enterStopping (p : Page) (s : State) : State :=
  let w := setBlkState (if p.ty = .pair then setPairX s fun x => { x with stopMode := pairMode s } else s) p 2
  match p.ty with
  | .func => (w.pairs.filter fun e => e.1 / 64 == p.inst).foldl (fun s e => deletePair p.inst (e.1 % 64) s) w
  | .link => quietLink p.inst w
  | _ => w

theorem disableBlock_stops (h : alwaysEnabled p.ty = false)
    (hst : enabledState p (blkState (setFld s p R.BLK_CTL 0 1 0) p) = true) :
    disableBlock p s =
      let stopping := enterStopping p (setFld s p R.BLK_CTL 0 1 0)
      if workInHand stopping p then stopping else toDisabled p stopping :=
  (if_neg (ne_true_of_eq_false h)).trans (if_neg (not_not_intro hst))

theorem exec_blkStopped_idle (hp : pagePresent s p = true) (hst : blkState (atTime t s) p = 2)
    (hw : workInHand (atTime t s) p = false) : exec (.blkStopped t p) s = .next (toDisabled p (atTime t s)) := by
  have hp' : pagePresent (atTime t s) p = true := hp
  simp only [exec_blkStopped, execBlkStopped, hp', hst, hw, Bool.false_eq_true, not_false_eq_true, and_self, if_true]

/-! ### Fences -/

theorem writeUnfence_rejoins (hok : fenceOk s p = true) (hst : blkState s p = 3)
    (hrun : ¬ (p.ty = .tile ∧ (s.intg.runs.any fun r => r.tile == p.inst) = true))
    (htest : p.ty = .tile → needsTest s p.inst = false) :
    writeUnfence p s = setBlkState (setFld s p R.BLK_CTL 1 1 0) p 5 := by
  have hready : ¬ (p.ty = .tile ∧ needsTest s p.inst = true) :=
    fun ⟨hty, hn⟩ => Bool.false_ne_true ((htest hty).symm.trans hn)
  rw [writeUnfence, if_neg (by simp [hok, hst]), if_neg hready, if_neg hrun]

/-- A tile that needs a test is not admitted again (R534). -/
theorem writeUnfence_needsTest (hok : fenceOk s p = true) (hst : blkState s p = 3) (hty : p.ty = .tile)
    (htest : needsTest s p.inst = true) : writeUnfence p s = penBit pINTG 8 s := by
  rw [writeUnfence, if_neg (by simp [hok, hst]), if_pos ⟨hty, htest⟩, intgPen]

/-! ### Soft reset -/

theorem softReset_allowed (h : sresetOk s p = true) :
    softReset p s = setBlkState (resetTables p
      (resetPage (resetFirst p ((s.cmds.filter (namesPage p)).foldl abortHeld s)) p [R.BLK_STAT])) p 4 := if_neg (not_not_intro h)

theorem exec_softResetDone_ends (hp : pagePresent s p = true) (hst : blkState (atTime t s) p = 4) (hf : p.ty ≠ .func)
    (hrun : ¬ (p.ty = .tile ∧ ((atTime t s).intg.runs.any fun r => r.tile == p.inst) = true)) :
    exec (.softResetDone t p) s = .next (endSoftReset p (atTime t s)) := by
  have hp' : pagePresent (atTime t s) p = true := hp
  simp only [exec_softResetDone, execSoftResetDone, hp', hst, hf, hrun, ne_eq, not_true_eq_false, or_self, if_false]

end

/-- Settles O25: each clause is the branch of its command that the block's type, state and bits select. -/
theorem blockStatesFollowTheControlBits : Obligations.BlockStatesFollowTheControlBits := by
  intro t a p s seen u tooSmall off stopping underTest
  have present : pagePresent s p = true := sees_present seen
  have fence : exec (.blkFence t a p) s = .next (writeFence p u) := exec_blkFence_seen seen
  have unfence : exec (.blkUnfence t a p) s = .next (writeUnfence p u) := exec_blkUnfence_seen seen
  have enable : exec (.blkEnable t a p) s = .next (enableBlock p u) := exec_blkEnable_seen seen
  have disable : exec (.blkDisable t a p) s = .next (disableBlock p u) := exec_blkDisable_seen seen
  exact ⟨fun small => enable.trans (congrArg _ (enableBlock_tooSmall small)),
    fun fits => enable.trans (congrArg _ (enableBlock_enters fits)),
    fun always => disable.trans (congrArg _ (disableBlock_always always)),
    fun can idle => disable.trans (congrArg _ (disableBlock_idle can idle)),
    fun can runs => disable.trans (congrArg _ (disableBlock_stops can runs)),
    exec_blkStopped_idle present,
    fun ok st => fence.trans (congrArg _ (if_pos ⟨ok, st⟩)),
    fun ok st run test => unfence.trans (congrArg _ (writeUnfence_rejoins ok st run test)),
    fun ok st tile test => unfence.trans (congrArg _ (writeUnfence_needsTest ok st tile test)),
    fun ok => (exec_blkSoftReset_seen seen).trans (congrArg _ (softReset_allowed ok)),
    fun st type run => exec_softResetDone_ends present st type run⟩

end Sys2Proof.Machine

/-! SUPPORT. Service queues: doorbells, the fetch of a command, and the commands of the control plane (R105 to R114, R363). -/

namespace Sys2Proof.Machine

section
variable {func pair index : Nat} {p : QPair} {s : State}

/-! ### Doorbells -/

theorem exec_sqTail_pair (hp : getPair s func pair = some p) : exec (.sqTail func pair index) s =
    .next (if index < p.sqDepth then setPair s func pair { p with sqTail := index } else penBit (pFUNC func) 0 s) := by
  simp only [exec_sqTail, execSqTail, hp]

theorem exec_cqHead_pair (hp : getPair s func pair = some p) : exec (.cqHead func pair index) s =
    .next (if index < p.cqDepth then setPair s func pair { p with cqHead := index } else penBit (pFUNC func) 0 s) := by
  simp only [exec_cqHead, execCqHead, hp]

/-- A doorbell of no pair, or beyond its depth, is an error of the function (R105). -/
theorem exec_sqTail_bad (h : getPair s func pair = none ∨ getPair s func pair = some p ∧ p.sqDepth ≤ index) :
    exec (.sqTail func pair index) s = .next (penBit (pFUNC func) 0 s) := by
  rcases h with absent | ⟨hp, beyond⟩
  · simp only [exec_sqTail, execSqTail, absent]
  · rw [exec_sqTail_pair hp, if_neg (Nat.not_lt.mpr beyond)]

theorem exec_cqHead_bad (h : getPair s func pair = none ∨ getPair s func pair = some p ∧ p.cqDepth ≤ index) :
    exec (.cqHead func pair index) s = .next (penBit (pFUNC func) 0 s) := by
  rcases h with absent | ⟨hp, beyond⟩
  · simp only [exec_cqHead, execCqHead, absent]
  · rw [exec_cqHead_pair hp, if_neg (Nat.not_lt.mpr beyond)]

/-! ### Fetch -/

/-- The pair is ACTIVE with a waiting entry and a completion entry to reserve, and the function is fetched for (R105). -/
def CanFetch (func pair : Nat) (p : QPair) (s : State) : Prop :=
  getPair s func pair = some p ∧ p.state = 1 ∧ p.sqHead ≠ p.sqTail ∧ cqUsed s func pair p + 1 < p.cqDepth ∧
    fetchAllowed s func = true

/-- The command that the dwords read from the submission queue make. -/
def fetchedCmd (func pair : Nat) (dw : List Dword) (s : State) : SvcCmd := {
  func := func, pair := pair, cid := bitsOf (dw.getD 0 0).toNat 16 16, dw := dw, begun := false
  seq := s.cmdSeq, tick := s.tick.count }

/-- The head has moved by one in the ring, and the command of those dwords is in hand. -/
def afterFetch (func pair : Nat) (p : QPair) (dw : List Dword) (s : State) : State :=
  let w := setPair s func pair { p with sqHead := (p.sqHead + 1) % p.sqDepth }
  { w with cmds := w.cmds ++ [fetchedCmd func pair dw s], cmdSeq := w.cmdSeq + 1 }

/-- The function has agreed on a version, and the command is of its major version (R99, R109). -/
def VersionOk (c : SvcCmd) (func : Nat) (s : State) : Prop :=
  bitOf (agreement s func) 31 = true ∧ bitsOf (agreement s func) 8 8 = bitsOf (c.d 0) 12 4

theorem CanFetch.noObstacle (h : CanFetch func pair p s) :
    ¬ (p.state ≠ 1 ∨ p.sqHead = p.sqTail ∨ p.cqDepth ≤ cqUsed s func pair p + 1 ∨ ¬ fetchAllowed s func = true) := by
  obtain ⟨-, active, waiting, room, allowed⟩ := h
  simp only [active, waiting, Nat.not_le.mpr room, allowed, ne_eq, not_true_eq_false, or_self, not_false_eq_true]

theorem CanFetch.exec_readFailed (h : CanFetch func pair p s) :
    exec (.commandFetch func pair none) s = .next (setPair s func pair { p with state := 3 }) := by
  simp only [exec_commandFetch, execCommandFetch, h.1, if_neg h.noObstacle]

/-- A command that is taken is checked for its version, then by the command table. -/
theorem CanFetch.exec_read (h : CanFetch func pair p s) (dw : List Dword) :
    let c := fetchedCmd func pair dw s
    let w := afterFetch func pair p dw s
    exec (.commandFetch func pair (some dw)) s = .next
      (if ¬ bitOf (agreement w func) 31 = true ∨ bitsOf (agreement w func) 8 8 ≠ bitsOf (c.d 0) 12 4 then
         complete c st.VERSION 0 w
       else match fieldOffence s c with
         | some off => complete c st.INVALID_FIELD off w
         | none => w) := by
  rw [exec_commandFetch, execCommandFetch, h.1]
  exact congrArg _ (if_neg h.noObstacle)

section
variable {dw : List Dword} (h : CanFetch func pair p s)
include h

theorem CanFetch.exec_wrongVersion (hv : ¬ VersionOk (fetchedCmd func pair dw s) func (afterFetch func pair p dw s)) :
    exec (.commandFetch func pair (some dw)) s =
      .next (complete (fetchedCmd func pair dw s) st.VERSION 0 (afterFetch func pair p dw s)) :=
  (h.exec_read dw).trans (congrArg _ (if_pos (Decidable.not_and_iff_or_not.mp hv)))

variable (hv : VersionOk (fetchedCmd func pair dw s) func (afterFetch func pair p dw s))
include hv

theorem CanFetch.exec_invalidField (offence : fieldOffence s (fetchedCmd func pair dw s) = some index) :
    exec (.commandFetch func pair (some dw)) s =
      .next (complete (fetchedCmd func pair dw s) st.INVALID_FIELD index (afterFetch func pair p dw s)) := by
  rw [h.exec_read, if_neg fun wrong => Decidable.not_and_iff_or_not.mpr wrong hv, offence]

theorem CanFetch.exec_inHand (sound : fieldOffence s (fetchedCmd func pair dw s) = none) :
    exec (.commandFetch func pair (some dw)) s = .next (afterFetch func pair p dw s) := by
  rw [h.exec_read, if_neg fun wrong => Decidable.not_and_iff_or_not.mpr wrong hv, sound]

end

/-! ### Commands -/

section
variable {k : CmdRef} {c : SvcCmd} {op status result : Nat} {w : State} {inv : SvcCmd → State → Option Nat}
  {fenced : SvcCmd → State → Bool} {body : SvcCmd → State → SvcEnd}

/-- A ready command whose checks pass completes as its own part ends it. -/
theorem runSvc_completes (h : SvcReady k op c s) (hi : inv c s = none) (hf : fenced c s = false)
    (hb : body c s = .done status result w) : runSvc k op inv fenced body s = complete c status result w := by
  simp only [runSvc_ready _ _ _ h, hi, hf, hb, Bool.false_eq_true, if_false]

/-- A ready command whose checks pass and whose own part waits has begun. -/
theorem runSvc_waits (h : SvcReady k op c s) (hi : inv c s = none) (hf : fenced c s = false)
    (hb : body c s = .wait w) : runSvc k op inv fenced body s = markBegun c w := by
  simp only [runSvc_ready _ _ _ h, hi, hf, hb, Bool.false_eq_true, if_false]

theorem runSvc_fenced (h : SvcReady k op c s) (hi : inv c s = none) (hf : fenced c s = true) :
    runSvc k op inv fenced body s = complete c st.FENCED 0 s := by
  simp only [runSvc_ready _ _ _ h, hi, hf, if_true]

/-- The pairs that a FUNC_RES_CFG in hand is about to leave the function; all where there is none (R363). -/
def pendingPairs (s : State) (func : Nat) : Nat :=
  match begunOn s 0x95 func with
  | some d => bitsOf (d.d 7) 0 7
  | none => 64

theorem exec_createQpair_absent (h : SvcReady k 1 c s) (reserved : c.obj < fld s (pFUNC c.func) R.FUNC.RES_SVC 0 7)
    (pending : c.obj < pendingPairs s c.func) (absent : pairState s c.func c.obj = 0) : exec (.createQpair k) s =
      .next (complete c st.OK 0 (setPair s c.func c.obj (newPair (c.q 4) (c.q 6) (c.d 8)))) :=
  congrArg _ (runSvc_completes h (if_neg (Nat.not_le.mpr (Nat.lt_min.mpr ⟨reserved, pending⟩))) rfl
    (if_neg (not_not_intro absent)))

theorem exec_deleteQpair_open (h : SvcReady k 2 c s) (state : pairState s c.func c.obj = 1 ∨ pairState s c.func c.obj = 3) :
    exec (.deleteQpair k) s = .next (markBegun c (deletePair c.func c.obj s)) :=
  congrArg _ (runSvc_waits h rfl rfl (if_pos state))

end

end

/-- Settles O26: each clause is the branch of its command that the pair's state and the command's checks select. -/
theorem serviceQueuesAndControlCommands : Obligations.ServiceQueuesAndControlCommands := by
  intro func pair index k c p dw s taken inHand fetches abiOk pend
  have can : fetches → CanFetch func pair p s := id
  exact ⟨fun hp within => (exec_sqTail_pair hp).trans (congrArg _ (if_pos within)),
    fun hp within => (exec_cqHead_pair hp).trans (congrArg _ (if_pos within)),
    exec_sqTail_bad, exec_cqHead_bad,
    fun h => (can h).exec_readFailed,
    fun h => (can h).exec_wrongVersion, fun h => (can h).exec_invalidField, fun h => (can h).exec_inHand,
    fun h => congrArg _ (runSvc_completes h rfl rfl rfl),
    fun h free => congrArg _ (runSvc_completes h rfl free rfl),
    fun h fenced => congrArg _ (runSvc_fenced h rfl fenced),
    exec_createQpair_absent, exec_deleteQpair_open,
    fun deleting unused => congrArg _ (if_pos ⟨deleting, unused⟩)⟩

end Sys2Proof.Machine

/-! SUPPORT. The bring-up of a feed link, its retraining and its patterns (R98, R274, R281 to R283, R308). -/

namespace Sys2Proof.Machine

section
variable {t l : Nat} {s : State}

/-! ### The course of time leaves the link -/

@[simp] theorem lstate_atTime : lstate (atTime t s) l = lstate s l := rfl
@[simp] theorem linkUp_atTime : linkUp (atTime t s) l = linkUp s l := rfl
@[simp] theorem getLink_atTime : getLink (atTime t s) l = getLink s l := rfl

end

section
variable {t l a b v : Nat} {payload : List Byte} {s : State} (hl : l < 48)
include hl

/-! ### Training and alignment -/

theorem exec_phyTrainDone_training (h : lstate s l = 1) : exec (.phyTrainDone t l a b) s =
    .next (let x := getLink s l
           let phy := (x.phy ||| a) &&& linkLanes s l
           let phyFailed := (x.phyFailed ||| b) &&& linkLanes s l
           let w := putLink l { x with phy := phy, phyFailed := phyFailed } (atTime t s)
           if (phy ||| phyFailed) = linkLanes s l ∧ phy ≠ 0 then enterLock l w else w) :=
  congrArg _ (if_neg (not_or.mpr ⟨Nat.not_le.mpr hl, not_not_intro h⟩))

theorem exec_flitLockDone_locking (h : lstate s l = 2) : exec (.flitLockDone t l a b) s =
    .next (let x := getLink s l
           let lock := (x.lock ||| a) &&& x.phy
           let lockFailed := (x.lockFailed ||| b) &&& x.phy
           let w := putLink l { x with lock := lock, lockFailed := lockFailed } (atTime t s)
           if (lock ||| lockFailed) = x.phy ∧ lock ≠ 0 then enterParam l w else w) :=
  congrArg _ (if_neg (not_or.mpr ⟨Nat.not_le.mpr hl, not_not_intro h⟩))

/-! ### The limits of the steps -/

theorem exec_bringUpLimit_train (h : lstate s l = 1) (due : (getLink s l).stepAt + 500000000 ≤ t) :
    exec (.bringUpLimit t l) s =
      .next (if (getLink s l).phy ≠ 0 then enterLock l (atTime t s) else failLink l 1 1 (atTime t s)) := by
  simp only [exec_bringUpLimit, execBringUpLimit, if_neg (Nat.not_le.mpr hl), lstate_atTime, getLink_atTime, h, due, decide_true,
    not_true_eq_false, if_false]
  rfl

theorem exec_bringUpLimit_lock (h : lstate s l = 2) (due : (getLink s l).stepAt + 1000000 ≤ t) :
    exec (.bringUpLimit t l) s =
      .next (if (getLink s l).lock ≠ 0 then enterParam l (atTime t s) else failLink l 1 2 (atTime t s)) := by
  simp only [exec_bringUpLimit, execBringUpLimit, if_neg (Nat.not_le.mpr hl), lstate_atTime, getLink_atTime, h, due, decide_true,
    not_true_eq_false, if_false]
  rfl

theorem exec_bringUpLimit_param (h : lstate s l = 3) (due : (getLink s l).stepAt + 100000 ≤ t) :
    exec (.bringUpLimit t l) s = .next (failLink l 1 3 (atTime t s)) := by
  simp only [exec_bringUpLimit, execBringUpLimit, if_neg (Nat.not_le.mpr hl), lstate_atTime, getLink_atTime, h, due, decide_true,
    not_true_eq_false, if_false]

theorem exec_linkRetry_due (h : lstate s l = 6) (due : (getLink s l).stepAt + 1000000000 ≤ t) :
    exec (.linkRetry t l) s = .next (startLink l (atTime t s)) :=
  congrArg _ (if_pos ⟨hl, h, due⟩)

/-! ### Parameters -/

theorem exec_param_inStep (h : lstate s l = 3) : exec (.param t l payload) s =
    .next (let w := putLink l { getLink s l with peer := some (parseParam payload) } (atTime t s)
           settleParam l (sendCtrl l (linkParam w l 2) w)) := by
  simp only [exec_param, execParam, lstate_atTime, getLink_atTime, h, Nat.not_le.mpr hl, true_or, not_true_eq_false, or_self,
    if_false, if_true]

/-- On a link that is up the PARAM is answered alone. -/
theorem exec_param_up (h : lstate s l ≠ 3) (up : linkUp s l = true) : exec (.param t l payload) s =
    .next (settleParam l (sendCtrl l (linkParam (atTime t s) l 2) (atTime t s))) := by
  simp only [exec_param, execParam, lstate_atTime, linkUp_atTime, h, up, Nat.not_le.mpr hl, or_true, not_true_eq_false, or_self,
    if_false]

theorem exec_paramAck_inStep (h : lstate s l = 3) : exec (.paramAck t l) s =
    .next (settleParam l (putLink l { getLink s l with acked := true } (atTime t s))) :=
  congrArg _ (if_neg (not_or.mpr ⟨Nat.not_le.mpr hl, not_not_intro h⟩))

theorem exec_paramSend_inStep (h : lstate s l = 3) : exec (.paramSend t l) s =
    .next (sendCtrl l (linkParam (atTime t s) l 1) (atTime t s)) :=
  congrArg _ (if_pos ⟨hl, h⟩)

/-! ### Retraining and patterns -/

theorem exec_retrain_running (hr : blkRunning s (pLINK l) = true) (role : linkRole s l ≠ 0) :
    exec (.retrain t l) s = .next (downLink l false (atTime t s)) :=
  congrArg _ (if_pos ⟨hl, hr, role⟩)

theorem exec_patSelect_link : exec (.patSelect t l v) s =
    .next (let w := setRegN (atTime t s) (pLINK l) R.LINK.PAT_CTL (bitsOf v 0 3 + bitsOf v 4 2 * 16)
           if linkRole w l = 0 ∧ blkRunning w (pLINK l) = true ∧ fld s (pLINK l) R.LINK.PAT_CTL 0 3 ≠ bitsOf v 0 3 then
             startLink l w
           else w) :=
  congrArg _ (if_neg (Nat.not_le.mpr hl))

theorem exec_patClear_link : exec (.patClear l) s =
    .next (setRegN (setRegN s (pLINK l) (R.LINK.COUNT + 44) 0) (pLINK l) (R.LINK.COUNT + 48) 0) :=
  congrArg _ (if_pos hl)

end

/-- Settles O33: each clause is the branch of its command that the state of the link and its step's limit select. -/
theorem linkBringUp : Obligations.LinkBringUp := by
  intro t l a b v payload s hl u x en phy phyFailed lock lockFailed
  exact ⟨exec_phyTrainDone_training hl, exec_flitLockDone_locking hl,
    fun h due noLane => (exec_bringUpLimit_train hl h due).trans (congrArg _ (if_neg (not_not_intro noLane))),
    fun h due lane => (exec_bringUpLimit_train hl h due).trans (congrArg _ (if_pos lane)),
    fun h due noLane => (exec_bringUpLimit_lock hl h due).trans (congrArg _ (if_neg (not_not_intro noLane))),
    exec_bringUpLimit_param hl, exec_linkRetry_due hl, exec_param_inStep hl, exec_param_up hl,
    fun h => ⟨exec_paramAck_inStep hl h, exec_paramSend_inStep hl h⟩,
    exec_retrain_running hl, exec_patSelect_link hl, exec_patClear_link hl⟩

end Sys2Proof.Machine

/-! SUPPORT. The commands of stream sets, of contexts and of tiles: what each does at once (R137 to R145, R210, R488). -/

namespace Sys2Proof.Machine

section
variable {k : CmdRef} {c : SvcCmd} {x : StreamSet} {l : List (Nat × Nat)} {s : State}

/-! ### Sets -/

theorem exec_ssetCreate_absent {desc : List Byte} (h : SvcReady k 0x10 c s) (sound : descOffence (setDesc c s desc) = none)
    (absent : getSet s c.obj = none) (half : halfWrong s c.obj = false) :
    let y := setOfDesc (setDesc c s desc)
    (bitOf y.outputs 0 = true → graphLoaded s y.vis = true) → (bitOf y.outputs 2 = true → graphLoaded s y.aud = true) →
    profileLoaded s y.prof = true → graphMismatch s y = false →
    exec (.ssetCreate k desc) s = .next (complete c st.OK 0 (putSet c.obj y s)) := by
  intro y vis aud profile fits
  have loaded : ¬ ((bitOf y.outputs 0 = true ∧ ¬ graphLoaded s y.vis = true) ∨
      (bitOf y.outputs 2 = true ∧ ¬ graphLoaded s y.aud = true)) := by
    rintro (⟨used, missing⟩ | ⟨used, missing⟩)
    · exact missing (vis used)
    · exact missing (aud used)
  exact congrArg _ (runSvc_completes h (congrArg (Option.map (0x100 + ·)) sound) rfl (by
    simp only [absent, half, Option.isSome_none, Bool.false_eq_true, if_false, if_neg loaded, profile, fits, not_true_eq_false, y]))

theorem exec_ssetAddShards_open {entries : List (List Byte)} (h : SvcReady k 0x11 c s) (least : 1 ≤ c.d 6) (most : c.d 6 ≤ 65536)
    (sound : listOffence s (shardList c s entries) = none) (hx : getSet s c.obj = some x)
    (state : x.state = 1 ∨ x.state = 2 ∨ x.state = 4)
    (room : x.shards.length + (shardList c s entries).length ≤ 16777216) : exec (.ssetAddShards k entries) s =
      .next (complete c st.OK (x.shards.length + (shardList c s entries).length)
        (putSet c.obj { x with shards := x.shards ++ (shardList c s entries).map shardOf } s)) := by
  have counted : ¬ (c.d 6 = 0 ∨ 65536 < c.d 6) := by omega
  have accepts : ¬ (x.state ≠ 1 ∧ x.state ≠ 2 ∧ x.state ≠ 4) := by omega
  exact congrArg _ (runSvc_completes h (by simp only [if_neg counted, sound, Option.map_none]) rfl (by
    simp only [hx, if_neg accepts, if_neg (Nat.not_lt.mpr room)]))

section
variable (h : SvcReady k 0x12 c s) (hx : getSet s c.obj = some x) (defined : x.state = 1) (shards : x.shards ≠ [])
include h hx defined shards

theorem exec_ssetStart_planned (plan : planSlots s (List.replicate x.contexts (x.mask, none)) [] = some l) :
    exec (.ssetStart k) s = .next (markBegun c (setFoundry (putSet c.obj { x with state := 2 } s)
      fun f => { f with slots := f.slots ++ (enumFrom 0 l).map fun e => (c.seq, e.1, e.2.1, e.2.2) })) :=
  congrArg _ (runSvc_waits h rfl rfl (by
    simp only [hx, defined, shards, plan, ne_eq, not_true_eq_false, or_self, if_false]))

theorem exec_ssetStart_full (plan : planSlots s (List.replicate x.contexts (x.mask, none)) [] = none) :
    exec (.ssetStart k) s = .next (complete c st.NO_RESOURCE 0 s) :=
  congrArg _ (runSvc_completes h rfl rfl (by
    simp only [hx, defined, shards, plan, ne_eq, not_true_eq_false, or_self, if_false]))

end

theorem exec_ssetPause_active (h : SvcReady k 0x13 c s) (hx : getSet s c.obj = some x) (active : x.state = 2) :
    exec (.ssetPause k) s = .next (markBegun c (putSet c.obj (pausedSet s x) s)) :=
  congrArg _ (runSvc_waits h rfl rfl (by simp only [hx, active, if_true]))

theorem exec_ssetResume_paused (h : SvcReady k 0x14 c s) (hx : getSet s c.obj = some x) (paused : x.state = 4) :
    exec (.ssetResume k) s = .next (markBegun c (putSet c.obj { x with state := 2 } s)) :=
  congrArg _ (runSvc_waits h rfl rfl (by simp only [hx, paused, if_true]))

theorem exec_ssetDrain_active (h : SvcReady k 0x15 c s) (hx : getSet s c.obj = some x) (active : x.state = 2) :
    exec (.ssetDrain k) s = .next (complete c st.OK 0 (drainSets (putSet c.obj { x with state := 5 } s))) :=
  congrArg _ (runSvc_completes h rfl rfl (by simp only [hx, active, if_true]))

/-- With PURGE, a pack of the set that is the device's own and that no ring or exchange holds (R139). -/
def purged (c : SvcCmd) (x : StreamSet) (p : Pack) : Bool :=
  bitOf (c.d 4) 0 && !p.peer && packSet p == c.obj && p.rank == x.rank && p.ring.isNone && !p.chosen

/-- The set's samples in progress are discarded with what its contexts hold, and the purged packs' tagged items end. -/
def setCleared (c : SvcCmd) (x : StreamSet) (s : State) : State :=
  let w := (ctxsOf s c.obj).foldl (fun s e => putMedia e.1 Media.empty (returnHeld e.1 (discardSample e.1 s))) s
  (w.foundry.packs.filter (purged c x)).foldl (fun s p => tagEnd 1 p.id 1 s) w

theorem exec_ssetDestroy_idle (h : SvcReady k 0x16 c s) (hx : getSet s c.obj = some x)
    (idle : x.state = 1 ∨ x.state = 4 ∨ x.state = 6) : exec (.ssetDestroy k) s =
      .next (complete c st.OK (s.foundry.packs.filter (purged c x)).length
        (showBound (setFoundry (setCleared c x s) fun f => { f with
          sets := mdel f.sets c.obj, ctxs := f.ctxs.filter fun e => e.2.sset != c.obj
          packs := f.packs.filter fun p => !purged c x p }))) :=
  congrArg _ (runSvc_completes h rfl rfl (by simp only [hx, if_pos idle]; rfl))

/-! ### Contexts and tiles -/

theorem exec_ctxMove_free {key i : Nat} {y : Ctx} (h : SvcReady k 0x17 c s) (tile : c.d 4 < 32) (free : objFenced c s = false)
    (hy : ctxAt s c.obj = some (key, y)) (still : y.state ≠ 3) (run : blkState s (pTILE (c.d 4)) = 1)
    (other : c.d 4 ≠ tileOfNum c.obj) (slot : lowestFree (takenOn s (c.d 4)) = some i) :
    exec (.ctxMove k) s = .next (markBegun c
      (setFoundry (putCtx key { y with state := 3, former := y.state, target := some (c.d 4) } s)
        fun f => { f with slots := f.slots ++ [(c.seq, key, c.d 4, i)] })) :=
  congrArg _ (runSvc_waits h (if_neg (Nat.not_le.mpr tile)) free (by
    simp only [hy, if_neg still, run, other, slot, ne_eq, not_true_eq_false, or_self, if_false]))

/-- Contexts of a tile that no CTX_MOVE is taking away. -/
def stayingOn (s : State) (tile : Nat) : List (Nat × Ctx) :=
  s.foundry.ctxs.filter fun e => (match e.2.num with | some n => tileOfNum n == tile | none => false) && e.2.state != 3

/-- Where the contexts that leave a tile may go: the tiles of their sets' masks but that tile (R140). -/
def vacateWants (s : State) (tile : Nat) : List (Nat × Option Nat) :=
  (stayingOn s tile).map fun e => ((match getSet s e.2.sset with | some x => x.mask | none => 0), some tile)

/-- How a TILE_VACATE goes on from the plan of its slots (R140, R143). -/
def vacateEnd (c : SvcCmd) (s : State) : Option (List (Nat × Nat)) → SvcEnd
  | none => .done st.NO_RESOURCE 0 s
  | some l => .wait (setBlkState (setFoundry s fun f => { f with
      slots := f.slots ++ ((stayingOn s c.obj).zip l).map fun e => (c.seq, e.1.1, e.2.1, e.2.2) }) (pTILE c.obj) 0x80)

theorem exec_tileVacate_planned (h : SvcReady k 0x18 c s) (free : objFenced c s = false) (run : blkState s (pTILE c.obj) = 1)
    (plan : planSlots s (vacateWants s c.obj) [] = some l) : exec (.tileVacate k) s =
      .next (markBegun c (setBlkState (setFoundry s fun f => { f with
        slots := f.slots ++ ((stayingOn s c.obj).zip l).map fun e => (c.seq, e.1.1, e.2.1, e.2.2) }) (pTILE c.obj) 0x80)) :=
  congrArg _ (runSvc_waits h rfl free ((if_neg (not_not_intro run)).trans (congrArg (vacateEnd c s) plan)))

theorem exec_tileAdmit_vacant (h : SvcReady k 0x19 c s) (free : objFenced c s = false)
    (vacant : blkState s (pTILE c.obj) = 0x81) :
    exec (.tileAdmit k) s = .next (complete c st.OK 0 (setBlkState s (pTILE c.obj) 1)) :=
  congrArg _ (runSvc_completes h rfl free (if_pos vacant))

theorem exec_resvCfg_inRange (h : SvcReady k 0x1A c s) (least : 1 ≤ c.d 4) (cap : c.d 4 ≤ 640) (residence : c.d 5 ≤ 65535)
    (share : c.d 6 ≤ 256) : exec (.resvCfg k) s = .next (markBegun c s) := by
  have capOk : ¬ (c.d 4 = 0 ∨ 640 < c.d 4) := by omega
  exact congrArg _ (runSvc_waits h
    (by simp only [if_neg capOk, if_neg (Nat.not_lt.mpr residence), if_neg (Nat.not_lt.mpr share)]) rfl rfl)

end

/-- Settles O27: each clause is the branch of its command that the state of its object selects. -/
theorem streamSetCommands : Obligations.StreamSetCommands := by
  intro k c desc entries x key i y l s on want gone cleared
  exact ⟨exec_ssetCreate_absent, exec_ssetAddShards_open, exec_ssetStart_planned, exec_ssetStart_full, exec_ssetPause_active,
    exec_ssetResume_paused, exec_ssetDrain_active, exec_ssetDestroy_idle, exec_ctxMove_free, exec_tileVacate_planned,
    exec_tileAdmit_vacant, exec_resvCfg_inRange⟩

end Sys2Proof.Machine

/-! SUPPORT. Contexts and their ingest state: what a read returns after writes, and what a dropped sample leaves (R124, R128). -/

namespace Sys2Proof.Machine

section
variable {k : Nat} {c : Ctx} {x : StreamSet} {m : Media} {s : State}

theorem getCtx_putCtx_same : getCtx (putCtx k c s) k = some c :=
  (mget_mput s.foundry.ctxs k c k).trans (if_pos rfl)

/-- An ingest state that has counted a packet is not the empty one, and is listed. -/
theorem getMedia_putMedia_counted (h : m.cc ≠ []) : getMedia (putMedia k m s) k = m := by
  have counted : m ≠ Media.empty := fun e => h (congrArg Media.cc e)
  simp only [getMedia, putMedia, mgetD, mputD, if_neg counted, mget_mput, if_true, Option.getD_some]

theorem getMedia_passBytes {n j : Nat} : getMedia (passBytes k n s) j = getMedia s j := by
  unfold passBytes; split <;> rfl

/-- A list in which a key was put is not empty. -/
theorem mput_ne_nil {α : Type} (l : List (Nat × α)) (j : Nat) (v : α) : mput l j v ≠ [] := by
  intro h
  have listed : mget (mput l j v) j = some v := (mget_mput l j v j).trans (if_pos rfl)
  simp [h, mget] at listed

/-- The context of a dropped sample has none in progress. -/
theorem getCtx_dropSample {y : Sample} (hk : getCtx s k = some c) (hy : c.cur = some y) :
    ∃ d : Ctx, getCtx (dropSample k s) k = some d ∧ d.cur = none := by
  have after (u : State) : ∃ d : Ctx, getCtx (afterSample k c y.packId u) k = some d ∧ d.cur = none := by
    unfold afterSample; split
    · exact ⟨_, getCtx_putCtx_same, rfl⟩
    · exact ⟨_, getCtx_putCtx_same, rfl⟩
  obtain ⟨d, hd, ended⟩ := after (tagEnd 1 y.packId 1 (endSampleMedia k s))
  have shown : (dropSample k s).foundry = (afterSample k c y.packId (tagEnd 1 y.packId 1 (endSampleMedia k s))).foundry := by
    simp only [dropSample, hk, hy]
    exact (reportStable_foundry _).penBit rfl
  exact ⟨d, by rw [getCtx, shown]; exact hd, ended⟩

end

end Sys2Proof.Machine

/-! SUPPORT. Samples: their start, the sealing of their packs, and the readahead of their source (R118, R120, R129, R130, R134). -/

namespace Sys2Proof.Machine

section
variable {num k : Nat} {c : Ctx} {x : StreamSet} {y : Sample} {s : State}

/-! ### The start -/

/-- The context may start its next sample: ACTIVE on a RUNNING tile, with an open shard whose headers are known and no sample in
progress, of a set that takes samples and whose graphs fit, outside a quiesce, not refused in this tick, and with no sample to make
again after a takeover (R120, R134, R139, R488). -/
def CanStart (num k : Nat) (c : Ctx) (x : StreamSet) (s : State) : Prop :=
  c.state = 1 ∧ c.cur = none ∧ shardDone c = false ∧ c.off = false ∧ takesSamples s x = true ∧
    blkState s (pTILE (numTile num)) = 1 ∧ quiescing s = false ∧ setNoFit s (numTile num) x = false ∧
    (getMedia s k).sel.isSome = true ∧ c.refused ≠ s.tick.count + 1 ∧ s.pair.remake = []

/-- The sample named by the context's position, with PACK_MAX reserved. -/
def startedSample (c : Ctx) (x : StreamSet) (tick : Nat) : Sample :=
  let first := packIdOf c % 2 ^ 24 * x.stride
  let t0 := x.startOff + first * x.interval
  { packId := packIdOf c, reserve := x.packMax, firstFrame := first, lastFrame := first + x.clip - 1
    audioFrom := t0, audioTo := t0 + x.clip * x.interval, records := [], flags := 0, srcOffset := 0, startTick := tick }

section
variable (hc : ctxAt s num = some (k, c)) (hx : getSet s c.sset = some x)
include hc hx

/-- Where PACK_MAX does not fit, the refusal is counted and shown, and stands for the tick (R134). -/
theorem CanStart.exec_eq (h : CanStart num k c x s) : exec (.sampleStart num) s = .next
    (if s.foundry.capGiB * 2 ^ 30 < resvUsed s + x.packMax then
       penBit (pTILE (numTile num)) 0
         (addReg (putCtx k { c with refused := s.tick.count + 1 } s) (pTILE (numTile num)) R.TILE.STALLS 1)
     else tagCandidate 1 (numTile num) (packIdOf c) (putCtx k { c with cur := some (startedSample c x s.tick.count) } s)) := by
  obtain ⟨active, noSample, openShard, staying, takes, running, calm, fits, headers, notRefused, noneAgain⟩ := h
  have starts : ¬ (c.state ≠ 1 ∨ c.cur.isSome = true ∨ shardDone c = true ∨ c.off = true ∨ takesSamples s x = false ∨
      blkState s (pTILE (numTile num)) ≠ 1 ∨ quiescing s = true ∨ setNoFit s (numTile num) x = true ∨
      (getMedia s k).sel.isNone = true ∨ c.refused = s.tick.count + 1) := by
    simp [active, noSample, openShard, staying, takes, running, calm, fits, notRefused, Option.isSome_iff_ne_none.mp headers]
  simp only [exec_sampleStart, execSampleStart, hc, hx, noneAgain, List.find?_nil, Option.isNone_none, and_true,
    Option.getD_none]
  exact congrArg _ (if_neg starts)

/-! ### The seal -/

/-- The state in which a whole sample is over: its records are read from RECORD, and its tagged item has reached the seal. -/
def sampleSealed (tile k : Nat) (y : Sample) (s : State) : State :=
  tagStage 1 y.packId 4 true (endSampleMedia k (touchRecords tile y.records s))

/-- The pack of a sample's records as the tile DMA reads them (R130, R205). -/
def packOf (num : Nat) (x : StreamSet) (y : Sample) (s : State) : Pack :=
  let tile := numTile num
  let len := packLen y.records
  let epoch := blkEpoch s (pTILE tile)
  ⟨x.rank, y.packId, len, tile, epoch, s.tick.count, none, false, false, none,
    padTo 64 (packHeader y.flags y.records.length len x.rank y.packId s.tick.count epoch tile num y.srcOffset ++
      y.records.flatMap (sealedBytes s tile))⟩

variable (hy : c.cur = some y) (done : sampleDone s num k x y = true)
include hy done

theorem exec_packSeal_within (fits : packLen y.records ≤ x.packMax)
    (noneAgain : (sampleSealed (numTile num) k y s).pair.remake = []) : exec (.packSeal num) s = .next
      (let tile := numTile num
       let w := setFoundry (afterSample k c y.packId (sampleSealed tile k y s)) fun f =>
         { f with packs := f.packs ++ [packOf num x y (touchRecords tile y.records s)] }
       releaseSealed tile k (setReg64 w (pTILE tile) R.TILE.SEALED_LO (reg64 w (pTILE tile) R.TILE.SEALED_LO + 1))) := by
  simp only [sampleSealed, numTile] at noneAgain
  simp only [exec_packSeal, execPackSeal, hc, hy, hx, done, not_true_eq_false, if_false, if_neg (Nat.not_lt.mpr fits), tileOfNum,
    noneAgain, List.contains_nil, Bool.false_eq_true]
  rfl

theorem exec_packSeal_beyond (long : x.packMax < packLen y.records) :
    exec (.packSeal num) s = .next (dropSample k (penBit (pTILE (numTile num)) 2 s)) := by
  simp only [exec_packSeal, execPackSeal, hc, hy, hx, done, not_true_eq_false, if_false, if_pos long]
  rfl

end

/-! ### Readahead -/

section
variable (hc : ctxAt s num = some (k, c)) (hx : getSet s c.sset = some x) (shard : c.shard.isSome = true) (sound : c.failed = false)
include hc hx shard sound

theorem exec_sourceRead_bytes {l : List Byte} {dur : Nat} :
    let off := c.cachePos + c.cached
    let fresh := l.take (x.readahead * 2 ^ 20 - c.cached)
    exec (.sourceRead num off (some l) (some dur)) s =
      .next (putCtx k { c with cached := c.cached + fresh.length, total := some (sampleCount x dur) }
        ((enumFrom 0 fresh).foldl (fun s e => putDram (cacheAddr x k (off + e.1)) [e.2] s) s)) := by
  have reads : ¬ (c.shard.isNone = true ∨ c.failed = true) := by simp [sound, Option.isSome_iff_ne_none.mp shard]
  simp only [exec_sourceRead, execSourceRead, hc, hx, if_neg reads, if_true]

theorem exec_sourceRead_error {off : Nat} :
    exec (.sourceRead num off none none) s = .next (putCtx k { c with failed := true } s) := by
  have reads : ¬ (c.shard.isNone = true ∨ c.failed = true) := by simp [sound, Option.isSome_iff_ne_none.mp shard]
  simp only [exec_sourceRead, execSourceRead, hc, hx, if_neg reads]

end

end

end Sys2Proof.Machine

/-! SUPPORT. The stream core's work on a context: transport packets, an audio gap, and the issue of items (R125, R126, R148, R149,
R169, R176). -/

namespace Sys2Proof.Machine

section
variable {num k n : Nat} {c : Ctx} {x : StreamSet} {y : Sample} {s : State}

/-- The context has a shard that makes samples, on a tile that is not fenced (R89, R158). -/
def Ingests (num : Nat) (c : Ctx) (s : State) : Prop :=
  c.shard.isSome = true ∧ c.ended = false ∧ blkState s (pTILE (numTile num)) ≠ 3 ∧ blkState s (pTILE (numTile num)) ≠ 4

theorem Ingests.exec_eq {item : DemuxItem} (h : Ingests num c s) (hc : ctxAt s num = some (k, c)) (hx : getSet s c.sset = some x) :
    exec (.demuxPacket num item) s = .next (takeItem num k c x item s) := by
  obtain ⟨shard, going, three, four⟩ := h
  have takes : ¬ (c.shard.isNone = true ∨ c.ended = true ∨ blkState s (pTILE (numTile num)) = 3 ∨
      blkState s (pTILE (numTile num)) = 4) := by simp [going, three, four, Option.isSome_iff_ne_none.mp shard]
  simp only [exec_demuxPacket, execDemuxPacket, hc, hx, if_neg takes]

/-! ### Transport packets -/

theorem takeItem_packet : takeItem num k c x .packet s = nextPacket (numTile num) num k c x s := rfl

section
variable (synced : (getMedia s k).synced = true) (whole : 188 ≤ c.cached)
include synced whole

theorem nextPacket_syncByte {tile : Nat} (sync : cacheByte s x k c.cachePos = 0x47) : nextPacket tile num k c x s =
    takePacket tile num k c.cachePos (parsePacket ((List.range 188).map fun i => cacheByte s x k (c.cachePos + i)))
      (passBytes k 188 s) := by
  simp only [nextPacket, synced, if_true, if_neg (Nat.not_lt.mpr whole), if_pos sync]

theorem nextPacket_noSyncByte {tile : Nat} (noSync : cacheByte s x k c.cachePos ≠ 0x47) : nextPacket tile num k c x s =
    putMedia k { getMedia s k with synced := false } (passBytes k 1 s) := by
  simp only [nextPacket, synced, if_true, if_neg (Nat.not_lt.mpr whole), if_neg noSync]

end

section
variable {tile pos : Nat} {p : TsPacket} {r : Bool}

/-- A packet of a PID that does not carry the PCR leaves the clock (R150). -/
theorem takePcr_otherPid (h : ((getMedia s k).sel.map (·.pcr)).join ≠ some p.pid) : takePcr tile k pos p s = s := if_pos h

variable (used : ((getMedia s k).sel.map fun z => usesPid z p.pid) = some true)
include used

theorem takePacket_tei (tei : p.tei = true) : takePacket tile num k pos p s = ccLoss tile num k p.pid s := by
  simp only [takePacket, used, Option.getD_some, not_true_eq_false, if_false, tei, if_true]

variable (sound : p.tei = false) (payload : p.payload = true)
include sound payload

/-- The first exact repeat of a packet is passed over (R149). -/
theorem takePacket_repeat (seen : mget (getMedia s k).cc p.pid = some (p.cc, false)) (cont : p.disc = false) :
    takePacket tile num k pos p s =
      putMedia k { getMedia s k with cc := mput (getMedia s k).cc p.pid (p.cc, true) } s := by
  simp [takePacket, used, sound, seen, payload, cont]

/-- A counter one beyond the last is no repeat and no loss (R149). -/
theorem takePacket_inSequence (seen : mget (getMedia s k).cc p.pid = some (n, r)) (next : p.cc = (n + 1) % 16)
    (inside : p.start = false) (noPcr : ((getMedia s k).sel.map (·.pcr)).join ≠ some p.pid) :
    takePacket tile num k pos p s =
      putMedia k { getMedia s k with cc := mput (getMedia s k).cc p.pid (p.cc, false) } s := by
  have noRepeat : (n == (n + 1) % 16) = false := beq_eq_false_iff_ne.mpr (by omega)
  simp only [takePacket, used, sound, payload, seen, noRepeat, next, inside, Option.getD_some, bne_self_eq_false, Bool.and_false,
    Bool.false_and, Bool.false_eq_true, not_true_eq_false, if_false, if_true]
  refine takePcr_otherPid ?_
  rw [getMedia_putMedia_counted]
  · exact noPcr
  · exact mput_ne_nil _ _ _

end

/-! ### An audio gap -/

theorem takeItem_audioGap {tag : Nat} (hk : getCtx s k = some c) (hx : getSet s c.sset = some x) (hy : c.cur = some y)
    (gap : audioGaps (getMedia s k) x y = true) (drop : bitOf x.policy 2 = true) :
    takeItem num k c x (.audioRun tag) s = dropSample k s := by
  obtain ⟨d, hd, ended⟩ := getCtx_dropSample hk hy
  have taken : takeAudioGap k s = dropSample k s := by simp only [takeAudioGap, hk, hx, drop, if_true]
  simp only [takeItem, hy, issueAudio, gap, if_true, taken, hd, ended]

/-! ### Items -/

/-- The items the stream core issues, each by the command that asks for it. -/
def issuedItems (tag : Nat) : List (IssueKind × DemuxItem) :=
  [(.pic, .decode tag), (.band, .shape tag), (.visual, .visual tag), (.audio, .audioRun tag), (.text, .text tag)]

/-- A sample's item is issued by its kind, where no gap of its audio is met first. -/
theorem takeItem_issued {tag : Nat} {i : IssueKind × DemuxItem} (hi : i ∈ issuedItems tag) (hy : c.cur = some y)
    (noGap : i.1 = .audio → audioGaps (getMedia s k) x y = false) :
    takeItem num k c x i.2 s = issueNext i.1 num k tag c x y s := by
  simp only [issuedItems, List.mem_cons, List.not_mem_nil, or_false] at hi
  rcases hi with rfl | rfl | rfl | rfl | rfl
  case inr.inr.inr.inl => -- the audio run
    simp only [takeItem, hy, issueAudio, noGap rfl, Bool.false_eq_true, if_false]
  all_goals simp only [takeItem, hy]

theorem engine_eq_one_iff (i : IssueKind) : i.engine = 1 ↔ i = .pic := by cases i <;> decide

/-- An item within the budget, in its turn, takes its space and joins its engine's queue (R125, R126). -/
theorem issueNext_item {i : IssueKind} {tag est : Nat} {d : List Byte} {m : Media} {holds : List Hold}
    {writes : List (Nat × List Byte)} {w : State} (may : mayIssue s (numTile num) i.engine = true)
    (pick : pickKind s i num k tag x y = .item est d m holds writes) (few : outstanding s (numTile num) i.engine < 64)
    (budget : est ≤ remaining s (numTile num) i.engine) (turn : takeTurn (numTile num) i.engine k est c s = some w) :
    issueNext i num k tag c x y s =
      (let tile := numTile num
       let v := writes.foldl (fun s e => sliceWrite tile 2 e.1 e.2 s)
         (holds.foldl (fun s h => holdSpace h.tile h.ctx h.region h.off h.len s) (putMedia k m { w with fresh := w.fresh + 1 }))
       let v := pushDesc tile i.engine d v
       if i = .pic then showPool tile v else v) := by
  have fits : ¬ (64 ≤ outstanding s (numTile num) i.engine ∨ remaining s (numTile num) i.engine < est) := by omega
  simp only [issueNext, may, not_true_eq_false, if_false, pick, if_neg fits, turn, engine_eq_one_iff]

/-- A band past the base budget is counted, and its sample dropped (R176). -/
theorem issueNext_neverBand {tag : Nat} {d : List Byte} (may : mayIssue s (numTile num) 2 = true)
    (pick : pickBand s num k tag x y = .never d) : issueNext .band num k tag c x y s =
      dropSample k (addReg s (pSHP (numTile num)) (R.SHP.COUNT + 16) 1) := by
  simp only [issueNext, IssueKind.engine, may, not_true_eq_false, if_false, pickKind, pick]
  rfl

end

/-- Settles O28: each clause is the branch of its command that the context, its sample and the tile select. -/
theorem samplesAndPacks : Obligations.SamplesAndPacks := by
  intro num k n off dur tag est c x y r l d m' holds writes w s hc hk hx tile id first t0 m startable read len epoch data staged
    sealed takes byte p next past fresh issues
  have canStart (h : startable) : CanStart num k c x s := h
  have ingests (h : takes) : Ingests num c s := h
  have packet (h : next) : exec (.demuxPacket num .packet) s = .next (takePacket tile num k c.cachePos p past) := by
    obtain ⟨h, synced, whole, sync, -⟩ := h
    rw [(ingests h).exec_eq hc hx, takeItem_packet, nextPacket_syncByte synced whole sync]
  have media : getMedia past k = m := getMedia_passBytes
  have used (h : next) : ((getMedia past k).sel.map fun z => usesPid z p.pid) = some true := by
    obtain ⟨-, -, -, -, used⟩ := h
    rw [media]; exact used
  refine ⟨fun h room => ((canStart h).exec_eq hc hx).trans (congrArg _ (if_neg (Nat.not_lt.mpr room))),
    fun h full => ((canStart h).exec_eq hc hx).trans (congrArg _ (if_pos full)),
    exec_packSeal_within hc hx, exec_packSeal_beyond hc hx,
    fun shard sound at_ => ?read, fun shard sound => exec_sourceRead_error hc hx shard sound,
    fun h tei => ?tei, fun h sound seen payload cont => ?again, fun h sound seen payload inSeq _ inside noPcr => ?inSequence,
    fun h synced whole noSync => ?noSync, fun h hy gap drop => ?gap,
    fun i hi h hy noGap may pick few budget turn => ?item, fun h hy may pick => ?never⟩
  case read => subst at_; exact exec_sourceRead_bytes hc hx shard sound
  case tei => exact (packet h).trans (congrArg _ (takePacket_tei (used h) tei))
  case again =>
    rw [packet h, takePacket_repeat (used h) sound payload (media ▸ seen) cont, media]
  case inSequence =>
    rw [packet h, takePacket_inSequence (used h) sound payload (media ▸ seen) inSeq inside (media ▸ noPcr), media]
  case noSync => rw [(ingests h).exec_eq hc hx, takeItem_packet, nextPacket_noSyncByte synced whole noSync]
  case gap => exact ((ingests h).exec_eq hc hx).trans (congrArg _ (takeItem_audioGap hk hx hy gap drop))
  case item =>
    rw [(ingests h).exec_eq hc hx, takeItem_issued hi hy noGap]
    exact congrArg _ (issueNext_item may pick few budget turn)
  case never =>
    have band : (IssueKind.band, DemuxItem.shape tag) ∈ issuedItems tag := by simp [issuedItems]
    rw [(ingests h).exec_eq hc hx, takeItem_issued band hy nofun, issueNext_neverBand may pick]

end Sys2Proof.Machine

/-! SUPPORT. Feed rings: their commands, doorbells, rejected packs and draws, and a port that stays down (R136, R293 to R311). -/

namespace Sys2Proof.Machine

section
variable {k : CmdRef} {c : SvcCmd} {x : Ring} {s : State}

/-! ### Commands -/

theorem exec_ringCreate_absent {desc : List Byte} (h : SvcReady k 0x40 c s) (free : objFenced c s = false)
    (sound : ringOffence (ringDesc c s desc) = none) (absent : getRing s c.obj = none) (half : halfWrong s c.obj = false) :
    let y := ringOfDesc (ringDesc c s desc)
    (∀ i ∈ y.sets, (getSet s i).isSome = true) →
    2 * ((y.sets.map fun i => match getSet s i with | some z => z.packMax | none => 0).foldl max 0) ≤ 2 ^ y.sizeLog →
    exec (.ringCreate k desc) s = .next (complete c st.OK 0 (putRingF c.obj y s)) := by
  intro y sets size
  have known : ¬ (y.sets.any fun i => (getSet s i).isNone) = true := by
    simpa only [List.any_eq_true, Option.isNone_iff_eq_none, Option.isSome_iff_ne_none, not_exists, not_and] using sets
  refine congrArg _ (runSvc_completes h (congrArg (Option.map (0x100 + ·)) sound) free ?_)
  simp only [absent, half, Option.isSome_none, Bool.false_eq_true, if_false]
  exact (if_neg known).trans (if_neg (Nat.not_lt.mpr size))

/-- A RING_START or RING_RESUME of the ring waits for the edge. -/
def ringBeginWaits (c : SvcCmd) (s : State) : Bool :=
  s.cmds.any fun d => d.begun && d.obj == c.obj && (d.op == 0x41 || d.op == 0x43)

/-- A ring in the state its command begins from waits for the edge, where its port is up. -/
theorem ringBegin_from {state : Nat} (hx : getRing s c.obj = some x) (hs : x.state = state) (alone : ringBeginWaits c s = false) :
    ringBegin state c s = if portUp s x.port then .wait s else .done 0x91 0 s := by
  have begins : ¬ (x.state ≠ state ∨ ringBeginWaits c s = true) := by simp [hs, alone]
  simp only [ringBegin, hx]
  exact (if_neg begins).trans (ite_not _ _ _)

/-- The command that begins a ring has begun where the port is up, and else answers PORT_DOWN. -/
theorem runSvc_ringBegin {op state : Nat} (h : SvcReady k op c s) (free : objFenced c s = false)
    (hx : getRing s c.obj = some x) (hs : x.state = state) (alone : ringBeginWaits c s = false) :
    runSvc k op noInv objFenced (ringBegin state) s = if portUp s x.port then markBegun c s else complete c 0x91 0 s := by
  have ends := ringBegin_from hx hs alone
  split
  next up => exact runSvc_waits h rfl free (ends.trans (if_pos up))
  next down => exact runSvc_completes h rfl free (ends.trans (if_neg down))

theorem exec_ringStop_running (h : SvcReady k 0x42 c s) (free : objFenced c s = false) (hx : getRing s c.obj = some x)
    (running : x.state = 2) : exec (.ringStop k) s = .next (markBegun c (putRingF c.obj (stoppedRing x) s)) :=
  congrArg _ (runSvc_waits h rfl free (by simp only [hx, running, if_true]))

/-- Packs of the ring that are written and uncommitted, or to be written again, and still in the reservoir (R309). -/
def givenBack (x : Ring) (s : State) : List (Nat × Nat) :=
  ((x.ledger.filter fun e => !e.committed).map (fun e => (e.rank, e.id)) ++ x.again).filter fun n => (findPack s n.1 n.2).isSome

theorem exec_ringDestroy_idle (h : SvcReady k 0x44 c s) (free : objFenced c s = false) (hx : getRing s c.obj = some x)
    (idle : x.state ≠ 2) : exec (.ringDestroy k) s = .next (complete c st.OK (givenBack x s).length (ringState c.obj x.port 0
      (finishCmds (fun d => (d.op == 0x42 || d.op == 0x41 || d.op == 0x43) && d.obj == c.obj) st.ABORTED 0
        (setFeed s fun f => { f with rings := mdel f.rings c.obj, returned := f.returned ++ givenBack x s })))) :=
  congrArg _ (runSvc_completes h rfl free (by simp only [hx, if_neg idle]; rfl))

theorem exec_xchgGroup_fits {qps : List Nat} (h : SvcReady k 0x45 c s) (most : c.d 6 ≤ 256) : exec (.xchgGroup k qps) s =
    .next (markBegun c (setFeed s fun f => { f with groupNext := mput f.groupNext c.seq (groupList c s qps) })) :=
  congrArg _ (runSvc_waits h (if_neg (Nat.not_lt.mpr most)) rfl rfl)

/-! ### Messages of the accelerator -/

section
variable {l ring v rank id : Nat} (hl : l < 48) (up : linkUp s l = true) (hx : getRing (raiseLine 33 3 s) ring = some x)
  (port : linkPort (raiseLine 33 3 s) l = some x.port)
include hl up hx port

/-- A doorbell's value is the low half of the CI it moves to; one beyond PI, or behind CI, is an error (R294). -/
theorem exec_feedDoorbell_live (live : ringLive x = true) (own : mget (raiseLine 33 3 s).pair.adopted ring = none) :
    let u := raiseLine 33 3 s
    let d := (v + 2 ^ 32 - x.ci % 2 ^ 32) % 2 ^ 32
    exec (.feedDoorbell l ring v) s = .next
      (if 2 ^ 31 ≤ d ∨ x.pi < x.ci + d then ringError ring (errInfo pFEED 1 ring (feedCount 12 u))
       else ringStopped ring (commitRing ring (putRingF ring { x with ci := x.ci + d } u))) := by
  have heard : ¬ (48 ≤ l ∨ ¬ linkUp s l = true) := by simp [hl, up]
  simp only [exec_feedDoorbell, execFeedDoorbell, if_neg heard, hx, live, port, ne_eq, not_true_eq_false, or_self, if_false, own]

theorem exec_packReject_port : exec (.packReject l ring rank id) s =
    .next (putRingF ring { x with ledger := x.ledger.map fun e =>
      if e.rank = rank ∧ e.id = id ∧ ¬ e.committed then { e with rejected := true, rewrite := e.rewrite || e.rejected } else e }
      (raiseLine 33 3 s)) := by
  have heard : ¬ (48 ≤ l ∨ ¬ linkUp s l = true) := by simp [hl, up]
  simp only [exec_packReject, execPackReject, if_neg heard, hx, port, ne_eq, not_true_eq_false, if_false]

end

/-! ### Draws -/

/-- The RUNNING ring has a link and may draw: it is not idle and not an adopted one that waits for its doorbell, the feed runs, and
no quiesce stops it (R52, R301, R487). -/
def RingDraws (ring link : Nat) (x : Ring) (s : State) : Prop :=
  getRing s ring = some x ∧ x.link = some link ∧ x.state = 2 ∧ x.idle = false ∧ blkRunning s pFEED = true ∧
    quiescing s = false ∧ mget s.pair.adopted ring = none

/-- The packs that a ring may draw: drawable ones of its sets (R293, R295). -/
def ringCandidates (x : Ring) (s : State) : List Pack := s.foundry.packs.filter fun p => drawable s p && x.sets.contains (packSet p)

section
variable {t ring link pick : Nat} {p : Pack} {poison : Bool} (h : RingDraws ring link x s)
include h

/-- Time alone takes nothing from what lets a ring draw. -/
theorem RingDraws.allowed : (x.state = 2 ∨ (x.state = 3 ∧ x.drawing = true)) ∧ ¬ x.idle = true ∧
    blkRunning (atTime t s) pFEED = true ∧ ¬ quiescing (atTime t s) = true ∧ (mget (atTime t s).pair.adopted ring).isNone = true := by
  obtain ⟨-, -, state, busy, run, calm, own⟩ := h
  exact ⟨.inl state, Bool.eq_false_iff.mp busy, run, Bool.eq_false_iff.mp calm, Option.isNone_iff_eq_none.mpr own⟩

theorem RingDraws.exec_noCandidate (empty : ringCandidates x s = []) :
    exec (.packDraw t ring pick poison) s = .next (putRingF ring { x with idle := true } (atTime t s)) := by
  have found : getRing (atTime t s) ring = some x := h.1
  have nothing : ringCandidates x (atTime t s) = [] := empty
  simp only [ringCandidates] at nothing
  simp only [exec_packDraw, execPackDraw, found, h.2.1, if_neg (not_not_intro h.allowed), nothing, List.getElem?_nil]

/-- A pack within the ring's own deficit and space is written, or dropped where its read met poison (R293, R295, R301). -/
theorem RingDraws.exec_drawn (hp : (ringCandidates x s)[pick % (ringCandidates x s).length]? = some p)
    (credit : skipBytes x p.len + p.len ≤ x.deficit) (space : ringSpace x p.len = true) :
    exec (.packDraw t ring pick poison) s = .next
      (let u := atTime t s
       let w := modPack p.rank p.id (fun q => { q with ring := some ring }) u
       if poison then penBit pFEED 1 (feedCount 2 (removePack p.rank p.id u))
       else feedCount 0 (writePack ring link { x with deficit := x.deficit - (skipBytes x p.len + p.len) } p false
         (if p.peer then w else tagStage 1 p.id 6 true w))) := by
  have found : getRing (atTime t s) ring = some x := h.1
  have picked : (ringCandidates x (atTime t s))[pick % (ringCandidates x (atTime t s)).length]? = some p := hp
  have covered : ¬ x.deficit + idleBytes (atTime t s) ring x.port < skipBytes x p.len + p.len := by omega
  simp only [ringCandidates] at picked
  simp only [exec_packDraw, execPackDraw, found, h.2.1, if_neg (not_not_intro h.allowed), picked, if_neg covered, space,
    not_true_eq_false, if_false, if_pos credit]

end

end

/-- Settles O36: each clause is the branch of its command that the ring's state and the command's checks select. -/
theorem ringsAndTheirPacks : Obligations.RingsAndTheirPacks := by
  intro k c desc qps t l ring v rank id pick link x p s read y waiting names back rung d u cand cost draws
  have can (h : draws) : RingDraws ring link x s := h
  refine ⟨exec_ringCreate_absent,
    fun h free hx defined alone => congrArg _ (runSvc_ringBegin h free hx defined alone),
    fun h free hx stopped alone => congrArg _ (runSvc_ringBegin h free hx stopped alone),
    exec_ringStop_running, exec_ringDestroy_idle, exec_xchgGroup_fits,
    fun hl up hx live port own => ⟨fun ahead within => ?moved, fun beyond => ?error, exec_packReject_port hl up hx port⟩,
    fun h => (can h).exec_noCandidate,
    fun h hp credit space => ⟨(can h).exec_drawn hp credit space, (can h).exec_drawn hp credit space⟩,
    fun down => congrArg _ (if_pos down)⟩
  case moved =>
    have inRing : ¬ (2 ^ 31 ≤ d ∨ x.pi < x.ci + d) := by omega
    exact (exec_feedDoorbell_live hl up hx port live own).trans (congrArg _ (if_neg inRing))
  case error => exact (exec_feedDoorbell_live hl up hx port live own).trans (congrArg _ (if_pos beyond))

end Sys2Proof.Machine

/-! SUPPORT. Shaper profiles, the shard probe, graph loads with their copies and refills, and the slice scrubber
(R191 to R195, R205, R206, R218 to R221, R226, R540). -/

namespace Sys2Proof.Machine

section
variable {k : CmdRef} {c : SvcCmd} {bytes : List Byte} {s : State}

/-! ### Profiles -/

theorem exec_shpProfileLoad_sound (h : SvcReady k 0x20 c s) (free : profileLoaded s (c.d 4 % 256) = false)
    (sound : profileOffence (profData c s bytes) = none) : exec (.shpProfileLoad k bytes) s =
      .next (complete c st.OK 0 (showProfile (c.d 4 % 256) true
        { s with media := { s.media with profiles := mput s.media.profiles (c.d 4 % 256) (profData c s bytes) } })) :=
  congrArg _ (runSvc_completes h rfl rfl (by simp only [free, sound, Bool.false_eq_true, if_false]))

theorem exec_shpProfileDrop_unnamed (h : SvcReady k 0x21 c s) (loaded : profileLoaded s (c.d 4 % 256) = true)
    (unnamed : (s.foundry.sets.any fun e => e.2.prof == c.d 4 % 256) = false) : exec (.shpProfileDrop k) s =
      .next (complete c st.OK 0 (showProfile (c.d 4 % 256) false
        { s with media := { s.media with profiles := mdel s.media.profiles (c.d 4 % 256) } })) :=
  congrArg _ (runSvc_completes h rfl rfl (by
    simp only [loaded, unnamed, not_true_eq_false, Bool.false_eq_true, if_false]))

/-! ### The shard probe -/

/-- Whatever the map of probes then says, a probe that is only running changes nothing further. -/
theorem exec_shardProbe_begins (h : SvcReady k 0x22 c s) (sound : shardOffence s (probeEntry c s bytes) = none) :
    exec (.shardProbe k bytes .running) s = .next (markBegun c
      { s with media := { s.media with probes := mput s.media.probes c.seq s.now } }) := by
  have ⟨found, waiting, _⟩ := h
  have begins : runSvc k 0x22 (fun c s => (shardOffence s (probeEntry c s bytes)).map (0x100 + ·)) noFence
      (fun c s => .wait { s with media := { s.media with probes := mput s.media.probes c.seq s.now } }) s =
        markBegun c { s with media := { s.media with probes := mput s.media.probes c.seq s.now } } :=
    runSvc_waits h (congrArg (Option.map (0x100 + ·)) sound) rfl rfl
  simp only [exec_shardProbe, execShardProbe, found, waiting, Bool.false_eq_true, if_false, begins]
  split <;> rfl

/-- The state in which the command's probe has ended. -/
def probeEnded (c : SvcCmd) (s : State) : State :=
  { s with media := { s.media with probes := mdel s.media.probes c.seq } }

section
variable {b t : Nat} (found : findCmd s k = some c)
include found

section
variable (begun : c.begun = true) (running : mget s.media.probes c.seq = some b)
include begun running

theorem exec_shardProbe_unreadable :
    exec (.shardProbe k bytes .unreadable) s = .next (complete c st.INTEGRITY 0 (probeEnded c s)) := by
  simp only [exec_shardProbe, execShardProbe, found, begun, running, if_true, probeEnded]

theorem exec_shardProbe_report (info : ShardInfo) : exec (.shardProbe k bytes (.report info)) s =
    .next (if b + 100000000 < s.now then complete c st.TIMEOUT 0 (probeEnded c s)
      else complete c st.OK 0 (dmaWrite c.func (c.d 8 % 2) (c.q 6) (probeReport 0 info) (probeEnded c s))) := by
  simp only [exec_shardProbe, execShardProbe, found, begun, running, if_true, probeEnded]

end

theorem exec_shardProbeTimeout_expired (running : mget s.media.probes c.seq = some b) (expired : b + 100000000 ≤ t) :
    exec (.shardProbeTimeout k t) s = .next (complete c st.TIMEOUT 0 (atTime t (probeEnded c s))) := by
  have inHand : findCmd (atTime t s) k = some c := found
  have stillRunning : mget (atTime t s).media.probes c.seq = some b := running
  simp only [exec_shardProbeTimeout, execShardProbeTimeout, inHand, stillRunning, if_pos expired]
  rfl

end

/-! ### Graphs -/

/-- The bytes of the images of all graphs, a further one with them. -/
def imageTotal (s : State) (image : List Byte) : Nat :=
  (s.media.graphs.map fun e => e.2.image.length).sum + image.length

theorem exec_graphLoad_fits (h : SvcReady k 0x30 c s) :
    let g := c.d 4 % 1024
    let image := imageData c s bytes
    let base := weightBase (placedParts s) (residentBytes image)
    mget s.media.graphs g = none → imageOffence image = none → s.media.graphs.length < 64 → imageTotal s image ≤ 2 ^ 32 →
    (∀ t < 32, readyTile s t = true → base + residentBytes image ≤ regionSize s t 1) →
    exec (.graphLoad k bytes) s = .next (finishLoads 65 (markBegun c (beginCopies { s with media := { s.media with
      graphs := mput s.media.graphs g
        { image := image, loading := true, base := base, seq := c.seq, began := nextBegan s } } }))) := by
  intro g image base free sound few room fits
  have refused : ¬ (64 ≤ s.media.graphs.length ∨ 2 ^ 32 < imageTotal s image ∨
      ((List.range 32).any fun t => readyTile s t && decide (regionSize s t 1 < base + residentBytes image)) = true) := by
    simp only [List.any_eq_true, List.mem_range, Bool.and_eq_true, decide_eq_true_eq, not_or, Nat.not_le, Nat.not_lt, not_exists,
      not_and]
    exact ⟨few, room, fits⟩
  refine congrArg (fun w => Host.Outcome.next (finishLoads 65 w)) (runSvc_waits h rfl rfl ?_)
  simp only [free, sound, Option.isSome_none, Bool.false_eq_true, if_false, g, image]
  exact if_neg refused

theorem exec_graphDrop_unnamed (h : SvcReady k 0x31 c s) (loaded : graphLoaded s (c.d 4 % 1024) = true)
    (unnamed : graphNamed s (c.d 4 % 1024) = false) :
    let g := c.d 4 % 1024
    let w := forN 32 (showGraph g false s) fun t s => setReady t g false s
    exec (.graphDrop k) s = .next (complete c st.OK 0 { w with media := { w.media with
      graphs := mdel w.media.graphs g
      refills := w.media.refills.map fun e => (e.1, e.2.filter (· != g))
      refillDue := w.media.refillDue.map fun e => (e.1, e.2.1.filter (· != g), e.2.2) } }) :=
  congrArg _ (runSvc_completes h rfl rfl (by
    simp only [loaded, unnamed, not_true_eq_false, Bool.false_eq_true, if_false]))

/-! ### Copies, refills and the scrubber -/

theorem exec_weightCopyDone_copy {tile g : Nat} (copying : s.media.copies.contains (g, tile) = true) :
    exec (.weightCopyDone tile g) s = .next (finishLoads 65 { copyDone tile g s with media := { (copyDone tile g s).media with
      copies := (copyDone tile g s).media.copies.filter (· != (g, tile)) } }) :=
  congrArg _ (if_pos copying)

theorem exec_weightCopyDone_refill {tile g : Nat} {l : List Nat} (other : s.media.copies.contains (g, tile) = false)
    (hl : mget s.media.refills tile = some l) (writes : l.contains g = true) :
    exec (.weightCopyDone tile g) s = .next { copyDone tile g s with media := { (copyDone tile g s).media with
      refills := mput (copyDone tile g s).media.refills tile (l.filter (· != g)) } } := by
  have refilling : mgetD s.media.refills tile [] = l := by rw [mgetD, hl, Option.getD_some]
  simp only [exec_weightCopyDone, execWeightCopyDone, other, refilling, writes, Bool.false_eq_true, if_false, if_true]

theorem exec_refillEnd_empty {tile : Nat} (emptied : mget s.media.refills tile = some []) : exec (.refillEnd tile) s =
    .next (penBit (pTEN tile) 5 (tenCount tile 6 1
      { s with media := { s.media with refills := mdel s.media.refills tile } })) := by
  simp only [exec_refillEnd, execRefillEnd, emptied]

/-- The scrubber's pass, where this line completes one, shows its seconds. -/
def passShown (tile : Nat) (pass : Option Nat) (s : State) : State :=
  match pass with
  | some n => setFld s (pSRAMT tile) R.SRAMT.SCRUB_STAT 0 16 (min n 0xFFFF)
  | none => s

theorem exec_sramScrub_on {tile : Nat} (off : Nat) (pass : Option Nat) (within : tile < 32) (on : sliceOn s tile = true) :
    exec (.sramScrub tile off pass) s = .next (passShown tile pass (sliceTouch tile (off / 64 * 64) 64 s)) := by
  have scrubs : ¬ (32 ≤ tile ∨ ¬ sliceOn s tile = true) := by
    simp only [on, not_true_eq_false, or_false, Nat.not_le, within]
  exact congrArg _ (if_neg scrubs)

end

/-- Settles O30: each clause is the branch of its command that the command's checks and the state's maps select. -/
theorem profilesProbesAndGraphs : Obligations.ProfilesProbesAndGraphs := by
  intro k c bytes info tile g off t b l s prof gr profile image total base unshown ended
  exact ⟨exec_shpProfileLoad_sound, exec_shpProfileDrop_unnamed, exec_shardProbe_begins,
    fun found begun running => ⟨exec_shardProbe_unreadable found begun running, exec_shardProbe_report found begun running info⟩,
    exec_shardProbeTimeout_expired,
    exec_graphLoad_fits, exec_weightCopyDone_copy, exec_weightCopyDone_refill, exec_refillEnd_empty, exec_graphDrop_unnamed,
    fun within on => ⟨exec_sramScrub_on off none within on, exec_sramScrub_on off (some b) within on⟩⟩

end Sys2Proof.Machine

/-! SUPPORT. What a step keeps of a well-kept state (R227, R233, R553). -/

namespace Sys2Proof.Machine

theorem Keeps.wellKept {a s : State} (k : Keeps a s) (h : a.WellKept) : s.WellKept := by
  obtain ⟨canon, cores, log, -⟩ := k
  exact ⟨canon h.1, cores h.2.1, log h.2.2⟩

/-- Settles O57: on an empty queue nothing changes, and the front command keeps what `exec_keeps` says of every command. -/
theorem everyStepKeepsTheStateWellKept : Obligations.EveryStepKeepsTheStateWellKept := by
  intro s t h answered
  unfold step at answered
  split at answered
  case h_1 => cases answered; exact h
  case h_2 c rest _ =>
    have kept : OutKeeps { s with pending := rest } (exec c { s with pending := rest }) := exec_keeps (Keeps.refl _)
    exact (keeps_of_next answered kept).wellKept h

end Sys2Proof.Machine

/-! SUPPORT. How the cores' moves, arithmetic, logic, shifts, products and quotients end (R231, R234, R237, R238, R258). -/

namespace Sys2Proof.Machine

section
variable {i : Instr} {x : Ilx} {s : State}

/-- An instruction that raises after its effect: the handler returns to the address its effect left (R258). -/
theorem runIl_next {t : State} {c' : Core} {cs sub info : Nat} {body : Core → Nat → State → IlEnd} (h : IlReady x i s)
    (hb : body (getCore s x.core) (ilNext x (getCore s x.core)) s = .next c' t cs sub info) :
    runIl i x body s = ilCharge x (enterException x.core cs sub info c'.pc
      (precRecord x (getCore s x.core).pc (getCore s x.core).cmp (some cs) (putCore x.core c' t))) := by
  rw [runIl_ready body h, hb]

/-- A write that leaves the flags is the same with NF and without. -/
theorem retire_flags_kept (c : Core) (x : Ilx) (d v next : Nat) (s : State) :
    retire c x d v c.flags next s = .done { setG c d v with pc := next } s := by
  rw [retire, ite_self]; rfl

theorem opnd_lt (c : Core) (x : Ilx) (r : Nat) : opnd c x r < 2 ^ widthBits x.width := Nat.mod_lt _ (Nat.two_pow_pos _)

/-- A signed number at a width. -/
theorem emod_toNat_lt (z : Int) (n : Nat) : (z % (2 ^ n : Nat)).toNat < 2 ^ n := by
  have pos : (0 : Int) < (2 ^ n : Nat) := Int.natCast_pos.mpr (Nat.two_pow_pos n)
  exact (Int.toNat_lt (Int.emod_nonneg _ pos.ne')).mpr (Int.emod_lt_of_pos _ pos)

theorem imm32_lt (n : Nat) (imm : Dword) : imm32 n imm < 2 ^ n := emod_toNat_lt _ n

/-- At 64 bits the immediate is the sign-extended one. -/
theorem imm32_64 (imm : Dword) : imm32 64 imm = (imm.signExtend 64).toNat := by
  rw [imm32, BitVec.signExtend, BitVec.toNat_ofInt]

theorem carryIn_le (c : Core) : carryIn c ≤ 1 := by
  rw [carryIn, carryIn_eq]; split <;> omega

/-! ### The courses of the ALU's instructions -/

theorem aluWrite_ready (h : IlReady x i s) (d : Nat) (f : Core → Nat × Nat) :
    aluWrite i x d f s = ilDone x (getCore s x.core)
      (ilWrite x (getCore s x.core) d (f (getCore s x.core)).1 (f (getCore s x.core)).2) s :=
  runIl_done h rfl

theorem aluTest_ready (h : IlReady x i s) (f : Core → Nat × Nat) :
    aluTest i x f s = ilDone x (getCore s x.core) (ilFlags x (getCore s x.core) (f (getCore s x.core)).2) s :=
  runIl_done h rfl

theorem znWrite_ready (h : IlReady x i s) (d r : Nat) (f : Nat → Nat → Nat → Nat) {v : Nat}
    (hv : f (widthBits x.width) (opnd (getCore s x.core) x d) (opnd (getCore s x.core) x r) % 2 ^ widthBits x.width = v) :
    znWrite i x d f r s = ilDone x (getCore s x.core)
      (ilWrite x (getCore s x.core) d v (setZN (widthBits x.width) v (getCore s x.core).flags)) s := by
  rw [← hv]; exact aluWrite_ready h d _

theorem divide_zero (h : IlReady x i s) (d r : Nat) (f : Nat → Nat → Nat → Nat → Nat)
    (zero : opnd (getCore s x.core) x r = 0) : divide i x d r f s = ilRaise x (getCore s x.core) cause.DIV_ZERO 0 0 s :=
  runIl_exc h (if_pos zero)

theorem divide_nonzero (h : IlReady x i s) (d r : Nat) (f : Nat → Nat → Nat → Nat → Nat) {v : Nat}
    (nonzero : opnd (getCore s x.core) x r ≠ 0)
    (hv : f (widthBits x.width) (opnd (getCore s x.core) x d) (opnd (getCore s x.core) x r) (Config.free s.fresh) = v) :
    divide i x d r f s = ilDone x (getCore s x.core)
      (ilWrite x (getCore s x.core) d v (setZN (widthBits x.width) v (getCore s x.core).flags)) { s with fresh := s.fresh + 1 } := by
  rw [← hv]; exact runIl_done h (if_neg nonzero)

/-! ### Shifts -/

theorem signed_emod {n a : Nat} (ha : a < 2 ^ n) : (signed n a % (2 ^ n : Nat)).toNat = a := by
  have small : ((a : Int) % (2 ^ n : Nat)).toNat = a := by
    rw [← Int.natCast_emod, Int.toNat_natCast, Nat.mod_eq_of_lt ha]
  unfold signed; split
  · have wraps : (a : Int) - 2 ^ n = a - (2 ^ n : Nat) := by push_cast; rfl
    rw [wraps, Int.sub_emod_right, small]
  · exact small

/-- The two parts of a rotated value share no bit. -/
theorem rotate_add_eq_or {n k a : Nat} (hk : k ≤ n) (ha : a < 2 ^ n) :
    a * 2 ^ k % 2 ^ n + a / 2 ^ (n - k) = a * 2 ^ k % 2 ^ n ||| a / 2 ^ (n - k) := by
  have split_ : 2 ^ n = 2 ^ k * 2 ^ (n - k) := by rw [← pow_add, Nat.add_sub_cancel' hk]
  have low : a / 2 ^ (n - k) < 2 ^ k := Nat.div_lt_of_lt_mul (by rw [Nat.mul_comm, ← split_]; exact ha)
  rw [split_, Nat.mul_comm a, Nat.mul_mod_mul_left, Nat.two_pow_add_eq_or_of_lt low]

/-- What a shift writes: the rule for k ≠ 0 also gives the unmoved value at k = 0. -/
def shiftValue (kind : ShiftKind) (n a k : Nat) : Nat :=
  match kind with
  | .shl => a * 2 ^ k % 2 ^ n
  | .shr => a / 2 ^ k
  | .sar => (signed n a / (2 ^ k : Nat) % (2 ^ n : Nat)).toNat
  | .rol => a * 2 ^ k % 2 ^ n ||| a / 2 ^ (n - k)

/-- The last bit a shift by k ≠ 0 moves out. -/
def shiftOut (kind : ShiftKind) (n a k : Nat) : Bool :=
  match kind with
  | .shl => bitOf a (n - k)
  | .shr => bitOf a (k - 1)
  | .sar => bitOf a (k - 1)
  | .rol => bitOf a (n - k)

theorem shiftValue_zero (kind : ShiftKind) {n a : Nat} (ha : a < 2 ^ n) : shiftValue kind n a 0 = a := by
  cases kind with
  | shl => simp [shiftValue, Nat.mod_eq_of_lt ha]
  | shr => simp [shiftValue]
  | sar => rw [shiftValue, pow_zero, Nat.cast_one, Int.ediv_one, signed_emod ha]
  | rol => simp [shiftValue, Nat.mod_eq_of_lt ha, Nat.div_eq_of_lt ha]

theorem aluShift_eq (kind : ShiftKind) {n a k : Nat} (free : Bool) (ha : a < 2 ^ n) (hk : k < n) :
    aluShift kind n a k free = (shiftValue kind n a k, if k = 0 then free else shiftOut kind n a k) := by
  by_cases zero : k = 0
  · subst zero
    rw [shiftValue_zero kind ha]; rfl
  · cases kind with
    | rol => simp only [aluShift, shiftValue, shiftOut, if_neg zero, rotate_add_eq_or hk.le ha]
    | _ => simp only [aluShift, shiftValue, shiftOut, if_neg zero]

/-- The flags a shift leaves. -/
def shiftFlags (n v f : Nat) (out : Bool) : Nat := flagSet (setZN n v (flagSet f fV false)) fC out

theorem shiftFlags_are (n v f : Nat) (out : Bool) :
    FlagsAre f (shiftFlags n v f out) [(fV, false), (fZ, v == 0), (fN, bitOf v (n - 1)), (fC, out)] := by
  refine (((((FlagsAre.nil f).set fV _).set fZ _).set fN _).set fC _).congr fun j => ?_
  rcases j with _ | _ | _ | _ | j <;> rfl

/-- The core after a shift by `k`; `free` is the carry where no bit goes out. -/
def shifted (x : Ilx) (kind : ShiftKind) (d k : Nat) (free : Bool) (c : Core) : Core :=
  let n := widthBits x.width
  let v := shiftValue kind n (opnd c x d) k
  ilWrite x c d v (shiftFlags n v c.flags (if k = 0 then free else shiftOut kind n (opnd c x d) k))

theorem shiftBy_eq (x : Ilx) (kind : ShiftKind) (d : Nat) {k : Nat} (c : Core) (s : State) (hk : k < widthBits x.width) :
    shiftBy x kind d k c (ilNext x c) s = .done (shifted x kind d k (Config.freeBool s.fresh) c)
      (if k = 0 then { s with fresh := s.fresh + 1 } else s) := by
  rw [shiftBy, aluShift_eq kind _ (opnd_lt c x d) hk]; rfl

theorem widthBits_pos (w : Nat) : 0 < widthBits w := by
  rcases widthBits_cases w with h | h | h | h <;> omega

theorem widthBits_dvd (w : Nat) : widthBits w ∣ 2 ^ widthBits w := by
  rcases widthBits_cases w with h | h | h | h <;> rw [h] <;> decide

theorem shiftReg_ready (h : IlReady x i s) (kind : ShiftKind) (d r : Nat) :
    let k := gReg (getCore s x.core) r % widthBits x.width
    shiftReg i x kind d r s = ilDone x (getCore s x.core) (shifted x kind d k (Config.freeBool s.fresh) (getCore s x.core))
      (if k = 0 then { s with fresh := s.fresh + 1 } else s) := by
  intro k
  have count : opnd (getCore s x.core) x r % widthBits x.width = k := Nat.mod_mod_of_dvd _ (widthBits_dvd x.width)
  refine runIl_done h ?_
  rw [count]
  exact shiftBy_eq x kind d _ s (Nat.mod_lt _ (widthBits_pos x.width))

theorem shiftImm_ready (h : IlReady x i s) (kind : ShiftKind) (d : Nat) {k : Nat} (hk : k < widthBits x.width) :
    shiftImm i x kind d k s = ilDone x (getCore s x.core) (shifted x kind d k (Config.freeBool s.fresh) (getCore s x.core))
      (if k = 0 then { s with fresh := s.fresh + 1 } else s) :=
  runIl_done h ((if_neg (Nat.not_le.mpr hk)).trans (shiftBy_eq x kind d _ s hk))

theorem shiftImm_illegal (h : IlReady x i s) (kind : ShiftKind) (d : Nat) {k : Nat} (wide : widthBits x.width ≤ k) :
    shiftImm i x kind d k s = ilRaise x (getCore s x.core) cause.ILLEGAL 0 (einfoBytes x) s :=
  runIl_exc h (if_pos wide)

/-! ### Quotients -/

theorem aluDivS_lt (n a b free : Nat) : (aluDivS n a b free).1 < 2 ^ n := by
  rw [aluDivS]; split
  · exact Nat.mod_lt _ (Nat.two_pow_pos n)
  · exact emod_toNat_lt _ n

end

/-- Settles O1: each instruction's own part is one write, one step onwards or one exception. -/
theorem ileshMovesAndMarks : Obligations.IleshMovesAndMarks := by
  intro x s c does on
  refine ⟨⟨fun h => congrArg _ (runIl_done h rfl), fun h => congrArg _ (runIl_done h rfl), fun h => congrArg _ (runIl_done h rfl)⟩,
    fun d r h => congrArg _ (runIl_done h (retire_flags_kept ..)),
    fun d imm h => ?movi,
    fun d imm h => congrArg _ (runIl_done h (retire_flags_kept ..)),
    fun imm small h => congrArg _ (runIl_next h (congrArg (IlEnd.next _ _ _ _) (Nat.mod_eq_of_lt small))),
    fun h none => congrArg _ (runIl_illegal h none)⟩
  case movi =>
    rw [← imm32_64]
    exact congrArg _ (runIl_done h (retire_flags_kept ..))

/-- Settles O2: the flags are those of `aluAdd` and `aluSub`, whose results are the sum and the difference of R238. -/
theorem ileshAddAndSubtract : Obligations.IleshAddAndSubtract := by
  intro x s d r imm c does n a b i cy sum difference
  have hn := widthBits_cases x.width
  have ha : a < 2 ^ n := opnd_lt c x d
  have hb : b < 2 ^ n := opnd_lt c x r
  have hi : i < 2 ^ n := imm32_lt n imm
  have hcy : carryIn c = cy := carryIn_eq c
  have hle : cy ≤ 1 := hcy ▸ carryIn_le c
  have adds {j : Instr} {b cin : Nat} (hb : b < 2 ^ n) (hc : cin ≤ 1)
      (run : does j (ilDone x c (ilWrite x c d (aluAdd n a b cin c.flags).1 (aluAdd n a b cin c.flags).2) s)) : sum j b cin :=
    ⟨_, aluAdd_flags hn ha hb hc c.flags, run⟩
  have subs {j : Instr} {b bin : Nat} {write : Bool} (hb : b < 2 ^ n) (hc : bin ≤ 1)
      (run : does j (ilDone x c (if write then ilWrite x c d (aluSub n a b bin c.flags).1 (aluSub n a b bin c.flags).2
        else ilFlags x c (aluSub n a b bin c.flags).2) s)) : difference j b bin write :=
    ⟨_, _, aluSub_lt n a b bin c.flags, aluSub_value hn ha hb hc c.flags, aluSub_flags hn ha hb hc c.flags, run⟩
  refine ⟨⟨adds hb zero_le_one fun h => congrArg _ (aluWrite_ready h d _), adds hb hle ?adc,
    adds hi zero_le_one fun h => congrArg _ (aluWrite_ready h d _), subs hb zero_le_one fun h => congrArg _ (aluWrite_ready h d _),
    subs hb hle ?sbb, subs hi zero_le_one fun h => congrArg _ (aluTest_ready h _)⟩,
    subs hb zero_le_one fun h => congrArg _ (aluTest_ready h _)⟩
  case adc => rw [← hcy]; exact fun h => congrArg _ (aluWrite_ready h d _)
  case sbb => rw [← hcy]; exact fun h => congrArg _ (aluWrite_ready h d _)

/-- Settles O3: the flags are those of `aluLogic`. -/
theorem ileshLogic : Obligations.IleshLogic := by
  intro x s d r imm c does n a b i logic
  have writes {j : Instr} {v : Nat} {write : Bool}
      (run : does j (ilDone x c (if write then ilWrite x c d v (aluLogic n v c.flags).2 else ilFlags x c (aluLogic n v c.flags).2) s)) :
      logic j v write := ⟨_, aluLogic_flags n v c.flags, run⟩
  exact ⟨⟨writes fun h => congrArg _ (aluWrite_ready h d _), writes fun h => congrArg _ (aluWrite_ready h d _),
    writes fun h => congrArg _ (aluWrite_ready h d _), writes fun h => congrArg _ (aluWrite_ready h d _)⟩,
    writes fun h => congrArg _ (aluTest_ready h _)⟩

/-- Settles O4: `aluShift` gives the value and the bit moved out, by a register's value modulo the width or by imm8. -/
theorem ileshShifts : Obligations.IleshShifts := by
  intro x s d c does n a shift left right arith rotate
  have moves {j : Instr} (kind : ShiftKind) {k : Nat}
      (run : does j (ilDone x c (shifted x kind d k (Config.freeBool s.fresh) c) (if k = 0 then { s with fresh := s.fresh + 1 } else s))) :
      shift j k (shiftValue kind n a k) (shiftOut kind n a k) := ⟨_, _, shiftFlags_are n _ c.flags _, run⟩
  refine ⟨fun r => ⟨moves .shl fun h => congrArg _ (shiftReg_ready h ..), moves .shr fun h => congrArg _ (shiftReg_ready h ..),
      moves .sar fun h => congrArg _ (shiftReg_ready h ..), moves .rol fun h => congrArg _ (shiftReg_ready h ..)⟩,
    fun k hk => ⟨moves .shl fun h => congrArg _ (shiftImm_ready h _ d hk), moves .shr fun h => congrArg _ (shiftImm_ready h _ d hk),
      moves .sar fun h => congrArg _ (shiftImm_ready h _ d hk), moves .rol fun h => congrArg _ (shiftImm_ready h _ d hk)⟩,
    fun k wide i listed h => ?_⟩
  simp only [List.mem_cons, List.not_mem_nil, or_false] at listed
  rcases listed with rfl | rfl | rfl | rfl <;> exact congrArg _ (shiftImm_illegal h _ d wide)

/-- Settles O5: products and quotients set Z and N of their result; the overflowing quotient is the value drawn, at the width. -/
theorem ileshProductsAndQuotients : Obligations.IleshProductsAndQuotients := by
  intro x s d r c does n a b gives t
  have ha : a < 2 ^ n := opnd_lt c x d
  have hb : b < 2 ^ n := opnd_lt c x r
  have product {j : Instr} {u : State} {v : Nat} (run : does j (ilDone x c (ilWrite x c d v (setZN n v c.flags)) u)) : gives j u v :=
    ⟨_, setZN_flags n v c.flags, run⟩
  have high : a * b / 2 ^ n % 2 ^ n = a * b / 2 ^ n :=
    Nat.mod_eq_of_lt (Nat.div_lt_of_lt_mul (Nat.mul_lt_mul'' ha hb))
  refine ⟨product fun h => congrArg _ (znWrite_ready h d r _ rfl), product fun h => congrArg _ (znWrite_ready h d r _ high),
    fun zero i listed h => ?zero, fun nonzero => ⟨product fun h => congrArg _ (divide_nonzero h d r _ nonzero rfl),
      product fun h => congrArg _ (divide_nonzero h d r _ nonzero rfl), product fun h => congrArg _ (divide_nonzero h d r _ nonzero rfl),
      fun fits => product fun h => congrArg _ (divide_nonzero h d r _ nonzero (if_neg fits)),
      _, aluDivS_lt n a b (Config.free s.fresh), product fun h => congrArg _ (divide_nonzero h d r _ nonzero rfl)⟩⟩
  simp only [List.mem_cons, List.not_mem_nil, or_false] at listed
  rcases listed with rfl | rfl | rfl | rfl <;> exact congrArg _ (divide_zero h d r _ zero)

end Sys2Proof.Machine

/-! SUPPORT. Timecode: a label is its four numbers in packed decimal, and a frame index is the nominal frame number without the
labels that are dropped (R242, R243, R244). -/

namespace Sys2Proof.Machine

/-! ### Packed labels -/

/-- The packed label of hours, minutes, seconds and frames. -/
def tcPack (h m s f : Nat) : Nat := toBcd2 h * 2 ^ 24 + toBcd2 m * 2 ^ 16 + toBcd2 s * 2 ^ 8 + toBcd2 f

theorem bcd2_toBcd2 {v : Nat} : bcd2 (toBcd2 v) = v := by
  unfold bcd2 toBcd2; omega

theorem toBcd2_lt {v : Nat} (h : v < 100) : toBcd2 v < 256 := by
  unfold toBcd2; omega

theorem toBcd2_bcd2 {b : Nat} (low : b % 16 ≤ 9) : toBcd2 (bcd2 b) = b := by
  unfold bcd2 toBcd2; omega

/-- The two digits of each byte of a label. -/
theorem tcDigitsOk_iff {l : Nat} :
    tcDigitsOk l = true ↔ ∀ j < 4, bitsOf l (8 * j) 8 % 16 ≤ 9 ∧ bitsOf l (8 * j) 8 / 16 ≤ 9 := by
  have low (j : Nat) : bitsOf l (4 * (2 * j)) 4 = bitsOf l (8 * j) 8 % 16 := by
    rw [bitsOf, bitsOf, show 4 * (2 * j) = 8 * j by omega]; omega
  have high (j : Nat) : bitsOf l (4 * (2 * j + 1)) 4 = bitsOf l (8 * j) 8 / 16 := by
    rw [bitsOf, bitsOf, show 4 * (2 * j + 1) = 8 * j + 4 by omega, pow_add, ← Nat.div_div_eq_div_mul]; omega
  simp only [tcDigitsOk, List.all_eq_true, List.mem_range, decide_eq_true_eq]
  refine ⟨fun h j hj => ⟨low j ▸ h (2 * j) (by omega), high j ▸ h (2 * j + 1) (by omega)⟩, fun h i hi => ?_⟩
  obtain ⟨lo, hi'⟩ := h (i / 2) (by omega)
  rcases Nat.mod_two_eq_zero_or_one i with even | odd
  · rw [show i = 2 * (i / 2) by omega, low]; exact lo
  · rw [show i = 2 * (i / 2) + 1 by omega, high]; exact hi'

section
variable {h m s f : Nat} (hh : h < 100) (hm : m < 100) (hs : s < 100) (hf : f < 100)
include hh hm hs hf

theorem bitsOf_tcPack : bitsOf (tcPack h m s f) 24 8 = toBcd2 h ∧ bitsOf (tcPack h m s f) 16 8 = toBcd2 m ∧
    bitsOf (tcPack h m s f) 8 8 = toBcd2 s ∧ bitsOf (tcPack h m s f) 0 8 = toBcd2 f := by
  have bh := toBcd2_lt hh
  have bm := toBcd2_lt hm
  have bs := toBcd2_lt hs
  have bf := toBcd2_lt hf
  unfold bitsOf tcPack
  omega

theorem tcParts_tcPack : tcParts (tcPack h m s f) = (h, m, s, f) := by
  obtain ⟨eh, em, es, ef⟩ := bitsOf_tcPack hh hm hs hf
  simp only [tcParts, eh, em, es, ef, bcd2_toBcd2]

theorem tcDigitsOk_tcPack : tcDigitsOk (tcPack h m s f) = true := by
  obtain ⟨eh, em, es, ef⟩ := bitsOf_tcPack hh hm hs hf
  have digits {v : Nat} (hv : v < 100) : toBcd2 v % 16 ≤ 9 ∧ toBcd2 v / 16 ≤ 9 := by unfold toBcd2; omega
  rw [tcDigitsOk_iff]
  intro j hj
  interval_cases j
  · rw [ef]; exact digits hf
  · rw [es]; exact digits hs
  · rw [em]; exact digits hm
  · rw [eh]; exact digits hh

end

/-- The four numbers of a label of 32 bits make the label. -/
theorem tcPack_tcParts {l : Nat} (hl : l < 2 ^ 32) (ok : tcDigitsOk l = true) {h m s f : Nat} (parts : tcParts l = (h, m, s, f)) :
    tcPack h m s f = l := by
  have digits := tcDigitsOk_iff.mp ok
  have whole : bitsOf l 24 8 * 2 ^ 24 + bitsOf l 16 8 * 2 ^ 16 + bitsOf l 8 8 * 2 ^ 8 + bitsOf l 0 8 = l := by unfold bitsOf; omega
  simp only [tcParts, Prod.mk.injEq] at parts
  obtain ⟨rfl, rfl, rfl, rfl⟩ := parts
  rw [tcPack, toBcd2_bcd2 (digits 3 (by decide)).1, toBcd2_bcd2 (digits 2 (by decide)).1, toBcd2_bcd2 (digits 1 (by decide)).1,
    toBcd2_bcd2 (digits 0 (by decide)).1]
  exact whole

/-! ### Frame numbers -/

/-- The nominal frame number of a frame index: labels dropped before it are counted in. -/
def tcNominal (rate i : Nat) : Nat :=
  let n := tcN rate
  let g := tcG rate
  if 0 < g then
    let q := i / (600 * n - 9 * g)
    let r := i % (600 * n - 9 * g)
    if g ≤ r then i + 9 * g * q + g * ((r - g) / (60 * n - g)) else i + 9 * g * q
  else i

/-- The frame index of a nominal frame number. -/
def tcReal (rate k : Nat) : Nat := k - tcG rate * (k / tcN rate / 60 - k / tcN rate / 60 / 10)

/-- A nominal frame number of the day whose label is not dropped. -/
def tcShown (rate k : Nat) : Prop :=
  k < 86400 * tcN rate ∧ ¬ (k % tcN rate < tcG rate ∧ k / tcN rate % 60 = 0 ∧ k / tcN rate / 60 % 10 ≠ 0)

/-- Codes that drop no label, and the two that drop some (R242). -/
theorem tcRate_cases {rate : Nat} (hr : rate < 8) : tcG rate = 0 ∧ tcDay rate = 86400 * tcN rate ∨
    tcG rate = 2 ∧ tcN rate = 30 ∧ tcDay rate = 2589408 ∨ tcG rate = 4 ∧ tcN rate = 60 ∧ tcDay rate = 5178816 := by
  revert rate; decide

/-- The minute of a nominal frame number: ten a block of ten minutes, and the whole minutes since the block began. -/
theorem tcNominal_minute {n g : Nat} (i : Nat) (hn : n = 30 ∧ g = 2 ∨ n = 60 ∧ g = 4) :
    let q := i / (600 * n - 9 * g)
    let r := i % (600 * n - 9 * g)
    (g ≤ r → (i + 9 * g * q + g * ((r - g) / (60 * n - g))) / n / 60 = 10 * q + (r - g) / (60 * n - g)) ∧
    (r < g → (i + 9 * g * q) / n / 60 = 10 * q) := by
  rcases hn with ⟨rfl, rfl⟩ | ⟨rfl, rfl⟩ <;> simp only <;> omega

/-- An index's nominal frame number is shown, and counts back to the index. -/
theorem tcShown_tcNominal {rate i : Nat} (hr : rate < 8) (hi : i < tcDay rate) :
    tcShown rate (tcNominal rate i) ∧ tcReal rate (tcNominal rate i) = i := by
  rcases tcRate_cases hr with ⟨g, day⟩ | ⟨g, n, day⟩ | ⟨g, n, day⟩
  · simpa [tcShown, tcReal, tcNominal, g, ← day] using hi
  · obtain ⟨later, first⟩ := tcNominal_minute i (Or.inl ⟨n, g⟩)
    simp only [tcShown, tcReal, tcNominal, g, n, day, Nat.ofNat_pos, if_true] at hi later first ⊢
    split <;> omega
  · obtain ⟨later, first⟩ := tcNominal_minute i (Or.inr ⟨n, g⟩)
    simp only [tcShown, tcReal, tcNominal, g, n, day, Nat.ofNat_pos, if_true] at hi later first ⊢
    split <;> omega

/-- A shown frame number's index is one of the day, and gives the number again. -/
theorem tcNominal_tcReal {rate k : Nat} (hr : rate < 8) (hk : tcShown rate k) :
    tcReal rate k < tcDay rate ∧ tcNominal rate (tcReal rate k) = k := by
  rcases tcRate_cases hr with ⟨g, day⟩ | ⟨g, n, day⟩ | ⟨g, n, day⟩
  · simpa [tcReal, tcNominal, g, day] using hk.1
  · simp only [tcShown, tcReal, tcNominal, g, n, day, Nat.ofNat_pos, if_true] at hk ⊢
    split <;> omega
  · simp only [tcShown, tcReal, tcNominal, g, n, day, Nat.ofNat_pos, if_true] at hk ⊢
    split <;> omega

/-! ### Labels and frame numbers -/

theorem tcN_bounds {rate : Nat} (hr : rate < 8) : 0 < tcN rate ∧ tcN rate ≤ 60 := by
  revert rate; decide

/-- The nominal frame number that the four numbers of a label stand for. -/
def tcFrame (rate h m s f : Nat) : Nat := (3600 * h + 60 * m + s) * tcN rate + f

section
variable {rate h m s f : Nat}

theorem tcFrame_div (hf : f < tcN rate) : tcFrame rate h m s f / tcN rate = 3600 * h + 60 * m + s := by
  rw [tcFrame, Nat.mul_comm, Nat.mul_add_div (by omega), Nat.div_eq_of_lt hf, Nat.add_zero]

theorem tcFrame_mod (hf : f < tcN rate) : tcFrame rate h m s f % tcN rate = f := by
  rw [tcFrame, Nat.mul_comm, Nat.mul_add_mod, Nat.mod_eq_of_lt hf]

/-- Every frame number of the day has its four numbers. -/
theorem exists_tcFrame {k : Nat} (npos : 0 < tcN rate) (day : k < 86400 * tcN rate) :
    ∃ h m s f, h ≤ 23 ∧ m ≤ 59 ∧ s ≤ 59 ∧ f < tcN rate ∧ k = tcFrame rate h m s f := by
  have seconds : k / tcN rate < 86400 := (Nat.div_lt_iff_lt_mul npos).mpr day
  refine ⟨k / tcN rate / 3600, k / tcN rate / 60 % 60, k / tcN rate % 60, k % tcN rate, by omega, by omega, by omega,
    Nat.mod_lt _ npos, ?_⟩
  rw [tcFrame, show 3600 * (k / tcN rate / 3600) + 60 * (k / tcN rate / 60 % 60) + k / tcN rate % 60 = k / tcN rate by omega,
    Nat.mul_comm, Nat.div_add_mod]

/-- A label that the rules allow is one of a shown frame number. -/
theorem tcShown_tcFrame (hm : m ≤ 59) (hs : s ≤ 59) (hf : f < tcN rate) :
    tcShown rate (tcFrame rate h m s f) ↔ h ≤ 23 ∧ ¬ (f < tcG rate ∧ s = 0 ∧ m % 10 ≠ 0) := by
  have day : tcFrame rate h m s f < 86400 * tcN rate ↔ h ≤ 23 := by
    rw [← Nat.div_lt_iff_lt_mul (by omega), tcFrame_div hf]; omega
  rw [tcShown, day, tcFrame_div hf, tcFrame_mod hf, show (3600 * h + 60 * m + s) % 60 = s by omega,
    show (3600 * h + 60 * m + s) / 60 % 10 = m % 10 by omega]

theorem tcValid_iff {l : Nat} (parts : tcParts l = (h, m, s, f)) : tcValid rate l = true ↔
    tcDigitsOk l = true ∧ m ≤ 59 ∧ s ≤ 59 ∧ f < tcN rate ∧ tcShown rate (tcFrame rate h m s f) := by
  have rule : tcValid rate l = true ↔ tcDigitsOk l = true ∧ m ≤ 59 ∧ s ≤ 59 ∧ f < tcN rate ∧
      (h ≤ 23 ∧ ¬ (f < tcG rate ∧ s = 0 ∧ m % 10 ≠ 0)) := by
    simp [tcValid, parts, imp_iff_not_or]; tauto
  rw [rule]
  constructor
  · rintro ⟨ok, hm, hs, hf, shown⟩
    exact ⟨ok, hm, hs, hf, (tcShown_tcFrame hm hs hf).mpr shown⟩
  · rintro ⟨ok, hm, hs, hf, shown⟩
    exact ⟨ok, hm, hs, hf, (tcShown_tcFrame hm hs hf).mp shown⟩

theorem tcIndex_eq {l : Nat} (parts : tcParts l = (h, m, s, f)) (hs : s ≤ 59) (hf : f < tcN rate) :
    tcIndex rate l = tcReal rate (tcFrame rate h m s f) := by
  rw [tcReal, tcFrame_div hf, show (3600 * h + 60 * m + s) / 60 = 60 * h + m by omega, tcIndex, parts, tcFrame]

theorem tcLabelOf_eq (rate i : Nat) :
    let k := tcNominal rate i
    let t := k / tcN rate
    tcLabelOf rate i = tcPack (t / 3600) (t / 60 % 60) (t % 60) (k % tcN rate) := rfl

/-- The label of an index whose nominal frame number has these four numbers. -/
theorem tcLabelOf_tcFrame {i : Nat} (hm : m ≤ 59) (hs : s ≤ 59) (hf : f < tcN rate) (hi : tcNominal rate i = tcFrame rate h m s f) :
    tcLabelOf rate i = tcPack h m s f := by
  rw [tcLabelOf_eq, hi, tcFrame_div hf, tcFrame_mod hf, show (3600 * h + 60 * m + s) / 3600 = h by omega,
    show (3600 * h + 60 * m + s) / 60 % 60 = m by omega, show (3600 * h + 60 * m + s) % 60 = s by omega]

end

/-- Settles O7: a valid label is the packed form of a nominal frame number that is shown, and those are the numbers of the indexes. -/
theorem timecodeLabelsAndIndexes : Obligations.TimecodeLabelsAndIndexes := by
  intro rate hr
  obtain ⟨npos, nle⟩ := tcN_bounds hr
  refine ⟨fun i hi => ?index, fun l hl valid => ?label⟩
  case index =>
    obtain ⟨shown, back⟩ := tcShown_tcNominal hr hi
    obtain ⟨h, m, s, f, hh, hm, hs, hf, frame⟩ := exists_tcFrame npos shown.1
    have parts : tcParts (tcPack h m s f) = (h, m, s, f) := tcParts_tcPack (by omega) (by omega) (by omega) (by omega)
    have ok : tcDigitsOk (tcPack h m s f) = true := tcDigitsOk_tcPack (by omega) (by omega) (by omega) (by omega)
    rw [tcLabelOf_tcFrame hm hs hf frame, tcValid_iff parts, tcIndex_eq parts hs hf, ← frame]
    exact ⟨⟨ok, hm, hs, hf, shown⟩, back⟩
  case label =>
    obtain ⟨h, m, s, f, parts⟩ : ∃ h m s f, tcParts l = (h, m, s, f) := ⟨_, _, _, _, rfl⟩
    obtain ⟨ok, hm, hs, hf, shown⟩ := (tcValid_iff parts).mp valid
    obtain ⟨day, frame⟩ := tcNominal_tcReal hr shown
    rw [tcIndex_eq parts hs hf, tcLabelOf_tcFrame hm hs hf frame]
    exact ⟨day, tcPack_tcParts hl ok parts⟩

end Sys2Proof.Machine

/-! SUPPORT. How the decimal and the timecode instructions end (R239 to R245). -/

namespace Sys2Proof.Machine

/-- The flags of a decimal or timecode result. -/
def decimalFlags (f : Nat) (dc : Bool) (v : Nat) : Nat := flagSet (flagSet (flagSet f fBI false) fDC dc) fZ (v == 0)

theorem decimalFlags_are (f : Nat) (dc : Bool) (v : Nat) :
    FlagsAre f (decimalFlags f dc v) [(fBI, false), (fDC, dc), (fZ, v == 0)] := by
  refine ((((FlagsAre.nil f).set fBI _).set fDC _).set fZ _).congr fun j => ?_
  rcases j with _ | _ | _ | _ | _ | _ | _ | j <;> rfl

/-- The same with the carry out of digit 0. -/
theorem decimalFlags_half_are (f : Nat) (dc half : Bool) (v : Nat) :
    FlagsAre f (flagSet (decimalFlags f dc v) fH half) [(fBI, false), (fDC, dc), (fZ, v == 0), (fH, half)] := by
  refine (((((FlagsAre.nil f).set fBI _).set fDC _).set fZ _).set fH _).congr fun j => ?_
  rcases j with _ | _ | _ | _ | _ | _ | _ | j <;> rfl

/-- The flags of a conversion's result. -/
theorem convertFlags_are (f v : Nat) : FlagsAre f (flagSet (flagSet f fBI false) fZ (v == 0)) [(fBI, false), (fZ, v == 0)] := by
  refine (((FlagsAre.nil f).set fBI _).set fZ _).congr fun j => ?_
  rcases j with _ | _ | _ | _ | _ | _ | _ | j <;> rfl

/-- A single bit as a number. -/
theorem bitsOf_one (f i : Nat) : bitsOf f i 1 = if bitOf f i then 1 else 0 := by
  simp only [bitsOf, bitOf, pow_one, beq_iff_eq]
  split <;> omega

/-- As many digits as the width holds. -/
theorem digits_of_width (w : Nat) : 16 ^ (widthBits w / 4) = 2 ^ widthBits w := by
  rcases widthBits_cases w with h | h | h | h <;> rw [h] <;> rfl

section
variable {i : Instr} {x : Ilx} {s : State}

/-- The core after bad input: BI is set, and it goes on (R240). -/
def badInputCore (x : Ilx) (c : Core) : Core := { c with flags := flagSet c.flags fBI true, pc := ilNext x c }

/-- The core with a value and flags written. -/
def decimalCore (x : Ilx) (c : Core) (d v f : Nat) : Core := { setG c d v with flags := f, pc := ilNext x c }

/-! ### Packed BCD -/

section
variable (h : IlReady x i s) (d r : Nat) (subtract carry write : Bool)
include h

theorem bcdInstr_bad
    (bad : ¬ (bcdOk (widthBits x.width / 4) (opnd (getCore s x.core) x d) = true ∧
      bcdOk (widthBits x.width / 4) (opnd (getCore s x.core) x r) = true)) :
    bcdInstr i x d r subtract carry write s = ilDone x (getCore s x.core) (badInputCore x (getCore s x.core)) s :=
  runIl_done h (if_pos bad)

section
variable (ok : bcdOk (widthBits x.width / 4) (opnd (getCore s x.core) x d) = true ∧
  bcdOk (widthBits x.width / 4) (opnd (getCore s x.core) x r) = true)
include ok

theorem bcdInstr_writes :
    let c := getCore s x.core
    let e := bcdOp (widthBits x.width / 4) (opnd c x d) (opnd c x r) subtract (if carry then bitsOf c.flags fDC 1 else 0)
    bcdInstr i x d r subtract carry true s =
      ilDone x c (decimalCore x c d e.1 (flagSet (decimalFlags c.flags (e.2.1 == 1) e.1) fH (e.2.2 == 1))) s :=
  runIl_done h (if_neg (not_not_intro ok))

theorem bcdInstr_compares :
    let c := getCore s x.core
    let e := bcdOp (widthBits x.width / 4) (opnd c x d) (opnd c x r) subtract (if carry then bitsOf c.flags fDC 1 else 0)
    bcdInstr i x d r subtract carry false s =
      ilDone x c { c with flags := decimalFlags c.flags (e.2.1 == 1) e.1, pc := ilNext x c } s :=
  runIl_done h (if_neg (not_not_intro ok))

end

/-! ### Conversions and corrections -/

theorem convert_bad {f : Nat → Core → Option Nat} (refused : f (widthBits x.width) (getCore s x.core) = none) :
    convert i x d f s = ilDone x (getCore s x.core) (badInputCore x (getCore s x.core)) s :=
  runIl_done h (by simp only [refused]; rfl)

theorem convert_writes {f : Nat → Core → Option Nat} {v : Nat} (value : f (widthBits x.width) (getCore s x.core) = some v) :
    convert i x d f s = ilDone x (getCore s x.core)
      (decimalCore x (getCore s x.core) d v (flagSet (flagSet (getCore s x.core).flags fBI false) fZ (v == 0))) s :=
  runIl_done h (by simp only [value]; rfl)

theorem adjust_ready (minus : Bool) :
    let c := getCore s x.core
    let e := daaDas (gReg c d % 256) c.flags minus
    adjust i x d minus s = ilDone x c (decimalCore x c d (gReg c d / 256 * 256 + e.1) e.2) s :=
  runIl_done h rfl

end

/-- The correction of R239: the byte, and C, DC, Z and H. -/
theorem daaDas_spec (v f : Nat) (minus : Bool) :
    let high := bitOf f fC || decide (0x99 < v % 256)
    let corr := (if bitOf f fH || decide (9 < v % 16) then 6 else 0) + (if high then 0x60 else 0)
    let low := (if minus then v % 256 + 256 - corr else v % 256 + corr) % 256
    (daaDas (v % 256) f minus).1 = low ∧
      FlagsAre f (daaDas (v % 256) f minus).2 [(fC, high), (fDC, high), (fZ, low == 0), (fH, false)] := by
  intro high corr low
  have byte : (daaDas (v % 256) f minus).1 = low := by
    have digit0 : v % 256 % 16 = v % 16 := Nat.mod_mod_of_dvd v (by decide)
    simp only [daaDas, digit0]
    cases minus <;> rfl
  refine ⟨byte, ?_⟩
  rw [← byte]
  refine (((((FlagsAre.nil f).set fC _).set fDC _).set fZ _).set fH _).congr fun j => ?_
  rcases j with _ | _ | _ | _ | _ | _ | j <;> rfl

/-! ### Timecode -/

section
variable (h : IlReady x i s) (d : Nat) {rate : Nat} (f : Core → Option (Nat × Bool))
include h

theorem tcInstr_illegal (undefined : 8 ≤ rate) :
    tcInstr i x d rate f s = ilRaise x (getCore s x.core) cause.ILLEGAL 0 (einfoBytes x) s :=
  runIl_exc h (if_pos undefined)

theorem tcInstr_bad (hr : rate < 8) (refused : f (getCore s x.core) = none) :
    tcInstr i x d rate f s = ilDone x (getCore s x.core) (badInputCore x (getCore s x.core)) s :=
  runIl_done h ((if_neg (Nat.not_le.mpr hr)).trans (by rw [refused]; rfl))

theorem tcInstr_writes (hr : rate < 8) {v : Nat} {dc : Bool} (value : f (getCore s x.core) = some (v, dc)) :
    tcInstr i x d rate f s = ilDone x (getCore s x.core)
      (decimalCore x (getCore s x.core) d v (decimalFlags (getCore s x.core).flags dc v)) s :=
  runIl_done h ((if_neg (Nat.not_le.mpr hr)).trans (by rw [value]; rfl))

end

end

/-- Settles O6: the digit loop adds and subtracts in base ten, and the conversions agree with it. -/
theorem ileshDecimal : Obligations.IleshDecimal := by
  intro x s d r c does n a b cy bad wrote sum difference
  have ha : a < 16 ^ n := by rw [digits_of_width]; exact opnd_lt c x d
  have hb : b < 16 ^ n := by rw [digits_of_width]; exact opnd_lt c x r
  have carry : bitsOf c.flags fDC 1 = cy := bitsOf_one c.flags fDC
  have hcy : cy ≤ 1 := by simp only [cy]; split <;> omega
  have adds {j : Instr} {cin : Nat} (hc : cin ≤ 1) (oka : bcdOk n a = true) (okb : bcdOk n b = true)
      (run : let e := bcdOp n a b false cin
        does j (ilDone x c (decimalCore x c d e.1 (flagSet (decimalFlags c.flags (e.2.1 == 1) e.1) fH (e.2.2 == 1))) s)) : sum j cin := by
    obtain ⟨lt, ok, value, dc⟩ := bcdOp_add hc oka okb
    have half : ((bcdOp n a b false cin).2.2 == 1) = decide (10 ≤ a % 16 + b % 16 + cin) := bcdOp_half n a b cin false
    refine ⟨_, _, lt, ok, value, ?_, run⟩
    rw [dc, half]
    exact decimalFlags_half_are _ _ _ _
  have subs {j : Instr} {bin : Nat} (hc : bin ≤ 1) (oka : bcdOk n a = true) (okb : bcdOk n b = true)
      (run : let e := bcdOp n a b true bin
        does j (ilDone x c (decimalCore x c d e.1 (flagSet (decimalFlags c.flags (e.2.1 == 1) e.1) fH (e.2.2 == 1))) s)) :
      difference j bin := by
    obtain ⟨lt, ok, value, dc⟩ := bcdOp_sub hc oka okb
    have half : ((bcdOp n a b true bin).2.2 == 1) = decide (a % 16 < b % 16 + bin) := bcdOp_half n a b bin true
    refine ⟨_, _, lt, ok, value, ?_, run⟩
    rw [dc, half]
    exact decimalFlags_half_are _ _ _ _
  refine ⟨fun bad i listed h => ?bad, fun oka okb => ⟨?add, ?adc, ?sub, ?sbb, ?cmp⟩, fun h => congrArg _ (runIl_done h rfl),
    fun large h => congrArg _ (convert_bad h d (if_neg (Nat.not_lt.mpr large))),
    fun small => ?b2bcd, fun no h => congrArg _ (convert_bad h d (if_neg (Bool.eq_false_iff.mp no))),
    fun ok => ⟨_, convertFlags_are c.flags (ofBcd n b), fun h => congrArg _ (convert_writes h d (if_pos ok))⟩, fun minus => ?adjust⟩
  case bad =>
    simp only [List.mem_cons, List.not_mem_nil, or_false] at listed
    rcases listed with rfl | rfl | rfl | rfl | rfl <;> exact congrArg _ (bcdInstr_bad h d r _ _ _ bad)
  case add => exact adds zero_le_one oka okb fun h => congrArg _ (bcdInstr_writes h d r false false ⟨oka, okb⟩)
  case adc =>
    rw [← carry] at hcy ⊢
    exact adds hcy oka okb fun h => congrArg _ (bcdInstr_writes h d r false true ⟨oka, okb⟩)
  case sub => exact subs zero_le_one oka okb fun h => congrArg _ (bcdInstr_writes h d r true false ⟨oka, okb⟩)
  case sbb =>
    rw [← carry] at hcy ⊢
    exact subs hcy oka okb fun h => congrArg _ (bcdInstr_writes h d r true true ⟨oka, okb⟩)
  case cmp =>
    obtain ⟨-, -, -, dc⟩ := bcdOp_sub zero_le_one oka okb
    refine ⟨decimalFlags c.flags ((bcdOp n a b true 0).2.1 == 1) (bcdOp n a b true 0).1, ?_,
      fun h => congrArg _ (bcdInstr_compares h d r true false ⟨oka, okb⟩)⟩
    rw [← bcdOp_sub_zero ha hb oka okb, dc]
    exact decimalFlags_are _ _ _
  case b2bcd =>
    obtain ⟨lt, ok, value⟩ := toBcd_spec small
    exact ⟨_, _, lt, ok, value, convertFlags_are c.flags (toBcd n b), fun h => congrArg _ (convert_writes h d (if_pos small))⟩
  case adjust =>
    obtain ⟨byte, flags⟩ := daaDas_spec (gReg c d) c.flags minus
    refine ⟨_, flags, fun h => ?_⟩
    rw [← byte]
    cases minus
    · exact congrArg _ (adjust_ready h d false)
    · exact congrArg _ (adjust_ready h d true)

/-- Settles O8: each instruction writes what its rule gives, or is bad input where a label it reads is not valid. -/
theorem ileshTimecode : Obligations.IleshTimecode := by
  intro x s d r rate c does ld lr N bad gives
  have writes {i : Instr} {v : Nat} {dc : Bool} (run : does i (ilDone x c (decimalCore x c d v (decimalFlags c.flags dc v)) s)) :
      gives i v dc := ⟨_, decimalFlags_are c.flags dc v, run⟩
  refine ⟨fun undefined i listed h => ?illegal, fun hr h => congrArg _ (runIl_done h (if_neg (Nat.not_le.mpr hr))),
    fun hr no i listed h => ?badD, fun hr no i listed h => ?badR,
    fun hr ok => writes fun h => congrArg _ (tcInstr_writes h d _ hr (if_pos ok)),
    fun hr okd okr => writes fun h => congrArg _ (tcInstr_writes h d _ hr (if_pos ⟨okd, okr⟩)),
    fun hr ok => writes fun h => congrArg _ (tcInstr_writes h d _ hr (if_pos ok)),
    fun hr => writes fun h => congrArg _ (tcInstr_writes h d _ hr rfl)⟩
  case illegal =>
    simp only [List.mem_cons, List.not_mem_nil, or_false] at listed
    rcases listed with rfl | rfl | rfl | rfl | rfl
    case inr.inr.inr.inr => exact congrArg _ (runIl_exc h (if_pos undefined))
    all_goals exact congrArg _ (tcInstr_illegal h d _ undefined)
  case badD =>
    have invalid : ¬ tcValid rate ld = true := Bool.eq_false_iff.mp no
    simp only [List.mem_cons, List.not_mem_nil, or_false] at listed
    rcases listed with rfl | rfl
    · exact congrArg _ (tcInstr_bad h d _ hr (if_neg invalid))
    · exact congrArg _ (tcInstr_bad h d _ hr (if_neg fun both => invalid both.1))
  case badR =>
    have invalid : ¬ tcValid rate lr = true := Bool.eq_false_iff.mp no
    simp only [List.mem_cons, List.not_mem_nil, or_false] at listed
    rcases listed with rfl | rfl
    · exact congrArg _ (tcInstr_bad h d _ hr (if_neg fun both => invalid both.2))
    · exact congrArg _ (tcInstr_bad h d _ hr (if_neg invalid))

end Sys2Proof.Machine

/-! SUPPORT. Exception entry of a core (R252, R259, R262, R268). -/

namespace Sys2Proof.Machine

section
variable {i : Nat} {s : State}

theorem getCore_putCore_same (h : i < s.cores.length) (c : Core) : getCore (putCore i c s) i = c := by
  simp [getCore, putCore, h]

theorem putCore_putCore (i : Nat) (c c' : Core) (s : State) : putCore i c (putCore i c' s) = putCore i c s := by
  simp [putCore]

/-- FLAGS on entry: EXL set, IE cleared. -/
def entryFlags (f : Nat) : Nat := flagSet (flagSet f fEXL true) fIE false

theorem entryFlags_are (f : Nat) : FlagsAre f (entryFlags f) [(fEXL, true), (fIE, false)] := by
  refine (((FlagsAre.nil f).set fEXL _).set fIE _).congr fun j => ?_
  rcases j with _ | _ | _ | _ | _ | _ | _ | _ | _ | _ | j <;> rfl

/-- The core as its handler finds it at `pc`: what entry saves, and compartment 0 with its region table. -/
def entered (i cause sub info epc pc : Nat) (c : Core) (s : State) : Core :=
  { c with
    epc := epc, eflags := c.flags, ecmp := c.cmp, ecause := sub * 256 + cause, einfo := info, flags := entryFlags c.flags
    cmp := 0, regions := readRegions s i c 0, pc := pc }

theorem enterException_inHandler {cause sub info epc : Nat} (exl : bitOf (getCore s i).flags fEXL = true) :
    enterException i cause sub info epc s = stopCore i cause s := if_pos exl

section
variable {cause sub info epc : Nat} (exl : bitOf (getCore s i).flags fEXL = false)
include exl

/-- Entry, and then the stop by the boot ROM's handler where EVB is not yet written. -/
theorem enterException_enters :
    let c := getCore s i
    let t := putCore i (entered i cause sub info epc (c.evb.getD romBase + 0x40 * cause) c s) s
    enterException i cause sub info epc s = if c.evb.isNone then stopCore i cause t else t :=
  if_neg (Bool.eq_false_iff.mp exl)

theorem enterException_vector {base : Nat} (evb : (getCore s i).evb = some base) : enterException i cause sub info epc s =
    putCore i (entered i cause sub info epc (base + 0x40 * cause) (getCore s i) s) s := by
  have vector : (getCore s i).evb.getD romBase = base := by rw [evb, Option.getD_some]
  have written : ¬ (getCore s i).evb.isNone = true := by rw [evb, Option.isNone_some]; exact Bool.false_ne_true
  rw [enterException_enters exl, vector]
  exact if_neg written

theorem enterException_rom (hi : i < s.cores.length) (evb : (getCore s i).evb = none) : enterException i cause sub info epc s =
    putCore i { entered i cause sub info epc (romBase + 0x40 * cause) (getCore s i) s with act := .stopped cause } s := by
  have vector : (getCore s i).evb.getD romBase = romBase := by rw [evb, Option.getD_none]
  have unwritten : (getCore s i).evb.isNone = true := by rw [evb, Option.isNone_none]
  rw [enterException_enters exl, vector]
  refine (if_pos unwritten).trans ?_
  rw [stopCore, getCore_putCore_same hi, putCore_putCore]

end

end

/-- Settles O13: EXL chooses between the stop and the entry, EVB between the core's vector and the boot ROM's. -/
theorem exceptionEntrySavesAndVectors : Obligations.ExceptionEntrySavesAndVectors := by
  intro i cause sub info epc s hi c saved
  exact ⟨enterException_inHandler, fun exl => ⟨entryFlags c.flags, entryFlags_are c.flags, fun base evb => enterException_vector exl evb,
    fun evb => enterException_rom exl hi evb⟩⟩

end Sys2Proof.Machine

/-! SUPPORT. Branches, the return stack, gates and signatures: which end the state of the stack selects (R236, R246 to R248,
R254 to R258). -/

namespace Sys2Proof.Machine

section
variable {c : Core} {e : RetEntry}

/-! ### The return stack -/

theorem pushEntry_room (room : c.stack.length < 16) : pushEntry c e = some { c with stack := c.stack ++ [e] } := if_pos room

theorem pushEntry_fault (full : 16 ≤ c.stack.length) (faults : bitOf c.cctl 0 = true) : pushEntry c e = none :=
  (if_neg (Nat.not_lt.mpr full)).trans (if_pos faults)

theorem pushEntry_wrap {old : RetEntry} {l : List RetEntry} (full : 16 ≤ c.stack.length) (wraps : bitOf c.cctl 0 = false)
    (hs : c.stack = old :: l) : pushEntry c e =
      if old.gate then none else some { c with stack := l ++ [e], rsLost := min 0xFFFFFFFF (c.rsLost + 1) } := by
  rw [pushEntry, if_neg (Nat.not_lt.mpr full), if_neg (Bool.eq_false_iff.mp wraps), hs]

end

section
variable {i : Instr} {x : Ilx} {s : State} (h : IlReady x i s)
include h

/-- The entry that a call pushes (R246). -/
def callEntry (x : Ilx) (c : Core) : RetEntry := { addr := ilNext x c % 2 ^ 48, cmp := c.cmp, gate := false, sig := 0 }

theorem callTo_pushes {target : Core → Nat → Nat} {c' : Core}
    (pushed : pushEntry (getCore s x.core) (callEntry x (getCore s x.core)) = some c') :
    callTo i x target s = ilDone x (getCore s x.core)
      { c' with pc := target (getCore s x.core) (ilNext x (getCore s x.core)) } s :=
  runIl_done h (by rw [callEntry] at pushed; simp only [pushed]; rfl)

theorem callTo_over {target : Core → Nat → Nat} (full : pushEntry (getCore s x.core) (callEntry x (getCore s x.core)) = none) :
    callTo i x target s = ilRaise x (getCore s x.core) cause.RS_OVER 0 (getCore s x.core).stack.length s :=
  runIl_exc h (by rw [callEntry] at full; simp only [full])

end

section
variable {x : Ilx} {s : State}

theorem exec_ret_empty (h : IlReady x (.ret x) s) (empty : (getCore s x.core).stack = []) :
    exec (.ret x) s = .next (ilRaise x (getCore s x.core) cause.RS_UNDER 0 0 s) :=
  congrArg _ (runIl_exc h (by simp only [empty, List.getLast?_nil]))

theorem exec_ret_top (h : IlReady x (.ret x) s) {l : List RetEntry} {top : RetEntry} (hs : (getCore s x.core).stack = l ++ [top]) :
    exec (.ret x) s = .next (if top.gate then ilRaise x (getCore s x.core) cause.GATE_FAULT 0 0x100 s
      else ilDone x (getCore s x.core) { getCore s x.core with stack := l, pc := top.addr } s) := by
  by_cases gate : top.gate = true
  · rw [if_pos gate]
    exact congrArg _ (runIl_exc h (by simp only [hs, List.getLast?_concat, gate, if_true]))
  · rw [if_neg gate]
    exact congrArg _ (runIl_done h (by simp only [hs, List.getLast?_concat, gate, List.dropLast_concat]; rfl))

end

/-- Settles O9: the stack's depth and its oldest entry choose what a call does, its newest entry what a return does. -/
theorem ileshBranchesAndCalls : Obligations.IleshBranchesAndCalls := by
  intro x s disp r c does next far e
  refine ⟨fun h => congrArg _ (runIl_done h rfl), fun k hk h => ?bc, fun h => congrArg _ (runIl_done h rfl),
    fun room => ⟨fun h => congrArg _ (callTo_pushes h (pushEntry_room room)), fun h => congrArg _ (callTo_pushes h (pushEntry_room room))⟩,
    fun full faults => ⟨fun h => congrArg _ (callTo_over h (pushEntry_fault full faults)),
      fun h => congrArg _ (callTo_over h (pushEntry_fault full faults))⟩,
    fun old l full wraps hs => ?wrap, fun empty h => exec_ret_empty h empty, fun l top hs h => exec_ret_top h hs⟩
  case bc =>
    refine congrArg _ (runIl_done h ?_)
    simp only [Nat.mod_eq_of_lt hk]; rfl
  case wrap =>
    have dropped := pushEntry_wrap (e := e) full wraps hs
    by_cases gate : old.gate = true
    · rw [if_pos gate] at dropped
      simp only [if_pos gate]
      exact ⟨fun h => congrArg _ (callTo_over h dropped), fun h => congrArg _ (callTo_over h dropped)⟩
    · rw [if_neg gate] at dropped
      simp only [if_neg gate]
      exact ⟨fun h => congrArg _ (callTo_pushes h dropped), fun h => congrArg _ (callTo_pushes h dropped)⟩

end Sys2Proof.Machine

/-! SUPPORT. Gates, signatures, spill and fill: which end the checks select (R248 to R250, R254 to R258). -/

namespace Sys2Proof.Machine

section
variable {x : Ilx} {s : State} {v k : Nat}

/-! ### Signatures and gates -/

theorem sigBad_iff {c : Core} (hv : v < 65536) : sigBad c v = true ↔ bitOf c.cctl 1 = true ∧ c.sig ≠ v := by
  simp [sigBad, Nat.mod_eq_of_lt hv]

/-- What keeps a gate shut: its number, REG_EN, or its entry (R254). -/
def GateShut (c : Core) (g : List Byte) (k : Nat) : Prop :=
  c.gtn ≤ k ∨ bitOf c.cctl 2 = false ∨ leAt g 9 1 ≠ 1 ∨ leAt g 8 1 = 0 ∨ 31 < leAt g 8 1 ∨ 2 ^ 48 ≤ leAt g 0 8 ∨
    bitOf (leAt g 0xC 4) c.cmp = false

/-- The bytes of the entry of gate `k` (R254). -/
def gateBytes (s : State) (i : Nat) (c : Core) (k : Nat) : List Byte := coreBytes s i (c.gtb + 16 * k) 16

/-- The entry that a gate call pushes (R255). -/
def gateEntry (x : Ilx) (c : Core) : RetEntry := { addr := ilNext x c % 2 ^ 48, cmp := c.cmp, gate := true, sig := c.sig }

theorem exec_gcall_shut (h : IlReady x (.gcall x k) s)
    (shut : GateShut (getCore s x.core) (gateBytes s x.core (getCore s x.core) k) k) :
    exec (.gcall x k) s = .next (ilRaise x (getCore s x.core) cause.GATE_FAULT 0 k s) := by
  refine congrArg _ (runIl_exc h (if_pos ?_))
  simp only [GateShut, ← Bool.not_eq_true] at shut
  exact shut

theorem exec_gcall_open (h : IlReady x (.gcall x k) s)
    (opens : ¬ GateShut (getCore s x.core) (gateBytes s x.core (getCore s x.core) k) k) (room : (getCore s x.core).stack.length < 16) :
    let c := getCore s x.core
    let g := gateBytes s x.core c k
    exec (.gcall x k) s = .next (ilDone x c
      { c with
        stack := c.stack ++ [gateEntry x c]
        cmp := leAt g 8 1, regions := readRegions s x.core c (leAt g 8 1), sig := leAt g 0xA 2, pc := leAt g 0 8 } s) := by
  intro c g
  simp only [GateShut, ← Bool.not_eq_true] at opens
  refine congrArg _ (runIl_done h ((if_neg opens).trans ?_))
  have pushed := pushEntry_room (e := gateEntry x c) room
  rw [gateEntry] at pushed
  simp only [c, gateEntry] at pushed ⊢
  simp only [pushed]; rfl

theorem exec_gret_empty (h : IlReady x (.gret x v) s) (empty : (getCore s x.core).stack = []) : exec (.gret x v) s =
    .next (if sigBad (getCore s x.core) v then ilRaise x (getCore s x.core) cause.CF_SIG 0 (sigInfo (getCore s x.core) v) s
      else ilRaise x (getCore s x.core) cause.RS_UNDER 0 0 s) := by
  split
  next bad => exact congrArg _ (runIl_exc h (by simp only [empty, List.getLast?_nil]; exact if_pos bad))
  next good => exact congrArg _ (runIl_exc h (by simp only [empty, List.getLast?_nil]; exact if_neg good))

section
variable (h : IlReady x (.gret x v) s) {l : List RetEntry} {e : RetEntry} (hs : (getCore s x.core).stack = l ++ [e])
include h hs

theorem exec_gret_ordinary (gate : e.gate = false) :
    exec (.gret x v) s = .next (ilRaise x (getCore s x.core) cause.GATE_FAULT 0 0x100 s) :=
  congrArg _ (runIl_exc h (by simp only [hs, List.getLast?_concat, gate]; rfl))

theorem exec_gret_gate (gate : e.gate = true) : exec (.gret x v) s =
    .next (if sigBad (getCore s x.core) v then ilRaise x (getCore s x.core) cause.CF_SIG 0 (sigInfo (getCore s x.core) v) s
      else ilDone x (getCore s x.core) { getCore s x.core with
        stack := l, cmp := e.cmp, regions := readRegions s x.core (getCore s x.core) e.cmp, sig := e.sig, pc := e.addr } s) := by
  have notShut : ¬ ¬ e.gate = true := not_not_intro gate
  split
  next bad => exact congrArg _ (runIl_exc h (by simp only [hs, List.getLast?_concat]; exact (if_neg notShut).trans (if_pos bad)))
  next good =>
    exact congrArg _ (runIl_done h (by
      simp only [hs, List.getLast?_concat, List.dropLast_concat]
      exact (if_neg notShut).trans (if_neg good)))

end

/-! ### Spill and fill -/

/-- imm8 of RSSPILL and RSFILL outside 1 to 16 (R237). -/
theorem exec_rsspill_illegal (h : IlReady x (.rsspill x k) s) (hk : k = 0 ∨ 16 < k) :
    exec (.rsspill x k) s = .next (ilRaise x (getCore s x.core) cause.ILLEGAL 0 (einfoBytes x) s) :=
  congrArg _ (runIl_exc h (if_pos hk))

theorem exec_rsfill_illegal (h : IlReady x (.rsfill x k) s) (hk : k = 0 ∨ 16 < k) :
    exec (.rsfill x k) s = .next (ilRaise x (getCore s x.core) cause.ILLEGAL 0 (einfoBytes x) s) :=
  congrArg _ (runIl_exc h (if_pos hk))

section
variable (hk : 1 ≤ k ∧ k ≤ 16)
include hk

theorem exec_rsspill_priv (h : IlReady x (.rsspill x k) s) (other : (getCore s x.core).cmp ≠ 0) :
    exec (.rsspill x k) s = .next (ilRaise x (getCore s x.core) cause.PRIV 0 0 s) :=
  congrArg _ (runIl_exc h ((if_neg (by omega)).trans (if_pos other)))

theorem exec_rsfill_priv (h : IlReady x (.rsfill x k) s) (other : (getCore s x.core).cmp ≠ 0) :
    exec (.rsfill x k) s = .next (ilRaise x (getCore s x.core) cause.PRIV 0 0 s) :=
  congrArg _ (runIl_exc h ((if_neg (by omega)).trans (if_pos other)))

theorem exec_rsspill_allowed (h : IlReady x (.rsspill x k) s) (c0 : (getCore s x.core).cmp = 0) :
    let c := getCore s x.core
    let n := min k c.stack.length
    (∀ i, i < n → 16 * (i + 1) ≤ c.rsp ∧ spillOk s x.core c (c.rsp - 16 * (i + 1)) = true) →
    exec (.rsspill x k) s = .next (ilDone x c
      { c with stack := c.stack.drop n, rsp := c.rsp - 16 * n, flags := flagSet c.flags fZ (n == 0), pc := ilNext x c }
      (spillAll x.core (c.stack.take n) c.rsp s)) := by
  intro c n allowed
  refine congrArg _ (runIl_done h ((if_neg (by omega)).trans ((if_neg (not_not_intro c0)).trans ?_)))
  have noFault : (List.range n).find? (fun i => decide (c.rsp < 16 * (i + 1)) || !spillOk s x.core c (c.rsp - 16 * (i + 1))) = none := by
    rw [List.find?_eq_none]
    intro i hi
    obtain ⟨room, ok⟩ := allowed i (List.mem_range.mp hi)
    simp [room, ok]
  simp only [n, c] at noFault ⊢
  simp only [noFault]

theorem exec_rsfill_allowed (h : IlReady x (.rsfill x k) s) (c0 : (getCore s x.core).cmp = 0) :
    let c := getCore s x.core
    let m := min (min k ((c.rsbase - c.rsp) / 16)) (16 - c.stack.length)
    let t := coreTouch x.core c.rsp (16 * m) s
    let filled := (List.range m).map fun i => entryOfSpill (coreBytes s x.core (c.rsp + 16 * i) 16)
    (∀ i, i < m → spillOk s x.core c (c.rsp + 16 * i) = true) → poisonAt s x.core c.rsp (16 * m) = none →
    exec (.rsfill x k) s = .next (ilDone x c
      { getCore t x.core with
        stack := filled.reverse ++ c.stack, rsp := c.rsp + 16 * m, flags := flagSet c.flags fZ (m == 0), pc := ilNext x c } t) := by
  intro c m t filled allowed sound
  refine congrArg _ (runIl_done h ((if_neg (by omega)).trans ((if_neg (not_not_intro c0)).trans ?_)))
  have noFault : (List.range m).find? (fun i => !spillOk s x.core c (c.rsp + 16 * i)) = none := by
    rw [List.find?_eq_none]
    intro i hi
    simp [allowed i (List.mem_range.mp hi)]
  simp only [m, c] at noFault sound
  simp only [noFault, sound]; rfl

end

end

/-- Settles O11: the gate's entry and the signature choose between the call or return and their faults. -/
theorem ileshGatesAndSignatures : Obligations.IleshGatesAndSignatures := by
  intro x s v k hv c does next info bad g target cmp shut
  have hbad : sigBad c v = true ↔ bad := sigBad_iff hv
  have hinfo : sigInfo c v = info := by rw [sigInfo, Nat.mod_eq_of_lt hv]
  refine ⟨fun h => congrArg _ (runIl_done h ?sigu), fun b h => congrArg _ (runIl_exc h ?sigckBad),
    fun b h => congrArg _ (runIl_done h (if_neg (mt hbad.mp b))), fun b h => exec_gcall_shut h b, fun b room h => exec_gcall_open h b room,
    fun empty b h => ?emptyBad, fun empty b h => ?emptyGood, fun l e hs => ⟨fun gate h => exec_gret_ordinary h hs gate,
      fun gate b h => ?gateBad, fun gate b h => ?gateGood⟩⟩
  case sigu => rw [Nat.mod_eq_of_lt hv]; rfl
  case sigckBad => rw [← hinfo]; exact if_pos (hbad.mpr b)
  case emptyBad => rw [exec_gret_empty h empty, ← hinfo]; exact congrArg _ (if_pos (hbad.mpr b))
  case emptyGood => rw [exec_gret_empty h empty]; exact congrArg _ (if_neg (mt hbad.mp b))
  case gateBad => rw [exec_gret_gate h hs gate, ← hinfo]; exact congrArg _ (if_pos (hbad.mpr b))
  case gateGood => rw [exec_gret_gate h hs gate]; exact congrArg _ (if_neg (mt hbad.mp b))

/-- Settles O12: with every slot allowed, no slot is found that faults. -/
theorem ileshSpillAndFill : Obligations.IleshSpillAndFill := by
  intro x s k c does n m
  exact ⟨fun hk => ⟨fun h => exec_rsspill_illegal h hk, fun h => exec_rsfill_illegal h hk⟩,
    fun low high other => ⟨fun h => exec_rsspill_priv ⟨low, high⟩ h other, fun h => exec_rsfill_priv ⟨low, high⟩ h other⟩,
    fun low high c0 allowed h => exec_rsspill_allowed ⟨low, high⟩ h c0 allowed,
    fun low high c0 allowed sound h => exec_rsfill_allowed ⟨low, high⟩ h c0 allowed sound⟩

end Sys2Proof.Machine

/-! SUPPORT. Special registers, return from exceptions, sleep, interrupts and the watchdog (R228, R252, R258 to R262). -/

namespace Sys2Proof.Machine

section
variable {x : Ilx} {s : State} {d n r : Nat}

/-! ### Special registers -/

theorem exec_mfs_listed {v : Nat} (listed : readSpecial s x.core (getCore s x.core) n = some v) (h : IlReady x (.mfs x d n) s) :
    exec (.mfs x d n) s =
      .next (ilDone x (getCore s x.core) { setG (getCore s x.core) d v with pc := ilNext x (getCore s x.core) } s) :=
  congrArg _ (runIl_done h (by simp only [listed, retire_flags_kept]))

theorem exec_mfs_unlisted (unlisted : readSpecial s x.core (getCore s x.core) n = none) (h : IlReady x (.mfs x d n) s) :
    exec (.mfs x d n) s = .next (ilRaise x (getCore s x.core) cause.ILLEGAL 0 (einfoBytes x) s) :=
  congrArg _ (runIl_exc h (by simp only [unlisted]))

/-- No core lists a number above 0x17, and the deck cores and the MSS do not list 0x17 (R228). -/
theorem readSpecial_unlisted (s : State) {i : Nat} (c : Core) (hn : 0x18 ≤ n ∨ n = 0x17 ∧ 32 ≤ i) : readSpecial s i c n = none := by
  rcases hn with above | ⟨rfl, notStream⟩
  · obtain ⟨m, rfl⟩ := Nat.exists_eq_add_of_le' above
    rfl
  · have other : isStream i = false := decide_eq_false (Nat.not_lt.mpr notStream)
    rw [readSpecial, other]; rfl

/-- FLAGS takes IE and EXL in compartment 0 alone. -/
theorem writeSpecial_flags (c : Core) (v : Nat) : writeSpecial c 0x01 v =
    { c with flags := (v &&& 0x7F) + (if c.cmp = 0 then bitsOf v 8 2 else bitsOf c.flags 8 2) * 256 } := by
  rw [writeSpecial]; split <;> rfl

theorem exec_mts_illegal (illegal : (readSpecial s x.core (getCore s x.core) n).isNone = true ∨ specialRo n = true)
    (h : IlReady x (.mts x n r) s) :
    exec (.mts x n r) s = .next (ilRaise x (getCore s x.core) cause.ILLEGAL 0 (einfoBytes x) s) :=
  congrArg _ (runIl_exc h (if_pos illegal))

section
variable {v : Nat} (listed : readSpecial s x.core (getCore s x.core) n = some v) (writable : specialRo n = false)
include listed writable

theorem special_writable : ¬ ((readSpecial s x.core (getCore s x.core) n).isNone = true ∨ specialRo n = true) := by
  rw [listed, writable, Option.isNone_some]
  exact not_or.mpr ⟨Bool.false_ne_true, Bool.false_ne_true⟩

theorem exec_mts_priv (c0 : specialC0 n = true) (other : (getCore s x.core).cmp ≠ 0) (h : IlReady x (.mts x n r) s) :
    exec (.mts x n r) s = .next (ilRaise x (getCore s x.core) cause.PRIV 0 0 s) :=
  congrArg _ (runIl_exc h ((if_neg (special_writable listed writable)).trans (if_pos ⟨c0, other⟩)))

theorem exec_mts_writes (allowed : ¬ (specialC0 n = true ∧ (getCore s x.core).cmp ≠ 0)) (h : IlReady x (.mts x n r) s) :
    exec (.mts x n r) s = .next (ilDone x (getCore s x.core)
      { writeSpecial (getCore s x.core) n (gReg (getCore s x.core) r) with pc := ilNext x (getCore s x.core) } s) :=
  congrArg _ (runIl_done h ((if_neg (special_writable listed writable)).trans (if_neg allowed)))

end

/-! ### Return, sleep and the region table -/

/-- Each of these instructions is compartment 0's alone. -/
theorem runIl_onlyC0_priv {i : Instr} {body : Core → Nat → State → IlEnd} (h : IlReady x i s) (other : (getCore s x.core).cmp ≠ 0) :
    runIl i x (fun c next s => onlyC0 c (body c next s)) s = ilRaise x (getCore s x.core) cause.PRIV 0 0 s :=
  runIl_exc h (if_pos other)

theorem runIl_onlyC0_done {i : Instr} {body : Core → Nat → State → IlEnd} {c' : Core} {t : State} (h : IlReady x i s)
    (c0 : (getCore s x.core).cmp = 0) (hb : body (getCore s x.core) (ilNext x (getCore s x.core)) s = .done c' t) :
    runIl i x (fun c next s => onlyC0 c (body c next s)) s = ilDone x (getCore s x.core) c' t :=
  runIl_done h ((if_neg (not_not_intro c0)).trans hb)

theorem exec_wfi_c0 (h : IlReady x (.wfi x) s) (c0 : (getCore s x.core).cmp = 0) :
    let c := getCore s x.core
    exec (.wfi x) s = .next (ilDone x c
      (if ipendOf s x.core &&& c.imask = 0 then { c with act := .wfi (ilNext x c) } else { c with pc := ilNext x c }) s) := by
  intro c
  refine congrArg _ (runIl_onlyC0_done h c0 ?_)
  by_cases idle : ipendOf s x.core &&& c.imask = 0
  · have asleep : linePending s x.core = false := by rw [linePending, idle]; rfl
    simp only [asleep, if_pos idle]; rfl
  · have pending : linePending s x.core = true := bne_iff_ne.mpr idle
    simp only [pending, if_neg idle]; rfl

end

/-! ### Interrupts and the watchdog -/

section
variable {core : Nat} {s : State} (hc : core < 37) (running : (getCore s core).act = .running) (free : coreHeld s core = false)
include hc running free

theorem exec_interruptTake_lowest {line : Nat} (ie : bitOf (getCore s core).flags fIE = true)
    (exl : bitOf (getCore s core).flags fEXL = false) (quiet : watchdogDue (getCore s core) = false) (hl : line < 64)
    (pending : bitOf (ipendOf s core &&& (getCore s core).imask) line = true)
    (lowest : ∀ j, j < line → bitOf (ipendOf s core &&& (getCore s core).imask) j = false) :
    exec (.interruptTake core) s = .next (enterException core cause.INTERRUPT 0 line (getCore s core).pc s) := by
  have found : (List.range 64).find? (fun j => bitOf (ipendOf s core &&& (getCore s core).imask) j) = some line := by
    rw [List.find?_range_eq_some]
    exact ⟨pending, List.mem_range.mpr hl, fun j hj => by simp [lowest j hj]⟩
  refine congrArg _ ((if_neg (Nat.not_le.mpr hc)).trans ?_)
  simp only [wakeCore_running running, running, free, ie, exl, quiet, found]
  simp

theorem exec_watchdogExpiry_stops (enabled : (getCore s core).wdt ≠ 0) (twice : 2 * (getCore s core).wdt ≤ (getCore s core).wdCount) :
    exec (.watchdogExpiry core) s = .next (putCore core { getCore s core with act := .stopped cause.WATCHDOG } s) := by
  refine congrArg _ ((if_neg (Nat.not_le.mpr hc)).trans ?_)
  have due : ¬ (getCore s core).wdCount < (getCore s core).wdt := by omega
  simp only [running, free, enabled, due]
  exact if_pos twice

theorem exec_watchdogExpiry_raises (once : (getCore s core).wdRaised = false) (due : (getCore s core).wdt ≤ (getCore s core).wdCount)
    (within : (getCore s core).wdCount < 2 * (getCore s core).wdt) : exec (.watchdogExpiry core) s =
      .next (enterException core cause.WATCHDOG 0 (getCore s core).wdCount (getCore s core).pc
        (putCore core { getCore s core with wdRaised := true } s)) := by
  have enabled : (getCore s core).wdt ≠ 0 := by omega
  have reached : ¬ (getCore s core).wdCount < (getCore s core).wdt := by omega
  have notTwice : ¬ 2 * (getCore s core).wdt ≤ (getCore s core).wdCount := by omega
  have raised : { getCore s core with act := .running, wdRaised := true } = { getCore s core with wdRaised := true } := by
    rw [← running]
  refine congrArg _ ((if_neg (Nat.not_le.mpr hc)).trans ?_)
  simp only [running, free, enabled, reached, notTwice, once]
  simp [← running]

end

/-- Settles O14: the number names the register, whose class and the compartment decide what MTS may do. -/
theorem ileshSpecialRegisters : Obligations.IleshSpecialRegisters := by
  intro x s d r c does v reads writes illegal
  have read {n v : Nat} (listed : readSpecial s x.core c n = some v) : reads n v := exec_mfs_listed listed
  refine ⟨⟨read rfl, read rfl, read rfl, read rfl, read rfl, read rfl, read rfl, read rfl, read rfl, read rfl, read rfl, read rfl,
      read rfl, read rfl, read rfl, read rfl, read rfl, read rfl, read rfl, read rfl, read rfl, read rfl, read rfl⟩,
    fun stream => read (if_pos (decide_eq_true stream)),
    fun n hn => ⟨exec_mfs_unlisted (readSpecial_unlisted s c hn),
      exec_mts_illegal (.inl (Option.isNone_iff_eq_none.mpr (readSpecial_unlisted s c hn)))⟩,
    fun n ro => exec_mts_illegal (.inr ?readOnly), fun other n priv => ?priv,
    ⟨exec_mts_writes rfl rfl fun p => Bool.false_ne_true p.1, ?flags⟩, fun c0 => ?writes⟩
  case readOnly =>
    revert n; decide
  case priv =>
    simp only [List.mem_cons, List.not_mem_nil, or_false] at priv
    rcases priv with rfl | rfl | rfl | rfl | rfl | rfl | rfl | rfl | rfl | rfl | rfl | rfl | rfl | rfl | rfl | rfl <;>
      exact exec_mts_priv rfl rfl rfl other
  case flags =>
    rw [← writeSpecial_flags]
    exact exec_mts_writes rfl rfl fun p => Bool.false_ne_true p.1
  case writes =>
    have write {n v : Nat} (listed : readSpecial s x.core c n = some v) (writable : specialRo n = false) :
        writes n (writeSpecial c n (gReg c r)) := exec_mts_writes listed writable fun p => p.2 c0
    exact ⟨write rfl rfl, write rfl rfl, write rfl rfl, write rfl rfl, write rfl rfl, write rfl rfl, write rfl rfl, write rfl rfl,
      write rfl rfl, write rfl rfl, write rfl rfl, write rfl rfl, write rfl rfl, write rfl rfl, write rfl rfl, write rfl rfl⟩

/-- Settles O15: compartment 0 alone returns, sleeps and kicks; the core's flags, lines and count decide what it takes. -/
theorem ileshReturnSleepAndWatchdog : Obligations.IleshReturnSleepAndWatchdog := by
  intro x s core line c does next k pending
  refine ⟨fun other i listed h => ?priv, fun c0 => ⟨fun h => congrArg _ (runIl_onlyC0_done h c0 rfl), fun h => exec_wfi_c0 h c0,
      fun h => congrArg _ (runIl_onlyC0_done h c0 rfl), fun h => congrArg _ (runIl_onlyC0_done h c0 rfl)⟩,
    fun hc running free ie exl quiet hl bit lowest => exec_interruptTake_lowest hc running free ie exl quiet hl bit lowest,
    fun hc running free enabled twice => exec_watchdogExpiry_stops hc running free enabled twice,
    fun hc running free once due within => exec_watchdogExpiry_raises hc running free once due within⟩
  simp only [List.mem_cons, List.not_mem_nil, or_false] at listed
  rcases listed with rfl | rfl | rfl | rfl <;> exact congrArg _ (runIl_onlyC0_priv h other)

end Sys2Proof.Machine

/-! SUPPORT. Loads, stores and atomic accesses of normal memory: what the checks, the poison and the old value decide (R206, R229 to
R232, R237, R253, R258). -/

namespace Sys2Proof.Machine

theorem accessBytes_bits (x : Ilx) : 8 * accessBytes x = widthBits x.width := by
  rw [accessBytes]; rcases widthBits_cases x.width with h | h | h | h <;> rw [h]

/-- A load from normal memory leaves the marks of its read alone. -/
theorem coreLoad_normal {s : State} {i a key : Nat} (n : Nat) (normal : place s i a = .normal key) :
    coreLoad i a n s = ((poisonAt s i a n, leNat (coreBytes s i a n)), coreTouch i a n s) := by
  rw [coreLoad, normal]

section
variable {i : Instr} {x : Ilx} {s : State} (h : IlReady x i s)
include h

/-! ### Loads -/

section
variable {d b : Nat} {disp : Int} {ext : Nat → Nat}

theorem loadIl_refused {why sub : Nat}
    (refused : accessCheck s x.core (getCore s x.core) ⟨true, false, false⟩ false (addrPlus (gReg (getCore s x.core) b) disp)
      (accessBytes x) = some (why, sub)) :
    loadIl i x d b disp ext s = ilRaise x (getCore s x.core) why sub (addrPlus (gReg (getCore s x.core) b) disp) s :=
  runIl_exc h (by simp only [refused])

section
variable {key : Nat}
  (allowed : accessCheck s x.core (getCore s x.core) ⟨true, false, false⟩ false (addrPlus (gReg (getCore s x.core) b) disp)
    (accessBytes x) = none)
  (normal : place s x.core (addrPlus (gReg (getCore s x.core) b) disp) = .normal key)
include allowed normal

theorem loadIl_sound (sound : poisonAt s x.core (addrPlus (gReg (getCore s x.core) b) disp) (accessBytes x) = none) :
    let a := addrPlus (gReg (getCore s x.core) b) disp
    let t := coreTouch x.core a (accessBytes x) s
    loadIl i x d b disp ext s = ilDone x (getCore s x.core)
      { setG (getCore t x.core) d (ext (leNat (coreBytes s x.core a (accessBytes x)))) with pc := ilNext x (getCore s x.core) } t :=
  runIl_done h (by simp only [allowed, coreLoad_normal _ normal, sound])

theorem loadIl_poisoned {p : Nat}
    (poisoned : poisonAt s x.core (addrPlus (gReg (getCore s x.core) b) disp) (accessBytes x) = some p) :
    loadIl i x d b disp ext s = ilRaise x (getCore s x.core) cause.POISON 0 p
      (coreTouch x.core (addrPlus (gReg (getCore s x.core) b) disp) (accessBytes x) s) := by
  rw [loadIl, runIl_ready _ h]
  simp only [allowed, coreLoad_normal _ normal, poisoned]

end

end

/-! ### Atomic accesses -/

section
variable {addr : Core → Nat} {new : Core → Nat → Option Nat} {fin : Core → Nat → Core}

theorem atomicIl_refused {why sub : Nat}
    (refused : accessCheck s x.core (getCore s x.core) ⟨true, true, false⟩ true (addr (getCore s x.core)) (accessBytes x) =
      some (why, sub)) :
    atomicIl i x addr new fin s = ilRaise x (getCore s x.core) why sub (addr (getCore s x.core)) s :=
  runIl_exc h (by simp only [refused])

/-- The state after the read of an atomic access, and after its store where the old value lets it store. -/
def atomicStored (i a n : Nat) (v : Option Nat) (s : State) : State :=
  match v with
  | some v => coreWrite i a (leBytes n v) (coreTouch i a n s)
  | none => coreTouch i a n s

theorem atomicIl_sound {key : Nat}
    (allowed : accessCheck s x.core (getCore s x.core) ⟨true, true, false⟩ true (addr (getCore s x.core)) (accessBytes x) = none)
    (normal : place s x.core (addr (getCore s x.core)) = .normal key)
    (sound : poisonAt s x.core (addr (getCore s x.core)) (accessBytes x) = none) :
    let c := getCore s x.core
    let old := leNat (coreBytes s x.core (addr c) (accessBytes x))
    let t := atomicStored x.core (addr c) (accessBytes x) (new c old) s
    atomicIl i x addr new fin s = ilDone x c { fin (getCore t x.core) old with pc := ilNext x c } t := by
  refine runIl_done h ?_
  simp only [allowed, coreLoad_normal _ normal, sound]
  rfl

end

end

/-! ### Stores -/

section
variable {x : Ilx} {s : State} {r b : Nat} {disp : Int} (h : IlReady x (.st x r b disp) s)
include h

theorem exec_st_refused {why sub : Nat}
    (refused : accessCheck s x.core (getCore s x.core) ⟨false, true, false⟩ false (addrPlus (gReg (getCore s x.core) b) disp)
      (accessBytes x) = some (why, sub)) :
    exec (.st x r b disp) s =
      .next (ilRaise x (getCore s x.core) why sub (addrPlus (gReg (getCore s x.core) b) disp) s) :=
  congrArg _ (runIl_exc h (by simp only [refused]))

theorem exec_st_normal {key : Nat}
    (allowed : accessCheck s x.core (getCore s x.core) ⟨false, true, false⟩ false (addrPlus (gReg (getCore s x.core) b) disp)
      (accessBytes x) = none)
    (normal : place s x.core (addrPlus (gReg (getCore s x.core) b) disp) = .normal key) :
    exec (.st x r b disp) s = .next (ilDone x (getCore s x.core)
      { getCore s x.core with pc := ilNext x (getCore s x.core) }
      (coreWrite x.core (addrPlus (gReg (getCore s x.core) b) disp) (leBytes (accessBytes x) (opnd (getCore s x.core) x r)) s)) :=
  congrArg _ (runIl_done h (by simp only [allowed, normal]))

end

/-- Settles O10: the checks, the poison and the old value select the access's end; the widths are bytes of eight bits. -/
theorem ileshMemoryAccesses : Obligations.IleshMemoryAccesses := by
  intro x s d b r disp key c does n far old t after
  have bits : 8 * n = widthBits x.width := accessBytes_bits x
  rw [bits]
  refine ⟨fun why sub refused => ⟨fun h => congrArg _ (loadIl_refused h refused), fun h => congrArg _ (loadIl_refused h refused)⟩,
    fun allowed normal sound => ⟨fun h => congrArg _ (loadIl_sound h allowed normal sound),
      fun h => congrArg _ (loadIl_sound h allowed normal sound)⟩,
    fun allowed normal p poisoned h => congrArg _ (loadIl_poisoned h allowed normal poisoned),
    fun why sub refused h => exec_st_refused h refused, fun allowed normal h => exec_st_normal h allowed normal,
    fun why sub a refused => ⟨fun ha => ⟨fun h => ?xchgNo, fun h => ?addNo⟩, fun ha h => ?casNo⟩,
    fun a allowed normal sound => ?atomic⟩
  case xchgNo => subst ha; exact congrArg _ (atomicIl_refused h refused)
  case addNo => subst ha; exact congrArg _ (atomicIl_refused h refused)
  case casNo => subst ha; exact congrArg _ (atomicIl_refused h refused)
  case atomic =>
    intro put cd
    refine ⟨fun ha h => ?xchg, fun ha h => ?add, fun ha => ?cas⟩
    case xchg => subst ha; exact congrArg _ (atomicIl_sound h allowed normal sound)
    case add => subst ha; exact congrArg _ (atomicIl_sound h allowed normal sound)
    case cas =>
      intro u k h
      have stored : atomicStored x.core a n (if old a = cd then some (gReg c r % 2 ^ widthBits x.width) else none) s = u := by
        simp only [u]; split <;> rfl
      simp only [k]
      rw [← stored]
      subst ha
      exact congrArg _ (atomicIl_sound h allowed normal sound)

end Sys2Proof.Machine

/-! SUPPORT. The stream-core extensions: pushes of descriptors, budgets, results and waits (R126, R181, R263 to R266). -/

namespace Sys2Proof.Machine

section
variable {x : Ilx} {s : State} {d e r m : Nat}

/-! ### DPUSH -/

theorem exec_dpush_noEngine (h : IlReady x (.dpush x e r) s) (he : e = 0 ∨ 3 < e) :
    exec (.dpush x e r) s = .next (ilRaise x (getCore s x.core) cause.ILLEGAL 0 (einfoBytes x) s) :=
  congrArg _ (runIl_exc h (if_pos (he.imp_left fun zero => zero ▸ Nat.zero_lt_one)))

section
variable (h : IlReady x (.dpush x e r) s) (he : 1 ≤ e ∧ e ≤ 3)
include h he

theorem exec_dpush_misaligned (hr : gReg (getCore s x.core) r % 64 ≠ 0) :
    exec (.dpush x e r) s = .next (ilRaise x (getCore s x.core) cause.ALIGN 0 (gReg (getCore s x.core) r) s) :=
  congrArg _ (runIl_exc h ((if_neg (by omega)).trans (if_pos hr)))

end

/-- The core after a DPUSH, with its answer in C and V. -/
def dpushCore (x : Ilx) (c : Core) (cf vf : Bool) : Core :=
  { c with flags := flagSet (flagSet c.flags fC cf) fV vf, pc := ilNext x c }

/-- The engine with one more descriptor; an engine that was idle begins it at once. -/
def engPushed (desc : List Byte) (s : State) (q : Engine) : Engine :=
  { q with
    queue := q.queue ++ [{ desc := desc, tick := s.tick.count }]
    start := if q.queue = [] then s.tick.count else q.start }

/-- How a DPUSH ends whose descriptor is read (R264). -/
def dpushEnd (x : Ilx) (e r : Nat) (s : State) : IlEnd :=
  let c := getCore s x.core
  let desc := memRead s.mem (sliceKey x.core (gReg c r)) 64
  if 64 ≤ outstanding s x.core e then .done (dpushCore x c true false) s
  else if quiescing s = true ∨ remaining s x.core e < leAt desc 0xC 4 then .done (dpushCore x c true true) s
  else .done (dpushCore x c false false) (putEng x.core e (engPushed desc s (getEng s x.core e)) s)

theorem engPushed_eq (desc : List Byte) (s : State) (q : Engine) :
    (let q' := if q.queue = [] then { q with start := s.tick.count } else q
     { q' with queue := q'.queue ++ [{ desc := desc, tick := s.tick.count }] } : Engine) = engPushed desc s q := by
  by_cases idle : q.queue = []
  · simp only [engPushed, if_pos idle]
  · simp only [engPushed, if_neg idle]

theorem exec_dpush_sound (h : IlReady x (.dpush x e r) s) (he : 1 ≤ e ∧ e ≤ 3) :
    let a := gReg (getCore s x.core) r
    a % 64 = 0 → a < sliceBytes → regionRefuses (getCore s x.core) ⟨true, false, false⟩ a 64 = none → sliceTouch x.core a 64 s = s →
    poisonIn s x.core a 64 = none → ∀ {c' : Core} {t : State}, dpushEnd x e r s = .done c' t →
    exec (.dpush x e r) s = .next (ilDone x (getCore s x.core) c' t) := by
  intro a aligned inSlice allowed untouched sound c' t ends
  refine congrArg _ (runIl_done h ?_)
  rw [← ends]
  refine (if_neg (by omega)).trans ((if_neg (not_not_intro aligned)).trans ((if_neg (Nat.not_le.mpr inSlice)).trans ?_))
  simp only [a] at allowed untouched sound
  simp only [allowed, sound, untouched, dpushEnd, ← engPushed_eq]
  rfl

/-! ### BREAD, RPOP and WAIT -/

theorem exec_bread_noEngine (h : IlReady x (.bread x d e) s) (he : 3 < e) :
    exec (.bread x d e) s = .next (ilRaise x (getCore s x.core) cause.ILLEGAL 0 (einfoBytes x) s) :=
  congrArg _ (runIl_exc h (if_pos he))

theorem exec_bread_engine (h : IlReady x (.bread x d e) s) (he : e ≤ 3) :
    let c := getCore s x.core
    exec (.bread x d e) s =
      .next (ilDone x c { setG c d (remaining s x.core e % (2 ^ 64 : Nat)).toNat with pc := ilNext x c } s) :=
  congrArg _ (runIl_done h ((if_neg (Nat.not_lt.mpr he)).trans (retire_flags_kept ..)))

theorem exec_rpop_odd (h : IlReady x (.rpop x d) s) (odd : d % 2 = 1) :
    exec (.rpop x d) s = .next (ilRaise x (getCore s x.core) cause.ILLEGAL 0 (einfoBytes x) s) :=
  congrArg _ (runIl_exc h (if_pos odd))

theorem exec_rpop_empty (h : IlReady x (.rpop x d) s) (even : d % 2 = 0) (empty : ringOf s x.core = []) :
    let c := getCore s x.core
    exec (.rpop x d) s = .next (ilDone x c { c with flags := flagSet c.flags fZ true, pc := ilNext x c } s) :=
  congrArg _ (runIl_done h ((if_neg (by omega)).trans (by simp only [empty])))

theorem exec_rpop_pops (h : IlReady x (.rpop x d) s) (even : d % 2 = 0) {top l} (hr : ringOf s x.core = top :: l) :
    let c := getCore s x.core
    exec (.rpop x d) s = .next (ilDone x c
      { setG (setG c d (top.dw.getD 0 0 + 2 ^ 32 * top.dw.getD 1 0)) (d + 1) (top.dw.getD 2 0 + 2 ^ 32 * top.dw.getD 3 0) with
        flags := flagSet c.flags fZ false, pc := ilNext x c } (putRing x.core l s)) :=
  congrArg _ (runIl_done h ((if_neg (by omega)).trans (by simp only [hr]; rfl)))

theorem exec_wait_noMask (h : IlReady x (.wait x d m) s) (hm : m = 0 ∨ 8 ≤ m) :
    exec (.wait x d m) s = .next (ilRaise x (getCore s x.core) cause.ILLEGAL 0 (einfoBytes x) s) :=
  congrArg _ (runIl_exc h (if_pos hm))

theorem exec_wait_mask (h : IlReady x (.wait x d m) s) (hm : 1 ≤ m ∧ m < 8) :
    let c := getCore s x.core
    let w := waitConds s x.core false
    exec (.wait x d m) s = .next (ilDone x c
      (if w &&& m = 0 then { c with act := .wait d m (ilNext x c) false } else { setG c d w with pc := ilNext x c }) s) := by
  intro c w
  refine congrArg _ (runIl_done h ((if_neg (by omega)).trans ?_))
  by_cases unmet : w &&& m = 0
  · rw [if_pos unmet]
    exact if_neg (not_not_intro unmet)
  · rw [if_neg unmet]
    exact (if_pos unmet).trans (retire_flags_kept ..)

end

/-- Settles O16: the engine, the address, the budget, the ring and the mask select the end of each instruction. -/
theorem ileshStreamExtensions : Obligations.IleshStreamExtensions := by
  intro x s d e r m c does a next illegal desc flags
  refine ⟨fun he h => exec_dpush_noEngine h he, fun low high odd h => exec_dpush_misaligned h ⟨low, high⟩ odd,
    fun low high aligned inSlice allowed untouched sound => ?dpush,
    fun he h => exec_bread_noEngine h he, fun he h => exec_bread_engine h he,
    fun odd h => exec_rpop_odd h odd, fun even empty h => exec_rpop_empty h even empty, fun top l even hr h => exec_rpop_pops h even hr,
    fun hm h => exec_wait_noMask h hm, fun low high h => exec_wait_mask h ⟨low, high⟩⟩
  have ends (h : IlReady x (.dpush x e r) s) {c' : Core} {t : State} (done : dpushEnd x e r s = .done c' t) :=
    exec_dpush_sound h ⟨low, high⟩ aligned inSlice allowed untouched sound done
  exact ⟨fun full h => ends h (if_pos full), fun room late h => ends h ((if_neg (Nat.not_le.mpr room)).trans (if_pos late)),
    fun room runs enough h => ends h ((if_neg (Nat.not_le.mpr room)).trans
      (if_neg (not_or.mpr ⟨Bool.eq_false_iff.mp runs, enough⟩)))⟩

end Sys2Proof.Machine

/-! SUPPORT. Core stops, the slices of the self-test, on-demand runs, memory self-test and the end of the power-on test (R262, R519,
R523 to R526, R530 to R539). -/

namespace Sys2Proof.Machine

section
variable {t : Nat} {s : State}

theorem exec_coreStopResponse_stopped {core n : Nat} (hc : core < 37) (fresh : s.intg.answered.contains core = false)
    (stopped : (getCore s core).act = .stopped n) : exec (.coreStopResponse t core) s =
      .next (coreStop core n (setIntg (atTime t s) fun x => { x with answered := addSorted core x.answered })) := by
  have acts : ¬ (37 ≤ core ∨ s.intg.answered.contains core = true) := not_or.mpr ⟨Nat.not_le.mpr hc, Bool.eq_false_iff.mp fresh⟩
  refine congrArg _ ((if_neg acts).trans ?_)
  rw [stopped]

/-! ### Slices -/

/-- The running item of an engine is stopped with BUDGET; `cy` gives the cycles it ran and its units left (R524). -/
def stopItem (u : Nat) (cy : List (Nat × Cycles × Nat)) (s : State) (e : Nat) : State :=
  match headDesc s u e with
  | some d =>
    let c := ((cy.find? fun c => c.1 == e).map (·.2)).getD (⟨0, 0, 0⟩, 0)
    budgetStop u e c.1 c.2 d s
  | none => s

theorem stopItem_eq (u : Nat) (cy : List (Nat × Cycles × Nat)) : stopItem u cy = fun s e =>
    match headDesc s u e, (cy.find? fun c => c.1 == e) with
    | some d, some c => budgetStop u e c.2.1 c.2.2 d s
    | some d, none => budgetStop u e ⟨0, 0, 0⟩ 0 d s
    | none, _ => s := by
  funext s e
  rw [stopItem]
  cases headDesc s u e <;> cases cy.find? (fun c => c.1 == e) <;> rfl

section
variable {ok ver : Bool} {w : WaitSlice} {l : List WaitSlice} (first : s.intg.wait = w :: l)
include first

theorem exec_lstSlice_idle (idle : w.run = []) (now : w.late = false) :
    exec (.lstSlice t ok ver) s = .next (runSlice w ok ver (atTime t s)) := by
  simp only [exec_lstSlice, execLstSlice, atTime_intg, first, idle, now]
  simp

theorem exec_lstDefer_busy (busy : w.run ≠ []) (now : w.late = false) (due : s.tick.edgeAt + 50000 ≤ t) : exec (.lstDefer t) s =
    .next (intgCount 3 (setIntg (atTime t s) fun x => { x with wait := { w with late := true } :: l })) := by
  simp only [exec_lstDefer, execLstDefer, atTime_intg, atTime_tick, first, busy, now, Nat.not_lt.mpr due]
  simp

theorem exec_lstForce_due {cy : List (Nat × Cycles × Nat)} (busy : w.run ≠ []) (due : w.due + 9 ≤ s.tick.count) :
    exec (.lstForce t ok ver cy) s =
      .next (runSlice w ok ver (intgPen 7 (intgCount 4 (w.run.foldl (stopItem (sliceUnit w.idx) cy) (atTime t s))))) := by
  have forces : ¬ (w.run = [] ∨ s.tick.count < w.due + 9) := not_or.mpr ⟨busy, Nat.not_lt.mpr due⟩
  simp only [exec_lstForce, execLstForce, atTime_intg, atTime_tick, first]
  rw [stopItem_eq]
  exact congrArg _ (if_neg forces)

end

/-! ### On-demand runs -/

section
variable {q : IntgReq} {d : Nat → Nat}

theorem exec_lstRun_ends {r : LstRun} (inProgress : runOf (atTime t s) q = some r)
    (due : r.began + 2064000000 / Config.tileMhz ≤ t) : exec (.lstRun q t none) s = .next (endRun r none (atTime t s)) := by
  simp only [exec_lstRun, execLstRun, inProgress]
  exact congrArg _ (if_neg (Nat.not_lt.mpr due))

theorem tileField_tile (hd : d 4 % 256 < 32) : tileField d = none := if_pos hd

/-- A run on a FENCED tile begins, when none ran in the last second and fewer than 2 run (R530). -/
theorem exec_lstRun_begins {u : Nat} (idle : runOf (atTime t s) (.own u 0 0) = none) (hu : u < 32) (fenced : blkState s (pTILE u) = 3)
    (never : mget s.intg.lastRun u = none) (few : s.intg.runs.length < 2) : exec (.lstRun (.own u 0 0) t none) s =
      .next (setIntg (atTime t s) fun x => { x with
        runs := x.runs ++ [{ tile := u, began := t, seq := none }], lastRun := mput x.lastRun u t }) := by
  have field : tileField (fun i => [u, 0, 0].getD (i - 4) 0) = none := tileField_tile (Nat.lt_of_le_of_lt (Nat.mod_le u 256) hu)
  have tile : ([u, 0, 0].getD (4 - 4) 0) % 256 = u := Nat.mod_eq_of_lt (Nat.lt_trans hu (by decide))
  have blk : blkState (atTime t s) (pTILE u) = 3 := fenced
  simp only [exec_lstRun, execLstRun, idle, intgRun, field, tile, blk, atTime_intg, never, Option.filter_none,
    Nat.not_le.mpr few, Option.map_none]
  simp

theorem exec_lstRun_notFenced (idle : runOf (atTime t s) q = none) (ready : IntgReady q 0x80 d (atTime t s)) (hd : d 4 % 256 < 32)
    (notFenced : blkState s (pTILE (d 4 % 256)) ≠ 3) :
    exec (.lstRun q t none) s = .next (intgDone q 0x80 0xF0 0 (atTime t s) (atTime t s)) := by
  simp only [exec_lstRun, execLstRun, idle]
  exact congrArg _ (intgRun_done ready (tileField_tile hd) fun _ => if_pos notFenced)

/-! ### Memory self-test -/

section
variable {mf : List MbistFail} (ready : IntgReady q 0x81 d (atTime t s)) (hd : d 4 % 256 < 32)
include ready hd

theorem exec_mbistRun_disabled (off : blkState s (pSRAMT (d 4 % 256)) = 0) :
    let tile := d 4 % 256
    let found := mbistAll (mf.filter fun f => f.unit == tile) (clearSlice tile (atTime t s))
    exec (.mbistRun q t mf) s = .next (intgDone q 0x81 st.OK (failRows (mf.filter fun f => f.unit == tile)) (atTime t s)
      (if found.2 then intgEvent (faultTile tile 4 found.1) else found.1)) :=
  congrArg _ (intgRun_done ready (tileField_tile hd) fun _ => if_neg (not_not_intro off))

theorem exec_mbistRun_enabled (on : blkState s (pSRAMT (d 4 % 256)) ≠ 0) :
    exec (.mbistRun q t mf) s = .next (intgDone q 0x81 0xF3 0 (atTime t s) (atTime t s)) :=
  congrArg _ (intgRun_done ready (tileField_tile hd) fun _ => if_pos on)

end

end

/-! ### The end of the power-on test -/

/-- The self-test reports DONE without a failing tile, and the LPDDR5X channels are up (R538, R539). -/
def postUp (s : State) : State :=
  forN 16 (setRegN s pINTG R.INTG.POST_STAT (2 ^ 31)) fun m s =>
    setRegN (setBlkState s (pMEMC m) 1) (pMEMC m) R.MEMC.STAT (10667 * 2 ^ 16 + 0xF0 + 1)

theorem postUp_mgmt (s : State) : (postUp s).mgmt = s.mgmt :=
  ReportStable.forN (P := fun w => w.mgmt = s.mgmt) (fun _ _ _ hw => hw) rfl

/-- The end of a power-on test that found no failing memory location: the shared units, the packages, then the tiles (R539). -/
def postEnd (tiles : List Nat) (other : Option Nat) (packages : List Nat) (s : State) : State :=
  let failed := (List.range 32).filter tiles.contains
  match other, (List.range 16).find? packages.contains with
  | some u, _ => holdPost pINTG u s
  | none, some m => holdPost (pMEMC m) m s
  | none, none =>
    if 4 < failed.length then holdPost pINTG (failed.headD 0) s
    else
      let w := forN 16 (setRegN (failed.foldl (fun s i => faultTile i 1 s) s) pINTG R.INTG.POST_STAT (2 ^ 31 + failed.length))
        fun m s => setRegN (setBlkState s (pMEMC m) 1) (pMEMC m) R.MEMC.STAT (10667 * 2 ^ 16 + 0xF0 + 1)
      watchStat (setMgmt (startParts (match w.mgmt.fw with | some x => x.parts | none => []) w) fun m => { m with posted := true })

section
variable {tiles packages : List Nat} (runs : s.power.phase = .running) (new : s.mgmt.posted = false) (free : s.mgmt.hold = false)
include runs new free

theorem exec_postDone_noLocation {other : Option Nat} :
    exec (.postDone t tiles other packages []) s = .next (postEnd tiles other packages (atTime t s)) := by
  have ends : ¬ (s.power.phase ≠ .running ∨ s.mgmt.posted = true ∨ s.mgmt.hold = true) := by simp [runs, new, free]
  refine congrArg _ ((if_neg ends).trans ?_)
  simp only [List.foldl_nil, List.find?_nil, List.contains_nil, Bool.or_false]
  cases other <;> rfl

theorem exec_postDone_pass : exec (.postDone t [] none [] []) s =
    .next (watchStat (setMgmt (startParts (match s.mgmt.fw with | some x => x.parts | none => []) (postUp (atTime t s)))
      fun m => { m with posted := true })) := by
  have kept : (postUp (atTime t s)).mgmt.fw = s.mgmt.fw := by rw [postUp_mgmt]; rfl
  rw [exec_postDone_noLocation runs new free, ← kept]
  rfl

theorem exec_postDone_unit {u : Nat} : exec (.postDone t tiles (some u) [] []) s = .next (holdPost pINTG u (atTime t s)) :=
  exec_postDone_noLocation runs new free

theorem exec_postDone_package {m : Nat} (failing : (List.range 16).find? packages.contains = some m) :
    exec (.postDone t [] none packages []) s = .next (holdPost (pMEMC m) m (atTime t s)) := by
  rw [exec_postDone_noLocation runs new free]
  simp only [postEnd, failing]

theorem exec_postDone_tiles (many : 4 < ((List.range 32).filter tiles.contains).length) : exec (.postDone t tiles none [] []) s =
    .next (holdPost pINTG (((List.range 32).filter tiles.contains).headD 0) (atTime t s)) := by
  rw [exec_postDone_noLocation runs new free]
  exact congrArg _ (if_pos many)

end

end

/-- Settles O31: each clause is the branch of its command that the unit, the time and the failures select. -/
theorem selfTestSlicesAndCoreStops : Obligations.SelfTestSlicesAndCoreStops := by
  intro t core n u ok ver w l r q d tiles packages mf cy s v tile stopped found up
  exact ⟨exec_coreStopResponse_stopped, exec_lstSlice_idle, exec_lstDefer_busy,
    fun first busy due => exec_lstForce_due first busy due, exec_lstRun_ends,
    exec_lstRun_begins, exec_lstRun_notFenced, exec_mbistRun_disabled, exec_mbistRun_enabled,
    fun runs new free => ⟨exec_postDone_pass runs new free, exec_postDone_unit runs new free,
      fun m => exec_postDone_package runs new free, exec_postDone_tiles runs new free⟩⟩

end Sys2Proof.Machine

/-! SUPPORT. Flits of a feed link that is up, their replay, and the lanes it drops (R277 to R280, R283, R285). -/

namespace Sys2Proof.Machine

/-! ### What counts, reports and flits sent leave of a link -/

/-- Reports leave rings, links and the exchange. -/
theorem reportStable_feed (f : Feed) : ReportStable fun w => w.feed = f := ⟨fun _ h => h, fun h => h⟩

section
variable {l i n : Nat} {s : State}

/-- LINK.STAT stands before the counters of its page. -/
theorem fld_linkCount_stat (lo k : Nat) :
    fld (linkCount l i n s) (pLINK l) R.LINK.STAT lo k = fld s (pLINK l) R.LINK.STAT lo k := by
  have apart : pageAt (pLINK l) R.LINK.STAT ≠ pageAt (pLINK l) (R.LINK.COUNT + 4 * i) := by
    simp only [pageAt, R.LINK.STAT, R.LINK.COUNT]; omega
  exact congrArg (bitsOf ·.toNat lo k) (getReg_setReg_of_ne _ apart)

@[simp] theorem lstate_linkCount : lstate (linkCount l i n s) l = lstate s l := fld_linkCount_stat 0 3

@[simp] theorem linkUp_linkCount : linkUp (linkCount l i n s) l = linkUp s l := by simp only [linkUp, lstate_linkCount]

theorem lanesUp_noteDrop : lanesUp (noteDrop l s) l = lanesUp s l :=
  (fld_penBit (by decide) 8 2).trans (fld_linkCount_stat 8 2)

theorem getLink_noteDrop : getLink (noteDrop l s) l = getLink s l := by
  have kept : (noteDrop l s).feed = s.feed := (reportStable_feed s.feed).penBit (s := linkCount l 3 1 s) rfl
  rw [getLink, getLink, kept]

@[simp] theorem lanesUp_atTime {t : Nat} : lanesUp (atTime t s) l = lanesUp s l := rfl

@[simp] theorem linkUp_putLink {x : Link} {k : Nat} : linkUp (putLink l x s) k = linkUp s k := rfl

@[simp] theorem lanesUp_putLink {x : Link} {k : Nat} : lanesUp (putLink l x s) k = lanesUp s k := rfl

/-- A flit on a lane is counted and appended to the output. -/
theorem lanesUp_flitOn (lane ftype seq first : Nat) (payload : List Byte) :
    lanesUp (flitOn l lane ftype seq first payload s) l = lanesUp s l := by
  have stable := reportStable_getReg (pLINK l) (o := R.LINK.STAT) (by decide) (getReg s (pLINK l) R.LINK.STAT)
  exact congrArg (bitsOf ·.toNat 8 2) (stable.perfEvent (stable.out rfl))

theorem lanesUp_sendFlit (ftype seq first : Nat) (payload : List Byte) :
    lanesUp (sendFlit l ftype seq first payload s) l = lanesUp s l := by
  simp only [sendFlit, lanesUp_putLink, lanesUp_flitOn]

end

/-! ### Flits received -/

/-- The CRC over the flit's first 252 bytes is the one it carries (R277). -/
def flitCrcOk (bytes : List Byte) : Bool := bytes.length == 256 && crc32c (bytes.take 252) == leAt bytes 252 4

/-- The CRC fails, or a fixed field of the flit holds an error (R277, R278). -/
def flitBad (bytes : List Byte) : Bool :=
  let fh := leAt bytes 0 4
  !flitCrcOk bytes || fh / 2 ^ 30 == 3 || fh % 16 != 0 || leAt bytes 0xF8 4 / 16 != 0 ||
    (fh / 2 ^ 30 != 1 && bitsOf fh 18 12 != 0)

theorem flitBad_eq_false {bytes : List Byte} (crc : flitCrcOk bytes = true) (type : leAt bytes 0 4 / 2 ^ 30 < 3)
    (low : leAt bytes 0 4 % 16 = 0) (first : leAt bytes 0xF8 4 / 16 = 0)
    (seq : leAt bytes 0 4 / 2 ^ 30 ≠ 1 → bitsOf (leAt bytes 0 4) 18 12 = 0) : flitBad bytes = false := by
  have unnumbered : (leAt bytes 0 4 / 2 ^ 30 != 1 && bitsOf (leAt bytes 0 4) 18 12 != 0) = false := by simpa using seq
  simp only [flitBad, crc, beq_false_of_ne (Nat.ne_of_lt type), low, first, unnumbered, bne_self_eq_false, Bool.not_true,
    Bool.or_self]

/-- The flit's codewords are counted on its lane, none of them corrected or lost (R280). -/
def flitCounted (l lane : Nat) (s : State) : State := linkCount l (6 + lane % 2) 0 (linkCount l (4 + lane % 2) 0 s)

/-- What a good flit acknowledges is taken, then its credit counts (R278, R285). -/
def flitCredited (t l : Nat) (bytes : List Byte) (s : State) : State :=
  let good := putLink l { getLink s l with lastGood := t } s
  takeCredits l ((List.range 4).map fun v => leAt bytes (4 + v) 1)
    (if bitOf (leAt bytes 0 4) 4 then takeAck l (bitsOf (leAt bytes 0 4) 6 12) good else good)

/-- The data of a DATA flit are taken in sequence (R278). -/
def flitData (l : Nat) (bytes : List Byte) (s : State) : State :=
  if leAt bytes 0 4 / 2 ^ 30 = 1 then rxData l (bitsOf (leAt bytes 0 4) 18 12) ((bytes.drop 8).take 240) s else s

/-- A link that is up runs no test, and its counters do not take it down (R274). -/
theorem flitCounted_inTraffic {t l lane : Nat} {s : State} (up : linkUp s l = true) :
    lstate (flitCounted l lane (atTime t s)) l ≠ 7 ∧ linkUp (flitCounted l lane (atTime t s)) l = true := by
  have running : lstate s l = 4 ∨ lstate s l = 5 := by simpa [linkUp] using up
  simp only [flitCounted, lstate_linkCount, linkUp_linkCount, lstate_atTime, linkUp_atTime, up, and_true]
  omega

section
variable {t l lane : Nat} {bytes : List Byte} {s : State} (hl : l < 48) (up : linkUp s l = true)
include hl up

/-- A link that is up is heard at any time. -/
theorem link_heard : ¬ (48 ≤ l ∨ ¬ linkUp (atTime t s) l = true) := by simp [hl, up]

/-- A flit whose CRC fails is counted, and a DATA flit among them asks for a replay (R279). -/
theorem exec_flitReceive_badCrc (crc : flitCrcOk bytes = false) : exec (.flitReceive t l lane 0 0 0 bytes) s = .next
    (let w := linkCount l 0 1 (flitCounted l lane (atTime t s))
     if leAt bytes 0 4 / 2 ^ 30 = 1 then sendNull l (putLink l { getLink w l with nak := true } w) else w) := by
  obtain ⟨traffic, running⟩ := flitCounted_inTraffic (t := t) (lane := lane) up
  have bad : flitBad bytes = true := by simp only [flitBad, crc, Bool.not_false, Bool.true_or]
  have unmarked : ¬ (bytes.length == 256 && crc32c (bytes.take 252) == leAt bytes 252 4) = true := Bool.eq_false_iff.mp crc
  refine congrArg _ ((if_neg (Nat.not_le.mpr hl)).trans ((if_neg traffic).trans ((if_neg (not_not_intro (.inr running))).trans
    ((if_pos bad).trans ?_))))
  simp only [if_neg unmarked, linkUp_linkCount, linkUp_atTime, up, and_true]
  rfl

/-- A good flit without a NAK: what it acknowledges, its credits, its data in sequence, and what then may be sent. -/
theorem exec_flitReceive_good (crc : flitCrcOk bytes = true) (good : flitBad bytes = false)
    (noNak : bitOf (leAt bytes 0 4) 5 = false) : exec (.flitReceive t l lane 0 0 0 bytes) s =
      .next (pump l (flitData l bytes (flitCredited t l bytes (flitCounted l lane (atTime t s))))) := by
  obtain ⟨traffic, running⟩ := flitCounted_inTraffic (t := t) (lane := lane) up
  have marked : (bytes.length == 256 && crc32c (bytes.take 252) == leAt bytes 252 4) = true := crc
  have quiet {p : Prop} : ¬ (bitOf (leAt bytes 0 4) 5 = true ∧ p) := fun h => Bool.false_ne_true (noNak.symm.trans h.1)
  refine congrArg _ ((if_neg (Nat.not_le.mpr hl)).trans ((if_neg traffic).trans ((if_neg (not_not_intro (.inr running))).trans
    ((if_neg (Bool.eq_false_iff.mp good)).trans ?_))))
  rw [if_pos marked]
  exact (if_neg (not_not_intro (linkUp_putLink.trans running))).trans
    (congrArg (fun w => pump l (flitData l bytes w)) (if_neg quiet))

/-! ### Replays and the end of the session -/

theorem exec_replayTimeout_due (open_ : (getLink s l).unacked ≠ []) (due : (getLink s l).lastAdv + 2000 ≤ t) :
    exec (.replayTimeout t l) s = .next (replay l (atTime t s)) :=
  congrArg _ (if_pos ⟨hl, up, open_, due⟩)

theorem exec_linkDown_due
    (due : 4 ≤ (getLink s l).replays ∨ (getLink s l).lastGood + 100000 ≤ t ∨ lanesUp s l = 0) :
    exec (.linkDown t l) s = .next (downLink l true (atTime t s)) :=
  congrArg _ (if_pos ⟨hl, up, due⟩)

/-! ### Lanes -/

theorem exec_laneDropResend_dropping (dropping : (getLink s l).dropping = some lane) :
    exec (.laneDropResend t l) s = .next (sendDrop l lane (atTime t s)) := by
  simp only [exec_laneDropResend, execLaneDropResend, getLink_atTime, linkUp_atTime, dropping, hl, up, and_self, if_true]

theorem exec_laneDropAck_dropping (dropping : (getLink s l).dropping = some lane) :
    exec (.laneDropAck t l) s = .next (removeLane l lane (atTime t s)) := by
  simp only [exec_laneDropAck, execLaneDropAck, if_neg (link_heard hl up), getLink_atTime, dropping]

section
variable (two : lane < 2) (laneUp : bitOf (lanesUp s l) lane = true)
include two laneUp

/-- The lane is dropped with the peer's consent where another carries on and is not itself being dropped (R283). -/
theorem exec_laneFault_up : exec (.laneFault t l lane) s = .next
    (let w := noteDrop l (atTime t s)
     if withBits (lanesUp s l) lane 1 0 = 0 ∨ (getLink s l).dropping = some (1 - lane) then
       removeLane l lane (setLanesUp l (2 ^ lane) w)
     else sendDrop l lane (putLink l { getLink w l with dropping := some lane } w)) := by
  have faults : ¬ (48 ≤ l ∨ ¬ linkUp (atTime t s) l = true ∨ ¬ bitOf (lanesUp (atTime t s) l) (lane % 2) = true ∨ 2 ≤ lane) := by
    simp [Nat.mod_eq_of_lt two, up, laneUp, hl, two]
  refine congrArg _ ((if_neg faults).trans ?_)
  simp only [lanesUp_noteDrop, getLink_noteDrop, lanesUp_atTime, getLink_atTime]

theorem exec_laneDrop_up : exec (.laneDrop t l lane) s =
    .next (removeLane l lane (noteDrop l (sendCtrl l (leBytes 1 4) (atTime t s)))) := by
  have heard : ¬ (48 ≤ l ∨ ¬ linkUp (atTime t s) l = true ∨ 2 ≤ lane) := by simp [up, hl, two]
  have drops : bitOf (lanesUp (sendCtrl l (leBytes 1 4) (atTime t s)) l) lane = true := by
    rw [sendCtrl, lanesUp_sendFlit, lanesUp_atTime, laneUp]
  exact congrArg _ ((if_neg heard).trans (if_pos drops))

end

end

/-- Settles O34: each clause is the branch of its command that the flit's checks, the link's limits and its lanes select. -/
theorem linkTraffic : Obligations.LinkTraffic := by
  intro t l lane bytes s hl up u x fh crcOk clean counted good acked credited one
  refine ⟨fun ⟨crc, type, low, first, seq⟩ => exec_flitReceive_good hl up crc (flitBad_eq_false crc type low first seq),
    exec_flitReceive_badCrc hl up, exec_replayTimeout_due hl up, exec_linkDown_due hl up,
    fun two laneUp other free => ?another, fun two laneUp last => ?last,
    fun dropping => ⟨exec_laneDropResend_dropping hl up dropping, exec_laneDropAck_dropping hl up dropping⟩,
    exec_laneDrop_up hl up⟩
  case another => exact (exec_laneFault_up hl up two laneUp).trans (congrArg _ (if_neg (not_or.mpr ⟨other, free⟩)))
  case last => exact (exec_laneFault_up hl up two laneUp).trans (congrArg _ (if_pos (.inl last)))

end Sys2Proof.Machine

/-! SUPPORT. Accesses through inbound windows, and the responses and timeouts of capture READs (R284, R287, R288, R305 to R307,
R448). -/

namespace Sys2Proof.Machine

/-! ### WRITEs and READs of an accelerator -/

/-- A READ_RESP with a status, and so without data (R288). -/
def statusResp (tag status : Nat) : Pkt := {
  vc := 2, h := [3 + status * 256 + tag % 4096 * 2 ^ 16, 0, 0, 0], data := [], ref := .plain }

/-- A chunk of a READ meets poison: in device memory, or in the read of host memory (R306). -/
def readPoisoned (hits : List (Nat × WinHit)) (host : Option (List Byte)) (s : State) : Bool :=
  hits.any fun e => match e.2 with
    | .dram off => dramPoison s off 16
    | _ => host.isNone

/-- The chunks of a READ meet the words of device memory that fail their code (R544). -/
def readTouched (hits : List (Nat × WinHit)) (s : State) : State :=
  hits.foldl (fun s e => match e.2 with | .dram off => dramTouch off 16 s | _ => s) s

/-- The bytes of a READ, chunk for chunk. -/
def readBytes (hits : List (Nat × WinHit)) (host : List Byte) (s : State) : List Byte :=
  hits.flatMap fun e => match e.2 with
    | .dram off => memRead s.mem (dramKey off) 16
    | _ => (host.drop e.1).take 16 ++ List.replicate (16 - ((host.drop e.1).take 16).length) 0

/-- A link that is up serves the accesses of its accelerator while the feed is not FENCED (R89). -/
theorem link_served {l : Nat} {s : State} (hl : l < 48) (up : linkUp s l = true) (serves : blkFenced s pFEED = false) :
    ¬ (48 ≤ l ∨ ¬ linkUp s l = true ∨ blkFenced s pFEED = true) := by simp [hl, up, serves]

section
variable {l port tag addr len code : Nat} {data : List Byte} {host : Option (List Byte)} {s : State} (hl : l < 48)
  (up : linkUp s l = true) (hp : linkPort s l = some port) (serves : blkFenced s pFEED = false)
include hl up hp serves

theorem exec_linkWrite_served : exec (.linkWrite l addr data) s = .next
    (if badLen addr data.length = true then linkCount l 13 1 s
     else
       let hits := winChunks s port true addr data.length
       match winRefusal hits with
       | some code => sendPkt l
           (msgPkt 2 port code (leBytes 8 addr ++ leBytes 2 data.length ++ leBytes 6 0) (.again port)) (winRefused port s)
       | none => hits.foldl (fun s e => placeChunk e.2 ((data.drop e.1).take 16) s) s) := by
  rw [exec_linkWrite, execLinkWrite, hp]
  exact congrArg _ (if_neg (link_served hl up serves))

theorem exec_linkWrite_refused (sound : badLen addr data.length = false)
    (refused : winRefusal (winChunks s port true addr data.length) = some code) : exec (.linkWrite l addr data) s = .next (sendPkt l
      (msgPkt 2 port code (leBytes 8 addr ++ leBytes 2 data.length ++ leBytes 6 0) (.again port)) (winRefused port s)) := by
  simp only [exec_linkWrite_served hl up hp serves, sound, Bool.false_eq_true, if_false, refused]

theorem exec_linkWrite_placed (sound : badLen addr data.length = false)
    (allowed : winRefusal (winChunks s port true addr data.length) = none) : exec (.linkWrite l addr data) s = .next
      ((winChunks s port true addr data.length).foldl (fun s e => placeChunk e.2 ((data.drop e.1).take 16) s) s) := by
  simp only [exec_linkWrite_served hl up hp serves, sound, Bool.false_eq_true, if_false, allowed]

theorem exec_linkRead_served : exec (.linkRead l tag addr len host) s = .next
    (if badLen addr len = true then linkCount l 13 1 s
     else
       let hits := winChunks s port false addr len
       match winRefusal hits with
       | some _ => sendPkt l (statusResp tag 1) (winRefused port s)
       | none =>
         let met := readTouched hits s
         if readPoisoned hits host s then sendPkt l (statusResp tag 2) met
         else sendResps l (tag % 4096) 32 addr 0 (readBytes hits (host.getD []) met) met) := by
  rw [exec_linkRead, execLinkRead, hp]
  exact congrArg _ (if_neg (link_served hl up serves))

theorem exec_linkRead_refused (sound : badLen addr len = false)
    (refused : winRefusal (winChunks s port false addr len) = some code) :
    exec (.linkRead l tag addr len host) s = .next (sendPkt l (statusResp tag 1) (winRefused port s)) := by
  simp only [exec_linkRead_served hl up hp serves, sound, Bool.false_eq_true, if_false, refused]

theorem exec_linkRead_answered (sound : badLen addr len = false) (allowed : winRefusal (winChunks s port false addr len) = none) :
    let hits := winChunks s port false addr len
    let met := readTouched hits s
    exec (.linkRead l tag addr len host) s = .next (if readPoisoned hits host s then sendPkt l (statusResp tag 2) met
      else sendResps l (tag % 4096) 32 addr 0 (readBytes hits (host.getD []) met) met) := by
  simp only [exec_linkRead_served hl up hp serves, sound, Bool.false_eq_true, if_false, allowed]

end

/-! ### Capture READs -/

/-- The READ of a tag is no longer outstanding. -/
def withoutRead (tag : Nat) (x : Link) : Link := { x with reads := x.reads.filter fun q => q.tag != tag }

/-- A response is taken, then ended READs are, and new ones are issued as tags and rate allow (R307, R448). -/
theorem exec_readResp_of {t l tag status off : Nat} {data : List Byte} {s w : State}
    (h : readResp t l tag status off data s = w) :
    exec (.readResp t l tag status off data) s = .next (pumpCapture (drainCap w)) := by
  rw [exec_readResp, execReadResp, h]

theorem exec_captureReadTimeout_of {t l tag : Nat} {s w : State} (h : captureReadTimeout t l tag s = w) :
    exec (.captureReadTimeout t l tag) s = .next (pumpCapture (drainCap w)) := by
  rw [exec_captureReadTimeout, execCaptureReadTimeout, h]

section
variable {t l tag off code : Nat} {data : List Byte} {r : CapRead} {s u : State} (hl : l < 48)
  (hu : u = expireTags l (atTime t s))
include hl hu

section
variable (up : linkUp s l = true)
include up

section
variable (known : (getLink u l).reads.find? (fun r => r.tag == tag) = some r)
include known

theorem readResp_complete (within : off + data.length ≤ r.len) (last : r.len ≤ r.got + data.length) :
    readResp t l tag 0 off data s = setFeed (putLink l (withoutRead tag (getLink u l)) (putDram (r.dst + off) data u))
      fun f => { f with capDone := f.capDone ++ [(r.session, r.region, r.addr, r.len, true)] } := by
  rw [readResp, if_neg (link_heard hl up), ← hu]
  dsimp only
  rw [known]
  exact (if_neg (not_not_intro rfl)).trans ((if_neg (Nat.not_lt.mpr within)).trans (if_pos last))

theorem readResp_failed (status : code ≠ 0) :
    readResp t l tag code off data s = readFailed r (putLink l (withoutRead tag (getLink u l)) u) := by
  rw [readResp, if_neg (link_heard hl up), ← hu]
  dsimp only
  rw [known]
  exact if_pos status

end

theorem readResp_late (unknown : (getLink u l).reads.find? (fun r => r.tag == tag) = none)
    (quarantined : ((getLink u l).quar.map (·.1)).contains tag = true) : readResp t l tag code off data s =
      expireTags l (penBit (pLINK l) 6 (linkCount l 9 1
        (putLink l { getLink u l with quar := (getLink u l).quar.filter fun e => e.1 != tag } u))) := by
  rw [readResp, if_neg (link_heard hl up), ← hu]
  dsimp only
  rw [unknown]
  exact if_pos quarantined

end

end

theorem captureReadTimeout_due {t l port tag : Nat} {r : CapRead} {s : State} (hl : l < 48) (hp : linkPort s l = some port)
    (known : (getLink s l).reads.find? (fun r => r.tag == tag) = some r) (due : r.sentAt + rdTimeout s ≤ t) :
    captureReadTimeout t l tag s = expireTags l (readTimedOut l (some port) r
      (putLink l { withoutRead tag (getLink s l) with quar := (getLink s l).quar ++ [(tag, t + rdTimeout s)] } (atTime t s))) := by
  simp only [captureReadTimeout, if_neg (Nat.not_le.mpr hl), getLink_atTime, known]
  refine (if_neg (Nat.not_lt.mpr due)).trans ?_
  rw [← hp]
  rfl

/-- Settles O35: each clause is the branch of its command that the packet's length, its windows and the link's tags select. -/
theorem windowAccessesAndCaptureReads : Obligations.WindowAccessesAndCaptureReads := by
  intro t l port tag addr off code len data host r s hl up hp hits rhits stat poisoned serves met read u x after
  exact ⟨fun h bad => (exec_linkWrite_served hl up hp h).trans (congrArg _ (if_pos bad)), exec_linkWrite_refused hl up hp,
    exec_linkWrite_placed hl up hp, fun h bad => (exec_linkRead_served hl up hp h).trans (congrArg _ (if_pos bad)),
    exec_linkRead_refused hl up hp, exec_linkRead_answered hl up hp,
    fun known within last => exec_readResp_of (readResp_complete hl rfl up known within last),
    fun known failed => exec_readResp_of (readResp_failed hl rfl up known failed),
    fun unknown quarantined => exec_readResp_of (readResp_late hl rfl up unknown quarantined),
    fun known due => exec_captureReadTimeout_of (captureReadTimeout_due hl hp known due)⟩

end Sys2Proof.Machine

/-! SUPPORT. Commands of queue pairs, the end of QUIESCING, and packs sent to the exchange group (R304, R322, R336 to R341,
R363). -/

namespace Sys2Proof.Machine

/-! ### Commands -/

/-- A QP within the function's range passes the check of its index (R339). -/
theorem qpOut_inRange {c : SvcCmd} {s : State} (inRange : qpInRange s c.func c.obj = true) : qpOut c s = none := if_pos inRange

theorem qpCreateOffence_outOfRange {c : SvcCmd} {s : State} (beyond : qpInRange s c.func c.obj = false) :
    qpCreateOffence c s = some 4 := by
  have out : qpOut c s = some 4 := if_neg (Bool.eq_false_iff.mp beyond)
  simp only [qpCreateOffence, out]

section
variable {k : CmdRef} {c : SvcCmd} {x : Qp} {s : State}

theorem exec_qpCreate_absent (h : SvcReady k 0x90 c s) (free : objFenced c s = false) (sound : qpCreateOffence c s = none)
    (absent : getQp s c.obj = none) : exec (.qpCreate k) s = .next (complete c st.OK 0 (putQp c.obj (newQp c) s)) :=
  congrArg _ (runSvc_completes h sound free (by simp [absent]))

theorem exec_qpCreate_outOfRange (h : SvcReady k 0x90 c s) (beyond : qpInRange s c.func c.obj = false) :
    exec (.qpCreate k) s = .next (complete c st.INVALID_FIELD 4 s) := by
  rw [exec_qpCreate, execQpCreate, runSvc_ready _ _ _ h, qpCreateOffence_outOfRange beyond]

/-- A QP_MODIFY that names a subscriber in range passes the check of its subscriber (R363). -/
theorem not_subscr_beyond (sub : bitOf (c.d 4) 13 = true → subscrInRange s c.func (bitsOf (c.d 4) 0 10) = true) :
    ¬ (bitOf (c.d 4) 13 = true ∧ ¬ subscrInRange s c.func (bitsOf (c.d 4) 0 10) = true) :=
  fun beyond => beyond.2 (sub beyond.1)

section
variable (free : objFenced c s = false) (inRange : qpInRange s c.func c.obj = true) (hx : getQp s c.obj = some x)
include free inRange hx

theorem exec_qpConnect_defined (h : SvcReady k 0x91 c s) (defined : x.state = 1) (alone : begunOn s 0x91 c.obj = none) :
    exec (.qpConnect k) s = .next (match portOffence s c.obj x (bitsOf (c.d 4) 0 16) with
      | some e => complete c e 0 s
      | none => markBegun c s) := by
  have connects : ¬ (x.state ≠ 1 ∨ (begunOn s 0x91 c.obj).isSome = true) := by simp [defined, alone]
  cases ports : portOffence s c.obj x (bitsOf (c.d 4) 0 16) with
  | none => exact congrArg _ (runSvc_waits h (qpOut_inRange inRange) free (by simp only [hx, if_neg connects, ports]))
  | some e => exact congrArg _ (runSvc_completes h (qpOut_inRange inRange) free (by simp only [hx, if_neg connects, ports]))

section
variable (h : SvcReady k 0x92 c s)
  (sub : bitOf (c.d 4) 13 = true → subscrInRange s c.func (bitsOf (c.d 4) 0 10) = true) (live : x.state = 1 ∨ x.state = 2)
include h sub live

theorem exec_qpModify_waits (kept : bitOf (c.d 4) 15 = false) : exec (.qpModify k) s = .next (markBegun c s) := by
  refine congrArg _ (runSvc_waits h ?_ free ?_)
  · simp only [qpOut_inRange inRange, if_neg (not_subscr_beyond sub)]
  · simp only [hx, live, kept, not_true_eq_false, Bool.false_eq_true, if_false]

theorem exec_qpModify_noPort (ports : bitOf (c.d 4) 15 = true)
    (noPort : portOffence s c.obj x (bitsOf (c.d 4) 16 16) = some 0xA0) : exec (.qpModify k) s = .next (complete c 0xA0 0 s) := by
  refine congrArg _ (runSvc_completes h ?_ free ?_)
  · simp only [qpOut_inRange inRange, if_neg (not_subscr_beyond sub)]
  · simp only [hx, live, ports, noPort, not_true_eq_false, if_false, if_true]

end

section
variable (connected : x.state = 2 ∨ x.state = 3)
include connected

theorem exec_qpReset_outside (h : SvcReady k 0x93 c s) (outside : s.feed.group.contains c.obj = false) :
    exec (.qpReset k) s = .next (markBegun c (leaveQp c.obj 1 s)) :=
  congrArg _ (runSvc_waits h (qpOut_inRange inRange) free (by
    simp only [hx, connected, outside, not_true_eq_false, Bool.false_eq_true, if_false]))

theorem exec_qpReset_member (h : SvcReady k 0x93 c s) (member : s.feed.group.contains c.obj = true) :
    exec (.qpReset k) s = .next (complete c 0xA2 0 s) :=
  congrArg _ (runSvc_completes h (qpOut_inRange inRange) free (by
    simp only [hx, connected, member, not_true_eq_false, if_false, if_true]))

end

section
variable (h : SvcReady k 0x94 c s) (outside : s.feed.group.contains c.obj = false)
include h outside

theorem exec_qpDestroy_defined (defined : x.state = 1) :
    exec (.qpDestroy k) s = .next (complete c st.OK 0 (absentQp c.obj s)) :=
  congrArg _ (runSvc_completes h (qpOut_inRange inRange) free (by
    simp only [hx, defined, outside, true_or, not_true_eq_false, Bool.false_eq_true, if_false, if_true]))

theorem exec_qpDestroy_connected (connected : x.state = 2 ∨ x.state = 3) :
    exec (.qpDestroy k) s = .next (markBegun c (leaveQp c.obj 0 s)) := by
  have undefined : x.state ≠ 1 := by omega
  exact congrArg _ (runSvc_waits h (qpOut_inRange inRange) free (by
    simp only [hx, connected, undefined, outside, or_true, not_true_eq_false, Bool.false_eq_true, if_false]))

end

end

end

theorem exec_quiescingEnd_due {q : Nat} {x : Qp} {s : State} (hx : getQp s q = some x) (quiescing : x.state = 4)
    (due : x.quietTick ≤ s.tick.count) : exec (.quiescingEnd q) s =
      .next (finishCmds (fun c => (c.op == 0x93 || c.op == 0x94) && c.obj == q) st.OK 0
        (if x.target = 1 then putQp q (freshQp x) s else absentQp q s)) := by
  have ends : ¬ (x.state ≠ 4 ∨ s.tick.count < x.quietTick) := by omega
  simp only [exec_quiescingEnd, execQuiescingEnd, hx, if_neg ends]

/-! ### Exchange -/

/-- A chosen pack that is not in flight may go to a READY exchange QP: the feed runs, and no quiesce stops it (R304). -/
def XchgSends (rank id q : Nat) (p : Pack) (x : Qp) (s : State) : Prop :=
  findPack s rank id = some p ∧ getQp s q = some x ∧ p.chosen = true ∧ (s.feed.flight.any fun e => e.2.2 == (rank, id)) = false ∧
    x.state = 2 ∧ x.ty = 2 ∧ blkRunning s pFEED = true ∧ quiescing s = false

theorem XchgSends.exec_eq {t rank id member q : Nat} {p : Pack} {x : Qp} {poison : Bool} {s : State} (h : XchgSends rank id q p x s)
    (hq : s.feed.group[member % s.feed.group.length]? = some q) : exec (.xchgSend t rank id member poison) s = .next
      (let u := atTime t s
       if poison = true then penBit pFEED 1 (feedCount 2 (removePack rank id u))
       else postExchange q p.data 0 true (setFeed u fun f => { f with flight := f.flight ++ [(q, x.sqNext, rank, id)] })) := by
  obtain ⟨hp, hx, chosen, waits, ready, exchange, run, calm⟩ := h
  have found : findPack (atTime t s) rank id = some p := hp
  have hqp : getQp (atTime t s) q = some x := hx
  have sends : ¬ (¬ p.chosen = true ∨ (s.feed.flight.any fun e => e.2.2 == (rank, id)) = true ∨ x.state ≠ 2 ∨ x.ty ≠ 2 ∨
      ¬ blkRunning (atTime t s) pFEED = true ∨ quiescing (atTime t s) = true) := by
    simp only [chosen, waits, ready, exchange, show blkRunning (atTime t s) pFEED = true from run,
      show quiescing (atTime t s) = false from calm]
    decide
  simp only [exec_xchgSend, execXchgSend, found, atTime_feed, hq, hqp]
  exact congrArg _ (if_neg sends)

/-- Settles O38: each clause is the branch of its command that the QP's state and the command's checks select. -/
theorem queuePairCommandsAndExchange : Obligations.QueuePairCommandsAndExchange := by
  intro k c x t q rank id member p s at_ ports picks u done sends
  refine ⟨exec_qpCreate_absent, exec_qpCreate_outOfRange,
    fun ⟨h, free, inRange⟩ hx defined alone => exec_qpConnect_defined free inRange hx h defined alone,
    fun ⟨h, free, inRange⟩ sub hx live =>
      ⟨exec_qpModify_waits free inRange hx h sub live, exec_qpModify_noPort free inRange hx h sub live⟩,
    fun ⟨h, free, inRange⟩ hx connected => exec_qpReset_outside free inRange hx connected h,
    fun ⟨h, free, inRange⟩ hx connected => exec_qpReset_member free inRange hx connected h,
    fun ⟨h, free, inRange⟩ hx outside =>
      ⟨exec_qpDestroy_defined free inRange hx h outside, exec_qpDestroy_connected free inRange hx h outside⟩,
    exec_quiescingEnd_due,
    fun ⟨hp, hq, hx, can⟩ => ?sends, rfl⟩
  case sends =>
    have h : XchgSends rank id q p x s := ⟨hp, hx, can⟩
    exact ⟨h.exec_eq hq, h.exec_eq hq⟩

end Sys2Proof.Machine

/-! SUPPORT. Work requests begun, hitches released, entries fetched, the timers of packets, and doorbells of queue pairs (R319, R323
to R330, R334 to R336, R338). -/

namespace Sys2Proof.Machine

/-- The next entry of a READY QP, of operation `op`, may begin: no freeze of its function and no silenced function's memory holds it
back (R326, R331). -/
def BeginsWr (op : Nat) (x : Qp) (w : Wqe) (s : State) : Prop :=
  nextWr x = some w ∧ x.state = 2 ∧ w.op = op ∧ freezing s x.func = false ∧ spotWaits s w.spot = false ∧
    (blkState s pRMT = 1 ∨ blkState s pRMT = 2)

/-- The index of a queue's next entry to fetch. -/
def wqNext (rq : Bool) (x : Qp) : Nat := if rq then x.rqNext else x.sqNext

/-- The index up to which the driver has posted. -/
def wqTail (rq : Bool) (x : Qp) : Nat := if rq then x.rqTail else x.sqTail

/-- The QP past its next entry. -/
def pastNext (rq : Bool) (x : Qp) : Qp :=
  if rq then { x with rqNext := (wqNext rq x + 1) % 65536 } else { x with sqNext := (wqNext rq x + 1) % 65536 }

/-- The QP with an entry at the end of its queue. -/
def withWqe (rq : Bool) (e : Wqe) (x : Qp) : Qp := if rq then { x with rq := x.rq ++ [e] } else { x with sq := x.sq ++ [e] }

/-- A fetched SEND, WRITE or READ may start a tag. -/
def wqeTagged (q : Nat) (rq : Bool) (x : Qp) (e : Wqe) (s : State) : State :=
  if rq = false ∧ 1 ≤ e.op ∧ e.op ≤ 3 then tagStart 2 x.portMask (rmtTag q e.idx) (q * 2 ^ 32 + x.msn) s else s

/-- A QP with a posted entry whose completion has room may fetch it: the engine and the function run (R323). -/
def FetchesWqe (rq : Bool) (x : Qp) (s : State) : Prop :=
  x.ty ≠ 2 ∧ wqNext rq x ≠ wqTail rq x ∧ cqTaken x + 1 < qpDepth x.cqLog ∧ rmtFetch s x.func = true ∧ blkRunning s pRMT = true

theorem pastNext_state (rq : Bool) (x : Qp) : (pastNext rq x).state = x.state := by cases rq <;> rfl

theorem pastNext_tag (rq : Bool) (x : Qp) : (pastNext rq x).portMask = x.portMask ∧ (pastNext rq x).msn = x.msn := by
  cases rq <;> exact ⟨rfl, rfl⟩

section
variable {t : Nat} {s : State}

@[simp] theorem getQp_atTime {q : Nat} : getQp (atTime t s) q = getQp s q := rfl
@[simp] theorem blkRunning_atTime {p : Page} : blkRunning (atTime t s) p = blkRunning s p := rfl
@[simp] theorem rmtFetch_atTime {f : Nat} : rmtFetch (atTime t s) f = rmtFetch s f := rfl
@[simp] theorem subExists_atTime {sub : Nat} : subExists (atTime t s) sub = subExists s sub := rfl
@[simp] theorem subUp_atTime {sub : Nat} : subUp (atTime t s) sub = subUp s sub := rfl

end

section
variable {t q n v : Nat} {x : Qp} {w : Wqe} {bytes : List Byte} {rq : Bool} {s : State} (hx : getQp s q = some x)
include hx

/-! ### Work requests begun -/

/-- What begins does its operation's part and settles; the course of time holds nothing back. -/
theorem BeginsWr.beginWr_eq {op : Nat} {f : Qp → Wqe → State → State} (h : BeginsWr op x w s) :
    beginWr q op f (atTime t s) = settleQp q (f x w (atTime t s)) := by
  obtain ⟨next, ready, operation, thawed, heard, run⟩ := h
  have begins : x.state = 2 ∧ w.op = op ∧ ¬ freezing s x.func = true ∧ ¬ spotWaits s w.spot = true ∧
      (blkState s pRMT = 1 ∨ blkState s pRMT = 2) := by simp [ready, operation, thawed, heard, run]
  simp only [beginWr, getQp_atTime, hx, next]
  exact if_pos begins

theorem exec_rmtRead_begins (h : BeginsWr 3 x w s) (few : (readIds x).length < 64) :
    let id := ((List.range 64).find? fun i => !(readIds x).contains i).getD 0
    exec (.rmtRead t q) s = .next (settleQp q (addTx q [newTx 3 0 x.msn w.rkey 0 w.len w.raddr id [] (some w.idx)]
      (tagName 2 (rmtTag q w.idx) (q * 2 ^ 32 + x.msn)
        (setWqe q { w with begun := true, readId := id, psn := x.psn } (atTime t s))))) :=
  congrArg _ ((h.beginWr_eq hx).trans (congrArg (settleQp q) (if_neg (Nat.not_le.mpr few))))

theorem exec_hitchRelease_waiting (waits : x.sq.find? (fun w => w.op == 5 && w.begun && w.status.isNone) = some w) :
    exec (.hitchRelease t q) s = .next (let u := atTime t s
      if hitchReached u w then settleQp q (setWqe q { w with status := some 0 } u) else u) := by
  simp only [exec_hitchRelease, execHitchRelease, getQp_atTime, hx, waits]

/-! ### Entries fetched and posted -/

theorem exec_wqeFetch_live (h : FetchesWqe rq x s) (live : x.state = 2 ∨ x.state = 3) :
    let u := atTime t s
    let e := newWqe (wqNext rq x) bytes (checkWqe u x rq bytes)
    exec (.wqeFetch t q rq bytes) s = .next
      (if x.state = 3 then finishWqe q rq e 1 (putQp q (pastNext rq x) (wqeTagged q rq x e u))
       else settleQp q (putQp q (withWqe rq e (pastNext rq x)) (wqeTagged q rq x e u))) := by
  intro u e
  obtain ⟨served, posted, room, fetches, run⟩ := h
  have passes : ¬ (x.ty = 2 ∨ ¬ (x.state = 2 ∨ x.state = 3) ∨ wqNext rq x = wqTail rq x ∨ qpDepth x.cqLog ≤ cqTaken x + 1 ∨
      ¬ rmtFetch s x.func = true ∨ ¬ blkRunning s pRMT = true) := by
    simp [served, live, posted, Nat.not_le.mpr room, fetches, run]
  obtain ⟨mask, msn⟩ := pastNext_tag rq x
  rw [wqeTagged, ← mask, ← msn, ← pastNext_state rq x]
  simp only [exec_wqeFetch, execWqeFetch, getQp_atTime, hx]
  refine congrArg _ ((if_neg passes).trans ?_)
  simp only [Bool.not_eq_true]
  rfl

theorem exec_rmtRecv_posts (oldest : x.rq.find? (fun w => !w.posted) = some w) (ready : x.state = 2) :
    exec (.rmtRecv t q) s = .next (putQp q
      { x with rq := x.rq.map fun v => if v.idx = w.idx then { v with posted := true } else v } (atTime t s)) := by
  simp only [exec_rmtRecv, execRmtRecv, getQp_atTime, hx, oldest, if_pos ready]

/-! ### Timers -/

/-- A packet that waited its timer out is let go again, or, past the retries, fails its request (R334). -/
theorem exec_rtoExpiry_due {p : TxPkt} (sent : x.tx.find? (fun p => p.psn == n) = some p) (ready : x.state = 2) (waits : p.st = 2)
    (due : p.sentAt + max 10 (fld s pRMT R.RMT.TIMERS 16 16) * 1000 ≤ t) : exec (.rtoExpiry t q n) s = .next (let u := atTime t s
      if fld s pRMT R.RMT.TIMERS 12 4 < p.tries then failWr q p.wqe 4 u
      else letIn q (putQp q { x with tx := x.tx.map fun r => if r.psn = n then { r with st := 0 } else r } u)) := by
  have expired : ¬ (x.state ≠ 2 ∨ p.st ≠ 2 ∨ t < p.sentAt + max 10 (fld (atTime t s) pRMT R.RMT.TIMERS 16 16) * 1000) :=
    fun early => early.elim (· ready) fun early => early.elim (· waits) (Nat.not_lt.mpr due)
  simp only [exec_rtoExpiry, execRtoExpiry, getQp_atTime, hx, sent]
  exact congrArg _ (if_neg expired)

theorem exec_ackTimer_due (acks : x.ackAt = some n) (due : n ≤ t) (ready : x.state = 2) :
    exec (.ackTimer t q) s = .next (sendAck q (atTime t s)) := by
  simp only [exec_ackTimer, execAckTimer, getQp_atTime, hx, acks, if_pos (And.intro due ready)]

theorem exec_rnrRetryExpiry_ready (ready : x.state = 2) : exec (.rnrRetryExpiry t q) s = .next (letIn q (putQp q
    { x with tx := x.tx.map fun r => if r.st = 3 ∧ r.until_ ≤ t then { r with st := 0 } else r } (atTime t s))) := by
  simp only [exec_rnrRetryExpiry, execRnrRetryExpiry, getQp_atTime, hx, if_neg (not_not_intro ready)]

/-! ### Doorbells -/

theorem exec_rmtDbHi_own (hn : n < 1012) (hq : v % 2 ^ 24 = q) (inRange : qpInRange s n q = true) (served : x.ty ≠ 2)
    (host : x.acc = false) :
    exec (.rmtDbHi n v) s = .next ((ringQp q (mgetD s.rmt.dbLo n 0) x s).getD (penBit (pFUNC n) 0 s)) := by
  simp only [exec_rmtDbHi, execRmtDbHi, hq, Nat.not_le.mpr hn, hx, inRange, served, host, not_true_eq_false, Bool.false_eq_true,
    or_self, if_false]
  cases ringQp q (mgetD s.rmt.dbLo n 0) x s <;> rfl

theorem exec_rmtAccDoorbell_own (hn : n < 48) (up : linkUp s n = true) (hq : v % 2 ^ 24 = q) (reserved : bitsOf v 24 4 = 0)
    (acc : x.acc = true) (port : linkPort s n = some x.accPort) :
    exec (.rmtAccDoorbell n v t) s = .next ((ringQp q t x s).getD (penBit (pFUNC 0) 0 s)) := by
  simp only [exec_rmtAccDoorbell, execRmtAccDoorbell, hq, Nat.not_le.mpr hn, up, hx, reserved, acc, port, ne_eq, not_true_eq_false,
    or_self, if_false]
  cases ringQp q t x s <;> rfl

end

theorem exec_rmtPacketReceive_up {t n : Nat} {ce : Bool} {bytes : List Byte} {host : Option (List Byte)} {s : State}
    (up : subUp s n = true) (run : blkRunning s pRMT = true) :
    exec (.rmtPacketReceive t n ce bytes host) s = .next (rmtReceive (n / 4) ce bytes host (atTime t s)) :=
  congrArg _ (if_pos ⟨up, run⟩)

/-- Settles O37: each clause is the branch of its command that the QP, its next entry and its packets select. -/
theorem workRequestsAndTransport : Obligations.WorkRequestsAndTransport := by
  intro t q v n x w p bytes host hb rq ce s hx u begins id next tail e moved named fetches gone
  have begun : ∀ {op f}, begins op → beginWr q op f (atTime t s) = settleQp q (f x w u) := fun h => BeginsWr.beginWr_eq hx h
  refine ⟨fun h => congrArg _ (begun h), fun h => congrArg _ (begun h), exec_rmtRead_begins hx, fun h => congrArg _ (begun h),
    fun h => congrArg _ (begun h), exec_hitchRelease_waiting hx,
    fun h ready => (exec_wqeFetch_live hx h (.inl ready)).trans (congrArg _ (if_neg (by omega))),
    fun h failed => (exec_wqeFetch_live hx h (.inr failed)).trans (congrArg _ (if_pos failed)), exec_rmtRecv_posts hx,
    fun sent ready waits due => ⟨fun spent => ?_, fun left => ?_⟩,
    exec_ackTimer_due hx, exec_rnrRetryExpiry_ready hx, exec_rmtPacketReceive_up, exec_rmtDbHi_own hx, exec_rmtAccDoorbell_own hx⟩
  · exact (exec_rtoExpiry_due hx sent ready waits due).trans (congrArg _ (if_pos spent))
  · exact (exec_rtoExpiry_due hx sent ready waits due).trans (congrArg _ (if_neg (Nat.not_lt.mpr left)))

end Sys2Proof.Machine

/-! SUPPORT. Frames sent and received on Ethernet sub-ports, their pauses and states (R312, R332, R344, R347, R349 to R352). -/

namespace Sys2Proof.Machine

/-- A sub-port that is up, on a running port. -/
def EthUp (sub : Nat) (s : State) : Prop := subUp s sub = true ∧ blkRunning s (pETH (sub / 4)) = true

/-- A frame the scheduler chose occupies its sub-port and is sent by its kind (R344, R349). -/
def transmitFrame (sub : Nat) (f : Frame) (s : State) : State :=
  let s := occupy sub f.len s
  if f.kind = 0 then transmitData f s else if f.kind = 1 then transmitCtl f s else transmitRaw f s

/-- A received frame is counted with its FEC counts, and the levels of the receive buffers send the pauses due (R349, R350). -/
def frameSeen (sub : Nat) (fec : Nat × Nat) (levels : List (Nat × Nat)) (s : State) : State :=
  levels.foldl (fun s e => rxLevel sub e s) (ethCount (sub / 4) 4 fec.2 (ethCount (sub / 4) 3 fec.1 (ethCount (sub / 4) 0 1 s)))

/-- A frame without its FCS. -/
def frameBody (bytes : List Byte) : List Byte := bytes.take (bytes.length - 4)

/-- The FCS of a frame is right. -/
abbrev FcsGood (bytes : List Byte) : Prop := leAt bytes (bytes.length - 4) 4 = crc32 (frameBody bytes)

/-- A frame of a length that Ethernet allows (R349; log entry 72). -/
def FrameSized (bytes : List Byte) : Prop := 18 ≤ bytes.length ∧ bytes.length ≤ 9216

/-- A sound frame, without its FCS, goes where its kind says (R312, R350 to R352). -/
def takeFrame (sub : Nat) (b : List Byte) (host : Option (List Byte)) (s : State) : State :=
  if (etherOf b).2 = 0x8808 ∧ beAt b (etherOf b).1 2 = 0x0101 then takePfc sub b s
  else match ptpOf s b with
    | some event =>
      let s := ethCount (sub / 4) 9 1 s
      if slaveOn s sub then s else takeRaw sub b (if event then some s.now else none) s
    | none => match udpOf s b with
      | some (dport, ecn, body, sumOk) =>
        if dport ≠ fld s pRMT R.RMT.CFG 16 16 then takeRaw sub b none s
        else if ¬ blkRunning s pRMT then s
        else if ¬ sumOk then penBit pRMT 4 (rmtCount 7 s)
        else rmtReceive (sub / 4) (ecn == 3) body host s
      | none => takeRaw sub b none s

section
variable {t sub : Nat} {s : State} (up : EthUp sub s)
include up

/-! ### Frames sent -/

theorem exec_egressTransmit_free {o : Option Frame} {w : State} (run : blkRunning s pEGS = true) (free : s.rmt.busy.getD sub 0 ≤ t)
    (chosen : schedule sub (admitAll (atTime t s)) = (o, w)) :
    exec (.egressTransmit t sub) s = .next (match o with | none => w | some f => transmitFrame sub f w) := by
  obtain ⟨isUp, running⟩ := up
  have sends : ¬ (t < s.rmt.busy.getD sub 0 ∨ ¬ subUp s sub = true ∨ ¬ blkRunning s pEGS = true ∨
      ¬ blkRunning s (pETH (sub / 4)) = true) := by
    simpa [isUp, running, run] using free
  simp only [exec_egressTransmit, execEgressTransmit, atTime_rmt, subUp_atTime, blkRunning_atTime, if_neg sends, chosen]
  cases o <;> rfl

/-! ### Frames received -/

section
variable {fec : Nat × Nat} {levels : List (Nat × Nat)} {bytes : List Byte} {host : Option (List Byte)}

theorem exec_ethFrameReceive_up : exec (.ethFrameReceive t sub fec levels bytes host) s = .next
    (let w := frameSeen sub fec levels (atTime t s)
     if ¬ FcsGood bytes then penBit (pETH (sub / 4)) 3 (ethCount (sub / 4) 2 1 w)
     else if bytes.length < 18 ∨ 9216 < bytes.length then w
     else takeFrame sub (frameBody bytes) host w) := by
  obtain ⟨isUp, running⟩ := up
  have heard : ¬ (¬ subUp s sub = true ∨ ¬ blkRunning s (pETH (sub / 4)) = true) := by simp [isUp, running]
  rw [exec_ethFrameReceive, execEthFrameReceive]
  exact congrArg _ (if_neg heard)

theorem exec_ethFrameReceive_sound (good : FcsGood bytes) (least : 18 ≤ bytes.length) (most : bytes.length ≤ 9216) :
    exec (.ethFrameReceive t sub fec levels bytes host) s =
      .next (takeFrame sub (frameBody bytes) host (frameSeen sub fec levels (atTime t s))) := by
  rw [exec_ethFrameReceive_up up, if_neg (not_not_intro good), if_neg (by omega)]

end
end

section
variable {sub : Nat} {b : List Byte} {host : Option (List Byte)} {s : State}

theorem takeFrame_pfc (control : (etherOf b).2 = 0x8808) (pauses : beAt b (etherOf b).1 2 = 0x0101) :
    takeFrame sub b host s = takePfc sub b s := if_pos ⟨control, pauses⟩

/-- A datagram to the transport's port, with a right checksum, while the transport runs (R312). -/
theorem takeFrame_datagram {dport ecn : Nat} {body : List Byte} (data : (etherOf b).2 ≠ 0x8808) (plain : ptpOf s b = none)
    (udp : udpOf s b = some (dport, ecn, body, true)) (own : dport = fld s pRMT R.RMT.CFG 16 16) (run : blkRunning s pRMT = true) :
    takeFrame sub b host s = rmtReceive (sub / 4) (ecn == 3) body host s := by
  simp only [takeFrame, data, plain, udp, own, run, false_and, ne_eq, not_true_eq_false, if_false]

end

/-! ### Pauses and states -/

section
variable {t sub n : Nat} {s : State}

theorem exec_pfcPauseExpiry_over {prio : Nat} (paused : mget s.rmt.pause (sub * 8 + prio) = some n) (ended : n ≤ t) :
    exec (.pfcPauseExpiry t sub prio) s =
      .next (setRmt (atTime t s) fun r => { r with pause := mdel r.pause (sub * 8 + prio) }) := by
  simp only [exec_pfcPauseExpiry, execPfcPauseExpiry, atTime_rmt, paused, if_pos ended]

theorem exec_subportUp_down (there : subExists s sub = true) (down : subUp s sub = false)
    (run : blkRunning s (pETH (sub / 4)) = true) : exec (.subportUp t sub) s =
      .next (admitAll (penBit (pETH (sub / 4)) 0 (setFld (atTime t s) (pETH (sub / 4)) R.ETH.STAT (sub % 4) 1 1))) := by
  have comesUp : ¬ (¬ subExists s sub = true ∨ subUp s sub = true ∨ ¬ blkRunning s (pETH (sub / 4)) = true) := by
    simp [there, down, run]
  exact congrArg _ (if_neg comesUp)

end

/-- Settles O39: each clause is the branch of its command that the sub-port, the scheduler and the frame select. -/
theorem ethernetAndEgress : Obligations.EthernetAndEgress := by
  intro t sub prio n corr ucw dport ecn levels f w bytes body host s u page up counted b good
  exact ⟨fun h run free chosen => exec_egressTransmit_free h run free chosen,
    fun h run free chosen => exec_egressTransmit_free h run free chosen,
    fun h bad => (exec_ethFrameReceive_up h).trans (congrArg _ (if_pos bad)),
    fun h sound outside => (exec_ethFrameReceive_up h).trans
      (congrArg _ ((if_neg (not_not_intro sound)).trans (if_pos outside))),
    fun h sound least most control pauses =>
      (exec_ethFrameReceive_sound h sound least most).trans (congrArg _ (takeFrame_pfc control pauses)),
    fun h sound least most data plain udp own run =>
      (exec_ethFrameReceive_sound h sound least most).trans (congrArg _ (takeFrame_datagram data plain udp own run)),
    fun hs => congrArg _ (if_pos hs), exec_pfcPauseExpiry_over, rfl, exec_subportUp_down⟩

end Sys2Proof.Machine

/-! SUPPORT. Function resets, heartbeats, ORPHAN with its adoption, and the end of the grace time (R355, R364, R368 to R374). -/

namespace Sys2Proof.Machine

/-- A function in one of these states has work that its driver can lose: it becomes an ORPHAN (R370, R381). -/
abbrev FuncLive (state : Nat) : Prop := state = 1 ∨ state = 2 ∨ state = 0x81

/-- What an FLR does before the function's state decides: its configuration is reset and its pennants show it (R369). -/
def flrQuiet (func : Nat) (s : State) : State :=
  penBit (pFUNC func) 5 (penBit (pHOST (hostLink s func)) 3 (hostCount (hostLink s func) 4 (clearConfig func (silence func s))))

section
variable {t func abi pf : Nat} {s : State}

/-! ### Function resets -/

theorem exec_flr_vf (vf : 4 ≤ func) (below : func < 1012) : exec (.flr t func) s = .next (clearAgreement func
    (let w := flrQuiet func (atTime t s)
     if blkState s (pFUNC func) = 4 then modFn func (fun x => { x with resetAt := some t }) w
     else if FuncLive (blkState s (pFUNC func)) then enterOrphan func 3 (agreement (atTime t s) func) w
     else if blkState s (pFUNC func) = 0 then dropFreeze func w
     else w)) := by
  have noPf (b : Bool) : ¬ (func < 4 ∧ b = true) := fun h => Nat.not_lt.mpr vf h.1
  simp only [exec_flr, execFlr, if_neg (Nat.not_le.mpr below), if_neg (noPf _)]
  rfl

theorem exec_flr_live (vf : 4 ≤ func) (below : func < 1012) (live : FuncLive (blkState s (pFUNC func))) :
    exec (.flr t func) s = .next (clearAgreement func
      (enterOrphan func 3 (agreement (atTime t s) func) (flrQuiet func (atTime t s)))) := by
  have noReset : blkState s (pFUNC func) ≠ 4 := by omega
  simp only [exec_flr_vf vf below, if_neg noReset, if_pos live]

theorem exec_flr_disabled (vf : 4 ≤ func) (below : func < 1012) (disabled : blkState s (pFUNC func) = 0) :
    exec (.flr t func) s = .next (clearAgreement func (dropFreeze func (flrQuiet func (atTime t s)))) := by
  simp [exec_flr_vf vf below, disabled, FuncLive]

/-- Bus Master Enable 0 silences the function, whose state then decides. -/
theorem exec_busMasterDisable_func (below : func < 1012) : exec (.busMasterDisable t func) s = .next
    (let w := silence func (modFn func (fun x => { x with bme := false }) (atTime t s))
     if FuncLive (blkState w (pFUNC func)) then enterOrphan func 5 (agreement w func) w else w) :=
  congrArg _ (if_neg (Nat.not_le.mpr below))

theorem exec_vfDisable_enabled (below : pf < 4) (on : s.host.vfEnable.getD pf false = true) :
    exec (.vfDisable t pf) s = .next (vfDisable t pf (atTime t s)) :=
  congrArg _ (if_pos ⟨below, on⟩)

theorem exec_funcReset_orphan (below : func < 1012) (orphan : blkState s (pFUNC func) = 0x80) :
    exec (.funcReset t func) s = .next (startReset t func false (atTime t s)) :=
  congrArg _ (if_pos ⟨below, orphan⟩)

theorem exec_funcResetDone_resetting (resetting : blkState s (pFUNC func) = 4) (begun : (getFn s func).resetAt ≠ none) :
    exec (.funcResetDone t func) s = .next (putFn func { getFn s func with resetAt := none, gone := false }
      (setBlkState (atTime t s) (pFUNC func)
        (if (getFn s func).gone = true ∨ vfOn (atTime t s) func = false then 0x82 else 0))) := by
  have ends : ¬ (blkState s (pFUNC func) ≠ 4 ∨ (getFn s func).resetAt.isNone = true) := by
    simpa [resetting] using begun
  simp only [← Bool.not_eq_true (vfOn (atTime t s) func)]
  exact congrArg _ (if_neg ends)

/-! ### Heartbeats -/

theorem exec_heartbeat_func {v : Dword} (below : func < 1012) : exec (.heartbeat t func v) s = .next
    (modFn func (fun x => { x with hbAt := t }) (setReg (atTime t s) (pFUNC func) R.FUNC.HEARTBEAT v)) :=
  congrArg _ (if_neg (Nat.not_le.mpr below))

theorem exec_heartbeatTimeout_over (below : func < 1012) (serves : blkState s (pFUNC func) = 1 ∨ blkState s (pFUNC func) = 2)
    (limited : hbLimit s func ≠ 0) (beyond : (getFn s func).hbAt + hbLimit s func ≤ s.tick.edgeAt) :
    exec (.heartbeatTimeout func) s = .next (enterOrphan func 1 (agreement s func) (silence func s)) :=
  congrArg _ (if_pos ⟨below, serves, limited, beyond⟩)

theorem exec_heartbeatTimeout_within
    (within : hbLimit s func = 0 ∨ s.tick.edgeAt < (getFn s func).hbAt + hbLimit s func) :
    exec (.heartbeatTimeout func) s = .next s := by
  refine congrArg _ (if_neg ?_)
  rintro ⟨-, -, limited, beyond⟩
  omega

/-! ### Adoption and the grace time -/

section
variable (below : func < 1012) (orphan : blkState s (pFUNC func) = 0x80)
include below orphan

theorem not_adopt_elsewhere : ¬ (1012 ≤ func ∨ blkState s (pFUNC func) ≠ 0x80) :=
  not_or.mpr ⟨Nat.not_le.mpr below, not_not_intro orphan⟩

theorem exec_adopt_accepted (noReset : fld s (pFUNC func) R.FUNC.ORPHAN_STAT 4 1 = 0)
    (recorded : abi = fld s (pFUNC func) R.FUNC.ORPHAN_STAT 16 16) (master : (getFn s func).bme = true) :
    exec (.adopt t func abi) s = .next
      (let adopted := setAgreement func (2 ^ 31 + abi) (setFld (atTime t s) (pFUNC func) R.FUNC.ORPHAN_STAT 5 1 0)
       let replayed := modFn func (fun x => { x with hbAt := t })
         (setFld (replayHeld func (unsilence func adopted)) (pFUNC func) R.FUNC.HELD 0 16 0)
       penBit (pFUNC func) 4 (setBlkState replayed (pFUNC func) 1)) := by
  have accepted : ¬ (fld s (pFUNC func) R.FUNC.ORPHAN_STAT 4 1 = 1 ∨ abi ≠ fld s (pFUNC func) R.FUNC.ORPHAN_STAT 16 16 ∨
      ¬ (getFn s func).bme = true) := by
    simp [noReset, recorded, master]
  exact congrArg _ ((if_neg (not_adopt_elsewhere below orphan)).trans (if_neg accepted))

theorem exec_adopt_refused (refused : fld s (pFUNC func) R.FUNC.ORPHAN_STAT 4 1 = 1 ∨
      abi ≠ fld s (pFUNC func) R.FUNC.ORPHAN_STAT 16 16 ∨ (getFn s func).bme = false) :
    exec (.adopt t func abi) s = .next (setFld (atTime t s) (pFUNC func) R.FUNC.ORPHAN_STAT 5 1 1) := by
  rw [← Bool.not_eq_true] at refused
  exact congrArg _ ((if_neg (not_adopt_elsewhere below orphan)).trans (if_pos refused))

end

/-- Running sets pause and running rings stop (R372). -/
def graceStopped (s : State) : State :=
  let paused := setFoundry s fun f => { f with sets := f.sets.map fun e => if e.2.state = 2 then (e.1, pausedSet s e.2) else e }
  { paused with feed := { paused.feed with
    rings := paused.feed.rings.map fun e => if e.2.state = 2 then (e.1, stoppedRing e.2) else e } }

theorem exec_graceEnd_over (orphan : blkState s (pFUNC 0) = 0x80) (pending : (getFn s 0).graceDone = false)
    (limited : fld s (pFUNC 0) R.FUNC.HB_CFG 16 16 ≠ 0xFFFF)
    (beyond : (getFn s 0).orphanAt + fld s (pFUNC 0) R.FUNC.HB_CFG 16 16 * 10 ^ 9 ≤ t) :
    exec (.graceEnd t) s = .next (penBit (pHOST 0) 6 (penBit (pFUNC 0) 9
      (putFn 0 { getFn s 0 with graceDone := true } (graceStopped (atTime t s))))) := by
  have ends : ¬ (blkState s (pFUNC 0) ≠ 0x80 ∨ (getFn s 0).graceDone = true ∨ fld s (pFUNC 0) R.FUNC.HB_CFG 16 16 = 0xFFFF ∨
      t < (getFn s 0).orphanAt + fld s (pFUNC 0) R.FUNC.HB_CFG 16 16 * 10 ^ 9) := by
    simpa [orphan, pending, limited] using beyond
  exact congrArg _ (if_neg ends)

end

/-- Settles O46: each clause is the branch of its command that the function's state, its timers and its registers select. -/
theorem orphansAdoptionAndFunctionResets : Obligations.OrphansAdoptionAndFunctionResets := by
  intro t func pf abi v s u p link quiet live unbused adopted replayed paused stopped
  refine ⟨exec_flr_live, exec_flr_disabled, fun h isLive => (exec_busMasterDisable_func h).trans (congrArg _ (if_pos isLive)),
    fun h disabled => (exec_busMasterDisable_func h).trans (congrArg _ (if_neg ?notLive)), exec_vfDisable_enabled,
    exec_heartbeat_func, exec_heartbeatTimeout_over, exec_heartbeatTimeout_within, exec_adopt_accepted, exec_adopt_refused,
    exec_funcReset_orphan, exec_funcResetDone_resetting, exec_graceEnd_over⟩
  case notLive => exact disabled.symm ▸ (by decide : ¬ FuncLive 0)

end Sys2Proof.Machine

/-! SUPPORT. The function commands: assignment, freeze, save, restore, thaw and the dirty-page log (R363 to R367, R375 to R380,
R411). -/

namespace Sys2Proof.Machine

section
variable {k : CmdRef} {c : SvcCmd} {s : State}

theorem runSvc_refused {op off : Nat} {inv : SvcCmd → State → Option Nat} {fenced : SvcCmd → State → Bool}
    {body : SvcCmd → State → SvcEnd} (h : SvcReady k op c s) (bad : inv c s = some off) :
    runSvc k op inv fenced body s = complete c st.INVALID_FIELD off s := by
  simp only [runSvc_ready _ _ _ h, bad]

theorem pfNamed_vf (vf : 4 ≤ c.obj) : pfNamed c = none := if_neg (Nat.not_lt.mpr vf)

theorem pfNamed_pf (pf : c.obj < 4) : pfNamed c = some 4 := if_pos pf

/-! ### Assignment -/

/-- The ranges of an assignment lie within the QPs, the subscribers and the service queues there are (R363). -/
abbrev AssignSound (c : SvcCmd) : Prop :=
  c.d 4 % 65536 + c.d 4 / 65536 ≤ 16384 ∧ c.d 5 % 65536 + c.d 5 / 65536 ≤ 1024 ∧ bitsOf (c.d 7) 0 7 ≠ 0 ∧ bitsOf (c.d 7) 0 7 ≤ 64

/-- The ranges of an assignment overlap another function's (R363). -/
abbrev AssignMeets (c : SvcCmd) (s : State) : Prop :=
  overlaps s c.obj R.FUNC.RES_QP 4 (c.d 4) = true ∨ overlaps s c.obj R.FUNC.RES_SUB 5 (c.d 5) = true

section
variable (h : SvcReady k 0x95 c s) (alone : begunOn s 0x95 c.obj = none) (sound : AssignSound c)
  (settled : blkState s (pFUNC c.obj) ≠ 2 ∧ blkState s (pFUNC c.obj) ≠ 4)
include h alone sound settled

/-- A sound assignment of a function that is neither STOPPING nor in RESET is judged by overlap, use and the window total. -/
theorem exec_funcAssign_sound : exec (.funcAssign k) s = .next
    (if AssignMeets c s then complete c 0xB0 0 s
     else if inUse s c = true then complete c 0xB1 0 s
     else if 65536 < windowSum s c.obj (c.d 6) then complete c st.NO_RESOURCE 0 s
     else markBegun c s) := by
  obtain ⟨qps, subs, least, most⟩ := sound
  have free : ¬ (c.op = 0x95 ∧ (begunOn s 0x95 c.obj).isSome = true) := by simp [alone]
  have queues : ¬ (bitsOf (c.d 7) 0 7 = 0 ∨ 64 < bitsOf (c.d 7) 0 7) := by omega
  have state : ¬ (blkState s (pFUNC c.obj) = 2 ∨ blkState s (pFUNC c.obj) = 4) := not_or.mpr settled
  rw [exec_funcAssign, execFuncAssign, h.1]
  refine congrArg _ ((if_neg free).trans ((runSvc_ready _ _ _ h).trans ?_))
  simp only [if_neg (Nat.not_lt.mpr qps), if_neg (Nat.not_lt.mpr subs), if_neg queues, if_neg state, noFence,
    Bool.false_eq_true, if_false]
  split_ifs <;> rfl

end

/-! ### Freeze and thaw -/

theorem exec_funcFreeze_vf (h : SvcReady k 0x96 c s) (vf : 4 ≤ c.obj) (least : 1 ≤ c.d 4) (most : c.d 4 ≤ 10000)
    (state : blkState s (pFUNC c.obj) = 0 ∨ blkState s (pFUNC c.obj) = 1) (alone : begunOn s 0x96 c.obj = none) :
    exec (.funcFreeze k) s =
      .next (markBegun c (modFn c.obj (fun x => { x with freezeBy := some (s.now + c.d 4 * 1000000) }) s)) := by
  have limit : ¬ (c.d 4 = 0 ∨ 10000 < c.d 4) := by omega
  have free : ¬ (¬ (blkState s (pFUNC c.obj) = 0 ∨ blkState s (pFUNC c.obj) = 1) ∨ (begunOn s 0x96 c.obj).isSome = true) := by
    simp [state, alone]
  exact congrArg _ (runSvc_waits h (by simp only [pfNamed_vf vf, if_neg limit]) rfl (if_neg free))

theorem exec_freezeDone_drained {t func : Nat} (freezing : (getFn s func).freezing = true) (kept : (getFn s func).revert = false)
    (empty : drained (atTime t s) func = true) : exec (.freezeDone t func) s = .next
      (finishCmds (fun c => c.op == 0x96 && c.obj == func) st.OK (saveBlob (freezeNow func (atTime t s)) func).length
        (freezeNow func (atTime t s))) := by
  have done : ¬ (¬ (getFn s func).freezing = true ∨ (getFn s func).revert = true ∨ ¬ drained (atTime t s) func = true) := by
    simp [freezing, kept, empty]
  exact congrArg _ (if_neg done)

theorem exec_freezeTimeout_due {t func d : Nat} (limited : (getFn s func).freezeBy = some d) (due : d ≤ t) :
    exec (.freezeTimeout t func) s = .next (finishCmds (fun c => c.op == 0x96 && c.obj == func) st.TIMEOUT 0
      (putFn func { getFn s func with freezeBy := none, revert := true } (atTime t s))) := by
  have same : getFn (atTime t s) func = getFn s func := rfl
  simp only [exec_freezeTimeout, execFreezeTimeout, same, limited, if_neg (Nat.not_lt.mpr due)]

theorem exec_funcThaw_frozen (h : SvcReady k 0x99 c s) (vf : 4 ≤ c.obj) (frozen : blkState s (pFUNC c.obj) = 0x81)
    (alone : begunOn s 0x99 c.obj = none) : exec (.funcThaw k) s = .next (markBegun c s) := by
  have free : ¬ (blkState s (pFUNC c.obj) ≠ 0x81 ∨ (begunOn s 0x99 c.obj).isSome = true) := by simp [frozen, alone]
  exact congrArg _ (runSvc_waits h (pfNamed_vf vf) rfl (if_neg free))

/-! ### Save -/

theorem exec_funcSave_pf (h : SvcReady k 0x97 c s) (pf : c.obj < 4) :
    exec (.funcSave k) s = .next (complete c st.INVALID_FIELD 4 s) :=
  congrArg _ (runSvc_refused h (pfNamed_pf pf))

theorem exec_funcSave_frozen (h : SvcReady k 0x97 c s) (vf : 4 ≤ c.obj) (frozen : blkState s (pFUNC c.obj) = 0x81) :
    exec (.funcSave k) s = .next
      (if c.d 6 < (saveBlob s c.obj).length then complete c 0xB2 (saveBlob s c.obj).length s
       else complete c st.OK (saveBlob s c.obj).length (dmaWrite c.func (c.d 7 % 2) (c.q 4) (saveBlob s c.obj) s)) := by
  rw [exec_funcSave, execFuncSave, runSvc_ready _ _ _ h]
  simp only [pfNamed_vf vf, if_neg (not_not_intro frozen), noFence, Bool.false_eq_true, if_false]
  split_ifs <;> rfl

/-! ### Restore -/

/-- What stands in the first `k` bytes is read from them alone. -/
theorem leAt_take {l : List Byte} {o n k : Nat} (within : o + n ≤ k) : leAt (l.take k) o n = leAt l o n := by
  rw [leAt, leAt, List.drop_take, List.take_take, Nat.min_eq_left (by omega)]

/-- The bytes that FUNC_RESTORE reads, from the window or from host memory. -/
def restoreRead (c : SvcCmd) (blob : List Byte) (s : State) : List Byte :=
  if bitOf (c.d 7) 0 = true then windowRead s c.func (c.q 4) (c.d 6) else blob.take (c.d 6)

/-- The blob among them, as long as its own header says. -/
def restoreBlob (c : SvcCmd) (blob : List Byte) (s : State) : List Byte :=
  (restoreRead c blob s).take (leAt (restoreRead c blob s) 8 4)

/-- A blob with its magic, its length and its check (R379). -/
abbrev BlobIntact (b : List Byte) : Prop :=
  leAt b 0 4 = 0x47494D45 ∧ leAt b 8 4 = b.length ∧ 64 ≤ b.length ∧ leAt b 0x3C 4 = crc32c (b.take 0x3C ++ zeros 4 ++ b.drop 0x40)

/-- A blob's check of its length does not depend on whether the header is read before or after the blob is cut to it. -/
theorem blobIntact_iff {r : List Byte} : BlobIntact (r.take (leAt r 8 4)) ↔
    ¬ (leAt (r.take (leAt r 8 4)) 0 4 ≠ 0x47494D45 ∨ leAt r 8 4 < 64 ∨ (r.take (leAt r 8 4)).length ≠ leAt r 8 4 ∨
      leAt (r.take (leAt r 8 4)) 0x3C 4 ≠
        crc32c ((r.take (leAt r 8 4)).take 0x3C ++ zeros 4 ++ (r.take (leAt r 8 4)).drop 0x40)) := by
  have short : (r.take (leAt r 8 4)).length ≤ leAt r 8 4 := List.length_take_le _ _
  have header (total : 64 ≤ leAt r 8 4) : leAt (r.take (leAt r 8 4)) 8 4 = leAt r 8 4 := leAt_take (by omega)
  simp only [BlobIntact, not_or, not_not, Nat.not_lt]
  constructor
  · rintro ⟨magic, whole, least, check⟩
    have total : 64 ≤ leAt r 8 4 := least.trans short
    exact ⟨magic, total, whole.symm.trans (header total), check⟩
  · rintro ⟨magic, total, whole, check⟩
    exact ⟨magic, (header total).trans whole.symm, whole.symm ▸ total, check⟩

/-- An intact blob is of a known version, with known sections, and its function needs no more than the one it is restored to has
(R380, R411). -/
abbrev BlobFits (f : Nat) (b : List Byte) (parts : List BlobPart) (s : State) : Prop :=
  leAt b 4 1 = 1 ∧ leAt b 5 1 = 1 ∧ parts.any (fun x => partUnknown x && decide (x.ty < 2 ^ 15)) = false ∧
  fld s (pFUNC f) R.FUNC.RES_QP 0 16 = leAt b 0x20 2 ∧ leAt b 0x22 2 ≤ fld s (pFUNC f) R.FUNC.RES_QP 16 16 ∧
  leAt b 0x26 2 ≤ fld s (pFUNC f) R.FUNC.RES_SUB 16 16 ∧ leAt b 0x28 4 ≤ reg s (pFUNC f) R.FUNC.RES_WIN ∧
  leAt b 0x2C 1 ≤ reg s (pFUNC f) R.FUNC.RES_SVC ∧
  ((blobNsids (partOf parts 5)).find? fun e => !((nsOf s f).contains e.1)) = none

section
variable {blob : List Byte} {parts : List BlobPart} (h : SvcReady k 0x98 c s) (vf : 4 ≤ c.obj)
  (frozen : blkState s (pFUNC c.obj) = 0x81)
include h vf frozen

theorem exec_funcRestore_broken (broken : ¬ BlobIntact (restoreBlob c blob s)) :
    exec (.funcRestore k blob) s = .next (complete c st.INTEGRITY 0 s) :=
  congrArg _ (runSvc_completes h (pfNamed_vf vf) rfl
    ((if_neg (not_not_intro frozen)).trans (if_pos (not_not.mp (mt blobIntact_iff.mpr broken)))))

theorem exec_funcRestore_fits (intact : BlobIntact (restoreBlob c blob s))
    (sections : blobParts (restoreBlob c blob s) (leAt (restoreBlob c blob s) 0x0C 2) 64 = some parts)
    (fits : BlobFits c.obj (restoreBlob c blob s) parts s) (noPairs : s.pairs.any (fun e => e.1 / 64 == c.obj) = false)
    (noQps : qpsOf s c.obj = []) :
    exec (.funcRestore k blob) s = .next (complete c st.OK 0 (placeBlob c.obj (restoreBlob c blob s) parts s)) := by
  obtain ⟨major, minor, known, base, qps, subs, window, queues, spaces⟩ := fits
  refine congrArg _ (runSvc_completes h (pfNamed_vf vf) rfl
    ((if_neg (not_not_intro frozen)).trans ((if_neg (blobIntact_iff.mp intact)).trans ?_)))
  simp only [restoreBlob, restoreRead] at sections major minor known base qps subs window queues spaces ⊢
  simp only [sections, major, minor, known, base, spaces, noPairs, noQps, Nat.not_lt.mpr qps, Nat.not_lt.mpr subs,
    Nat.not_lt.mpr window, Nat.not_lt.mpr queues, ne_eq, not_true_eq_false, Bool.false_eq_true, or_self, if_false, Option.map_none]

end

/-! ### The dirty-page log -/

/-- The states in which a function has a dirty-page log (R377). -/
abbrev DirtyState (state : Nat) : Prop := state = 1 ∨ state = 0x80 ∨ state = 0x81

section
variable {sub : Nat} {status result : Nat} {w : State} (h : SvcReady k 0x9A c s) (op : bitsOf (c.d 4) 0 2 = sub)
  (state : DirtyState (blkState s (pFUNC c.obj)))
include h op state

/-- A ready command of the log whose sub-operation and checks are right completes as its own part ends it. -/
theorem dirtyOp_completes {inv : SvcCmd → State → Option Nat} {body : SvcCmd → FuncX → State → SvcEnd} (known : sub ≠ 3)
    (sound : inv c s = none) (ends : body c (getFn s c.obj) s = .done status result w) :
    dirtyOp sub k inv body s = complete c status result w := by
  subst op
  have own : ¬ (c.op = 0x9A ∧ (if bitsOf (c.d 4) 0 2 = 3 then 0 else bitsOf (c.d 4) 0 2) ≠ bitsOf (c.d 4) 0 2) := by simp [known]
  simp only [dirtyOp, h.1, if_neg own]
  exact runSvc_completes h ((if_neg known).trans sound) rfl ((if_neg (not_not_intro state)).trans ends)

end

section
variable (h : SvcReady k 0x9A c s) (state : DirtyState (blkState s (pFUNC c.obj)))
include h state

theorem exec_dirtyLogStart_fits (op : bitsOf (c.d 4) 0 2 = 0) (base : c.q 5 % 4096 = 0) (pages : c.q 7 % 32768 = 0)
    (least : c.q 7 ≠ 0) (most : c.q 7 ≤ 2 ^ 44) (clear : c.d 9 = 0) (noLog : (getFn s c.obj).dirty = none)
    (room : logBytes s + c.q 7 / 32768 ≤ 2 ^ 32) :
    exec (.dirtyLogStart k) s = .next (complete c st.OK 0 (setRegN
      (putFn c.obj { getFn s c.obj with dirty := some { base := c.q 5, len := c.q 7, pages := [] } } s) (pFUNC c.obj)
      R.FUNC.DIRTY_STAT (2 ^ 31))) := by
  have len : ¬ (c.q 7 % 32768 ≠ 0 ∨ c.q 7 = 0 ∨ 2 ^ 44 < c.q 7) := by omega
  have fits : ¬ (2 ^ 29 < c.q 7 / 32768 ∨ 2 ^ 32 < logBytes s - 0 + c.q 7 / 32768) := by omega
  refine congrArg _ (dirtyOp_completes h op state (by decide) ?_ ?_)
  · simp only [if_neg (not_not_intro base), if_neg len, if_neg (not_not_intro clear)]
  · simp only [noLog, if_neg fits]

theorem exec_dirtyLogSync_within {g : DirtyLog} (op : bitsOf (c.d 4) 0 2 = 1) (log : (getFn s c.obj).dirty = some g)
    (first : c.d 7 % 8 = 0) (count : c.d 8 % 8 = 0) (within : c.d 7 + c.d 8 ≤ g.len / 4096) :
    exec (.dirtyLogSync k) s = .next (complete c st.OK 0 (dmaWrite c.func (c.d 9 % 2) (c.q 5) (pageBits g.pages (c.d 7) (c.d 8))
      (putFn c.obj { getFn s c.obj with
        dirty := some { g with pages := g.pages.filter fun n => !(decide (c.d 7 ≤ n) && decide (n < c.d 7 + c.d 8)) } } s))) := by
  have range : ¬ (c.d 8 % 8 ≠ 0 ∨ g.len / 4096 < c.d 7 + c.d 8) := by omega
  refine congrArg _ (dirtyOp_completes h op state (by decide) ?_ ?_)
  · simp only [log, if_neg (not_not_intro first), if_neg range]
  · simp only [log]

theorem exec_dirtyLogStop_clear (op : bitsOf (c.d 4) 0 2 = 2) (clear : ∀ i ∈ [5, 6, 7, 8, 9], c.d i = 0) :
    exec (.dirtyLogStop k) s = .next
      (if (getFn s c.obj).dirty.isSome = true then
        complete c st.OK 0 (setFld (putFn c.obj { getFn s c.obj with dirty := none } s) (pFUNC c.obj) R.FUNC.DIRTY_STAT 31 1 0)
       else complete c st.STATE_CONFLICT 0 s) := by
  have sound : (([5, 6, 7, 8, 9].find? fun i => c.d i != 0).map fun i => 4 * i) = none := by
    rw [Option.map_eq_none_iff, List.find?_eq_none]
    intro i hi
    simp [clear i hi]
  cases log : (getFn s c.obj).dirty with
  | none => exact congrArg _ (dirtyOp_completes h op state (by decide) sound (by simp only [log]))
  | some g => exact congrArg _ (dirtyOp_completes h op state (by decide) sound (by simp only [log]))

end

end

/-- Settles O47: each clause is the branch of its command that the function's state and the command's checks select. -/
theorem functionCommandsAndMigration : Obligations.FunctionCommandsAndMigration := by
  intro t func k c blob parts g s u p x state ranges assigns meets b intact fits dirty
  refine ⟨?free, ?meets, ?used, exec_funcFreeze_vf, exec_freezeDone_drained, fun d => exec_freezeTimeout_due, exec_funcSave_pf,
    exec_funcSave_frozen, exec_funcRestore_broken, exec_funcRestore_fits, exec_funcThaw_frozen,
    fun ⟨h, op, live⟩ => exec_dirtyLogStart_fits h live op, fun ⟨h, op, live⟩ => exec_dirtyLogSync_within h live op,
    fun ⟨h, op, live⟩ d5 d6 d7 d8 d9 => exec_dirtyLogStop_clear h live op (by simp [d5, d6, d7, d8, d9])⟩
  case free =>
    rintro ⟨h, alone, sound, settled⟩ apart unused total
    rw [exec_funcAssign_sound h alone sound settled, if_neg apart, if_neg (Bool.eq_false_iff.mp unused),
      if_neg (Nat.not_lt.mpr total)]
  case meets =>
    rintro ⟨h, alone, sound, settled⟩ overlap
    rw [exec_funcAssign_sound h alone sound settled, if_pos overlap]
  case used =>
    rintro ⟨h, alone, sound, settled⟩ apart used
    rw [exec_funcAssign_sound h alone sound settled, if_neg apart, if_pos used]

end Sys2Proof.Machine

/-! SUPPORT. NVMe commands whose turn has come: a ready one of its opcode runs its own part (R386, R388). -/

namespace Sys2Proof.Machine

/-- A ready Admin command of an opcode. -/
abbrev AdminReady (t f q cid op : Nat) (c : NCmd) (s : State) : Prop := NvmeReady t f q cid c s ∧ q = 0 ∧ c.op = op

section
variable {t f q cid op : Nat} {c : NCmd} {s : State} {ok : NCmd → Bool} {body : NCmd → State → State}

theorem NCmd.d_begun (i : Nat) : ({ c with begun := true } : NCmd).d i = c.d i := rfl

theorem NCmd.nsid_begun : ({ c with begun := true } : NCmd).nsid = c.nsid := rfl

theorem runNvme_admin (h : AdminReady t f q cid op c s) (fits : c.op = op → ok c = true) :
    runNvme t f q cid true ok body s = body { c with begun := true } (nvmeBegun t f q cid c s) :=
  runNvme_ready body h.1 (beq_iff_eq.mpr h.2.1) (fits h.2.2)

end

end Sys2Proof.Machine

/-! SUPPORT. Controllers, doorbells, the fetch of commands, and the Admin commands of queues, events and features (R382 to R389, R397,
R399, R404, R405). -/

namespace Sys2Proof.Machine

section
variable {t f q v cid : Nat} {c : NCmd} {s : State}

/-! ### Controllers -/

theorem exec_controllerEnable_idle {cc aqa asq acq : Nat} (below : f < 1012) (there : blkState s (pFUNC f) ≠ 0x82)
    (runs : blkRunning s pNVME = true) (idle : (getCtrl s f).rdy = false) (sound : (getCtrl s f).cfs = false) (en : cc % 2 = 1) :
    exec (.controllerEnable t f cc aqa asq acq) s = .next (putCtrl f { getCtrl s f with
      cc := cc, rdy := true, aqa := aqa, asq := asq, acq := acq
      sqs := [(0, { base := asq, size := bitsOf aqa 0 12 + 1, prio := 0, cq := 0, head := 0, tail := 0 })]
      cqs := [(0, { base := acq, size := bitsOf aqa 16 12 + 1, vec := 0, ien := true, head := 0, tail := 0, phase := true, held := 0,
                    heldAt := 0, wait := [] })] } (atTime t s)) := by
  have takes : ¬ (1012 ≤ f ∨ blkState s (pFUNC f) = 0x82 ∨ (getCtrl s f).rdy = true ∨ (getCtrl s f).cfs = true ∨
      ¬ blkRunning s pNVME = true ∨ cc % 2 = 0) := by
    simp [there, runs, idle, sound, en, below]
  exact congrArg _ (if_neg takes)

theorem exec_controllerReset_ready (rdy : (getCtrl s f).rdy = true) :
    exec (.controllerReset t f) s = .next (resetCtrl f (atTime t s)) :=
  congrArg _ (if_pos (Or.inl rdy))

theorem exec_shutdownNotify_ready (rdy : (getCtrl s f).rdy = true) :
    exec (.shutdownNotify t f) s = .next (putCtrl f { getCtrl s f with shst := 2 } (atTime t s)) :=
  congrArg _ (if_pos rdy)

/-! ### Doorbells -/

section
variable {sq : NSq} {cq : NCq} (rdy : (getCtrl s f).rdy = true)
include rdy

theorem exec_nvmeDoorbell_tail (known : mget (getCtrl s f).sqs q = some sq) (within : v < sq.size) (word : v < 65536) :
    exec (.nvmeDoorbell f q false v) s =
      .next (putCtrl f { getCtrl s f with sqs := mput (getCtrl s f).sqs q { sq with tail := v } } s) := by
  simp only [exec_nvmeDoorbell, execNvmeDoorbell, rdy, known, Nat.mod_eq_of_lt word, if_neg (Nat.not_le.mpr within),
    not_true_eq_false, Bool.false_eq_true, if_false]

theorem exec_nvmeDoorbell_head (known : mget (getCtrl s f).cqs q = some cq) (within : v < cq.size) (word : v < 65536) :
    exec (.nvmeDoorbell f q true v) s =
      .next (drainCq f q (putCtrl f { getCtrl s f with cqs := mput (getCtrl s f).cqs q { cq with head := v } } s)) := by
  simp only [exec_nvmeDoorbell, execNvmeDoorbell, rdy, known, Nat.mod_eq_of_lt word, if_neg (Nat.not_le.mpr within),
    not_true_eq_false, if_false, if_true]

theorem exec_nvmeDoorbell_unknown (unknown : mget (getCtrl s f).sqs q = none) :
    exec (.nvmeDoorbell f q false v) s = .next (asyncEvent f 0 0 1 s) := by
  simp only [exec_nvmeDoorbell, execNvmeDoorbell, rdy, unknown, not_true_eq_false, Bool.false_eq_true, if_false]

end

/-! ### Fetch -/

/-- At time `t` the controller of a function fetches, and arbitration picks queue `q`, which leaves the controller as `y` (R385). -/
abbrev Fetches (f q : Nat) (y : Ctrl) (s : State) : Prop :=
  (getCtrl s f).rdy = true ∧ (getCtrl s f).cfs = false ∧ nvmeHeld s f = false ∧ (getFn s f).freezing = false ∧
  blkRunning s pNVME = true ∧ quiescing s = false ∧ arbPick (getCtrl s f) = some (q, y)

/-- The command that the entry `dw` of a queue becomes, as its dwords. -/
def sqeCmd (q : Nat) (dw : List Nat) (s : State) : NCmd := {
  sq := q, cid := bitsOf ((dw.map (· % 2 ^ 32)).getD 0 0) 16 16, dw := dw.map (· % 2 ^ 32), num := s.nvme.num
  begun := false, drop := false, data := [], pi := [], kind := 0, ranges := [], place := none, programmed := false, record := none }

section
variable {y : Ctrl} {sq : NSq} {dw : List Nat} (fetches : Fetches f q y (atTime t s))
include fetches

theorem exec_nvmeCommandFetch_unread :
    exec (.nvmeCommandFetch t f q none) s = .next (nvmeFetchFail f (putCtrl f { y with cfs := true } (atTime t s))) := by
  obtain ⟨rdy, sound, free, thawed, runs, quiet, picks⟩ := fetches
  simp [exec_nvmeCommandFetch, execNvmeCommandFetch, rdy, sound, free, thawed, runs, quiet, picks]

/-- The entry at the queue's head is taken: it completes with the status of its fetch, or waits for its turn. -/
theorem exec_nvmeCommandFetch_entry (known : mget y.sqs q = some sq) : exec (.nvmeCommandFetch t f q (some dw)) s =
    .next (let taken : Ctrl := { y with sqs := mput y.sqs q { sq with head := ringNext sq.head sq.size } }
      let counted := setNvme (atTime t s) fun n => { n with num := n.num + 1 }
      if fetchStatus f q y (sqeCmd q dw s) ≠ 0 then
        postNvme f q (sqeCmd q dw s).cid (fetchStatus f q y (sqeCmd q dw s)) 0 (putCtrl f taken counted)
      else tagCandidate 3 f (nvmeTag f q (sqeCmd q dw s).cid) (putCtrl f { taken with
        cmds := taken.cmds ++ [sqeCmd q dw s]
        deficit := if !(taken.cmds.any fun d => !d.begun) then 0 else taken.deficit } counted)) := by
  obtain ⟨rdy, sound, free, thawed, runs, quiet, picks⟩ := fetches
  have may : ¬ (¬ (getCtrl (atTime t s) f).rdy = true ∨ (getCtrl (atTime t s) f).cfs = true ∨ nvmeHeld (atTime t s) f = true ∨
      (getFn (atTime t s) f).freezing = true ∨ ¬ blkRunning (atTime t s) pNVME = true ∨ quiescing (atTime t s) = true) := by
    simp [rdy, sound, free, thawed, runs, quiet]
  simp only [exec_nvmeCommandFetch, execNvmeCommandFetch, if_neg may, picks, known, ne_eq, not_true_eq_false, if_false]
  rfl

end

/-! ### Queues -/

/-- What CREATE_IO_CQ and CREATE_IO_SQ ask of the queue's number and size (R382, R404). -/
abbrev QueueSound (f : Nat) (c : NCmd) : Prop :=
  bitsOf (c.d 10) 0 16 ≠ 0 ∧ bitsOf (c.d 10) 0 16 ≤ ioQueues f ∧ bitsOf (c.d 10) 16 16 ≠ 0 ∧ bitsOf (c.d 10) 16 16 ≤ 4095 ∧
  c.d 11 % 2 = 1

section
variable (sound : QueueSound f c)
include sound

theorem exec_createIoCq_free (h : AdminReady t f q cid 5 c s)
    (free : mget (getCtrl (nvmeBegun t f q cid c s) f).cqs (bitsOf (c.d 10) 0 16) = none) (vector : bitsOf (c.d 11) 16 16 ≤ 64) :
    exec (.createIoCq t f q cid) s = .next
      (let w := nvmeBegun t f q cid c s
       let made : NCq := {
         base := c.d 6 + 2 ^ 32 * c.d 7, size := bitsOf (c.d 10) 16 16 + 1, vec := bitsOf (c.d 11) 16 16, ien := bitOf (c.d 11) 1
         head := 0, tail := 0, phase := true, held := 0, heldAt := 0, wait := [] }
       endNvme f { c with begun := true } 0 0
         (putCtrl f { getCtrl w f with cqs := mput (getCtrl w f).cqs (bitsOf (c.d 10) 0 16) made } w)) := by
  obtain ⟨named, known, least, most, contiguous⟩ := sound
  rw [exec_createIoCq, execCreateIoCq, runNvme_admin h beq_iff_eq.mpr]
  simp [NCmd.d_begun, named, Nat.not_lt.mpr known, free, least, Nat.not_lt.mpr most, contiguous, Nat.not_lt.mpr vector]

theorem exec_createIoSq_free (h : AdminReady t f q cid 1 c s)
    (free : mget (getCtrl (nvmeBegun t f q cid c s) f).sqs (bitsOf (c.d 10) 0 16) = none) (completes : bitsOf (c.d 11) 16 16 ≠ 0)
    (there : (mget (getCtrl (nvmeBegun t f q cid c s) f).cqs (bitsOf (c.d 11) 16 16)).isSome = true) :
    exec (.createIoSq t f q cid) s = .next
      (let w := nvmeBegun t f q cid c s
       let made : NSq := {
         base := c.d 6 + 2 ^ 32 * c.d 7, size := bitsOf (c.d 10) 16 16 + 1, prio := bitsOf (c.d 11) 1 2, cq := bitsOf (c.d 11) 16 16
         head := 0, tail := 0 }
       endNvme f { c with begun := true } 0 0
         (putCtrl f { getCtrl w f with sqs := mput (getCtrl w f).sqs (bitsOf (c.d 10) 0 16) made } w)) := by
  obtain ⟨named, known, least, most, contiguous⟩ := sound
  have listed : mget (getCtrl (nvmeBegun t f q cid c s) f).cqs (bitsOf (c.d 11) 16 16) ≠ none := Option.isSome_iff_ne_none.mp there
  rw [exec_createIoSq, execCreateIoSq, runNvme_admin h beq_iff_eq.mpr]
  simp [NCmd.d_begun, named, Nat.not_lt.mpr known, free, least, Nat.not_lt.mpr most, contiguous, completes, listed]

end

/-- A submission queue without commands in hand goes with no completion but the command's own. -/
theorem exec_deleteIoSq_empty {sq : NSq} (h : AdminReady t f q cid 0 c s) (named : bitsOf (c.d 10) 0 16 ≠ 0)
    (known : mget (getCtrl (nvmeBegun t f q cid c s) f).sqs (bitsOf (c.d 10) 0 16) = some sq)
    (empty : (getCtrl (nvmeBegun t f q cid c s) f).cmds.all (fun d => d.sq != bitsOf (c.d 10) 0 16) = true) :
    exec (.deleteIoSq t f q cid) s = .next
      (let w := nvmeBegun t f q cid c s
       endNvme f { c with begun := true } 0 0 (putCtrl f { getCtrl w f with
         sqs := mdel (getCtrl w f).sqs (bitsOf (c.d 10) 0 16), cmds := (getCtrl w f).cmds } w)) := by
  have others : ∀ d ∈ (getCtrl (nvmeBegun t f q cid c s) f).cmds, d.sq ≠ bitsOf (c.d 10) 0 16 := by simpa using empty
  have noneWaits : (getCtrl (nvmeBegun t f q cid c s) f).cmds.filter (fun d => d.sq == bitsOf (c.d 10) 0 16 && !d.begun) = [] := by
    rw [List.filter_eq_nil_iff]
    intro d hd
    simp [others d hd]
  have noneRuns {gone : NCmd → NCmd} (same : ∀ d, d.sq ≠ bitsOf (c.d 10) 0 16 → gone d = d) :
      (getCtrl (nvmeBegun t f q cid c s) f).cmds.map gone = (getCtrl (nvmeBegun t f q cid c s) f).cmds :=
    (List.map_congr_left fun d hd => same d (others d hd)).trans (List.map_id _)
  rw [exec_deleteIoSq, execDeleteIoSq, runNvme_admin h beq_iff_eq.mpr]
  simp only [NCmd.d_begun, named, known, noneWaits, List.foldl_nil, Option.isNone_some, Bool.false_eq_true, or_self, if_false]
  rw [noneRuns]
  exact fun d hd => if_neg hd

theorem exec_deleteIoCq_known {cq : NCq} (h : AdminReady t f q cid 4 c s) (named : bitsOf (c.d 10) 0 16 ≠ 0)
    (known : mget (getCtrl (nvmeBegun t f q cid c s) f).cqs (bitsOf (c.d 10) 0 16) = some cq) :
    exec (.deleteIoCq t f q cid) s = .next
      (let w := nvmeBegun t f q cid c s
       if (getCtrl w f).sqs.any (fun e => e.2.cq == bitsOf (c.d 10) 0 16) = true then endNvme f { c with begun := true } nv.Q_DELETION 0 w
       else endNvme f { c with begun := true } 0 0
         (putCtrl f { getCtrl w f with cqs := mdel (getCtrl w f).cqs (bitsOf (c.d 10) 0 16) } w)) := by
  rw [exec_deleteIoCq, execDeleteIoCq, runNvme_admin h beq_iff_eq.mpr]
  by_cases used : (getCtrl (nvmeBegun t f q cid c s) f).sqs.any (fun e => e.2.cq == bitsOf (c.d 10) 0 16) = true <;>
    simp [NCmd.d_begun, named, known, used, -List.any_eq_true]

/-! ### Abort and events -/

theorem exec_abort_admin (h : AdminReady t f q cid 8 c s) (admin : bitsOf (c.d 10) 0 16 = 0) :
    exec (.abort t f q cid) s =
      .next (endNvme f { c with begun := true } 0 1 (nvmeCount 2 (nvmeBegun t f q cid c s))) := by
  rw [exec_abort, execAbort, runNvme_admin h beq_iff_eq.mpr]
  exact congrArg _ (if_pos admin)

theorem exec_abort_found {d : NCmd} (h : AdminReady t f q cid 8 c s) (io : bitsOf (c.d 10) 0 16 ≠ 0)
    (found : findNCmd (nvmeBegun t f q cid c s) f (bitsOf (c.d 10) 0 16) (bitsOf (c.d 10) 16 16) = some d) :
    exec (.abort t f q cid) s = .next
      (if d.begun = true then endNvme f { c with begun := true } 0 1 (nvmeCount 2 (nvmeBegun t f q cid c s))
       else endNvme f { c with begun := true } 0 0 (nvmeCount 1 (endNvme f d nv.ABORTED 0 (nvmeBegun t f q cid c s)))) := by
  rw [exec_abort, execAbort, runNvme_admin h beq_iff_eq.mpr]
  simp only [NCmd.d_begun, if_neg io, found]

theorem exec_asyncEventRequest_waits (h : AdminReady t f q cid 0x0C c s) (noEvent : (getCtrl (nvmeBegun t f q cid c s) f).events = []) :
    exec (.asyncEventRequest t f q cid) s = .next
      (let w := nvmeBegun t f q cid c s
       putCtrl f { getCtrl w f with
         cmds := (getCtrl w f).cmds.filter (fun d => d.num != c.num), aers := (getCtrl w f).aers ++ [cid] } w) := by
  rw [exec_asyncEventRequest, execAsyncEventRequest, runNvme_admin h beq_iff_eq.mpr]
  simp only [noEvent]

theorem exec_asyncEventRequest_takes {e : Nat} {l : List Nat} (h : AdminReady t f q cid 0x0C c s)
    (oldest : (getCtrl (nvmeBegun t f q cid c s) f).events = e :: l) :
    exec (.asyncEventRequest t f q cid) s = .next
      (let w := nvmeBegun t f q cid c s
       endNvme f { c with begun := true } 0 e (putCtrl f { getCtrl w f with events := l } w)) := by
  rw [exec_asyncEventRequest, execAsyncEventRequest, runNvme_admin h beq_iff_eq.mpr]
  simp only [oldest]

/-! ### Features and Identify -/

theorem exec_getFeatures_arbitration (h : AdminReady t f q cid 0x0A c s) (feature : c.d 10 = 1) :
    exec (.getFeatures t f q cid) s = .next
      (endNvme f { c with begun := true } 0 (getCtrl (nvmeBegun t f q cid c s) f).arb (nvmeBegun t f q cid c s)) := by
  rw [exec_getFeatures, execGetFeatures, runNvme_admin h beq_iff_eq.mpr]
  simp only [featureOf, NCmd.d_begun, feature]
  rfl

/-- The dword with a feature's number, of which SET_FEATURES looks at the number alone. -/
theorem NCmd.d_feature {number : Nat} (named : c.d 10 = number) (there : number ≠ 0) (byte : bitsOf number 0 8 = number) :
    ({ c with begun := true, dw := c.dw.set 10 (bitsOf (c.d 10) 0 8) } : NCmd).d 10 = number := by
  have within : 10 < c.dw.length := by
    by_contra beyond
    exact there (named.symm.trans (List.getD_eq_default _ _ (Nat.not_lt.mp beyond)))
  rw [named, byte]
  simp [NCmd.d, within]

/-- A feature that is there is set, with the status that `setFeature` gives. -/
theorem exec_setFeatures_known {value : Nat} (h : AdminReady t f q cid 9 c s) (unsaved : bitOf (c.d 10) 31 = false)
    (known : featureOf (nvmeBegun t f q cid c s) f
      { c with begun := true, dw := c.dw.set 10 (bitsOf (c.d 10) 0 8) } false = some value) :
    exec (.setFeatures t f q cid) s = .next
      (let r := setFeature (nvmeBegun t f q cid c s) f { c with begun := true }
       endNvme f { c with begun := true } r.1 r.2.1 r.2.2) := by
  rw [exec_setFeatures, execSetFeatures, runNvme_admin h beq_iff_eq.mpr]
  simp only [NCmd.d_begun, known, unsaved, Option.isNone_some, Bool.false_eq_true, if_false]

theorem exec_setFeatures_arbitration (h : AdminReady t f q cid 9 c s) (named : c.d 10 = 1) :
    exec (.setFeatures t f q cid) s = .next
      (let w := nvmeBegun t f q cid c s
       endNvme f { c with begun := true } 0 0 (putCtrl f { getCtrl w f with arb := c.d 11 } w)) := by
  rw [exec_setFeatures_known h (named ▸ rfl) (value := (getCtrl (nvmeBegun t f q cid c s) f).arb)]
  · simp only [setFeature, NCmd.d_begun, named]
    rfl
  · simp only [featureOf, NCmd.d_feature named one_ne_zero rfl]
    rfl

theorem exec_setFeatures_share (h : AdminReady t f q cid 9 c s) (named : c.d 10 = 0xC0) :
    exec (.setFeatures t f q cid) s = .next (endNvme f { c with begun := true } 0x10E 0 (nvmeBegun t f q cid c s)) := by
  have number : bitsOf 0xC0 0 8 = 0xC0 := rfl
  rw [exec_setFeatures_known h (named ▸ rfl) (value := shareWeight (nvmeBegun t f q cid c s) f +
    shareLimit (nvmeBegun t f q cid c s) f / 64 * 65536)]
  · simp only [setFeature, NCmd.d_begun, named, number]
  · simp only [featureOf, NCmd.d_feature named (by decide) number, number]

theorem exec_identify_known {segs : List (Nat × Nat)} (h : AdminReady t f q cid 6 c s)
    (known : (identData f { c with begun := true } (nvmeBegun t f q cid c s)).1.1 = 0) :
    exec (.identify t f q cid segs false) s = .next
      (let r := identData f { c with begun := true } (nvmeBegun t f q cid c s)
       endNvme f { c with begun := true } 0 0 (dmaSegs f segs r.1.2 r.2)) := by
  rw [exec_identify, execIdentify, runNvme_admin h beq_iff_eq.mpr]
  simp only [known, Bool.false_eq_true, if_false, if_true]

end

/-- Settles O42: each clause is the branch of its command that the controller, its queues and the command's checks select. -/
theorem nvmeControllersAndQueues : Obligations.NvmeControllersAndQueues := by
  intro t f q v cid cc aqa asq acq x y sq cq c d dw segs s u b w ready created fetches moved counted id size hi newCq newSq idOk same
  subst same
  refine ⟨exec_controllerEnable_idle, fun rdy => ⟨exec_controllerReset_ready rdy, exec_shutdownNotify_ready rdy⟩,
    exec_nvmeDoorbell_tail, exec_nvmeDoorbell_head, exec_nvmeDoorbell_unknown, exec_nvmeCommandFetch_unread, ?taken, ?refused,
    fun h sound => exec_createIoCq_free sound h, fun h sound => exec_createIoSq_free sound h, exec_deleteIoSq_empty,
    exec_deleteIoCq_known, exec_abort_admin, exec_abort_found, exec_asyncEventRequest_waits, fun _ _ => exec_asyncEventRequest_takes,
    exec_getFeatures_arbitration, exec_setFeatures_arbitration, exec_setFeatures_share, exec_identify_known⟩
  case taken => exact fun h known passes => (exec_nvmeCommandFetch_entry h known).trans (congrArg _ (if_neg (not_not_intro passes)))
  case refused => exact fun h known fails => (exec_nvmeCommandFetch_entry h known).trans (congrArg _ (if_pos fails))

end Sys2Proof.Machine

/-! SUPPORT. The Admin commands of namespaces, formats, sanitize, log pages and firmware (R391, R400 to R409, R433, R434, R575). -/

namespace Sys2Proof.Machine

section
variable {t f q cid id nsid : Nat} {n : Ns} {c : NCmd} {data : List Byte} {s : State}

/-! ### Namespaces -/

/-- A namespace that is neither FORMATTING nor SANITIZING is busy with nothing (R403). -/
theorem nsBusy_free (formats : n.state ≠ 3) (sanitizes : n.state ≠ 4) : nsBusy s (some n) = 0 :=
  (if_neg formats).trans (if_neg sanitizes)

/-- What a host asks of a new namespace is sound: kind, format, protection and whole size (R391, R393, R400). -/
abbrev NsSound (data : List Byte) : Prop :=
  leAt data 3072 1 ≤ 2 ∧ leAt data 26 1 < 32 ∧ leAt data 30 1 = 0 ∧ formatOk (leAt data 26 1 % 16) (leAt data 29 1) = true ∧
  leAt data 8 8 = leAt data 0 8 ∧ leAt data 0 8 ≠ 0

/-- The new namespace that the host-specified structure `data` asks for, with its NGUID; a mirrored one starts degraded without the
pair (R400, R402). -/
def askedNs (data guid : List Byte) (gib : Nat) (s : State) : Ns := {
  state := 1, former := 1, kind := leAt data 3072 1, lbaf := leAt data 26 1 % 16, ext := bitOf (leAt data 26 1) 4
  dps := leAt data 29 1, gib := gib, size := leAt data 0 8, nguid := guid, ctrl := none, policy := 0, owned := true
  mirror := if leAt data 3072 1 = 1 ∧ ¬ pairSynced s then 1 else 0, ackTick := 0, degBytes := 0, leftBytes := 0 }

theorem exec_nsCreate_sound {gib : Nat} (h : AdminReady t f q cid 0x0D c s) (creates : bitsOf (c.d 10) 0 4 = 0)
    (serves : ftlReady (nvmeBegun t f q cid c s) = true) (settled : (nvmeBegun t f q cid c s).nvme.sanitize = none)
    (sound : NsSound data) (whole : gib = ceilDiv (leAt data 0 8 * lbaBytes (leAt data 26 1 % 16)) (2 ^ 30))
    (room : gibUsed (nvmeBegun t f q cid c s) + gib ≤ (nvmeBegun t f q cid c s).flash.usable)
    (writable : blkState (nvmeBegun t f q cid c s) pFTL ≠ 0x82) (unmirrored : leAt data 3072 1 ≠ 1)
    (lowest : ((List.range 256).find? fun i => (getNs (nvmeBegun t f q cid c s) (i + 1)).isNone) = some id) :
    exec (.nsCreate t f q cid data false) s = .next
      (let w := nvmeBegun t f q cid c s
       endNvme f { c with begun := true } 0 (id + 1) (newDeviceKey (id + 1)
         (putNs (id + 1) (askedNs data (freeBytes 16 w).1 gib w) (freeBytes 16 w).2))) := by
  obtain ⟨kind, format, group, protection, capacity, size⟩ := sound
  subst whole
  have own : (c.op == 0x0D && bitsOf (c.d 10) 0 4 != 1) = true := by simp [h.2.2, creates]
  have fields : ¬ (2 < leAt data 3072 1 ∨ 32 ≤ leAt data 26 1 ∨ leAt data 30 1 ≠ 0) := by omega
  have sizes : ¬ (leAt data 8 8 ≠ leAt data 0 8 ∨ leAt data 0 8 = 0) := by simp [capacity, size]
  rw [exec_nsCreate, execNsCreate, runNvme_admin h fun _ => own]
  simp only [NCmd.d_begun, creates, serves, settled, if_neg fields, protection, if_neg sizes, lowest, Nat.not_lt.mpr room, writable,
    unmirrored, ne_eq, not_true_eq_false, Bool.false_eq_true, Option.isSome_none, Option.isNone_some, or_self, false_and, if_false,
    Option.getD_some]
  simp only [askedNs, unmirrored, false_and, if_false]

theorem exec_nsDelete_one (h : AdminReady t f q cid 0x0D c s) (deletes : bitsOf (c.d 10) 0 4 = 1) (one : c.nsid ≠ 0xFFFFFFFF)
    (known : getNs (nvmeBegun t f q cid c s) c.nsid = some n) (formats : n.state ≠ 3) (sanitizes : n.state ≠ 4) :
    exec (.nsDelete t f q cid) s =
      .next (endNvme f { c with begun := true } 0 0 (dropNs c.nsid (nvmeBegun t f q cid c s))) := by
  have own : (c.op == 0x0D && bitsOf (c.d 10) 0 4 == 1) = true := by simp [h.2.2, deletes]
  rw [exec_nsDelete, execNsDelete, runNvme_admin h fun _ => own]
  simp [NCmd.nsid_begun, one, known, nsBusy_free formats sanitizes, firstBad]

section
variable (h : AdminReady t f q cid 0x15 c s) (known : getNs (nvmeBegun t f q cid c s) c.nsid = some n)
  (named : oneCtrl (nvmeBegun t f q cid c s) data = some id)
include h known named

theorem exec_nsAttach_free (attaches : bitsOf (c.d 10) 0 4 = 0) (state : n.state = 1) (kind : n.kind ≠ 2) (owned : n.owned = true) :
    exec (.nsAttach t f q cid data false) s = .next (endNvme f { c with begun := true } 0 0
      (nsChanged id c.nsid (putNs c.nsid { n with state := 2, ctrl := some id } (nvmeBegun t f q cid c s)))) := by
  have own : (c.op == 0x15 && bitsOf (c.d 10) 0 4 != 1) = true := by simp [h.2.2, attaches]
  rw [exec_nsAttach, execNsAttach, runNvme_admin h fun _ => own]
  simp [NCmd.d_begun, NCmd.nsid_begun, attaches, known, named, nsBusy, state, kind, owned]

theorem exec_nsDetach_attached (detaches : bitsOf (c.d 10) 0 4 = 1) (state : n.state = 2) (holds : n.ctrl = some id) :
    exec (.nsDetach t f q cid data false) s = .next (endNvme f { c with begun := true } 0 0
      (nsChanged id c.nsid (putNs c.nsid { n with state := 1, ctrl := none } (nvmeBegun t f q cid c s)))) := by
  have own : (c.op == 0x15 && bitsOf (c.d 10) 0 4 == 1) = true := by simp [h.2.2, detaches]
  rw [exec_nsDetach, execNsDetach, runNvme_admin h fun _ => own]
  simp [NCmd.nsid_begun, known, named, nsBusy, state, holds]

end

/-! ### Format and sanitize -/

theorem exec_formatNvm_sound (h : AdminReady t f q cid 0x80 c s) (known : getNs (nvmeBegun t f q cid c s) c.nsid = some n)
    (formats : n.state ≠ 3) (sanitizes : n.state ≠ 4) (serves : ftlReady (nvmeBegun t f q cid c s) = true)
    (writable : blkState (nvmeBegun t f q cid c s) pFTL ≠ 0x82) (erase : bitsOf (c.d 10) 9 3 ≤ 2)
    (format : formatOk (bitsOf (c.d 10) 0 4) (bitsOf (c.d 10) 5 3 + 8 * bitsOf (c.d 10) 8 1) = true) :
    exec (.formatNvm t f q cid) s =
      .next (putNs c.nsid { n with state := 3, former := n.state } (nvmeBegun t f q cid c s)) := by
  rw [exec_formatNvm, execFormatNvm, runNvme_admin h beq_iff_eq.mpr]
  simp [NCmd.d_begun, NCmd.nsid_begun, known, nsBusy_free formats sanitizes, serves, writable, Nat.not_lt.mpr erase, format]

/-- The namespace in the format that a Format NVM command asked for, back in its former state (R403). -/
def formattedNs (n : Ns) (e : NCmd) : Ns := { n with
  state := n.former, lbaf := bitsOf (e.d 10) 0 4, ext := bitOf (e.d 10) 4, dps := bitsOf (e.d 10) 5 3 + 8 * bitsOf (e.d 10) 8 1
  size := n.size * lbaBytes n.lbaf / lbaBytes (bitsOf (e.d 10) 0 4) }

theorem exec_formatDone_detached {e : NCmd} (known : getNs (atTime t s) nsid = some n) (formats : n.state = 3) (detached : n.ctrl = none)
    (keyKept : bitsOf (e.d 10) 9 3 ≠ 2)
    (found : ((atTime t s).nvme.ctrls.findSome? fun x =>
      (x.2.cmds.find? fun c => c.sq == 0 && c.op == 0x80 && c.begun && c.nsid == nsid).map fun c => (x.1, c)) = some (f, e)) :
    exec (.formatDone t nsid) s = .next (endNvme f e 0 0
      (wipeArea nsid (setFlash (putNs nsid (formattedNs n e) (atTime t s)) fun x => unmapRange nsid 0 (2 ^ 64) x))) := by
  simp only [exec_formatDone, execFormatDone, known, formats, found, detached, keyKept, formattedNs, ne_eq, not_true_eq_false, if_false]

theorem exec_sanitize_erases (h : AdminReady t f q cid 0x84 c s) (settled : (nvmeBegun t f q cid c s).nvme.sanitize = none)
    (noFormat : (nvmeBegun t f q cid c s).nvme.nss.any (fun x => x.2.state == 3) = false)
    (serves : ftlReady (nvmeBegun t f q cid c s) = true) (erases : bitsOf (c.d 10) 0 3 = 2 ∨ bitsOf (c.d 10) 0 3 = 4) :
    exec (.sanitize t f q cid) s = .next (endNvme f { c with begun := true } 0 0 (setNvme (nvmeBegun t f q cid c s) fun v => { v with
      sanitize := some (bitsOf (c.d 10) 0 3), sanStat := 2, sanCdw10 := c.d 10
      nss := v.nss.map fun x => (x.1, { x.2 with former := x.2.state, state := 4 }) })) := by
  rw [exec_sanitize, execSanitize, runNvme_admin h beq_iff_eq.mpr]
  rcases erases with action | action <;>
    simp [NCmd.d_begun, settled, noFormat, serves, action, -List.any_eq_false]

theorem exec_sanitizeDone_block (runs : s.nvme.sanitize = some 2) :
    exec (.sanitizeDone t) s = .next (asyncAll 6 1 0x81 (penBit pNVME 3 (setNvme
      (setFlash { atTime t s with ckpt := (atTime t s).ckpt.wiped } fun x => { x with map := [] }) fun v => { v with
        sanitize := none, sanStat := 1, nss := v.nss.map fun x => (x.1, { x.2 with state := x.2.former }) }))) := by
  simp only [exec_sanitizeDone, execSanitizeDone, atTime_nvme, runs]
  rfl

/-! ### Log pages -/

theorem exec_getLogPage_within {segs : List (Nat × Nat)} (h : AdminReady t f q cid 2 c s)
    (known : (logPage f (bitsOf (c.d 10) 0 8) (bitOf (c.d 10) 15) (nvmeBegun t f q cid c s)).1.1 = 0)
    (notSmart : bitsOf (c.d 10) 0 8 ≠ 2) (aligned : (c.d 12 + 2 ^ 32 * c.d 13) % 4 = 0)
    (within : c.d 12 + 2 ^ 32 * c.d 13 ≤
      (logPage f (bitsOf (c.d 10) 0 8) (bitOf (c.d 10) 15) (nvmeBegun t f q cid c s)).1.2.length) :
    exec (.getLogPage t f q cid segs false) s = .next
      (let page := logPage f (bitsOf (c.d 10) 0 8) (bitOf (c.d 10) 15) (nvmeBegun t f q cid c s)
       let len := 4 * (bitsOf (c.d 10) 16 16 + 65536 * bitsOf (c.d 11) 0 16 + 1)
       let off := c.d 12 + 2 ^ 32 * c.d 13
       let pad := freeBytes (min (segs.map (·.2)).sum len - (page.1.2.length - off)) page.2
       endNvme f { c with begun := true } 0 0 (dmaSegs f segs ((page.1.2.drop off).take len ++ pad.1) pad.2)) := by
  have offset : ¬ ((c.d 12 + 2 ^ 32 * c.d 13) % 4 ≠ 0 ∨
      (logPage f (bitsOf (c.d 10) 0 8) (bitOf (c.d 10) 15) (nvmeBegun t f q cid c s)).1.2.length < c.d 12 + 2 ^ 32 * c.d 13) := by omega
  rw [exec_getLogPage, execGetLogPage, runNvme_admin h beq_iff_eq.mpr]
  simp only [NCmd.d_begun, Bool.or_false, known, notSmart, if_neg offset, ne_eq, not_true_eq_false, false_and, Bool.false_eq_true, if_false]

/-! ### Firmware -/

theorem exec_firmwareImageDownload_piece (h : AdminReady t f q cid 0x11 c s) (pf0 : f = 0) (length : 4 * (c.d 10 + 1) % 4096 = 0)
    (offset : 4 * c.d 11 % 4096 = 0) (noUpdate : (nvmeBegun t f q cid c s).mgmt.update = none) :
    exec (.firmwareImageDownload t f q cid data false) s = .next (endNvme f { c with begun := true } 0 0 (setNvme
      (setMgmt (nvmeBegun t f q cid c s) fun m => { m with update := some { path := 2, done := [] } }) fun v => { v with
        image := mput v.image (4 * c.d 11) (data.take (4 * (c.d 10 + 1))) })) := by
  obtain rfl := pf0
  rw [exec_firmwareImageDownload, execFirmwareImageDownload, runNvme_admin h beq_iff_eq.mpr]
  simp only [NCmd.d_begun, length, offset, noUpdate, ne_eq, not_true_eq_false, or_self, Bool.false_eq_true, if_false]

theorem exec_firmwareImageDownload_elsewhere (h : AdminReady t f q cid 0x11 c s) (elsewhere : f ≠ 0) :
    exec (.firmwareImageDownload t f q cid data false) s =
      .next (endNvme f { c with begun := true } nv.OPCODE 0 (nvmeBegun t f q cid c s)) := by
  rw [exec_firmwareImageDownload, execFirmwareImageDownload, runNvme_admin h beq_iff_eq.mpr]
  exact congrArg _ (if_pos elsewhere)

/-- The downloaded pieces are used up, and with them the update they were (R404, R583). -/
def imageSpent (s : State) : State :=
  setMgmt (setNvme s fun n => { n with image := [] }) fun m => { m with
    update := match m.update with | some ⟨2, _⟩ => none | u => u }

/-- The image that the downloaded pieces make. -/
abbrev newImage (chk : ImgCheck) (s : State) : FwImage := parseImage (downloaded s.nvme.image) chk

section
variable {chk : ImgCheck} (h : AdminReady t f q cid 0x10 c s) (pf0 : f = 0) (noSplice : (nvmeBegun t f q cid c s).mgmt.splice = none)
  (named : bitsOf (c.d 10) 0 3 ≠ 0) (slot : bitsOf (c.d 10) 0 3 ≤ 2)
include h pf0 noSplice named slot

/-- Commit action 2 activates the image that is in the slot. -/
theorem exec_firmwareCommit_activates (action : bitsOf (c.d 10) 3 3 = 2)
    (intact : slotIntact (nvmeBegun t f q cid c s).mgmt (bitsOf (c.d 10) 0 3 - 1) = true) :
    exec (.firmwareCommit t f q cid chk) s = .next (endNvme f { c with begun := true } 0 0
      (raiseSlot (bitsOf (c.d 10) 0 3 - 1) (nvmeBegun t f q cid c s))) := by
  obtain rfl := pf0
  rw [exec_firmwareCommit, execFirmwareCommit, runNvme_admin h beq_iff_eq.mpr]
  simp [NCmd.d_begun, noSplice, action, named, Nat.not_lt.mpr slot, intact]

/-- Commit action 3 without a downloaded image splices to the one that is in the slot. -/
theorem exec_firmwareCommit_splices (action : bitsOf (c.d 10) 3 3 = 3)
    (spare : bitsOf (c.d 10) 0 3 - 1 ≠ (nvmeBegun t f q cid c s).mgmt.running) (noImage : (nvmeBegun t f q cid c s).nvme.image = []) :
    exec (.firmwareCommit t f q cid chk) s =
      .next (startSplice (bitsOf (c.d 10) 0 3 - 1) (some (f, c.num)) (nvmeBegun t f q cid c s)) := by
  obtain rfl := pf0
  rw [exec_firmwareCommit, execFirmwareCommit, runNvme_admin h beq_iff_eq.mpr]
  simp [NCmd.d_begun, noSplice, action, named, Nat.not_lt.mpr slot, spare, noImage]

/-- Commit actions 0 and 1 store the downloaded image, and 1 activates it. -/
theorem exec_firmwareCommit_stores (action : bitsOf (c.d 10) 3 3 < 2) (image : (nvmeBegun t f q cid c s).nvme.image ≠ [])
    (passes : imageOk (nvmeBegun t f q cid c s).mgmt (newImage chk (nvmeBegun t f q cid c s)) = true) :
    exec (.firmwareCommit t f q cid chk) s = .next (endNvme f { c with begun := true } 0 0
      (let w := nvmeBegun t f q cid c s
       let stored := storeSlot (bitsOf (c.d 10) 0 3 - 1) (newImage chk w) (imageSpent w)
       if bitsOf (c.d 10) 3 3 = 1 then raiseSlot (bitsOf (c.d 10) 0 3 - 1) stored else stored)) := by
  have known : ¬ 3 < bitsOf (c.d 10) 3 3 := by omega
  have noActivate : bitsOf (c.d 10) 3 3 ≠ 2 := by omega
  have noSplicing : bitsOf (c.d 10) 3 3 ≠ 3 := by omega
  obtain rfl := pf0
  rw [exec_firmwareCommit, execFirmwareCommit, runNvme_admin h beq_iff_eq.mpr]
  simp [NCmd.d_begun, noSplice, known, noActivate, noSplicing, named, Nat.not_lt.mpr slot, image, passes]
  rfl

end

end

/-- Settles O43: each clause is the branch of its command that the namespace, the medium and the command's fields select. -/
theorem nvmeNamespacesSanitizeAndFirmware : Obligations.NvmeNamespacesSanitizeAndFirmware := by
  intro t f q cid gib id nsid n c e data chk segs s
  dsimp only
  refine ⟨?creates, exec_nsDelete_one, ?attaches, ?detaches, exec_formatNvm_sound, exec_formatDone_detached, exec_sanitize_erases,
    exec_sanitizeDone_block, exec_getLogPage_within, exec_firmwareImageDownload_piece, exec_firmwareImageDownload_elsewhere, ?commits⟩
  case creates =>
    exact fun h creates serves settled kind format group protection capacity size =>
      exec_nsCreate_sound h creates serves settled ⟨kind, format, group, protection, capacity, size⟩
  case attaches =>
    exact fun h attaches known state kind owned named => exec_nsAttach_free h known named attaches state kind owned
  case detaches =>
    exact fun h detaches known state holds named => exec_nsDetach_attached h known named detaches state holds
  case commits =>
    intro h pf0 noSplice slot
    have named : bitsOf (c.d 10) 0 3 ≠ 0 := by omega
    have below : bitsOf (c.d 10) 0 3 ≤ 2 := by omega
    exact ⟨exec_firmwareCommit_activates h pf0 noSplice named below, exec_firmwareCommit_splices h pf0 noSplice named below,
      exec_firmwareCommit_stores h pf0 noSplice named below⟩

end Sys2Proof.Machine

/-! SUPPORT. I/O commands: writes, deallocation, reads, compares and flushes (R390 to R397, R401, R409, R422, R430). -/

namespace Sys2Proof.Machine

/-- A ready I/O command of an opcode, on a namespace attached to its controller, with the medium serving (R391, R396, R403). -/
abbrev IoReady (t f q cid op : Nat) (n : Ns) (c : NCmd) (s : State) : Prop :=
  NvmeReady t f q cid c s ∧ q ≠ 0 ∧ c.op = op ∧ getNs (nvmeBegun t f q cid c s) c.nsid = some n ∧
  ioStatus (nvmeBegun t f q cid c s) f { c with begun := true } = 0

/-- A command's range lies within its namespace and its transfer within the limit, and its protection fields fit (R382, R394). -/
abbrev Ranged (n : Ns) (c : NCmd) (moves : Bool) : Prop :=
  rangeStatus n { c with begun := true } moves = 0 ∧ piFieldStatus n { c with begun := true } = 0

section
variable {t f q cid op : Nat} {n : Ns} {c : NCmd} {data mdata : List Byte} {progs bad segs ranges : List (Nat × Nat)} {s : State}

theorem runNvme_io {ok : NCmd → Bool} {body : NCmd → State → State} (h : IoReady t f q cid op n c s)
    (fits : c.op = op → ok c = true) :
    runNvme t f q cid false ok body s = body { c with begun := true } (nvmeBegun t f q cid c s) :=
  runNvme_ready body h.1 (beq_eq_false_iff_ne.mpr h.2.1) (fits h.2.2.1)

/-! ### Writes -/

theorem exec_nvmeWrite_fetched (h : IoReady t f q cid 1 n c s) (ranged : Ranged n c true)
    (writable : changeStatus (nvmeBegun t f q cid c s) n = 0) (known : getNs (atTime t s) c.nsid = some n)
    (whole : (data.length, mdata.length) = wireBytes n c)
    (may : mayProgram (atTime t s) (c.blocks * lbaBytes n.lbaf) progs none = true)
    (passes : writePiStatus n { c with begun := true } (splitBlocks n { c with begun := true } data mdata).1
      (splitBlocks n { c with begun := true } data mdata).2 = 0) :
    exec (.nvmeWrite t f q cid data mdata false progs none) s = .next (beginProgram f
      { c with
        begun := true, data := (splitBlocks n { c with begun := true } data mdata).1
        pi := (splitBlocks n { c with begun := true } data mdata).2, kind := 0, ranges := [(c.lba, c.blocks)], place := none } progs
      (tagStage 3 (nvmeTag f q cid) 1 false (nvmeBegun t f q cid c s))) := by
  obtain ⟨range, fields⟩ := ranged
  have found : getNs s c.nsid = some n := known
  have placed : mayProgram s (c.blocks * lbaBytes n.lbaf) progs none = true := may
  rw [exec_nvmeWrite, execNvmeWrite, runNvme_io h fun op => by simp [op, found, whole, placed]]
  obtain ⟨-, -, -, served, status⟩ := h
  simp only [NCmd.nsid_begun, served, status, range, fields, writable, passes, firstBad, ne_eq, not_true_eq_false,
    Bool.false_eq_true, if_false]
  rfl

theorem exec_nvmeWrite_unfetched (h : IoReady t f q cid 1 n c s) (ranged : Ranged n c true)
    (writable : changeStatus (nvmeBegun t f q cid c s) n = 0) :
    exec (.nvmeWrite t f q cid data mdata true progs none) s =
      .next (endIo f { c with begun := true } nv.TRANSFER (nvmeFetchFail f (nvmeBegun t f q cid c s))) := by
  obtain ⟨range, fields⟩ := ranged
  rw [exec_nvmeWrite, execNvmeWrite, runNvme_io h fun op => by rw [op]; cases getNs s c.nsid <;> rfl]
  obtain ⟨-, -, -, served, status⟩ := h
  simp only [NCmd.nsid_begun, served, status, range, fields, writable, firstBad, ne_eq, not_true_eq_false, if_false, if_true]

theorem exec_writeZeroes_writes (h : IoReady t f q cid 8 n c s) (ranged : Ranged n c false)
    (writable : changeStatus (nvmeBegun t f q cid c s) n = 0) (known : getNs (atTime t s) c.nsid = some n)
    (writes : bitOf (c.d 12) 25 = false) (noPi : hasPi n = false)
    (may : mayProgram (atTime t s) (c.blocks * lbaBytes n.lbaf) progs none = true) :
    exec (.writeZeroes t f q cid progs none) s = .next (beginProgram f
      { c with
        begun := true, pi := if n.lbaf % 2 = 0 then [] else List.replicate (16 * c.blocks) 0, kind := 1
        ranges := [(c.lba, c.blocks)], place := none } progs (nvmeBegun t f q cid c s)) := by
  obtain ⟨range, fields⟩ := ranged
  have found : getNs s c.nsid = some n := known
  have placed : mayProgram s (c.blocks * lbaBytes n.lbaf) progs none = true := may
  rw [exec_writeZeroes, execWriteZeroes, runNvme_io h fun op => by simp [op, found, writes, placed]]
  obtain ⟨-, -, -, served, status⟩ := h
  simp only [NCmd.d_begun, NCmd.nsid_begun, served, status, range, fields, writable, writes, noPi, firstBad, ne_eq, not_true_eq_false,
    Bool.false_eq_true, not_false_eq_true, if_false, if_true]
  rfl

theorem exec_datasetManagement_deallocates (h : IoReady t f q cid 9 n c s) (deallocates : bitOf (c.d 11) 2 = true)
    (writable : changeStatus (nvmeBegun t f q cid c s) n = 0) (count : ranges.length = bitsOf (c.d 10) 0 8 + 1)
    (within : ranges.any (fun r => decide (n.size < r.1 + r.2)) = false) :
    exec (.datasetManagement t f q cid ranges false) s = .next (beginProgram f
      { c with begun := true, kind := 2, ranges := ranges } [] (nvmeBegun t f q cid c s)) := by
  rw [exec_datasetManagement, execDatasetManagement, runNvme_io h fun op => by simp [op, count]]
  obtain ⟨-, -, -, served, status⟩ := h
  simp only [NCmd.d_begun, NCmd.nsid_begun, served, status, within, deallocates, writable, firstBad, ne_eq, not_true_eq_false,
    Bool.false_eq_true, if_false, if_true]

/-! ### Programmed writes -/

/-- The begun command of this queue and CID whose programs are under way (R390). -/
abbrev Programming (f q cid : Nat) (c : NCmd) (s : State) : Prop :=
  ((getCtrl s f).cmds.find? fun c => c.sq == q && c.cid == cid && c.begun && !c.programmed && (mget s.flash.begun c.num).isSome) = some c

section
variable (found : Programming f q cid c (atTime t s)) (known : getNs (atTime t s) c.nsid = some n)
include found known

theorem exec_writeProgrammed_local (kind : n.kind ≠ 1) :
    exec (.writeProgrammed t f q cid) s = .next (landNvme f c false (atTime t s)) := by
  simp only [exec_writeProgrammed, execWriteProgrammed, found, known, kind, ne_eq, not_false_eq_true, if_true]

theorem exec_writeProgrammed_mirrored (kind : n.kind = 1) (synced : pairSynced (atTime t s) = true) (inSync : n.mirror = 0) :
    exec (.writeProgrammed t f q cid) s = .next (joinRecord f c (atTime t s)) := by
  simp only [exec_writeProgrammed, execWriteProgrammed, found, known, kind, synced, inSync, ne_eq, not_true_eq_false, if_false, and_self,
    if_true]

theorem exec_writeProgrammed_degraded (kind : n.kind = 1) (degraded : n.mirror = 1) (policy : n.policy = 0) :
    exec (.writeProgrammed t f q cid) s = .next (landNvme f c true (atTime t s)) := by
  simp only [exec_writeProgrammed, execWriteProgrammed, found, known, kind, degraded, policy, ne_eq, not_true_eq_false, one_ne_zero,
    zero_ne_one, and_false, if_false]

end

/-! ### Reads -/

/-- The status with which the blocks that a command names are read, and the state in which they were (R395, R396). -/
abbrev blocksStatus (n : Ns) (c : NCmd) (bad : List (Nat × Nat)) (s : State) : Nat × State :=
  readStatus n c (readBlocks n c bad s).1.2 (readBlocks n c bad s).2

theorem exec_nvmeRead_served (h : IoReady t f q cid 2 n c s) (ranged : Ranged n c true) :
    exec (.nvmeRead t f q cid segs false bad) s = .next
      (let b := { c with begun := true }
       let w := tagStage 3 (nvmeTag f q cid) 2 false (nvmeBegun t f q cid c s)
       let wire := readWire n b (readBlocks n b bad w).1.1
       let sent := dmaSegs f segs wire.1 (blocksStatus n b bad w).2
       endIo f b (blocksStatus n b bad w).1
         (if wire.2 = [] then sent else hostWrite f none true (c.d 4 + 2 ^ 32 * c.d 5) wire.2 sent)) := by
  obtain ⟨range, fields⟩ := ranged
  rw [exec_nvmeRead, execNvmeRead, runNvme_io h beq_iff_eq.mpr]
  obtain ⟨-, -, -, served, status⟩ := h
  simp only [NCmd.d_begun, NCmd.nsid_begun, served, status, range, fields, firstBad, ne_eq, not_true_eq_false, Bool.false_eq_true, if_false]

theorem exec_nvmeVerify_served (h : IoReady t f q cid 0x0C n c s) (ranged : Ranged n c false) :
    exec (.nvmeVerify t f q cid bad) s = .next
      (let b := { c with begun := true }
       let st := blocksStatus n b bad (nvmeBegun t f q cid c s)
       endIo f b st.1 st.2) := by
  obtain ⟨range, fields⟩ := ranged
  rw [exec_nvmeVerify, execNvmeVerify, runNvme_io h beq_iff_eq.mpr]
  obtain ⟨-, -, -, served, status⟩ := h
  simp only [NCmd.nsid_begun, served, status, range, fields, firstBad, ne_eq, not_true_eq_false, if_false]

theorem exec_nvmeCompare_sound (h : IoReady t f q cid 5 n c s) (ranged : Ranged n c true)
    (sound : (blocksStatus n { c with begun := true } bad (nvmeBegun t f q cid c s)).1 = 0) :
    exec (.nvmeCompare t f q cid data mdata false bad) s = .next
      (let b := { c with begun := true }
       let w := nvmeBegun t f q cid c s
       endIo f b (if readWire n b (readBlocks n b bad w).1.1 = (data, mdata) then 0 else nv.COMPARE) (blocksStatus n b bad w).2) := by
  obtain ⟨range, fields⟩ := ranged
  rw [exec_nvmeCompare, execNvmeCompare, runNvme_io h beq_iff_eq.mpr]
  obtain ⟨-, -, -, served, status⟩ := h
  simp only [NCmd.nsid_begun, served, status, range, fields, sound, firstBad, ne_eq, not_true_eq_false, Bool.false_eq_true, if_false]

theorem exec_nvmeFlush_served (h : IoReady t f q cid 0 n c s) :
    exec (.nvmeFlush t f q cid) s = .next (endIo f { c with begun := true } 0 (nvmeBegun t f q cid c s)) := by
  rw [exec_nvmeFlush, execNvmeFlush, runNvme_io h beq_iff_eq.mpr]
  obtain ⟨-, -, -, -, status⟩ := h
  simp only [status, ite_self]

end

/-- Settles O44: each clause is the branch of its command that the namespace, the range and the state of the pair select. -/
theorem nvmeReadsAndWrites : Obligations.NvmeReadsAndWrites := by
  intro t f q cid n c data mdata progs bad segs ranges s
  dsimp only
  exact ⟨exec_nvmeWrite_fetched, exec_nvmeWrite_unfetched, exec_writeZeroes_writes, exec_datasetManagement_deallocates,
    fun found known => ⟨exec_writeProgrammed_local found known, exec_writeProgrammed_mirrored found known,
      exec_writeProgrammed_degraded found known⟩,
    exec_nvmeRead_served, exec_nvmeVerify_served, exec_nvmeCompare_sound, exec_nvmeFlush_served⟩

end Sys2Proof.Machine

/-! SUPPORT. What reports, events and the log leave of the medium (R84, R100, R402, R425, R552 to R555). -/

namespace Sys2Proof.Machine

section
variable {s : State} {p : Page} {f i n : Nat}

theorem reportStable_flash (x : Flash) : ReportStable fun w => w.flash = x := ⟨fun _ h => h, fun h => h⟩

@[simp] theorem penBit_flash {b : Nat} : (penBit p b s).flash = s.flash := (reportStable_flash s.flash).penBit rfl

@[simp] theorem errInfo_flash {code detail : Nat} : (errInfo p code detail s).flash = s.flash :=
  (reportStable_flash s.flash).errInfo rfl

@[simp] theorem perfEvent_flash {code qual : Nat} : (perfEvent p code qual n s).flash = s.flash :=
  (reportStable_flash s.flash).perfEvent rfl

@[simp] theorem emitMsix_flash {vector : Nat} : (emitMsix f vector s).flash = s.flash := (reportStable_flash s.flash).emitMsix rfl

@[simp] theorem setFld_flash {off lo v : Nat} : (setFld s p off lo n v).flash = s.flash := by
  rw [setFld, setRegN, setReg_flash]

@[simp] theorem setDie_flash {d state cause family : Nat} : (setDie d state cause family s).flash = s.flash := by
  simp only [setDie, setFld_flash]

@[simp] theorem setBlkState_flash {v : Nat} : (setBlkState s p v).flash = s.flash := setFld_flash

@[simp] theorem fchCount_flash {ch : Nat} : (fchCount ch i n s).flash = s.flash := setReg_flash

@[simp] theorem putCtrl_flash {x : Ctrl} : (putCtrl f x s).flash = s.flash := rfl

/-! ### Completions and asynchronous events -/

theorem noteDirty_flash {pasid : Option Nat} {addr len : Nat} : (noteDirty f pasid addr len s).flash = s.flash := by
  unfold noteDirty
  dsimp only
  split
  · rfl
  · split_ifs
    · rw [setFld_flash]
    · rfl
    · rw [setFld_flash]; rfl

theorem windowPut_flash {off : Nat} {l : List Byte} : (windowPut f off l s).flash = s.flash := by
  unfold windowPut
  split_ifs <;> rfl

theorem postEntry_flash {loc addr : Nat} {bytes : List Byte} {e : Emit} : (postEntry f loc addr bytes e s).flash = s.flash := by
  unfold postEntry
  split
  · rfl
  · dsimp only
    split
    · exact windowPut_flash
    · exact noteDirty_flash

theorem cqSignal_flash {qid : Nat} : (cqSignal f qid s).flash = s.flash := by
  unfold cqSignal
  dsimp only
  split
  · rfl
  · split_ifs <;> simp

theorem putCqe_flash {qid : Nat} {dw : List Nat} : (putCqe f qid dw s).flash = s.flash := by
  unfold putCqe
  dsimp only
  split
  · rfl
  · split
    · rfl
    · rw [cqSignal_flash, postEntry_flash, putCtrl_flash]

/-- A completion that tells of no error. -/
theorem postNvme_ok_flash {sq cid dw0 : Nat} : (postNvme f sq cid 0 dw0 s).flash = s.flash := by
  unfold postNvme
  dsimp only
  split
  · rfl
  · rw [putCqe_flash, if_pos rfl]
    split <;> rfl

theorem asyncEvent_flash {ty info page : Nat} : (asyncEvent f ty info page s).flash = s.flash := by
  unfold asyncEvent
  dsimp only
  split
  · rw [postNvme_ok_flash, putCtrl_flash]
  · split_ifs <;> rfl

@[simp] theorem asyncAll_flash {ty info page : Nat} : (asyncAll ty info page s).flash = s.flash :=
  List.foldlRecOn (motive := fun w : State => w.flash = s.flash) _ _ rfl fun _ hw _ _ => asyncEvent_flash.trans hw

/-! ### The log -/

theorem setAlert_flash {bit : Nat} {on : Bool} : (setAlert bit on s).flash = s.flash := by
  unfold setAlert
  dsimp only
  split_ifs <;> rfl

theorem logMessage_flash {code : Nat} : (logMessage code s).flash = s.flash := by
  unfold logMessage platformEvent
  dsimp only
  split
  · rfl
  · split
    · rfl
    · split_ifs <;> rfl

theorem logEvent_flash {code : Nat} {page : Option Page} {detail : List Nat} : (logEvent code page detail s).flash = s.flash := by
  have report {w : State} {bit : Nat} (hw : w.flash = s.flash) :
      (logMessage code (setAlert 4 true (penBit pMSS bit w))).flash = s.flash := by
    rw [logMessage_flash, setAlert_flash, penBit_flash, hw]
  unfold logEvent
  dsimp only
  split
  · exact report rfl
  · split
    · exact report rfl
    · rfl

end

end Sys2Proof.Machine

/-! SUPPORT. The flash medium: reads, lost dies, folds, rebuilds, wear levelling and the recovery at power-up (R405, R413 to R432). -/

namespace Sys2Proof.Machine

section
variable {t die block step entry bits pos page f cq k : Nat} {final : Bool} {b : LBlk} {q : NCq} {s : State}

/-! ### Reads -/

theorem exec_mediumRead_served {staged found : Bool} (below : die < 1024) (serves : ftlReady s = true)
    (ok : stepOk s die step entry = true) : exec (.mediumRead t die block step entry bits staged found) s =
      .next (mediumRead t die block step entry bits staged found (atTime t s)) :=
  congrArg _ (if_pos ⟨below, serves, ok⟩)

theorem fchCount_power {ch i n : Nat} : (fchCount ch i n s).power = s.power := setReg_power

theorem perfEvent_power {p : Page} {code qual n : Nat} : (perfEvent p code qual n s).power = s.power :=
  ReportStable.perfEvent (P := fun w => w.power = s.power) ⟨fun _ h => h, fun h => h⟩ rfl

theorem backgroundOn_quiesced {w : State} (quiet : quiescing s = true) (same : w.power = s.power) : ¬ backgroundOn w = true := by
  have quiesced : quiescing w = true := by rw [quiescing, same]; exact quiet
  simp [backgroundOn, quiesced]

/-- A read that decodes at step 1 in a quiesce is counted, and nothing is refreshed (R419, R431). -/
theorem mediumRead_quiesced (quiet : quiescing s = true) : mediumRead t die block 1 entry bits false false s =
    putBlock die block { getBlock s die block with reads := (getBlock s die block).reads + 1, staging := false }
      (setFlash (fchCount (dieCh die) 6 0 (fchCount (dieCh die) 5 0 (fchCount (dieCh die) 4 0 (fchCount (dieCh die) 3 0
        (perfEvent (pFCH (dieCh die)) 0x100 0xFF 1 (fchCount (dieCh die) 0 1 s))))))
        fun f => { f with recovery := List.zipWith (· + ·) f.recovery [0, 0, 0, 0] }) := by
  refine if_pos (backgroundOn_quiesced quiet ?_)
  rw [putBlock, setFlash_power, setFlash_power, if_neg (by decide : ¬ 4 ≤ 1)]
  simp only [fchCount_power, perfEvent_power]

theorem exec_patrolRead_background (below : die < 1024) (background : backgroundOn s = true)
    (ok : stepOk s die step entry = true) : exec (.patrolRead t die block step entry bits false) s =
      .next (mediumRead t die block step entry bits (getBlock s die block).staging false (atTime t s)) :=
  congrArg _ (if_pos ⟨below, background, ok⟩)

/-! ### Failures and wear -/

theorem exec_dieUnresponsive_serving (below : die < 1024) (serves : ftlReady s = true) :
    exec (.dieUnresponsive t die) s = .next (loseDie die false (atTime t s)) :=
  congrArg _ (if_pos ⟨below, serves⟩)

/-- A block that failed is counted and shown on its channel, and retired (R427). -/
def blockFailed (t die block i bit code : Nat) (s : State) : State :=
  retireBlock t die block (errInfo (pFCH (dieCh die)) code (diePos die)
    (penBit (pFCH (dieCh die)) bit (fchCount (dieCh die) i 1 s)))

theorem exec_programFail_inUse (below : die < 1024) (serves : ftlReady s = true) (inUse : dieState s die = 1) :
    exec (.programFail t die block) s = .next (blockFailed t die block 7 1 3 (atTime t s)) :=
  congrArg _ (if_pos ⟨below, inUse, serves⟩)

theorem exec_eraseFail_inUse (below : die < 1024) (serves : ftlReady s = true) (inUse : dieState s die = 1) :
    exec (.eraseFail t die block) s = .next (blockFailed t die block 8 2 4 (atTime t s)) :=
  congrArg _ (if_pos ⟨below, inUse, serves⟩)

theorem exec_wlMove_beyond (below : die < 1024) (background : backgroundOn s = true)
    (beyond : fld s pFTL R.FTL.WL 0 16 <
      (eraseSpan (getBlock s die block).staging s).1 - (eraseSpan (getBlock s die block).staging s).2)
    (least : (getBlock s die block).erases = (eraseSpan (getBlock s die block).staging s).2) :
    exec (.wlMove t die block) s = .next (eraseBlock die block (setFlash (ftlCount 3 1 (atTime t s)) fun f =>
      { f with medBytes := f.medBytes + famMib f.family * 2 ^ 20 })) :=
  congrArg _ (if_pos ⟨below, background, beyond, least⟩)

theorem exec_rebuildDone_full (lost : s.flash.rebuild.contains die = true) :
    exec (.rebuildDone t die 0 true) s = .next (checkSpares false (enterReadOnly (atTime t s))) :=
  congrArg _ ((if_neg (not_not_intro lost)).trans (if_pos rfl))

theorem exec_interruptCoalescingExpiry_over (known : mget (getCtrl s f).cqs cq = some q) (held : q.held ≠ 0)
    (passed : q.heldAt + bitsOf (getCtrl s f).coal 8 8 * 100000 ≤ t) :
    exec (.interruptCoalescingExpiry t f cq) s = .next (emitMsix f q.vec
      (putCtrl f { getCtrl s f with cqs := mput (getCtrl s f).cqs cq { q with held := 0 } } (atTime t s))) := by
  have ends : ¬ (q.held = 0 ∨ t < q.heldAt + bitsOf (getCtrl s f).coal 8 8 * 100000) := by omega
  have same : getCtrl (atTime t s) f = getCtrl s f := rfl
  simp only [exec_interruptCoalescingExpiry, execInterruptCoalescingExpiry, same, known, if_neg ends]

/-! ### Folds -/

theorem rejoin_map : (rejoin pos s).flash.map = s.flash.map := by
  unfold rejoin
  refine ReportStable.forN (P := fun w => w.flash.map = s.flash.map) (fun ch _ w hw => ?_) rfl
  dsimp only
  split
  · split_ifs
    · rw [setDie_flash]; exact hw
    · exact hw
  · exact hw

theorem foldRow_map : (foldRow pos s).flash.map = s.flash.map := by
  unfold foldRow
  refine ReportStable.forN (P := fun w => w.flash.map = s.flash.map) (fun ch _ w hw => ?_) rejoin_map
  split_ifs
  · rw [perfEvent_flash, fchCount_flash]; exact hw
  · exact hw

section
variable (background : backgroundOn s = true) (below : pos < 32) (inUse : bitOf s.flash.inUse pos = true)
include background below inUse

theorem not_fold_elsewhere : ¬ (¬ backgroundOn s = true ∨ 32 ≤ pos ∨ ¬ bitOf s.flash.inUse pos = true) := by
  simp [background, below, inUse]

theorem exec_fold_nothing : exec (.fold t pos (block, page) step final []) s = .next (foldRow pos (atTime t s)) :=
  congrArg _ (if_neg (not_fold_elsewhere background below inUse))

/-- A block whose sequence still holds moves to the row, which is programmed unless the block already lies there (R420, R422). -/
theorem exec_fold_block (mapped : mget s.flash.map (k * 2 ^ 64 + bits) = some b) :
    exec (.fold t pos (block, page) step final [(k, bits, b.seq)]) s = .next
      (setFlash (if b.folded = some (pos, block, page) then atTime t s else foldRow pos (atTime t s)) fun f => { f with
        map := mput f.map (k * 2 ^ 64 + bits) { b with
          folded := some (pos, block, page), staged := if final = true ∧ step ≤ 2 then none else b.staged } }) := by
  have here : mget (atTime t s).flash.map (k * 2 ^ 64 + bits) = some b := mapped
  have kept : mget (foldRow pos (atTime t s)).flash.map (k * 2 ^ 64 + bits) = some b := by rw [foldRow_map, here]
  refine congrArg _ ((if_neg (not_fold_elsewhere background below inUse)).trans ?_)
  simp only [List.any_cons, List.any_nil, Bool.or_false, List.foldl_cons, List.foldl_nil, here, beq_self_eq_true, Bool.true_and,
    beq_iff_eq]
  by_cases there : b.folded = some (pos, block, page)
  · simp only [there, if_true, here, ne_eq, not_true_eq_false, if_false]
  · simp only [there, kept, ne_eq, not_true_eq_false, if_false]

end

end

end Sys2Proof.Machine

/-! SUPPORT. The recovery at power-up and what earlier power-ups left in the medium (R413 to R417, R432). -/

namespace Sys2Proof.Machine

/-- What power-ups leave in the medium: the root records, whether the last one was unclean, its time, and the counts (R432). -/
def Flash.powerRecord (x : Flash) : List (Option Nat) × Bool × Nat × List Nat := (x.roots, x.unclean, x.lastMs, x.powerUps)

section
variable {t d p : Nat} {s : State}

/-! ### What keeps the record -/

theorem updateWarn_powerRecord : (updateWarn s).flash.powerRecord = s.flash.powerRecord := by
  unfold updateWarn
  dsimp only
  split
  · rfl
  · rw [asyncAll_flash]; rfl

theorem enterReadOnly_flash : (enterReadOnly s).flash = s.flash := by
  unfold enterReadOnly
  split
  · rfl
  · rw [penBit_flash, setBlkState_flash]

theorem checkSpares_powerRecord {low : Bool} : (checkSpares low s).flash.powerRecord = s.flash.powerRecord := by
  unfold checkSpares
  dsimp only
  rw [updateWarn_powerRecord]
  split_ifs <;> simp only [enterReadOnly_flash, penBit_flash]

theorem losePosition_powerRecord : (losePosition p s).flash.powerRecord = s.flash.powerRecord := by
  refine List.foldlRecOn (motive := fun w : State => w.flash.powerRecord = s.flash.powerRecord) _ _ ?_ fun w hw r _ => ?_
  · rw [errInfo_flash, penBit_flash]; rfl
  · rw [logEvent_flash, hw]

theorem loseDie_powerRecord {back : Bool} : (loseDie d back s).flash.powerRecord = s.flash.powerRecord := by
  unfold loseDie
  split
  · rfl
  · extract_lets low second staged marked shown dropped reported grouped ended
    have keptReported : reported.flash.powerRecord = s.flash.powerRecord := by
      simp only [reported, dropped, shown, marked, penBit_flash, errInfo_flash, setDie_flash, setFlash_flash]
      rfl
    have keptGrouped : grouped.flash.powerRecord = s.flash.powerRecord := by
      unfold grouped
      split_ifs
      · rw [losePosition_powerRecord, keptReported]
      · exact keptReported
    rw [checkSpares_powerRecord]
    unfold ended
    split_ifs
    · rw [setBlkState_flash, keptGrouped]
    · exact keptGrouped

theorem takeLayout_init : (takeLayout s).flash.init = s.flash.init := by
  unfold takeLayout
  dsimp only
  split_ifs
  · rfl
  · rw [penBit_flash]
  · rfl

theorem takeLayout_powerRecord : (takeLayout s).flash.powerRecord = s.flash.powerRecord := by
  unfold takeLayout
  dsimp only
  split_ifs
  · rfl
  · rw [penBit_flash]
  · rfl

theorem initMedium_powerRecord {family : Nat} {l : List DieFound} :
    (initMedium family l s).flash.powerRecord = s.flash.powerRecord := by
  unfold initMedium
  dsimp only
  split_ifs <;> rfl

theorem placeDies_powerRecord {found : List DieFound} : (placeDies found s).flash.powerRecord = s.flash.powerRecord := by
  unfold placeDies
  refine List.foldlRecOn (motive := fun w : State => w.flash.powerRecord = s.flash.powerRecord) _ _ rfl fun w hw e _ => ?_
  dsimp only
  split_ifs
  · rw [setDie_flash]; exact hw
  · rw [setDie_flash]; exact hw
  · rw [loseDie_powerRecord, setDie_flash]; exact hw

/-! ### Recovery -/

/-- The medium once a recovery that finds no die has looked at its layout and its positions (R414, R417, R423). -/
def surveyedBare (s : State) : State :=
  placeDies [] (if (!(takeLayout s).flash.init) = true then initMedium (mediumFamily s []) [] (takeLayout s) else takeLayout s)

theorem surveyedBare_powerRecord : (surveyedBare s).flash.powerRecord = s.flash.powerRecord := by
  unfold surveyedBare
  rw [placeDies_powerRecord]
  split_ifs
  · rw [initMedium_powerRecord, takeLayout_powerRecord]
  · rw [takeLayout_powerRecord]

/-- A power-up that took no time is counted, and the root records are taken and cleared (R432). -/
def countPowerUp (clean : Bool) (s : State) : State := setFlash s fun f => { f with
  roots := [none, none], unclean := !clean, lastMs := 0
  powerUps := if clean then [f.powerUps.getD 0 0 + 1, f.powerUps.getD 1 0] else [f.powerUps.getD 0 0, f.powerUps.getD 1 0 + 1] }

/-- A recovery that finds no die and no valid record. -/
def recoveredBare (s : State) : State :=
  let fresh := !(takeLayout s).flash.init
  let counted := countPowerUp fresh (if fresh = true then surveyedBare s else penBit pFTL 2 (surveyedBare s))
  checkSpares false (setBlkState counted pFTL (if counted.flash.rebuild = [] then 1 else 0x81))

theorem exec_ftlRecovery_elsewhere (elsewhere : blkState s pFTL ≠ 0x80) :
    exec (.ftlRecovery t [] false false false 0 0) s = .next (atTime t s) :=
  congrArg _ (if_pos elsewhere)

theorem exec_ftlRecovery_bare (recovers : blkState s pFTL = 0x80) :
    exec (.ftlRecovery t [] false false false 0 0) s = .next (recoveredBare (atTime t s)) :=
  congrArg _ (if_neg (not_not_intro recovers))

/-- A recovery without a valid record counts the power-up as clean on a fresh medium alone. -/
theorem recoveredBare_powerRecord : (recoveredBare s).flash.powerRecord =
    ([none, none], s.flash.init, 0, if s.flash.init = true then [s.flash.powerUps.getD 0 0, s.flash.powerUps.getD 1 0 + 1]
      else [s.flash.powerUps.getD 0 0 + 1, s.flash.powerUps.getD 1 0]) := by
  have counts : (surveyedBare s).flash.powerUps = s.flash.powerUps := congrArg (·.2.2.2) surveyedBare_powerRecord
  unfold recoveredBare
  dsimp only
  rw [checkSpares_powerRecord, setBlkState_flash, takeLayout_init]
  cases s.flash.init <;> simp [countPowerUp, Flash.powerRecord, counts]

end

/-- Settles O41: each clause is the branch of its command that the state of the FTL and the die select; a recovery keeps the counts of
the power-ups before it. -/
theorem flashMediumAndItsCare : Obligations.FlashMediumAndItsCare := by
  intro t die block step entry bits pos page f cq k final b q s below
  dsimp only
  refine ⟨exec_mediumRead_served below, ?quiet, exec_patrolRead_background below, exec_dieUnresponsive_serving below,
    fun serves inUse => ⟨exec_programFail_inUse below serves inUse, exec_eraseFail_inUse below serves inUse⟩,
    exec_fold_nothing, exec_fold_block, exec_rebuildDone_full, exec_wlMove_beyond below, exec_ftlRecovery_elsewhere, ?recovery,
    exec_interruptCoalescingExpiry_over⟩
  case quiet =>
    exact fun serves quiet => (exec_mediumRead_served below serves rfl).trans (congrArg _ (mediumRead_quiesced quiet))
  case recovery =>
    intro recovers
    have record := recoveredBare_powerRecord (s := atTime t s)
    simp only [Flash.powerRecord, Prod.mk.injEq] at record
    obtain ⟨roots, unclean, time, counts⟩ := record
    exact ⟨_, exec_ftlRecovery_bare recovers, roots, time, unclean, counts⟩

end Sys2Proof.Machine

/-! SUPPORT. What a step carries out, and what every command keeps (R227, R553). -/

namespace Sys2Proof.Machine

/-- Settles O55: on an empty queue nothing is carried out. -/
theorem stepRunsTheFrontCommand : Obligations.StepRunsTheFrontCommand := by
  intro c rest s
  constructor
  · intro front
    simp only [step, front]
  · intro empty
    simp only [step, empty]

/-- Settles O56: `exec_keeps` says it of every command, together with what else a command keeps. -/
theorem everyCommandAnswersKeepsTheQueueAndOnlyAppends : Obligations.EveryCommandAnswersKeepsTheQueueAndOnlyAppends := by
  intro c s
  have answers : OutKeeps s (exec c s) := exec_keeps (Keeps.refl s)
  generalize exec c s = outcome at answers
  obtain ⟨-, -, -, queue, sent, drawn⟩ := answers
  exact ⟨_, rfl, queue, sent, drawn⟩

end Sys2Proof.Machine

/-! SUPPORT. The checkpoint group is formed, shrunk and left, and its sessions are opened, started, given up and closed (R436 to R447,
R465 to R468). -/

namespace Sys2Proof.Machine

section
variable {k : CmdRef} {c : SvcCmd} {g : CkGroup} {m : CkMsg} {x : CkSession} {s : State}

/-! ### Forming -/

/-- A message of the group that no check discards is taken with what UNIT_ID its sender's rank has. -/
theorem ckTake_group {t : Nat} {f : CkGroup → Option Nat → State → State} (on : ckptOn (atTime t s) = true)
    (group : s.ckpt.group = some g) (id : m.group = g.id) (format : m.format = 1) :
    ckTake t m f s = f g (ckUid g m.sender) (atTime t s) := by
  have group' : (atTime t s).ckpt.group = some g := group
  have ours : ¬ (m.group ≠ g.id ∨ m.format ≠ 1) := not_or.mpr ⟨not_not_intro id, not_not_intro format⟩
  simp only [ckTake, if_neg (not_not_intro on), group', if_neg ours]

/-- A HELLO names the parameters and the members that this device's own descriptor has (R438). -/
abbrev HelloMatches (g : CkGroup) (body : List Byte) : Prop :=
  leAt body 0 1 = leAt g.head 0 1 ∧ leAt body 1 2 = leAt g.head 1 2 ∧ leAt body 5 2 = leAt g.head 5 2 ∧
    leAt body 7 4 = leAt g.head 7 4 ∧ leAt body 15 4 = leAt g.head 15 4 ∧ (body.drop 19).take 32 = memberDigest g

theorem exec_groupForm_offence {desc : List Byte} {i : Nat} (h : SvcReady k 0x50 c s)
    (bad : groupOffence s (groupDesc c s desc) = some i) :
    exec (.groupForm k desc) s = .next (complete c st.INVALID_FIELD (0x100 + i) s) :=
  congrArg _ (runSvc_refused h (by simp only [bad, Option.map_some]))

theorem exec_groupForm_sound {desc : List Byte} (h : SvcReady k 0x50 c s) (free : blkFenced s pCKPT = false)
    (sound : groupOffence s (groupDesc c s desc) = none) (none_ : ckptMode s = 0x80) (area : s.ckpt.areaNs.isSome = true) :
    exec (.groupForm k desc) s = .next (markBegun c
      (ckTell (fun _ => true) 1 0 (groupOf (groupDesc c s desc) s.now).rank
        ((groupOf (groupDesc c s desc) s.now).head ++ memberDigest (groupOf (groupDesc c s desc) s.now))
        (setCkptMode 0x81 (setCkpt s fun x => { x with group := some (groupOf (groupDesc c s desc) s.now), lostPend := [] })))) := by
  refine congrArg _ (runSvc_waits h (by simp only [sound, Option.map_none]) free ?_)
  simp only [if_neg (not_not_intro none_), if_pos area]

section
variable {t i : Nat} {body : List Byte} (on : ckptOn (atTime t s) = true) (group : s.ckpt.group = some g) (id : m.group = g.id)
  (format : m.format = 1) (forming : g.formed = false) (other : m.sender ≠ g.rank)
include on group id format forming other

/-- A HELLO of another rank joins it where the rank is the sender's and the parameters agree; else the forming fails. -/
theorem exec_hello_other : exec (.hello t m i body) s = .next
    (if ckUid g m.sender = some i ∧ HelloMatches g body then
      setCkpt (atTime t s) fun c => { c with group := some { g with hello := addSorted m.sender g.hello } }
     else formFails ck.MISMATCH m.sender (atTime t s)) := by
  have takes : ¬ (g.formed = true ∨ m.sender = g.rank) := by simp [forming, other]
  rw [exec_hello, execHello, ckTake_group on group id format]
  simp only [if_neg takes, beq_iff_eq]

end

theorem exec_groupFormTimeout_over {t : Nat} (group : s.ckpt.group = some g) (forming : g.formed = false)
    (past : g.formAt + 10000000000 ≤ t) :
    exec (.groupFormTimeout t) s = .next (formFails st.TIMEOUT 0 (atTime t s)) := by
  have group' : (atTime t s).ckpt.group = some g := group
  have ends : ¬ g.formed = true ∧ g.formAt + 10000000000 ≤ t := ⟨Bool.eq_false_iff.mp forming, past⟩
  simp only [exec_groupFormTimeout, execGroupFormTimeout, group', if_pos ends]

/-! ### A formed group -/

/-- The group is formed (R439). -/
abbrev Formed (g : CkGroup) (s : State) : Prop := s.ckpt.group = some g ∧ ckptMode s = 0x82 ∧ g.formed = true

theorem formedOnly_formed {f : CkGroup → SvcEnd} (group : s.ckpt.group = some g) (mode : ckptMode s = 0x82) :
    formedOnly s f = f g := by
  simp only [formedOnly, group, if_pos mode]

theorem Formed.formedOnly {f : CkGroup → SvcEnd} (formed : Formed g s) : formedOnly s f = f g :=
  formedOnly_formed formed.1 formed.2.1

theorem Formed.shrinkOffence (formed : Formed g s) : shrinkOffence c s = if shrinkOk g (c.d 4) = true then none else some 16 := by
  obtain ⟨group, -, whole⟩ := formed
  simp only [Machine.shrinkOffence, group, whole, not_true_eq_false, false_or]

section
variable (free : blkFenced s pCKPT = false) (formed : Formed g s)
include free formed

theorem exec_groupShrink_removable (h : SvcReady k 0x51 c s) (removable : shrinkOk g (c.d 4) = true) :
    exec (.groupShrink k) s = .next (markBegun c s) :=
  congrArg _ (runSvc_waits h (formed.shrinkOffence.trans (if_pos removable)) free formed.formedOnly)

omit free in
theorem exec_groupShrink_kept (h : SvcReady k 0x51 c s) (kept : shrinkOk g (c.d 4) = false) :
    exec (.groupShrink k) s = .next (complete c st.INVALID_FIELD 16 s) :=
  congrArg _ (runSvc_refused h (formed.shrinkOffence.trans (if_neg (Bool.eq_false_iff.mp kept))))

theorem exec_groupLeave_formed (h : SvcReady k 0x52 c s) : exec (.groupLeave k) s = .next
    (if s.ckpt.sessions.any (fun e => sessBusy e.2) = true then complete c ck.BUSY 0 s
     else complete c st.OK 0 (dropGroup (finishCmds (fun c => c.op == 0x51 || c.op == 0x57 || c.op == 0x58) st.ABORTED 0 s))) := by
  split_ifs with busy
  · exact congrArg _ (runSvc_completes h rfl free (formed.formedOnly.trans (if_pos busy)))
  · exact congrArg _ (runSvc_completes h rfl free (formed.formedOnly.trans (if_neg busy)))

/-! ### Sessions -/

section
variable (h : SvcReady k 0x53 c s) (sound : sessionOffence c s = none) (absent : getSess s c.obj = none)
include h sound absent

theorem exec_sessionOpen_capture (capture : c.d 4 ≠ 2) : exec (.sessionOpen k) s = .next
    (if c.q 5 ≤ reg64 s pCKPT R.CKPT.LAST_COMMIT_LO ∨ s.ckpt.sessions.any (fun e => e.2.step == c.q 5) = true then
      complete c ck.EXISTS 0 s
     else complete c st.OK 0 (putSess c.obj (newSession c 0) s)) := by
  rw [exec_sessionOpen, execSessionOpen, runSvc_ready _ _ _ h]
  simp only [sound, ckFenced, free, formed.formedOnly, absent, Option.isSome_none, Bool.false_eq_true, if_false, if_pos capture]
  split_ifs <;> rfl

theorem exec_sessionOpen_restore (restore : c.d 4 = 2) (selected : s.ckpt.selected = some (c.q 5)) (named : bitOf (c.d 10) 16 = true) :
    exec (.sessionOpen k) s = .next (complete c st.OK 0 (putSess c.obj (newSession c (bitsOf (c.d 10) 0 16)) s)) := by
  refine congrArg _ (runSvc_completes h sound free (formed.formedOnly.trans ?_))
  simp only [absent, Option.isSome_none, Bool.false_eq_true, if_false, if_neg (not_not_intro restore),
    if_neg (not_not_intro selected), if_pos named]

end

section
variable (h : SvcReady k 0x54 c s) (open_ : getSess s c.obj = some x) (new : x.state = 1)
include h open_ new

theorem exec_sessionStart_busy (refused : startRefused s c.obj x = true) :
    exec (.sessionStart k) s = .next (complete c ck.BUSY 0 s) := by
  refine congrArg _ (runSvc_completes h rfl free (formed.formedOnly.trans ?_))
  simp only [open_, if_neg (not_not_intro new), if_pos refused]

/-- A capture session is ARMED where the staging room holds its regions (R443, R447). -/
theorem exec_sessionStart_capture (clear : startRefused s c.obj x = false) (capture : x.mode ≠ 2) : exec (.sessionStart k) s = .next
    (if max 16 (min 512 (fld s pCKPT R.CKPT.CFG 0 16)) * 2 ^ 30 < ((tableRegions s x).map (·.len)).sum + s.ckpt.stageBytes then
      complete c st.NO_RESOURCE 0 s
     else markBegun c (putSess c.obj { x with
      state := 2, at_ := c.q 4, stage := ((tableRegions s x).map (·.len)).sum, uids := g.members.map (·.uid), p := g.p
      unit := g.unit, self := g.rank, lost := g.lost.filterMap (ckUid g) } s)) := by
  rw [exec_sessionStart, execSessionStart, runSvc_ready _ _ _ h]
  simp only [noInv, ckFenced, free, formed.formedOnly, open_, if_neg (not_not_intro new), if_neg (Bool.eq_false_iff.mp clear),
    capture, ne_eq, not_false_eq_true, true_and, Bool.false_eq_true, if_false, if_true]
  split_ifs <;> rfl

theorem exec_sessionStart_restore {man : List Byte} (clear : startRefused s c.obj x = false) (restore : x.mode = 2)
    (sound : x.fail = none) (shape : shapeBad man (tableRegions s x) = false)
    (held : (s.ckpt.manifests.find? fun b => manGroup b == g.id && manStep b == x.step && manRank b == x.rank && manIntact s b) = some man) :
    exec (.sessionStart k) s = .next (markBegun c (putSess c.obj { x with
      state := 9, regions := tableRegions s x, self := x.rank, manifest := some man } s)) := by
  refine congrArg _ (runSvc_waits h rfl free (formed.formedOnly.trans ?_))
  simp only [open_, if_neg (not_not_intro new), if_neg (Bool.eq_false_iff.mp clear), restore, ne_eq, not_true_eq_false, false_and,
    if_false, held, shape, sound, Option.isSome_none, Bool.false_eq_true]

end

end

section
variable (free : blkFenced s pCKPT = false) (open_ : getSess s c.obj = some x)
include free open_

theorem exec_sessionAbort_present (h : SvcReady k 0x55 c s) : exec (.sessionAbort k) s = .next
    (if sessBusy x = true then markBegun c (failLater c.obj 9 s) else complete c st.STATE_CONFLICT 0 s) := by
  rw [exec_sessionAbort, execSessionAbort, runSvc_ready _ _ _ h]
  simp only [noInv, ckFenced, free, open_, Bool.false_eq_true, if_false]
  split_ifs <;> rfl

theorem exec_sessionClose_present (h : SvcReady k 0x56 c s) : exec (.sessionClose k) s = .next
    (if sessBusy x = true then complete c st.STATE_CONFLICT 0 s
     else complete c st.OK 0 (setCkpt s fun f => { f with sessions := mdel f.sessions c.obj })) := by
  rw [exec_sessionClose, execSessionClose, runSvc_ready _ _ _ h]
  simp only [noInv, ckFenced, free, open_, Bool.false_eq_true, if_false]
  split_ifs <;> rfl

end

theorem exec_captureTimeout_over {t i a : Nat} (only : s.ckpt.sessions = [(i, x)]) (began : x.atNs = some a) (least : 2 ≤ x.state)
    (most : x.state ≤ 4) (past : a + captureNs s ≤ t) :
    exec (.captureTimeout t) s = .next (failLater i 4 (atTime t s)) := by
  have only' : (atTime t s).ckpt.sessions = [(i, x)] := only
  have late : (2 ≤ x.state ∧ x.state ≤ 4 ∧ a + captureNs (atTime t s) ≤ t) ∨
      (2 ≤ x.state ∧ x.state ≤ 6 ∧ a + commitNs (atTime t s) ≤ t) := .inl ⟨least, most, past⟩
  simp only [exec_captureTimeout, execCaptureTimeout, only', List.foldl_cons, List.foldl_nil, began, if_pos late]

end

/-- Settles O48: each clause is the branch of its command that the group's and the session's states select. -/
theorem checkpointGroupAndSessions : Obligations.CheckpointGroupAndSessions := by
  intro t uid i a k c desc body man g m x s u ready formed described agrees regions total room opened
  refine ⟨fun ⟨h, _⟩ => exec_groupForm_offence h, fun ⟨h, free⟩ => exec_groupForm_sound h free, ?joins, ?differs, ?stranger,
    exec_groupFormTimeout_over, fun ⟨h, free⟩ whole => exec_groupShrink_removable free whole h,
    fun ⟨h, _⟩ whole => exec_groupShrink_kept whole h, fun ⟨h, free⟩ whole => exec_groupLeave_formed free whole h,
    fun ⟨h, free⟩ whole => exec_sessionOpen_capture free whole h, fun ⟨h, free⟩ whole => exec_sessionOpen_restore free whole h,
    ?armed, ?full, fun ⟨h, free⟩ whole ⟨open_, new, clear⟩ => exec_sessionStart_restore free whole h open_ new clear,
    fun ⟨h, free⟩ whole => exec_sessionStart_busy free whole h,
    fun ⟨h, free⟩ open_ => exec_sessionAbort_present free open_ h, fun ⟨h, free⟩ open_ => exec_sessionClose_present free open_ h,
    exec_captureTimeout_over⟩
  case joins =>
    rintro ⟨on, group, id, format, sender⟩ forming other agree
    rw [exec_hello_other on group id format forming other, if_pos ⟨sender, agree⟩]
  case differs =>
    rintro ⟨on, group, id, format, sender⟩ forming other differs
    rw [exec_hello_other on group id format forming other, if_neg]
    rintro ⟨own, agree⟩
    have same : uid = i := Option.some.inj (sender.symm.trans own)
    exact differs.elim (fun ne => ne same.symm) (fun no => no agree)
  case stranger =>
    intro on group id format sender forming other
    rw [exec_hello_other on group id format forming other, if_neg (by simp [sender])]
  case armed =>
    rintro ⟨h, free⟩ whole ⟨open_, new, clear⟩ capture fits
    rw [exec_sessionStart_capture free whole h open_ new clear capture, if_neg (Nat.not_lt.mpr fits)]
  case full =>
    rintro ⟨h, free⟩ whole ⟨open_, new, clear⟩ capture exceeds
    rw [exec_sessionStart_capture free whole h open_ new clear capture, if_pos exceeds]

end Sys2Proof.Machine

/-! SUPPORT. Messages of the checkpoint group: units, manifests, reports, the restore scan and SHARD_EXPORT (R441 to R467). -/

namespace Sys2Proof.Machine

section
variable {t uid : Nat} {g : CkGroup} {m : CkMsg} {s : State}

theorem exec_progress_other (on : ckptOn (atTime t s) = true) (group : s.ckpt.group = some g) (other : m.group ≠ g.id ∨ m.format ≠ 1) :
    exec (.progress t m) s = .next (rmtCount 7 (atTime t s)) :=
  congrArg _ (ckRecv_other _ on group other)

/-! ### Units that land -/

/-- The answer to a unit: no room, kept, or another digest (R455). -/
theorem exec_unitLand_sent {i rank : Nat} {l : CkLanding} (landing : s.ckpt.landing[i]? = some l) (sent : l.from_ = some rank) :
    let w := setCkpt (atTime t s) fun c => { c with landing := c.landing.eraseIdx i }
    let room := areaHas w l.u.data.length
    exec (.unitLand t i) s = .next (ckSend rank 3 l.u.step l.u.src l.u.unit l.u.stripe
      (leBytes 1 (if room = false then 1 else if sha256 l.u.data = l.digest then 0 else 2) ++ List.replicate 31 0 ++ sha256 l.u.data)
      (if room = true then landUnit l.u w else w)) := by
  have landing' : (atTime t s).ckpt.landing[i]? = some l := landing
  simp only [exec_unitLand, execUnitLand, landing', sent, Bool.not_eq_true]

section
variable (heard : CkHeard t m g uid s)
include heard

/-! ### Acknowledgements -/

section
variable {i code : Nat} {digest : List Byte} {x : CkSession}

/-- The member with this UNIT_ID owes the session the acknowledgement of the unit, sent once (R456). -/
abbrev OwesUnit (m : CkMsg) (uid i : Nat) (x : CkSession) (s : State) : Prop :=
  sessOfStep s m.step = some (i, x) ∧ x.state = 5 ∧ m.src = x.self ∧
    x.uids.getD (unitRank x.uids.length x.self m.stripe m.unit) 0 = uid ∧ mget x.owed (owedKey m.stripe m.unit) = some false

/-- What is owed of a unit has been sent twice (R456). -/
def owedTwice (m : CkMsg) (x : CkSession) : CkSession :=
  { x with owed := x.owed.map fun e => if e.1 = owedKey m.stripe m.unit then (e.1, true) else e }

theorem exec_unitAck_owed (owes : OwesUnit m uid i x (atTime t s)) : exec (.unitAck t m code digest) s = .next
    (if code = 1 then failLater i 5 (atTime t s)
     else if digest = sha256 (stripeUnit (atTime t s) i x m.stripe m.unit) then unitLanded i m.stripe m.unit (atTime t s)
     else sendUnit i (owedTwice m x) m.stripe m.unit (ckCount 5 1 (putSess i (owedTwice m x) (atTime t s)))) := by
  obtain ⟨session, landing, own, member, once⟩ := owes
  have expected : ¬ (x.state ≠ 5 ∨ x.uids.getD (unitRank x.uids.length x.self m.stripe m.unit) 0 ≠ uid ∨ m.src ≠ x.self) := by
    simp only [landing, own, member, ne_eq, not_true_eq_false, or_self, not_false_eq_true]
  rw [exec_unitAck, execUnitAck, ckRecv_heard _ heard]
  simp only [session, once, if_neg expected, Bool.false_eq_true, if_false, owedTwice]

theorem exec_manifestAck_owed (session : sessOfStep (atTime t s) m.step = some (i, x)) (landing : x.state = 5)
    (owed : x.manOwed.contains uid = true) : exec (.manifestAck t m code) s = .next
      (if code = 0 then putSess i { x with manOwed := x.manOwed.filter (· != uid) } (atTime t s)
       else failLater i (if code = 1 then 5 else 7) (atTime t s)) := by
  have expected : ¬ (x.state ≠ 5 ∨ ¬ x.manOwed.contains uid = true) :=
    not_or.mpr ⟨not_not_intro landing, not_not_intro owed⟩
  rw [exec_manifestAck, execManifestAck, ckRecv_heard _ heard]
  simp only [session, if_neg expected]

end

/-! ### Manifests -/

section
variable {body : List Byte}

theorem exec_manifest_intact (intact : manIntact (atTime t s) body = true) (room : areaHas (atTime t s) body.length = true) :
    exec (.manifest t m body) s = .next
      (ckSend m.sender 5 m.step m.src 0 0 (leBytes 1 0 ++ List.replicate 7 0) (landManifest body (atTime t s))) := by
  rw [exec_manifest, execManifest, ckRecv_heard _ heard]
  simp only [intact, room, not_true_eq_false, if_false, and_self, if_true]

theorem exec_manifest_broken (broken : manIntact (atTime t s) body = false) : exec (.manifest t m body) s = .next
    (ckSend m.sender 5 m.step m.src 0 0 (leBytes 1 2 ++ List.replicate 7 0) (atTime t s)) := by
  rw [exec_manifest, execManifest, ckRecv_heard _ heard]
  simp only [broken, Bool.false_eq_true, not_false_eq_true, if_true, false_and, if_false]

end

/-! ### Reports of other members -/

theorem exec_failed_capturing {i reason : Nat} {x : CkSession} (only : s.ckpt.sessions = [(i, x)]) (step : x.step = m.step)
    (captured : x.state = 4) : exec (.failed t m reason) s = .next (failLater i 8 (atTime t s)) := by
  have only' : (atTime t s).ckpt.sessions = [(i, x)] := only
  have fails : x.step = m.step ∧ ¬ [7, 8, 0xA].contains x.state = true := ⟨step, by rw [captured]; decide⟩
  rw [exec_failed, execFailed, ckRecv_heard _ heard]
  simp only [only', List.foldl_cons, List.foldl_nil, if_pos fails]

theorem exec_lost_member {rank : Nat} (member : rank < g.members.length) (other : rank ≠ g.rank) : exec (.lost t m rank) s =
    .next (setCkpt (atTime t s) fun c => { c with lostPend := c.lostPend ++ [rank] }) := by
  rw [exec_lost, execLost, ckRecv_heard _ heard, if_pos ⟨member, other⟩]

theorem exec_unitData_asked {code : Nat} {data : List Byte} (asked : s.ckpt.asked.contains (m.step, m.src, m.stripe, m.unit) = true) :
    exec (.unitData t m code data) s = .next (fetchGoOn (setCkpt (atTime t s) fun c => { c with
      asked := c.asked.filter (· != (m.step, m.src, m.stripe, m.unit))
      replies := c.replies ++ [((m.step, m.src, m.stripe, m.unit), if code = 0 then some data else none)] })) :=
  congrArg _ ((ckRecv_heard _ heard).trans (if_neg (not_not_intro asked)))

section
variable {reason shard : Nat} {steps : List Nat}

theorem exec_verdict_first (first : (s.ckpt.scan.firsts.map (·.1)).contains uid = false) :
    exec (.verdict t m reason shard steps) s =
      .next (scanTry (setScan (atTime t s) fun c => { c with firsts := c.firsts ++ [(uid, steps)] })) := by
  have first' : ((atTime t s).ckpt.scan.firsts.map (·.1)).contains uid = false := first
  rw [exec_verdict, execVerdict, ckRecv_heard _ heard]
  simp only [first', Bool.not_false, if_true]

theorem exec_verdict_result (known : (s.ckpt.scan.firsts.map (·.1)).contains uid = true) (new : scanResult s m.step m.src = none) :
    exec (.verdict t m reason shard steps) s =
      .next (scanTry (setScan (atTime t s) fun c => { c with results := c.results ++ [(m.step, m.src, reason, shard)] })) := by
  have known' : ((atTime t s).ckpt.scan.firsts.map (·.1)).contains uid = true := known
  have new' : scanResult (atTime t s) m.step m.src = none := new
  rw [exec_verdict, execVerdict, ckRecv_heard _ heard]
  simp only [known', Bool.not_true, Bool.false_eq_true, if_false, new', Option.isSome_none]

end

end

/-! ### Scan and SHARD_EXPORT -/

section
variable {k : CmdRef} {c : SvcCmd} (free : blkFenced s pCKPT = false) (group : s.ckpt.group = some g) (mode : ckptMode s = 0x82)
include free group mode

theorem exec_restoreScan_begins (h : SvcReady k 0x57 c s) (idle : s.ckpt.scan.active = false) :
    exec (.restoreScan k) s = .next (scanTry (markBegun c (ckTell (fun _ => true) 12 0 g.rank
      (leBytes 1 0 ++ leBytes 1 0 ++ leBytes 2 (ownCandidates s g).length ++ leBytes 4 0xFFFFFFFF ++
        (ownCandidates s g).flatMap (leBytes 8))
      (setScan s fun c => { c with active := true })))) :=
  congrArg (fun w => Host.Outcome.next (scanTry w)) (runSvc_waits h rfl free
    ((formedOnly_formed group mode).trans (if_neg (Bool.eq_false_iff.mp idle))))

theorem exec_shardExport_selected {man : List Byte} (h : SvcReady k 0x58 c s) (sound : exportOffence c s = none)
    (selected : s.ckpt.selected = some (c.q 4)) (held : rankManifest s (c.q 4) (c.d 6) = some man) :
    let need := 64 + leAt man (manShard man (c.d 7) + 8) 8
    exec (.shardExport k) s = .next (fetchGoOn (if c.d 10 < need then complete c ck.SHORT need s else markBegun c s)) := by
  rw [exec_shardExport, execShardExport, runSvc_ready _ _ _ h]
  simp only [sound, ckFenced, free, formedOnly_formed group mode, Bool.false_eq_true, if_false, if_neg (not_not_intro selected), held]
  split_ifs <;> rfl

end

end

/-- Settles O49: a heard message reaches its own part, and the session, the room and the digest select the branch. -/
theorem checkpointUnitsManifestsAndRestore : Obligations.CheckpointUnitsManifestsAndRestore := by
  intro t i uid rank reason shard code k c g m digest data body man steps l x s u heard ready w room owes again key answer list told need
  refine ⟨exec_progress_other, fun h => congrArg _ (ckRecv_heard _ h), fun h => congrArg _ (ckRecv_heard _ h), exec_unitLand_sent,
    ?kept, ?again, fun h owed => (exec_unitAck_owed h owed).trans (congrArg _ (if_pos rfl)), fun h => exec_manifest_intact h,
    fun h => exec_manifest_broken h, fun h => exec_manifestAck_owed h, fun h => congrArg _ (ckRecv_heard _ h),
    fun h => exec_failed_capturing h, fun h => exec_lost_member h, fun h => congrArg _ (ckRecv_heard _ h),
    fun h => exec_unitData_asked h, fun ⟨h, free, group, mode⟩ => exec_restoreScan_begins free group mode h,
    fun h => exec_verdict_first h, fun h => exec_verdict_result h,
    fun ⟨h, free, group, mode⟩ => exec_shardExport_selected free group mode h⟩
  case kept =>
    intro h owed room same
    rw [exec_unitAck_owed h owed, if_neg room, if_pos same]
  case again =>
    intro h owed room differs
    rw [exec_unitAck_owed h owed, if_neg room, if_neg differs]
    rfl

end Sys2Proof.Machine

/-! SUPPORT. The pair: hawser frames, joining, notices, the witness, the end of a lease, takeover and SPLIT (R471 to R493). -/

namespace Sys2Proof.Machine

section
variable {t epoch seq : Nat} {s : State}

/-! ### Frames of the partner -/

/-- The partner has been heard at the current tick (R471). -/
def partnerHeard (s : State) : State :=
  setPairX s fun p => { p with lastFrame := some s.tick.count, lastHeard := some s.tick.count, heard := true }

theorem hawserFrame_other {f : State → State} (other : epoch ≠ pairEpoch s) :
    hawserFrame t epoch f s = penBit pPAIR 5 (pairCount 2 1 (atTime t s)) := if_pos other

theorem hawserFrame_own {f : State → State} (own : epoch = pairEpoch s) :
    hawserFrame t epoch f s = f (raiseLine 34 3
      (if pairMode s = 0x84 then atNextEdge 0x81 (partnerHeard (atTime t s)) else partnerHeard (atTime t s))) :=
  if_neg (not_not_intro own)

/-- A frame of this epoch outside SPLIT is taken once the partner is noted as heard. -/
theorem hawserFrame_paired {f : State → State} (framed : epoch = pairEpoch s ∧ pairMode s ≠ 0x84) :
    hawserFrame t epoch f s = f (raiseLine 34 3 (partnerHeard (atTime t s))) := by
  rw [hawserFrame_own framed.1, if_neg framed.2]

theorem exec_hawserHalyard_split {count : Nat} (own : epoch = pairEpoch s) (split : pairMode s = 0x84) :
    exec (.hawserHalyard t epoch count seq) s =
      .next (halyardTrigger 3 t (raiseLine 34 3 (atNextEdge 0x81 (partnerHeard (atTime t s))))) := by
  rw [exec_hawserHalyard, execHawserHalyard, hawserFrame_own own, if_pos split]

section
variable (framed : epoch = pairEpoch s ∧ pairMode s ≠ 0x84)
include framed

theorem exec_mirrorAck_waitless
    (quiet : pairMode s = 0x83 → mirrorCmds (raiseLine 34 3 (partnerHeard (atTime t s))) = []) :
    exec (.mirrorAck t epoch seq) s = .next (setPairX (raiseLine 34 3 (partnerHeard (atTime t s))) fun p =>
      { p with ackPend := some (max seq (p.ackPend.getD 0)) }) := by
  rw [exec_mirrorAck, execMirrorAck, hawserFrame_paired framed]
  refine congrArg _ ?_
  by_cases synced : pairMode s = 0x83
  · refine (if_neg (not_not_intro synced)).trans ?_
    have none_ : mirrorCmds (setPairX (raiseLine 34 3 (partnerHeard (atTime t s))) fun p =>
      { p with ackPend := some (max seq (p.ackPend.getD 0)) }) = [] := quiet synced
    rw [none_, List.filter_nil, List.foldl_nil]
  · exact if_pos synced

theorem exec_resyncAck_base (resyncing : pairMode s = 0x82) (base : seq = s.pair.base) : exec (.resyncAck t epoch seq) s =
    .next (setPairX (raiseLine 34 3 (partnerHeard (atTime t s))) fun p => { p with acked := true }) := by
  rw [exec_resyncAck, execResyncAck, hawserFrame_paired framed]
  exact congrArg _ (if_pos ⟨resyncing, base⟩)

end

/-! ### Joining -/

section
variable {uid last : Nat} {digest : List Byte} {clash : Bool} (joining : pairMode s = 0x81)
include joining

section
variable (expected : s.pair.expected = 0 ∨ s.pair.expected = uid)
include expected

theorem exec_join_expected : exec (.join t uid last 0x81 digest clash) s = .next
    (if clash = true ∨ indexClash s uid = true then atNextEdge 0x80 (atTime t s)
     else setPairX (atTime t s) fun p => { p with join := some { uid := uid, last := last } }) := by
  have takes : ¬ (pairMode s ≠ 0x81 ∨ (0x81 : Nat) ≠ 0x81 ∨ ¬ (s.pair.expected = 0 ∨ s.pair.expected = uid)) := by
    simp only [joining, expected, ne_eq, not_true_eq_false, or_self, not_false_eq_true]
  exact congrArg _ (if_neg takes)

end

theorem exec_joinSend_joining : exec (.joinSend t) s = .next ((hawserLinks (atTime t s)).foldl (fun s l =>
    emit (.hawser "JOIN" ([l, pairEpoch s, ownUnit s, s.pair.lastEpoch, 0x81] ++ (joinDigest s).map (·.toNat))) s) (atTime t s)) :=
  congrArg _ (if_neg (not_not_intro joining))

end

theorem exec_takeoverNotice_synced {final : Nat} (synced : pairMode s = 0x83) :
    exec (.takeoverNotice t final) s = .next (setPairX (atTime t s) fun p => { p with finalSeq := some final }) :=
  congrArg _ (if_pos synced)

theorem exec_leaveNotice_paired (least : 0x82 ≤ pairMode s) (most : pairMode s ≤ 0x84) :
    exec (.leaveNotice t) s = .next (atNextEdge 0x85 (atTime t s)) := congrArg _ (if_pos ⟨least, most⟩)

section
variable {k : CmdRef} {c : SvcCmd}

/-- In a pair state PAIR is not fenced (R474). -/
theorem not_pairFenced (paired : 0x80 ≤ pairMode s) : pairFenced c s = false := by
  have state : blkState s pPAIR ≠ 3 ∧ blkState s pPAIR ≠ 5 := by
    unfold pairMode at paired
    split at paired <;> omega
  simp only [pairFenced, blkFenced, beq_eq_false_iff_ne.mpr state.1, beq_eq_false_iff_ne.mpr state.2, Bool.or_self]

theorem exec_pairJoin_alone (h : SvcReady k 0x60 c s) (alone : pairMode s = 0x80 ∨ pairMode s = 0x85) :
    exec (.pairJoin k) s = .next (markBegun c (setPairX (atNextEdge 0x81 s) fun p => { p with expected := c.q 4 })) :=
  congrArg _ (runSvc_waits h rfl (not_pairFenced (by omega)) (if_neg fun ⟨unpaired, solo⟩ => alone.elim unpaired solo))

theorem exec_pairLeave_paired (h : SvcReady k 0x61 c s) (least : 0x81 ≤ pairMode s) (most : pairMode s ≤ 0x85) :
    exec (.pairLeave k) s = .next (markBegun c s) :=
  congrArg _ (runSvc_waits h rfl (not_pairFenced (by omega)) (if_pos ⟨least, most⟩))

theorem exec_pairLeave_unpaired (h : SvcReady k 0x61 c s) (alone : pairMode s = 0x80) :
    exec (.pairLeave k) s = .next (complete c st.STATE_CONFLICT 0 s) :=
  congrArg _ (runSvc_completes h rfl (not_pairFenced (by omega)) (if_neg fun ⟨least, _⟩ => by omega))

end

/-! ### The witness -/

theorem exec_witness_partner {uid main seen lease : Nat} (enabled : fld (raiseLine 36 1 (atTime t s)) pMSS R.MSS.WITNESS_CFG 31 1 = 1)
    (partner : uid = partnerId (raiseLine 36 1 (atTime t s))) :
    let heard := raiseLine 36 3 (raiseLine 36 1 (atTime t s))
    exec (.witness t uid epoch main seen lease) s = .next (setPairX heard fun p => { p with
      witness := some { at_ := t, main := main, seen := seen, lease := lease }, leaseIn := max p.leaseIn lease
      lastHeard := some heard.tick.count, heard := true }) :=
  congrArg _ (if_neg (not_or.mpr ⟨by omega, not_not_intro partner⟩))

/-- The bytes of a witness message that grants a lease (R483). -/
def witnessMessage (lease : Nat) (s : State) : List Byte :=
  beBytes 4 0xE34D ++ leBytes 1 1 ++ leBytes 1 1 ++ leBytes 2 (pairEpoch s) ++ leBytes 8 (ownUnit s) ++
    leBytes 1 (mainState s) ++ leBytes 1 (if hawserSeen s = true then 1 else 0) ++ leBytes 2 0 ++ leBytes 8 lease

theorem exec_witnessSend_granting {w : Witness} (enabled : fld s pMSS R.MSS.WITNESS_CFG 31 1 = 1) (on : mainState s ≠ 1)
    (held : s.pair.witness = some w) (recent : t < w.at_ + 100000000) : exec (.witnessSend t) s =
      .next (noteLease (grantNow (atTime t s)) (emit (.sideband "MCTP" "WITNESS" (witnessMessage (grantNow (atTime t s)) (atTime t s)))
        (atTime t s))) := by
  have enabled' : ¬ fld (atTime t s) pMSS R.MSS.WITNESS_CFG 31 1 = 0 := by
    rw [show fld (atTime t s) pMSS R.MSS.WITNESS_CFG 31 1 = 1 from enabled]; decide
  have held' : (atTime t s).pair.witness = some w := held
  have on' : ¬ mainState (atTime t s) = 1 := on
  simp only [exec_witnessSend, execWitnessSend, if_neg enabled', held', if_neg (Nat.not_le.mpr recent), if_neg on', witnessMessage]

/-! ### Losing and taking over -/

theorem showBound_foundry : (showBound s).foundry = s.foundry :=
  List.foldlRecOn (motive := fun w : State => w.foundry = s.foundry) _ _ rfl fun _ same _ _ => same

theorem showBound_feed : (showBound s).feed = s.feed :=
  List.foldlRecOn (motive := fun w : State => w.feed = s.feed) _ _ rfl fun _ same _ _ => same

/-- At its lease's end a device gives up its rings, its stream sets and what it took over (R482). -/
theorem exec_leaseExpiry_ends (edge : t = s.tick.edgeAt) (paired : pairMode s = 0x83 ∨ pairMode s = 0x84)
    (held : s.pair.leaseIn ≠ 0) (past : s.pair.leaseIn ≤ s.tick.count) :
    ∃ w, exec (.leaseExpiry t) s = .next (penBit pPAIR 4 (enterSolo w)) ∧ w.feed.rings = [] ∧ w.foundry.sets = [] ∧
      w.foundry.ctxs = [] ∧ w.pair.taken = [] := by
  have ends : ¬ (¬ atEdge t (atTime t s) = true ∨ ¬ (pairMode (atTime t s) = 0x83 ∨ pairMode (atTime t s) = 0x84) ∨
      (atTime t s).pair.leaseIn = 0 ∨ (atTime t s).tick.count < (atTime t s).pair.leaseIn) :=
    not_or.mpr ⟨not_not_intro (beq_iff_eq.mpr edge), not_or.mpr ⟨not_not_intro paired, not_or.mpr ⟨held, Nat.not_lt.mpr past⟩⟩⟩
  simp only [exec_leaseExpiry, execLeaseExpiry, if_neg ends]
  refine ⟨_, rfl, ?_, ?_, ?_, ?_⟩
  · rw [setPairX_feed, showBound_feed, setFeed_feed]
  · rw [setPairX_foundry, showBound_foundry, setFeed_foundry, setFoundry_foundry]
  · rw [setPairX_foundry, showBound_foundry, setFeed_foundry, setFoundry_foundry]
  · rw [setPairX_pair]

theorem exec_takeover_lost {reads : List AdoptRead} (edge : t = s.tick.edgeAt) (synced : pairMode s = 0x83)
    (lost : partnerLost (atTime t s) = true) : ∃ w, exec (.takeover t reads) s = .next w ∧ w.pair.replica = .empty := by
  have takes : ¬ (¬ atEdge t (atTime t s) = true ∨ pairMode (atTime t s) ≠ 0x83 ∨ ¬ partnerLost (atTime t s) = true) :=
    not_or.mpr ⟨not_not_intro (beq_iff_eq.mpr edge), not_or.mpr ⟨not_not_intro synced, not_not_intro lost⟩⟩
  simp only [exec_takeover, execTakeover, if_neg takes]
  exact ⟨_, rfl, rfl⟩

theorem exec_splitEntry_silent (edge : t = s.tick.edgeAt) (synced : pairMode s = 0x83) (silent : hawserSeen s = false)
    (alive : ((freshWitness (atTime t s)).any fun w => w.main == 0) = true) :
    exec (.splitEntry t) s = .next (penBit pPAIR 2 (leaveSync 0x84 (atTime t s))) := by
  obtain ⟨w, fresh, on⟩ := Option.any_eq_true _ _ |>.mp alive
  have splits : atEdge t (atTime t s) = true ∧ pairMode (atTime t s) = 0x83 ∧ ¬ hawserSeen (atTime t s) = true ∧ (w.main == 0) = true :=
    ⟨beq_iff_eq.mpr edge, synced, Bool.eq_false_iff.mp silent, on⟩
  simp only [exec_splitEntry, execSplitEntry, fresh, if_pos splits]

end

/-- Settles O50: the epoch and the pair state select the branch of each command; what a lease's end and a takeover leave is read off
their last updates. -/
theorem pairHawserWitnessAndTakeover : Obligations.PairHawserWitnessAndTakeover := by
  intro t epoch seq part parts count lease echo ofs hold uid last final main seen data digest forms kept ties reads k c s
    u mode framed heard noted delay edge carried ticked witnessed enabled message
  refine ⟨fun other => congrArg _ (hawserFrame_other other), exec_hawserHalyard_split, fun h => congrArg _ (hawserFrame_paired h),
    fun h => congrArg _ (hawserFrame_paired h), fun h => congrArg _ (hawserFrame_paired h),
    fun h other => exec_mirrorAck_waitless h fun synced => absurd synced other,
    fun h _ quiet => exec_mirrorAck_waitless h fun _ => quiet, fun h => congrArg _ (hawserFrame_paired h), exec_resyncAck_base,
    ?joins, ?clash, exec_joinSend_joining, exec_takeoverNotice_synced, exec_leaveNotice_paired, exec_pairJoin_alone,
    exec_pairLeave_paired, exec_pairLeave_unpaired, exec_witness_partner, ?witness, exec_leaseExpiry_ends, exec_takeover_lost,
    exec_splitEntry_silent⟩
  case joins =>
    intro joining expected apart
    rw [exec_join_expected joining expected, if_neg (by simp [apart])]
  case clash =>
    intro joining expected
    rw [exec_join_expected joining expected, if_pos (.inl rfl)]
  case witness =>
    exact fun on running held => exec_witnessSend_granting on running held (Nat.lt_add_of_pos_right (by decide))

end Sys2Proof.Machine

/-! SUPPORT. Key slots, and the jobs of the cipher engine (R496 to R512). -/

namespace Sys2Proof.Machine

section
variable {k : CmdRef} {c : SvcCmd} {y z : KeySlot} {s : State}

/-! ### Keys -/

theorem exec_keyGen_empty (h : SvcReady k 0x70 c s) (sound : keyOffence c false = none) (empty : slotFree s c.obj = true) :
    let g := freeBytes (askedBytes c) s
    exec (.keyGen k) s = .next (complete c st.OK 0 (fillSlot c.obj (slotOf c (c.d 4) (c.d 5) g.1 g.2) g.2)) :=
  congrArg _ (runSvc_completes h sound rfl (if_neg (not_not_intro empty)))

section
variable {b : List Byte} {src : Option (List Byte)} {wrapped : Bool} (h : SvcReady k 0x71 c s)
  (sound : keyOffence c wrapped = none) (form : bitOf (c.d 9) 1 = wrapped) (empty : slotFree s c.obj = true)
include h sound form

theorem exec_keyImport_unreadable (unreadable : importSource c src s = none) :
    exec (.keyImport k src) s = .next (complete c st.INTEGRITY 0 s) := by
  subst form
  exact congrArg _ (runSvc_completes h (by simp only [sound, unreadable]) rfl (by simp only [unreadable]))

include empty

theorem exec_keyImport_plain (read : importSource c src s = some b) (plain : wrapped = false)
    (padded : allZero ((b.drop (askedBytes c)).take (64 - askedBytes c)) = true) : exec (.keyImport k src) s = .next
    (if fld s pCIPH R.CIPH.CFG 0 1 = 0 then complete c 0xE2 0 s
     else complete c st.OK 0 (penBit pCIPH 3 (fillSlot c.obj (slotOf c (c.d 4) (c.d 5) (b.take (askedBytes c)) s) s))) := by
  subst plain
  rw [exec_keyImport, execKeyImport, runSvc_ready _ _ _ h]
  simp only [form, sound, read, padded, noFence, empty, not_true_eq_false, Bool.false_eq_true, not_false_eq_true, if_true, if_false]
  split_ifs <;> rfl

section
variable (read : importSource c src s = some b) (wraps : wrapped = true) (blob : blobOffence b = none)
  (kek : getSlot s (bitsOf (c.d 9) 16 12) = some z) (ready : z.state = 1) (type : keyType z = 4) (imports : bitOf z.attr 7 = true)
include read wraps blob kek ready type imports

theorem exec_keyImport_unverified (broken : keyUnwrap z.key ((b.drop 0x10).take (leAt b 6 1)) = none) :
    exec (.keyImport k src) s = .next (complete c st.AUTH_FAIL 0 (authFail c.obj s)) := by
  subst wraps
  refine congrArg _ (runSvc_completes h (by simp only [form, sound, read, blob, if_true]) rfl ?_)
  simp only [read, form, empty, kek, ready, type, imports, broken, ne_eq, not_true_eq_false, or_self, if_false]

theorem exec_keyImport_unwraps {p : List Byte} (unwrapped : keyUnwrap z.key ((b.drop 0x10).take (leAt b 6 1)) = some p)
    (good : attrBad (leAt p 0 4) = false) (reserved : leAt p 0 4 < 2 ^ 13) (named : bitsOf (leAt p 0 4) 0 4 = leAt b 5 1)
    (len : (p.drop 8).length = keyBytes (bitsOf (leAt p 0 4) 0 4) (p.drop 8).length) :
    exec (.keyImport k src) s = .next (complete c st.OK 0 (fillSlot c.obj (slotOf c (leAt p 0 4) (leAt p 4 4) (p.drop 8) s) s)) := by
  subst wraps
  have fits : ¬ (attrBad (leAt p 0 4) = true ∨ leAt p 0 4 / 2 ^ 13 ≠ 0 ∨ bitsOf (leAt p 0 4) 0 4 ≠ leAt b 5 1 ∨
      (p.drop 8).length ≠ keyBytes (bitsOf (leAt p 0 4) 0 4) (p.drop 8).length) :=
    not_or.mpr ⟨Bool.eq_false_iff.mp good, not_or.mpr ⟨not_not_intro (Nat.div_eq_of_lt reserved),
      not_or.mpr ⟨not_not_intro named, not_not_intro len⟩⟩⟩
  refine congrArg _ (runSvc_completes h (by simp only [form, sound, read, blob, if_true]) rfl ?_)
  simp only [read, form, empty, kek, ready, type, imports, unwrapped, if_neg fits, ne_eq, not_true_eq_false, or_self, if_false]

end

end

theorem exec_keyExport_exportable (h : SvcReady k 0x72 c s) (held : getSlot s c.obj = some y) (ready : y.state = 1)
    (kek : getSlot s (bitsOf (c.d 4) 0 12) = some z) (kekReady : z.state = 1) (exportable : bitOf y.attr 8 = true)
    (type : keyType z = 4) (exports : bitOf z.attr 6 = true) :
    let w := keyWrap z.key (leBytes 4 y.attr ++ leBytes 4 y.keyId ++ y.key)
    exec (.keyExport k) s = .next (complete c st.OK 96 (dmaWrite 0 (c.d 7 % 2) (c.q 5)
      (leBytes 4 0x42574B45 ++ leBytes 1 1 ++ leBytes 1 (keyType y) ++ leBytes 1 w.length ++ leBytes 1 0 ++
        leBytes 4 z.keyId ++ leBytes 4 0 ++ w ++ List.replicate (80 - w.length) 0) s)) := by
  refine congrArg _ (runSvc_completes h rfl rfl ?_)
  simp only [held, ready, kek, kekReady, exportable, type, exports, ne_eq, not_true_eq_false, or_self, if_false]

theorem exec_keyDestroy_ready (h : SvcReady k 0x73 c s) (held : getSlot s c.obj = some y) (ready : y.state = 1) :
    exec (.keyDestroy k) s =
      .next (markBegun c (setCiph s fun f => { f with slots := mput f.slots c.obj { y with state := 2 } })) :=
  congrArg _ (runSvc_waits h rfl rfl (by simp only [held, if_neg (not_not_intro ready)]))

theorem exec_keyErase_destroying {slot : Nat} (held : getSlot s slot = some y) (destroying : y.state = 2) :
    exec (.keyErase slot) s = .next (finishCmds (fun c => c.op == 0x73 && c.obj == slot) st.OK 0 (eraseSlot slot s)) := by
  simp only [exec_keyErase, execKeyErase, held, if_neg (not_not_intro destroying)]

/-! ### Jobs -/

/-- What the end of a command's own part leaves. -/
def svcEnded (c : SvcCmd) : SvcEnd → State
  | .done status result w => complete c status result w
  | .wait w => markBegun c w

theorem runSvc_ended {op : Nat} {inv : SvcCmd → State → Option Nat} {fenced : SvcCmd → State → Bool}
    {body : SvcCmd → State → SvcEnd} (h : SvcReady k op c s) (sound : inv c s = none) (free : fenced c s = false) :
    runSvc k op inv fenced body s = svcEnded c (body c s) := by
  cases ends : body c s with
  | done status result w => exact runSvc_completes h sound free ends
  | wait w => exact runSvc_waits h sound free ends

/-- The IV counter of an E-unit has ended (R503). -/
def counterEnded (s : State) (u : Nat) : Bool := decide (2 ^ 64 - 1 ≤ s.ciph.counters.getD u 0)

/-- A job makes its IV from a counter (R503). -/
abbrev MakesIv (op : Nat) : Prop := op = 1 ∨ op = 5

/-- How a job on a READY slot ends: by type and permission, by the key's age, by the ended counter, or as it runs (R503, R510). -/
def slotJob (op : Nat) (c : SvcCmd) (y : KeySlot) (job : List Byte) (unit : Nat) (x : CipherIn) (s : State) : SvcEnd :=
  if keyType y ≠ opKeyType op ∨ ¬ bitOf y.attr (if opProtects op then 4 else 5) = true then .done 0xE1 0 s
  else if MakesIv op ∧ 65536 ≤ reg s pMSS R.MSS.BOOT_COUNT - y.bootAt then
    .done 0xE0 0 (errInfo pCIPH 3 c.obj (penBit pCIPH 2 (ciphCount 3 s)))
  else if MakesIv op ∧ counterEnded s unit = true then .done 0xE3 0 s
  else jobRun op unit job x s

section
variable {op unit : Nat} {desc : List Byte} {x : CipherIn} (h : SvcReady k 0x74 c s) (sound : jobOffence c (jobBytes c desc s) = none)
  (named : leAt (jobBytes c desc s) 0 1 = op) (within : unit < 8)
include h sound named within

theorem ciphOp_hash (hash : opKeyType op = 0) :
    ciphOp op k desc unit x s = svcEnded c (jobRun op unit (jobBytes c desc s) x s) := by
  have other : ¬ MakesIv op := by rintro (rfl | rfl) <;> exact absurd hash (by decide)
  have turn : ¬ ((1 ≤ leAt (jobBytes c desc s) 0 1 ∧ leAt (jobBytes c desc s) 0 1 ≤ 10 ∧ leAt (jobBytes c desc s) 0 1 ≠ op) ∨
      8 ≤ unit ∨ (MakesIv op ∧ counterEnded s unit = true ∧ ¬ (List.range 8).all (counterEnded s) = true)) := by
    rintro (⟨-, -, ne⟩ | beyond | ⟨makes, -⟩)
    · exact ne named
    · omega
    · exact other makes
  simp only [ciphOp, h.1]
  exact (if_neg turn).trans ((runSvc_ended h sound rfl).trans (congrArg _ (if_pos hash)))

theorem ciphOp_slot (turn : MakesIv op → counterEnded s unit = true → (List.range 8).all (counterEnded s) = true)
    (keyed : opKeyType op ≠ 0) (held : getSlot s c.obj = some y) (ready : y.state = 1) :
    ciphOp op k desc unit x s = svcEnded c (slotJob op c y (jobBytes c desc s) unit x s) := by
  have turn : ¬ ((1 ≤ leAt (jobBytes c desc s) 0 1 ∧ leAt (jobBytes c desc s) 0 1 ≤ 10 ∧ leAt (jobBytes c desc s) 0 1 ≠ op) ∨
      8 ≤ unit ∨ (MakesIv op ∧ counterEnded s unit = true ∧ ¬ (List.range 8).all (counterEnded s) = true)) := by
    rintro (⟨-, -, ne⟩ | beyond | ⟨makes, ended, some_⟩)
    · exact ne named
    · omega
    · exact some_ (turn makes ended)
  simp only [ciphOp, h.1]
  refine (if_neg turn).trans ((runSvc_ended h sound rfl).trans (congrArg _ ?_))
  simp only [if_neg keyed, held, if_neg (not_not_intro ready)]
  rfl

end

/-- The keyed operations of CIPH_OP, each with its command (R504). -/
noncomputable def keyedJobs (k : CmdRef) (desc : List Byte) (unit : Nat) (x : CipherIn) : List (Nat × Instr) :=
  [(1, .gcmEnc k desc unit x), (2, .gcmDec k desc unit x), (3, .xtsEnc k desc unit x), (4, .xtsDec k desc unit x),
   (5, .gmacGen k desc unit x), (6, .gmacVer k desc unit x), (7, .hmacGen k desc unit x), (8, .hmacVer k desc unit x)]

section
variable {unit : Nat} {desc : List Byte} {x : CipherIn} {e : Nat × Instr}

theorem exec_keyedJob (keyed : e ∈ keyedJobs k desc unit x) :
    exec e.2 s = .next (ciphOp e.1 k desc unit x s) ∧ opKeyType e.1 ≠ 0 := by
  simp only [keyedJobs, List.mem_cons, List.not_mem_nil, or_false] at keyed
  rcases keyed with rfl | rfl | rfl | rfl | rfl | rfl | rfl | rfl <;> exact ⟨rfl, of_decide_eq_true rfl⟩

/-- A sound keyed job on a READY slot ends as its key, its age and its counter select. -/
theorem exec_keyedJob_slot (keyed : e ∈ keyedJobs k desc unit x) (h : SvcReady k 0x74 c s)
    (sound : jobOffence c (jobBytes c desc s) = none) (named : leAt (jobBytes c desc s) 0 1 = e.1) (within : unit < 8)
    (turn : MakesIv e.1 → counterEnded s unit = true → (List.range 8).all (counterEnded s) = true)
    (held : getSlot s c.obj = some y) (ready : y.state = 1) :
    exec e.2 s = .next (svcEnded c (slotJob e.1 c y (jobBytes c desc s) unit x s)) := by
  obtain ⟨runs, type⟩ := exec_keyedJob (s := s) keyed
  rw [runs, ciphOp_slot h sound named within turn type held ready]

end

section
variable {op unit : Nat} {job : List Byte} {x : CipherIn}

theorem slotJob_other (other : keyType y ≠ opKeyType op) : slotJob op c y job unit x s = .done 0xE1 0 s := if_pos (.inl other)

theorem opProtects_of_makesIv (makes : MakesIv op) : opProtects op = true := by rcases makes with rfl | rfl <;> rfl

section
variable (type : keyType y = opKeyType op) (allowed : bitOf y.attr (if opProtects op = true then 4 else 5) = true)
include type allowed

theorem slotJob_runs (young : MakesIv op → reg s pMSS R.MSS.BOOT_COUNT - y.bootAt < 65536) (going : counterEnded s unit = false) :
    slotJob op c y job unit x s = jobRun op unit job x s := by
  unfold slotJob
  rw [if_neg (not_or.mpr ⟨not_not_intro type, not_not_intro allowed⟩), if_neg fun ⟨makes, old⟩ => Nat.not_le.mpr (young makes) old,
    if_neg fun ⟨_, ended⟩ => Bool.eq_false_iff.mp going ended]

theorem slotJob_old (makes : MakesIv op) (old : 65536 ≤ reg s pMSS R.MSS.BOOT_COUNT - y.bootAt) :
    slotJob op c y job unit x s = .done 0xE0 0 (errInfo pCIPH 3 c.obj (penBit pCIPH 2 (ciphCount 3 s))) := by
  unfold slotJob
  rw [if_neg (not_or.mpr ⟨not_not_intro type, not_not_intro allowed⟩), if_pos ⟨makes, old⟩]

theorem slotJob_ended (makes : MakesIv op) (young : reg s pMSS R.MSS.BOOT_COUNT - y.bootAt < 65536)
    (ended : counterEnded s unit = true) : slotJob op c y job unit x s = .done 0xE3 0 s := by
  unfold slotJob
  rw [if_neg (not_or.mpr ⟨not_not_intro type, not_not_intro allowed⟩), if_neg fun ⟨_, old⟩ => Nat.not_le.mpr young old,
    if_pos ⟨makes, ended⟩]

end

/-- A hash of host bytes that were read whole writes the digest in its output descriptor (R506, R507). -/
theorem jobRun_hash (hash : op = 9 ∨ op = 10) (host : bitOf (leAt job 1 1) 0 = false) (whole : x.failAt = none)
    (aad : x.aadFail = false) (out : x.outFail = false) : jobRun op unit job x s = .done st.OK 0
      (dmaWrite 0 (leAt job 1 1 % 2) (leAt job 0x38 8) (outDesc st.OK 0 [] (if op = 9 then sha256 x.src else sha3 x.src) 0)
        (ciphCount 0 s)) := by
  have input : jobInput s job x = x := if_pos (Bool.eq_false_iff.mp host)
  rcases hash with rfl | rfl <;> simp [jobRun, input, host, whole, aad, out, opKeyType, jobCompute]

end

end

/-- Settles O40: each clause is the branch that the checks, the slots and the read sources select; the keyed operations share one
course. -/
theorem cipherKeysAndJobs : Obligations.CipherKeysAndJobs := by
  intro k c b desc src unit slot x y z s job kek kek' g body w blob imports plainOk runs ended ops allEnded
  have same (e : SvcEnd) : svcEnded c e = ended e := by cases e <;> rfl
  refine ⟨exec_keyGen_empty, fun ⟨h, sound, form, empty⟩ read padded => exec_keyImport_plain h sound form empty read rfl padded,
    fun ⟨h, sound, form, _⟩ => exec_keyImport_unreadable h sound form,
    fun ⟨h, sound, form, empty⟩ read good kek ready type may =>
      ⟨exec_keyImport_unverified h sound form empty read rfl good kek ready type may,
       fun p => exec_keyImport_unwraps h sound form empty read rfl good kek ready type may⟩,
    exec_keyExport_exportable, exec_keyDestroy_ready, exec_keyErase_destroying, ?keyed, ?ended, ?hash⟩
  case keyed =>
    rintro e keyed ⟨h, sound, named, within, going⟩ held ready
    have going' : counterEnded s unit = false := decide_eq_false (Nat.not_le.mpr going)
    have course := exec_keyedJob_slot keyed h sound named within
      (fun _ ended => absurd ended (Bool.eq_false_iff.mp going')) held ready
    refine ⟨fun type allowed young => ?_, fun other => ?_, fun type allowed makes old => ?_⟩
    · rw [course, slotJob_runs type allowed young going', same]
    · rw [course, slotJob_other other, svcEnded]
    · rw [course, slotJob_old type ((if_pos (opProtects_of_makesIv makes)).symm ▸ allowed) makes old, svcEnded]
  case ended =>
    intro e keyed h sound named within makes allOver held ready type allowed young
    have over' : counterEnded s unit = true := List.all_eq_true.mp allOver unit (List.mem_range.mpr within)
    rw [exec_keyedJob_slot keyed h sound named within (fun _ _ => allOver) held ready,
      slotJob_ended type ((if_pos (opProtects_of_makesIv makes)).symm ▸ allowed) makes young over', svcEnded]
  case hash =>
    intro whole aad out host digests
    refine ⟨fun ⟨h, sound, named, within, _⟩ => ?_, fun ⟨h, sound, named, within, _⟩ => ?_⟩
    · rw [exec_sha256, execSha256, ciphOp_hash h sound named within rfl, jobRun_hash (.inl rfl) host whole aad out, svcEnded]
      rfl
    · rw [exec_sha3256, execSha3256, ciphOp_hash h sound named within rfl, jobRun_hash (.inr rfl) host whole aad out, svcEnded]
      rfl

end Sys2Proof.Machine

/-! SUPPORT. Suspect intervals on demand, injected and reported errors, and the care of the LPDDR5X (R513, R529, R541 to R547). -/

namespace Sys2Proof.Machine

section
variable {t m ch : Nat} {q : IntgReq} {d : Nat → Nat} {s : State}

/-! ### Injection -/

theorem exec_suspectForce_tile (h : IntgReady q 0x82 d s) (tile : d 4 % 256 < 32) : exec (.suspectForce q) s =
    .next (intgDone q 0x82 st.OK 0 s (suspectTile (d 4 % 256) s.tick.count s)) :=
  congrArg _ (intgRun_done h (tileField_tile tile) fun _ => rfl)

/-- A sound request of this type plants its error (R541, R542). -/
theorem injectRun_sound {kind : Nat} {act : Nat → Nat → State → State} (h : IntgReady q 0x84 d s) (named : injectKind s q = kind)
    (sound : injectOffence d = none) :
    injectRun kind q act s = intgDone q 0x84 st.OK 0 s (act (bitsOf (d 4) 8 8) (d 5 + 2 ^ 32 * d 6) s) :=
  (if_neg fun ⟨_, _, other⟩ => other named).trans (intgRun_done h sound fun _ => rfl)

/-- A request of the device's own firmware whose type is none of the five is refused, whichever row carries it (R542). -/
theorem injectRun_undefined {kind d4 d5 d6 : Nat} {act : Nat → Nat → State → State} (undefined : d4 % 16 = 0 ∨ 5 < d4 % 16) :
    injectRun kind (.own d4 d5 d6) act s = emit (.fwDone 0x84 st.INVALID_FIELD 16) s := by
  have offence : injectOffence (fun i => [d4, d5, d6].getD (i - 4) 0) = some 16 := if_pos undefined
  refine (if_neg fun ⟨least, most, _⟩ => ?_).trans (by simp only [intgRun, offence])
  have bounds : 1 ≤ d4 % 16 ∧ d4 % 16 ≤ 5 := ⟨least, most⟩
  omega

/-! ### Reported errors -/

theorem exec_checkedError_present {p : Page} {ctl : Bool} (present : pagePresent s p = true) : exec (.checkedError t p ctl) s = .next
    (if ctl = true ∧ fld (checkedError p (atTime t s)) p R.BLK_CAP0 30 1 = 1 then hwFence p (checkedError p (atTime t s))
     else checkedError p (atTime t s)) := congrArg _ (if_neg (not_not_intro present))

/-! ### The LPDDR5X -/

/-- The words of the 64-byte burst at an offset that fail their code. -/
def burstHits (off : Nat) (s : State) : List (Nat × Bool) :=
  s.media.dram.filter fun d => decide (off / 64 * 64 < d.1 + 8) && decide (d.1 < off / 64 * 64 + 64)

theorem exec_dramScrub_within {off : Nat} (within : off < 2 ^ 40) :
    let quiet := addSat (atTime t s) (pMEMC (dramPkg off)) R.MEMC.LINK_RETRY 0 0xFFFFFFFF
    let corrected := ((burstHits off quiet).filter fun d => !d.2).foldl (fun s _ => intgCount 8 s) (dramTouch (off / 64 * 64) 64 quiet)
    exec (.dramScrub t off 0 0 false none) s = .next (watchStat (((burstHits off quiet).filter (·.2)).foldl
      (fun s _ => checkedError (pMEMC (dramPkg off)) (intgPen 9 (intgCount 9 s))) corrected)) :=
  congrArg _ (if_neg (Nat.not_le.mpr within))

section
variable (package : m < 16) (channel : ch < 4)
include package channel

theorem exec_memcRecal_first (running : s.power.phase = .running) (first : mget s.intg.recalAt (chanKey m ch) = none) :
    exec (.memcRecal t m ch) s = .next (setIntg (atTime t s) fun x => { x with recalAt := mput x.recalAt (chanKey m ch) t }) := by
  have there : ¬ (16 ≤ m ∨ 4 ≤ ch ∨ (atTime t s).power.phase ≠ .running) :=
    not_or.mpr ⟨Nat.not_le.mpr package, not_or.mpr ⟨Nat.not_le.mpr channel, not_not_intro running⟩⟩
  have first' : mget (atTime t s).intg.recalAt (chanKey m ch) = none := first
  simp only [exec_memcRecal, execMemcRecal, if_neg there, first', Option.filter_none]

/-- A retraining is counted and shown (R513). -/
def retrained (m ch : Nat) (s : State) : State :=
  penBit (pMEMC m) 3 (addSat (setIntg s fun x => { x with linkCe := mdel x.linkCe (chanKey m ch) }) (pMEMC m) R.MEMC.RETRAINS 1 0xFFFFFFFF)

theorem exec_memcRetrain_due {ok : Bool} (due : 1000 < (mgetD s.intg.linkCe (chanKey m ch) (0, 0)).2) :
    exec (.memcRetrain t m ch ok) s = .next (if ok = true then retrained m ch (atTime t s)
      else setIntg (logEvent 0x0007 (some (pMEMC m)) [m] (errInfo (pMEMC m) 3 (ch * 256) (penBit (pMEMC m) 5 (retrained m ch (atTime t s)))))
        fun x => { x with quiesceDue := some 4 }) := by
  have retrains : ¬ (16 ≤ m ∨ 4 ≤ ch ∨ (mgetD (atTime t s).intg.linkCe (chanKey m ch) (0, 0)).2 ≤ 1000) :=
    not_or.mpr ⟨Nat.not_le.mpr package, not_or.mpr ⟨Nat.not_le.mpr channel, Nat.not_le.mpr due⟩⟩
  exact congrArg _ (if_neg retrains)

end

end

/-- Settles O32: each clause is the branch that the request's type, the page or the channel selects. -/
theorem injectionReportsAndDeviceMemory : Obligations.InjectionReportsAndDeviceMemory := by
  intro t off m ch q d p ctl s v tile word checked sound done base quiet hit reported shown
  refine ⟨exec_suspectForce_tile, fun ⟨h, kind, good⟩ => congrArg _ (injectRun_sound h kind good),
    fun ⟨h, kind, good⟩ => congrArg _ (injectRun_sound h kind good), fun ⟨h, kind, good⟩ => congrArg _ (injectRun_sound h kind good),
    fun ⟨h, kind, good⟩ => congrArg _ (injectRun_sound h kind good), fun ⟨h, kind, good⟩ => congrArg _ (injectRun_sound h kind good),
    ?undefined, exec_checkedError_present, exec_dramScrub_within, exec_memcRecal_first,
    fun package channel due => ⟨exec_memcRetrain_due package channel due, exec_memcRetrain_due package channel due⟩⟩
  case undefined =>
    intro d4 d5 d6 undefined i row
    simp only [List.mem_cons, List.not_mem_nil, or_false] at row
    rcases row with rfl | rfl | rfl | rfl | rfl <;> exact congrArg _ (injectRun_undefined undefined)

end Sys2Proof.Machine

/-! SUPPORT. The SPDM responder: what it answers to a request of each kind, and what its connection becomes (R578 to R580). -/

namespace Sys2Proof.Machine

/-- In any map a key that is set twice holds the second value. -/
theorem mput_mput {α : Type} (m : List (Nat × α)) (k : Nat) (v w : α) : mput (mput m k v) k w = mput m k w := by
  induction m with
  | nil => simp only [mput, Nat.lt_irrefl, if_false, if_true]
  | cons e m ih =>
    obtain ⟨a, x⟩ := e
    rcases lt_trichotomy k a with below | rfl | above
    · simp only [mput, if_pos below, Nat.lt_irrefl, if_false, if_true]
    · simp only [mput, Nat.lt_irrefl, if_false, if_true]
    · simp only [mput, if_neg above.not_gt, if_neg above.ne, ih]

section
variable {bus : SideBus} {x y : SpdmConn} {s : State}

/-! ### Connections -/

theorem ne_reset_of_begun (begun : 1 ≤ x.phase) : x ≠ SpdmConn.reset := by
  rintro rfl
  exact absurd begun (by decide)

theorem getConn_putConn (begun : 1 ≤ x.phase) : getConn (putConn bus x s) bus = x := by
  rw [getConn, putConn, setMgmt_mgmt]
  simp only [mputD, if_neg (ne_reset_of_begun begun), mgetD, mget_mput, if_true, Option.getD_some]

theorem limit_putConn (begun : 1 ≤ x.phase) (unlimited : x.limit = 0) : (getConn (putConn bus x s) bus).limit = 0 := by
  rw [getConn_putConn begun, unlimited]

theorem begun_putConn (begun : 1 ≤ x.phase) : 1 ≤ (getConn (putConn bus x s) bus).phase := by
  rwa [getConn_putConn begun]

theorem putConn_putConn (begun : 1 ≤ x.phase) (begun' : 1 ≤ y.phase) : putConn bus y (putConn bus x s) = putConn bus y s := by
  simp only [putConn, setMgmt, mputD, if_neg (ne_reset_of_begun begun), if_neg (ne_reset_of_begun begun'), mput_mput]

theorem limit_keepSigned {ref t key : Nat} (begun : 1 ≤ (getConn s bus).phase) (unlimited : (getConn s bus).limit = 0) :
    (getConn (keepSigned bus ref t key s) bus).limit = 0 := limit_putConn begun unlimited

/-! ### Requests -/

/-- A request has reached the responder: on a sideband medium it interrupts the deck core (R549). -/
def spdmHeard (t : Nat) (bus : SideBus) (s : State) : State := if bus = .doe then atTime t s else sideFrame (atTime t s)

theorem getConn_spdmHeard {t : Nat} {b : SideBus} : getConn (spdmHeard t b s) bus = getConn (atTime t s) bus := by
  unfold spdmHeard; split <;> rfl

/-- The responder sends a response on the medium of the request. -/
def spdmSaid (bus : SideBus) (sess : Option Nat) (r : List Byte) (s : State) : State :=
  if bus = .doe then emit (.pcie 0 "DOE" (r.map (·.toNat))) s
  else emit (.sideband "SPDM" (if sess.isSome then "secured" else "") r) s

section
variable {t code : Nat} {sess : Option Nat} {req r : List Byte} {f : SpdmFn} {z : State}

theorem spdmRequest_closed (closed : busOpen (atTime t s) bus = false) : spdmRequest t bus sess code req f s = atTime t s :=
  if_pos (.inl (Bool.eq_false_iff.mp closed))

/-- A message of an unknown session is dropped, once it has reached the responder. -/
theorem spdmRequest_unknown {i : Nat} (named : sess = some i)
    (unknown : ((getConn (spdmHeard t bus s) bus).sessions.any fun e => e.1 == i) = false) :
    spdmRequest t bus sess code req f s = atTime t s ∨ spdmRequest t bus sess code req f s = spdmHeard t bus s := by
  subst named
  rw [getConn_spdmHeard] at unknown
  by_cases refused : ¬ busOpen (atTime t s) bus = true ∨ leAt req 1 1 ≠ code
  · exact .inl (if_pos refused)
  · refine .inr ((if_neg refused).trans (if_pos ?_))
    simp only [unknown, Bool.false_eq_true, not_false_eq_true]

/-- An open medium answers a request that is no longer than the requester takes. -/
theorem spdmRequest_answered (open_ : busOpen (atTime t s) bus = true) (named : leAt req 1 1 = code)
    (known : ∀ i ∈ sess, ((getConn (spdmHeard t bus s) bus).sessions.any fun e => e.1 == i) = true)
    (answer : f bus sess t req (spdmHeard t bus s) = (r, z))
    (whole : (getConn z bus).limit = 0 ∨ r.length ≤ (getConn z bus).limit) :
    spdmRequest t bus sess code req f s = spdmSaid bus sess r z := by
  have taken : ¬ (¬ busOpen (atTime t s) bus = true ∨ leAt req 1 1 ≠ code) := not_or.mpr ⟨not_not_intro open_, not_not_intro named⟩
  have short : ¬ ((getConn z bus).limit ≠ 0 ∧ (getConn z bus).limit < r.length) := by omega
  simp only [getConn_spdmHeard] at known
  unfold spdmHeard at answer
  cases sess with
  | none => simp only [spdmRequest, if_neg taken, answer, if_neg short, not_true_eq_false, if_false, spdmSaid]
  | some i => simp only [spdmRequest, if_neg taken, known i rfl, answer, if_neg short, not_true_eq_false, if_false, spdmSaid]

/-- A request of version 1.3 reaches a connection that is far enough along, of a requester of no stated limit. -/
abbrev SpdmAsks (t : Nat) (bus : SideBus) (req : List Byte) (s : State) (code phase : Nat) : Prop :=
  busOpen (atTime t s) bus = true ∧ leAt req 1 1 = code ∧ leAt req 0 1 = 0x13 ∧ phase ≤ (getConn (spdmHeard t bus s) bus).phase ∧
    (getConn (spdmHeard t bus s) bus).limit = 0

theorem needPhase_met {n : Nat} (version : leAt req 0 1 = 0x13) (along : n ≤ (getConn s bus).phase) :
    needPhase n f bus sess t req s = f bus sess t req s :=
  (if_neg (not_not_intro version)).trans (if_neg (Nat.not_lt.mpr along))

theorem SpdmAsks.begun {n : Nat} (asks : SpdmAsks t bus req s code (n + 1)) : 1 ≤ (getConn (spdmHeard t bus s) bus).phase :=
  le_trans (Nat.le_add_left 1 n) asks.2.2.2.1

theorem SpdmAsks.unlimited {n : Nat} (asks : SpdmAsks t bus req s code n) : (getConn (spdmHeard t bus s) bus).limit = 0 :=
  asks.2.2.2.2

/-- Outside sessions the answer is the one of the request's own part. -/
theorem SpdmAsks.answered {n : Nat} (asks : SpdmAsks t bus req s code n)
    (answer : f bus none t req (spdmHeard t bus s) = (r, z))
    (whole : (getConn z bus).limit = 0 ∨ r.length ≤ (getConn z bus).limit) :
    spdmRequest t bus none code req (needPhase n f) s = spdmSaid bus none r z := by
  obtain ⟨open_, named, version, along, -⟩ := asks
  exact spdmRequest_answered open_ named (by simp) ((needPhase_met version along).trans answer) whole

/-! ### Sessions -/

/-- The connection after a message of a session, whose mark becomes `on` of the old one. -/
def sessionMarked (i t : Nat) (on : Bool → Bool) (x : SpdmConn) : SpdmConn :=
  { x with sessions := x.sessions.map fun e => if e.1 = i then (i, on e.2.1, t) else e }

theorem sessionMarked_marked {i : Nat} {on : Bool → Bool} :
    sessionMarked i t on (sessionMarked i t id x) = sessionMarked i t on x := by
  simp only [sessionMarked, List.map_map, SpdmConn.mk.injEq, List.map_inj_left, Function.comp_apply, true_and, and_true]
  intro e _
  by_cases own : e.1 = i <;> simp [own]

theorem sessions_filter_marked {i : Nat} :
    (sessionMarked i t id x).sessions.filter (fun e => e.1 != i) = x.sessions.filter fun e => e.1 != i := by
  simp only [sessionMarked, id]
  induction x.sessions with
  | nil => rfl
  | cons e l ih => by_cases own : e.1 = i <;> simp [own, ih]

/-- In a session of the asked kind the answer is the one of the request's own part, after the session's time is noted. -/
theorem SpdmAsks.answered_in {i : Nat} {on : Bool} {g : Nat → SpdmFn} (asks : SpdmAsks t bus req s code 3)
    (inside : ((getConn (spdmHeard t bus s) bus).sessions.any fun e => e.1 == i && e.2.1 == on) = true)
    (answer : g i bus (some i) t req (putConn bus (sessionMarked i t id (getConn (spdmHeard t bus s) bus)) (spdmHeard t bus s)) = (r, z))
    (unlimited : (getConn z bus).limit = 0) :
    spdmRequest t bus (some i) code req (needPhase 3 (needSession on g)) s = spdmSaid bus (some i) r z := by
  obtain ⟨open_, named, version, along, -⟩ := asks
  refine spdmRequest_answered open_ named ?_ ((needPhase_met version along).trans ((if_pos inside).trans answer)) (.inl unlimited)
  rintro _ ⟨⟩
  rw [List.any_eq_true] at inside ⊢
  obtain ⟨e, held, own⟩ := inside
  exact ⟨e, held, (Bool.and_eq_true_iff.mp own).1⟩

/-! ### Connection and identity -/

@[simp] theorem getConn_freeBytes {n : Nat} : getConn (freeBytes n s).2 bus = getConn s bus := rfl

theorem exec_getVersion_open (open_ : busOpen (atTime t s) bus = true) (named : leAt req 1 1 = 0x84) (version : leAt req 0 1 = 0x10) :
    exec (.getVersion t bus none req) s = .next (spdmSaid bus none [0x10, 0x04, 0, 0, 0, 1, 0, 0x13]
      (putConn bus { SpdmConn.reset with phase := 1 } (spdmHeard t bus s))) := by
  have answer : spdmVersion bus none t req (spdmHeard t bus s) = ([0x10, 0x04, 0, 0, 0, 1, 0, 0x13],
      putConn bus { SpdmConn.reset with phase := 1 } (spdmHeard t bus s)) :=
    (if_neg Bool.false_ne_true).trans (if_neg (not_not_intro version))
  exact congrArg _ (spdmRequest_answered open_ named (by simp) answer (.inl (congrArg SpdmConn.limit (getConn_putConn (le_refl 1)))))

theorem exec_getCapabilities_asked (asks : SpdmAsks t bus req s 0xE1 1) (fits : leAt req 12 4 = 0 ∨ 20 ≤ leAt req 12 4) :
    let x := freeBytes 9 (spdmHeard t bus s)
    exec (.getCapabilities t bus none req) s = .next (spdmSaid bus none
      (spdmMsg 0x61 0 0 ([0] ++ x.1.take 1 ++ [0, 0] ++ leBytes 4 0x262D6 ++ x.1.drop 1))
      (putConn bus { getConn (spdmHeard t bus s) bus with phase := 2, limit := leAt req 12 4 } x.2)) := by
  refine congrArg _ (asks.answered rfl ?_)
  rw [getConn_putConn (Nat.le_of_ble_eq_true rfl)]
  exact fits

theorem exec_negotiateAlgorithms_asked (asks : SpdmAsks t bus req s 0xE3 2) (sha384 : bitOf (leAt req 8 4) 3 = true)
    (p384 : bitOf (leAt req 12 4) 1 = true) : exec (.negotiateAlgorithms t bus none req) s = .next (spdmSaid bus none
      (spdmMsg 0x63 3 0 (leBytes 2 48 ++ [1, 0] ++ leBytes 4 4 ++ leBytes 4 8 ++ leBytes 4 2 ++ List.replicate 16 0 ++
        [2, 0x20, 0x10, 0, 3, 0x20, 2, 0, 5, 0x20, 1, 0]))
      (putConn bus { getConn (spdmHeard t bus s) bus with phase := 3 } (spdmHeard t bus s))) := by
  have known : ¬ (¬ bitOf (leAt req 8 4) 3 = true ∨ ¬ bitOf (leAt req 12 4) 1 = true) := by simp [sha384, p384]
  refine congrArg _ (asks.answered (if_neg known) (.inl ?_))
  exact limit_putConn (Nat.le_of_ble_eq_true rfl) asks.unlimited

theorem exec_getDigests_asked (asks : SpdmAsks t bus req s 0x81 3) : exec (.getDigests t bus none req) s =
    .next (spdmSaid bus none (spdmMsg 0x01 1 1 (attestBytes 2 0 48)) (spdmHeard t bus s)) :=
  congrArg _ (asks.answered rfl (.inl asks.unlimited))

/-- A part of the chain of slot 0, or the error of a part past its end. -/
theorem exec_getCertificate_asked (asks : SpdmAsks t bus req s 0x82 3) (slot : leAt req 2 1 = 0) :
    let n := min (leAt req 6 2) (Config.attestLen 0 - leAt req 4 2)
    exec (.getCertificate t bus none req) s = .next (spdmSaid bus none
      (if leAt req 4 2 < Config.attestLen 0 then
        spdmMsg 0x02 0 0 (leBytes 2 n ++ leBytes 2 (Config.attestLen 0 - leAt req 4 2 - n) ++ attestBytes 0 (leAt req 4 2) n)
       else spdmMsg 0x7F 0x01 0 []) (spdmHeard t bus s)) := by
  refine congrArg _ (asks.answered ?_ (.inl asks.unlimited))
  by_cases within : leAt req 4 2 < Config.attestLen 0
  · rw [if_pos within]
    exact if_neg (by rw [slot]; omega)
  · rw [if_neg within]
    exact if_pos (.inr (by omega))

theorem exec_challenge_asked (asks : SpdmAsks t bus req s 0x83 3) (slot : leAt req 2 1 = 0) (bare : leAt req 3 1 = 0) :
    let x := freeBytes 416 (spdmHeard t bus s)
    exec (.challenge t bus none req) s = .next (spdmSaid bus none
      (spdmMsg 0x03 0 1 (attestBytes 2 0 48 ++ x.1.take 32 ++ leBytes 2 0 ++ (req.drop 36).take 8 ++ x.1.drop 32))
      (keepSigned bus 0 t (spdmHeard t bus s).fresh x.2)) := by
  refine congrArg _ (asks.answered ?_ (.inl ?_))
  · refine (if_neg (not_not_intro slot)).trans ?_
    simp only [bare, if_true]
  · exact limit_keepSigned asks.begun asks.unlimited

/-! ### Measurements -/

theorem exec_getMeasurements_block (asks : SpdmAsks t bus req s 0xE0 3) (plain : leAt req 2 1 % 2 = 0) (least : 1 ≤ leAt req 3 1)
    (most : leAt req 3 1 ≤ 8) :
    let x := freeBytes 32 (spdmHeard t bus s)
    let block := measureBlock (spdmHeard t bus s) (leAt req 3 1)
    exec (.getMeasurements t bus none req) s = .next (spdmSaid bus none
      (spdmMsg 0x60 0 0 (leBytes 1 1 ++ leBytes 3 block.length ++ block ++ x.1 ++ leBytes 2 0 ++ (req.drop 4).take 8)) x.2) := by
  have sound : ¬ (¬ (leAt req 3 1 ≤ 8 ∨ leAt req 3 1 = 0xFF) ∨ (leAt req 2 1 % 2 = 1 ∧ leAt req 36 1 % 16 ≠ 0)) := by omega
  have one : leAt req 3 1 ≠ 0 ∧ leAt req 3 1 ≠ 0xFF := by omega
  have all : (freeBytes 32 (spdmHeard t bus s)).1.length = 32 := by simp [freeBytes]
  refine congrArg _ (asks.answered ((if_neg sound).trans ?_) (.inl (getConn_freeBytes.symm ▸ asks.unlimited)))
  simp only [plain, if_neg one.1, if_neg one.2, List.flatMap_cons, List.flatMap_nil, List.append_nil, List.length_singleton,
    Nat.mul_zero, Nat.add_zero, List.take_of_length_le all.le, List.drop_of_length_le all.le, Nat.zero_ne_one, if_false]

theorem exec_getMeasurements_signed (asks : SpdmAsks t bus req s 0xE0 3) (signed : leAt req 2 1 % 2 = 1) (count : leAt req 3 1 = 0)
    (slot : leAt req 36 1 % 16 = 0) :
    let x := freeBytes 416 (spdmHeard t bus s)
    exec (.getMeasurements t bus none req) s = .next (spdmSaid bus none
      (spdmMsg 0x60 8 0 ([0] ++ [0, 0, 0] ++ x.1.take 32 ++ leBytes 2 0 ++ (req.drop 37).take 8 ++ x.1.drop 32))
      (keepSigned bus 1 t (spdmHeard t bus s).fresh x.2)) := by
  have sound : ¬ (¬ (leAt req 3 1 ≤ 8 ∨ leAt req 3 1 = 0xFF) ∨ (leAt req 2 1 % 2 = 1 ∧ leAt req 36 1 % 16 ≠ 0)) := by omega
  refine congrArg _ (asks.answered ((if_neg sound).trans ?_) (.inl ?_))
  · simp only [signed, count, if_true, List.flatMap_nil, List.length_nil, List.append_nil, Nat.mul_one]
    rfl
  · exact limit_keepSigned asks.begun asks.unlimited

/-! ### Sessions -/

theorem leAt_two_lt {l : List Byte} {o : Nat} : leAt l o 2 < 65536 := by
  have short : ((l.drop o).take 2).length ≤ 2 := List.length_take_le _ _
  unfold leAt
  match (l.drop o).take 2, short with
  | [], _ => simp [leNat]
  | [a], _ => simp only [leNat]; omega
  | [a, b], _ => simp only [leNat]; omega

theorem exec_keyExchange_asked (asks : SpdmAsks t bus req s 0xE4 3) (slot : leAt req 3 1 = 0) (bare : leAt req 2 1 = 0) :
    ∃ r id, leAt r 0 1 = 0x13 ∧ leAt r 1 1 = 0x64 ∧ id % 65536 = leAt req 4 2 ∧
      exec (.keyExchange t bus none req) s = .next (spdmSaid bus none r (keepSigned bus 2 t (spdmHeard t bus s).fresh
        (putConn bus { getConn (spdmHeard t bus s) bus with
          sessions := (getConn (spdmHeard t bus s) bus).sessions ++ [(id, false, t)] } (freeBytes 563 (spdmHeard t bus s)).2))) := by
  let x := (freeBytes 563 (spdmHeard t bus s)).1
  refine ⟨spdmMsg 0x64 (leAt x 0 1) 0 ((x.drop 1).take 2 ++ [0, 0] ++ (x.drop 3).take 128 ++ leBytes 2 0 ++ x.drop 131),
    leAt req 4 2 + 65536 * leAt x 1 2, rfl, rfl, ?id, congrArg _ (asks.answered ((if_neg (not_not_intro slot)).trans ?answer) (.inl ?whole))⟩
  case answer =>
    simp only [bare, if_true]
    rfl
  case id => rw [Nat.add_mul_mod_self_left, Nat.mod_eq_of_lt leAt_two_lt]
  case whole => exact limit_keepSigned (begun_putConn asks.begun) (limit_putConn asks.begun asks.unlimited)

section
variable {i : Nat}

/-- FINISH establishes a session in its handshake. -/
theorem exec_finish_handshake (asks : SpdmAsks t bus req s 0xE5 3)
    (inside : ((getConn (spdmHeard t bus s) bus).sessions.any fun e => e.1 == i && e.2.1 == false) = true) :
    exec (.finish t bus (some i) req) s = .next (spdmSaid bus (some i) (spdmMsg 0x65 0 0 [])
      (putConn bus (sessionMarked i t (fun _ => true) (getConn (spdmHeard t bus s) bus)) (spdmHeard t bus s))) := by
  have begun (on : Bool → Bool) : 1 ≤ (sessionMarked i t on (getConn (spdmHeard t bus s) bus)).phase := asks.begun
  have once : putConn bus (sessionMarked i t (fun _ => true) (sessionMarked i t id (getConn (spdmHeard t bus s) bus)))
      (putConn bus (sessionMarked i t id (getConn (spdmHeard t bus s) bus)) (spdmHeard t bus s)) =
      putConn bus (sessionMarked i t (fun _ => true) (getConn (spdmHeard t bus s) bus)) (spdmHeard t bus s) := by
    rw [sessionMarked_marked, putConn_putConn (begun id) (begun _)]
  refine congrArg _ (asks.answered_in inside ?_ ?_)
  · rw [getConn_putConn (begun id)]
    exact congrArg _ once
  · exact limit_putConn (begun _) asks.unlimited

section
variable (inside : ((getConn (spdmHeard t bus s) bus).sessions.any fun e => e.1 == i && e.2.1 == true) = true)
include inside

theorem exec_spdmHeartbeat_established (asks : SpdmAsks t bus req s 0xE8 3) :
    exec (.spdmHeartbeat t bus (some i) req) s = .next (spdmSaid bus (some i) (spdmMsg 0x68 0 0 [])
      (putConn bus (sessionMarked i t id (getConn (spdmHeard t bus s) bus)) (spdmHeard t bus s))) := by
  refine congrArg _ (asks.answered_in inside rfl ?_)
  exact limit_putConn asks.begun asks.unlimited

theorem exec_keyUpdate_established (asks : SpdmAsks t bus req s 0xE9 3) (least : 1 ≤ leAt req 2 1) (most : leAt req 2 1 ≤ 3) :
    exec (.keyUpdate t bus (some i) req) s = .next (spdmSaid bus (some i) (spdmMsg 0x69 (leAt req 2 1) (leAt req 3 1) [])
      (putConn bus (sessionMarked i t id (getConn (spdmHeard t bus s) bus)) (spdmHeard t bus s))) := by
  refine congrArg _ (asks.answered_in inside (if_neg (by omega)) ?_)
  exact limit_putConn asks.begun asks.unlimited

theorem exec_endSession_established (asks : SpdmAsks t bus req s 0xEC 3) :
    exec (.endSession t bus (some i) req) s = .next (spdmSaid bus (some i) (spdmMsg 0x6C 0 0 [])
      (putConn bus { getConn (spdmHeard t bus s) bus with
        sessions := (getConn (spdmHeard t bus s) bus).sessions.filter fun e => e.1 != i } (spdmHeard t bus s))) := by
  have begun : 1 ≤ (sessionMarked i t id (getConn (spdmHeard t bus s) bus)).phase := asks.begun
  refine congrArg _ (asks.answered_in inside ?_ ?_)
  · rw [getConn_putConn begun]
    simp only [sessions_filter_marked]
    exact congrArg _ (putConn_putConn begun begun)
  · exact limit_putConn asks.begun asks.unlimited

end

end

/-! ### Chunks -/

theorem exec_chunkSend_middle (asks : SpdmAsks t bus req s 0x85 3) (more : bitOf (leAt req 2 1) 0 = false) (later : leAt req 4 2 ≠ 0) :
    exec (.chunkSend t bus none req) s = .next (spdmSaid bus none
      ([0x13, 0x05, 0] ++ (req.drop 3).take 1 ++ leBytes 2 (leAt req 4 2))
      (putConn bus { getConn (spdmHeard t bus s) bus with
        chunkIn := (getConn (spdmHeard t bus s) bus).chunkIn ++ (req.drop 12).take (leAt req 8 4) } (spdmHeard t bus s))) := by
  refine congrArg _ (asks.answered ?_ (.inl ?_))
  · refine (if_pos (Bool.eq_false_iff.mp more)).trans ?_
    simp only [if_neg later, List.append_nil]
  · exact limit_putConn asks.begun asks.unlimited

theorem exec_chunkGet_last (asks : SpdmAsks t bus req s 0x86 3) (later : leAt req 4 2 ≠ 0)
    (one : (getConn (spdmHeard t bus s) bus).chunkOut.length = 1) :
    exec (.chunkGet t bus none req) s = .next (spdmSaid bus none
      ([0x13, 0x06, 1] ++ (req.drop 3).take 1 ++ leBytes 2 (leAt req 4 2) ++ [0, 0] ++ leBytes 4 1 ++
        (getConn (spdmHeard t bus s) bus).chunkOut)
      (putConn bus { getConn (spdmHeard t bus s) bus with chunkOut := [] } (spdmHeard t bus s))) := by
  have held : (getConn (spdmHeard t bus s) bus).chunkOut ≠ [] := List.ne_nil_of_length_eq_add_one one
  have whole (n : Nat) : min 1 (max 1 n) = 1 := by omega
  refine congrArg _ (asks.answered ((if_neg held).trans ?_) (.inl ?_))
  · simp only [if_neg later, one, whole, if_true, List.take_of_length_le one.le, List.drop_of_length_le one.le, List.append_nil]
    rfl
  · exact limit_putConn asks.begun asks.unlimited

/-! ### The SLH-DSA signature -/

section
variable {p : List Byte} (vendor : vendorReq req = some p) (version : leAt p 1 1 = 1) (least : 1 ≤ leAt p 8 4) (most : leAt p 8 4 ≤ 4096)
include vendor version least most

/-- A part of the signature of a kept response, asked for at its bound or later (R580). -/
theorem exec_pqSig_due {sent key : Nat} (asks : SpdmAsks t bus req s 0xFE 3) (op : leAt p 0 1 = 1)
    (signed : mget (getConn (spdmHeard t bus s) bus).signed (leAt p 2 1) = some (sent, key)) (due : sent + 60000000000 ≤ t)
    (within : leAt p 4 4 + leAt p 8 4 ≤ 16224) :
    let part (o k : Nat) : List Byte := (List.range k).map fun j => Config.freeByte key (2 ^ 20 + o + j)
    exec (.pqSig t bus none req) s = .next (spdmSaid bus none (vendorMsg (leBytes 1 1 ++ [1, 0, 0] ++ leBytes 4 16224 ++
      leBytes 4 (leAt p 4 4) ++ leBytes 4 (leAt p 8 4) ++ part (2 ^ 20) 48 ++ part (leAt p 4 4) (leAt p 8 4)))
      { spdmHeard t bus s with fresh := (spdmHeard t bus s).fresh + 1 }) := by
  have known : ¬ (leAt p 0 1 ≠ 1 ∨ leAt p 1 1 ≠ 1) := by omega
  have ready : ¬ (t < sent + (if (spdmHeard t bus s).power.phase = .running then 500000000 else 60000000000) ∧
      ¬ Config.freeBool (spdmHeard t bus s).fresh = true) := by
    rintro ⟨early, -⟩
    split at early <;> omega
  have held : ¬ (leAt p 8 4 = 0 ∨ 4096 < leAt p 8 4 ∨ 16224 < leAt p 4 4 + leAt p 8 4) := by omega
  refine congrArg Host.Outcome.next (asks.answered ?answer (.inl ?whole))
  case answer => simp only [vendor, if_neg known, signed, if_neg ready, pqAnswer, if_neg held]
  case whole => exact asks.unlimited

/-- A part of the certificate chain, or status 2 for one past its end (R580). -/
theorem exec_pqCert_asked (asks : SpdmAsks t bus req s 0xFE 3) (op : leAt p 0 1 = 2) (slot : leAt p 2 1 = 0) :
    let fails := freeBytes 60 (spdmHeard t bus s)
    exec (.pqCert t bus none req) s = .next (if leAt p 4 4 + leAt p 8 4 ≤ Config.attestLen 1 then
        spdmSaid bus none (vendorMsg (leBytes 1 2 ++ [1, 0, 0] ++ leBytes 4 (Config.attestLen 1) ++ leBytes 4 (leAt p 4 4) ++
          leBytes 4 (leAt p 8 4) ++ attestBytes 3 0 48 ++ attestBytes 1 (leAt p 4 4) (leAt p 8 4))) (spdmHeard t bus s)
      else spdmSaid bus none (vendorMsg (leBytes 1 2 ++ [1, 2, 0] ++ fails.1)) fails.2) := by
  have known : ¬ (leAt p 0 1 ≠ 2 ∨ leAt p 1 1 ≠ 1 ∨ leAt p 2 1 ≠ 0) := by omega
  refine congrArg Host.Outcome.next ?_
  split_ifs with within
  · have held : ¬ (leAt p 8 4 = 0 ∨ 4096 < leAt p 8 4 ∨ Config.attestLen 1 < leAt p 4 4 + leAt p 8 4) := by omega
    refine asks.answered ?_ (.inl asks.unlimited)
    simp only [vendor, if_neg known, pqAnswer, if_neg held]
  · have beyond : leAt p 8 4 = 0 ∨ 4096 < leAt p 8 4 ∨ Config.attestLen 1 < leAt p 4 4 + leAt p 8 4 := by omega
    refine asks.answered ?_ (.inl (getConn_freeBytes.symm ▸ asks.unlimited))
    simp only [vendor, if_neg known, pqAnswer, if_pos beyond, pqFail]
    rfl

end

/-! ### Requests that are not served -/

section
variable (open_ : busOpen (atTime t s) bus = true) (named : leAt req 1 1 = 0x81) (unlimited : (getConn (spdmHeard t bus s) bus).limit = 0)
include open_ named unlimited

theorem exec_getDigests_version (version : leAt req 0 1 ≠ 0x13) : exec (.getDigests t bus none req) s =
    .next (spdmSaid bus none (spdmMsg 0x7F 0x41 0 []) (spdmHeard t bus s)) :=
  congrArg _ (spdmRequest_answered open_ named (by simp) (if_pos version) (.inl unlimited))

theorem exec_getDigests_early (version : leAt req 0 1 = 0x13) (early : (getConn (spdmHeard t bus s) bus).phase < 3) :
    exec (.getDigests t bus none req) s = .next (spdmSaid bus none (spdmMsg 0x7F 0x04 0 []) (spdmHeard t bus s)) :=
  congrArg _ (spdmRequest_answered open_ named (by simp) ((if_neg (not_not_intro version)).trans (if_pos early)) (.inl unlimited))

end

end

end

/-- Settles O53: an open medium answers what a request's own part answers, and the connection is the one its last update put. -/
theorem spdmConnectionSessionsAndSignatures : Obligations.SpdmConnectionSessionsAndSignatures := by
  intro t i key bus sess req p s v w x say asks isIn at_ kept free
  refine ⟨exec_getVersion_open, exec_getCapabilities_asked, exec_negotiateAlgorithms_asked, exec_getDigests_asked, ?certificate,
    exec_challenge_asked, exec_getMeasurements_block, if_pos rfl, exec_getMeasurements_signed, exec_keyExchange_asked,
    exec_finish_handshake, fun h inside => exec_spdmHeartbeat_established inside h,
    fun h inside => exec_keyUpdate_established inside h, fun h inside => exec_endSession_established inside h,
    exec_chunkSend_middle, exec_chunkGet_last, ?signature, ?unserved,
    fun open_ named unlimited => ⟨exec_getDigests_version open_ named unlimited, exec_getDigests_early open_ named unlimited⟩⟩
  case certificate =>
    intro h slot n
    rw [exec_getCertificate_asked h slot]
    split_ifs <;> rfl
  case signature =>
    intro h vendor version n least most
    refine ⟨fun op => exec_pqSig_due vendor version least most h op, fun op slot => ?_⟩
    rw [exec_pqCert_asked vendor version least most h op slot]
    split_ifs <;> rfl
  case unserved =>
    intro c row
    simp only [List.mem_cons, List.not_mem_nil, or_false] at row
    rcases row with rfl | rfl | rfl | rfl | rfl | rfl | rfl | rfl | rfl | rfl | rfl | rfl | rfl | rfl | rfl | rfl <;>
      exact ⟨fun closed => congrArg _ (spdmRequest_closed closed),
        fun named _ unknown => (spdmRequest_unknown named unknown).imp (congrArg _) (congrArg _)⟩

end Sys2Proof.Machine

/-! SUPPORT. What GET_PLDM_COMMANDS answers for the platform type (R582). -/

namespace Sys2Proof.Machine

section
variable {t : Nat} {bus : SideBus} {s : State}

theorem pldm_open {name : String} {f : State → List Byte × State} (open_ : busOpen (atTime t s) bus = true) (sideband : bus ≠ .doe) :
    pldm t bus name f s = emit (.sideband "PLDM" name (f (sideFrame (atTime t s))).1) (f (sideFrame (atTime t s))).2 :=
  if_neg (not_or.mpr ⟨not_not_intro open_, sideband⟩)

/-- The platform type's commands stand in the first 11 of the 32 bytes after the completion code. -/
theorem exec_getPldmCommands_platform {req : List Byte} (open_ : busOpen (atTime t s) bus = true) (sideband : bus ≠ .doe)
    (platform : leAt req 0 1 = 2) : exec (.getPldmCommands t bus req) s = .next (emit (.sideband "PLDM" "GetPLDMCommands"
      ([0, 0x10, 0x0C, 0x0E, 0, 0, 0, 6, 0, 0, 0, 3] ++ List.replicate 21 0)) (sideFrame (atTime t s))) := by
  rw [exec_getPldmCommands, execGetPldmCommands, pldm_open open_ sideband]
  simp only [platform]
  rfl

theorem emit_sideband_inj {medium name : String} {r r' : List Byte}
    (same : emit (.sideband medium name r) s = emit (.sideband medium name r') s) : r = r' := by
  have sent : s.out ++ [Emit.sideband medium name r] = s.out ++ [Emit.sideband medium name r'] := congrArg State.out same
  injection (List.append_cancel_left sent) with last
  injection last

end

/-- Refutes O54: on SMBus after reset, the answer to GET_PLDM_COMMANDS for type 2 is the completion code and 32 bytes of commands,
where the statement writes 33 bytes after the completion code. -/
theorem not_pldmBaseAndPlatformCommands : ¬ Obligations.PldmBaseAndPlatformCommands := by
  intro holds
  obtain ⟨-, -, -, -, -, commands, -⟩ := holds 0 0 0 0 0 .smbus [2] [] [] ⟨[], []⟩ State.reset
  have open_ : busOpen (atTime 0 State.reset) .smbus = true := by decide +kernel
  have sideband : SideBus.smbus ≠ .doe := by decide
  have claimed := (commands ⟨open_, sideband⟩).2.1 rfl
  rw [exec_getPldmCommands_platform open_ sideband rfl] at claimed
  have bytes := congrArg List.length (emit_sideband_inj (Host.Outcome.next.inj claimed))
  exact absurd bytes (by decide)

end Sys2Proof.Machine

/-! SUPPORT. Performance counters: selection, clearing, the stamped read, counting and samples; the precise record's clear (R586 to
R599). -/

namespace Sys2Proof.Machine

section
variable {s : State} {p : Page} {off o v : Nat}

/-! ### Registers that hold numbers -/

theorem mwf_setRegN (h : mwf s.regs = true) : mwf (setRegN s p off v).regs = true := mwf_mputD _ _ _ h

theorem reg_setRegN_same (h : mwf s.regs = true) : reg (setRegN s p off v) p off = v % 2 ^ 32 := by
  rw [reg, setRegN, getReg_setReg_same h, BitVec.toNat_ofNat]

theorem reg_setRegN_of_ne (h : o ≠ off) : reg (setRegN s p off v) p o = reg s p o := by
  rw [reg, setRegN, getReg_setReg_of_ne _ (by unfold pageAt; omega), reg]

/-- A counter's two halves read back as the 48-bit value they were set to (R588). -/
theorem pcVal_setPcVal {i : Nat} (h : mwf s.regs = true) (small : v < 2 ^ 48) : pcVal (setPcVal s p i v) p i = v := by
  have apart : R.PC_VAL_LO + 8 * i ≠ R.PC_VAL_HI + 8 * i := by unfold R.PC_VAL_LO R.PC_VAL_HI; omega
  rw [pcVal, fld, setPcVal, reg_setRegN_of_ne apart, reg_setRegN_same h, reg_setRegN_same (mwf_setRegN h), bitsOf]
  omega

theorem bitOf_iff_bitsOf {w i : Nat} : bitOf w i = true ↔ bitsOf w i 1 = 1 := by
  simp only [bitOf, bitsOf, pow_one, beq_iff_eq]

/-! ### Selection and clearing -/

section
variable {a : Agent} {i : Nat} (seen : sees s a p = true) (counter : i < 8)
include seen counter

theorem pcCtlWrite_seen : pcCtlWrite a p i v s =
    if eventDefined p.ty (bitsOf v 0 16) = true then
      (if bitOf v 29 = true then setPcVal (writeFields s a p (R.PC_CTL + 4 * i) v) p i 0 else writeFields s a p (R.PC_CTL + 4 * i) v)
    else penBit pPERF 1
      (if bitOf v 29 = true then setPcVal (writeFields s a p (R.PC_CTL + 4 * i) v) p i 0 else writeFields s a p (R.PC_CTL + 4 * i) v) :=
  if_neg (not_or.mpr ⟨not_not_intro seen, Nat.not_le.mpr counter⟩)

theorem exec_pcCtlWrite_kept {d : Dword} (kept : bitOf d.toNat 29 = false) : exec (.pcCtlWrite a p i d) s =
    .next (if eventDefined p.ty (bitsOf d.toNat 0 16) = true then writeFields s a p (R.PC_CTL + 4 * i) d.toNat
           else penBit pPERF 1 (writeFields s a p (R.PC_CTL + 4 * i) d.toNat)) := by
  rw [exec_pcCtlWrite, execPcCtlWrite, pcCtlWrite_seen seen counter, if_neg (Bool.eq_false_iff.mp kept)]

theorem exec_pcClear_seen (canon : s.Canon) : ∃ w, pcVal w p i = 0 ∧ exec (.pcClear a p i) s =
    .next (if eventDefined p.ty (bitsOf (reg s p (R.PC_CTL + 4 * i)) 0 16) = true then w else penBit pPERF 1 w) := by
  have clears : bitOf (withBits (reg s p (R.PC_CTL + 4 * i)) 29 1 1) 29 = true :=
    bitOf_iff_bitsOf.mpr (bitsOf_withBits_same _ 29 1 1)
  have event : bitsOf (withBits (reg s p (R.PC_CTL + 4 * i)) 29 1 1) 0 16 = bitsOf (reg s p (R.PC_CTL + 4 * i)) 0 16 :=
    bitsOf_withBits_of_disjoint (by decide) _ _
  obtain ⟨written, -⟩ := writeFields_keeps (a := a) (p := p) (off := R.PC_CTL + 4 * i)
    (v := withBits (reg s p (R.PC_CTL + 4 * i)) 29 1 1) (Keeps.refl s)
  refine ⟨_, pcVal_setPcVal (written canon).1 (by decide), ?_⟩
  rw [exec_pcClear, execPcClear, pcCtlWrite_seen seen counter, if_pos clears, event]

/-! ### The stamped read -/

/-- A read of a low half that is not latched latches the high half for its reader and takes the stamp (R588). -/
theorem exec_pcValLoRead_fresh (canon : s.Canon) (fresh : mget s.latches (latchKey a (pageAt p (R.PC_VAL_LO + 8 * i))) = none)
    (single : pcChained s p i = false) : ∃ w, exec (.pcValLoRead a p i) s = .next w ∧
      mget w.latches (latchKey a (pageAt p (R.PC_VAL_HI + 8 * i))) = some (BitVec.ofNat 32 (fld s p (R.PC_VAL_HI + 8 * i) 0 16)) ∧
      reg w p R.PC_STAMP_LO = s.tick.count % 2 ^ 32 ∧ reg w p R.PC_STAMP_OFS = (s.now - s.tick.edgeAt) % 2 ^ 32 := by
  have regs : mwf (setLatch a p (R.PC_VAL_HI + 8 * i) (fld s p (R.PC_VAL_HI + 8 * i) 0 16) s).regs = true := canon.1
  have unchained : ¬ pcChained (setLatch a p (R.PC_VAL_HI + 8 * i) (fld s p (R.PC_VAL_HI + 8 * i) 0 16) s) p i = true :=
    Bool.eq_false_iff.mp single
  simp only [exec_pcValLoRead, execPcValLoRead, if_pos (And.intro seen counter), pcRead, fresh, if_neg unchained]
  refine ⟨_, rfl, ?latched, ?tick, ?offset⟩
  case latched => exact (mget_mput _ _ _ _).trans (if_pos rfl)
  case tick =>
    rw [reg_setRegN_of_ne (by decide), reg_setRegN_same regs, Nat.mod_mod]
    rfl
  case offset =>
    rw [reg_setRegN_same (mwf_setRegN regs), Nat.mod_mod]
    rfl

end

/-! ### Counting -/

section
variable {i n : Nat}

/-- A counter is selected, enabled, of a defined event, and not the upper half of a chain (R586, R589, R591). -/
abbrev Counts (p : Page) (i : Nat) (s : State) : Prop :=
  pagePresent s p = true ∧ i < 8 ∧ bitOf (reg s p (R.PC_CTL + 4 * i)) 31 = true ∧
    eventDefined p.ty (bitsOf (reg s p (R.PC_CTL + 4 * i)) 0 16) = true ∧ (i % 2 = 1 → bitOf (reg s p (R.PC_CTL + 4 * i)) 30 = false)

theorem exec_counterWrap_open (counts : Counts p i s) (open_ : fld s pPERF R.PERF.GATE 0 1 = 1) :
    exec (.counterWrap p i n) s = .next (pcAdd p i n s) := by
  obtain ⟨present, counter, enabled, event, single⟩ := counts
  have upper : ¬ (i % 2 = 1 ∧ bitOf (reg s p (R.PC_CTL + 4 * i)) 30 = true) := fun ⟨odd, chained⟩ =>
    Bool.eq_false_iff.mp (single odd) chained
  exact congrArg _ (if_pos ⟨present, counter, enabled, open_, event, upper⟩)

theorem exec_counterWrap_below (canon : s.Canon) (counts : Counts p i s) (open_ : fld s pPERF R.PERF.GATE 0 1 = 1)
    (below : pcVal s p i + n < 2 ^ 48) : ∃ w, exec (.counterWrap p i n) s = .next w ∧ pcVal w p i = pcVal s p i + n := by
  refine ⟨_, exec_counterWrap_open counts open_, ?_⟩
  rw [pcAdd]
  simp only [if_neg (Nat.not_le.mpr below), Nat.mod_eq_of_lt below]
  exact pcVal_setPcVal canon.1 below

theorem exec_counterWrap_closed (closed : fld s pPERF R.PERF.GATE 0 1 = 0) : exec (.counterWrap p i n) s = .next s := by
  refine congrArg _ (if_neg fun ⟨_, _, _, open_, _⟩ => ?_)
  rw [closed] at open_
  exact Nat.zero_ne_one open_

end

/-! ### Samples -/

/-- The bytes of a sample: tick, offsets of its first and last read, PC_OVF and the eight values (R594). -/
def sampleBytes (p : Page) (s : State) : List Byte :=
  leBytes 8 s.tick.count ++ leBytes 4 (s.now - s.tick.edgeAt) ++ leBytes 4 (s.now - s.tick.edgeAt + (freeVal s).1 % 401) ++
    leBytes 1 (reg (freeVal s).2 p R.PC_OVF) ++ List.replicate 7 0 ++
    ((List.range 8).flatMap fun i => leBytes 8 (pcVal (freeVal s).2 p i)) ++ List.replicate 8 0

theorem exec_perfRead_timely {k : CmdRef} {c : SvcCmd} (h : SvcReady k 0xA0 c s) (timely : s.now + 400 ≤ s.tick.edgeAt + s.tick.len)
    (page : pageOf (bitsOf (c.d 4) 12 14 * 0x1000) = some p) (present : pagePresent s p = true) :
    exec (.perfRead k) s =
      .next (complete c st.OK 0 (dmaWrite 0 (bitsOf (c.d 7) 0 1) (c.q 5) (sampleBytes p s) (freeVal s).2)) := by
  refine congrArg Host.Outcome.next ((if_neg (Nat.not_lt.mpr timely)).trans (runSvc_completes h ?_ rfl ?_))
  · simp only [page, if_pos present]
  · simp only [page]
    rfl

/-! ### The precise record -/

/-- A write of PREC_SEL with CLR by PF0 reaches its register (R595, R599). -/
theorem reaches_precSel : Reaches s (.func 0) pPERF (pageAt pPERF R.PERF.PREC_SEL) R.PERF.PREC_SEL :=
  ⟨by decide, by decide, by decide, rfl⟩

theorem exec_precClear_function {d : Dword} : exec (.precClear (.func 0) d) s =
    .next (precClear (writeFields s (.func 0) pPERF R.PERF.PREC_SEL (withBits d.toNat 31 1 1))) := by
  have clear : bitOf (withBits d.toNat 31 1 1) 31 = true := bitOf_iff_bitsOf.mpr (bitsOf_withBits_same _ 31 1 1)
  rw [exec_precClear, execPrecClear, reaches_precSel.plainWrite_eq (by decide) (by decide), if_neg (by decide), if_neg (by decide),
    if_neg (by decide), if_pos ⟨rfl, rfl, clear⟩]

theorem prec_precClear (canon : s.Canon) :
    mget (precClear s).tags.prec (fld (precClear s) pPERF R.PERF.PREC_SEL 16 2) = none := by
  obtain ⟨-, -, -, -, -, -, prec, -⟩ := canon
  have apart (c : Nat) : R.PERF.PREC_SEL ≠ R.PERF.PREC_FILL + 4 * c := by unfold R.PERF.PREC_SEL R.PERF.PREC_FILL; omega
  have core : fld (precClear s) pPERF R.PERF.PREC_SEL 16 2 = fld s pPERF R.PERF.PREC_SEL 16 2 :=
    congrArg (bitsOf · 16 2) (reg_setRegN_of_ne (apart _))
  rw [core]
  exact (mget_mdel _ prec _).trans (if_pos rfl)

end

/-- Settles O52: each clause is the branch that the page, the gate and the latch select; what is set reads back in a canonical map. -/
theorem countersClearsAndSamples : Obligations.CountersClearsAndSamples := by
  intro a p i n v k c s ctl counts sample first bytes
  refine ⟨fun seen counter => exec_pcCtlWrite_kept seen counter, fun canon seen counter => exec_pcClear_seen seen counter canon,
    fun canon seen counter => exec_pcValLoRead_fresh seen counter canon, exec_counterWrap_open, exec_counterWrap_below,
    exec_counterWrap_closed, exec_perfRead_timely, exec_precClear_function, fun canon => ⟨_, exec_precClear_function, ?_⟩⟩
  obtain ⟨written, -⟩ := writeFields_keeps (a := .func 0) (p := pPERF) (off := R.PERF.PREC_SEL) (v := withBits v.toNat 31 1 1)
    (Keeps.refl s)
  exact prec_precClear (written canon)

end Sys2Proof.Machine
